-- ==== Sys2Proof/Word.lean ====
section
/-! DEFINITION. The words of the LX9: bytes, 32-bit and 64-bit register words (spec/00_scope.md R7, R8, R19). -/

namespace Sys2Proof

/-- A byte of memory. -/
abbrev Byte := BitVec 8

/-- A 32-bit thread register, accumulator entry or FP32 pattern. -/
abbrev W32 := BitVec 32

/-- A 64-bit word of BAR0 register storage. -/
abbrev W64 := BitVec 64

/-- Bits [hi:lo] of a number (the `bits` helper under R19). -/
def bitsOf (x hi lo : Nat) : Nat := (x >>> lo) % 2 ^ (hi - lo + 1)

/-- Bit n of a number. -/
def bitOf (x n : Nat) : Bool := x.testBit n

/-- `x` with bits [hi:lo] replaced by `v`. -/
def withBits (x hi lo v : Nat) : Nat :=
  x - (bitsOf x hi lo <<< lo) + ((v % 2 ^ (hi - lo + 1)) <<< lo)

/-- Bits in the binary numeral of `n` (0 for 0), the `bitlength` of R43. -/
def bitLength (n : Nat) : Nat := if n = 0 then 0 else n.log2 + 1

/-- Ceiling division. -/
def cdiv (a b : Nat) : Nat := (a + b - 1) / b

/-- The numbers `n` bytes spell, least significant byte first (R8). -/
def leNat : List Byte → Nat
  | [] => 0
  | b :: bs => b.toNat + 256 * leNat bs

/-- The `n` little-endian bytes of a number (R8). -/
def leBytes : Nat → Nat → List Byte
  | 0, _ => []
  | n + 1, x => BitVec.ofNat 8 x :: leBytes n (x / 256)

/-- Bytes `off` to `off + n - 1` of a structure, read little-endian; bytes past its end read 0. -/
def leAt (bs : List Byte) (off n : Nat) : Nat := leNat ((bs.drop off).take n)

/-- A list of `n` values. -/
def tabulate {α : Type} (n : Nat) (f : Nat → α) : List α := (List.range n).map f

/-- Position `i` of a list, or a default beyond its end. -/
def nthD {α : Type} (l : List α) (i : Nat) (d : α) : α := (l[i]?).getD d

/-- The list with position `i` replaced. -/
def setNth {α : Type} : List α → Nat → α → List α
  | [], _, _ => []
  | _ :: xs, 0, v => v :: xs
  | x :: xs, i + 1, v => x :: setNth xs i v

end Sys2Proof
end

