-- ==== Sys2Proof/Machine/Num.lean ====
section
/-! DEFINITION. The arithmetic of spec/02_number_formats.md: element formats, exact products, alignment in the window,
accumulation, stochastic rounding and its generators, narrowing on store, thread conversions, binary32 operations; and the
correctly rounded exp2 and log2 of R336, and the mask words of R333. -/

namespace Sys2Proof.Machine

/-- Element formats (Table 2.1) and INT32. -/
inductive Elem where
  | e2m1 | e2m3 | e3m2 | e4m3 | e5m2 | bf16 | fp16 | fp32 | int8 | int32
  deriving DecidableEq, Repr

/-- An operand's format code (R40): plain, an MX element, or FP8 with a tensor scale. -/
inductive OpFmt where
  | plain (e : Elem) | mx (e : Elem) | fp8 (e : Elem)
  deriving DecidableEq, Repr

/-- The element format under a code. -/
def OpFmt.elem : OpFmt → Elem
  | .plain e => e | .mx e => e | .fp8 e => e

/-- Whether the code is one the interface has: MX of the five MX elements, FP8 of E4M3 and E5M2, plain of the others. -/
def OpFmt.legal : OpFmt → Bool
  | .mx e => e == .e2m1 || e == .e2m3 || e == .e3m2 || e == .e4m3 || e == .e5m2
  | .fp8 e => e == .e4m3 || e == .e5m2
  | .plain e => e == .bf16 || e == .fp16 || e == .fp32 || e == .int8 || e == .int32

/-- Bits of an element (Table 2.1). -/
def Elem.width : Elem → Nat
  | .e2m1 => 4 | .e2m3 => 6 | .e3m2 => 6 | .e4m3 => 8 | .e5m2 => 8 | .bf16 => 16 | .fp16 => 16 | .fp32 => 32
  | .int8 => 8 | .int32 => 32

/-- The narrowing parameters of Table 2.7, with FP32 beside them. -/
structure FmtP where
  ebits : Nat
  mbits : Nat
  bias : Nat
  emaxField : Nat
  mmax : Nat
  saturate : Bool
  emaxElem : Int
  deriving DecidableEq, Repr

/-- Table 2.7. The integer formats have no such parameters and answer FP32's. -/
def Elem.params : Elem → FmtP
  | .e2m1 => ⟨2, 1, 1, 3, 1, true, 2⟩
  | .e2m3 => ⟨2, 3, 1, 3, 7, true, 2⟩
  | .e3m2 => ⟨3, 2, 3, 7, 3, true, 4⟩
  | .e4m3 => ⟨4, 3, 7, 15, 6, true, 8⟩
  | .e5m2 => ⟨5, 2, 15, 30, 3, true, 15⟩
  | .bf16 => ⟨8, 7, 127, 254, 127, false, 127⟩
  | .fp16 => ⟨5, 10, 15, 30, 1023, false, 15⟩
  | _ => ⟨8, 23, 127, 254, 8388607, false, 127⟩

/-- Kinds of a value or a product (R42). -/
inductive NumKind where
  | finite | inf | nan
  deriving DecidableEq, Repr

/-- A decoded value: (−1)^neg × mag × 2^exp when finite (R42). -/
structure Dec where
  kind : NumKind
  neg : Bool
  mag : Nat
  exp : Int
  deriving DecidableEq, Repr

/-- The canonical NaN (Table 2.3; R57, R548 for the formats that hold none). -/
def Elem.nanCode : Elem → Nat
  | .fp32 => 0x7FC00000 | .bf16 => 0x7FC0 | .fp16 => 0x7E00 | .e5m2 => 0x7E | .e4m3 => 0x7F | _ => 0

/-- Whether a code is a NaN of its format (Table 2.2). -/
def Elem.isNan (e : Elem) (code : Nat) : Bool :=
  match e with
  | .e4m3 => code % 128 == 0x7F
  | .e5m2 => decide (code % 128 > 0x7C)
  | .bf16 => decide (code % 2 ^ 15 > 0x7F80)
  | .fp16 => decide (code % 2 ^ 15 > 0x7C00)
  | .fp32 => decide (code % 2 ^ 31 > 0x7F800000)
  | _ => false

/-- Whether a code is an infinity of its format (Table 2.2). -/
def Elem.isInf (e : Elem) (code : Nat) : Bool :=
  match e with
  | .e5m2 => code % 128 == 0x7C
  | .bf16 => code % 2 ^ 15 == 0x7F80
  | .fp16 => code % 2 ^ 15 == 0x7C00
  | .fp32 => code % 2 ^ 31 == 0x7F800000
  | _ => false

/-- Whether a code is a NaN or an infinity. -/
def Elem.nonFinite (e : Elem) (code : Nat) : Bool := e.isNan code || e.isInf code

/-- A two's complement number of `w` bits. -/
def toSigned (w code : Nat) : Int :=
  if code.testBit (w - 1) then (code % 2 ^ w : Nat) - (2 ^ w : Nat) else (code % 2 ^ w : Nat)

/-- The `w`-bit two's complement code of an integer. -/
def ofSigned (w : Nat) (v : Int) : Nat := (v % (2 ^ w : Nat)).toNat

/-- Decoding an element under R33 and R42. -/
def Elem.decode (e : Elem) (code : Nat) : Dec :=
  match e with
  | .int8 => let v := toSigned 8 code; ⟨.finite, decide (v < 0), v.natAbs, 0⟩
  | .int32 => let v := toSigned 32 code; ⟨.finite, decide (v < 0), v.natAbs, 0⟩
  | _ =>
    let p := e.params
    let neg := code.testBit (p.ebits + p.mbits)
    if e.isNan code then ⟨.nan, false, 0, 0⟩
    else if e.isInf code then ⟨.inf, neg, 0, 0⟩
    else
      let E := bitsOf code (p.ebits + p.mbits - 1) p.mbits
      let F := code % 2 ^ p.mbits
      if E = 0 then ⟨.finite, neg, F, 1 - (p.bias : Int) - p.mbits⟩
      else ⟨.finite, neg, 2 ^ p.mbits + F, (E : Int) - p.bias - p.mbits⟩

/-- The exact product of two elements (R42); `scaleNan` when either element's scale is 0xFF. -/
def product (scaleNan : Bool) (a b : Dec) : Dec :=
  let neg := xor a.neg b.neg
  if scaleNan || a.kind == .nan || b.kind == .nan
      || (a.kind == .inf && b.kind == .finite && b.mag == 0)
      || (b.kind == .inf && a.kind == .finite && a.mag == 0) then ⟨.nan, false, 0, 0⟩
  else if a.kind == .inf || b.kind == .inf then ⟨.inf, neg, 0, 0⟩
  else ⟨.finite, neg, a.mag * b.mag, a.exp + b.exp⟩

/-- A block sum: `sum` units of weight 2^`lsb` (R43). -/
structure Blk where
  kind : NumKind
  neg : Bool
  sum : Int
  lsb : Int
  deriving DecidableEq, Repr

/-- Exponent of a non-zero value's leading 1. -/
def leadOf (m : Nat) (e : Int) : Int := e + bitLength m - 1

/-- The largest lead among the non-zero finite products, if there is one. -/
def maxLead : List Dec → Option Int
  | [] => none
  | p :: ps =>
    let r := maxLead ps
    if p.kind == .finite && p.mag != 0 then
      match r with
      | none => some (leadOf p.mag p.exp)
      | some q => some (max q (leadOf p.mag p.exp))
    else r

/-- One product in units of 2^lsb: exact above, floored below (R43). -/
def alignOne (lsb : Int) (p : Dec) : Int :=
  if p.kind != .finite || p.mag == 0 then 0
  else
    let v : Int := if p.neg then -(p.mag : Int) else p.mag
    let sh := p.exp - lsb
    if 0 ≤ sh then v * (2 ^ sh.toNat : Nat) else v / (2 ^ (-sh).toNat : Nat)

/-- align_block of R43. -/
def alignBlock (ps : List Dec) (window : Nat) : Blk :=
  let pinf := ps.any (fun p => p.kind == .inf && !p.neg)
  let ninf := ps.any (fun p => p.kind == .inf && p.neg)
  if ps.any (fun p => p.kind == .nan) || (pinf && ninf) then ⟨.nan, false, 0, 0⟩
  else if pinf || ninf then ⟨.inf, ninf, 0, 0⟩
  else
    match maxLead ps with
    | none => ⟨.finite, false, 0, 0⟩
    | some emax =>
      let lsb := emax - (window : Int) + 1
      ⟨.finite, false, (ps.map (alignOne lsb)).foldl (· + ·) 0, lsb⟩

/-- Rounding modes of a conversion (R59). -/
inductive RMode where
  | rne | rtz
  deriving DecidableEq, Repr

/-- The magnitude code of m × 2^e (a non-zero amount more when `sticky`), m ≠ 0, rounded once to the format. -/
def roundMag (p : FmtP) (mode : RMode) (m : Nat) (e : Int) (sticky : Bool) : Nat :=
  let emin : Int := 1 - (p.bias : Int)
  let lead := leadOf m e
  let q := (if lead < emin then emin else lead) - p.mbits
  let sh := e - q
  let n :=
    if 0 ≤ sh then m * 2 ^ sh.toNat
    else
      let s := (-sh).toNat
      let n0 := m / 2 ^ s
      let rem := m % 2 ^ s
      let half := 2 ^ (s - 1)
      match mode with
      | .rtz => n0
      | .rne => if rem > half || (rem == half && (sticky || n0 % 2 == 1)) then n0 + 1 else n0
  let (n, q) := if n = 2 ^ (p.mbits + 1) then (n / 2, q + 1) else (n, q)
  let (fld, frac) : Nat × Nat :=
    if 2 ^ p.mbits ≤ n then ((q + p.mbits + p.bias).toNat, n - 2 ^ p.mbits) else (0, n)
  if fld > p.emaxField || (fld == p.emaxField && frac > p.mmax) then
    (if p.saturate || mode == .rtz then p.emaxField * 2 ^ p.mbits + p.mmax else (p.emaxField + 1) * 2 ^ p.mbits)
  else fld * 2 ^ p.mbits + frac

/-- The sign bit of a format with `neg`. -/
def FmtP.sign (p : FmtP) (neg : Bool) : Nat := if neg then 2 ^ (p.ebits + p.mbits) else 0

/-- sum × 2^e rounded to binary32 by roundTiesToEven, overflow to infinity; an exact zero is +0. -/
def roundF32 (sum : Int) (e : Int) (sticky : Bool) : Nat :=
  if sum = 0 then 0
  else Elem.fp32.params.sign (decide (sum < 0)) + roundMag Elem.fp32.params .rne sum.natAbs e sticky

/-- Is a binary32 pattern NaN, is it infinite, is its sign set. -/
def isNan32 (x : Nat) : Bool := Elem.fp32.isNan x
def isInf32 (x : Nat) : Bool := Elem.fp32.isInf x
def neg32 (x : Nat) : Bool := x.testBit 31

/-- accumulate_block of R44. -/
def accumulateBlock (acc : Nat) (b : Blk) (scaleExp : Int) : Nat :=
  if isNan32 acc || b.kind == .nan then 0x7FC00000
  else if b.kind == .inf then
    (if isInf32 acc && neg32 acc != b.neg then 0x7FC00000 else if b.neg then 0xFF800000 else 0x7F800000)
  else if isInf32 acc || b.sum == 0 then acc
  else
    let d := Elem.fp32.decode acc
    let e := b.lsb + scaleExp
    let lo := min d.exp e
    let va : Int := (if d.neg then -(d.mag : Int) else d.mag) * (2 ^ (d.exp - lo).toNat : Nat)
    let vb : Int := b.sum * (2 ^ (e - lo).toNat : Nat)
    roundF32 (va + vb) lo false

/-- Saturating 32-bit addition (R45). -/
def satAdd32 (a b : Int) : Int := max (-(2 ^ 31 : Nat) : Int) (min ((2 ^ 31 : Nat) - 1 : Int) (a + b))

/-- sr_encode of R48: v32 × 2^k narrowed with 12 random bits; v32 finite. -/
def srEncode (v32 : Nat) (k : Int) (f : FmtP) (rnd : Nat) : Nat :=
  let sgn := f.sign (neg32 v32)
  let d := Elem.fp32.decode v32
  if d.mag = 0 then sgn
  else
    let e := d.exp + k
    let emin : Int := 1 - (f.bias : Int)
    let lead := leadOf d.mag e
    let q := (if lead < emin then emin else lead) - f.mbits
    let sh := e - q
    let (n, f12) : Nat × Nat :=
      if 0 ≤ sh then (d.mag * 2 ^ sh.toNat, 0)
      else
        let s := (-sh).toNat
        (d.mag / 2 ^ s, if 12 ≤ s then (d.mag / 2 ^ (s - 12)) % 4096 else (d.mag * 2 ^ (12 - s)) % 4096)
    let n := if 4096 ≤ f12 + rnd then n + 1 else n
    if n = 0 then sgn
    else
      let (n, q) := if n = 2 ^ (f.mbits + 1) then (n / 2, q + 1) else (n, q)
      let (fld, frac) : Nat × Nat :=
        if 2 ^ f.mbits ≤ n then ((q + f.mbits + f.bias).toNat, n - 2 ^ f.mbits) else (0, n)
      if fld > f.emaxField || (fld == f.emaxField && frac > f.mmax) then
        (if f.saturate then sgn + f.emaxField * 2 ^ f.mbits + f.mmax else sgn + (f.emaxField + 1) * 2 ^ f.mbits)
      else sgn + fld * 2 ^ f.mbits + frac

/-- xorshift32 of R50. -/
def xorshift32 (x : W32) : W32 :=
  let x := x ^^^ (x <<< 13)
  let x := x ^^^ (x >>> 17)
  x ^^^ (x <<< 5)

/-- Lane keys of Table 2.8. -/
def arrayLaneKey (core array dpu : Nat) : W32 := BitVec.ofNat 32 (0x10000000 + core * 2 ^ 20 + array * 2 ^ 18 + dpu * 2 ^ 12)
def tenderLaneKey (lane : Nat) : W32 := BitVec.ofNat 32 (0x20000000 + lane * 2 ^ 12)
def updateLaneKey (lane : Nat) : W32 := BitVec.ofNat 32 (0x30000000 + lane * 2 ^ 12)

/-- lane_seed of R50. -/
def laneSeed (seed : W64) (tag key : W32) : W32 :=
  let s := seed.setWidth 32 ^^^ (seed >>> 32).setWidth 32 ^^^ tag ^^^ key
  let s := if s = 0 then 0x80000000 else s
  xorshift32 (xorshift32 s)

/-- The bits [31:20] a draw yields (R50). -/
def draw12 (state : W32) : Nat := (state >>> 20).toNat

/-- The first `n` draws of a generator. -/
def draws : Nat → W32 → List Nat
  | 0, _ => []
  | n + 1, s => let s' := xorshift32 s; draw12 s' :: draws n s'

/-- The draws of element 0 to n − 1 of a job over 64 lanes, element i from lane i mod 64 (R51). -/
def laneDraw (seed : W64) (tag : W32) (key : Nat → W32) (i : Nat) : Nat :=
  let rec go : Nat → W32 → Nat
    | 0, s => draw12 (xorshift32 s)
    | k + 1, s => go k (xorshift32 s)
  go (i / 64) (laneSeed seed tag (key (i % 64)))

/-- fp32_lead of R56: exponent of the leading 1 of a finite non-zero value. -/
def fp32Lead (v32 : Nat) : Int :=
  let d := Elem.fp32.decode v32
  leadOf d.mag d.exp

/-- mx_encode of R56: the shared scale and the element codes. -/
def mxEncode (v : List Nat) (f : FmtP) (rnd : List Nat) : Nat × List Nat :=
  if v.any (fun x => Elem.fp32.nonFinite x) then (0xFF, v.map (fun _ => 0))
  else
    let leads := (v.filter (fun x => x % 2 ^ 31 != 0)).map fp32Lead
    let x : Int := match leads with
      | [] => -127
      | l :: ls => max (-127) (ls.foldl max l - f.emaxElem)
    ((x + 127).toNat, (v.zip rnd).map (fun vr => srEncode vr.1 (-x) f vr.2))

/-- A BF16, FP16 or FP8 store of one value: R57 with T for FP8 (`scaleT`), R58 otherwise. -/
def narrowStore (e : Elem) (scaleT : Nat) (isFp8 : Bool) (v rnd : Nat) : Nat :=
  let p := e.params
  if isFp8 && scaleT == 0xFF then e.nanCode
  else if isNan32 v then e.nanCode
  else if isInf32 v then
    (if e == .e4m3 then 0x7F else p.sign (neg32 v) + (p.emaxField + 1) * 2 ^ p.mbits)
  else srEncode v (if isFp8 then 127 - (scaleT : Int) else 0) p rnd

/-- Widening an element under an optional E8M0 scale to FP32 (R60): exact, or infinity beyond the range. -/
def widen (e : Elem) (scale : Option Nat) (code : Nat) : Nat :=
  let d := e.decode code
  if d.kind == .nan || scale == some 0xFF then 0x7FC00000
  else if d.kind == .inf then Elem.fp32.params.sign d.neg + 0x7F800000
  else if d.mag = 0 then Elem.fp32.params.sign d.neg
  else
    let k : Int := match scale with | none => 0 | some x => (x : Int) - 127
    Elem.fp32.params.sign d.neg + roundMag Elem.fp32.params .rne d.mag (d.exp + k) false

/-- Roundings a thread conversion may name (R59, R54). -/
inductive CvtRound where
  | rne | rtz | sr (rnd : Nat)
  deriving DecidableEq, Repr

/-- The integer a finite value rounds to. -/
def roundInt (mode : RMode) (d : Dec) : Int :=
  let mag : Nat :=
    if 0 ≤ d.exp then d.mag * 2 ^ d.exp.toNat
    else
      let s := (-d.exp).toNat
      let n0 := d.mag / 2 ^ s
      let rem := d.mag % 2 ^ s
      let half := 2 ^ (s - 1)
      match mode with
      | .rtz => n0
      | .rne => if rem > half || (rem == half && n0 % 2 == 1) then n0 + 1 else n0
  if d.neg then -(mag : Int) else mag

/-- FP32 to an integer format: NaN to 0, saturating (R59, R548). -/
def toIntFmt (w : Nat) (mode : RMode) (v : Nat) : Nat :=
  let hi : Int := (2 ^ (w - 1) : Nat) - 1
  let lo : Int := -((2 ^ (w - 1) : Nat) : Int)
  let d := Elem.fp32.decode v
  match d.kind with
  | .nan => 0
  | .inf => ofSigned w (if d.neg then lo else hi)
  | .finite => ofSigned w (max lo (min hi (roundInt mode d)))

/-- A non-finite FP32 input written to a floating-point target (R548). -/
def cvtNonFinite (e : Elem) (v : Nat) : Nat :=
  let p := e.params
  if isNan32 v then e.nanCode
  else match e with
    | .e4m3 => 0x7F
    | .e2m1 | .e2m3 | .e3m2 => p.sign (neg32 v) + p.emaxField * 2 ^ p.mbits + p.mmax
    | _ => p.sign (neg32 v) + (p.emaxField + 1) * 2 ^ p.mbits

/-- A conversion of R549, or none where it names a combination that list does not hold. -/
def convertThread (src dst : Elem) (r : CvtRound) (v : Nat) : Option Nat :=
  match src, dst with
  | .fp32, .fp32 => none
  | .fp32, .int8 => (match r with | .rne => some (toIntFmt 8 .rne v) | .rtz => some (toIntFmt 8 .rtz v) | .sr _ => none)
  | .fp32, .int32 => (match r with | .rne => some (toIntFmt 32 .rne v) | .rtz => some (toIntFmt 32 .rtz v) | .sr _ => none)
  | .fp32, e =>
    if Elem.fp32.nonFinite v then some (cvtNonFinite e v)
    else
      let d := Elem.fp32.decode v
      let p := e.params
      match r with
      | .sr rnd => some (srEncode v 0 p (rnd % 4096))
      | .rne => some (p.sign d.neg + if d.mag = 0 then 0 else roundMag p .rne d.mag d.exp false)
      | .rtz => some (p.sign d.neg + if d.mag = 0 then 0 else roundMag p .rtz d.mag d.exp false)
  | .int8, .int32 => some (ofSigned 32 (toSigned 8 v))
  | .int8, _ => none
  | .int32, _ => none
  | e, .fp32 => some (widen e none v)
  | _, _ => none

/-! binary32 operations, each rounded once by roundTiesToEven (R46, R35, R36). -/

def f32Neg (x : Nat) : Nat := if isNan32 x then 0x7FC00000 else if x.testBit 31 then x - 2 ^ 31 else x + 2 ^ 31

/-- a × b + c, rounded once. -/
def f32Fma (a b c : Nat) : Nat :=
  let p := product false (Elem.fp32.decode a) (Elem.fp32.decode b)
  let d := Elem.fp32.decode c
  if p.kind == .nan || d.kind == .nan then 0x7FC00000
  else if p.kind == .inf then
    (if d.kind == .inf && d.neg != p.neg then 0x7FC00000 else Elem.fp32.params.sign p.neg + 0x7F800000)
  else if d.kind == .inf then c
  else if p.mag == 0 && d.mag == 0 then Elem.fp32.params.sign (p.neg && d.neg)
  else
    let lo := min p.exp d.exp
    let vp : Int := (if p.neg then -(p.mag : Int) else p.mag) * (2 ^ (p.exp - lo).toNat : Nat)
    let vd : Int := (if d.neg then -(d.mag : Int) else d.mag) * (2 ^ (d.exp - lo).toNat : Nat)
    roundF32 (vp + vd) lo false

def f32Add (a b : Nat) : Nat := f32Fma a 0x3F800000 b
def f32Sub (a b : Nat) : Nat := f32Add a (f32Neg b)
def f32Mul (a b : Nat) : Nat := f32Fma a b 0x80000000

/-- a ÷ b. -/
def f32Div (a b : Nat) : Nat :=
  let x := Elem.fp32.decode a
  let y := Elem.fp32.decode b
  let neg := xor x.neg y.neg
  let sg := Elem.fp32.params.sign neg
  if x.kind == .nan || y.kind == .nan then 0x7FC00000
  else if x.kind == .inf then (if y.kind == .inf then 0x7FC00000 else sg + 0x7F800000)
  else if y.kind == .inf then sg
  else if y.mag = 0 then (if x.mag = 0 then 0x7FC00000 else sg + 0x7F800000)
  else if x.mag = 0 then sg
  else
    let n := x.mag * 2 ^ 60
    sg + roundMag Elem.fp32.params .rne (n / y.mag) (x.exp - 60 - y.exp) (n % y.mag != 0)

/-- Floor of the square root of `n`, `n < 4^bits`, one bit a step. -/
def isqrt (n : Nat) : Nat → Nat → Nat
  | 0, r => r
  | bits + 1, r => isqrt n bits (if (r + 2 ^ bits) * (r + 2 ^ bits) ≤ n then r + 2 ^ bits else r)

/-- √a. -/
def f32Sqrt (a : Nat) : Nat :=
  let x := Elem.fp32.decode a
  if x.kind == .nan then 0x7FC00000
  else if x.kind == .finite && x.mag == 0 then a
  else if x.neg then 0x7FC00000
  else if x.kind == .inf then a
  else
    let (m, e) : Nat × Int := if x.exp % 2 = 0 then (x.mag, x.exp) else (2 * x.mag, x.exp - 1)
    let n := m * 2 ^ 64
    let r := isqrt n 46 0
    roundMag Elem.fp32.params .rne r ((e - 64) / 2) (r * r != n)

/-- a < b on numbers, with −0 = +0; false when either is NaN. -/
def f32Lt (a b : Nat) : Bool :=
  let key (x : Nat) : Int := if x.testBit 31 then -((x % 2 ^ 31 : Nat) : Int) else (x % 2 ^ 31 : Nat)
  !isNan32 a && !isNan32 b && decide (key a < key b)

/-- Equality on numbers, with −0 = +0; false when either is NaN. -/
def f32Eq (a b : Nat) : Bool :=
  !isNan32 a && !isNan32 b && (a == b || (a % 2 ^ 31 == 0 && b % 2 ^ 31 == 0))

/-- The greater of two values, +0 above −0, the canonical NaN when either is NaN (R95). -/
def f32Max (a b : Nat) : Nat :=
  if isNan32 a || isNan32 b then 0x7FC00000
  else if a % 2 ^ 31 == 0 && b % 2 ^ 31 == 0 then (if a == 0 || b == 0 then 0 else 0x80000000)
  else if f32Lt a b then b else a

/-- The maximum of a row (R95). -/
def f32MaxList : List Nat → Nat
  | [] => 0xFF800000
  | [x] => if isNan32 x then 0x7FC00000 else x
  | x :: xs => f32Max x (f32MaxList xs)

/-- Fixed-point product of 2^(bit i of the 60-bit fraction), 128 fraction bits, square roots of 2 taken in turn. -/
def exp2Frac : Nat → Nat → Nat → Nat → Nat
  | 0, _, _, acc => acc
  | i + 1, f, root, acc =>
    let root := isqrt (root * 2 ^ 128) 130 0
    exp2Frac i f root (if f.testBit i then acc * root / 2 ^ 128 else acc)

/-- Correctly rounded 2^x (R336). DEDUCED: 128 fraction bits decide every binary32 rounding. -/
def f32Exp2 (x : Nat) : Nat :=
  let d := Elem.fp32.decode x
  match d.kind with
  | .nan => 0x7FC00000
  | .inf => if d.neg then 0 else 0x7F800000
  | .finite =>
    if d.mag = 0 then 0x3F800000
    else
      let lead := leadOf d.mag d.exp
      if lead < -27 then 0x3F800000
      else if 8 ≤ lead then (if d.neg then 0 else 0x7F800000)
      else
        let v : Int := (if d.neg then -(d.mag : Int) else d.mag) * (2 ^ (d.exp + 60).toNat : Nat)
        let n := v / (2 ^ 60 : Nat)
        let f := (v % (2 ^ 60 : Nat)).toNat
        roundMag Elem.fp32.params .rne (exp2Frac 60 f (2 ^ 129) (2 ^ 128)) (n - 128) (f != 0)

/-- Binary digits of log2 of a 160-bit fixed-point number in [1, 2), most significant first. -/
def log2Digits : Nat → Nat → Nat → Nat
  | 0, _, acc => acc
  | k + 1, m, acc =>
    let m := m * m / 2 ^ 160
    if 2 ^ 161 ≤ m then log2Digits k (m / 2) (2 * acc + 1) else log2Digits k m (2 * acc)

/-- Correctly rounded log2 x (R336). DEDUCED: 110 fraction bits decide every binary32 rounding. -/
def f32Log2 (x : Nat) : Nat :=
  let d := Elem.fp32.decode x
  match d.kind with
  | .nan => 0x7FC00000
  | .inf => if d.neg then 0x7FC00000 else 0x7F800000
  | .finite =>
    if d.mag = 0 then 0xFF800000
    else if d.neg then 0x7FC00000
    else
      let bl := bitLength d.mag
      let frac := log2Digits 110 (d.mag * 2 ^ (161 - bl)) 0
      let t : Int := leadOf d.mag d.exp * (2 ^ 110 : Nat) + frac
      let exact := d.mag == 2 ^ (bl - 1)
      if exact then roundF32 t (-110) false
      else if 0 ≤ t then roundF32 (2 * t + 1) (-111) true
      else roundF32 (2 * t + 1) (-111) true

/-- Rotation of a 32-bit word. -/
def rotl32 (x : W32) (n : Nat) : W32 := x.rotateLeft n

/-- mask_key of R333. -/
def maskKey (seed : W64) (ctx : Nat) (step layer : W32) : W32 :=
  seed.setWidth 32 ^^^ (seed >>> 32).setWidth 32 ^^^ BitVec.ofNat 32 ctx ^^^ rotl32 step 12 ^^^ rotl32 layer 24

/-- mask_word of R333. -/
def maskWord (key : W32) (i : W64) : W32 :=
  let x := key ^^^ i.setWidth 32 ^^^ rotl32 ((i >>> 32).setWidth 32) 16
  let x := if x = 0 then 0x80000000 else x
  let x := xorshift32 x
  let x := xorshift32 (x + key)
  xorshift32 x

/-- The home channel and channel line index of a device physical address (R256). -/
def parity64 : Nat → Nat → Bool
  | 0, _ => false
  | n + 1, x => xor (x.testBit n) (parity64 n x)

def homeChannel (pa : Nat) (key : W64) : Nat × Nat :=
  let line := pa / 256
  let upper := line / 256
  let bit (j : Nat) : Nat :=
    if xor (line.testBit j) (parity64 64 (upper &&& (key.rotateLeft (8 * j)).toNat)) then 2 ^ j else 0
  ((List.range 8).foldl (fun c j => c + bit j) 0, upper)

/-- Lines per channel (R283, R290). -/
def linesPerChannel : Nat := 4394531

/-- H of R290 for f mapped-out channels. -/
def spillLines (f : Nat) : Nat := (f * linesPerChannel + 255) / 256

/-- storage_location of R290: the storage channel and storage index of a line. -/
def storageLocation (n u : Nat) (out : List Nat) : Nat × Nat :=
  let f := out.length
  let h := spillLines f
  match out.findIdx? (· == n) with
  | none => (n, u)
  | some rank =>
    let q := rank * (linesPerChannel - h) + u
    let survivors := (List.range 256).filter (fun c => !(out.contains c))
    (nthD survivors (q % (256 - f)) 0, linesPerChannel - h + q / (256 - f))

/-- grotto_lfsr_step of R251. -/
def grottoLfsr (s : BitVec 16) : BitVec 16 :=
  let b := (s ^^^ (s >>> 2) ^^^ (s >>> 3) ^^^ (s >>> 5)) &&& 1
  (s >>> 1) ||| (b <<< 15)

/-- grotto_victim of R251: the way and the generator after it. -/
def grottoVictim (mask cacheWays : Nat) (empty : Nat → Bool) (lfsr : BitVec 16) : Nat × BitVec 16 :=
  let allowed := (List.range cacheWays).filter (fun w => mask.testBit w)
  match allowed.find? empty with
  | some w => (w, lfsr)
  | none =>
    let l := grottoLfsr lfsr
    (nthD allowed (l.toNat % allowed.length) 0, l)

/-- CRC-32 as IEEE 802.3 defines it (R180). -/
def crc32Byte (c : W32) (b : Byte) : W32 :=
  (List.range 8).foldl (fun c _ => if c &&& 1 = 1 then (c >>> 1) ^^^ 0xEDB88320 else c >>> 1) (c ^^^ b.setWidth 32)

def crc32 (bs : List Byte) : W32 := ~~~ (bs.foldl crc32Byte 0xFFFFFFFF)

/-- CRC-8 of a BEACON: polynomial 0x07, initial value 0 (Table 12.4). -/
def crc8Byte (c b : Byte) : Byte :=
  (List.range 8).foldl (fun c _ => if c.msb then (c <<< 1) ^^^ 0x07 else c <<< 1) (c ^^^ b)

def crc8 (bs : List Byte) : Byte := bs.foldl crc8Byte 0

end Sys2Proof.Machine
end

