-- ==== Sys2Proof/Syntax.lean ====
section
/-! DEFINITION. The commands of the block: one constructor per row of spec/opcode_table.json, in its order. The table gives the
rows no operands, so each constructor's operands are the model's own: what the event, message or instruction carries (log 3). -/

namespace Sys2Proof

open Sys2Proof.Machine (OpFmt Elem)


/-- A fabric packet's header positions, the first in [127:0], the second in [255:128] (R387, Table 12.4). -/
abbrev Packet := BitVec 256

/-- A line of 64 B with its poisoned mark. -/
abbrev Line := Bool × List Byte

/-- Link-layer messages (R388, R393, R394, R396): acknowledgment and NAK of a header slot, credits, LANESET, and the node number and
proposed lanes sent in training and with a RETRAIN. The manual gives no layout, so they are data (log 3). -/
inductive LinkMsg where
  | ack (seq : Nat) | nak (seq : Nat) | credit (slots : Nat) | laneSet (lanes seq : Nat)
  | train (node lanes : Nat) | retrain (node lanes : Nat)
  deriving DecidableEq, Repr

/-- A LINK slot as it comes in (R388): its message, and whether its codeword could be corrected. -/
structure LinkSlot where
  msg : LinkMsg
  ok : Bool
  deriving DecidableEq, Repr

/-- What the peer sends at the end of a retrain (R393): its node number and the lanes it proposes. -/
structure PeerOffer where
  node : Nat
  lanes : Nat
  deriving DecidableEq, Repr

/-- An array of a core, and which of the operations and tasks it works on a failed check concerns (R104). -/
structure ArrayPlace where
  array : Nat
  work : Nat
  deriving DecidableEq, Repr

/-- CXL.cache messages the block sends (Tables 13.28, 13.29). -/
inductive D2H where
  | rdShared (ha : Nat) | rdOwn (ha : Nat)
  | dirtyEvict (ha : Nat) | cleanEvict (ha : Nat) | cleanEvictNoData (ha : Nat)
  | rspIHitI (ha : Nat) | rspSHitSE (ha : Nat) | rspIHitSE (ha : Nat) | rspVHitV (ha : Nat)
  | rspSFwdM (ha : Nat) (data : List Byte) (poison : Bool) | rspIFwdM (ha : Nat) (data : List Byte) (poison : Bool)
  | rspVFwdV (ha : Nat) (data : List Byte) (poison : Bool)
  | evictData (ha : Nat) (data : List Byte) (poison : Bool)
  deriving DecidableEq, Repr

/-- Answers on the management port (R474, R477). -/
inductive MgmtMsg where
  | accepted | refused
  | effecter (state : Nat) | sensor (state : Nat) | fwStatus (state : Nat)
  | jtagId (part stepping : Nat)
  deriving DecidableEq, Repr

/-- How an array operation's accumulators start (Table 3.2). -/
inductive MatMode where
  | overwrite | accumulate | rescale
  deriving DecidableEq, Repr

/-- A matrix range in memory: address, pitch, format, and for MX its scale address and pitch, for FP8 its tensor scale in `scale`. -/
structure MRef where
  addr : Nat
  pitch : Nat
  fmt : OpFmt
  scale : Nat
  scalePitch : Nat
  deriving DecidableEq, Repr

/-- An array operation (Table 3.2). `a`, `b` take their scales from `MRef.scale` at 64 B per row; `c` none is C_SRC = BANK. -/
structure MatOp where
  a : MRef
  b : MRef
  m : Nat
  n : Nat
  k : Nat
  mode : MatMode
  bank : Nat
  c : Option MRef
  store : Option MRef
  rowScale : Nat
  rowMax : Option Nat
  tag : Nat
  census : Option Nat
  deriving DecidableEq, Repr

/-- Modes of a tenant-segmented multiply (R109). -/
inductive SegMode where
  | forward | backData | backWeight
  deriving DecidableEq, Repr

/-- A tenant-segmented multiply (Table 4.2). `start` none with `accumulate` in BACKWARD_WEIGHT continues the gradient buffers. -/
structure SegJob where
  mode : SegMode
  manifest : Nat
  m : Nat
  k : Nat
  n : Nat
  inBase : MRef
  base : MRef
  inAdapt : MRef
  accumulate : Bool
  start : MRef
  out : MRef
  low : MRef
  grad : MRef
  uIn : MRef
  vIn : MRef
  tag : Nat
  censusEn : Bool
  deriving DecidableEq, Repr

/-- A tender's source or destination: a context address, or a scratchpad address of a logical core (R314). -/
inductive TPlace where
  | ctx (addr : Nat)
  | scratch (core addr : Nat)
  deriving DecidableEq, Repr

/-- Kinds of Table 10.1. -/
inductive TKind where
  | copy | gather | transpose | convert | reduce | zero | prefetch
  deriving DecidableEq, Repr

/-- A tender job (R312 to R316). -/
structure TenderJob where
  kind : TKind
  src : TPlace
  dst : TPlace
  rows : Nat
  rowBytes : Nat
  srcPitch : Nat
  dstPitch : Nat
  cols : Nat
  elemBytes : Nat
  srcFmt : OpFmt
  dstFmt : OpFmt
  srcScale : Nat
  dstScale : Nat
  index : Nat
  elemFmt : OpFmt
  census : Option Nat
  tag : Nat
  deriving DecidableEq, Repr

/-- An update job (Table 10.2); FP32 parameters by their bits. -/
structure UpdateJob where
  group : Nat
  commit : Bool
  adamw : Bool
  lr : Nat
  b1 : Nat
  c1 : Nat
  b2 : Nat
  c2 : Nat
  eps : Nat
  wd : Nat
  lsTable : Nat
  lsMin : Int
  lsMax : Int
  grow : Nat
  guardScan : Bool
  tag : Nat
  deriving DecidableEq, Repr

/-- A DISPATCH job (Table 10.7). -/
structure DispatchJob where
  t : Nat
  topK : Nat
  e : Nat
  x : Nat
  xPitch : Nat
  rowBytes : Nat
  routes : Nat
  expertMap : Nat
  dests : Nat
  d : Nat
  cap : Nat
  routeMap : Nat
  deriving DecidableEq, Repr

/-- A COMBINE job (R345): the destinations' return regions are named by `dests` as DISPATCH lays them out. -/
structure CombineJob where
  t : Nat
  topK : Nat
  e : Nat
  routes : Nat
  routeMap : Nat
  expertMap : Nat
  dests : Nat
  d : Nat
  cols : Nat
  bf16 : Bool
  residual : Option MRef
  out : Nat
  outPitch : Nat
  deriving DecidableEq, Repr

/-- The attention routines (R336 to R339). -/
inductive AttnKind where
  | fwd | bwdQ | bwdKv
  deriving DecidableEq, Repr

/-- An attention routine's operands: context addresses with row pitches, head dimension, sequence lengths, the two FP32 factors,
and the ranges it writes. DESIGN CHOICE (log 24): `census` is the slot in which its array stores are counted; R203 and R204 speak of such
increments, and R336 names no slot. -/
structure AttnStep where
  kind : AttnKind
  q : MRef
  k : MRef
  v : MRef
  o : MRef
  dO : MRef
  dQ : MRef
  dK : MRef
  dV : MRef
  l : Nat
  dsum : Nat
  d : Nat
  nq : Nat
  nk : Nat
  sc : Nat
  s : Nat
  causal : Bool
  rebuild : Bool
  tag : Nat
  census : Option Nat
  deriving DecidableEq, Repr

/-- The thread instruction's place: the fragment of slot `slot` of logical core `core` that holds home lane `lane`, and the
address of the instruction after it (encodings and so lengths lie outside the manual, R2; log 3). -/
structure At where
  core : Nat
  slot : Nat
  lane : Nat
  next : Nat
  deriving DecidableEq, Repr

/-- Scopes (Table 7.2). -/
inductive Scope where
  | group | block | device | system
  deriving DecidableEq, Repr

/-- Whether the scope is DEVICE or SYSTEM. -/
def Scope.wide : Scope → Bool
  | .device => true | .system => true | _ => false

/-- A source register, with the compiler's marks of R173: `reuse` places the row in the register cache, `dead` marks its last use. -/
structure Src where
  reg : Nat
  reuse : Bool
  dead : Bool
  deriving DecidableEq, Repr

/-- Vector arithmetic instructions (Tables 5.6, 6.5). -/
inductive VFn where
  | fadd | fmul | ffma | flt | feq
  | iadd | isub | imul | iand | ior | ixor | ishl | ishr | isar | ieq | ilt | iltu
  | select | exchange
  deriving DecidableEq, Repr

/-- A vector instruction: up to three sources. -/
structure VecOp where
  fn : VFn
  dst : Nat
  a : Src
  b : Src
  c : Src
  deriving DecidableEq, Repr

/-- Roundings a conversion may name (R59); `.sr` takes its 12 random bits from register `c` (R54). -/
inductive CvtMode where
  | rne | rtz | sr
  deriving DecidableEq, Repr

/-- A conversion (R549). -/
structure CvtOp where
  dst : Nat
  src : Src
  rnd : Src
  srcFmt : Elem
  dstFmt : Elem
  mode : CvtMode
  deriving DecidableEq, Repr

/-- Function instructions of the X pipeline (Table 5.6). -/
inductive XFn where
  | recip | sqrt | exp | log
  deriving DecidableEq, Repr

/-- An instruction of the X pipeline: a function, or a conversion. -/
inductive XOp where
  | fn (f : XFn) (dst : Nat) (src : Src)
  | cvt (op : CvtOp)
  deriving DecidableEq, Repr

/-- Address spaces of a thread access. -/
inductive Space where
  | scratch | ctx | const | desc
  deriving DecidableEq, Repr

/-- A load, `stream` where the program marks it streaming (R250): the address comes from register `addr` (scratchpad) or the pair
`addr`, `addr`+1; 8 B fill `dst`, `dst`+1. -/
structure LoadAcc where
  space : Space
  addr : Src
  width : Nat
  dst : Nat
  scope : Scope
  acq : Bool
  stream : Bool
  deriving DecidableEq, Repr

/-- A store. -/
structure StoreAcc where
  space : Space
  addr : Src
  width : Nat
  src : Src
  scope : Scope
  rel : Bool
  stream : Bool
  deriving DecidableEq, Repr

/-- Atomic read-modify-writes. -/
inductive AtomFn where
  | add | and | or | xor | min | max | exch | cas
  deriving DecidableEq, Repr

/-- An atomic of 1, 2, 4 or 8 B (R214). -/
structure AtomAcc where
  space : Space
  addr : Src
  width : Nat
  fn : AtomFn
  src : Src
  cmp : Src
  dst : Nat
  scope : Scope
  acq : Bool
  rel : Bool
  deriving DecidableEq, Repr

/-- What every asynchronous operation names: its token entry, its wait list, its completion bollard with increment, its start
condition (R191, R192, R225, R226). -/
structure Issue where
  token : Nat
  waits : List Nat
  bollard : Option (Nat × Nat)
  start : Option (Nat × Nat)
  deriving DecidableEq, Repr

/-- What a routine's body does, step by step (R201, R336 to R340; log 24): an attention step, with its own commit points; an
operation of one of its core's arrays, or of a tender of its tile; a commit point. -/
inductive RStep where
  | attn (a : AttnStep)
  | array (k : Nat) (op : MatOp)
  | tender (unit : Nat) (job : TenderJob)
  | commit
  deriving DecidableEq, Repr

/-- A routine operation (R200): the descriptor's offset in the ROUTINE section, the save record's scratchpad address, and its body. -/
structure RoutineJob where
  desc : Nat
  save : Nat
  body : List RStep
  deriving DecidableEq, Repr

/-- An asynchronous operation's job. -/
inductive Job where
  | matrix (j : MatOp)
  | segmul (j : SegJob)
  | tender (j : TenderJob)
  | update (j : UpdateJob)
  | dispatch (j : DispatchJob)
  | combine (j : CombineJob)
  | routine (j : RoutineJob)
  | post (ferry gate : Nat)
  deriving DecidableEq, Repr

/-- A command that is both issued by a thread and carried out by its engine: the form says which. -/
inductive EngForm (α : Type) where
  | issue (at_ : At) (iss : Issue) (unit : Nat) (job : α)
  | run (unit : Nat)
  deriving DecidableEq, Repr


/-- The commands. -/
inductive Instr where
  | coldReset (bankOk : Bool)
  | warmReset
  | functionReset
  | flrComplete
  | standbyLoss
  | mainInputGood
  | perstDeassert
  | undervoltageLockout (vinMv : Nat)
  | inputLowTimeout (vinMv : Nat)
  | hardThermalTrip (tile tempC : Nat)
  | moduleResetWarm
  | moduleResetCold (bankOk : Bool)
  | getStateEffecterStates
  | getStateSensorReadings
  | setPreferred (img : Nat)
  | clearFaultHistory
  | clearSoftstartSticky
  | requestUpdate
  | passComponentTable (slot : Nat)
  | updateComponent (slot : Nat)
  | requestFirmwareData (off : Nat) (data : List Byte)
  | transferComplete
  | verifyComplete (keyOk sigOk : Bool)
  | applyComplete
  | activateFirmware
  | getStatus
  | cancelUpdate
  | imageLoadDone (keyOk sigOk : Bool)
  | firmwareWatchdog
  | domainRampEnd (dom : Nat) (railOk : Bool)
  | currentLimitTimeout (dom : Nat)
  | softStartRetry (dom : Nat) (railOk : Bool)
  | unitBistDone (badCores badSlices : List Nat) (badDpus : List (Nat × Nat))
  | hbmTrainingDone (badChannels : List Nat)
  | startJoin (bootMs : Nat)
  | cellMeasure (mv : Nat)
  | bankMirrorCopy
  | wearSave
  | regWrite (off size val : Nat)
  | regReadLowerLatch (who off size : Nat)
  | domainCmdOn (dom seq : Nat) (atEn evEn : Bool) (event : Nat)
  | domainCmdClockGated (dom seq : Nat) (atEn evEn : Bool) (event : Nat)
  | domainCmdRetain (dom seq : Nat) (atEn evEn : Bool) (event : Nat)
  | domainCmdOff (dom seq : Nat) (atEn evEn : Bool) (event : Nat)
  | scheduledCmdStart (dom : Nat)
  | domainTransitionDone (dom : Nat)
  | wakeRampStart (dom : Nat)
  | chargeWindowClose (dom : Nat)
  | wakeLatch (dom : Nat)
  | wakeRetry (dom : Nat) (railOk : Bool)
  | clockGateIdle (dom : Nat)
  | pstateCmd (target seq : Nat) (atEn evEn : Bool) (event : Nat)
  | pstateClockSwitch
  | capInterval (pMw vinMv : Nat) (act : List (Nat × Nat))
  | thermalInterval (temps : List Nat)
  | tideTick
  | beaconReceive (port : Nat) (p : Packet)
  | beaconLossTimeout
  | holdoverTimeout
  | pathWindowExpire (path : Nat)
  | tideLocalWrite (on : Bool)
  | tideCopyRenew (unit : Nat)
  | ferryRun (f : Nat)
  | ferryStop (f : Nat)
  | ferryDepart (f copy : Nat)
  | ferryLateHold (f copy : Nat)
  | ferryMiss (f copy : Nat)
  | sailRunReceive (port : Nat) (p : Packet) (lines : List Line)
  | landAckReceive (p : Packet)
  | settleReceive (p : Packet)
  | cutReceive (p : Packet)
  | turnBackReceive (p : Packet)
  | missedReceive (p : Packet)
  | windowReceive (p : Packet)
  | nodeResetReceive (p : Packet)
  | ackLimitExpire (f entry cycleLo : Nat)
  | sailingCut (f entry cycleLo : Nat)
  | attemptRestart (f entry cycleLo : Nat)
  | sourceSegmentTimeout (f entry cycleLo : Nat)
  | ferryAbortOne (f entry cycleLo seq : Nat)
  | ferryAbortAll (f seq : Nat)
  | berthApply (b word1 : Nat)
  | headerSlotReceive (port : Nat) (pos : List (BitVec 128)) (data : List Line) (ok : Bool)
  | linkSlotReceive (port : Nat) (slot : LinkSlot)
  | readReceive (port : Nat) (p : Packet)
  | writeReceive (port : Nat) (p : Packet) (line : Line)
  | writeMaskedReceive (port : Nat) (p : Packet) (line : Line)
  | readRespReceive (p : Packet) (line : Line)
  | writeAckReceive (p : Packet)
  | readTimeout (tag : Nat)
  | writeTimeout (tag : Nat)
  | portTrainingDone (port peer peerLanes echo : Nat)
  | portTrainingTimeout (port : Nat)
  | laneSignalLoss (port lane : Nat)
  | retrainReqWrite (port : Nat) (on : Bool)
  | retrainMessageReceive (port peer peerLanes : Nat)
  | retrainComplete (port : Nat) (peer : PeerOffer) (echo : Nat)
  | retrainTimeout (port : Nat)
  | lanesetReceive (port lanes seq : Nat)
  | laneErrorWindow (port lane : Nat) (uncorrectable emitterCause : Bool)
  | laneMoveDone (port lane : Nat)
  | emitterWorn (n biasPct : Nat)
  | emitterFail (n : Nat)
  | emitterRetuneDone (n wl : Nat)
  | portDisableWrite (port : Nat) (on : Bool)
  | fabRegionApply (r word3 : Nat)
  | ctxCreate (seq ctx seed : Nat)
  | ctxSuspend (seq ctx arg3 : Nat)
  | ctxSuspendDone (ctx : Nat)
  | ctxResume (seq ctx : Nat)
  | ctxCancel (seq ctx arg3 : Nat)
  | ctxCancelDone (ctx : Nat)
  | ctxDestroy (seq ctx arg3 : Nat)
  | teardownStepDone (ctx : Nat)
  | qCreate (seq q sqBase cqBase arg2 : Nat)
  | qCancel (seq q arg3 : Nat)
  | qCancelDone (q : Nat)
  | qDestroy (seq q arg3 : Nat)
  | moAlloc (seq i pbase len arg2 arg3 : Nat)
  | moZeroingDone (i : Nat)
  | moAddref (seq i : Nat)
  | moRelease (seq i : Nat)
  | moQuery (seq i : Nat)
  | qDoorbellWrite (q val : Nat)
  | qCqHeadWrite (q val : Nat)
  | sqEntryFetch (q : Nat) (entry : List Byte) (holds : List Nat)
  | sqeNop (q : Nat)
  | sqeLaunch (q : Nat)
  | sqeSegmul (q : Nat) (job : SegJob)
  | sqeEngine (q : Nat) (job : Job)
  | sqeBollardAdvance (q : Nat)
  | sqeBarrier (q : Nat)
  | sqeSignal (q : Nat)
  | sqEntryComplete (q idx : Nat)
  | sumpRingWrite (val : Nat)
  | sumpHeadWrite (val : Nat)
  | busMasterDisable
  | busMasterEnable
  | d3hotEntry
  | d0Return
  | hostReadCompletion (id : Nat) (ok : Bool) (data : List Byte)
  | cxlCacheEnable
  | snpData (ha : Nat)
  | snpInv (ha : Nat)
  | snpCur (ha : Nat)
  | goReceive (ha : Nat) (st : Nat) (data : List Byte)
  | goWritepull (ha : Nat)
  | goWritepullDrop (ha : Nat)
  | goErr (ha : Nat)
  | segApply (c sg attr : Nat)
  | segFaultTimeout (c sg : Nat)
  | keySlotWrite (k val : Nat)
  | keyGenDone (k : Nat)
  | channelMapOut (n : Nat)
  | channelRestore (n : Nat)
  | channelMoveDone (n : Nat)
  | wrapperRequest (m val : Nat)
  | wrapperDone (m : Nat) (responded : Bool) (data : List Nat)
  | bolValueWrite (n val : Nat)
  | bolNotifyWrite (n : Nat) (isCtrl : Bool) (val : Nat)
  | vectorOp (at_ : At) (op : VecOp)
  | convertOp (at_ : At) (op : XOp)
  | censusCount (at_ : At) (census : Nat) (fmt : OpFmt) (src : Src)
  | maskkey (at_ : At) (dst : Nat) (step layer : Src)
  | maskword (at_ : At) (dst : Nat) (key lo hi : Src)
  | load (at_ : At) (acc : LoadAcc)
  | loadFill (core line : Nat)
  | store (at_ : At) (acc : StoreAcc)
  | atomic (at_ : At) (acc : AtomAcc)
  | fenceRelease (at_ : At) (scope : Scope)
  | fenceAcquire (at_ : At) (scope : Scope)
  | fenceAcqRel (at_ : At) (scope : Scope)
  | fenceSc (at_ : At) (scope : Scope)
  | grottoWb (at_ : At) (addr len : Nat)
  | grottoWbinv (at_ : At) (addr len : Nat)
  | grottoInvClean (at_ : At) (addr len : Nat)
  | constInvalidate (at_ : At)
  | descInvalidate (at_ : At)
  | branch (at_ : At) (targets : List (Nat × Nat))
  | join (at_ : At) (mask : Nat)
  | joinTimeout (core slot lane : Nat)
  | fragmentRotate (core slot lane : Nat)
  | blockBarrier (at_ : At) (id : Option Nat)
  | exit (at_ : At)
  | halt (at_ : At) (operand : Nat)
  | tokenWait (at_ : At) (entries : List Nat)
  | tokenPost (at_ : At) (ferry gate : Nat) (waits : List Nat)
  | tokenWatchdog (block : Nat)
  | bollardAdvance (at_ : At) (n inc : Nat) (scope : Scope)
  | bollardAdvanceApply
  | bollardWait (at_ : At) (n target dst : Nat) (timed : Bool)
  | bollardWaitTimeout (core slot lane : Nat)
  | bollardRead (at_ : At) (n dst : Nat) (acq : Bool)
  | matrixOpIssue (at_ : At) (iss : Issue) (array : Nat) (op : MatOp)
  | opBufferLeave (id : Nat)
  | arrayOpAccept (core array : Nat)
  | arrayOpComplete (core array bubbles ramps : Nat)
  | segmulIssue (at_ : At) (iss : Issue) (job : SegJob)
  | segmulTaskDispatch (job task : Nat)
  | segmulTaskDone (job task : Nat)
  | segmulComplete (job : Nat)
  | tenderCopy (at_ : At) (iss : Issue) (unit : Nat) (job : TenderJob)
  | tenderGather (at_ : At) (iss : Issue) (unit : Nat) (job : TenderJob)
  | tenderTranspose (at_ : At) (iss : Issue) (unit : Nat) (job : TenderJob)
  | tenderConvert (at_ : At) (iss : Issue) (unit : Nat) (job : TenderJob)
  | tenderReduce (at_ : At) (iss : Issue) (unit : Nat) (job : TenderJob)
  | tenderZero (at_ : At) (iss : Issue) (unit : Nat) (job : TenderJob)
  | tenderPrefetch (at_ : At) (iss : Issue) (unit : Nat) (job : TenderJob)
  | updateTake (form : EngForm UpdateJob)
  | updateCommit (form : EngForm UpdateJob)
  | dispatch (form : EngForm DispatchJob)
  | combine (form : EngForm CombineJob)
  | engineJobComplete (unit : Nat)
  | routineIssue (at_ : At) (iss : Issue) (job : RoutineJob)
  | attnFwd (core : Nat)
  | attnBwdQ (core : Nat)
  | attnBwdKv (core : Nat)
  | routineComplete (core : Nat)
  | routineMaxCycles (core : Nat)
  | blockPlace (launch idx core : Nat)
  | coreBind (core : Nat)
  | bindZeroDone (core : Nat)
  | bindQuantumExpire (core ctx : Nat)
  | sliceScrub (slice set : Nat) (errs : List Nat)
  | sliceEccError (slice kind pa : Nat)
  | grottoParityError (core addr : Nat) (isCache : Bool)
  | rocacheParityError (core kind addr : Nat)
  | hotspotWindow (cycles : Nat) (counts : List (Nat × Nat))
  | sliceDrainDone (n : Nat)
  | sliceJoin (n : Nat)
  | dramScrub (pa : Nat) (corrected : Bool)
  | dramUncorrectable (pa : Nat)
  | channelFail (n : Nat)
  | dpuCheckFail (pcore : Nat) (place : ArrayPlace) (dpu : Nat) (residue : Bool)
  | arrayParityFail (pcore : Nat) (place : ArrayPlace)
  | coreCheckFail (pcore : Nat) (block : Option Nat)
  | coreHeartbeatTimeout (pcore : Nat)
  | tenderFail (u : Nat)
  | updateEngineFail (u : Nat)
  | dispatchEngineFail (u : Nat)
  | ferryFail (u : Nat)
  | packageAgentFail (u : Nat)
  | d2dLaneFail (edge module lane : Nat)
  | regulatorPhaseFault (dom phase : Nat)
  | ftTest (unit : Nat) (force : Bool) (seq : Nat)
  | ftReplace (unit seq : Nat)
  | ftBypass (unit seq : Nat)
  | ftReturn (unit seq : Nat)
  | ftQuery (unit seq : Nat)
  | ftCommandDone (unit : Nat) (pass : Bool) (step : Nat)
  | portTrainingStart (port : Nat)
  | cxlCacheDisable
  | qDestroyDone (q : Nat)
  | jtagAccess
  | i3cDynamicAddress (addr : Nat)
  | spareBistDone (dom : Nat)
  deriving DecidableEq, Repr

end Sys2Proof
end

