-- ==== Sys2Proof/Decode.lean ====
section
/-! DEFINITION. The command a table word spells. -/

namespace Sys2Proof

/-- spec/opcode_table.json gives none of its rows any bits ("fields" is empty throughout), so no word spells a command (log 3). -/
def decodeTableWord (_nbits _w : Nat) : Option Instr := none

end Sys2Proof
end

