-- ==== Sys2Proof/Config.lean ====
section
/-! DEFINITION. What the manual leaves open: free values, each an opaque constant that nothing can evaluate, applied to a
counter of State or to the operands it depends on. -/

namespace Sys2Proof.Config

/-- DESIGN CHOICE (log 12): the result of a function instruction of the X pipeline (reciprocal, square root, exponential,
logarithm) on an operand that is no NaN; R166 names the work and no rule gives its value. -/
opaque xFunction : Nat → W32 → W32

/-- DESIGN CHOICE (log 12): which of the eligible frames a slice evicts (R265: not architected). -/
opaque victim : Nat → Nat

/-- DESIGN CHOICE (log 12): whether a slice's compressor encodes a line that is none of R262's guaranteed lines. -/
opaque compresses : List Byte → Bool

/-- DESIGN CHOICE (log 12): byte `i` of the two keys that the key engine draws at random as key generation `gen` (R310). -/
opaque keyByte : Nat → Nat → Byte

/-- DESIGN CHOICE (log 12): a byte of DRAM after a warm reset made the contents unpredictable (R464), by epoch and address. -/
opaque dramByte : Nat → Nat → Byte

/-- DESIGN CHOICE (log 12): bytes the manual calls undefined after a job was cut short (R136, R206, R332, R441, R371). -/
opaque undefinedByte : Nat → Byte

/-- DESIGN CHOICE (log 12): a byte of a Grotto step that turned from cache into scratchpad (R245: in no defined arrangement), by the
counter it was drawn at and its address. -/
opaque grottoByte : Nat → Nat → Byte

/-- DESIGN CHOICE (log 12): further open values of 64 bits, by use and counter: what an out-of-range shift count or an INT32
operation the manual does not define gives, a boundary-scan output, a free choice among equals. -/
opaque word : Nat → Nat → W64

/-- DESIGN CHOICE (log 12): the code a compare writes for true and for false, and a select tests; no rule gives it. -/
opaque truth : Bool → W32

/-- UCIe 2.0 repair lanes of one die-to-die module; the manual leaves the number to that standard (R517). PRESUMED 4, log 14. -/
def repairLanes : Nat := 4

end Sys2Proof.Config
end

