-- ==== Sys2Proof/Machine/Cipher.lean ====
section
/-! DEFINITION. AES-256-XTS over a 64-B sector, which the DRAM channels encrypt with (9: R308). PRESUMED (log 56): the cipher is that of
FIPS 197 and IEEE Std 1619, which the manual names and does not repeat. -/

namespace Sys2Proof.Machine

/-- The S-box. -/
def aesBox : List Nat :=
    [99, 124, 119, 123, 242, 107, 111, 197, 48, 1, 103, 43, 254, 215, 171, 118, 202, 130, 201, 125, 250, 89, 71, 240, 173, 212, 162, 175, 156, 164, 114, 192] ++
    [183, 253, 147, 38, 54, 63, 247, 204, 52, 165, 229, 241, 113, 216, 49, 21, 4, 199, 35, 195, 24, 150, 5, 154, 7, 18, 128, 226, 235, 39, 178, 117] ++
    [9, 131, 44, 26, 27, 110, 90, 160, 82, 59, 214, 179, 41, 227, 47, 132, 83, 209, 0, 237, 32, 252, 177, 91, 106, 203, 190, 57, 74, 76, 88, 207] ++
    [208, 239, 170, 251, 67, 77, 51, 133, 69, 249, 2, 127, 80, 60, 159, 168, 81, 163, 64, 143, 146, 157, 56, 245, 188, 182, 218, 33, 16, 255, 243, 210] ++
    [205, 12, 19, 236, 95, 151, 68, 23, 196, 167, 126, 61, 100, 93, 25, 115, 96, 129, 79, 220, 34, 42, 144, 136, 70, 238, 184, 20, 222, 94, 11, 219] ++
    [224, 50, 58, 10, 73, 6, 36, 92, 194, 211, 172, 98, 145, 149, 228, 121, 231, 200, 55, 109, 141, 213, 78, 169, 108, 86, 244, 234, 101, 122, 174, 8] ++
    [186, 120, 37, 46, 28, 166, 180, 198, 232, 221, 116, 31, 75, 189, 139, 138, 112, 62, 181, 102, 72, 3, 246, 14, 97, 53, 87, 185, 134, 193, 29, 158] ++
    [225, 248, 152, 17, 105, 217, 142, 148, 155, 30, 135, 233, 206, 85, 40, 223, 140, 161, 137, 13, 191, 230, 66, 104, 65, 153, 45, 15, 176, 84, 187, 22]

def aesSub (x : Nat) : Nat := aesBox.getD x 0
def aesUnsub (x : Nat) : Nat := aesBox.findIdx (fun y => y == x)

/-- Twice an element of the field of AES. -/
def aesTwice (a : Nat) : Nat := if a < 128 then 2 * a else (2 * a - 256) ^^^ 0x1B

/-- The product of two elements of the field, over the low `n` bits of the second. -/
def aesMul : Nat → Nat → Nat → Nat
  | 0, _, _ => 0
  | n + 1, a, b => (if b % 2 = 1 then a else 0) ^^^ aesMul n (aesTwice a) (b / 2)

def xorBytes (a b : List Nat) : List Nat := List.zipWith (· ^^^ ·) a b

/-- The next word of a key schedule of `i` words, the last first. -/
def aesNextWord (i : Nat) (ws : List (List Nat)) : List Nat :=
  let t := ws.headD []
  let t :=
    if i % 8 = 0 then xorBytes ((t.drop 1 ++ t.take 1).map aesSub) [2 ^ (i / 8 - 1), 0, 0, 0]
    else if i % 8 = 4 then t.map aesSub else t
  xorBytes t (ws.getD 7 [])

/-- `n` more words of a key schedule. -/
def aesExpand : Nat → Nat → List (List Nat) → List (List Nat)
  | 0, _, ws => ws
  | n + 1, i, ws => aesExpand n (i + 1) (aesNextWord i ws :: ws)

/-- The 15 round keys of a 256-bit key of 32 bytes. -/
def aesKeys (key : List Nat) : List (List Nat) :=
  let ws := (aesExpand 52 8 ((tabulate 8 (fun i => (key.drop (4 * i)).take 4)).reverse)).reverse
  tabulate 15 (fun r => ((ws.drop (4 * r)).take 4).flatten)

/-- Row r of the state moved left by r·`n` places. -/
def aesShift (n : Nat) (st : List Nat) : List Nat := tabulate 16 (fun i => st.getD (i % 4 + 4 * ((i / 4 + n * (i % 4)) % 4)) 0)

/-- Each column multiplied by the circulant matrix of `c`. -/
def aesMix (c st : List Nat) : List Nat :=
  let term (i k : Nat) : Nat := aesMul 4 (st.getD (i / 4 * 4 + k) 0) (c.getD ((k + 4 - i % 4) % 4) 0)
  tabulate 16 (fun i => (List.range 4).foldl (fun x k => x ^^^ term i k) 0)

/-- One block encrypted under the 15 round keys. -/
def aesEncrypt (ks : List (List Nat)) (x : List Nat) : List Nat :=
  let mid := ((ks.drop 1).take 13).foldl (fun st k => xorBytes (aesMix [2, 3, 1, 1] (aesShift 1 (st.map aesSub))) k) (xorBytes x (ks.headD []))
  xorBytes (aesShift 1 (mid.map aesSub)) (ks.getD 14 [])

/-- One block decrypted. -/
def aesDecrypt (ks : List (List Nat)) (x : List Nat) : List Nat :=
  let undo (st : List Nat) : List Nat := (aesShift 3 st).map aesUnsub
  let mid := ((ks.drop 1).take 13).reverse.foldl (fun st k => aesMix [14, 11, 13, 9] (xorBytes (undo st) k)) (xorBytes x (ks.getD 14 []))
  xorBytes (undo mid) (ks.headD [])

/-- The little-endian bytes of a block. -/
def blockBytes (v : Nat) : List Nat := tabulate 16 (fun i => v / 256 ^ i % 256)
def blockVal (b : List Nat) : Nat := b.foldr (fun x v => x + 256 * v) 0

/-- The tweak of block `j` of a data unit, from its first. -/
def xtsTweak (t : Nat) : Nat → Nat
  | 0 => t
  | j + 1 => let u := xtsTweak t j; if u < 2 ^ 127 then 2 * u else (2 * u - 2 ^ 128) ^^^ 0x87

/-- A data unit of 64 bytes with sequence number `seq` under the 64 bytes of two keys, each block passed through `f` of the data key. -/
def xtsUnit (f : List (List Nat) → List Nat → List Nat) (keys : List Nat) (seq : Nat) (x : List Nat) : List Nat :=
  let k1 := aesKeys (keys.take 32)
  let t := blockVal (aesEncrypt (aesKeys (keys.drop 32)) (blockBytes seq))
  (List.range 4).flatMap (fun j =>
    let w := blockBytes (xtsTweak t j)
    xorBytes (f k1 (xorBytes ((x.drop (16 * j)).take 16) w)) w)

/-- The two keys of a key generation (R310): 0 is data in the clear, 1 the zeros of a slot without keys, others drawn at random. -/
def keysOf (gen : Nat) : List Nat := if gen = 1 then List.replicate 64 0 else tabulate 64 (fun i => (Config.keyByte gen i).toNat)

/-- Bytes written under one key generation as they read under another (R308, R311): the stored ciphertext of sector `seq` decrypted. -/
def recrypt (old new seq : Nat) (x : List Byte) : List Byte :=
  if old = new then x
  else
    let raw := if old = 0 then x.map (·.toNat) else xtsUnit aesEncrypt (keysOf old) seq (x.map (·.toNat))
    (if new = 0 then raw else xtsUnit aesDecrypt (keysOf new) seq raw).map (BitVec.ofNat 8)

end Sys2Proof.Machine
end

