-- ==== Sys2Proof/Machine/RegMap.lean ====
section
/-! DEFINITION. The register map of BAR0, generated from the register tables of spec/: every register's place, size, reset
domain and fields with access type and reset value (R9, R11, R13, R28). -/

namespace Sys2Proof.Machine

/-- Access types of Table 0.4 (no register of the map is RWS). -/
inductive Access where
  | ro | rw | w1c | rb
  deriving DecidableEq, Repr

/-- Reset domains, weakest first (R10, R11). -/
inductive RDomain where
  | function | warm | cold
  deriving DecidableEq, Repr

/-- A field: bits [hi:lo] counted from bit 0 of word 0, access, reset value. A reset value the tables give as from the map,
the image, the start or the retained bank stands as 0, a domain's STATE as 3, OFF (log 6). -/
structure RegField where
  hi : Nat
  lo : Nat
  acc : Access
  reset : Nat
  deriving DecidableEq, Repr

/-- A register or array of registers: instance (i, j) word w lies at base + s1 × i + s2 × j + 8 × w, first ≤ i < n1, j < n2. -/
structure RegDesc where
  base : Nat
  n1 : Nat
  s1 : Nat
  n2 : Nat
  s2 : Nat
  first : Nat
  words : Nat
  is32 : Bool
  dom : RDomain
  fields : List RegField
  deriving DecidableEq, Repr

/-- The registers of BAR0, by their names in spec/. -/
inductive RegId where
  | idDevice -- ID_DEVICE, spec/01_the_part.md Table 1.7
  | idCoreMap -- ID_CORE_MAP_n, spec/01_the_part.md Table 1.8
  | idSliceMap -- ID_SLICE_MAP_n, spec/01_the_part.md Table 1.9
  | coreCensus -- CORE_CENSUS_n, spec/02_number_formats.md Table 2.11
  | coreArrayDpuMap -- CORE_ARRAY_DPU_MAP_n, spec/03_matrix_arrays.md Table 3.7
  | coreArraySteps -- CORE_ARRAY_STEPS_n, spec/03_matrix_arrays.md Table 3.8
  | coreArrayFeedBubbles -- CORE_ARRAY_FEED_BUBBLES_n, spec/03_matrix_arrays.md Table 3.9
  | coreArrayRampCycles -- CORE_ARRAY_RAMP_CYCLES_n, spec/03_matrix_arrays.md Table 3.10
  | coreArrayPadCycles -- CORE_ARRAY_PAD_CYCLES_n, spec/03_matrix_arrays.md Table 3.11
  | coreAdapterTable -- CORE_ADAPTER_TABLE, spec/04_tenant_segmented_multiply.md Table 4.4
  | hmCtxGrant -- HM_CTX_GRANT_n, spec/05_thread_groups.md Table 5.3
  | hmBindQuantum -- HM_BIND_QUANTUM, spec/05_thread_groups.md Table 5.4
  | coreBinding -- CORE_BINDING_n, spec/05_thread_groups.md Table 5.5
  | corePipeIssued -- CORE_PIPE_ISSUED_n, spec/05_thread_groups.md Table 5.9
  | corePipeDual -- CORE_PIPE_DUAL_n, spec/05_thread_groups.md Table 5.10
  | corePipePacked -- CORE_PIPE_PACKED_n, spec/05_thread_groups.md Table 5.11
  | corePipeSplits -- CORE_PIPE_SPLITS_n, spec/05_thread_groups.md Table 5.12
  | corePipeParks -- CORE_PIPE_PARKS_n, spec/05_thread_groups.md Table 5.13
  | corePipeLreqStalls -- CORE_PIPE_LREQ_STALLS_n, spec/05_thread_groups.md Table 5.14
  | coreTokenWatchdog -- CORE_TOKEN_WATCHDOG, spec/06_code_objects_and_tokens.md Table 6.7
  | ctxIfetchBytes -- CTX_IFETCH_BYTES_n, spec/06_code_objects_and_tokens.md Table 6.10
  | ctxIfetchStalls -- CTX_IFETCH_STALLS_n, spec/06_code_objects_and_tokens.md Table 6.11
  | coreHaltA -- CORE_HALT_A_n, spec/06_code_objects_and_tokens.md Table 6.12
  | coreHaltB -- CORE_HALT_B_n, spec/06_code_objects_and_tokens.md Table 6.13
  | coreHaltC -- CORE_HALT_C_n, spec/06_code_objects_and_tokens.md Table 6.14
  | coreHaltD -- CORE_HALT_D_n, spec/06_code_objects_and_tokens.md Table 6.15
  | bolValue -- BOL_VALUE_n, spec/07_ordering_model.md Table 7.4
  | bolCtrl -- BOL_CTRL_n, spec/07_ordering_model.md Table 7.5
  | bolNotify -- BOL_NOTIFY_n, spec/07_ordering_model.md Table 7.6
  | ctxGrottoMask -- CTX_GROTTO_MASK_n, spec/08_grotto_and_cavern.md Table 8.1
  | coreGrottoStatus -- CORE_GROTTO_STATUS_n, spec/08_grotto_and_cavern.md Table 8.5
  | coreGrottoHits -- CORE_GROTTO_HITS_n, spec/08_grotto_and_cavern.md Table 8.6
  | coreGrottoMisses -- CORE_GROTTO_MISSES_n, spec/08_grotto_and_cavern.md Table 8.7
  | coreGrottoWb -- CORE_GROTTO_WB_n, spec/08_grotto_and_cavern.md Table 8.8
  | cavWayLock -- CAV_WAY_LOCK, spec/08_grotto_and_cavern.md Table 8.10
  | cavClassMask -- CAV_CLASS_MASK_k, spec/08_grotto_and_cavern.md Table 8.11
  | cavClassHits -- CAV_CLASS_HITS_k, spec/08_grotto_and_cavern.md Table 8.12
  | cavClassMisses -- CAV_CLASS_MISSES_k, spec/08_grotto_and_cavern.md Table 8.13
  | cavClassNofill -- CAV_CLASS_NOFILL_k, spec/08_grotto_and_cavern.md Table 8.14
  | cavCtrl -- CAV_CTRL, spec/08_grotto_and_cavern.md Table 8.15
  | cavHashKey -- CAV_HASH_KEY, spec/08_grotto_and_cavern.md Table 8.16
  | cavHotspot -- CAV_HOTSPOT, spec/08_grotto_and_cavern.md Table 8.19
  | cavSliceStatus -- CAV_SLICE_STATUS_n, spec/08_grotto_and_cavern.md Table 8.21
  | dramSpace -- DRAM_SPACE, spec/09_dram_and_segments.md Table 9.4
  | dramChanStatus -- DRAM_CHAN_STATUS_n, spec/09_dram_and_segments.md Table 9.5
  | dramChanCtrl -- DRAM_CHAN_CTRL_n, spec/09_dram_and_segments.md Table 9.6
  | dram1500Ctrl -- DRAM_1500_CTRL_m, spec/09_dram_and_segments.md Table 9.7
  | dram1500Data -- DRAM_1500_DATA_m_j, spec/09_dram_and_segments.md Table 9.8
  | dramRegCfg -- DRAM_REG_CFG_r, spec/09_dram_and_segments.md Table 9.9
  | dramRegBytes -- DRAM_REG_BYTES_r, spec/09_dram_and_segments.md Table 9.10
  | dramRegThrottled -- DRAM_REG_THROTTLED_r, spec/09_dram_and_segments.md Table 9.11
  | segVbase -- SEG_VBASE_c_s, spec/09_dram_and_segments.md Table 9.12
  | segPbase -- SEG_PBASE_c_s, spec/09_dram_and_segments.md Table 9.13
  | segLen -- SEG_LEN_c_s, spec/09_dram_and_segments.md Table 9.14
  | segAttr -- SEG_ATTR_c_s, spec/09_dram_and_segments.md Table 9.15
  | segApplyStatus -- SEG_APPLY_STATUS, spec/09_dram_and_segments.md Table 9.16
  | segFaultLimit -- SEG_FAULT_LIMIT, spec/09_dram_and_segments.md Table 9.17
  | segFault -- SEG_FAULT_c, spec/09_dram_and_segments.md Table 9.18
  | keySlot -- KEY_SLOT_k, spec/09_dram_and_segments.md Table 9.19
  | engStatus -- ENG_STATUS_n, spec/10_training_engines.md Table 10.8
  | engBytes -- ENG_BYTES_n, spec/10_training_engines.md Table 10.9
  | updGate -- UPD_GATE_n, spec/10_training_engines.md Table 10.10
  | engDrops -- ENG_DROPS_n, spec/10_training_engines.md Table 10.11
  | tideCount -- TIDE_COUNT, spec/11_tide_and_sailings.md Table 11.2
  | tideLock -- TIDE_LOCK, spec/11_tide_and_sailings.md Table 11.3
  | tideCtrl -- TIDE_CTRL, spec/11_tide_and_sailings.md Table 11.4
  | tidePaths -- TIDE_PATHS, spec/11_tide_and_sailings.md Table 11.5
  | ferryCtrl -- FERRY_CTRL_f, spec/11_tide_and_sailings.md Table 11.6
  | ferryEpoch -- FERRY_EPOCH_f, spec/11_tide_and_sailings.md Table 11.7
  | ferryPeriod -- FERRY_PERIOD_f, spec/11_tide_and_sailings.md Table 11.8
  | ferryStatus -- FERRY_STATUS_f, spec/11_tide_and_sailings.md Table 11.9
  | ferryCount -- FERRY_COUNT_f, spec/11_tide_and_sailings.md Table 11.10
  | ferryExc -- FERRY_EXC_f, spec/11_tide_and_sailings.md Table 11.11
  | ferryAbort -- FERRY_ABORT_f, spec/11_tide_and_sailings.md Table 11.12
  | ferryGates -- FERRY_GATES_f, spec/11_tide_and_sailings.md Table 11.13
  | ferryRoute -- FERRY_ROUTE_f_r, spec/11_tide_and_sailings.md Table 11.14
  | ferryCond -- FERRY_COND_f_c, spec/11_tide_and_sailings.md Table 11.15
  | tt -- TT_f_e, spec/11_tide_and_sailings.md Table 11.16
  | berth -- BERTH_b, spec/11_tide_and_sailings.md Table 11.18
  | berthStatus -- BERTH_STATUS_b, spec/11_tide_and_sailings.md Table 11.19
  | fabRegion -- FAB_REGION_r, spec/12_umbor_fabric_and_optics.md Table 12.8
  | fabNode -- FAB_NODE, spec/12_umbor_fabric_and_optics.md Table 12.9
  | fabTimeout -- FAB_TIMEOUT, spec/12_umbor_fabric_and_optics.md Table 12.10
  | fabPortStatus -- FAB_PORT_STATUS_p, spec/12_umbor_fabric_and_optics.md Table 12.11
  | fabPortCtrl -- FAB_PORT_CTRL_p, spec/12_umbor_fabric_and_optics.md Table 12.12
  | fabLaneMap -- FAB_LANE_MAP_p, spec/12_umbor_fabric_and_optics.md Table 12.13
  | fabPortErr -- FAB_PORT_ERR_p, spec/12_umbor_fabric_and_optics.md Table 12.14
  | optEmitter -- OPT_EMITTER_n, spec/12_umbor_fabric_and_optics.md Table 12.15
  | cap -- CAP_n, spec/13_host_interface_and_objects.md Table 13.2
  | hostCmd -- HOST_CMD, spec/13_host_interface_and_objects.md Table 13.5
  | hostCmdArg -- HOST_CMD_ARG_j, spec/13_host_interface_and_objects.md Table 13.6
  | hostCmdStatus -- HOST_CMD_STATUS, spec/13_host_interface_and_objects.md Table 13.7
  | hostMoTable -- HOST_MO_TABLE, spec/13_host_interface_and_objects.md Table 13.9
  | coreAdapterHolds -- CORE_ADAPTER_HOLDS_h, spec/13_host_interface_and_objects.md Table 13.11
  | ctxState -- CTX_STATE_n, spec/13_host_interface_and_objects.md Table 13.12
  | ctxSeed -- CTX_SEED_n, spec/13_host_interface_and_objects.md Table 13.13
  | qStatus -- Q_STATUS_q, spec/13_host_interface_and_objects.md Table 13.18
  | qCqHead -- Q_CQ_HEAD_q, spec/13_host_interface_and_objects.md Table 13.19
  | qDoorbell -- Q_DOORBELL_q, spec/13_host_interface_and_objects.md Table 13.20
  | evt -- EVT_n, spec/13_host_interface_and_objects.md Table 13.21
  | sumpRing -- SUMP_RING, spec/13_host_interface_and_objects.md Table 13.23
  | sumpTail -- SUMP_TAIL, spec/13_host_interface_and_objects.md Table 13.24
  | sumpHead -- SUMP_HEAD, spec/13_host_interface_and_objects.md Table 13.25
  | sumpCtrl -- SUMP_CTRL, spec/13_host_interface_and_objects.md Table 13.26
  | sumpHold -- SUMP_HOLD, spec/13_host_interface_and_objects.md Table 13.27
  | hostStatus -- HOST_STATUS, spec/13_host_interface_and_objects.md Table 13.31
  | lkBootStatus -- LK_BOOT_STATUS, spec/14_boot_image_and_retained_bank.md Table 14.9
  | lkSoftstart -- LK_SOFTSTART, spec/14_boot_image_and_retained_bank.md Table 14.10
  | lkImageInfo -- LK_IMAGE_INFO, spec/14_boot_image_and_retained_bank.md Table 14.11
  | rbStatus -- RB_STATUS, spec/14_boot_image_and_retained_bank.md Table 14.12
  | rbBoot -- RB_BOOT, spec/14_boot_image_and_retained_bank.md Table 14.13
  | rbSoftstartSticky -- RB_SOFTSTART_STICKY, spec/14_boot_image_and_retained_bank.md Table 14.14
  | rbFaultHist -- RB_FAULT_HIST_n, spec/14_boot_image_and_retained_bank.md Table 14.15
  | pwrDomCtrl -- PWR_DOM_CTRL_d, spec/15_power.md Table 15.3
  | pwrDomAt -- PWR_DOM_AT_d, spec/15_power.md Table 15.4
  | pwrDomStatus -- PWR_DOM_STATUS_d, spec/15_power.md Table 15.5
  | pwrPstate -- PWR_PSTATE, spec/15_power.md Table 15.8
  | pwrPstateAt -- PWR_PSTATE_AT, spec/15_power.md Table 15.8
  | pwrCap -- PWR_CAP, spec/15_power.md Table 15.10
  | pwrInput -- PWR_INPUT, spec/15_power.md Table 15.11
  | pwrTherm -- PWR_THERM_t, spec/15_power.md Table 15.12
  | pwrThrottle -- PWR_THROTTLE, spec/15_power.md Table 15.14
  | pwrThrottleUs -- PWR_THROTTLE_US_k, spec/15_power.md Table 15.15
  | ctxEnergy -- CTX_ENERGY_n, spec/15_power.md Table 15.17
  | pwrEnergyUnattr -- PWR_ENERGY_UNATTR, spec/15_power.md Table 15.18
  | faultStatus -- FAULT_STATUS, spec/16_faults_spares_and_test.md Table 16.4
  | faultCount -- FAULT_COUNT_k, spec/16_faults_spares_and_test.md Table 16.4a
  | faultCtrl -- FAULT_CTRL, spec/16_faults_spares_and_test.md Table 16.4b
  | ftSpares -- FT_SPARES, spec/16_faults_spares_and_test.md Table 16.6
  | ftCmd -- FT_CMD, spec/16_faults_spares_and_test.md Table 16.8
  | wearCore -- WEAR_CORE_p, spec/16_faults_spares_and_test.md Table 16.12
  | wearSlice -- WEAR_SLICE_p, spec/16_faults_spares_and_test.md Table 16.13
  deriving DecidableEq, Repr

namespace D
def idDevice : RegDesc := ⟨0x0, 1, 0, 1, 0, 0, 1, false, .cold, [⟨15, 0, .ro, 0xc19⟩, ⟨19, 16, .ro, 1⟩, ⟨23, 20, .ro, 4⟩, ⟨31, 24, .ro, 0x10⟩, ⟨40, 32, .ro, 0⟩, ⟨49, 41, .ro, 0⟩, ⟨58, 50, .ro, 0⟩, ⟨63, 63, .ro, 0⟩]⟩
def idCoreMap : RegDesc := ⟨0x1000, 240, 4, 1, 0, 0, 1, true, .cold, [⟨7, 0, .ro, 0⟩, ⟨31, 31, .ro, 0⟩]⟩
def idSliceMap : RegDesc := ⟨0x1400, 256, 4, 1, 0, 0, 1, true, .cold, [⟨8, 0, .ro, 0⟩, ⟨31, 31, .ro, 0⟩]⟩
def coreCensus : RegDesc := ⟨0x3a00000, 65536, 4, 1, 0, 0, 1, true, .function, [⟨23, 0, .rw, 0⟩, ⟨24, 24, .w1c, 0⟩, ⟨25, 25, .w1c, 0⟩, ⟨26, 26, .w1c, 0⟩, ⟨31, 31, .w1c, 0⟩]⟩
def coreArrayDpuMap : RegDesc := ⟨0x3380000, 1024, 4, 1, 0, 0, 1, true, .cold, [⟨5, 0, .ro, 0⟩, ⟨11, 6, .ro, 0⟩, ⟨12, 12, .ro, 0⟩]⟩
def coreArraySteps : RegDesc := ⟨0x3390000, 960, 32, 1, 0, 0, 1, false, .function, [⟨63, 0, .rw, 0⟩]⟩
def coreArrayFeedBubbles : RegDesc := ⟨0x3390008, 960, 32, 1, 0, 0, 1, false, .function, [⟨63, 0, .rw, 0⟩]⟩
def coreArrayRampCycles : RegDesc := ⟨0x3390010, 960, 32, 1, 0, 0, 1, false, .function, [⟨63, 0, .rw, 0⟩]⟩
def coreArrayPadCycles : RegDesc := ⟨0x3390018, 960, 32, 1, 0, 0, 1, false, .function, [⟨63, 0, .rw, 0⟩]⟩
def coreAdapterTable : RegDesc := ⟨0x3a80000, 1, 0, 1, 0, 0, 1, false, .function, [⟨0, 0, .rw, 0⟩, ⟨47, 12, .rw, 0⟩]⟩
def hmCtxGrant : RegDesc := ⟨0x3000000, 4096, 4, 1, 0, 0, 1, true, .function, [⟨7, 0, .rw, 0⟩, ⟨15, 8, .rw, 0⟩, ⟨17, 16, .rw, 0⟩]⟩
def hmBindQuantum : RegDesc := ⟨0x3004000, 1, 0, 1, 0, 0, 1, true, .function, [⟨15, 0, .rw, 0x1f4⟩]⟩
def coreBinding : RegDesc := ⟨0x3010000, 240, 4, 1, 0, 0, 1, true, .function, [⟨11, 0, .ro, 0⟩, ⟨12, 12, .ro, 0⟩, ⟨19, 13, .ro, 0⟩, ⟨27, 20, .ro, 0⟩]⟩
def corePipeIssued : RegDesc := ⟨0x3020000, 240, 64, 1, 0, 0, 1, false, .function, [⟨63, 0, .rw, 0⟩]⟩
def corePipeDual : RegDesc := ⟨0x3020008, 240, 64, 1, 0, 0, 1, false, .function, [⟨63, 0, .rw, 0⟩]⟩
def corePipePacked : RegDesc := ⟨0x3020010, 240, 64, 1, 0, 0, 1, false, .function, [⟨63, 0, .rw, 0⟩]⟩
def corePipeSplits : RegDesc := ⟨0x3020018, 240, 64, 1, 0, 0, 1, false, .function, [⟨63, 0, .rw, 0⟩]⟩
def corePipeParks : RegDesc := ⟨0x3020020, 240, 64, 1, 0, 0, 1, false, .function, [⟨63, 0, .rw, 0⟩]⟩
def corePipeLreqStalls : RegDesc := ⟨0x3020028, 240, 64, 1, 0, 0, 1, false, .function, [⟨63, 0, .rw, 0⟩]⟩
def coreTokenWatchdog : RegDesc := ⟨0x3004008, 1, 0, 1, 0, 0, 1, true, .function, [⟨15, 0, .rw, 0x3e8⟩]⟩
def ctxIfetchBytes : RegDesc := ⟨0x3040000, 4096, 16, 1, 0, 0, 1, false, .function, [⟨63, 0, .rw, 0⟩]⟩
def ctxIfetchStalls : RegDesc := ⟨0x3040008, 4096, 16, 1, 0, 0, 1, false, .function, [⟨63, 0, .rw, 0⟩]⟩
def coreHaltA : RegDesc := ⟨0x3060000, 4096, 32, 1, 0, 0, 1, false, .function, [⟨7, 0, .ro, 0⟩, ⟨15, 8, .ro, 0⟩, ⟨23, 16, .ro, 0⟩, ⟨31, 24, .ro, 0⟩, ⟨38, 32, .ro, 0⟩, ⟨39, 39, .w1c, 0⟩]⟩
def coreHaltB : RegDesc := ⟨0x3060008, 4096, 32, 1, 0, 0, 1, false, .function, [⟨39, 0, .ro, 0⟩, ⟨40, 40, .ro, 0⟩]⟩
def coreHaltC : RegDesc := ⟨0x3060010, 4096, 32, 1, 0, 0, 1, false, .function, [⟨27, 0, .ro, 0⟩, ⟨63, 32, .ro, 0⟩]⟩
def coreHaltD : RegDesc := ⟨0x3060018, 4096, 32, 1, 0, 0, 1, false, .function, [⟨63, 0, .ro, 0⟩]⟩
def bolValue : RegDesc := ⟨0x2c00000, 16384, 8, 1, 0, 0, 1, false, .function, [⟨63, 0, .rw, 0⟩]⟩
def bolCtrl : RegDesc := ⟨0x2c20000, 16384, 8, 1, 0, 0, 1, false, .function, [⟨11, 0, .rw, 0⟩, ⟨12, 12, .rw, 0⟩, ⟨13, 13, .rw, 0⟩, ⟨14, 14, .w1c, 0⟩, ⟨31, 16, .rw, 0⟩]⟩
def bolNotify : RegDesc := ⟨0x2c40000, 16384, 8, 1, 0, 0, 1, false, .function, [⟨63, 0, .rw, 0⟩]⟩
def ctxGrottoMask : RegDesc := ⟨0x3080000, 4096, 8, 1, 0, 0, 1, false, .function, [⟨15, 0, .rw, 0xffff⟩, ⟨31, 16, .rw, 0xffff⟩, ⟨47, 32, .rw, 0xffff⟩, ⟨63, 48, .rw, 1⟩]⟩
def coreGrottoStatus : RegDesc := ⟨0x3090000, 240, 32, 1, 0, 0, 1, true, .function, [⟨4, 0, .ro, 0⟩, ⟨19, 5, .ro, 0⟩]⟩
def coreGrottoHits : RegDesc := ⟨0x3090008, 240, 32, 1, 0, 0, 1, false, .function, [⟨63, 0, .rw, 0⟩]⟩
def coreGrottoMisses : RegDesc := ⟨0x3090010, 240, 32, 1, 0, 0, 1, false, .function, [⟨63, 0, .rw, 0⟩]⟩
def coreGrottoWb : RegDesc := ⟨0x3090018, 240, 32, 1, 0, 0, 1, false, .function, [⟨63, 0, .rw, 0⟩]⟩
def cavWayLock : RegDesc := ⟨0x1000010, 1, 0, 1, 0, 0, 1, true, .function, [⟨15, 0, .rw, 0⟩]⟩
def cavClassMask : RegDesc := ⟨0x1000100, 16, 8, 1, 0, 0, 1, true, .function, [⟨15, 0, .rw, 0xffff⟩, ⟨16, 16, .rw, 0⟩]⟩
def cavClassHits : RegDesc := ⟨0x1001000, 16, 32, 1, 0, 0, 1, false, .function, [⟨63, 0, .rw, 0⟩]⟩
def cavClassMisses : RegDesc := ⟨0x1001008, 16, 32, 1, 0, 0, 1, false, .function, [⟨63, 0, .rw, 0⟩]⟩
def cavClassNofill : RegDesc := ⟨0x1001010, 16, 32, 1, 0, 0, 1, false, .function, [⟨63, 0, .rw, 0⟩]⟩
def cavCtrl : RegDesc := ⟨0x1000000, 1, 0, 1, 0, 0, 1, true, .cold, [⟨0, 0, .ro, 0⟩, ⟨1, 1, .ro, 0⟩]⟩
def cavHashKey : RegDesc := ⟨0x1000008, 1, 0, 1, 0, 0, 1, false, .cold, [⟨63, 0, .ro, 0⟩]⟩
def cavHotspot : RegDesc := ⟨0x1000018, 1, 0, 1, 0, 0, 1, false, .function, [⟨7, 0, .ro, 0⟩, ⟨8, 8, .w1c, 0⟩, ⟨9, 9, .rw, 0⟩, ⟨31, 16, .rw, 0⟩, ⟨63, 32, .rw, 0⟩]⟩
def cavSliceStatus : RegDesc := ⟨0x1010000, 256, 16, 1, 0, 0, 1, false, .cold, [⟨2, 0, .ro, 0⟩, ⟨26, 8, .ro, 0⟩, ⟨47, 32, .rw, 0⟩, ⟨55, 48, .rw, 0⟩, ⟨63, 56, .rw, 0⟩]⟩
def dramSpace : RegDesc := ⟨0x2000000, 1, 0, 1, 0, 0, 1, false, .cold, [⟨22, 0, .ro, 0⟩, ⟨26, 23, .ro, 0⟩, ⟨49, 27, .ro, 0⟩, ⟨53, 50, .ro, 0⟩]⟩
def dramChanStatus : RegDesc := ⟨0x2001000, 256, 8, 1, 0, 0, 1, false, .cold, [⟨2, 0, .ro, 0⟩, ⟨30, 8, .ro, 0⟩, ⟨47, 32, .rw, 0⟩, ⟨55, 48, .rw, 0⟩]⟩
def dramChanCtrl : RegDesc := ⟨0x2002000, 256, 8, 1, 0, 0, 1, true, .cold, [⟨0, 0, .rw, 0⟩]⟩
def dram1500Ctrl : RegDesc := ⟨0x2020000, 8, 64, 1, 0, 0, 1, false, .warm, [⟨7, 0, .rw, 0⟩, ⟨12, 8, .rw, 0⟩, ⟨24, 16, .rw, 1⟩, ⟨39, 32, .rw, 0⟩, ⟨47, 40, .ro, 0⟩, ⟨49, 48, .ro, 0⟩]⟩
def dram1500Data : RegDesc := ⟨0x2020008, 8, 64, 4, 8, 0, 1, false, .warm, [⟨63, 0, .rw, 0⟩]⟩
def dramRegCfg : RegDesc := ⟨0x2010000, 32, 32, 1, 0, 0, 1, true, .function, [⟨8, 0, .rw, 0x100⟩, ⟨9, 9, .rw, 1⟩, ⟨27, 16, .rw, 0x40⟩]⟩
def dramRegBytes : RegDesc := ⟨0x2010008, 32, 32, 1, 0, 0, 1, false, .function, [⟨63, 0, .rw, 0⟩]⟩
def dramRegThrottled : RegDesc := ⟨0x2010010, 32, 32, 1, 0, 0, 1, false, .function, [⟨63, 0, .rw, 0⟩]⟩
def segVbase : RegDesc := ⟨0x2400000, 4096, 512, 16, 32, 0, 1, false, .function, [⟨47, 0, .rw, 0⟩]⟩
def segPbase : RegDesc := ⟨0x2400008, 4096, 512, 16, 32, 0, 1, false, .function, [⟨63, 0, .rw, 0⟩]⟩
def segLen : RegDesc := ⟨0x2400010, 4096, 512, 16, 32, 0, 1, false, .function, [⟨47, 0, .rw, 0⟩, ⟨63, 48, .rw, 0⟩]⟩
def segAttr : RegDesc := ⟨0x2400018, 4096, 512, 16, 32, 0, 1, false, .function, [⟨0, 0, .rw, 0⟩, ⟨1, 1, .rw, 0⟩, ⟨3, 2, .rw, 0⟩, ⟨4, 4, .rw, 0⟩, ⟨5, 5, .rw, 0⟩, ⟨6, 6, .rw, 0⟩, ⟨7, 7, .rw, 0⟩, ⟨8, 8, .rw, 0⟩, ⟨15, 12, .rw, 0⟩, ⟨20, 16, .rw, 0⟩, ⟨43, 32, .rw, 0⟩]⟩
def segApplyStatus : RegDesc := ⟨0x2610000, 1, 0, 1, 0, 0, 1, false, .function, [⟨31, 0, .ro, 0⟩, ⟨43, 32, .ro, 0⟩, ⟨47, 44, .ro, 0⟩, ⟨48, 48, .w1c, 0⟩]⟩
def segFaultLimit : RegDesc := ⟨0x2610008, 1, 0, 1, 0, 0, 1, true, .function, [⟨15, 0, .rw, 0x64⟩]⟩
def segFault : RegDesc := ⟨0x2620000, 4096, 16, 1, 0, 0, 1, false, .function, [⟨47, 0, .ro, 0⟩, ⟨51, 48, .ro, 0⟩, ⟨52, 52, .w1c, 0⟩, ⟨63, 53, .ro, 0⟩]⟩
def keySlot : RegDesc := ⟨0x2600000, 4096, 8, 1, 0, 0, 1, true, .function, [⟨11, 0, .rw, 0⟩, ⟨12, 12, .rw, 0⟩, ⟨23, 16, .rw, 0⟩, ⟨31, 24, .ro, 0⟩]⟩
def engStatus : RegDesc := ⟨0x3b00000, 48, 32, 1, 0, 0, 1, false, .function, [⟨5, 0, .ro, 0⟩, ⟨6, 6, .ro, 0⟩, ⟨7, 7, .ro, 0⟩, ⟨27, 16, .ro, 0⟩]⟩
def engBytes : RegDesc := ⟨0x3b00008, 48, 32, 1, 0, 0, 1, false, .function, [⟨63, 0, .rw, 0⟩]⟩
def updGate : RegDesc := ⟨0x3b00010, 40, 32, 1, 0, 32, 1, false, .function, [⟨31, 0, .rw, 0⟩, ⟨63, 32, .rw, 0⟩]⟩
def engDrops : RegDesc := ⟨0x3b00018, 48, 32, 1, 0, 40, 1, false, .function, [⟨63, 0, .rw, 0⟩]⟩
def tideCount : RegDesc := ⟨0x400000, 1, 0, 1, 0, 0, 1, false, .cold, [⟨63, 0, .ro, 0⟩]⟩
def tideLock : RegDesc := ⟨0x400008, 1, 0, 1, 0, 0, 1, false, .cold, [⟨2, 0, .ro, 0⟩, ⟨3, 3, .ro, 0⟩, ⟨4, 4, .ro, 0⟩, ⟨5, 5, .ro, 0⟩, ⟨6, 6, .ro, 0⟩, ⟨7, 7, .w1c, 0⟩, ⟨8, 8, .w1c, 0⟩, ⟨31, 16, .ro, 0⟩, ⟨47, 32, .ro, 0⟩]⟩
def tideCtrl : RegDesc := ⟨0x400010, 1, 0, 1, 0, 0, 1, true, .warm, [⟨0, 0, .rw, 0⟩, ⟨1, 1, .rw, 1⟩, ⟨2, 2, .rw, 0⟩, ⟨31, 16, .rw, 0⟩]⟩
def tidePaths : RegDesc := ⟨0x400018, 1, 0, 1, 0, 0, 1, false, .cold, [⟨3, 0, .ro, 0⟩, ⟨7, 4, .ro, 0⟩, ⟨31, 16, .ro, 0⟩]⟩
def ferryCtrl : RegDesc := ⟨0x800000, 32, 4096, 1, 0, 0, 1, false, .function, [⟨11, 0, .rw, 0⟩, ⟨12, 12, .rw, 0⟩, ⟨13, 13, .rw, 0⟩, ⟨14, 14, .rw, 0⟩, ⟨31, 16, .rw, 0x3e8⟩, ⟨63, 32, .rw, 0⟩]⟩
def ferryEpoch : RegDesc := ⟨0x800008, 32, 4096, 1, 0, 0, 1, false, .function, [⟨63, 0, .rw, 0⟩]⟩
def ferryPeriod : RegDesc := ⟨0x800010, 32, 4096, 1, 0, 0, 1, false, .function, [⟨31, 0, .rw, 0⟩]⟩
def ferryStatus : RegDesc := ⟨0x800018, 32, 4096, 1, 0, 0, 1, false, .function, [⟨11, 0, .ro, 0⟩, ⟨14, 12, .ro, 0⟩, ⟨18, 16, .ro, 0⟩, ⟨31, 24, .ro, 0⟩, ⟨63, 32, .ro, 0⟩]⟩
def ferryCount : RegDesc := ⟨0x800020, 32, 4096, 1, 0, 0, 1, false, .function, [⟨31, 0, .rw, 0⟩, ⟨47, 32, .rw, 0⟩, ⟨63, 48, .rw, 0⟩]⟩
def ferryExc : RegDesc := ⟨0x800028, 32, 4096, 1, 0, 0, 1, false, .function, [⟨15, 0, .rw, 0⟩, ⟨31, 16, .rw, 0⟩, ⟨47, 32, .rw, 0⟩]⟩
def ferryAbort : RegDesc := ⟨0x800030, 32, 4096, 1, 0, 0, 1, false, .function, [⟨11, 0, .rw, 0⟩, ⟨12, 12, .rw, 0⟩, ⟨31, 16, .rw, 0⟩, ⟨39, 32, .rw, 0⟩, ⟨47, 40, .ro, 0⟩, ⟨50, 48, .ro, 0⟩]⟩
def ferryGates : RegDesc := ⟨0x800038, 32, 4096, 1, 0, 0, 1, false, .function, (List.range 16).map (fun g => ⟨4 * g + 3, 4 * g, .ro, 0⟩)⟩
def ferryRoute : RegDesc := ⟨0x800100, 32, 4096, 64, 16, 0, 2, false, .function, [⟨47, 0, .rw, 0⟩, ⟨63, 48, .rw, 0⟩, ⟨95, 64, .rw, 0⟩, ⟨111, 96, .rw, 0⟩, ⟨125, 112, .rw, 0⟩, ⟨126, 126, .rw, 0⟩, ⟨127, 127, .rw, 0⟩]⟩
def ferryCond : RegDesc := ⟨0x800500, 32, 4096, 63, 16, 0, 2, false, .function, [⟨63, 0, .rw, 0⟩, ⟨77, 64, .rw, 0⟩, ⟨78, 78, .rw, 0⟩, ⟨111, 80, .rw, 0⟩]⟩
def tt : RegDesc := ⟨0xa00000, 32, 65536, 4096, 16, 0, 2, false, .function, [⟨31, 0, .rw, 0⟩, ⟨37, 32, .rw, 0⟩, ⟨43, 38, .rw, 0⟩, ⟨47, 44, .rw, 0⟩, ⟨48, 48, .rw, 0⟩, ⟨49, 49, .rw, 0⟩, ⟨50, 50, .rw, 0⟩, ⟨51, 51, .rw, 0⟩, ⟨52, 52, .rw, 0⟩, ⟨71, 64, .rw, 0⟩, ⟨83, 72, .rw, 0⟩, ⟨95, 84, .rw, 0⟩, ⟨127, 96, .rw, 0⟩]⟩
def berth : RegDesc := ⟨0x900000, 4096, 32, 1, 0, 0, 4, false, .function, [⟨47, 0, .rw, 0⟩, ⟨75, 64, .rw, 0⟩, ⟨76, 76, .rw, 0⟩, ⟨77, 77, .rw, 0⟩, ⟨82, 78, .rw, 0⟩, ⟨111, 96, .rw, 0⟩, ⟨141, 128, .rw, 0⟩, ⟨157, 144, .rw, 0⟩, ⟨158, 158, .rw, 0⟩, ⟨191, 160, .rw, 0⟩, ⟨223, 192, .rw, 0⟩]⟩
def berthStatus : RegDesc := ⟨0x980000, 4096, 8, 1, 0, 0, 1, false, .function, [⟨31, 0, .ro, 0⟩, ⟨34, 32, .ro, 0⟩, ⟨47, 40, .ro, 0⟩, ⟨63, 48, .ro, 0⟩]⟩
def fabRegion : RegDesc := ⟨0xc80000, 1024, 32, 1, 0, 0, 4, false, .function, [⟨47, 0, .rw, 0⟩, ⟨111, 64, .rw, 0⟩, ⟨175, 128, .rw, 0⟩, ⟨191, 176, .rw, 0⟩, ⟨192, 192, .rw, 0⟩, ⟨193, 193, .rw, 0⟩, ⟨195, 194, .rw, 0⟩, ⟨196, 196, .rw, 0⟩, ⟨219, 208, .rw, 0⟩, ⟨235, 224, .rw, 0⟩]⟩
def fabNode : RegDesc := ⟨0xc00000, 1, 0, 1, 0, 0, 1, false, .cold, [⟨15, 0, .ro, 0⟩, ⟨16, 16, .ro, 0⟩, ⟨36, 32, .ro, 0⟩]⟩
def fabTimeout : RegDesc := ⟨0xc00008, 1, 0, 1, 0, 0, 1, true, .function, [⟨15, 0, .rw, 0x3e8⟩, ⟨31, 16, .rw, 0x7d0⟩]⟩
def fabPortStatus : RegDesc := ⟨0xc01000, 16, 64, 1, 0, 0, 1, false, .warm, [⟨2, 0, .ro, 0⟩, ⟨3, 3, .ro, 0⟩, ⟨11, 4, .ro, 0⟩, ⟨15, 12, .ro, 0⟩, ⟨31, 16, .ro, 0⟩, ⟨47, 32, .ro, 0⟩, ⟨63, 48, .rw, 0⟩]⟩
def fabPortCtrl : RegDesc := ⟨0xc01008, 16, 64, 1, 0, 0, 1, true, .warm, [⟨0, 0, .rw, 0⟩, ⟨1, 1, .rw, 0⟩, ⟨11, 4, .rw, 0xff⟩]⟩
def fabLaneMap : RegDesc := ⟨0xc01010, 16, 64, 1, 0, 0, 1, false, .cold, [⟨3, 0, .ro, 0⟩, ⟨7, 4, .ro, 0⟩, ⟨11, 8, .ro, 0⟩, ⟨15, 12, .ro, 0⟩, ⟨19, 16, .ro, 0⟩, ⟨23, 20, .ro, 0⟩, ⟨27, 24, .ro, 0⟩, ⟨31, 28, .ro, 0⟩, ⟨41, 32, .ro, 0⟩]⟩
def fabPortErr : RegDesc := ⟨0xc01018, 16, 64, 1, 0, 0, 1, false, .warm, [⟨31, 0, .rw, 0⟩, ⟨47, 32, .rw, 0⟩, ⟨63, 48, .rw, 0⟩]⟩
def optEmitter : RegDesc := ⟨0xc10000, 160, 16, 1, 0, 0, 1, false, .cold, [⟨2, 0, .ro, 0⟩, ⟨6, 3, .ro, 0⟩, ⟨15, 8, .ro, 0⟩, ⟨63, 32, .rb, 0⟩]⟩
def cap : RegDesc := ⟨0x2000, 64, 8, 1, 0, 0, 1, false, .cold, [⟨15, 0, .ro, 0⟩, ⟨23, 16, .ro, 1⟩, ⟨63, 32, .ro, 0⟩]⟩
def hostCmd : RegDesc := ⟨0x2b80000, 1, 0, 1, 0, 0, 1, false, .function, [⟨7, 0, .rw, 0⟩, ⟨27, 8, .rw, 0⟩, ⟨39, 32, .rw, 0⟩]⟩
def hostCmdArg : RegDesc := ⟨0x2b80008, 4, 8, 1, 0, 0, 1, false, .function, [⟨63, 0, .rw, 0⟩]⟩
def hostCmdStatus : RegDesc := ⟨0x2b80028, 1, 0, 1, 0, 0, 1, false, .function, [⟨7, 0, .ro, 0⟩, ⟨11, 8, .ro, 0⟩, ⟨12, 12, .w1c, 0⟩]⟩
def hostMoTable : RegDesc := ⟨0x2b80038, 1, 0, 1, 0, 0, 1, false, .function, [⟨0, 0, .rw, 0⟩, ⟨47, 12, .rw, 0⟩]⟩
def coreAdapterHolds : RegDesc := ⟨0x3a90000, 65536, 4, 1, 0, 0, 1, true, .function, [⟨15, 0, .ro, 0⟩]⟩
def ctxState : RegDesc := ⟨0x2b00000, 4096, 16, 1, 0, 0, 1, false, .function, [⟨2, 0, .ro, 0⟩, ⟨3, 3, .ro, 0⟩, ⟨4, 4, .ro, 0⟩, ⟨30, 16, .ro, 0⟩]⟩
def ctxSeed : RegDesc := ⟨0x2b00008, 4096, 16, 1, 0, 0, 1, false, .function, [⟨63, 0, .ro, 0⟩]⟩
def qStatus : RegDesc := ⟨0x2800000, 16384, 32, 1, 0, 0, 1, false, .function, [⟨15, 0, .ro, 0⟩, ⟨31, 16, .ro, 0⟩, ⟨33, 32, .ro, 0⟩, ⟨34, 34, .ro, 0⟩, ⟨47, 36, .ro, 0⟩, ⟨52, 48, .ro, 0⟩, ⟨57, 53, .ro, 0⟩, ⟨61, 58, .ro, 0⟩]⟩
def qCqHead : RegDesc := ⟨0x2800008, 16384, 32, 1, 0, 0, 1, true, .function, [⟨15, 0, .rw, 0⟩]⟩
def qDoorbell : RegDesc := ⟨0x2900000, 16384, 8, 1, 0, 0, 1, true, .function, [⟨15, 0, .rw, 0⟩]⟩
def evt : RegDesc := ⟨0x2a00000, 65536, 8, 1, 0, 0, 1, false, .function, [⟨10, 0, .rw, 0⟩, ⟨11, 11, .rw, 0⟩, ⟨12, 12, .w1c, 0⟩, ⟨47, 32, .rw, 0⟩]⟩
def sumpRing : RegDesc := ⟨0x3c00000, 1, 0, 1, 0, 0, 1, false, .function, [⟨0, 0, .rw, 0⟩, ⟨4, 1, .rw, 0⟩, ⟨63, 12, .rw, 0⟩]⟩
def sumpTail : RegDesc := ⟨0x3c00008, 1, 0, 1, 0, 0, 1, false, .function, [⟨31, 0, .ro, 0⟩]⟩
def sumpHead : RegDesc := ⟨0x3c00010, 1, 0, 1, 0, 0, 1, false, .function, [⟨31, 0, .rw, 0⟩]⟩
def sumpCtrl : RegDesc := ⟨0x3c00018, 1, 0, 1, 0, 0, 1, false, .function, [⟨0, 0, .rw, 0⟩, ⟨1, 1, .rw, 0⟩, ⟨63, 3, .rw, 0⟩]⟩
def sumpHold : RegDesc := ⟨0x3c00020, 1, 0, 1, 0, 0, 1, false, .warm, [⟨10, 0, .ro, 0⟩, ⟨11, 11, .w1c, 0⟩, ⟨31, 16, .rw, 0⟩, ⟨47, 32, .rw, 0⟩]⟩
def hostStatus : RegDesc := ⟨0x2b80030, 1, 0, 1, 0, 0, 1, false, .warm, [⟨0, 0, .ro, 0⟩, ⟨1, 1, .ro, 0⟩, ⟨2, 2, .ro, 0⟩, ⟨31, 16, .rw, 0⟩]⟩
def lkBootStatus : RegDesc := ⟨0x100000, 1, 0, 1, 0, 0, 1, false, .cold, [⟨2, 0, .ro, 0⟩, ⟨15, 8, .ro, 0⟩, ⟨16, 16, .ro, 0⟩, ⟨17, 17, .ro, 0⟩, ⟨18, 18, .ro, 0⟩, ⟨63, 32, .ro, 0⟩]⟩
def lkSoftstart : RegDesc := ⟨0x100008, 1, 0, 1, 0, 0, 1, false, .cold, [⟨39, 0, .ro, 0⟩, ⟨47, 40, .ro, 0⟩]⟩
def lkImageInfo : RegDesc := ⟨0x100010, 1, 0, 1, 0, 0, 1, false, .cold, [⟨31, 0, .ro, 0⟩, ⟨47, 32, .ro, 0⟩, ⟨63, 48, .ro, 0⟩]⟩
def rbStatus : RegDesc := ⟨0x3e00000, 1, 0, 1, 0, 0, 1, false, .cold, [⟨1, 0, .rb, 0⟩, ⟨2, 2, .rb, 0⟩, ⟨31, 16, .rb, 0⟩, ⟨63, 32, .rb, 0⟩]⟩
def rbBoot : RegDesc := ⟨0x3e00008, 1, 0, 1, 0, 0, 1, false, .cold, [⟨31, 0, .rb, 0⟩, ⟨32, 32, .rb, 0⟩, ⟨33, 33, .rb, 0⟩, ⟨34, 34, .rb, 0⟩, ⟨36, 35, .rb, 0⟩, ⟨38, 37, .rb, 0⟩]⟩
def rbSoftstartSticky : RegDesc := ⟨0x3e00010, 1, 0, 1, 0, 0, 1, false, .cold, [⟨39, 0, .rb, 0⟩]⟩
def rbFaultHist : RegDesc := ⟨0x3e01000, 256, 32, 1, 0, 0, 4, false, .cold, [⟨255, 0, .rb, 0⟩]⟩
def pwrDomCtrl : RegDesc := ⟨0x200000, 40, 32, 1, 0, 0, 1, false, .warm, [⟨1, 0, .rw, 0⟩, ⟨2, 2, .rw, 0⟩, ⟨3, 3, .rw, 0⟩, ⟨31, 16, .rw, 0⟩, ⟨39, 32, .rw, 0⟩]⟩
def pwrDomAt : RegDesc := ⟨0x200008, 40, 32, 1, 0, 0, 1, false, .warm, [⟨63, 0, .rw, 0⟩]⟩
def pwrDomStatus : RegDesc := ⟨0x200010, 40, 32, 1, 0, 0, 1, false, .warm, [⟨1, 0, .ro, 3⟩, ⟨2, 2, .ro, 0⟩, ⟨3, 3, .ro, 0⟩, ⟨4, 4, .ro, 0⟩, ⟨5, 5, .ro, 0⟩, ⟨6, 6, .ro, 0⟩, ⟨7, 7, .w1c, 0⟩, ⟨15, 8, .ro, 0⟩, ⟨19, 16, .ro, 0⟩, ⟨20, 20, .ro, 0⟩, ⟨63, 32, .rw, 0⟩]⟩
def pwrPstate : RegDesc := ⟨0x201000, 1, 0, 1, 0, 0, 1, false, .warm, [⟨1, 0, .rw, 0⟩, ⟨2, 2, .rw, 0⟩, ⟨3, 3, .rw, 0⟩, ⟨31, 16, .rw, 0⟩, ⟨39, 32, .rw, 0⟩, ⟨47, 40, .ro, 0⟩, ⟨49, 48, .ro, 0⟩, ⟨50, 50, .ro, 0⟩, ⟨51, 51, .ro, 0⟩, ⟨52, 52, .w1c, 0⟩, ⟨53, 53, .ro, 0⟩]⟩
def pwrPstateAt : RegDesc := ⟨0x201008, 1, 0, 1, 0, 0, 1, false, .warm, [⟨63, 0, .rw, 0⟩]⟩
def pwrCap : RegDesc := ⟨0x202000, 1, 0, 1, 0, 0, 1, false, .warm, [⟨11, 0, .rw, 0x960⟩, ⟨14, 12, .ro, 0⟩, ⟨63, 32, .ro, 0⟩]⟩
def pwrInput : RegDesc := ⟨0x202008, 1, 0, 1, 0, 0, 1, false, .warm, [⟨15, 0, .ro, 0⟩, ⟨31, 16, .ro, 0⟩, ⟨39, 32, .ro, 0⟩, ⟨47, 40, .ro, 0⟩, ⟨55, 48, .ro, 0⟩]⟩
def pwrTherm : RegDesc := ⟨0x202200, 4, 8, 1, 0, 0, 1, true, .warm, [⟨7, 0, .ro, 0⟩, ⟨15, 8, .ro, 0⟩, ⟨23, 16, .ro, 0⟩]⟩
def pwrThrottle : RegDesc := ⟨0x202010, 1, 0, 1, 0, 0, 1, true, .warm, [⟨0, 0, .w1c, 0⟩, ⟨1, 1, .w1c, 0⟩, ⟨2, 2, .w1c, 0⟩, ⟨3, 3, .w1c, 0⟩, ⟨4, 4, .w1c, 0⟩, ⟨8, 5, .w1c, 0⟩, ⟨24, 16, .ro, 0⟩]⟩
def pwrThrottleUs : RegDesc := ⟨0x202100, 9, 8, 1, 0, 0, 1, false, .warm, [⟨63, 0, .rw, 0⟩]⟩
def ctxEnergy : RegDesc := ⟨0x210000, 4096, 8, 1, 0, 0, 1, false, .function, [⟨63, 0, .rw, 0⟩]⟩
def pwrEnergyUnattr : RegDesc := ⟨0x202300, 1, 0, 1, 0, 0, 1, false, .warm, [⟨63, 0, .rw, 0⟩]⟩
def faultStatus : RegDesc := ⟨0x3c10000, 1, 0, 1, 0, 0, 1, false, .cold, [⟨0, 0, .w1c, 0⟩, ⟨1, 1, .w1c, 0⟩, ⟨2, 2, .w1c, 0⟩, ⟨3, 3, .ro, 0⟩, ⟨4, 4, .w1c, 0⟩, ⟨5, 5, .w1c, 0⟩, ⟨31, 16, .ro, 0⟩]⟩
def faultCount : RegDesc := ⟨0x3c10008, 4, 8, 1, 0, 0, 1, false, .cold, [⟨63, 0, .rw, 0⟩]⟩
def faultCtrl : RegDesc := ⟨0x3c10040, 1, 0, 1, 0, 0, 1, true, .warm, [⟨0, 0, .rw, 1⟩, ⟨1, 1, .rw, 0⟩, ⟨2, 2, .rw, 0⟩, ⟨3, 3, .rw, 0⟩, ⟨31, 16, .rw, 0⟩]⟩
def ftSpares : RegDesc := ⟨0x3c20020, 1, 0, 1, 0, 0, 1, false, .warm, [⟨15, 0, .ro, 0⟩, ⟨27, 16, .ro, 0⟩, ⟨63, 32, .ro, 0⟩]⟩
def ftCmd : RegDesc := ⟨0x3c20000, 1, 0, 1, 0, 0, 1, false, .function, [⟨15, 0, .rw, 0⟩, ⟨18, 16, .rw, 0⟩, ⟨19, 19, .rw, 0⟩, ⟨31, 24, .rw, 0⟩, ⟨39, 32, .ro, 0⟩, ⟨43, 40, .ro, 0⟩, ⟨47, 44, .ro, 0⟩, ⟨63, 48, .ro, 0⟩]⟩
def wearCore : RegDesc := ⟨0x3e04000, 256, 8, 1, 0, 0, 1, false, .cold, [⟨19, 0, .rb, 0⟩, ⟨27, 20, .rb, 0⟩, ⟨35, 28, .rb, 0⟩, ⟨43, 36, .rb, 0⟩]⟩
def wearSlice : RegDesc := ⟨0x3e05000, 272, 8, 1, 0, 0, 1, false, .cold, [⟨19, 0, .rb, 0⟩, ⟨39, 20, .rb, 0⟩, ⟨47, 40, .rb, 0⟩, ⟨55, 48, .rb, 0⟩, ⟨63, 56, .rb, 0⟩]⟩
end D

/-- The description of each register. -/
def RegId.desc : RegId → RegDesc
  | .idDevice => D.idDevice
  | .idCoreMap => D.idCoreMap
  | .idSliceMap => D.idSliceMap
  | .coreCensus => D.coreCensus
  | .coreArrayDpuMap => D.coreArrayDpuMap
  | .coreArraySteps => D.coreArraySteps
  | .coreArrayFeedBubbles => D.coreArrayFeedBubbles
  | .coreArrayRampCycles => D.coreArrayRampCycles
  | .coreArrayPadCycles => D.coreArrayPadCycles
  | .coreAdapterTable => D.coreAdapterTable
  | .hmCtxGrant => D.hmCtxGrant
  | .hmBindQuantum => D.hmBindQuantum
  | .coreBinding => D.coreBinding
  | .corePipeIssued => D.corePipeIssued
  | .corePipeDual => D.corePipeDual
  | .corePipePacked => D.corePipePacked
  | .corePipeSplits => D.corePipeSplits
  | .corePipeParks => D.corePipeParks
  | .corePipeLreqStalls => D.corePipeLreqStalls
  | .coreTokenWatchdog => D.coreTokenWatchdog
  | .ctxIfetchBytes => D.ctxIfetchBytes
  | .ctxIfetchStalls => D.ctxIfetchStalls
  | .coreHaltA => D.coreHaltA
  | .coreHaltB => D.coreHaltB
  | .coreHaltC => D.coreHaltC
  | .coreHaltD => D.coreHaltD
  | .bolValue => D.bolValue
  | .bolCtrl => D.bolCtrl
  | .bolNotify => D.bolNotify
  | .ctxGrottoMask => D.ctxGrottoMask
  | .coreGrottoStatus => D.coreGrottoStatus
  | .coreGrottoHits => D.coreGrottoHits
  | .coreGrottoMisses => D.coreGrottoMisses
  | .coreGrottoWb => D.coreGrottoWb
  | .cavWayLock => D.cavWayLock
  | .cavClassMask => D.cavClassMask
  | .cavClassHits => D.cavClassHits
  | .cavClassMisses => D.cavClassMisses
  | .cavClassNofill => D.cavClassNofill
  | .cavCtrl => D.cavCtrl
  | .cavHashKey => D.cavHashKey
  | .cavHotspot => D.cavHotspot
  | .cavSliceStatus => D.cavSliceStatus
  | .dramSpace => D.dramSpace
  | .dramChanStatus => D.dramChanStatus
  | .dramChanCtrl => D.dramChanCtrl
  | .dram1500Ctrl => D.dram1500Ctrl
  | .dram1500Data => D.dram1500Data
  | .dramRegCfg => D.dramRegCfg
  | .dramRegBytes => D.dramRegBytes
  | .dramRegThrottled => D.dramRegThrottled
  | .segVbase => D.segVbase
  | .segPbase => D.segPbase
  | .segLen => D.segLen
  | .segAttr => D.segAttr
  | .segApplyStatus => D.segApplyStatus
  | .segFaultLimit => D.segFaultLimit
  | .segFault => D.segFault
  | .keySlot => D.keySlot
  | .engStatus => D.engStatus
  | .engBytes => D.engBytes
  | .updGate => D.updGate
  | .engDrops => D.engDrops
  | .tideCount => D.tideCount
  | .tideLock => D.tideLock
  | .tideCtrl => D.tideCtrl
  | .tidePaths => D.tidePaths
  | .ferryCtrl => D.ferryCtrl
  | .ferryEpoch => D.ferryEpoch
  | .ferryPeriod => D.ferryPeriod
  | .ferryStatus => D.ferryStatus
  | .ferryCount => D.ferryCount
  | .ferryExc => D.ferryExc
  | .ferryAbort => D.ferryAbort
  | .ferryGates => D.ferryGates
  | .ferryRoute => D.ferryRoute
  | .ferryCond => D.ferryCond
  | .tt => D.tt
  | .berth => D.berth
  | .berthStatus => D.berthStatus
  | .fabRegion => D.fabRegion
  | .fabNode => D.fabNode
  | .fabTimeout => D.fabTimeout
  | .fabPortStatus => D.fabPortStatus
  | .fabPortCtrl => D.fabPortCtrl
  | .fabLaneMap => D.fabLaneMap
  | .fabPortErr => D.fabPortErr
  | .optEmitter => D.optEmitter
  | .cap => D.cap
  | .hostCmd => D.hostCmd
  | .hostCmdArg => D.hostCmdArg
  | .hostCmdStatus => D.hostCmdStatus
  | .hostMoTable => D.hostMoTable
  | .coreAdapterHolds => D.coreAdapterHolds
  | .ctxState => D.ctxState
  | .ctxSeed => D.ctxSeed
  | .qStatus => D.qStatus
  | .qCqHead => D.qCqHead
  | .qDoorbell => D.qDoorbell
  | .evt => D.evt
  | .sumpRing => D.sumpRing
  | .sumpTail => D.sumpTail
  | .sumpHead => D.sumpHead
  | .sumpCtrl => D.sumpCtrl
  | .sumpHold => D.sumpHold
  | .hostStatus => D.hostStatus
  | .lkBootStatus => D.lkBootStatus
  | .lkSoftstart => D.lkSoftstart
  | .lkImageInfo => D.lkImageInfo
  | .rbStatus => D.rbStatus
  | .rbBoot => D.rbBoot
  | .rbSoftstartSticky => D.rbSoftstartSticky
  | .rbFaultHist => D.rbFaultHist
  | .pwrDomCtrl => D.pwrDomCtrl
  | .pwrDomAt => D.pwrDomAt
  | .pwrDomStatus => D.pwrDomStatus
  | .pwrPstate => D.pwrPstate
  | .pwrPstateAt => D.pwrPstateAt
  | .pwrCap => D.pwrCap
  | .pwrInput => D.pwrInput
  | .pwrTherm => D.pwrTherm
  | .pwrThrottle => D.pwrThrottle
  | .pwrThrottleUs => D.pwrThrottleUs
  | .ctxEnergy => D.ctxEnergy
  | .pwrEnergyUnattr => D.pwrEnergyUnattr
  | .faultStatus => D.faultStatus
  | .faultCount => D.faultCount
  | .faultCtrl => D.faultCtrl
  | .ftSpares => D.ftSpares
  | .ftCmd => D.ftCmd
  | .wearCore => D.wearCore
  | .wearSlice => D.wearSlice

def regs0 : List RegId := [RegId.idDevice, RegId.idCoreMap, RegId.idSliceMap, RegId.coreCensus, RegId.coreArrayDpuMap, RegId.coreArraySteps, RegId.coreArrayFeedBubbles, RegId.coreArrayRampCycles, RegId.coreArrayPadCycles, RegId.coreAdapterTable, RegId.hmCtxGrant, RegId.hmBindQuantum]
def regs1 : List RegId := [RegId.coreBinding, RegId.corePipeIssued, RegId.corePipeDual, RegId.corePipePacked, RegId.corePipeSplits, RegId.corePipeParks, RegId.corePipeLreqStalls, RegId.coreTokenWatchdog, RegId.ctxIfetchBytes, RegId.ctxIfetchStalls, RegId.coreHaltA, RegId.coreHaltB]
def regs2 : List RegId := [RegId.coreHaltC, RegId.coreHaltD, RegId.bolValue, RegId.bolCtrl, RegId.bolNotify, RegId.ctxGrottoMask, RegId.coreGrottoStatus, RegId.coreGrottoHits, RegId.coreGrottoMisses, RegId.coreGrottoWb, RegId.cavWayLock, RegId.cavClassMask]
def regs3 : List RegId := [RegId.cavClassHits, RegId.cavClassMisses, RegId.cavClassNofill, RegId.cavCtrl, RegId.cavHashKey, RegId.cavHotspot, RegId.cavSliceStatus, RegId.dramSpace, RegId.dramChanStatus, RegId.dramChanCtrl, RegId.dram1500Ctrl, RegId.dram1500Data]
def regs4 : List RegId := [RegId.dramRegCfg, RegId.dramRegBytes, RegId.dramRegThrottled, RegId.segVbase, RegId.segPbase, RegId.segLen, RegId.segAttr, RegId.segApplyStatus, RegId.segFaultLimit, RegId.segFault, RegId.keySlot, RegId.engStatus]
def regs5 : List RegId := [RegId.engBytes, RegId.updGate, RegId.engDrops, RegId.tideCount, RegId.tideLock, RegId.tideCtrl, RegId.tidePaths, RegId.ferryCtrl, RegId.ferryEpoch, RegId.ferryPeriod, RegId.ferryStatus, RegId.ferryCount]
def regs6 : List RegId := [RegId.ferryExc, RegId.ferryAbort, RegId.ferryGates, RegId.ferryRoute, RegId.ferryCond, RegId.tt, RegId.berth, RegId.berthStatus, RegId.fabRegion, RegId.fabNode, RegId.fabTimeout, RegId.fabPortStatus]
def regs7 : List RegId := [RegId.fabPortCtrl, RegId.fabLaneMap, RegId.fabPortErr, RegId.optEmitter, RegId.cap, RegId.hostCmd, RegId.hostCmdArg, RegId.hostCmdStatus, RegId.hostMoTable, RegId.coreAdapterHolds, RegId.ctxState, RegId.ctxSeed]
def regs8 : List RegId := [RegId.qStatus, RegId.qCqHead, RegId.qDoorbell, RegId.evt, RegId.sumpRing, RegId.sumpTail, RegId.sumpHead, RegId.sumpCtrl, RegId.sumpHold, RegId.hostStatus, RegId.lkBootStatus, RegId.lkSoftstart]
def regs9 : List RegId := [RegId.lkImageInfo, RegId.rbStatus, RegId.rbBoot, RegId.rbSoftstartSticky, RegId.rbFaultHist, RegId.pwrDomCtrl, RegId.pwrDomAt, RegId.pwrDomStatus, RegId.pwrPstate, RegId.pwrPstateAt, RegId.pwrCap, RegId.pwrInput]
def regs10 : List RegId := [RegId.pwrTherm, RegId.pwrThrottle, RegId.pwrThrottleUs, RegId.ctxEnergy, RegId.pwrEnergyUnattr, RegId.faultStatus, RegId.faultCount, RegId.faultCtrl, RegId.ftSpares, RegId.ftCmd, RegId.wearCore, RegId.wearSlice]
/-- Every register. -/
def RegId.all : List RegId :=
  List.flatten [regs0, regs1, regs2, regs3, regs4, regs5, regs6, regs7, regs8, regs9, regs10]

/-- The entries of Table 13.3, CAP_ID and VALUE, in order; what lies beyond ends the table (R415). -/
def capTable : List (Nat × Nat) :=
  [(0x1, 1), (0x10, 0x1000), (0x11, 0x4000), (0x12, 0x100000), (0x13, 0x10000), (0x14, 0x4000), (0x15, 16), (0x16, 0x1000), (0x17, 0x10000), (0x18, 0x800), (0x19, 32), (0x1a, 0x1000), (0x1b, 0x400), (0x20, 0x10000), (0x21, 8), (0x22, 64), (0x23, 0x400), (0x24, 0), (0x25, 0x300)]

/-- The reset word `w` of register instance `i`. -/
def RegId.resetWord (r : RegId) (i w : Nat) : Nat :=
  if r = .cap then (match capTable[i]? with | none => 0 | some (c, v) => c + 0x10000 + v * 2 ^ 32)
  else
    r.desc.fields.foldl (fun acc f => if 64 * w ≤ f.lo && decide (f.lo < 64 * (w + 1)) then acc + (f.reset <<< (f.lo - 64 * w)) else acc) 0

/-- The offset of word `w` of register instance (i, j). -/
def RegId.off (r : RegId) (i j w : Nat) : Nat := r.desc.base + r.desc.s1 * i + r.desc.s2 * j + 8 * w

/-- Whether the part has the instance. -/
def RegId.has (r : RegId) (i j : Nat) : Bool := decide (r.desc.first ≤ i) && decide (i < r.desc.n1) && decide (j < r.desc.n2)

/-- A word of a register instance. -/
structure RegKey where
  reg : RegId
  i : Nat
  j : Nat
  w : Nat
  deriving DecidableEq, Repr

def RegKey.off (k : RegKey) : Nat := k.reg.off k.i k.j k.w

/-- Words of registers, in the order of their offsets; a word at its reset value is not listed. -/
abbrev RegStore := List (RegKey × W64)

def regFind : RegStore → RegKey → Option W64
  | [], _ => none
  | (k, v) :: m, a => if a = k then some v else regFind m a

def regGet (m : RegStore) (d : W64) (a : RegKey) : W64 := (regFind m a).getD d

def regInsert : RegStore → RegKey → W64 → RegStore
  | [], a, v => [(a, v)]
  | (k, x) :: m, a, v =>
    if a = k then (a, v) :: m else if a.off < k.off then (a, v) :: (k, x) :: m else (k, x) :: regInsert m a v

def regSet (m : RegStore) (d : W64) (a : RegKey) (v : W64) : RegStore :=
  if v = d then m.filter (fun e => decide (e.1 ≠ a)) else regInsert m a v

/-- The word of a register that holds the aligned offset `o`, with `size` 4 for its upper or lower half of a 64-bit word. -/
structure RegAt where
  reg : RegId
  i : Nat
  j : Nat
  w : Nat
  upper : Bool
  deriving DecidableEq, Repr

/-- Whether a register covers the offset, and where. -/
def RegId.locate (r : RegId) (o : Nat) : Option RegAt :=
  let d := r.desc
  let rel := o - d.base
  let i := if d.s1 = 0 then 0 else min (rel / d.s1) (d.n1 - 1)
  let rel2 := rel - i * d.s1
  let j := if d.s2 = 0 then 0 else min (rel2 / d.s2) (d.n2 - 1)
  let rel3 := rel2 - j * d.s2
  let size := if d.is32 then 4 else 8 * d.words
  if decide (d.base ≤ o) && decide (rel3 < size) && decide (d.first ≤ i) then
    some ⟨r, i, j, rel3 / 8, rel3 % 8 = 4⟩
  else none

/-- The register at an offset that is a multiple of 4. -/
def regAt (o : Nat) : Option RegAt := RegId.all.findSome? (fun r => r.locate o)

/-- A named field of a register. -/
structure Fld where
  reg : RegId
  hi : Nat
  lo : Nat
  deriving DecidableEq, Repr

namespace F

def idDevice_PART : Fld := ⟨.idDevice, 15, 0⟩
def idDevice_STEPPING : Fld := ⟨.idDevice, 19, 16⟩
def idDevice_TILES : Fld := ⟨.idDevice, 23, 20⟩
def idDevice_GALLERIES : Fld := ⟨.idDevice, 31, 24⟩
def idDevice_CORES_ACTIVE : Fld := ⟨.idDevice, 40, 32⟩
def idDevice_SLICES_ACTIVE : Fld := ⟨.idDevice, 49, 41⟩
def idDevice_CHANNELS_ACTIVE : Fld := ⟨.idDevice, 58, 50⟩
def idDevice_DEGRADED : Fld := ⟨.idDevice, 63, 63⟩
def idCoreMap_PHYS_CORE : Fld := ⟨.idCoreMap, 7, 0⟩
def idCoreMap_VALID : Fld := ⟨.idCoreMap, 31, 31⟩
def idSliceMap_PHYS_SLICE : Fld := ⟨.idSliceMap, 8, 0⟩
def idSliceMap_VALID : Fld := ⟨.idSliceMap, 31, 31⟩
def coreCensus_COUNT : Fld := ⟨.coreCensus, 23, 0⟩
def coreCensus_NAN_SEEN : Fld := ⟨.coreCensus, 24, 24⟩
def coreCensus_POS_INF_SEEN : Fld := ⟨.coreCensus, 25, 25⟩
def coreCensus_NEG_INF_SEEN : Fld := ⟨.coreCensus, 26, 26⟩
def coreCensus_SATURATED : Fld := ⟨.coreCensus, 31, 31⟩
def coreArrayDpuMap_SPARE_FILLS : Fld := ⟨.coreArrayDpuMap, 5, 0⟩
def coreArrayDpuMap_FAILED_PHYS : Fld := ⟨.coreArrayDpuMap, 11, 6⟩
def coreArrayDpuMap_EXHAUSTED : Fld := ⟨.coreArrayDpuMap, 12, 12⟩
def coreArraySteps_STEPS : Fld := ⟨.coreArraySteps, 63, 0⟩
def coreArrayFeedBubbles_BUBBLES : Fld := ⟨.coreArrayFeedBubbles, 63, 0⟩
def coreArrayRampCycles_RAMP : Fld := ⟨.coreArrayRampCycles, 63, 0⟩
def coreArrayPadCycles_PAD : Fld := ⟨.coreArrayPadCycles, 63, 0⟩
def coreAdapterTable_ENABLE : Fld := ⟨.coreAdapterTable, 0, 0⟩
def coreAdapterTable_BASE : Fld := ⟨.coreAdapterTable, 47, 12⟩
def hmCtxGrant_FIRST_CORE : Fld := ⟨.hmCtxGrant, 7, 0⟩
def hmCtxGrant_CORE_COUNT : Fld := ⟨.hmCtxGrant, 15, 8⟩
def hmCtxGrant_PRIORITY : Fld := ⟨.hmCtxGrant, 17, 16⟩
def hmBindQuantum_QUANTUM_US : Fld := ⟨.hmBindQuantum, 15, 0⟩
def coreBinding_CONTEXT : Fld := ⟨.coreBinding, 11, 0⟩
def coreBinding_BOUND : Fld := ⟨.coreBinding, 12, 12⟩
def coreBinding_RESIDENT_BLOCKS : Fld := ⟨.coreBinding, 19, 13⟩
def coreBinding_SLOTS_USED : Fld := ⟨.coreBinding, 27, 20⟩
def corePipeIssued_ISSUED : Fld := ⟨.corePipeIssued, 63, 0⟩
def corePipeDual_DUAL : Fld := ⟨.corePipeDual, 63, 0⟩
def corePipePacked_PACKED : Fld := ⟨.corePipePacked, 63, 0⟩
def corePipeSplits_SPLITS : Fld := ⟨.corePipeSplits, 63, 0⟩
def corePipeParks_PARKS : Fld := ⟨.corePipeParks, 63, 0⟩
def corePipeLreqStalls_LREQ_STALLS : Fld := ⟨.corePipeLreqStalls, 63, 0⟩
def coreTokenWatchdog_LIMIT_MS : Fld := ⟨.coreTokenWatchdog, 15, 0⟩
def ctxIfetchBytes_BYTES : Fld := ⟨.ctxIfetchBytes, 63, 0⟩
def ctxIfetchStalls_STALLS : Fld := ⟨.ctxIfetchStalls, 63, 0⟩
def coreHaltA_REASON : Fld := ⟨.coreHaltA, 7, 0⟩
def coreHaltA_LOGICAL_CORE : Fld := ⟨.coreHaltA, 15, 8⟩
def coreHaltA_PHYS_CORE : Fld := ⟨.coreHaltA, 23, 16⟩
def coreHaltA_ENTRY : Fld := ⟨.coreHaltA, 31, 24⟩
def coreHaltA_SLOT : Fld := ⟨.coreHaltA, 38, 32⟩
def coreHaltA_MULTIPLE : Fld := ⟨.coreHaltA, 39, 39⟩
def coreHaltB_BLOCK : Fld := ⟨.coreHaltB, 39, 0⟩
def coreHaltB_NO_BLOCK : Fld := ⟨.coreHaltB, 40, 40⟩
def coreHaltC_PC_OFFSET : Fld := ⟨.coreHaltC, 27, 0⟩
def coreHaltC_ACTIVE_MASK : Fld := ⟨.coreHaltC, 63, 32⟩
def coreHaltD_INFO : Fld := ⟨.coreHaltD, 63, 0⟩
def bolValue_VALUE : Fld := ⟨.bolValue, 63, 0⟩
def bolCtrl_OWNER : Fld := ⟨.bolCtrl, 11, 0⟩
def bolCtrl_VALID : Fld := ⟨.bolCtrl, 12, 12⟩
def bolCtrl_NOTIFY_EN : Fld := ⟨.bolCtrl, 13, 13⟩
def bolCtrl_NOTIFIED : Fld := ⟨.bolCtrl, 14, 14⟩
def bolCtrl_EVENT : Fld := ⟨.bolCtrl, 31, 16⟩
def bolNotify_THRESHOLD : Fld := ⟨.bolNotify, 63, 0⟩
def ctxGrottoMask_DEVICE_LOAD : Fld := ⟨.ctxGrottoMask, 15, 0⟩
def ctxGrottoMask_HOST_LOAD : Fld := ⟨.ctxGrottoMask, 31, 16⟩
def ctxGrottoMask_STORE : Fld := ⟨.ctxGrottoMask, 47, 32⟩
def ctxGrottoMask_STREAM : Fld := ⟨.ctxGrottoMask, 63, 48⟩
def coreGrottoStatus_CACHE_WAYS : Fld := ⟨.coreGrottoStatus, 4, 0⟩
def coreGrottoStatus_DIRTY_LINES : Fld := ⟨.coreGrottoStatus, 19, 5⟩
def coreGrottoHits_HITS : Fld := ⟨.coreGrottoHits, 63, 0⟩
def coreGrottoMisses_MISSES : Fld := ⟨.coreGrottoMisses, 63, 0⟩
def coreGrottoWb_WB_LINES : Fld := ⟨.coreGrottoWb, 63, 0⟩
def cavWayLock_LOCK : Fld := ⟨.cavWayLock, 15, 0⟩
def cavClassMask_FILL_MASK : Fld := ⟨.cavClassMask, 15, 0⟩
def cavClassMask_NO_ALLOC : Fld := ⟨.cavClassMask, 16, 16⟩
def cavClassHits_HITS : Fld := ⟨.cavClassHits, 63, 0⟩
def cavClassMisses_MISSES : Fld := ⟨.cavClassMisses, 63, 0⟩
def cavClassNofill_NOFILL : Fld := ⟨.cavClassNofill, 63, 0⟩
def cavCtrl_COMPRESS_EN : Fld := ⟨.cavCtrl, 0, 0⟩
def cavCtrl_HOSTLINE_EN : Fld := ⟨.cavCtrl, 1, 1⟩
def cavHashKey_KEY : Fld := ⟨.cavHashKey, 63, 0⟩
def cavHotspot_SLICE : Fld := ⟨.cavHotspot, 7, 0⟩
def cavHotspot_NOTICE : Fld := ⟨.cavHotspot, 8, 8⟩
def cavHotspot_EVENT_EN : Fld := ⟨.cavHotspot, 9, 9⟩
def cavHotspot_EVENT : Fld := ⟨.cavHotspot, 31, 16⟩
def cavHotspot_WINDOWS : Fld := ⟨.cavHotspot, 63, 32⟩
def cavSliceStatus_STATE : Fld := ⟨.cavSliceStatus, 2, 0⟩
def cavSliceStatus_COMPRESSED : Fld := ⟨.cavSliceStatus, 26, 8⟩
def cavSliceStatus_CE_COUNT : Fld := ⟨.cavSliceStatus, 47, 32⟩
def cavSliceStatus_UE_COUNT : Fld := ⟨.cavSliceStatus, 55, 48⟩
def cavSliceStatus_LOCK_EVICTS : Fld := ⟨.cavSliceStatus, 63, 56⟩
def dramSpace_LIMIT_GROUPS : Fld := ⟨.dramSpace, 22, 0⟩
def dramSpace_MAPPED_OUT : Fld := ⟨.dramSpace, 26, 23⟩
def dramSpace_NEXT_LIMIT : Fld := ⟨.dramSpace, 49, 27⟩
def dramSpace_MAX_MAPOUT : Fld := ⟨.dramSpace, 53, 50⟩
def dramChanStatus_STATE : Fld := ⟨.dramChanStatus, 2, 0⟩
def dramChanStatus_MOVED : Fld := ⟨.dramChanStatus, 30, 8⟩
def dramChanStatus_CE_COUNT : Fld := ⟨.dramChanStatus, 47, 32⟩
def dramChanStatus_UE_COUNT : Fld := ⟨.dramChanStatus, 55, 48⟩
def dramChanCtrl_TARGET : Fld := ⟨.dramChanCtrl, 0, 0⟩
def dram1500Ctrl_INSTR : Fld := ⟨.dram1500Ctrl, 7, 0⟩
def dram1500Ctrl_CHANNEL : Fld := ⟨.dram1500Ctrl, 12, 8⟩
def dram1500Ctrl_LENGTH : Fld := ⟨.dram1500Ctrl, 24, 16⟩
def dram1500Ctrl_REQ_SEQ : Fld := ⟨.dram1500Ctrl, 39, 32⟩
def dram1500Ctrl_DONE_SEQ : Fld := ⟨.dram1500Ctrl, 47, 40⟩
def dram1500Ctrl_RESULT : Fld := ⟨.dram1500Ctrl, 49, 48⟩
def dram1500Data_DATA : Fld := ⟨.dram1500Data, 63, 0⟩
def dramRegCfg_RATE : Fld := ⟨.dramRegCfg, 8, 0⟩
def dramRegCfg_SHARE_IDLE : Fld := ⟨.dramRegCfg, 9, 9⟩
def dramRegCfg_BURST : Fld := ⟨.dramRegCfg, 27, 16⟩
def dramRegBytes_BYTES : Fld := ⟨.dramRegBytes, 63, 0⟩
def dramRegThrottled_THROTTLED : Fld := ⟨.dramRegThrottled, 63, 0⟩
def segVbase_VBASE : Fld := ⟨.segVbase, 47, 0⟩
def segPbase_PBASE : Fld := ⟨.segPbase, 63, 0⟩
def segLen_LENGTH : Fld := ⟨.segLen, 47, 0⟩
def segLen_NODE : Fld := ⟨.segLen, 63, 48⟩
def segAttr_VALID : Fld := ⟨.segAttr, 0, 0⟩
def segAttr_PRESENT : Fld := ⟨.segAttr, 1, 1⟩
def segAttr_TARGET : Fld := ⟨.segAttr, 3, 2⟩
def segAttr_PERM_R : Fld := ⟨.segAttr, 4, 4⟩
def segAttr_PERM_W : Fld := ⟨.segAttr, 5, 5⟩
def segAttr_PERM_X : Fld := ⟨.segAttr, 6, 6⟩
def segAttr_HOST_CACHEABLE : Fld := ⟨.segAttr, 7, 7⟩
def segAttr_ENC : Fld := ⟨.segAttr, 8, 8⟩
def segAttr_PARTITION : Fld := ⟨.segAttr, 15, 12⟩
def segAttr_REGULATOR : Fld := ⟨.segAttr, 20, 16⟩
def segAttr_KEY_SLOT : Fld := ⟨.segAttr, 43, 32⟩
def segApplyStatus_APPLIED : Fld := ⟨.segApplyStatus, 31, 0⟩
def segApplyStatus_REJ_CONTEXT : Fld := ⟨.segApplyStatus, 43, 32⟩
def segApplyStatus_REJ_SEGMENT : Fld := ⟨.segApplyStatus, 47, 44⟩
def segApplyStatus_REJECTED : Fld := ⟨.segApplyStatus, 48, 48⟩
def segFaultLimit_LIMIT_MS : Fld := ⟨.segFaultLimit, 15, 0⟩
def segFault_ADDR : Fld := ⟨.segFault, 47, 0⟩
def segFault_SEGMENT : Fld := ⟨.segFault, 51, 48⟩
def segFault_FAULTED : Fld := ⟨.segFault, 52, 52⟩
def segFault_PARKED : Fld := ⟨.segFault, 63, 53⟩
def keySlot_OWNER : Fld := ⟨.keySlot, 11, 0⟩
def keySlot_VALID : Fld := ⟨.keySlot, 12, 12⟩
def keySlot_REQ : Fld := ⟨.keySlot, 23, 16⟩
def keySlot_GEN_DONE : Fld := ⟨.keySlot, 31, 24⟩
def engStatus_QUEUED : Fld := ⟨.engStatus, 5, 0⟩
def engStatus_BUSY : Fld := ⟨.engStatus, 6, 6⟩
def engStatus_IN_SERVICE : Fld := ⟨.engStatus, 7, 7⟩
def engStatus_CONTEXT : Fld := ⟨.engStatus, 27, 16⟩
def engBytes_BYTES : Fld := ⟨.engBytes, 63, 0⟩
def updGate_COMMITS : Fld := ⟨.updGate, 31, 0⟩
def updGate_SKIPS : Fld := ⟨.updGate, 63, 32⟩
def engDrops_DROPS : Fld := ⟨.engDrops, 63, 0⟩
def tideCount_COUNT : Fld := ⟨.tideCount, 63, 0⟩
def tideLock_STATE : Fld := ⟨.tideLock, 2, 0⟩
def tideLock_ACTIVE_PATH : Fld := ⟨.tideLock, 3, 3⟩
def tideLock_PATH_A_OK : Fld := ⟨.tideLock, 4, 4⟩
def tideLock_PATH_B_OK : Fld := ⟨.tideLock, 5, 5⟩
def tideLock_VALID : Fld := ⟨.tideLock, 6, 6⟩
def tideLock_SWITCHED : Fld := ⟨.tideLock, 7, 7⟩
def tideLock_LOST_SEEN : Fld := ⟨.tideLock, 8, 8⟩
def tideLock_OFFSET : Fld := ⟨.tideLock, 31, 16⟩
def tideLock_STEPS : Fld := ⟨.tideLock, 47, 32⟩
def tideCtrl_LOCAL : Fld := ⟨.tideCtrl, 0, 0⟩
def tideCtrl_PATH_B_EN : Fld := ⟨.tideCtrl, 1, 1⟩
def tideCtrl_EVENT_EN : Fld := ⟨.tideCtrl, 2, 2⟩
def tideCtrl_EVENT : Fld := ⟨.tideCtrl, 31, 16⟩
def tidePaths_PORT_A : Fld := ⟨.tidePaths, 3, 0⟩
def tidePaths_PORT_B : Fld := ⟨.tidePaths, 7, 4⟩
def tidePaths_SOURCE : Fld := ⟨.tidePaths, 31, 16⟩
def ferryCtrl_OWNER : Fld := ⟨.ferryCtrl, 11, 0⟩
def ferryCtrl_VALID : Fld := ⟨.ferryCtrl, 12, 12⟩
def ferryCtrl_RUN : Fld := ⟨.ferryCtrl, 13, 13⟩
def ferryCtrl_LOST_ACTION : Fld := ⟨.ferryCtrl, 14, 14⟩
def ferryCtrl_ACK_LIMIT_US : Fld := ⟨.ferryCtrl, 31, 16⟩
def ferryCtrl_CYCLE_LIMIT : Fld := ⟨.ferryCtrl, 63, 32⟩
def ferryEpoch_EPOCH : Fld := ⟨.ferryEpoch, 63, 0⟩
def ferryPeriod_PERIOD : Fld := ⟨.ferryPeriod, 31, 0⟩
def ferryStatus_ENTRY : Fld := ⟨.ferryStatus, 11, 0⟩
def ferryStatus_STATE : Fld := ⟨.ferryStatus, 14, 12⟩
def ferryStatus_UNSETTLED : Fld := ⟨.ferryStatus, 18, 16⟩
def ferryStatus_REJECT_REASON : Fld := ⟨.ferryStatus, 31, 24⟩
def ferryStatus_CYCLE : Fld := ⟨.ferryStatus, 63, 32⟩
def ferryCount_SAILED : Fld := ⟨.ferryCount, 31, 0⟩
def ferryCount_LATE : Fld := ⟨.ferryCount, 47, 32⟩
def ferryCount_MISSED : Fld := ⟨.ferryCount, 63, 48⟩
def ferryExc_ABORTED : Fld := ⟨.ferryExc, 15, 0⟩
def ferryExc_REPLAYED : Fld := ⟨.ferryExc, 31, 16⟩
def ferryExc_TURNED_BACK : Fld := ⟨.ferryExc, 47, 32⟩
def ferryAbort_ENTRY : Fld := ⟨.ferryAbort, 11, 0⟩
def ferryAbort_ALL : Fld := ⟨.ferryAbort, 12, 12⟩
def ferryAbort_CYCLE_LO : Fld := ⟨.ferryAbort, 31, 16⟩
def ferryAbort_REQ_SEQ : Fld := ⟨.ferryAbort, 39, 32⟩
def ferryAbort_DONE_SEQ : Fld := ⟨.ferryAbort, 47, 40⟩
def ferryAbort_RESULT : Fld := ⟨.ferryAbort, 50, 48⟩
def ferryGates_TOKENS (k : Nat) : Fld := ⟨.ferryGates, 4 * k + 3, 4 * k⟩
def ferryRoute_SRC_BASE : Fld := ⟨.ferryRoute, 47, 0⟩
def ferryRoute_NODE : Fld := ⟨.ferryRoute, 63, 48⟩
def ferryRoute_SRC_STRIDE : Fld := ⟨.ferryRoute, 95, 64⟩
def ferryRoute_PORT_MASK : Fld := ⟨.ferryRoute, 111, 96⟩
def ferryRoute_SETTLE_BOLLARD : Fld := ⟨.ferryRoute, 125, 112⟩
def ferryRoute_SETTLE_EN : Fld := ⟨.ferryRoute, 126, 126⟩
def ferryRoute_VALID : Fld := ⟨.ferryRoute, 127, 127⟩
def ferryCond_BASE : Fld := ⟨.ferryCond, 63, 0⟩
def ferryCond_BOLLARD : Fld := ⟨.ferryCond, 77, 64⟩
def ferryCond_VALID : Fld := ⟨.ferryCond, 78, 78⟩
def ferryCond_STEP : Fld := ⟨.ferryCond, 111, 80⟩
def tt_DEPART : Fld := ⟨.tt, 31, 0⟩
def tt_ROUTE : Fld := ⟨.tt, 37, 32⟩
def tt_COND : Fld := ⟨.tt, 43, 38⟩
def tt_GATE : Fld := ⟨.tt, 47, 44⟩
def tt_GATE_EN : Fld := ⟨.tt, 48, 48⟩
def tt_MISS_ACTION : Fld := ⟨.tt, 49, 49⟩
def tt_LEN_FROM_HEADER : Fld := ⟨.tt, 50, 50⟩
def tt_LAST : Fld := ⟨.tt, 51, 51⟩
def tt_VALID : Fld := ⟨.tt, 52, 52⟩
def tt_LATE_LIMIT : Fld := ⟨.tt, 71, 64⟩
def tt_BERTH : Fld := ⟨.tt, 83, 72⟩
def tt_SRC_SEL : Fld := ⟨.tt, 95, 84⟩
def tt_LINES : Fld := ⟨.tt, 127, 96⟩
def berth_REGION : Fld := ⟨.berth, 47, 0⟩
def berth_OWNER : Fld := ⟨.berth, 75, 64⟩
def berth_VALID : Fld := ⟨.berth, 76, 76⟩
def berth_ANY_FERRY : Fld := ⟨.berth, 77, 77⟩
def berth_SRC_FERRY : Fld := ⟨.berth, 82, 78⟩
def berth_SRC_NODE : Fld := ⟨.berth, 111, 96⟩
def berth_LAND_BOLLARD : Fld := ⟨.berth, 141, 128⟩
def berth_FREE_BOLLARD : Fld := ⟨.berth, 157, 144⟩
def berth_FREE_EN : Fld := ⟨.berth, 158, 158⟩
def berth_FREE_STEP : Fld := ⟨.berth, 191, 160⟩
def berth_MAX_LINES : Fld := ⟨.berth, 223, 192⟩
def berthStatus_LANDED : Fld := ⟨.berthStatus, 31, 0⟩
def berthStatus_STATE : Fld := ⟨.berthStatus, 34, 32⟩
def berthStatus_ATTEMPT : Fld := ⟨.berthStatus, 47, 40⟩
def berthStatus_ABORTS : Fld := ⟨.berthStatus, 63, 48⟩
def fabRegion_OFFSET_BASE : Fld := ⟨.fabRegion, 47, 0⟩
def fabRegion_PBASE : Fld := ⟨.fabRegion, 111, 64⟩
def fabRegion_LENGTH : Fld := ⟨.fabRegion, 175, 128⟩
def fabRegion_WRITER : Fld := ⟨.fabRegion, 191, 176⟩
def fabRegion_VALID : Fld := ⟨.fabRegion, 192, 192⟩
def fabRegion_READ_EN : Fld := ⟨.fabRegion, 193, 193⟩
def fabRegion_WRITE_MODE : Fld := ⟨.fabRegion, 195, 194⟩
def fabRegion_ENC : Fld := ⟨.fabRegion, 196, 196⟩
def fabRegion_KEY_SLOT : Fld := ⟨.fabRegion, 219, 208⟩
def fabRegion_CONTEXT : Fld := ⟨.fabRegion, 235, 224⟩
def fabNode_NODE : Fld := ⟨.fabNode, 15, 0⟩
def fabNode_READY : Fld := ⟨.fabNode, 16, 16⟩
def fabNode_PORTS_ACTIVE : Fld := ⟨.fabNode, 36, 32⟩
def fabTimeout_READ_US : Fld := ⟨.fabTimeout, 15, 0⟩
def fabTimeout_WRITE_US : Fld := ⟨.fabTimeout, 31, 16⟩
def fabPortStatus_STATE : Fld := ⟨.fabPortStatus, 2, 0⟩
def fabPortStatus_LEADER : Fld := ⟨.fabPortStatus, 3, 3⟩
def fabPortStatus_LANE_SET : Fld := ⟨.fabPortStatus, 11, 4⟩
def fabPortStatus_WIDTH : Fld := ⟨.fabPortStatus, 15, 12⟩
def fabPortStatus_PEER_NODE : Fld := ⟨.fabPortStatus, 31, 16⟩
def fabPortStatus_DELAY : Fld := ⟨.fabPortStatus, 47, 32⟩
def fabPortStatus_RETRAINS : Fld := ⟨.fabPortStatus, 63, 48⟩
def fabPortCtrl_DISABLE : Fld := ⟨.fabPortCtrl, 0, 0⟩
def fabPortCtrl_RETRAIN_REQ : Fld := ⟨.fabPortCtrl, 1, 1⟩
def fabPortCtrl_LANE_ALLOW : Fld := ⟨.fabPortCtrl, 11, 4⟩
def fabLaneMap_WL (k : Nat) : Fld := ⟨.fabLaneMap, 4 * k + 3, 4 * k⟩
def fabLaneMap_SPARE_WL : Fld := ⟨.fabLaneMap, 41, 32⟩
def fabPortErr_CORRECTED_CW : Fld := ⟨.fabPortErr, 31, 0⟩
def fabPortErr_UNCORRECTED_CW : Fld := ⟨.fabPortErr, 47, 32⟩
def fabPortErr_REPLAYS : Fld := ⟨.fabPortErr, 63, 48⟩
def optEmitter_STATE : Fld := ⟨.optEmitter, 2, 0⟩
def optEmitter_WAVELENGTH : Fld := ⟨.optEmitter, 6, 3⟩
def optEmitter_BIAS_PCT : Fld := ⟨.optEmitter, 15, 8⟩
def optEmitter_LIT_HOURS : Fld := ⟨.optEmitter, 63, 32⟩
def cap_CAP_ID : Fld := ⟨.cap, 15, 0⟩
def cap_CAP_VERSION : Fld := ⟨.cap, 23, 16⟩
def cap_VALUE : Fld := ⟨.cap, 63, 32⟩
def hostCmd_OP : Fld := ⟨.hostCmd, 7, 0⟩
def hostCmd_INDEX : Fld := ⟨.hostCmd, 27, 8⟩
def hostCmd_REQ_SEQ : Fld := ⟨.hostCmd, 39, 32⟩
def hostCmdArg_ARG : Fld := ⟨.hostCmdArg, 63, 0⟩
def hostCmdStatus_DONE_SEQ : Fld := ⟨.hostCmdStatus, 7, 0⟩
def hostCmdStatus_RESULT : Fld := ⟨.hostCmdStatus, 11, 8⟩
def hostCmdStatus_OVERRUN : Fld := ⟨.hostCmdStatus, 12, 12⟩
def hostMoTable_ENABLE : Fld := ⟨.hostMoTable, 0, 0⟩
def hostMoTable_BASE : Fld := ⟨.hostMoTable, 47, 12⟩
def coreAdapterHolds_HOLDS : Fld := ⟨.coreAdapterHolds, 15, 0⟩
def ctxState_STATE : Fld := ⟨.ctxState, 2, 0⟩
def ctxState_SUSPENDING : Fld := ⟨.ctxState, 3, 3⟩
def ctxState_HOST_PATH_LOST : Fld := ⟨.ctxState, 4, 4⟩
def ctxState_QUEUES : Fld := ⟨.ctxState, 30, 16⟩
def ctxSeed_SEED : Fld := ⟨.ctxSeed, 63, 0⟩
def qStatus_SQ_HEAD : Fld := ⟨.qStatus, 15, 0⟩
def qStatus_CQ_TAIL : Fld := ⟨.qStatus, 31, 16⟩
def qStatus_STATE : Fld := ⟨.qStatus, 33, 32⟩
def qStatus_PHASE : Fld := ⟨.qStatus, 34, 34⟩
def qStatus_CONTEXT : Fld := ⟨.qStatus, 47, 36⟩
def qStatus_SQ_LOG2 : Fld := ⟨.qStatus, 52, 48⟩
def qStatus_CQ_LOG2 : Fld := ⟨.qStatus, 57, 53⟩
def qStatus_IN_FLIGHT : Fld := ⟨.qStatus, 61, 58⟩
def qCqHead_CQ_HEAD : Fld := ⟨.qCqHead, 15, 0⟩
def qDoorbell_SQ_TAIL : Fld := ⟨.qDoorbell, 15, 0⟩
def evt_VECTOR : Fld := ⟨.evt, 10, 0⟩
def evt_ENABLE : Fld := ⟨.evt, 11, 11⟩
def evt_PENDING : Fld := ⟨.evt, 12, 12⟩
def evt_COUNT : Fld := ⟨.evt, 47, 32⟩
def sumpRing_ENABLE : Fld := ⟨.sumpRing, 0, 0⟩
def sumpRing_SIZE_LOG2 : Fld := ⟨.sumpRing, 4, 1⟩
def sumpRing_BASE : Fld := ⟨.sumpRing, 63, 12⟩
def sumpTail_TAIL : Fld := ⟨.sumpTail, 31, 0⟩
def sumpHead_HEAD : Fld := ⟨.sumpHead, 31, 0⟩
def sumpCtrl_WB_EN : Fld := ⟨.sumpCtrl, 0, 0⟩
def sumpCtrl_EVENT_EN : Fld := ⟨.sumpCtrl, 1, 1⟩
def sumpCtrl_WB_ADDR : Fld := ⟨.sumpCtrl, 63, 3⟩
def sumpHold_HELD : Fld := ⟨.sumpHold, 10, 0⟩
def sumpHold_OVERFLOW : Fld := ⟨.sumpHold, 11, 11⟩
def sumpHold_EVENT : Fld := ⟨.sumpHold, 31, 16⟩
def sumpHold_LOST : Fld := ⟨.sumpHold, 47, 32⟩
def hostStatus_READY : Fld := ⟨.hostStatus, 0, 0⟩
def hostStatus_BME : Fld := ⟨.hostStatus, 1, 1⟩
def hostStatus_CXL_CACHE : Fld := ⟨.hostStatus, 2, 2⟩
def hostStatus_PATH_LOST : Fld := ⟨.hostStatus, 31, 16⟩
def lkBootStatus_STAGE : Fld := ⟨.lkBootStatus, 2, 0⟩
def lkBootStatus_STOP_CODE : Fld := ⟨.lkBootStatus, 15, 8⟩
def lkBootStatus_IMAGE : Fld := ⟨.lkBootStatus, 16, 16⟩
def lkBootStatus_FALLBACK : Fld := ⟨.lkBootStatus, 17, 17⟩
def lkBootStatus_DEGRADED : Fld := ⟨.lkBootStatus, 18, 18⟩
def lkBootStatus_BOOT_MS : Fld := ⟨.lkBootStatus, 63, 32⟩
def lkSoftstart_LATCHED : Fld := ⟨.lkSoftstart, 39, 0⟩
def lkSoftstart_OFF_AT_START : Fld := ⟨.lkSoftstart, 47, 40⟩
def lkImageInfo_BUILD : Fld := ⟨.lkImageInfo, 31, 0⟩
def lkImageInfo_SEC_VERSION : Fld := ⟨.lkImageInfo, 47, 32⟩
def lkImageInfo_MIN_SEC_VERSION : Fld := ⟨.lkImageInfo, 63, 48⟩
def rbStatus_STATE : Fld := ⟨.rbStatus, 1, 0⟩
def rbStatus_CELL_LOW : Fld := ⟨.rbStatus, 2, 2⟩
def rbStatus_CELL_MV : Fld := ⟨.rbStatus, 31, 16⟩
def rbStatus_SEQUENCE : Fld := ⟨.rbStatus, 63, 32⟩
def rbBoot_BOOT_COUNT : Fld := ⟨.rbBoot, 31, 0⟩
def rbBoot_PREFERRED : Fld := ⟨.rbBoot, 32, 32⟩
def rbBoot_A_BAD : Fld := ⟨.rbBoot, 33, 33⟩
def rbBoot_B_BAD : Fld := ⟨.rbBoot, 34, 34⟩
def rbBoot_A_ATTEMPTS : Fld := ⟨.rbBoot, 36, 35⟩
def rbBoot_B_ATTEMPTS : Fld := ⟨.rbBoot, 38, 37⟩
def rbSoftstartSticky_EVER_LATCHED : Fld := ⟨.rbSoftstartSticky, 39, 0⟩
def rbFaultHist_RECORD : Fld := ⟨.rbFaultHist, 255, 0⟩
def pwrDomCtrl_TARGET : Fld := ⟨.pwrDomCtrl, 1, 0⟩
def pwrDomCtrl_AT_EN : Fld := ⟨.pwrDomCtrl, 2, 2⟩
def pwrDomCtrl_EVENT_EN : Fld := ⟨.pwrDomCtrl, 3, 3⟩
def pwrDomCtrl_EVENT : Fld := ⟨.pwrDomCtrl, 31, 16⟩
def pwrDomCtrl_REQ_SEQ : Fld := ⟨.pwrDomCtrl, 39, 32⟩
def pwrDomAt_AT : Fld := ⟨.pwrDomAt, 63, 0⟩
def pwrDomStatus_STATE : Fld := ⟨.pwrDomStatus, 1, 0⟩
def pwrDomStatus_GATED : Fld := ⟨.pwrDomStatus, 2, 2⟩
def pwrDomStatus_BUSY : Fld := ⟨.pwrDomStatus, 3, 3⟩
def pwrDomStatus_SCHEDULED : Fld := ⟨.pwrDomStatus, 4, 4⟩
def pwrDomStatus_LATCHED : Fld := ⟨.pwrDomStatus, 5, 5⟩
def pwrDomStatus_MAPPED_OUT : Fld := ⟨.pwrDomStatus, 6, 6⟩
def pwrDomStatus_OVERRUN : Fld := ⟨.pwrDomStatus, 7, 7⟩
def pwrDomStatus_DONE_SEQ : Fld := ⟨.pwrDomStatus, 15, 8⟩
def pwrDomStatus_RESULT : Fld := ⟨.pwrDomStatus, 19, 16⟩
def pwrDomStatus_LATE : Fld := ⟨.pwrDomStatus, 20, 20⟩
def pwrDomStatus_WAKES : Fld := ⟨.pwrDomStatus, 63, 32⟩
def pwrPstate_TARGET : Fld := ⟨.pwrPstate, 1, 0⟩
def pwrPstate_AT_EN : Fld := ⟨.pwrPstate, 2, 2⟩
def pwrPstate_EVENT_EN : Fld := ⟨.pwrPstate, 3, 3⟩
def pwrPstate_EVENT : Fld := ⟨.pwrPstate, 31, 16⟩
def pwrPstate_REQ_SEQ : Fld := ⟨.pwrPstate, 39, 32⟩
def pwrPstate_DONE_SEQ : Fld := ⟨.pwrPstate, 47, 40⟩
def pwrPstate_CURRENT : Fld := ⟨.pwrPstate, 49, 48⟩
def pwrPstate_BUSY : Fld := ⟨.pwrPstate, 50, 50⟩
def pwrPstate_SUPERSEDED : Fld := ⟨.pwrPstate, 51, 51⟩
def pwrPstate_OVERRUN : Fld := ⟨.pwrPstate, 52, 52⟩
def pwrPstate_LATE : Fld := ⟨.pwrPstate, 53, 53⟩
def pwrPstateAt_AT : Fld := ⟨.pwrPstateAt, 63, 0⟩
def pwrCap_CAP_W : Fld := ⟨.pwrCap, 11, 0⟩
def pwrCap_ORDER : Fld := ⟨.pwrCap, 14, 12⟩
def pwrCap_U_MW : Fld := ⟨.pwrCap, 63, 32⟩
def pwrInput_POWER_DW : Fld := ⟨.pwrInput, 15, 0⟩
def pwrInput_VIN_MV : Fld := ⟨.pwrInput, 31, 16⟩
def pwrInput_COMPUTE_LVL : Fld := ⟨.pwrInput, 39, 32⟩
def pwrInput_LINK_LVL : Fld := ⟨.pwrInput, 47, 40⟩
def pwrInput_MEM_LVL : Fld := ⟨.pwrInput, 55, 48⟩
def pwrTherm_TEMP_C : Fld := ⟨.pwrTherm, 7, 0⟩
def pwrTherm_LIMIT_C : Fld := ⟨.pwrTherm, 15, 8⟩
def pwrTherm_LEVEL : Fld := ⟨.pwrTherm, 23, 16⟩
def pwrThrottle_CAP_COMPUTE : Fld := ⟨.pwrThrottle, 0, 0⟩
def pwrThrottle_CAP_LINKS : Fld := ⟨.pwrThrottle, 1, 1⟩
def pwrThrottle_CAP_MEMORY : Fld := ⟨.pwrThrottle, 2, 2⟩
def pwrThrottle_CAP_FLOOR : Fld := ⟨.pwrThrottle, 3, 3⟩
def pwrThrottle_INPUT_LIMIT : Fld := ⟨.pwrThrottle, 4, 4⟩
def pwrThrottle_THERMAL : Fld := ⟨.pwrThrottle, 8, 5⟩
def pwrThrottle_ACTIVE : Fld := ⟨.pwrThrottle, 24, 16⟩
def pwrThrottleUs_US : Fld := ⟨.pwrThrottleUs, 63, 0⟩
def ctxEnergy_MJ : Fld := ⟨.ctxEnergy, 63, 0⟩
def pwrEnergyUnattr_MJ : Fld := ⟨.pwrEnergyUnattr, 63, 0⟩
def faultStatus_CORRECTED : Fld := ⟨.faultStatus, 0, 0⟩
def faultStatus_CONTAINED : Fld := ⟨.faultStatus, 1, 1⟩
def faultStatus_SPARED : Fld := ⟨.faultStatus, 2, 2⟩
def faultStatus_FATAL : Fld := ⟨.faultStatus, 3, 3⟩
def faultStatus_SPARE_LOW : Fld := ⟨.faultStatus, 4, 4⟩
def faultStatus_UNIT_LOST : Fld := ⟨.faultStatus, 5, 5⟩
def faultStatus_FATAL_CODE : Fld := ⟨.faultStatus, 31, 16⟩
def faultCount_COUNT : Fld := ⟨.faultCount, 63, 0⟩
def faultCtrl_AUTO_TEST_EN : Fld := ⟨.faultCtrl, 0, 0⟩
def faultCtrl_FATAL_EVENT_EN : Fld := ⟨.faultCtrl, 1, 1⟩
def faultCtrl_SPARE_EVENT_EN : Fld := ⟨.faultCtrl, 2, 2⟩
def faultCtrl_FT_EVENT_EN : Fld := ⟨.faultCtrl, 3, 3⟩
def faultCtrl_EVENT : Fld := ⟨.faultCtrl, 31, 16⟩
def ftSpares_CORE : Fld := ⟨.ftSpares, 15, 0⟩
def ftSpares_SLICE : Fld := ⟨.ftSpares, 27, 16⟩
def ftSpares_WL : Fld := ⟨.ftSpares, 63, 32⟩
def ftCmd_UNIT : Fld := ⟨.ftCmd, 15, 0⟩
def ftCmd_OP : Fld := ⟨.ftCmd, 18, 16⟩
def ftCmd_FORCE : Fld := ⟨.ftCmd, 19, 19⟩
def ftCmd_REQ_SEQ : Fld := ⟨.ftCmd, 31, 24⟩
def ftCmd_DONE_SEQ : Fld := ⟨.ftCmd, 39, 32⟩
def ftCmd_RESULT : Fld := ⟨.ftCmd, 43, 40⟩
def ftCmd_UNIT_STATE : Fld := ⟨.ftCmd, 47, 44⟩
def ftCmd_DETAIL : Fld := ⟨.ftCmd, 63, 48⟩
def wearCore_ON_HOURS : Fld := ⟨.wearCore, 19, 0⟩
def wearCore_CHECKS : Fld := ⟨.wearCore, 27, 20⟩
def wearCore_SWAPS_OUT : Fld := ⟨.wearCore, 35, 28⟩
def wearCore_BIST_FAILS : Fld := ⟨.wearCore, 43, 36⟩
def wearSlice_ON_HOURS : Fld := ⟨.wearSlice, 19, 0⟩
def wearSlice_CE_TOTAL : Fld := ⟨.wearSlice, 39, 20⟩
def wearSlice_UE_TOTAL : Fld := ⟨.wearSlice, 47, 40⟩
def wearSlice_SWAPS_OUT : Fld := ⟨.wearSlice, 55, 48⟩
def wearSlice_BIST_FAILS : Fld := ⟨.wearSlice, 63, 56⟩

end F

end Sys2Proof.Machine
end

