-- ==== Sys2Proof/Machine/SMap.lean ====
section
/-! DEFINITION. A sparse table: the one representation of every large store of the block (DRAM bytes, register words,
accumulators). A list of key and value pairs in ONE canonical form: keys strictly rising, and no entry equal to what an
unlisted key reads as. -/

namespace Sys2Proof.Machine

/-- Keys with their values. `SMap Byte` is a list of `Host.Cell`. -/
abbrev SMap (α : Type) := List (Nat × α)

/-- The value listed under a key. -/
def smapFind {α : Type} : SMap α → Nat → Option α
  | [], _ => none
  | (k, v) :: m, a => if a = k then some v else smapFind m a

/-- The value under a key, the default where none is listed. -/
def smapGet {α : Type} (m : SMap α) (d : α) (a : Nat) : α := (smapFind m a).getD d

/-- The table without a key. -/
def smapErase {α : Type} (m : SMap α) (a : Nat) : SMap α := m.filter (fun kv => decide (kv.1 ≠ a))

/-- The table with an entry, in its place by key. -/
def smapInsert {α : Type} : SMap α → Nat → α → SMap α
  | [], a, v => [(a, v)]
  | (k, w) :: m, a, v =>
    if a = k then (a, v) :: m else if a < k then (a, v) :: (k, w) :: m else (k, w) :: smapInsert m a v

/-- Writing: the value an unlisted key reads as is stored by removing the entry. -/
def smapSet {α : Type} [DecidableEq α] (m : SMap α) (d : α) (a : Nat) (v : α) : SMap α :=
  if v = d then smapErase m a else smapInsert m a v

/-- The canonical form, with the default given per key. -/
def smapWf {α : Type} [DecidableEq α] (m : SMap α) (d : Nat → α) : Bool :=
  decide ((m.map Prod.fst).Pairwise (· < ·)) && m.all (fun kv => decide (kv.2 ≠ d kv.1))

/-- The table without the keys a test picks. -/
def smapDrop {α : Type} (m : SMap α) (p : Nat → Bool) : SMap α := m.filter (fun kv => !p kv.1)

/-- A set of numbers as a strictly rising list: insertion. -/
def setInsert : List Nat → Nat → List Nat
  | [], a => [a]
  | k :: m, a => if a = k then k :: m else if a < k then a :: k :: m else k :: setInsert m a

/-- A set of numbers: removal. -/
def setErase (m : List Nat) (a : Nat) : List Nat := m.filter (fun k => !(k == a))

end Sys2Proof.Machine
end

