-- ==== Sys2Proof/Machine/State.lean ====
section
/-! DEFINITION. The block's state as plain data, and the state right after reset. INVENTORY.md lists every piece with the rule
of spec/ that names it and its reset value. -/

namespace Sys2Proof.Machine

/-- A Sump record (Table 16.2). `ctx` none is NO_CONTEXT. -/
structure SumpRec where
  tide : Nat
  unit : Nat
  ctx : Option Nat
  cls : Nat
  flags : Nat
  code : Nat
  extra : Nat
  seq : Nat
  deriving DecidableEq, Repr

/-- Split accesses to 64-bit registers: the lower half held per word (R16), the upper half latched per requester and word (R17). -/
structure SplitAccess where
  held : SMap W32
  latch : List ((Nat × Nat) × W32)
  deriving DecidableEq, Repr

/-- A posted write to host memory (R237), with the sectors it carries marked poisoned. -/
structure Posted where
  addr : Nat
  bytes : List Byte
  poisoned : Bool
  deriving DecidableEq, Repr

/-- A slot that has left a port (R385, R386): the port, the logical lane it left on, its tag (Table 12.2). -/
structure SlotOut where
  port : Nat
  lane : Nat
  tag : Nat
  deriving DecidableEq, Repr

/-- What the block has sent (the model's own logs, oldest first). -/
structure Outputs where
  posted : List Posted
  msgs : List (Nat × Nat)
  pkts : List (Nat × Packet)
  link : List (Nat × LinkMsg)
  slots : List SlotOut
  cxl : List (Nat × D2H)
  mgmt : List MgmtMsg
  reads : List (Nat × Nat)
  deriving DecidableEq, Repr

/-- One lane's access of a load: its target (0 device, 1 host, 2 peer, 3 host-line store), resolved address (a peer's node above bit
48), context address. -/
structure LaneAcc where
  lane : Nat
  tgt : Nat
  addr : Nat
  ca : Nat
  deriving DecidableEq, Repr

/-- What a fragment waits for (R160, R162, R191 to R196, R230, R449, R306). `none` is eligible. -/
inductive FragWait where
  | none
  | join (mask pc : Nat)
  | barrier (id : Option Nat)
  | token (waits : List (Nat × Nat)) (since : Nat)
  | entry (own since : Nat)
  | space (own since : Nat)
  | exit (since : Nat)
  | bollard (n target dst : Nat) (timed : Bool)
  | line (ha : Nat)
  | seg (sg next : Nat)
  deriving DecidableEq, Repr

/-- A fragment (R157): program counter (an offset in the CODE section), active mask by home lane, whether it is active, what it
waits for, and when it last became active or was parked. -/
structure Frag where
  pc : Nat
  mask : Nat
  active : Bool
  wait : FragWait
  age : Nat
  deriving DecidableEq, Repr

/-- A line that a load still has to request (R177): its name and the attributes of its access, the ways it may allocate. -/
structure WantLine where
  key : Nat
  cls : Nat
  reg : Nat
  gen : Nat
  mask : Nat
  deriving DecidableEq, Repr

/-- A load issued whose data is outstanding (R165, R168, R177): its access and lanes, the lines it awaits by request, those it has
still to request, those it has, and its program counter for a halt record. -/
structure OutLoad where
  acc : LoadAcc
  lanes : List LaneAcc
  need : List (Nat × Nat)
  want : List WantLine
  got : List (Nat × List Byte)
  pc : Nat
  deriving DecidableEq, Repr

/-- A group slot in use: its block, its group number, its fragment table and its outstanding loads. -/
structure SlotRec where
  block : Nat
  group : Nat
  frags : List Frag
  loads : List OutLoad
  deriving DecidableEq, Repr

/-- A token table entry (R190). -/
structure Token where
  done : Bool
  gen : Nat
  deriving DecidableEq, Repr

/-- A resident block (R142, R190): its launch, context, index, core, scratchpad run in granules, slots, token table. -/
structure BlockRec where
  id : Nat
  launch : Nat
  ctx : Nat
  idx : Nat
  core : Nat
  gran : Nat
  granules : Nat
  slots : List Nat
  tokens : List Token
  deriving DecidableEq, Repr

/-- An entry declaration (Table 6.3). -/
structure EntryDecl where
  codeOffset : Nat
  codeSize : Nat
  threads : Nat
  cacheWays : Nat
  barriers : Nat
  granules : Nat
  dynamic : Bool
  cooperative : Bool
  replayable : Bool
  routines : Bool
  deriving DecidableEq, Repr

/-- A launch (R138, R145, R198): its queue entry, code object, entry, argument, grid, core list, the next block index each list
position places, blocks to place again, blocks ended; `prev` is the launch before it in its queue. -/
structure Launch where
  id : Nat
  ctx : Nat
  queue : Nat
  qidx : Nat
  code : Nat
  codeOff : Nat
  routineOff : Nat
  routineSize : Nat
  entry : Nat
  decl : EntryDecl
  arg : Nat
  gx : Nat
  gy : Nat
  gz : Nat
  wait : Bool
  prev : Nat
  cores : List Nat
  next : SMap Nat
  again : List Nat
  ended : Nat
  cancelled : Bool
  deriving DecidableEq, Repr

/-- Where an operation was issued: what a halt record takes from it (R210). -/
structure IssuedAt where
  core : Nat
  pcore : Nat
  entry : Nat
  slot : Nat
  idx : Nat
  pc : Nat
  mask : Nat
  deriving DecidableEq, Repr

/-- Who asked for a job: a block's thread, or a queue entry. -/
inductive Origin where
  | block (id : Nat) (issued : IssuedAt)
  | queue (q idx : Nat)
  deriving DecidableEq, Repr

/-- An accepted operation in a core's operation buffer (R193): the job, its unit ID, whether it is an
ACCUMULATING routine, its token entry (64: none) with generation, captured
waits, completion bollard, start condition, and since when it waits. -/
structure BufOp where
  id : Nat
  ctx : Nat
  block : Nat
  core : Nat
  issued : IssuedAt
  unit : Nat
  job : Job
  acc : Bool
  token : Nat
  waits : List (Nat × Nat)
  bollard : Option (Nat × Nat)
  start : Option (Nat × Nat)
  since : Nat
  deriving DecidableEq, Repr

/-- What follows an advance of a completion bollard (R225, R436): a token of a block, a queue entry's completion entry, or the
end of a BOLLARD_ADVANCE entry. -/
inductive AdvEnd where
  | none
  | token (block entry : Nat)
  | entry (q idx : Nat)
  | finish (q idx : Nat)
  deriving DecidableEq, Repr

/-- A bollard advance queued in the store (R233): bollard, increment, what follows it. -/
structure Advance where
  n : Nat
  inc : Nat
  fin : AdvEnd
  deriving DecidableEq, Repr

/-- Launches, blocks, slots (by core × 128 + slot), operation buffers, queued advances, and by unit × 16 + gate the
core from which a shared queue's next grant starts (R194). -/
structure Running where
  launches : List Launch
  blocks : List BlockRec
  slots : SMap SlotRec
  ops : List BufOp
  bolQ : List Advance
  grant : SMap Nat
  deriving DecidableEq, Repr

/-- A row of a register cache (R172): its register, the lanes it holds, dirty, dead. Most recently used first. -/
structure RcRow where
  reg : Nat
  lanes : SMap W32
  dirty : Bool
  dead : Bool
  deriving DecidableEq, Repr

/-- A Grotto cache line of 128 B (R244, R247): core, set, way, address, host or device, valid and dirty bytes, and the class, regulator and
key slot + 1 (0 clear) its write-back uses. -/
structure GrottoLine where
  core : Nat
  set : Nat
  way : Nat
  addr : Nat
  host : Bool
  bytes : SMap Byte
  dirty : List Nat
  cls : Nat
  reg : Nat
  key : Nat
  deriving DecidableEq, Repr

/-- A read-only cache line (R240, R254): core, which cache (0 instruction, 1 constant, 2 descriptor), of host memory or not, resolved
address, data. -/
structure RoLine where
  core : Nat
  kind : Nat
  host : Bool
  addr : Nat
  bytes : List Byte
  poison : Bool
  deriving DecidableEq, Repr

/-- A line of 64 B in an array's A queue (R85): the operation it was read for, its scratchpad address, its bytes. -/
structure FeedLine where
  job : Nat
  addr : Nat
  bytes : List Byte
  deriving DecidableEq, Repr

/-- A stationary store half of an array (R81): the operand it holds. -/
structure BHalf where
  key : Nat
  rows : List (List Nat)
  scales : List (List Nat)
  deriving DecidableEq, Repr

/-- What a core holds beside its SRAMs (R147, R148, R251): clearing after a bind, closed by the quantum, has served no context
since OFF or a discard, victim generator, way count of the split. -/
structure CoreFlags where
  clearing : Bool
  closed : Bool
  servedNone : Bool
  stopped : Bool
  lfsr : BitVec 16
  ways : Nat
  deriving DecidableEq, Repr

/-- An outstanding line request (R177): its identity, core, slot, line (log 18), the attributes of its access, the ways it may allocate;
`shut` once a later load may not take what it returns (R218, R220). -/
structure LineReq where
  id : Nat
  shut : Bool
  core : Nat
  slot : Nat
  key : Nat
  cls : Nat
  reg : Nat
  gen : Nat
  mask : Nat
  deriving DecidableEq, Repr

/-- The cores' storage: main register file by ((core × 128 + slot) × 64 + register) × 32 + lane, register caches by core × 128 +
slot, scratchpad bytes by core × 2^21 + address, Grotto and read-only lines, accumulators by ((core × 4 + array) × 2 + bank) ×
8,192 + row × 32 + column, B stores and A queues (oldest line first, R85) by core × 4 + array, outstanding line requests, flags;
by core × 16 + way, the free value from which a step turned from cache into scratchpad has its contents (R245), 0 none. -/
structure Cores where
  rf : SMap W32
  rc : SMap (List RcRow)
  sram : SMap Byte
  gl : List GrottoLine
  ro : List RoLine
  acc : SMap W32
  bst : SMap (List BHalf)
  feed : SMap (List FeedLine)
  lreq : List LineReq
  flags : SMap CoreFlags
  segCache : List (Nat × Nat)
  scram : SMap Nat
  deriving DecidableEq, Repr

/-- A fetched submission entry in flight (R436): its ring index, bytes, held objects, whether it has started, and the outcome its
arbiter has decided (STATUS, REASON), whether its completion has begun, its bollard advanced (R437), the segment its checks wait
for (R183), and its start condition until it has been satisfied (R226, R232). -/
structure QEntry where
  idx : Nat
  sqe : List Byte
  holds : List Nat
  started : Bool
  fin : Option (Nat × Nat)
  bolDone : Bool
  parked : Option Nat
  start : Option (Nat × Nat)
  deriving DecidableEq, Repr

/-- What a hardware queue holds beside Q_STATUS, Q_CQ_HEAD and Q_DOORBELL (R432, R441). -/
structure QRec where
  sqBase : Nat
  cqBase : Nat
  event : Nat
  evEn : Bool
  entries : List QEntry
  cancelTail : Option Nat
  cancelArg : Nat
  tail : Nat
  destroyArgs : List Nat
  deriving DecidableEq, Repr

/-- A memory object (R421, R422): state 0 FREE, 1 ZEROING, 2 READY, its count, its range and keys, and MO_ALLOC's ARG3. -/
structure MoRec where
  st : Nat
  refs : Nat
  pbase : Nat
  len : Nat
  enc : Bool
  key : Nat
  arg3 : Nat
  deriving DecidableEq, Repr

/-- A context's commands in the background (ARG3 of each) and its teardown step (R419, R430). -/
structure CtxRec where
  suspendArgs : List Nat
  cancelArgs : List Nat
  destroyArg : Option Nat
  step : Nat
  halted : Bool
  deriving DecidableEq, Repr

/-- The hardware queues, memory objects and contexts; the next identity of a launch, block, job or read. -/
structure Objects where
  q : SMap QRec
  mo : SMap MoRec
  ctx : SMap CtxRec
  nextId : Nat
  deriving DecidableEq, Repr

/-- MESI states (Table 13.28). -/
inductive Mesi where
  | i | s | e | m
  deriving DecidableEq, Repr

/-- A line of the host-line store (R270, R445), the least recently used first. -/
structure HostLine where
  ha : Nat
  st : Mesi
  data : List Byte
  poison : Bool
  deriving DecidableEq, Repr

/-- An entry of a slice's eviction buffer (R447), with its line's poison (R274). -/
structure EvictEntry where
  slice : Nat
  ha : Nat
  st : Mesi
  data : List Byte
  poison : Bool
  snooped : Bool
  deriving DecidableEq, Repr

/-- A CXL.cache read outstanding: RdOwn when `own`. -/
structure CacheReq where
  ha : Nat
  own : Bool
  deriving DecidableEq, Repr

/-- A host read outstanding (R412, R449): the line request of a core that it serves (`req` its identity), or the tender job. -/
structure HostRead where
  id : Nat
  addr : Nat
  len : Nat
  ctx : Nat
  core : Nat
  key : Nat
  req : Nat
  deriving DecidableEq, Repr

/-- The features of Table 13.1 that a PCIe function marks present. -/
inductive PciFeature where
  | msix | msi | intx | powerManagement | noSoftReset | pme | aspmL1 | aspmL0s | aspmL0p | aspmL1Substates | functionReset | tags10Bit
  | extendedTags | dataLinkFeature | physicalLayer16 | physicalLayer32 | physicalLayer64 | laneMargining | serialNumber | doe | cdat
  | resizableBar | expansionRom | aer | acs | ats | pri | pasid | srIov | tph | ltr | ptm | ide | atomicOpRequester | atomicOpCompleter
  | cxlIo | cxlCache | cxlMem
  deriving DecidableEq, Repr

/-- The one PCIe function as its configuration space shows it (R410, Table 13.1; log 60): identity, the link it trains to at most, BAR0, the
MSI-X table, and what is present. Every BAR but BAR0 is absent. -/
structure PciFunction where
  device : Nat
  classCode : Nat
  gtPerSecond : Nat
  lanes : Nat
  bar0Bytes : Nat
  bar0Is64 : Bool
  bar0Prefetchable : Bool
  bars : List Nat
  msixVectors : Nat
  present : List PciFeature
  deriving DecidableEq, Repr

/-- Table 13.1. -/
def PciFunction.lx9 : PciFunction where
  device := 0x0C19
  classCode := 0x120000
  gtPerSecond := 64
  lanes := 16
  bar0Bytes := 67108864
  bar0Is64 := true
  bar0Prefetchable := false
  bars := [0]
  msixVectors := 2048
  present :=
    [.msix, .powerManagement, .noSoftReset, .aspmL1, .functionReset, .tags10Bit, .extendedTags, .dataLinkFeature, .physicalLayer16,
     .physicalLayer32, .physicalLayer64, .laneMargining, .serialNumber, .doe, .cdat, .cxlIo, .cxlCache]

/-- The host link (13, 17): its PCIe function, reads outstanding, D3hot, upstream requests held since D3hot until Bus Master
Enable is set again (R454), Cache_Enable, a function-level reset in progress, host lines to evict after one (R453), the host-line
store. -/
structure HostLink where
  pci : PciFunction
  reads : List HostRead
  d3 : Bool
  held : Bool
  cacheEn : Bool
  flr : Bool
  flrEvict : Bool
  lines : List HostLine
  evict : List EvictEntry
  creq : List CacheReq
  msix : SMap W64
  pba : List Nat
  deriving DecidableEq, Repr

/-- One 64-B sector of a Cavern line: data with its marks. -/
structure CavSector where
  valid : Bool
  dirty : Bool
  poison : Bool
  data : List Byte
  deriving DecidableEq, Repr

/-- A Cavern line of 256 B (R257 to R262): its address in lines, slice, set, way, compressed, class, regulator, the key
slot + 1 of its most recent filling or writing request (R308), 0 clear, sectors, last use. -/
structure CavLine where
  line : Nat
  slice : Nat
  set : Nat
  way : Nat
  comp : Bool
  cls : Nat
  reg : Nat
  key : Nat
  secs : List CavSector
  used : Nat
  deriving DecidableEq, Repr

/-- A segment descriptor in force (R303, R304). -/
structure Seg where
  vbase : Nat
  pbase : Nat
  len : Nat
  node : Nat
  present : Bool
  target : Nat
  r : Bool
  w : Bool
  x : Bool
  hostCacheable : Bool
  enc : Bool
  part : Nat
  reg : Nat
  key : Nat
  deriving DecidableEq, Repr

/-- A wrapper request waiting (R298): its REQ_SEQ, instruction, channel, length. -/
structure WrapReq where
  seq : Nat
  instr : Nat
  channel : Nat
  len : Nat
  deriving DecidableEq, Repr

/-- A token bucket (R301): quarter bytes held at a time, sectors deferred then (R302). -/
structure Bucket where
  level : Nat
  at_ : Nat
  queue : Nat
  deriving DecidableEq, Repr

/-- What waits for a segment (R306): a thread of a block, a job, a task of a segmented multiply, a queue entry. -/
inductive Parker where
  | thread (block : Nat)
  | job (id : Nat)
  | task (job no : Nat)
  | entry (q idx : Nat)
  deriving DecidableEq, Repr

/-- A task parked on a segment (R306): context × 16 + segment, since when, the address it faulted at, the task. -/
structure Parked where
  key : Nat
  since : Nat
  addr : Nat
  who : Parker
  deriving DecidableEq, Repr

/-- Device memory (8, 9): DRAM bytes by device physical address, poisoned sectors, the key generations sectors are stored under (0 clear,
1 zero keys; log 56), the generation of each key slot's keys and the next to be drawn, Cavern lines, buckets by regulator × 256 + channel,
segments in force by context × 16 + number, tasks parked, moves of channels. `low` is the lowest limit a map-out has set, `lost` the channels
whose lines could not be read when they moved, with the channels mapped out then, `healed` the sectors written since (R290, R293, R296). -/
structure Memory where
  dram : SMap Byte
  epoch : Nat
  poison : List Nat
  keyTag : SMap Nat
  keyGen : SMap Nat
  keyNext : Nat
  cavern : List CavLine
  bucket : SMap Bucket
  seg : SMap Seg
  segPosted : List Nat
  parked : List Parked
  out : List Nat
  move : Option (Nat × Bool)
  moveQ : List (Nat × Bool)
  failedTest : List Nat
  wrap : SMap WrapReq
  low : Option Nat
  lost : List (Nat × List Nat)
  healed : List Nat
  deriving DecidableEq, Repr

/-- Census increments not yet applied (R63, R204): slot, NaNs, positive and negative infinities. -/
structure CensusInc where
  slot : Nat
  nans : Nat
  pinf : Nat
  ninf : Nat
  deriving DecidableEq, Repr

/-- A job in a unit's queue or running (R194): its unit ID, who asked, its parameters, where its token and completion go, the row,
chunk or step it goes on from, the census increments it holds (R204), the segment it is set aside for (R306), the host lines read
for it, or what an update job keeps of its checks (R332). -/
structure EngJob where
  id : Nat
  unit : Nat
  ctx : Nat
  origin : Origin
  job : Job
  acc : Bool
  token : Nat
  bollard : Option (Nat × Nat)
  start : Option (Nat × Nat)
  started : Bool
  stopping : Bool
  cursor : Nat
  census : List CensusInc
  parked : Option Nat
  got : List (Nat × Bool × List Byte)
  since : Nat
  deriving DecidableEq, Repr

/-- A task of a segmented multiply that has begun (R126 to R131): its number, its logical core, whether it is done, the segment it
is parked for (R306), the panels it has stored (R137), their census increments. -/
structure SegTask where
  no : Nat
  core : Option Nat
  done : Bool
  parked : Option Nat
  cursor : Nat
  census : List CensusInc
  deriving DecidableEq, Repr

/-- A segment of the manifest with its adapter descriptor, as the checks read them (R120; Tables 4.3, 4.5). -/
structure SegRun where
  row0 : Nat
  rows : Nat
  handle : Nat
  rank : Nat
  scaleExp : Int
  a : Nat
  aPitch : Nat
  b : Nat
  bPitch : Nat
  ga : Nat
  gaPitch : Nat
  gb : Nat
  gbPitch : Nat
  inDim : Nat
  outDim : Nat
  deriving DecidableEq, Repr

/-- A segmented multiply whose checks have passed (R123): its job, core list, runs, tasks begun or ended, next task. -/
structure SegMul where
  job : EngJob
  par : SegJob
  cores : List Nat
  runs : List SegRun
  tasks : List SegTask
  cancelled : Bool
  deriving DecidableEq, Repr

/-- Engines: jobs, segmented multiplies, engines and ferries out of service (unit IDs), and the census increments being held back while
an operation of a routine or a panel of a task is carried out (R204): none but within a command. -/
structure Engines where
  jobs : List EngJob
  seg : List SegMul
  down : List Nat
  hold : Option (List CensusInc)
  deriving DecidableEq, Repr

/-- The tide's state beside its registers (R348 to R355, R553): consecutive good beacons, consecutive outliers, offset still to
correct, ticks since the last slew tick, whether it runs at half rate, ACQUIRING entered from FREE, ticks since the last valid
beacon (of the active path, of A, of B), whether A and B have given one, ticks in HOLDOVER, units whose copy awaits renewal. -/
structure Tide where
  good : Nat
  outliers : Nat
  err : Int
  phase : Nat
  half : Bool
  fromFree : Bool
  since : Nat
  sinceA : Nat
  sinceB : Nat
  seenA : Bool
  seenB : Bool
  hold : Nat
  stale : List Nat
  deriving DecidableEq, Repr

/-- States of a sailing at its sender (R371, R373): an attempt under way or awaiting its LAND_ACK, cut and awaiting the end of its
lines, returned to WAITING, settled. -/
inductive SailState where
  | sailing | cutting | waiting | complete | aborted
  deriving DecidableEq, Repr

/-- A sailing of a ferry of this node (R356 to R375): ferry, entry, full cycle, attempt, cuts of R373, berth, node, context,
source address, lines in total and issued, the window's limit, ports of the attempt, state, reason, settlement bollard, the tide
count the last line left at, whether and since when (µs clock) its source segment is absent. -/
structure Sailing where
  f : Nat
  entry : Nat
  cycle : Nat
  attempt : Nat
  cuts : Nat
  berth : Nat
  node : Nat
  ctx : Nat
  src : Nat
  lines : Nat
  sent : Nat
  limit : Nat
  ports : List Nat
  st : SailState
  reason : Nat
  settle : Option Nat
  last : Nat
  segWait : Option (Nat × Nat)
  segStart : Nat
  deriving DecidableEq, Repr

/-- The name a receiver knows a sailing by (R374). -/
structure SailKey where
  node : Nat
  ferry : Nat
  entry : Nat
  cycleLo : Nat
  deriving DecidableEq, Repr

/-- A berth in force (R366 to R369, R374): its words, the sailing being received, the attempt expected of each sailing met and not
settled, the one settled last, lines landed, total lines, the limit granted, and the words of a write to word 1 that waits for the
pending sailing. -/
structure Berth where
  word0 : Nat
  word1 : Nat
  word2 : Nat
  word3 : Nat
  cur : Option SailKey
  met : List (SailKey × Nat)
  done : Option SailKey
  landed : Nat
  total : Nat
  limit : Nat
  later : Option (Nat × Nat × Nat × Nat)
  deriving DecidableEq, Repr

/-- A run that arrived ahead of its place (R404): its packet and lines, the port it came on, whether the reorder store holds it or, while
that has no room, still the port's receive buffer, and the link credits its slots then owe. -/
structure EarlyRun where
  p : Packet
  lines : List Line
  port : Nat
  stored : Bool
  owed : Nat
  deriving DecidableEq, Repr

/-- Sailings, the cycle and entry each ferry considers, the sailings held past LATE_LIMIT as ferry, entry and cycle (R359), berths in
force, the reorder store. -/
structure Sails where
  sailings : List Sailing
  cycle : SMap Nat
  entry : SMap Nat
  held : List (Nat × Nat × Nat)
  berth : SMap Berth
  reorder : List EarlyRun
  deriving DecidableEq, Repr

/-- A packet kept for resending, with its data lines, and the stream number c that chose its port (R402): none for sailing lines and
for responses on the port their request arrived on. -/
structure SentPkt where
  p : Packet
  lines : List Line
  stream : Option Nat
  deriving DecidableEq, Repr

/-- A header slot in the replay buffer (R388). -/
structure SentSlot where
  seq : Nat
  pkts : List SentPkt
  deriving DecidableEq, Repr

/-- What a port's link layer holds (R386, R388, R392 to R397): next header sequence sent and expected, replay buffer, packets that wait to
leave, consecutive NAKs, credits, the lane of the last slot, slots sent since a LINK slot, lanes it cannot carry, its own LANESETs that
wait for an answer (set, sequence), those of the peer that wait for that answer, the peer's changes still to apply (sequence, set), moving
lanes with their wavelengths, whether this end asked for a retrain and the ns it began. -/
structure PortState where
  tx : Nat
  rx : Nat
  replay : List SentSlot
  queue : List SentPkt
  naks : Nat
  credits : Nat
  lane : Nat
  quiet : Nat
  lanes : Nat
  pending : List (Nat × Nat)
  crossed : List (Nat × Nat)
  due : List (Nat × Nat)
  moving : List (Nat × Nat)
  asked : Bool
  since : Nat
  deriving DecidableEq, Repr

/-- A peer access outstanding (R406): tag, write, the line's node and offset, the thread's context, core and slot, the line request it
serves, the port it was sent on (R409), the launch of its thread (R227). -/
structure PeerReq where
  tag : Nat
  write : Bool
  node : Nat
  line : Nat
  ctx : Nat
  core : Nat
  slot : Nat
  req : Nat
  port : Nat
  launch : Nat
  deriving DecidableEq, Repr

/-- An ownership region in force (R399): its four words. -/
structure Region where
  word0 : Nat
  word1 : Nat
  word2 : Nat
  word3 : Nat
  deriving DecidableEq, Repr

/-- The fabric: ports, regions in force, peer accesses outstanding, next tag, spare emitters that retune to
replace a worn one (R382). -/
structure Fabric where
  port : SMap PortState
  region : SMap Region
  reqs : List PeerReq
  nextTag : Nat
  retune : List (Nat × Nat)
  held : List SentPkt
  deriving DecidableEq, Repr

/-- The retained bank (Table 14.8): the RB_* and WEAR_* register words, emitter lit hours and beginning-of-life bias, the
spare-assignment map with its exceptions from R24, regulator phases in use of the spare, the active tide path, the mapped-out
set, soft row repairs, lane and emitter maps and the fault history, newest first. -/
structure Bank where
  regs : RegStore
  lit : SMap Nat
  bol : SMap Nat
  coreMap : SMap (Option Nat)
  sliceMap : SMap (Option Nat)
  dpuMap : SMap Nat
  phases : SMap Nat
  path : Nat
  out : List Nat
  soft : SMap Nat
  lanes : SMap Nat
  emap : SMap Nat
  hist : List SumpRec
  deriving DecidableEq, Repr

/-- The CONFIG section of the running image (Table 14.5), with its header's BUILD and SEC_VERSION. -/
structure ImageCfg where
  node : Nat
  source : Nat
  portA : Nat
  portB : Nat
  hashKey : Nat
  cavFlags : Nat
  maxMapout : Nat
  degraded : Nat
  wearLimit : Nat
  ceLimit : Nat
  ueLimit : Nat
  disruptive : List Nat
  build : Nat
  secVersion : Nat
  deriving DecidableEq, Repr

/-- Firmware-update states of DSP0267 (R477). -/
inductive FwState where
  | idle | learn | ready | download | verify | apply | activate
  deriving DecidableEq, Repr

/-- Start-up (14) and the board inputs (17). -/
structure Boot where
  vinGood : Bool
  perst : Bool
  standby : Bool
  img : Option Nat
  cfg : Option ImageCfg
  latched : SMap Nat
  ramped : List Nat
  offAt : List Nat
  bistDone : Bool
  hbmDone : Bool
  otpMin : Nat
  otpRevoked : List Nat
  flash : SMap Byte
  mirror : SMap Bank
  mirrorNext : Nat
  fw : FwState
  fwSlot : Nat
  fwGot : Nat
  eff : Nat
  dyn : Option Nat
  deriving DecidableEq, Repr

/-- Writes to a register whose unit is in an OFF domain (R30): the register's word before the first of them, and the values written,
oldest first; they take effect as the domain returns to ON. -/
structure LateWrite where
  reg : RegId
  i : Nat
  old : Nat
  vals : List Nat
  deriving DecidableEq, Repr

/-- A power command taken and not answered (R482): waiting for its count, or started. Domain 40 is the P-state's. -/
structure PwrCmd where
  target : Nat
  seq : Nat
  event : Nat
  evEn : Bool
  at_ : Nat
  started : Bool
  deriving DecidableEq, Repr

/-- Power (15): commands, the wake queue and charge windows, tries of a latched wake, values of the
POWER section, per-context energy residues in fJ, phases lost beyond the spare, the device-fatal events taken since the start, a bit
each (R494, R497), writes that wait for an OFF domain. -/
structure Power where
  cmd : SMap PwrCmd
  wakeQ : List Nat
  win : List Nat
  ramping : List Nat
  tries : SMap Nat
  spans : List Nat
  idle : List Nat
  residue : SMap Nat
  unattr : Nat
  lost : SMap Nat
  fatals : Nat
  late : List LateWrite
  deriving DecidableEq, Repr

/-- A swap or in-field test in progress (R514): its unit, the FT operation, the spare chosen, the REQ_SEQ where FT_CMD asked. -/
structure Swap where
  unit : Nat
  op : Nat
  spare : Option Nat
  seq : Option Nat
  step : Nat
  deriving DecidableEq, Repr

/-- Faults, spares and test (16). `unit` holds the units that are DRAINING 2, TESTING 3, FAILED 4 or BYPASSED 5. -/
structure FaultState where
  hold : List SumpRec
  seq : Nat
  unit : SMap Nat
  swaps : List Swap
  lastCheck : SMap Nat
  parity : SMap (List Nat)
  ce : SMap (List Nat)
  ue : SMap (List Nat)
  lanesUsed : SMap Nat
  d2dOut : List Nat
  untested : List Nat
  therm : Bool
  waiting : List Nat
  deriving DecidableEq, Repr

/-- The block: everything spec/ gives it, and the queue of waiting commands. -/
structure State where
  pending : List Instr
  regs : RegStore
  acc : SplitAccess
  mem : Memory
  hl : HostLink
  obj : Objects
  run : Running
  core : Cores
  eng : Engines
  tide : Tide
  sail : Sails
  fab : Fabric
  pwr : Power
  boot : Boot
  bank : Bank
  flt : FaultState
  free : Nat
  ns : Nat
  out : Outputs
  deriving DecidableEq, Repr

/-- Why a step stops. -/
inductive Fault where
  /-- A command names a unit, register index or slot that the part does not have: ill-formed, no such event can happen. Raised by
  the checks at the head of the meanings; safe. -/
  | noSuchUnit
  deriving DecidableEq, Repr

/-- Why a step is refused. -/
inductive Refusal where
  /-- The command has no meaning yet. Raised by Dispatch only; safe. -/
  | notModelled (mnemonic : String)
  deriving DecidableEq, Repr

/-- What a meaning answers. -/
abbrev Out := Host.Outcome State Fault Refusal

/-- A retained bank as R476 initialises it: the default maps, an empty mapped-out set, zero wear counters, PREFERRED A. Log 6. -/
def Bank.default : Bank where
  regs := []
  lit := []
  bol := []
  coreMap := []
  sliceMap := []
  dpuMap := []
  phases := []
  path := 0
  out := []
  soft := []
  lanes := []
  emap := []
  hist := []

/-- The block right after a cold reset with standby power applied (R10): registers at their reset values, stage 0, nothing
placed, no image in the flash. What the spec gives no value is named in logs 6 and 7. -/
def State.reset : State where
  pending := []
  regs := []
  acc := ⟨[], []⟩
  mem := ⟨[], 0, [], [], [], 2, [], [], [], [], [], [], none, [], [], [], none, [], []⟩
  hl := ⟨.lx9, [], false, false, false, false, false, [], [], [], [], []⟩
  obj := ⟨[], [], [], 1⟩
  run := ⟨[], [], [], [], [], []⟩
  core := ⟨[], [], [], [], [], [], [], [], [], [], [], []⟩
  eng := ⟨[], [], [], none⟩
  tide := ⟨0, 0, 0, 0, false, false, 0, 0, 0, false, false, 0, []⟩
  sail := ⟨[], [], [], [], [], []⟩
  fab := ⟨[], [], [], 0, [], []⟩
  pwr := ⟨[], [], [], [], [], [800000, 120000, 130000], [620, 590, 565, 520], [], 0, [], 0, []⟩
  boot := ⟨false, true, true, none, none, [], [], [], false, false, 0, [], [], [], 0, .idle, 1, 0, 1, none⟩
  bank := Bank.default
  flt := ⟨[], 0, [], [], [], [], [], [], [], [], [], false, []⟩
  free := 0
  ns := 0
  out := ⟨[], [], [], [], [], [], [], []⟩


end Sys2Proof.Machine
end

