-- ==== Sys2Proof/Machine/Ops.lean ====
section
/-! DEFINITION. The named operations over the block's registers and stores that the meanings share. -/

namespace Sys2Proof.Machine

/-- An answer that the command has taken effect. -/
abbrev ok (s : State) : Out := .next s

/-- A command about a unit or slot the part does not have is ill-formed (log 3). -/
def within (b : Bool) (s : State) : Out := if b then .next s else .fault .noSuchUnit

/-- Registers held in the retained bank (access RB throughout, Table 0.4). -/
def RegId.inBank (r : RegId) : Bool :=
  match r with
  | .rbStatus => true | .rbBoot => true | .rbSoftstartSticky => true | .wearCore => true | .wearSlice => true
  | _ => false

/-- Word `w` of register instance (i, j): the one read of register storage. -/
def State.word (s : State) (r : RegId) (i j w : Nat) : Nat :=
  if r.inBank then (regGet s.bank.regs 0 ⟨r, i, j, w⟩).toNat
  else (regGet s.regs (BitVec.ofNat 64 (r.resetWord i w)) ⟨r, i, j, w⟩).toNat

/-- The one write of register storage. -/
def State.setWord (s : State) (r : RegId) (i j w v : Nat) : State :=
  if r.inBank then { s with bank := { s.bank with regs := regSet s.bank.regs 0 ⟨r, i, j, w⟩ (BitVec.ofNat 64 v) } }
  else { s with regs := regSet s.regs (BitVec.ofNat 64 (r.resetWord i w)) ⟨r, i, j, w⟩ (BitVec.ofNat 64 v) }

/-- Where word `w` of register instance (i, j) stands in BAR0. -/
def RegId.offset (r : RegId) (i j w : Nat) : Nat := r.desc.base + i * r.desc.s1 + j * r.desc.s2 + 8 * w

/-- A 64-bit write of a register's word drops the lower half held (R16). -/
def wideWrite (s : State) (r : RegId) (i : Nat := 0) (j : Nat := 0) (w : Nat := 0) : State :=
  { s with acc := { s.acc with held := smapErase s.acc.held (r.offset i j w) } }

/-- A host write to BAR0: answered with Unsupported Request, and discarded, in D3hot (R454). -/
def bar0 (s t : State) : Host.Outcome State Fault Refusal := .next (if s.hl.d3 then s else t)

/-- A field of register instance (i, j). -/
def State.get (s : State) (f : Fld) (i : Nat := 0) (j : Nat := 0) : Nat :=
  bitsOf (s.word f.reg i j (f.lo / 64)) (f.hi % 64) (f.lo % 64)

/-- The state with a field of register instance (i, j) set, its other bits unchanged. -/
def State.put (s : State) (f : Fld) (v : Nat) (i : Nat := 0) (j : Nat := 0) : State :=
  s.setWord f.reg i j (f.lo / 64) (withBits (s.word f.reg i j (f.lo / 64)) (f.hi % 64) (f.lo % 64) v)

/-- A one-bit field. -/
def State.isSet (s : State) (f : Fld) (i : Nat := 0) (j : Nat := 0) : Bool := s.get f i j == 1

/-- A counter field increased, wrapping at its width (R19). -/
def State.bump (s : State) (f : Fld) (n : Nat := 1) (i : Nat := 0) (j : Nat := 0) : State := s.put f (s.get f i j + n) i j

/-- A counter field increased, saturating at its width. -/
def State.bumpSat (s : State) (f : Fld) (n : Nat := 1) (i : Nat := 0) (j : Nat := 0) : State :=
  s.put f (min (s.get f i j + n) (2 ^ (f.hi - f.lo + 1) - 1)) i j

/-- Bit `k` of a field set. -/
def State.orBit (s : State) (f : Fld) (k : Nat) (i : Nat := 0) (j : Nat := 0) : State :=
  s.put f (s.get f i j ||| 2 ^ k) i j

/-- Bit `k` of a field cleared. -/
def State.clrBit (s : State) (f : Fld) (k : Nat) (i : Nat := 0) (j : Nat := 0) : State :=
  s.put f (if (s.get f i j).testBit k then s.get f i j - 2 ^ k else s.get f i j) i j

/-- Unit IDs of Table 1.5. -/
def unitId (kind inst : Nat) : Nat := kind * 4096 + inst
def noUnit : Nat := 0xFFFF
def domainUnit (d : Nat) : Nat := unitId 0xC (d * 16 + 15)

/-- The count of the tide. -/
def State.tideNow (s : State) : Nat := s.get F.tideCount_COUNT

/-- Whether the function runs (HOST_STATUS READY). -/
def State.ready (s : State) : Bool := s.isSet F.hostStatus_READY

/-- Whether upstream requests may be issued: bus mastering enabled, function in D0 (R449, R454). -/
def State.upstream (s : State) : Bool := s.isSet F.hostStatus_BME && !s.hl.d3 && !s.hl.held

/-- A free value: the counter it is drawn at, and the state with the counter advanced (log 12). -/
def State.drawFree (s : State) : Nat × State := (s.free, { s with free := s.free + 1 })

/-- The physical core that fills a logical core, where the position is in service. -/
def State.physCore (s : State) (c : Nat) : Option Nat :=
  if s.isSet F.idCoreMap_VALID c then some (s.get F.idCoreMap_PHYS_CORE c) else none

/-- The logical core a physical core fills. -/
def State.logCore (s : State) (p : Nat) : Option Nat :=
  (List.range 15).map (fun k => 15 * (p / 16) + k) |>.find? (fun c => s.physCore c == some p)

/-- The logical slice a physical slice fills. -/
def State.logSlice (s : State) (p : Nat) : Option Nat :=
  (List.range 64).map (fun k => 64 * (p / 68) + k) |>.find?
    (fun n => s.isSet F.idSliceMap_VALID n && s.get F.idSliceMap_PHYS_SLICE n == p)

/-- The tile of a logical core, and its gallery. -/
def tileOfCore (c : Nat) : Nat := c / 60
def galleryOfCore (c : Nat) : Nat := c / 15

/-- The power domain of gallery g, of tile t's Cavern and of tile t's engines (Table 1.4). -/
def domOfGallery (g : Nat) : Nat := 6 * (g / 4) + g % 4
def domOfCavern (t : Nat) : Nat := 6 * t + 4
def domOfEngines (t : Nat) : Nat := 6 * t + 5

/-- The state reached by a domain: 0 ON, 1 CLOCK-GATED, 2 RETAIN, 3 OFF (Table 15.5). -/
def State.domState (s : State) (d : Nat) : Nat := s.get F.pwrDomStatus_STATE d

/-- The domain of the unit that a register controls, where a write sets the unit to work (R30). -/
def RegId.unitDomain (r : RegId) (i : Nat) : Option Nat :=
  match r with
  | .ferryCtrl => some (domOfEngines (i / 8))
  | .ferryAbort => some (domOfEngines (i / 8))
  | .fabPortCtrl => some (32 + i / 4)
  | .dramChanCtrl => some (24 + i / 32)
  | _ => none

/-- Whether that unit's domain is OFF, so that the write takes effect as it returns to ON (R30). -/
def State.unitOff (s : State) (r : RegId) (i : Nat) : Bool := (r.unitDomain i).any (fun d => s.domState d == 3)

/-- Whether a domain is powered. -/
def State.domOn (s : State) (d : Nat) : Bool := decide (s.domState d < 2)

/-- Clocks of a gated domain restarted by a demand (R481, Table 15.2). -/
def State.restart (s : State) (d : Nat) : State := if s.isSet F.pwrDomStatus_GATED d then s.put F.pwrDomStatus_GATED 0 d else s

/-- A command that takes the domain to OFF has started (Table 15.6). -/
def State.leaving (s : State) (d : Nat) : Bool := (s.pwr.cmd.find? (fun p => p.1 == d)).any (fun p => p.2.started && p.2.target == 3)

/-- A unit's tile (Table 1.5 kinds 0x7 to 0xA). -/
def tileOfUnit (u : Nat) : Nat :=
  match u / 4096 with
  | 0x7 => u % 4096 / 8 | 0x8 => u % 4096 / 8 | 0x9 => u % 4096 / 2 | 0xA => u % 4096 / 2 | _ => 0

/-- Where ENG_STATUS, ENG_BYTES and the gate and drop counters hold a tender, update engine or dispatch engine (R347). -/
def engIndex (u : Nat) : Nat :=
  match u / 4096 with
  | 0x8 => u % 4096 | 0x9 => 32 + u % 4096 | 0xA => 40 + u % 4096 | _ => 0

/-- A list element replaced wherever a test holds. -/
def updWhere {α : Type} (l : List α) (p : α → Bool) (f : α → α) : List α := l.map (fun x => if p x then f x else x)

/-- A value under a key of a table of records changed, where it is listed. -/
def smapMod {α : Type} (m : SMap α) (a : Nat) (f : α → α) : SMap α := m.map (fun kv => if kv.1 = a then (kv.1, f kv.2) else kv)

/-- What a context holds of commands in the background. -/
def State.ctxRec (s : State) (c : Nat) : CtxRec := smapGet s.obj.ctx ⟨[], [], none, 0, false⟩ c

def State.setCtxRec (s : State) (c : Nat) (r : CtxRec) : State :=
  { s with obj := { s.obj with ctx := smapSet s.obj.ctx ⟨[], [], none, 0, false⟩ c r } }

/-- A context's state (Table 13.12): 0 FREE, 1 ACTIVE, 2 SUSPENDED, 3 ENDED, 4 TEARDOWN. -/
def State.ctxState (s : State) (c : Nat) : Nat := s.get F.ctxState_STATE c

/-- Whether a context's threads may issue: ACTIVE and no suspend in progress (R429). -/
def State.ctxRuns (s : State) (c : Nat) : Bool := s.ctxState c == 1 && !s.isSet F.ctxState_SUSPENDING c

end Sys2Proof.Machine
end

