-- ==== Sys2Proof/Machine/Flags.lean ====
section
/-! DEFINITION. What is signalled and recorded: posted writes, MSI-X messages, events (13), Sump records (16), census counts (2),
the retained bank's history. -/

namespace Sys2Proof.Machine

/-- A posted write to host memory (R237). Nothing is issued while upstream requests are not allowed (R449). -/
def hostWrite (s : State) (addr : Nat) (bytes : List Byte) (poisoned : Bool := false) : State :=
  if s.upstream then { s with out := { s.out with posted := s.out.posted ++ [⟨addr, bytes, poisoned⟩] } } else s

/-- Word `w` (0 or 1) of a vector's MSI-X table entry; its mask bit resets to 1 (PRESUMED PCIe, log 6). -/
def msixWord (s : State) (v w : Nat) : Nat := (smapGet s.hl.msix (if w = 1 then 0x100000000 else 0) (2 * v + w)).toNat

/-- The MSI-X message of a vector under the table's mask and pending bit (R440, R411): sent, or left pending. -/
def msixSend (s : State) (v : Nat) : State :=
  if s.upstream && !(msixWord s v 1).testBit 32 then
    { s with out := { s.out with msgs := s.out.msgs ++ [(msixWord s v 0, msixWord s v 1 % 2 ^ 32)] },
             hl := { s.hl with pba := setErase s.hl.pba v } }
  else { s with hl := { s.hl with pba := setInsert s.hl.pba v } }

/-- Pending messages sent as they become allowed (R450). -/
def msixFlush (s : State) : State := s.hl.pba.foldl msixSend s

/-- A signal to event slot `n` (R440). -/
def signal (s : State) (n : Nat) : State :=
  let s := s.bump F.evt_COUNT 1 n
  if s.isSet F.evt_PENDING n then s
  else
    let s := s.put F.evt_PENDING 1 n
    if s.isSet F.evt_ENABLE n then msixSend s (s.get F.evt_VECTOR n) else s

/-- A signal where it is enabled. -/
def signalIf (s : State) (en : Bool) (n : Nat) : State := if en then signal s n else s

/-- The event of an accepted command's ARG3 (R419). -/
def signalArg3 (s : State) (arg3 : Nat) : State := signalIf s (arg3.testBit 16) (arg3 % 65536)

/-- The 32 bytes of a Sump record (Table 16.2). -/
def SumpRec.bytes (r : SumpRec) : List Byte :=
  leBytes 8 r.tide ++ leBytes 2 r.unit
    ++ leBytes 2 (match r.ctx with | none => 0x1FFF | some c => c % 4096)
    ++ leBytes 1 r.cls ++ leBytes 1 r.flags ++ leBytes 2 r.code ++ leBytes 8 r.extra ++ leBytes 4 r.seq
    ++ leBytes 1 1 ++ leBytes 3 0

/-- Records the Sump ring holds. -/
def sumpSize (s : State) : Nat := 2 ^ (s.get F.sumpRing_SIZE_LOG2 + 6)

/-- Whether a record may be written to the ring now (R443). -/
def sumpWritable (s : State) : Bool :=
  s.isSet F.sumpRing_ENABLE && s.upstream
    && decide ((s.get F.sumpTail_TAIL + 2 ^ 32 - s.get F.sumpHead_HEAD) % 2 ^ 32 < sumpSize s)

/-- One record written to the ring, TAIL advanced and announced (R443, R444). -/
def sumpWrite (s : State) (r : SumpRec) : State :=
  let t := s.get F.sumpTail_TAIL
  let s := hostWrite s (s.get F.sumpRing_BASE * 4096 + 32 * (t % sumpSize s)) r.bytes
  let s := s.bump F.sumpTail_TAIL
  let s := if s.isSet F.sumpCtrl_WB_EN then hostWrite s (s.get F.sumpCtrl_WB_ADDR * 8) (leBytes 8 (s.get F.sumpTail_TAIL)) else s
  signalIf s (s.isSet F.sumpCtrl_EVENT_EN) (s.get F.sumpHold_EVENT)

def setHold (s : State) (h : List SumpRec) : State :=
  { s with flt := { s.flt with hold := h } }.put F.sumpHold_HELD h.length

/-- The hold store with the newest record that is not device-fatal taken out. -/
def dropNewest : List SumpRec → List SumpRec
  | [] => []
  | r :: rs => if rs.any (fun x => x.cls != 3) then r :: dropNewest rs else if r.cls != 3 then rs else r :: rs

/-- A record joins the hold store, or is dropped when it is full (R443). -/
def sumpHold (s : State) (r : SumpRec) : State :=
  let r := { r with flags := r.flags ||| 2 }
  if s.flt.hold.length < 1024 then setHold s (s.flt.hold ++ [r])
  else
    let s := (s.put F.sumpHold_OVERFLOW 1).bumpSat F.sumpHold_LOST
    if r.cls = 3 && s.flt.hold.any (fun x => x.cls != 3) then setHold s (dropNewest s.flt.hold ++ [r]) else s

/-- Held records written to the ring as space returns, oldest first. -/
def sumpDrainN : Nat → State → State
  | 0, s => s
  | n + 1, s =>
    match s.flt.hold with
    | [] => s
    | r :: rs => if sumpWritable s then sumpDrainN n (sumpWrite (setHold s rs) r) else s

def sumpDrain (s : State) : State := sumpDrainN s.flt.hold.length s

/-- A record to the ring, or to the hold store behind those that wait. -/
def sumpDeliver (s : State) (r : SumpRec) : State :=
  if s.flt.hold.isEmpty && sumpWritable s then sumpWrite s r else sumpHold s r

/-- A change to the retained bank is one step with a new sequence number (R471). -/
def bankChange (s : State) : State := s.bump F.rbStatus_SEQUENCE

/-- A record at the head of the fault history, 256 kept (Table 14.8). -/
def histAdd (s : State) (r : SumpRec) : State :=
  bankChange { s with bank := { s.bank with hist := (r :: s.bank.hist).take 256 } }

/-- Whether a record is copied to the fault history (Table 14.8). -/
def inHistory (cls code : Nat) : Bool :=
  cls == 2 || cls == 3 || (decide (0x0E01 ≤ code) && decide (code ≤ 0x0E06))

/-- The bit of FAULT_STATUS that a class sets (R505, Table 16.4). -/
def classBit (cls : Nat) : Fld :=
  match cls with
  | 0 => F.faultStatus_CORRECTED | 1 => F.faultStatus_CONTAINED | 2 => F.faultStatus_SPARED | _ => F.faultStatus_FATAL

/-- The record the block forms now (R502, R505). -/
def newRecord (s : State) (unit : Nat) (ctx : Option Nat) (cls code extra : Nat) : SumpRec where
  tide := s.tideNow
  unit := unit
  ctx := ctx
  cls := cls
  flags := (if s.isSet F.tideLock_VALID then 1 else 0) + (if s.get F.lkBootStatus_STAGE = 6 then 0 else 4)
  code := code
  extra := extra % 2 ^ 64
  seq := (s.flt.seq + 1) % 2 ^ 32

/-- Numbering and counting a record, and its copy in the fault history (R505). -/
def countRecord (s : State) (r : SumpRec) : State :=
  let s := { s with flt := { s.flt with seq := r.seq } }
  let s := (s.bump F.faultCount_COUNT 1 r.cls).put (classBit r.cls) 1
  let s := if r.cls = 3 && s.get F.faultStatus_FATAL_CODE = 0 then s.put F.faultStatus_FATAL_CODE r.code else s
  if inHistory r.cls r.code then histAdd s r else s

/-- Posting record 0x0D04, once per setting of OVERFLOW (Table 13.33); it takes its own number and may itself be dropped. -/
def postOverflow (s : State) : State :=
  let r := newRecord s noUnit none 0 0x0D04 (s.get F.sumpHold_LOST)
  sumpDeliver (countRecord s r) r

/-- Posting a Sump record (R502 to R505, R443). -/
def post (s : State) (unit : Nat) (ctx : Option Nat) (cls code extra : Nat) : State :=
  let r := newRecord s unit ctx cls code extra
  let was := s.isSet F.sumpHold_OVERFLOW
  let s := sumpDeliver (countRecord s r) r
  if !was && s.isSet F.sumpHold_OVERFLOW then postOverflow s else s

/-- EXTRA of two items without positions (R503). -/
def extra2 (a b : Nat) : Nat := a % 2 ^ 32 + (b % 2 ^ 32) * 2 ^ 32

/-- The times of events of a unit within the last hour of the block's clock (log 11), with now among them. -/
def hourAdd (s : State) (m : SMap (List Nat)) (u : Nat) : SMap (List Nat) :=
  smapInsert m u ((smapGet m [] u).filter (fun t => decide (s.ns < t + 3600000000000)) ++ [s.ns])

/-- How many there are. -/
def hourCount (m : SMap (List Nat)) (u : Nat) : Nat := (smapGet m [] u).length

/-- SPARE_LOW or UNIT_LOST set, with its event as it sets (Table 16.4b). -/
def spareFlag (s : State) (f : Fld) : State :=
  if s.isSet f then s else signalIf (s.put f 1) (s.isSet F.faultCtrl_SPARE_EVENT_EN) (s.get F.faultCtrl_EVENT)

/-- A spare pool has become empty (R514). -/
def spareEmpty (s : State) (unit : Nat) : State := spareFlag (post s unit none 0 0x1041 0) F.faultStatus_SPARE_LOW

end Sys2Proof.Machine
end

