-- ==== Sys2Proof/Machine/Operands.lean ====
section
/-! DEFINITION. A thread's operands: registers through the register caches (R171 to R176), fragments and slots (R157 to R162),
tokens (R190 to R196). -/

namespace Sys2Proof.Machine

/-- The slot's key in the tables of slots and register caches. -/
def slotKey (core slot : Nat) : Nat := core * 128 + slot

/-- The key of a main-file word (R171). -/
def rfKey (core slot reg lane : Nat) : Nat := (slotKey core slot * 64 + reg % 64) * 32 + lane

/-- The cache row of a register in a slot. -/
def rcFind (s : State) (core slot reg : Nat) : Option RcRow :=
  (smapGet s.core.rc [] (slotKey core slot)).find? (fun r => r.reg == reg)

/-- A register of one lane: from the cache when its row holds the lane, from the main file otherwise (R172). -/
def regRead (s : State) (core slot reg lane : Nat) : W32 :=
  match (rcFind s core slot reg).bind (fun r => smapFind r.lanes lane) with
  | some v => v
  | none => smapGet s.core.rf 0 (rfKey core slot reg lane)

def setRc (s : State) (core slot : Nat) (rows : List RcRow) : State :=
  { s with core := { s.core with rc := smapSet s.core.rc [] (slotKey core slot) rows } }

/-- A row written back to the main file. -/
def writeBackRow (s : State) (core slot : Nat) (r : RcRow) : State :=
  { s with core := { s.core with
      rf := r.lanes.foldl (fun m lv => smapSet m 0 (rfKey core slot r.reg lv.1) lv.2) s.core.rf } }

/-- The entry to replace, by R173: a dead one, else the least recently used clean one, else the least recently used. The rows
stand most recently used first. -/
def rcVictim (rows : List RcRow) : Option RcRow :=
  let rev := rows.reverse
  match rev.find? (fun r => r.dead) with
  | some r => some r
  | none =>
    match rev.find? (fun r => !r.dirty) with
    | some r => some r
    | none => rev.head?

/-- A row placed in the cache as the most recently used, an entry replaced when all 8 are in use (R172, R173). -/
def rcPlace (s : State) (core slot : Nat) (row : RcRow) : State :=
  let rows := (smapGet s.core.rc [] (slotKey core slot)).filter (fun r => r.reg != row.reg)
  if rows.length < 8 then setRc s core slot (row :: rows)
  else
    match rcVictim rows with
    | none => s
    | some v =>
      let s := if v.dirty && !v.dead then writeBackRow s core slot v else s
      setRc s core slot (row :: rows.filter (fun r => r.reg != v.reg))

/-- What an instruction's read of a source does to the cache: recency, placement when marked for reuse, the dead mark (R173). -/
def regTouch (s : State) (core slot : Nat) (src : Src) : State :=
  match rcFind s core slot src.reg with
  | some r => rcPlace s core slot { r with dead := r.dead || src.dead }
  | none =>
    if src.reuse then
      rcPlace s core slot ⟨src.reg, tabulate 32 (fun l => (l, smapGet s.core.rf 0 (rfKey core slot src.reg l))), false, src.dead⟩
    else s

/-- A result written for the lanes of a mask: into the cache, dirty (R172). -/
def regWrite (s : State) (core slot reg mask : Nat) (f : Nat → W32) : State :=
  let old : RcRow := (rcFind s core slot reg).getD ⟨reg % 64, [], true, false⟩
  let lanes := (List.range 32).foldl (fun m l => if mask.testBit l then smapInsert m l (f l) else m) old.lanes
  rcPlace s core slot { old with lanes := lanes, dirty := true, dead := false }

/-- A 64-bit result in a pair of registers. -/
def regWrite64 (s : State) (core slot reg mask : Nat) (f : Nat → Nat) : State :=
  regWrite (regWrite s core slot reg mask (fun l => BitVec.ofNat 32 (f l))) core slot (reg + 1) mask
    (fun l => BitVec.ofNat 32 (f l / 2 ^ 32))

/-- The slot's record. -/
def slotRec (s : State) (core slot : Nat) : Option SlotRec := smapFind s.run.slots (slotKey core slot)

def setSlot (s : State) (core slot : Nat) (r : SlotRec) : State :=
  { s with run := { s.run with slots := smapInsert s.run.slots (slotKey core slot) r } }

/-- The fragment that holds a lane (R157). -/
def fragOf (r : SlotRec) (lane : Nat) : Option Frag := r.frags.find? (fun f => f.mask.testBit lane)

/-- Fragments with the same program counter that wait for nothing, merged (R159). -/
def mergeFrags : List Frag → List Frag
  | [] => []
  | f :: fs =>
    let rest := mergeFrags fs
    match rest.find? (fun g => g.pc == f.pc && g.wait == .none && f.wait == .none) with
    | none => f :: rest
    | some g =>
      { f with mask := f.mask ||| g.mask, active := f.active || g.active, age := min f.age g.age }
        :: rest.filter (fun h => h != g)

/-- Active fragments of a slot. -/
def activeCount (fs : List Frag) : Nat := (fs.filter (fun f => f.active)).length

/-- Whether a parked fragment may be made active: not waiting at a join, barrier, token or bollard (R161), nor parked for its
segment (R306). -/
def FragWait.mayTurn : FragWait → Bool
  | .none => true
  | .line _ => true
  | _ => false

/-- The parked fragment that has waited longest of those that may be made active (R161). -/
def longestParked (fs : List Frag) : Option Frag :=
  (fs.filter (fun f => !f.active && f.wait.mayTurn)).foldl
    (fun b f => match b with | none => some f | some g => if f.age < g.age then some f else some g) none

/-- Parked fragments made active while the slot has fewer than 4 active (R157, R158). -/
def promote : Nat → Nat → List Frag → List Frag
  | 0, _, fs => fs
  | n + 1, now, fs =>
    if activeCount fs < 4 then
      match longestParked fs with
      | none => fs
      | some f => promote n now (updWhere fs (fun g => g == f) (fun g => { g with active := true, age := now }))
    else fs

/-- A slot's fragments brought to rule: merged, and active places filled. -/
def settleFrags (now : Nat) (fs : List Frag) : List Frag := promote 4 now (mergeFrags (fs.filter (fun f => f.mask != 0)))

/-- The fragment of a lane changed, and the slot settled. -/
def updFrag (s : State) (core slot lane : Nat) (g : Frag → Frag) : State :=
  match slotRec s core slot with
  | none => s
  | some r => setSlot s core slot { r with frags := settleFrags s.ns (updWhere r.frags (fun f => f.mask.testBit lane) g) }

/-- Every fragment of every slot changed. -/
def updFrags (s : State) (g : Nat → SlotRec → Frag → Frag) : State :=
  let f (kr : Nat × SlotRec) : Nat × SlotRec := (kr.1, { kr.2 with frags := settleFrags s.ns (kr.2.frags.map (g kr.1 kr.2)) })
  { s with run := { s.run with slots := s.run.slots.map f } }

def blockRec (s : State) (id : Nat) : Option BlockRec := s.run.blocks.find? (fun b => b.id == id)
def launchRec (s : State) (id : Nat) : Option Launch := s.run.launches.find? (fun l => l.id == id)
def updBlock (s : State) (id : Nat) (f : BlockRec → BlockRec) : State :=
  { s with run := { s.run with blocks := updWhere s.run.blocks (fun b => b.id == id) f } }
def updLaunch (s : State) (id : Nat) (f : Launch → Launch) : State :=
  { s with run := { s.run with launches := updWhere s.run.launches (fun l => l.id == id) f } }

/-- RESIDENT_BLOCKS and SLOTS_USED of a core shown (Table 5.5). -/
def showCore (s : State) (core : Nat) : State :=
  let bs := s.run.blocks.filter (fun b => b.core == core)
  (s.put F.coreBinding_RESIDENT_BLOCKS bs.length core).put F.coreBinding_SLOTS_USED (bs.flatMap (fun b => b.slots)).length core

/-- The token entry of a block (R190). -/
def token (b : BlockRec) (e : Nat) : Token := nthD b.tokens e ⟨true, 0⟩

/-- Whether a captured wait list is satisfied (R192). -/
def waitsMet (b : BlockRec) (ws : List (Nat × Nat)) : Bool :=
  ws.all (fun w => (token b w.1).done || (token b w.1).gen != w.2)

/-- A wait list with the generations of this moment. -/
def capture (b : BlockRec) (es : List Nat) : List (Nat × Nat) := es.map (fun e => (e, (token b e).gen))

/-- Whether a block may put one more operation in its core's buffer (R193). -/
def bufferRoom (s : State) (b : BlockRec) : Bool :=
  decide ((s.run.ops.filter (fun o => o.core == b.core)).length < 32)
    && decide ((s.run.ops.filter (fun o => o.block == b.id)).length < 16)

/-- The name of a line request (log 18): the line's address, its target, the cache it fills (3 the Grotto). -/
def lineKey (addr tgt kind : Nat) : Nat := (addr * 4 + tgt) * 4 + kind
def keyAddr (k : Nat) : Nat := k / 16
def keyTgt (k : Nat) : Nat := k / 4 % 4
def keyKind (k : Nat) : Nat := k % 4

/-- Requests of a core that fill cache `kind` shut: later loads take nothing of what they return (R218, R220, R242). A read of the host or
of a peer is performed once it has been sent; a line of the device or of the host-line store is read as it arrives, so those stay open. -/
def shutReqs (s : State) (core kind : Nat) (p : Nat → Bool := fun _ => true) : State :=
  let sent (k : Nat) : Bool := keyKind k == kind && (keyTgt k == 1 || keyTgt k == 2)
  { s with core := { s.core with lreq := updWhere s.core.lreq (fun l => l.core == core && sent l.key && p l.key) (fun l => { l with shut := true }) } }

/-- An acquire at DEVICE or SYSTEM scope: every byte of the core's Grotto cache that it has not written since the fill or the
last write-back is invalid, and no later load takes what a read sent before it returns (R220). -/
def acquireWide (s : State) (core : Nat) : State :=
  let s := shutReqs s core 3
  let keep (l : GrottoLine) : GrottoLine :=
    if l.core = core then { l with bytes := l.bytes.filter (fun kv => l.dirty.contains kv.1) } else l
  let gl := (s.core.gl.map keep).filter (fun l => l.core != core || !l.bytes.isEmpty)
  { s with core := { s.core with gl := gl } }

/-- Whether a waiting fragment of a block may go on: its tokens done, its entry free, room in the buffer. An exit's wait ends with
the block. -/
def tokenWake (s : State) (b : BlockRec) (w : FragWait) : Bool :=
  match w with
  | .token ws _ => waitsMet b ws
  | .entry own _ => (token b own).done
  | .space _ _ => bufferRoom s b
  | _ => false

/-- Waiting threads of a block go on where R191 to R196 allow; a satisfied token wait is an acquire at device scope (R195). -/
def wakeBlock (s : State) (id : Nat) : State :=
  match blockRec s id with
  | none => s
  | some b =>
    let isWait (w : FragWait) : Bool := match w with | .token _ _ => true | _ => false
    let acq := s.run.slots.any (fun kr => kr.2.block == id && kr.2.frags.any (fun f => isWait f.wait && tokenWake s b f.wait))
    let s' := updFrags s (fun _ r f => if r.block = id && tokenWake s b f.wait then { f with wait := .none } else f)
    if acq then acquireWide s' b.core else s'

/-- An operation's token (R195): its entry becomes DONE, if the entry still belongs to it. -/
def produceToken (s : State) (block entry : Nat) : State :=
  wakeBlock (updBlock s block (fun b => { b with tokens := setNth b.tokens entry { token b entry with done := true } })) block

/-- A bollard's value, and whether a context may name it (R231). -/
def bolValue (s : State) (n : Nat) : Nat := s.get F.bolValue_VALUE n
def bolOwned (s : State) (n c : Nat) : Bool :=
  decide (n < 16384) && s.isSet F.bolCtrl_VALID n && s.get F.bolCtrl_OWNER n == c

/-- The notification of R234. -/
def bolNotify (s : State) (n : Nat) : State :=
  if s.isSet F.bolCtrl_NOTIFY_EN n && !s.isSet F.bolCtrl_NOTIFIED n && decide (s.get F.bolNotify_THRESHOLD n ≤ bolValue s n) then
    signal (s.put F.bolCtrl_NOTIFIED 1 n) (s.get F.bolCtrl_EVENT n)
  else s

/-- Whether a fragment waits for bollard `n` at a value its value has reached (R230). -/
def bolMet (v n : Nat) (w : FragWait) : Bool :=
  match w with
  | .bollard m t _ _ => m == n && decide (t ≤ v)
  | _ => false

/-- The register a bollard wait writes its value to; the third register of the three holds TIMED_OUT (log 3). -/
def bolDst (w : FragWait) : Nat := match w with | .bollard _ _ d _ => d | _ => 0

/-- A thread's wait ends: the value in its registers, TIMED_OUT as told, an acquire at device scope unless it timed out (R230). -/
def bolWaitEnd (s : State) (core slot : Nat) (f : Frag) (v : Nat) (timedOut : Bool) : State :=
  let d := bolDst f.wait
  let s := regWrite64 s core slot d f.mask (fun _ => v)
  let s := regWrite s core slot (d + 2) f.mask (fun _ => if timedOut then 1 else 0)
  let s := match slotRec s core slot with
    | none => s
    | some r =>
      let fs := settleFrags s.ns (updWhere r.frags (fun g => g == f) (fun g => { g with wait := .none }))
      setSlot s core slot { r with frags := fs }
  if timedOut then s else acquireWide s core

/-- Waiting threads released by the bollard's value. -/
def bolWake (s : State) (n : Nat) : State :=
  let v := bolValue s n
  let waiting := s.run.slots.flatMap (fun kr => (kr.2.frags.filter (fun f => bolMet v n f.wait)).map (fun f => (kr.1, f)))
  waiting.foldl (fun s kf => bolWaitEnd s (kf.1 / 128) (kf.1 % 128) kf.2 v false) s

/-- Whether a berth's free condition holds (R366). -/
def berthFree (s : State) (b : Nat) (x : Berth) : Bool :=
  !x.word2.testBit 30 || decide (bitsOf x.word2 63 32 * s.get F.berthStatus_LANDED b % 2 ^ 64 ≤ bolValue s (bitsOf x.word2 29 16))

/-- FULL berths whose free bollard has reached its value become OPEN (R366). -/
def berthReopen (s : State) (n : Nat) : State :=
  s.sail.berth.foldl (fun s kb =>
    if s.get F.berthStatus_STATE kb.1 = 4 && kb.2.word2.testBit 30 && bitsOf kb.2.word2 29 16 == n && berthFree s kb.1 kb.2 then
      s.put F.berthStatus_STATE 1 kb.1
    else s) s

/-- A start condition that a bollard's value has reached is satisfied for good (R232). -/
def startKept (v n : Nat) (c : Option (Nat × Nat)) : Option (Nat × Nat) :=
  match c with
  | some (m, t) => if m = n ∧ t ≤ v then none else some (m, t)
  | none => none

/-- Start conditions of buffered operations, jobs and queue entries satisfied by a bollard's value (R226, R232). -/
def bolLatch (s : State) (n : Nat) : State :=
  let k := startKept (bolValue s n) n
  let q := s.obj.q.map (fun kq => (kq.1, { kq.2 with entries := kq.2.entries.map (fun e => { e with start := k e.start }) }))
  { s with run := { s.run with ops := s.run.ops.map (fun o => { o with start := k o.start }) },
           eng := { s.eng with jobs := s.eng.jobs.map (fun j => { j with start := k j.start }) },
           obj := { s.obj with q := q } }

/-- What follows a change of a bollard's value (R230, R232, R234, R366). -/
def bolChanged (s : State) (n : Nat) : State := bolNotify (berthReopen (bolWake (bolLatch s n) n) n) n

/-- An advance applied by the bollard store (R229, R233, R234). -/
def bolApply (s : State) (n inc : Nat) : State := bolChanged (s.bump F.bolValue_VALUE inc n) n

/-- An advance that arrives at the store: applied, or queued behind those that wait (R233). -/
def bolSend (s : State) (n inc : Nat) (fin : AdvEnd := .none) : State :=
  if s.run.bolQ.isEmpty then bolApply s n inc else { s with run := { s.run with bolQ := s.run.bolQ ++ [⟨n, inc, fin⟩] } }

end Sys2Proof.Machine
end

