-- ==== Sys2Proof/Machine/Memory.lean ====
section
/-! DEFINITION. Device memory: the DRAM channels (9), the Cavern slices (8), the regulators (9) and memory segments (9). -/

namespace Sys2Proof.Machine

/-- The request's attributes: partition class, regulator, and one more than the key slot of an encrypted access, 0 in the clear. -/
structure Rq where
  cls : Nat
  reg : Nat
  key : Nat
  deriving DecidableEq, Repr

/-- Whether an unlisted byte of DRAM reads 0: no warm reset since standby, and below every limit a map-out has set. -/
def dramKnown (m : Memory) (a : Nat) : Bool := m.epoch = 0 && m.low.all (fun l => decide (a < l))

/-- What a byte of DRAM that nothing has written reads as: 0, or a free value once a warm reset has made the contents
unpredictable (R464; logs 5 and 12). -/
def dramDefault (m : Memory) (a : Nat) : Byte := if dramKnown m a then 0 else Config.dramByte m.epoch a

def dramByte (m : Memory) (a : Nat) : Byte := (smapFind m.dram a).getD (dramDefault m a)

/-- One DRAM byte written, in canonical form. -/
def dramSet (m : Memory) (a : Nat) (b : Byte) : Memory :=
  { m with dram := if dramKnown m a then smapSet m.dram 0 a b else smapInsert m.dram a b }

/-- The canonical form of the DRAM store. -/
abbrev Memory.wf (m : Memory) : Prop :=
  (m.dram.map Prod.fst).Pairwise (· < ·) ∧ ∀ kv ∈ m.dram, dramKnown m kv.1 = true → kv.2 ≠ 0

def dramWrite (m : Memory) (a : Nat) : List Byte → Memory
  | [] => m
  | b :: bs => dramWrite (dramSet m a b) (a + 1) bs

/-- The home channel of a device physical address, and its channel line index (R256). -/
def homeOf (s : State) (pa : Nat) : Nat × Nat := homeChannel pa (BitVec.ofNat 64 (s.get F.cavHashKey_KEY))

/-- The channel that stores a line (R290). -/
def storeChannel (s : State) (pa : Nat) : Nat := (storageLocation (homeOf s pa).1 (homeOf s pa).2 s.mem.out).1

/-- Whether the channel storing a line has failed (R296). -/
def chanFailed (s : State) (pa : Nat) : Bool := s.get F.dramChanStatus_STATE (storeChannel s pa) == 4

/-- Bytes of the DRAM space (R285). -/
def dramLimit (s : State) : Nat := s.get F.dramSpace_LIMIT_GROUPS * 65536

/-- Whether a sector was on a channel that could not be read when its lines moved, and has not been written since (R296). -/
def moveLost (s : State) (pa : Nat) : Bool :=
  s.mem.lost.any (fun x => (storageLocation (homeOf s pa).1 (homeOf s pa).2 x.2).1 == x.1) && !s.mem.healed.contains (pa / 64)

/-- The name of a segment's key slot in a request (R308). -/
def slotName (enc : Bool) (k : Nat) : Nat := if enc then k + 1 else 0

/-- The key generation that a request's slot holds now (R310): 0 in the clear, 1 a slot without keys. -/
def keyGenOf (s : State) (key : Nat) : Nat := if key = 0 then 0 else smapGet s.mem.keyGen 1 (key - 1)

/-- A sector as a channel reads it for a request (R308, R311): decrypted under the keys its slot holds now, with its poison. -/
def chanSector (s : State) (key pa : Nat) : Bool × List Byte :=
  if chanFailed s pa then (true, List.replicate 64 0)
  else
    (s.mem.poison.contains (pa / 64) || moveLost s pa,
      recrypt (smapGet s.mem.keyTag 0 (pa / 64)) (keyGenOf s key) (pa / 64) (tabulate 64 (fun i => dramByte s.mem (pa / 64 * 64 + i))))

/-- A whole sector stored by its channel, poison included, under its slot's keys (R274, R288, R308); a failed channel discards it (R296). -/
def chanStore (s : State) (key pa : Nat) (poison : Bool) (data : List Byte) : State :=
  if chanFailed s pa then s
  else
    let m := dramWrite s.mem (pa / 64 * 64) data
    { s with mem := { m with
        poison := if poison then setInsert m.poison (pa / 64) else setErase m.poison (pa / 64),
        healed := if m.lost.isEmpty then m.healed else setInsert m.healed (pa / 64),
        keyTag := smapSet m.keyTag 0 (pa / 64) (keyGenOf s key) } }

/-- Ceiling and refill of a regulator's bucket in quarter bytes (R301). -/
def bucketCeil (s : State) (r : Nat) : Nat :=
  let b := s.get F.dramRegCfg_BURST r
  (if b = 0 then 4096 else b) * 1024

/-- A regulator's bucket on a channel now (R301, R302): the deferred sectors have started in their order as tokens came, each
removing 64 B. -/
def bucketNow (s : State) (r ch : Nat) : Bucket :=
  match smapFind s.mem.bucket (r * 256 + ch) with
  | none => ⟨bucketCeil s r, s.ns, 0⟩
  | some b =>
    let l := b.level + (s.ns - b.at_) * s.get F.dramRegCfg_RATE r
    let n := min b.queue (l / 256)
    ⟨min (bucketCeil s r) (l - 256 * n), s.ns, b.queue - n⟩

/-- One sector charged to a regulator on its channel (R300 to R302): 64 B counted, tokens taken; a sector that finds others of its
regulator deferred, or too few tokens, and may not start without them waits behind those, and is counted. -/
def charge (s : State) (r pa : Nat) : State :=
  let ch := storeChannel s pa
  let b := bucketNow s r ch
  let s := s.restart (24 + ch / 32)
  let s := s.bump F.dramRegBytes_BYTES 64 r
  let set (s : State) (l q : Nat) : State :=
    { s with mem := { s.mem with bucket := smapInsert s.mem.bucket (r * 256 + ch) ⟨l, s.ns, q⟩ } }
  if s.get F.dramRegCfg_RATE r = 256 then set s (b.level - 256) 0
  else if s.isSet F.dramRegCfg_SHARE_IDLE r then set s (if b.queue = 0 ∧ 256 ≤ b.level then b.level - 256 else b.level) 0
  else if b.queue = 0 ∧ 256 ≤ b.level then set s (b.level - 256) 0
  else set (s.bump F.dramRegThrottled_THROTTLED 1 r) b.level (b.queue + 1)

def chargeN : Nat → State → Nat → Nat → State
  | 0, s, _, _ => s
  | n + 1, s, r, pa => chargeN n (charge s r pa) r pa

/-- The line of a slice. -/
def cavFind (s : State) (pa : Nat) : Option CavLine := s.mem.cavern.find? (fun l => l.line == pa / 256)

/-- A slice's compressed-line count shown (Table 8.21). -/
def cavCount (s : State) (n : Nat) : State :=
  s.put F.cavSliceStatus_COMPRESSED (s.mem.cavern.filter (fun l => l.slice == n && l.comp)).length n

def setCavern (s : State) (n : Nat) (ls : List CavLine) : State := cavCount { s with mem := { s.mem with cavern := ls } } n

/-- A line's dirty sectors written back under the line's regulator and keys (R249, R300, R308). -/
def cavWriteBack (s : State) (l : CavLine) : State :=
  (List.range 4).foldl (fun s i =>
    match l.secs[i]? with
    | some c =>
      if c.valid && c.dirty then charge (chanStore s l.key (l.line * 256 + 64 * i) c.poison c.data) l.reg (l.line * 256 + 64 * i) else s
    | none => s) s

/-- A line evicted: written back and dropped. -/
def cavEvict (s : State) (l : CavLine) : State :=
  let s := cavWriteBack s l
  setCavern s l.slice (s.mem.cavern.filter (fun x => x.line != l.line))

/-- The lines R262 guarantees to compress: two sectors all zero, or one 8-B value repeated. -/
def mustCompress (data : List Byte) : Bool :=
  let zeroSec (i : Nat) : Bool := ((data.drop (64 * i)).take 64).all (· == 0)
  decide (2 ≤ ((List.range 4).filter zeroSec).length)
    || (List.range 32).all (fun i => (data.drop (8 * i)).take 8 == data.take 8)

/-- Whether the slice holds the line compressed (R262). -/
def cavComp (s : State) (l : CavLine) : Bool :=
  let data := l.secs.flatMap (fun c => c.data)
  s.isSet F.cavCtrl_COMPRESS_EN && l.secs.all (fun c => c.valid) && (mustCompress data || Config.compresses data)

/-- Whether a way of a set belongs to the host-line store (R270). -/
def hostWay (s : State) (set way : Nat) : Bool := s.isSet F.cavCtrl_HOSTLINE_EN && way == 15 && decide (set < 64)

/-- Ways in which a class may fill a set (R264). -/
def fillWays (s : State) (cls set : Nat) : List Nat :=
  if s.isSet F.cavClassMask_NO_ALLOC cls then []
  else (List.range 16).filter (fun w => (s.get F.cavClassMask_FILL_MASK cls).testBit w && !hostWay s set w)

/-- Lines in a frame. -/
def frame (s : State) (n set way : Nat) : List CavLine :=
  s.mem.cavern.filter (fun l => l.slice == n && l.set == set && l.way == way)

/-- The way for a new line: a compressed line's is a free half beside another compressed line, else an empty frame, else a frame of an
unlocked way evicted, the choice a free value (R265); none where no frame is allowed. -/
def cavPlaceWay (s : State) (n set cls : Nat) (comp : Bool) : Option (Nat × State) :=
  let ws := fillWays s cls set
  let half (w : Nat) : Bool := comp && (frame s n set w).length == 1 && (frame s n set w).all (·.comp)
  match (ws.find? half).or (ws.find? (fun w => (frame s n set w).isEmpty)) with
  | some w => some (w, s)
  | none =>
    let free := ws.filter (fun w => !(s.get F.cavWayLock_LOCK).testBit w)
    if free.isEmpty then none
    else
      let w := nthD free (Config.victim s.free % free.length) 0
      let s := { s with free := s.free + 1 }
      some (w, (frame s n set w).foldl cavEvict s)

/-- A changed line stored; a line that grew out of its half drives the other half out (R267). -/
def cavUpdate (s : State) (l : CavLine) : State :=
  let comp := cavComp s l
  let others := (frame s l.slice l.set l.way).filter (fun x => x.line != l.line)
  let s := if l.comp && !comp && !others.isEmpty then
      let s := if (s.get F.cavWayLock_LOCK).testBit l.way then s.bumpSat F.cavSliceStatus_LOCK_EVICTS 1 l.slice else s
      others.foldl cavEvict s
    else s
  setCavern s l.slice (updWhere s.mem.cavern (fun x => x.line == l.line) (fun _ => { l with comp := comp, used := s.ns }))

/-- A line's sectors fetched from its channel, all four charged (R261, R300). -/
def fetchLine (s : State) (rq : Rq) (pa : Nat) : List CavSector :=
  tabulate 4 (fun i =>
    let d := chanSector s rq.key (pa / 256 * 256 + 64 * i)
    ⟨true, false, d.1, d.2⟩)

/-- Whether slice `n` allocates: it is ACTIVE (R278, R282). -/
def sliceActive (s : State) (n : Nat) : Bool := s.get F.cavSliceStatus_STATE n == 0 && s.isSet F.idSliceMap_VALID n

/-- Whether the line's slice serves requests without allocating: it is not ACTIVE, or its channel has failed (R278, R282, R296). -/
def passesOn (s : State) (pa : Nat) : Bool := !sliceActive s (homeOf s pa).1 || chanFailed s pa

/-- A new line with its sectors, where a frame is allowed. -/
def cavAllocate (s : State) (rq : Rq) (pa : Nat) (secs : List CavSector) : Option State :=
  let n := (homeOf s pa).1
  let set := (homeOf s pa).2 % 15360
  let l : CavLine := ⟨pa / 256, n, set, 0, false, rq.cls, rq.reg, rq.key, secs, s.ns⟩
  let comp := cavComp s l
  if passesOn s pa then none
  else (cavPlaceWay s n set rq.cls comp).map (fun ws => setCavern ws.2 n ({ l with way := ws.1, comp := comp } :: ws.2.mem.cavern))

/-- A request at a line's slice restarts the Cavern's clocks (Table 15.2). -/
def requestAt (s : State) (pa : Nat) : State := s.restart (domOfCavern ((homeOf s pa).1 / 64))

/-- What one sector of a request found at its slice (R264, Tables 8.12 to 8.14): its data there, an allocation or a fetch, no
frame allowed, or a slice that passes it on. -/
inductive Seen where
  | hit | miss | nofill | passed
  deriving DecidableEq, Repr

/-- A request counted once, over the sectors it touched. -/
def countSeen (s : State) (cls : Nat) (l : List Seen) : State :=
  if l.contains .nofill then s.bump F.cavClassNofill_NOFILL 1 cls
  else if l.contains .miss then s.bump F.cavClassMisses_MISSES 1 cls
  else if l.contains .hit && !l.contains .passed then s.bump F.cavClassHits_HITS 1 cls
  else s

/-- Whether the line a request misses in is passed on or has no frame. -/
def missed (s : State) (pa : Nat) : Seen := if passesOn s pa then .passed else .nofill

/-- A sector read at its slice, or at its channel where nothing is allocated (R212, R261, R264): poison and data. -/
def sectorGet (s : State) (rq : Rq) (pa : Nat) : (Bool × List Byte) × Seen × State :=
  let i := pa / 64 % 4
  let s := requestAt s pa
  match cavFind s pa with
  | some l =>
    match l.secs[i]? with
    | some c =>
      if c.valid then ((c.poison, c.data), .hit, s)
      else
        let d := chanSector s rq.key pa
        let s := charge s rq.reg pa
        if passesOn s pa then (d, .passed, s)
        else (d, .miss, cavUpdate s { l with reg := rq.reg, key := rq.key, secs := setNth l.secs i ⟨true, false, d.1, d.2⟩ })
    | none => ((false, []), .passed, s)
  | none =>
    let d := chanSector s rq.key pa
    match cavAllocate s rq pa (fetchLine s rq pa) with
    | some s' => (d, .miss, chargeN 4 s' rq.reg pa)
    | none => (d, missed s pa, charge s rq.reg pa)

/-- A request that reads one sector. -/
def sectorRead (s : State) (rq : Rq) (pa : Nat) : (Bool × List Byte) × State :=
  let r := sectorGet s rq pa
  (r.1, countSeen r.2.2 rq.cls [r.2.1])

/-- Whether a sector is poisoned, as its slice or its channel would give it (R274). -/
def sectorPoisoned (s : State) (key pa : Nat) : Bool :=
  match (cavFind s pa).bind (fun l => l.secs[pa / 64 % 4]?) with
  | some c => if c.valid then c.poison else (chanSector s key pa).1
  | none => (chanSector s key pa).1

/-- The address of the first poisoned sector of a range. -/
def firstPoisoned (s : State) (key pa n : Nat) : Option Nat :=
  ((List.range ((pa + n + 63) / 64 - pa / 64)).map (fun i => (pa / 64 + i) * 64)).find? (sectorPoisoned s key)

/-- Bytes merged into a sector by offset. -/
def mergeMask (old : List Byte) (m : SMap Byte) : List Byte := tabulate 64 (fun i => (smapFind m i).getD (nthD old i 0))

/-- Bytes of one sector written, named by offset, at its slice or its channel (R261, R264, R274): a whole-sector write clears
poison, a part leaves it, and `poison` marks what is written. -/
def sectorPut (s : State) (rq : Rq) (pa : Nat) (m : SMap Byte) (poison : Bool) : Seen × State :=
  let i := pa / 64 % 4
  let s := requestAt s pa
  let whole := m.length == 64
  match cavFind s pa with
  | some l =>
    match l.secs[i]? with
    | some c =>
      let (c, n, s) : CavSector × Seen × State :=
        if c.valid then (c, .hit, s)
        else if whole then (c, .miss, s)
        else
          let d := chanSector s rq.key pa
          (⟨true, false, d.1, d.2⟩, .miss, charge s rq.reg pa)
      let c' : CavSector := ⟨true, true, poison || (!whole && c.poison), mergeMask c.data m⟩
      (n, cavUpdate s { l with reg := rq.reg, key := rq.key, cls := rq.cls, secs := setNth l.secs i c' })
    | none => (.passed, s)
  | none =>
    let old : Bool × List Byte := if whole then (false, List.replicate 64 0) else chanSector s rq.key pa
    let data := mergeMask old.2 m
    let bad := poison || (!whole && old.1)
    let empty : CavSector := ⟨false, false, false, List.replicate 64 0⟩
    let secs := tabulate 4 (fun j => if j = i then ⟨true, true, bad, data⟩ else empty)
    match cavAllocate s rq pa secs with
    | some s' => (.miss, if whole then s' else charge s' rq.reg pa)
    | none => (missed s pa, charge (chanStore s rq.key pa bad data) rq.reg pa)

/-- A request that writes bytes of one sector. -/
def sectorMasked (s : State) (rq : Rq) (pa : Nat) (m : SMap Byte) (poison : Bool) : State :=
  let r := sectorPut s rq pa m poison
  countSeen r.2 rq.cls [r.1]

/-- Consecutive bytes written within one sector. -/
def sectorWrite (s : State) (rq : Rq) (pa : Nat) (bytes : List Byte) (poison : Bool := false) : State :=
  sectorMasked s rq pa (bytes.zipIdx.map (fun bi => (pa % 64 + bi.2, bi.1))) poison

/-- A byte of device memory as its point of coherence holds it (R212): what a read under clear keys or a held line gives. -/
def coherentByte (s : State) (pa : Nat) : Byte :=
  match (cavFind s pa).bind (fun l => l.secs[pa / 64 % 4]?) with
  | some c => if c.valid then nthD c.data (pa % 64) 0 else dramByte s.mem pa
  | none => dramByte s.mem pa

/-- Bytes read over several sectors: whether any was poisoned, and the bytes. A request reaches no further than an aligned 128 B, which a
slice delivers at once; each is counted once (DEDUCED, log 56). `seen` is what the sectors of the one in hand found. -/
def devReadFrom (seen : List Seen) : Nat → State → Rq → Nat → Nat → (Bool × List Byte) × State
  | 0, s, rq, _, _ => ((false, []), countSeen s rq.cls seen)
  | fuel + 1, s, rq, pa, n =>
    if n = 0 then ((false, []), countSeen s rq.cls seen)
    else
      let k := min n (64 - pa % 64)
      let r := sectorGet s rq pa
      let ends := (pa + k) % 128 == 0
      let s := if ends then countSeen r.2.2 rq.cls (r.2.1 :: seen) else r.2.2
      let rest := devReadFrom (if ends then [] else r.2.1 :: seen) fuel s rq (pa + k) (n - k)
      ((r.1.1 || rest.1.1, (r.1.2.drop (pa % 64)).take k ++ rest.1.2), rest.2)

def devRead (fuel : Nat) (s : State) (rq : Rq) (pa n : Nat) : (Bool × List Byte) × State := devReadFrom [] fuel s rq pa n

/-- Bytes written over several sectors, none poisoned. -/
def devWriteFrom (seen : List Seen) : Nat → State → Rq → Nat → List Byte → State
  | 0, s, rq, _, _ => countSeen s rq.cls seen
  | fuel + 1, s, rq, pa, bs =>
    if bs.isEmpty then countSeen s rq.cls seen
    else
      let k := min bs.length (64 - pa % 64)
      let r := sectorPut s rq pa ((bs.take k).zipIdx.map (fun bi => (pa % 64 + bi.2, bi.1))) false
      let ends := (pa + k) % 128 == 0
      let s := if ends then countSeen r.2 rq.cls (r.1 :: seen) else r.2
      devWriteFrom (if ends then [] else r.1 :: seen) fuel s rq (pa + k) (bs.drop k)

def devWrite (fuel : Nat) (s : State) (rq : Rq) (pa : Nat) (bs : List Byte) : State := devWriteFrom [] fuel s rq pa bs

/-- A request at or above the limit that is no context's is refused (R295): record 0x0406. -/
def limitRefused (s : State) : State := post s noUnit none 1 0x0406 (s.get F.dramSpace_LIMIT_GROUPS)

/-! Memory segments. -/

/-- What an access needs (R303 PERM_R, PERM_W, PERM_X). -/
inductive Need where
  | read | write | exec | both
  deriving DecidableEq, Repr

def Seg.allows (g : Seg) : Need → Bool
  | .read => g.r | .write => g.w | .exec => g.x | .both => g.r && g.w

/-- Where an access resolves: the segment, its number, the resolved address. -/
structure Place where
  seg : Seg
  no : Nat
  addr : Nat
  deriving DecidableEq, Repr

/-- How an access resolves (R305, R306): to a place, to an absent segment, or to a halt with its INFO. -/
inductive Resolved where
  | at_ (p : Place)
  | absent (no : Nat)
  | halt (reason info : Nat)
  deriving DecidableEq, Repr

/-- Whether a segment may use its key slot (R309). -/
def keyOk (s : State) (c k : Nat) : Bool :=
  s.isSet F.keySlot_VALID k && s.get F.keySlot_OWNER k == c && s.get F.keySlot_GEN_DONE k != 0

/-- The lowest-numbered segment that covers an address (R305). -/
def segOf (s : State) (c ca : Nat) : Option (Nat × Seg) :=
  (List.range 16).findSome? (fun i =>
    match smapFind s.mem.seg (c * 16 + i) with
    | some g => if decide (g.vbase ≤ ca) && decide (ca < g.vbase + g.len) then some (i, g) else none
    | none => none)

/-- The resolution of R305, with R306 before the permission (DEDUCED, log 15); `tgts` lists the targets the agent reaches (R213). -/
def resolve (s : State) (c ca len : Nat) (need : Need) (tgts : List Nat) : Resolved :=
  match segOf s c ca with
  | none => .halt 0x44 ca
  | some (i, g) =>
    if g.vbase + g.len < ca + len then .halt 0x44 ca
    else if !g.present then .absent i
    else if !g.allows need || !tgts.contains g.target then .halt 0x45 ca
    else if g.enc && !keyOk s c g.key then .halt 0x47 i
    else if g.target = 0 && decide (dramLimit s < g.pbase + (ca - g.vbase) + len) then .halt 0x44 ca
    else .at_ ⟨g, i, g.pbase + (ca - g.vbase)⟩

/-- The request attributes a place gives (R263, R300, R308). -/
def Place.rq (_s : State) (p : Place) : Rq := ⟨p.seg.part, p.seg.reg, slotName p.seg.enc p.seg.key⟩

/-- Recording a fault of R306: SEG_FAULT, and record 0x0420 for the first of the descriptor since its apply. -/
def segNote (s : State) (c sg ca unit : Nat) : State :=
  let s := ((s.put F.segFault_ADDR ca c).put F.segFault_SEGMENT sg c).put F.segFault_FAULTED 1 c
  if s.mem.segPosted.contains (c * 16 + sg) then s
  else
    let s := { s with mem := { s.mem with segPosted := setInsert s.mem.segPosted (c * 16 + sg) } }
    post s unit (some c) 0 0x0420 (ca % 2 ^ 48 + sg * 2 ^ 48)

/-- PARKED shown (Table 9.18). -/
def showParked (s : State) (c : Nat) : State :=
  s.put F.segFault_PARKED (min (s.mem.parked.filter (fun p => p.key / 16 == c)).length 2047) c

/-- A fault of R306 whose task is parked. -/
def segFault (s : State) (c sg ca unit : Nat) (who : Parker) : State :=
  let s := segNote s c sg ca unit
  showParked { s with mem := { s.mem with parked := s.mem.parked ++ [⟨c * 16 + sg, s.ns, ca, who⟩] } } c

/-- Tasks of a context that no longer wait for a segment. -/
def unpark (s : State) (c : Nat) (gone : Parked → Bool) : State :=
  if s.mem.parked.any gone then showParked { s with mem := { s.mem with parked := s.mem.parked.filter (fun p => !gone p) } } c else s

end Sys2Proof.Machine
end

