-- ==== Sys2Proof/Machine/Grotto.lean ====
section
/-! DEFINITION. A core's Grotto cache and read-only caches (8: R243 to R255). -/

namespace Sys2Proof.Machine

def CoreFlags.initial : CoreFlags := ⟨false, false, true, false, 0xACE1, 0⟩

def coreFlags (s : State) (core : Nat) : CoreFlags := smapGet s.core.flags CoreFlags.initial core

def setFlags (s : State) (core : Nat) (f : CoreFlags) : State :=
  { s with core := { s.core with flags := smapSet s.core.flags CoreFlags.initial core f } }

/-- The set of a 128-B line (R244). -/
def grottoSet (a : Nat) : Nat := bitsOf a 16 7

/-- The line of an address in a core's cache (R244, R250: a lookup hits in any way). -/
def glFind (s : State) (core a : Nat) (host : Bool) : Option GrottoLine :=
  s.core.gl.find? (fun l => l.core == core && l.addr == a / 128 * 128 && l.host == host)

/-- DIRTY_LINES shown (Table 8.5). -/
def setGl (s : State) (core : Nat) (gl : List GrottoLine) : State :=
  State.put { s with core := { s.core with gl := gl } } F.coreGrottoStatus_DIRTY_LINES
    (gl.filter (fun l => l.core == core && !l.dirty.isEmpty)).length core

/-- Dirty bytes of one sector half of a line. -/
def glHalf (l : GrottoLine) (h : Nat) : SMap Byte :=
  (l.bytes.filter (fun kv => l.dirty.contains kv.1 && kv.1 / 64 == h)).map (fun kv => (kv.1 % 64, kv.2))

/-- Dirty bytes of a line sent to its slice as one byte-masked write (R249). -/
def glSend (s : State) (l : GrottoLine) : State :=
  let put (r : List Seen × State) (h : Nat) : List Seen × State :=
    if (glHalf l h).isEmpty then r
    else
      let x := sectorPut r.2 ⟨l.cls, l.reg, l.key⟩ (l.addr + 64 * h) (glHalf l h) false
      (x.1 :: r.1, x.2)
  let r := put (put ([], s) 0) 1
  countSeen r.2 l.cls r.1

/-- A line written back: its dirty bytes reach the slice, it stays valid and is clean (R249). -/
def glWriteBack (s : State) (l : GrottoLine) : State :=
  if l.dirty.isEmpty then s
  else
    let s := (glSend s l).bump F.coreGrottoWb_WB_LINES 1 l.core
    setGl s l.core (updWhere s.core.gl (fun x => x == l) (fun x => { x with dirty := [] }))

/-- Every dirty line of a core written back. -/
def glFlush (s : State) (core : Nat) : State :=
  (s.core.gl.filter (fun l => l.core == core && !l.dirty.isEmpty)).foldl glWriteBack s

/-- A core's cache invalidated; what is still dirty would be lost, so callers flush first. -/
def glInvalidate (s : State) (core : Nat) : State := setGl s core (s.core.gl.filter (fun l => l.core != core))

/-- Dirty lines in a range, or all, written back (R252). -/
def glFlushRange (s : State) (core : Nat) (inRange : GrottoLine → Bool) : State :=
  (s.core.gl.filter (fun l => l.core == core && inRange l && !l.dirty.isEmpty)).foldl glWriteBack s

/-- The way to allocate for a requester class's mask (R250, R251); none where no way is allowed. -/
def glVictim (s : State) (core a mask : Nat) : Option (Nat × State) :=
  let f := coreFlags s core
  let ways := s.get F.coreGrottoStatus_CACHE_WAYS core
  if (List.range ways).all (fun w => !mask.testBit w) then none
  else
    let inSet := s.core.gl.filter (fun l => l.core == core && l.set == grottoSet a)
    let r := grottoVictim mask ways (fun w => !inSet.any (fun l => l.way == w)) f.lfsr
    let s := setFlags s core { f with lfsr := r.2 }
    let s := (inSet.filter (fun l => l.way == r.1)).foldl glWriteBack s
    some (r.1, setGl s core (s.core.gl.filter (fun l => !(l.core == core && l.set == grottoSet a && l.way == r.1))))

/-- A line's fetched bytes merged: dirty bytes keep the core's values (R247); allocated under the mask where absent. -/
def glFill (s : State) (core a : Nat) (host : Bool) (rq : Rq) (mask : Nat) (data : List Byte) : State :=
  let a := a / 128 * 128
  let all : SMap Byte := data.zipIdx.map (fun bi => (bi.2, bi.1))
  match glFind s core a host with
  | some l =>
    let bytes := all.map (fun kv => (kv.1, if l.dirty.contains kv.1 then (smapFind l.bytes kv.1).getD kv.2 else kv.2))
    setGl s core (updWhere s.core.gl (fun x => x == l) (fun x => { x with bytes := bytes }))
  | none =>
    match glVictim s core a mask with
    | none => s
    | some (w, s) => setGl s core (⟨core, grottoSet a, w, a, host, all, [], rq.cls, rq.reg, rq.key⟩ :: s.core.gl)

/-- The bytes of a load from one line, where every one is valid (R247). -/
def glLoad (s : State) (core a n : Nat) (host : Bool) : Option (List Byte) :=
  match glFind s core a host with
  | none => none
  | some l =>
    let bs := tabulate n (fun i => smapFind l.bytes (a % 128 + i))
    if bs.all Option.isSome then some (bs.map (·.getD 0)) else none

/-- A store to device memory through the cache (R248): into the line, allocating without fetching, or past it as a byte-masked
write when no way is allowed. -/
def glStore (s : State) (core a : Nat) (rq : Rq) (mask : Nat) (bs : List Byte) : State :=
  let put (l : GrottoLine) : GrottoLine :=
    bs.zipIdx.foldl (fun l bi => { l with bytes := smapInsert l.bytes (a % 128 + bi.2) bi.1, dirty := setInsert l.dirty (a % 128 + bi.2) }) l
  match glFind s core a false with
  | some l => setGl s core (updWhere s.core.gl (fun x => x == l) (fun x => put { x with cls := rq.cls, reg := rq.reg, key := rq.key }))
  | none =>
    match glVictim s core a mask with
    | none => devWrite 4 s rq a bs
    | some (w, s) => setGl s core (put ⟨core, grottoSet a, w, a / 128 * 128, false, [], [], rq.cls, rq.reg, rq.key⟩ :: s.core.gl)

/-- A store to host or peer memory also writes the valid bytes of a line that holds it (R246). -/
def glPatch (s : State) (core a : Nat) (host : Bool) (bs : List Byte) : State :=
  match glFind s core a host with
  | none => s
  | some l =>
    let bytes := bs.zipIdx.foldl (fun m bi =>
      if (smapFind m (a % 128 + bi.2)).isSome then smapInsert m (a % 128 + bi.2) bi.1 else m) l.bytes
    setGl s core (updWhere s.core.gl (fun x => x == l) (fun x => { x with bytes := bytes }))

/-- A line written back and invalidated before an atomic or a bypassing write (R223). -/
def glExpel (s : State) (core a : Nat) (host : Bool) : State :=
  match glFind s core a host with
  | none => s
  | some l =>
    let s := glWriteBack s l
    setGl s core (s.core.gl.filter (fun x => !(x.core == core && x.addr == l.addr && x.host == host)))

/-- A release at DEVICE or SYSTEM scope: every dirty byte of the core's cache written back (R219). -/
def releaseWide (s : State) (core : Nat) : State := glFlush s core

/-- Invalidating every byte that is not dirty (R252). -/
def glInvClean (s : State) (core : Nat) (inRange : GrottoLine → Bool) : State :=
  let keep (l : GrottoLine) : GrottoLine :=
    if l.core = core && inRange l then { l with bytes := l.bytes.filter (fun kv => l.dirty.contains kv.1) } else l
  setGl s core ((s.core.gl.map keep).filter (fun l => l.core != core || !l.bytes.isEmpty))

/-- Every line of a read-only cache of a core invalidated: 0 instruction, 1 constant, 2 descriptor (R240, R242). -/
def roInvalidate (s : State) (core kind : Nat) : State :=
  { s with core := { s.core with ro := s.core.ro.filter (fun l => !(l.core == core && l.kind == kind)) } }

def roInvalidateAll (s : State) (core : Nat) : State :=
  { s with core := { s.core with ro := s.core.ro.filter (fun l => l.core != core) } }

/-- Sets of the read-only caches (Table 8.3), each of 8 ways. -/
def roSets (kind : Nat) : Nat := match kind with | 0 => 128 | 1 => 64 | _ => 32

def roFind (s : State) (core kind : Nat) (host : Bool) (a : Nat) : Option RoLine :=
  s.core.ro.find? (fun l => l.core == core && l.kind == kind && l.host == host && l.addr == a / 128 * 128)

/-- A read-only line used: it becomes the most recently used of its set (R254). -/
def roTouch (s : State) (core kind : Nat) (host : Bool) (a : Nat) : State :=
  match roFind s core kind host a with
  | none => s
  | some l => { s with core := { s.core with ro := l :: s.core.ro.filter (fun x => x != l) } }

/-- A line filled into a read-only cache as the most recently used of its set; the least recently used is replaced (R254), and
its bytes are counted (R207). The list holds each core's lines most recently used first. -/
def roFill (s : State) (core kind : Nat) (host : Bool) (a ctx : Nat) (data : List Byte) (poison : Bool) : State :=
  let set (x : Nat) : Nat := x / 128 % roSets kind
  let mine (l : RoLine) : Bool :=
    l.core == core && l.kind == kind && set l.addr == set a && !(l.addr == a / 128 * 128 && l.host == host)
  let kept := (s.core.ro.filter mine).take 7
  let others := s.core.ro.filter (fun l => !(l.core == core && l.kind == kind && set l.addr == set a))
  let s := { s with core := { s.core with ro := ⟨core, kind, host, a / 128 * 128, data, poison⟩ :: (kept ++ others) } }
  s.bump F.ctxIfetchBytes_BYTES 128 ctx

/-- The key of a scratchpad byte. -/
def sramKey (core a : Nat) : Nat := core * 2097152 + a

/-- The mark of the step that holds a byte: way j is the step of 128 KiB below 2 MiB − j × 128 KiB (R243). -/
def scramOf (c : Cores) (k : Nat) : Nat := smapGet c.scram 0 (k / 2097152 * 16 + (15 - k % 2097152 / 131072))

/-- What an unlisted byte reads as: 0, or a free value where its step turned from cache into scratchpad (R245; logs 5 and 12). -/
def sramDefault (c : Cores) (k : Nat) : Byte := if scramOf c k = 0 then 0 else Config.grottoByte (scramOf c k) (k % 2097152)

def sramAt (c : Cores) (k : Nat) : Byte := (smapFind c.sram k).getD (sramDefault c k)

/-- One byte written, in canonical form. -/
def sramSet (c : Cores) (k : Nat) (b : Byte) : Cores :=
  { c with sram := if scramOf c k = 0 then smapSet c.sram 0 k b else smapInsert c.sram k b }

/-- The canonical form of the scratchpads' bytes: rising keys, and none listed that reads 0 unlisted. -/
def sramWf (c : Cores) : Bool :=
  decide ((c.sram.map Prod.fst).Pairwise (· < ·)) && c.sram.all (fun kv => scramOf c kv.1 != 0 || decide (kv.2 ≠ 0))

/-- A scratchpad byte (R243), and bytes written from an address on. -/
def sramByte (s : State) (core a : Nat) : Byte := sramAt s.core (sramKey core a)
def sramRead (s : State) (core a n : Nat) : List Byte := tabulate n (fun i => sramByte s core (a + i))
def sramPut (c : Cores) (k : Nat) : List Byte → Cores
  | [] => c
  | b :: bs => sramPut (sramSet c k b) (k + 1) bs
def sramWrite (s : State) (core a : Nat) (bs : List Byte) : State := { s with core := sramPut s.core (sramKey core a) bs }

/-- Bytes of scratchpad under the core's split (R243). -/
def sramSize (s : State) (core : Nat) : Nat := 2097152 - s.get F.coreGrottoStatus_CACHE_WAYS core * 131072

/-- The victim generator returned to its start (R251, Table 8.4). -/
def resetVictim (s : State) (core : Nat) : State := setFlags s core { coreFlags s core with lfsr := 0xACE1 }

/-- The contents of ways `lo` to `hi` − 1 as they turn from cache into scratchpad: a free value (R245, log 12). -/
def scramble (s : State) (core lo hi : Nat) : State :=
  let step (k : Nat) : Nat := 15 - k % 2097152 / 131072
  let c := { s.core with sram := smapDrop s.core.sram (fun k => k / 2097152 == core && decide (lo ≤ step k) && decide (step k < hi)) }
  let c := { c with scram := (List.range (hi - lo)).foldl (fun m j => smapInsert m (core * 16 + lo + j) (s.free + 1)) c.scram }
  { s with core := c, free := s.free + 1 }

/-- A new split for a core with no resident block (R243, R245): dirty bytes written back, the whole cache invalidated; what turns
from cache into scratchpad has no defined contents. -/
def setSplit (s : State) (core ways : Nat) : State :=
  let was := s.get F.coreGrottoStatus_CACHE_WAYS core
  if was = ways then s
  else
    let s := (glInvalidate (glFlush s core) core).put F.coreGrottoStatus_CACHE_WAYS ways core
    if ways < was then scramble s core ways was else s

/-- A bind's clearing (R147, R255): register file, register caches, scratchpad, accumulators zeroed, read-only caches and segment
cache invalid, B stores empty. The Grotto cache has been written back before. -/
def clearCore (s : State) (core : Nat) : State :=
  let c := s.core
  let c := { c with rf := smapDrop c.rf (fun k => k / 262144 == core), rc := smapDrop c.rc (fun k => k / 128 == core) }
  let c := { c with sram := smapDrop c.sram (fun k => k / 2097152 == core), scram := smapDrop c.scram (fun k => k / 16 == core) }
  let c := { c with acc := smapDrop c.acc (fun k => k / 65536 == core) }
  let c := { c with bst := smapDrop c.bst (fun k => k / 4 == core), feed := smapDrop c.feed (fun k => k / 4 == core) }
  let c := { c with ro := c.ro.filter (fun l => l.core != core) }
  { s with core := { c with lreq := c.lreq.filter (fun l => l.core != core), segCache := c.segCache.filter (fun x => x.1 != core) } }

end Sys2Proof.Machine
end

