-- ==== Sys2Proof/Machine/Packet.lean ====
section
/-! DEFINITION. Umbor packets (Tables 12.3, 12.4), the choice of port (R402), sending, and what every sailing shares: its
packets, its arbiter and its abort (R371, R372). -/

namespace Sys2Proof.Machine

/-- A field of a packet. -/
def pf (p : Packet) (hi lo : Nat) : Nat := bitsOf p.toNat hi lo

/-- A packet with its fields (high bit, low bit, value); bits not named are 0 (R390). -/
def mkPacket (l : List (Nat × Nat × Nat)) : Packet := BitVec.ofNat 256 (l.foldl (fun x f => withBits x f.1 f.2.1 f.2.2) 0)

def pkType (p : Packet) : Nat := pf p 7 0
def pkStatus (p : Packet) : Nat := pf p 11 8
def pkDest (p : Packet) : Nat := pf p 31 16
def pkSrc (p : Packet) : Nat := pf p 47 32
def pkTag (p : Packet) : Nat := pf p 63 48
def pkOffset (p : Packet) : Nat := pf p 105 64 * 64
def pkBerth (p : Packet) : Nat := pf p 59 48
def pkAttempt (p : Packet) : Nat := pf p 61 60
def pkFerry (p : Packet) : Nat := pf p 68 64
def pkEntry (p : Packet) : Nat := pf p 91 80
def pkCycleLo (p : Packet) : Nat := pf p 107 92
def pkReason (p : Packet) : Nat := pf p 115 108

/-- Types of Table 12.3. -/
def tRead : Nat := 0x01
def tReadResp : Nat := 0x02
def tWrite : Nat := 0x03
def tWriteMasked : Nat := 0x04
def tWriteAck : Nat := 0x05
def tSailRun : Nat := 0x10
def tLandAck : Nat := 0x11
def tSettle : Nat := 0x12
def tCut : Nat := 0x13
def tTurnBack : Nat := 0x14
def tMissed : Nat := 0x15
def tWindow : Nat := 0x16
def tNodeReset : Nat := 0x17
def tBeacon : Nat := 0x20

/-- Positions and data slots of a packet (Table 12.3); none for a reserved TYPE. -/
def packetShape (p : Packet) : Option (Nat × Nat) :=
  if (pkType p) = tRead then some (1, 0)
  else if (pkType p) = tReadResp then some (1, if (pkStatus p) < 2 then 1 else 0)
  else if (pkType p) = tWrite then some (1, 1)
  else if (pkType p) = tWriteMasked then some (2, 1)
  else if (pkType p) = tWriteAck then some (1, 0)
  else if (pkType p) = tSailRun then some (2, pf p 203 192)
  else if (pkType p) = tLandAck then some (2, 0)
  else if tSettle ≤ (pkType p) ∧ (pkType p) ≤ tNodeReset then some (1, 0)
  else if (pkType p) = tBeacon then some (1, 0)
  else none

/-- This node's number. -/
def thisNode (s : State) : Nat := s.get F.fabNode_NODE

/-- ACTIVE ports in ascending order. -/
def activePorts (s : State) : List Nat := (List.range 16).filter (fun p => s.get F.fabPortStatus_STATE p == 2)

/-- ACTIVE ports that may take new packets: one that DISABLE drains takes none (DEDUCED, log 47). -/
def openPorts (s : State) : List Nat := (activePorts s).filter (fun p => !s.isSet F.fabPortCtrl_DISABLE p)

/-- The port of R402 for destination node `d` and stream `c`; none while no port is ACTIVE. -/
def portFor (s : State) (d c : Nat) : Option Nat := (openPorts s)[(d + c) % (openPorts s).length]?

/-- Slots of the peer's 2 MiB buffer, and of the 1 MiB replay buffer (R388). -/
def peerSlots : Nat := 32768
def replaySlots : Nat := 16384

def PortState.initial : PortState := ⟨0, 0, [], [], 0, peerSlots, 7, 0, 0, [], [], [], [], false, 0⟩

def portState (s : State) (p : Nat) : PortState := smapGet s.fab.port PortState.initial p

def setPort (s : State) (p : Nat) (x : PortState) : State :=
  { s with fab := { s.fab with port := smapSet s.fab.port PortState.initial p x } }

/-- Tags of Table 12.2. -/
def tagHeader : Nat := 2
def tagLink : Nat := 3
def tagData (l : Line) : Nat := if l.1 then 1 else 0

/-- The lane after `last` in a lane set, in ascending order round the eight (R386). -/
def nextLane (set last : Nat) : Nat := (((List.range 8).map (fun k => (last + 1 + k) % 8)).find? (fun l => set.testBit l)).getD 0

/-- A slot leaves a port on the next lane of its lane set (R386). -/
def emitSlot (port : Nat) (s : State) (tag : Nat) : State :=
  let x := portState s port
  let l := nextLane (s.get F.fabPortStatus_LANE_SET port) x.lane
  let s := setPort s port { x with lane := l, quiet := if tag = tagLink then 0 else x.quiet + 1 }
  { s with out := { s.out with slots := s.out.slots ++ [⟨port, l, tag⟩] } }

/-- A link message; in an ACTIVE port it takes a LINK slot. -/
def linkSend (s : State) (port : Nat) (m : LinkMsg) : State :=
  let s := { s with out := { s.out with link := s.out.link ++ [(port, m)] } }
  if s.get F.fabPortStatus_STATE port = 2 then emitSlot port s tagLink else s

/-- A header or data slot; after 8,191 slots without one a LINK slot follows, of no credits (R388; DESIGN CHOICE, log 47). -/
def emit (port : Nat) (s : State) (tag : Nat) : State :=
  let s := emitSlot port s tag
  if 8191 ≤ (portState s port).quiet then linkSend s port (.credit 0) else s

/-- Slots of a packet in a header slot of its own. -/
def SentPkt.slots (k : SentPkt) : Nat := 1 + k.lines.length

/-- The slots of a packet on the wire. -/
def emitPkt (port : Nat) (s : State) (k : SentPkt) : State :=
  let s := (tagHeader :: k.lines.map tagData).foldl (emit port) s
  { s with out := { s.out with pkts := s.out.pkts ++ [(port, k.p)] } }

/-- A packet leaves a port: a header slot of its own, kept in the replay buffer with its lines until acknowledged (R388). -/
def leavePort (s : State) (port : Nat) (k : SentPkt) : State :=
  let x := portState s port
  emitPkt port (setPort s port { x with tx := (x.tx + 1) % 4096, replay := x.replay ++ [⟨x.tx, [k]⟩], credits := x.credits - k.slots }) k

/-- Slots the replay buffer holds. -/
def PortState.kept (x : PortState) : Nat := (x.replay.flatMap (fun k => k.pkts)).foldl (fun n k => n + k.slots) 0

/-- Packets that wait leave in order while the port is ACTIVE and credits and replay buffer last (R388, R394). -/
def pumpQueue : Nat → State → Nat → State
  | 0, s, _ => s
  | n + 1, s, port =>
    let x := portState s port
    match x.queue with
    | [] => s
    | k :: ks =>
      if s.get F.fabPortStatus_STATE port = 2 ∧ k.slots ≤ x.credits ∧ x.kept + k.slots ≤ replaySlots then
        pumpQueue n (leavePort (setPort s port { x with queue := ks }) port k) port
      else s

def pumpPort (s : State) (port : Nat) : State := pumpQueue (portState s port).queue.length s port

/-- A packet given to a port (R388). A peer access of this node notes the port (R409). -/
def sendOn (s : State) (port : Nat) (p : Packet) (lines : List Line := []) (stream : Option Nat := none) : State :=
  let x := portState s port
  let own (q : PeerReq) : Bool := (pkType p == tRead || pkType p == tWrite || pkType p == tWriteMasked) && pkSrc p == thisNode s && q.tag == pkTag p
  let s := setPort s port { x with queue := x.queue ++ [⟨p, lines, stream⟩] }
  pumpPort { s with fab := { s.fab with reqs := updWhere s.fab.reqs own (fun q => { q with port := port }) } } port

/-- Whether a packet is of stream `c` to node `d`. -/
def ofStream (c d : Nat) (k : SentPkt) : Bool := k.stream == some c && pkDest k.p == d

/-- Whether a stream must hold what it sends on a port (R402): a packet of it is held already, or a port it used before still holds one
that is neither acknowledged nor lost. -/
def mustHold (s : State) (c d port : Nat) : Bool :=
  s.fab.held.any (ofStream c d) || s.fab.port.any (fun px => px.1 != port && (px.2.replay.flatMap (fun k => k.pkts) ++ px.2.queue).any (ofStream c d))

/-- Whether a port retrains, so that a stream with no port ACTIVE waits for it. -/
def retraining (s : State) : Bool := (List.range 16).any (fun p => s.get F.fabPortStatus_STATE p == 3)

/-- A packet held for its stream (R402). -/
def holdPkt (s : State) (k : SentPkt) : State := { s with fab := { s.fab with held := s.fab.held ++ [k] } }

/-- A packet sent by R402, or held while its stream's port changes; with no port ACTIVE and none that retrains it is lost (log 47). -/
def fabSend (s : State) (c : Nat) (p : Packet) (lines : List Line := []) : State :=
  match portFor s (pkDest p) c with
  | none => if retraining s then holdPkt s ⟨p, lines, some c⟩ else s
  | some q => if mustHold s c (pkDest p) q then holdPkt s ⟨p, lines, some c⟩ else sendOn s q p lines (some c)

/-- A response: on the port the request arrived on, or by R402 with c = 0 while that port is not ACTIVE. -/
def fabReply (s : State) (port : Nat) (p : Packet) (lines : List Line := []) : State :=
  if s.get F.fabPortStatus_STATE port = 2 then sendOn s port p lines else fabSend s 0 p lines

/-- Slots a port holds: those that wait and those not acknowledged. -/
def queuedSlots (s : State) (p : Nat) : Nat := (portState s p).queue.foldl (fun n k => n + k.slots) (portState s p).kept

/-- The port of a set with the fewest slots queued, the lowest of equals (R403). -/
def leastQueued (s : State) : List Nat → Option Nat
  | [] => none
  | p :: ps =>
    match leastQueued s ps with
    | none => some p
    | some q => if queuedSlots s p ≤ queuedSlots s q then some p else some q

/-! Sailings at their sender. -/

/-- The fields every packet of a sailing carries. -/
def sailFields (s : State) (x : Sailing) (ty : Nat) : List (Nat × Nat × Nat) :=
  [(7, 0, ty), (31, 16, x.node), (47, 32, thisNode s), (59, 48, x.berth), (61, 60, x.attempt % 4), (68, 64, x.f),
   (91, 80, x.entry), (107, 92, x.cycle)]

/-- EXTRA of a sailing's record (R377). -/
def sailExtra (entry cycle reason : Nat) : Nat := entry % 4096 + cycle % 65536 * 4096 + reason % 256 * 2 ^ 28

/-- Unit ID of a ferry. -/
def ferryUnit (f : Nat) : Nat := unitId 7 f

def sailingIs (x : Sailing) (y : Sailing) : Bool := x.f == y.f && x.entry == y.entry && x.cycle == y.cycle

/-- A sailing changed. -/
def updSailing (s : State) (x : Sailing) (g : Sailing → Sailing) : State :=
  { s with sail := { s.sail with sailings := updWhere s.sail.sailings (fun y => sailingIs x y) g } }

/-- Whether a sailing is departed and not settled. -/
def Sailing.live (x : Sailing) : Bool :=
  match x.st with
  | .sailing => true | .cutting => true | .waiting => true | _ => false

/-- Sailings of a ferry departed and not settled, oldest first. -/
def liveSailings (s : State) (f : Nat) : List Sailing := s.sail.sailings.filter (fun x => x.f == f && x.live)

/-- FERRY_STATUS UNSETTLED, ENTRY, CYCLE and STATE shown (Table 11.9): the entry considered is a sailing returned to WAITING
(R358), else the next one. -/
def ferryShow (s : State) (f : Nat) : State :=
  let live := liveSailings s f
  let s := s.put F.ferryStatus_UNSETTLED live.length f
  let back := live.find? (fun x => x.st == .waiting)
  let e := match back with | some x => x.entry | none => smapGet s.sail.entry 0 f
  let k := match back with | some x => x.cycle | none => smapGet s.sail.cycle 0 f
  let s := (s.put F.ferryStatus_ENTRY e f).put F.ferryStatus_CYCLE k f
  if s.get F.ferryStatus_STATE f = 5 then s
  else
    let running := s.isSet F.ferryCtrl_RUN f
    let st :=
      if (back.bind (fun x => x.segWait)).isSome || ((running || back.isSome) && s.sail.held.contains (f, e, k)) then 3
      else if running && s.get F.tideLock_STATE = 4 && s.isSet F.ferryCtrl_LOST_ACTION f then 4
      else if live.any (fun x => x.st == .sailing || x.st == .cutting) then 2
      else if running || back.isSome then 1
      else 0
    s.put F.ferryStatus_STATE st f

/-- A control packet of a ferry (R402's c = 240 + ferry number; DEDUCED for the sailing's own packets, log 16). -/
def ferrySend (s : State) (f : Nat) (p : Packet) : State := fabSend s (240 + f) p

/-- SETTLE_BOLLARD of a sailing's route, captured when it departs. -/
def settleBollard (s : State) (x : Sailing) : State :=
  match x.settle with
  | none => s
  | some n => bolSend s n 1

/-- An abort that reached the arbiter first (R371, R372): settle ABORTED, the settlement bollard, ABORTED, record 0x0B13. -/
def abortSailing (s : State) (x : Sailing) (reason : Nat) : State :=
  if !x.live then s
  else
    let s := updSailing s x (fun y => { y with st := .aborted, reason := reason })
    let s := ferrySend s x.f (mkPacket (sailFields s x tSettle ++ [(115, 108, reason), (116, 116, 1)]))
    let s := (settleBollard s x).bumpSat F.ferryExc_ABORTED 1 x.f
    let s := post s (ferryUnit x.f) (some x.ctx) 0 0x0B13 (sailExtra x.entry x.cycle reason)
    ferryShow s x.f

/-- Lines of a sailing's attempt were lost (R373): its ferry stops issuing; the third cut aborts it. -/
def cutSailing (s : State) (x : Sailing) : State :=
  if x.st = .sailing then
    if 2 ≤ x.cuts then abortSailing s x 0x25 else ferryShow (updSailing s x (fun y => { y with st := .cutting, cuts := y.cuts + 1 })) x.f
  else s

/-- The sender's sailing that a packet names. -/
def sailingOf (s : State) (ferry entry cycleLo : Nat) : Option Sailing :=
  s.sail.sailings.find? (fun x => x.live && x.f == ferry && x.entry == entry && x.cycle % 65536 == cycleLo)

/-- A SAIL_RUN reported lost (R394, R402): its ferry cuts the sailing, where the attempt is the current one. -/
def runLost (s : State) (p : Packet) : State :=
  match sailingOf s (pkFerry p) (pkEntry p) (pkCycleLo p) with
  | some x => if x.attempt % 4 = pkAttempt p then cutSailing s x else s
  | none => s

/-- The entry a ferry waits to depart, as a sailing that has not departed. -/
def nextSailing (s : State) (f : Nat) : Sailing :=
  let e := smapGet s.sail.entry 0 f
  let r := s.get F.tt_ROUTE f e
  { f := f, entry := e, cycle := smapGet s.sail.cycle 0 f, attempt := 0, cuts := 0, berth := s.get F.tt_BERTH f e,
    node := s.get F.ferryRoute_NODE f r, ctx := s.get F.ferryCtrl_OWNER f,
    src := s.get F.ferryRoute_SRC_BASE f r + s.get F.tt_SRC_SEL f e * s.get F.ferryRoute_SRC_STRIDE f r,
    lines := s.get F.tt_LINES f e, sent := 0, limit := 8192, ports := [], st := .sailing, reason := 0,
    settle := if s.isSet F.ferryRoute_SETTLE_EN f r then some (s.get F.ferryRoute_SETTLE_BOLLARD f r) else none,
    last := 0, segWait := none, segStart := 0 }

/-- The sailings of a ferry's waiting entry: it is waiting while RUN is 1. -/
def abortWaiting (s : State) (f reason : Nat) : State :=
  if s.isSet F.ferryCtrl_RUN f then
    let x := nextSailing s f
    abortSailing { s with sail := { s.sail with sailings := s.sail.sailings ++ [x] } } x reason
  else s

/-- An entry no longer held past its limit. -/
def dropHeld (s : State) (f e k : Nat) : State := { s with sail := { s.sail with held := s.sail.held.filter (fun h => h != (f, e, k)) } }

/-- The ferry's next entry, and the cycle it belongs to (R358); RUN clears once the last entry of CYCLE_LIMIT has departed. -/
def ferryAdvance (s : State) (f : Nat) : State :=
  let e := smapGet s.sail.entry 0 f
  let k := smapGet s.sail.cycle 0 f
  let s := dropHeld s f e k
  if s.isSet F.tt_LAST f e then
    let lim := s.get F.ferryCtrl_CYCLE_LIMIT f
    let s := { s with sail := { s.sail with entry := smapSet s.sail.entry 0 f 0, cycle := smapSet s.sail.cycle 0 f (k + 1) } }
    if lim != 0 && decide (lim ≤ k + 1) then s.put F.ferryCtrl_RUN 0 f else s
  else { s with sail := { s.sail with entry := smapSet s.sail.entry 0 f (e + 1) } }

/-- Every live sailing of a ferry and the entry that waits aborted, and RUN cleared (R372, R375). -/
def abortFerry (s : State) (f reason : Nat) : State :=
  let s := (liveSailings s f).foldl (fun s x => abortSailing s x reason) s
  let s := abortWaiting s f reason
  ferryShow { s.put F.ferryCtrl_RUN 0 f with sail := { s.sail with held := s.sail.held.filter (fun h => h.1 != f) } } f

/-- A context's ferries aborted (R372). -/
def abortFerriesOf (s : State) (c reason : Nat) : State :=
  ((List.range 32).filter (fun f => s.isSet F.ferryCtrl_VALID f && s.get F.ferryCtrl_OWNER f == c)).foldl
    (fun s f => abortFerry s f reason) s

end Sys2Proof.Machine
end

