-- ==== Sys2Proof/Machine/ContextEnd.lean ====
section
/-! DEFINITION. Memory-object references, queue entries (13), the end of a context (R209, R210, R428), the end of a job, and the
device-fatal error (R506). -/

namespace Sys2Proof.Machine

/-! Memory objects. -/

def MoRec.initial : MoRec := ⟨0, 0, 0, 0, false, 0, 0⟩

def moRec (s : State) (i : Nat) : MoRec := smapGet s.obj.mo MoRec.initial i

def setMo (s : State) (i : Nat) (m : MoRec) : State :=
  { s with obj := { s.obj with mo := smapSet s.obj.mo MoRec.initial i m } }

/-- One reference dropped; at 0 the object is FREE in the same step (R422). -/
def moDrop (s : State) (i : Nat) : State :=
  let m := moRec s i
  if m.refs ≤ 1 then setMo s i MoRec.initial else setMo s i { m with refs := m.refs - 1 }

def dropHolds (s : State) (holds : List Nat) : State := holds.foldl moDrop s

/-! Queues. -/

def QRec.initial : QRec := ⟨0, 0, 0, false, [], none, 0, 0, []⟩

def qRec (s : State) (q : Nat) : QRec := smapGet s.obj.q QRec.initial q

/-- A queue's record stored, IN_FLIGHT shown (Table 13.18). -/
def setQ (s : State) (q : Nat) (x : QRec) : State :=
  State.put { s with obj := { s.obj with q := smapInsert s.obj.q q x } } F.qStatus_IN_FLIGHT x.entries.length q

def qEntry (s : State) (q idx : Nat) : Option QEntry := (qRec s q).entries.find? (fun e => e.idx == idx)

def updEntry (s : State) (q idx : Nat) (f : QEntry → QEntry) : State :=
  setQ s q { qRec s q with entries := updWhere (qRec s q).entries (fun e => e.idx == idx) f }

/-- An entry's outcome decided, once (R441). -/
def qFinish (s : State) (q idx st rs : Nat) : State :=
  updEntry s q idx (fun e => if e.fin.isNone then { e with fin := some (st, rs) } else e)

/-- Queues bound to a context. -/
def queuesOf (s : State) (c : Nat) : List Nat :=
  (s.obj.q.map Prod.fst).filter (fun q => s.get F.qStatus_STATE q != 0 && s.get F.qStatus_CONTEXT q == c)

/-! A job's end. -/

/-- The record of a thread's place, for a halt. -/
def issuedAt (s : State) (b : BlockRec) (slot : Nat) (f : Frag) : IssuedAt where
  core := b.core
  pcore := (s.physCore b.core).getD 0xFF
  entry := ((launchRec s b.launch).map (fun l => l.entry)).getD 0
  slot := slot
  idx := b.idx
  pc := f.pc
  mask := f.mask

/-- The status a queue's job completes with: of an ended context, of a cancel, or OK. -/
def jobStatus (s : State) (c : Nat) (cancelled : Bool) : Nat :=
  if s.ctxState c = 3 || s.ctxState c = 4 then 4 else if cancelled then 2 else 0

/-- Blocks of a launch. -/
def Launch.total (l : Launch) : Nat := l.gx * l.gy * l.gz

/-- A launch's blocks have ended, or, cancelled, no placed one is left (R198, R441), and every write it sent to a peer has been
acknowledged (R198, R227). -/
def launchOver (s : State) (l : Launch) : Bool :=
  (l.ended == l.total || (l.cancelled && !s.run.blocks.any (fun b => b.launch == l.id)))
    && !s.fab.reqs.any (fun x => x.write && x.launch == l.id)

/-- What a launch's cores hold dirty is written back, so that its writes are visible at SYSTEM scope (R198, R227; DEDUCED, log 52). -/
def launchFlush (s : State) (l : Launch) : State :=
  (l.cores.filter (fun k => s.get F.coreBinding_CONTEXT k == l.ctx)).foldl glFlush s

/-- A launch that is over ends: its token, and its entry's outcome. -/
def launchCheck (s : State) (lid : Nat) : State :=
  match launchRec s lid with
  | none => s
  | some l =>
    if launchOver s l then
      let s := launchFlush s l
      let s := { s with run := { s.run with launches := s.run.launches.filter (fun x => x.id != lid) } }
      qFinish s l.queue l.qidx (jobStatus s l.ctx l.cancelled) 0
    else s

/-- Whether a core is in use: it has a resident block (R146) or a segmented multiply's task (R128), or an ACCUMULATING routine that
has started runs on it to its end (R206; DEDUCED, log 52). -/
def coreBusy (s : State) (core : Nat) : Bool :=
  let on (o : Origin) : Bool := match o with | .block _ i => i.core == core | .queue _ _ => false
  s.run.blocks.any (fun b => b.core == core)
    || s.eng.seg.any (fun m => m.tasks.any (fun t => !t.done && t.core == some core))
    || s.eng.jobs.any (fun j => j.acc && j.started && on j.origin)

/-- A core no longer in use is free; BOUND clears (R146, Table 5.5). -/
def freeCore (s : State) (core : Nat) : State :=
  if coreBusy s core then s
  else setFlags (s.put F.coreBinding_BOUND 0 core) core { coreFlags s core with closed := false }

/-- A block leaves its core: slots free, register-cache entries discarded without write-back (R176). Its token posts stay in the
operation buffer until their gates take them (R199). -/
def dropBlock (s : State) (b : BlockRec) : State :=
  let gone (k : Nat) : Bool := k / 128 == b.core && b.slots.contains (k % 128)
  let r := s.run
  let r := { r with blocks := r.blocks.filter (fun x => x.id != b.id), slots := smapDrop r.slots gone }
  let r := { r with ops := r.ops.filter (fun o => o.block != b.id || o.token == 64) }
  let s := unpark { s with run := r, core := { s.core with rc := smapDrop s.core.rc gone } } b.ctx (fun p => p.who == .thread b.id)
  freeCore (showCore s b.core) b.core

/-- A block ends (R142), and counts toward its launch (R198). -/
def endBlock (s : State) (b : BlockRec) : State :=
  launchCheck (updLaunch (dropBlock s b) b.launch (fun l => { l with ended := l.ended + 1 })) b.launch

/-- Fragments of a block. -/
def blockFrags (s : State) (id : Nat) : List Frag := (s.run.slots.filter (fun kr => kr.2.block == id)).flatMap (fun kr => kr.2.frags)

/-- A block whose last thread waits at its exit ends once its token table is DONE (R196). -/
def exitReady (s : State) (id : Nat) : State :=
  let waits (f : Frag) : Bool := match f.wait with | .exit _ => true | _ => false
  match blockRec s id with
  | none => s
  | some b =>
    if b.tokens.all (fun t => t.done) && (blockFrags s id).any waits && (blockFrags s id).all waits then endBlock s b else s

/-- A token of a block produced, with what follows from it. -/
def tokenDone (s : State) (id e : Nat) : State := exitReady (produceToken s id e) id

/-- The unit of a unit ID is in service. -/
def unitUp (s : State) (u : Nat) : Bool := !s.eng.down.contains u

/-- Jobs of a unit, in arrival order. -/
def jobsOf (s : State) (u : Nat) : List EngJob := s.eng.jobs.filter (fun j => j.unit == u)

def setJobs (s : State) (js : List EngJob) : State := { s with eng := { s.eng with jobs := js } }

def updJob (s : State) (id : Nat) (f : EngJob → EngJob) : State := setJobs s (updWhere s.eng.jobs (fun j => j.id == id) f)

def jobRec (s : State) (id : Nat) : Option EngJob := s.eng.jobs.find? (fun j => j.id == id)

/-- ENG_STATUS of a tender, update engine or dispatch engine shown (Table 10.8). -/
def engShow (s : State) (u : Nat) : State :=
  if u / 4096 = 8 ∨ u / 4096 = 9 ∨ u / 4096 = 10 then
    let js := jobsOf s u
    let i := engIndex u
    let s := s.put F.engStatus_BUSY (if js.any (fun j => j.started && j.parked.isNone) then 1 else 0) i
    let s := s.put F.engStatus_QUEUED (js.filter (fun j => !j.started)).length i
    match js.find? (fun j => j.started) with
    | some j => s.put F.engStatus_CONTEXT j.ctx i
    | none => s
  else s

/-- Whether a unit may start jobs: its engine domain is on (R488); jobs already queued finish before an OFF (Table 15.6). -/
def mayStart (s : State) (u : Nat) : Bool :=
  if u / 4096 = 8 ∨ u / 4096 = 9 ∨ u / 4096 = 10 then
    s.domOn (domOfEngines (tileOfUnit u))
  else true

/-- A routine's save record as it starts: CURSOR 0 (R201). -/
def routineBegin (s : State) (j : EngJob) : State :=
  match j.job, j.origin with
  | .routine r, .block _ i => sramWrite s i.core r.save (leBytes 8 0)
  | _, _ => s

/-- A P-state switch has started and is not made: no ACCUMULATING routine starts (R493). -/
def clockDue (s : State) : Bool := (s.pwr.cmd.find? (fun p => p.1 == 40)).any (fun p => p.2.started)

/-- The first job of a unit that runs serially starts once nothing of the unit runs (R194), its context's work being allowed
(R429). Arrays and the Harbourmaster take theirs by commands of their own. -/
def startHead (s : State) (u : Nat) : State :=
  if u / 4096 = 2 ∨ u / 4096 = 13 then s
  else
    let js := jobsOf s u
    if js.any (fun j => j.started && j.parked.isNone) || !mayStart s u then engShow s u
    else
      match js.find? (fun j => !j.started && s.ctxRuns j.ctx) with
      | none => engShow s u
      | some j => if j.acc && clockDue s then s else engShow (routineBegin (updJob s j.id (fun x => { x with started := true })) j) u

/-- The core a job of a block was issued on may be free once the job has gone. -/
def freeOf (s : State) (o : Origin) : State := match o with | .block _ i => freeCore s i.core | .queue _ _ => s

/-- A job taken out of its unit; the next starts. -/
def dropJob (s : State) (id : Nat) : State :=
  match jobRec s id with
  | none => s
  | some j =>
    let s := unpark (setJobs s (s.eng.jobs.filter (fun x => x.id != id))) j.ctx (fun p => p.who == .job id)
    startHead (if j.acc && j.started then freeOf s j.origin else s) j.unit

/-- Where a job's completion goes (R195, R225, R437): the completion bollard, then the token once the advance is applied; or the
queue entry's outcome. Work cut short has not completed its writes, and advances nothing (R225). -/
def completeTo (s : State) (c : Nat) (o : Origin) (tok : Nat) (bol : Option (Nat × Nat)) (cut : Bool) : State :=
  match o with
  | .queue q idx => qFinish s q idx (jobStatus s c cut) 0
  | .block id _ =>
    match if cut then none else bol with
    | none => tokenDone s id tok
    | some (n, inc) => if s.run.bolQ.isEmpty then tokenDone (bolApply s n inc) id tok else bolSend s n inc (.token id tok)

/-- A job ended: it leaves its unit and completes. -/
def finishJob (s : State) (j : EngJob) (cancelled : Bool := false) : State :=
  completeTo (dropJob s j.id) j.ctx j.origin j.token j.bollard (cancelled || j.stopping)

/-! The end of a context. -/

/-- Handles of a segmented multiply, each once (R426). -/
def segHandles (m : SegMul) : List Nat := (m.runs.map (fun r => r.handle)).foldl setInsert []

def dropSegHolds (s : State) (m : SegMul) : State :=
  (segHandles m).foldl (fun s h => s.put F.coreAdapterHolds_HOLDS (s.get F.coreAdapterHolds_HOLDS h - 1) h) s

/-- Whether a started job runs on under its own chapter's rules when its context ends: tender and dispatch jobs to their next
boundary, update jobs and ACCUMULATING routines to their end (R209, Table 13.14 step 4). -/
def runsOn (j : EngJob) : Bool :=
  j.started && (match j.job with
    | .tender _ => true | .update _ => true | .dispatch _ => true | .combine _ => true | .routine _ => j.acc
    | _ => false)

/-- A context's jobs at its end: what has started ends under its own rules, the rest is discarded. -/
def endJobs (s : State) (c : Nat) : State :=
  let s0 := s
  let s := (s.eng.seg.filter (fun m => m.job.ctx == c)).foldl dropSegHolds s
  let stop (j : EngJob) : EngJob := if j.ctx = c then { j with stopping := true, parked := none } else j
  let units := (s.eng.jobs.filter (fun j => j.ctx == c)).map (fun j => j.unit)
  let s := { s with eng := { s.eng with
      jobs := (s.eng.jobs.filter (fun j => j.ctx != c || runsOn j)).map stop,
      seg := s.eng.seg.filter (fun m => m.job.ctx != c) } }
  let cores := (s0.eng.seg.filter (fun m => m.job.ctx == c)).flatMap (fun m => m.tasks.filterMap (fun t => t.core))
  cores.foldl freeCore (units.foldl startHead s)

/-- Entries of a context's queues that have not completed (R428): CONTEXT_ENDED, but for the entry `own`, which takes its own
status, and for entries whose engine job runs on, which complete when it ends. -/
def endEntries (s : State) (c : Nat) (own : Option (Nat × Nat × Nat × Nat)) (teardown : Bool) : State :=
  let running (q idx : Nat) : Bool :=
    s.eng.jobs.any (fun j => runsOn j && (match j.origin with | .queue q' i => q' == q && i == idx | _ => false))
  let fin (q : Nat) (e : QEntry) : QEntry :=
    match own with
    | some (q', i, st, rs) =>
      if q' = q && i == e.idx && e.fin.isNone then { e with fin := some (st, rs) }
      else if e.fin.isNone && !running q e.idx then { e with fin := some (if teardown && !e.started then 2 else 4, 0) } else e
    | none => if e.fin.isNone && !running q e.idx then { e with fin := some (if teardown && !e.started then 2 else 4, 0) } else e
  (queuesOf s c).foldl (fun s q => setQ s q { qRec s q with entries := (qRec s q).entries.map (fin q) }) s

/-- What of a context is running on cores ends: launches, blocks, group slots, operation buffers, outstanding accesses. -/
def endRunning (s : State) (c : Nat) : State :=
  let gone := (s.run.blocks.filter (fun b => b.ctx == c)).map (fun b => b.id)
  let cores := (s.run.blocks.filter (fun b => b.ctx == c)).map (fun b => b.core)
  let r := s.run
  let r := { r with launches := r.launches.filter (fun l => l.ctx != c), blocks := r.blocks.filter (fun b => b.ctx != c) }
  let ended := (r.slots.filter (fun kr => gone.contains kr.2.block)).map Prod.fst
  let r := { r with slots := r.slots.filter (fun kr => !gone.contains kr.2.block), ops := r.ops.filter (fun o => o.ctx != c) }
  let s := { s with core := { s.core with rc := smapDrop s.core.rc ended.contains } }
  let s := { s with run := r, hl := { s.hl with reads := s.hl.reads.filter (fun h => h.ctx != c) } }
  let s := { s with fab := { s.fab with reqs := s.fab.reqs.filter (fun x => x.ctx != c) } }
  let s := { s with core := { s.core with lreq := s.core.lreq.filter (fun l => (s.run.slots.any (fun kr => kr.1 == slotKey l.core l.slot))) } }
  let s := State.put { s with mem := { s.mem with parked := s.mem.parked.filter (fun p => p.key / 16 != c) } } F.segFault_PARKED 0 c
  cores.foldl (fun s k => freeCore (showCore s k) k) s

/-- The end of a context (R209, R428): nothing further issues, queued work is discarded, sailings abort for `reason`, entries
complete. `own` is the queue entry whose own work ended the context, with its STATUS and REASON. -/
def endContext (s : State) (c : Nat) (own : Option (Nat × Nat × Nat × Nat) := none) (reason : Nat := 0x22) : State :=
  if s.ctxState c = 1 || s.ctxState c = 2 then
    let s := (s.put F.ctxState_STATE 3 c).put F.ctxState_SUSPENDING 0 c
    let s := s.setCtxRec c { s.ctxRec c with suspendArgs := [], halted := true }
    abortFerriesOf (endEntries (endJobs (endRunning s c) c) c own false) c reason
  else s

/-- The queue entry of a launch, or of a block's launch. -/
def entryOf (s : State) (block : Nat) : Option (Nat × Nat) :=
  ((blockRec s block).bind (fun b => launchRec s b.launch)).map (fun l => (l.queue, l.qidx))

/-- The halt record of R210, filled by the first halt: all ones where a field does not apply. -/
def haltRecord (s : State) (c reason info : Nat) (i : Option IssuedAt) : State :=
  let ones := 2 ^ 64 - 1
  let f (g : IssuedAt → Nat) : Nat := match i with | some x => g x | none => ones
  let s := (s.put F.coreHaltA_REASON reason c).put F.coreHaltA_LOGICAL_CORE (f (·.core)) c
  let s := (s.put F.coreHaltA_PHYS_CORE (f (·.pcore)) c).put F.coreHaltA_ENTRY (f (·.entry)) c
  let s := (s.put F.coreHaltA_SLOT (f (·.slot)) c).put F.coreHaltB_BLOCK (f (·.idx)) c
  let s := (s.put F.coreHaltB_NO_BLOCK (if i.isSome then 0 else 1) c).put F.coreHaltC_PC_OFFSET (f (·.pc)) c
  (s.put F.coreHaltC_ACTIVE_MASK (f (·.mask)) c).put F.coreHaltD_INFO info c

/-- A halt (R209 to R211): its record, the Sump record, and the end of the context. `qe` is the queue entry it belongs to. -/
def halt (s : State) (c reason info : Nat) (i : Option IssuedAt) (qe : Option (Nat × Nat)) : State :=
  let s :=
    if s.get F.coreHaltA_REASON c = 0 then
      let s := haltRecord s c reason info i
      post s (match i with | some x => if x.pcore = 0xFF then noUnit else unitId 1 x.pcore | none => noUnit) (some c) 1 reason info
    else s.put F.coreHaltA_MULTIPLE 1 c
  endContext s c (qe.map (fun x => (x.1, x.2, 1, reason)))

/-- INFO where a reason gives none. -/
def noInfo : Nat := 2 ^ 64 - 1

/-- A halt raised by a job (R210): the record takes its fields from the instruction that issued it. -/
def haltFrom (s : State) (c : Nat) (o : Origin) (reason info : Nat) : State :=
  match o with
  | .block id i => halt s c reason info (some i) (entryOf s id)
  | .queue q idx => halt s c reason info none (some (q, idx))

/-- A job's halt: the job is gone, its context ends. -/
def haltJob (s : State) (j : EngJob) (reason info : Nat) : State := haltFrom (dropJob s j.id) j.ctx j.origin reason info

/-- A contained error that is no halt (R428): its record, and the end of the context. -/
def contained (s : State) (c unit code extra : Nat) (own : Option (Nat × Nat × Nat × Nat) := none) : State :=
  endContext (post s unit (some c) 1 code extra) c own

/-- The end of a context that has lost its host path (R449). -/
def hostPathLost (s : State) (c addr : Nat) (own : Option (Nat × Nat)) : State :=
  if s.ctxState c = 1 || s.ctxState c = 2 then
    let s := (s.put F.ctxState_HOST_PATH_LOST 1 c).bumpSat F.hostStatus_PATH_LOST
    contained s c 0xD003 0x0D01 addr (own.map (fun x => (x.1, x.2, 5, 0)))
  else s

/-! The whole device. -/

/-- Contexts that are not FREE. -/
def liveContexts (s : State) : List Nat :=
  (List.range 4096).filter (fun c => s.ctxState c == 1 || s.ctxState c == 2)

/-- Whether a ferry has an unsettled sailing, or a settle that has not been sent (R407). -/
def ferryOpen (s : State) (f : Nat) : Bool :=
  !(liveSailings s f).isEmpty || s.fab.held.any (fun k => pkType k.p == tSettle && pkFerry k.p == f)

/-- Nodes told of this node's reset (R407). -/
def resetTargets (s : State) : List Nat :=
  let fs := (List.range 32).filter (ferryOpen s)
  let outs := fs.flatMap (fun f => ((List.range 64).filter (fun r => s.isSet F.ferryRoute_VALID f r)).map
    (fun r => s.get F.ferryRoute_NODE f r))
  let ins := s.sail.berth.filterMap (fun kb => kb.2.cur.map (fun k => k.node)) ++ s.sail.reorder.map (fun x => pkSrc x.p)
  (outs ++ ins).foldl setInsert []

/-- Every sailing aborted, after NODE_RESET has been sent (R407, R506, R451). -/
def resetSailings (s : State) (reason : Nat) : State :=
  let targets := resetTargets s
  let s := targets.foldl (fun s n => fabSend s 240 (mkPacket [(7, 0, tNodeReset), (31, 16, n), (47, 32, thisNode s)])) s
  (List.range 32).foldl (fun s f => abortFerry s f reason) s

/-- R506: a device-fatal error. -/
def deviceFatal (s : State) (unit code extra : Nat) : State :=
  let s := resetSailings s 0x28
  let s := (liveContexts s).foldl (fun s c => endContext s c none 0x28) s
  let s := (s.put F.hostStatus_READY 0).put F.fabNode_READY 0
  let s := post s unit none 3 code extra
  signalIf s (s.isSet F.faultCtrl_FATAL_EVENT_EN) (s.get F.faultCtrl_EVENT)

end Sys2Proof.Machine
end

