-- ==== Sys2Proof/Machine/Census.lean ====
section
/-! DEFINITION. The census (R61 to R66) and the adapter descriptor table (R121). -/

namespace Sys2Proof.Machine

/-- Accesses of the device itself, with no segment: class 0, regulator 0, no key slot. -/
def deviceRq : Rq := ⟨0, 0, 0⟩

/-- A physical address of the DRAM space reads as poisoned beyond its limit. -/
def physRead (s : State) (pa n : Nat) : (Bool × List Byte) × State :=
  if dramLimit s < pa + n then ((true, List.replicate n 0), limitRefused s) else devRead (n / 64 + 2) s deviceRq pa n

/-- An adapter descriptor (Table 4.5) as read; reserved bits are ignored (R13). -/
structure Adapter where
  a : Nat
  b : Nat
  ga : Nat
  gb : Nat
  aPitch : Nat
  bPitch : Nat
  gaPitch : Nat
  gbPitch : Nat
  inDim : Nat
  outDim : Nat
  owner : Nat
  rank : Nat
  format : Nat
  scaleExp : Nat
  valid : Bool
  deriving DecidableEq, Repr

def decodeAdapter (d : List Byte) : Adapter where
  a := leAt d 0 8
  b := leAt d 8 8
  ga := leAt d 0x10 8
  gb := leAt d 0x18 8
  aPitch := leAt d 0x20 4
  bPitch := leAt d 0x24 4
  gaPitch := leAt d 0x28 4
  gbPitch := leAt d 0x2C 4
  inDim := leAt d 0x30 4 % 131072
  outDim := leAt d 0x34 4 % 131072
  owner := leAt d 0x38 2 % 4096
  rank := leAt d 0x3A 1 % 128
  format := leAt d 0x3B 1
  scaleExp := leAt d 0x3C 1
  valid := (leAt d 0x3D 1).testBit 0

def adapterAddr (s : State) (h : Nat) : Nat := s.get F.coreAdapterTable_BASE * 4096 + 64 * h

/-- Whether a context owns census slot `h` (R61): none when it does, else the halt's reason and INFO. -/
def censusCheck (s : State) (c h : Nat) : Option (Nat × Nat) × State :=
  if !s.isSet F.coreAdapterTable_ENABLE then (some (0xA2, h), s)
  else
    let r := physRead s (adapterAddr s h) 64
    if r.1.1 then (some (0x46, adapterAddr s h), r.2)
    else
      let d := decodeAdapter r.1.2
      if d.valid && d.owner = c then (none, r.2) else (some (0xA2, h), r.2)

/-- The check of an optional slot. -/
def censusCheckOpt (s : State) (c : Nat) (h : Option Nat) : Option (Nat × Nat) × State :=
  match h with
  | none => (none, s)
  | some n => censusCheck s c n

/-- Non-finite elements counted into a slot (R63): NaNs, positive and negative infinities. -/
def censusNow (s : State) (h nans pinf ninf : Nat) : State :=
  if nans + pinf + ninf = 0 then s
  else
    let n := min (s.get F.coreCensus_COUNT h + nans + pinf + ninf) 0xFFFFFF
    let s := s.put F.coreCensus_COUNT n h
    let s := if n = 0xFFFFFF then s.put F.coreCensus_SATURATED 1 h else s
    let s := if nans = 0 then s else s.put F.coreCensus_NAN_SEEN 1 h
    let s := if pinf = 0 then s else s.put F.coreCensus_POS_INF_SEEN 1 h
    if ninf = 0 then s else s.put F.coreCensus_NEG_INF_SEEN 1 h

/-- The same for an engine, held back where its increments are (R204). -/
def censusAdd (s : State) (h nans pinf ninf : Nat) : State :=
  if s.eng.hold.isSome && nans + pinf + ninf != 0 then
    { s with eng := { s.eng with hold := s.eng.hold.map (fun l => l ++ [⟨h, nans, pinf, ninf⟩]) } }
  else censusNow s h nans pinf ninf

/-- Held increments applied. -/
def censusApply (s : State) (l : List CensusInc) : State := l.foldl (fun s x => censusNow s x.slot x.nans x.pinf x.ninf) s

/-- Census increments held back from here on. -/
def censusHold (s : State) : State := { s with eng := { s.eng with hold := some [] } }

/-- The increments held back, and the state that applies increments again. -/
def censusTake (s : State) : List CensusInc × State := (s.eng.hold.getD [], { s with eng := { s.eng with hold := none } })

/-- How many of the codes are NaNs, positive and negative infinities. -/
def Elem.censusOf (e : Elem) (codes : List Nat) : Nat × Nat × Nat :=
  let inf := codes.filter (fun x => e.isInf x)
  ((codes.filter (fun x => e.isNan x)).length, (inf.filter (fun x => !x.testBit (e.width - 1))).length,
    (inf.filter (fun x => x.testBit (e.width - 1))).length)

/-- Codes of a format counted. -/
def censusCodes (s : State) (h : Nat) (e : Elem) (codes : List Nat) : State :=
  let n := e.censusOf codes
  censusAdd s h n.1 n.2.1 n.2.2

def censusCodesOpt (s : State) (h : Option Nat) (e : Elem) (codes : List Nat) : State :=
  match h with
  | none => s
  | some n => censusCodes s n e codes

end Sys2Proof.Machine
end

