-- ==== Sys2Proof/Machine/Domains.lean ====
section
/-! DEFINITION. What ports, cores, slices and domains lose when they leave service or power (5, 8, 12, 15), and the stop of a
start (R469). -/

namespace Sys2Proof.Machine

/-- FAB_NODE PORTS_ACTIVE and a port's state shown (Tables 12.9, 12.11). -/
def setPortState (s : State) (p st : Nat) : State :=
  let s := s.put F.fabPortStatus_STATE st p
  s.put F.fabNode_PORTS_ACTIVE (activePorts s).length

/-- The lane set in use with its width. -/
def setLanes (s : State) (p lanes : Nat) : State :=
  (s.put F.fabPortStatus_LANE_SET lanes p).put F.fabPortStatus_WIDTH ((List.range 8).filter (fun l => lanes.testBit l)).length p

/-- A peer write lost, refused or timed out (R402, R406): record 0x0C12 with the port it was sent on (R409), its context ended. -/
def peerWriteLost (s : State) (x : PeerReq) : State :=
  let s := { s with fab := { s.fab with reqs := s.fab.reqs.filter (fun y => y.tag != x.tag) } }
  contained s x.ctx (unitId 0xE x.port) 0x0C12 x.node

/-- A packet reported lost at a port (R402): a thread's write ends its context, a sailing's lines cut it. -/
def packetLost (p : Nat) (s : State) (k : SentPkt) : State :=
  if pkType k.p = tWrite || pkType k.p = tWriteMasked then
    match s.fab.reqs.find? (fun x => x.write && x.tag == pkTag k.p) with
    | some x => if pkSrc k.p = thisNode s then peerWriteLost s x else s
    | none => s
  else if pkType k.p = tSailRun then runLost s k.p
  else s

/-- Packets a port held when it went down are lost (R402). -/
def losePackets (s : State) (p : Nat) : State :=
  let x := portState s p
  (x.replay.flatMap (fun k => k.pkts) ++ x.queue).foldl (packetLost p) (setPort s p { x with replay := [], queue := [] })

/-- A held packet sent, still held, or lost with the last port (R402). -/
def resumePkt (p : Nat) (s : State) (k : SentPkt) : State :=
  if (openPorts s).isEmpty && !retraining s then packetLost p s k else fabSend s (k.stream.getD 0) k.p k.lines

/-- Packets of streams that no longer wait are sent, as the ports or what port `p` holds change (R402). -/
def resumeHeld (s : State) (p : Nat) : State := s.fab.held.foldl (resumePkt p) { s with fab := { s.fab with held := [] } }

/-- Lanes that train alone on the wavelength they have, as a worn emitter's does (R382). -/
def swapLanes (s : State) (p : Nat) : List Nat := (((portState s p).moving.filter (fun m => s.get (F.fabLaneMap_WL m.1) p == m.2))).map Prod.fst

/-- A port's link at rest: no LANESET, no move, no request of its own; a lane that trained alone on its own wavelength is trained with
the port when it next trains. -/
def restLink (s : State) (p : Nat) : State :=
  let x := portState s p
  let own := swapLanes s p
  let bad := (List.range 8).foldl (fun n l => if x.lanes.testBit l && !own.contains l then n + 2 ^ l else n) 0
  setPort s p { x with asked := false, pending := [], crossed := [], due := [], moving := [], lanes := bad, credits := peerSlots }

/-- A port goes DOWN, or to DISABLED (R392, R402). -/
def portDown (s : State) (p : Nat) : State :=
  let s := setLanes (setPortState s p (if s.isSet F.fabPortCtrl_DISABLE p then 4 else 0)) p 0
  resumeHeld (losePackets (restLink s p) p) p

/-- A core's stores as retention leaves them (R93, R176, Table 8.4): register caches and Grotto written back before; register file,
scratchpad, slots, outstanding requests and binding stay, and the victim generator starts anew. -/
def retainCore (s : State) (core : Nat) : State :=
  let rows := s.core.rc.filter (fun kr => kr.1 / 128 == core)
  let s := rows.foldl (fun s kr => (kr.2.filter (fun r => r.dirty)).foldl (fun s r => writeBackRow s core (kr.1 % 128) r) s) s
  let s := glInvalidate (glFlush s core) core
  let c := s.core
  let c := { c with rc := smapDrop c.rc (fun k => k / 128 == core), acc := smapDrop c.acc (fun k => k / 65536 == core) }
  let c := { c with bst := smapDrop c.bst (fun k => k / 4 == core), feed := smapDrop c.feed (fun k => k / 4 == core) }
  let c := { c with ro := c.ro.filter (fun l => l.core != core) }
  resetVictim { s with core := { c with segCache := c.segCache.filter (fun x => x.1 != core) } } core

/-- A core unbound and free; CONTEXT goes on naming the context it last served (Table 5.5). -/
def unbind (s : State) (core : Nat) : State := s.put F.coreBinding_BOUND 0 core

/-- A core without power: every SRAM lost (R481), its next bind clears it (R147). -/
def loseCore (s : State) (core : Nat) : State :=
  let s := clearCore (setGl s core (s.core.gl.filter (fun l => l.core != core))) core
  unbind (setFlags s core { coreFlags s core with servedNone := true, clearing := false }) core

def coresOf (g : Nat) : List Nat := tabulate 15 (fun k => 15 * g + k)
def slicesOf (t : Nat) : List Nat := tabulate 64 (fun k => 64 * t + k)

/-- A slice emptied without write-back. -/
def loseSlice (s : State) (n : Nat) : State := setCavern s n (s.mem.cavern.filter (fun l => l.slice != n))

/-- Every dirty line of a slice written back and dropped (R278). -/
def drainSlice (s : State) (n : Nat) : State :=
  (s.mem.cavern.filter (fun l => l.slice == n)).foldl cavEvict s

/-- Ports that a domain carries (R383, Table 1.4). -/
def portsOfDomain (d : Nat) : List Nat :=
  if 32 ≤ d && d < 36 then tabulate 4 (fun k => 4 * (d - 32) + k)
  else if d = 36 then tabulate 8 (fun k => k) else if d = 37 then tabulate 8 (fun k => 8 + k) else []

/-- Retunes in progress that end without effect. -/
def dropRetunes (s : State) (gone : Nat → Nat → Bool) : State :=
  { s with fab := { s.fab with retune := s.fab.retune.filter (fun r => !gone r.1 r.2) } }

/-- What a domain without power loses. -/
def domainLost (s : State) (d : Nat) : State :=
  if d < 24 then
    let t := d / 6
    if d % 6 < 4 then (coresOf (4 * t + d % 6)).foldl loseCore s
    else if d % 6 = 4 then (slicesOf t).foldl loseSlice s
    else s
  else
    let ps := portsOfDomain d
    let s := if d < 36 then s
      else dropRetunes s (fun a _ => s.get F.optEmitter_STATE a != 0 && ps.contains (a / 80 * 8 + a % 80 / 10))
    ps.foldl portDown s

/-- A domain's state register (Table 15.5). -/
def setDomain (s : State) (d st : Nat) : State :=
  (s.put F.pwrDomStatus_STATE st d).put F.pwrDomStatus_GATED 0 d

/-- A domain switched off at once, without draining. -/
def domainOff (s : State) (d : Nat) : State := domainLost (setDomain s d 3) d

/-- Power removed from D0 to D`n − 1`. -/
def powerOff (s : State) (n : Nat) : State := (List.range n).foldl domainOff s

/-- A stop joins the fault history (Table 14.8), as a record of code 0 with the stop code in EXTRA (log 17). -/
def histStop (s : State) (code : Nat) : State :=
  histAdd s { newRecord s (unitId 0xD 1) none 0 0 code with seq := s.flt.seq }

/-- ATTEMPTS of the image tried (R462). -/
def clearAttempts (s : State) : State :=
  match s.boot.img with
  | some 0 => bankChange (s.put F.rbBoot_A_ATTEMPTS 0)
  | some _ => bankChange (s.put F.rbBoot_B_ATTEMPTS 0)
  | none => s

/-- A start stops (R469): power removed from every domain but D39, the stop code written, reported, kept; the link untrained. -/
def startStop (s : State) (code : Nat) : State :=
  let s := powerOff s 39
  let s := (s.put F.lkBootStatus_STAGE 7).put F.lkBootStatus_STOP_CODE code
  let s := if code = 6 then s else clearAttempts s
  let s := { s with pwr := { s.pwr with wakeQ := [], win := [], ramping := [], cmd := [] }, boot := { s.boot with eff := 1 } }
  histStop ((s.put F.hostStatus_READY 0).put F.fabNode_READY 0) code

/-- A device-fatal error: R506 while the part runs; during start-up it stops the start with code 0x07. -/
def fatal (s : State) (unit code extra : Nat) : State :=
  if s.get F.lkBootStatus_STAGE < 6 then startStop ((post s unit none 3 code extra)) 7
  else if s.get F.lkBootStatus_STAGE = 6 then deviceFatal s unit code extra
  else post s unit none 3 code extra

end Sys2Proof.Machine
end

