-- ==== Sys2Proof/Machine/Fetch.lean ====
section
/-! DEFINITION. A thread instruction's issue: its fragment, its fetch, its halts (R157 to R172, R207, R209), and how fragments wait. -/

namespace Sys2Proof.Machine

/-- The thread that issues: block, launch, fragment, place. -/
structure Th where
  b : BlockRec
  l : Launch
  f : Frag
  at_ : At
  deriving DecidableEq, Repr

def Th.c (t : Th) : Nat := t.b.ctx
def Th.core (t : Th) : Nat := t.at_.core
def Th.slot (t : Th) : Nat := t.at_.slot

/-- Lanes of the fragment, ascending. -/
def Th.lanes (t : Th) : List Nat := (List.range 32).filter (fun l => t.f.mask.testBit l)

/-- A source register of a lane. -/
def Th.reg (t : Th) (s : State) (r lane : Nat) : Nat := (regRead s t.core t.slot r lane).toNat

/-- A halt of the thread's instruction. -/
def haltTh (s : State) (t : Th) (reason info : Nat) : State :=
  halt s t.c reason info (some (issuedAt s t.b t.slot t.f)) (entryOf s t.b.id)

/-- The fragment goes on at `pc`. -/
def goTo (s : State) (t : Th) (pc : Nat) : State := updFrag s t.core t.slot t.at_.lane (fun f => { f with pc := pc })

/-- The fragment waits, its place given up where it is parked (R160 to R162, R306). -/
def waitAt (s : State) (t : Th) (pc : Nat) (w : FragWait) (park : Bool) : State :=
  updFrag s t.core t.slot t.at_.lane (fun f => { f with pc := pc, wait := w, active := f.active && !park, age := s.ns })

/-- A fault of R306: recorded, the fragment parked until the segment is next applied, its instruction to be repeated. -/
def parkTh (s : State) (t : Th) (sg ca : Nat) : State :=
  waitAt (segFault s t.c sg ca (unitId 1 ((s.physCore t.core).getD 0)) (.thread t.b.id)) t t.f.pc (.seg sg t.f.pc) true

/-- The unit ID of a logical core's physical core. -/
def coreUnit (s : State) (core : Nat) : Nat := unitId 1 ((s.physCore core).getD 0xFFF)

/-- A read-only line brought in: the line's bytes and poison, or why not. -/
inductive LineRes where
  | ok (poison : Bool) (bytes : List Byte) (s : State)
  | absent (no : Nat)
  | halt (reason info : Nat)
  deriving DecidableEq, Repr

/-- The 128-B line of a context address through a read-only cache (R240, R254, R207). -/
def roLine (s : State) (core c kind ca : Nat) (need : Need) : LineRes :=
  let a := ca / 128 * 128
  match resolve s c a 128 need [0] with
  | .halt r i => .halt r i
  | .absent n => .absent n
  | .at_ p =>
    match roFind s core kind false p.addr with
    | some l => .ok l.poison l.bytes (roTouch s core kind false p.addr)
    | none =>
      let d := devRead 4 s (p.rq s) p.addr 128
      .ok d.1.1 d.1.2 (roFill d.2 core kind false p.addr c d.1.2 d.1.1)

/-- The line of the instruction: fetched when it is not held. -/
def fetch (s : State) (t : Th) (k : State → State) : State :=
  let ca := t.l.code + t.l.codeOff + t.f.pc
  if t.f.pc < t.l.decl.codeOffset || decide (t.l.decl.codeOffset + t.l.decl.codeSize ≤ t.f.pc) then haltTh s t 0x06 t.f.pc
  else
    match roLine s t.core t.c 0 ca .exec with
    | .halt r i => haltTh s t r i
    | .absent n => parkTh s t n ca
    | .ok p _ s => if p then haltTh s t 0x46 ca else k s

/-- Whether the core runs threads: filled, its gallery powered, no clearing in progress, not stopped by a fault. -/
def coreRuns (s : State) (core : Nat) : Bool :=
  (s.physCore core).isSome && s.domOn (domOfGallery (galleryOfCore core))
    && !(coreFlags s core).clearing && !(coreFlags s core).stopped

/-- Whether a core drains for a swap that waits for an ACCUMULATING routine: it issues nothing and takes no block (R206, R521). -/
def coreDrains (s : State) (core : Nat) : Bool :=
  match s.physCore core with
  | none => false
  | some p => smapGet s.flt.unit 0 (unitId 1 p) == 2

/-- What an instruction uses: the registers it reads and writes, and its kind: 0 no memory, 1 an access, 2 one that is ordered after
every access before it (a release, a fence, a barrier, an exit, the issue of an operation; R219, R222, R224). -/
structure Uses where
  regs : List Nat
  kind : Nat
  deriving DecidableEq, Repr

/-- A register, or the pair that holds 64 bits. -/
def regPair (r : Nat) (two : Bool) : List Nat := if two then [r, r + 1] else [r]

/-- Whether an outstanding load holds an instruction of lanes `mask` back: it writes a register the instruction uses (R165, R168), it is
an acquire that a later access waits for (R220), or the instruction waits for every access before it. -/
def OutLoad.holds (o : OutLoad) (mask : Nat) (u : Uses) : Bool :=
  o.lanes.any (fun a => mask.testBit a.lane)
    && ((regPair o.acc.dst (o.acc.width == 8)).any u.regs.contains || (o.acc.acq && decide (1 ≤ u.kind)) || decide (2 ≤ u.kind))

/-- The issuing thread of a place: an eligible fragment of a context that may issue (R157, R165, R168, R429). -/
def thread? (s : State) (a : At) (u : Uses) : Option Th :=
  match slotRec s a.core a.slot with
  | none => none
  | some r =>
    match fragOf r a.lane, blockRec s r.block with
    | some f, some b =>
      match launchRec s b.launch with
      | some l => if f.active && f.wait == .none && !r.loads.any (fun o => o.holds f.mask u) && s.ctxRuns b.ctx && coreRuns s a.core
          && !coreDrains s a.core then some ⟨b, l, f, a⟩ else none
      | none => none
    | _, _ => none

/-- Whether writes to peers by threads of the block await their acknowledgements: what a release of one of them orders, with what it has
observed of the others (R219). -/
def peerPending (s : State) (b : BlockRec) : Bool := s.fab.reqs.any (fun x => x.write && x.core == b.core && b.slots.contains x.slot)

/-- Whether the part has the place. -/
def placeOk (a : At) : Bool := decide (a.core < 240) && decide (a.slot < 128) && decide (a.lane < 32) && decide (a.next < 2 ^ 28)

/-- An instruction of a thread: issued, fetched, performed by `k`. Without an eligible fragment there it does not issue. -/
def instr (s : State) (a : At) (u : Uses) (k : Th → State → State) : Out :=
  if placeOk a then
    match thread? s a u with
    | none => ok s
    | some t => ok (fetch (s.bump F.corePipeIssued_ISSUED 1 a.core) t (k t))
  else .fault .noSuchUnit

/-- An instruction that ends by going on at the next one. -/
def instrNext (s : State) (a : At) (u : Uses) (k : Th → State → State) : Out := instr s a u (fun t s => goTo (k t s) t a.next)

/-- An instruction that turns out not to issue yet is not counted (Table 5.9); the thread comes back to it. -/
def notIssued (s : State) (t : Th) : State := s.bump F.corePipeIssued_ISSUED (2 ^ 64 - 1) t.core

/-- What reading an instruction's sources does to the register cache, in order (R173). -/
def touchAll (s : State) (t : Th) (l : List Src) : State := l.foldl (fun s x => regTouch s t.core t.slot x) s

/-- A source and, where its operand has 64 bits, the register after it, marked alike. -/
def srcPair (x : Src) (two : Bool) : List Src := if two then [x, { x with reg := x.reg + 1 }] else [x]

/-- Operation classes as the halt of R185 reports them; the manual numbers none (log 12). -/
def opClass (row : Nat) : Nat := (Config.word 2 row).toNat

end Sys2Proof.Machine
end

