-- ==== Sys2Proof/Machine/Issue.lean ====
section
/-! DEFINITION. Asynchronous operations: issue, the operation buffer, the units' queues, token waits, posts and the watchdog
(R185, R190 to R199, R226, R231, R488). -/

namespace Sys2Proof.Machine

/-- Whether a unit takes operations: its engine domain is powered and not on its way to OFF (R488, Table 15.6); the other units have
no switched engine domain. -/
def engPowered (s : State) (u : Nat) : Bool :=
  if u / 4096 = 7 ∨ u / 4096 = 8 ∨ u / 4096 = 9 ∨ u / 4096 = 10 then
    s.domOn (domOfEngines (tileOfUnit u)) && !s.leaving (domOfEngines (tileOfUnit u))
  else true

/-- Queue entries of Table 6.6. -/
def queueSize (u : Nat) : Nat :=
  match u / 4096 with
  | 1 => 4 | 2 => 8 | 8 => 32 | 9 => 16 | 10 => 16 | _ => 64

/-- Whether a job holds its entry of its unit's queue (R194): a matrix operation until its last row has been fed, or to its end where it
feeds none; any other until it starts. -/
def holdsEntry (j : EngJob) : Bool :=
  match j.job with
  | .matrix op => op.m == 0 || decide (j.cursor < op.m)
  | _ => !j.started

/-- Entries in use of a unit's queue. -/
def queueUsed (s : State) (u : Nat) : Nat := ((jobsOf s u).filter holdsEntry).length

/-- Threads of a core that wait for space go on where there is room. -/
def wakeSpace (s : State) (core : Nat) : State :=
  ((s.run.blocks.filter (fun b => b.core == core)).map (fun b => b.id)).foldl wakeBlock s

/-- The first bollard of an operation that its context does not own (R231). -/
def badBollard (s : State) (c : Nat) (iss : Issue) : Option Nat :=
  ((iss.bollard.toList ++ iss.start.toList).map Prod.fst).find? (fun n => !bolOwned s n c)

/-- Why an operation halts at its issue (R185, R511, R192, R194, R231, in R550's order): reason and INFO. A completion bollard is a bollard
advance, which a REPLAYABLE block may not make (R511). -/
def issueRefused (s : State) (t : Th) (iss : Issue) (unit : Nat) (refuse : Option Nat) : Option (Nat × Nat) :=
  if t.l.decl.replayable && (refuse.isSome || iss.bollard.isSome) then some (0x48, opClass (refuse.getD 7))
  else if iss.waits.contains iss.token then some (0x61, iss.token)
  else if !unitUp s unit then some (0x64, unit)
  else (badBollard s t.c iss).map (fun n => (0x66, n))

/-- A start condition as it stands now: none where it is satisfied (R226, R232). -/
def startNow (s : State) (c : Option (Nat × Nat)) : Option (Nat × Nat) :=
  match c with
  | some (n, v) => startKept (bolValue s n) n (some (n, v))
  | none => none

/-- An operation accepted: its token entry PENDING under a new generation, itself in the buffer (R191, R193), the generations of its wait
list captured. DESIGN CHOICE (log 53): R192 captures them "on issue", which the model reads as this acceptance, after any wait of R191 or
R193. -/
def acceptOp (s : State) (t : Th) (iss : Issue) (unit : Nat) (job : Job) (acc : Bool) : State :=
  let id := s.obj.nextId
  let post := iss.token == 64
  let b := if post then t.b else
    { t.b with tokens := setNth t.b.tokens iss.token ⟨false, ((token t.b iss.token).gen + 1) % 65536⟩ }
  let s := updBlock s t.b.id (fun _ => b)
  let o : BufOp := { id := id, ctx := t.c, block := t.b.id, core := t.core, issued := issuedAt s t.b t.slot t.f,
                     unit := unit, job := job, acc := acc, token := iss.token, waits := capture t.b iss.waits,
                     bollard := iss.bollard, start := startNow s iss.start, since := s.ns }
  let s := { s with obj := { s.obj with nextId := id + 1 } }
  wakeBlock { s with run := { s.run with ops := s.run.ops ++ [o] } } t.b.id

/-- An operation as an instruction can name it: a token entry below 64, at most 4 waits, a start condition only where its class
has one, an increment below 2^32 (R191, R192, R225, R226). -/
def issOk (iss : Issue) (start : Bool) : Bool :=
  decide (iss.token < 64) && decide (iss.waits.length ≤ 4) && iss.waits.all (fun e => decide (e < 64))
    && (start || iss.start.isNone) && (iss.bollard.all (fun x => decide (x.2 < 2 ^ 32)))

/-- The issue of an operation once its own checks have passed: the thread waits for its entry, or for room, or it is accepted. -/
def issueTo (s : State) (t : Th) (iss : Issue) (unit : Nat) (job : Job) (acc : Bool) : State :=
  if iss.token < 64 ∧ !(token t.b iss.token).done then waitAt (notIssued s t) t t.f.pc (.entry iss.token s.ns) true
  else if !bufferRoom s t.b then waitAt (notIssued s t) t t.f.pc (.space iss.token s.ns) true
  else goTo (acceptOp s t iss unit job acc) t t.at_.next

/-- The issue of an operation of a class without checks of its own at issue; `refuse` is the class a REPLAYABLE block may not use. -/
def issueOp (s : State) (at_ : At) (iss : Issue) (unit : Th → State → Nat) (job : Job) (start : Bool) (refuse : Th → State → Option Nat) : Out :=
  if issOk iss start then
    instr s at_ ⟨[], 2⟩ (fun t s =>
      match issueRefused s t iss (unit t s) (refuse t s) with
      | some (r, i) => haltTh s t r i
      | none => issueTo s t iss (unit t s) job false)
  else .fault .noSuchUnit

/-- The tile engine `k` of a thread's tile under a kind of Table 1.5 with `n` of them per tile. -/
def tileUnit (kind n k : Nat) (t : Th) (_ : State) : Nat := unitId kind (tileOfCore t.core * n + k)

/-- A job of an operation, at its unit. -/
def BufOp.toJob (o : BufOp) (now : Nat) : EngJob where
  id := o.id
  unit := o.unit
  ctx := o.ctx
  origin := .block o.block o.issued
  job := o.job
  acc := o.acc
  token := o.token
  bollard := o.bollard
  start := o.start
  started := false
  stopping := false
  cursor := 0
  census := []
  parked := none
  got := []
  since := now

/-- Whether a start condition is met (R226). -/
def startMet (s : State) (c : Option (Nat × Nat)) : Bool :=
  match c with
  | none => true
  | some (n, v) => decide (v ≤ bolValue s n)

/-- Whether the operation's waits are satisfied; a block that has ended has every entry DONE. -/
def opReady (s : State) (o : BufOp) : Bool :=
  (match blockRec s o.block with | none => true | some b => waitsMet b o.waits) && startMet s o.start

/-- Whether an earlier operation of one of the issuing threads for the same unit is still in the buffer (R193). -/
def opBehind (s : State) (o : BufOp) : Bool :=
  (s.run.ops.takeWhile (fun x => x.id != o.id)).any (fun x =>
    x.block == o.block && x.issued.slot == o.issued.slot && x.issued.mask &&& o.issued.mask != 0 && x.unit == o.unit)

/-- The queue an operation goes to: its unit's, or a ferry's gate (Table 6.6). -/
def opQueue (o : BufOp) : Nat := match o.job with | .post _ gate => o.unit * 16 + gate | _ => o.unit * 16

/-- Whether a unit's queue is shared by several cores (Table 6.6). -/
def sharedUnit (u : Nat) : Bool := u / 4096 != 1 && u / 4096 != 2

/-- Whether it is the turn of an operation's core at a shared queue (R194): of the cores with an operation that could leave for it, the
first above the one granted last, round to the lowest. -/
def opTurn (s : State) (o : BufOp) : Bool :=
  if sharedUnit o.unit then
    let cs := (s.run.ops.filter (fun x => opQueue x == opQueue o && opReady s x && !opBehind s x && s.ctxRuns x.ctx)).map (fun x => x.core)
    let last := smapGet s.run.grant 0 (opQueue o)
    let key (c : Nat) : Nat := (c + 240 - last) % 240
    cs.all (fun c => decide (key o.core ≤ key c))
  else true

/-- The grant noted: the next turn starts above this core. -/
def opGrant (s : State) (o : BufOp) : State :=
  if sharedUnit o.unit then { s with run := { s.run with grant := smapInsert s.run.grant (opQueue o) ((o.core + 1) % 240) } } else s

/-- The unit's domain leaves automatic clock gating as work arrives (Table 15.3). -/
def ungate (s : State) (u : Nat) : State :=
  if u / 4096 = 7 ∨ u / 4096 = 8 ∨ u / 4096 = 9 ∨ u / 4096 = 10 then s.restart (domOfEngines (tileOfUnit u)) else s

/-- TOKEN_WAIT (R192, R195): up to 4 entries, their generations captured; satisfied, an acquire at device scope. -/
def execTokenWait (at_ : At) (entries : List Nat) (s : State) : Out :=
  if entries.length ≤ 4 ∧ entries.all (fun e => decide (e < 64)) then
    instr s at_ ⟨[], 1⟩ (fun t s =>
      let ws := capture t.b entries
      if waitsMet t.b ws then goTo (acquireWide s t.core) t at_.next
      else waitAt s t at_.next (.token ws s.ns) true)
  else .fault .noSuchUnit

/-- Whether a context holds a ferry (R199). -/
def ferryHeld (s : State) (f c : Nat) : Bool := s.isSet F.ferryCtrl_VALID f && s.get F.ferryCtrl_OWNER f == c

/-- TOKEN_POST (R199, R185): a token to a ferry gate through the operation buffer; it names no token entry. -/
def execTokenPost (at_ : At) (ferry gate : Nat) (waits : List Nat) (s : State) : Out :=
  if ferry < 32 ∧ gate < 16 ∧ waits.length ≤ 4 ∧ waits.all (fun e => decide (e < 64)) then
    instr s at_ ⟨[], 2⟩ (fun t s =>
      let u := unitId 7 ferry
      if t.l.decl.replayable then haltTh s t 0x48 (opClass 6)
      else if !ferryHeld s ferry t.c then haltTh s t 0x62 (extra2 u gate)
      else if !unitUp s u then haltTh s t 0x64 u
      else issueTo s t ⟨64, waits, none, none⟩ u (.post ferry gate) false)
  else .fault .noSuchUnit

/-- The entry that a wait is reported by (R197); all ones where a post has no entry of its own. -/
def firstUnmet (b : BlockRec) (ws : List (Nat × Nat)) : Option Nat :=
  (ws.find? (fun w => !(token b w.1).done && (token b w.1).gen == w.2)).map Prod.fst

def ownEntry (e : Nat) : Nat := if e < 64 then e else noInfo

/-- What a block waits for at a token: since when, the entry, and where it was issued. -/
def blockWaits (s : State) (b : BlockRec) : List (Nat × Nat × IssuedAt) :=
  let ops := (s.run.ops.filter (fun o => o.block == b.id)).map
    (fun o => (o.since, (firstUnmet b o.waits).getD (ownEntry o.token), o.issued))
  let thr := (s.run.slots.filter (fun kr => kr.2.block == b.id)).flatMap (fun kr =>
    kr.2.frags.filterMap (fun f =>
      let i := issuedAt s b (kr.1 % 128) f
      match f.wait with
      | .token ws n => some (n, (firstUnmet b ws).getD 0, i)
      | .entry e n => some (n, ownEntry e, i)
      | .space e n => some (n, ownEntry e, i)
      | .exit n => some (n, (b.tokens.findIdx? (fun x => !x.done)).getD 0, i)
      | _ => none))
  ops ++ thr

/-- The longest waiting, the first of equals. -/
def oldest : List (Nat × Nat × IssuedAt) → Option (Nat × Nat × IssuedAt)
  | [] => none
  | x :: xs =>
    match oldest xs with
    | none => some x
    | some y => if x.1 ≤ y.1 then some x else some y

/-- TOKEN_WATCHDOG (R197): an operation or a thread of the block has waited longer than LIMIT_MS; of a block that has ended, a token
post it left in the buffer, which has no entry of its own. -/
def execTokenWatchdog (block : Nat) (s : State) : Out :=
  if s.get F.coreTokenWatchdog_LIMIT_MS = 0 then ok s
  else
    match blockRec s block with
    | none =>
      match s.run.ops.find? (fun o => o.block == block) with
      | none => ok s
      | some o => ok (halt s o.ctx 0x63 (ownEntry o.token) (some o.issued) none)
    | some b =>
      match oldest (blockWaits s b) with
      | none => ok s
      | some (_, e, i) => ok (halt s b.ctx 0x63 e (some i) (entryOf s block))

end Sys2Proof.Machine
end

