-- ==== Sys2Proof/Machine/Engine.lean ====
section
/-! DEFINITION. How engines reach memory: accesses of a job through its context's segments, which may fail (R305, R306, R213, R274). -/

namespace Sys2Proof.Machine

/-- What an engine's access gives: a value, an absent segment, or a halt with its INFO. -/
inductive Res (α : Type) where
  | ok (v : α) (s : State)
  | absent (sg ca : Nat) (s : State)
  | halt (reason info : Nat) (s : State)

/-- One access after another. -/
def Res.then {α β : Type} (r : Res α) (k : α → State → Res β) : Res β :=
  match r with
  | .ok v s => k v s
  | .absent n a s => .absent n a s
  | .halt x i s => .halt x i s

/-- A result for each element of a list, in order. -/
def Res.each {α β : Type} (f : α → State → Res β) : List α → State → Res (List β)
  | [], s => .ok [] s
  | x :: xs, s => (f x s).then (fun v s => (Res.each f xs s).then (fun vs s => .ok (v :: vs) s))

/-- An effect for each element of a list, in order. -/
def Res.run {α : Type} (f : α → State → Res Unit) : List α → State → Res Unit
  | [], s => .ok () s
  | x :: xs, s => (f x s).then (fun _ s => Res.run f xs s)

/-- A range resolved whole within one segment (R305). -/
def placeOf (c ca n : Nat) (need : Need) (tgts : List Nat) (s : State) : Res Place :=
  match resolve s c ca n need tgts with
  | .halt r i => .halt r i s
  | .absent k => .absent k ca s
  | .at_ p => .ok p s

/-- Bytes of device memory, with whether any sector was poisoned. -/
def devGet (c ca n : Nat) (s : State) : Res (Bool × List Byte) :=
  if n = 0 then .ok (false, []) s
  else
    (placeOf c ca n .read [0] s).then (fun p s =>
      let d := devRead (n / 64 + 2) s (p.rq s) p.addr n
      .ok d.1 d.2)

/-- Bytes of device memory that the reader consumes, under a permission: poison halts with the sector's context address (R274). -/
def bytesUnder (need : Need) (c ca n : Nat) (s : State) : Res (List Byte) :=
  if n = 0 then .ok [] s
  else
    (placeOf c ca n need [0] s).then (fun p s =>
      let d := devRead (n / 64 + 2) s (p.rq s) p.addr n
      if d.1.1 then .halt 0x46 (((firstPoisoned s (p.rq s).key p.addr n).map (fun x => ca + x - p.addr)).getD ca) d.2
      else .ok d.1.2 d.2)

/-- Bytes of device memory that the reader consumes. -/
def devBytes (c ca n : Nat) (s : State) : Res (List Byte) := bytesUnder .read c ca n s

/-- An access whose census increments are held back: its value with them (R204). What does not end well has none. -/
def Res.held {α : Type} (f : State → Res α) (s : State) : Res (α × List CensusInc) :=
  match f (censusHold s) with
  | .ok v s => .ok (v, (censusTake s).1) (censusTake s).2
  | .absent n a s => .absent n a (censusTake s).2
  | .halt r i s => .halt r i (censusTake s).2

/-- Bytes written to device memory. -/
def devPut (c ca : Nat) (bs : List Byte) (s : State) : Res Unit :=
  if bs.isEmpty then .ok () s
  else
    (placeOf c ca bs.length .write [0] s).then (fun p s => .ok () (devWrite (bs.length / 64 + 2) s (p.rq s) p.addr bs))

/-- Whether a range may be used: its resolution alone, nothing read. -/
def devCheck (need : Need) (c ca n : Nat) (s : State) : Res Unit :=
  if n = 0 then .ok () s else (placeOf c ca n need [0] s).then (fun _ s => .ok () s)

/-- `n` bytes that the manual calls undefined (log 12). -/
def undefinedBytes (s : State) (n : Nat) : List Byte := tabulate n (fun i => Config.undefinedByte (s.free * 2 ^ 40 + i))

/-- Bytes from the first of `rows` rows to the end of the last. -/
def extent (rows pitch len : Nat) : Nat := if rows = 0 ∨ len = 0 then 0 else (rows - 1) * pitch + len

end Sys2Proof.Machine
end

