-- ==== Sys2Proof/Machine/Matrix.lean ====
section
/-! DEFINITION. The matrix arrays (3: R70 to R108): dot products, an operation's checks, its results, store path and counters. -/

namespace Sys2Proof.Machine

/-! Packed elements (Table 3.3). -/

/-- The first `n` elements of packed bytes. -/
def unpack (w n : Nat) (bs : List Byte) : List Nat :=
  let x := leNat bs
  tabulate n (fun i => (x >>> (i * w)) % 2 ^ w)

/-- Elements packed, the last byte filled with 0 (R75). -/
def pack (w : Nat) (codes : List Nat) : List Byte :=
  leBytes (cdiv (codes.length * w) 8) ((codes.zipIdx.map (fun ci => (ci.1 % 2 ^ w) <<< (ci.2 * w))).foldl (· + ·) 0)

/-- Bytes of `n` packed elements. -/
def packed (e : Elem) (n : Nat) : Nat := cdiv (n * e.width) 8

/-! Dot products (R40 to R45). -/

/-- A row or column as the DPUs read it: its codes, and the E8M0 scale of each block where it has scales. -/
structure Vect where
  codes : List Nat
  scale : Option (List Nat)
  deriving DecidableEq, Repr

/-- Whether a pair stands in Table 2.4. -/
def pairOk (a b : OpFmt) : Bool :=
  match a, b with
  | .mx _, .mx _ => a.legal && b.legal
  | .fp8 _, .fp8 _ => a.legal && b.legal
  | .plain x, .plain y => x == y && (x == .bf16 || x == .fp16 || x == .fp32 || x == .int8)
  | _, _ => false

/-- Elements per K-step of a pair (Table 3.1). -/
def lanesOf (a b : OpFmt) : Nat :=
  if a = .mx .e2m1 ∧ b = .mx .e2m1 then 128
  else
    match a with
    | .plain .fp32 => 4
    | .plain .bf16 => 32
    | .plain .fp16 => 32
    | _ => 64

/-- The largest K of one operation: 16 K-steps, 64 for FP32 (Table 3.1). -/
def kMax (a b : OpFmt) : Nat := if a = .plain .fp32 then 256 else 16 * lanesOf a b

/-- Elements per block along K, and the window of R43. -/
def blockLen (a : OpFmt) : Nat := if a = .plain .fp32 then 4 else 32
def window (a : OpFmt) : Nat := if a = .plain .fp32 then 52 else 28

/-- A block's scale of a vector. -/
def scaleAt (v : Vect) (j : Nat) : Option Nat := v.scale.map (fun l => nthD l j 0)

/-- The scale exponent of a block (R44). -/
def scaleExpOf (x : Option Nat) : Int := match x with | none => 0 | some k => (k : Int) - 127

/-- One block's products aligned and accumulated (R42 to R44). -/
def dotBlock (fa fb : OpFmt) (a b : Vect) (k : Nat) (acc j : Nat) : Nat :=
  let z := blockLen fa
  let sa := scaleAt a j
  let sb := scaleAt b j
  let bad := sa == some 0xFF || sb == some 0xFF
  let ps := (List.range (min z (k - j * z))).map (fun i =>
    product bad (fa.elem.decode (nthD a.codes (j * z + i) 0)) (fb.elem.decode (nthD b.codes (j * z + i) 0)))
  accumulateBlock acc (alignBlock ps (window fa)) (scaleExpOf sa + scaleExpOf sb)

/-- One INT8 block's exact sum added with saturation (R45). -/
def dotInt (a b : Vect) (k : Nat) (acc j : Nat) : Nat :=
  let s := ((List.range (min 32 (k - j * 32))).map (fun i =>
    toSigned 8 (nthD a.codes (j * 32 + i) 0) * toSigned 8 (nthD b.codes (j * 32 + i) 0))).foldl (· + ·) 0
  ofSigned 32 (satAdd32 (toSigned 32 acc) s)

/-- The dot product of two vectors over k < K from a starting value (R41, R44, R45, R70). -/
def dot (fa fb : OpFmt) (a b : Vect) (k start : Nat) : Nat :=
  let step := if fa = .plain .int8 then dotInt a b k else dotBlock fa fb a b k
  (List.range (cdiv k (blockLen fa))).foldl step start

/-! Operands in the scratchpad. -/

/-- Row `i` of a scratchpad operand: codes, and its scales where its code has them. -/
def sramVect (s : State) (core : Nat) (r : MRef) (k i : Nat) : Vect where
  codes := unpack r.fmt.elem.width k (sramRead s core (r.addr + i * r.pitch) (packed r.fmt.elem k))
  scale :=
    match r.fmt with
    | .mx _ => some ((sramRead s core (r.scale + 64 * i) (cdiv k 32)).map (fun b => b.toNat))
    | .fp8 _ => some (List.replicate (cdiv k 32) r.scale)
    | .plain _ => none

/-- The key of an accumulator entry (R88). -/
def accKey (core array bank m n : Nat) : Nat := ((core * 4 + array) * 2 + bank) * 8192 + m * 32 + n

def accGet (s : State) (core array bank m n : Nat) : Nat := (smapGet s.core.acc 0 (accKey core array bank m n)).toNat

def accSet (s : State) (core array bank m n v : Nat) : State :=
  { s with core := { s.core with acc := smapSet s.core.acc 0 (accKey core array bank m n) (BitVec.ofNat 32 v) } }

/-- The starting value of an entry before a RESCALE factor: C from the bank, or from memory widened exactly (R89, R60). -/
def cValue (s : State) (core array : Nat) (op : MatOp) (m n : Nat) : Nat :=
  match op.c with
  | none => accGet s core array op.bank m n
  | some r =>
    let e := r.fmt.elem
    let code := nthD (unpack e.width op.n (sramRead s core (r.addr + m * r.pitch) (packed e op.n))) n 0
    if e = .int32 then code else widen e none code

/-- An entry's starting value (R89, R94). -/
def startValue (s : State) (core array : Nat) (op : MatOp) (m n : Nat) : Nat :=
  match op.mode with
  | .overwrite => 0
  | .accumulate => cValue s core array op m n
  | .rescale => f32Mul (cValue s core array op m n) (leNat (sramRead s core (op.rowScale + 4 * m) 4))

/-! Checks at acceptance (R550). -/

/-- The number a manual gives no parameter (INFO of 0x23 and 0x24): a free value by position in its table (log 12). -/
def paramInfo (n : Nat) : Nat := (Config.word 6 n).toNat

/-- Format codes in INFO of 0x21; the manual gives them no numbers (log 12). -/
def fmtInfo (a b : OpFmt) : Nat := (Config.word 7 (a.elem.width * 64 + b.elem.width)).toNat

/-- Whether a C_SRC or STORE format is allowed with the pair (R77). -/
def cFmtOk (a c : OpFmt) : Bool :=
  if a = .plain .int8 then c == .plain .int32 else c == .plain .fp32 || c == .plain .bf16 || c == .plain .fp16

def storeFmtOk (a f : OpFmt) : Bool :=
  if a = .plain .int8 then f == .plain .int32
  else f.legal && f != .plain .int8 && f != .plain .int32

/-- The first parameter of R77 that is not allowed, by its position in Table 3.2. DESIGN CHOICE (log 53): a C_SRC of kind MEM that
an OVERWRITE operation names, which takes no C, is not checked here, nor in `alignedParams` (R73), nor in `matRanges` (R72); the
rules do not say. -/
def badFormat (op : MatOp) : Option Nat :=
  let int := op.a.fmt == .plain .int8
  if int && op.mode == .rescale then some 6
  else if op.mode != .overwrite && !(op.c.all (fun r => cFmtOk op.a.fmt r.fmt)) then some 8
  else if !(op.store.all (fun r => storeFmtOk op.a.fmt r.fmt)) then some 9
  else if int && op.rowMax.isSome then some 11
  else none

/-- Whether an operand code takes block scales from an address. -/
def hasScales (r : MRef) : Bool := match r.fmt with | .mx _ => true | _ => false

/-- Addresses and pitches that must be multiples of 64 (R73), in the order of Table 3.2. -/
def alignedParams (op : MatOp) : List Nat :=
  let c := if op.mode = .overwrite then none else op.c
  [op.a.addr, op.a.pitch, op.b.addr, op.b.pitch]
    ++ ((if hasScales op.a then [op.a.scale] else []) ++ (if hasScales op.b then [op.b.scale] else []))
    ++ (((c.toList).flatMap (fun r => [r.addr, r.pitch])) ++ ((op.store.toList).flatMap (fun r => [r.addr, r.pitch])))
    ++ ((if op.mode = .rescale then [op.rowScale] else []) ++ op.rowMax.toList)

/-- Byte ranges of `rows` rows of `len` bytes. -/
def rowRanges (base pitch rows len : Nat) : List (Nat × Nat) :=
  if len = 0 then [] else (List.range rows).map (fun i => (base + i * pitch, len))

/-- Every scratchpad range an operation names, whether or not its shape makes it read or write there (R72 excepts none). -/
def matRanges (op : MatOp) : List (Nat × Nat) :=
  let nb := cdiv op.k 32
  let c := if op.mode = .overwrite then none else op.c
  let sc (r : MRef) (rows : Nat) : List (Nat × Nat) := if hasScales r then rowRanges r.scale 64 rows nb else []
  let ab := rowRanges op.a.addr op.a.pitch op.m (packed op.a.fmt.elem op.k)
    ++ rowRanges op.b.addr op.b.pitch op.n (packed op.b.fmt.elem op.k)
  let scs := sc op.a op.m ++ sc op.b op.n
  let cs := c.toList.flatMap (fun r => rowRanges r.addr r.pitch op.m (packed r.fmt.elem op.n))
  let st := op.store.toList.flatMap (fun r =>
    rowRanges r.addr r.pitch op.m (packed r.fmt.elem op.n) ++ (if hasScales r then rowRanges r.scale r.scalePitch op.m 1 else []))
  let rs := if op.mode = .rescale then rowRanges op.rowScale 4 op.m 4 else []
  (ab ++ scs) ++ (cs ++ st) ++ (rs ++ op.rowMax.toList.flatMap (fun a => rowRanges a 4 op.m 4))

/-- The checks an array makes as it accepts an operation, in R550's order, but for the census slot. -/
def matRefused (s : State) (core : Nat) (op : MatOp) : Option (Nat × Nat) :=
  if !pairOk op.a.fmt op.b.fmt then some (0x21, fmtInfo op.a.fmt op.b.fmt)
  else if 256 < op.m ∨ 32 < op.n ∨ kMax op.a.fmt op.b.fmt < op.k then
    some (0x22, op.m % 2 ^ 20 * 2 ^ 44 + op.n % 2 ^ 12 * 2 ^ 32 + op.k % 2 ^ 32)
  else
    match badFormat op with
    | some p => some (0x24, paramInfo p)
    | none =>
      match (alignedParams op).find? (fun a => a % 64 != 0) with
      | some a => some (0x41, a)
      | none =>
        match (matRanges op).find? (fun r => decide (sramSize s core < r.1 + r.2)) with
        | some r => some (0x42, r.1)
        | none => none

/-- The same with the census slot of a census-enabled operation last. -/
def matCheck (s : State) (core ctx : Nat) (op : MatOp) : Option (Nat × Nat) × State :=
  match matRefused s core op with
  | some r => (some r, s)
  | none => censusCheckOpt s ctx op.census

/-! Results. -/

/-- Final entries of row `m` (R70, R89, R94); K = 0 leaves an overwriting operation's zeros. -/
def rowResult (s : State) (core array : Nat) (op : MatOp) (bv : List Vect) (m : Nat) : List Nat :=
  let av := sramVect s core op.a op.k m
  bv.zipIdx.map (fun bn => dot op.a.fmt op.b.fmt av bn.1 op.k (startValue s core array op m bn.2))

/-- One row narrowed for storing: its scale byte where the format has one, and its codes (R56 to R58, R90). -/
def narrowRow (f : OpFmt) (t : Nat) (vals rnd : List Nat) : Option Nat × List Nat :=
  match f with
  | .mx e => let r := mxEncode vals e.params rnd; (some r.1, r.2)
  | .fp8 e => (none, (vals.zip rnd).map (fun vr => narrowStore e t true vr.1 vr.2))
  | .plain .fp32 => (none, vals)
  | .plain .int32 => (none, vals)
  | .plain e => (none, (vals.zip rnd).map (fun vr => narrowStore e 0 false vr.1 vr.2))

/-- Elements counted for a stored row (R63). -/
def countRow (s : State) (census : Option Nat) (f : OpFmt) (r : Option Nat × List Nat) : State :=
  match census with
  | none => s
  | some h => if r.1 = some 0xFF then censusAdd s h r.2.length 0 0 else censusCodes s h f.elem r.2

/-- The draws of each column's generator, one per row (R50, R51). -/
def colDraws (s : State) (ctx core array : Nat) (tag m n : Nat) : List (List Nat) :=
  tabulate n (fun d => draws m (laneSeed (ctxSeed0 s ctx) (BitVec.ofNat 32 tag) (arrayLaneKey core array d)))
where
  /-- The context seed. -/
  ctxSeed0 (s : State) (c : Nat) : W64 := BitVec.ofNat 64 (s.get F.ctxSeed_SEED c)

/-- A finished row through the store path (R90). -/
def storeRow (s : State) (core : Nat) (op : MatOp) (r : MRef) (ds : List (List Nat)) (m : Nat) (vals : List Nat) : State :=
  let x := narrowRow r.fmt r.scale vals (ds.map (fun l => nthD l m 0))
  let s := sramWrite s core (r.addr + m * r.pitch) (pack r.fmt.elem.width x.2)
  let s := match x.1 with
    | some b => sramWrite s core (r.scale + m * r.scalePitch) [BitVec.ofNat 8 b]
    | none => s
  countRow s op.census r.fmt x

/-- A row's entries in its bank, its stored row, its maximum (R88, R90, R95). -/
def writeRow (s : State) (core array : Nat) (op : MatOp) (ds : List (List Nat)) (m : Nat) (vals : List Nat) : State :=
  let s := vals.zipIdx.foldl (fun s vn => accSet s core array op.bank m vn.2 vn.1) s
  let s := match op.store with
    | some r => storeRow s core op r ds m vals
    | none => s
  match op.rowMax with
  | some a => sramWrite s core (a + 4 * m) (leBytes 4 (f32MaxList vals))
  | none => s

/-- K-steps issued and pad cycles of an operation (R78, R79). -/
def kSteps (op : MatOp) : Nat := op.m * cdiv op.k (lanesOf op.a.fmt op.b.fmt)
def padCycles (op : MatOp) : Nat :=
  let r := op.m % 8
  if r = 0 ∨ 4 ≤ r then 0 else (4 - r) * cdiv op.k (lanesOf op.a.fmt op.b.fmt)

/-! The A feeder (R85). -/

/-- Whether an operation reads and writes nothing (R76, R98). -/
def matIdle (op : MatOp) : Bool := op.m == 0 || op.n == 0 || (op.k == 0 && op.mode != .overwrite)

/-- The 64-B lines that hold `n` bytes from an address. -/
def linesAt (a n : Nat) : List Nat := if n = 0 then [] else (List.range ((a + n - 1) / 64 + 1 - a / 64)).map (fun i => (a / 64 + i) * 64)

/-- The lines the array consumes for row `m`: C, ROW_SCALE and A scale lines, then A elements. -/
def rowLines (op : MatOp) (m : Nat) : List Nat :=
  if matIdle op then []
  else
    let c := if op.mode = .overwrite then [] else op.c.toList.flatMap (fun r => linesAt (r.addr + m * r.pitch) (packed r.fmt.elem op.n))
    let f := if op.mode = .rescale then linesAt (op.rowScale + 4 * m) 4 else []
    let sc := if hasScales op.a then linesAt (op.a.scale + 64 * m) (cdiv op.k 32) else []
    (c ++ f ++ sc ++ linesAt (op.a.addr + m * op.a.pitch) (packed op.a.fmt.elem op.k)).dedup

/-- An array's A queue. -/
def feedOf (s : State) (core array : Nat) : List FeedLine := smapGet s.core.feed [] (core * 4 + array)

def setFeed (s : State) (core array : Nat) (l : List FeedLine) : State :=
  { s with core := { s.core with feed := smapSet s.core.feed [] (core * 4 + array) l } }

/-- The operations an array has accepted, in order, with their jobs. -/
def acceptedOps (s : State) (core array : Nat) : List (EngJob × MatOp) :=
  (jobsOf s (unitId 2 (((s.physCore core).getD 255) * 4 + array))).filterMap
    (fun j => match j.job with | .matrix op => if j.started then some (j, op) else none | _ => none)

/-- The next line the feeder reads: in the order the array consumes them, behind the lines of earlier operations. -/
def feedNext (s : State) (core array : Nat) : Option (Nat × Nat) :=
  let q := feedOf s core array
  (acceptedOps s core array).findSome? (fun jo =>
    (List.range (jo.2.m - jo.1.cursor)).findSome? (fun i =>
      ((rowLines jo.2 (jo.1.cursor + i)).find? (fun a => !q.any (fun l => l.job == jo.1.id && l.addr == a))).map (fun a => (jo.1.id, a))))

/-- One line read into the A queue, which holds at most 32 (R85). -/
def feedLine (core array : Nat) (s : State) : State :=
  let q := (feedOf s core array).filter (fun l => (acceptedOps s core array).any (fun jo => jo.1.id == l.job))
  if 32 ≤ q.length then s
  else
    match feedNext s core array with
    | none => s
    | some (j, a) => setFeed s core array (q ++ [⟨j, a, sramRead s core a 64⟩])

/-- The scratchpad as an operation's row sees it: the lines its feeder has read, as they were when read (R85). -/
def feedView (s : State) (core array job : Nat) : State :=
  ((feedOf s core array).filter (fun l => l.job == job)).foldl (fun s l => sramWrite s core l.addr l.bytes) s

/-- One row of an operation: its entries in the bank, its stored row, its maximum, its census counts (untouched where K = 0, R98), its
K-steps; the lines that no later row needs leave the A queue (R78 to R95). -/
def matRow (j : EngJob) (core array : Nat) (op : MatOp) (bv : List Vect) (s : State) (m : Nat) : State :=
  let op' := if op.k = 0 then { op with census := none } else op
  let ds := if op.store.isSome then colDraws s j.ctx core array op.tag op.m op.n else []
  let s := writeRow s core array op' ds m (rowResult (feedView s core array j.id) core array op bv m)
  let keep (l : FeedLine) : Bool := l.job != j.id || (List.range (op.m - (m + 1))).any (fun i => (rowLines op (m + 1 + i)).contains l.addr)
  let s := if (feedOf s core array).isEmpty then s else setFeed s core array ((feedOf s core array).filter keep)
  let s := s.bump F.coreArraySteps_STEPS (cdiv op.k (lanesOf op.a.fmt op.b.fmt)) (core * 4 + array)
  if m + 1 = op.m then s.bump F.coreArrayPadCycles_PAD (padCycles op) (core * 4 + array) else s

/-- The rows from `m` on, in ascending order (R90). -/
def matRun (s : State) (j : EngJob) (core array : Nat) (op : MatOp) (bv : List Vect) (m : Nat) : State :=
  if matIdle op then s else ((List.range (op.m - m)).map (fun i => m + i)).foldl (matRow j core array op bv) s

/-! Commands. -/

/-- The unit ID of an array. -/
def arrayUnit (s : State) (core array : Nat) : Nat := unitId 2 (((s.physCore core).getD 255) * 4 + array)

/-- MATRIX_OP_ISSUE (R71, R188 to R194). -/
def execMatrixOpIssue (at_ : At) (iss : Issue) (array : Nat) (op : MatOp) (s : State) : Out :=
  if array < 4 ∧ op.bank < 2 then
    issueOp s at_ iss (fun t s => arrayUnit s t.core array) (.matrix op) false (fun _ _ => none)
  else .fault .noSuchUnit

/-- The stationary store's halves of an array, the latest first (R81). -/
def bHalves (s : State) (core array : Nat) : List BHalf := smapGet s.core.bst [] (core * 4 + array)

def setHalves (s : State) (core array : Nat) (l : List BHalf) : State :=
  { s with core := { s.core with bst := smapSet s.core.bst [] (core * 4 + array) l } }

/-- The B columns of an operation as its half holds them. -/
def halfVects (op : MatOp) (h : BHalf) : List Vect :=
  tabulate op.n (fun n => ⟨nthD h.rows n [], match op.b.fmt with | .plain _ => none | _ => some (nthD h.scales n [])⟩)

/-- ARRAY_OP_ACCEPT: the next operation of the queue is checked and its B loaded into the half the operation before does not use
(R73 to R77, R81, R550); an operation that reads nothing loads none (R76, R98). DESIGN CHOICE (log 53): a third operation is not accepted
while two are in flight, since the B store has two halves; R81 states no such limit. -/
def execArrayOpAccept (core array : Nat) (s : State) : Out :=
  if core < 240 ∧ array < 4 then
    let js := jobsOf s (arrayUnit s core array)
    if 2 ≤ (js.filter (fun j => j.started)).length || !coreRuns s core || coreDrains s core then ok s
    else
      match js.find? (fun j => !j.started) with
      | none => ok s
      | some j =>
        match j.job with
        | .matrix op =>
          match matCheck s core j.ctx op with
          | (some (r, i), s) => ok (haltJob s j r i)
          | (none, s) =>
            let s := updJob s j.id (fun x => { x with started := true })
            let vs := if matIdle op then [] else tabulate op.n (fun n => sramVect s core op.b op.k n)
            let h : BHalf := ⟨j.id, vs.map (fun v => v.codes), vs.map (fun v => v.scale.getD [])⟩
            ok (setHalves s core array (h :: (bHalves s core array).take 1))
        | _ => ok s
  else .fault .noSuchUnit

/-- The oldest accepted operation of an array with its B half, where the core runs. -/
def arrayHead (s : State) (core array : Nat) : Option (EngJob × MatOp × BHalf) :=
  match (jobsOf s (arrayUnit s core array)).head? with
  | none => none
  | some j =>
    match j.job with
    | .matrix op =>
      if j.started && coreRuns s core then
        ((bHalves s core array).find? (fun h => h.key == j.id)).map (fun h => (j, op, h))
      else none
    | _ => none

/-- One row of an array's oldest operation, while time passes (R92; log 1). -/
def arrayTick (s : State) (core array : Nat) : State :=
  let s := feedLine core array (feedLine core array s)
  match arrayHead s core array with
  | none => s
  | some (j, op, h) =>
    if matIdle op || decide (op.m ≤ j.cursor)
        || (rowLines op j.cursor).any (fun a => !(feedOf s core array).any (fun l => l.job == j.id && l.addr == a)) then s
    else updJob (matRow j core array op (halfVects op h) s j.cursor) j.id (fun x => { x with cursor := j.cursor + 1 })

/-- ARRAY_OP_COMPLETE: what is left of the oldest accepted operation's rows, its counters with the cycles its feeder and its ramp
lost, its token (R70 to R101, R92). -/
def execArrayOpComplete (core array bubbles ramps : Nat) (s : State) : Out :=
  if core < 240 ∧ array < 4 then
    match arrayHead s core array with
    | none => ok s
    | some (j, op, h) =>
      let s := matRun s j core array op (halfVects op h) j.cursor
      let n := core * 4 + array
      let s := (s.bump F.coreArrayFeedBubbles_BUBBLES bubbles n).bump F.coreArrayRampCycles_RAMP ramps n
      ok (finishJob s j)
  else .fault .noSuchUnit

end Sys2Proof.Machine
end

