-- ==== Sys2Proof/Machine/Segmul.lean ====
section
/-! DEFINITION. The tenant-segmented multiply (4: R109 to R137, R551). -/

namespace Sys2Proof.Machine

/-- Unit ID of the Harbourmaster. -/
def hmUnit : Nat := unitId 0xD 0

/-! Checks before the first product. -/

/-- The positions of parameters in Table 4.2, for INFO of 0x24 (R116: START and OUT alone). -/
def segBadFormat (j : SegJob) : Option Nat :=
  let cOk (f : OpFmt) : Bool := f == .plain .fp32 || f == .plain .bf16 || f == .plain .fp16
  if j.mode = .backWeight then none
  else if j.accumulate && !cOk j.start.fmt then some 6
  else if !(j.out.fmt.legal && j.out.fmt != .plain .int8 && j.out.fmt != .plain .int32) then some 7
  else none

/-- Addresses and pitches that must be multiples of 64 (R115: every one but MANIFEST's), in the order of Table 4.2. DESIGN CHOICE
(log 53): of several misaligned ones the first in this order is reported, and INFO, which Table 6.16 calls an address, is a
misaligned pitch's value. -/
def segAligned (j : SegJob) : List Nat :=
  let sc (r : MRef) : List Nat := if hasScales r then [r.scale, r.scalePitch] else []
  let ap (r : MRef) : List Nat := [r.addr, r.pitch]
  if j.mode = .backWeight then (ap j.inAdapt ++ ap j.grad) ++ (ap j.uIn ++ ap j.vIn)
  else
    ((ap j.inBase ++ sc j.inBase) ++ (ap j.base ++ sc j.base)) ++ (ap j.inAdapt ++ (if j.accumulate then ap j.start else []))
      ++ ((ap j.out ++ sc j.out) ++ ap j.low)

/-- Checks 1 to 4 of R551. -/
def segRefused (j : SegJob) : Option (Nat × Nat) :=
  if j.mode ≠ .backWeight ∧ !pairOk j.inBase.fmt j.base.fmt then some (0x21, fmtInfo j.inBase.fmt j.base.fmt)
  else if 1048576 < j.m then some (0x22, 0)
  else if 65536 < j.k then some (0x22, 1)
  else if 65536 < j.n then some (0x22, 2)
  else
    match segBadFormat j with
    | some p => some (0x24, paramInfo p)
    | none => ((segAligned j).find? (fun a => a % 64 != 0)).map (fun a => (0x41, a))

/-- INFO all ones. -/
def allOnes : Nat := 2 ^ 64 - 1

/-- The manifest's entries after checks 1 and 2 (R117, R118, R123): handle and rows of each. -/
def segManifest (c : Nat) (j : SegJob) (s : State) : Res (List (Nat × Nat)) :=
  let bad1 (s : State) : Res (List (Nat × Nat)) := .halt 0xA0 allOnes s
  let rd (n : Nat) (s : State) : Res (List Byte) :=
    match devBytes c j.manifest n s with
    | .halt r i s => if r = 0x46 then .halt r i s else .halt 0xA0 allOnes s
    | x => x
  if j.manifest % 64 != 0 then bad1 s
  else
    (rd 16 s).then (fun h s =>
      let cnt := leAt h 2 2
      if leAt h 0 2 != 1 || decide (1024 < cnt) then bad1 s
      else
        (rd (16 + 8 * cnt) s).then (fun bs s =>
          let es := tabulate cnt (fun i => leAt bs (16 + 8 * i) 8)
          let rows := es.map (fun e => bitsOf e 36 16)
          if leAt h 4 4 != j.m || leAt h 8 8 != 0 || es.any (fun e => decide (2 ^ 37 ≤ e)) || rows.foldl (· + ·) 0 != j.m then
            .halt 0xA1 allOnes s
          else .ok (es.map (fun e => (e % 65536, bitsOf e 36 16))) s))

/-- Check 6: an extent aligned and inside one segment with its permission. -/
def segExtent (c idx : Nat) (need : Need) (addr pitch rows len : Nat) (s : State) : Res Unit :=
  if addr % 64 != 0 || pitch % 64 != 0 then .halt 0xA6 idx s
  else
    match devCheck need c addr (extent rows pitch len) s with
    | .halt _ _ s => .halt 0xA6 idx s
    | x => x

/-- Checks 3 to 6 of one segment: its descriptor. -/
def segDescriptor (c : Nat) (j : SegJob) (idx h : Nat) (s : State) : Res Adapter :=
  if !s.isSet F.coreAdapterTable_ENABLE then .halt 0xA3 idx s
  else
    let r := physRead s (adapterAddr s h) 64
    if r.1.1 then .halt 0x46 (adapterAddr s h) r.2
    else
      let d := decodeAdapter r.1.2
      let s := r.2
      let fmt := if j.inAdapt.fmt = .plain .bf16 then 0 else if j.inAdapt.fmt = .plain .fp16 then 1 else 256
      let dims := if j.mode = .backData then (d.outDim, d.inDim) else (d.inDim, d.outDim)
      if !d.valid then .halt 0xA3 idx s
      else if d.owner != c then .halt 0xA2 idx s
      else if 64 < d.rank || d.format != fmt || dims != (j.k, j.n) then .halt 0xA5 idx s
      else
        (segExtent c idx .read d.a d.aPitch d.rank (2 * d.inDim) s).then (fun _ s =>
          (segExtent c idx .read d.b d.bPitch d.outDim (2 * d.rank) s).then (fun _ s =>
            if j.mode = .backWeight then
              (segExtent c idx .both d.ga d.gaPitch d.rank (4 * d.inDim) s).then (fun _ s =>
                (segExtent c idx .both d.gb d.gbPitch d.outDim (4 * d.rank) s).then (fun _ s => .ok d s))
            else .ok d s))

/-- Checks 3 to 7 over the entries in ascending order: the segments with their descriptors. -/
def segEntries (c : Nat) (j : SegJob) : List (Nat × Nat) → Nat → Nat → List SegRun → State → Res (List SegRun)
  | [], _, _, done, s => .ok done s
  | (h, rows) :: es, idx, row, done, s =>
    (segDescriptor c j idx h s).then (fun d s =>
      if rows != 0 && done.any (fun r => r.handle == h && r.rows != 0) then .halt 0xA4 idx s
      else
        let r : SegRun := ⟨row, rows, h, d.rank, toSigned 8 d.scaleExp, d.a, d.aPitch, d.b, d.bPitch, d.ga, d.gaPitch, d.gb, d.gbPitch,
          d.inDim, d.outDim⟩
        segEntries c j es (idx + 1) (row + rows) (done ++ [r]) s)

/-- The ranges a job writes and those it reads, as extents (check 8). -/
def segWrites (j : SegJob) (runs : List SegRun) : List (Nat × Nat) :=
  let maxr := (runs.map (fun r => r.rank)).foldl max 0
  if j.mode = .backWeight then
    runs.flatMap (fun r => [(r.ga, extent r.rank r.gaPitch (4 * r.inDim)), (r.gb, extent r.outDim r.gbPitch (4 * r.rank))])
  else
    [(j.out.addr, extent j.m j.out.pitch (packed j.out.fmt.elem j.n)), (j.low.addr, extent j.m j.low.pitch (2 * maxr))]
      ++ (if j.accumulate then [(j.start.addr, extent j.m j.start.pitch (packed j.start.fmt.elem j.n))] else [])

def segReads (j : SegJob) (runs : List SegRun) : List (Nat × Nat) :=
  let maxr := (runs.map (fun r => r.rank)).foldl max 0
  let ad := runs.flatMap (fun r => [(r.a, extent r.rank r.aPitch (2 * r.inDim)), (r.b, extent r.outDim r.bPitch (2 * r.rank))])
  let own :=
    if j.mode = .backWeight then
      [(j.inAdapt.addr, extent j.m j.inAdapt.pitch (2 * j.k)), (j.grad.addr, extent j.m j.grad.pitch (2 * j.n)),
       (j.uIn.addr, extent j.m j.uIn.pitch (2 * maxr)), (j.vIn.addr, extent j.m j.vIn.pitch (2 * maxr))]
    else
      [(j.inBase.addr, extent j.m j.inBase.pitch (packed j.inBase.fmt.elem j.k)),
       (j.inAdapt.addr, extent j.m j.inAdapt.pitch (2 * j.k)), (j.base.addr, extent j.n j.base.pitch (packed j.base.fmt.elem j.k))]
  own ++ ad

/-- Where a piece of a range that begins in segment `i` ends: with the segment, or where a lower-numbered one begins (R305). -/
def pieceEnd (s : State) (c i : Nat) (g : Seg) (ca : Nat) : Nat :=
  (List.range i).foldl (fun e k =>
    match smapFind s.mem.seg (c * 16 + k) with
    | some x => if ca < x.vbase then min e x.vbase else e
    | none => e) (g.vbase + g.len)

/-- Where a context's segments next begin above an address. -/
def nextSeg (s : State) (c ca : Nat) : Option Nat :=
  ((List.range 16).filterMap (fun k => smapFind s.mem.seg (c * 16 + k))).foldl (fun m g =>
    if ca < g.vbase then some (match m with | some x => min x g.vbase | none => g.vbase) else m) none

/-- The device physical pieces of a range, segment by segment, present or not; what lies in no segment has none. -/
def physPieces (s : State) (c : Nat) : Nat → Nat → Nat → List (Nat × Nat)
  | 0, _, _ => []
  | fuel + 1, ca, n =>
    if n = 0 then []
    else
      match segOf s c ca with
      | some (i, g) =>
        let k := min n (pieceEnd s c i g ca - ca)
        (if g.target = 0 then [(g.pbase + (ca - g.vbase), k)] else []) ++ physPieces s c fuel (ca + k) (n - k)
      | none =>
        match nextSeg s c ca with
        | some b => if b < ca + n then physPieces s c fuel b (ca + n - b) else []
        | none => []

/-- Extents as device physical ranges (check 8). -/
def physRanges (s : State) (c : Nat) (l : List (Nat × Nat)) : List (Nat × Nat) := l.flatMap (fun r => physPieces s c 64 r.1 r.2)

def overlap (x y : Nat × Nat) : Bool := decide (x.1 < y.1 + y.2) && decide (y.1 < x.1 + x.2)

/-- Whether any two of a list overlap. -/
def anyOverlap : List (Nat × Nat) → Bool
  | [] => false
  | x :: xs => xs.any (overlap x) || anyOverlap xs

/-- The duplicates of a handle named by several segments stand once. -/
def onceByHandle : List SegRun → List SegRun
  | [] => []
  | r :: rs => if rs.any (fun x => x.handle == r.handle) then onceByHandle rs else r :: onceByHandle rs

/-- Checks 8 and 9. -/
def segWhole (c : Nat) (j : SegJob) (runs : List SegRun) (s : State) : Res (List SegRun) :=
  let once := onceByHandle runs
  let ws := physRanges s c (segWrites j once)
  let rs := physRanges s c (segReads j once)
  let maxr := (runs.map (fun r => r.rank)).foldl max 0
  let short (r : MRef) : Bool := decide (r.pitch < 2 * maxr)
  if anyOverlap ws || ws.any (fun w => rs.any (overlap w)) then .halt 0xA7 allOnes s
  else if maxr != 0 && (if j.mode = .backWeight then short j.uIn || short j.vIn else short j.low) then .halt 0xA8 allOnes s
  else .ok runs s

/-! The division of the work. -/

/-- A task of a job. -/
inductive STask where
  | low (r : SegRun) (row rows t : Nat)
  | out (r : SegRun) (row rows i b t : Nat)
  | ga (r : SegRun) (chunk b : Nat)
  | gb (r : SegRun) (chunk b : Nat)
  deriving DecidableEq, Repr

/-- Row tiles of 256 rows (R126): segment, first row, rows. -/
def segTiles (runs : List SegRun) : List (SegRun × Nat × Nat) :=
  runs.flatMap (fun r => (List.range (cdiv r.rows 256)).map (fun t => (r, r.row0 + 256 * t, min 256 (r.rows - 256 * t))))

/-- Chunks of 1,024 rows (R131). -/
def chunks (r : SegRun) : Nat := cdiv r.rows 1024

/-- The weight tasks in their order (R132). -/
def weightTasks (runs : List SegRun) : List STask :=
  (runs.filter (fun r => r.rank != 0)).flatMap (fun r =>
    (List.range (chunks r)).flatMap (fun c =>
      (List.range (cdiv r.inDim 128)).map (fun b => STask.ga r c b) ++ (List.range (cdiv r.outDim 256)).map (fun b => STask.gb r c b)))

/-- Whether a job runs no task at all (R125). With K = 0 the tasks run, under R98. -/
def segIdle (j : SegJob) : Bool := j.m == 0 || j.n == 0

/-- The tasks with their numbers: phase-1 task t is t, phase-2 task i is the number of tiles + i, weight task w is w. -/
def segTasks (j : SegJob) (runs : List SegRun) : List (Nat × STask) :=
  if segIdle j then []
  else if j.mode = .backWeight then (weightTasks runs).zipIdx.map (fun x => (x.2, x.1))
  else
    let ts := (segTiles runs).zipIdx
    let nb := cdiv j.n 128
    (ts.filter (fun x => x.1.1.rank != 0)).map (fun x => (x.2, STask.low x.1.1 x.1.2.1 x.1.2.2 x.2))
      ++ ts.flatMap (fun x => (List.range nb).map (fun b =>
          (ts.length + x.2 * nb + b, STask.out x.1.1 x.1.2.1 x.1.2.2 (x.2 * nb + b) b x.2)))

/-- A position of a core list in service: the next in ascending order, wrapping, where the entry itself is not (R153, R135). -/
def listCore (s : State) (cores : List Nat) (p : Nat) : Option Nat :=
  let n := cores.length
  ((List.range n).map (fun k => nthD cores ((p + k) % n) 0)).find? (fun c => (s.physCore c).isSome)

/-- The entry of the list that a task runs on (R128, R132). -/
def taskEntry (m : SegMul) (no : Nat) : Nat :=
  let T := (segTiles m.runs).length
  (if m.par.mode ≠ .backWeight ∧ T ≤ no then no - T else no) % m.cores.length

def taskCore (s : State) (m : SegMul) (no : Nat) : Option Nat := if m.cores.isEmpty then none else listCore s m.cores (taskEntry m no)

def taskDone (m : SegMul) (no : Nat) : Bool := m.tasks.any (fun t => t.no == no && t.done)
def taskBegun (m : SegMul) (no : Nat) : Bool := m.tasks.any (fun t => t.no == no)

/-- Whether two tasks write one gradient region. -/
def sameRegion (x y : STask) : Bool :=
  match x, y with
  | .ga r _ b, .ga r' _ b' => r.handle == r'.handle && b == b'
  | .gb r _ b, .gb r' _ b' => r.handle == r'.handle && b == b'
  | _, _ => false

def chunkOf (x : STask) : Nat := match x with | .ga _ c _ => c | .gb _ c _ => c | _ => 0

/-- Whether what a task must follow is done: its phase-1 task, or the chunks before its own (R128, R132). -/
def taskReady (m : SegMul) (all : List (Nat × STask)) (t : STask) : Bool :=
  match t with
  | .low _ _ _ _ => true
  | .out r _ _ _ _ k => r.rank == 0 || taskDone m k
  | _ => all.all (fun x => !(sameRegion x.2 t && decide (chunkOf x.2 < chunkOf t)) || taskDone m x.1)

/-- Whether every earlier task of a core has begun (R128); a weight task that the chunk order holds back holds back no other (R132).
Phase-1 and phase-2 tasks are two sequences. -/
def taskTurn (s : State) (m : SegMul) (all : List (Nat × STask)) (no : Nat) : Bool :=
  let T := (segTiles m.runs).length
  let sameKind (x : Nat) : Bool := m.par.mode == .backWeight || decide (x < T) == decide (no < T)
  all.all (fun x => !(decide (x.1 < no) && sameKind x.1 && taskCore s m x.1 == taskCore s m no) || taskBegun m x.1
    || (m.par.mode == .backWeight && !taskReady m all x.2))

/-- Whether a task waits for a core (R146, R148): ready, in its turn, not begun. -/
def taskWaits (s : State) (m : SegMul) (core : Nat) : Bool :=
  let all := segTasks m.par m.runs
  !m.cancelled && all.any (fun x => taskCore s m x.1 == some core && !taskBegun m x.1 && taskReady m all x.2 && taskTurn s m all x.1)

/-- Contexts with segmented-multiply tasks that wait for a core. -/
def segWaits (s : State) (core : Nat) : List Nat := (s.eng.seg.filter (fun m => taskWaits s m core)).map (fun m => m.job.ctx)

/-- The cores a context's grant lists, those in service, ascending (R145). -/
def grantCores (s : State) (c : Nat) : List Nat :=
  (tabulate (s.get F.hmCtxGrant_CORE_COUNT c) (fun i => s.get F.hmCtxGrant_FIRST_CORE c + i)).filter (fun k => (s.physCore k).isSome)

/-! Acceptance. -/

def updSeg (s : State) (id : Nat) (f : SegMul → SegMul) : State :=
  { s with eng := { s.eng with seg := updWhere s.eng.seg (fun m => m.job.id == id) f } }

def segRec (s : State) (id : Nat) : Option SegMul := s.eng.seg.find? (fun m => m.job.id == id)

/-- A job whose checks have passed: it leaves the queue and runs; its handles are held (R123, R128, R426). -/
def segStart (s : State) (j : EngJob) (p : SegJob) (runs : List SegRun) : State :=
  let cores := grantCores s j.ctx
  if cores.isEmpty && !(segTasks p runs).isEmpty then haltJob s j 0x0C noInfo
  else
    let m : SegMul := ⟨{ j with started := true }, p, cores, runs, [], false⟩
    let s := { dropJob s j.id with eng := { (dropJob s j.id).eng with seg := (dropJob s j.id).eng.seg ++ [m] } }
    (segHandles m).foldl (fun s h => s.bump F.coreAdapterHolds_HOLDS 1 h) s

/-- A job set aside until a segment is applied (R306), its fault recorded. -/
def parkJob (s : State) (id c sg ca unit : Nat) : State :=
  updJob (segFault s c sg ca unit (.job id)) id (fun j => { j with parked := some sg, since := s.ns })

/-- The checks of a job of the Harbourmaster's queue, in order (R551, R123). -/
def segAccept (s : State) (j : EngJob) : State :=
  match j.job with
  | .segmul p =>
    match segRefused p with
    | some (r, i) => haltJob s j r i
    | none =>
      let c := j.ctx
      match (segManifest c p s).then (fun es s => (segEntries c p es 0 0 [] s).then (fun rs s => segWhole c p rs s)) with
      | .halt r i s => haltJob s j r i
      | .absent n a s => parkJob s j.id c n a hmUnit
      | .ok runs s => segStart s j p runs
  | _ => s

/-- A job arrives at its unit: a segmented multiply is checked, another joins the unit's queue (R194). -/
def jobArrive (s : State) (j : EngJob) : State :=
  let s := ungate (setJobs s (s.eng.jobs ++ [j])) j.unit
  match j.job with
  | .segmul _ => segAccept s j
  | _ => startHead s j.unit

/-- SEGMUL_ISSUE (R109, R185, R188 to R194, R226). -/
def execSegmulIssue (at_ : At) (iss : Issue) (job : SegJob) (s : State) : Out :=
  issueOp s at_ iss (fun _ _ => hmUnit) (.segmul job) true (fun _ _ => some 8)

/-- OP_BUFFER_LEAVE (R193, R194, R199, R226, R488): an operation whose conditions hold goes to its unit's queue, or its token to
its gate. -/
def execOpBufferLeave (id : Nat) (s : State) : Out :=
  match s.run.ops.find? (fun o => o.id == id) with
  | none => ok s
  | some o =>
    let out (s : State) : State := opGrant (wakeSpace { s with run := { s.run with ops := s.run.ops.filter (fun x => x.id != id) } } o.core) o
    if !opReady s o || opBehind s o || !opTurn s o then ok s
    else if !unitUp s o.unit then
      ok (haltFrom (out s) o.ctx (.block o.block o.issued) 0x64 o.unit)
    else if !engPowered s o.unit then ok s
    else
      match o.job with
      | .post f g =>
        if s.get (F.ferryGates_TOKENS (g % 16)) f < 8 then ok (ungate ((out s).bump (F.ferryGates_TOKENS (g % 16)) 1 f) o.unit) else ok s
      | _ => if queueUsed s o.unit < queueSize o.unit then ok (jobArrive (out s) (o.toJob s.ns)) else ok s

/-! Tasks. -/

/-- Row `i` of an operand in device memory: codes and scales, block j's scale at byte j (R115). -/
def memVect (c : Nat) (r : MRef) (k i : Nat) (s : State) : Res Vect :=
  (devBytes c (r.addr + i * r.pitch) (packed r.fmt.elem k) s).then (fun bs s =>
    let codes := unpack r.fmt.elem.width k bs
    match r.fmt with
    | .mx _ => (devBytes c (r.scale + i * r.scalePitch) (cdiv k 32) s).then (fun sc s => .ok ⟨codes, some (sc.map (·.toNat))⟩ s)
    | .fp8 _ => .ok ⟨codes, some (List.replicate (cdiv k 32) r.scale)⟩ s
    | .plain _ => .ok ⟨codes, none⟩ s)

/-- Consecutive 16-bit or 32-bit elements. -/
def memCodes (c ca w n : Nat) (s : State) : Res (List Nat) :=
  (devBytes c ca (n * w / 8) s).then (fun bs s => .ok (unpack w n bs) s)

/-- An adapter matrix by its stored columns. -/
def adapterCols (c addr pitch cols len : Nat) (s : State) : Res (List (List Nat)) :=
  Res.each (fun i s => memCodes c (addr + i * pitch) 16 len s) (List.range cols) s

/-- Element r of every column: a row of a matrix stored by columns. -/
def acrossCols (cols : List (List Nat)) (r : Nat) : List Nat := cols.map (fun l => nthD l r 0)

/-- DOWN_h's column j over k, j < RANK (Table 4.1). -/
def downCols (c : Nat) (mode : SegMode) (r : SegRun) (s : State) : Res (List (List Nat)) :=
  if mode = .backData then
    (adapterCols c r.b r.bPitch r.outDim r.rank s).then (fun cols s => .ok (tabulate r.rank (acrossCols cols)) s)
  else adapterCols c r.a r.aPitch r.rank r.inDim s

/-- UP_h's column over j of output columns c0 to c0 + n − 1 (Table 4.1). -/
def upCols (c : Nat) (mode : SegMode) (r : SegRun) (c0 n : Nat) (s : State) : Res (List (List Nat)) :=
  if mode = .backData then
    (adapterCols c r.a r.aPitch r.rank r.inDim s).then (fun cols s => .ok (tabulate n (fun i => acrossCols cols (c0 + i))) s)
  else Res.each (fun i s => memCodes c (r.b + (c0 + i) * r.bPitch) 16 r.rank s) (List.range n) s

def ctxSeedOf (s : State) (c : Nat) : W64 := BitVec.ofNat 64 (s.get F.ctxSeed_SEED c)

/-- Draws of a task's column for its rows: array `p`, DPU `d` of the core that runs it (R51, R129). -/
def taskDraws (s : State) (c core tag p d rows : Nat) : List Nat :=
  draws rows (laneSeed (ctxSeedOf s c) (BitVec.ofNat 32 tag) (arrayLaneKey core p d))

/-- The cycles an array's feeder and ramp lose in work of a task or routine (R87, R101) depend on timing that no operand of these commands
tells, so free values are counted (log 12). -/
def lostCycles (s : State) (core array : Nat) : State :=
  let n := core * 4 + array
  let s' := { s with free := s.free + 1 }
  (s'.bump F.coreArrayFeedBubbles_BUBBLES (Config.word 30 s.free).toNat n).bump F.coreArrayRampCycles_RAMP (Config.word 31 s.free).toNat n

/-- Counters of an array's share of a task or an attention step, counted as the panel or block ends (R78, R79, R87, R101; log 53).
DESIGN CHOICE (log 53): the accumulator entries that such work overwrites, which the manual does not name, are left as they are
(R91). -/
def countSteps (s : State) (core array rows steps : Nat) : State :=
  let r := rows % 8
  let pad := if r = 0 ∨ 4 ≤ r then 0 else (4 - r) * steps
  let n := core * 4 + array
  lostCycles ((s.bump F.coreArraySteps_STEPS (rows * steps) n).bump F.coreArrayPadCycles_PAD pad n) core array

/-- A LOW element narrowed (narrow_low of R112). -/
def narrowLow (e : Elem) (scaleExp : Int) (acc rnd : Nat) : Nat :=
  if isNan32 acc then e.nanCode
  else if isInf32 acc then e.params.sign (neg32 acc) + (e.params.emaxField + 1) * 2 ^ e.params.mbits
  else srEncode acc scaleExp e.params rnd

/-- Codes of a segment's elements counted into its slot (R62, R124); with K = 0 the census is untouched (R125). -/
def segCount (s : State) (j : SegJob) (h : Nat) (e : Elem) (codes : List Nat) : State :=
  if j.censusEn && j.k != 0 then censusCodes s h e codes else s

/-- Panel `p` of a phase-1 task (R110, R112, R127, R129): 32 columns of the tile's LOW rows, on array `p`. With K = 0 it writes +0
(R125). -/
def runLow (c core : Nat) (j : SegJob) (r : SegRun) (row rows t p : Nat) (s : State) : Res Unit :=
  let e := j.inAdapt.fmt.elem
  let f : OpFmt := .plain e
  let tag := ((j.tag ^^^ 0x80000000) + t) % 2 ^ 32
  let n := min 32 (r.rank - 32 * p)
  (if j.k = 0 then .ok [] s else downCols c j.mode r s).then (fun cols s =>
    let ds := tabulate n (fun d => taskDraws s c core tag p d rows)
    (Res.run (fun i s =>
      (memVect c j.inAdapt j.k (row + i) s).then (fun x s =>
        let codes := tabulate n (fun d =>
          narrowLow e r.scaleExp (dot f f x ⟨nthD cols (32 * p + d) [], none⟩ j.k 0) (nthD (nthD ds d []) i 0))
        (devPut c (j.low.addr + (row + i) * j.low.pitch + 64 * p) (pack 16 codes) s).then (fun _ s =>
          .ok () (segCount s j r.handle e codes)))) (List.range rows) s).then (fun _ s =>
      .ok () (if j.k = 0 then s else countSteps s core p rows (cdiv j.k 32))))

/-- The base sum of an output element from its start (seg_out of R112). -/
def baseSum (j : SegJob) (x w : Vect) (start : Nat) : Nat :=
  if j.inBase.fmt = .plain .int8 then
    let i := (List.range (cdiv j.k 32)).foldl (dotInt x w j.k) 0
    accumulateBlock start ⟨.finite, false, toSigned 32 i, 0⟩ 0
  else dot j.inBase.fmt j.base.fmt x w j.k start

/-- One panel's row stored: codes, and the block's scale byte beside its row's others (R114; DEDUCED, log 20). -/
def storeOut (c : Nat) (j : SegJob) (h m col : Nat) (vals rnd : List Nat) (s : State) : Res Unit :=
  let x := narrowRow j.out.fmt j.out.scale vals rnd
  let w := j.out.fmt.elem.width
  (devPut c (j.out.addr + m * j.out.pitch + col * w / 8) (pack w x.2) s).then (fun _ s =>
    let s := if j.k = 0 then s else if j.censusEn then countRow s (some h) j.out.fmt x else s
    match x.1 with
    | some b => devPut c (j.out.scale + m * j.out.scalePitch + col / 32) [BitVec.ofNat 8 b] s
    | none => .ok () s)

/-- A panel's row of +0, stored (R98, R125). -/
def zeroOut (c core : Nat) (j : SegJob) (r : SegRun) (row rows tag col n p : Nat) (s : State) : Res Unit :=
  let ds := tabulate n (fun d => taskDraws s c core tag p d rows)
  Res.run (fun m s => storeOut c j r.handle (row + m) col (List.replicate n 0) (ds.map (fun l => nthD l m 0)) s) (List.range rows) s

/-- Panel `p` of a phase-2 task (R110, R112, R127, R129): columns 128b + 32p to 128b + 32p + 31 of a tile, on array `p`. With K = 0 it reads
nothing: OVERWRITE writes +0, ACCUMULATE leaves OUT as it is (R98, R125). -/
def runOut (c core : Nat) (j : SegJob) (r : SegRun) (row rows i b p : Nat) (s : State) : Res Unit :=
  let tag := (j.tag + i) % 2 ^ 32
  let fa : OpFmt := .plain j.inAdapt.fmt.elem
  let col := 128 * b + 32 * p
  let n := min 32 (j.n - col)
  if j.k = 0 then (if j.accumulate then .ok () s else zeroOut c core j r row rows tag col n p s)
  else
    let ds := tabulate n (fun d => taskDraws s c core tag p d rows)
    (Res.each (fun d s => memVect c j.base j.k (col + d) s) (List.range n) s).then (fun ws s =>
      (upCols c j.mode r col n s).then (fun ups s =>
        (Res.run (fun m s =>
          (memVect c j.inBase j.k (row + m) s).then (fun x s =>
            (memCodes c (j.low.addr + (row + m) * j.low.pitch) 16 r.rank s).then (fun low s =>
              (if j.accumulate then
                (devBytes c (j.start.addr + (row + m) * j.start.pitch + col * j.start.fmt.elem.width / 8)
                  (packed j.start.fmt.elem n) s).then (fun bs s => .ok ((unpack j.start.fmt.elem.width n bs).map (widen j.start.fmt.elem none)) s)
               else .ok (List.replicate n 0) s).then (fun st s =>
                let vals := tabulate n (fun d =>
                  dot fa fa ⟨low, none⟩ ⟨nthD ups d [], none⟩ r.rank (baseSum j x (nthD ws d ⟨[], none⟩) (nthD st d 0)))
                storeOut c j r.handle (row + m) col vals (ds.map (fun l => nthD l m 0)) s)))) (List.range rows) s).then (fun _ s =>
          .ok () (countSteps s core p rows (cdiv j.k (lanesOf j.inBase.fmt j.base.fmt) + cdiv r.rank 32)))))

/-- Rows of a chunk. -/
def chunkRows (r : SegRun) (chunk : Nat) : Nat := min 1024 (r.rows - 1024 * chunk)

/-- Elements of column `k0` to `k0 + n − 1` of a chunk's rows, by column. -/
def chunkCols (c : Nat) (x : MRef) (row rows k0 n : Nat) (s : State) : Res (List (List Nat)) :=
  (Res.each (fun i s => memCodes c (x.addr + (row + i) * x.pitch + 2 * k0) 16 n s) (List.range rows) s).then
    (fun rs s => .ok (tabulate n (acrossCols rs)) s)

/-- One gradient element's place: read where it continues, its blocks accumulated, written as FP32 (seg_grad of R112). -/
def gradElem (c : Nat) (j : SegJob) (h ca : Nat) (fresh : Bool) (a b : List Nat) (s : State) : Res Unit :=
  let f : OpFmt := .plain j.inAdapt.fmt.elem
  (if fresh then .ok [0] s else memCodes c ca 32 1 s).then (fun st s =>
    let v := dot f f ⟨a, none⟩ ⟨b, none⟩ a.length (nthD st 0 0)
    (devPut c ca (leBytes 4 v) s).then (fun _ s => .ok () (segCount s j h .fp32 [v])))

/-- A GA task (R111, R131): RANK rows by 128 columns k. -/
def runGa (c core : Nat) (j : SegJob) (r : SegRun) (chunk b : Nat) (s : State) : Res Unit :=
  let row := r.row0 + 1024 * chunk
  let rows := chunkRows r chunk
  let n := min 128 (r.inDim - 128 * b)
  let fresh := chunk == 0 && !j.accumulate
  (chunkCols c j.inAdapt row rows (128 * b) n s).then (fun xs s =>
    (chunkCols c j.vIn row rows 0 r.rank s).then (fun vs s =>
      (Res.run (fun jj s =>
        Res.run (fun k s =>
          gradElem c j r.handle (r.ga + jj * r.gaPitch + 4 * (128 * b + k)) fresh (nthD xs k []) (nthD vs jj []) s)
          (List.range n) s) (List.range r.rank) s).then (fun _ s =>
        .ok () ((List.range (cdiv n 32)).foldl (fun s p => countSteps s core p r.rank (cdiv rows 32)) s))))

/-- A GB task (R111, R131): 256 rows n of OUT_DIM by RANK columns. -/
def runGb (c core : Nat) (j : SegJob) (r : SegRun) (chunk b : Nat) (s : State) : Res Unit :=
  let row := r.row0 + 1024 * chunk
  let rows := chunkRows r chunk
  let n := min 256 (r.outDim - 256 * b)
  let fresh := chunk == 0 && !j.accumulate
  (chunkCols c j.grad row rows (256 * b) n s).then (fun gs s =>
    (chunkCols c j.uIn row rows 0 r.rank s).then (fun us s =>
      (Res.run (fun k s =>
        Res.run (fun jj s =>
          gradElem c j r.handle (r.gb + (256 * b + k) * r.gbPitch + 4 * jj) fresh (nthD us jj []) (nthD gs k []) s)
          (List.range r.rank) s) (List.range n) s).then (fun _ s =>
        .ok () ((List.range (cdiv r.rank 32)).foldl (fun s p => countSteps s core p n (cdiv rows 32)) s))))

/-- Panels of a task, each ending at a commit point (R137); a weight task, which is not preemptible, is one. -/
def taskPanels (j : SegJob) (t : STask) : Nat :=
  match t with
  | .low r _ _ _ => cdiv r.rank 32
  | .out _ _ _ _ b _ => cdiv (min 128 (j.n - 128 * b)) 32
  | _ => 1

/-- Whether a task is a weight task (R131, R137). -/
def STask.weight (t : STask) : Bool := match t with | .ga _ _ _ => true | .gb _ _ _ => true | _ => false

/-- One panel of a task. Operands are staged between device memory and the core's scratchpad, transposed by the tile's tenders where
needed (R133); that leaves no trace here: DESIGN CHOICE (log 54), the manual names neither the place nor the tender. -/
def runPanel (c core : Nat) (j : SegJob) (t : STask) (p : Nat) (s : State) : Res Unit :=
  match t with
  | .low r row rows k => runLow c core j r row rows k p s
  | .out r row rows i b _ => runOut c core j r row rows i b p s
  | .ga r k b => runGa c core j r k b s
  | .gb r k b => runGb c core j r k b s

/-- Whether a core serves a context now: bound to it, not closed by the quantum, running (R128, R148). -/
def coreServes (s : State) (core c : Nat) : Bool :=
  s.isSet F.coreBinding_BOUND core && s.get F.coreBinding_CONTEXT core == c && coreRuns s core && !coreDrains s core && !(coreFlags s core).closed

def updTask (s : State) (job task : Nat) (f : SegTask → SegTask) : State :=
  updSeg s job (fun m => { m with tasks := updWhere m.tasks (fun t => t.no == task) f })

/-- A task that can go on now: begun, not done, not parked, its core running, its context's work allowed, but for a weight task, which runs
to its end once it has begun (R137). -/
def taskGoes (s : State) (m : SegMul) (task : Nat) : Option (STask × SegTask × Nat) :=
  match (segTasks m.par m.runs).find? (fun x => x.1 == task), m.tasks.find? (fun t => t.no == task && !t.done) with
  | some x, some t =>
    match t.core with
    | none => none
    | some core =>
      if coreRuns s core && (s.ctxRuns m.job.ctx || x.2.weight) && t.parked.isNone then some (x.2, t, core) else none
  | _, _ => none

/-- The next panel of a task: its rows stored, its census increments held until the task is done. A poisoned operand halts the context;
an absent segment is recorded, and the panel starts anew once it is applied. -/
def panelStep (s : State) (job : Nat) (m : SegMul) (x : STask) (t : SegTask) (core : Nat) : State :=
  match Res.held (runPanel m.job.ctx core m.par x t.cursor) s with
  | .ok v s => updTask s job t.no (fun t => { t with cursor := t.cursor + 1, census := t.census ++ v.2 })
  | .absent n a s => updTask (segFault s m.job.ctx n a (coreUnit s core) (.task job t.no)) job t.no (fun t => { t with parked := some n })
  | .halt r i s => haltFrom s m.job.ctx m.job.origin r i

/-- Up to `n` panels of a task, as far as it can go on. -/
def panelSteps : Nat → State → Nat → Nat → State
  | 0, s, _, _ => s
  | n + 1, s, job, task =>
    match segRec s job with
    | none => s
    | some m =>
      match taskGoes s m task with
      | none => s
      | some (x, t, core) => if t.cursor < taskPanels m.par x then panelSteps n (panelStep s job m x t core) job task else s

/-- A task whose panels are all stored is done: its increments are applied (R65), its core may be free. -/
def taskEnd (s : State) (job task : Nat) : State :=
  match segRec s job with
  | none => s
  | some m =>
    match taskGoes s m task with
    | none => s
    | some (x, t, core) =>
      if t.cursor < taskPanels m.par x then s
      else freeCore (updTask (censusApply s t.census) job task (fun t => { t with done := true, census := [] })) core

/-- One panel of every task that runs, while time passes; a weight task's work is done when it ends (log 1). -/
def taskTick (s : State) (job task : Nat) : State :=
  match (segRec s job).bind (fun m => taskGoes s m task) with
  | some (x, _, _) => if x.weight then s else panelSteps 1 s job task
  | none => s

/-- SEGMUL_TASK_DONE (R110 to R114, R127 to R133): what is left of a task that has begun. -/
def execSegmulTaskDone (job task : Nat) (s : State) : Out := ok (taskEnd (panelSteps 4 s job task) job task)

/-- SEGMUL_COMPLETE (R134, R125): every task is done, or, cancelled, none runs: holds are dropped and the job completes. -/
def execSegmulComplete (job : Nat) (s : State) : Out :=
  match segRec s job with
  | none => ok s
  | some m =>
    let all := segTasks m.par m.runs
    let fin := if m.cancelled then m.tasks.all (fun t => t.done) else all.all (fun x => taskDone m x.1)
    if fin then
      let s := dropSegHolds { s with eng := { s.eng with seg := s.eng.seg.filter (fun x => x.job.id != job) } } m
      ok (completeTo s m.job.ctx m.job.origin m.job.token m.job.bollard m.cancelled)
    else ok s

end Sys2Proof.Machine
end

