-- ==== Sys2Proof/Machine/Place.lean ====
section
/-! DEFINITION. Binding cores and placing blocks (5: R138 to R156). -/

namespace Sys2Proof.Machine

/-- Group slots of a block (Table 5.1). -/
def slotsPer (d : EntryDecl) : Nat := cdiv d.threads 32

/-- Free group slots of a core, ascending. -/
def freeSlots (s : State) (core : Nat) : List Nat := (List.range 128).filter (fun k => (slotRec s core k).isNone)

/-- Scratchpad granules under a split. -/
def granulesOf (ways : Nat) : Nat := 512 - ways * 32

/-- The lowest free run of granules on a core (log 21); a block without scratchpad needs none. -/
def freeRun (s : State) (core ways n : Nat) : Option Nat :=
  let used := s.run.blocks.filter (fun b => b.core == core && b.granules != 0)
  let clash (g : Nat) : Bool := used.any (fun b => decide (g < b.gran + b.granules) && decide (b.gran < g + n))
  if n = 0 then some 0 else (List.range (granulesOf ways + 1 - n)).find? (fun g => !clash g)

/-- Blocks a core can still take of a declaration: slots, scratchpad, the 64 (R150). `empty` asks it of an empty core (R155). -/
def capacity (s : State) (core : Nat) (d : EntryDecl) (empty : Bool) : Nat :=
  let blocks := s.run.blocks.filter (fun b => b.core == core)
  let slots := if empty then 128 else (freeSlots s core).length
  let n := if empty then 64 else 64 - blocks.length
  let used := fun g => !empty && blocks.any (fun b => decide (b.gran ≤ g) && decide (g < b.gran + b.granules))
  let runs := (List.range (granulesOf d.cacheWays)).foldl (fun (acc : Nat × Nat) g =>
    if used g then (acc.1, 0) else if acc.2 + 1 = d.granules then (acc.1 + 1, 0) else (acc.1, acc.2 + 1)) (0, 0)
  let waysOk := empty || blocks.isEmpty || s.get F.coreGrottoStatus_CACHE_WAYS core = d.cacheWays
  if !waysOk then 0 else min (min (slots / slotsPer d) n) (if d.granules = 0 then 64 else runs.1)

/-- Whether a core has room for a block of a launch now (R150): in service and powered, bound to the context and not closed (R148) or
free (R146), with slots, scratchpad and the split. -/
def hasRoom (s : State) (l : Launch) (core : Nat) : Bool :=
  let blocks := s.run.blocks.filter (fun b => b.core == core)
  let mine := s.isSet F.coreBinding_BOUND core && s.get F.coreBinding_CONTEXT core == l.ctx && !(coreFlags s core).closed
  coreRuns s core && !coreDrains s core && !s.leaving (domOfGallery (galleryOfCore core)) && (mine || !coreBusy s core)
    && decide (slotsPer l.decl ≤ (freeSlots s core).length)
    && (freeRun s core l.decl.cacheWays l.decl.granules).isSome
    && decide (blocks.length < 64)
    && (blocks.isEmpty || s.get F.coreGrottoStatus_CACHE_WAYS core == l.decl.cacheWays)

/-- The core that runs block `idx` of a STATIC launch (R151, R153). -/
def staticCore (s : State) (l : Launch) (idx : Nat) : Option Nat := listCore s l.cores (idx % l.cores.length)

/-- The next block a list position has not placed. -/
def nextAt (l : Launch) (p : Nat) : Nat := smapGet l.next p p

/-- The least of a list. -/
def least : List Nat → Option Nat
  | [] => none
  | x :: xs => match least xs with | none => some x | some y => some (min x y)

/-- The block a STATIC launch starts next on a core: ascending index (R151). -/
def staticNext (s : State) (l : Launch) (core : Nat) : Option Nat :=
  let mine (i : Nat) : Bool := decide (i < l.total) && staticCore s l i == some core
  least (((List.range l.cores.length).map (nextAt l) ++ l.again).filter mine)

/-- The unplaced block of lowest index of a DYNAMIC launch (R152). -/
def dynamicNext (l : Launch) : Option Nat := least ((nextAt l 0 :: l.again).filter (fun i => decide (i < l.total)))

/-- The block a launch has for a core now. -/
def blockFor (s : State) (l : Launch) (core : Nat) : Option Nat :=
  if l.decl.dynamic then (if l.cores.contains core then dynamicNext l else none) else staticNext s l core

/-- Whether every block of a launch has been placed. -/
def allPlaced (l : Launch) : Bool :=
  l.again.isEmpty && (if l.decl.dynamic then decide (l.total ≤ nextAt l 0)
    else (List.range l.cores.length).all (fun p => decide (l.total ≤ nextAt l p)))

/-- Whether any block of a launch has been placed. -/
def anyPlaced (l : Launch) : Bool := !l.next.isEmpty

/-- Whether a COOPERATIVE launch that has begun to place its blocks has one for a core yet: the room is kept for it, so that its blocks
are all resident at once (R155; DEDUCED, log 55). -/
def keepsCore (s : State) (l : Launch) (core : Nat) : Bool :=
  l.decl.cooperative && !l.cancelled && anyPlaced l && !allPlaced l && (blockFor s l core).isSome

/-- Whether a core is kept for another context's launch. -/
def keptFrom (s : State) (core ctx : Nat) : Bool := s.run.launches.any (fun x => x.ctx != ctx && keepsCore s x core)

/-- Whether a core can take a block of a launch now (R150): it has room that is kept for no other launch. -/
def placeable (s : State) (l : Launch) (core : Nat) : Bool :=
  hasRoom s l core && !s.run.launches.any (fun x => x.id != l.id && keepsCore s x core)

/-- The core a DYNAMIC launch takes: placeable, with the most free slots, ties to the lowest entry (R152). -/
def dynamicCore (s : State) (l : Launch) : Option Nat :=
  (l.cores.filter (placeable s l)).foldl (fun b c =>
    match b with
    | none => some c
    | some d => if (freeSlots s d).length < (freeSlots s c).length then some c else some d) none

/-- Whether all blocks of a COOPERATIVE launch are placeable at the same time (R155); `empty` asks it of empty cores. -/
def coopFits (s : State) (l : Launch) (empty : Bool) : Bool :=
  let cap (c : Nat) : Nat := if empty || placeable s l c then capacity s c l.decl empty else 0
  if l.decl.dynamic then decide (l.total ≤ (l.cores.map cap).foldl (· + ·) 0)
  else
    let n := l.cores.length
    l.cores.zipIdx.all (fun cp => decide ((l.total + n - 1 - cp.2) / n ≤ cap cp.1))

/-- Whether a launch's turn has come (R149, R198, R429): its context runs, the launches before it in its queue have placed their
blocks, and under LAUNCH_WAIT the one before it has produced its token. -/
def turnCome (s : State) (l : Launch) : Bool :=
  let before := (s.run.launches.takeWhile (fun x => x.id != l.id)).filter (fun x => x.queue == l.queue)
  !l.cancelled && s.ctxRuns l.ctx && before.all allPlaced && (!l.wait || !s.run.launches.any (fun x => x.id == l.prev))

/-- Whether the launch may place blocks: its turn has come, and a COOPERATIVE one's blocks all fit or have begun to be placed (R155). -/
def mayPlace (s : State) (l : Launch) : Bool :=
  turnCome s l && (!l.decl.cooperative || anyPlaced l || coopFits s l false)

/-- Whether a launch has a block placeable on a core (R146). -/
def wantsBind (s : State) (l : Launch) (core : Nat) : Bool := mayPlace s l && (blockFor s l core).isSome && placeable s l core

/-- Whether a launch places its next block for a core there (R151, R152). -/
def wantsCore (s : State) (l : Launch) (core : Nat) : Bool :=
  wantsBind s l core && (!l.decl.dynamic || dynamicCore s l == some core)

/-- SEGMUL_TASK_DISPATCH (R128, R132, R135): a ready task starts in its turn on its core. -/
def execSegmulTaskDispatch (job task : Nat) (s : State) : Out :=
  match segRec s job with
  | none => ok s
  | some m =>
    let all := segTasks m.par m.runs
    match all.find? (fun x => x.1 == task), taskCore s m task with
    | some x, some core =>
      if !m.cancelled && !taskBegun m task && taskReady m all x.2 && taskTurn s m all task && coreServes s core m.job.ctx
          && s.ctxRuns m.job.ctx && !keptFrom s core m.job.ctx then
        ok (updSeg s job (fun m => { m with tasks := m.tasks ++ [⟨task, some core, false, none, 0, []⟩] }))
      else ok s
    | _, _ => ok s

/-- Lanes of group `g` of a block: threads below BLOCK_THREADS (R141). -/
def groupMask (threads g : Nat) : Nat := 2 ^ min 32 (threads - 32 * g) - 1

/-- Registers at block start (Table 5.2), for group `g` in a slot, whose register cache holds nothing. -/
def startRegs (s : State) (l : Launch) (core slot idx g : Nat) : State :=
  let lanes := (List.range 32).filter (fun k => (groupMask l.decl.threads g).testBit k)
  let set (m : SMap W32) (r lane v : Nat) : SMap W32 := smapSet m 0 (rfKey core slot r lane) (BitVec.ofNat 32 v)
  let rf := lanes.foldl (fun m k =>
    set (set (set (set (set m 0 k (32 * g + k)) 1 k idx) 2 k (idx / 2 ^ 32 % 256)) 3 k l.arg) 4 k (l.arg / 2 ^ 32)) s.core.rf
  { s with core := { s.core with rf := rf, rc := smapDrop s.core.rc (fun k => k == slotKey core slot) } }

/-- A group's slot at block start: one fragment at the entry's first instruction. -/
def startSlot (s : State) (l : Launch) (b : BlockRec) (slot g : Nat) : State :=
  setSlot (startRegs s l b.core slot b.idx g) b.core slot
    ⟨b.id, g, [⟨l.decl.codeOffset, groupMask l.decl.threads g, true, .none, s.ns⟩], []⟩

/-- A block placed on a core: its slots and scratchpad taken, the core's split set where it was empty (R150, R243, R190). -/
def putBlock (s : State) (l : Launch) (idx core : Nat) : State :=
  let empty := (s.run.blocks.filter (fun b => b.core == core)).isEmpty
  let s := s.restart (domOfGallery (galleryOfCore core))
  let s := if empty then setSplit s core l.decl.cacheWays else s
  let slots := (freeSlots s core).take (slotsPer l.decl)
  let gran := (freeRun s core l.decl.cacheWays l.decl.granules).getD 0
  let id := s.obj.nextId
  let b : BlockRec := ⟨id, l.id, l.ctx, idx, core, gran, l.decl.granules, slots, List.replicate 64 ⟨true, 0⟩⟩
  let s := { s with obj := { s.obj with nextId := id + 1 }, run := { s.run with blocks := s.run.blocks ++ [b] } }
  let s := slots.zipIdx.foldl (fun s kg => startSlot s l b kg.1 kg.2) s
  let p := if l.decl.dynamic then 0 else idx % l.cores.length
  let step := if l.decl.dynamic then 1 else l.cores.length
  let s := updLaunch s l.id (fun x =>
    if x.again.contains idx then { x with again := setErase x.again idx, next := smapInsert x.next p (nextAt x p) }
    else { x with next := smapInsert x.next p (idx + step) })
  showCore s core

/-- BLOCK_PLACE (R149 to R156): the launch's next block for the core, where it may be placed. -/
def execBlockPlace (launch idx core : Nat) (s : State) : Out :=
  if core < 240 then
    match launchRec s launch with
    | none => ok s
    | some l =>
      if wantsCore s l core && coreServes s core l.ctx && blockFor s l core == some idx then ok (putBlock s l idx core) else ok s
  else .fault .noSuchUnit

/-- The contexts that want a free core (R146). -/
def bidders (s : State) (core : Nat) : List Nat :=
  ((s.run.launches.filter (fun l => wantsBind s l core)).map (fun l => l.ctx)
    ++ (segWaits s core).filter (fun c => s.ctxRuns c && !keptFrom s core c)).foldl setInsert []

/-- The context a free core binds to: the highest PRIORITY, ties to the lowest ID above the last served, wrapping (R146). -/
def bidder (s : State) (core : Nat) : Option Nat :=
  let bs := bidders s core
  let top := (bs.map (fun c => s.get F.hmCtxGrant_PRIORITY c)).foldl max 0
  let best := bs.filter (fun c => s.get F.hmCtxGrant_PRIORITY c == top)
  let last := s.get F.coreBinding_CONTEXT core
  match best.find? (fun c => decide (last < c)) with
  | some c => some c
  | none => best.head?

/-- CORE_BIND (R146, R147): a free core binds; bound to another context than it last served, its cache is written back and its
stores are cleared, and no block starts before BIND_ZERO_DONE. DESIGN CHOICE (log 47): a context created anew under the ID the core last
served counts as the context it last served. -/
def execCoreBind (core : Nat) (s : State) : Out :=
  if core < 240 then
    match bidder s core with
    | none => ok s
    | some c =>
      if !coreBusy s core && coreRuns s core && !coreDrains s core then
        let f := coreFlags s core
        let same := !f.servedNone && s.get F.coreBinding_CONTEXT core == c
        let s := if same then s else clearCore (glInvalidate (glFlush s core) core) core
        let s := setFlags s core { coreFlags s core with clearing := f.clearing || !same, closed := false, servedNone := false, lfsr := 0xACE1 }
        ok ((s.put F.coreBinding_BOUND 1 core).put F.coreBinding_CONTEXT c core)
      else ok s
  else .fault .noSuchUnit

/-- BIND_ZERO_DONE (R147): the clearing of a bind ends. -/
def execBindZeroDone (core : Nat) (s : State) : Out :=
  if core < 240 then ok (setFlags s core { coreFlags s core with clearing := false }) else .fault .noSuchUnit

/-- Whether a context has a block or a task waiting for a core it is not bound to (R148). A DYNAMIC block waits for a core of its list
that only its binding keeps from it (DEDUCED, log 55). -/
def waitsFor (s : State) (core ctx : Nat) : Bool :=
  s.run.launches.any (fun l => l.ctx == ctx && turnCome s l && (blockFor s l core).isSome)
    || s.eng.seg.any (fun m => m.job.ctx == ctx && taskWaits s m core)

/-- BIND_QUANTUM_EXPIRE (R148): a context of PRIORITY at least the bound one's has waited for the core for the quantum; the core
accepts no further block of its context, unless room on it is kept for a COOPERATIVE launch (log 55). -/
def execBindQuantumExpire (core ctx : Nat) (s : State) : Out :=
  if core < 240 ∧ ctx < 4096 then
    let c := s.get F.coreBinding_CONTEXT core
    if s.isSet F.coreBinding_BOUND core && c != ctx && s.get F.hmBindQuantum_QUANTUM_US != 0
        && decide (s.get F.hmCtxGrant_PRIORITY c ≤ s.get F.hmCtxGrant_PRIORITY ctx) && waitsFor s core ctx && !keptFrom s core ctx then
      ok (freeCore (setFlags s core { coreFlags s core with closed := true }) core)
    else ok s
  else .fault .noSuchUnit

end Sys2Proof.Machine
end

