-- ==== Sys2Proof/Machine/Segments.lean ====
section
/-! DEFINITION. Memory segments' applies and the tasks parked on them (9: R303 to R307), key slots (R308 to R311). -/

namespace Sys2Proof.Machine

/-! What resumes. -/

/-- Threads parked on segment `sg` of a context go on, to repeat their access. -/
def wakeThreads (s : State) (c sg : Nat) : State :=
  let mine (r : SlotRec) : Bool := ((blockRec s r.block).map (fun b => b.ctx)) == some c
  let on (w : FragWait) : Bool := match w with | .seg n _ => n == sg | _ => false
  updFrags s (fun _ r f => if mine r && on f.wait then { f with wait := .none } else f)

/-- A context's jobs set aside for the segment go on: a segmented multiply repeats its checks, the others continue. -/
def wakeJobs (s : State) (c sg : Nat) : State :=
  let js := s.eng.jobs.filter (fun j => j.ctx == c && j.parked == some sg)
  js.foldl (fun s j =>
    let s := updJob s j.id (fun x => { x with parked := none })
    match j.job with
    | .segmul _ => segAccept s { j with parked := none }
    | _ => startHead s j.unit) s

/-- Tasks of a context's segmented multiplies parked on the segment go on. -/
def wakeTasks (s : State) (c sg : Nat) : State :=
  let free (t : SegTask) : SegTask := if t.parked = some sg then { t with parked := none } else t
  let f (m : SegMul) : SegMul := if m.job.ctx = c then { m with tasks := m.tasks.map free } else m
  { s with eng := { s.eng with seg := s.eng.seg.map f } }

/-- Launches of a context whose checks wait for the segment may try again (R183). -/
def wakeLaunches (s : State) (c sg : Nat) : State :=
  let f (e : QEntry) : QEntry := if e.parked = some sg then { e with parked := none } else e
  (queuesOf s c).foldl (fun s q => setQ s q { qRec s q with entries := (qRec s q).entries.map f }) s

/-- Every task parked on a segment resumes (R306). -/
def segResume (s : State) (c sg : Nat) : State :=
  let s := showParked { s with mem := { s.mem with parked := s.mem.parked.filter (fun p => p.key != c * 16 + sg) } } c
  wakeLaunches (wakeTasks (wakeJobs (wakeThreads s c sg) c sg) c sg) c sg

/-! The apply. -/

/-- SEG_ATTR with the attributes of `attr`; a reserved TARGET leaves the field (R14). -/
def attrWord (s : State) (c sg attr : Nat) : Nat :=
  let t := if bitsOf attr 3 2 = 3 then s.get F.segAttr_TARGET c sg else bitsOf attr 3 2
  bitsOf attr 1 0 + t * 4 + bitsOf attr 8 4 * 2 ^ 4 + bitsOf attr 20 12 * 2 ^ 12 + bitsOf attr 43 32 * 2 ^ 32

/-- The descriptor that the staged words and an attribute word make. -/
def stagedSeg (s : State) (c sg a : Nat) : Seg where
  vbase := s.get F.segVbase_VBASE c sg
  pbase := s.get F.segPbase_PBASE c sg
  len := s.get F.segLen_LENGTH c sg
  node := s.get F.segLen_NODE c sg
  present := a.testBit 1
  target := bitsOf a 3 2
  r := a.testBit 4
  w := a.testBit 5
  x := a.testBit 6
  hostCacheable := a.testBit 7
  enc := a.testBit 8
  part := bitsOf a 15 12
  reg := bitsOf a 20 16
  key := bitsOf a 43 32

/-- The conditions of R304 on a descriptor with VALID 1. -/
def segGood (g : Seg) : Bool :=
  let unit := if g.target = 0 then 65536 else 4096
  g.vbase % unit == 0 && g.len % unit == 0 && (g.target != 0 || g.pbase % unit == 0) && g.len != 0
    && decide (g.vbase + g.len ≤ 2 ^ 48) && (g.target == 1 || decide (g.pbase + g.len ≤ 2 ^ 48))
    && (!g.enc || g.target == 0) && (!g.hostCacheable || g.target == 1)

/-- Reserved bits of a write to SEG_ATTR. -/
def attrReserved (attr : Nat) : Nat := bitsOf attr 11 9 + bitsOf attr 31 21 + bitsOf attr 63 44

/-- A write to SEG_ATTR (R304, R306): an apply, accepted or rejected. -/
def segApply (s : State) (c sg attr : Nat) : State :=
  let a := attrWord s c sg attr
  let k := c * 16 + sg
  let done (s : State) : State := (s.setWord .segAttr c sg 0 a).bump F.segApplyStatus_APPLIED
  if !attr.testBit 0 then done { s with mem := { s.mem with seg := smapErase s.mem.seg k } }
  else
    let g := stagedSeg s c sg a
    if segGood g && attrReserved attr == 0 then
      let m := { s.mem with seg := smapInsert s.mem.seg k g, segPosted := setErase s.mem.segPosted k }
      let s := done { s with mem := m }
      if g.present then segResume s c sg else s
    else
      ((s.put F.segApplyStatus_REJ_CONTEXT c).put F.segApplyStatus_REJ_SEGMENT sg).put F.segApplyStatus_REJECTED 1

/-- SEG_APPLY. -/
def execSegApply (c sg attr : Nat) (s : State) : Out :=
  if c < 4096 ∧ sg < 16 then bar0 s (segApply (wideWrite s .segAttr c sg) c sg attr) else .fault .noSuchUnit

/-! The limit of R306. -/

/-- The thread of a block parked on a segment since `t`. -/
def parkedThread (s : State) (block sg t : Nat) : Option (BlockRec × Nat × Frag) :=
  s.run.slots.findSome? (fun kr =>
    let on (f : Frag) : Bool := (match f.wait with | .seg n _ => n == sg | _ => false) && f.age == t
    match blockRec s kr.2.block with
    | none => none
    | some b => if b.id = block then (kr.2.frags.find? on).map (fun f => (b, kr.1 % 128, f)) else none)

/-- The halt of a context whose parked task has waited too long (R306, R210). -/
def parkedHalt (s : State) (c sg : Nat) (p : Parked) : State :=
  match p.who with
  | .thread b =>
    match parkedThread s b sg p.since with
    | some (b, slot, f) => halt s c 0x44 p.addr (some (issuedAt s b slot f)) (entryOf s b.id)
    | none => halt s c 0x44 p.addr none (entryOf s b)
  | .job id =>
    match jobRec s id with
    | some j => haltFrom s c j.origin 0x44 p.addr
    | none => halt s c 0x44 p.addr none none
  | .task id _ =>
    match segRec s id with
    | some m => haltFrom s c m.job.origin 0x44 p.addr
    | none => halt s c 0x44 p.addr none none
  | .entry q idx => halt s c 0x44 p.addr none (some (q, idx))

/-- SEG_FAULT_TIMEOUT (R306, R183): the longest parked task of the segment has waited beyond LIMIT_MS, and halts its context. -/
def execSegFaultTimeout (c sg : Nat) (s : State) : Out :=
  if c < 4096 ∧ sg < 16 then
    if s.get F.segFaultLimit_LIMIT_MS = 0 then ok s
    else
      match s.mem.parked.find? (fun p => p.key == c * 16 + sg) with
      | none => ok s
      | some p => ok (parkedHalt s c sg p)
  else .fault .noSuchUnit

/-! Key slots. -/

/-- New keys drawn into a slot (R310): a generation that no sector was written under. Lines held name the slot, so they are written back
under them (R311). -/
def newKeys (s : State) (k : Nat) : State :=
  { s with mem := { s.mem with keyGen := smapSet s.mem.keyGen 1 k s.mem.keyNext, keyNext := s.mem.keyNext + 1 } }

/-- A slot zeroised (R310): its keys are zeros. -/
def keyZero (s : State) (k : Nat) : State :=
  State.put (State.put { s with mem := { s.mem with keyGen := smapErase s.mem.keyGen k } } F.keySlot_REQ 0 k) F.keySlot_GEN_DONE 0 k

/-- A slot with its keys zeroised and its register at reset (Table 13.14 step 7, Table 13.32). -/
def keyFree (s : State) (k : Nat) : State :=
  if s.word .keySlot k 0 0 = 0 then s else (keyZero s k).setWord .keySlot k 0 0 0

/-- A write to KEY_SLOT_k (R310, R14). -/
def keyWrite (s : State) (k v : Nat) : State :=
  let was := s.isSet F.keySlot_VALID k
  let s := (s.put F.keySlot_OWNER (bitsOf v 11 0) k).put F.keySlot_VALID (bitsOf v 12 12) k
  let s := if bitsOf v 23 16 = 0 then s else s.put F.keySlot_REQ (bitsOf v 23 16) k
  if was && !s.isSet F.keySlot_VALID k then keyZero s k else s

/-- KEY_SLOT_WRITE. -/
def execKeySlotWrite (k val : Nat) (s : State) : Out := if k < 4096 then bar0 s (keyWrite s k val) else .fault .noSuchUnit

/-- KEY_GEN_DONE (R310): the key engine has finished what the slot's register asks for. -/
def execKeyGenDone (k : Nat) (s : State) : Out :=
  if k < 4096 then
    if !unitUp s (unitId 0xD 2) then ok s
    else if s.isSet F.keySlot_VALID k then
      if s.get F.keySlot_REQ k = s.get F.keySlot_GEN_DONE k then ok s
      else ok ((newKeys s k).put F.keySlot_GEN_DONE (s.get F.keySlot_REQ k) k)
    else if s.get F.keySlot_GEN_DONE k = 0 then ok s
    else ok (keyZero s k)
  else .fault .noSuchUnit

end Sys2Proof.Machine
end

