-- ==== Sys2Proof/Machine/Tender.lean ====
section
/-! DEFINITION. Tenders (10: R312 to R318): checks, sources and destinations, the seven kinds step by step, completion. -/

namespace Sys2Proof.Machine

/-- A run of at most 64 B with its poison. -/
abbrev Sector := Bool × List Byte

/-- Bytes cut at 64-B boundaries from an aligned start. -/
def sectorsOf (poison : Nat → Bool) (bs : List Byte) : List Sector :=
  tabulate (cdiv bs.length 64) (fun i => (poison i, (bs.drop (64 * i)).take 64))

def joinSectors (l : List Sector) : Bool × List Byte := (l.any (fun x => x.1), l.flatMap (fun x => x.2))

/-- The tile of a tender. -/
def tenderTile (u : Nat) : Nat := u % 4096 / 8

/-- Whether a scratchpad range may be used by a tender's job (R314). -/
def scratchOk (s : State) (u c core a n : Nat) : Bool :=
  decide (core < 240) && tileOfCore core == tenderTile u && s.isSet F.coreBinding_BOUND core
    && s.get F.coreBinding_CONTEXT core == c && decide (a + n ≤ sramSize s core)

/-- A place moved on by bytes. -/
def placePlus (p : TPlace) (n : Nat) : TPlace :=
  match p with
  | .ctx a => .ctx (a + n)
  | .scratch k a => .scratch k (a + n)

/-- A range's check before anything is written (R213, R305, R314). -/
def tCheck (j : EngJob) (p : TPlace) (n : Nat) (need : Need) (s : State) : Res Unit :=
  if n = 0 then .ok () s
  else
    match p with
    | .ctx a => (placeOf j.ctx a n need [0, 1] s).then (fun _ s => .ok () s)
    | .scratch k a => if scratchOk s j.unit j.ctx k a n then .ok () s else .halt 0x45 a s

/-- The host lines a range lies in, where its segment's target is the host. -/
def hostLines (s : State) (c : Nat) (p : TPlace) (n : Nat) : List Nat :=
  match p with
  | .scratch _ _ => []
  | .ctx a =>
    match resolve s c a n .read [0, 1] with
    | .at_ q => if q.seg.target = 1 then tabulate ((q.addr + n - 1) / 128 + 1 - q.addr / 128) (fun i => (q.addr / 128 + i) * 128) else []
    | _ => []

/-- A host line as read for the job. -/
def gotLine (j : EngJob) (line : Nat) : Bool × List Byte := ((j.got.find? (fun g => g.1 == line)).map (fun g => g.2)).getD (false, [])

/-- Sectors read from a source. -/
def tGet (j : EngJob) (p : TPlace) (n : Nat) (s : State) : Res (List Sector) :=
  if n = 0 then .ok [] s
  else
    match p with
    | .scratch k a =>
      if scratchOk s j.unit j.ctx k a n then .ok (sectorsOf (fun _ => false) (sramRead s k a n)) s else .halt 0x45 a s
    | .ctx a =>
      (placeOf j.ctx a n .read [0, 1] s).then (fun q s =>
        if q.seg.target = 1 then
          let bs := tabulate n (fun i => nthD (gotLine j ((q.addr + i) / 128 * 128)).2 ((q.addr + i) % 128) 0)
          .ok (sectorsOf (fun i => (gotLine j ((q.addr + 64 * i) / 128 * 128)).1) bs) s
        else
          let f := (List.range (cdiv n 64)).foldl (fun (acc : List Sector × State) i =>
            let d := devRead 2 acc.2 (q.rq acc.2) (q.addr + 64 * i) (min 64 (n - 64 * i))
            (acc.1 ++ [d.1], d.2)) ([], s)
          .ok f.1 f.2)

/-- Sectors written to a destination: poison goes with them to device and host memory, and halts the context where the scratchpad
cannot hold it (R274; log 22). -/
def tPut (j : EngJob) (p : TPlace) (l : List Sector) (s : State) : Res Unit :=
  let n := (l.flatMap (fun x => x.2)).length
  if n = 0 then .ok () s
  else
    match p with
    | .scratch k a =>
      if !scratchOk s j.unit j.ctx k a n then .halt 0x45 a s
      else if l.any (fun x => x.1) then .halt 0x46 a s
      else .ok () (sramWrite s k a (l.flatMap (fun x => x.2)))
    | .ctx a =>
      (placeOf j.ctx a n .write [0, 1] s).then (fun q s =>
        if q.seg.target = 1 then .ok () (l.zipIdx.foldl (fun s xi => hostWrite s (q.addr + 64 * xi.2) xi.1.2 xi.1.1) s)
        else .ok () (l.zipIdx.foldl (fun s xi => sectorWrite s (q.rq s) (q.addr + 64 * xi.2) xi.1.2 xi.1.1) s))

/-- Bytes a job read and wrote (Table 10.9). -/
def engBytes (s : State) (u n : Nat) : State := s.bump F.engBytes_BYTES n (engIndex u)

/-! Checks. -/

/-- Bytes of a row at the source and at the destination, and rows of each (Table 10.1). -/
def srcRow (t : TenderJob) : Nat :=
  match t.kind with
  | .transpose => t.cols * t.elemBytes
  | .convert => packed t.srcFmt.elem t.cols
  | .reduce => packed t.srcFmt.elem t.cols
  | _ => t.rowBytes

def dstRow (t : TenderJob) : Nat :=
  match t.kind with
  | .transpose => t.rows * t.elemBytes
  | .convert => packed t.dstFmt.elem t.cols
  | .reduce => packed t.dstFmt.elem t.cols
  | _ => t.rowBytes

def dstRows (t : TenderJob) : Nat := match t.kind with | .transpose => t.cols | _ => t.rows

/-- Scale bytes per row of an MX operand, a multiple of 64 (log 3). -/
def scaleRow (t : TenderJob) : Nat := cdiv (cdiv t.cols 32) 64 * 64

/-- An address of an operand's own space: context memory, or the scratchpad it lies in. -/
def placeIn (p : TPlace) (a : Nat) : TPlace := match p with | .ctx _ => .ctx a | .scratch k _ => .scratch k a

/-- Where the scale bytes of a row of an MX operand begin: beside the operand, in its own space (R72; log 3). -/
def rowScaleAt (t : TenderJob) (p : TPlace) (base r : Nat) : TPlace := placeIn p (base + r * scaleRow t)

/-- Whether a CONVERT job's source, or its destination, has scale bytes. -/
def srcMx (t : TenderJob) : Bool := t.kind == .convert && (match t.srcFmt with | .mx _ => true | _ => false)
def dstMx (t : TenderJob) : Bool := t.kind == .convert && (match t.dstFmt with | .mx _ => true | _ => false)

/-- A parameter outside its table (0x23), by position: formats and element sizes. -/
def tenderBad (t : TenderJob) : Option Nat :=
  let fl (f : OpFmt) : Bool := f.legal && f != .plain .int8 && f != .plain .int32
  match t.kind with
  | .transpose => if t.elemBytes = 1 ∨ t.elemBytes = 2 ∨ t.elemBytes = 4 then none else some 30
  | .convert =>
    if t.srcFmt = .plain .int8 ∧ t.dstFmt = .plain .int32 then none
    else if !fl t.srcFmt then some 31 else if !fl t.dstFmt then some 32 else none
  | .reduce =>
    if t.srcFmt != .plain .fp32 && t.srcFmt != .plain .bf16 then some 31
    else if t.dstFmt != .plain .fp32 && t.dstFmt != .plain .bf16 then some 32 else none
  | _ => none

def placeAddr (p : TPlace) : Nat := match p with | .ctx a => a | .scratch _ a => a

def usesSrc (k : TKind) : Bool := match k with | .zero => false | _ => true
def usesDst (k : TKind) : Bool := match k with | .prefetch => false | _ => true
def byRows (k : TKind) : Bool := match k with | .copy => true | .gather => true | .zero => true | .prefetch => true | _ => false

/-- Addresses, pitches and ROW_BYTES that must be multiples of 64 (R313). -/
def tenderAligned (t : TenderJob) : List Nat :=
  (if usesSrc t.kind then [placeAddr t.src, t.srcPitch] else []) ++ (if usesDst t.kind then [placeAddr t.dst, t.dstPitch] else [])
    ++ (if byRows t.kind then [t.rowBytes] else []) ++ (match t.kind with | .gather => [t.index] | _ => [])
    ++ (if srcMx t then [t.srcScale] else []) ++ (if dstMx t then [t.dstScale] else [])

/-- The source's rows: for GATHER as its index names them. -/
def srcRowAt (t : TenderJob) (idx : List Nat) (r : Nat) : Nat := match t.kind with | .gather => nthD idx r 0 | _ => r

/-- INDEX read (R312): consumed, so poison halts. -/
def tenderIndex (j : EngJob) (t : TenderJob) (s : State) : Res (List Nat) :=
  match t.kind with
  | .gather => memCodes j.ctx t.index 32 t.rows s
  | _ => .ok [] s

/-- A source row's range: PREFETCH reads device memory alone (R312, R213). -/
def srcCheck (j : EngJob) (t : TenderJob) (p : TPlace) (n : Nat) (s : State) : Res Unit :=
  match t.kind, p with
  | .prefetch, .ctx a => devCheck .read j.ctx a n s
  | .prefetch, .scratch _ a => .halt 0x45 a s
  | _, _ => tCheck j p n .read s

/-- Every check before anything is written, in the order 0x23, 0x41, the ranges with those of scale bytes, the census slot (R213, R313,
R314, R61). -/
def tenderCheck (j : EngJob) (t : TenderJob) (s : State) : Res Unit :=
  match tenderBad t with
  | some p => .halt 0x23 (paramInfo p) s
  | none =>
    match (tenderAligned t).find? (fun a => a % 64 != 0) with
    | some a => .halt 0x41 a s
    | none =>
      let need : Need := match t.kind with | .reduce => .both | _ => .write
      let rows (b : Bool) (n : Nat) : List Nat := if b then List.range n else []
      (tenderIndex j t s).then (fun idx s =>
        (Res.run (fun r s => srcCheck j t (placePlus t.src (srcRowAt t idx r * t.srcPitch)) (srcRow t) s) (rows (usesSrc t.kind) t.rows) s).then (fun _ s =>
        (Res.run (fun r s => tCheck j (rowScaleAt t t.src t.srcScale r) (cdiv t.cols 32) .read s) (rows (srcMx t) t.rows) s).then (fun _ s =>
        (Res.run (fun r s => tCheck j (placePlus t.dst (r * t.dstPitch)) (dstRow t) need s) (rows (usesDst t.kind) (dstRows t)) s).then (fun _ s =>
        (Res.run (fun r s => tCheck j (rowScaleAt t t.dst t.dstScale r) (cdiv t.cols 32) .write s) (rows (dstMx t) t.rows) s).then (fun _ s =>
          match censusCheckOpt s j.ctx t.census with
          | (some (r, i), s) => .halt r i s
          | (none, s) => .ok () (engBytes s j.unit (4 * idx.length)))))))

/-! The kinds. A job goes on in steps: at most 64 B of a row of DST (of SRC for PREFETCH), or 32 elements that are converted or reduced. -/

/-- A step: a row of DST (of SRC for PREFETCH), and from where in it how many bytes, or elements for TRANSPOSE, CONVERT and REDUCE. -/
structure TStep where
  row : Nat
  from_ : Nat
  n : Nat
  deriving DecidableEq, Repr

/-- A length cut into pieces. -/
def pieces (len unit : Nat) : List (Nat × Nat) := tabulate (cdiv len unit) (fun i => (unit * i, min unit (len - unit * i)))

/-- A job's steps, in order: elements ascending (R315, R51). -/
def tenderSteps (t : TenderJob) : List TStep :=
  let rows (n len unit : Nat) : List TStep := (List.range n).flatMap (fun r => (pieces len unit).map (fun x => ⟨r, x.1, x.2⟩))
  match t.kind with
  | .transpose => rows t.cols t.rows (64 / t.elemBytes)
  | .convert => rows t.rows t.cols 32
  | .reduce => rows t.rows t.cols 32
  | _ => rows t.rows t.rowBytes 64

/-- Where a step's piece of DST begins. -/
def stepDst (t : TenderJob) (x : TStep) : TPlace :=
  placePlus t.dst (x.row * t.dstPitch + (match t.kind with
    | .transpose => x.from_ * t.elemBytes
    | .convert => packed t.dstFmt.elem x.from_
    | .reduce => packed t.dstFmt.elem x.from_
    | _ => x.from_))

/-- What a step reads, in order: source bytes, scale bytes, what it reduces into. -/
def stepReads (t : TenderJob) (idx : List Nat) (x : TStep) : List (TPlace × Nat) :=
  let row (r o : Nat) : TPlace := placePlus t.src (r * t.srcPitch + o)
  let codes : TPlace × Nat := (row x.row (packed t.srcFmt.elem x.from_), packed t.srcFmt.elem x.n)
  match t.kind with
  | .transpose => tabulate x.n (fun i => (row (x.from_ + i) (x.row * t.elemBytes), t.elemBytes))
  | .convert => codes :: (if srcMx t then [(placePlus (rowScaleAt t t.src t.srcScale x.row) (x.from_ / 32), 1)] else [])
  | .reduce => [codes, (stepDst t x, packed t.dstFmt.elem x.n)]
  | .zero => []
  | _ => [(row (srcRowAt t idx x.row) x.from_, x.n)]

/-- The scale of a step's block: its byte, or the operand's own for FP8. -/
def stepScale (t : TenderJob) (scale : List Byte) : Nat :=
  match t.srcFmt with
  | .mx _ => (nthD scale 0 0).toNat
  | .fp8 _ => t.srcScale
  | .plain _ => 0

/-- An element widened to FP32 under its block's scale. -/
def widenAt (f : OpFmt) (scale code : Nat) : Nat :=
  match f with
  | .plain e => widen e none code
  | .mx e => widen e (some scale) code
  | .fp8 e => widen e (some scale) code

/-- Up to 32 elements narrowed: a scale byte for MX, and codes, by the draws of elements `i0` on (R51, R312). FP8 takes k = 0. -/
def convBlock (s : State) (c tag : Nat) (f : OpFmt) (i0 : Nat) (vals : List Nat) : List Nat × List Nat :=
  let d (i : Nat) : Nat := laneDraw (ctxSeedOf s c) (BitVec.ofNat 32 tag) tenderLaneKey (i0 + i)
  match f with
  | .plain .fp32 => ([], vals)
  | .mx e => let b := mxEncode vals e.params (tabulate vals.length d); ([b.1], b.2)
  | .fp8 e => ([], vals.zipIdx.map (fun vi => narrowStore e 127 true vi.1 (d vi.2)))
  | .plain e => ([], vals.zipIdx.map (fun vi => narrowStore e 0 false vi.1 (d vi.2)))

/-- What a step writes: sectors for its piece of DST, scale bytes, and the codes that the census counts. -/
def stepMake (s : State) (j : EngJob) (t : TenderJob) (x : TStep) (got : List (List Sector)) : List Sector × List Sector × List Nat :=
  let bad := got.any (fun l => (joinSectors l).1)
  let bytes (i : Nat) : List Byte := (joinSectors (nthD got i [])).2
  let out (bs : List Byte) : List Sector := sectorsOf (fun _ => bad) bs
  let inElem (bs : List Byte) : List Nat := unpack t.elemFmt.elem.width (bs.length * 8 / t.elemFmt.elem.width) bs
  match t.kind with
  | .transpose => let bs := got.flatMap (fun l => (joinSectors l).2); (out bs, [], inElem bs)
  | .zero => let bs := List.replicate x.n 0; (out bs, [], inElem bs)
  | .convert =>
    let codes := unpack t.srcFmt.elem.width x.n (bytes 0)
    if t.srcFmt = .plain .int8 then (out (codes.flatMap (fun k => leBytes 4 (ofSigned 32 (toSigned 8 k)))), [], [])
    else
      let o := convBlock s j.ctx t.tag t.dstFmt (x.row * t.cols + x.from_) (codes.map (widenAt t.srcFmt (stepScale t (bytes 1))))
      (out (pack t.dstFmt.elem.width o.2), out (o.1.map (BitVec.ofNat 8)), o.2)
  | .reduce =>
    let a := unpack t.srcFmt.elem.width x.n (bytes 0)
    let b := unpack t.dstFmt.elem.width x.n (bytes 1)
    let sum := (a.zip b).map (fun ab => f32Add (widen t.dstFmt.elem none ab.2) (widen t.srcFmt.elem none ab.1))
    let bs := pack t.dstFmt.elem.width (convBlock s j.ctx t.tag t.dstFmt (x.row * t.cols + x.from_) sum).2
    (out bs, [], inElem bs)
  | _ => (nthD got 0 [], [], inElem (bytes 0))

/-- A step's written elements counted (R63, R316): a block under scale 0xFF as NaNs; INT32 never. -/
def stepCount (s : State) (t : TenderJob) (scales : List Sector) (codes : List Nat) : State :=
  match t.census, t.kind, t.dstFmt with
  | none, _, _ => s
  | some _, .prefetch, _ => s
  | some h, .convert, .mx _ => if nthD (joinSectors scales).2 0 0 = 0xFF then censusAdd s h codes.length 0 0 else s
  | some h, .convert, f => censusCodes s h f.elem codes
  | some h, _, _ => censusCodes s h t.elemFmt.elem codes

/-- One step: everything it reads, then what it writes; what it moved is counted (Table 10.9). -/
def tenderStep (j : EngJob) (t : TenderJob) (idx : List Nat) (x : TStep) (s : State) : Res Unit :=
  let reads := stepReads t idx x
  if t.kind = .prefetch then
    (devGet j.ctx (placeAddr t.src + x.row * t.srcPitch + x.from_) x.n s).then (fun _ s => .ok () (engBytes s j.unit x.n))
  else
    (Res.each (fun r s => tGet j r.1 r.2 s) reads s).then (fun got s =>
      let o := stepMake s j t x got
      (tPut j (stepDst t x) o.1 s).then (fun _ s =>
        (tPut j (placePlus (rowScaleAt t t.dst t.dstScale x.row) (x.from_ / 32)) o.2.1 s).then (fun _ s =>
          let n := (reads.map (fun r => r.2)).foldl (· + ·) 0 + (joinSectors o.1).2.length + (joinSectors o.2.1).2.length
          .ok () (engBytes (stepCount s t o.2.1 o.2.2) j.unit n))))

/-- Steps in order, each noted as done by `note`. -/
def tenderRun (j : EngJob) (t : TenderJob) (idx : List Nat) (note : State → State) (l : List TStep) (s : State) : Res Unit :=
  Res.run (fun x s => (tenderStep j t idx x s).then (fun _ s => .ok () (note s))) l s

/-- The 64-KiB window of DST, or of SRC for PREFETCH, that a step lies in (R317). -/
def stepWindow (t : TenderJob) (x : TStep) : Nat :=
  (match t.kind with
    | .prefetch => placeAddr t.src + x.row * t.srcPitch + x.from_
    | _ => placeAddr (stepDst t x)) / 65536

/-- Steps up to the next 64-KiB boundary. -/
def toBoundary (t : TenderJob) (l : List TStep) : List TStep :=
  match l with
  | [] => []
  | x :: _ => l.takeWhile (fun y => stepWindow t y == stepWindow t x)

/-! Host reads for tenders. -/

/-- The host lines that steps read and the job has not been given. -/
def tenderNeeds (j : EngJob) (t : TenderJob) (idx : List Nat) (l : List TStep) (s : State) : List Nat :=
  ((l.flatMap (stepReads t idx)).flatMap (fun r => hostLines s j.ctx r.1 r.2)).dedup.filter (fun a => !j.got.any (fun g => g.1 == a))

/-- The number under which a host read names a job instead of a core. -/
def jobReader : Nat := 0xFFFF

/-- Reads of host lines for a job, as many as may be outstanding (R412). -/
def readLines (s : State) (j : EngJob) (lines : List Nat) : State :=
  let asked (a : Nat) : Bool := s.hl.reads.any (fun h => h.core == jobReader && h.key == j.id && h.addr == a)
  ((lines.filter (fun a => !asked a)).take (768 - s.hl.reads.length)).foldl (fun s a =>
    let x : HostRead := ⟨s.obj.nextId, a, 128, j.ctx, jobReader, j.id, 0⟩
    let s := { s with obj := { s.obj with nextId := s.obj.nextId + 1 }, hl := { s.hl with reads := s.hl.reads ++ [x] } }
    { s with out := { s.out with reads := s.out.reads ++ [(a, 128)] } }) s

/-! Commands. -/

/-- What an engine's access leaves of its job: carried on by `k`, set aside, or halted. -/
def jobRes {α : Type} (j : EngJob) (r : Res α) (k : α → State → State) : State :=
  match r with
  | .ok v s => k v s
  | .absent n a s => startHead (parkJob s j.id j.ctx n a j.unit) j.unit
  | .halt x i s => haltJob s j x i

/-- The queue entry of a job's origin. -/
def originEntry (s : State) (o : Origin) : Option (Nat × Nat) :=
  match o with
  | .block id _ => entryOf s id
  | .queue q i => some (q, i)

/-- Whether a place lies in host memory. -/
def inHost (s : State) (c : Nat) (p : TPlace) : Bool :=
  match p with
  | .scratch _ _ => false
  | .ctx a => (segOf s c a).any (fun g => g.2.target == 1)

/-- The ranges of DST a job writes, row by row, with those of its scale bytes. -/
def tenderWrites (t : TenderJob) : List TPlace :=
  (if usesDst t.kind then (List.range (dstRows t)).map (fun r => placePlus t.dst (r * t.dstPitch)) else [])
    ++ (if dstMx t then (List.range t.rows).map (fun r => rowScaleAt t t.dst t.dstScale r) else [])

/-- Whether the tender must stop at the boundary it has reached (R317): its context is suspended, or the core whose scratchpad it
writes is drained. -/
def tenderHeld (s : State) (j : EngJob) (t : TenderJob) : Bool :=
  !s.ctxRuns j.ctx || (usesDst t.kind && (match t.dst with
    | .ctx _ => false
    | .scratch k _ => s.leaving (domOfGallery (galleryOfCore k))
        || (s.physCore k).any (fun p => smapGet s.flt.unit 0 (unitId 1 p) == 2)))

/-- What of a job is left, the number of its first step being `cursor` − 1. -/
def stepsLeft (j : EngJob) (t : TenderJob) : List TStep := (tenderSteps t).drop (j.cursor - 1)

/-- The steps `l` of a started job carried out, those done noted as its cursor (R306); then `k`. Host lines it lacks are asked for first. -/
def tenderDo (s : State) (j : EngJob) (t : TenderJob) (l : List TStep) (k : State → State) : State :=
  jobRes j (tenderIndex j t s) (fun idx s =>
    let need := tenderNeeds j t idx l s
    let hosts := l.any (fun x => usesDst t.kind && (inHost s j.ctx (stepDst t x) || (dstMx t && inHost s j.ctx (rowScaleAt t t.dst t.dstScale x.row))))
    if !s.upstream && (!need.isEmpty || hosts) then hostPathLost s j.ctx (need.headD 0) (originEntry s j.origin)
    else if !need.isEmpty then readLines s j need
    else
      let note (s : State) : State := updJob s j.id (fun x => { x with cursor := x.cursor + 1 })
      jobRes j (tenderRun j t idx note l s) (fun _ s => k (updJob s j.id (fun x => { x with got := [] }))))

/-- A started job's checks, made once (R61): cursor 1 says that they have passed. -/
def tenderAccept (s : State) (j : EngJob) (t : TenderJob) : State :=
  jobRes j (tenderCheck j t s) (fun _ s => updJob s j.id (fun x => { x with cursor := 1 }))

/-- A started job goes on (R317): its checks, or its steps to the next 64-KiB boundary. -/
def tenderTick (s : State) (j : EngJob) (t : TenderJob) : State :=
  if !j.started || j.stopping || j.parked.isSome || tenderHeld s j t then s
  else if j.cursor = 0 then tenderAccept s j t
  else tenderDo s j t (toBoundary t (stepsLeft j t)) id

/-- A tender job carried out to its end and completed (R312 to R317). One whose context has ended stops at its next boundary (R209): whether
it had left the last one, the manual leaves open (log 23). -/
def tenderComplete (s : State) (j : EngJob) (t : TenderJob) : State :=
  if j.stopping then
    let more := (Config.word 8 s.free).toNat % 2 == 0 && j.cursor != 0
    let s := { s with free := s.free + 1 }
    if more then
      match (tenderIndex j t s).then (fun idx s =>
          let l := toBoundary t (stepsLeft j t)
          if (tenderNeeds j t idx l s).isEmpty then tenderRun j t idx (fun s => s) l s else .ok () s) with
      | .ok _ s => finishJob s j
      | .absent _ _ s => finishJob s j
      | .halt _ _ s => finishJob s j
    else finishJob s j
  else if tenderHeld s j t then s
  else
    let s := if j.cursor = 0 then tenderAccept s j t else s
    match jobRec s j.id with
    | none => s
    | some j => if j.cursor = 0 || j.parked.isSome then s else tenderDo s j t (stepsLeft j t) (fun s => finishJob s j)

/-- A tender operation's issue; a REPLAYABLE block may neither reduce nor write the host or a peer (R185). -/
def tenderIssue (s : State) (at_ : At) (iss : Issue) (unit : Nat) (t : TenderJob) : Out :=
  if unit < 8 then
    issueOp s at_ iss (tileUnit 8 8 unit) (.tender t) true (fun th s =>
      let away (p : TPlace) : Bool := match p with
        | .scratch _ _ => false
        | .ctx a => (segOf s th.c a).any (fun g => g.2.target != 0)
      if t.kind = .reduce || (tenderWrites t).any away then some 9 else none)
  else .fault .noSuchUnit

/-- TENDER_COPY (Table 10.1). -/
def execTenderCopy (at_ : At) (iss : Issue) (unit : Nat) (job : TenderJob) (s : State) : Out :=
  tenderIssue s at_ iss unit { job with kind := .copy }

/-- TENDER_GATHER. -/
def execTenderGather (at_ : At) (iss : Issue) (unit : Nat) (job : TenderJob) (s : State) : Out :=
  tenderIssue s at_ iss unit { job with kind := .gather }

/-- TENDER_TRANSPOSE. -/
def execTenderTranspose (at_ : At) (iss : Issue) (unit : Nat) (job : TenderJob) (s : State) : Out :=
  tenderIssue s at_ iss unit { job with kind := .transpose }

/-- TENDER_CONVERT. -/
def execTenderConvert (at_ : At) (iss : Issue) (unit : Nat) (job : TenderJob) (s : State) : Out :=
  tenderIssue s at_ iss unit { job with kind := .convert }

/-- TENDER_REDUCE. -/
def execTenderReduce (at_ : At) (iss : Issue) (unit : Nat) (job : TenderJob) (s : State) : Out :=
  tenderIssue s at_ iss unit { job with kind := .reduce }

/-- TENDER_ZERO. -/
def execTenderZero (at_ : At) (iss : Issue) (unit : Nat) (job : TenderJob) (s : State) : Out :=
  tenderIssue s at_ iss unit { job with kind := .zero }

/-- TENDER_PREFETCH. -/
def execTenderPrefetch (at_ : At) (iss : Issue) (unit : Nat) (job : TenderJob) (s : State) : Out :=
  tenderIssue s at_ iss unit { job with kind := .prefetch }

end Sys2Proof.Machine
end

