-- ==== Sys2Proof/Machine/Queue.lean ====
section
/-! DEFINITION. Hardware queues: fetch, start and completion of submission entries (13: R432 to R439), and the checks of a launch
(6: R180 to R183). -/

namespace Sys2Proof.Machine

/-! Queue registers. -/

def qState (s : State) (q : Nat) : Nat := s.get F.qStatus_STATE q
def qCtx (s : State) (q : Nat) : Nat := s.get F.qStatus_CONTEXT q
def sqSize (s : State) (q : Nat) : Nat := 2 ^ s.get F.qStatus_SQ_LOG2 q
def cqSize (s : State) (q : Nat) : Nat := 2 ^ s.get F.qStatus_CQ_LOG2 q

/-- No completion entry can be written: CQ_TAIL + 1 equals CQ_HEAD (R439). -/
def qFull (s : State) (q : Nat) : Bool := (s.get F.qStatus_CQ_TAIL q + 1) % cqSize s q == s.get F.qCqHead_CQ_HEAD q

/-- RUNNING or STALLED, as the completion ring has room (R439). -/
def showStall (s : State) (q : Nat) : State :=
  if qState s q = 1 ∨ qState s q = 3 then s.put F.qStatus_STATE (if qFull s q then 3 else 1) q else s

/-! Submission entries (Table 13.15). -/

/-- `n` bytes of an entry at an offset. -/
def QEntry.at_ (e : QEntry) (off n : Nat) : Nat := leAt e.sqe off n

def QEntry.op (e : QEntry) : Nat := e.at_ 0 1
def QEntry.flag (e : QEntry) (k : Nat) : Bool := (e.at_ 1 1).testBit k
def QEntry.obj (e : QEntry) : Nat := e.at_ 0x08 8
def QEntry.arg (e : QEntry) : Nat := e.at_ 0x10 8
def QEntry.unit (e : QEntry) : Nat := e.at_ 0x22 2
def QEntry.done (e : QEntry) : Nat := e.at_ 0x24 2 % 16384
def QEntry.inc (e : QEntry) : Nat := e.at_ 0x28 4
def QEntry.startN (e : QEntry) : Nat := e.at_ 0x2C 2 % 16384

/-- Reasons 0x01 and 0x02 of Table 13.16, which need the entry alone. -/
def QEntry.refused (e : QEntry) : Option Nat :=
  if 6 < e.op ∨ 64 ≤ e.at_ 1 1 ∨ e.at_ 3 1 ≠ 0 ∨ e.at_ 0x26 2 ≠ 0 ∨ e.at_ 0x2E 2 ≠ 0 ∨ 16384 ≤ e.at_ 0x24 2 ∨ 16384 ≤ e.at_ 0x2C 2 then some 1
  else if 64 < e.at_ 2 1 ∨ e.at_ 0x38 8 % 64 ≠ 0 then some 2
  else none

/-! Completion. -/

/-- The 16 bytes of a completion entry (Table 13.17). -/
def cqeBytes (s : State) (q : Nat) (e : QEntry) (st rs : Nat) : List Byte :=
  leBytes 4 (e.at_ 4 4) ++ leBytes 2 (s.get F.qStatus_SQ_HEAD q) ++ leBytes 2 q ++ leBytes 1 st
    ++ leBytes 1 (if st = 1 ∨ st = 3 then rs else 0) ++ leBytes 2 (s.get F.qStatus_PHASE q)
    ++ leBytes 4 (s.tideNow / 1024)

/-- A completion entry written; CQ_TAIL advances, PHASE inverts on the wrap (R438). -/
def writeCqe (s : State) (q : Nat) (e : QEntry) (st rs : Nat) : State :=
  let t := s.get F.qStatus_CQ_TAIL q
  let s := hostWrite s ((qRec s q).cqBase + 16 * t) (cqeBytes s q e st rs)
  let t' := (t + 1) % cqSize s q
  let s := s.put F.qStatus_CQ_TAIL t' q
  showStall (if t' = 0 then s.put F.qStatus_PHASE (1 - s.get F.qStatus_PHASE q) q else s) q

/-- Finished entries leave in ring order (R437 steps 2 to 4, R439): the completion entry unless NO_CQE and OK, the queue's event,
the references. -/
def qDrainN : Nat → State → Nat → State
  | 0, s, _ => s
  | n + 1, s, q =>
    match (qRec s q).entries with
    | [] => s
    | e :: es =>
      match e.fin with
      | none => s
      | some (st, rs) =>
        let quiet := e.flag 1 && st == 0
        if !e.bolDone || (!quiet && (qFull s q || !s.upstream || !s.ready)) then s
        else
          let s := setQ s q { qRec s q with entries := es }
          let s := if quiet then s else writeCqe s q e st rs
          let s := signalIf s ((qRec s q).evEn && e.flag 4) (qRec s q).event
          qDrainN n (dropHolds s e.holds) q

def qDrain (s : State) (q : Nat) : State := qDrainN (qRec s q).entries.length s q

/-- An entry's DONE_BOLLARD is behind it: it may leave the ring (R437). -/
def bolBehind (s : State) (q idx : Nat) : State := qDrain (updEntry s q idx (fun x => { x with bolDone := true })) q

/-- An entry whose outcome is decided completes (R437): DONE_BOLLARD first, once; where others wait at the bollard store, behind those
(R233). -/
def qComplete (s : State) (q : Nat) (e : QEntry) : State :=
  match e.fin with
  | none => s
  | some (st, _) =>
    if e.bolDone then qDrain s q
    else if s.run.bolQ.any (fun a => a.fin == .entry q e.idx) then s
    else if st = 0 && e.flag 3 then
      if s.run.bolQ.isEmpty then bolBehind (bolApply s e.done e.inc) q e.idx else bolSend s e.done e.inc (.entry q e.idx)
    else bolBehind s q e.idx

/-- SQ_ENTRY_COMPLETE. -/
def execSqEntryComplete (q idx : Nat) (s : State) : Out :=
  if q < 16384 ∧ idx < 65536 then
    match qEntry s q idx with
    | none => ok s
    | some e => ok (qComplete s q e)
  else .fault .noSuchUnit

/-! The rings. -/

/-- A doorbell (R433); while the queue is CANCELLING it takes effect at the end (R441). -/
def qDoorbell (s : State) (q v : Nat) : State :=
  if v % 65536 < sqSize s q then
    let s := s.put F.qDoorbell_SQ_TAIL v q
    if qState s q = 2 then s else setQ s q { qRec s q with tail := v % 65536 }
  else s

/-- Q_DOORBELL_WRITE. -/
def execQDoorbellWrite (q val : Nat) (s : State) : Out := if q < 16384 then bar0 s (qDoorbell s q val) else .fault .noSuchUnit

/-- The host has consumed completion entries (R439, Table 13.19). -/
def qCqHead (s : State) (q v : Nat) : State :=
  if v % 65536 < cqSize s q then qDrain (showStall (s.put F.qCqHead_CQ_HEAD v q) q) q else s

/-- Q_CQ_HEAD_WRITE. -/
def execQCqHeadWrite (q val : Nat) (s : State) : Out := if q < 16384 then bar0 s (qCqHead s q val) else .fault .noSuchUnit

/-! Fetch. -/

/-- Whether a context's queues fetch entries (R428, R430 step 1). -/
def ctxFetches (s : State) (c : Nat) : Bool := s.ctxState c == 1 || s.ctxState c == 2

/-- Whether the queue fetches its next entry now (R428, R433, R436, R439, R441, R449). -/
def mayFetch (s : State) (q : Nat) : Bool :=
  let r := qRec s q
  let h := s.get F.qStatus_SQ_HEAD q
  let more := if qState s q = 2 then r.cancelTail.any (fun t => t != h) else qState s q == 1 && r.tail != h
  s.ready && s.upstream && decide (r.entries.length < 8) && !qFull s q && ctxFetches s (qCtx s q) && more

/-- Whether a memory object is READY. -/
def moReady (s : State) (i : Nat) : Bool := s.isSet F.hostMoTable_ENABLE && decide (i < 1048576) && (moRec s i).st == 2

/-- References of a hold list, in list order (R423). -/
def takeHolds (s : State) (holds : List Nat) : State :=
  holds.foldl (fun s i => setMo s i { moRec s i with refs := (moRec s i).refs + 1 }) s

/-- An entry fetched (R423, R433, R435, R441); a start condition met by then is satisfied for good (R232). -/
def qFetch (s : State) (q : Nat) (sqe : List Byte) (holds : List Nat) : State :=
  let h := s.get F.qStatus_SQ_HEAD q
  let e : QEntry := ⟨h, sqe, [], false, none, false, none, none⟩
  let e := { e with start := if e.flag 2 then startNow s (some (e.startN, e.at_ 0x30 8)) else none }
  let s := s.put F.qStatus_SQ_HEAD ((h + 1) % sqSize s q) q
  let put (s : State) (e : QEntry) : State := setQ s q { qRec s q with entries := (qRec s q).entries ++ [e] }
  if qState s q = 2 then put s { e with fin := some (2, 0) }
  else
    match e.refused with
    | some r => put s { e with fin := some (3, r) }
    | none =>
      if holds.all (moReady s) then put (takeHolds s holds) { e with holds := holds } else put s { e with fin := some (3, 3) }

/-- Whether an entry comes with as many held objects as it names, where it is not refused for its form. -/
def holdsOk (entry : List Byte) (holds : List Nat) : Bool :=
  let e : QEntry := ⟨0, entry, [], false, none, false, none, none⟩
  e.refused.isSome || holds.length == e.at_ 2 1

/-- SQ_ENTRY_FETCH: the 64 bytes read from the ring, and the object numbers read from the hold list (logs 3, 8). -/
def execSqEntryFetch (q : Nat) (entry : List Byte) (holds : List Nat) (s : State) : Out :=
  if q < 16384 ∧ entry.length = 64 ∧ holdsOk entry holds then
    if mayFetch s q then ok (qFetch s q entry holds) else ok s
  else .fault .noSuchUnit

/-! Starts. -/

/-- The entry that may start next (R436, R429): the first that has neither started nor completed, of its opcode. -/
def nextEntry (s : State) (q op : Nat) : Option QEntry :=
  match (qRec s q).entries.find? (fun e => !e.started && e.fin.isNone) with
  | none => none
  | some e =>
    if e.op = op && e.parked.isNone && (qState s q == 1 || qState s q == 3) && s.ctxRuns (qCtx s q) && s.ready then some e else none

/-- A bollard an entry names that its context does not own (R231). -/
def badEntryBollard (s : State) (c : Nat) (e : QEntry) : Option Nat :=
  ((if e.flag 3 || e.op == 4 then [e.done] else []) ++ (if e.flag 2 then [e.startN] else [])).find? (fun n => !bolOwned s n c)

/-- The start of the next entry: its bollards checked, its start condition met (R226, R231); then `k`. -/
def startEntry (s : State) (q op : Nat) (k : QEntry → State → State) : Out :=
  if q < 16384 then
    match nextEntry s q op with
    | none => ok s
    | some e =>
      match badEntryBollard s (qCtx s q) e with
      | some n => ok (halt s (qCtx s q) 0x66 n none (some (q, e.idx)))
      | none => if e.start.isSome then ok s else ok (k e s)
  else .fault .noSuchUnit

def markStarted (s : State) (q idx : Nat) : State := updEntry s q idx (fun e => { e with started := true })

/-- SQE_NOP. -/
def execSqeNop (q : Nat) (s : State) : Out := startEntry s q 0 (fun e s => qFinish (markStarted s q e.idx) q e.idx 0 0)

/-- SQE_BOLLARD_ADVANCE (R436, R229, R233): it ends once the advance is applied. -/
def execSqeBollardAdvance (q : Nat) (s : State) : Out :=
  startEntry s q 4 (fun e s =>
    let s := markStarted s q e.idx
    if s.run.bolQ.isEmpty then qFinish (bolApply s e.done e.inc) q e.idx 0 0 else bolSend s e.done e.inc (.finish q e.idx))

/-- SQE_BARRIER (R436): every earlier entry has completed. -/
def execSqeBarrier (q : Nat) (s : State) : Out :=
  startEntry s q 5 (fun e s =>
    if ((qRec s q).entries.takeWhile (fun x => x.idx != e.idx)).all (fun x => x.bolDone) then
      qFinish (markStarted s q e.idx) q e.idx 0 0
    else s)

/-- SQE_SIGNAL (R436). -/
def execSqeSignal (q : Nat) (s : State) : Out :=
  startEntry s q 6 (fun e s => qFinish (signal (markStarted s q e.idx) (e.arg % 65536)) q e.idx 0 0)

/-! The checks of a launch. -/

/-- A section table entry (Table 6.2). -/
structure Section where
  kind : Nat
  off : Nat
  size : Nat
  deriving DecidableEq, Repr

/-- Entry `i` of a section table. DESIGN CHOICE (log 57): its reserved bytes are ignored, as check 7 names no test of them (R181). -/
def sectionAt (bs : List Byte) (i : Nat) : Section :=
  let o := 0x40 + 16 * i
  ⟨leAt bs o 2, leAt bs (o + 4) 4, leAt bs (o + 8) 4⟩

/-- Whether section `i` breaks R181 against the sections before it. -/
def sectionBad (total : Nat) (ss : List Section) (i : Nat) (x : Section) : Bool :=
  let before := ss.take i
  !([1, 2, 3, 4, 0xFF].contains x.kind) || x.off % 128 != 0 || decide (total < x.off + x.size)
    || (x.kind != 0xFF && before.any (fun y => y.kind == x.kind))
    || before.any (fun y => x.size != 0 && y.size != 0 && decide (x.off < y.off + y.size) && decide (y.off < x.off + x.size))

/-- INFO of reason 0x07 where the section is absent and has no index (log 12). -/
def noSection : Nat := (Config.word 9 0).toNat

/-- Check 7 for one range of the entry: its INFO where it fails. DESIGN CHOICE (log 57): a CODE_OFFSET that is no multiple of 128,
which no row of Table 6.4 names, fails it with the CODE section's index. -/
def rangeBad (ss : List Section) (kind off size : Nat) (always aligned : Bool) : Option Nat :=
  if !always && size == 0 then none
  else
    match ss.findIdx? (fun x => x.kind == kind) with
    | none => some noSection
    | some i => if (aligned && off % 128 != 0) || decide ((ss[i]?.map (fun x => x.size)).getD 0 < off + size) then some i else none

/-- The first entry field beyond Table 5.1, by its byte offset (check 8); `e` is the entry's 64 bytes. -/
def entryBad (e : List Byte) : Option Nat :=
  let ways := leAt e 0x0A 1
  if leAt e 0x08 2 < 1 ∨ 1024 < leAt e 0x08 2 then some 0x08
  else if 16 < ways then some 0x0A
  else if 16 < leAt e 0x0B 1 then some 0x0B
  else if granulesOf ways < leAt e 0x0C 2 then some 0x0C
  else if 16 ≤ leAt e 0x0E 2 then some 0x0E
  else if (e.drop 0x28).any (fun b => b != 0) then some 0x28
  else none

/-- The grid's first fault (Table 6.15): only the product can exceed its limit in the entry's fields. -/
def gridBad (x y z : Nat) : Option Nat := if 2 ^ 40 < x * y * z then some 0x43 else none

def entryDecl (e : List Byte) : EntryDecl where
  codeOffset := leAt e 0x00 4
  codeSize := leAt e 0x04 4
  threads := leAt e 0x08 2
  cacheWays := leAt e 0x0A 1
  barriers := leAt e 0x0B 1
  granules := leAt e 0x0C 2
  dynamic := (leAt e 0x0E 1).testBit 0
  cooperative := (leAt e 0x0E 1).testBit 1
  replayable := (leAt e 0x0E 1).testBit 2
  routines := (leAt e 0x0E 1).testBit 3

/-- Bytes of the code object from its start, under execute permission (R183 check 2, R274); a poisoned sector's address is INFO. -/
def codeBytes (c obj n : Nat) (s : State) : Res (List Byte) := bytesUnder .exec c obj n s

/-- Check 3 of Table 6.4. -/
def headerBad (h : List Byte) : Bool :=
  leAt h 0 4 != 0x58504C47 || leAt h 4 2 != 1 || leAt h 6 2 != 0x40 || leAt h 0x0B 1 != 0 || (h.drop 0x18).any (fun b => b != 0)
    || !(decide (1 ≤ leAt h 0x0C 2) && decide (leAt h 0x0C 2 ≤ 16)) || !(decide (1 ≤ leAt h 0x0E 2) && decide (leAt h 0x0E 2 ≤ 256))
    || !(decide (4096 ≤ leAt h 0x10 4) && decide (leAt h 0x10 4 ≤ 268435456))

/-- The launch that a queue entry and a code object's tables make (R145). -/
def launchOf (s : State) (c q : Nat) (e : QEntry) (ss : List Section) (ent : List Byte) : Launch where
  id := s.obj.nextId
  ctx := c
  queue := q
  qidx := e.idx
  code := e.obj
  codeOff := ((ss.find? (fun x => x.kind == 1)).map (fun x => x.off)).getD 0
  routineOff := ((ss.find? (fun x => x.kind == 4)).map (fun x => x.off)).getD 0
  routineSize := ((ss.find? (fun x => x.kind == 4)).map (fun x => x.size)).getD 0
  entry := e.at_ 0x20 2
  decl := entryDecl ent
  arg := e.arg
  gx := e.at_ 0x18 4
  gy := e.at_ 0x1C 2
  gz := e.at_ 0x1E 2
  wait := e.flag 0
  prev := (((s.run.launches.filter (fun l => l.queue == q)).map (fun l => l.id)).getLast?).getD 0
  cores := grantCores s c
  next := []
  again := []
  ended := 0
  cancelled := false

/-- Checks 7 to 10 of Table 6.4. -/
def launchFit (c q : Nat) (e : QEntry) (ss : List Section) (ent : List Byte) (total : Nat) (s : State) : Res Launch :=
  let l := launchOf s c q e ss ent
  match ss.zipIdx.find? (fun xi => sectionBad total ss xi.2 xi.1) with
  | some xi => .halt 0x07 xi.2 s
  | none =>
    match (rangeBad ss 1 (leAt ent 0 4) (leAt ent 4 4) true true).or
        ((rangeBad ss 2 (leAt ent 0x10 4) (leAt ent 0x14 4) false false).or (rangeBad ss 3 (leAt ent 0x18 4) (leAt ent 0x1C 4) false false)) with
    | some i => .halt 0x07 i s
    | none =>
      match (gridBad l.gx l.gy l.gz).or (entryBad ent) with
      | some i => .halt 0x0A i s
      | none =>
        if l.cores.isEmpty then .halt 0x0C noInfo s
        else if l.decl.cooperative && !coopFits s l true then .halt 0x0B l.total s
        else .ok l s

/-- The checks of Table 6.4 (R183). -/
def launchChecks (c q : Nat) (e : QEntry) (s : State) : Res Launch :=
  let obj := e.obj
  if obj % 4096 ≠ 0 then .halt 0x41 obj s
  else
    (codeBytes c obj 64 s).then (fun h s =>
    let total := leAt h 0x10 4
    (if total < 64 then Res.ok () s else devCheck .exec c obj total s).then (fun _ s =>
    if headerBad h then .halt 0x01 obj s
    else if leAt h 8 2 ≠ s.get F.idDevice_PART ∨ s.get F.idDevice_STEPPING < leAt h 0x0A 1 then .halt 0x02 (leAt h 8 2 + leAt h 0x0A 1 * 65536) s
    else
      let n := 64 + 16 * leAt h 0x0C 2 + 64 * leAt h 0x0E 2
      (codeBytes c obj n s).then (fun t s =>
      let crc := (crc32 (t.take 0x14 ++ List.replicate 4 0 ++ t.drop 0x18)).toNat
      if crc ≠ leAt h 0x14 4 then .halt 0x03 crc s
      else if leAt h 0x0E 2 ≤ e.at_ 0x20 2 then .halt 0x04 (e.at_ 0x20 2) s
      else
        let ss := tabulate (leAt h 0x0C 2) (sectionAt t)
        let ent := (t.drop (64 + 16 * leAt h 0x0C 2 + 64 * e.at_ 0x20 2)).take 64
        launchFit c q e ss ent total s)))

/-- What a check of a queue entry leaves of it: carried on, waiting for a segment at the head of its queue, or a halt. -/
def entryRes {α : Type} (q : Nat) (e : QEntry) (r : Res α) (k : α → State → State) : State :=
  match r with
  | .ok v s => k v s
  | .absent n a s => updEntry (segFault s (qCtx s q) n a hmUnit (.entry q e.idx)) q e.idx (fun x => { x with parked := some n })
  | .halt r i s => halt s (qCtx s q) r i none (some (q, e.idx))

/-- A launch taken: it may place blocks from now on, and ends at once where it has none (R140). -/
def takeLaunch (s : State) (q : Nat) (e : QEntry) (l : Launch) : State :=
  let s := markStarted s q e.idx
  let s := { s with obj := { s.obj with nextId := s.obj.nextId + 1 }, run := { s.run with launches := s.run.launches ++ [l] } }
  launchCheck s l.id

/-- SQE_LAUNCH (R149, R183). -/
def execSqeLaunch (q : Nat) (s : State) : Out :=
  startEntry s q 1 (fun e s => entryRes q e (launchChecks (qCtx s q) q e s) (fun l s => takeLaunch s q e l))

/-! Jobs from a queue. -/

/-- A queue entry's job handed to its unit. -/
def queueJob (s : State) (q : Nat) (e : QEntry) (unit : Nat) (job : Job) : State :=
  let j : EngJob := { id := s.obj.nextId, unit := unit, ctx := qCtx s q, origin := .queue q e.idx, job := job, acc := false,
                      token := 64, bollard := none, start := none, started := false, stopping := false, cursor := 0,
                      census := [], parked := none, got := [], since := s.ns }
  jobArrive (markStarted { s with obj := { s.obj with nextId := s.obj.nextId + 1 } } q e.idx) j

/-- The descriptor that OBJ names is read through the context's segments; its image is the toolchain's (log 3). -/
def descriptorAt (s : State) (q : Nat) (e : QEntry) : Res Place := placeOf (qCtx s q) e.obj 1 .read [0] s

/-- SQE_SEGMUL (R109, R123, R194): the job joins the Harbourmaster's queue while it has room. -/
def execSqeSegmul (q : Nat) (job : SegJob) (s : State) : Out :=
  startEntry s q 2 (fun e s => entryRes q e (descriptorAt s q e) (fun _ s =>
    if queueUsed s hmUnit < queueSize hmUnit then queueJob s q e hmUnit (.segmul job) else s))

/-- The kind of unit a job needs, and the cores its job names. -/
def jobKind (j : Job) : Option (Nat × Nat) :=
  match j with
  | .tender _ => some (8, 32)
  | .update _ => some (9, 8)
  | .dispatch _ => some (10, 8)
  | .combine _ => some (10, 8)
  | _ => none

def jobCores (j : Job) : List Nat :=
  match j with
  | .tender t => [t.src, t.dst].filterMap (fun p => match p with | .scratch c _ => some c | .ctx _ => none)
  | _ => []

/-- Whether UNIT is of the kind the job needs and on the tile the job names (Table 13.16, 0x04). -/
def unitFits (unit : Nat) (j : Job) : Bool :=
  match jobKind j with
  | none => false
  | some (k, n) => unit / 4096 == k && decide (unit % 4096 < n) && (jobCores j).all (fun c => tileOfCore c == tileOfUnit unit)

/-- SQE_ENGINE (R194, R226, R435, R488). -/
def execSqeEngine (q : Nat) (job : Job) (s : State) : Out :=
  startEntry s q 3 (fun e s => entryRes q e (descriptorAt s q e) (fun _ s =>
    if !unitFits e.unit job then qFinish s q e.idx 3 4
    else if !unitUp s e.unit then halt s (qCtx s q) 0x64 e.unit none (some (q, e.idx))
    else if !engPowered s e.unit || decide (queueSize e.unit ≤ queueUsed s e.unit) then s
    else queueJob s q e e.unit job))

end Sys2Proof.Machine
end

