-- ==== Sys2Proof/Machine/RegAccess.lean ====
section
/-! DEFINITION. What a host write does to the fields of a register word, by access type (R9, R13, R14). -/

namespace Sys2Proof.Machine

/-- Whether a field takes a value: reserved encodings leave it as it was (R14). `lo` is the field's low bit. -/
def encodingOk (r : RegId) (lo v : Nat) : Bool :=
  match r, lo with
  | .dram1500Ctrl, 16 => decide (1 ≤ v) && decide (v ≤ 256)
  | .dramRegCfg, 0 => decide (1 ≤ v) && decide (v ≤ 256)
  | .segAttr, 2 => v != 3
  | .keySlot, 16 => v != 0
  | .fabRegion, 194 => v != 3
  | .sumpRing, 1 => decide (v ≤ 10)
  | .pwrCap, 0 => decide (600 ≤ v) && decide (v ≤ 2400)
  | .ftCmd, 16 => decide (v ≤ 4)
  | _, _ => true

/-- One field of a word under a write of `val` to word `w`. -/
def writeField (r : RegId) (w val cur : Nat) (f : RegField) : Nat :=
  if f.lo / 64 != w then cur
  else
    let v := bitsOf val (f.hi % 64) (f.lo % 64)
    match f.acc with
    | .rw => if encodingOk r f.lo v then withBits cur (f.hi % 64) (f.lo % 64) v else cur
    | .w1c => withBits cur (f.hi % 64) (f.lo % 64) (bitsOf cur (f.hi % 64) (f.lo % 64) &&& (2 ^ (f.hi - f.lo + 1) - 1 - v))
    | _ => cur

/-- A host write of a whole word of register instance (i, j). -/
def storeWord (s : State) (r : RegId) (i j w val : Nat) : State :=
  s.setWord r i j w (r.desc.fields.foldl (writeField r w val) (s.word r i j w))

/-- A write to a register of a unit in an OFF domain: stored, but for RUN, which follows its checks, and kept to take effect as the
domain returns to ON (R30; DEDUCED, log 59). -/
def deferWrite (s : State) (r : RegId) (i v : Nat) : State :=
  let old := s.word r i 0 0
  let mine (x : LateWrite) : Bool := x.reg == r && x.i == i
  let l := s.pwr.late
  let l := if l.any mine then updWhere l mine (fun x => { x with vals := x.vals ++ [v] }) else l ++ [⟨r, i, old, [v]⟩]
  storeWord { s with pwr := { s.pwr with late := l } } r i 0 0 (if r = .ferryCtrl then withBits v 13 13 (bitsOf old 13 13) else v)

end Sys2Proof.Machine
end

