-- ==== Sys2Proof/Machine/Bollard.lean ====
section
/-! DEFINITION. Bollards: a thread's advance, wait and read, the store's queue, host writes (7: R228 to R234). -/

namespace Sys2Proof.Machine

/-- BOLLARD_ADVANCE (R228, R229, R231, R185): a release at its scope, DEVICE or SYSTEM; the advance joins the store's queue. -/
def execBollardAdvance (at_ : At) (n inc : Nat) (scope : Scope) (s : State) : Out :=
  if scope.wide then
    instr s at_ ⟨[], 2⟩ (fun t s =>
      if t.l.decl.replayable then haltTh s t 0x48 (opClass 7)
      else if !bolOwned s n t.c then haltTh s t 0x66 n
      else if peerPending s t.b then notIssued s t
      else
        let s := releaseWide s t.core
        goTo { s with run := { s.run with bolQ := s.run.bolQ ++ [⟨n, inc, .none⟩] } } t at_.next)
  else .fault .noSuchUnit

/-- The advances the store applies in one cycle, and those that stay: at most one per bollard and 8 in all, in arrival order (R233). -/
def bolTake : List Advance → List Advance → List Advance → List Advance × List Advance
  | [], now, later => (now, later)
  | a :: as, now, later =>
    if now.length < 8 && !now.any (fun x => x.n == a.n) then bolTake as (now ++ [a]) later else bolTake as now (later ++ [a])

/-- An advance applied, and what follows it: the operation's token, its entry's completion, or the end of a BOLLARD_ADVANCE entry (R225,
R233, R437). -/
def bolStep (s : State) (a : Advance) : State :=
  let s := bolApply s a.n a.inc
  match a.fin with
  | .none => s
  | .token id e => tokenDone s id e
  | .entry q idx => bolBehind s q idx
  | .finish q idx => qFinish s q idx 0 0

/-- BOLLARD_ADVANCE_APPLY (R233). -/
def execBollardAdvanceApply (s : State) : Out :=
  let r := bolTake s.run.bolQ [] []
  ok (r.1.foldl bolStep { s with run := { s.run with bolQ := r.2 } })

/-- BOLLARD_WAIT (R230): value to `dst` and `dst` + 1, TIMED_OUT to `dst` + 2 (log 3). -/
def execBollardWait (at_ : At) (n target dst : Nat) (timed : Bool) (s : State) : Out :=
  instr s at_ ⟨[dst, dst + 1, dst + 2], 1⟩ (fun t s =>
    if !bolOwned s n t.c then haltTh s t 0x66 n
    else if target ≤ bolValue s n then
      let v := bolValue s n
      let s := regWrite64 s t.core t.slot dst t.f.mask (fun _ => v)
      goTo (acquireWide (regWrite s t.core t.slot (dst + 2) t.f.mask (fun _ => 0)) t.core) t at_.next
    else waitAt s t at_.next (.bollard n target dst timed) true)

/-- BOLLARD_WAIT_TIMEOUT (R230): the wait of the lane's fragment ends with its value and TIMED_OUT. -/
def execBollardWaitTimeout (core slot lane : Nat) (s : State) : Out :=
  if core < 240 ∧ slot < 128 ∧ lane < 32 then
    match (slotRec s core slot).bind (fun r => fragOf r lane) with
    | none => ok s
    | some f =>
      match f.wait with
      | .bollard n _ _ true => ok (bolWaitEnd s core slot f (bolValue s n) true)
      | _ => ok s
  else .fault .noSuchUnit

/-- BOLLARD_READ (R230, R231): relaxed, or an acquire. -/
def execBollardRead (at_ : At) (n dst : Nat) (acq : Bool) (s : State) : Out :=
  instr s at_ ⟨[dst, dst + 1], 1⟩ (fun t s =>
    if !bolOwned s n t.c then haltTh s t 0x66 n
    else
      let v := bolValue s n
      let s := regWrite64 s t.core t.slot dst t.f.mask (fun _ => v)
      goTo (if acq then acquireWide s t.core else s) t at_.next)

/-- A host write to BOL_VALUE_n (R232), and what follows. -/
def bolWrite (s : State) (n val : Nat) : State := bolChanged (s.put F.bolValue_VALUE val n) n

/-- BOL_VALUE_WRITE. -/
def execBolValueWrite (n val : Nat) (s : State) : Out :=
  if n < 16384 then bar0 s (bolWrite (wideWrite s .bolValue n) n val) else .fault .noSuchUnit

/-- A host write to BOL_CTRL_n or BOL_NOTIFY_n: the condition of R234 is evaluated. -/
def bolNotifyStore (s : State) (n : Nat) (isCtrl : Bool) (val : Nat) : State :=
  bolNotify (if isCtrl then storeWord s .bolCtrl n 0 0 val else storeWord s .bolNotify n 0 0 val) n

/-- BOL_NOTIFY_WRITE. -/
def execBolNotifyWrite (n : Nat) (isCtrl : Bool) (val : Nat) (s : State) : Out :=
  if n < 16384 then bar0 s (bolNotifyStore (wideWrite s (if isCtrl then .bolCtrl else .bolNotify) n) n isCtrl val) else .fault .noSuchUnit

end Sys2Proof.Machine
end

