-- ==== Sys2Proof/Machine/Spares.lean ====
section
/-! DEFINITION. The spare-assignment map, spare pools and what ID_* and FT_SPARES show of them (1: R22, R24, R31; 16: R513, R514,
R526), and engines in service (Table 10.8). -/

namespace Sys2Proof.Machine

/-- Physical cores and slices of the default map (R24). -/
def defaultCore (c : Nat) : Nat := 16 * (c / 15) + c % 15
def defaultSlice (n : Nat) : Nat := 68 * (n / 64) + n % 64

/-- The physical core that the map gives a logical core; none vacant. -/
def corePos (s : State) (c : Nat) : Option Nat := smapGet s.bank.coreMap (some (defaultCore c)) c

/-- The physical slice that the map gives a logical slice. -/
def slicePos (s : State) (n : Nat) : Option Nat := smapGet s.bank.sliceMap (some (defaultSlice n)) n

def setCorePos (s : State) (c : Nat) (p : Option Nat) : State :=
  bankChange { s with bank := { s.bank with coreMap := smapSet s.bank.coreMap (some (defaultCore c)) c p } }

def setSlicePos (s : State) (n : Nat) (p : Option Nat) : State :=
  bankChange { s with bank := { s.bank with sliceMap := smapSet s.bank.sliceMap (some (defaultSlice n)) n p } }

/-- The positions that physical core `p` and slice `p` fill. -/
def placedCore (s : State) (p : Nat) : Option Nat := (coresOf (p / 16)).find? (fun c => corePos s c == some p)
def placedSlice (s : State) (p : Nat) : Option Nat := (slicesOf (p / 68)).find? (fun n => slicePos s n == some p)

/-- A unit's state under test: 0 unmarked, 2 DRAINING, 3 TESTING, 4 FAILED, 5 BYPASSED (Table 16.8). -/
def unitMark (s : State) (u : Nat) : Nat := smapGet s.flt.unit 0 u

def setMark (s : State) (u m : Nat) : State := { s with flt := { s.flt with unit := smapSet s.flt.unit 0 u m } }

/-- Whether a swap that waits for its core to drain has taken core `p` as its spare (R514). -/
def coreReserved (s : State) (p : Nat) : Bool :=
  s.flt.swaps.any (fun x => x.unit / 4096 == 1 && x.spare == some p && unitMark s x.unit == 2)

/-- Free, tested spare cores of a gallery and slices of a tile, the lowest first (log 21). -/
def freeCores (s : State) (g : Nat) : List Nat :=
  (tabulate 16 (fun k => 16 * g + k)).filter
    (fun p => (placedCore s p).isNone && unitMark s (unitId 1 p) == 0 && !s.flt.untested.contains (unitId 1 p) && !coreReserved s p)

def freeSlices (s : State) (t : Nat) : List Nat :=
  (tabulate 68 (fun k => 68 * t + k)).filter
    (fun p => (placedSlice s p).isNone && unitMark s (unitId 3 p) == 0 && !s.flt.untested.contains (unitId 3 p))

/-- FT_SPARES CORE and SLICE (Table 16.6). -/
def showCoreSpare (s : State) (g : Nat) : State :=
  if (freeCores s g).isEmpty then s.clrBit F.ftSpares_CORE g else s.orBit F.ftSpares_CORE g

def showSliceSpare (s : State) (t : Nat) : State :=
  s.put F.ftSpares_SLICE (withBits (s.get F.ftSpares_SLICE) (3 * t + 2) (3 * t) (min 4 (freeSlices s t).length))

/-- A domain not in service at this start: mapped out, or latched so far (R468). -/
def downAtStart (s : State) (d : Nat) : Bool :=
  s.boot.offAt.contains d || (decide (s.get F.lkBootStatus_STAGE < 6) && s.domState d == 3)

/-- ID_CORE_MAP_n of a position (Table 1.8). -/
def showCorePos (s : State) (c : Nat) : State :=
  match corePos s c with
  | none => s.put F.idCoreMap_VALID 0 c
  | some p =>
    (s.put F.idCoreMap_PHYS_CORE p c).put F.idCoreMap_VALID (if downAtStart s (domOfGallery (galleryOfCore c)) then 0 else 1) c

/-- ID_SLICE_MAP_n of a position (Table 1.9), and the slice ACTIVE or VACANT. -/
def showSlicePos (s : State) (n : Nat) : State :=
  match slicePos s n with
  | none => (s.put F.idSliceMap_VALID 0 n).put F.cavSliceStatus_STATE 3 n
  | some p =>
    let down := downAtStart s (domOfCavern (n / 64))
    let s := (s.put F.idSliceMap_PHYS_SLICE p n).put F.idSliceMap_VALID (if down then 0 else 1) n
    s.put F.cavSliceStatus_STATE (if down then 3 else 0) n

/-- CORE_ARRAY_DPU_MAP_n (Table 3.7) from the map: 1 + the physical DPU out of service, 64 more when exhausted. -/
def showDpu (s : State) (n : Nat) : State :=
  let v := smapGet s.bank.dpuMap 0 n
  let f := v % 64
  let s := s.put F.coreArrayDpuMap_SPARE_FILLS (if f = 0 ∨ f = 33 then 0x3F else f - 1) n
  (s.put F.coreArrayDpuMap_FAILED_PHYS (if f = 0 then 0x3F else f - 1) n).put F.coreArrayDpuMap_EXHAUSTED (v / 64) n

def activeCores (s : State) : Nat := ((List.range 240).filter (fun c => s.isSet F.idCoreMap_VALID c)).length
def activeSlices (s : State) : Nat := ((List.range 256).filter (fun n => s.isSet F.idSliceMap_VALID n)).length

/-- Channels in the bank's mapped-out set (Table 14.8). -/
def bankOut (s : State) : List Nat := (s.bank.out.filter (fun u => u / 4096 == 4)).map (fun u => u % 4096)

/-- ID_DEVICE: cores, slices, DEGRADED (R21, Table 1.7). -/
def showCounts (s : State) : State :=
  let s := (s.put F.idDevice_CORES_ACTIVE (activeCores s)).put F.idDevice_SLICES_ACTIVE (activeSlices s)
  let out := (List.range 240).any (fun c => (corePos s c).isNone) || (List.range 256).any (fun n => (slicePos s n).isNone)
    || !s.boot.offAt.isEmpty || !(bankOut s).isEmpty || s.isSet F.lkBootStatus_DEGRADED
  s.put F.idDevice_DEGRADED (if out then 1 else 0)

/-- The whole map shown, as it is loaded at start (R465, R32, R107). -/
def showMap (s : State) : State :=
  let s := (List.range 240).foldl showCorePos s
  let s := (List.range 256).foldl showSlicePos s
  let s := (List.range 1024).foldl showDpu s
  let s := (List.range 16).foldl showCoreSpare s
  showCounts ((List.range 4).foldl showSliceSpare s)

/-! Engines of a tile. -/

/-- Unit IDs of a tile's ferries, tenders, update and dispatch engines (Table 1.5). -/
def unitsOfTile (t : Nat) : List Nat :=
  tabulate 8 (fun k => unitId 7 (8 * t + k)) ++ tabulate 8 (fun k => unitId 8 (8 * t + k))
    ++ tabulate 2 (fun k => unitId 9 (2 * t + k)) ++ tabulate 2 (fun k => unitId 0xA (2 * t + k))

/-- ENG_STATUS IN_SERVICE of a unit. -/
def showService (s : State) (u : Nat) : State :=
  if u / 4096 = 8 ∨ u / 4096 = 9 ∨ u / 4096 = 10 then s.put F.engStatus_IN_SERVICE (if unitUp s u then 1 else 0) (engIndex u) else s

def showEngines (s : State) : State := ((List.range 4).flatMap unitsOfTile).foldl showService s

/-- A unit leaves service. -/
def engineOut (s : State) (u : Nat) : State :=
  showService { s with eng := { s.eng with down := setInsert s.eng.down u } } u

/-! Tide copies (R350). -/

/-- Units of a domain that keep a copy of the tide. -/
def copiesOf (d : Nat) : List Nat :=
  if d < 24 then
    if d % 6 < 4 then [4 * (d / 6) + d % 6] else if d % 6 = 5 then tabulate 8 (fun k => unitId 7 (8 * (d / 6) + k)) else []
  else (portsOfDomain d).map (unitId 0xE)

/-- Copies to renew as a domain returns from RETAIN or OFF. -/
def staleCopies (s : State) (d : Nat) : State :=
  { s with tide := { s.tide with stale := (copiesOf d).foldl setInsert s.tide.stale } }

end Sys2Proof.Machine
end

