-- ==== Sys2Proof/Machine/Channels.lean ====
section
/-! DEFINITION. DRAM channels: map-out, restore, failure, errors, and the IEEE 1500 wrappers (9: R287 to R299). -/

namespace Sys2Proof.Machine

/-- Unit ID of a DRAM channel. -/
def chanUnit (n : Nat) : Nat := unitId 4 n

def chanState (s : State) (n : Nat) : Nat := s.get F.dramChanStatus_STATE n

/-- DRAM_SPACE for the channels counted as mapped out (R290, Table 9.4). -/
def showSpace (s : State) : State :=
  let f := s.mem.out.length
  let s := (s.put F.dramSpace_LIMIT_GROUPS (linesPerChannel - spillLines f)).put F.dramSpace_MAPPED_OUT f
  s.put F.dramSpace_NEXT_LIMIT (linesPerChannel - spillLines (min (f + 1) (max f (s.get F.dramSpace_MAX_MAPOUT))))

/-- ID_DEVICE CHANNELS_ACTIVE (Table 9.3). -/
def showActive (s : State) : State :=
  s.put F.idDevice_CHANNELS_ACTIVE
    ((List.range 256).filter (fun n => chanState s n == 0 || chanState s n == 1 || chanState s n == 4)).length

/-- What a change of the set of mapped-out channels leaves unreadable: the lines stored on a channel that has failed (R296). -/
def loseLines (s : State) (n : Nat) : State :=
  let m := s.mem
  let here (sec : Nat) : Bool := (storageLocation (homeOf s (sec * 64)).1 (homeOf s (sec * 64)).2 m.out).1 == n
  { s with mem := { m with lost := m.lost ++ [(n, m.out)], healed := m.healed.filter (fun x => !here x) } }

/-- Lines on channels that have failed, where the set of mapped-out channels is about to change (R296). -/
def loseFailed (s : State) : State := ((List.range 256).filter (fun n => chanState s n == 4)).foldl loseLines s

/-- Lines that a map-out or restore of channel `n` moves below a limit (R290, R293): its home lines, and those spilled lines of
other channels whose place changes; `out` holds `n`. -/
def movedLines (out : List Nat) (n limit : Nat) : Nat :=
  let rest := setErase out n
  limit + (rest.map (fun c => (List.range limit).countP (fun u => storageLocation c u out != storageLocation c u rest))).foldl (· + ·) 0

/-- Space at and above a limit is given up to spilled lines: what it held is gone (R290, R294). -/
def giveUp (s : State) (limit : Nat) : State :=
  let m := s.mem
  let gone (sec : Nat) : Bool := decide (limit ≤ sec * 64)
  { s with mem := { m with dram := smapDrop m.dram (fun a => decide (limit ≤ a)), low := some (min limit (m.low.getD limit)),
                           poison := m.poison.filter (fun x => !gone x), keyTag := smapDrop m.keyTag gone } }

/-- The move in progress, the channels mapped out, and those of the bank's map. -/
def setMove (s : State) (m : Option (Nat × Bool)) : State := { s with mem := { s.mem with move := m } }
def setMapped (s : State) (l : List Nat) : State := { s with mem := { s.mem with out := l } }
def setBankOut (s : State) (l : List Nat) : State := bankChange { s with bank := { s.bank with out := l } }

/-- A move starts (R293): a map-out counts at once, a restore when it ends. -/
def startMove (s : State) (n : Nat) (toOut : Bool) : State :=
  let s := (setMove s (some (n, toOut))).put F.dramChanStatus_MOVED 0 n
  if toOut then
    let s := showSpace (setMapped (loseFailed s) (setInsert s.mem.out n))
    (giveUp s (dramLimit s)).put F.dramChanStatus_STATE 1 n
  else s.put F.dramChanStatus_STATE 3 n

/-- Whether a channel may start to move to where its TARGET asks. -/
def wantsMove (s : State) (n : Nat) (toOut : Bool) : Bool :=
  if toOut then (chanState s n == 0 || chanState s n == 4) && decide (s.mem.out.length < s.get F.dramSpace_MAX_MAPOUT)
  else chanState s n == 2

/-- The next move, in the order the writes arrived (R297), where none is in progress. -/
def nextMove (s : State) : State :=
  if s.mem.move.isSome then s
  else
    match s.mem.moveQ.find? (fun x => wantsMove s x.1 x.2) with
    | none => s
    | some x => startMove { s with mem := { s.mem with moveQ := s.mem.moveQ.filter (fun y => y != x) } } x.1 x.2

/-- A write of TARGET (R292, R294, R297); a channel under a move ends it first, and then goes on toward the new TARGET. -/
def chanTarget (s : State) (n : Nat) (toOut : Bool) : State :=
  let v := if toOut then 1 else 0
  if s.get F.dramChanCtrl_TARGET n = v then s
  else if toOut && s.mem.out.length == s.get F.dramSpace_MAX_MAPOUT then s
  else
    let s := s.put F.dramChanCtrl_TARGET v n
    let q := s.mem.moveQ.filter (fun x => x.1 != n)
    let busy := s.mem.move.any (fun x => x.1 == n)
    let q := if busy then (if s.mem.move.any (fun x => x.2 != toOut) then (n, toOut) :: q else q) else q ++ [(n, toOut)]
    nextMove { s with mem := { s.mem with moveQ := q } }

/-- A move has ended: the channel's new state, the bank's set of mapped-out channels, the record. -/
def moveDone (s : State) (n : Nat) (toOut : Bool) : State :=
  let s := (s.put F.dramChanStatus_MOVED (movedLines (setInsert s.mem.out n) n (s.get F.dramSpace_LIMIT_GROUPS)) n).put F.dramChanStatus_STATE
    (if toOut then 2 else if chanState s n = 4 then 4 else 0) n
  let s := if toOut then s else showSpace (setMapped (loseFailed s) (setErase s.mem.out n))
  let out := if toOut then setInsert s.bank.out (chanUnit n) else setErase s.bank.out (chanUnit n)
  let s := showCounts (showActive (setMove (setBankOut s out) none))
  let s := post s (chanUnit n) none (if toOut then 2 else 0) (if toOut then 0x0404 else 0x0405) (s.get F.dramSpace_LIMIT_GROUPS)
  nextMove s

/-- CHANNEL_MOVE_DONE (R293). -/
def execChannelMoveDone (n : Nat) (s : State) : Out :=
  if n < 256 then
    match s.mem.move with
    | some (m, d) => if m = n then ok (moveDone s n d) else ok s
    | none => ok s
  else .fault .noSuchUnit

/-- A channel is lost (R296), at the sector `pa` whose error showed it; 0 where training failed (R289). -/
def chanFail (s : State) (n : Nat) (pa : Nat := 0) : State :=
  let st := chanState s n
  if st = 0 ∨ st = 1 ∨ st = 3 then
    let s := if st = 1 then { s with mem := { s.mem with lost := s.mem.lost ++ [(n, setErase s.mem.out n)] } } else s
    post (s.put F.dramChanStatus_STATE 4 n) (chanUnit n) none 1 0x0403 pa
  else s

/-- CHANNEL_FAIL. -/
def execChannelFail (n : Nat) (s : State) : Out := if n < 256 then ok (chanFail s n) else .fault .noSuchUnit

/-! Errors in the stacks. -/

/-- A table value of the image, or 0 before an image is loaded. -/
def cfgVal (s : State) (f : ImageCfg → Nat) : Nat := ((s.boot.cfg).map f).getD 0

/-- DRAM_SCRUB (R287): a line read; where a symbol error was corrected the sector is rewritten and recorded. -/
def execDramScrub (pa : Nat) (corrected : Bool) (s : State) : Out :=
  if pa < dramLimit s then
    let n := storeChannel s pa
    if corrected && !chanFailed s pa then ok (post (s.bumpSat F.dramChanStatus_CE_COUNT 1 n) (chanUnit n) none 0 0x0401 (pa / 64 * 64)) else ok s
  else ok s

/-- DRAM_UNCORRECTABLE (R288, R296): the sector is rewritten as poisoned; beyond the image's limit of sectors in an hour (Table
14.5) the channel has failed. -/
def execDramUncorrectable (pa : Nat) (s : State) : Out :=
  if pa < dramLimit s && !chanFailed s pa then
    let n := storeChannel s pa
    let s := { s with mem := { s.mem with poison := setInsert s.mem.poison (pa / 64) } }
    let s := post (s.bumpSat F.dramChanStatus_UE_COUNT 1 n) (chanUnit n) none 1 0x0402 (pa / 64 * 64)
    let s := { s with flt := { s.flt with ue := hourAdd s s.flt.ue n } }
    ok (if cfgVal s (·.ueLimit) < hourCount s.flt.ue n then chanFail s n (pa / 64 * 64) else s)
  else ok s

/-! The IEEE 1500 wrappers. -/

/-- A request begins where one is waiting and none is being served (R298, R299): refused at once, or shifted. -/
def wrapBegin (s : State) (m : Nat) : State :=
  let seq := s.get F.dram1500Ctrl_REQ_SEQ m
  if seq = s.get F.dram1500Ctrl_DONE_SEQ m ∨ (smapFind s.mem.wrap m).isSome then s
  else
    let i := s.get F.dram1500Ctrl_INSTR m
    let ch := 32 * m + s.get F.dram1500Ctrl_CHANNEL m
    if ((s.boot.cfg.map (fun c => c.disruptive)).getD []).contains i && chanState s ch != 5 then
      (s.put F.dram1500Ctrl_RESULT 1 m).put F.dram1500Ctrl_DONE_SEQ seq m
    else { s with mem := { s.mem with wrap := smapInsert s.mem.wrap m ⟨seq, i, ch, s.get F.dram1500Ctrl_LENGTH m⟩ } }

/-- A write to DRAM_1500_CTRL_m; a reserved LENGTH leaves the field (R14). -/
def wrapWrite (s : State) (m v : Nat) : State :=
  let n := bitsOf v 24 16
  let s := (s.put F.dram1500Ctrl_INSTR (bitsOf v 7 0) m).put F.dram1500Ctrl_CHANNEL (bitsOf v 12 8) m
  let s := if 1 ≤ n ∧ n ≤ 256 then s.put F.dram1500Ctrl_LENGTH n m else s
  wrapBegin (s.put F.dram1500Ctrl_REQ_SEQ (bitsOf v 39 32) m) m

/-- WRAPPER_REQUEST. -/
def execWrapperRequest (m val : Nat) (s : State) : Out :=
  if m < 8 then bar0 s (wrapWrite (wideWrite s .dram1500Ctrl m) m val) else .fault .noSuchUnit

/-- WRAPPER_DONE (R298): the bits shifted out take the places of those shifted in, then RESULT, then DONE_SEQ. -/
def execWrapperDone (m : Nat) (responded : Bool) (data : List Nat) (s : State) : Out :=
  if m < 8 then
    match smapFind s.mem.wrap m with
    | none => ok s
    | some r =>
      let word (j : Nat) : Nat :=
        let n := min 64 (r.len - 64 * j)
        let old := s.get F.dram1500Data_DATA m j
        old / 2 ^ n * 2 ^ n + nthD data j 0 % 2 ^ n
      let s := if responded then (List.range 4).foldl (fun s j => s.put F.dram1500Data_DATA (word j) m j) s else s
      let s := (s.put F.dram1500Ctrl_RESULT (if responded then 0 else 2) m).put F.dram1500Ctrl_DONE_SEQ r.seq m
      ok (wrapBegin { s with mem := { s.mem with wrap := smapErase s.mem.wrap m } } m)
  else .fault .noSuchUnit

end Sys2Proof.Machine
end

