-- ==== Sys2Proof/Machine/Update.lean ====
section
/-! DEFINITION. Update jobs: group descriptors, the census close and commit gate, the optimizer step (10: R319 to R332). -/

namespace Sys2Proof.Machine

/-- A tensor entry (Table 10.3). -/
structure Tensor where
  w : Nat
  aux : Nat
  g : Nat
  m : Nat
  v : Nat
  wPitch : Nat
  auxPitch : Nat
  gPitch : Nat
  mPitch : Nat
  vPitch : Nat
  lines : Nat
  elems : Nat
  layout : Nat
  momFmt : Nat
  wdEn : Nat
  reserved : Bool
  deriving DecidableEq, Repr

/-- A group descriptor (Table 10.3). -/
structure Group where
  state : Nat
  lsIndex : Nat
  slots : List Nat
  extras : List Nat
  tensors : List Tensor
  deriving DecidableEq, Repr

def decodeTensor (b : List Byte) : Tensor where
  w := leAt b 0 8
  aux := leAt b 8 8
  g := leAt b 0x10 8
  m := leAt b 0x18 8
  v := leAt b 0x20 8
  wPitch := leAt b 0x28 4
  auxPitch := leAt b 0x2C 4
  gPitch := leAt b 0x30 4
  mPitch := leAt b 0x34 4
  vPitch := leAt b 0x38 4
  lines := leAt b 0x3C 4
  elems := leAt b 0x40 4
  layout := leAt b 0x44 1
  momFmt := leAt b 0x45 1
  wdEn := leAt b 0x46 1
  reserved := leAt b 0x47 57 != 0

/-- Whether a tensor entry holds values of Table 10.3. -/
def Tensor.valid (t : Tensor) : Bool :=
  let in16 (n : Nat) : Bool := decide (1 ≤ n) && decide (n ≤ 65536)
  let al : List Nat := [t.w, t.aux, t.g, t.m, t.v]
  let pl : List Nat := [t.wPitch, t.auxPitch, t.gPitch, t.mPitch, t.vPitch]
  (in16 t.lines && in16 t.elems) && (decide (t.layout < 4) && decide (t.momFmt < 2) && decide (t.wdEn < 2))
    && (!t.reserved && al.all (fun a => a % 64 == 0) && pl.all (fun a => a % 64 == 0))

/-- Bytes of an element of W and of a moment. -/
def Tensor.wSize (t : Tensor) : Nat := if t.layout = 0 then 2 else 4
def Tensor.mSize (t : Tensor) : Nat := if t.momFmt = 0 then 4 else 2

/-- The columns of a tensor a job uses: address, pitch, bytes per element. -/
def Tensor.cols (t : Tensor) (adamw : Bool) : List (Nat × Nat × Nat) :=
  [(t.w, t.wPitch, t.wSize), (t.g, t.gPitch, 4), (t.m, t.mPitch, t.mSize)]
    ++ ((if t.layout = 3 then [] else [(t.aux, t.auxPitch, 2)]) ++ (if adamw then [(t.v, t.vPitch, t.mSize)] else []))

/-! Checks (R321, R324). -/

/-- The first parameter outside Table 10.2, by its row. -/
def updBadParam (p : UpdateJob) : Option Nat :=
  if p.group % 64 != 0 then some 40
  else if p.lsMin < -126 ∨ 127 < p.lsMax ∨ p.lsMax < p.lsMin then some 45
  else if 2 ^ 32 ≤ p.grow then some 46
  else none

/-- A group descriptor that breaks Table 10.3. -/
def badGroup : Nat := paramInfo 40

/-- The group that a descriptor's bytes give. -/
def decodeGroup (b : List Byte) : Group :=
  let ns := leAt b 2 2
  let nt := leAt b 4 2
  let tb := b.drop (64 + cdiv (2 * ns) 64 * 64)
  ⟨leAt b 8 8, leAt b 0x10 2, tabulate ns (fun i => leAt b (64 + 2 * i) 2), tabulate (leAt b 6 1) (fun i => leAt b (0x18 + 8 * i) 8),
    tabulate nt (fun i => decodeTensor ((tb.drop (128 * i)).take 128))⟩

/-- Check 1: the descriptor read and found valid: its bytes. -/
def readGroup (c : Nat) (p : UpdateJob) (s : State) : Res (List Byte) :=
  (devBytes c p.group 64 s).then (fun h s =>
    let ns := leAt h 2 2
    let nt := leAt h 4 2
    let ne := leAt h 6 1
    let bad := leAt h 0 2 != 1 || ns == 0 || decide (256 < ns) || nt == 0 || decide (256 < nt) || decide (4 < ne) || leAt h 7 1 != 0
      || leAt h 0x12 2 != 0 || leAt h 0x14 4 != 0 || leAt h 0x38 8 != 0 || leAt h 8 8 % 64 != 0
    if bad then .halt 0x23 badGroup s
    else
      let sl := cdiv (2 * ns) 64 * 64
      (devBytes c (p.group + 64) sl s).then (fun l s =>
        (devBytes c (p.group + 64 + sl) (128 * nt) s).then (fun tb s =>
          let ts := tabulate nt (fun i => decodeTensor ((tb.drop (128 * i)).take 128))
          if leAt l (2 * ns) (sl - 2 * ns) != 0 || !ts.all (fun t => t.valid) then .halt 0x23 badGroup s
          else .ok (h ++ l ++ tb) s)))

/-- Check 2. -/
def checkSlots (c : Nat) : List Nat → State → Res Unit
  | [], s => .ok () s
  | h :: hs, s =>
    match censusCheck s c h with
    | (some (r, i), s) => .halt r i s
    | (none, s) => checkSlots c hs s

/-- Every line of every column a tensor's job uses. -/
def checkLines (c : Nat) (adamw : Bool) (t : Tensor) (s : State) : Res Unit :=
  Res.run (fun x s => Res.run (fun l s => devCheck .both c (x.1 + l * x.2.1) (t.elems * x.2.2) s) (List.range t.lines) s)
    (t.cols adamw) s

/-- Check 3 for one tensor: every line it uses, and the addresses it does not use themselves (R324; DEDUCED, log 57). -/
def checkTensor (c : Nat) (adamw : Bool) (t : Tensor) (s : State) : Res Unit :=
  (checkLines c adamw t s).then (fun _ s =>
    Res.run (fun a s => devCheck .both c a 1 s) ((if t.layout = 3 then [t.aux] else []) ++ (if adamw then [] else [t.v])) s)

def lsAddr (p : UpdateJob) (g : Group) : Nat := p.lsTable + 4 * g.lsIndex

/-- Check 4: the loss scale's exponent, where the entry is a positive normal power of two within its limits. -/
def lsExp (p : UpdateJob) (v : Nat) : Option Int :=
  let e : Int := (v / 2 ^ 23 : Nat) - 127
  if v % 2 ^ 23 = 0 ∧ 1 ≤ v / 2 ^ 23 ∧ v / 2 ^ 23 < 255 ∧ p.lsMin ≤ e ∧ e ≤ p.lsMax then some e else none

/-- The FP32 pattern of 2^e. -/
def pow2F32 (e : Int) : Nat := (e + 127).toNat * 2 ^ 23

/-- A job's reads and writes but for its tensors: the state record, the loss scale, the extra counts. -/
def checkOthers (c : Nat) (p : UpdateJob) (g : Group) (s : State) : Res Unit :=
  Res.run (fun x s => devCheck .both c x.1 x.2 s) ((g.state, 64) :: (lsAddr p g, 4) :: g.extras.map (fun a => (a, 4))) s

/-- The four checks: the group's bytes and its loss scale. -/
def updCheck (c : Nat) (p : UpdateJob) (s : State) : Res (List Byte × List Byte) :=
  match updBadParam p with
  | some n => .halt 0x23 (paramInfo n) s
  | none =>
    (readGroup c p s).then (fun gb s =>
      let g := decodeGroup gb
      (checkSlots c g.slots s).then (fun _ s =>
        (checkOthers c p g s).then (fun _ s =>
          (Res.run (checkTensor c p.adamw) g.tensors s).then (fun _ s =>
            (devBytes c (lsAddr p g) 4 s).then (fun b s => if (lsExp p (leNat b)).isNone then .halt 0x23 (paramInfo 44) s else .ok (gb, b) s)))))

/-- The exponent of a loss scale that has passed its check. -/
def lsOf (p : UpdateJob) (b : List Byte) : Int := (lsExp p (leNat b)).getD 0

/-! The state record (Table 10.4). -/

/-- A field of a structure written. -/
def setLe (bs : List Byte) (off n v : Nat) : List Byte := bs.take off ++ leBytes n v ++ bs.drop (off + n)

/-- A record's bytes with the reserved ones 0. -/
def cleanState (bs : List Byte) : List Byte := setLe (setLe bs 0x1E 2 0) 0x24 28 0

def sat32 (n : Nat) : Nat := min n (2 ^ 32 - 1)

/-! The gate (R325). -/

/-- A census slot taken: its count, which the slot loses with its flags. -/
def takeSlot (s : State) (h : Nat) : Nat × State :=
  let n := s.get F.coreCensus_COUNT h
  let s := (s.put F.coreCensus_COUNT 0 h).put F.coreCensus_SATURATED 0 h
  (n, ((s.put F.coreCensus_NAN_SEEN 0 h).put F.coreCensus_POS_INF_SEEN 0 h).put F.coreCensus_NEG_INF_SEEN 0 h)

def takeSlots (s : State) (hs : List Nat) : Nat × State :=
  hs.foldl (fun acc h => let r := takeSlot acc.2 h; (acc.1 + r.1, r.2)) (0, s)

/-- The lines of a tensor's column. -/
def colLines (c addr pitch bytes lines : Nat) (s : State) : Res (List (List Byte)) :=
  Res.each (fun l s => devBytes c (addr + l * pitch) bytes s) (List.range lines) s

/-- Non-finite gradients of a tensor. -/
def scanTensor (c : Nat) (t : Tensor) (s : State) : Res Nat :=
  (colLines c t.g t.gPitch (4 * t.elems) t.lines s).then (fun ls s =>
    .ok ((ls.map (fun b => ((unpack 32 t.elems b).filter (fun x => Elem.fp32.nonFinite x)).length)).foldl (· + ·) 0) s)

/-- Every input of a tensor read: poison halts before anything is written. -/
def readTensor (c : Nat) (adamw : Bool) (t : Tensor) (s : State) : Res Unit :=
  Res.run (fun x s => (colLines c x.1 x.2.1 (t.elems * x.2.2) t.lines s).then (fun _ s => .ok () s))
    ((t.cols adamw).filter (fun x => t.layout == 0 || x.1 != t.aux)) s

/-- Bytes a step reads and writes (Table 10.9). -/
def stepBytes (p : UpdateJob) (g : Group) : Nat :=
  (g.tensors.map (fun t =>
    let k := (t.cols p.adamw).map (fun x => x.2.2)
    t.lines * t.elems * (2 * k.foldl (· + ·) 0 - 4 - (if t.layout = 1 ∨ t.layout = 2 then 2 else 0)))).foldl (· + ·) 0

/-- Bytes a job's checks read, and what its gate reads after them. -/
def checkBytes (g : Group) : Nat := 68 + cdiv (2 * g.slots.length) 64 * 64 + 128 * g.tensors.length

def gateBytes (p : UpdateJob) (g : Group) : Nat :=
  64 + 4 * g.extras.length + (if p.guardScan then (g.tensors.map (fun t => 4 * t.lines * t.elems)).foldl (· + ·) 0 else 0)

/-- A skip (R327, R330). -/
def updSkip (j : EngJob) (p : UpdateJob) (g : Group) (e : Int) (rec_ : List Byte) (total : Nat) (s : State) : Res Unit :=
  let r := setLe (setLe rec_ 0x04 4 0) 0x10 4 (leAt rec_ 0x10 4 + 1)
  (devPut j.ctx (lsAddr p g) (leBytes 4 (pow2F32 (max (e - 1) p.lsMin))) s).then (fun _ s =>
    (devPut j.ctx g.state (setLe r 0x1D 1 1) s).then (fun _ s =>
      let s := post s j.unit (some j.ctx) 0 0x0A01 (g.lsIndex + total % 65536 * 65536)
      .ok () (engBytes (s.bump F.updGate_SKIPS 1 (engIndex j.unit)) j.unit 68)))

/-- The gate of a COMMIT once its checks have passed: whether it commits, which has then begun with PHASE = 1 (R325, R326). -/
def updGate (j : EngJob) (p : UpdateJob) (g : Group) (e : Int) (s : State) : Res Bool :=
  let tk := takeSlots s g.slots
  let last := sat32 tk.1
  (Res.each (fun a s => devBytes j.ctx a 4 s) g.extras tk.2).then (fun xs s =>
    (if p.guardScan then Res.each (scanTensor j.ctx) g.tensors s else .ok [] s).then (fun ns s =>
      let total := sat32 (last + (xs.map leNat).foldl (· + ·) 0 + ns.foldl (· + ·) 0)
      (devBytes j.ctx g.state 64 (engBytes s j.unit (checkBytes g + gateBytes p g))).then (fun r s =>
        let r := cleanState (setLe (setLe r 0x14 4 last) 0x18 4 total)
        if total ≠ 0 then (updSkip j p g e r total s).then (fun _ s => .ok false s)
        else
          (Res.run (readTensor j.ctx p.adamw) g.tensors s).then (fun _ s =>
            (devPut j.ctx g.state (setLe r 0x1C 1 1) s).then (fun _ s => .ok true (engBytes s j.unit 64))))))

/-! The optimizer step (R319, R320, R328, R329). -/

/-- What the arithmetic of a job holds fixed. -/
structure StepPar where
  job : UpdateJob
  invLs : Nat
  bc1 : Nat
  bc2 : Nat
  deriving DecidableEq, Repr

/-- update_elem of R328: w, m and v after the step. -/
def updateElem (k : StepPar) (wd w m v grad : Nat) : Nat × Nat × Nat :=
  let j := k.job
  let g := f32Mul grad k.invLs
  if j.adamw then
    let m := f32Fma j.b1 m (f32Mul j.c1 g)
    let v := f32Fma j.b2 v (f32Mul j.c2 (f32Mul g g))
    let u := f32Div (f32Div m k.bc1) (f32Add (f32Sqrt (f32Div v k.bc2)) j.eps)
    (f32Sub w (f32Mul j.lr (f32Fma wd w u)), m, v)
  else
    let m := f32Fma j.b1 m (f32Fma wd w g)
    (f32Sub w (f32Mul j.lr m), m, v)

/-- A draw of lane i mod 64 (R329). -/
def laneNext (ls : List W32) (i : Nat) : Nat × List W32 :=
  let x := xorshift32 (nthD ls (i % 64) 0)
  (draw12 x, setNth ls (i % 64) x)

/-- A value narrowed where its format is narrower, with its draw. -/
def narrowIf (e : Option Elem) (v : Nat) (ls : List W32) (i : Nat) : Nat × List W32 :=
  match e with
  | none => (v, ls)
  | some e => let d := laneNext ls i; (narrowStore e 0 false v d.1, d.2)

/-- An element as a line's update leaves it. -/
structure ElemOut where
  w : Nat
  aux : Nat
  m : Nat
  v : Nat
  bad : Bool
  deriving DecidableEq, Repr

def momElem (t : Tensor) : Elem := if t.momFmt = 0 then .fp32 else .bf16
def narrowTo (e : Elem) : Option Elem := if e = .fp32 then none else some e
def copyElem (t : Tensor) : Option Elem := if t.layout = 1 then some .bf16 else if t.layout = 2 then some .fp16 else none

/-- One element: its halves joined, updated, split or narrowed. -/
def stepElem (k : StepPar) (t : Tensor) (i w0 aux m0 v0 grad : Nat) (ls : List W32) : ElemOut × List W32 :=
  let w := if t.layout = 0 then w0 * 65536 + aux else w0
  let m := widen (momElem t) none m0
  let v := widen (momElem t) none v0
  let wd := if t.wdEn = 1 then k.job.wd else 0
  let x := updateElem k wd w m v grad
  let fin (n : Nat) : Bool := !Elem.fp32.nonFinite n
  let bad := fin w && fin m && (fin v || !k.job.adamw) && fin grad && !fin x.1
  let mo := narrowIf (narrowTo (momElem t)) x.2.1 ls i
  let vo := if k.job.adamw then narrowIf (narrowTo (momElem t)) x.2.2 mo.2 i else (v0, mo.2)
  let co := narrowIf (copyElem t) x.1 vo.2 i
  let r : ElemOut :=
    if t.layout = 0 then ⟨x.1 / 65536, x.1 % 65536, mo.1, vo.1, bad⟩ else ⟨x.1, co.1, mo.1, vo.1, bad⟩
  (r, co.2)

/-- What a commit carries along: the generators, the next ordinal, the non-finite masters written and the first of them. -/
structure StepAcc where
  lanes : List W32
  next : Nat
  bad : Nat
  first : Option (Nat × Nat)
  deriving DecidableEq, Repr

/-- The elements of one line. -/
def stepLine (k : StepPar) (t : Tensor) (no : Nat) (w aux m v g : List Nat) (a : StepAcc) : List ElemOut × StepAcc :=
  (List.range t.elems).foldl (fun acc e =>
    let b := acc.2
    let r := stepElem k t b.next (nthD w e 0) (nthD aux e 0) (nthD m e 0) (nthD v e 0) (nthD g e 0) b.lanes
    let first := if r.1.bad && b.first.isNone then some (no, b.next) else b.first
    let b : StepAcc := ⟨r.2, b.next + 1, if r.1.bad then b.bad + 1 else b.bad, first⟩
    (acc.1 ++ [r.1], b)) ([], a)

/-- One line read, updated and written. -/
def doLine (c : Nat) (k : StepPar) (t : Tensor) (no : Nat) (a : StepAcc) (l : Nat) (s : State) : Res StepAcc :=
  let rd (addr pitch w : Nat) (s : State) : Res (List Nat) := memCodes c (addr + l * pitch) (8 * w) t.elems s
  (rd t.w t.wPitch t.wSize s).then (fun w s =>
    (if t.layout = 0 then rd t.aux t.auxPitch 2 s else .ok [] s).then (fun aux s =>
      (rd t.g t.gPitch 4 s).then (fun g s =>
        (rd t.m t.mPitch t.mSize s).then (fun m s =>
          (if k.job.adamw then rd t.v t.vPitch t.mSize s else .ok [] s).then (fun v s =>
            let r := stepLine k t no w aux m v g a
            (devPut c (t.w + l * t.wPitch) (pack (8 * t.wSize) (r.1.map (fun x => x.w))) s).then (fun _ s =>
              (if t.layout = 3 then .ok () s else devPut c (t.aux + l * t.auxPitch) (pack 16 (r.1.map (fun x => x.aux))) s).then
                (fun _ s =>
                  (devPut c (t.m + l * t.mPitch) (pack (8 * t.mSize) (r.1.map (fun x => x.m))) s).then (fun _ s =>
                    (if k.job.adamw then devPut c (t.v + l * t.vPitch) (pack (8 * t.mSize) (r.1.map (fun x => x.v))) s else .ok () s).then
                      (fun _ s => .ok r.2 s)))))))))

/-- A fold whose steps may fail. -/
def Res.fold {α β : Type} (f : β → α → State → Res β) : β → List α → State → Res β
  | b, [], s => .ok b s
  | b, x :: xs, s => (f b x s).then (fun b s => Res.fold f b xs s)

/-- Every tensor in entry order. -/
def stepTensors (c : Nat) (k : StepPar) (ts : List Tensor) (a : StepAcc) (s : State) : Res StepAcc :=
  Res.fold (fun a (tn : Tensor × Nat) s => Res.fold (fun a l s => doLine c k tn.1 tn.2 a l s) a (List.range tn.1.lines) s) a ts.zipIdx s

/-- The commit after its PHASE = 1 (R326, R329, R330). -/
def updCommit (j : EngJob) (p : UpdateJob) (g : Group) (e : Int) (s : State) : Res Unit :=
  (devBytes j.ctx g.state 64 s).then (fun r s =>
    let p1 := if p.adamw then f32Mul (leAt r 0x08 4) p.b1 else leAt r 0x08 4
    let p2 := if p.adamw then f32Mul (leAt r 0x0C 4) p.b2 else leAt r 0x0C 4
    let k : StepPar := ⟨p, f32Div 0x3F800000 (pow2F32 e), f32Sub 0x3F800000 p1, f32Sub 0x3F800000 p2⟩
    let lanes := tabulate 64 (fun n => laneSeed (ctxSeedOf s j.ctx) (BitVec.ofNat 32 p.tag) (updateLaneKey n))
    (stepTensors j.ctx k g.tensors ⟨lanes, 0, 0, none⟩ s).then (fun a s =>
      let s := match a.first with
        | some (n, i) => post s j.unit (some j.ctx) 0 0x0A02 (g.lsIndex + n * 2 ^ 16 + i * 2 ^ 24)
        | none => s
      let good := leAt r 0x04 4 + 1
      let grow := p.grow != 0 && decide (p.grow ≤ good)
      let r := setLe (setLe (setLe r 0 4 (leAt r 0 4 + 1)) 0x04 4 (if grow then 0 else good)) 0x08 4 p1
      let r := setLe (setLe (setLe r 0x0C 4 p2) 0x1C 2 0) 0x20 4 (leAt r 0x20 4 + a.bad)
      (if grow then devPut j.ctx (lsAddr p g) (leBytes 4 (pow2F32 (min (e + 1) p.lsMax))) s else .ok () s).then (fun _ s =>
        (devPut j.ctx g.state (cleanState r) s).then (fun _ s =>
          .ok () (engBytes (s.bump F.updGate_COMMITS 1 (engIndex j.unit)) j.unit (stepBytes p g + (if grow then 68 else 64)))))))

/-- What a job that has begun to commit keeps of its checks (R332): the bytes of its group descriptor 0, and of its loss scale 1. -/
def keptBytes (j : EngJob) (n : Nat) : List Byte := ((j.got.find? (fun g => g.1 == n)).map (fun g => g.2.2)).getD []

/-- A commit cut short by its engine (R332, R451): PHASE stays 1, and every tensor of the group holds undefined values (log 12). -/
def commitLost (s : State) (j : EngJob) (p : UpdateJob) : State :=
  let put (s : State) (ca n : Nat) : State :=
    match devPut j.ctx ca (undefinedBytes s n) s with
    | .ok _ s => { s with free := s.free + 1 }
    | .absent _ _ s => s
    | .halt _ _ s => s
  let tensor (s : State) (t : Tensor) : State :=
    (t.cols p.adamw).foldl (fun s x =>
      if x.1 = t.g then s else (List.range t.lines).foldl (fun s l => put s (x.1 + l * x.2.1) (t.elems * x.2.2)) s) s
  (decodeGroup (keptBytes j 0)).tensors.foldl tensor s

/-! Commands. -/

/-- How far a job has come: 0 before its gate, 1 committing, 2 done. -/
def setCursor (s : State) (j : EngJob) (n : Nat) : State := updJob s j.id (fun x => { x with cursor := n })

/-- A TAKE (R325 steps 1, 3 and 4). -/
def takeRun (s : State) (j : EngJob) (p : UpdateJob) : State :=
  jobRes j ((updCheck j.ctx p s).then (fun ge s =>
    let g := decodeGroup ge.1
    let tk := takeSlots s g.slots
    devPut j.ctx (g.state + 0x14) (leBytes 4 (sat32 tk.1)) (engBytes tk.2 j.unit (checkBytes g + 4)))) (fun _ s => setCursor s j 2)

/-- A COMMIT's checks and gate; where it commits it has begun, and keeps what its checks read. -/
def gateRun (s : State) (j : EngJob) (p : UpdateJob) : State :=
  jobRes j ((updCheck j.ctx p s).then (fun ge s =>
    (updGate j p (decodeGroup ge.1) (lsOf p ge.2) s).then (fun go s => .ok (if go then some ge else none) s))) (fun o s =>
      match o with
      | none => setCursor s j 2
      | some ge => updJob s j.id (fun x => { x with cursor := 1, got := [(0, false, ge.1), (1, false, ge.2)] }))

/-- The step a COMMIT is at: its gate, or the commit it has begun, which no check of R324 stops any more (R332). -/
def commitRun (s : State) (j : EngJob) (p : UpdateJob) : State :=
  if j.cursor = 0 then gateRun s j p
  else
    let g := decodeGroup (keptBytes j 0)
    jobRes j ((checkOthers j.ctx p g s).then (fun _ s =>
      (Res.run (checkLines j.ctx p.adamw) g.tensors s).then (fun _ s => updCommit j p g (lsOf p (keptBytes j 1)) s)))
      (fun _ s => setCursor s j 2)

/-- The job a unit runs. -/
def running (s : State) (u : Nat) : Option EngJob := (jobsOf s u).find? (fun j => j.started && j.parked.isNone)

/-- A running update job carried on (R332: it runs to its end, suspended or not). -/
def updateRun (s : State) (j : EngJob) (p : UpdateJob) : State :=
  if 2 ≤ j.cursor then s else if p.commit then commitRun s j p else takeRun s j p

/-- UPDATE_TAKE and UPDATE_COMMIT: the issue, or the engine's own step. -/
def updateForm (form : EngForm UpdateJob) (commit : Bool) (s : State) : Out :=
  match form with
  | .issue at_ iss k job =>
    if k < 2 then issueOp s at_ iss (tileUnit 9 2 k) (.update { job with commit := commit }) true (fun _ _ => some 9)
    else .fault .noSuchUnit
  | .run u =>
    if u < 8 then
      match running s (unitId 9 u) with
      | none => ok s
      | some j =>
        match j.job with
        | .update p => if p.commit = commit then ok (updateRun s j p) else ok s
        | _ => ok s
    else .fault .noSuchUnit

/-- UPDATE_TAKE (R325). -/
def execUpdateTake (form : EngForm UpdateJob) (s : State) : Out := updateForm form false s

/-- UPDATE_COMMIT (R325 to R330): the gate; then, where it commits, the commit. -/
def execUpdateCommit (form : EngForm UpdateJob) (s : State) : Out := updateForm form true s

end Sys2Proof.Machine
end

