-- ==== Sys2Proof/Machine/Experts.lean ====
section
/-! DEFINITION. Expert dispatch: DISPATCH and COMBINE jobs (10: R341 to R346), and the completion of engine jobs. -/

namespace Sys2Proof.Machine

/-- A destination (Table 10.7). -/
structure Dest where
  region : Nat
  bytes : Nat
  ferry : Nat
  gate : Nat
  bollard : Nat
  reserved : Bool
  deriving DecidableEq, Repr

def decodeDest (b : List Byte) : Dest where
  region := leAt b 0 8
  bytes := leAt b 8 8
  ferry := leAt b 0x12 2
  gate := leAt b 0x14 1 % 16
  bollard := leAt b 0x16 2 % 16384
  reserved := leAt b 0x14 1 / 16 != 0 || leAt b 0x15 1 != 0 || leAt b 0x16 2 / 16384 != 0 || leAt b 0x18 40 != 0

/-- An expert's place. -/
structure Expert where
  dest : Nat
  loc : Nat
  present : Bool
  reserved : Bool
  deriving DecidableEq, Repr

def decodeExpert (x : Nat) : Expert := ⟨x % 128, bitsOf x 11 8, x.testBit 31, x.testBit 7 || bitsOf x 30 12 != 0⟩

/-- A token's routes: experts and weights of its first TOP_K. -/
structure Routes where
  experts : List Nat
  weights : List Nat
  reserved : Bool
  deriving DecidableEq, Repr

def decodeRoutes (k : Nat) (b : List Byte) : Routes where
  experts := tabulate k (fun i => leAt b (2 * i) 2)
  weights := tabulate k (fun i => leAt b (0x10 + 4 * i) 4)
  reserved := leAt b 0x30 16 != 0

/-- A job's tables as read. -/
structure Tables where
  dests : List Dest
  experts : List Expert
  routes : List Routes
  deriving DecidableEq, Repr

/-- The destinations a job names. -/
def readDests (c dests d : Nat) (s : State) : Res (List Dest) :=
  (devBytes c dests (64 * d) s).then (fun ds s => .ok (tabulate d (fun i => decodeDest ((ds.drop (64 * i)).take 64))) s)

/-- The routes a job names. -/
def readRoutes (c t k routes : Nat) (s : State) : Res (List Routes) :=
  (Res.each (fun i s => devBytes c (routes + 64 * i) 64 s) (List.range t) s).then (fun rs s => .ok (rs.map (decodeRoutes k)) s)

/-- The tables a DISPATCH names. -/
def readTables (c t k e routes emap dests d : Nat) (s : State) : Res Tables :=
  (devBytes c emap (4 * e) s).then (fun em s =>
    (readDests c dests d s).then (fun ds s =>
      (readRoutes c t k routes s).then (fun rs s => .ok ⟨ds, tabulate e (fun i => decodeExpert (leAt em (4 * i) 4)), rs⟩ s)))

/-- The first count outside Table 10.7, by its row. -/
def badCounts (t k e d : Nat) : Option Nat :=
  if 1048576 < t then some 50 else if k = 0 ∨ 8 < k then some 51 else if e = 0 ∨ 256 < e then some 52
  else if d = 0 ∨ 64 < d then some 57 else none

def dispBadParam (p : DispatchJob) : Option Nat :=
  match badCounts p.t p.topK p.e p.d with
  | some n => some n
  | none =>
    if p.rowBytes < 64 ∨ 65536 < p.rowBytes ∨ p.rowBytes % 64 != 0 then some 53
    else if p.cap = 0 ∨ 65535 < p.cap then some 58
    else none

/-- The first table that holds a value outside Table 10.7, by its row. -/
def badTables (e d : Nat) (x : Tables) : Option Nat :=
  let routeOk (n : Nat) : Bool := n == 0xFFFF || (decide (n < e) && ((x.experts[n]?).any (fun q => q.present)))
  if x.routes.any (fun r => r.reserved || !r.experts.all routeOk) then some 54
  else if x.experts.any (fun q => q.reserved || (q.present && decide (d ≤ q.dest))) then some 55
  else if x.dests.any (fun q => q.reserved || (q.ferry != 0xFFFF && (q.ferry / 4096 != 7 || decide (32 ≤ q.ferry % 4096)))) then some 56
  else none

/-! The routing (R342). -/

/-- A taken route: its token, its place in ROUTE_MAP, its destination, local index and row. -/
structure Taken where
  token : Nat
  dest : Nat
  loc : Nat
  row : Nat
  deriving DecidableEq, Repr

/-- What the visit of the routes gathers: rows taken per expert, the map's entries, taken routes, dropped routes. -/
structure Visit where
  counts : SMap Nat
  map : List Nat
  taken : List Taken
  drops : Nat
  deriving DecidableEq, Repr

/-- One route. -/
def visitRoute (p : DispatchJob) (x : Tables) (token : Nat) (v : Visit) (e : Nat) : Visit :=
  if e = 0xFFFF then { v with map := v.map ++ [0x80000000] }
  else
    let q := nthD x.experts e ⟨0, 0, false, false⟩
    let n := smapGet v.counts 0 e
    if n < p.cap then
      ⟨smapSet v.counts 0 e (n + 1), v.map ++ [n + q.loc * 2 ^ 16 + q.dest * 2 ^ 20], v.taken ++ [⟨token, q.dest, q.loc, n⟩], v.drops⟩
    else { v with map := v.map ++ [0x80000000], drops := v.drops + 1 }

/-- The routes in ascending token order, and within a token in ascending k. -/
def visit (p : DispatchJob) (x : Tables) : Visit :=
  x.routes.zipIdx.foldl (fun v ri => ri.1.experts.foldl (visitRoute p x ri.2) v) ⟨[], [], [], 0⟩

/-- COUNT[loc] of a destination. -/
def countOf (x : Tables) (v : Visit) (d loc : Nat) : Nat :=
  ((x.experts.zipIdx.filter (fun q => q.1.present && q.1.dest == d && q.1.loc == loc)).map (fun q => smapGet v.counts 0 q.2)).foldl
    (· + ·) 0

def totalOf (x : Tables) (v : Visit) (d : Nat) : Nat := ((List.range 16).map (countOf x v d)).foldl (· + ·) 0

/-- LINES of a destination's region (R343). -/
def destLines (rowBytes total : Nat) : Nat := 1 + total * rowBytes / 64

/-- A region's header (R343). -/
def destHeader (p : DispatchJob) (x : Tables) (v : Visit) (d : Nat) : List Byte :=
  leBytes 4 (totalOf x v d) ++ leBytes 4 (destLines p.rowBytes (totalOf x v d))
    ++ (leBytes 2 (x.experts.filter (fun q => q.present && q.dest == d)).length ++ leBytes 6 0)
    ++ ((List.range 16).flatMap (fun l => leBytes 2 (countOf x v d l)) ++ leBytes 16 0)

/-- Where a taken route's row goes. -/
def rowAddr (p : DispatchJob) (x : Tables) (v : Visit) (r : Taken) : Nat :=
  let before := ((List.range r.loc).map (countOf x v r.dest)).foldl (· + ·) 0
  (nthD x.dests r.dest ⟨0, 0, 0, 0, 0, false⟩).region + 64 + p.rowBytes * (before + r.row)

/-- Destinations' own checks: the ferry held and in service, the bollard owned (R199, R231; before anything is written). -/
def checkDest (c : Nat) (q : Dest) (s : State) : Res Unit :=
  if q.ferry = 0xFFFF then (if bolOwned s q.bollard c then .ok () s else .halt 0x66 q.bollard s)
  else if !ferryHeld s (q.ferry % 4096) c then .halt 0x62 (extra2 q.ferry q.gate) s
  else if !unitUp s q.ferry then .halt 0x64 q.ferry s
  else .ok () s

/-- Every check of a DISPATCH job, and its routing. -/
def dispCheck (c : Nat) (p : DispatchJob) (s : State) : Res (Tables × Visit) :=
  match dispBadParam p with
  | some n => .halt 0x23 (paramInfo n) s
  | none =>
    (readTables c p.t p.topK p.e p.routes p.expertMap p.dests p.d s).then (fun x s =>
      match badTables p.e p.d x with
      | some n => .halt 0x23 (paramInfo n) s
      | none =>
        let v := visit p x
        (Res.run (checkDest c) x.dests s).then (fun _ s =>
          if x.dests.zipIdx.any (fun q => decide (q.1.bytes < destLines p.rowBytes (totalOf x v q.2) * 64)) then .halt 0x23 (paramInfo 56) s
          else .ok (x, v) s))

/-- A DISPATCH job's reads and the places it writes, before it writes anything. -/
def dispReach (c : Nat) (p : DispatchJob) (x : Tables) (v : Visit) (s : State) : Res Unit :=
  (devCheck .write c p.routeMap (4 * (p.t * p.topK)) s).then (fun _ s =>
    (Res.run (fun (r : Taken) s => (devBytes c (p.x + r.token * p.xPitch) p.rowBytes s).then (fun _ s =>
        devCheck .write c (rowAddr p x v r) p.rowBytes s)) v.taken s).then (fun _ s =>
      Res.run (fun (q : Dest) s => devCheck .write c q.region 64 s) x.dests s))

/-- A DISPATCH job's writes: the map, the rows, the headers (R342 to R344, R346). -/
def dispWrite (j : EngJob) (p : DispatchJob) (x : Tables) (v : Visit) (s : State) : Res Unit :=
  (devPut j.ctx p.routeMap (v.map.flatMap (leBytes 4)) s).then (fun _ s =>
    (Res.run (fun (r : Taken) s => (devBytes j.ctx (p.x + r.token * p.xPitch) p.rowBytes s).then (fun bs s =>
        devPut j.ctx (rowAddr p x v r) bs s)) v.taken s).then (fun _ s =>
      (Res.run (fun (q : Dest × Nat) s => devPut j.ctx q.1.region (destHeader p x v q.2) s) x.dests.zipIdx s).then (fun _ s =>
        let n := 4 * p.e + 64 * p.d + 64 * p.t + 4 * (p.t * p.topK) + 2 * (v.taken.length * p.rowBytes) + 64 * p.d
        .ok () (engBytes (s.bump F.engDrops_DROPS v.drops (engIndex j.unit)) j.unit n))))

/-- Destinations handed over in ascending order: a token to the ferry's gate, once the gate has room, or an advance of the bollard
(R344, R199). The cursor counts those handed over, from 1. -/
def handOver (s : State) (j : EngJob) : List Dest → Nat → State
  | [], n => setCursor s j n
  | q :: qs, n =>
    if q.ferry = 0xFFFF then handOver (bolSend s q.bollard 1) j qs (n + 1)
    else if s.get (F.ferryGates_TOKENS q.gate) (q.ferry % 4096) < 8 then
      handOver ((ungate s q.ferry).bump (F.ferryGates_TOKENS q.gate) 1 (q.ferry % 4096)) j qs (n + 1)
    else setCursor s j n

/-- A DISPATCH job carried on. -/
def dispRun (s : State) (j : EngJob) (p : DispatchJob) : State :=
  if j.stopping then s
  else if j.cursor = 0 then
    jobRes j ((dispCheck j.ctx p s).then (fun xv s =>
      (dispReach j.ctx p xv.1 xv.2 s).then (fun _ s => (dispWrite j p xv.1 xv.2 s).then (fun _ s => .ok xv.1 s))))
      (fun x s => handOver s j x.dests 1)
  else
    jobRes j (readDests j.ctx p.dests p.d s) (fun ds s => handOver s j (ds.drop (j.cursor - 1)) j.cursor)

/-! COMBINE (R345). -/

def combRowBytes (p : CombineJob) : Nat := p.cols * (if p.bf16 then 2 else 4)

/-- A taken entry of ROUTE_MAP: row, local index, destination. -/
def mapTaken (m : Nat) : Option (Nat × Nat × Nat) := if m.testBit 31 then none else some (m % 65536, bitsOf m 19 16, bitsOf m 26 20)

/-- The counts of a return region's header. -/
def retCounts (h : List Byte) : List Nat := tabulate 16 (fun i => leAt h (0x10 + 2 * i) 2)

/-- Whether every taken route's row lies below its COUNT. -/
def mapOk (d : Nat) (counts : List (List Nat)) (map : List Nat) : Bool :=
  map.all (fun m =>
    match mapTaken m with
    | none => true
    | some (row, l, q) => decide (q < d) && decide (row < nthD (nthD counts q []) l 0))

/-- A returned row's elements. -/
def retRow (c : Nat) (p : CombineJob) (ds : List Dest) (counts : List (List Nat)) (m : Nat) (s : State) : Res (Option (List Nat)) :=
  match mapTaken m with
  | none => .ok none s
  | some (row, l, q) =>
    let before := ((nthD counts q []).take l).foldl (· + ·) 0
    let a := (nthD ds q ⟨0, 0, 0, 0, 0, false⟩).region + 64 + combRowBytes p * (before + row)
    let e : Elem := if p.bf16 then .bf16 else .fp32
    (memCodes c a e.width p.cols s).then (fun cs s => .ok (some (cs.map (widen e none))) s)

/-- The starting row of a token. -/
def residualRow (c : Nat) (p : CombineJob) (t : Nat) (s : State) : Res (List Nat) :=
  match p.residual with
  | none => .ok (List.replicate p.cols 0) s
  | some r => (memCodes c (r.addr + t * r.pitch) r.fmt.elem.width p.cols s).then (fun cs s => .ok (cs.map (widen r.fmt.elem none)) s)

/-- One token's output row. -/
def combRow (c : Nat) (p : CombineJob) (ds : List Dest) (rs : List Routes) (counts : List (List Nat)) (map : List Nat) (t : Nat) (s : State) : Res (List Nat) :=
  (residualRow c p t s).then (fun acc s =>
    let w := (nthD rs t ⟨[], [], false⟩).weights
    Res.fold (fun (acc : List Nat) k s =>
      (retRow c p ds counts (nthD map (t * p.topK + k) 0x80000000) s).then (fun y s =>
        match y with
        | none => .ok acc s
        | some y => .ok ((acc.zip y).map (fun ay => f32Fma (nthD w k 0) ay.2 ay.1)) s)) acc (List.range p.topK) s)

/-- A residual's format: a floating-point element without scales. -/
def residualOk (p : CombineJob) : Bool :=
  p.residual.all (fun r => match r.fmt with | .plain e => e != .int8 && e != .int32 | _ => false)

/-- A COMBINE job: every check and read, then its rows. It has no use for E and EXPERT_MAP. -/
def combAll (j : EngJob) (p : CombineJob) (s : State) : Res Unit :=
  let c := j.ctx
  match badCounts p.t p.topK 1 p.d with
  | some n => .halt 0x23 (paramInfo n) s
  | none =>
    if !residualOk p then .halt 0x23 (paramInfo 59) s
    else
      (readDests c p.dests p.d s).then (fun ds s =>
      (readRoutes c p.t p.topK p.routes s).then (fun rs s =>
        (Res.each (fun i s => devBytes c (p.routeMap + 4 * i) 4 s) (List.range (p.t * p.topK)) s).then (fun ms s =>
          (Res.each (fun (q : Dest) s => devBytes c q.region 64 s) ds s).then (fun hs s =>
            let map := ms.map leNat
            let counts := hs.map retCounts
            if !mapOk p.d counts map then .halt 0x23 (paramInfo 60) s
            else
              (Res.run (fun t s => devCheck .write c (p.out + t * p.outPitch) (4 * p.cols) s) (List.range p.t) s).then (fun _ s =>
                (Res.each (combRow c p ds rs counts map) (List.range p.t) s).then (fun rows s =>
                  (Res.run (fun (r : List Nat × Nat) s => devPut c (p.out + r.2 * p.outPitch) (r.1.flatMap (leBytes 4)) s) rows.zipIdx s).then
                    (fun _ s =>
                      let taken := (map.filter (fun m => (mapTaken m).isSome)).length
                      let res := p.residual.toList.map (fun r => p.t * packed r.fmt.elem p.cols)
                      let n := 128 * p.d + 64 * p.t + 4 * (p.t * p.topK) + taken * combRowBytes p + res.headD 0
                        + p.t * (4 * p.cols)
                      .ok () (engBytes s j.unit n))))))))

/-! Commands. -/

/-- The issue of a job of a tile's dispatch engines. -/
def expertIssue (s : State) (at_ : At) (iss : Issue) (k : Nat) (job : Job) : Out :=
  if k < 2 then issueOp s at_ iss (tileUnit 10 2 k) job true (fun _ _ => some 9) else .fault .noSuchUnit

/-- DISPATCH (R341 to R344). -/
def execDispatch (form : EngForm DispatchJob) (s : State) : Out :=
  match form with
  | .issue at_ iss k job => expertIssue s at_ iss k (.dispatch job)
  | .run u =>
    if u < 8 then
      match running s (unitId 10 u) with
      | none => ok s
      | some j =>
        match j.job with
        | .dispatch p => ok (dispRun s j p)
        | _ => ok s
    else .fault .noSuchUnit

/-- COMBINE (R345). -/
def execCombine (form : EngForm CombineJob) (s : State) : Out :=
  match form with
  | .issue at_ iss k job => expertIssue s at_ iss k (.combine job)
  | .run u =>
    if u < 8 then
      match running s (unitId 10 u) with
      | none => ok s
      | some j =>
        match j.job with
        | .combine p =>
          if j.stopping || j.cursor != 0 then ok s else ok (jobRes j (combAll j p s) (fun _ s => setCursor s j 1))
        | _ => ok s
    else .fault .noSuchUnit

/-- Whether a unit's running job has done all its work. -/
def jobDone (j : EngJob) : Bool :=
  match j.job with
  | .update _ => j.cursor == 2
  | .dispatch p => j.stopping || j.cursor == p.d + 1
  | .combine _ => j.stopping || j.cursor == 1
  | _ => false

/-- ENGINE_JOB_COMPLETE (R225): a tender's job is carried out and ends; an update, DISPATCH or COMBINE job ends once it has done
its work. -/
def execEngineJobComplete (unit : Nat) (s : State) : Out :=
  if (unit / 4096 = 8 ∧ unit % 4096 < 32) ∨ ((unit / 4096 = 9 ∨ unit / 4096 = 10) ∧ unit % 4096 < 8) then
    match running s unit with
    | none => ok s
    | some j =>
      match j.job with
      | .tender t => ok (tenderComplete s j t)
      | _ => if jobDone j then ok (finishJob s j) else ok s
  else .fault .noSuchUnit

end Sys2Proof.Machine
end

