-- ==== Sys2Proof/Machine/Swap.lean ====
section
/-! DEFINITION. A core's place given to a spare, at once or, while an ACCUMULATING routine runs on it, once that has ended (16: R512,
R514, R521, R522; 6: R206). -/

namespace Sys2Proof.Machine

/-- A gallery's pool after a spare is taken (Table 16.6). -/
def coreTaken (s : State) (g : Nat) : State :=
  let s := showCoreSpare s g
  if (freeCores s g).isEmpty then spareEmpty s (unitId 0 g) else s

/-- Jobs and operations of physical core `p` are those of `q` (R521, R522). -/
def moveUnits (s : State) (p q : Nat) : State :=
  let u (x : Nat) : Nat :=
    if x = unitId 1 p then unitId 1 q else if x / 4096 = 2 ∧ x % 4096 / 4 = p then unitId 2 (q * 4 + x % 4) else x
  let r := s.run
  let js := s.eng.jobs.map (fun j => { j with unit := u j.unit })
  { s with run := { r with ops := r.ops.map (fun o => { o with unit := u o.unit }) }, eng := { s.eng with jobs := js } }

/-- A logical core given to another physical core: the map in the bank, ID_CORE_MAP_n, then the record (R31, R512). -/
def giveCore (s : State) (c p q : Nat) : State :=
  let s := (showCounts (showCorePos (setCorePos s c (some q)) c)).bumpSat F.wearCore_SWAPS_OUT 1 p
  let s := post s (unitId 1 p) none 2 0x0103 (extra2 (unitId 1 q) c)
  coreTaken s (p / 16)

/-- A planned swap (R521, R522): the logical core's stores, fragments, tokens and operations go on at the spare; read-only and
segment caches start empty, B stores but those of operations in flight. -/
def coreMove (s : State) (c p q : Nat) : State :=
  let s := roInvalidateAll (moveUnits s p q) c
  let inFlight (h : BHalf) : Bool := s.eng.jobs.any (fun j => j.id == h.key && j.started)
  let bst := s.core.bst.map (fun kb => if kb.1 / 4 = c then (kb.1, kb.2.filter inFlight) else kb)
  let s := { s with core := { s.core with bst := bst, segCache := s.core.segCache.filter (fun x => x.1 != c) } }
  giveCore s c p q

/-! A core that drains (R206, R521). -/

/-- What a unit out of its place becomes: 0 TEST, 1 REPLACE, 2 BYPASS. -/
def afterSwap (op : Nat) : Nat := match op with | 0 => 3 | 1 => 4 | _ => 5

/-- Whether an ACCUMULATING routine has started on physical core `p`. -/
def accRuns (s : State) (p : Nat) : Bool := s.eng.jobs.any (fun j => j.unit == unitId 1 p && j.acc && j.started)

/-- The swap that waits for physical core `p` to drain. -/
def drainOf (s : State) (p : Nat) : Option Swap :=
  if unitMark s (unitId 1 p) = 2 then s.flt.swaps.find? (fun x => x.unit == unitId 1 p) else none

/-- A routine of a logical core has ended: a swap that waited for it is made. -/
def drainEnds (s : State) (c : Nat) : State :=
  match corePos s c with
  | none => s
  | some p =>
    match drainOf s p with
    | none => s
    | some x =>
      match x.spare with
      | some q => if accRuns s p then s else coreMove (setMark s x.unit (afterSwap x.op)) c p q
      | none => s

end Sys2Proof.Machine
end

