-- ==== Sys2Proof/Machine/Routine.lean ====
section
/-! DEFINITION. Micro-routines (6: R200 to R206) and blockwise attention (10: R336 to R340). -/

namespace Sys2Proof.Machine

/-! The descriptor (Table 6.8). -/

/-- Whether a descriptor holds values of Table 6.8: none where it does not, else whether it is ACCUMULATING. -/
def routineClass (size : Nat) (d : List Byte) : Option Bool :=
  let acc := leAt d 8 1
  let max := leAt d 0x0C 4
  let ok := leAt d 0 4 % 128 == 0 && decide (leAt d 0 4 + leAt d 4 4 ≤ size) && decide (acc < 2) && leAt d 9 3 == 0 && leAt d 0x10 48 == 0
    && (if acc = 1 then decide (1 ≤ max) && decide (max ≤ 12000) else max == 0)
  if ok then some (acc == 1) else none

/-- The descriptor of an operation read as code (R200). -/
def routineDesc (t : Th) (off : Nat) (s : State) : Res (Option Bool) :=
  if off % 64 != 0 || decide (t.l.routineSize < off + 64) then .ok none s
  else
    let a := t.l.code + t.l.routineOff + off
    match resolve s t.c a 64 .exec [0] with
    | .halt r i => .halt r i s
    | .absent n => .absent n a s
    | .at_ p =>
      let d := devRead 2 s (p.rq s) p.addr 64
      if d.1.1 then .halt 0x46 a d.2 else .ok (routineClass t.l.routineSize d.1.2) d.2

/-- The save record lies in its block's scratchpad. -/
def saveOk (t : Th) (a : Nat) : Bool :=
  decide (t.b.gran * 4096 ≤ a) && decide (a + 64 ≤ (t.b.gran + t.b.granules) * 4096)

/-- A step as an instruction can name it (R336). -/
def attnOk (a : AttnStep) : Bool :=
  a.d % 32 == 0 && decide (32 ≤ a.d) && decide (a.d ≤ 512) && decide (1 ≤ a.nq) && decide (a.nq ≤ 65536)
    && decide (1 ≤ a.nk) && decide (a.nk ≤ 65536)

/-- A step of a body as an instruction can name it. -/
def stepOk (x : RStep) : Bool :=
  match x with
  | .attn a => attnOk a
  | .array k op => decide (k < 4) && decide (op.bank < 2)
  | .tender u _ => decide (u < 8)
  | .commit => true

/-- The census slots that a body's attention steps name, checked as the routine is accepted (R61). -/
def bodySlots (c : Nat) : List RStep → State → Option (Nat × Nat) × State
  | [], s => (none, s)
  | .attn a :: xs, s =>
    match censusCheckOpt s c a.census with
    | (some r, s) => (some r, s)
    | (none, s) => bodySlots c xs s
  | _ :: xs, s => bodySlots c xs s

/-- ROUTINE_ISSUE (R200); a routine has no start condition (R226). -/
def execRoutineIssue (at_ : At) (iss : Issue) (job : RoutineJob) (s : State) : Out :=
  if issOk iss false && job.body.all stepOk then
    instr s at_ ⟨[], 2⟩ (fun t s =>
      if !t.l.decl.routines then haltTh s t 0x08 noInfo
      else
        match routineDesc t job.desc s with
        | .halt r i s => haltTh s t r i
        | .absent n a s => parkTh s t n a
        | .ok none s => haltTh s t 0x25 job.desc
        | .ok (some acc) s =>
          if !saveOk t job.save then haltTh s t 0x43 job.save
          else
            let u := coreUnit s t.core
            match issueRefused s t iss u (if acc then some 10 else none) with
            | some (r, i) => haltTh s t r i
            | none =>
              match bodySlots t.c job.body s with
              | (some (r, i), s) => haltTh s t r i
              | (none, s) => issueTo s t iss u (.routine job) acc)
  else .fault .noSuchUnit

/-! Attention (R336 to R339). -/

def negInf : Nat := 0xFF800000

/-- FP32 to BF16 by the thread conversion (R59, R548). -/
def bf16Rne (v : Nat) : Nat := (convertThread .fp32 .bf16 .rne v).getD 0

/-- BF16 widened. -/
def bf (x : Nat) : Nat := widen .bf16 none x

/-- Rows of BF16 elements. -/
def bfRows (c : Nat) (m : MRef) (row rows d : Nat) (s : State) : Res (List (List Nat)) :=
  Res.each (fun i s => memCodes c (m.addr + (row + i) * m.pitch) 16 d s) (List.range rows) s

/-- Product element: a row of BF16 codes by a column of them, from a starting value (R82, R83). -/
def bfDot (a b : List Nat) (start : Nat) : Nat := dot (.plain .bf16) (.plain .bf16) ⟨a, none⟩ ⟨b, none⟩ a.length start

/-- Columns of a matrix given by rows. -/
def transposed (d : Nat) (rows : List (List Nat)) : List (List Nat) := tabulate d (acrossCols rows)

/-- Whether a key is masked for a query row (R337). -/
def masked (a : AttnStep) (row key : Nat) : Bool := a.causal && decide (row < key)

def qRows (a : AttnStep) (b : Nat) : Nat := min 256 (a.nq - 256 * b)
def kRows (a : AttnStep) (j : Nat) : Nat := min 128 (a.nk - 128 * j)

/-- Key blocks a query block meets: none beyond the last unmasked key. -/
def kBlocks (a : AttnStep) (b : Nat) : Nat :=
  let n := cdiv a.nk 128
  if a.causal then min n ((256 * b + qRows a b - 1) / 128 + 1) else n

/-- Query blocks a key block meets. -/
def qBlocks (a : AttnStep) (j : Nat) : List Nat :=
  (List.range (cdiv a.nq 256)).filter (fun b => decide (j < kBlocks a b))

/-- One row's running statistics and accumulator. -/
structure AttnRow where
  m : Nat
  l : Nat
  acc : List Nat
  deriving DecidableEq, Repr

/-- One row over one key block (R337). -/
def fwdRow (a : AttnStep) (row j : Nat) (q : List Nat) (ks vcols : List (List Nat)) (x : AttnRow) : AttnRow :=
  let sr := ks.map (fun k => bfDot q k 0)
  let mn := f32Max x.m (f32Mul (f32MaxList sr) a.sc)
  let al := if x.m = negInf then 0 else f32Exp2 (f32Sub x.m mn)
  let p := sr.zipIdx.map (fun sc => if masked a row (128 * j + sc.2) then 0 else bf16Rne (f32Exp2 (f32Fma sc.1 a.sc (f32Neg mn))))
  let sp := p.foldl (fun t v => f32Add t (bf v)) 0
  let acc := vcols.zipIdx.map (fun vc => bfDot p vc.1 (if j = 0 then 0 else f32Mul (nthD x.acc vc.2 0) al))
  ⟨mn, f32Fma x.l al sp, acc⟩

/-- Every row of a query block over its key blocks, ascending. -/
def fwdRows (c : Nat) (a : AttnStep) (b : Nat) (qs : List (List Nat)) (s : State) : Res (List AttnRow) :=
  Res.fold (fun (xs : List AttnRow) j s =>
    (bfRows c a.k (128 * j) (kRows a j) a.d s).then (fun ks s =>
      (bfRows c a.v (128 * j) (kRows a j) a.d s).then (fun vs s =>
        let vcols := transposed a.d vs
        .ok (xs.zipIdx.map (fun xr => fwdRow a (256 * b + xr.2) j (nthD qs xr.2 []) ks vcols xr.1)) s)))
    (qs.map (fun _ => ⟨negInf, 0, List.replicate a.d 0⟩)) (List.range (kBlocks a b)) s

/-- A row's O, and its L. -/
def fwdO (x : AttnRow) : List Nat := x.acc.map (fun v => bf16Rne (f32Div v x.l))
def fwdL (x : AttnRow) : Nat := f32Add x.m (f32Log2 x.l)

/-- Counters of a product of `rows` by `cols` over `k` BF16 elements, its panels of 32 columns over the four arrays. -/
def countProduct (s : State) (core rows cols k : Nat) : State :=
  (List.range (cdiv cols 32)).foldl (fun s p => countSteps s core (p % 4) rows (cdiv k 32)) s

/-- The two products of a forward block. -/
def countFwd (s : State) (core : Nat) (a : AttnStep) (b : Nat) : State :=
  (List.range (kBlocks a b)).foldl (fun s j =>
    countProduct (countProduct s core (qRows a b) (kRows a j) a.d) core (qRows a b) a.d (kRows a j)) s

/-- The products of a query block's backward pass, with those of the forward block where it is rebuilt. -/
def countBwdQ (s : State) (core : Nat) (a : AttnStep) (b : Nat) : State :=
  let r := qRows a b
  (List.range (kBlocks a b)).foldl (fun s j =>
    countProduct (countProduct (countProduct s core r (kRows a j) a.d) core r (kRows a j) a.d) core r a.d (kRows a j))
    (if a.rebuild then countFwd s core a b else s)

/-- The products of a key block's backward pass. -/
def countBwdKv (s : State) (core : Nat) (a : AttnStep) (j : Nat) : State :=
  let n := kRows a j
  (qBlocks a j).foldl (fun s b =>
    let r := qRows a b
    countProduct (countProduct (countProduct (countProduct s core r n a.d) core r n a.d) core n a.d r) core n a.d r) s

/-- FP32 words of consecutive rows. -/
def putWords (c addr row : Nat) (l : List Nat) (s : State) : Res Unit := devPut c (addr + 4 * row) (l.flatMap (leBytes 4)) s

/-- ATTN_FWD of query block b (R337). -/
def attnFwd (c core : Nat) (a : AttnStep) (b : Nat) (s : State) : Res Unit :=
  (bfRows c a.q (256 * b) (qRows a b) a.d s).then (fun qs s =>
    (fwdRows c a b qs s).then (fun xs s =>
      (Res.run (fun (x : AttnRow × Nat) s => devPut c (a.o.addr + (256 * b + x.2) * a.o.pitch) (pack 16 (fwdO x.1)) s) xs.zipIdx s).then
        (fun _ s => (putWords c a.l (256 * b) (xs.map fwdL) s).then (fun _ s => .ok () (countFwd s core a b)))))

/-- P and dS of a row over a key block (R338), as BF16 codes. -/
def bwdRow (a : AttnStep) (row j : Nat) (q dO : List Nat) (l dsum : Nat) (ks vs : List (List Nat)) : List Nat × List Nat :=
  let ps := (ks.zip vs).zipIdx.map (fun kv =>
    if masked a row (128 * j + kv.2) then ((0, 0) : Nat × Nat)
    else
      let p := bf16Rne (f32Exp2 (f32Fma (bfDot q kv.1.1 0) a.sc (f32Neg l)))
      (p, bf16Rne (f32Mul (f32Mul (bf p) (f32Sub (bfDot dO kv.1.2 0) dsum)) a.s)))
  (ps.map Prod.fst, ps.map Prod.snd)

/-- Dsum of a row: the chain over ascending columns (R338). -/
def dsumOf (dO o : List Nat) : Nat := (dO.zip o).foldl (fun t x => f32Fma (bf x.1) (bf x.2) t) 0

/-- Rows of results stored with stochastic narrowing and counted: panel q of 32 columns on array q mod 4 (DEDUCED, log 24), the
draws of each of its columns one a row (R50, R51, R90). -/
def storeNarrow (c core : Nat) (census : Option Nat) (m : MRef) (tag row : Nat) (rows : List (List Nat)) (s : State) : Res Unit :=
  let n := (rows.headD []).length
  let w := m.fmt.elem.width
  let ds := tabulate n (fun col => taskDraws s c core (tag % 2 ^ 32) (col / 32 % 4) (col % 32) rows.length)
  Res.run (fun (r : List Nat × Nat) s =>
    Res.run (fun p s =>
      let vals := (r.1.drop (32 * p)).take 32
      let x := narrowRow m.fmt m.scale vals (((ds.drop (32 * p)).take 32).map (fun l => nthD l r.2 0))
      (devPut c (m.addr + (row + r.2) * m.pitch + 32 * p * w / 8) (pack w x.2) s).then (fun _ s =>
        let s := countRow s census m.fmt x
        match x.1 with
        | some e => devPut c (m.scale + (row + r.2) * m.scalePitch + p) [BitVec.ofNat 8 e] s
        | none => .ok () s)) (List.range (cdiv n 32)) s) rows.zipIdx s

/-- L and Dsum of a query block: read, or rebuilt and written (R339). -/
def statsOf (c : Nat) (a : AttnStep) (b : Nat) (qs dOs : List (List Nat)) (s : State) : Res (List Nat × List Nat) :=
  let r := qRows a b
  if a.rebuild then
    (fwdRows c a b qs s).then (fun xs s =>
      let ls := xs.map fwdL
      let dsums := (xs.zip dOs).map (fun xd => dsumOf xd.2 (fwdO xd.1))
      (putWords c a.l (256 * b) ls s).then (fun _ s =>
        (putWords c a.dsum (256 * b) dsums s).then (fun _ s => .ok (ls, dsums) s)))
  else
    (memCodes c (a.l + 1024 * b) 32 r s).then (fun ls s => (memCodes c (a.dsum + 1024 * b) 32 r s).then (fun ds s => .ok (ls, ds) s))

/-- ATTN_BWD_Q of query block b (R338, R339). -/
def attnBwdQ (c core : Nat) (a : AttnStep) (b : Nat) (s : State) : Res Unit :=
  let r := qRows a b
  (bfRows c a.q (256 * b) r a.d s).then (fun qs s =>
    (bfRows c a.dO (256 * b) r a.d s).then (fun dOs s =>
      (statsOf c a b qs dOs s).then (fun st s =>
        (Res.fold (fun (acc : List (List Nat)) j s =>
          (bfRows c a.k (128 * j) (kRows a j) a.d s).then (fun ks s =>
            (bfRows c a.v (128 * j) (kRows a j) a.d s).then (fun vs s =>
              let kcols := transposed a.d ks
              .ok (acc.zipIdx.map (fun (xr : List Nat × Nat) =>
                let d := (bwdRow a (256 * b + xr.2) j (nthD qs xr.2 []) (nthD dOs xr.2 []) (nthD st.1 xr.2 0) (nthD st.2 xr.2 0) ks vs).2
                kcols.zipIdx.map (fun kc => bfDot d kc.1 (nthD xr.1 kc.2 0)))) s)))
          (qs.map (fun _ => List.replicate a.d 0)) (List.range (kBlocks a b)) s).then (fun dq s =>
            (storeNarrow c core a.census a.dQ (a.tag + b) (256 * b) dq s).then (fun _ s => .ok () (countBwdQ s core a b))))))

/-- ATTN_BWD_KV of key block j (R338). -/
def attnBwdKv (c core : Nat) (a : AttnStep) (j : Nat) (s : State) : Res Unit :=
  let n := kRows a j
  (bfRows c a.k (128 * j) n a.d s).then (fun ks s =>
    (bfRows c a.v (128 * j) n a.d s).then (fun vs s =>
      let zero : List (List Nat) := ks.map (fun _ => List.replicate a.d 0)
      (Res.fold (fun (acc : List (List Nat) × List (List Nat)) b s =>
        let r := qRows a b
        (bfRows c a.q (256 * b) r a.d s).then (fun qs s =>
          (bfRows c a.dO (256 * b) r a.d s).then (fun dOs s =>
            (memCodes c (a.l + 1024 * b) 32 r s).then (fun ls s =>
              (memCodes c (a.dsum + 1024 * b) 32 r s).then (fun dss s =>
                let rows := tabulate r (fun i =>
                  bwdRow a (256 * b + i) j (nthD qs i []) (nthD dOs i []) (nthD ls i 0) (nthD dss i 0) ks vs)
                let ps := transposed n (rows.map Prod.fst)
                let dss := transposed n (rows.map Prod.snd)
                let add (old lhs cols : List (List Nat)) : List (List Nat) :=
                  old.zipIdx.map (fun xr => cols.zipIdx.map (fun cc => bfDot (nthD lhs xr.2 []) cc.1 (nthD xr.1 cc.2 0)))
                .ok (add acc.1 ps (transposed a.d dOs), add acc.2 dss (transposed a.d qs)) s)))))
        (zero, zero) (qBlocks a j) s).then (fun g s =>
          (storeNarrow c core a.census a.dK (a.tag + 0x40000000 + j) (128 * j) g.2 s).then (fun _ s =>
            (storeNarrow c core a.census a.dV (a.tag + 0x80000000 + j) (128 * j) g.1 s).then (fun _ s => .ok () (countBwdKv s core a j))))))

/-! A routine's course. -/

/-- Commit points of a step: one a query block, or one a key block (R340). -/
def stepBlocks (a : AttnStep) : Nat := match a.kind with | .bwdKv => cdiv a.nk 128 | _ => cdiv a.nq 256

/-- A piece of a body that is done or not: a block of an attention step, which ends at a commit point, or another step whole. -/
inductive RUnit where
  | block (a : AttnStep) (b : Nat)
  | op (x : RStep)
  deriving DecidableEq, Repr

/-- The pieces of a body, in order. -/
def bodyUnits (l : List RStep) : List RUnit :=
  l.flatMap (fun x => match x with
    | .attn a => (List.range (stepBlocks a)).map (RUnit.block a)
    | _ => [.op x])

/-- Piece `n` of a body. -/
def bodyAt (l : List RStep) (n : Nat) : Option RUnit := (bodyUnits l)[n]?

/-- Whether a piece ends at a commit point (R201, R340). -/
def RUnit.commits (u : RUnit) : Bool := match u with | .block _ _ => true | .op x => x == .commit

/-- Commit points among the first `n` pieces (CURSOR of R201). -/
def commitsAt (l : List RStep) (n : Nat) : Nat := ((bodyUnits l).take n).countP RUnit.commits

/-- The piece after `n` commit points, where a resumed routine restarts (R205). -/
def afterCommits : List RUnit → Nat → Nat
  | _, 0 => 0
  | [], _ => 0
  | x :: xs, n + 1 => 1 + afterCommits xs (if x.commits then n else n + 1)

/-- The routine a core runs, with its job. -/
def routineOf (s : State) (core : Nat) : Option (EngJob × RoutineJob) :=
  (running s (coreUnit s core)).bind (fun j => match j.job with | .routine r => some (j, r) | _ => none)

/-- Whether it may go on: its core runs; a PREEMPTIBLE one only while its context does (R202, R206). -/
def routineGoes (s : State) (core : Nat) (j : EngJob) : Bool := coreRuns s core && (j.acc || (s.ctxRuns j.ctx && !coreDrains s core))

/-- A commit point: CURSOR and the resume state, which is undefined to a reader, in the save record (R201; log 12). -/
def commitPoint (s : State) (core : Nat) (j : EngJob) (r : RoutineJob) : State :=
  let s := sramWrite s core r.save (leBytes 8 (commitsAt r.body (j.cursor + 1)) ++ undefinedBytes s 56)
  { s with free := s.free + 1 }

/-- A piece done: a PREEMPTIBLE routine holds its census increments to the next commit point (R204). -/
def unitEnd (s : State) (core : Nat) (j : EngJob) (r : RoutineJob) (u : RUnit) (inc : List CensusInc) : State :=
  let held := j.census ++ inc
  let apply := j.acc || u.commits
  let s := if apply then censusApply s held else s
  let s := if u.commits then commitPoint s core j r else s
  updJob s j.id (fun x => { x with cursor := j.cursor + 1, census := if apply then [] else held, got := [] })

/-- The block at the cursor, where it is of the kind. -/
def attnCmd (s : State) (core : Nat) (kind : AttnKind) (f : Nat → Nat → AttnStep → Nat → State → Res Unit) : Out :=
  if core < 240 then
    match routineOf s core with
    | none => ok s
    | some (j, r) =>
      match bodyAt r.body j.cursor with
      | some (.block a b) =>
        if a.kind = kind && routineGoes s core j then
          ok (jobRes j (Res.held (f j.ctx core a b) s) (fun v s => unitEnd s core j r (.block a b) v.2))
        else ok s
      | _ => ok s
  else .fault .noSuchUnit

/-- ATTN_FWD: one query block. -/
def execAttnFwd (core : Nat) (s : State) : Out := attnCmd s core .fwd attnFwd

/-- ATTN_BWD_Q: one query block. -/
def execAttnBwdQ (core : Nat) (s : State) : Out := attnCmd s core .bwdQ attnBwdQ

/-- ATTN_BWD_KV: one key block. -/
def execAttnBwdKv (core : Nat) (s : State) : Out := attnCmd s core .bwdKv attnBwdKv

/-! Operations that a routine issues to the units it drives (R200, R213). -/

/-- An operation of one of the core's arrays, checked as the array accepts it and carried out. -/
def routineArray (core : Nat) (j : EngJob) (k : Nat) (op : MatOp) (s : State) : Res Unit :=
  if !unitUp s (arrayUnit s core k) then .halt 0x64 (arrayUnit s core k) s
  else
    match matCheck s core j.ctx op with
    | (some (r, i), s) => .halt r i s
    | (none, s) =>
      let bv := if matIdle op then [] else tabulate op.n (fun n => sramVect s core op.b op.k n)
      .ok () (lostCycles (matRun s j core k op bv 0) core k)

/-- Whether the block of a job is of a REPLAYABLE entry (R185). -/
def replayableJob (s : State) (j : EngJob) : Bool :=
  match j.origin with
  | .block id _ => ((blockRec s id).bind (fun b => launchRec s b.launch)).any (fun l => l.decl.replayable)
  | .queue _ _ => false

/-- What a tender of the tile, `j` named with its unit, refuses before it has any effect: R194, R185. -/
def routineTenderRefused (s : State) (j : EngJob) (t : TenderJob) : Option (Nat × Nat) :=
  let away (p : TPlace) : Bool := match p with | .scratch _ _ => false | .ctx a => (segOf s j.ctx a).any (fun g => g.2.target != 0)
  if !unitUp s j.unit then some (0x64, j.unit)
  else if replayableJob s j && (t.kind = .reduce || (tenderWrites t).any away) then some (0x48, opClass 9)
  else none

/-- A job of a tender of the tile, carried out whole; host lines it lacks are asked for first. -/
def routineTender (s : State) (core : Nat) (j : EngJob) (r : RoutineJob) (unit : Nat) (t : TenderJob) : State :=
  let jt := { j with unit := unitId 8 (tileOfCore core * 8 + unit) }
  match routineTenderRefused s jt t with
  | some (x, i) => haltJob s j x i
  | none =>
    jobRes j ((tenderCheck jt t s).then (fun _ s => tenderIndex jt t s)) (fun idx s =>
      let need := tenderNeeds jt t idx (tenderSteps t) s
      if !s.upstream && (!need.isEmpty || (tenderWrites t).any (inHost s j.ctx)) then
        hostPathLost s j.ctx (need.headD 0) (originEntry s j.origin)
      else if !need.isEmpty then readLines s j need
      else
        jobRes j (Res.held (tenderRun jt t idx (fun s => s) (tenderSteps t)) s) (fun v s =>
          unitEnd s core j r (.op (.tender unit t)) v.2))

/-- The step at the cursor that is no attention step. -/
def routineStep (s : State) (core : Nat) (j : EngJob) (r : RoutineJob) (x : RStep) : State :=
  match x with
  | .attn _ => s
  | .array k op => jobRes j (Res.held (routineArray core j k op) s) (fun v s => unitEnd s core j r (.op x) v.2)
  | .tender u t => routineTender s core j r u t
  | .commit => unitEnd s core j r (.op .commit) []

/-- One such step of the routine a core runs, while time passes. -/
def routineTick (s : State) (core : Nat) : State :=
  match routineOf s core with
  | none => s
  | some (j, r) =>
    match bodyAt r.body j.cursor with
    | some (.op x) => if routineGoes s core j then routineStep s core j r x else s
    | _ => s

/-- Up to `n` of them. -/
def routineTicks : Nat → State → Nat → State
  | 0, s, _ => s
  | n + 1, s, core => routineTicks n (routineTick s core) core

/-- ROUTINE_COMPLETE (R203, R204): what is left of the routine but attention steps is done; with nothing left the increments it holds are
applied, and its token is DONE. -/
def execRoutineComplete (core : Nat) (s : State) : Out :=
  if core < 240 then
    match routineOf s core with
    | none => ok s
    | some (_, r) =>
      let s := routineTicks (bodyUnits r.body).length s core
      match routineOf s core with
      | none => ok s
      | some (j, r) =>
        if (bodyAt r.body j.cursor).isNone && routineGoes s core j then ok (drainEnds (finishJob (censusApply s j.census) j) core)
        else ok s
  else .fault .noSuchUnit

/-- Bytes a step's rows may take. -/
def stepOut (a : AttnStep) : List (Nat × Nat × Nat × Nat) :=
  let row (m : MRef) (n : Nat) : Nat × Nat × Nat × Nat := (m.addr, m.pitch, packed m.fmt.elem a.d, n)
  match a.kind with
  | .fwd => [row a.o a.nq, (a.l, 4, 4, a.nq)]
  | .bwdQ => [row a.dQ a.nq]
  | .bwdKv => [row a.dK a.nk, row a.dV a.nk]

/-- `n` undefined bytes written in a context's memory, where it can be. -/
def spoilAt (c : Nat) (s : State) (ca n : Nat) : State :=
  match devPut c ca (undefinedBytes s n) s with
  | .ok _ s => { s with free := s.free + 1 }
  | _ => s

/-- `n` undefined bytes written in a scratchpad. -/
def spoilSram (s : State) (core a n : Nat) : State :=
  let s' := sramWrite s core a (undefinedBytes s n)
  { s' with free := s.free + 1 }

/-- What a step of a routine that was cut short may have written: undefined values. -/
def spoilStep (c core : Nat) (s : State) (x : RStep) : State :=
  match x with
  | .attn a => (stepOut a).foldl (fun s o => (List.range o.2.2.2).foldl (fun s i => spoilAt c s (o.1 + i * o.2.1) o.2.2.1) s) s
  | .array _ op => op.store.toList.foldl (fun s m =>
      (List.range op.m).foldl (fun s i => spoilSram s core (m.addr + i * m.pitch) (packed m.fmt.elem op.n)) s) s
  | .tender _ t => (if usesDst t.kind then List.range (dstRows t) else []).foldl (fun s i =>
      match placePlus t.dst (i * t.dstPitch) with
      | .ctx a => spoilAt c s a (dstRow t)
      | .scratch k a => spoilSram s k a (dstRow t)) s
  | .commit => s

/-- The memory that a routine cut short accumulated into is undefined (R206; log 12). -/
def spoil (c core : Nat) (r : RoutineJob) (s : State) : State := r.body.foldl (spoilStep c core) s

/-- ROUTINE_MAX_CYCLES (R206): an ACCUMULATING routine past its bound halts, its results undefined. -/
def execRoutineMaxCycles (core : Nat) (s : State) : Out :=
  if core < 240 then
    match routineOf s core with
    | none => ok s
    | some (j, r) => if j.acc then ok (drainEnds (haltJob (spoil j.ctx core r s) j 0x65 r.desc) core) else ok s
  else .fault .noSuchUnit

end Sys2Proof.Machine
end

