-- ==== Sys2Proof/Machine/Tide.lean ====
section
/-! DEFINITION. The tide: its count, its lock, its two beacon paths (11: R348 to R355, R553). -/

namespace Sys2Proof.Machine

/-- States of Table 11.3. -/
def tFree : Nat := 0
def tAcquiring : Nat := 1
def tLocked : Nat := 2
def tHoldover : Nat := 3
def tLost : Nat := 4
def tLocal : Nat := 5

def tideState (s : State) : Nat := s.get F.tideLock_STATE

/-- Unit ID of a beacon path. -/
def pathUnit (p : Nat) : Nat := 0xD004 + p

def activePath (s : State) : Nat := s.get F.tideLock_ACTIVE_PATH

/-- A record of the tide under the active path's unit (R377). -/
def tidePost (s : State) (code extra : Nat) : State := post s (pathUnit (activePath s)) none 0 code extra

def setTideRec (s : State) (t : Tide) : State := { s with tide := t }

/-- A change of state: STATE, VALID (Table 11.1), the ferries that LOST pauses (R364) and the event; ACQUIRING from FREE is not VALID. -/
def tideGo (s : State) (st : Nat) (fromFree : Bool) : State :=
  let was := tideState s
  let s := setTideRec s { s.tide with fromFree := fromFree }
  let s := s.put F.tideLock_STATE st
  let s := s.put F.tideLock_VALID (if st = tFree ∨ (st = tAcquiring ∧ fromFree) then 0 else 1)
  let s := if st ≠ was ∧ (st = tLost ∨ was = tLost) then (List.range 32).foldl ferryShow s else s
  if st = was then s else signalIf s (s.isSet F.tideCtrl_EVENT_EN) (s.get F.tideCtrl_EVENT)

/-- The count set. -/
def setCount (s : State) (n : Nat) : State := s.put F.tideCount_COUNT (n % 2 ^ 64)

/-- What the count advances by at this tick, with the correction that remains (R353): one tick added or omitted in each 1,024, or
half rate while the local count is far ahead. -/
def tideStep (t : Tide) : Nat × Tide :=
  let t := { t with phase := (t.phase + 1) % 1024 }
  if t.half then
    if t.phase % 2 = 0 then (1, t)
    else
      let e := t.err + 1
      (0, if -4 ≤ e then { t with err := 0, half := false } else { t with err := e })
  else if t.phase != 0 then (1, t)
  else if 1 < t.err then (2, { t with err := t.err - 1 })
  else if t.err < -1 then (0, { t with err := t.err + 1 })
  else (1, t)

/-- The timers of R553 advanced by a tick. -/
def tideTimers (st : Nat) (t : Tide) : Tide :=
  { t with since := t.since + 1, sinceA := t.sinceA + 1, sinceB := t.sinceB + 1, hold := if st = tHoldover then t.hold + 1 else t.hold }

/-- TIDE_TICK (R348, R353): the count advances. Real time is another clock (R4), which the block's idle steps advance (log 1). -/
def execTideTick (s : State) : Out :=
  let r := tideStep s.tide
  let s := setTideRec s (tideTimers (tideState s) r.2)
  ok (setCount s (s.tideNow + r.1))

/-! Beacons. -/

/-- Whether a beacon passes its check, names the source and has crossed at most three stages (R351). -/
def beaconOk (s : State) (p : Packet) : Bool :=
  pkType p == tBeacon && pf p 31 16 == s.get F.tidePaths_SOURCE && decide (pf p 11 8 ≤ 3)
    && (crc8 (leBytes 14 (p.toNat % 2 ^ 112))).toNat == pf p 119 112

/-- Valid for path A (0) or B (1): on that path's port. -/
def validFor (s : State) (path port : Nat) (p : Packet) : Bool :=
  beaconOk s p && port == (if path = 0 then s.get F.tidePaths_PORT_A else s.get F.tidePaths_PORT_B)

/-- A path has given a beacon valid for it: its window begins again. -/
def pathSeen (s : State) (path : Nat) : State :=
  if path = 0 then (setTideRec s { s.tide with sinceA := 0, seenA := true }).put F.tideLock_PATH_A_OK 1
  else (setTideRec s { s.tide with sinceB := 0, seenB := true }).put F.tideLock_PATH_B_OK 1

/-- OFFSET as shown: signed, saturating at ±32,767. -/
def showOffset (s : State) (d : Int) : State := s.put F.tideLock_OFFSET (ofSigned 16 (max (-32767) (min 32767 d)))

/-- The offset of R351, as a signed difference of 64-bit counts. -/
def beaconOffset (s : State) (port : Nat) (p : Packet) : Int :=
  toSigned 64 ((pf p 111 48 + s.get F.fabPortStatus_DELAY port + 2 ^ 64 - s.tideNow) % 2 ^ 64)

/-- The correction of an offset (R353). -/
def tideCorrect (s : State) (d : Int) : State :=
  if 64 < d then
    let s := (setCount s (s.tideNow + d.toNat)).bumpSat F.tideLock_STEPS
    tidePost (setTideRec s { s.tide with err := 0, half := false }) 0x0B05 d.toNat
  else setTideRec s { s.tide with err := d, half := decide (d < -64) }

/-- LOCKED reached. -/
def tideLockIn (s : State) : State :=
  tidePost (tideGo (setTideRec s { s.tide with good := 0, outliers := 0 }) tLocked false) 0x0B01 0

/-- A beacon that counts towards the four of Table 11.1. -/
def acquire (s : State) (d : Int) : State :=
  let s := tideCorrect s d
  if d.natAbs ≤ 4 then
    if 3 ≤ s.tide.good then tideLockIn s else setTideRec s { s.tide with good := s.tide.good + 1 }
  else setTideRec s { s.tide with good := 0 }

/-- A valid beacon (Table 11.1, R351, R353). -/
def beaconActive (s : State) (port : Nat) (p : Packet) : State :=
  let st := tideState s
  let s := setTideRec s { s.tide with since := 0 }
  if st = tLocal then s
  else if st = tFree then
    let s := setCount s (pf p 111 48 + s.get F.fabPortStatus_DELAY port)
    tideGo (showOffset (setTideRec s { s.tide with good := 0, outliers := 0, err := 0, half := false }) 0) tAcquiring true
  else
    let d := beaconOffset s port p
    let s := showOffset s d
    if st = tLocked then
      if 256 < d.natAbs then
        if 2 ≤ s.tide.outliers then tideGo (setTideRec s { s.tide with outliers := 0, good := 0 }) tAcquiring false
        else setTideRec s { s.tide with outliers := s.tide.outliers + 1 }
      else tideCorrect (setTideRec s { s.tide with outliers := 0 }) d
    else if st = tAcquiring then acquire s d
    else acquire (tideGo (setTideRec s { s.tide with good := 0 }) tAcquiring false) d

/-- A beacon received on a port (R351). -/
def beaconIn (s : State) (port : Nat) (p : Packet) : State :=
  if s.get F.fabPortStatus_STATE port = 2 then
    let a := validFor s 0 port p
    let b := validFor s 1 port p
    let act := if activePath s = 0 then a else b
    let s := if a then pathSeen s 0 else s
    let s := if b then pathSeen s 1 else s
    if act then beaconActive s port p else s
  else s

/-- BEACON_RECEIVE (R351 to R353). -/
def execBeaconReceive (port : Nat) (p : Packet) (s : State) : Out := if port < 16 then ok (beaconIn s port p) else .fault .noSuchUnit

/-- Whether the other path has given a beacon valid for it within the last 8,192 ticks. -/
def otherRecent (s : State) : Bool :=
  if activePath s = 0 then s.tide.seenB && decide (s.tide.sinceB < 8192) else s.tide.seenA && decide (s.tide.sinceA < 8192)

/-- The active path is lost (R355, R553): the switch to the other path, else HOLDOVER from LOCKED. -/
def beaconLoss (s : State) : State :=
  if s.tide.since < 12288 ∨ tideState s = tLocal then s
  else if s.isSet F.tideCtrl_PATH_B_EN && otherRecent s then
    let failed := activePath s
    let s := setTideRec s { s.tide with since := if failed = 0 then s.tide.sinceB else s.tide.sinceA }
    let s := bankChange { s with bank := { s.bank with path := 1 - failed } }
    post ((s.put F.tideLock_ACTIVE_PATH (1 - failed)).put F.tideLock_SWITCHED 1) (pathUnit failed) none 2 0x0B02 0
  else if tideState s = tLocked then
    tidePost (tideGo (setTideRec s { s.tide with err := 0, half := false, hold := 0 }) tHoldover false) 0x0B03 0
  else s

/-- BEACON_LOSS_TIMEOUT: 12,288 ticks without a valid beacon. -/
def execBeaconLossTimeout (s : State) : Out := ok (beaconLoss s)

/-- HOLDOVER_TIMEOUT: 10,000,000 ticks in HOLDOVER lead to LOST (Table 11.1). -/
def execHoldoverTimeout (s : State) : Out :=
  if tideState s = tHoldover ∧ 10000000 ≤ s.tide.hold then ok (tidePost ((tideGo s tLost false).put F.tideLock_LOST_SEEN 1) 0x0B04 0) else ok s

/-- PATH_WINDOW_EXPIRE: a path without a valid beacon for 8,192 ticks. -/
def execPathWindowExpire (path : Nat) (s : State) : Out :=
  if path = 0 then (if 8192 ≤ s.tide.sinceA then ok (s.put F.tideLock_PATH_A_OK 0) else ok s)
  else if path = 1 then (if 8192 ≤ s.tide.sinceB then ok (s.put F.tideLock_PATH_B_OK 0) else ok s)
  else .fault .noSuchUnit

/-- A write of TIDE_CTRL LOCAL (Table 11.1). -/
def tideLocal (s : State) (on : Bool) : State :=
  let was := s.isSet F.tideCtrl_LOCAL
  let s := s.put F.tideCtrl_LOCAL (if on then 1 else 0)
  if on && !was then tideGo (setTideRec s { s.tide with err := 0, half := false }) tLocal false
  else if !on && was then tideGo (setTideRec s { s.tide with good := 0, outliers := 0 }) tAcquiring false
  else s

/-- TIDE_LOCAL_WRITE. -/
def execTideLocalWrite (on : Bool) (s : State) : Out := bar0 s (tideLocal s on)

/-- Whether a unit's copy of the tide may be used, and reads `copy` (R350). -/
def copyOk (s : State) (unit copy : Nat) : Bool :=
  !s.tide.stale.contains unit && decide (copy ≤ s.tideNow + 2) && decide (s.tideNow ≤ copy + 2)

/-- TIDE_COPY_RENEW (R350): a unit back from RETAIN or OFF takes a new copy. -/
def execTideCopyRenew (unit : Nat) (s : State) : Out :=
  within (decide (unit < 65536)) (setTideRec s { s.tide with stale := setErase s.tide.stale unit })

end Sys2Proof.Machine
end

