-- ==== Sys2Proof/Machine/Ferry.lean ====
section
/-! DEFINITION. Ferries: timetables, departures, attempts, outcomes at the sender (11: R356 to R365, R371 to R375). -/

namespace Sys2Proof.Machine

def setSails (s : State) (x : Sails) : State := { s with sail := x }

/-! RUN (R356). -/

/-- The first VALID entry marked LAST. -/
def lastEntry (s : State) (f : Nat) : Option Nat :=
  (List.range 4096).find? (fun e => s.isSet F.tt_VALID f e && s.isSet F.tt_LAST f e)

/-- Whether entries 0 to L are VALID, do not decrease, and lie below PERIOD. -/
def entriesOk (s : State) (f l : Nat) : Bool :=
  (List.range (l + 1)).all (fun e =>
    s.isSet F.tt_VALID f e && decide (s.get F.tt_DEPART f e < s.get F.ferryPeriod_PERIOD f)
      && (e == 0 || decide (s.get F.tt_DEPART f (e - 1) ≤ s.get F.tt_DEPART f e)))

/-- Whether a route and a condition are VALID with their bollards. -/
def routeOk (s : State) (f r : Nat) : Bool :=
  s.isSet F.ferryRoute_VALID f r
    && (!s.isSet F.ferryRoute_SETTLE_EN f r || bolOwned s (s.get F.ferryRoute_SETTLE_BOLLARD f r) (s.get F.ferryCtrl_OWNER f))

def condOk (s : State) (f c : Nat) : Bool :=
  c == 0x3F || (s.isSet F.ferryCond_VALID f c && bolOwned s (s.get F.ferryCond_BOLLARD f c) (s.get F.ferryCtrl_OWNER f))

/-- The failing check of R356, 0 when all pass. -/
def runCheck (s : State) (f : Nat) : Nat :=
  if !s.isSet F.ferryCtrl_VALID f || s.get F.ferryEpoch_EPOCH f % 1024 != 0 then 1
  else if s.get F.ferryPeriod_PERIOD f < 1 then 2
  else
    match lastEntry s f with
    | none => 3
    | some l =>
      if !entriesOk s f l then 4
      else if (List.range (l + 1)).all (fun e => routeOk s f (s.get F.tt_ROUTE f e) && condOk s f (s.get F.tt_COND f e)) then 0
      else 5

/-- The host sets RUN (R356). -/
def ferryStart (s : State) (f : Nat) : State :=
  if s.isSet F.ferryCtrl_RUN f then s
  else
    let k := runCheck s f
    if k = 0 then
      let s := (s.put F.ferryCtrl_RUN 1 f).put F.ferryStatus_STATE 1 f
      ferryShow (setSails s { s.sail with entry := smapSet s.sail.entry 0 f 0, cycle := smapSet s.sail.cycle 0 f 0,
                                          held := s.sail.held.filter (fun h => h.1 != f || (sailingOf s f h.2.1 (h.2.2 % 65536)).isSome),
                                          sailings := s.sail.sailings.filter (fun x => x.f != f || x.live) }) f
    else (s.put F.ferryStatus_STATE 5 f).put F.ferryStatus_REJECT_REASON k f

/-- The host clears RUN (R363). -/
def ferryHalt (s : State) (f : Nat) : State :=
  ferryShow (s.put F.ferryCtrl_RUN 0 f) f

/-! Issuing lines (R360, R361, R370, R403, R404). -/

/-- A line of a sailing read from its source. -/
inductive LineGot where
  | line (l : Line) (s : State)
  | absent (sg ca : Nat)
  | halt (reason ca : Nat)

def readLine (s : State) (c ca : Nat) : LineGot :=
  match resolve s c ca 64 .read [0] with
  | .halt r _ => .halt r ca
  | .absent n => .absent n ca
  | .at_ p => let d := sectorRead s (p.rq s) p.addr; .line d.1 d.2

/-- Up to `n` lines from line `i`, and what stopped them. -/
def readRun (c src : Nat) : Nat → Nat → List Line → State → List Line × Option LineGot × State
  | 0, _, acc, s => (acc, none, s)
  | n + 1, i, acc, s =>
    match readLine s c (src + 64 * i) with
    | .line l s => readRun c src n (i + 1) (acc ++ [l]) s
    | g => (acc, some g, s)

/-- One SAIL_RUN given to the port of the attempt's set with the fewest slots queued (R403); a port that retrains sends it after. Where
the set is empty, or that port is neither ACTIVE nor in RETRAIN, its lines are lost (R373; DEDUCED, log 16). -/
def sendRun (s : State) (x : Sailing) (first : Nat) (ls : List Line) : State :=
  let p := mkPacket (sailFields s x tSailRun ++ [(159, 128, first), (191, 160, x.lines), (203, 192, ls.length)])
  let up (q : Nat) : Bool := s.get F.fabPortStatus_STATE q == 2 || s.get F.fabPortStatus_STATE q == 3
  match (leastQueued s x.ports).filter up with
  | some q => sendOn s q p ls
  | none => runLost s p

/-- A ferry's halt of its owner (R360): the sailing aborts with 0x26 first. -/
def sailHalt (s : State) (x : Sailing) (reason ca : Nat) : State := halt (abortSailing s x 0x26) x.ctx reason ca none none

/-- Lines issued in runs of at most 4,095 while the window allows. -/
def issueRuns : Nat → State → Sailing → State
  | 0, s, _ => s
  | n + 1, s, x =>
    let upto := min x.lines x.limit
    if upto ≤ x.sent then s
    else
      let r := readRun x.ctx x.src (min 4095 (upto - x.sent)) x.sent [] s
      match r.2.1 with
      | some (.halt reason ca) => sailHalt r.2.2 x reason ca
      | some (.absent sg ca) =>
        let s := segNote r.2.2 x.ctx sg ca (ferryUnit x.f)
        ferryShow (updSailing s x (fun y => { y with st := .cutting, segWait := some (sg, ca), segStart := s.ns })) x.f
      | _ =>
        let s := r.2.2
        let x' := { x with sent := x.sent + r.1.length, last := s.tideNow }
        let s := sendRun (updSailing s x (fun _ => x')) x x.sent r.1
        if s.sail.sailings.any (fun y => y == x') then issueRuns n s x' else s

/-- A sailing's lines issued; one of no lines is one run of no lines (R368; DEDUCED, log 25). -/
def issueLines (s : State) (x : Sailing) : State :=
  if x.lines = 0 then sendRun (updSailing s x (fun y => { y with last := s.tideNow })) x 0 []
  else issueRuns (x.lines / 4095 + 2) s x

/-- The port set of an attempt (R403). -/
def attemptPorts (s : State) (f entry : Nat) : List Nat :=
  let m := s.get F.ferryRoute_PORT_MASK f (s.get F.tt_ROUTE f entry)
  (openPorts s).filter (fun p => m == 0 || m.testBit p)

/-- An attempt begins from line 0. -/
def beginAttempt (s : State) (x : Sailing) : State :=
  let x' := { x with sent := 0, limit := 8192, ports := attemptPorts s x.f x.entry, st := .sailing, segWait := none }
  ferryShow (issueLines (updSailing s x (fun _ => x')) x') x.f

/-! Departures (R357 to R360, R364). -/

/-- The due count of an entry in a cycle. -/
def dueCount (s : State) (f e k : Nat) : Nat :=
  (s.get F.ferryEpoch_EPOCH f + (k * s.get F.ferryPeriod_PERIOD f + s.get F.tt_DEPART f e) * 1024) % 2 ^ 64

/-- The entry a ferry considers: a sailing back in WAITING, else the next entry while RUN is 1 (R358). -/
def considered (s : State) (f : Nat) : Option Sailing :=
  match (liveSailings s f).find? (fun x => x.st == .waiting) with
  | some x => some x
  | none =>
    if s.isSet F.ferryCtrl_RUN f && !(liveSailings s f).any (fun y => sailingIs (nextSailing s f) y) then some (nextSailing s f) else none

/-- Whether a sailing has departed before. -/
def departed (s : State) (x : Sailing) : Bool := s.sail.sailings.any (fun y => sailingIs x y && y.live)

/-- The condition's bollard has reached its target. -/
def condMet (s : State) (f e k : Nat) : Bool :=
  let c := s.get F.tt_COND f e
  c == 0x3F
    || decide ((s.get F.ferryCond_BASE f c + k * s.get F.ferryCond_STEP f c) % 2 ^ 64 ≤ bolValue s (s.get F.ferryCond_BOLLARD f c))

def gateOf (s : State) (f e : Nat) : Fld := F.ferryGates_TOKENS (s.get F.tt_GATE f e)

/-- A gate with a token, where the entry takes one; a new attempt takes no second token (DEDUCED, log 26). -/
def gateMet (s : State) (x : Sailing) : Bool :=
  departed s x || !s.isSet F.tt_GATE_EN x.f x.entry || decide (0 < s.get (gateOf s x.f x.entry) x.f)

/-- Whether its source segment is applied again, where a fault of R361 sent it back. -/
def segBack (s : State) (x : Sailing) : Bool :=
  match x.segWait with
  | none => true
  | some sg => (smapFind s.mem.seg (x.ctx * 16 + sg.1)).any (fun g => g.present)

/-- Whether the ferry issues a sailing now. -/
def issuing (s : State) (f : Nat) : Bool :=
  (liveSailings s f).any (fun x => x.st == .cutting || (x.st == .sailing && decide (x.sent < x.lines)))

/-- Whether the tide lets a ferry depart (R357, R364). -/
def tideLets (s : State) (f : Nat) : Bool :=
  s.isSet F.tideLock_VALID && !(tideState s == tLost && s.isSet F.ferryCtrl_LOST_ACTION f)

/-- Whether a ferry is in service with its domain ON (R488, Table 15.2). -/
def ferryUp (s : State) (f : Nat) : Bool := unitUp s (ferryUnit f) && s.domOn (domOfEngines (f / 8))

/-- Slots of lateness allowed; none for 0xFF. -/
def lateLimit (s : State) (f e : Nat) : Option Nat := let l := s.get F.tt_LATE_LIMIT f e; if l = 0xFF then none else some l

/-- Whether slot boundary `copy` is past the limit of an entry due at `due`. -/
def pastLimit (s : State) (x : Sailing) (copy : Nat) : Bool :=
  (lateLimit s x.f x.entry).any (fun l => decide (dueCount s x.f x.entry x.cycle / 1024 + l < copy / 1024))

/-- Whether an entry departs at a slot boundary of its ferry's copy (R357, R359, R374). -/
def mayDepart (s : State) (x : Sailing) (copy : Nat) : Bool :=
  let spaced := !departed s x || decide (x.last + 32768 ≤ s.tideNow)
  (copy % 1024 == 0 && copyOk s (ferryUnit x.f) copy && decide (dueCount s x.f x.entry x.cycle ≤ copy))
    && (tideLets s x.f && condMet s x.f x.entry x.cycle && gateMet s x && segBack s x)
    && (ferryUp s x.f && !issuing s x.f && spaced)
    && (decide ((liveSailings s x.f).length < 4) || departed s x)
    && !(s.isSet F.tt_MISS_ACTION x.f x.entry && pastLimit s x copy)

/-- A sailing back in WAITING departs as a new attempt (R361, R369), LINES from its header where its entry says so (R360). -/
def redepart (s : State) (x : Sailing) : State :=
  let s := if x.segWait.isSome then s.bumpSat F.ferryExc_REPLAYED 1 x.f else s
  let s := dropHeld s x.f x.entry x.cycle
  if s.isSet F.tt_LEN_FROM_HEADER x.f x.entry then
    match readLine s x.ctx x.src with
    | .line l s => beginAttempt s { x with lines := leAt l.2 4 4 }
    | .halt r ca => sailHalt s x r ca
    | .absent sg ca =>
      let s := segNote s x.ctx sg ca (ferryUnit x.f)
      ferryShow (updSailing s x (fun y => { y with sent := 0, st := .cutting, segWait := some (sg, ca), segStart := s.ns, last := s.tideNow })) x.f
  else beginAttempt s x

/-- An entry departs for the first time: its gate token, LINES from its header where it says so (R360), its sailing. -/
def firstDepart (s : State) (x : Sailing) : State :=
  let s := if s.isSet F.tt_GATE_EN x.f x.entry then s.put (gateOf s x.f x.entry) (s.get (gateOf s x.f x.entry) x.f - 1) x.f else s
  let ports := attemptPorts s x.f x.entry
  let add (s : State) (x : Sailing) : State :=
    ferryAdvance { s with sail := { s.sail with sailings := s.sail.sailings ++ [x] } } x.f
  if s.isSet F.tt_LEN_FROM_HEADER x.f x.entry then
    match readLine s x.ctx x.src with
    | .line l s =>
      let x := { x with lines := leAt l.2 4 4, ports := ports }
      ferryShow (issueLines (add s x) x) x.f
    | .halt r ca => sailHalt (add s { x with ports := ports }) x r ca
    | .absent sg ca =>
      let s := segNote s x.ctx sg ca (ferryUnit x.f)
      ferryShow (add s { x with ports := ports, st := .cutting, segWait := some (sg, ca), segStart := s.ns, last := s.tideNow }) x.f
  else
    let x := { x with ports := ports }
    ferryShow (issueLines (add s x) x) x.f

/-- A departure at a slot boundary, LATE counted (R359). -/
def depart (s : State) (x : Sailing) (copy : Nat) : State :=
  let s := if dueCount s x.f x.entry x.cycle / 1024 < copy / 1024 then s.bumpSat F.ferryCount_LATE 1 x.f else s
  let s := ungate s (ferryUnit x.f)
  if departed s x then redepart s x else firstDepart s x

/-- FERRY_DEPART (R357, R358, R360). -/
def execFerryDepart (f copy : Nat) (s : State) : Out :=
  if f < 32 then
    match considered s f with
    | none => ok s
    | some x => if mayDepart s x copy then ok (depart s x copy) else ok s
  else .fault .noSuchUnit

/-- Whether an entry waits past its limit at slot boundary `copy`: 0x0B10 under HOLD as the boundary would exceed the limit, the
miss under SKIP at the limit. -/
def limitAt (s : State) (x : Sailing) (copy : Nat) : Bool :=
  copy % 1024 == 0 && copyOk s (ferryUnit x.f) copy
    && (lateLimit s x.f x.entry).any (fun l => decide (dueCount s x.f x.entry x.cycle / 1024 + l ≤ copy / 1024))

/-- FERRY_LATE_HOLD (R359): an entry held beyond LATE_LIMIT. -/
def execFerryLateHold (f copy : Nat) (s : State) : Out :=
  if f < 32 then
    match considered s f with
    | none => ok s
    | some x =>
      if limitAt s x copy && !s.isSet F.tt_MISS_ACTION f x.entry && !mayDepart s x copy && !s.sail.held.contains (f, x.entry, x.cycle) then
        let s := { s with sail := { s.sail with held := s.sail.held ++ [(f, x.entry, x.cycle)] } }
        ok (ferryShow (post s (ferryUnit f) (some x.ctx) 0 0x0B10 (sailExtra x.entry x.cycle 0)) f)
      else ok s
  else .fault .noSuchUnit

/-- A missed entry (R359): the notice, record 0x0B11, MISSED; the ferry goes on to its next entry. -/
def missEntry (s : State) (x : Sailing) : State :=
  let s := ferrySend s x.f (mkPacket (sailFields s x tMissed))
  let s := post s (ferryUnit x.f) (some x.ctx) 0 0x0B11 (sailExtra x.entry x.cycle 0)
  let s := s.bumpSat F.ferryCount_MISSED 1 x.f
  if departed s x then
    let s := dropHeld s x.f x.entry x.cycle
    ferryShow { s with sail := { s.sail with sailings := s.sail.sailings.filter (fun y => !sailingIs x y) } } x.f
  else ferryShow (ferryAdvance s x.f) x.f

/-- FERRY_MISS (R359): an entry under SKIP that has not departed by its limit. -/
def execFerryMiss (f copy : Nat) (s : State) : Out :=
  if f < 32 then
    match considered s f with
    | none => ok s
    | some x => if limitAt s x copy && s.isSet F.tt_MISS_ACTION f x.entry && !mayDepart s x copy then ok (missEntry s x) else ok s
  else .fault .noSuchUnit

/-! Outcomes at the sender (R369, R371, R373, R374). -/

/-- The LAND_ACK has reached the arbiter first (R371). -/
def completeSailing (s : State) (x : Sailing) : State :=
  let s := updSailing s x (fun y => { y with st := .complete })
  let s := ferrySend s x.f (mkPacket (sailFields s x tSettle))
  ferryShow ((settleBollard s x).bump F.ferryCount_SAILED 1 x.f) x.f

/-- The live sailing a packet of its receiver names, on its current attempt (R374). -/
def sailingFor (s : State) (p : Packet) : Option Sailing :=
  match sailingOf s (pkFerry p) (pkEntry p) (pkCycleLo p) with
  | some x => if x.attempt % 4 = pkAttempt p ∧ x.node = pkSrc p ∧ x.st ≠ .waiting then some x else none
  | none => none

/-- A LAND_ACK. -/
def landAckIn (s : State) (p : Packet) : State := match sailingFor s p with | some x => completeSailing s x | none => s

/-- LAND_ACK_RECEIVE (R371). -/
def execLandAckReceive (p : Packet) (s : State) : Out := if pkType p = tLandAck then ok (landAckIn s p) else ok s

/-- A TURN_BACK: a permanent refusal aborts the sailing; another sends it back to WAITING as a new attempt (R369). -/
def turnBackIn (s : State) (p : Packet) : State :=
  match sailingFor s p with
  | none => s
  | some x =>
    let r := pkReason p
    if 1 ≤ r ∧ r ≤ 5 then abortSailing s x r
    else if 0x10 ≤ r ∧ r ≤ 0x13 then
      ferryShow ((updSailing s x (fun y => { y with st := .waiting, attempt := y.attempt + 1 })).bumpSat F.ferryExc_TURNED_BACK 1 x.f) x.f
    else s

/-- TURN_BACK_RECEIVE (R369). -/
def execTurnBackReceive (p : Packet) (s : State) : Out := if pkType p = tTurnBack then ok (turnBackIn s p) else ok s

/-- A WINDOW (R404): the limit rises and further lines leave. -/
def windowIn (s : State) (p : Packet) : State :=
  match s.sail.sailings.find? (fun x => x.st == .sailing && x.node == pkSrc p && x.berth == pkBerth p && x.attempt % 4 == pkAttempt p) with
  | none => s
  | some x =>
    let x' := { x with limit := max x.limit (pf p 95 64) }
    let s := updSailing s x (fun _ => x')
    if ferryUp s x.f ∧ x'.lines ≠ 0 then ferryShow (issueLines s x') x.f else s

/-- WINDOW_RECEIVE (R404). -/
def execWindowReceive (p : Packet) (s : State) : Out := if pkType p = tWindow then ok (windowIn s p) else ok s

/-- A ferry's sailing named by its entry and cycle. -/
def withSailing (s : State) (f entry cycleLo : Nat) (k : Sailing → State) : Out :=
  if f < 32 then
    match sailingOf s f entry cycleLo with
    | none => ok s
    | some x => ok (k x)
  else .fault .noSuchUnit

/-- ACK_LIMIT_EXPIRE (R367): no LAND_ACK within ACK_LIMIT_US of the last line. -/
def execAckLimitExpire (f entry cycleLo : Nat) (s : State) : Out :=
  withSailing s f entry cycleLo (fun x => if x.st = .sailing ∧ x.sent = x.lines then abortSailing s x 0x24 else s)

/-- SAILING_CUT (R373): lines of the attempt were lost. -/
def execSailingCut (f entry cycleLo : Nat) (s : State) : Out := withSailing s f entry cycleLo (cutSailing s)

/-- A cut ends (R361, R373): CUT is sent; a cut of R373 replays from line 0 at once, one of R361 waits for its segment. -/
def endCut (s : State) (x : Sailing) : State :=
  let s := ferrySend s x.f (mkPacket (sailFields s x tCut))
  let x' := { x with attempt := x.attempt + 1 }
  match x.segWait with
  | some _ => ferryShow (updSailing s x (fun _ => { x' with st := .waiting })) x.f
  | none =>
    let s := s.bumpSat F.ferryExc_REPLAYED 1 x.f
    let s := post s (ferryUnit x.f) (some x.ctx) 0 0x0B15 (sailExtra x.entry x.cycle 0)
    beginAttempt (updSailing s x (fun _ => x')) x'

/-- The slot boundary a unit's copy may read now, where one lies within two ticks. -/
def boundaryNear (s : State) : Option Nat :=
  let b := (s.tideNow + 2) / 1024 * 1024
  if s.tideNow ≤ b + 2 then some b else none

/-- Whether a port still holds lines of a sailing's current attempt, neither acknowledged nor lost (R361, R373). -/
def linesOut (s : State) (x : Sailing) : Bool :=
  let own (k : SentPkt) : Bool := pkType k.p == tSailRun && pkSrc k.p == thisNode s && pkFerry k.p == x.f && pkEntry k.p == x.entry
    && pkCycleLo k.p == x.cycle % 65536 && pkAttempt k.p == x.attempt % 4
  s.fab.port.any (fun px => (px.2.replay.flatMap (fun k => k.pkts) ++ px.2.queue).any own)

/-- ATTEMPT_RESTART (R361, R373, R374): once a cut sailing's lines are all acknowledged or lost, or a sailing in WAITING departs again. -/
def execAttemptRestart (f entry cycleLo : Nat) (s : State) : Out :=
  withSailing s f entry cycleLo (fun x =>
    if x.st = .cutting then (if linesOut s x then s else endCut s x)
    else if x.st = .waiting then
      match boundaryNear s with
      | some b => if mayDepart s x b then depart s x b else s
      | none => s
    else s)

/-- SOURCE_SEGMENT_TIMEOUT (R361): the source segment stayed not PRESENT beyond LIMIT_MS. -/
def execSourceSegmentTimeout (f entry cycleLo : Nat) (s : State) : Out :=
  withSailing s f entry cycleLo (fun x =>
    match x.segWait with
    | some sg => if s.get F.segFaultLimit_LIMIT_MS = 0 ∨ segBack s x then s else halt (abortSailing s x 0x27) x.ctx 0x44 sg.2 none none
    | none => s)

/-! FERRY_ABORT (R372, R375). -/

/-- RESULT and DONE_SEQ of a request. -/
def abortAnswer (s : State) (f seq result : Nat) : State :=
  (s.put F.ferryAbort_RESULT result f).put F.ferryAbort_DONE_SEQ seq f

/-- Whether the next entry is the sailing named, in a running ferry. -/
def entryWaits (s : State) (f entry cycleLo : Nat) : Bool :=
  s.isSet F.ferryCtrl_RUN f && smapGet s.sail.entry 0 f == entry && smapGet s.sail.cycle 0 f % 65536 == cycleLo

/-- A single abort request. -/
def abortOne (s : State) (f entry cycleLo seq : Nat) : State :=
  match sailingOf s f entry cycleLo with
  | some x => abortAnswer (abortSailing s x 0x21) f seq 0
  | none =>
    if entryWaits s f entry cycleLo then
      let x := nextSailing s f
      let s := abortSailing { s with sail := { s.sail with sailings := s.sail.sailings ++ [x] } } x 0x21
      abortAnswer (ferryShow (ferryAdvance s f) f) f seq 0
    else
      match s.sail.sailings.find? (fun x => x.f == f && x.entry == entry && x.cycle % 65536 == cycleLo) with
      | some x => abortAnswer s f seq (if x.st = .complete then 1 else 2)
      | none => abortAnswer s f seq 3

/-- An ALL request. -/
def abortAllOf (s : State) (f seq : Nat) : State := abortAnswer (abortFerry s f 0x21) f seq 4

end Sys2Proof.Machine
end

