-- ==== Sys2Proof/Machine/Landing.lean ====
section
/-! DEFINITION. Berths and landings: the receiver of sailings (11: R366 to R370, R374, R376; 12: R404, R407). -/

namespace Sys2Proof.Machine

def Berth.none_ : Berth := ⟨0, 0, 0, 0, none, [], none, 0, 0, 0, none⟩

def berthRec (s : State) (b : Nat) : Berth := (smapFind s.sail.berth b).getD Berth.none_

def setBerth (s : State) (b : Nat) (x : Berth) : State := { s with sail := { s.sail with berth := smapInsert s.sail.berth b x } }

/-- Fields of a berth in force (Table 11.18). -/
def Berth.region (x : Berth) : Nat := x.word0 % 2 ^ 48
def Berth.owner (x : Berth) : Nat := x.word1 % 4096
def Berth.valid (x : Berth) : Bool := x.word1.testBit 12
def Berth.anyFerry (x : Berth) : Bool := x.word1.testBit 13
def Berth.srcFerry (x : Berth) : Nat := bitsOf x.word1 18 14
def Berth.srcNode (x : Berth) : Nat := bitsOf x.word1 47 32
def Berth.landBollard (x : Berth) : Nat := bitsOf x.word2 13 0
def Berth.freeBollard (x : Berth) : Nat := bitsOf x.word2 29 16
def Berth.freeEn (x : Berth) : Bool := x.word2.testBit 30
def Berth.maxLines (x : Berth) : Nat := x.word3 % 2 ^ 32

/-- States of Table 11.19. -/
def bClosed : Nat := 0
def bOpen : Nat := 1
def bReceiving : Nat := 2
def bPending : Nat := 3
def bFull : Nat := 4

def berthState (s : State) (b : Nat) : Nat := s.get F.berthStatus_STATE b

/-- The attempt expected of a sailing: 0 for one not met (R374). -/
def expected (x : Berth) (k : SailKey) : Nat := ((x.met.find? (fun m => m.1 == k)).map Prod.snd).getD 0

/-- ATTEMPT shown for the sailing being received. -/
def showAttempt (s : State) (b : Nat) : State :=
  let x := berthRec s b
  s.put F.berthStatus_ATTEMPT (match x.cur with | some k => expected x k % 256 | none => 0) b

/-- A berth's record and state stored. -/
def putBerth (s : State) (b : Nat) (x : Berth) (st : Nat) : State := showAttempt ((setBerth s b x).put F.berthStatus_STATE st b) b

/-- A sailing met: the attempt expected of it; what was remembered of the one settled last is forgotten. -/
def meet (x : Berth) (k : SailKey) (n : Nat) : Berth :=
  let keep := x.met.filter (fun m => m.1 != k && some m.1 != x.done)
  { x with met := keep ++ [(k, n)], done := none }

/-! The reorder store (R404, R488). -/

def keyOf (p : Packet) : SailKey := ⟨pkSrc p, pkFerry p, pkEntry p, pkCycleLo p⟩

/-- Lines of a 512 KiB share, and of a tile's 8 MiB. -/
def shareLines : Nat := 8192
def tileLines : Nat := 131072

/-- Attempts being received, and the tiles whose part of the store is ON. -/
def receivers (s : State) : List Nat := (s.sail.berth.map Prod.fst).filter (fun b => berthState s b == bReceiving)
def receiving (s : State) : Nat := (receivers s).length
def storeTiles (s : State) : Nat := ((List.range 4).filter (fun t => s.domOn (domOfEngines t))).length

/-- Lines the store holds, of all attempts and of a berth's. -/
def storeHeld (s : State) (own : EarlyRun → Bool) : Nat :=
  ((s.sail.reorder.filter (fun r => r.stored && own r)).map (fun r => r.lines.length)).foldl (· + ·) 0
def storeUsed (s : State) : Nat := storeHeld s (fun _ => true)
def storedOf (s : State) (b : Nat) : Nat := storeHeld s (fun r => pkBerth r.p == b)

/-- Whether `n` lines of a berth's attempt have room: within its share, or with the other attempts' shares kept free. -/
def storeFits (s : State) (b n : Nat) : Bool :=
  let all := storeTiles s * tileLines
  let others := ((receivers s).filter (fun x => x != b)).foldl (fun k x => k + (shareLines - storedOf s x)) 0
  decide (storeUsed s + n ≤ all) && (decide (storedOf s b + n ≤ shareLines) || decide (storeUsed s + n + others ≤ all))

/-- A run that waits in its port's buffer enters the store, its credits returned. -/
def storeRun (s : State) (r : EarlyRun) : State :=
  if r.stored || !storeFits s (pkBerth r.p) r.lines.length then s
  else
    let s := { s with sail := { s.sail with reorder := updWhere s.sail.reorder (fun y => y == r) (fun y => { y with stored := true, owed := 0 }) } }
    if r.owed = 0 then s else linkSend s r.port (.credit r.owed)

/-- Runs taken out of the store or of their ports' buffers; those that wait go in. -/
def takeRuns (s : State) (gone : EarlyRun → Bool) : State :=
  let owing := s.sail.reorder.filter (fun r => gone r && r.owed != 0)
  let s := { s with sail := { s.sail with reorder := s.sail.reorder.filter (fun r => !gone r) } }
  let s := owing.foldl (fun s r => linkSend s r.port (.credit r.owed)) s
  s.sail.reorder.foldl storeRun s

/-- The words of a berth applied (R366): a write to word 1. The attempts expected of sailings stay (R374). -/
def berthApplyNow (s : State) (b w0 w1 w2 w3 : Nat) : State :=
  let old := berthRec s b
  let x : Berth := { Berth.none_ with word0 := w0, word1 := w1, word2 := w2, word3 := w3, met := old.met, done := old.done }
  let s := takeRuns s (fun r => pkBerth r.p == b)
  if x.valid then (putBerth s b x bOpen).put F.berthStatus_LANDED 0 b else putBerth s b x bClosed

/-- The bits of word 1 that are fields. -/
def berthWord1 (v : Nat) : Nat := v % 2 ^ 19 + bitsOf v 47 32 * 2 ^ 32

/-- A write to word 1: at once, or after the pending sailing settles. -/
def berthWrite (s : State) (b v : Nat) : State :=
  let v := berthWord1 v
  let s := s.setWord .berth b 0 1 v
  let w (i : Nat) : Nat := s.word .berth b 0 i
  if berthState s b = bPending ∧ v.testBit 12 then setBerth s b { berthRec s b with later := some (w 0, v, w 2, w 3) }
  else berthApplyNow s b (w 0) v (w 2) (w 3)

/-- BERTH_APPLY (R366). -/
def execBerthApply (b word1 : Nat) (s : State) : Out :=
  if b < 4096 then bar0 s (berthWrite (wideWrite s .berth b 0 1) b word1) else .fault .noSuchUnit

/-- A berth without a sailing: OPEN, or the write that waited (R366). -/
def berthNext (s : State) (b : Nat) (x : Berth) (st : Nat) : State :=
  match x.later with
  | some w => berthApplyNow (putBerth s b { x with later := none } st) b w.1 w.2.1 w.2.2.1 w.2.2.2
  | none => putBerth s b x st

/-! Answers. -/

/-- A packet back to a sailing's sender, its fields returned. -/
def answer (s : State) (p : Packet) (ty : Nat) (more : List (Nat × Nat × Nat)) : Packet :=
  mkPacket ([(7, 0, ty), (31, 16, pkSrc p), (47, 32, thisNode s), (59, 48, pkBerth p), (61, 60, pkAttempt p), (68, 64, pkFerry p),
    (91, 80, pkEntry p), (107, 92, pkCycleLo p)] ++ more)

/-- A record at the receiver under the berth's OWNER (R377); none for a berth that is not VALID. -/
def landPost (s : State) (b : Nat) (p : Packet) (code reason : Nat) : State :=
  let x := berthRec s b
  post s noUnit (if x.valid then some x.owner else none) 0 code (sailExtra (pkEntry p) (pkCycleLo p) reason)

/-- Early runs of a sailing discarded. -/
def dropEarly (s : State) (b : Nat) (k : SailKey) : State := takeRuns s (fun r => pkBerth r.p == b && keyOf r.p == k)

/-- A refusal (R369): the attempt's lines discarded, TURN_BACK sent; the next attempt is expected after a turn-back (R374), while a
permanent refusal leaves the one expected for the settle that follows. A sailing being received stays so. -/
def refuseRun (s : State) (port b : Nat) (p : Packet) (reason : Nat) : State :=
  let x := berthRec s b
  let k := keyOf p
  let n := expected x k
  let x := meet x k (if 0x10 ≤ reason then n + 1 else n)
  let x := if x.cur = some k then { x with landed := 0, limit := 0 } else x
  let s := dropEarly (showAttempt (setBerth s b x) b) b k
  fabReply s port (answer s p tTurnBack [(115, 108, reason)])

/-! Runs (R369, R370, R404). -/

/-- How `n` lines in one segment resolve: the refusal, and the absent segment with the line's address. -/
def linesCheck (s : State) (c ca n : Nat) : Option Nat × Option (Nat × Nat) :=
  match resolve s c ca (64 * n) .write [0] with
  | .halt _ _ => (some 0x05, none)
  | .absent sg =>
    match smapFind s.mem.seg (c * 16 + sg) with
    | some g => if g.w && g.target == 0 then (none, some (sg, ca)) else (some 0x05, none)
    | none => (some 0x05, none)
  | .at_ _ => (none, none)

/-- Lines from an address that resolve in one segment: up to its end, and up to the next segment's start. -/
def linesAlike (s : State) (c ca n : Nat) (g : Seg) : Nat :=
  (s.mem.seg.filter (fun kg => kg.1 / 16 == c && decide (ca < kg.2.vbase))).foldl (fun m kg => min m (cdiv (kg.2.vbase - ca) 64))
    (min n ((g.vbase + g.len - ca) / 64))

/-- How the lines of a landing resolve, line by line (R305, R369). -/
def regionWalk (s : State) (c : Nat) : Nat → Nat → Nat → Option Nat × Option (Nat × Nat)
  | 0, _, n => if n = 0 then (none, none) else (some 0x05, none)
  | k + 1, ca, n =>
    if n = 0 then (none, none)
    else
      match segOf s c ca with
      | none => (some 0x05, none)
      | some (_, g) =>
        let m := linesAlike s c ca n g
        if m = 0 then (some 0x05, none)
        else
          let r := linesCheck s c ca m
          let rest := regionWalk s c k (ca + 64 * m) (n - m)
          if r.1.isSome then r else if rest.1.isSome then rest else (none, r.2 <|> rest.2)

/-- How the region of a landing resolves: none where it may be written, else the refusal. A context's sixteen segments begin and end at
no more than 32 places. -/
def regionCheck (s : State) (x : Berth) (n : Nat) : Option Nat × Option (Nat × Nat) := regionWalk s x.owner 33 x.region n

/-- The checks of Table 11.21 in order: the reason of the first that fails, and the absent segment. -/
def landChecks (s : State) (b : Nat) (p : Packet) : Option Nat × Option (Nat × Nat) :=
  let x := berthRec s b
  let lines := pf p 191 160
  let rg := regionCheck s x lines
  if !x.valid then (some 0x01, none)
  else if pkSrc p != x.srcNode || !(x.anyFerry || pkFerry p == x.srcFerry) then (some 0x02, none)
  else if x.maxLines < lines then (some 0x03, none)
  else if !bolOwned s x.landBollard x.owner || (x.freeEn && !bolOwned s x.freeBollard x.owner) then (some 0x04, none)
  else if rg.1.isSome then rg
  else if berthState s b != bOpen && x.cur != some (keyOf p) then (some 0x10, none)
  else if rg.2.isSome then (some 0x11, rg.2)
  else if berthState s b = bOpen && decide (16 * storeTiles s ≤ receiving s) then (some 0x13, none)
  else (none, none)

/-- A refused check's effect, with its record where the segment is absent (R306). -/
def refuseBy (s : State) (port b : Nat) (p : Packet) (r : Nat) (sg : Option (Nat × Nat)) : State :=
  let s := match sg with
    | some (n, ca) => segNote s (berthRec s b).owner n ca (unitId 0xE port)
    | none => s
  refuseRun s port b p r

/-- Lines of a run written in order at REGION + 64 × i, poison with them (R370, R274); the refusal of the first that fails, and its
address. -/
def landLines (s : State) (x : Berth) (first : Nat) (ls : List Line) : Option (Nat × Nat) × State :=
  ls.zipIdx.foldl (fun acc li =>
    match acc.1 with
    | some r => (some r, acc.2)
    | none =>
      let ca := x.region + 64 * (first + li.2)
      match resolve acc.2 x.owner ca 64 .write [0] with
      | .at_ q => (none, sectorWrite acc.2 (q.rq acc.2) q.addr li.1.2 li.1.1)
      | .absent _ => (some (0x11, ca), acc.2)
      | .halt _ _ => (some (0x05, ca), acc.2)) (none, s)

/-- Lines of the store that the other attempts' windows leave free, each taken as 512 KiB at least. -/
def shareFree (s : State) (b : Nat) : Nat :=
  ((receivers s).filter (fun x => x != b)).foldl (fun n x => n - max shareLines ((berthRec s x).limit - (berthRec s x).landed))
    (storeTiles s * tileLines)

/-- A WINDOW (R404): 512 KiB at least, and the limit never falls. -/
def sendWindow (s : State) (port b : Nat) (p : Packet) : State :=
  let x := berthRec s b
  let lim := max x.limit (x.landed + max shareLines (min 262144 (shareFree s b)))
  let s := setBerth s b { x with limit := lim }
  fabReply s port (mkPacket [(7, 0, tWindow), (31, 16, pkSrc p), (47, 32, thisNode s), (59, 48, b), (61, 60, pkAttempt p), (95, 64, lim)])

/-- After a run: the last line sends LAND_ACK and the berth is PENDING; else WINDOW packets as R404 gives. -/
def afterRun (s : State) (port b : Nat) (p : Packet) (before : Nat) : State :=
  let x := berthRec s b
  if pf p 191 160 ≤ x.landed then
    let s := putBerth s b x bPending
    fabReply s port (answer s p tLandAck [(159, 128, x.landed)])
  else if before = 0 ∨ before / 4096 < x.landed / 4096 then sendWindow s port b p
  else s

/-- A run at the in-order point performed. -/
def performRun (s : State) (port b : Nat) (p : Packet) (ls : List Line) : State :=
  let x := berthRec s b
  let r := landLines s x x.landed ls
  match r.1 with
  | some (c, ca) => refuseBy r.2 port b p c (if c = 0x11 then (segOf s x.owner ca).map (fun g => (g.1, ca)) else none)
  | none => afterRun (setBerth r.2 b { x with landed := x.landed + ls.length }) port b p x.landed

/-- Held runs that the in-order point has reached. -/
def performEarly : Nat → State → Nat → Nat → SailKey → State
  | 0, s, _, _, _ => s
  | n + 1, s, port, b, k =>
    match s.sail.reorder.find? (fun r => pkBerth r.p == b && keyOf r.p == k && pf r.p 159 128 == (berthRec s b).landed) with
    | none => s
    | some r =>
      let s := takeRuns s (fun y => y == r)
      performEarly n (performRun s port b r.p r.lines) port b k

/-- A SAIL_RUN (R367, R369, R374, R376, R404, R407); `owed` are the link credits its data slots owe while it waits for the store. A node
that resets turns every attempt back and expects the next. -/
def sailRunIn (s : State) (port : Nat) (p : Packet) (ls : List Line) (owed : Nat := 0) : State :=
  let b := pkBerth p
  let k := keyOf p
  let x := berthRec s b
  if !s.isSet F.fabNode_READY then fabReply (setBerth s b (meet x k (pkAttempt p + 1))) port (answer s p tTurnBack [(115, 108, 0x12)])
  else if expected x k % 4 ≠ pkAttempt p then s
  else if x.cur = some k ∧ berthState s b = bReceiving ∧ pf p 159 128 < x.landed then s
  else if x.cur = some k ∧ berthState s b = bPending then s
  else if pf p 159 128 ≠ (if x.cur = some k then x.landed else 0) then
    let fits := storeFits s b ls.length
    { s with sail := { s.sail with reorder := s.sail.reorder ++ [⟨p, ls, port, fits, if fits then 0 else owed⟩] } }
  else
    match landChecks s b p with
    | (some r, sg) => refuseBy s port b p r sg
    | (none, _) =>
      let s :=
        if x.cur = some k then s
        else putBerth s b { meet x k (expected x k) with cur := some k, landed := 0, total := pf p 191 160, limit := 0 } bReceiving
      performEarly (s.sail.reorder.length + 1) (performRun (ungate s (unitId 7 (8 * (port / 4)))) port b p ls) port b k

/-- SAIL_RUN_RECEIVE. -/
def execSailRunReceive (port : Nat) (p : Packet) (lines : List Line) (s : State) : Out :=
  if port < 16 then (if pkType p = tSailRun then ok (sailRunIn s port p lines) else ok s) else .fault .noSuchUnit

/-! CUT, SETTLE, MISSED, NODE_RESET. -/

/-- A CUT of the attempt expected (Table 11.20, R374). -/
def cutIn (s : State) (p : Packet) : State :=
  let b := pkBerth p
  let k := keyOf p
  let x := berthRec s b
  if !s.isSet F.fabNode_READY || decide (expected x k % 4 ≠ pkAttempt p) then s
  else
    let s := dropEarly s b k
    let y := meet x k (expected x k + 1)
    if x.cur = some k then putBerth s b { y with landed := 0, limit := 0 } bReceiving else showAttempt (setBerth s b y) b

/-- CUT_RECEIVE. -/
def execCutReceive (p : Packet) (s : State) : Out := if pkType p = tCut then ok (cutIn s p) else ok s

/-- A berth free of its sailing. -/
def settled (x : Berth) (k : SailKey) : Berth := { x with cur := none, landed := 0, done := some k }

/-- A settle COMPLETE: the landing bollard, LANDED, FULL or OPEN (R366, R367). -/
def landComplete (s : State) (b : Nat) (k : SailKey) : State :=
  let x := berthRec s b
  let s := bolSend (s.bump F.berthStatus_LANDED 1 b) x.landBollard 1
  berthNext s b (settled x k) (if berthFree s b x then bOpen else bFull)

/-- The region of an aborted landing is undefined, over the sailing's lines (R371; log 12). -/
def spoilRegion (s : State) (x : Berth) : State := (List.range x.total).foldl (fun s i => spoilAt x.owner s (x.region + 64 * i) 64) s

/-- A settle ABORTED: record 0x0B14, ABORTS; the berth that was receiving it is OPEN (Table 11.20; R372). -/
def landAborted (s : State) (b : Nat) (p : Packet) : State :=
  let x := berthRec s b
  let k := keyOf p
  let s := (landPost s b p 0x0B14 (pkReason p)).bumpSat F.berthStatus_ABORTS 1 b
  let s := dropEarly s b k
  if x.cur = some k then berthNext (spoilRegion s x) b (settled x k) bOpen else setBerth s b { x with done := if x.met.any (fun m => m.1 == k) then some k else x.done }

/-- A SETTLE of the attempt expected (R374). -/
def settleIn (s : State) (p : Packet) : State :=
  let b := pkBerth p
  let k := keyOf p
  let x := berthRec s b
  if !s.isSet F.fabNode_READY || decide (expected x k % 4 ≠ pkAttempt p) then s
  else if pf p 116 116 = 1 then landAborted s b p
  else if x.cur = some k ∧ berthState s b = bPending then landComplete s b k
  else s

/-- SETTLE_RECEIVE. -/
def execSettleReceive (p : Packet) (s : State) : Out := if pkType p = tSettle then ok (settleIn s p) else ok s

/-- A missed notice: record 0x0B12, nothing else (R359). -/
def missedIn (s : State) (p : Packet) : State := landPost s (pkBerth p) p 0x0B12 0

/-- MISSED_RECEIVE. -/
def execMissedReceive (p : Packet) (s : State) : Out := if pkType p = tMissed then ok (missedIn s p) else ok s

/-- An attempt whose sender's node reports a reset (R376): dropped, record 0x0B14 with reason 0x20; the berth that received it is OPEN. -/
def berthReset (s : State) (b : Nat) (k : SailKey) : State :=
  let x := berthRec s b
  let s := dropEarly (post s noUnit (some x.owner) 0 0x0B14 (sailExtra k.entry k.cycleLo 0x20)) b k
  if x.cur = some k then berthNext (spoilRegion s x) b (settled x k) bOpen else s

/-- Attempts in progress from a node: those received, and those of which only early runs have come. -/
def attemptsFrom (s : State) (n : Nat) : List (Nat × SailKey) :=
  let cur := s.sail.berth.filterMap (fun kb => kb.2.cur.bind (fun k => if k.node = n then some (kb.1, k) else none))
  let early := (s.sail.reorder.filter (fun r => pkSrc r.p == n)).map (fun r => (pkBerth r.p, keyOf r.p))
  early.foldl (fun l x => if l.contains x then l else l ++ [x]) cur

/-- What is remembered of a node's sailings is forgotten (DEDUCED, log 25): after its reset their names begin anew. -/
def forgetNode (s : State) (n : Nat) : State :=
  let drop (x : Berth) : Berth :=
    { x with met := x.met.filter (fun m => m.1.node != n), done := x.done.filter (fun k => k.node != n) }
  { s with sail := { s.sail with berth := s.sail.berth.map (fun kb => (kb.1, drop kb.2)) } }

/-- A NODE_RESET (R407): this node's sailings into the node abort with 0x20; attempts from it are dropped. -/
def nodeResetIn (s : State) (p : Packet) : State :=
  let n := pkSrc p
  let s := (s.sail.sailings.filter (fun x => x.live && x.node == n)).foldl (fun s x => abortSailing s x 0x20) s
  forgetNode ((attemptsFrom s n).foldl (fun s bk => berthReset s bk.1 bk.2) s) n

/-- NODE_RESET_RECEIVE (R407, R376). -/
def execNodeResetReceive (p : Packet) (s : State) : Out := if pkType p = tNodeReset then ok (nodeResetIn s p) else ok s

end Sys2Proof.Machine
end

