-- ==== Sys2Proof/Machine/HostLine.lean ====
section
/-! DEFINITION. The host-line store: its sets, CXL.cache requests, the eviction buffer (R270, R271, R414, R445 to R448, R453). -/

namespace Sys2Proof.Machine

/-- Whether CXL.cache is in use (R414). -/
def cxlInUse (s : State) : Bool := s.hl.cacheEn && s.isSet F.cavCtrl_HOSTLINE_EN

/-- HOST_STATUS CXL_CACHE and capability entry 17 shown (R415). -/
def cxlShow (s : State) : State :=
  (s.put F.hostStatus_CXL_CACHE (if cxlInUse s then 1 else 0)).put F.cap_VALUE (if cxlInUse s then 4194304 else 0) 17

/-- The slice and set of a host line (R271). -/
def hostSet (s : State) (ha : Nat) : Nat × Nat := ((homeOf s ha).1, (homeOf s ha).2 % 16 * 4 + bitsOf ha 7 6)

def setHostLines (s : State) (ls : List HostLine) : State := { s with hl := { s.hl with lines := ls } }

/-- A line the store holds. -/
def hlFind (s : State) (ha : Nat) : Option HostLine := s.hl.lines.find? (fun l => l.ha == ha)

/-- A line replaced and made the most recently used. -/
def hlPut (s : State) (l : HostLine) : State := setHostLines s (s.hl.lines.filter (fun x => x.ha != l.ha) ++ [l])

/-- A line read: the most recently used, or gone where the host granted it in I or delivered it poisoned, for one use (R445, R446). -/
def hlUsed (s : State) (l : HostLine) : State :=
  if l.st = .i then setHostLines s (s.hl.lines.filter (fun x => x.ha != l.ha)) else hlPut s l

/-- Whether a line stands in an eviction buffer (R448). -/
def inEvict (s : State) (ha : Nat) : Bool := s.hl.evict.any (fun e => e.ha == ha)

/-- A CXL.cache message sent from a slice. -/
def cxlSend (s : State) (m : D2H) : State := { s with out := { s.out with cxl := s.out.cxl ++ [((0 : Nat), m)] } }

/-- The evict request of a line's state (Table 13.28). -/
def evictMsg (l : HostLine) : D2H :=
  match l.st with
  | .m => .dirtyEvict l.ha
  | .e => .cleanEvict l.ha
  | _ => .cleanEvictNoData l.ha

/-- A line evicted into its slice's buffer; while the buffer is full, or no request may be issued, it stays (R447 to R449). -/
def hlEvict (s : State) (l : HostLine) : State :=
  let n := (hostSet s l.ha).1
  if s.upstream && decide ((s.hl.evict.filter (fun e => e.slice == n)).length < 8) then
    let s := cxlSend (setHostLines s (s.hl.lines.filter (fun x => x.ha != l.ha))) (evictMsg l)
    { s with hl := { s.hl with evict := s.hl.evict ++ [⟨n, l.ha, l.st, l.data, l.poison, false⟩] } }
  else s

/-- Host lines and reads of lines not yet held that share a line's set: the frames in use. -/
def setUse (s : State) (ha : Nat) : Nat :=
  (s.hl.lines.filter (fun l => hostSet s l.ha == hostSet s ha)).length
    + (s.hl.creq.filter (fun r => hostSet s r.ha == hostSet s ha && (hlFind s r.ha).isNone)).length

/-- A frame made free for a line that is not held: the least recently used of its set is evicted where all four are in use. -/
def hlRoom (s : State) (ha : Nat) : State :=
  if setUse s ha < 4 then s
  else
    match s.hl.lines.find? (fun l => hostSet s l.ha == hostSet s ha && !s.hl.creq.any (fun r => r.ha == l.ha)) with
    | none => s
    | some l => hlEvict s l

/-- Host lines of a slice evicted as far as its buffer takes them (R278). -/
def hlDrain (s : State) (n : Nat) : State :=
  (s.hl.lines.filter (fun l => (hostSet s l.ha).1 == n)).foldl hlEvict s

/-- Slices that drain give up the host lines they still hold, as requests may be issued again (R278). -/
def hlDrainAll (s : State) : State :=
  (List.range 256).foldl (fun s n => if s.get F.cavSliceStatus_STATE n = 1 then hlDrain s n else s) s

/-- Every host line evicted before the store is used again after a function-level reset (R453), as the buffers take them. -/
def hlPurge (s : State) : State :=
  if s.hl.flrEvict then
    let s := s.hl.lines.foldl hlEvict s
    if s.hl.lines.isEmpty then { s with hl := { s.hl with flrEvict := false } } else s
  else s

/-- A request for a line, RdOwn when `own`: issued when none is outstanding, the line is not in an eviction buffer, and a frame is
free; otherwise nothing happens and the access waits (R445, R448). -/
def hlRequest (s : State) (ha : Nat) (own : Bool) : State :=
  if s.hl.flrEvict || inEvict s ha || s.hl.creq.any (fun r => r.ha == ha) || !s.upstream then s
  else
    let s := if (hlFind s ha).isSome then s else hlRoom s ha
    if (hlFind s ha).isNone && decide (4 ≤ setUse s ha) then s
    else
      let s := cxlSend s (if own then .rdOwn ha else .rdShared ha)
      { s with hl := { s.hl with creq := s.hl.creq ++ [⟨ha, own⟩] } }

/-- Whether the block owns a line: it is held in E or M. -/
def hlOwned (s : State) (ha : Nat) : Bool :=
  match hlFind s ha with
  | some l => !s.hl.flrEvict && (l.st == .e || l.st == .m)
  | none => false

/-- Bytes of owned lines written, each line becoming M; lines lie at multiples of 64. -/
def hlWrite (s : State) (ha : Nat) (bs : List Byte) : State :=
  bs.zipIdx.foldl (fun s bi =>
    let a := ha + bi.2
    match hlFind s (a / 64 * 64) with
    | none => s
    | some l => hlPut s { l with st := .m, data := setNth l.data (a % 64) bi.1 }) s

end Sys2Proof.Machine
end

