-- ==== Sys2Proof/Machine/ThreadMem.lean ====
section
/-! DEFINITION. Loads, stores, atomics, fences and cache maintenance of threads (5, 7, 8: R177, R212 to R223, R240 to R254). -/

namespace Sys2Proof.Machine

/-- Widths of a thread access in bytes. -/
def widthOk (w : Nat) : Bool := w == 1 || w == 2 || w == 4 || w == 8

/-- A lane's address: one register in the scratchpad, a pair elsewhere (log 3). -/
def laneAddr (s : State) (t : Th) (sp : Space) (x : Src) (lane : Nat) : Nat :=
  match sp with
  | .scratch => t.reg s x.reg lane
  | _ => t.reg s x.reg lane + t.reg s (x.reg + 1) lane * 2 ^ 32

/-- The sources an access's address comes from. -/
def addrSrcs (sp : Space) (x : Src) : List Src := match sp with | .scratch => [x] | _ => srcPair x true

/-- The registers of sources. -/
def srcRegs (l : List Src) : List Nat := l.map (fun x => x.reg)

/-- A lane's value from one register or a pair, cut to the width. -/
def laneVal (s : State) (t : Th) (x : Src) (width lane : Nat) : Nat :=
  (t.reg s x.reg lane + (if width = 8 then t.reg s (x.reg + 1) lane * 2 ^ 32 else 0)) % 2 ^ (8 * width)

/-- A value of `width` bytes to a register, or a pair (narrow values zero-extended, log 3). -/
def putVal (s : State) (core slot dst width lane : Nat) (v : Nat) : State :=
  if width = 8 then regWrite64 s core slot dst (2 ^ lane) (fun _ => v)
  else regWrite s core slot dst (2 ^ lane) (fun _ => BitVec.ofNat 32 v)

/-- Whether a scratchpad access lies in the block's allocation (reason 0x43). -/
def inScratch (t : Th) (a n : Nat) : Bool := decide (t.b.gran * 4096 ≤ a) && decide (a + n ≤ (t.b.gran + t.b.granules) * 4096)

/-- The first lane whose access lies outside the block's scratchpad, with its address. -/
def scratchBad (s : State) (t : Th) (x : Src) (n : Nat) : Option Nat :=
  (t.lanes.map (fun l => t.reg s x.reg l)).find? (fun a => !inScratch t a n)

/-- How a memory access of several lanes resolves. -/
inductive Lanes where
  | ok (l : List (LaneAcc × Place))
  | absent (no ca : Nat)
  | halt (reason info : Nat)
  deriving DecidableEq, Repr

/-- The target code of an access (LaneAcc) and its resolved address. -/
def laneTarget (s : State) (p : Place) : Nat × Nat :=
  match p.seg.target with
  | 0 => (0, p.addr)
  | 1 => (if p.seg.hostCacheable && cxlInUse s then 3 else 1, p.addr)
  | _ => (2, p.seg.node * 2 ^ 48 + p.addr)

/-- Every lane's access resolved; the first lane that fails decides. -/
def resolveLanes (s : State) (t : Th) (sp : Space) (x : Src) (n : Nat) (need : Need) (tgts : List Nat) : Lanes :=
  t.lanes.foldr (fun lane rest =>
    let ca := laneAddr s t sp x lane
    match resolve s t.c ca n need tgts with
    | .halt r i => .halt r i
    | .absent k => .absent k ca
    | .at_ p =>
      match rest with
      | .ok l => .ok ((⟨lane, (laneTarget s p).1, (laneTarget s p).2, ca⟩, p) :: l)
      | r => r) (.ok [])

/-! Loads. -/

/-- Bytes of a line by target: 64 of a peer, 128 elsewhere. -/
def lineSize (tgt : Nat) : Nat := if tgt = 2 then 64 else 128

/-- The cache a load's space reads through. -/
def spaceKind (sp : Space) : Nat := match sp with | .const => 1 | .desc => 2 | _ => 3

/-- The lines an access of `n` bytes at a target touches. -/
def linesOf (kind n : Nat) (a : LaneAcc) : List Nat :=
  let z := lineSize a.tgt
  let first := lineKey (a.addr / z * z) a.tgt kind
  let last := lineKey ((a.addr + n - 1) / z * z) a.tgt kind
  if first = last then [first] else [first, last]

/-- A line's bytes where a cache of the core holds the parts that the accesses read; nothing else is looked at. -/
def heldLine (s : State) (core key : Nat) (reads : List (Nat × Nat)) : Option (List Byte) :=
  if keyTgt key = 2 then none
  else if keyKind key = 3 then
    match glFind s core (keyAddr key) (keyTgt key != 0) with
    | none => none
    | some l =>
      let hit := reads.all (fun r => (List.range r.2).all (fun i => (smapFind l.bytes (r.1 + i)).isSome))
      if hit then some (tabulate 128 (fun i => (smapFind l.bytes i).getD 0)) else none
  else (roFind s core (keyKind key) (keyTgt key != 0) (keyAddr key)).bind (fun l => if l.poison then none else some l.bytes)

/-- The offsets and lengths the lanes read of a line. -/
def readsIn (key n : Nat) (lanes : List LaneAcc) : List (Nat × Nat) :=
  lanes.flatMap (fun a =>
    if a.tgt != keyTgt key then []
    else
      let z := lineSize a.tgt
      let lo := max a.addr (keyAddr key)
      let hi := min (a.addr + n) (keyAddr key + z)
      if lo < hi then [(lo - keyAddr key, hi - lo)] else [])

/-- Outstanding loads of a core, with their slots. -/
def coreLoads (s : State) (core : Nat) : List (Nat × OutLoad) :=
  (s.run.slots.filter (fun kr => kr.1 / 128 == core)).flatMap (fun kr => kr.2.loads.map (fun o => (kr.1 % 128, o)))

/-- Loads of a core that wait for what a request returns. -/
def attached (s : State) (core : Nat) (l : LineReq) : Nat := ((coreLoads s core).filter (fun x => x.2.need.contains (l.key, l.id))).length

/-- The request that a load of a line may attach to: one that is not shut (R218, R220). -/
def lineReq (s : State) (core key : Nat) : Option LineReq := s.core.lreq.find? (fun l => l.core == core && l.key == key && !l.shut)

/-- The 128-B line of a request, which takes one entry: the two 64-B halves of a peer's line share it (R177). -/
def entryOfKey (k : Nat) : Nat := if keyTgt k = 2 then lineKey (keyAddr k / 128 * 128) 2 (keyKind k) else k

/-- Entries in use among a core's requests (R177). -/
def entries (ls : List LineReq) : List Nat := (ls.map (fun l => entryOfKey l.key)).dedup

/-- Whether a slot may request a line now: an entry is free for the core and for the slot, and a host read may be outstanding
(R177, R412; DESIGN CHOICE, log 18: the host's limit holds a load back as the entries do). -/
def canAsk (s : State) (core slot key : Nat) : Bool :=
  let mine := s.core.lreq.filter (fun l => l.core == core)
  ((entries mine).contains (entryOfKey key) && keyTgt key == 2
    || decide ((entries mine).length < 48) && decide ((entries (mine.filter (fun l => l.slot == slot))).length < 8))
    && (keyTgt key != 1 || decide (s.hl.reads.length < 768))

/-- The launch a slot's block belongs to. -/
def launchOfSlot (s : State) (core slot : Nat) : Nat :=
  (((slotRec s core slot).bind (fun r => blockRec s r.block)).map (fun b => b.launch)).getD 0

/-- A peer access under the next tag (R406). -/
def peerAccess (s : State) (write : Bool) (c core slot node line req : Nat) : Nat × State :=
  let x : PeerReq :=
    { tag := s.fab.nextTag, write := write, node := node, line := line, ctx := c, core := core, slot := slot, req := req, port := 0,
      launch := launchOfSlot s core slot }
  (x.tag, { s with fab := { s.fab with nextTag := (x.tag + 1) % 65536, reqs := s.fab.reqs ++ [x] } })

/-- READ of Table 12.4. -/
def peerRead (s : State) (c core slot addr req : Nat) : State :=
  let r := peerAccess s false c core slot (addr / 2 ^ 48) (addr % 2 ^ 48) req
  fabSend r.2 core (mkPacket [(7, 0, tRead), (31, 16, addr / 2 ^ 48), (47, 32, thisNode s), (63, 48, r.1), (105, 64, addr % 2 ^ 48 / 64)])

/-- A request for one line made (R177, R247): to the slice, the host, a peer or the host-line store. -/
def requestLine (s : State) (c core slot : Nat) (w : WantLine) : State :=
  let id := s.obj.nextId
  let x : LineReq :=
    { id := id, shut := false, core := core, slot := slot, key := w.key, cls := w.cls, reg := w.reg, gen := w.gen, mask := w.mask }
  let s := { s with obj := { s.obj with nextId := id + 1 }, core := { s.core with lreq := s.core.lreq ++ [x] } }
  let s := if keyKind w.key = 3 && keyTgt w.key != 2 then s.bump F.coreGrottoMisses_MISSES 1 core else s
  let a := keyAddr w.key
  match keyTgt w.key with
  | 1 =>
    let h : HostRead := { id := id, addr := a, len := 128, ctx := c, core := core, key := w.key, req := id }
    { s with hl := { s.hl with reads := s.hl.reads ++ [h] }, out := { s.out with reads := s.out.reads ++ [(a, 128)] } }
  | 2 => peerRead s c core slot a id
  | 3 =>
    let s := if (hlFind s a).isSome then s else hlRequest s a false
    if (hlFind s (a + 64)).isSome then s else hlRequest s (a + 64) false
  | _ => s

/-- One line asked for: by attaching to a request, at most 16 loads on each, or by a request of its own. The request it awaits, if any. -/
def askLine (s : State) (c core slot : Nat) (w : WantLine) : Option (Nat × Nat) × State :=
  match lineReq s core w.key with
  | some l => if attached s core l < 16 then (some (l.key, l.id), s) else (none, s)
  | none => if canAsk s core slot w.key then (some (w.key, s.obj.nextId), requestLine s c core slot w) else (none, s)

/-- Lines asked for in order: the requests awaited, and the lines that must still wait for a request. -/
def askLines (c core slot : Nat) : State → List WantLine → (List (Nat × Nat) × List WantLine) × State
  | s, [] => (([], []), s)
  | s, w :: ws =>
    let r := askLine s c core slot w
    let x := askLines c core slot r.2 ws
    (match r.1 with | some n => (n :: x.1.1, x.1.2) | none => (x.1.1, w :: x.1.2), x.2)

/-- Whether a load that needs these lines may issue (R177): no request it would attach to is full, and where it needs new requests one is
free. The others are made as requests free (DESIGN CHOICE, log 18). -/
def mayLoad (s : State) (core slot : Nat) (need : List Nat) : Bool :=
  let new := need.filter (fun k => (lineReq s core k).isNone)
  need.all (fun k => (lineReq s core k).all (fun l => decide (attached s core l < 16))) && (new.isEmpty || new.any (canAsk s core slot))

/-- The mask a load allocates under (R250). -/
def loadMask (s : State) (c tgt : Nat) (stream : Bool) : Nat :=
  if stream then s.get F.ctxGrottoMask_STREAM c
  else if tgt = 0 then s.get F.ctxGrottoMask_DEVICE_LOAD c else s.get F.ctxGrottoMask_HOST_LOAD c

/-- A lane's value from the lines it reads. -/
def laneBytes (kind n : Nat) (got : List (Nat × List Byte)) (a : LaneAcc) : List Byte :=
  let z := lineSize a.tgt
  tabulate n (fun i =>
    let x := a.addr + i
    match got.find? (fun g => g.1 == lineKey (x / z * z) a.tgt kind) with
    | some g => nthD g.2 (x % z) 0
    | none => 0)

/-- A load's end: its registers written, an acquire where it asked for one (R220). -/
def loadDone (s : State) (core slot : Nat) (acc : LoadAcc) (lanes : List LaneAcc) (got : List (Nat × List Byte)) : State :=
  let s := lanes.foldl (fun s a => putVal s core slot acc.dst acc.width a.lane (leNat (laneBytes (spaceKind acc.space) acc.width got a))) s
  if acc.acq && acc.scope.wide then acquireWide s core else s

/-- What a load uses. -/
def loadUses (acc : LoadAcc) : Uses := ⟨srcRegs (addrSrcs acc.space acc.addr) ++ regPair acc.dst (acc.width == 8), 1⟩

/-- A load of the scratchpad. -/
def loadScratch (s : State) (t : Th) (acc : LoadAcc) (next : Nat) : State :=
  match scratchBad s t acc.addr acc.width with
  | some a => haltTh s t 0x43 a
  | none =>
    let v (l : Nat) : Nat := leNat (sramRead s t.core (t.reg s acc.addr.reg l) acc.width)
    let vals := t.lanes.map (fun l => (l, v l))
    let s := touchAll s t [acc.addr]
    let s := vals.foldl (fun s lv => putVal s t.core t.slot acc.dst acc.width lv.1 lv.2) s
    let s := goTo s t next
    if acc.acq && acc.scope.wide then acquireWide s t.core else s

/-- The first access that needs the host path while no upstream request may be issued (R449). -/
def hostBlocked (s : State) (need : List Nat) : Option Nat :=
  if s.upstream then none else (need.find? (fun k => keyTgt k == 1 || keyTgt k == 3)).map keyAddr

/-- A load outstanding in its slot. -/
def addLoad (s : State) (core slot : Nat) (o : OutLoad) : State :=
  match slotRec s core slot with
  | none => s
  | some r => setSlot s core slot { r with loads := r.loads ++ [o] }

/-- The attributes under which a lane's line is asked for. -/
def wantOf (s : State) (t : Th) (acc : LoadAcc) (ls : List (LaneAcc × Place)) (key : Nat) : WantLine :=
  let rq := ((ls.find? (fun x => (linesOf (spaceKind acc.space) acc.width x.1).contains key)).map (fun x => x.2.rq s)).getD deviceRq
  ⟨key, rq.cls, rq.reg, rq.key, loadMask s t.c (keyTgt key) acc.stream⟩

/-- A load of a context address: what the caches hold is taken, the rest requested, and the thread goes on (R165, R177, R246,
R247, R254). -/
def loadCtx (s : State) (t : Th) (acc : LoadAcc) (next : Nat) : State :=
  let kind := spaceKind acc.space
  match resolveLanes s t acc.space acc.addr acc.width .read (if kind = 3 then [0, 1, 2] else [0, 1]) with
  | .halt r i => haltTh s t r i
  | .absent n ca => parkTh s t n ca
  | .ok ls =>
    let tgtOf (a : LaneAcc) : LaneAcc := if kind != 3 && a.tgt = 3 then { a with tgt := 1 } else a
    let ls := ls.map (fun x => (tgtOf x.1, x.2))
    let lanes := ls.map (fun x => x.1)
    let keys := (lanes.flatMap (linesOf kind acc.width)).dedup
    let held := keys.filterMap (fun k => (heldLine s t.core k (readsIn k acc.width lanes)).map (fun bs => (k, bs)))
    let need := keys.filter (fun k => !held.any (fun h => h.1 == k))
    let used (s : State) : State :=
      if kind = 3 then s else held.foldl (fun s h => roTouch s t.core kind (keyTgt h.1 != 0) (keyAddr h.1)) s
    let touched (s : State) : State := touchAll (used s) t (addrSrcs acc.space acc.addr)
    if need.isEmpty then
      let s := touched s
      let s := if kind = 3 && lanes.all (fun a => a.tgt != 2) then s.bump F.coreGrottoHits_HITS 1 t.core else s
      loadDone (goTo s t next) t.core t.slot acc lanes held
    else
      match hostBlocked s need with
      | some a => hostPathLost s t.c a (entryOf s t.b.id)
      | none =>
        if !mayLoad s t.core t.slot need then (notIssued s t).bump F.corePipeLreqStalls_LREQ_STALLS 1 t.core
        else
          let r := askLines t.c t.core t.slot s (need.map (wantOf s t acc ls))
          goTo (addLoad (touched r.2) t.core t.slot ⟨acc, lanes, r.1.1, r.1.2, held, t.f.pc⟩) t next

/-- LOAD. -/
def execLoad (at_ : At) (acc : LoadAcc) (s : State) : Out :=
  if widthOk acc.width then
    instr s at_ (loadUses acc) (fun t s =>
      match acc.space with
      | .scratch => loadScratch s t acc at_.next
      | _ => loadCtx s t acc at_.next)
  else .fault .noSuchUnit

/-- An outstanding load replaced in its slot, or taken out. -/
def setLoad (s : State) (core slot : Nat) (o : OutLoad) (n : Option OutLoad) : State :=
  match slotRec s core slot with
  | none => s
  | some r => setSlot s core slot { r with loads := r.loads.flatMap (fun x => if x == o then n.toList else [x]) }

/-- A waiting load given a line; it ends when it waits for no other. -/
def giveLine (s : State) (core slot : Nat) (o : OutLoad) (l : LineReq) (bs : List Byte) : State :=
  let n := { o with need := o.need.filter (fun x => x != (l.key, l.id)), got := (l.key, bs) :: o.got }
  if n.need.isEmpty && n.want.isEmpty then loadDone (setLoad s core slot o none) core slot o.acc o.lanes n.got
  else setLoad s core slot o (some n)

/-- The context address a waiting load reads in a line, for the halt on poison. -/
def addrIn (key : Nat) (o : OutLoad) : Nat :=
  ((o.lanes.find? (fun a => !(readsIn key o.acc.width [a]).isEmpty)).map (fun a => a.ca)).getD 0

/-- Where a load was issued. -/
def loadAt (s : State) (b : BlockRec) (slot : Nat) (o : OutLoad) : IssuedAt :=
  issuedAt s b slot ⟨o.pc, o.lanes.foldl (fun m a => m ||| 2 ^ a.lane) 0, true, .none, 0⟩

/-- An outstanding load that still wants lines asks for them again; it has lost its host path where it needs one (R177, R449). -/
def pumpLoad (core : Nat) (s : State) (x : Nat × OutLoad) : State :=
  match (slotRec s core x.1).bind (fun r => blockRec s r.block) with
  | none => s
  | some b =>
    match hostBlocked s (x.2.want.map (fun w => w.key)) with
    | some a => hostPathLost s b.ctx a (entryOf s b.id)
    | none =>
      let r := askLines b.ctx core x.1 s x.2.want
      setLoad r.2 core x.1 x.2 (some { x.2 with need := x.2.need ++ r.1.1, want := r.1.2 })

/-- Lines still wanted are asked for as a core's requests free, in slot order (log 18). -/
def pump (s : State) (core : Nat) : State := ((coreLoads s core).filter (fun x => !x.2.want.isEmpty)).foldl (pumpLoad core) s

/-- What a core's caches do with an arrived line: nothing where the request is shut or the gallery is not powered. -/
def fillLine (s : State) (l : LineReq) (bs : List Byte) (ctx : Nat) : State :=
  if l.shut || !s.domOn (domOfGallery (galleryOfCore l.core)) then s
  else if keyKind l.key = 3 then
    if keyTgt l.key = 2 then s else glFill s l.core (keyAddr l.key) (keyTgt l.key != 0) ⟨l.cls, l.reg, l.gen⟩ l.mask bs
  else roFill s l.core (keyKind l.key) (keyTgt l.key != 0) (keyAddr l.key) ctx bs false

/-- What the loads that wait for an arrived line read: its bytes, with those the core has written since where the line may be
shared (R247). -/
def lineBytes (s : State) (l : LineReq) (bs : List Byte) : List Byte :=
  if keyKind l.key = 3 && keyTgt l.key != 2 && !l.shut then
    match glFind s l.core (keyAddr l.key) (keyTgt l.key != 0) with
    | some g => tabulate 128 (fun i => (smapFind g.bytes i).getD (nthD bs i 0))
    | none => bs
  else bs

/-- A requested line has arrived: the request frees, the caches fill, every load that waits for it takes it, and lines still wanted are
asked for; poisoned data halts the context (R247, R274). -/
def lineArrived (s : State) (l : LineReq) (poison : Bool) (bs : List Byte) (ctx : Nat) : State :=
  let ws := (coreLoads s l.core).filter (fun x => x.2.need.contains (l.key, l.id))
  let s := { s with core := { s.core with lreq := s.core.lreq.filter (fun x => x.id != l.id) } }
  if poison then
    match ws with
    | [] => pump s l.core
    | (slot, o) :: _ =>
      match (slotRec s l.core slot).bind (fun r => blockRec s r.block) with
      | none => s
      | some b => halt s b.ctx 0x46 (addrIn l.key o) (some (loadAt s b slot o)) (entryOf s b.id)
  else
    let s := fillLine s l bs ctx
    let bs := lineBytes s l bs
    pump (ws.foldl (fun s w => giveLine s l.core w.1 w.2 l bs) s) l.core

/-- The context a core serves. -/
def coreCtx (s : State) (core : Nat) : Nat := s.get F.coreBinding_CONTEXT core

/-- LOAD_FILL (R177, R246, R247): the outstanding line of a core arrives from its slice or its host-line store; lines of the host
and of peers arrive with HOST_READ_COMPLETION and READ_RESP_RECEIVE. -/
def execLoadFill (core line : Nat) (s : State) : Out :=
  if core < 240 then
    match s.core.lreq.find? (fun l => l.core == core && l.key == line) with
    | none => ok s
    | some l =>
      match keyTgt line with
      | 0 =>
        let d := devRead 4 s ⟨l.cls, l.reg, l.gen⟩ (keyAddr line) 128
        ok (lineArrived d.2 l d.1.1 d.1.2 (coreCtx s core))
      | 3 =>
        match hlFind s (keyAddr line), hlFind s (keyAddr line + 64) with
        | some a, some b =>
          if s.hl.flrEvict then ok s
          else ok (lineArrived (hlUsed (hlUsed s a) b) l (a.poison || b.poison) (a.data ++ b.data) (coreCtx s core))
        | a, b =>
          let s := if a.isSome then s else hlRequest s (keyAddr line) false
          ok (if b.isSome then s else hlRequest s (keyAddr line + 64) false)
      | _ => ok s
  else .fault .noSuchUnit

/-! Stores. -/

/-- The mask a store allocates under (R250). -/
def storeMask (s : State) (c : Nat) (stream : Bool) : Nat :=
  if stream then s.get F.ctxGrottoMask_STREAM c else s.get F.ctxGrottoMask_STORE c

/-- A byte-masked write to a peer: WRITE_MASKED with the byte mask in its second position (Table 12.4), for each line touched. -/
def peerWriteLine (s : State) (c core slot node line : Nat) (m : SMap Byte) : State :=
  let r := peerAccess s true c core slot node line 0
  let mask := m.foldl (fun x kv => x ||| 2 ^ kv.1) 0
  fabSend r.2 core (mkPacket [(7, 0, tWriteMasked), (31, 16, node), (47, 32, thisNode s), (63, 48, r.1), (105, 64, line / 64),
      (191, 128, mask)])
    [(false, mergeMask (List.replicate 64 0) m)]

def peerWrite (s : State) (t : Th) (addr : Nat) (bs : List Byte) : State :=
  let node := addr / 2 ^ 48
  let off := addr % 2 ^ 48
  let k := 64 - off % 64
  let part (x : Nat) (l : List Byte) : SMap Byte := l.zipIdx.map (fun bi => (x + bi.2, bi.1))
  let s := peerWriteLine s t.c t.core t.slot node (off / 64 * 64) (part (off % 64) (bs.take k))
  if bs.length ≤ k then s else peerWriteLine s t.c t.core t.slot node (off / 64 * 64 + 64) (part 0 (bs.drop k))

/-- A lane's store at its target (R246, R248). -/
def storeLane (s : State) (t : Th) (acc : StoreAcc) (a : LaneAcc) (p : Place) (bs : List Byte) : State :=
  match a.tgt with
  | 0 =>
    let k := 128 - a.addr % 128
    let s := glStore s t.core a.addr (p.rq s) (storeMask s t.c acc.stream) (bs.take k)
    if bs.length ≤ k then s else glStore s t.core (a.addr + k) (p.rq s) (storeMask s t.c acc.stream) (bs.drop k)
  | 1 =>
    let k := 128 - a.addr % 128
    glPatch (glPatch (hostWrite s a.addr bs) t.core a.addr true (bs.take k)) t.core (a.addr + k) true (bs.drop k)
  | 2 => peerWrite s t a.addr bs
  | _ =>
    let k := 128 - a.addr % 128
    glPatch (glPatch (hlWrite s a.addr bs) t.core a.addr true (bs.take k)) t.core (a.addr + k) true (bs.drop k)

/-- Host-line-store lines that accesses touch and that the block does not own. -/
def unowned (s : State) (n : Nat) (lanes : List LaneAcc) : List Nat :=
  ((lanes.filter (fun a => a.tgt == 3)).flatMap (fun a => [a.addr / 64 * 64, (a.addr + n - 1) / 64 * 64])).dedup.filter
    (fun ha => !hlOwned s ha)

/-- The thread waits until its first line is owned; while no request could be issued it does not issue (R445, R448). -/
def waitOwn (s : State) (t : Th) (ha : Nat) : State :=
  let s := hlRequest (notIssued s t) ha true
  if s.hl.creq.any (fun r => r.ha == ha) then waitAt s t t.f.pc (.line ha) false else s

/-- Whether an outstanding load of the fragment reads a line the access touches: a later store of the thread waits for it (R218). -/
def ownLoads (s : State) (t : Th) (n : Nat) (lanes : List LaneAcc) : Bool :=
  let line (a : LaneAcc) (x : Nat) : Nat × Nat := (if a.tgt = 3 then 1 else a.tgt, x / 128)
  let spans (n : Nat) (a : LaneAcc) : List (Nat × Nat) := [line a a.addr, line a (a.addr + n - 1)]
  let mine := lanes.flatMap (spans n)
  (slotRec s t.core t.slot).any (fun r => r.loads.any (fun o =>
    o.lanes.any (fun a => t.f.mask.testBit a.lane) && (o.lanes.flatMap (spans o.acc.width)).any mine.contains))

/-- Requests of the core for the lines of host and peer stores shut: a later load of the thread must see the store (R218, R236). -/
def shutStored (s : State) (core n : Nat) (lanes : List LaneAcc) : State :=
  let hit (k : Nat) : Bool := lanes.any (fun a => a.tgt == keyTgt k && decide (a.addr < keyAddr k + 128) && decide (keyAddr k < a.addr + n))
  shutReqs s core 3 hit

/-- What a store uses. -/
def storeUses (acc : StoreAcc) : Uses :=
  ⟨srcRegs (addrSrcs acc.space acc.addr ++ srcPair acc.src (acc.width == 8)), if acc.rel then 2 else 1⟩

/-- A store's sources read. -/
def storeTouch (s : State) (t : Th) (acc : StoreAcc) : State :=
  touchAll s t (addrSrcs acc.space acc.addr ++ srcPair acc.src (acc.width == 8))

/-- A store of a context address. -/
def storeCtx (s : State) (t : Th) (acc : StoreAcc) (next : Nat) : State :=
  match resolveLanes s t acc.space acc.addr acc.width .write [0, 1, 2] with
  | .halt r i => haltTh s t r i
  | .absent n ca => parkTh s t n ca
  | .ok ls =>
    let lanes := ls.map (fun x => x.1)
    if t.l.decl.replayable && lanes.any (fun a => a.tgt != 0) then haltTh s t 0x48 (opClass 3)
    else if (acc.rel && acc.scope.wide && peerPending s t.b) || ownLoads s t acc.width lanes then notIssued s t
    else if !s.upstream && lanes.any (fun a => a.tgt == 1) then
      hostPathLost s t.c ((lanes.find? (fun a => a.tgt == 1)).map (fun a => a.addr) |>.getD 0) (entryOf s t.b.id)
    else
      match unowned s acc.width lanes with
      | ha :: _ => if s.upstream then waitOwn s t ha else hostPathLost s t.c ha (entryOf s t.b.id)
      | [] =>
        let vals := ls.map (fun x => (x, leBytes acc.width (laneVal s t acc.src acc.width x.1.lane)))
        let wide := acc.rel && acc.scope.wide
        let s := if wide then releaseWide s t.core else s
        let s := shutStored (storeTouch s t acc) t.core acc.width lanes
        let s := vals.foldl (fun s v => storeLane s t acc v.1.1 v.1.2 v.2) s
        goTo (if wide then releaseWide s t.core else s) t next

/-- A store to the scratchpad; a wide release first writes the cache back (R219). -/
def storeScratch (s : State) (t : Th) (acc : StoreAcc) (next : Nat) : State :=
  match scratchBad s t acc.addr acc.width with
  | some a => haltTh s t 0x43 a
  | none =>
    if acc.rel && acc.scope.wide && peerPending s t.b then notIssued s t
    else
      let vals := t.lanes.map (fun l => (t.reg s acc.addr.reg l, leBytes acc.width (laneVal s t acc.src acc.width l)))
      let s := storeTouch (if acc.rel && acc.scope.wide then releaseWide s t.core else s) t acc
      goTo (vals.foldl (fun s v => sramWrite s t.core v.1 v.2) s) t next

/-- STORE. The constant and descriptor caches take no stores: those spaces are written as context addresses. -/
def execStore (at_ : At) (acc : StoreAcc) (s : State) : Out :=
  if widthOk acc.width then
    instr s at_ (storeUses acc) (fun t s =>
      match acc.space with
      | .scratch => storeScratch s t acc at_.next
      | _ => storeCtx s t acc at_.next)
  else .fault .noSuchUnit

/-! Atomics. -/

/-- The new value of an atomic (min and max unsigned, log 3). -/
def atomNew (fn : AtomFn) (width old x cmp : Nat) : Nat :=
  (match fn with
   | .add => old + x
   | .and => old &&& x
   | .or => old ||| x
   | .xor => old ^^^ x
   | .min => min old x
   | .max => max old x
   | .exch => x
   | .cas => if old = cmp then x else old) % 2 ^ (8 * width)

/-- One lane's part of an atomic: lane, address, operand, compare value. -/
structure AtomLane where
  lane : Nat
  addr : Nat
  x : Nat
  cmp : Nat
  deriving DecidableEq, Repr

/-- The lanes of an atomic at their addresses, with their operands. -/
def atomOf (s : State) (t : Th) (acc : AtomAcc) (l : List (Nat × Nat)) : List AtomLane :=
  l.map (fun la => ⟨la.1, la.2, laneVal s t acc.src acc.width la.1, laneVal s t acc.cmp acc.width la.1⟩)

/-- Read-modify-writes lane by lane, by what reads and what writes the location. -/
def atomLanes (t : Th) (acc : AtomAcc) (rd : State → Nat → List Byte × State) (wr : State → Nat → List Byte → State) :
    State → List AtomLane → State
  | s, [] => s
  | s, a :: ls =>
    let r := rd s a.addr
    let old := leNat r.1
    let s := wr r.2 a.addr (leBytes acc.width (atomNew acc.fn acc.width old a.x a.cmp))
    atomLanes t acc rd wr (putVal s t.core t.slot acc.dst acc.width a.lane old) ls

/-- The sources an atomic reads. -/
def atomSrcs (acc : AtomAcc) : List Src :=
  addrSrcs acc.space acc.addr ++ srcPair acc.src (acc.width == 8) ++ (if acc.fn = .cas then srcPair acc.cmp (acc.width == 8) else [])

/-- What an atomic uses. -/
def atomUses (acc : AtomAcc) : Uses :=
  ⟨srcRegs (atomSrcs acc) ++ regPair acc.dst (acc.width == 8), if acc.rel then 2 else 1⟩

/-- Whether an atomic that releases waits for writes of its block to be acknowledged (R219). -/
def atomWaits (acc : AtomAcc) (s : State) (t : Th) : Bool := acc.rel && acc.scope.wide && peerPending s t.b

/-- What precedes an atomic: the write-back of a release, its sources read. -/
def atomBegin (s : State) (t : Th) (acc : AtomAcc) : State :=
  touchAll (if acc.rel && acc.scope.wide then releaseWide s t.core else s) t (atomSrcs acc)

/-- An atomic's end. -/
def atomEnd (s : State) (t : Th) (acc : AtomAcc) (next : Nat) : State :=
  let s := goTo s t next
  if acc.acq && acc.scope.wide then acquireWide s t.core else s

/-- An atomic on the scratchpad. -/
def atomScratch (s : State) (t : Th) (acc : AtomAcc) (next : Nat) : State :=
  match scratchBad s t acc.addr acc.width with
  | some a => haltTh s t 0x43 a
  | none =>
    if atomWaits acc s t then notIssued s t
    else
      let ls := atomOf s t acc (t.lanes.map (fun l => (l, t.reg s acc.addr.reg l)))
      let rd (s : State) (a : Nat) : List Byte × State := (sramRead s t.core a acc.width, s)
      let wr (s : State) (a : Nat) (bs : List Byte) : State := sramWrite s t.core a bs
      atomEnd (atomLanes t acc rd wr (atomBegin s t acc) ls) t acc next

/-- The bytes of owned host lines. -/
def hlRead (s : State) (ha n : Nat) : Bool × List Byte :=
  let at_ (i : Nat) : Bool × Byte :=
    match hlFind s ((ha + i) / 64 * 64) with
    | some l => (l.poison, nthD l.data ((ha + i) % 64) 0)
    | none => (false, 0)
  ((List.range n).any (fun i => (at_ i).1), tabulate n (fun i => (at_ i).2))

/-- An atomic on device memory at its slice, or on host memory in owned host lines (R223); where a location is poisoned it has no
effect (R209, R274). -/
def atomCtx (s : State) (t : Th) (acc : AtomAcc) (next : Nat) : State :=
  if t.l.decl.replayable then haltTh s t 0x48 (opClass 3)
  else
    match resolveLanes s t acc.space acc.addr acc.width .both [0, 1] with
    | .halt r i => haltTh s t r i
    | .absent n ca => parkTh s t n ca
    | .ok ls =>
      match ls.find? (fun x => x.1.tgt == 1 && !cxlInUse s) with
      | some x => haltTh s t 0x45 x.1.ca
      | none =>
        let lanes := ls.map (fun x => { x.1 with tgt := if x.1.tgt = 1 then 3 else x.1.tgt })
        if atomWaits acc s t || ownLoads s t acc.width lanes then notIssued s t
        else
          match unowned s acc.width lanes with
          | ha :: _ => if s.upstream then waitOwn s t ha else hostPathLost s t.c ha (entryOf s t.b.id)
          | [] =>
            let rqOf (a : Nat) : Rq := ((ls.find? (fun x => x.1.addr == a)).map (fun x => x.2.rq s)).getD deviceRq
            let host (a : Nat) : Bool := lanes.any (fun x => x.addr == a && x.tgt == 3)
            let bad (a : LaneAcc) : Bool := if a.tgt = 3 then (hlRead s a.addr acc.width).1 else (firstPoisoned s (rqOf a.addr).key a.addr acc.width).isSome
            match lanes.find? bad with
            | some a => haltTh s t 0x46 a.ca
            | none =>
              let ops := atomOf s t acc (lanes.map (fun a => (a.lane, a.addr)))
              let s := lanes.foldl (fun s a =>
                glExpel (glExpel s t.core a.addr (a.tgt == 3)) t.core (a.addr + acc.width - 1) (a.tgt == 3)) (atomBegin s t acc)
              let rd (s : State) (a : Nat) : List Byte × State :=
                if host a then ((hlRead s a acc.width).2, s)
                else
                  let d := devRead 2 s (rqOf a) a acc.width
                  (d.1.2, d.2)
              let wr (s : State) (a : Nat) (bs : List Byte) : State := if host a then hlWrite s a bs else devWrite 2 s (rqOf a) a bs
              atomEnd (atomLanes t acc rd wr s ops) t acc next

/-- ATOMIC (R214, R223). -/
def execAtomic (at_ : At) (acc : AtomAcc) (s : State) : Out :=
  if widthOk acc.width then
    instr s at_ (atomUses acc) (fun t s =>
      match acc.space with
      | .scratch => atomScratch s t acc at_.next
      | _ => atomCtx s t acc at_.next)
  else .fault .noSuchUnit

/-! Fences and cache maintenance. -/

/-- The release side of a fence: wide, it writes the cache back; it waits for peer writes to be acknowledged (R219). -/
def fenceRel (s : State) (t : Th) (scope : Scope) (k : State → State) : State :=
  if scope.wide then (if peerPending s t.b then notIssued s t else k (releaseWide s t.core)) else k s

/-- The acquire side of a fence (R220). -/
def fenceAcq (s : State) (t : Th) (scope : Scope) : State := if scope.wide then acquireWide s t.core else s

/-- FENCE_RELEASE (R222). -/
def execFenceRelease (at_ : At) (scope : Scope) (s : State) : Out :=
  instr s at_ ⟨[], 2⟩ (fun t s => fenceRel s t scope (fun s => goTo s t at_.next))

/-- FENCE_ACQUIRE (R222). -/
def execFenceAcquire (at_ : At) (scope : Scope) (s : State) : Out :=
  instr s at_ ⟨[], 2⟩ (fun t s => goTo (fenceAcq s t scope) t at_.next)

/-- FENCE_ACQ_REL (R222). -/
def execFenceAcqRel (at_ : At) (scope : Scope) (s : State) : Out :=
  instr s at_ ⟨[], 2⟩ (fun t s => fenceRel s t scope (fun s => goTo (fenceAcq s t scope) t at_.next))

/-- FENCE_SC (R222): as FENCE_ACQ_REL; the order of the commands is its one total order. -/
def execFenceSc (at_ : At) (scope : Scope) (s : State) : Out :=
  instr s at_ ⟨[], 2⟩ (fun t s => fenceRel s t scope (fun s => goTo (fenceAcq s t scope) t at_.next))

/-- Whether a maintenance range is made of whole lines (R252). -/
def rangeOk (a n : Nat) : Bool := a % 128 == 0 && n % 128 == 0

/-- The line of memory that a context address names, where a present segment of the device or the host covers it. -/
def memLine (s : State) (c ca : Nat) : Option (Nat × Bool) :=
  (segOf s c ca).bind (fun g => if g.2.present && decide (g.2.target < 2) then some (g.2.pbase + (ca - g.2.vbase), g.2.target == 1) else none)

/-- The lines of a maintenance range: resolved address, of the host or not. A length of 0 names the whole cache (log 3). -/
def rangeLines (s : State) (t : Th) (a n : Nat) : Option (List (Nat × Bool)) :=
  if n = 0 then none else some ((List.range (n / 128)).filterMap (fun i => memLine s t.c (a + 128 * i)))

def inLines (l : Option (List (Nat × Bool))) (x : GrottoLine) : Bool := match l with | none => true | some xs => xs.contains (x.addr, x.host)

/-- A maintenance operation over a range: the range checked, its lines resolved (R252). -/
def maintain (s : State) (at_ : At) (a n : Nat) (k : Th → (GrottoLine → Bool) → State → State) : Out :=
  instr s at_ ⟨[], 1⟩ (fun t s =>
    if !rangeOk a n then haltTh s t 0x41 (if a % 128 = 0 then a + n else a)
    else goTo (k t (inLines (rangeLines s t a n)) s) t at_.next)

/-- GROTTO_WB (R252). -/
def execGrottoWb (at_ : At) (addr len : Nat) (s : State) : Out :=
  maintain s at_ addr len (fun t p s => glFlushRange s t.core p)

/-- GROTTO_WBINV (R252). -/
def execGrottoWbinv (at_ : At) (addr len : Nat) (s : State) : Out :=
  maintain s at_ addr len (fun t p s => glInvClean (glFlushRange s t.core p) t.core p)

/-- GROTTO_INV_CLEAN (R252). -/
def execGrottoInvClean (at_ : At) (addr len : Nat) (s : State) : Out :=
  maintain s at_ addr len (fun t p s => glInvClean s t.core p)

/-- A read-only cache's lines invalid, and later loads take nothing of what was sent for before (R242). -/
def roFresh (s : State) (core kind : Nat) : State := shutReqs (roInvalidate s core kind) core kind

/-- CONST_INVALIDATE (R242). -/
def execConstInvalidate (at_ : At) (s : State) : Out := instrNext s at_ ⟨[], 1⟩ (fun t s => roFresh s t.core 1)

/-- DESC_INVALIDATE (R242). -/
def execDescInvalidate (at_ : At) (s : State) : Out := instrNext s at_ ⟨[], 1⟩ (fun t s => roFresh s t.core 2)

end Sys2Proof.Machine
end

