-- ==== Sys2Proof/Machine/Fabric.lean ====
section
/-! DEFINITION. The fabric's links, peer accesses and ownership regions (12: R388 to R408). -/

namespace Sys2Proof.Machine

/-! Ownership regions (R399 to R401). -/

/-- Fields of a region in force (Table 12.8). -/
def Region.offset (r : Region) : Nat := r.word0 % 2 ^ 48
def Region.pbase (r : Region) : Nat := r.word1 % 2 ^ 48
def Region.len (r : Region) : Nat := r.word2 % 2 ^ 48
def Region.writer (r : Region) : Nat := bitsOf r.word2 63 48
def Region.valid (r : Region) : Bool := r.word3.testBit 0
def Region.readEn (r : Region) : Bool := r.word3.testBit 1
def Region.writeMode (r : Region) : Nat := bitsOf r.word3 3 2
def Region.enc (r : Region) : Bool := r.word3.testBit 4
def Region.key (r : Region) : Nat := bitsOf r.word3 27 16
def Region.context (r : Region) : Nat := bitsOf r.word3 43 32

/-- The lowest-numbered VALID region that covers an offset (R399). -/
def regionOf (s : State) (off : Nat) : Option Region :=
  (s.fab.region.find? (fun kr => kr.2.valid && decide (kr.2.offset ≤ off) && decide (off < kr.2.offset + kr.2.len))).map Prod.snd

/-- The bits of word 3 that are fields; the reserved WRITE_MODE 3 keeps the old mode (R14). -/
def regionWord3 (old v : Nat) : Nat :=
  let m := if bitsOf v 3 2 = 3 then bitsOf old 3 2 else bitsOf v 3 2
  v % 4 + m * 4 + bitsOf v 4 4 * 16 + bitsOf v 27 16 * 2 ^ 16 + bitsOf v 43 32 * 2 ^ 32

/-- Whether an apply is rejected (R400, R401). -/
def regionBad (s : State) (x : Region) : Bool :=
  x.offset % 65536 != 0 || x.pbase % 65536 != 0 || x.len % 65536 != 0 || (x.len == 0 && x.valid) || (x.enc && !keyOk s x.context x.key)

/-- A write to word 3 of a region applies it; a rejected apply leaves the region as it was. -/
def regionApply (s : State) (r v : Nat) : State :=
  let x : Region := ⟨s.word .fabRegion r 0 0, s.word .fabRegion r 0 1, s.word .fabRegion r 0 2, regionWord3 (s.word .fabRegion r 0 3) v⟩
  if regionBad s x then s
  else
    let s := s.setWord .fabRegion r 0 3 x.word3
    { s with fab := { s.fab with region := if x.valid then smapInsert s.fab.region r x else smapErase s.fab.region r } }

/-- FAB_REGION_APPLY (R401). -/
def execFabRegionApply (r word3 : Nat) (s : State) : Out :=
  if r < 1024 then bar0 s (regionApply (wideWrite s .fabRegion r 0 3) r word3) else .fault .noSuchUnit

/-! Accesses from peers (R399, R400, R391, R407). -/

/-- A response to a request. -/
def response (s : State) (p : Packet) (ty status : Nat) : Packet :=
  mkPacket [(7, 0, ty), (11, 8, status), (31, 16, pkSrc p), (47, 32, thisNode s), (63, 48, pkTag p), (105, 64, pf p 105 64)]

/-- Where a peer's access is performed, and under which keys; none where it is refused. -/
def peerPlace (s : State) (p : Packet) (write : Bool) : Option (Nat × Rq) :=
  match regionOf s (pkOffset p) with
  | none => none
  | some r =>
    let okW := r.writeMode == 2 || (r.writeMode == 1 && r.writer == pkSrc p)
    if (if write then okW else r.readEn) then
      some (r.pbase + (pkOffset p - r.offset), ⟨0, 0, slotName r.enc r.key⟩)
    else none

/-- A refused access: record 0x0C10 (R399). -/
def refusePeer (s : State) (port : Nat) (p : Packet) (ty : Nat) : State :=
  fabReply (post s noUnit none 0 0x0C10 (extra2 (pkSrc p) (pkOffset p / 64))) port (response s p ty 2)

/-- A READ. -/
def readIn (s : State) (port : Nat) (p : Packet) : State :=
  if !s.isSet F.fabNode_READY then fabReply s port (response s p tReadResp 3)
  else
    match peerPlace s p false with
    | none => refusePeer s port p tReadResp
    | some (pa, rq) =>
      let d := if dramLimit s < pa + 64 then ((true, List.replicate 64 0), limitRefused s) else sectorRead s rq pa
      fabReply d.2 port (response d.2 p tReadResp (if d.1.1 then 1 else 0)) [d.1]

/-- READ_RECEIVE. -/
def execReadReceive (port : Nat) (p : Packet) (s : State) : Out :=
  if port < 16 then (if pkType p = tRead then ok (readIn s port p) else ok s) else .fault .noSuchUnit

/-- A WRITE or WRITE_MASKED of the bytes named. -/
def writeIn (s : State) (port : Nat) (p : Packet) (line : Line) (mask : Nat) : State :=
  if !s.isSet F.fabNode_READY then fabReply s port (response s p tWriteAck 3)
  else
    match peerPlace s p true with
    | none => refusePeer s port p tWriteAck
    | some (pa, rq) =>
      let m : SMap Byte := ((List.range 64).filter (fun i => mask.testBit i)).map (fun i => (i, nthD line.2 i 0))
      let s := if dramLimit s < pa + 64 then limitRefused s else if m.isEmpty then s else sectorMasked s rq pa m line.1
      fabReply s port (response s p tWriteAck 0)

/-- WRITE_RECEIVE. -/
def execWriteReceive (port : Nat) (p : Packet) (line : Line) (s : State) : Out :=
  if port < 16 then (if pkType p = tWrite then ok (writeIn s port p line (2 ^ 64 - 1)) else ok s) else .fault .noSuchUnit

/-- WRITE_MASKED_RECEIVE: only the bytes whose BYTE_EN bits are 1 (R398). -/
def execWriteMaskedReceive (port : Nat) (p : Packet) (line : Line) (s : State) : Out :=
  if port < 16 then (if pkType p = tWriteMasked then ok (writeIn s port p line (pf p 191 128)) else ok s) else .fault .noSuchUnit

/-! Responses to this node's accesses (R406). -/

def peerReq (s : State) (tag : Nat) (write : Bool) : Option PeerReq := s.fab.reqs.find? (fun x => x.tag == tag && x.write == write)

def dropReq (s : State) (x : PeerReq) : State := { s with fab := { s.fab with reqs := s.fab.reqs.filter (fun y => y.tag != x.tag) } }

/-- A peer's line given to the thread that reads it. -/
def peerLine (s : State) (x : PeerReq) (poison : Bool) (bs : List Byte) : State :=
  let s := dropReq s x
  match s.core.lreq.find? (fun l => l.core == x.core && l.id == x.req) with
  | some l => lineArrived s l poison bs x.ctx
  | none => s

/-- A READ_RESP: the line, or a poisoned one for REFUSED and RESETTING. -/
def readRespIn (s : State) (p : Packet) (line : Line) : State :=
  match peerReq s (pkTag p) false with
  | some x =>
    if x.node ≠ pkSrc p ∨ 3 < pkStatus p then s
    else if pkStatus p = 0 then peerLine s x line.1 line.2
    else peerLine s x true (List.replicate 64 0)
  | none => s

/-- READ_RESP_RECEIVE. -/
def execReadRespReceive (p : Packet) (line : Line) (s : State) : Out := if pkType p = tReadResp then ok (readRespIn s p line) else ok s

/-- A WRITE_ACK; the launch of the thread that wrote may have ended with it (R227). -/
def writeAckIn (s : State) (p : Packet) : State :=
  match peerReq s (pkTag p) true with
  | some x =>
    if x.node ≠ pkSrc p then s
    else if pkStatus p = 0 then launchCheck (dropReq s x) x.launch
    else if pkStatus p = 2 ∨ pkStatus p = 3 then peerWriteLost s x
    else s
  | none => s

/-- WRITE_ACK_RECEIVE. -/
def execWriteAckReceive (p : Packet) (s : State) : Out := if pkType p = tWriteAck then ok (writeAckIn s p) else ok s

/-- READ_TIMEOUT: the line is returned as poisoned. -/
def execReadTimeout (tag : Nat) (s : State) : Out :=
  match peerReq s tag false with
  | some x => ok (peerLine s x true (List.replicate 64 0))
  | none => ok s

/-- WRITE_TIMEOUT: record 0x0C12 and the end of the context. -/
def execWriteTimeout (tag : Nat) (s : State) : Out :=
  match peerReq s tag true with
  | some x => ok (peerWriteLost s x)
  | none => ok s

/-! Header and link slots (R388, R389). -/

/-- The packets of a header slot with their data slots; none where the slot is corrupt: a reserved TYPE, a packet that does not end
within the slot, or too few data slots. -/
def parseSlot : Nat → List (BitVec 128) → List Line → Option (List (Packet × List Line))
  | 0, _, _ => some []
  | _, [], _ => some []
  | n + 1, x :: xs, data =>
    if x.toNat % 256 = 0 then some []
    else
      let p1 : Packet := x.setWidth 256
      let p2 : Packet := BitVec.ofNat 256 (x.toNat + ((xs.head?).map (fun y => y.toNat)).getD 0 * 2 ^ 128)
      match packetShape p1 with
      | none => none
      | some (pos, _) =>
        let p := if pos = 2 then p2 else p1
        let d := ((packetShape p).map Prod.snd).getD 0
        if (pos = 2 ∧ xs.isEmpty) ∨ data.length < d then none
        else (parseSlot n (xs.drop (pos - 1)) (data.drop d)).map (fun l => (p, data.take d) :: l)

/-- A packet for this node performed. -/
def packetIn (s : State) (port : Nat) (p : Packet) (ls : List Line) : State :=
  let line : Line := ls.headD (false, List.replicate 64 0)
  if pkType p = tBeacon then beaconIn s port p
  else if pkDest p ≠ thisNode s then s
  else if pkType p = tRead then readIn s port p
  else if pkType p = tReadResp then readRespIn s p line
  else if pkType p = tWrite then writeIn s port p line (2 ^ 64 - 1)
  else if pkType p = tWriteMasked then writeIn s port p line (pf p 191 128)
  else if pkType p = tWriteAck then writeAckIn s p
  else if pkType p = tSailRun then sailRunIn s port p ls ls.length
  else if pkType p = tLandAck then landAckIn s p
  else if pkType p = tSettle then settleIn s p
  else if pkType p = tCut then cutIn s p
  else if pkType p = tTurnBack then turnBackIn s p
  else if pkType p = tMissed then missedIn s p
  else if pkType p = tWindow then windowIn s p
  else if pkType p = tNodeReset then nodeResetIn s p
  else s

/-- A refused slot (R388, R389). -/
def nakSlot (s : State) (port : Nat) : State := linkSend (s.bumpSat F.fabPortErr_UNCORRECTED_CW 1 port) port (.nak (portState s port).rx)

/-- Credits that runs still in a port's buffer owe (R388, R404). -/
def owedBy (s : State) (port : Nat) : Nat := (s.sail.reorder.filter (fun r => r.port == port)).foldl (fun n r => n + r.owed) 0

/-- A lane set applied; an empty one takes the port DOWN (R392, R396). -/
def applyLanes (s : State) (p set : Nat) : State := if set = 0 then portDown s p else setLanes s p set

/-- Whether a sequence number has been reached by the next one expected. -/
def reached (next seq : Nat) : Bool := decide ((next + 4096 - seq % 4096) % 4096 < 2048)

/-- Lane sets of the peer whose sequence number has come apply (R396). -/
def lanesDue (s : State) (p : Nat) : State :=
  let x := portState s p
  let now := x.due.filter (fun d => reached x.rx d.1)
  if now.isEmpty then s
  else now.foldl (fun s d => applyLanes s p d.2) (setPort s p { x with due := x.due.filter (fun d => !reached x.rx d.1) })

/-- HEADER_SLOT_RECEIVE (R388, R389): the slot's packets performed in order and acknowledged, or the slot refused; credits return for
what has left the buffer. The slot is as the lanes give it once deskewed and in order (R386; log 16). -/
def execHeaderSlotReceive (port : Nat) (pos : List (BitVec 128)) (data : List Line) (okSlot : Bool) (s : State) : Out :=
  if port < 16 ∧ pos.length ≤ 4 then
    if s.get F.fabPortStatus_STATE port = 2 then
      match (if okSlot then parseSlot 4 pos data else none) with
      | none => ok (nakSlot s port)
      | some ps =>
        let x := portState s port
        let s := setPort s port { x with rx := (x.rx + 1) % 4096 }
        let owed := owedBy s port
        let s := ps.foldl (fun s pl => packetIn s port pl.1 pl.2) (linkSend s port (.ack x.rx))
        ok (lanesDue (linkSend s port (.credit (1 + data.length - (owedBy s port - owed)))) port)
    else ok s
  else .fault .noSuchUnit

/-! Retrains (R394, R395). -/

/-- The SAIL_RUN packets held in the replay buffer are discarded and reported lost. -/
def loseRuns (s : State) (p : Nat) : State :=
  let x := portState s p
  let runs := (x.replay.flatMap (fun k => k.pkts)).filter (fun k => pkType k.p == tSailRun)
  let keep := (x.replay.map (fun k => { k with pkts := k.pkts.filter (fun y => pkType y.p != tSailRun) })).filter (fun k => !k.pkts.isEmpty)
  let queue := x.queue.filter (fun k => pkType k.p != tSailRun)
  (runs ++ x.queue.filter (fun k => pkType k.p == tSailRun)).foldl (fun s k => runLost s k.p) (setPort s p { x with replay := keep, queue := queue })

/-- The lanes this end proposes (R393): those allowed, but for the ones it cannot carry. -/
def proposal (s : State) (p : Nat) : Nat :=
  let a := s.get F.fabPortCtrl_LANE_ALLOW p
  ((List.range 8).filter (fun l => a.testBit l && !(portState s p).lanes.testBit l
    && s.get (F.fabLaneMap_WL l) p != 15)).foldl (fun n l => n + 2 ^ l) 0

/-- A retrain begins, this end its leader where it `asked` (R394, R395); its node number and lanes are sent, and LANESETs are void: the
retrain exchanges the sets anew (R393). -/
def beginRetrain (s : State) (p : Nat) (asked : Bool) : State :=
  if s.get F.fabPortStatus_STATE p = 2 then
    let s := ((setPortState s p 3).bumpSat F.fabPortStatus_RETRAINS 1 p).put F.fabPortStatus_LEADER (if asked then 1 else 0) p
    let s := setPort s p { portState s p with asked := asked, since := s.ns, naks := 0, pending := [], crossed := [], due := [] }
    resumeHeld (loseRuns (linkSend s p (.retrain (thisNode s) (proposal s p))) p) p
  else s

/-- Header slots resent in order (R388). -/
def resend (s : State) (p : Nat) (slots : List SentSlot) : State :=
  (slots.flatMap (fun k => k.pkts)).foldl (emitPkt p) (s.bumpSat F.fabPortErr_REPLAYS slots.length p)

/-- A NAK: resent from the first refused slot; sixteen in a row begin a retrain. While the port retrains nothing is resent (R394). -/
def nakIn (s : State) (p seq : Nat) : State :=
  if s.get F.fabPortStatus_STATE p ≠ 2 then s
  else
    let x := portState s p
    let s := setPort s p { x with naks := x.naks + 1 }
    if 15 ≤ x.naks then beginRetrain s p true else resend s p (x.replay.dropWhile (fun k => k.seq != seq))

/-- A port that DISABLE has drained is DISABLED (R402, Table 12.12). -/
def drainEnd (s : State) (p : Nat) : State :=
  let x := portState s p
  if s.isSet F.fabPortCtrl_DISABLE p && s.get F.fabPortStatus_STATE p == 2 && x.replay.isEmpty && x.queue.isEmpty then
    resumeHeld (setLanes (setPortState (restLink s p) p 4) p 0) p
  else s

/-- An acknowledgment of every header slot up to a sequence number: what waits leaves, streams held for the port go on. -/
def ackIn (s : State) (p seq : Nat) : State :=
  let x := portState s p
  if x.replay.any (fun k => k.seq == seq) then
    drainEnd (resumeHeld (pumpPort (setPort s p { x with replay := (x.replay.dropWhile (fun k => k.seq != seq)).drop 1, naks := 0 }) p) p) p
  else setPort s p { x with naks := 0 }

/-- Credits returned by the peer. -/
def creditIn (s : State) (p n : Nat) : State := pumpPort (setPort s p { portState s p with credits := (portState s p).credits + n }) p

/-- A LANESET of the peer answered with this end's proposal; the AND applies from its sequence number (R396). -/
def answerLanes (s : State) (p lanes seq : Nat) : State :=
  if s.get F.fabPortStatus_STATE p ≠ 2 then s
  else
    let set := lanes % 256 &&& proposal s p
    let s := linkSend s p (.laneSet (proposal s p) seq)
    lanesDue (setPort s p { portState s p with due := (portState s p).due ++ [(seq, set)] }) p

/-- A LANESET (R396): the answer to this end's own, whose sequence number its next header slot was to have; else the peer's proposal,
answered at once, or, where this end's own names the lower number, once that is answered. -/
def laneSetIn (s : State) (p lanes seq : Nat) : State :=
  if s.get F.fabPortStatus_STATE p ≠ 2 then s
  else
    let x := portState s p
    match x.pending with
    | [] => answerLanes s p lanes seq
    | (mine, q) :: rest =>
      if q = seq then
        let s := setPort s p { x with pending := rest, crossed := if rest.isEmpty then [] else x.crossed }
        let s := applyLanes s p (lanes % 256 &&& mine)
        if rest.isEmpty then x.crossed.foldl (fun s m => answerLanes s p m.1 m.2) s else s
      else if seq < q then answerLanes s p lanes seq
      else setPort s p { x with crossed := x.crossed ++ [(lanes, seq)] }

/-- LANESET_RECEIVE. -/
def execLanesetReceive (port lanes seq : Nat) (s : State) : Out := if port < 16 then ok (laneSetIn s port lanes seq) else .fault .noSuchUnit

/-- Unit ID of a port (Table 1.5). -/
def portUnit (p : Nat) : Nat := unitId 0xE p

/-- The same node number at both ends (R395). -/
def sameNode (s : State) (p : Nat) : State := post (portDown s p) (portUnit p) none 0 0x0C06 (thisNode s)

/-- A RETRAIN from the peer (R395): it leads an ACTIVE port's retrain; where both have asked, the lower node number does. -/
def retrainIn (s : State) (port peer : Nat) : State :=
  let st := s.get F.fabPortStatus_STATE port
  if st ≠ 2 ∧ st ≠ 3 then s
  else if peer % 65536 = thisNode s then sameNode s port
  else if st = 2 then (beginRetrain s port false).put F.fabPortStatus_PEER_NODE (peer % 65536) port
  else if (portState s port).asked then
    let lead := decide (thisNode s < peer % 65536)
    let s := setPort s port { portState s port with asked := lead }
    (s.put F.fabPortStatus_LEADER (if lead then 1 else 0) port).put F.fabPortStatus_PEER_NODE (peer % 65536) port
  else s.put F.fabPortStatus_PEER_NODE (peer % 65536) port

/-- LINK_SLOT_RECEIVE (R388, R394 to R396); one in an uncorrectable codeword is refused. What training sends is taken by its own
commands. -/
def execLinkSlotReceive (port : Nat) (slot : LinkSlot) (s : State) : Out :=
  if port < 16 then
    let st := s.get F.fabPortStatus_STATE port
    if st = 2 ∨ st = 3 then
      if !slot.ok then ok (nakSlot s port)
      else
        match slot.msg with
        | .ack seq => ok (ackIn s port seq)
        | .nak seq => ok (nakIn s port seq)
        | .credit n => ok (creditIn s port n)
        | .laneSet lanes seq => ok (laneSetIn s port lanes seq)
        | .train _ _ => ok s
        | .retrain node _ => ok (retrainIn s port node)
    else ok s
  else .fault .noSuchUnit

end Sys2Proof.Machine
end

