-- ==== Sys2Proof/Machine/Objects.lean ====
section
/-! DEFINITION. The host's objects and the command port (13: R416 to R431, R441, R442). -/

namespace Sys2Proof.Machine

/-! The port (R418 to R420). -/

/-- Results of Table 13.7. -/
def rDone : Nat := 0
def rAccepted : Nat := 1
def rBadIndex : Nat := 2
def rBadState : Nat := 3
def rBadArg : Nat := 4
def rNotReady : Nat := 5

def cmdArg (s : State) (j : Nat) : Nat := s.get F.hostCmdArg_ARG j

/-- What a command answers: RESULT, and the state with the command's effect. -/
abbrev CmdRes := Nat × State

/-- ARG3 of an accepted command names an event and whether to signal it; its other bits are reserved. -/
def arg3Ok (s : State) : Bool := decide (cmdArg s 3 < 2 ^ 17)

/-! Cancels (R441, R442). -/

/-- The cancel reaches a started job first (Table 13.22): one that has not begun, or waits for a segment, is dropped; a running one
stops at its next boundary; an update job runs on. -/
def cancelJob (s : State) (j : EngJob) (q idx : Nat) : State :=
  match j.job with
  | .update _ => s
  | _ =>
    if j.started && j.parked.isNone then updJob s j.id (fun x => { x with stopping := true })
    else qFinish (dropJob s j.id) q idx 2 0

/-- A cancelled multiply's tasks that wait for a segment are dropped, their cores free. -/
def dropParkedTasks (s : State) (m : SegMul) : State :=
  let waits (t : SegTask) : Bool := !t.done && t.parked.isSome
  let s := updSeg s m.job.id (fun x => { x with cancelled := true, tasks := x.tasks.filter (fun t => !waits t) })
  (m.tasks.filter waits).foldl (fun s t => match t.core with | some k => freeCore s k | none => s)
    (unpark s m.job.ctx (fun p => match p.who with | .task id _ => id == m.job.id | _ => false))

/-- The cancel of one started entry, whose completion has not been decided. -/
def cancelStarted (s : State) (q : Nat) (e : QEntry) : State :=
  let mine (o : Origin) : Bool := match o with | .queue q' i => q' == q && i == e.idx | _ => false
  match s.run.launches.find? (fun l => l.queue == q && l.qidx == e.idx) with
  | some l => launchCheck (updLaunch s l.id (fun x => { x with cancelled := true })) l.id
  | none =>
    match s.eng.seg.find? (fun m => mine m.job.origin) with
    | some m => dropParkedTasks s m
    | none =>
      match s.eng.jobs.find? (fun j => mine j.origin) with
      | some j => cancelJob s j q e.idx
      | none => s

/-- The cancel of every entry in flight that has not completed. -/
def cancelEntries (s : State) (q : Nat) : State :=
  (qRec s q).entries.foldl (fun s e =>
    if e.fin.isSome then s
    else if e.started then cancelStarted s q e
    else qFinish (unpark s (qCtx s q) (fun p => p.who == .entry q e.idx)) q e.idx 2 0) s

/-- Q_CANCEL's effect: entries up to the SQ_TAIL of this moment settle; an ended context's queue fetches nothing further (R428). -/
def qCancel (s : State) (q arg : Nat) : State :=
  let c := qCtx s q
  let tail := if s.ctxState c = 1 || s.ctxState c = 2 then (qRec s q).tail else s.get F.qStatus_SQ_HEAD q
  let s := (setQ s q { qRec s q with cancelTail := some tail, cancelArg := arg }).put F.qStatus_STATE 2 q
  cancelEntries s q

/-- Q_CANCEL_DONE (R441): every entry has written its completion entry; a context that has ended fetches no more of them (R428). -/
def execQCancelDone (q : Nat) (s : State) : Out :=
  if q < 16384 then
    let r := qRec s q
    let settled := r.cancelTail == some (s.get F.qStatus_SQ_HEAD q) || !ctxFetches s (qCtx s q)
    if qState s q = 2 && r.destroyArgs.isEmpty && r.entries.isEmpty && settled then
      let s := setQ s q { r with cancelTail := none, cancelArg := 0, tail := s.get F.qDoorbell_SQ_TAIL q }
      ok (signalArg3 (showStall (s.put F.qStatus_STATE 1 q) q) r.cancelArg)
    else ok s
  else .fault .noSuchUnit

/-- A queue becomes FREE. -/
def freeQueue (s : State) (q : Nat) : State :=
  let c := qCtx s q
  let s := { s with obj := { s.obj with q := smapErase s.obj.q q } }
  let s := ((s.setWord .qStatus q 0 0 0).setWord .qCqHead q 0 0 0).setWord .qDoorbell q 0 0 0
  s.put F.ctxState_QUEUES (s.get F.ctxState_QUEUES c - 1) c

/-- Q_DESTROY's effect, which the manual does not spell out (log 27): nothing further is fetched and what is in flight is cancelled. -/
def qDestroy (s : State) (q arg : Nat) : State :=
  let r := qRec s q
  let arg0 := if qState s q = 2 then r.cancelArg else 0
  let r := { r with destroyArgs := r.destroyArgs ++ [arg], cancelArg := arg0, cancelTail := some (s.get F.qStatus_SQ_HEAD q) }
  cancelEntries ((setQ s q r).put F.qStatus_STATE 2 q) q

/-- Q_DESTROY_DONE (R419): every entry has completed; completion entries that cannot be written are dropped with the queue. -/
def execQDestroyDone (q : Nat) (s : State) : Out :=
  if q < 16384 then
    let r := qRec s q
    if !r.destroyArgs.isEmpty && r.entries.all (fun e => e.fin.isSome && e.bolDone) then
      let s := freeQueue (dropHolds s (r.entries.flatMap (fun e => e.holds))) q
      ok ((r.cancelArg :: r.destroyArgs).foldl signalArg3 s)
    else ok s
  else .fault .noSuchUnit

/-! Queues. -/

/-- Q_CREATE's effect (R432). -/
def qCreate (s : State) (q sq cq a2 : Nat) : State :=
  let c := a2 % 4096
  let s := setQ s q { QRec.initial with sqBase := sq, cqBase := cq, event := bitsOf a2 47 32, evEn := a2.testBit 48 }
  let s := ((s.setWord .qStatus q 0 0 0).setWord .qCqHead q 0 0 0).setWord .qDoorbell q 0 0 0
  let s := (s.put F.qStatus_STATE 1 q).put F.qStatus_PHASE 1 q
  let s := ((s.put F.qStatus_CONTEXT c q).put F.qStatus_SQ_LOG2 (bitsOf a2 20 16) q).put F.qStatus_CQ_LOG2 (bitsOf a2 28 24) q
  s.bump F.ctxState_QUEUES 1 c

def logOk (n : Nat) : Bool := decide (4 ≤ n) && decide (n ≤ 16)

def cmdQCreate (s : State) (q : Nat) : CmdRes :=
  let a2 := cmdArg s 2
  if 16384 ≤ q then (rBadIndex, s)
  else if qState s q ≠ 0 ∨ s.ctxState (a2 % 4096) ≠ 1 then (rBadState, s)
  else if cmdArg s 0 % 4096 ≠ 0 ∨ cmdArg s 1 % 4096 ≠ 0 ∨ !logOk (bitsOf a2 20 16) ∨ !logOk (bitsOf a2 28 24)
      ∨ bitsOf a2 15 12 ≠ 0 ∨ bitsOf a2 23 21 ≠ 0 ∨ bitsOf a2 31 29 ≠ 0 ∨ bitsOf a2 63 49 ≠ 0 then (rBadArg, s)
  else (rDone, qCreate s q (cmdArg s 0) (cmdArg s 1) a2)

def cmdQCancel (s : State) (q : Nat) : CmdRes :=
  if 16384 ≤ q then (rBadIndex, s)
  else if qState s q ≠ 1 ∧ qState s q ≠ 3 then (rBadState, s)
  else if !arg3Ok s then (rBadArg, s)
  else (rAccepted, qCancel s q (cmdArg s 3))

def cmdQDestroy (s : State) (q : Nat) : CmdRes :=
  if 16384 ≤ q then (rBadIndex, s)
  else if qState s q = 0 then (rBadState, s)
  else if !arg3Ok s then (rBadArg, s)
  else (rAccepted, qDestroy s q (cmdArg s 3))

/-! Memory objects (R421 to R425). -/

/-- Whether a key slot may zero an object: R309 for the slot's own OWNER. -/
def slotReady (s : State) (k : Nat) : Bool := s.isSet F.keySlot_VALID k && s.get F.keySlot_GEN_DONE k != 0

def moArgBad (s : State) : Bool :=
  let p := cmdArg s 0
  let n := cmdArg s 1
  let a2 := cmdArg s 2
  p % 65536 != 0 || n % 65536 != 0 || n == 0 || decide (dramLimit s < p + n) || decide (2 ^ 13 ≤ a2)
    || (a2.testBit 12 && !slotReady s (a2 % 4096)) || !arg3Ok s

def cmdMoAlloc (s : State) (i : Nat) : CmdRes :=
  if 1048576 ≤ i then (rBadIndex, s)
  else if !s.isSet F.hostMoTable_ENABLE ∨ (moRec s i).st ≠ 0 then (rBadState, s)
  else if moArgBad s then (rBadArg, s)
  else (rAccepted, setMo s i ⟨1, 1, cmdArg s 0, cmdArg s 1, (cmdArg s 2).testBit 12, cmdArg s 2 % 4096, cmdArg s 3⟩)

/-- Zeros over an object's range through the slices, as full-sector writes under regulator 0 (R424); what lies at or above the limit
by then is refused (R295). -/
def zeroRange (s : State) (m : MoRec) : State :=
  let rq : Rq := ⟨0, 0, slotName m.enc m.key⟩
  (List.range (m.len / 64)).foldl (fun s k =>
    if dramLimit s < m.pbase + 64 * k + 64 then limitRefused s else sectorWrite s rq (m.pbase + 64 * k) (List.replicate 64 0)) s

/-- MO_ZEROING_DONE: every zero is written, and the object is READY. -/
def execMoZeroingDone (i : Nat) (s : State) : Out :=
  if i < 1048576 then
    let m := moRec s i
    if m.st = 1 then ok (signalArg3 (setMo (zeroRange s m) i { m with st := 2 }) m.arg3) else ok s
  else .fault .noSuchUnit

def moHeld (s : State) (i : Nat) : Bool := s.isSet F.hostMoTable_ENABLE && ((moRec s i).st == 1 || (moRec s i).st == 2)

def cmdMoAddref (s : State) (i : Nat) : CmdRes :=
  let m := moRec s i
  if 1048576 ≤ i then (rBadIndex, s)
  else if !moHeld s i || decide (2 ^ 32 - 1 ≤ m.refs) then (rBadState, s)
  else (rDone, (setMo s i { m with refs := m.refs + 1 }).put F.hostCmdArg_ARG (m.refs + 1) 0)

def cmdMoRelease (s : State) (i : Nat) : CmdRes :=
  if 1048576 ≤ i then (rBadIndex, s)
  else if !moHeld s i then (rBadState, s)
  else (rDone, (moDrop s i).put F.hostCmdArg_ARG (moRec (moDrop s i) i).refs 0)

def cmdMoQuery (s : State) (i : Nat) : CmdRes :=
  if 1048576 ≤ i then (rBadIndex, s)
  else if !s.isSet F.hostMoTable_ENABLE then (rBadState, s)
  else (rDone, (s.put F.hostCmdArg_ARG (moRec s i).st 0).put F.hostCmdArg_ARG (moRec s i).refs 1)

/-! Contexts (R427 to R431). -/

def clearHalt (s : State) (c : Nat) : State :=
  (((s.setWord .coreHaltA c 0 0 0).setWord .coreHaltB c 0 0 0).setWord .coreHaltC c 0 0 0).setWord .coreHaltD c 0 0 0

/-- CTX_CREATE's effect (R427). -/
def ctxCreate (s : State) (c seed : Nat) : State :=
  let s := (clearHalt (s.put F.ctxSeed_SEED seed c) c).setWord .segFault c 0 0 0
  (s.setWord .ctxState c 0 0 1).setCtxRec c ⟨[], [], none, 0, false⟩

def cmdCtxCreate (s : State) (c : Nat) : CmdRes :=
  if 4096 ≤ c then (rBadIndex, s)
  else if s.ctxState c ≠ 0 then (rBadState, s)
  else (rDone, ctxCreate s c (cmdArg s 0))

def cmdCtxSuspend (s : State) (c : Nat) : CmdRes :=
  if 4096 ≤ c then (rBadIndex, s)
  else if s.ctxState c ≠ 1 then (rBadState, s)
  else if !arg3Ok s then (rBadArg, s)
  else (rAccepted, (s.put F.ctxState_SUSPENDING 1 c).setCtxRec c
    { s.ctxRec c with suspendArgs := (s.ctxRec c).suspendArgs ++ [cmdArg s 3] })

/-- Jobs that a suspend lets run to their end: update, dispatch and combine jobs and ACCUMULATING routines (R429). -/
def endsFirst (j : EngJob) : Bool :=
  j.started && (match j.job with
    | .update _ => true | .dispatch _ => true | .combine _ => true | .routine _ => j.acc | _ => false)

/-- Weight tasks of a context that have begun: they are not preemptible (R137). -/
def weightRuns (s : State) (c : Nat) : Bool :=
  s.eng.seg.any (fun m => m.job.ctx == c && m.tasks.any (fun t => !t.done && t.parked.isNone
    && (segTasks m.par m.runs).any (fun x => x.1 == t.no && x.2.weight)))

/-- CTX_SUSPEND_DONE (R429). -/
def execCtxSuspendDone (c : Nat) (s : State) : Out :=
  if c < 4096 then
    if s.ctxState c = 1 && s.isSet F.ctxState_SUSPENDING c && !s.eng.jobs.any (fun j => j.ctx == c && endsFirst j) && !weightRuns s c then
      let args := (s.ctxRec c).suspendArgs
      let s := ((s.put F.ctxState_STATE 2 c).put F.ctxState_SUSPENDING 0 c).setCtxRec c { s.ctxRec c with suspendArgs := [] }
      ok (args.foldl signalArg3 s)
    else ok s
  else .fault .noSuchUnit

/-- Work of a context that may go on again: routines from the commit point their save record holds (R203), units' queues. -/
def resumeJobs (s : State) (c : Nat) : State :=
  let js := s.eng.jobs.filter (fun j => j.ctx == c)
  let s := js.foldl (fun s j =>
    match j.job, j.origin with
    | .routine r, .block _ i =>
      if j.started && !j.acc then
        updJob s j.id (fun x => { x with cursor := afterCommits (bodyUnits r.body) (leNat (sramRead s i.core r.save 8)), census := [], got := [] })
      else s
    | _, _ => s) s
  (js.map (fun j => j.unit)).foldl startHead s

def cmdCtxResume (s : State) (c : Nat) : CmdRes :=
  if 4096 ≤ c then (rBadIndex, s)
  else if s.ctxState c ≠ 2 then (rBadState, s)
  else (rDone, resumeJobs (s.put F.ctxState_STATE 1 c) c)

/-- Ferries a context owns. -/
def ferriesOf (s : State) (c : Nat) : List Nat :=
  (List.range 32).filter (fun f => s.isSet F.ferryCtrl_VALID f && s.get F.ferryCtrl_OWNER f == c)

/-- CTX_CANCEL's effect (R442). -/
def ctxCancel (s : State) (c arg : Nat) : State :=
  let qs := (queuesOf s c).filter (fun q => qState s q == 1 || qState s q == 3)
  let s := qs.foldl (fun s q => qCancel s q 0) s
  let s := (ferriesOf s c).foldl (fun s f => abortFerry s f 0x23) s
  s.setCtxRec c { s.ctxRec c with cancelArgs := (s.ctxRec c).cancelArgs ++ [arg] }

def cmdCtxCancel (s : State) (c : Nat) : CmdRes :=
  if 4096 ≤ c then (rBadIndex, s)
  else if s.ctxState c = 0 ∨ s.ctxState c = 4 then (rBadState, s)
  else if !arg3Ok s then (rBadArg, s)
  else (rAccepted, ctxCancel s c (cmdArg s 3))

/-- CTX_CANCEL_DONE (R442): every cancel and abort has finished. -/
def execCtxCancelDone (c : Nat) (s : State) : Out :=
  if c < 4096 then
    let busy := (queuesOf s c).any (fun q => qState s q == 2 && (qRec s q).destroyArgs.isEmpty)
    if busy || (ferriesOf s c).any (fun f => !(liveSailings s f).isEmpty) then ok s
    else ok ((s.ctxRec c).cancelArgs.foldl signalArg3 (s.setCtxRec c { s.ctxRec c with cancelArgs := [] }))
  else .fault .noSuchUnit

/-! Teardown (R430, Table 13.14). -/

/-- Cores whose stores hold a context's data. -/
def coresServing (s : State) (c : Nat) : List Nat := (List.range 240).filter (fun k => s.get F.coreBinding_CONTEXT k == c)

/-- Key slots, bollards, berths and regions of a context. -/
def slotsOf (s : State) (c : Nat) : List Nat :=
  (List.range 4096).filter (fun k => s.isSet F.keySlot_VALID k && s.get F.keySlot_OWNER k == c)
def bollardsOf (s : State) (c : Nat) : List Nat :=
  (List.range 16384).filter (fun n => s.isSet F.bolCtrl_VALID n && s.get F.bolCtrl_OWNER n == c)
def berthsOf (s : State) (c : Nat) : List Nat :=
  (s.sail.berth.filter (fun kb => kb.2.valid && kb.2.owner == c)).map Prod.fst
def regionsOf (s : State) (c : Nat) : List Nat := (s.fab.region.filter (fun kr => kr.2.context == c)).map Prod.fst

/-- An ownership region becomes not VALID. -/
def regionDrop (s : State) (r : Nat) : State :=
  let s := s.setWord .fabRegion r 0 3 (withBits (s.word .fabRegion r 0 3) 0 0 0)
  { s with fab := { s.fab with region := smapErase s.fab.region r } }

/-- Step 7: what the context owned becomes not VALID or FREE, its grant, Grotto masks and halt record return to reset. -/
def freeOwned (s : State) (c : Nat) : State :=
  let s := (List.range 16).foldl (fun s g => s.put F.segAttr_VALID 0 c g) s
  let s := { s with mem := { s.mem with seg := smapDrop s.mem.seg (fun k => k / 16 == c), segPosted := s.mem.segPosted.filter (fun k => k / 16 != c) } }
  let s := (slotsOf s c).foldl (fun s k => keyZero (s.put F.keySlot_VALID 0 k) k) s
  let s := (bollardsOf s c).foldl (fun s n => s.put F.bolCtrl_VALID 0 n) s
  let s := (ferriesOf s c).foldl (fun s f => (s.put F.ferryCtrl_RUN 0 f).put F.ferryCtrl_VALID 0 f) s
  let s := (berthsOf s c).foldl (fun s b => berthWrite s b (withBits (s.word .berth b 0 1) 12 12 0)) s
  let s := (regionsOf s c).foldl regionDrop s
  let s := (queuesOf s c).foldl freeQueue s
  let s := (s.setWord .hmCtxGrant c 0 0 (RegId.hmCtxGrant.resetWord c 0)).setWord .ctxGrottoMask c 0 0 (RegId.ctxGrottoMask.resetWord c 0)
  clearHalt s c

/-- What a step does when it begins. -/
def teardownBegin (s : State) (c step : Nat) : State :=
  match step with
  | 1 =>
    let fin (e : QEntry) : QEntry := if e.fin.isNone && !e.started then { e with fin := some (2, 0) } else e
    (queuesOf s c).foldl (fun s q => setQ s q { qRec s q with entries := (qRec s q).entries.map fin, tail := s.get F.qStatus_SQ_HEAD q }) s
  | 2 => endEntries (endJobs (endRunning s c) c) c none true
  | 3 => abortFerriesOf s c 0x22
  | 5 => (coresServing s c).foldl (fun s k => freeCore (glFlush s k) k) s
  | 6 => (queuesOf s c).foldl (fun s q => setQ (dropHolds s ((qRec s q).entries.flatMap (fun e => e.holds))) q { qRec s q with entries := [] }) s
  | 7 => freeOwned s c
  | 8 =>
    let arg := ((s.ctxRec c).destroyArg).getD 0
    signalArg3 ((s.setWord .ctxState c 0 0 0).setCtxRec c ⟨[], [], none, 0, false⟩) arg
  | _ => s

/-- Whether what a step waits for has ended. -/
def teardownEnded (s : State) (c step : Nat) : Bool :=
  match step with
  | 4 => !s.eng.jobs.any (fun j => j.ctx == c)
  | 5 =>
    (ferriesOf s c).all (fun f => (liveSailings s f).isEmpty)
      && (coresServing s c).all (fun k => !s.isSet F.coreBinding_BOUND k)
      && (queuesOf s c).all (fun q => (qRec s q).entries.all (fun e => e.bolDone && !s.upstream))
  | _ => true

/-- CTX_DESTROY's effect: TEARDOWN, step 1. -/
def ctxDestroy (s : State) (c arg : Nat) : State :=
  let s := (s.put F.ctxState_STATE 4 c).put F.ctxState_SUSPENDING 0 c
  teardownBegin (s.setCtxRec c { s.ctxRec c with destroyArg := some arg, step := 1 }) c 1

def cmdCtxDestroy (s : State) (c : Nat) : CmdRes :=
  if 4096 ≤ c then (rBadIndex, s)
  else if s.ctxState c = 0 ∨ s.ctxState c = 4 then (rBadState, s)
  else if !arg3Ok s then (rBadArg, s)
  else (rAccepted, ctxDestroy s c (cmdArg s 3))

/-- TEARDOWN_STEP_DONE: the step in progress ends once its waiting has, and the next begins; FREE ends the teardown. -/
def execTeardownStepDone (c : Nat) (s : State) : Out :=
  if c < 4096 then
    let n := (s.ctxRec c).step
    if s.ctxState c = 4 && teardownEnded s c n then
      ok (teardownBegin (s.setCtxRec c { s.ctxRec c with step := n + 1 }) c (n + 1))
    else ok s
  else .fault .noSuchUnit

/-! Submission. -/

/-- The command of Table 13.8 that OP names, on INDEX; another OP breaks the table (log 28). -/
def hostOp (s : State) (op index : Nat) : CmdRes :=
  match op with
  | 0x01 => cmdCtxCreate s index
  | 0x02 => cmdCtxSuspend s index
  | 0x03 => cmdCtxResume s index
  | 0x04 => cmdCtxCancel s index
  | 0x05 => cmdCtxDestroy s index
  | 0x10 => cmdQCreate s index
  | 0x11 => cmdQCancel s index
  | 0x12 => cmdQDestroy s index
  | 0x20 => cmdMoAlloc s index
  | 0x21 => cmdMoAddref s index
  | 0x22 => cmdMoRelease s index
  | 0x23 => cmdMoQuery s index
  | _ => (rBadArg, s)

/-- A write of HOST_CMD (R418): a changed REQ_SEQ submits. The answer follows in the same step, so no command is ever unanswered
when the next arrives unless a reset came between. -/
def hostCmdWrite (s : State) (op index seq : Nat) : State :=
  let old := s.get F.hostCmd_REQ_SEQ
  let idle := s.get F.hostCmdStatus_DONE_SEQ == old
  let s := ((s.put F.hostCmd_OP op).put F.hostCmd_INDEX index).put F.hostCmd_REQ_SEQ seq
  if seq % 256 = old then s
  else if !idle then s.put F.hostCmdStatus_OVERRUN 1
  else
    let r := if s.ready then hostOp s (op % 256) (index % 1048576) else (rNotReady, s)
    (r.2.put F.hostCmdStatus_RESULT r.1).put F.hostCmdStatus_DONE_SEQ seq

/-- A command with the arguments it names. -/
def hostCmd (s : State) (seq op index : Nat) (args : List (Nat × Nat)) : Out :=
  let arg (s : State) (ja : Nat × Nat) : State := (wideWrite s .hostCmdArg ja.1).put F.hostCmdArg_ARG ja.2 ja.1
  bar0 s (hostCmdWrite (wideWrite (args.foldl arg s) .hostCmd) op index seq)

/-- CTX_CREATE. -/
def execCtxCreate (seq ctx seed : Nat) (s : State) : Out := hostCmd s seq 0x01 ctx [(0, seed)]
/-- CTX_SUSPEND. -/
def execCtxSuspend (seq ctx arg3 : Nat) (s : State) : Out := hostCmd s seq 0x02 ctx [(3, arg3)]
/-- CTX_RESUME. -/
def execCtxResume (seq ctx : Nat) (s : State) : Out := hostCmd s seq 0x03 ctx []
/-- CTX_CANCEL. -/
def execCtxCancel (seq ctx arg3 : Nat) (s : State) : Out := hostCmd s seq 0x04 ctx [(3, arg3)]
/-- CTX_DESTROY. -/
def execCtxDestroy (seq ctx arg3 : Nat) (s : State) : Out := hostCmd s seq 0x05 ctx [(3, arg3)]
/-- Q_CREATE. -/
def execQCreate (seq q sqBase cqBase arg2 : Nat) (s : State) : Out := hostCmd s seq 0x10 q [(0, sqBase), (1, cqBase), (2, arg2)]
/-- Q_CANCEL. -/
def execQCancel (seq q arg3 : Nat) (s : State) : Out := hostCmd s seq 0x11 q [(3, arg3)]
/-- Q_DESTROY. -/
def execQDestroy (seq q arg3 : Nat) (s : State) : Out := hostCmd s seq 0x12 q [(3, arg3)]
/-- MO_ALLOC. -/
def execMoAlloc (seq i pbase len arg2 arg3 : Nat) (s : State) : Out := hostCmd s seq 0x20 i [(0, pbase), (1, len), (2, arg2), (3, arg3)]
/-- MO_ADDREF. -/
def execMoAddref (seq i : Nat) (s : State) : Out := hostCmd s seq 0x21 i []
/-- MO_RELEASE. -/
def execMoRelease (seq i : Nat) (s : State) : Out := hostCmd s seq 0x22 i []
/-- MO_QUERY. -/
def execMoQuery (seq i : Nat) (s : State) : Out := hostCmd s seq 0x23 i []

end Sys2Proof.Machine
end

