-- ==== Sys2Proof/Machine/HostLink.lean ====
section
/-! DEFINITION. The host link: the Sump ring, Bus Master Enable, D3hot, host reads, CXL.cache messages, function-level reset
(13: R411 to R414, R443 to R454). -/

namespace Sys2Proof.Machine

/-! The Sump ring. -/

/-- A write to SUMP_RING: TAIL counts from the moment ENABLE goes to 1 (R443, Table 13.24). -/
def sumpRing (s : State) (v : Nat) : State :=
  let was := s.isSet F.sumpRing_ENABLE
  let s := storeWord s .sumpRing 0 0 0 v
  sumpDrain (if !was && s.isSet F.sumpRing_ENABLE then s.put F.sumpTail_TAIL 0 else s)

/-- SUMP_RING_WRITE. -/
def execSumpRingWrite (val : Nat) (s : State) : Out := bar0 s (sumpRing (wideWrite s .sumpRing) val)

/-- A write to SUMP_HEAD. -/
def sumpHead (s : State) (v : Nat) : State := sumpDrain (s.put F.sumpHead_HEAD v)

/-- SUMP_HEAD_WRITE. -/
def execSumpHeadWrite (val : Nat) (s : State) : Out := bar0 s (sumpHead (wideWrite s .sumpHead) val)

/-! Bus mastering (R449, R450, R454). -/

/-- The host addresses a group slot waits for, over the link or the host-line store. -/
def hostWait (r : SlotRec) : List Nat :=
  let lines := r.frags.filterMap (fun f => match f.wait with | .line ha => some ha | _ => none)
  let keys := r.loads.flatMap (fun o => o.need.map Prod.fst ++ o.want.map (fun w => w.key))
  lines ++ (keys.filter (fun k => keyTgt k == 1 || keyTgt k == 3)).map keyAddr

/-- Contexts with a host read outstanding: context, host bus address, the queue entry whose work reads. -/
def hostWaits (s : State) : List (Nat × Nat × Option (Nat × Nat)) :=
  let threads := s.run.slots.filterMap (fun kr =>
    match (hostWait kr.2).head?, blockRec s kr.2.block with
    | some a, some b => some (b.ctx, a, entryOf s b.id)
    | _, _ => none)
  let jobs := s.hl.reads.filterMap (fun h => if h.core = jobReader then
      some (h.ctx, h.addr, (jobRec s h.key).bind (fun j => originEntry s j.origin)) else none)
  threads ++ jobs

/-- What a clearing of Bus Master Enable does to contexts that wait for the host (R449). -/
def loseHost (s : State) : State := (hostWaits s).foldl (fun s w => hostPathLost s w.1 w.2.1 w.2.2) s

/-- BUS_MASTER_DISABLE. -/
def execBusMasterDisable (s : State) : Out := ok (loseHost (s.put F.hostStatus_BME 0))

/-- What is sent first once upstream requests may be issued again (R450, R453): held records, held completion entries, pending
MSI-X messages, then the evictions that drains and a function-level reset left. -/
def upstreamAgain (s : State) : State :=
  if s.upstream then hlPurge (hlDrainAll <| msixFlush ((s.obj.q.map Prod.fst).foldl qDrain (sumpDrain s))) else s

/-- BUS_MASTER_ENABLE. -/
def execBusMasterEnable (s : State) : Out :=
  let s := s.put F.hostStatus_BME 1
  ok (upstreamAgain { s with hl := { s.hl with held := false } })

/-- D3HOT_ENTRY (R454): as a clearing of Bus Master Enable; BAR0 values stay as they are. -/
def execD3hotEntry (s : State) : Out := ok (loseHost { s with hl := { s.hl with d3 := true, held := true } })

/-- D0_RETURN (R454): not a reset; what waits goes out once Bus Master Enable is set again. -/
def execD0Return (s : State) : Out := ok (upstreamAgain { s with hl := { s.hl with d3 := false } })

/-! Host reads (R412, R413). -/

/-- A read's bytes delivered to the job or the line request that asked. -/
def readDone (s : State) (h : HostRead) (poison : Bool) (bs : List Byte) : State :=
  if h.core = jobReader then updJob s h.key (fun j => { j with got := j.got ++ [(h.addr, poison, bs)] })
  else
    match s.core.lreq.find? (fun l => l.core == h.core && l.id == h.req) with
    | none => s
    | some l => lineArrived s l poison bs h.ctx

/-- HOST_READ_COMPLETION: an error or a timeout delivers the bytes as poisoned, with record 0x0D02; while bus mastering is cleared
the data is discarded. -/
def execHostReadCompletion (id : Nat) (okRead : Bool) (data : List Byte) (s : State) : Out :=
  match s.hl.reads.find? (fun h => h.id == id) with
  | none => ok s
  | some h =>
    if okRead && data.length != h.len then ok s
    else
      let s := { s with hl := { s.hl with reads := s.hl.reads.filter (fun x => x.id != id) } }
      let s := if okRead then s else post s 0xD003 none 0 0x0D02 h.addr
      if !s.upstream then ok s
      else if okRead then ok (readDone s h false data)
      else ok (readDone { s with free := s.free + 1 } h true (undefinedBytes s h.len))

/-! CXL.cache (R414, R445 to R448). -/

/-- CXL_CACHE_ENABLE. -/
def execCxlCacheEnable (s : State) : Out := ok (cxlShow { s with hl := { s.hl with cacheEn := true } })

/-- CXL_CACHE_DISABLE. -/
def execCxlCacheDisable (s : State) : Out := ok (cxlShow { s with hl := { s.hl with cacheEn := false } })

/-- A snoop's kind. -/
inductive Snoop where
  | data | inv | cur
  deriving DecidableEq, Repr

/-- The answer from the eviction buffer (R447); SnpCur is answered as SnpData is (log 29). -/
def snpBuffer (k : Snoop) (e : EvictEntry) : D2H :=
  match e.st, k with
  | .m, .inv => .rspIFwdM e.ha e.data e.poison
  | .m, _ => .rspSFwdM e.ha e.data e.poison
  | _, .inv => .rspIHitSE e.ha
  | _, _ => .rspSHitSE e.ha

/-- The answer for a held line, and the state it goes to (Table 13.29). -/
def snpLine (k : Snoop) (l : HostLine) : D2H × Mesi :=
  match l.st, k with
  | .i, _ => (.rspIHitI l.ha, .i)
  | .m, .data => (.rspSFwdM l.ha l.data l.poison, .s)
  | .m, .inv => (.rspIFwdM l.ha l.data l.poison, .i)
  | .m, .cur => (.rspVFwdV l.ha l.data l.poison, .m)
  | _, .data => (.rspSHitSE l.ha, .s)
  | _, .inv => (.rspIHitSE l.ha, .i)
  | st, .cur => (.rspVHitV l.ha, st)

def dropLine (s : State) (ha : Nat) : State := setHostLines s (s.hl.lines.filter (fun x => x.ha != ha))

/-- A snoop answered (R446, R447). A line whose read is outstanding is answered RspIHitI, and a shared copy of it is dropped with
that answer (log 29). -/
def snoop (s : State) (k : Snoop) (ha : Nat) : State :=
  match s.hl.evict.find? (fun e => e.ha == ha) with
  | some e =>
    cxlSend { s with hl := { s.hl with evict := updWhere s.hl.evict (fun x => x.ha == ha) (fun x => { x with snooped := true }) } } (snpBuffer k e)
  | none =>
    if s.hl.creq.any (fun r => r.ha == ha) then cxlSend (dropLine s ha) (.rspIHitI ha)
    else
      match hlFind s ha with
      | none => cxlSend s (.rspIHitI ha)
      | some l =>
        let r := snpLine k l
        let lines := s.hl.lines.map (fun x => if x.ha = ha then { x with st := r.2 } else x)
        cxlSend (setHostLines s (lines.filter (fun x => x.ha != ha || r.2 != .i))) r.1

/-- SNP_DATA. -/
def execSnpData (ha : Nat) (s : State) : Out := ok (snoop s .data (ha / 64 * 64))
/-- SNP_INV. -/
def execSnpInv (ha : Nat) (s : State) : Out := ok (snoop s .inv (ha / 64 * 64))
/-- SNP_CUR. -/
def execSnpCur (ha : Nat) (s : State) : Out := ok (snoop s .cur (ha / 64 * 64))

/-- An eviction-buffer entry freed (R447); evictions that waited for room go on. -/
def freeEvict (s : State) (ha : Nat) : State :=
  let n := (hostSet s ha).1
  let s := { s with hl := { s.hl with evict := s.hl.evict.filter (fun e => e.ha != ha) } }
  hlPurge (if s.get F.cavSliceStatus_STATE n = 1 then hlDrain s n else s)

/-- Threads that waited to own a line repeat their access. -/
def wakeOwners (s : State) (ha : Nat) : State :=
  updFrags s (fun _ _ f => match f.wait with | .line a => if a = ha then { f with wait := .none } else f | _ => f)

/-- A line arrives with its GO, the request done. -/
def lineGranted (s : State) (l : HostLine) : State :=
  let s := { s with hl := { s.hl with creq := s.hl.creq.filter (fun r => r.ha != l.ha) } }
  wakeOwners (hlPut s l) l.ha

def mesiOf (n : Nat) : Mesi := match n with | 0 => .i | 1 => .s | 2 => .e | _ => .m

/-- GO_RECEIVE (R446, R447): a read's grant, or the end of an evict request without a pull. -/
def execGoReceive (ha st : Nat) (data : List Byte) (s : State) : Out :=
  let ha := ha / 64 * 64
  if st < 4 then
    if inEvict s ha then ok (freeEvict s ha)
    else if s.hl.creq.any (fun r => r.ha == ha) then
      if data.length = 64 then ok (lineGranted s ⟨ha, mesiOf st, data, false⟩) else .fault .noSuchUnit
    else ok s
  else .fault .noSuchUnit

/-- GO_WRITEPULL (R447): the buffered data is sent and the entry freed. -/
def execGoWritepull (ha : Nat) (s : State) : Out :=
  let ha := ha / 64 * 64
  match s.hl.evict.find? (fun e => e.ha == ha) with
  | none => ok s
  | some e => ok (freeEvict (cxlSend s (.evictData ha e.data e.poison)) ha)

/-- GO_WRITEPULL_DROP (R447). -/
def execGoWritepullDrop (ha : Nat) (s : State) : Out :=
  let ha := ha / 64 * 64
  if inEvict s ha then ok (freeEvict s ha) else ok s

/-- The physical slice of a host line. -/
def hostSliceUnit (s : State) (ha : Nat) : Nat := unitId 3 (s.get F.idSliceMap_PHYS_SLICE (hostSet s ha).1)

/-- GO_ERR (R445): the line is delivered as poisoned, for one use, with record 0x0D05. -/
def execGoErr (ha : Nat) (s : State) : Out :=
  let ha := ha / 64 * 64
  let posted (s : State) : State := post s (hostSliceUnit s ha) none 0 0x0D05 ha
  if inEvict s ha then ok (posted (freeEvict s ha))
  else if s.hl.creq.any (fun r => r.ha == ha) then
    ok (posted (lineGranted { s with free := s.free + 1 } ⟨ha, .i, undefinedBytes s 64, true⟩))
  else ok s

/-! Function-level reset (R451 to R453). -/

/-- Registers of some reset domains at their reset values (R11), split accesses forgotten, and writes that wait for their unit's domain
(R30). -/
def resetRegs (s : State) (p : RDomain → Bool) : State :=
  { s with regs := s.regs.filter (fun e => !p e.1.reg.desc.dom), acc := ⟨[], []⟩,
           pwr := { s.pwr with late := s.pwr.late.filter (fun l => !p l.reg.desc.dom) } }

/-- Commits in progress leave undefined values in their group's tensors (R332). -/
def stopCommits (s : State) : State :=
  s.eng.jobs.foldl (fun s j =>
    match j.job with
    | .update p => if j.started && j.cursor == 1 then commitLost s j p else s
    | _ => s) s

/-- Contexts, sailings, engine work, queues and objects gone; host lines to be given back (R376, R451). -/
def functionDrop (s : State) : State :=
  let s := { s with run := ⟨[], [], [], [], [], []⟩, eng := { s.eng with jobs := [], seg := [] }, obj := { s.obj with q := [], mo := [], ctx := [] } }
  let s := { s with sail := ⟨[], [], [], [], [], []⟩, fab := { s.fab with reqs := [], region := [] } }
  { s with core := { s.core with lreq := [] }, hl := { s.hl with reads := [], held := false, flrEvict := !s.hl.lines.isEmpty } }

/-- What a function reset takes away at once (R376, R451). -/
def functionStop (s : State) : State :=
  let s := (s.put F.hostStatus_READY 0).put F.fabNode_READY 0
  let s := resetSailings s 0x20
  let s := stopCommits s
  let s := (List.range 240).foldl (fun s k => resetVictim (setFlags (glFlush s k) k { coreFlags s k with servedNone := true, closed := false, clearing := false }) k) s
  (functionDrop (s.run.blocks.foldl dropBlock s)).put F.hostStatus_BME 0

/-- Memory segments and the MSI-X table at reset (log 6). -/
def dropWindows (s : State) : State :=
  let m := { s.mem with seg := [], segPosted := [], parked := [] }
  { s with mem := m, hl := { s.hl with msix := [], pba := [] } }

/-- Function-domain registers at reset, key slots zeroised, memory segments withdrawn, the MSI-X table at reset (log 6). -/
def functionClear (s : State) : State :=
  let keys := (List.range 4096).filter (fun k => s.word .keySlot k 0 0 != 0)
  showEngines (resetRegs (dropWindows (keys.foldl keyZero s)) (fun d => d == .function))

/-- A function reset under way, back in D0. -/
def flrBegin (s : State) : State := { s with hl := { s.hl with flr := true, d3 := false } }

/-- A function-level reset up to its last row. -/
def functionReset (s : State) : State :=
  cxlShow (flrBegin (functionClear (functionStop s)))

/-- FUNCTION_RESET. -/
def execFunctionReset (s : State) : Out := ok (functionReset s)

/-- FLR_COMPLETE (Table 13.32): READY and FAB_NODE READY, record 0x0D03. -/
def execFlrComplete (s : State) : Out :=
  if s.hl.flr then
    let s := { s with hl := { s.hl with flr := false } }
    ok (post ((s.put F.hostStatus_READY 1).put F.fabNode_READY 1) 0xD003 none 0 0x0D03 0)
  else ok s

end Sys2Proof.Machine
end

