-- ==== Sys2Proof/Machine/Image.lean ====
section
/-! DEFINITION. The configuration flash and the Epnen image (14: R456 to R460). -/

namespace Sys2Proof.Machine

/-- A byte of the configuration flash; one that nothing has written reads 0 (log 5). -/
def flashByte (s : State) (a : Nat) : Byte := smapGet s.boot.flash 0 a

def flashWrite (s : State) (a : Nat) (bs : List Byte) : State :=
  let f := (List.range bs.length).foldl (fun f k => smapSet f 0 (a + k) (nthD bs k 0)) s.boot.flash
  { s with boot := { s.boot with flash := f } }

/-- Where an image slot begins, and its size (Table 14.1). -/
def slotBase (img : Nat) : Nat := if img = 0 then 0 else 0x1E00000
def slotSize : Nat := 0x1E00000

/-- A little-endian field of an image slot. -/
def imgAt (s : State) (img off n : Nat) : Nat := leNat (tabulate n (fun k => flashByte s (slotBase img + off + k)))

/-- A section table entry (R458). -/
structure ImgSection where
  kind : Nat
  off : Nat
  size : Nat
  deriving DecidableEq, Repr

def imgSections (s : State) (img : Nat) : List ImgSection :=
  tabulate (min 16 (imgAt s img 6 2)) (fun k =>
    ⟨imgAt s img (0x40 + 16 * k) 2, imgAt s img (0x44 + 16 * k) 4, imgAt s img (0x48 + 16 * k) 4⟩)

/-- Sections that an image must have (Table 14.3). -/
def requiredKinds : List Nat := [1, 2, 3, 4, 5, 6]

/-- Whether the section table obeys R458. -/
def sectionsOk (s : State) (img : Nat) : Bool :=
  let ss := imgSections s img
  let lo := 0x40 + 16 * imgAt s img 6 2
  let hi := imgAt s img 8 4 - 256
  requiredKinds.all (fun k => (ss.filter (fun x => x.kind == k)).length == 1)
    && ss.all (fun x => x.kind == 0xFF || (ss.filter (fun y => y.kind == x.kind)).length == 1)
    && ss.all (fun x => x.off % 256 == 0 && decide (lo ≤ x.off) && decide (x.off + x.size ≤ hi))
    && (List.range ss.length).all (fun i => (List.range i).all (fun j =>
        match ss[i]?, ss[j]? with
        | some a, some b => decide (a.off + a.size ≤ b.off) || decide (b.off + b.size ≤ a.off)
        | _, _ => true))

/-- Whether the header obeys R457. -/
def headerOk (s : State) (img : Nat) : Bool :=
  let n := imgAt s img 6 2
  let size := imgAt s img 8 4
  imgAt s img 0 4 == 0x45504E31 && imgAt s img 4 2 == 1 && decide (2 ≤ n) && decide (n ≤ 16)
    && size % 4096 == 0 && decide (65536 ≤ size) && decide (size ≤ slotSize) && decide (imgAt s img 0xE 1 ≤ 3)

/-- DISRUPTIVE up to the 0x00 that ends it (Table 14.5). -/
def takeCodes : List Nat → List Nat
  | [] => []
  | x :: xs => if x = 0 then [] else x :: takeCodes xs

/-- The CONFIG section of an image, at its offset (Table 14.5). -/
def imgConfig (s : State) (img : Nat) : Option ImageCfg :=
  match (imgSections s img).find? (fun x => x.kind == 2) with
  | none => none
  | some c =>
    let f (o n : Nat) : Nat := imgAt s img (c.off + o) n
    let cfg : ImageCfg :=
      { node := f 0 2, source := f 2 2, portA := f 4 1, portB := f 5 1, hashKey := f 8 8, cavFlags := f 0x10 1, maxMapout := f 0x11 1,
        degraded := f 0x12 1, wearLimit := f 0x13 1, ceLimit := f 0x14 2, ueLimit := f 0x16 2,
        disruptive := takeCodes (tabulate 16 (fun k => f (0x18 + k) 1)), build := imgAt s img 0x10 4, secVersion := imgAt s img 0xC 2 }
    if 0x28 ≤ c.size then some cfg else none

/-- Whether every field has a value of Table 14.5 (R460). -/
def configOk (c : ImageCfg) : Bool :=
  decide (1 ≤ c.node) && decide (c.node ≤ 0xFFFE) && decide (1 ≤ c.source) && decide (c.source ≤ 0xFFFE)
    && decide (c.portA ≤ 15) && decide (c.portB ≤ 15) && c.portA != c.portB && decide (c.cavFlags ≤ 3) && decide (c.maxMapout ≤ 8)
    && decide (c.degraded ≤ 0x3F) && decide (110 ≤ c.wearLimit) && decide (c.wearLimit ≤ 250)

/-- The first condition of R459 that an image fails, in the rule's order: 0 header, sections and CONFIG, 1 key, 2 signature, 3
security version; none: valid. The digest and signature checks are the command's (log 9). -/
def imgFault (s : State) (img : Nat) (keyOk sigOk : Bool) : Option Nat :=
  if !headerOk s img || !sectionsOk s img || !((imgConfig s img).any configOk) then some 0
  else if !keyOk || s.boot.otpRevoked.contains (imgAt s img 0xE 1) then some 1
  else if !sigOk then some 2
  else if imgAt s img 0xC 2 < s.boot.otpMin then some 3
  else none

/-! PREFERRED, BAD and ATTEMPTS of each image (R461, R462). -/

def preferred (s : State) : Nat := s.get F.rbBoot_PREFERRED
def imgBad (s : State) (img : Nat) : Bool := if img = 0 then s.isSet F.rbBoot_A_BAD else s.isSet F.rbBoot_B_BAD
def setBad (s : State) (img v : Nat) : State := bankChange (if img = 0 then s.put F.rbBoot_A_BAD v else s.put F.rbBoot_B_BAD v)
def attempts (s : State) (img : Nat) : Nat := if img = 0 then s.get F.rbBoot_A_ATTEMPTS else s.get F.rbBoot_B_ATTEMPTS
def setAttempts (s : State) (img v : Nat) : State :=
  bankChange (if img = 0 then s.put F.rbBoot_A_ATTEMPTS v else s.put F.rbBoot_B_ATTEMPTS v)

/-- The image that the ROM tries now: PREFERRED, else the other, unless BAD. -/
def imgToTry (s : State) : Option Nat :=
  if !imgBad s (preferred s) then some (preferred s)
  else if !imgBad s (1 - preferred s) then some (1 - preferred s) else none

/-- LK_BOOT_STATUS IMAGE and FALLBACK (Table 14.9). -/
def showImage (s : State) : State :=
  match s.boot.img with
  | none => s
  | some i => (s.put F.lkBootStatus_IMAGE i).put F.lkBootStatus_FALLBACK (if i = preferred s then 0 else 1)

/-- PREFERRED changed. -/
def setPref (s : State) (img : Nat) : State := showImage (bankChange (s.put F.rbBoot_PREFERRED img))

end Sys2Proof.Machine
end

