-- ==== Sys2Proof/Machine/Optics.lean ====
section
/-! DEFINITION. Optical ports, their lanes and emitters (12: R378 to R383, R392 to R397). -/

namespace Sys2Proof.Machine

/-- Unit IDs of a wavelength and an emitter (Table 1.5). -/
def waveUnit (p w : Nat) : Nat := unitId 5 (p * 16 + w)
def emitterUnit (n : Nat) : Nat := unitId 6 n

/-- The emitter of a port by its number on the port, and the port of an emitter (R379). -/
def emitterOf (p e : Nat) : Nat := p / 8 * 80 + p % 8 * 10 + e
def portOfEmitter (n : Nat) : Nat := n / 80 * 8 + n % 80 / 10

/-- States of Table 12.15. -/
def eInUse : Nat := 0
def eLit : Nat := 1
def eDark : Nat := 2
def eWorn : Nat := 3
def eFailed : Nat := 4

def emState (s : State) (n : Nat) : Nat := s.get F.optEmitter_STATE n

/-- The wavelength of a logical lane; 15 none. -/
def laneWl (s : State) (p l : Nat) : Nat := s.get (F.fabLaneMap_WL l) p

/-- Whether both domains that carry a port are ON (R383, Table 1.4). -/
def portPowered (s : State) (p : Nat) : Bool := s.domState (32 + p / 4) == 0 && s.domState (36 + p / 8) == 0

/-- FT_SPARES WL of a port shown: its spare wavelengths with a lit emitter. -/
def showWlSpares (s : State) (p : Nat) : State :=
  let n := ((List.range 10).filter (fun w => (s.get F.fabLaneMap_SPARE_WL p).testBit w)).length
  let f := s.get F.ftSpares_WL
  s.put F.ftSpares_WL (withBits f (2 * p + 1) (2 * p) n)

/-! Training (R392, R393, R395). -/

/-- PORT_TRAINING_START: a DOWN port that is not disabled and has power; its node number and lanes are sent (R393). -/
def execPortTrainingStart (port : Nat) (s : State) : Out :=
  if port < 16 then
    if s.get F.fabPortStatus_STATE port = 0 ∧ !s.isSet F.fabPortCtrl_DISABLE port ∧ portPowered s port then
      ok (linkSend (setPortState s port 1) port (.train (thisNode s) (proposal s port)))
    else ok s
  else .fault .noSuchUnit

/-- What both ends have agreed (R393): the state ACTIVE, the lane set, the peer, and the path delay, half of the echo's round trip. -/
def linkUp (s : State) (p peer set echo : Nat) : State :=
  let s := setLanes (setPortState s p 2) p set
  (s.put F.fabPortStatus_PEER_NODE (peer % 65536) p).put F.fabPortStatus_DELAY (min (echo / 2) 65535) p

/-- PORT_TRAINING_TIMEOUT. -/
def execPortTrainingTimeout (port : Nat) (s : State) : Out :=
  if port < 16 then (if s.get F.fabPortStatus_STATE port = 1 then ok (portDown s port) else ok s) else .fault .noSuchUnit

/-! Lanes (R396, R397). -/

/-- This end's LANESET sent, from its next header slot on (R396). -/
def sendLaneSet (s : State) (p set : Nat) : State :=
  let x := portState s p
  linkSend (setPort s p { x with pending := x.pending ++ [(set, x.tx)] }) p (.laneSet set x.tx)

/-- The set this end named last, where it waits for an answer, else the set in use. -/
def namedSet (s : State) (p : Nat) : Nat := (((portState s p).pending.getLast?).map Prod.fst).getD (s.get F.fabPortStatus_LANE_SET p)

/-- A lane asked out of an ACTIVE port's set, and into it (R396). -/
def leaveSet (s : State) (p l : Nat) : State :=
  if s.get F.fabPortStatus_STATE p = 2 ∧ (namedSet s p).testBit l then sendLaneSet s p (namedSet s p - 2 ^ l) else s
def joinSet (s : State) (p l : Nat) : State :=
  if s.get F.fabPortStatus_STATE p = 2 then sendLaneSet s p (namedSet s p ||| 2 ^ l) else s

/-- A lane this end cannot carry until it has moved, and one it can again. -/
def markLane (s : State) (p l : Nat) : State := setPort s p { portState s p with lanes := (portState s p).lanes ||| 2 ^ l }
def clearLane (s : State) (p l : Nat) : State :=
  let bad := (portState s p).lanes
  setPort s p { portState s p with lanes := if bad.testBit l then bad - 2 ^ l else bad }

/-- A spare wavelength with a lit emitter that no move has taken. -/
def spareWl (s : State) (p : Nat) : Option Nat :=
  (List.range 10).find? (fun w => (s.get F.fabLaneMap_SPARE_WL p).testBit w && !(portState s p).moving.any (fun m => m.2 == w))

/-- The emitter that the emitter map gives a wavelength (R379). -/
def emitterAt (s : State) (p w : Nat) : Nat := emitterOf p (smapGet s.bank.emap w (p * 16 + w))

/-- A dark spare emitter that can be retuned first (R397, R380). -/
def darkSpare (s : State) (p : Nat) : Bool :=
  (List.range 10).any (fun e => emState s (emitterOf p e) == eDark && !s.fab.retune.any (fun r => r.1 == emitterOf p e))

/-- A lane's move begins, or waits for a dark emitter to be retuned where its own is the cause, or no spare is left (R397). -/
def beginMove (s : State) (p l : Nat) (emitterCause : Bool := false) : State :=
  match spareWl s p with
  | some w => setPort s p { portState s p with moving := (portState s p).moving ++ [(l, w)] }
  | none =>
    if (emitterCause || emState s (emitterAt s p (laneWl s p l)) == eFailed) && darkSpare s p then s
    else post s (portUnit p) none 0 0x0C05 (s.get F.fabPortStatus_LANE_SET p)

/-- Moves of every lane that cannot be carried and does not move yet. -/
def beginMoves (s : State) (p : Nat) : State :=
  ((List.range 8).filter (fun l => (portState s p).lanes.testBit l && laneWl s p l != 15
    && !(portState s p).moving.any (fun m => m.1 == l))).foldl (fun s l => beginMove s p l) s

/-- LANE_ERROR_WINDOW (R397): the lane is asked out of the set and its move begins. -/
def execLaneErrorWindow (port lane : Nat) (uncorrectable emitterCause : Bool) (s : State) : Out :=
  if port < 16 ∧ lane < 8 then
    if s.get F.fabPortStatus_STATE port = 2 ∧ (s.get F.fabPortStatus_LANE_SET port).testBit lane then
      let s := if uncorrectable then s.bumpSat F.fabPortErr_UNCORRECTED_CW 1 port else s
      if (portState s port).lanes.testBit lane then ok s
      else ok (beginMove (leaveSet (markLane s port lane) port lane) port lane emitterCause)
    else ok s
  else .fault .noSuchUnit

/-- A lane loses light or lock (R394): a retrain without it. -/
def laneLost (s : State) (p l : Nat) : State :=
  let was := (s.get F.fabPortStatus_LANE_SET p).testBit l
  let s := markLane s p l
  if was then beginRetrain s p true else s

/-- LANE_SIGNAL_LOSS. -/
def execLaneSignalLoss (port lane : Nat) (s : State) : Out :=
  if port < 16 ∧ lane < 8 then
    let st := s.get F.fabPortStatus_STATE port
    if st = 2 ∨ st = 3 then ok (laneLost s port lane) else ok s
  else .fault .noSuchUnit

/-- A spare emitter of a port, a lit one first. -/
def spareEmitter (s : State) (p : Nat) : Option Nat :=
  let es := (List.range 10).map (emitterOf p)
  let free (n : Nat) : Bool := !s.fab.retune.any (fun r => r.1 == n)
  match es.find? (fun n => emState s n == eLit && free n) with
  | some n => some n
  | none => es.find? (fun n => emState s n == eDark && free n)

/-- An emitter kept out of service in the bank, under its mark. -/
def emitterOut (s : State) (mark : Nat) : State := bankChange { s with bank := { s.bank with out := setInsert s.bank.out mark } }

/-- The end of a worn emitter's replacement (R382): it is WORN, record 0x0C03. -/
def swapEnd (s : State) (n worn : Nat) : State :=
  let p := portOfEmitter n
  let s := emitterOut ((dropRetunes s (fun a _ => a == n)).put F.optEmitter_STATE eWorn worn) (0x10000 + emitterUnit worn)
  let s := post s (emitterUnit worn) none 2 0x0C03 (emitterUnit n)
  if (spareEmitter s p).isNone then spareEmpty s (portUnit p) else s

/-- Replacements whose spare already drives its wavelength end once the port itself has trained. -/
def swapsEnd (s : State) (p : Nat) : State :=
  (s.fab.retune.filter (fun r => portOfEmitter r.1 == p && emState s r.1 == eInUse)).foldl (fun s r => swapEnd s r.1 r.2) s

/-- A lane moves to a spare wavelength (R397): the lane map, the spare taken, record 0x0C02. -/
def moveLane (s : State) (port lane w : Nat) : State :=
  let old := laneWl s port lane
  let em := emitterAt s port old
  let unit := if emState s em = eFailed ∨ emState s em = eWorn then emitterUnit em else waveUnit port old
  let s := (s.put (F.fabLaneMap_WL lane) w port).clrBit F.fabLaneMap_SPARE_WL w port
  let s := s.put F.optEmitter_STATE eInUse (emitterAt s port w)
  let b := { s.bank with lanes := smapSet s.bank.lanes lane (port * 8 + lane) w, out := setInsert s.bank.out (waveUnit port old) }
  let s := showWlSpares (bankChange { s with bank := b }) port
  let s := post s unit none 2 0x0C02 (waveUnit port w)
  if (spareWl s port).isNone then spareEmpty s (portUnit port) else s

/-- LANE_MOVE_DONE (R397, R382, R396): the lane has trained alone, on a spare wavelength or, for a worn emitter, on its own; it is asked
back into the set. -/
def execLaneMoveDone (port lane : Nat) (s : State) : Out :=
  if port < 16 ∧ lane < 8 then
    match (portState s port).moving.find? (fun m => m.1 == lane) with
    | none => ok s
    | some (_, w) =>
      let own := decide (laneWl s port lane = w)
      let s := setPort s port { portState s port with moving := (portState s port).moving.filter (fun m => m.1 != lane) }
      let s := clearLane s port lane
      if own then ok (swapsEnd (joinSet s port lane) port) else ok (joinSet (moveLane s port lane w) port lane)
  else .fault .noSuchUnit

/-- PORT_TRAINING_DONE: the AND of the two proposals, the path delay, record 0x0C01; what had to move does. -/
def execPortTrainingDone (port peer peerLanes echo : Nat) (s : State) : Out :=
  if port < 16 then
    if s.get F.fabPortStatus_STATE port ≠ 1 then ok s
    else if peer % 65536 = thisNode s then ok (sameNode s port)
    else
      let set := proposal s port &&& (peerLanes % 256)
      if set = 0 then ok (portDown s port)
      else
        let s := linkUp s port peer set echo
        let s := s.put F.fabPortStatus_LEADER (if thisNode s < peer % 65536 then 1 else 0) port
        let s := post s (portUnit port) none 0 0x0C01 (extra2 set (peer % 65536))
        ok (beginMoves (swapsEnd (resumeHeld s port) port) port)
  else .fault .noSuchUnit

/-! Retrains (R394, R395). -/

/-- A write of RETRAIN_REQ (Table 12.12). -/
def retrainReq (s : State) (p : Nat) (on : Bool) : State :=
  if on then
    if s.get F.fabPortStatus_STATE p = 2 then
      beginRetrain (s.put F.fabPortCtrl_RETRAIN_REQ 1 p) p true
    else s.put F.fabPortCtrl_RETRAIN_REQ 1 p
  else s

/-- RETRAIN_MESSAGE_RECEIVE (R395): the peer asks; where both have asked, the lower node number leads. -/
def execRetrainMessageReceive (port peer _peerLanes : Nat) (s : State) : Out :=
  if port < 16 then ok (retrainIn s port peer) else .fault .noSuchUnit

/-- RETRAIN_COMPLETE (R393 to R395): ACTIVE with the AND of the proposals, record 0x0C04, held packets resent, then new traffic; lost
lanes move. -/
def execRetrainComplete (port : Nat) (peer : PeerOffer) (echo : Nat) (s : State) : Out :=
  if port < 16 then
    if s.get F.fabPortStatus_STATE port ≠ 3 then ok s
    else
      let s := s.put F.fabPortCtrl_RETRAIN_REQ 0 port
      let set := proposal s port &&& (peer.lanes % 256)
      if peer.node % 65536 = thisNode s then ok (sameNode s port)
      else if set = 0 then ok (portDown s port)
      else
        let x := portState s port
        let s := setPort (linkUp s port peer.node set echo) port { x with asked := false }
        let s := pumpPort (resend (post s (portUnit port) none 0 0x0C04 (s.ns - x.since)) port x.replay) port
        ok (drainEnd (beginMoves (resumeHeld s port) port) port)
  else .fault .noSuchUnit

/-- RETRAIN_TIMEOUT: the port goes DOWN (R394, R402). -/
def execRetrainTimeout (port : Nat) (s : State) : Out :=
  if port < 16 then
    if s.get F.fabPortStatus_STATE port = 3 then ok (portDown (s.put F.fabPortCtrl_RETRAIN_REQ 0 port) port) else ok s
  else .fault .noSuchUnit

/-- A write of DISABLE: an ACTIVE port drains (R402) and is then DISABLED, one that retrains does so after; another is DISABLED at once.
Cleared, a DISABLED port is DOWN (Tables 12.6, 12.12). -/
def portDisable (s : State) (p : Nat) (on : Bool) : State :=
  let s := s.put F.fabPortCtrl_DISABLE (if on then 1 else 0) p
  let st := s.get F.fabPortStatus_STATE p
  if on then
    if st = 2 then drainEnd s p
    else if st = 3 then s
    else setLanes (setPortState s p 4) p 0
  else if st = 4 then setPortState s p 0
  else resumeHeld s p

/-! Emitters (R380 to R382). -/

/-- A spare emitter begins to retune to another's wavelength: it carries no lane meanwhile, and its spare wavelength is no longer lit
(R380; DEDUCED, log 47). -/
def startRetune (s : State) (e n : Nat) : State :=
  let p := portOfEmitter e
  let s := { s with fab := { s.fab with retune := s.fab.retune ++ [(e, n)] } }
  if emState s e = eLit then
    let s := s.clrBit F.fabLaneMap_SPARE_WL (s.get F.optEmitter_WAVELENGTH e) p
    showWlSpares ((s.put F.optEmitter_STATE eDark e).put F.optEmitter_WAVELENGTH 15 e) p
  else s

/-- EMITTER_WORN (R381, R382): the bias shown; a spare, where there is one, retunes to replace it. -/
def execEmitterWorn (n biasPct : Nat) (s : State) : Out :=
  if n < 160 then
    let s := s.put F.optEmitter_BIAS_PCT (min biasPct 255) n
    let limit := (s.boot.cfg.map (fun c => c.wearLimit)).getD 150
    if emState s n = eInUse ∧ limit ≤ biasPct ∧ !s.fab.retune.any (fun r => r.2 == n) then
      match spareEmitter s (portOfEmitter n) with
      | some e => ok (startRetune s e n)
      | none => ok s
    else ok s
  else .fault .noSuchUnit

/-- The light of a lane's wavelength lost: a move that was making it begins anew, else the lane has failed. -/
def lightLost (s : State) (p l w : Nat) : State :=
  let x := portState s p
  if x.moving.contains (l, w) then beginMove (setPort s p { x with moving := x.moving.filter (fun m => m != (l, w)) }) p l true
  else laneLost s p l

/-- EMITTER_FAIL (R381): FAILED; an emitter in use takes its lane's light with it, a lit spare its spare wavelength. -/
def execEmitterFail (n : Nat) (s : State) : Out :=
  if n < 160 then
    let p := portOfEmitter n
    let st := emState s n
    if st = eFailed then ok s
    else
      let w := s.get F.optEmitter_WAVELENGTH n
      let s := (s.put F.optEmitter_STATE eFailed n).put F.optEmitter_WAVELENGTH 15 n
      let s := emitterOut (dropRetunes s (fun a b => a == n || b == n)) (emitterUnit n)
      if st = eLit then ok (showWlSpares (s.clrBit F.fabLaneMap_SPARE_WL w p) p)
      else if st = eInUse then
        match (List.range 8).find? (fun l => w != 15 && laneWl s p l == w) with
        | some l => ok (lightLost s p l w)
        | none => ok s
      else ok s
  else .fault .noSuchUnit

/-- The wavelength switched to the spare, which the maps then name (R382). -/
def wornSwap (s : State) (n worn w : Nat) : State :=
  let p := portOfEmitter n
  let s := (s.put F.optEmitter_STATE eInUse n).put F.optEmitter_WAVELENGTH w n
  let s := s.put F.optEmitter_WAVELENGTH 15 worn
  bankChange { s with bank := { s.bank with emap := smapSet s.bank.emap w (p * 16 + w) (n % 10) } }

/-- A retuned spare takes over from a worn emitter (R382): the lane is asked out of the set, the wavelength switched, and the lane trains
alone until LANE_MOVE_DONE; a wavelength that carries no lane of the set needs no more. -/
def replaceWorn (s : State) (n worn : Nat) : State :=
  let p := portOfEmitter n
  let w := s.get F.optEmitter_WAVELENGTH worn
  match (List.range 8).find? (fun l => laneWl s p l == w && (s.get F.fabPortStatus_LANE_SET p).testBit l) with
  | some l =>
    let s := wornSwap (leaveSet (markLane s p l) p l) n worn w
    setPort s p { portState s p with moving := (portState s p).moving ++ [(l, w)] }
  | none => swapEnd (wornSwap s n worn w) n worn

/-- EMITTER_RETUNE_DONE (R380, R382, R397): a spare that replaces a worn emitter takes over; a dark spare is lit on its wavelength and
the lanes that wait for one begin to move. -/
def execEmitterRetuneDone (n wl : Nat) (s : State) : Out :=
  if n < 160 ∧ wl < 10 then
    let p := portOfEmitter n
    match s.fab.retune.find? (fun r => r.1 == n) with
    | some (_, worn) => if emState s n = eDark then ok (replaceWorn s n worn) else ok s
    | none =>
      if emState s n = eDark then
        let s := (s.put F.optEmitter_STATE eLit n).put F.optEmitter_WAVELENGTH wl n
        let used := (List.range 8).any (fun l => laneWl s p l == wl) || s.bank.out.contains (waveUnit p wl)
        let s := bankChange { s with bank := { s.bank with emap := smapSet s.bank.emap wl (p * 16 + wl) (n % 10) } }
        let s := if used then s else s.orBit F.fabLaneMap_SPARE_WL wl p
        ok (beginMoves (showWlSpares s p) p)
      else ok s
  else .fault .noSuchUnit

/-! The maps as loaded at start or as a laser bank returns (R379, R467). -/

/-- What an emitter of a port does under the retained maps: its state and wavelength. -/
def emitterRole (s : State) (p e : Nat) : Nat × Nat :=
  let n := emitterOf p e
  let wls := (List.range 8).map (fun l => smapGet s.bank.lanes l (p * 8 + l))
  let drives (w : Nat) : Nat := smapGet s.bank.emap w (p * 16 + w)
  if s.bank.out.contains (emitterUnit n) then (eFailed, 15)
  else if s.bank.out.contains (0x10000 + emitterUnit n) then (eWorn, 15)
  else
    match wls.find? (fun w => drives w == e) with
    | some w => (eInUse, w)
    | none =>
      match (List.range 10).find? (fun w => drives w == e && !wls.contains w && !s.bank.out.contains (waveUnit p w)) with
      | some w => (eLit, w)
      | none => (eDark, 15)

/-- One emitter shown; OFF while its laser bank is. -/
def showEmitter (p : Nat) (s : State) (e : Nat) : State :=
  let r := if s.domState (36 + p / 8) = 0 then emitterRole s p e else (5, 15)
  (s.put F.optEmitter_STATE r.1 (emitterOf p e)).put F.optEmitter_WAVELENGTH r.2 (emitterOf p e)

/-- A port's lane map, spare wavelengths and emitters shown from the retained maps. -/
def showOptics (s : State) (p : Nat) : State :=
  let s := (List.range 8).foldl (fun s l => s.put (F.fabLaneMap_WL l) (smapGet s.bank.lanes l (p * 8 + l)) p) s
  let s := (List.range 10).foldl (showEmitter p) s
  let lit := (List.range 10).foldl (fun m w =>
    if (List.range 10).any (fun e => emitterRole s p e == (eLit, w)) then m + 2 ^ w else m) 0
  showWlSpares (s.put F.fabLaneMap_SPARE_WL lit p) p

end Sys2Proof.Machine
end

