-- ==== Sys2Proof/Machine/Wake.lean ====
section
/-! DEFINITION. Wakes: the queue and its charge windows, what a woken domain takes up, latches at run time, and the answer of a power
command (15: R482, R489 to R491). -/

namespace Sys2Proof.Machine

/-! The answer of a command. -/

/-- A command of domain `d`, or the P-state's (40), answered (R482, R484): RESULT, then DONE_SEQ, then its event. -/
def pwrAnswer (s : State) (d result : Nat) : State :=
  match smapFind s.pwr.cmd d with
  | none => s
  | some c =>
    let s := { s with pwr := { s.pwr with cmd := smapErase s.pwr.cmd d } }
    let s :=
      if d = 40 then
        ((s.put F.pwrPstate_BUSY 0).put F.pwrPstate_SUPERSEDED (if result = 5 then 1 else 0)).put F.pwrPstate_DONE_SEQ c.seq
      else
        let s := (s.put F.pwrDomStatus_BUSY 0 d).put F.pwrDomStatus_SCHEDULED 0 d
        (s.put F.pwrDomStatus_RESULT result d).put F.pwrDomStatus_DONE_SEQ c.seq d
    signalIf s c.evEn c.event

/-! The wake queue (R489). -/

def setPwr (s : State) (p : Power) : State := { s with pwr := p }

/-- A domain's ramp begins and its charge window opens. -/
def beginRamp (s : State) (d : Nat) : State :=
  let p := s.pwr
  setPwr s { p with wakeQ := p.wakeQ.filter (fun x => x != d), win := p.win ++ [d], ramping := setInsert p.ramping d }

/-- The head of the queue served while fewer than three domains are in their windows. -/
def serveWakes : Nat → State → State
  | 0, s => s
  | n + 1, s =>
    match s.pwr.wakeQ with
    | [] => s
    | d :: _ => if s.pwr.win.length < 3 then serveWakes n (beginRamp s d) else s

def enqueueWakes (s : State) (ds : List Nat) : State := serveWakes 3 (setPwr s { s.pwr with wakeQ := s.pwr.wakeQ ++ ds })

def closeWindow (s : State) (d : Nat) : State := setPwr s { s.pwr with win := s.pwr.win.filter (fun x => x != d) }

/-- A ramp over, its window with it. -/
def endRamp (s : State) (d : Nat) : State :=
  let s := closeWindow s d
  setPwr s { s.pwr with ramping := setErase s.pwr.ramping d }

/-- WAKE_RAMP_START (R489): the head of the queue reaches a free window. -/
def execWakeRampStart (dom : Nat) (s : State) : Out :=
  if dom < 40 then
    if s.pwr.wakeQ.head? == some dom && decide (s.pwr.win.length < 3) then ok (beginRamp s dom) else ok s
  else .fault .noSuchUnit

/-- CHARGE_WINDOW_CLOSE (R489). -/
def execChargeWindowClose (dom : Nat) (s : State) : Out := if dom < 40 then ok (closeWindow s dom) else .fault .noSuchUnit

/-! Writes that wait for a domain (R30). -/

/-- FERRY_CTRL_f: its fields, then the change of RUN, and STATE as LOST_ACTION now has it (R356, R363, R364). -/
def ferryCtrlWrite (s : State) (f v : Nat) : State :=
  let run := s.get F.ferryCtrl_RUN f
  let s := storeWord s .ferryCtrl f 0 0 (withBits v 13 13 run)
  if v.testBit 13 && run == 0 then ferryStart s f else if !v.testBit 13 && run == 1 then ferryHalt s f else ferryShow s f

/-- FERRY_ABORT_f: a new REQ_SEQ submits (R375). -/
def ferryAbortWrite (s : State) (f v : Nat) : State :=
  let old := s.get F.ferryAbort_REQ_SEQ f
  let s := storeWord s .ferryAbort f 0 0 v
  let seq := bitsOf v 39 32
  if seq = old then s
  else if v.testBit 12 then abortAllOf s f seq
  else abortOne s f (bitsOf v 11 0) (bitsOf v 31 16) seq

/-- FAB_PORT_CTRL_p: LANE_ALLOW, a change of DISABLE, a retrain request (Table 12.12). -/
def portCtrlWrite (s : State) (p v : Nat) : State :=
  let s := s.put F.fabPortCtrl_LANE_ALLOW (bitsOf v 11 4) p
  let s := if v.testBit 0 = s.isSet F.fabPortCtrl_DISABLE p then s else portDisable s p (v.testBit 0)
  retrainReq s p (v.testBit 1)

/-- What a write that sets a unit to work does. -/
def unitWriteNow (s : State) (r : RegId) (i v : Nat) : State :=
  match r with
  | .ferryCtrl => ferryCtrlWrite s i v
  | .ferryAbort => ferryAbortWrite s i v
  | .fabPortCtrl => portCtrlWrite s i v
  | .dramChanCtrl => chanTarget s i (v.testBit 0)
  | _ => s

/-- The same, deferred while the unit's domain is OFF (R30). -/
def unitWrite (s : State) (r : RegId) (i v : Nat) : State :=
  if s.unitOff r i then deferWrite s r i v else unitWriteNow s r i v

/-- FERRY_RUN (R356). -/
def execFerryRun (f : Nat) (s : State) : Out :=
  if f < 32 then
    let t := wideWrite s .ferryCtrl f
    bar0 s (if s.unitOff .ferryCtrl f then deferWrite t .ferryCtrl f (withBits (s.word .ferryCtrl f 0 0) 13 13 1) else ferryStart t f)
  else .fault .noSuchUnit

/-- FERRY_STOP (R363). -/
def execFerryStop (f : Nat) (s : State) : Out :=
  if f < 32 then
    let t := wideWrite s .ferryCtrl f
    bar0 s (if s.unitOff .ferryCtrl f then deferWrite t .ferryCtrl f (withBits (s.word .ferryCtrl f 0 0) 13 13 0) else ferryHalt t f)
  else .fault .noSuchUnit

/-- FERRY_ABORT_ONE (R375): a write that leaves REQ_SEQ as it was submits nothing (Table 11.12). -/
def execFerryAbortOne (f entry cycleLo seq : Nat) (s : State) : Out :=
  if f < 32 then
    bar0 s (unitWrite (wideWrite s .ferryAbort f) .ferryAbort f (entry % 4096 + cycleLo % 65536 * 2 ^ 16 + seq % 256 * 2 ^ 32))
  else .fault .noSuchUnit

/-- FERRY_ABORT_ALL (R375, Table 11.12): ENTRY and CYCLE_LO stay as they are. -/
def execFerryAbortAll (f seq : Nat) (s : State) : Out :=
  if f < 32 then
    let v := withBits (withBits (s.word .ferryAbort f 0 0) 12 12 1) 39 32 seq
    bar0 s (unitWrite (wideWrite s .ferryAbort f) .ferryAbort f v)
  else .fault .noSuchUnit

/-- PORT_DISABLE_WRITE. -/
def execPortDisableWrite (port : Nat) (on : Bool) (s : State) : Out :=
  if port < 16 then
    let w := withBits (s.word .fabPortCtrl port 0 0) 0 0 (if on then 1 else 0)
    bar0 s (if s.unitOff .fabPortCtrl port then deferWrite s .fabPortCtrl port w else portDisable s port on)
  else .fault .noSuchUnit

/-- RETRAIN_REQ_WRITE. -/
def execRetrainReqWrite (port : Nat) (on : Bool) (s : State) : Out :=
  if port < 16 then
    let w := withBits (s.word .fabPortCtrl port 0 0) 1 1 (if on then 1 else 0)
    bar0 s (if s.unitOff .fabPortCtrl port then deferWrite s .fabPortCtrl port w else retrainReq s port on)
  else .fault .noSuchUnit

/-- CHANNEL_MAP_OUT. -/
def execChannelMapOut (n : Nat) (s : State) : Out := if n < 256 then bar0 s (unitWrite s .dramChanCtrl n 1) else .fault .noSuchUnit

/-- CHANNEL_RESTORE. -/
def execChannelRestore (n : Nat) (s : State) : Out := if n < 256 then bar0 s (unitWrite s .dramChanCtrl n 0) else .fault .noSuchUnit

/-- The writes to one register that waited: its word as it was, then each of them in turn. -/
def lateRun (s : State) (l : LateWrite) : State :=
  l.vals.foldl (fun s v => unitWriteNow s l.reg l.i v) (s.setWord l.reg l.i 0 0 l.old)

/-- The writes that waited for a domain take effect as it returns to ON (R30). -/
def lateWrites (s : State) (d : Nat) : State :=
  let mine (l : LateWrite) : Bool := l.reg.unitDomain l.i == some d
  (s.pwr.late.filter mine).foldl lateRun (setPwr s { s.pwr with late := s.pwr.late.filter (fun l => !mine l) })

/-! A domain back in service. -/

/-- The spares of a gallery or Cavern domain that returns from OFF are not free before their BIST (R527). -/
def untestSpares (s : State) (d : Nat) : State :=
  if d < 24 ∧ d % 6 < 4 then
    let g := 4 * (d / 6) + d % 6
    let us := (freeCores s g).map (unitId 1)
    showCoreSpare { s with flt := { s.flt with untested := us.foldl setInsert s.flt.untested } } g
  else if d < 24 ∧ d % 6 = 4 then
    let us := (freeSlices s (d / 6)).map (unitId 3)
    showSliceSpare { s with flt := { s.flt with untested := us.foldl setInsert s.flt.untested } } (d / 6)
  else s

/-- The slices of a tile that fill positions begin to join (R280, R282). -/
def joinSlices (s : State) (t : Nat) : State :=
  (slicesOf t).foldl (fun s n => if (slicePos s n).isSome then s.put F.cavSliceStatus_STATE 2 n else s) s

/-- What a domain takes up as it returns from RETAIN or OFF (Table 15.7, R30, R350, R488). -/
def domainBack (s : State) (d : Nat) (wasOff : Bool) : State :=
  let s := staleCopies s d
  let s := if wasOff then untestSpares s d else s
  let s :=
    if d < 24 then
      if d % 6 = 4 then joinSlices s (d / 6) else if d % 6 = 5 then (unitsOfTile (d / 6)).foldl startHead s else s
    else if d = 36 ∨ d = 37 then (portsOfDomain d).foldl showOptics s
    else s
  lateWrites s d

/-- A wake completed: the state reached, counted, and its command answered (R484, R490). -/
def wakeDone (s : State) (d target : Nat) : State :=
  let wasOff := s.domState d == 3
  let s := setDomain s d target
  let s := (s.put F.pwrDomStatus_LATCHED 0 d).bump F.pwrDomStatus_WAKES 1 d
  let s := setPwr s { s.pwr with tries := smapErase s.pwr.tries d }
  let s := { s with boot := { s.boot with ramped := setErase s.boot.ramped d } }
  pwrAnswer (domainBack s d wasOff) d 0

/-! Latches at run time (R491). -/

/-- The sticky bit of a latched domain (R468, R491). -/
def stick (s : State) (d : Nat) : State := bankChange (s.orBit F.rbSoftstartSticky_EVER_LATCHED d)

/-- Where a wake of a domain goes: its command's target. -/
def wakeTarget (s : State) (d : Nat) : Nat := ((smapFind s.pwr.cmd d).map (fun c => c.target)).getD 0

/-- A wake latched while the part runs: OFF, record 0x0F01; the third latch leaves the domain OFF. -/
def wakeLatch (s : State) (d : Nat) : State :=
  let n := smapGet s.pwr.tries 0 d
  let s := stick (domainOff (endRamp s d) d) d
  let s := post s (domainUnit d) none 0 0x0F01 n
  if n < 2 then setPwr s { s.pwr with tries := smapInsert s.pwr.tries d (n + 1) }
  else
    let s := setPwr s { s.pwr with tries := smapErase s.pwr.tries d }
    let s := pwrAnswer (s.put F.pwrDomStatus_LATCHED 1 d) d 4
    post s (domainUnit d) none 0 0x0F02 0

/-- Whether a wake of the domain is ramping while the part runs. -/
def runtimeRamp (s : State) (d : Nat) : Bool := s.pwr.ramping.contains d && s.get F.lkBootStatus_STAGE == 6

/-- WAKE_LATCH. -/
def execWakeLatch (dom : Nat) (s : State) : Out :=
  if dom < 40 then (if runtimeRamp s dom then ok (wakeLatch s dom) else ok s) else .fault .noSuchUnit

/-- WAKE_RETRY (R491): the ramp 100 ms or 200 ms after the first latch, and its outcome. -/
def execWakeRetry (dom : Nat) (railOk : Bool) (s : State) : Out :=
  if dom < 40 then
    if smapGet s.pwr.tries 0 dom = 0 ∨ s.get F.lkBootStatus_STAGE ≠ 6 then ok s
    else if railOk then ok (wakeDone s dom (wakeTarget s dom)) else ok (wakeLatch s dom)
  else .fault .noSuchUnit

/-- SPARE_BIST_DONE (R527): the spares of a domain back from OFF count as free. -/
def execSpareBistDone (dom : Nat) (s : State) : Out :=
  if dom < 40 then
    if dom < 24 ∧ dom % 6 < 4 ∧ s.domOn dom then
      let g := 4 * (dom / 6) + dom % 6
      let u := s.flt.untested.filter (fun x => !(x / 4096 == 1 && x % 4096 / 16 == g))
      ok (showCoreSpare { s with flt := { s.flt with untested := u } } g)
    else if dom < 24 ∧ dom % 6 = 4 ∧ s.domOn dom then
      let u := s.flt.untested.filter (fun x => !(x / 4096 == 3 && x % 4096 / 68 == dom / 6))
      ok (showSliceSpare { s with flt := { s.flt with untested := u } } (dom / 6))
    else ok s
  else .fault .noSuchUnit

end Sys2Proof.Machine
end

