-- ==== Sys2Proof/Machine/Boot.lean ====
section
/-! DEFINITION. Start-up (14: R461 to R469, R475, R476), the resets that begin one (R10, R464), and the board's inputs (17: R533,
R534, R540, R544). -/

namespace Sys2Proof.Machine

def stage (s : State) : Nat := s.get F.lkBootStatus_STAGE
def setStage (s : State) (n : Nat) : State := s.put F.lkBootStatus_STAGE n
/-- The start-up state changed. -/
def onBoot (s : State) (f : Boot → Boot) : State := { s with boot := f s.boot }

/-! Stages 1 to 3. -/

/-- With no image to try the start stops (R461). -/
def tryImages (s : State) : State := if (imgToTry s).isNone then startStop s 1 else s

/-- Stage 2 waits for the 48 V input and PERST# (R463); stage 3 wakes D0 to D38 (R489). -/
def leaveWait (s : State) : State :=
  if stage s = 2 ∧ s.boot.vinGood ∧ !s.boot.perst then enqueueWakes (setStage s 3) (List.range 39) else s

/-- A start begins at stage 1 (R463): counted, with nothing latched or mapped out so far; D39 ramps where it is off. -/
def startBegin (s : State) : State :=
  let s := (setStage s 1).put F.lkBootStatus_DEGRADED 0
  let s := (s.put F.lkBootStatus_BOOT_MS 0).put F.lkSoftstart_LATCHED 0
  let s := (s.put F.lkSoftstart_OFF_AT_START 0).put F.faultStatus_FATAL_CODE 0
  let s := onBoot s (fun b => { b with img := none, cfg := none, latched := [], ramped := [], offAt := [] })
  let s := onBoot s (fun b => { b with bistDone := false, hbmDone := false, fw := .idle, fwGot := 0 })
  let s := bankChange (s.bump F.rbBoot_BOOT_COUNT)
  if s.domState 39 = 0 then tryImages s else setPwr s { s.pwr with ramping := [39] }

/-! Resets. -/

/-- Marks that outlast a start: FAILED and BYPASSED units (R470). -/
def lastingMarks (s : State) : SMap Nat := s.flt.unit.filter (fun x => decide (4 ≤ x.2))

/-- Stores that any reset through start-up leaves empty: DRAM becomes unpredictable (R464). -/
def emptyMemory (s : State) : Memory := { State.reset.mem with epoch := s.mem.epoch + 1, keyNext := s.mem.keyNext }

def freshPower (s : State) : Power := { State.reset.pwr with spans := s.pwr.spans, idle := s.pwr.idle, lost := s.pwr.lost }

/-- What both a warm and a cold reset lose outside the registers. -/
def loseWork (s : State) : State :=
  let r := State.reset
  let flt := { r.flt with hold := s.flt.hold, seq := s.flt.seq, unit := lastingMarks s, lanesUsed := s.flt.lanesUsed, d2dOut := s.flt.d2dOut,
                          therm := s.flt.therm }
  let t := { s.tide with stale := [] }
  let s := { s with acc := r.acc, mem := emptyMemory s, hl := r.hl, obj := { r.obj with nextId := s.obj.nextId }, run := r.run }
  { s with core := r.core, eng := r.eng, sail := r.sail, fab := r.fab, pwr := freshPower s, flt := flt, tide := t }

/-- Domains `lo` on shown OFF, with their ports (R464, R408). -/
def allOff (s : State) (n : Nat) : State :=
  let s := (List.range n).foldl (fun s d => setDomain s d 3) s
  (List.range 16).foldl (fun s p => setLanes (setPortState s p 0) p 0) s

/-- A warm reset up to the start it begins: registers of the warm domain and weaker at reset, cold ones, the tide, the hold store
and the bank kept (R464). -/
def warmClear (s : State) : State :=
  let d39 := s.domState 39
  let held := s.flt.hold.length
  let s := resetRegs (loseWork s) (fun d => d != .cold)
  let s := (setDomain (allOff s 39) 39 d39).put F.sumpHold_HELD held
  (s.put F.hostStatus_READY 0).put F.fabNode_READY 0

/-- A warm reset (R464). -/
def warmReset (s : State) : State := startBegin (warmClear s)

/-- WARM_RESET: PERST# is asserted. -/
def execWarmReset (s : State) : Out := if s.boot.standby then ok (warmReset (onBoot s (fun b => { b with perst := true }))) else ok s

/-- The start-up state without standby power: the board's signals, the fuses, the flash and the mirror copies stay (R472). -/
def coldBoot (b : Boot) : Boot :=
  let c := { State.reset.boot with vinGood := b.vinGood, perst := b.perst, otpMin := b.otpMin, otpRevoked := b.otpRevoked }
  { c with flash := b.flash, mirror := b.mirror, mirrorNext := b.mirrorNext }

/-- Every register outside the retained bank at its reset value, the tide and the hold store lost (R10). -/
def coldDrop (s : State) : State :=
  let s := { s with regs := [], tide := State.reset.tide, boot := coldBoot s.boot }
  { s with flt := { s.flt with hold := [], seq := 0, therm := false } }

/-- Standby power lost: all but the retained bank, the flash, the ROM's fuses and the board's signals (R10, R472). -/
def coldClear (s : State) : State := allOff (coldDrop (loseWork s)) 40

/-- SEQUENCE of a copy of the bank. -/
def bankSeq (b : Bank) : Nat := (regGet b.regs 0 ⟨.rbStatus, 0, 0, 0⟩).toNat / 2 ^ 32

/-- The mirror copy with the highest sequence number (R476); every copy listed passes its CRC. -/
def bestCopy : List (Nat × Bank) → Option Bank
  | [] => none
  | (_, b) :: ms =>
    match bestCopy ms with
    | none => some b
    | some b' => if bankSeq b < bankSeq b' then some b' else some b

/-- The bias of each emitter at a start whose bank is defaulted is its beginning-of-life bias (R476), in percent of the one
before. -/
def currentBias (s : State) : SMap Nat :=
  (List.range 160).foldl (fun m n =>
    let v := s.get F.optEmitter_BIAS_PCT n
    if v = 0 then m else smapSet m 100 n (smapGet s.bank.bol 100 n * v / 100)) []

/-- The retained bank replaced as a whole. -/
def adoptBank (s : State) (b : Bank) : State := { s with bank := b }

/-- The ROM's check of the retained bank at stage 0 (R476). -/
def bankCheck (s : State) (bankOk : Bool) (bias : SMap Nat) : State :=
  if bankOk then s.put F.rbStatus_STATE 0
  else
    match bestCopy s.boot.mirror with
    | some b =>
      let s := adoptBank s b
      post (s.put F.rbStatus_STATE 1) 0xD007 none 0 0x0E03 (s.get F.rbStatus_SEQUENCE)
    | none =>
      let s := adoptBank { s with flt := { s.flt with unit := [] } } { Bank.default with bol := bias }
      post (s.put F.rbStatus_STATE 2) 0xD007 none 0 0x0E04 0

/-- A cold reset and the start it begins (R10, R463). -/
def coldReset (s : State) (bankOk : Bool) : State :=
  let bias := currentBias s
  startBegin (bankCheck (coldClear s) bankOk bias)

/-- COLD_RESET. -/
def execColdReset (bankOk : Bool) (s : State) : Out := ok (coldReset (onBoot s (fun b => { b with standby := true })) bankOk)

/-- STANDBY_LOSS (R533): the part draws nothing; only the return of standby power acts next. -/
def execStandbyLoss (s : State) : Out :=
  let s := coldClear s
  ok (onBoot s (fun b => { b with standby := false }))

/-! The board's inputs. -/

/-- MAIN_INPUT_GOOD (R533). -/
def execMainInputGood (s : State) : Out := ok (leaveWait (onBoot s (fun b => { b with vinGood := true })))

/-- PERST_DEASSERT (R463). -/
def execPerstDeassert (s : State) : Out := ok (leaveWait (onBoot s (fun b => { b with perst := false })))

/-- A device-fatal record of power control (R494, R497) marked as posted since the start: bit 0 0x0F06, bit 1 0x0F05. -/
def powerFatal (s : State) (code extra : Nat) : State :=
  let bit := if code = 0x0F06 then 0 else 1
  if s.pwr.fatals.testBit bit then s
  else fatal (setPwr s { s.pwr with fatals := s.pwr.fatals + 2 ^ bit }) noUnit code extra

/-- The regulators of D0 to D38 stop and the host link drops (R534). -/
def regulatorsStop (s : State) (code extra : Nat) : State :=
  let s := powerFatal (s.put F.hostStatus_BME 0) code extra
  if stage s = 6 then powerOff (setPwr s { s.pwr with wakeQ := [], win := [], ramping := [], cmd := [] }) 39 else s

/-- UNDERVOLTAGE_LOCKOUT (R534): an input that was good falls below 38 V. -/
def execUndervoltageLockout (vinMv : Nat) (s : State) : Out :=
  if s.boot.vinGood then ok (regulatorsStop (onBoot s (fun b => { b with vinGood := false })) 0x0F06 vinMv) else ok s

/-- INPUT_LOW_TIMEOUT (R494): the input stays below 40 V for 100 µs. -/
def execInputLowTimeout (vinMv : Nat) (s : State) : Out := if s.boot.vinGood then ok (powerFatal s 0x0F06 vinMv) else ok s

/-- HARD_THERMAL_TRIP (R544): THERMTRIP# until the next cold reset. -/
def execHardThermalTrip (tile tempC : Nat) (s : State) : Out :=
  if tile < 4 then
    let s := { s with flt := { s.flt with therm := true } }
    ok (regulatorsStop s 0x0F05 (extra2 tile tempC))
  else .fault .noSuchUnit

/-! The image (R461, R462). -/

/-- An image loaded: its ATTEMPTS, its firmware and CONFIG; the third attempt marks it BAD for the next start. -/
def loadImage (s : State) (img : Nat) : State :=
  let n := attempts s img + 1
  let s := setAttempts s img (min n 3)
  let s := if 3 ≤ n then setBad s img 1 else s
  let s := showImage (onBoot s (fun b => { b with img := some img, cfg := imgConfig s img }))
  let s := (s.put F.lkImageInfo_BUILD (imgAt s img 0x10 4)).put F.lkImageInfo_SEC_VERSION (imgAt s img 0xC 2)
  leaveWait (setStage (s.put F.lkImageInfo_MIN_SEC_VERSION s.boot.otpMin) 2)

/-- IMAGE_LOAD_DONE. -/
def execImageLoadDone (keyOk sigOk : Bool) (s : State) : Out :=
  if stage s = 1 ∧ s.domState 39 = 0 then
    match imgToTry s with
    | none => ok (startStop s 1)
    | some img =>
      match imgFault s img keyOk sigOk with
      | none => ok (loadImage s img)
      | some k => ok (tryImages (post (setBad s img 1) 0xD006 none 0 0x0E01 (extra2 img k)))
  else ok s

/-- FIRMWARE_WATCHDOG (R462): firmware loaded 2 s ago has neither reached READY nor stopped. -/
def execFirmwareWatchdog (s : State) : Out :=
  if 2 ≤ stage s ∧ stage s ≤ 5 ∧ s.boot.img.isSome then ok (startBegin (warmClear (startStop s 6))) else ok s

/-! Ramps and soft start (R468). -/

/-- The bit of DEGRADED_MASK that permits a domain to stay out (R466, R468). -/
def degradeBit (d : Nat) : Option Nat :=
  if d < 24 then some (if d % 6 < 4 then 0 else d % 6 - 3)
  else if 32 ≤ d ∧ d < 36 then some 3 else if d = 36 ∨ d = 37 then some 4 else none

def mayDegrade (s : State) (bit : Nat) : Bool := (cfgVal s (fun c => c.degraded)).testBit bit

/-- Units of a domain's kind that serve after a map-out: cores, slices, engine sets, ports (0x0E06; log 31). -/
def countLeft (s : State) (d : Nat) : Nat :=
  let up (x : Nat) : Bool := !downAtStart s x
  if d < 24 ∧ d % 6 < 4 then
    ((List.range 240).filter (fun c => (corePos s c).isSome && up (domOfGallery (galleryOfCore c)))).length
  else if d < 24 ∧ d % 6 = 4 then ((List.range 256).filter (fun n => (slicePos s n).isSome && up (domOfCavern (n / 64)))).length
  else if d < 24 then ((List.range 4).filter (fun t => up (domOfEngines t))).length
  else ((List.range 16).filter (fun p => up (32 + p / 4) && up (36 + p / 8))).length

/-- ID_DEVICE and LK_BOOT_STATUS say DEGRADED. -/
def showDegradedStart (s : State) : State := (s.put F.lkBootStatus_DEGRADED 1).put F.idDevice_DEGRADED 1

/-- A domain's units shown again, once the map is loaded. -/
def showDomainUnits (s : State) (d : Nat) : State :=
  if s.boot.bistDone then
    if d < 24 ∧ d % 6 < 4 then showCounts ((coresOf (4 * (d / 6) + d % 6)).foldl showCorePos s)
    else if d < 24 ∧ d % 6 = 4 then showCounts ((slicesOf (d / 6)).foldl showSlicePos s)
    else showCounts s
  else s

/-- A domain mapped out until the next start (R468). -/
def mapOutDomain (s : State) (d : Nat) : State :=
  let s := onBoot s (fun b => { b with offAt := setInsert b.offAt d })
  let s := (s.put F.pwrDomStatus_MAPPED_OUT 1 d).put F.lkSoftstart_OFF_AT_START s.boot.offAt.length
  let s := if d < 24 ∧ d % 6 = 5 then (unitsOfTile (d / 6)).foldl engineOut s else s
  let s := showDegradedStart (showDomainUnits s d)
  post s (domainUnit d) none 0 0x0E06 (countLeft s d)

/-- Whether a domain's first ramp of stage 3 is over: in service, latched or mapped out. -/
def rampOver (s : State) (d : Nat) : Bool := s.domState d == 0 || smapGet s.boot.latched 0 d != 0

/-- Stage 4 begins once every first ramp is over. -/
def leaveRamp (s : State) : State :=
  if stage s = 3 ∧ (List.range 39).all (rampOver s) then
    (List.range 16).foldl showOptics (showEngines (setStage s 4))
  else s

/-- A domain in service at start. -/
def startUp (s : State) (d : Nat) : State :=
  let s := setDomain s d 0
  if d = 39 then tryImages s
  else
    let s := if stage s = 4 ∧ (d = 36 ∨ d = 37) then (portsOfDomain d).foldl showOptics s else s
    leaveRamp (showDomainUnits s d)

/-- A domain latched off (R468): the third latch maps it out or stops the start. -/
def softLatch (s : State) (d : Nat) : State :=
  let n := smapGet s.boot.latched 0 d
  let s := stick ((setDomain (endRamp s d) d 3).orBit F.lkSoftstart_LATCHED d) d
  let s := onBoot s (fun b => { b with latched := smapSet b.latched 0 d (n + 1) })
  let s := post s (domainUnit d) none 0 0x0E02 n
  if n < 2 then leaveRamp s
  else if d = 39 then startStop s 2
  else if (degradeBit d).any (mayDegrade s) then leaveRamp (mapOutDomain s d)
  else startStop s 3

/-- DOMAIN_RAMP_END (R468, R491): the rail at 90 % of its set point or not. -/
def execDomainRampEnd (dom : Nat) (railOk : Bool) (s : State) : Out :=
  if dom < 40 then
    if !s.pwr.ramping.contains dom then ok s
    else if stage s = 6 then
      if railOk then
        let s := endRamp s dom
        ok (onBoot s (fun b => { b with ramped := setInsert b.ramped dom }))
      else ok (wakeLatch s dom)
    else if railOk then ok (startUp (endRamp s dom) dom) else ok (softLatch s dom)
  else .fault .noSuchUnit

/-- CURRENT_LIMIT_TIMEOUT: 50 µs in current limit during a ramp. -/
def execCurrentLimitTimeout (dom : Nat) (s : State) : Out :=
  if dom < 40 then
    if !s.pwr.ramping.contains dom then ok s
    else if stage s = 6 then ok (wakeLatch s dom) else ok (softLatch s dom)
  else .fault .noSuchUnit

/-- Whether a latched domain waits for its retry at start. -/
def awaitsRetry (s : State) (d : Nat) : Bool :=
  decide (stage s < 6) && s.domState d == 3 && (smapGet s.boot.latched 0 d == 1 || smapGet s.boot.latched 0 d == 2)

/-- SOFT_START_RETRY: the domain ramped again, and the outcome. -/
def execSoftStartRetry (dom : Nat) (railOk : Bool) (s : State) : Out :=
  if dom < 40 then
    if awaitsRetry s dom then (if railOk then ok (startUp s dom) else ok (softLatch s dom)) else ok s
  else .fault .noSuchUnit

end Sys2Proof.Machine
end

