-- ==== Sys2Proof/Machine/StartUnits.lean ====
section
/-! DEFINITION. Stages 4 and 5 of a start: units and spares, HBM training, the join (14: R465 to R467, R463), and the retained
bank's hourly work (R472, R475, R528). -/

namespace Sys2Proof.Machine

/-! BIST (R465, R466). -/

/-- A failed test counted in a unit's wear. -/
def bistFail (s : State) (u : Nat) : State :=
  let s := setMark s u 4
  if u / 4096 = 1 then bankChange (s.bumpSat F.wearCore_BIST_FAILS 1 (u % 4096))
  else bankChange (s.bumpSat F.wearSlice_BIST_FAILS 1 (u % 4096))

/-- A unit replaced or mapped out at start: whether the start stops with code 0x05. -/
abbrev Tried := Bool × State

/-- A unit with no spare: mapped out where its bit permits, else the start is to stop. -/
def mapOutUnit (s : State) (bit u left : Nat) : Tried :=
  if mayDegrade s bit then (false, post (showDegradedStart s) u none 0 0x0E06 left) else (true, s)

/-- The logical core of physical core `p` goes to a spare of its gallery, or becomes vacant. -/
def replaceCoreAtStart (s : State) (p : Nat) : Tried :=
  match placedCore s p with
  | none => (false, s)
  | some c =>
    match (freeCores s (p / 16)).head? with
    | some q =>
      let s := (setCorePos s c (some q)).bumpSat F.wearCore_SWAPS_OUT 1 p
      (false, post s (unitId 1 p) none 2 0x0E05 (unitId 1 q))
    | none =>
      let s := setCorePos s c none
      mapOutUnit s 0 (unitId 1 p) (countLeft s (domOfGallery (p / 16)))

def replaceSliceAtStart (s : State) (p : Nat) : Tried :=
  match placedSlice s p with
  | none => (false, s)
  | some n =>
    match (freeSlices s (p / 68)).head? with
    | some q =>
      let s := (setSlicePos s n (some q)).bumpSat F.wearSlice_SWAPS_OUT 1 p
      (false, post s (unitId 3 p) none 2 0x0E05 (unitId 3 q))
    | none =>
      let s := setSlicePos s n none
      mapOutUnit s 1 (unitId 3 p) (countLeft s (domOfCavern (p / 68)))

/-- A DPU of array `n` that fails at start: its spare takes its place (the array is its own spare's unit), or, with none, its core is
replaced as R106 gives. -/
def dpuAtStart (s : State) (n d : Nat) : Tried :=
  let v := smapGet s.bank.dpuMap 0 n
  let set (s : State) (x : Nat) : State := bankChange { s with bank := { s.bank with dpuMap := smapSet s.bank.dpuMap 0 n x } }
  if v % 64 = d + 1 then (false, s)
  else if v = 0 then
    let s := set s (d + 1)
    if d = 32 then (false, post s (unitId 2 n) none 0 0x0111 32) else (false, post s (unitId 2 n) none 2 0x0E05 (unitId 2 n))
  else replaceCoreAtStart (setMark (set s (v % 64 + 64)) (unitId 1 (n / 4)) 4) (n / 4)

/-- A list of failed units handled one after another, until one stops the start. -/
def tryAll {α : Type} (f : State → α → Tried) : List α → State → Tried
  | [], s => (false, s)
  | x :: xs, s =>
    match f s x with
    | (true, s) => (true, s)
    | (false, s) => tryAll f xs s

/-- UNIT_BIST_DONE: every failure found, then the map loaded and the ID registers shown (R465). -/
def bistDone (s : State) (cores slices : List Nat) (dpus : List (Nat × Nat)) : State :=
  let s := (cores.map (unitId 1) ++ slices.map (unitId 3)).foldl bistFail s
  let a := tryAll replaceCoreAtStart cores s
  let b := if a.1 then a else tryAll (fun s x => dpuAtStart s x.1 x.2) dpus a.2
  let c := if b.1 then b else tryAll replaceSliceAtStart slices b.2
  if c.1 then startStop c.2 5
  else
    let s := showMap (onBoot c.2 (fun b => { b with bistDone := true }))
    if s.boot.hbmDone then showActive s else s.put F.idDevice_CHANNELS_ACTIVE (256 - (bankOut s).length)

def execUnitBistDone (badCores badSlices : List Nat) (badDpus : List (Nat × Nat)) (s : State) : Out :=
  if badCores.all (fun p => decide (p < 256)) && badSlices.all (fun p => decide (p < 272))
      && badDpus.all (fun x => decide (x.1 < 1024) && decide (x.2 < 33)) then
    if stage s = 4 ∧ !s.boot.bistDone then ok (bistDone s badCores badSlices badDpus) else ok s
  else .fault .noSuchUnit

/-! HBM training (R467). -/

/-- A channel that fails training: joins the mapped-out set, or the start is to stop. -/
def chanAtStart (s : State) (n : Nat) : Tried :=
  if (bankOut s).contains n then (false, s)
  else if mayDegrade s 5 && decide ((bankOut s).length + 1 ≤ cfgVal s (fun c => c.maxMapout)) then
    let s := bankChange { s with bank := { s.bank with out := setInsert s.bank.out (chanUnit n) } }
    (false, post (showDegradedStart s) (chanUnit n) none 0 0x0E06 (256 - (bankOut s).length))
  else (true, s)

/-- Channels as they come up: IN_SERVICE, or MAPPED_OUT with TARGET so (Tables 9.5, 9.6). -/
def showChannel (s : State) (n : Nat) : State :=
  let out := s.mem.out.contains n
  (s.put F.dramChanStatus_STATE (if out then 2 else 0) n).put F.dramChanCtrl_TARGET (if out then 1 else 0) n

def hbmDone (s : State) (bad : List Nat) : State :=
  let r := tryAll chanAtStart bad s
  if r.1 then startStop r.2 4
  else
    let s := { r.2 with mem := { r.2.mem with out := (bankOut r.2).foldl setInsert [] } }
    let s := (List.range 256).foldl showChannel s
    let s := s.put F.dramSpace_MAX_MAPOUT (cfgVal s (fun c => c.maxMapout))
    let s := showActive (showSpace s)
    onBoot s (fun b => { b with hbmDone := true })

/-- HBM_TRAINING_DONE: every DRAM PHY is up. -/
def execHbmTrainingDone (badChannels : List Nat) (s : State) : Out :=
  if badChannels.all (fun n => decide (n < 256)) then
    if stage s = 4 ∧ !s.boot.hbmDone ∧ (List.range 8).all (fun m => s.domState (24 + m) == 0) then ok (hbmDone s badChannels) else ok s
  else .fault .noSuchUnit

/-! The join (R463, R280). -/

/-- Registers take image values (Table 14.5; default LIMIT_C and ORDER, log 6). -/
def imageValues (s : State) (c : ImageCfg) : State :=
  let s := (s.put F.fabNode_NODE c.node).put F.tidePaths_SOURCE c.source
  let s := (s.put F.tidePaths_PORT_A c.portA).put F.tidePaths_PORT_B c.portB
  let s := (s.put F.cavHashKey_KEY c.hashKey).put F.cavCtrl_COMPRESS_EN (c.cavFlags % 2)
  let s := (s.put F.cavCtrl_HOSTLINE_EN (c.cavFlags / 2 % 2)).put F.tideLock_ACTIVE_PATH s.bank.path
  (List.range 4).foldl (fun s t => s.put F.pwrTherm_LIMIT_C 95 t) (s.put F.pwrCap_ORDER 0)

/-- READY (R462, R459): ATTEMPTS back to 0, FATAL cleared, the minimum security version raised. -/
def becomeReady (s : State) (c : ImageCfg) (bootMs : Nat) : State :=
  let s := clearAttempts (setStage s 6)
  let s := (s.put F.lkBootStatus_STOP_CODE 0).put F.lkBootStatus_BOOT_MS bootMs
  let s := onBoot s (fun b => { b with otpMin := max b.otpMin c.secVersion, eff := 1 })
  let s := (s.put F.lkImageInfo_MIN_SEC_VERSION s.boot.otpMin).put F.faultStatus_FATAL 0
  cxlShow ((s.put F.fabNode_READY 1).put F.hostStatus_READY 1)

/-- START_JOIN: stage 4 has finished and no domain waits for a retry. -/
def execStartJoin (bootMs : Nat) (s : State) : Out :=
  let up (d : Nat) : Bool := s.domState d == 0 || s.boot.offAt.contains d
  match s.boot.cfg with
  | none => ok s
  | some c =>
    if stage s = 4 ∧ s.boot.bistDone ∧ s.boot.hbmDone ∧ (List.range 39).all up then ok (becomeReady (imageValues s c) c bootMs) else ok s

/-! The retained bank. -/

/-- CELL_MEASURE (R472): the hourly reading. -/
def execCellMeasure (mv : Nat) (s : State) : Out :=
  if s.boot.standby then
    let was := s.isSet F.rbStatus_CELL_LOW
    let s := bankChange (s.put F.rbStatus_CELL_MV mv)
    if mv < 2600 ∧ !was then ok (post (s.put F.rbStatus_CELL_LOW 1) 0xD007 none 0 0x0E07 mv) else ok s
  else ok s

/-- BANK_MIRROR_COPY (R475): the bank to the next of the 64 slots. -/
def execBankMirrorCopy (s : State) : Out :=
  if s.boot.standby then
    let b := s.boot
    ok { s with boot := { b with mirror := smapInsert b.mirror b.mirrorNext s.bank, mirrorNext := (b.mirrorNext + 1) % 64 } }
  else ok s

/-- One more hour lit for each emitter in use (R528). -/
def litHour (s : State) : State :=
  let lit := (List.range 160).foldl (fun m n => if emState s n < 2 then smapSet m 0 n (smapGet m 0 n + 1) else m) s.bank.lit
  { s with bank := { s.bank with lit := lit } }

/-- WEAR_SAVE (R528): one more hour ON or CLOCK-GATED for cores and slices, lit for emitters. -/
def execWearSave (s : State) : Out :=
  let s := (List.range 256).foldl (fun s p => if s.domOn (domOfGallery (p / 16)) then s.bumpSat F.wearCore_ON_HOURS 1 p else s) s
  let s := (List.range 272).foldl (fun s p => if s.domOn (domOfCavern (p / 68)) then s.bumpSat F.wearSlice_ON_HOURS 1 p else s) s
  ok (bankChange (litHour s))

end Sys2Proof.Machine
end

