-- ==== Sys2Proof/Machine/Mgmt.lean ====
section
/-! DEFINITION. The management port (14: R473, R474, R477; 17: R540): PLDM for Platform Monitoring and Control, for Firmware Update,
the OEM commands, JTAG and the I3C address. -/

namespace Sys2Proof.Machine

/-- An answer on the management port. -/
def mgmtSay (s : State) (m : MgmtMsg) : State := { s with out := { s.out with mgmt := s.out.mgmt ++ [m] } }

/-- A request is served while standby power is present (R540). -/
def served (s : State) (k : State → State) : Out := if s.boot.standby then ok (k s) else ok s

def accept (s : State) : State := mgmtSay s .accepted
def refuse (s : State) : State := mgmtSay s .refused

/-- MODULE_RESET_WARM (R474): answered, then as on an assertion of PERST#; the pin itself stays as it is. -/
def execModuleResetWarm (s : State) : Out :=
  served s (fun s =>
    let s := warmReset (accept s)
    if stage s = 7 then s else onBoot s (fun b => { b with eff := 2 }))

/-- MODULE_RESET_COLD (R474): answered, switched power removed, then as on a return of standby power; the dynamic address is kept. -/
def execModuleResetCold (bankOk : Bool) (s : State) : Out :=
  served s (fun s =>
    let dyn := s.boot.dyn
    let s := coldReset (accept s) bankOk
    onBoot s (fun b => { b with dyn := dyn, eff := if stage s = 7 then 1 else 3 }))

/-- GET_STATE_EFFECTER_STATES (R474): effecter 0x0001; NONE but while the start of a commanded reset runs (log 30). -/
def execGetStateEffecterStates (s : State) : Out := served s (fun s => mgmtSay s (.effecter s.boot.eff))

/-- GET_STATE_SENSOR_READINGS (R469, R474): sensor 0x0001 reads the stop code. -/
def execGetStateSensorReadings (s : State) : Out := served s (fun s => mgmtSay s (.sensor (s.get F.lkBootStatus_STOP_CODE)))

/-- SET_PREFERRED (R473). -/
def execSetPreferred (img : Nat) (s : State) : Out := if img < 2 then served s (fun s => accept (setPref s img)) else .fault .noSuchUnit

/-- CLEAR_FAULT_HISTORY (R473). -/
def execClearFaultHistory (s : State) : Out := served s (fun s => accept (bankChange { s with bank := { s.bank with hist := [] } }))

/-- CLEAR_SOFTSTART_STICKY (R473). -/
def execClearSoftstartSticky (s : State) : Out := served s (fun s => accept (bankChange (s.put F.rbSoftstartSticky_EVER_LATCHED 0)))

/-! Firmware update (R477); the order of its commands is DSP0267's (PRESUMED, log 32). -/

/-- A command of the update taken in some states, refused in the others. -/
def fwStep (s : State) (on : FwState → Bool) (k : State → State) : Out := served s (fun s => if on s.boot.fw then accept (k s) else refuse s)

def setFw (s : State) (f : FwState) : State := onBoot s (fun b => { b with fw := f })

/-- The component: the slot that is not running; either while none runs. -/
def fwSlotOk (s : State) (slot : Nat) : Bool := decide (slot < 2) && s.boot.img != some slot

/-- REQUEST_UPDATE: refused in stages 0 to 5. -/
def execRequestUpdate (s : State) : Out := served s (fun s => if s.boot.fw == .idle && decide (6 ≤ stage s) then accept (setFw s .learn) else refuse s)

/-- PASS_COMPONENT_TABLE. -/
def execPassComponentTable (slot : Nat) (s : State) : Out :=
  served s (fun s =>
    if s.boot.fw == .learn && fwSlotOk s slot then accept (setFw (onBoot s (fun b => { b with fwSlot := slot })) .ready) else refuse s)

/-- UPDATE_COMPONENT. -/
def execUpdateComponent (slot : Nat) (s : State) : Out :=
  served s (fun s =>
    if s.boot.fw == .ready && slot == s.boot.fwSlot && fwSlotOk s slot then accept (setFw (onBoot s (fun b => { b with fwGot := 0 })) .download)
    else refuse s)

/-- REQUEST_FIRMWARE_DATA: a piece of the image written to the slot. -/
def execRequestFirmwareData (off : Nat) (data : List Byte) (s : State) : Out :=
  served s (fun s =>
    if s.boot.fw == .download && decide (off + data.length ≤ slotSize) then
      let s := flashWrite s (slotBase s.boot.fwSlot + off) data
      accept (onBoot s (fun b => { b with fwGot := b.fwGot + data.length }))
    else refuse s)

/-- TRANSFER_COMPLETE. -/
def execTransferComplete (s : State) : Out := fwStep s (fun f => f == .download) (fun s => setFw s .verify)

/-- VERIFY_COMPLETE (R477, R459): a slot that verifies has BAD and ATTEMPTS cleared; one that does not ends the component. -/
def execVerifyComplete (keyOk sigOk : Bool) (s : State) : Out :=
  served s (fun s =>
    if s.boot.fw == .verify then
      if (imgFault s s.boot.fwSlot keyOk sigOk).isNone then
        accept (setFw (setAttempts (setBad s s.boot.fwSlot 0) s.boot.fwSlot 0) .apply)
      else refuse (setFw s .ready)
    else refuse s)

/-- APPLY_COMPLETE. -/
def execApplyComplete (s : State) : Out := fwStep s (fun f => f == .apply) (fun s => setFw s .activate)

/-- ACTIVATE_FIRMWARE (R477): PREFERRED is the slot, from the next warm or cold reset. -/
def execActivateFirmware (s : State) : Out := fwStep s (fun f => f == .activate) (fun s => setFw (setPref s s.boot.fwSlot) .idle)

/-- DSP0267's number of each state (PRESUMED, log 32). -/
def FwState.code : FwState → Nat
  | .idle => 0 | .learn => 1 | .ready => 2 | .download => 3 | .verify => 4 | .apply => 5 | .activate => 6

/-- GET_STATUS. -/
def execGetStatus (s : State) : Out := served s (fun s => mgmtSay s (.fwStatus s.boot.fw.code))

/-- CANCEL_UPDATE. -/
def execCancelUpdate (s : State) : Out := fwStep s (fun f => f != .idle) (fun s => setFw s .idle)

/-! JTAG and I3C (R540). -/

/-- JTAG_ACCESS: the boundary scan of J1 to J3 answers whenever standby is present, with the device's code and stepping; the IEEE 1500
paths answer only while start-up is stopped. It changes no state (log 33). -/
def execJtagAccess (s : State) : Out := served s (fun s => mgmtSay s (.jtagId (s.get F.idDevice_PART) (s.get F.idDevice_STEPPING)))

/-- I3C_DYNAMIC_ADDRESS. -/
def execI3cDynamicAddress (addr : Nat) (s : State) : Out :=
  if addr < 128 then served s (fun s => onBoot s (fun b => { b with dyn := some addr })) else .fault .noSuchUnit

end Sys2Proof.Machine
end

