-- ==== Sys2Proof/Machine/Power.lean ====
section
/-! DEFINITION. Power commands, clock gating, P-states, the cap and the thermal limiter (15: R480 to R499). -/

namespace Sys2Proof.Machine

/-! Commands (R482 to R485). Domain 40 stands for the P-state. -/

/-- The states that Table 15.1 allows the host to ask of a domain: 0 ON, 1 CLOCK-GATED, 2 RETAIN, 3 OFF. -/
def allowed (d target : Nat) : Bool :=
  if target = 0 then true
  else if d < 24 then (if d % 6 < 4 then true else target != 2)
  else if d < 32 then target == 1
  else if d < 38 then target == 3
  else false

/-- The condition of Table 15.6 for a target; a domain already there leaves nothing (R484). -/
def mayLeave (s : State) (d target : Nat) : Bool :=
  if s.domState d = target then true
  else if d < 24 ∧ d % 6 < 4 then
    let blocks := s.run.blocks.filter (fun b => galleryOfCore b.core == 4 * (d / 6) + d % 6)
    if target = 2 then blocks.all (fun b => s.ctxState b.ctx == 2) else if target = 3 then blocks.isEmpty else true
  else if d < 24 ∧ d % 6 = 5 ∧ target = 3 then (List.range 8).all (fun k => !s.isSet F.ferryCtrl_RUN (8 * (d / 6) + k))
  else true

/-- Slices of a tile that serve begin to drain (R278, R282). -/
def drainTile (s : State) (t : Nat) : State :=
  (slicesOf t).foldl (fun s n => if sliceActive s n then hlDrain (s.put F.cavSliceStatus_STATE 1 n) n else s) s

/-- A started command goes on toward its target: a wake joins the queue, a Cavern on its way to OFF drains. -/
def beginTransition (s : State) (d target : Nat) : State :=
  let s := s.put F.pwrDomStatus_BUSY 1 d
  if target < 2 ∧ 2 ≤ s.domState d then enqueueWakes s [d]
  else if target = 3 ∧ d < 24 ∧ d % 6 = 4 then drainTile s (d / 6)
  else s

def markCmd (s : State) (d : Nat) : State :=
  setPwr s { s.pwr with cmd := smapMod s.pwr.cmd d (fun c => { c with started := true }) }

/-- A command starts (R484, R493): its checks, or its work. -/
def startCmd (s : State) (d : Nat) (c : PwrCmd) : State :=
  let s := markCmd s d
  if d = 40 then
    if !s.ready || s.get F.pwrPstate_CURRENT == c.target then pwrAnswer s 40 0 else s.put F.pwrPstate_BUSY 1
  else
    let s := s.put F.pwrDomStatus_SCHEDULED 0 d
    if !s.ready then pwrAnswer s d 6
    else if s.isSet F.pwrDomStatus_MAPPED_OUT d then pwrAnswer s d 3
    else if !allowed d c.target then pwrAnswer s d 1
    else if !mayLeave s d c.target then pwrAnswer s d 2
    else if s.domState d = c.target then pwrAnswer s d 0
    else beginTransition s d c.target

/-- The first slot boundary at or after a count (R483). -/
def boundaryAt (n : Nat) : Nat := cdiv n 1024 * 1024

def setLate (s : State) (d v : Nat) : State := if d = 40 then s.put F.pwrPstate_LATE v else s.put F.pwrDomStatus_LATE v d

/-- A submitted command taken (R482, R483): it starts, or waits for its count. A boundary has passed on receipt where the tide is
VALID and beyond it. -/
def takeCmd (s : State) (d : Nat) (atEn : Bool) (c : PwrCmd) : State :=
  let s := setLate (setPwr s { s.pwr with cmd := smapInsert s.pwr.cmd d c }) d 0
  let valid := s.isSet F.tideLock_VALID
  let b := boundaryAt c.at_
  if !atEn then startCmd s d c
  else if valid && decide (b < s.tideNow) then startCmd (setLate s d 1) d c
  else if valid && b == s.tideNow then startCmd s d c
  else if d = 40 then s else s.put F.pwrDomStatus_SCHEDULED 1 d

/-- A submission (R482). -/
def submit (s : State) (d : Nat) (atEn : Bool) (c : PwrCmd) : State :=
  match smapFind s.pwr.cmd d with
  | none => takeCmd s d atEn c
  | some old =>
    if old.started then (if d = 40 then s.put F.pwrPstate_OVERRUN 1 else s.put F.pwrDomStatus_OVERRUN 1 d)
    else takeCmd (pwrAnswer s d 5) d atEn c

/-- A write of PWR_DOM_CTRL_d: a new REQ_SEQ submits. -/
def domWrite (s : State) (d target seq : Nat) (atEn evEn : Bool) (event : Nat) : State :=
  let old := s.get F.pwrDomCtrl_REQ_SEQ d
  let s := (s.put F.pwrDomCtrl_TARGET target d).put F.pwrDomCtrl_AT_EN (if atEn then 1 else 0) d
  let s := (s.put F.pwrDomCtrl_EVENT_EN (if evEn then 1 else 0) d).put F.pwrDomCtrl_EVENT event d
  let s := s.put F.pwrDomCtrl_REQ_SEQ seq d
  if seq % 256 = old then s
  else submit s d atEn ⟨target % 4, seq % 256, event % 65536, evEn, s.get F.pwrDomAt_AT d, false⟩

/-- A write of PWR_PSTATE. -/
def pstateWrite (s : State) (target seq : Nat) (atEn evEn : Bool) (event : Nat) : State :=
  let old := s.get F.pwrPstate_REQ_SEQ
  let s := (s.put F.pwrPstate_TARGET target).put F.pwrPstate_AT_EN (if atEn then 1 else 0)
  let s := (s.put F.pwrPstate_EVENT_EN (if evEn then 1 else 0)).put F.pwrPstate_EVENT event
  let s := s.put F.pwrPstate_REQ_SEQ seq
  if seq % 256 = old then s
  else submit s 40 atEn ⟨target % 4, seq % 256, event % 65536, evEn, s.get F.pwrPstateAt_AT, false⟩

def execDomainCmdOn (dom seq : Nat) (atEn evEn : Bool) (event : Nat) (s : State) : Out :=
  if dom < 40 then bar0 s (domWrite (wideWrite s .pwrDomCtrl dom) dom 0 seq atEn evEn event) else .fault .noSuchUnit

def execDomainCmdClockGated (dom seq : Nat) (atEn evEn : Bool) (event : Nat) (s : State) : Out :=
  if dom < 40 then bar0 s (domWrite (wideWrite s .pwrDomCtrl dom) dom 1 seq atEn evEn event) else .fault .noSuchUnit

def execDomainCmdRetain (dom seq : Nat) (atEn evEn : Bool) (event : Nat) (s : State) : Out :=
  if dom < 40 then bar0 s (domWrite (wideWrite s .pwrDomCtrl dom) dom 2 seq atEn evEn event) else .fault .noSuchUnit

def execDomainCmdOff (dom seq : Nat) (atEn evEn : Bool) (event : Nat) (s : State) : Out :=
  if dom < 40 then bar0 s (domWrite (wideWrite s .pwrDomCtrl dom) dom 3 seq atEn evEn event) else .fault .noSuchUnit

/-- PSTATE_CMD. -/
def execPstateCmd (target seq : Nat) (atEn evEn : Bool) (event : Nat) (s : State) : Out :=
  if target < 4 then bar0 s (pstateWrite (wideWrite s .pwrPstate) target seq atEn evEn event) else .fault .noSuchUnit

/-- SCHEDULED_CMD_START (R483). -/
def execScheduledCmdStart (dom : Nat) (s : State) : Out :=
  if dom ≤ 40 then
    match smapFind s.pwr.cmd dom with
    | none => ok s
    | some c =>
      if !c.started && s.isSet F.tideLock_VALID && decide (boundaryAt c.at_ ≤ s.tideNow) then ok (startCmd s dom c) else ok s
  else .fault .noSuchUnit

/-! Reaching the state (R484, Table 15.6). -/

/-- A tile's Cavern off: every line written back, its slices OFF and out of ID_SLICE_MAP_n. -/
def cavernOff (s : State) (t : Nat) : State :=
  let s := (slicesOf t).foldl (fun s n => if (slicePos s n).isSome
    then ((drainSlice s n).put F.cavSliceStatus_STATE 4 n).put F.idSliceMap_VALID 0 n else s) s
  showCounts s

/-- Whether the work before a lower state is done: the started ACCUMULATING routines of a gallery's cores ended (R206), host lines given
up, jobs finished, sailings settled. -/
def workDone (s : State) (d target : Nat) : Bool :=
  if d < 24 ∧ d % 6 < 4 then
    target < 2 || (coresOf (4 * (d / 6) + d % 6)).all (fun core => !(s.physCore core).any (accRuns s))
  else if d < 24 ∧ d % 6 = 4 then
    s.hl.evict.all (fun e => e.slice / 64 != d / 6) && s.hl.lines.all (fun l => (hostSet s l.ha).1 / 64 != d / 6)
  else if d < 24 ∧ d % 6 = 5 then
    s.eng.jobs.all (fun j => !(unitsOfTile (d / 6)).contains j.unit)
      && (List.range 8).all (fun k => (liveSailings s (8 * (d / 6) + k)).isEmpty)
  else true

/-- A lower state reached. -/
def enterLower (s : State) (d target : Nat) : State :=
  if d < 24 ∧ d % 6 < 4 then
    let cores := coresOf (4 * (d / 6) + d % 6)
    if target = 2 then setDomain (if s.domOn d then cores.foldl retainCore s else s) d 2
    else domainOff (if s.domOn d then cores.foldl glFlush s else s) d
  else if d < 24 ∧ d % 6 = 4 then domainOff (cavernOff s (d / 6)) d
  else
    let s := domainOff s d
    if d = 36 ∨ d = 37 then (portsOfDomain d).foldl showOptics s else s

/-- DOMAIN_TRANSITION_DONE. -/
def execDomainTransitionDone (dom : Nat) (s : State) : Out :=
  if dom < 40 then
    match smapFind s.pwr.cmd dom with
    | none => ok s
    | some c =>
      if !c.started then ok s
      else if c.target < 2 then
        if 2 ≤ s.domState dom then (if s.boot.ramped.contains dom then ok (wakeDone s dom c.target) else ok s)
        else ok (pwrAnswer (setDomain s dom c.target) dom 0)
      else if !workDone s dom c.target then ok s
      else ok (pwrAnswer (enterLower s dom c.target) dom 0)
  else .fault .noSuchUnit

/-! Clock gating and the P-state's switch. -/

/-- Whether a gated domain is idle as far as the block's state tells (Table 15.2). -/
def idleNow (s : State) (d : Nat) : Bool :=
  if d < 24 ∧ d % 6 < 4 then s.run.blocks.all (fun b => galleryOfCore b.core != 4 * (d / 6) + d % 6)
  else if d < 24 ∧ d % 6 = 5 then workDone s d 3
  else decide (d < 32)

/-- CLOCK_GATE_IDLE (R481). -/
def execClockGateIdle (dom : Nat) (s : State) : Out :=
  if dom < 40 then
    if s.domState dom = 1 ∧ idleNow s dom then ok (s.put F.pwrDomStatus_GATED 1 dom) else ok s
  else .fault .noSuchUnit

/-- PSTATE_CLOCK_SWITCH (R493): no ACCUMULATING routine runs; those held back start. -/
def execPstateClockSwitch (s : State) : Out :=
  match smapFind s.pwr.cmd 40 with
  | none => ok s
  | some c =>
    if c.started && !s.eng.jobs.any (fun j => j.acc && j.started) then
      let s := pwrAnswer (s.put F.pwrPstate_CURRENT c.target) 40 0
      ok ((s.eng.jobs.filter (fun j => j.acc)).foldl (fun s j => startHead s j.unit) s)
    else ok s

/-! The cap (R494 to R496). -/

/-- Classes by priority, highest first, 0 compute, 1 links, 2 memory (Table 15.9). -/
def capOrder (n : Nat) : List Nat :=
  match n with
  | 0 => [2, 1, 0] | 1 => [2, 0, 1] | 2 => [1, 2, 0] | 3 => [1, 0, 2] | 4 => [0, 2, 1] | _ => [0, 1, 2]

def maxLevel (c : Nat) : Nat := if c = 0 then 240 else 128

/-- The levels of `rest` mW of excess taken from the classes in turn. -/
def capLevels (span : List Nat) : List Nat → Nat → SMap Nat
  | [], _ => []
  | c :: cs, rest =>
    let sp := nthD span c 0
    let a := min rest sp
    smapInsert (capLevels span cs (rest - a)) c (if sp = 0 then 0 else a * maxLevel c / sp)

/-- The integral of the excess after an interval (cap_step). -/
def capIntegral (s : State) (p capEff : Nat) : Nat := min (s.get F.pwrCap_U_MW + p - capEff) (s.pwr.spans.foldl (· + ·) 0)

/-- The effective cap in mW (R494): 50 A at the input's mV, or CAP_W. -/
def effectiveCap (s : State) (vinMv : Nat) : Nat := min (s.get F.pwrCap_CAP_W * 1000) (50 * vinMv)

/-- One reason of R498 at the end of an interval. -/
def reasonOn (on : Nat → Bool) (s : State) (k : Nat) : State :=
  if on k then
    let s := s.bump F.pwrThrottleUs_US 10 k
    let s := if k < 5 then s else s.orBit F.pwrThrottle_THERMAL (k - 5)
    match k with
    | 0 => s.put F.pwrThrottle_CAP_COMPUTE 1
    | 1 => s.put F.pwrThrottle_CAP_LINKS 1
    | 2 => s.put F.pwrThrottle_CAP_MEMORY 1
    | 3 => s.put F.pwrThrottle_CAP_FLOOR 1
    | 4 => s.put F.pwrThrottle_INPUT_LIMIT 1
    | _ => s
  else s

/-- Records of the first interval of each onset (R498, Table 15.19). -/
def onsets (on : Nat → Bool) (was dw : Nat) (s : State) : State :=
  let s := if on 3 && !was.testBit 3 then post s noUnit none 0 0x0F03 dw else s
  (List.range 4).foldl (fun s t =>
    if on (5 + t) && !was.testBit (5 + t) then post s noUnit none 0 0x0F04 (extra2 t (s.get F.pwrTherm_TEMP_C t)) else s) s

/-- Throttle reasons of an interval. -/
def throttle (s : State) (on : Nat → Bool) (dw : Nat) : State :=
  let was := s.get F.pwrThrottle_ACTIVE
  let s := (List.range 9).foldl (reasonOn on) s
  let s := s.put F.pwrThrottle_ACTIVE ((List.range 9).foldl (fun m k => if on k then m + 2 ^ k else m) 0)
  onsets on was dw s

/-! Energy (R499), in fJ: 10^12 to the mJ. -/

def mj : Nat := 1000000000000

/-- Energy added to a context's counter, its residue carried. -/
def giveEnergy (s : State) (c e : Nat) : State :=
  let r := smapGet s.pwr.residue 0 c + e
  (setPwr s { s.pwr with residue := smapSet s.pwr.residue 0 c (r % mj) }).bump F.ctxEnergy_MJ (r / mj) c

def giveUnattr (s : State) (e : Nat) : State :=
  let r := s.pwr.unattr + e
  (setPwr s { s.pwr with unattr := r % mj }).bump F.pwrEnergyUnattr_MJ (r / mj)

/-- An interval's energy divided: the idle part unattributed, the rest by weighted activity; what the division leaves over is
unattributed too. -/
def energy (s : State) (p : Nat) (act : List (Nat × Nat)) : State :=
  let e := p * 10000000
  let idle := min e (nthD s.pwr.idle (s.get F.pwrPstate_CURRENT) 0 * 10000000000)
  let total := (act.map (fun x => x.2)).foldl (· + ·) 0
  let share (w : Nat) : Nat := if total = 0 then 0 else (e - idle) * w / total
  let given := (act.map (fun x => share x.2)).foldl (· + ·) 0
  giveUnattr (act.foldl (fun s x => giveEnergy s x.1 (share x.2)) s) (e - given)

/-- CAP_INTERVAL (R494, R495, R498, R499): the measured power in mW, the input in mV, each context's weighted activity. -/
def capStep (s : State) (p vinMv : Nat) (act : List (Nat × Nat)) : State :=
  let cap := effectiveCap s vinMv
  let u := capIntegral s p cap
  let lv := capLevels s.pwr.spans (capOrder (s.get F.pwrCap_ORDER)).reverse u
  let any := (List.range 3).any (fun c => smapGet lv 0 c != 0)
  let dw := min (p / 100) 65535
  let on (k : Nat) : Bool :=
    if k < 3 then smapGet lv 0 k != 0
    else if k = 3 then u == s.pwr.spans.foldl (· + ·) 0 && decide (cap < p)
    else if k = 4 then decide (50 * vinMv < s.get F.pwrCap_CAP_W * 1000) && any
    else s.get F.pwrTherm_LEVEL (k - 5) != 0
  let s := (s.put F.pwrCap_U_MW u).put F.pwrInput_POWER_DW dw
  let s := (s.put F.pwrInput_VIN_MV (min vinMv 65535)).put F.pwrInput_COMPUTE_LVL (smapGet lv 0 0)
  let s := (s.put F.pwrInput_LINK_LVL (smapGet lv 0 1)).put F.pwrInput_MEM_LVL (smapGet lv 0 2)
  energy (throttle s on dw) p act

def execCapInterval (pMw vinMv : Nat) (act : List (Nat × Nat)) (s : State) : Out :=
  if act.all (fun x => decide (x.1 < 4096)) then ok (capStep s pMw vinMv act) else .fault .noSuchUnit

/-! The thermal limiter (R497, R545). -/

/-- One tile's reading: TEMP_C and its level. -/
def thermTile (s : State) (t temp : Nat) : State :=
  let limit := s.get F.pwrTherm_LIMIT_C t
  let l := s.get F.pwrTherm_LEVEL t
  let l' := if limit < temp then min 240 (l + 4 * (temp - limit)) else if temp + 2 ≤ limit then l - 1 else l
  (s.put F.pwrTherm_TEMP_C (min temp 255) t).put F.pwrTherm_LEVEL l' t

/-- A reading at the shutdown limit, 110 °C: record 0x0F05, then D0 to D37 to OFF without draining. -/
def thermShut (s : State) (t temp : Nat) : State :=
  if temp < 110 then s
  else
    let s := powerFatal s 0x0F05 (extra2 t temp)
    if stage s = 6 then powerOff (setPwr s { s.pwr with wakeQ := [], win := [], ramping := [], cmd := [] }) 38 else s

/-- THERMAL_INTERVAL: the hottest reading of each tile in whole °C. -/
def execThermalInterval (temps : List Nat) (s : State) : Out :=
  if temps.length = 4 then
    let s := temps.zipIdx.foldl (fun s x => thermTile s x.2 x.1) s
    ok (temps.zipIdx.foldl (fun s x => thermShut s x.2 x.1) s)
  else .fault .noSuchUnit

end Sys2Proof.Machine
end

