-- ==== Sys2Proof/Machine/CoreFault.lean ====
section
/-! DEFINITION. Checks and failures of arrays and cores: replay, spares, planned swaps (3: R103 to R106; 4: R135, R136; 16: R507 to
R514, R521). -/

namespace Sys2Proof.Machine

/-! What a block's or a task's end takes with it. -/

/-- Jobs of a block that is to run again, abandoned: no token and no bollard follows (R225); a tender stops at its next boundary (R510). -/
def abandonJobs (s : State) (id : Nat) : State :=
  let mine (j : EngJob) : Bool := match j.origin with | .block b _ => b == id | _ => false
  let on (j : EngJob) : Bool := j.unit / 4096 == 8 && j.started
  let units := (s.eng.jobs.filter mine).map (fun j => j.unit)
  let s := (s.eng.jobs.filter mine).foldl (fun s j => unpark s j.ctx (fun p => p.who == .job j.id)) s
  let js := s.eng.jobs.filter (fun j => !mine j || on j)
  units.foldl startHead (setJobs s (js.map (fun j => if mine j then { j with stopping := true, parked := none } else j)))

/-- A block of a REPLAYABLE entry is to run again from its start, with the same index (R510, R154). -/
def replayBlock (s : State) (b : BlockRec) : State :=
  let s := updLaunch (abandonJobs s b.id) b.launch (fun l => { l with again := setInsert l.again b.idx })
  let s := dropBlock s b
  { s with run := { s.run with ops := s.run.ops.filter (fun o => o.block != b.id) } }

/-- A block whose work a check or a failure concerns: replayed, or its context ends with record 0x0102. `rec` posts 0x0101 as well
(R104, R507, R530). -/
def faultBlock (s : State) (unit : Nat) (rec : Bool) (b : BlockRec) : State :=
  match launchRec s b.launch with
  | none => s
  | some l =>
    if l.decl.replayable then
      let s := replayBlock s b
      if rec then post s unit (some b.ctx) 0 0x0101 b.idx else s
    else contained s b.ctx unit 0x0102 b.idx

/-- Gradient buffers of the handles whose chunks had started are undefined (R136). -/
def spoilGrads (s : State) (m : SegMul) : State :=
  let put (c ca n : Nat) (s : State) : State :=
    match devPut c ca (undefinedBytes s n) s with
    | .ok _ s => { s with free := s.free + 1 }
    | .absent _ _ s => s
    | .halt _ _ s => s
  let c := m.job.ctx
  let begun (t : Nat × STask) : Bool := taskBegun m t.1
  ((segTasks m.par m.runs).filter begun).foldl (fun s t =>
    let both (r : SegRun) (s : State) : State :=
      let s := (List.range r.rank).foldl (fun s i => put c (r.ga + i * r.gaPitch) (4 * r.inDim) s) s
      (List.range r.outDim).foldl (fun s i => put c (r.gb + i * r.gbPitch) (4 * r.rank) s) s
    match t.2 with
    | .ga r _ _ => both r s
    | .gb r _ _ => both r s
    | _ => s) s

/-- Tasks of a segmented multiply that run on a logical core. -/
def tasksOn (s : State) (core : Nat) : List (SegMul × SegTask) :=
  s.eng.seg.flatMap (fun m => (m.tasks.filter (fun t => !t.done && t.core == some core)).map (fun t => (m, t)))

/-- A task cut short: dispatched again whole, or, a weight task, the end of its job and context (R135, R136). -/
def faultTask (s : State) (unit : Nat) (rec : Bool) (mt : SegMul × SegTask) : State :=
  let (m, t) := mt
  if m.par.mode == .backWeight then contained (spoilGrads s m) m.job.ctx unit 0x0102 t.no
  else
    let s := updSeg s m.job.id (fun x => { x with tasks := x.tasks.filter (fun y => y.no != t.no) })
    let s := unpark s m.job.ctx (fun p => p.who == .task m.job.id t.no)
    if rec then post s unit (some m.job.ctx) 0 0x0101 t.no else s

/-- The context of an ACCUMULATING routine whose core fails ends, the memory it accumulated into undefined (R206, R136). -/
def faultRoutine (c p : Nat) (s : State) (j : EngJob) : State :=
  let idx := match j.origin with | .block _ i => i.idx | .queue _ _ => 0
  let s := match j.job with | .routine r => spoil j.ctx c r s | _ => s
  contained (dropJob s j.id) j.ctx (unitId 1 p) 0x0102 idx

/-- Those that run on physical core `p`, logical core `c`. -/
def faultRoutines (s : State) (c p : Nat) : State :=
  (s.eng.jobs.filter (fun j => j.unit == unitId 1 p && j.acc && j.started)).foldl (faultRoutine c p) s

/-! Spares. -/

/-- A logical core left vacant: no block is placed on it (R153). -/
def vacateCore (s : State) (c : Nat) : State :=
  showCounts (loseCore ((setCorePos s c none).put F.idCoreMap_VALID 0 c) c)

/-- A failed core's requests not yet accepted and stores are gone (R509); its spare is bound as the core was and cleared, its victim
generator as every bind sets it (R512, R147, R251). -/
def emptyCore (s : State) (c : Nat) (kept : Bool) : State :=
  let bound := kept && s.isSet F.coreBinding_BOUND c
  let ctx := s.get F.coreBinding_CONTEXT c
  let s := resetVictim (loseCore s c) c
  let s := { s with hl := { s.hl with reads := s.hl.reads.filter (fun h => h.core != c) } }
  if bound then
    setFlags ((s.put F.coreBinding_BOUND 1 c).put F.coreBinding_CONTEXT ctx c) c { coreFlags s c with clearing := true, servedNone := false }
  else s

/-- Failure of a core that fills a position (R508 to R512): its blocks and tasks end or are to run again, the spare takes its
place, or the position becomes vacant. -/
def failPlaced (s : State) (c p : Nat) : State :=
  let u := unitId 1 p
  let s := faultRoutines s c p
  let s := (s.run.blocks.filter (fun b => b.core == c)).foldl (fun s b => faultBlock s u false b) s
  let s := (tasksOn s c).foldl (fun s t => faultTask s u false t) s
  let here (j : EngJob) : Bool := j.unit == u || (j.unit / 4096 == 2 && j.unit % 4096 / 4 == p)
  let s := (s.eng.jobs.filter here).foldl (fun s j => unpark s j.ctx (fun x => x.who == .job j.id)) s
  let s := setJobs s (s.eng.jobs.filter (fun j => !here j))
  match (freeCores s (p / 16)).head? with
  | some q => giveCore (emptyCore s c true) c p q
  | none =>
    let s := vacateCore (emptyCore s c false) c
    spareFlag (post s u none 0 0x0104 c) F.faultStatus_UNIT_LOST

/-- A swap that waits for a core to drain is abandoned as its spare `q` fails (R514); the command answers NO_SPARE (DEDUCED, log 58). -/
def abandonSwap (s : State) (q : Nat) : State :=
  match s.flt.swaps.find? (fun x => x.unit / 4096 == 1 && x.spare == some q && unitMark s x.unit == 2) with
  | none => s
  | some x =>
    let s := setMark { s with flt := { s.flt with swaps := s.flt.swaps.filter (fun y => y.unit != x.unit) } } x.unit 0
    match x.seq with
    | none => s
    | some _ =>
      let s := ((s.put F.ftCmd_RESULT 4).put F.ftCmd_UNIT_STATE 0).put F.ftCmd_DETAIL 0
      signalIf s (s.isSet F.faultCtrl_FT_EVENT_EN) (s.get F.faultCtrl_EVENT)

/-- A core has failed. -/
def coreFail (s : State) (p : Nat) : State :=
  if unitMark s (unitId 1 p) = 4 then s
  else
    let c := placedCore s p
    let s := setMark s (unitId 1 p) 4
    let s := { s with flt := { s.flt with swaps := s.flt.swaps.filter (fun x => x.unit != unitId 1 p) } }
    let s := abandonSwap s p
    match c with
    | some c => failPlaced s c p
    | none => showCoreSpare s (p / 16)

/-! Commands. -/

/-- A check within 1 s of the last one of the same unit (R508), on the block's clock (log 11). -/
def recentCheck (s : State) (u : Nat) : Bool :=
  match smapFind s.flt.lastCheck u with
  | none => false
  | some t => decide (s.ns < t + 1000000000)

def noteCheck (s : State) (u : Nat) : State :=
  { s with flt := { s.flt with lastCheck := smapInsert s.flt.lastCheck u s.ns } }.bumpSat F.wearCore_CHECKS 1 (u % 4096)

/-- CORE_CHECK_FAIL (R507, R508): the block concerned, by its index, ends; the second within 1 s is the core's failure. -/
def execCoreCheckFail (pcore : Nat) (block : Option Nat) (s : State) : Out :=
  if pcore < 256 then
    let u := unitId 1 pcore
    let again := recentCheck s u
    let s := noteCheck s u
    if again then ok (coreFail s pcore)
    else
      match placedCore s pcore, block with
      | some c, some i =>
        match s.run.blocks.find? (fun b => b.core == c && b.idx == i) with
        | some b => ok (faultBlock s u true b)
        | none => ok s
      | _, _ => ok s
  else .fault .noSuchUnit

/-- CORE_HEARTBEAT_TIMEOUT (R508). -/
def execCoreHeartbeatTimeout (pcore : Nat) (s : State) : Out := if pcore < 256 then ok (coreFail s pcore) else .fault .noSuchUnit

/-- What an array works on: operations accepted, oldest first, then a routine that runs on its core, then tasks there. -/
inductive ArrayWork where
  | job (j : EngJob)
  | task (t : SegMul × SegTask)

def arrayWork (s : State) (c pcore array : Nat) : List ArrayWork :=
  let started (u : Nat) : List EngJob := (jobsOf s u).filter (fun j => j.started)
  (started (unitId 2 (pcore * 4 + array)) ++ started (unitId 1 pcore)).map .job ++ (tasksOn s c).map .task

/-- A job whose block a check concerns (R104, R510); one whose block has ended cannot run again, and ends its context. -/
def faultJob (s : State) (c pcore : Nat) (j : EngJob) : State :=
  let u := unitId 1 pcore
  if j.acc then faultRoutine c pcore s j
  else
    match j.origin with
    | .block id i =>
      match blockRec s id with
      | some b => faultBlock s u true b
      | none => contained (dropJob s j.id) j.ctx u 0x0102 i.idx
    | .queue _ _ => contained (dropJob s j.id) j.ctx u 0x0102 0

/-- The work that a failed check of an array concerns (R104): number `work` of what the array works on. Rows already stored stay. -/
def arrayFault (s : State) (pcore array work : Nat) : State :=
  match placedCore s pcore with
  | none => s
  | some c =>
    match (arrayWork s c pcore array)[work]? with
    | none => s
    | some (.job j) => faultJob s c pcore j
    | some (.task t) => faultTask s (unitId 1 pcore) true t

/-- ARRAY_PARITY_FAIL: a single parity failure ends only the work concerned. -/
def execArrayParityFail (pcore : Nat) (place : ArrayPlace) (s : State) : Out :=
  if pcore < 256 ∧ place.array < 4 then ok (arrayFault s pcore place.array place.work) else .fault .noSuchUnit

def setDpu (s : State) (n v : Nat) : State :=
  showDpu (bankChange { s with bank := { s.bank with dpuMap := smapSet s.bank.dpuMap 0 n v } }) n

/-- The array accepts nothing while the map changes; the spare's B store is cleared (R105). -/
def clearHalves (s : State) (pcore array : Nat) : State :=
  match placedCore s pcore with
  | none => s
  | some c =>
    let inFlight (h : BHalf) : Bool := s.eng.jobs.any (fun j => j.id == h.key && j.started)
    setHalves s c array ((bHalves s c array).filter inFlight)

/-- DPU_CHECK_FAIL (R105, R106): physical DPU `dpu` failed by a residue check, or by parity twice within 1 s; the rule treats both
alike. -/
def execDpuCheckFail (pcore : Nat) (place : ArrayPlace) (dpu : Nat) (_residue : Bool) (s : State) : Out :=
  if pcore < 256 ∧ place.array < 4 ∧ dpu < 33 then
    let n := pcore * 4 + place.array
    let v := smapGet s.bank.dpuMap 0 n
    if v % 64 = dpu + 1 then ok s
    else if v = 0 ∧ dpu = 32 then ok (post (setDpu s n 33) (unitId 2 n) none 0 0x0111 32)
    else if v = 0 then
      let s := clearHalves (setDpu (arrayFault s pcore place.array place.work) n (dpu + 1)) pcore place.array
      ok (post s (unitId 2 n) none 2 0x0110 dpu)
    else ok (coreFail (setDpu s n (v % 64 + 64)) pcore)
  else .fault .noSuchUnit

end Sys2Proof.Machine
end

