-- ==== Sys2Proof/Machine/FieldTest.lean ====
section
/-! DEFINITION. The in-field test port FT_CMD, swaps it commands, rejoining units, automatic tests (16: R514, R519 to R529), and
slices that drain and join (8: R278 to R282). -/

namespace Sys2Proof.Machine

/-! Units. -/

/-- Whether Table 1.5 assigns the unit ID. -/
def unitExists (u : Nat) : Bool :=
  let i := u % 4096
  match u / 4096 with
  | 0 => decide (i < 16) | 1 => decide (i < 256) | 2 => decide (i < 1024) | 3 => decide (i < 272) | 4 => decide (i < 256)
  | 5 => decide (i < 256) && decide (i % 16 < 10) | 6 => decide (i < 160) | 7 => decide (i < 32) | 8 => decide (i < 32)
  | 9 => decide (i < 8) | 10 => decide (i < 8) | 11 => decide (i < 256) && decide (i % 64 < 40) | 12 => decide (i < 640)
  | 13 => decide (i < 8) || (decide (16 ≤ i) && decide (i < 24)) | 14 => decide (i < 16)
  | _ => false

/-- The group of a unit within which one swap or test runs at a time (R514): kind and number. -/
def groupOf (u : Nat) : Nat × Nat :=
  let i := u % 4096
  match u / 4096 with
  | 1 => (1, i / 16) | 3 => (3, i / 68) | 5 => (5, i / 16) | 6 => (5, portOfEmitter i) | 4 => (4, 0)
  | k => (k, i)

/-- Lane that a wavelength carries. -/
def laneOf (s : State) (u : Nat) : Option Nat := (List.range 8).find? (fun l => laneWl s (u % 4096 / 16) l == u % 16)

/-- A unit's state as FT_CMD shows it (Table 16.8): 0 IN_SERVICE, 1 SPARE, 2 DRAINING, 3 TESTING, 4 FAILED, 5 BYPASSED. -/
def unitState (s : State) (u : Nat) : Nat :=
  let i := u % 4096
  if unitMark s u ≠ 0 then unitMark s u
  else
    match u / 4096 with
    | 1 => if (placedCore s i).isSome then 0 else 1
    | 3 => if (placedSlice s i).isSome then 0 else 1
    | 4 => match chanState s i with | 0 => 0 | 1 => 2 | 2 => if s.mem.failedTest.contains i then 4 else 5 | 4 => 4 | 5 => 3 | _ => 5
    | 5 => if (laneOf s u).isSome then 0 else if s.bank.out.contains u then 4 else 1
    | 6 => match emState s i with | 0 => 0 | 3 => 4 | 4 => 4 | _ => 1
    | 11 => if s.flt.d2dOut.contains i then 4 else 0
    | 12 => if i % 16 = 15 ∧ s.boot.offAt.contains (i / 16) then 5 else 0
    | _ => if unitUp s u then 0 else 4

/-- Whether a group has a swap or test in progress; for a port, a lane or an emitter on the move; for DRAM, a channel. -/
def groupBusy (s : State) (g : Nat × Nat) : Bool :=
  s.flt.swaps.any (fun x => groupOf x.unit == g)
    || (g.1 == 5 && (!(portState s g.2).moving.isEmpty || s.fab.retune.any (fun r => portOfEmitter r.1 == g.2)))
    || (g.1 == 4 && s.mem.move.isSome)

/-! Answers. -/

/-- FT_CMD answered (R519): RESULT, UNIT_STATE, DETAIL, then DONE_SEQ. -/
def ftAnswer (s : State) (result unit detail seq : Nat) : State :=
  let s := (s.put F.ftCmd_RESULT result).put F.ftCmd_UNIT_STATE (unitState s unit)
  (s.put F.ftCmd_DETAIL detail).put F.ftCmd_DONE_SEQ seq

/-- An accepted command finishes (R519); an automatic one has no command to answer. -/
def ftFinish (s : State) (x : Swap) (result detail : Nat) : State :=
  let s := { s with flt := { s.flt with swaps := s.flt.swaps.filter (fun y => y.unit != x.unit) } }
  match x.seq with
  | none => s
  | some _ =>
    let s := ((s.put F.ftCmd_RESULT result).put F.ftCmd_UNIT_STATE (unitState s x.unit)).put F.ftCmd_DETAIL detail
    signalIf s (s.isSet F.faultCtrl_FT_EVENT_EN) (s.get F.faultCtrl_EVENT)

def addSwap (s : State) (x : Swap) : State := { s with flt := { s.flt with swaps := s.flt.swaps ++ [x] } }

/-- A unit taken out of service without a spare (R21, Table 16.4). -/
def unitLost (s : State) : State := spareFlag s F.faultStatus_UNIT_LOST

/-! Slices. -/

/-- A slice's position begins to drain (R278). -/
def drainSliceOf (s : State) (n : Nat) : State := hlDrain (s.put F.cavSliceStatus_STATE 1 n) n

/-- Whether a slice has given up every host line (R278). -/
def hostEmpty (s : State) (n : Nat) : Bool :=
  s.hl.evict.all (fun e => e.slice != n) && s.hl.lines.all (fun l => (hostSet s l.ha).1 != n)

/-- Whether Cavern OFF of the slice's tile is under way. -/
def tileLeaving (s : State) (n : Nat) : Bool := s.leaving (domOfCavern (n / 64))

/-- The swap that drains a logical slice. -/
def swapOfSlice (s : State) (n : Nat) : Option Swap :=
  s.flt.swaps.find? (fun x => x.unit / 4096 == 3 && unitMark s x.unit == 2 && slicePos s n == some (x.unit % 4096))

/-- SLICE_DRAIN_DONE (R278, R281): no valid line is left and no host line waits to be given up; VACANT, out of ID_SLICE_MAP_n. With a
spare chosen, the spare begins to join; without one the position stays vacant. -/
def drainDone (s : State) (n : Nat) : State :=
  let s := drainSlice s n
  let s := showCounts ((s.put F.cavSliceStatus_STATE 3 n).put F.idSliceMap_VALID 0 n)
  match swapOfSlice s n with
  | none => s
  | some x =>
    if x.spare.isSome then s.put F.cavSliceStatus_STATE 2 n
    else
      let s := setMark (setSlicePos s n none) x.unit (afterSwap x.op)
      let s := post (showCounts s) x.unit none 0 0x0321 n
      unitLost s

def execSliceDrainDone (n : Nat) (s : State) : Out :=
  if n < 256 then
    if s.get F.cavSliceStatus_STATE n = 1 ∧ hostEmpty s n then ok (drainDone s n) else ok s
  else .fault .noSuchUnit

/-- A tile's pool after a spare slice is taken. -/
def sliceTaken (s : State) (t : Nat) : State :=
  let s := showSliceSpare s t
  if (freeSlices s t).isEmpty then spareEmpty s (domainUnit (domOfCavern t)) else s

/-- SLICE_JOIN (R280, R281, R31): empty, with masks and locks still in force; a spare takes the position, then the record. -/
def sliceJoin (s : State) (n : Nat) : State :=
  let s := loseSlice s n
  let up (s : State) : State := showCounts ((s.put F.cavSliceStatus_STATE 0 n).put F.idSliceMap_VALID 1 n)
  match swapOfSlice s n with
  | none => up s
  | some x =>
    match x.spare with
    | none => up s
    | some q =>
      let p := x.unit % 4096
      let s := setMark (setSlicePos s n (some q)) x.unit (afterSwap x.op)
      let s := up (s.put F.idSliceMap_PHYS_SLICE q n)
      let s := s.bumpSat F.wearSlice_SWAPS_OUT 1 p
      sliceTaken (post s x.unit none 2 0x0320 (extra2 (unitId 3 q) n)) (n / 64)

def execSliceJoin (n : Nat) (s : State) : Out :=
  if n < 256 then
    if s.get F.cavSliceStatus_STATE n = 2 ∧ s.domOn (domOfCavern (n / 64)) then ok (sliceJoin s n) else ok s
  else .fault .noSuchUnit

/-! The operations of Table 16.9: each answers RESULT, 1 ACCEPTED. -/

/-- An accepted command's swap entry, and record 0x1001 where it tests. -/
def accepted (s : State) (u op : Nat) (spare : Option Nat) (seq : Option Nat) : State :=
  let s := addSwap s ⟨u, op, spare, seq, 0⟩
  if op = 0 ∨ op = 3 then post s u none 0 0x1001 op else s

/-- Whether no block, no task and no ACCUMULATING routine is on a logical core. -/
def coreFree (s : State) (c : Nat) : Bool := !coreBusy s c

/-- A core leaves its position, for its spare or without one, which `out` permits; while an ACCUMULATING routine runs it drains (R206). -/
def takeCore (s : State) (p op : Nat) (out : Bool) (seq : Option Nat) : Nat × State :=
  let u := unitId 1 p
  match placedCore s p with
  | none => if op = 1 then (3, s) else (1, showCoreSpare (accepted (setMark s u (afterSwap op)) u op none seq) (p / 16))
  | some c =>
    match if op = 2 then none else (freeCores s (p / 16)).head? with
    | some q =>
      if accRuns s p then (1, accepted (setMark s u 2) u op (some q) seq)
      else (1, accepted (coreMove (setMark s u (afterSwap op)) c p q) u op (some q) seq)
    | none =>
      if out && coreFree s c then
        (1, unitLost (accepted (vacateCore (setMark (glFlush s c) u (afterSwap op)) c) u op none seq))
      else (if op = 2 then 3 else 4, s)

/-- A slice leaves its position: it drains first (R281, R278). -/
def takeSlice (s : State) (p op : Nat) (out : Bool) (seq : Option Nat) : Nat × State :=
  let u := unitId 3 p
  match placedSlice s p with
  | none => if op = 1 then (3, s) else (1, showSliceSpare (accepted (setMark s u (afterSwap op)) u op none seq) (p / 68))
  | some n =>
    if !sliceActive s n then (3, s)
    else
      match if op = 2 then none else (freeSlices s (p / 68)).head? with
      | some q => (1, drainSliceOf (accepted (setMark s u 2) u op (some q) seq) n)
      | none => if out then (1, drainSliceOf (accepted (setMark s u 2) u op none seq) n) else (4, s)

/-- A port runs without a lane (R396). -/
def dropLane (s : State) (p l : Nat) : State :=
  let set := s.get F.fabPortStatus_LANE_SET p
  let s := { s with bank := { s.bank with lanes := smapSet s.bank.lanes l (p * 8 + l) 15 } }
  let s := bankChange (s.put (F.fabLaneMap_WL l) 15 p)
  if s.get F.fabPortStatus_STATE p = 2 ∧ set.testBit l ∧ set = 2 ^ l then portDown s p else leaveSet s p l

/-- A wavelength leaves its lane (R524, R397). -/
def takeWave (s : State) (u op : Nat) (out : Bool) (seq : Option Nat) : Nat × State :=
  let p := u % 4096 / 16
  match laneOf s u with
  | none => if op = 1 then (3, s) else (1, accepted (showWlSpares (setMark (s.clrBit F.fabLaneMap_SPARE_WL (u % 16) p) u (afterSwap op)) p) u op none seq)
  | some l =>
    match if op = 2 then none else spareWl s p with
    | some w => (1, accepted (beginMove (leaveSet (markLane s p l) p l) p l) u op (some (waveUnit p w)) seq)
    | none => if out then (1, unitLost (accepted (dropLane (setMark s u (afterSwap op)) p l) u op none seq)) else (4, s)

/-- An emitter leaves its wavelength to a spare that retunes (R524, R382). -/
def takeEmitter (s : State) (n op : Nat) (seq : Option Nat) : Nat × State :=
  let u := emitterUnit n
  let p := portOfEmitter n
  if emState s n = eInUse then
    match spareEmitter s p with
    | some e => (1, accepted (startRetune s e n) u op (some (emitterUnit e)) seq)
    | none => (4, s)
  else if op = 1 then (3, s)
  else
    let s := if emState s n = eLit then s.clrBit F.fabLaneMap_SPARE_WL (s.get F.optEmitter_WAVELENGTH n) p else s
    (1, accepted (showWlSpares (setMark s u 3) p) u op none seq)

/-- A channel enters TEST (R525). -/
def takeChannel (s : State) (n : Nat) (seq : Option Nat) : Nat × State :=
  if chanState s n = 2 then (1, accepted (s.put F.dramChanStatus_STATE 5 n) (chanUnit n) 0 none seq) else (3, s)

/-- TEST, REPLACE and BYPASS of an idle group. -/
def takeUnit (s : State) (u op : Nat) (out : Bool) (seq : Option Nat) : Nat × State :=
  match u / 4096 with
  | 1 => takeCore s (u % 4096) op out seq
  | 3 => takeSlice s (u % 4096) op out seq
  | 5 => takeWave s u op out seq
  | 6 => takeEmitter s (u % 4096) op seq
  | _ => takeChannel s (u % 4096) seq

/-- Unit kinds of an operation (Table 16.9). -/
def ftKind (u op : Nat) : Bool :=
  let k := u / 4096
  unitExists u && (op == 4 || k == 1 || k == 3 || k == 5 || (k == 6 && op != 2) || (k == 4 && op == 0))

/-- Whether a unit's state permits the operation; MAPPED_OUT is asked of a channel as it is taken. -/
def ftState (s : State) (u op : Nat) : Bool :=
  let st := unitState s u
  if u / 4096 = 4 then true
  else match op with | 0 => st != 4 | 1 => st == 0 | 2 => decide (st < 2) | _ => st == 4 || st == 5

/-- RETURN: the unit is tested where it is. -/
def returnUnit (s : State) (u : Nat) (seq : Option Nat) : Nat × State := (1, accepted (setMark s u 3) u 3 none seq)

/-- The checks and the start of an operation (R519, R520): RESULT and the state after. -/
def ftRun (s : State) (u op : Nat) (force : Bool) (seq : Option Nat) : Nat × State :=
  if !ftKind u op then (2, s)
  else if op = 4 then (0, s)
  else if groupBusy s (groupOf u) then (5, s)
  else if !ftState s u op then (3, s)
  else if op = 3 then returnUnit s u seq
  else takeUnit s u op (force || op == 2) seq

/-- A write of FT_CMD (R519, R418). The answer follows in the same step. -/
def ftWrite (s : State) (u op : Nat) (force : Bool) (seq : Nat) : State :=
  let old := s.get F.ftCmd_REQ_SEQ
  let idle := s.get F.ftCmd_DONE_SEQ == old
  let s := (s.put F.ftCmd_UNIT u).put F.ftCmd_OP op
  let s := (s.put F.ftCmd_FORCE (if force then 1 else 0)).put F.ftCmd_REQ_SEQ seq
  if seq % 256 = old || !idle then s
  else if !s.ready then ftAnswer s 7 u 0 seq
  else
    let r := ftRun s (u % 65536) op force (some (seq % 256))
    ftAnswer r.2 r.1 (u % 65536) 0 seq

/-- A submission. -/
def ftCommand (s : State) (u op : Nat) (force : Bool) (seq : Nat) : Out := bar0 s (ftWrite (wideWrite s .ftCmd) u op force seq)

def execFtTest (unit : Nat) (force : Bool) (seq : Nat) (s : State) : Out := ftCommand s unit 0 force seq
def execFtReplace (unit seq : Nat) (s : State) : Out := ftCommand s unit 1 false seq
def execFtBypass (unit seq : Nat) (s : State) : Out := ftCommand s unit 2 false seq
def execFtReturn (unit seq : Nat) (s : State) : Out := ftCommand s unit 3 false seq
def execFtQuery (unit seq : Nat) (s : State) : Out := ftCommand s unit 4 false seq

/-! The end of a test (R523, R525, R526). -/

/-- A core that rejoins: the lowest vacant position of its gallery, or its spare. -/
def rejoinCore (s : State) (p : Nat) : Nat × State :=
  let s := setMark s (unitId 1 p) 0
  match (coresOf (p / 16)).find? (fun c => (corePos s c).isNone) with
  | some c =>
    (c, showCoreSpare (showCounts (showCorePos (loseCore (setCorePos s c (some p)) c) c)) (p / 16))
  | none => (0xFFFF, showCoreSpare (bankChange s) (p / 16))

def rejoinSlice (s : State) (p : Nat) : Nat × State :=
  let s := setMark s (unitId 3 p) 0
  match (slicesOf (p / 68)).find? (fun n => (slicePos s n).isNone) with
  | some n =>
    let s := loseSlice ((setSlicePos s n (some p)).put F.idSliceMap_PHYS_SLICE p n) n
    (n, showSliceSpare (showCounts ((s.put F.idSliceMap_VALID 1 n).put F.cavSliceStatus_STATE 0 n)) (p / 68))
  | none => (0xFFFF, showSliceSpare (bankChange s) (p / 68))

/-- A wavelength that rejoins: the lowest lane without one, or a spare. -/
def rejoinWave (s : State) (u : Nat) : Nat × State :=
  let p := u % 4096 / 16
  let s := setMark { s with bank := { s.bank with out := setErase s.bank.out u } } u 0
  match (List.range 8).find? (fun l => laneWl s p l == 15) with
  | some l =>
    let s := { s with bank := { s.bank with lanes := smapSet s.bank.lanes l (p * 8 + l) (u % 16) } }
    let s := showOptics (bankChange s) p
    (l, joinSet s p l)
  | none => (0xFFFF, showOptics (bankChange s) p)

/-- An emitter that rejoins is a spare of its port. -/
def rejoinEmitter (s : State) (n : Nat) : Nat × State :=
  let b := s.bank
  let out := setErase (setErase b.out (emitterUnit n)) (0x10000 + emitterUnit n)
  let s := setMark { s with bank := { b with out := out } } (emitterUnit n) 0
  (0xFFFF, showOptics (bankChange s) (portOfEmitter n))

def rejoin (s : State) (u : Nat) : State :=
  let r := match u / 4096 with
    | 1 => rejoinCore s (u % 4096)
    | 3 => rejoinSlice s (u % 4096)
    | 5 => rejoinWave s u
    | _ => rejoinEmitter s (u % 4096)
  post r.2 u none 0 0x1002 r.1

/-- A failed test counted in the wear of a core or slice; an emitter's shows in its register. -/
def showFail (s : State) (u : Nat) : State :=
  let i := u % 4096
  match u / 4096 with
  | 1 => s.bumpSat F.wearCore_BIST_FAILS 1 i
  | 3 => s.bumpSat F.wearSlice_BIST_FAILS 1 i
  | 6 => (s.put F.optEmitter_STATE eFailed i).put F.optEmitter_WAVELENGTH 15 i
  | _ => s

/-- An optical unit listed out of service in the bank. -/
def optOut (s : State) (u : Nat) : State :=
  if u / 4096 = 5 ∨ u / 4096 = 6 then { s with bank := { s.bank with out := setInsert s.bank.out u } } else s

/-- A unit that fails its test: FAILED, counted in its wear, record 0x1003. -/
def testFails (s : State) (u step : Nat) : State :=
  post (bankChange (optOut (showFail (setMark s u 4) u) u)) u none 0 0x1003 step

/-- A channel's test ends in MAPPED_OUT (R525): up to 4 soft row repairs where it passed, `step` of them; a move that waited goes
on. -/
def channelTested (s : State) (n : Nat) (pass : Bool) (step : Nat) : State :=
  let s := s.put F.dramChanStatus_STATE 2 n
  let s := { s with mem := { s.mem with failedTest := if pass then setErase s.mem.failedTest n else setInsert s.mem.failedTest n } }
  if pass then
    let soft := if step = 0 then s.bank.soft else smapSet s.bank.soft 0 n (min 4 (smapGet s.bank.soft 0 n + step))
    let s := if step = 0 then s else bankChange { s with bank := { s.bank with soft := soft } }
    nextMove (post s (chanUnit n) none 0 0x1002 0xFFFF)
  else nextMove (post s (chanUnit n) none 0 0x1003 step)

/-- Whether a unit under a command is out of its place. -/
def outOfPlace (s : State) (u : Nat) : Bool :=
  let i := u % 4096
  match u / 4096 with
  | 1 => (placedCore s i).isNone
  | 3 => (placedSlice s i).isNone
  | 5 => (laneOf s u).isNone
  | 6 => emState s i != eInUse
  | _ => chanState s i == 5

/-- FT_COMMAND_DONE of a command whose unit has left its place: REPLACE and BYPASS are done, a test passes or fails. A slice swapped
out by an automatic test for the second time does not rejoin (R523). -/
def ftDone (s : State) (x : Swap) (pass : Bool) (step : Nat) : State :=
  let u := x.unit
  if u / 4096 = 4 then ftFinish (channelTested s (u % 4096) pass step) x (if pass then 0 else 6) (if pass then 0 else step)
  else if x.op = 1 ∨ x.op = 2 then ftFinish (setMark s u (afterSwap x.op)) x 0 0
  else if pass && u / 4096 == 3 && x.seq.isNone && decide (2 ≤ s.get F.wearSlice_SWAPS_OUT (u % 4096)) then ftFinish (setMark s u 4) x 0 0
  else if pass then ftFinish (rejoin s u) x 0 0
  else ftFinish (testFails s u step) x 6 step

/-- A slice whose tag copy failed is replaced under R281 when a spare is free, at once, or after the swap or test of its tile (R514,
R529). -/
def replaceSlice (s : State) (u : Nat) : State :=
  let t := u % 4096 / 68
  if unitState s u != 0 || (freeSlices s t).isEmpty then s
  else if groupBusy s (groupOf u) then { s with flt := { s.flt with waiting := s.flt.waiting ++ [u] } }
  else (takeUnit s u 1 false none).2

/-- The replacement that waits for a group, once the group is idle (R514). -/
def nextSwap (s : State) (g : Nat × Nat) : State :=
  if groupBusy s g then s
  else
    match s.flt.waiting.find? (fun u => groupOf u == g) with
    | none => s
    | some u => replaceSlice { s with flt := { s.flt with waiting := s.flt.waiting.filter (fun x => x != u) } } u

def execFtCommandDone (unit : Nat) (pass : Bool) (step : Nat) (s : State) : Out :=
  match s.flt.swaps.find? (fun x => x.unit == unit) with
  | none => ok s
  | some x => if outOfPlace s unit then ok (nextSwap (ftDone s x pass step) (groupOf unit)) else ok s

/-! Automatic tests (R529). -/

/-- Record 0x1042, and a test where the group has a free spare and is idle. -/
def autoTest (s : State) (u why : Nat) : State :=
  if s.isSet F.faultCtrl_AUTO_TEST_EN then
    let s := post s u none 0 0x1042 why
    let spare := if u / 4096 = 1 then !(freeCores s (u % 4096 / 16)).isEmpty else !(freeSlices s (u % 4096 / 68)).isEmpty
    if spare && !groupBusy s (groupOf u) && unitState s u == 0 then (takeUnit s u 0 false none).2 else s
  else s

end Sys2Proof.Machine
end

