-- ==== Sys2Proof/Machine/UnitFault.lean ====
section
/-! DEFINITION. Errors found in slices, Grottoes and read-only caches, the hot-spot window (8: R253, R254, R272 to R276), failures of
engines, ferries and package agents, of die-to-die lanes and regulator phases (10: R318, R332; 16: R515 to R518). -/

namespace Sys2Proof.Machine

/-! Slices. -/

/-- The physical slice of a logical slice, as a unit. -/
def sliceUnit (s : State) (n : Nat) : Nat := unitId 3 (s.get F.idSliceMap_PHYS_SLICE n)

/-- Whether a sector's home is logical slice `n`, in service. -/
def atSlice (s : State) (n pa : Nat) : Bool := s.isSet F.idSliceMap_VALID n && (homeOf s pa).1 == n

/-- A corrected error of a slice: its counts, record 0x0311, and a test beyond the image's limit in an hour (R528, R529). The hour
starts again with the test (log 34). -/
def sliceCorrected (s : State) (n pa : Nat) : State :=
  if atSlice s n pa then
    let u := sliceUnit s n
    let s := bankChange ((s.bumpSat F.cavSliceStatus_CE_COUNT 1 n).bumpSat F.wearSlice_CE_TOTAL 1 (u % 4096))
    let s := post s u none 0 0x0311 (pa / 64 * 64)
    let ce := hourAdd s s.flt.ce u
    if cfgVal s (·.ceLimit) < hourCount ce u then autoTest { s with flt := { s.flt with ce := smapErase ce u } } u 2
    else { s with flt := { s.flt with ce := ce } }
  else s

/-- SLICE_SCRUB (R272): one set of a slice is read and corrected; `errs` are the sectors in which it found a single-bit error. -/
def execSliceScrub (n set : Nat) (errs : List Nat) (s : State) : Out :=
  if n < 256 ∧ set < 15360 then ok (errs.foldl (fun s pa => sliceCorrected s n pa) s) else .fault .noSuchUnit

/-- UE_COUNT and UE_TOTAL. -/
def sliceUncounted (s : State) (n u : Nat) : State :=
  bankChange ((s.bumpSat F.cavSliceStatus_UE_COUNT 1 n).bumpSat F.wearSlice_UE_TOTAL 1 (u % 4096))

/-- A line's sector changed, where the slice holds it. -/
def setSector (s : State) (l : CavLine) (i : Nat) (c : CavSector) : State := cavUpdate s { l with secs := setNth l.secs i c }

/-- An uncorrectable error in a sector's data (R273): a clean sector is fetched again, a dirty one poisoned. -/
def sliceDataError (s : State) (n pa : Nat) : State :=
  match cavFind s pa with
  | none => s
  | some l =>
    let i := pa / 64 % 4
    match l.secs[i]? with
    | none => s
    | some c =>
      if !c.valid then s
      else
        let u := sliceUnit s n
        let s := sliceUncounted s n u
        if c.dirty then post (setSector s l i { c with poison := true }) u none 1 0x0313 (pa / 64 * 64)
        else
          let d := chanSector s l.key pa
          post (setSector (charge s l.reg pa) l i ⟨true, false, d.1, d.2⟩) u none 0 0x0312 (pa / 64 * 64)

/-- An uncorrectable error in a host line (R273, R274; log 48): one in M is poisoned, and so goes back to the host; another is dropped
and requested again. -/
def hostDataError (s : State) (n pa : Nat) : State :=
  match hlFind s (pa / 64 * 64) with
  | none => s
  | some l =>
    let u := sliceUnit s n
    let s := sliceUncounted s n u
    if l.st = .m then
      post (setHostLines s (updWhere s.hl.lines (fun x => x.ha == l.ha) (fun x => { x with poison := true }))) u none 1 0x0313 l.ha
    else post (hlRequest (setHostLines s (s.hl.lines.filter (fun x => x.ha != l.ha))) l.ha false) u none 0 0x0312 l.ha

/-- SLICE_ECC_ERROR (R272, R273, R529): 0 a corrected error, 1 an uncorrectable one in a sector, 2 one tag copy, 3 both; 4 and 5 as 0
and 1 in the host line at host address `pa`. -/
def execSliceEccError (n kind pa : Nat) (s : State) : Out :=
  if n < 256 ∧ kind < 6 then
    if !atSlice s n pa then ok s
    else
      let u := sliceUnit s n
      match kind with
      | 0 => ok (sliceCorrected s n pa)
      | 1 => ok (sliceDataError s n pa)
      | 2 => ok (replaceSlice (post s u none 0 0x0314 (pa / 64 * 64)) u)
      | 3 => ok (fatal s u 0x0315 (pa / 64 * 64))
      | 4 => ok (if (hlFind s (pa / 64 * 64)).isSome then sliceCorrected s n pa else s)
      | _ => ok (hostDataError s n pa)
  else .fault .noSuchUnit

/-- HOTSPOT_WINDOW (R276): the requests each slice accepted in a window of `cycles`; of slices that meet both conditions the lowest
is recorded (log 21). -/
def execHotspotWindow (cycles : Nat) (counts : List (Nat × Nat)) (s : State) : Out :=
  let act := (List.range 256).filter (sliceActive s)
  let count (n : Nat) : Nat := ((counts.find? (fun p => p.1 == n)).map (fun p => p.2)).getD 0
  let total := (act.map count).foldl (· + ·) 0
  match act.find? (fun n => decide (3 * cycles ≤ 4 * count n) && decide (4 * total ≤ count n * act.length)) with
  | none => ok s
  | some n =>
    let was := s.isSet F.cavHotspot_NOTICE
    let s := ((s.put F.cavHotspot_NOTICE 1).put F.cavHotspot_SLICE n).bump F.cavHotspot_WINDOWS
    ok (signalIf s (s.isSet F.cavHotspot_EVENT_EN && !was) (s.get F.cavHotspot_EVENT))

/-! Grottoes and read-only caches. -/

/-- The context bound to a core. -/
def boundCtx (s : State) (core : Nat) : Option Nat :=
  if s.isSet F.coreBinding_BOUND core then some (s.get F.coreBinding_CONTEXT core) else none

/-- The hours of parity records. -/
def setParity (s : State) (h : SMap (List Nat)) : State := { s with flt := { s.flt with parity := h } }

/-- The wear of a parity record, and a test of the core at the fourth within an hour (R528, R529; log 34). -/
def parityNoted (s : State) (p : Nat) : State :=
  let u := unitId 1 p
  let s := bankChange (s.bumpSat F.wearCore_CHECKS 1 p)
  let h := hourAdd s s.flt.parity u
  if 4 ≤ hourCount h u then autoTest (setParity s (smapErase h u)) u 1
  else setParity s h

/-- A corrected parity record. -/
def parityCorrected (s : State) (core p code : Nat) : State :=
  parityNoted (post s (unitId 1 p) (boundCtx s core) 0 code ((boundCtx s core).getD 0xFFF)) p

/-- A parity error that ends the bound context. -/
def parityFatal (s : State) (core p code : Nat) : State :=
  let s := match boundCtx s core with
    | some c => contained s c (unitId 1 p) code c
    | none => post s (unitId 1 p) none 1 code 0xFFF
  parityNoted s p

/-- A parity error in the 4-B group at `a` of a cache line (R253). -/
def cacheParity (s : State) (core p : Nat) (l : GrottoLine) (a : Nat) : State :=
  let group (k : Nat) : Bool := k / 4 == a % 128 / 4
  let put (f : GrottoLine → GrottoLine) : State :=
    setGl s core ((updWhere s.core.gl (fun x => x == l) f).filter (fun x => x.core != core || !x.bytes.isEmpty))
  if l.dirty.any group then
    parityFatal (put (fun x => { x with bytes := x.bytes.filter (fun kv => !x.dirty.contains kv.1), dirty := [] })) core p 0x0302
  else parityCorrected (put (fun x => { x with bytes := x.bytes.filter (fun kv => !group kv.1) })) core p 0x0301

/-- GROTTO_PARITY_ERROR (R253) at a logical core: of the cache group of physical address `a`, or of the scratchpad. -/
def execGrottoParityError (core a : Nat) (isCache : Bool) (s : State) : Out :=
  if core < 240 then
    match s.physCore core with
    | none => ok s
    | some p =>
      if isCache then
        match glFind s core a false, glFind s core a true with
        | some l, _ => ok (cacheParity s core p l a)
        | none, some l => ok (cacheParity s core p l a)
        | none, none => ok s
      else ok (if a < sramSize s core then parityFatal s core p 0x0303 else s)
  else .fault .noSuchUnit

/-- The bound context's segment that holds a read-only line: the attributes of its requests (R254). -/
def roSegment (s : State) (c : Nat) (l : RoLine) : Option Place :=
  (List.range 16).findSome? (fun i =>
    match smapFind s.mem.seg (c * 16 + i) with
    | some g =>
      if g.present && g.target == (if l.host then 1 else 0) && decide (g.pbase ≤ l.addr) && decide (l.addr + 128 ≤ g.pbase + g.len)
      then some ⟨g, i, l.addr⟩ else none
    | none => none)

/-- A read-only line fetched again: from the slice at once, from the host by an uncached read of its own (R254; log 48). -/
def roRefetch (s : State) (core : Nat) (l : RoLine) : State :=
  match boundCtx s core with
  | none => s
  | some c =>
    match roSegment s c l with
    | none => s
    | some p =>
      if l.host then
        let key := lineKey l.addr 1 l.kind
        if (lineReq s core key).isSome || !(s.upstream && canAsk s core 128 key) then s
        else requestLine s c core 128 ⟨key, (p.rq s).cls, (p.rq s).reg, (p.rq s).key, 0⟩
      else
        let d := devRead 4 s (p.rq s) l.addr 128
        roFill d.2 core l.kind false l.addr c d.1.2 d.1.1

/-- ROCACHE_PARITY_ERROR (R254): the line becomes invalid, is fetched again, and the record is posted. -/
def execRocacheParityError (core kind a : Nat) (s : State) : Out :=
  if core < 240 ∧ kind < 3 then
    match s.physCore core, (roFind s core kind false a).orElse (fun _ => roFind s core kind true a) with
    | some p, some l =>
      ok (parityCorrected (roRefetch { s with core := { s.core with ro := s.core.ro.filter (fun x => x != l) } } core l) core p 0x0304)
    | _, _ => ok s
  else .fault .noSuchUnit

/-! Engines. -/

/-- A job that its failed engine ran: a commit in progress leaves its group undefined (R332). -/
def failRun (s : State) (j : EngJob) : State :=
  match j.job with
  | .update p =>
    if p.commit && j.cursor == 1 then
      contained (commitLost s j p) j.ctx j.unit 0x0A03 ((decodeGroup (keptBytes j 0)).lsIndex + p.group % 2 ^ 48 * 2 ^ 16)
    else s
  | _ => s

/-- The queue entry of a job that its context's end had let run on completes with that end. -/
def settleJob (s : State) (j : EngJob) : State :=
  match j.origin with
  | .queue q idx => if s.ctxState j.ctx = 3 ∨ s.ctxState j.ctx = 4 then qFinish s q idx 4 0 else s
  | .block _ _ => s

/-- An engine fails (R318, R332, R515): it leaves service, its running job ends with its context, its queued jobs halt. -/
def engineFail (s : State) (u : Nat) : State :=
  if !unitUp s u then s
  else
    let js := jobsOf s u
    let runs (j : EngJob) : Bool := j.started && j.parked.isNone
    let s := unitLost (engineOut (setJobs s (s.eng.jobs.filter (fun j => j.unit != u))) u)
    let s := match js.find? runs with
      | some j => settleJob (contained (failRun s j) j.ctx u 0x1031 j.ctx) j
      | none => post s u none 1 0x1031 0xFFF
    let s := (js.filter (fun j => !runs j)).foldl (fun s j => settleJob (haltFrom s j.ctx j.origin 0x64 u) j) s
    engShow s u

/-- TENDER_FAIL. -/
def execTenderFail (u : Nat) (s : State) : Out := if u < 32 then ok (engineFail s (unitId 8 u)) else .fault .noSuchUnit

/-- UPDATE_ENGINE_FAIL. -/
def execUpdateEngineFail (u : Nat) (s : State) : Out := if u < 8 then ok (engineFail s (unitId 9 u)) else .fault .noSuchUnit

/-- DISPATCH_ENGINE_FAIL. -/
def execDispatchEngineFail (u : Nat) (s : State) : Out := if u < 8 then ok (engineFail s (unitId 0xA u)) else .fault .noSuchUnit

/-- FERRY_FAIL (R515): its unsettled sailings, those departed and not settled (Table 11.9), settle with 0x30; the entry that waits is
aborted by the end of its owner, with 0x22 (R372). -/
def ferryFail (s : State) (f : Nat) : State :=
  let u := unitId 7 f
  if !unitUp s u then s
  else
    let s := unitLost (engineOut ((liveSailings s f).foldl (fun s x => abortSailing s x 0x30) s) u)
    let c := s.get F.ferryCtrl_OWNER f
    let s := if s.isSet F.ferryCtrl_VALID f then contained s c u 0x1030 c else post s u none 1 0x1030 0xFFF
    ferryShow (s.put F.ferryCtrl_RUN 0 f) f

def execFerryFail (f : Nat) (s : State) : Out := if f < 32 then ok (ferryFail s f) else .fault .noSuchUnit

/-- PACKAGE_AGENT_FAIL (R516): Harbourmaster, Lockkeeper, key engine, host interface. -/
def execPackageAgentFail (a : Nat) (s : State) : Out :=
  if a < 4 then
    let s := if a = 2 then engineOut s (unitId 0xD 2) else s
    ok (fatal s (unitId 0xD a) 0x1040 0)
  else .fault .noSuchUnit

/-! Die-to-die lanes and regulator phases. -/

/-- D2D_LANE_FAIL (R517): a repair lane takes over, or the module leaves service. -/
def execD2dLaneFail (edge module lane : Nat) (s : State) : Out :=
  if edge < 4 ∧ module < 40 then
    let k := edge * 64 + module
    let used := smapGet s.flt.lanesUsed 0 k
    if s.flt.d2dOut.contains k then ok s
    else if used < Config.repairLanes then
      ok (post { s with flt := { s.flt with lanesUsed := smapSet s.flt.lanesUsed 0 k (used + 1) } } (unitId 0xB k) none 2 0x1010 lane)
    else
      let s := unitLost { s with flt := { s.flt with d2dOut := setInsert s.flt.d2dOut k } }
      ok (post s (unitId 0xB k) none 0 0x1011 (40 - (s.flt.d2dOut.filter (fun x => x / 64 == edge)).length))
  else .fault .noSuchUnit

/-- Phases of a domain's regulator, which the POWER section gives (R518) and no chapter values (log 12): 1 to 14. -/
def phasesOf (dom : Nat) : Nat := 1 + (Config.word 10 dom).toNat % 14

/-- REGULATOR_PHASE_FAULT (R518): the first fault of a phase brings in the spare, phase n; a later one leaves a phase fewer. -/
def phaseFault (s : State) (dom phase : Nat) : State :=
  let n := phasesOf dom
  let gone := smapGet s.pwr.lost 0 dom
  let spare := smapGet s.bank.phases 0 dom
  let u := unitId 0xC (dom * 16 + phase)
  if n < phase || spare == phase + 1 || gone.testBit phase then s
  else if spare = 0 ∧ phase < n ∧ !gone.testBit n then
    let s := bankChange { s with bank := { s.bank with phases := smapSet s.bank.phases 0 dom (phase + 1) } }
    post s u none 2 0x1020 (unitId 0xC (dom * 16 + n))
  else
    let gone := gone ||| 2 ^ phase
    let left := n + 1 - (if spare = 0 then 0 else 1) - ((List.range 15).filter (fun p => gone.testBit p)).length
    unitLost (post { s with pwr := { s.pwr with lost := smapSet s.pwr.lost 0 dom gone } } u none 0 0x1021 left)

def execRegulatorPhaseFault (dom phase : Nat) (s : State) : Out :=
  if dom < 40 ∧ phase < 15 then ok (phaseFault s dom phase) else .fault .noSuchUnit

end Sys2Proof.Machine
end

