-- ==== Sys2Proof/Machine/Registers.lean ====
section
/-! DEFINITION. Host accesses to BAR0: sizes and alignment, the halves of 64-bit registers, what a write to each register sets off
(0: R9, R13 to R17; 1: R29, R30, R32; 3: R107; 5: R144; 9: R302; 13: R411, R454). -/

namespace Sys2Proof.Machine

/-! Writes that set something off. -/

/-- HM_CTX_GRANT_n (R144). -/
def grantWrite (s : State) (c v : Nat) : State := if 240 < bitsOf v 7 0 + bitsOf v 15 8 then s else storeWord s .hmCtxGrant c 0 0 v

/-- DRAM_REG_CFG_r (R302): every bucket filled at the old rate up to now, then clipped to the new ceiling. -/
def regCfgWrite (s : State) (r v : Nat) : State :=
  let lv := tabulate 256 (bucketNow s r)
  let s := storeWord s .dramRegCfg r 0 0 v
  let top := bucketCeil s r
  let b := lv.zipIdx.foldl (fun m x => smapInsert m (r * 256 + x.2) ⟨min top x.1.level, s.ns, x.1.queue⟩) s.mem.bucket
  { s with mem := { s.mem with bucket := b } }

/-- TIDE_CTRL: its fields, then LOCAL. -/
def tideCtrlWrite (s : State) (v : Nat) : State :=
  let on := s.get F.tideCtrl_LOCAL
  tideLocal (storeWord s .tideCtrl 0 0 0 (withBits v 0 0 on)) (v.testBit 0)

/-- PWR_PSTATE: OVERRUN is cleared by 1 (Table 15.9). -/
def pstateReg (s : State) (v : Nat) : State :=
  let s := if v.testBit 52 then s.put F.pwrPstate_OVERRUN 0 else s
  pstateWrite s (bitsOf v 1 0) (bitsOf v 39 32) (v.testBit 2) (v.testBit 3) (bitsOf v 31 16)

/-- FT_CMD: a reserved OP leaves the field (R14). -/
def ftReg (s : State) (v : Nat) : State :=
  let op := if bitsOf v 18 16 ≤ 4 then bitsOf v 18 16 else s.get F.ftCmd_OP
  ftWrite s (bitsOf v 15 0) op (v.testBit 19) (bitsOf v 31 24)

/-- A write of a whole word of a register: what it sets off, or its fields stored. -/
def regStore (s : State) (a : RegAt) (v : Nat) : State :=
  match a.reg, a.w with
  | .ferryCtrl, _ => unitWrite s .ferryCtrl a.i v
  | .ferryAbort, _ => unitWrite s .ferryAbort a.i v
  | .fabPortCtrl, _ => unitWrite s .fabPortCtrl a.i v
  | .dramChanCtrl, _ => unitWrite s .dramChanCtrl a.i v
  | .hmCtxGrant, _ => grantWrite s a.i v
  | .bolValue, _ => bolWrite s a.i v
  | .bolCtrl, _ => bolNotifyStore s a.i true v
  | .bolNotify, _ => bolNotifyStore s a.i false v
  | .dram1500Ctrl, _ => wrapWrite s a.i v
  | .dramRegCfg, _ => regCfgWrite s a.i v
  | .segAttr, _ => segApply s a.i a.j v
  | .keySlot, _ => keyWrite s a.i v
  | .tideCtrl, _ => tideCtrlWrite s v
  | .berth, 1 => berthWrite s a.i v
  | .fabRegion, 3 => regionApply s a.i v
  | .hostCmd, _ => hostCmdWrite s (bitsOf v 7 0) (bitsOf v 27 8) (bitsOf v 39 32)
  | .qCqHead, _ => qCqHead s a.i (bitsOf v 15 0)
  | .qDoorbell, _ => qDoorbell s a.i (bitsOf v 15 0)
  | .sumpRing, _ => sumpRing s v
  | .sumpHead, _ => sumpHead s (bitsOf v 31 0)
  | .pwrDomCtrl, _ => domWrite s a.i (bitsOf v 1 0) (bitsOf v 39 32) (v.testBit 2) (v.testBit 3) (bitsOf v 31 16)
  | .pwrPstate, _ => pstateReg s v
  | .ftCmd, _ => ftReg s v
  | _, _ => storeWord s a.reg a.i a.j a.w v

/-! The MSI-X table and pending-bit array (R411). -/

/-- Whether an offset lies in the table, and in the array. -/
def inMsix (o : Nat) : Bool := decide (0x2F00000 ≤ o) && decide (o < 0x2F08000)
def inPba (o : Nat) : Bool := decide (0x2F08000 ≤ o) && decide (o < 0x2F08100)

/-- A DWORD of the table. -/
def msixRead (s : State) (o : Nat) : Nat :=
  let k := o - 0x2F00000
  let w := msixWord s (k / 16) (k / 8 % 2)
  if k % 8 = 4 then w / 2 ^ 32 else w % 2 ^ 32

/-- A DWORD of the table written: the message address is a multiple of 4 and only the mask of the vector control is kept (PRESUMED
PCIe, log 6). Pending messages that are unmasked are sent. -/
def msixStore (s : State) (o v : Nat) : State :=
  let k := o - 0x2F00000
  let i := k / 8
  let d : W64 := if i % 2 = 1 then 0x100000000 else 0
  let old := (smapGet s.hl.msix d i).toNat
  let new := match k % 16 with
    | 0 => withBits old 31 0 (v / 4 * 4)
    | 4 => withBits old 63 32 v
    | 8 => withBits old 31 0 v
    | _ => withBits old 63 32 (v % 2)
  msixFlush { s with hl := { s.hl with msix := smapSet s.hl.msix d i (BitVec.ofNat 64 new) } }

/-- A DWORD of the pending bits. -/
def pbaRead (s : State) (o : Nat) : Nat :=
  let k := (o - 0x2F08000) * 8
  ((List.range 32).map (fun b => if s.hl.pba.contains (k + b) then 2 ^ b else 0)).foldl (· + ·) 0

/-! Writes. -/

/-- An aligned 32-bit write: a DWORD of MSI-X, a 32-bit register, or half of a 64-bit one (R16). -/
def write32 (s : State) (o v : Nat) : State :=
  if inMsix o then msixStore s o v
  else
    match regAt o with
    | none => s
    | some a =>
      if a.reg.desc.is32 then regStore s a v
      else if a.upper then
        let k := o - 4
        let lo := match smapFind s.acc.held k with
          | some x => x.toNat
          | none => s.word a.reg a.i a.j a.w % 2 ^ 32
        regStore { s with acc := { s.acc with held := smapErase s.acc.held k } } a (lo + v * 2 ^ 32)
      else { s with acc := { s.acc with held := smapInsert s.acc.held o (BitVec.ofNat 32 v) } }

/-- Whether an offset is a word of a 64-bit register. -/
def wideAt (o : Nat) : Option RegAt := (regAt o).bind (fun a => if a.reg.desc.is32 then none else some a)

/-- An aligned 64-bit write: a 64-bit register's word, or two DWORDs in ascending order. -/
def write64 (s : State) (o v : Nat) : State :=
  match wideAt o with
  | some a => regStore { s with acc := { s.acc with held := smapErase s.acc.held o } } a v
  | none => write32 (write32 s o (v % 2 ^ 32)) (o + 4) (v / 2 ^ 32)

/-- REG_WRITE (R15, R454): a write of any other size or alignment is discarded. -/
def execRegWrite (o size v : Nat) (s : State) : Out :=
  if s.hl.d3 then ok s
  else if size = 4 ∧ o % 4 = 0 then ok (write32 s o (v % 2 ^ 32))
  else if size = 8 ∧ o % 8 = 0 then ok (write64 s o (v % 2 ^ 64))
  else ok s

/-! Reads. -/

/-- A record of the fault history, word `w` (Table 14.15). -/
def histWord (s : State) (n w : Nat) : Nat :=
  match s.bank.hist[n]? with
  | none => 0
  | some r => leNat ((r.bytes.drop (8 * w)).take 8)

/-- Whether a register reads all ones until the spare-assignment map is loaded (R32, R107). -/
def RegId.mapped (r : RegId) : Bool :=
  match r with
  | .idDevice => true | .idCoreMap => true | .idSliceMap => true | .coreArrayDpuMap => true | .coreArraySteps => true
  | .coreArrayFeedBubbles => true | .coreArrayRampCycles => true | .coreArrayPadCycles => true
  | _ => false

/-- What a read of a register's word returns. -/
def readWord (s : State) (a : RegAt) : Nat :=
  if a.reg.mapped && !s.boot.bistDone then 2 ^ 64 - 1
  else
    match a.reg with
    | .rbFaultHist => histWord s a.i a.w
    | .optEmitter => withBits (s.word .optEmitter a.i a.j a.w) 63 32 (smapGet s.bank.lit 0 a.i)
    | r => s.word r a.i a.j a.w

/-- An aligned 32-bit read by `who`: the upper half of a 64-bit register is the one its lower half's read latched (R17). -/
def read32 (s : State) (who o : Nat) : Nat × State :=
  if inMsix o then (msixRead s o, s)
  else if inPba o then (pbaRead s o, s)
  else
    match regAt o with
    | none => (0, s)
    | some a =>
      let w := readWord s a
      if a.reg.desc.is32 then (w % 2 ^ 32, s)
      else if a.upper then
        match s.acc.latch.find? (fun l => l.1 == (who, o - 4)) with
        | some l => (l.2.toNat, { s with acc := { s.acc with latch := s.acc.latch.filter (fun x => x.1 != (who, o - 4)) } })
        | none => (w / 2 ^ 32, s)
      else
        let rest := s.acc.latch.filter (fun x => x.1 != (who, o))
        (w % 2 ^ 32, { s with acc := { s.acc with latch := ((who, o), BitVec.ofNat 32 (w / 2 ^ 32)) :: rest } })

/-- An aligned 64-bit read. -/
def read64 (s : State) (who o : Nat) : Nat × State :=
  match wideAt o with
  | some a => (readWord s a, s)
  | none =>
    let lo := read32 s who o
    let hi := read32 lo.2 who (o + 4)
    (lo.1 + hi.1 * 2 ^ 32, hi.2)

/-- A read's answer to its requester. -/
def answerRead (r : Nat × State) (who : Nat) : State := { r.2 with out := { r.2.out with reads := r.2.out.reads ++ [(who, r.1)] } }

/-- REG_READ_LOWER_LATCH: a host read (R15, R17, R29, R454); any other size or alignment reads all ones. -/
def execRegReadLowerLatch (who o size : Nat) (s : State) : Out :=
  if s.hl.d3 then ok s
  else if size = 4 ∧ o % 4 = 0 then ok (answerRead (read32 s who o) who)
  else if size = 8 ∧ o % 8 = 0 then ok (answerRead (read64 s who o) who)
  else ok (answerRead (2 ^ (32 * cdiv size 4) - 1, s) who)

end Sys2Proof.Machine
end

