-- ==== Sys2Proof/Machine/Thread.lean ====
section
/-! DEFINITION. Vector arithmetic, conversions, census counts, dropout masks and control (5, 6, 10). -/

namespace Sys2Proof.Machine

/-- The code of a compare's outcome. -/
def truth (b : Bool) : Nat := (Config.truth b).toNat

/-- A shift by its count; a count of 32 or more gives a value the manual does not state (log 12). -/
def shift (s : State) (lane : Nat) (f : Nat → Nat) (n : Nat) : Nat :=
  if n < 32 then f n else (Config.word 3 (s.free * 32 + lane)).toNat

/-- One lane of a vector instruction (R46; INT32 wraps at 32 bits). -/
def vecLane (s : State) (t : Th) (op : VecOp) (lane : Nat) : Nat :=
  let a := t.reg s op.a.reg lane
  let b := t.reg s op.b.reg lane
  let c := t.reg s op.c.reg lane
  match op.fn with
  | .fadd => f32Add a b
  | .fmul => f32Mul a b
  | .ffma => f32Fma a b c
  | .flt => truth (f32Lt a b)
  | .feq => truth (f32Eq a b)
  | .iadd => a + b
  | .isub => a + 2 ^ 32 - b
  | .imul => a * b
  | .iand => a &&& b
  | .ior => a ||| b
  | .ixor => a ^^^ b
  | .ishl => shift s lane (fun n => a <<< n) b
  | .ishr => shift s lane (fun n => a >>> n) b
  | .isar => shift s lane (fun n => ofSigned 32 (toSigned 32 a / (2 ^ n : Nat))) b
  | .ieq => truth (a == b)
  | .ilt => truth (decide (toSigned 32 a < toSigned 32 b))
  | .iltu => truth (decide (a < b))
  | .select => if c = truth true then a else b
  | .exchange =>
    if t.f.mask.testBit (b % 32) then t.reg s op.a.reg (b % 32) else (Config.word 4 (s.free * 32 + lane)).toNat

/-- The sources a vector instruction reads. -/
def vecSrcs (op : VecOp) : List Src :=
  match op.fn with
  | .ffma => [op.a, op.b, op.c]
  | .select => [op.a, op.b, op.c]
  | _ => [op.a, op.b]

/-- What an instruction without memory accesses uses: its sources and its destination. -/
def plainUses (srcs : List Src) (dst : List Nat) : Uses := ⟨srcs.map (fun x => x.reg) ++ dst, 0⟩

/-- VECTOR_OP (R46, R166, R172, R173). -/
def execVectorOp (at_ : At) (op : VecOp) (s : State) : Out :=
  instrNext s at_ (plainUses (vecSrcs op) [op.dst]) (fun t s =>
    let v : Nat → W32 := fun l => BitVec.ofNat 32 (vecLane s t op l)
    let s := touchAll { s with free := s.free + 1 } t (vecSrcs op)
    regWrite s t.core t.slot op.dst t.f.mask v)

/-- The number a function instruction's free value is drawn under. -/
def xfnCode : XFn → Nat
  | .recip => 0 | .sqrt => 1 | .exp => 2 | .log => 3

/-- An FP32 result: a NaN is the canonical one (R36). -/
def canon32 (v : Nat) : Nat := if isNan32 v then 0x7FC00000 else v

/-- A function instruction: a NaN operand gives the canonical NaN, and so does a result that is a NaN (R36); no rule gives other
values (log 12). -/
def funcLane (f : XFn) (a : Nat) : Nat :=
  if isNan32 a then 0x7FC00000 else canon32 (Config.xFunction (xfnCode f) (BitVec.ofNat 32 a)).toNat

/-- The rounding a conversion names, with its random bits (R54). -/
def cvtRound (t : Th) (s : State) (op : CvtOp) (lane : Nat) : CvtRound :=
  match op.mode with
  | .rne => .rne
  | .rtz => .rtz
  | .sr => .sr (t.reg s op.rnd.reg lane % 4096)

/-- Format codes in INFO of reason 0x26; the manual gives them no numbers (log 12). -/
def cvtInfo (op : CvtOp) : Nat := (Config.word 5 (op.srcFmt.width * 64 + op.dstFmt.width)).toNat

/-- CONVERT_OP: a function or a conversion of the X pipeline (R54, R59, R60, R548, R549). -/
def execConvertOp (at_ : At) (op : XOp) (s : State) : Out :=
  match op with
  | .fn f dst src =>
    instrNext s at_ (plainUses [src] [dst]) (fun t s =>
      let v : Nat → W32 := fun l => BitVec.ofNat 32 (funcLane f (t.reg s src.reg l))
      regWrite (regTouch s t.core t.slot src) t.core t.slot dst t.f.mask v)
  | .cvt op =>
    let srcs := match op.mode with | .sr => [op.src, op.rnd] | _ => [op.src]
    instr s at_ (plainUses srcs [op.dst]) (fun t s =>
      let r (l : Nat) : Option Nat :=
        convertThread op.srcFmt op.dstFmt (cvtRound t s op l) (t.reg s op.src.reg l % 2 ^ op.srcFmt.width)
      if t.lanes.all (fun l => (r l).isSome) then
        let v : Nat → W32 := fun l => BitVec.ofNat 32 ((r l).getD 0)
        goTo (regWrite (touchAll s t srcs) t.core t.slot op.dst t.f.mask v) t at_.next
      else haltTh s t 0x26 (cvtInfo op))

/-- CENSUS_COUNT (R64, R61). -/
def execCensusCount (at_ : At) (census : Nat) (fmt : OpFmt) (src : Src) (s : State) : Out :=
  if census < 65536 then
    instr s at_ (plainUses [src] []) (fun t s =>
      match censusCheck s t.c census with
      | (some (r, i), s) => haltTh s t r i
      | (none, s) =>
        let codes := t.lanes.map (fun l => t.reg s src.reg l % 2 ^ fmt.elem.width)
        let n := fmt.elem.censusOf codes
        goTo (censusNow (regTouch s t.core t.slot src) census n.1 n.2.1 n.2.2) t at_.next)
  else .fault .noSuchUnit

/-- The context seed (R50, R333). -/
def ctxSeed (s : State) (c : Nat) : W64 := BitVec.ofNat 64 (s.get F.ctxSeed_SEED c)

/-- MASKKEY (R333, R334): mask_key of the context seed, the context's ID, and the step and layer operands. -/
def execMaskkey (at_ : At) (dst : Nat) (step layer : Src) (s : State) : Out :=
  instrNext s at_ (plainUses [step, layer] [dst]) (fun t s =>
    let v : Nat → W32 := fun l =>
      maskKey (ctxSeed s t.c) t.c (regRead s t.core t.slot step.reg l) (regRead s t.core t.slot layer.reg l)
    regWrite (touchAll s t [step, layer]) t.core t.slot dst t.f.mask v)

/-- MASKWORD (R333, R334): mask_word of a key and a 64-bit index in two registers. -/
def execMaskword (at_ : At) (dst : Nat) (key lo hi : Src) (s : State) : Out :=
  instrNext s at_ (plainUses [key, lo, hi] [dst]) (fun t s =>
    let v : Nat → W32 := fun l =>
      maskWord (regRead s t.core t.slot key.reg l)
        (BitVec.ofNat 64 (t.reg s lo.reg l + t.reg s hi.reg l * 2 ^ 32))
    regWrite (touchAll s t [key, lo, hi]) t.core t.slot dst t.f.mask v)

/-! Control. -/

/-- The new fragments of a branch, ascending by target (R158). -/
def branchParts (f : Frag) (targets : List (Nat × Nat)) (now : Nat) : List Frag :=
  (targets.filter (fun x => x.1 &&& f.mask != 0)).insertionSort (fun x y => x.2 ≤ y.2)
    |>.map (fun x => { f with mask := x.1 &&& f.mask, pc := x.2, age := now })

/-- Whether targets partition the fragment's lanes, each target once. -/
def branchOk (f : Frag) (targets : List (Nat × Nat)) : Bool :=
  decide ((targets.map Prod.snd).Nodup)
    && (List.range 32).all (fun l => !f.mask.testBit l || (targets.filter (fun x => x.1.testBit l)).length == 1)

/-- The others of a split become active while the slot has places (R158). -/
def seatParts : Nat → List Frag → List Frag
  | _, [] => []
  | n, g :: gs => { g with active := decide (n < 4) } :: seatParts (n + 1) gs

/-- BRANCH (R158): one fragment per target. -/
def execBranch (at_ : At) (targets : List (Nat × Nat)) (s : State) : Out :=
  instr s at_ ⟨[], 0⟩ (fun t s =>
    if !branchOk t.f targets then s
    else
      match slotRec s t.core t.slot, branchParts t.f targets s.ns with
      | some r, p :: ps =>
        let p := { p with age := t.f.age }
        let rest := r.frags.filter (fun g => g != t.f)
        let new := seatParts (1 + activeCount rest) ps
        let s := if ps.isEmpty then s else s.bump F.corePipeSplits_SPLITS (1 + ps.length) t.core
        let s := s.bump F.corePipeParks_PARKS (new.filter (fun g => !g.active)).length t.core
        setSlot s t.core t.slot { r with frags := settleFrags s.ns (p :: (new ++ rest)) }
      | _, _ => s)

/-- A slot's joins whose condition holds are released (R160). -/
def releaseJoins (fs : List Frag) : List Frag :=
  let free (f : Frag) : Option Nat :=
    match f.wait with
    | .join m nxt =>
      let here (g : Frag) : Bool := (match g.wait with | .join _ _ => g.pc == f.pc | _ => false) || g.mask &&& m == 0
      if fs.all (fun g => g == f || here g) then some nxt else none
    | _ => none
  fs.map (fun f => match free f with | some nxt => { f with pc := nxt, wait := .none } | none => f)

def joinsOf (s : State) (core slot : Nat) : State :=
  match slotRec s core slot with
  | none => s
  | some r => setSlot s core slot { r with frags := settleFrags s.ns (releaseJoins r.frags) }

/-- JOIN (R160). -/
def execJoin (at_ : At) (mask : Nat) (s : State) : Out :=
  instr s at_ ⟨[], 0⟩ (fun t s => joinsOf (waitAt s t t.f.pc (.join mask at_.next) true) t.core t.slot)

/-- JOIN_TIMEOUT (R160): after 4,096 cycles the join is released. -/
def execJoinTimeout (core slot lane : Nat) (s : State) : Out :=
  if core < 240 ∧ slot < 128 ∧ lane < 32 then
    ok (updFrag s core slot lane (fun f => match f.wait with | .join _ nxt => { f with pc := nxt, wait := .none } | _ => f))
  else .fault .noSuchUnit

/-- FRAGMENT_ROTATE (R161): the active fragment of the lane is parked, the longest waiting parked one becomes active. -/
def execFragmentRotate (core slot lane : Nat) (s : State) : Out :=
  if core < 240 ∧ slot < 128 ∧ lane < 32 then
    match slotRec s core slot with
    | none => ok s
    | some r =>
      match fragOf r lane, longestParked r.frags with
      | some f, some g =>
        if f.active then
          let fs := updWhere r.frags (fun x => x == f) (fun x => { x with active := false, age := s.ns })
          let fs := updWhere fs (fun x => x == g) (fun x => { x with active := true, age := s.ns })
          ok (setSlot (s.bump F.corePipeParks_PARKS 1 core) core slot { r with frags := fs })
        else ok s
      | _, _ => ok s
  else .fault .noSuchUnit

/-- A barrier completes when every live thread of the block has arrived at it (R162). -/
def releaseBarrier (s : State) (block : Nat) : State :=
  let fs := blockFrags s block
  match fs with
  | [] => s
  | f :: _ =>
    match f.wait with
    | .barrier id =>
      if fs.all (fun g => g.wait == .barrier id) then
        updFrags s (fun _ r g => if r.block = block then { g with wait := .none } else g)
      else s
    | _ => s

/-- BLOCK_BARRIER (R162): the block's barrier, or a named one below NAMED_BARRIERS. -/
def execBlockBarrier (at_ : At) (id : Option Nat) (s : State) : Out :=
  instr s at_ ⟨[], 2⟩ (fun t s =>
    if (id.map (fun k => decide (t.l.decl.barriers ≤ k))).getD false then haltTh s t 0x09 (id.getD 0)
    else releaseBarrier (waitAt s t at_.next (.barrier id) true) t.b.id)

/-- EXIT (R160, R162, R196): the fragment's threads exit; the last waits until the token table is DONE, then the block ends. -/
def execExit (at_ : At) (s : State) : Out :=
  instr s at_ ⟨[], 2⟩ (fun t s =>
    if (blockFrags s t.b.id).length = 1 then
      if t.b.tokens.all (fun x => x.done) then endBlock s t.b
      else waitAt s t t.f.pc (.exit s.ns) true
    else
      let s := updFrag s t.core t.slot at_.lane (fun f => { f with mask := 0 })
      exitReady (releaseBarrier (joinsOf s t.core t.slot) t.b.id) t.b.id)

/-- HALT (R189). -/
def execHalt (at_ : At) (operand : Nat) (s : State) : Out :=
  instr s at_ ⟨[], 0⟩ (fun t s => haltTh s t 0x1E (operand % 2 ^ 32))

end Sys2Proof.Machine
end

