-- ==== Sys2Proof/Machine/Dispatch.lean ====
section
/-! DEFINITION. One arm per command: a direct call of its meaning. -/

namespace Sys2Proof.Machine

def exec (i : Instr) (s : State) : Host.Outcome State Fault Refusal :=
  match i with
  | .coldReset bankOk => Sys2Proof.Machine.execColdReset bankOk s
  | .warmReset => Sys2Proof.Machine.execWarmReset s
  | .functionReset => Sys2Proof.Machine.execFunctionReset s
  | .flrComplete => Sys2Proof.Machine.execFlrComplete s
  | .standbyLoss => Sys2Proof.Machine.execStandbyLoss s
  | .mainInputGood => Sys2Proof.Machine.execMainInputGood s
  | .perstDeassert => Sys2Proof.Machine.execPerstDeassert s
  | .undervoltageLockout vinMv => Sys2Proof.Machine.execUndervoltageLockout vinMv s
  | .inputLowTimeout vinMv => Sys2Proof.Machine.execInputLowTimeout vinMv s
  | .hardThermalTrip tile tempC => Sys2Proof.Machine.execHardThermalTrip tile tempC s
  | .moduleResetWarm => Sys2Proof.Machine.execModuleResetWarm s
  | .moduleResetCold bankOk => Sys2Proof.Machine.execModuleResetCold bankOk s
  | .getStateEffecterStates => Sys2Proof.Machine.execGetStateEffecterStates s
  | .getStateSensorReadings => Sys2Proof.Machine.execGetStateSensorReadings s
  | .setPreferred img => Sys2Proof.Machine.execSetPreferred img s
  | .clearFaultHistory => Sys2Proof.Machine.execClearFaultHistory s
  | .clearSoftstartSticky => Sys2Proof.Machine.execClearSoftstartSticky s
  | .requestUpdate => Sys2Proof.Machine.execRequestUpdate s
  | .passComponentTable slot => Sys2Proof.Machine.execPassComponentTable slot s
  | .updateComponent slot => Sys2Proof.Machine.execUpdateComponent slot s
  | .requestFirmwareData off data => Sys2Proof.Machine.execRequestFirmwareData off data s
  | .transferComplete => Sys2Proof.Machine.execTransferComplete s
  | .verifyComplete keyOk sigOk => Sys2Proof.Machine.execVerifyComplete keyOk sigOk s
  | .applyComplete => Sys2Proof.Machine.execApplyComplete s
  | .activateFirmware => Sys2Proof.Machine.execActivateFirmware s
  | .getStatus => Sys2Proof.Machine.execGetStatus s
  | .cancelUpdate => Sys2Proof.Machine.execCancelUpdate s
  | .imageLoadDone keyOk sigOk => Sys2Proof.Machine.execImageLoadDone keyOk sigOk s
  | .firmwareWatchdog => Sys2Proof.Machine.execFirmwareWatchdog s
  | .domainRampEnd dom railOk => Sys2Proof.Machine.execDomainRampEnd dom railOk s
  | .currentLimitTimeout dom => Sys2Proof.Machine.execCurrentLimitTimeout dom s
  | .softStartRetry dom railOk => Sys2Proof.Machine.execSoftStartRetry dom railOk s
  | .unitBistDone badCores badSlices badDpus => Sys2Proof.Machine.execUnitBistDone badCores badSlices badDpus s
  | .hbmTrainingDone badChannels => Sys2Proof.Machine.execHbmTrainingDone badChannels s
  | .startJoin bootMs => Sys2Proof.Machine.execStartJoin bootMs s
  | .cellMeasure mv => Sys2Proof.Machine.execCellMeasure mv s
  | .bankMirrorCopy => Sys2Proof.Machine.execBankMirrorCopy s
  | .wearSave => Sys2Proof.Machine.execWearSave s
  | .regWrite off size val => Sys2Proof.Machine.execRegWrite off size val s
  | .regReadLowerLatch who off size => Sys2Proof.Machine.execRegReadLowerLatch who off size s
  | .domainCmdOn dom seq atEn evEn event => Sys2Proof.Machine.execDomainCmdOn dom seq atEn evEn event s
  | .domainCmdClockGated dom seq atEn evEn event => Sys2Proof.Machine.execDomainCmdClockGated dom seq atEn evEn event s
  | .domainCmdRetain dom seq atEn evEn event => Sys2Proof.Machine.execDomainCmdRetain dom seq atEn evEn event s
  | .domainCmdOff dom seq atEn evEn event => Sys2Proof.Machine.execDomainCmdOff dom seq atEn evEn event s
  | .scheduledCmdStart dom => Sys2Proof.Machine.execScheduledCmdStart dom s
  | .domainTransitionDone dom => Sys2Proof.Machine.execDomainTransitionDone dom s
  | .wakeRampStart dom => Sys2Proof.Machine.execWakeRampStart dom s
  | .chargeWindowClose dom => Sys2Proof.Machine.execChargeWindowClose dom s
  | .wakeLatch dom => Sys2Proof.Machine.execWakeLatch dom s
  | .wakeRetry dom railOk => Sys2Proof.Machine.execWakeRetry dom railOk s
  | .clockGateIdle dom => Sys2Proof.Machine.execClockGateIdle dom s
  | .pstateCmd target seq atEn evEn event => Sys2Proof.Machine.execPstateCmd target seq atEn evEn event s
  | .pstateClockSwitch => Sys2Proof.Machine.execPstateClockSwitch s
  | .capInterval pMw vinMv act => Sys2Proof.Machine.execCapInterval pMw vinMv act s
  | .thermalInterval temps => Sys2Proof.Machine.execThermalInterval temps s
  | .tideTick => Sys2Proof.Machine.execTideTick s
  | .beaconReceive port p => Sys2Proof.Machine.execBeaconReceive port p s
  | .beaconLossTimeout => Sys2Proof.Machine.execBeaconLossTimeout s
  | .holdoverTimeout => Sys2Proof.Machine.execHoldoverTimeout s
  | .pathWindowExpire path => Sys2Proof.Machine.execPathWindowExpire path s
  | .tideLocalWrite on => Sys2Proof.Machine.execTideLocalWrite on s
  | .tideCopyRenew unit => Sys2Proof.Machine.execTideCopyRenew unit s
  | .ferryRun f => Sys2Proof.Machine.execFerryRun f s
  | .ferryStop f => Sys2Proof.Machine.execFerryStop f s
  | .ferryDepart f copy => Sys2Proof.Machine.execFerryDepart f copy s
  | .ferryLateHold f copy => Sys2Proof.Machine.execFerryLateHold f copy s
  | .ferryMiss f copy => Sys2Proof.Machine.execFerryMiss f copy s
  | .sailRunReceive port p lines => Sys2Proof.Machine.execSailRunReceive port p lines s
  | .landAckReceive p => Sys2Proof.Machine.execLandAckReceive p s
  | .settleReceive p => Sys2Proof.Machine.execSettleReceive p s
  | .cutReceive p => Sys2Proof.Machine.execCutReceive p s
  | .turnBackReceive p => Sys2Proof.Machine.execTurnBackReceive p s
  | .missedReceive p => Sys2Proof.Machine.execMissedReceive p s
  | .windowReceive p => Sys2Proof.Machine.execWindowReceive p s
  | .nodeResetReceive p => Sys2Proof.Machine.execNodeResetReceive p s
  | .ackLimitExpire f entry cycleLo => Sys2Proof.Machine.execAckLimitExpire f entry cycleLo s
  | .sailingCut f entry cycleLo => Sys2Proof.Machine.execSailingCut f entry cycleLo s
  | .attemptRestart f entry cycleLo => Sys2Proof.Machine.execAttemptRestart f entry cycleLo s
  | .sourceSegmentTimeout f entry cycleLo => Sys2Proof.Machine.execSourceSegmentTimeout f entry cycleLo s
  | .ferryAbortOne f entry cycleLo seq => Sys2Proof.Machine.execFerryAbortOne f entry cycleLo seq s
  | .ferryAbortAll f seq => Sys2Proof.Machine.execFerryAbortAll f seq s
  | .berthApply b word1 => Sys2Proof.Machine.execBerthApply b word1 s
  | .headerSlotReceive port pos data ok => Sys2Proof.Machine.execHeaderSlotReceive port pos data ok s
  | .linkSlotReceive port slot => Sys2Proof.Machine.execLinkSlotReceive port slot s
  | .readReceive port p => Sys2Proof.Machine.execReadReceive port p s
  | .writeReceive port p line => Sys2Proof.Machine.execWriteReceive port p line s
  | .writeMaskedReceive port p line => Sys2Proof.Machine.execWriteMaskedReceive port p line s
  | .readRespReceive p line => Sys2Proof.Machine.execReadRespReceive p line s
  | .writeAckReceive p => Sys2Proof.Machine.execWriteAckReceive p s
  | .readTimeout tag => Sys2Proof.Machine.execReadTimeout tag s
  | .writeTimeout tag => Sys2Proof.Machine.execWriteTimeout tag s
  | .portTrainingDone port peer peerLanes echo => Sys2Proof.Machine.execPortTrainingDone port peer peerLanes echo s
  | .portTrainingTimeout port => Sys2Proof.Machine.execPortTrainingTimeout port s
  | .laneSignalLoss port lane => Sys2Proof.Machine.execLaneSignalLoss port lane s
  | .retrainReqWrite port on => Sys2Proof.Machine.execRetrainReqWrite port on s
  | .retrainMessageReceive port peer peerLanes => Sys2Proof.Machine.execRetrainMessageReceive port peer peerLanes s
  | .retrainComplete port peer echo => Sys2Proof.Machine.execRetrainComplete port peer echo s
  | .retrainTimeout port => Sys2Proof.Machine.execRetrainTimeout port s
  | .lanesetReceive port lanes seq => Sys2Proof.Machine.execLanesetReceive port lanes seq s
  | .laneErrorWindow port lane uncorrectable emitterCause => Sys2Proof.Machine.execLaneErrorWindow port lane uncorrectable emitterCause s
  | .laneMoveDone port lane => Sys2Proof.Machine.execLaneMoveDone port lane s
  | .emitterWorn n biasPct => Sys2Proof.Machine.execEmitterWorn n biasPct s
  | .emitterFail n => Sys2Proof.Machine.execEmitterFail n s
  | .emitterRetuneDone n wl => Sys2Proof.Machine.execEmitterRetuneDone n wl s
  | .portDisableWrite port on => Sys2Proof.Machine.execPortDisableWrite port on s
  | .fabRegionApply r word3 => Sys2Proof.Machine.execFabRegionApply r word3 s
  | .ctxCreate seq ctx seed => Sys2Proof.Machine.execCtxCreate seq ctx seed s
  | .ctxSuspend seq ctx arg3 => Sys2Proof.Machine.execCtxSuspend seq ctx arg3 s
  | .ctxSuspendDone ctx => Sys2Proof.Machine.execCtxSuspendDone ctx s
  | .ctxResume seq ctx => Sys2Proof.Machine.execCtxResume seq ctx s
  | .ctxCancel seq ctx arg3 => Sys2Proof.Machine.execCtxCancel seq ctx arg3 s
  | .ctxCancelDone ctx => Sys2Proof.Machine.execCtxCancelDone ctx s
  | .ctxDestroy seq ctx arg3 => Sys2Proof.Machine.execCtxDestroy seq ctx arg3 s
  | .teardownStepDone ctx => Sys2Proof.Machine.execTeardownStepDone ctx s
  | .qCreate seq q sqBase cqBase arg2 => Sys2Proof.Machine.execQCreate seq q sqBase cqBase arg2 s
  | .qCancel seq q arg3 => Sys2Proof.Machine.execQCancel seq q arg3 s
  | .qCancelDone q => Sys2Proof.Machine.execQCancelDone q s
  | .qDestroy seq q arg3 => Sys2Proof.Machine.execQDestroy seq q arg3 s
  | .moAlloc seq o pbase len arg2 arg3 => Sys2Proof.Machine.execMoAlloc seq o pbase len arg2 arg3 s
  | .moZeroingDone o => Sys2Proof.Machine.execMoZeroingDone o s
  | .moAddref seq o => Sys2Proof.Machine.execMoAddref seq o s
  | .moRelease seq o => Sys2Proof.Machine.execMoRelease seq o s
  | .moQuery seq o => Sys2Proof.Machine.execMoQuery seq o s
  | .qDoorbellWrite q val => Sys2Proof.Machine.execQDoorbellWrite q val s
  | .qCqHeadWrite q val => Sys2Proof.Machine.execQCqHeadWrite q val s
  | .sqEntryFetch q entry holds => Sys2Proof.Machine.execSqEntryFetch q entry holds s
  | .sqeNop q => Sys2Proof.Machine.execSqeNop q s
  | .sqeLaunch q => Sys2Proof.Machine.execSqeLaunch q s
  | .sqeSegmul q job => Sys2Proof.Machine.execSqeSegmul q job s
  | .sqeEngine q job => Sys2Proof.Machine.execSqeEngine q job s
  | .sqeBollardAdvance q => Sys2Proof.Machine.execSqeBollardAdvance q s
  | .sqeBarrier q => Sys2Proof.Machine.execSqeBarrier q s
  | .sqeSignal q => Sys2Proof.Machine.execSqeSignal q s
  | .sqEntryComplete q idx => Sys2Proof.Machine.execSqEntryComplete q idx s
  | .sumpRingWrite val => Sys2Proof.Machine.execSumpRingWrite val s
  | .sumpHeadWrite val => Sys2Proof.Machine.execSumpHeadWrite val s
  | .busMasterDisable => Sys2Proof.Machine.execBusMasterDisable s
  | .busMasterEnable => Sys2Proof.Machine.execBusMasterEnable s
  | .d3hotEntry => Sys2Proof.Machine.execD3hotEntry s
  | .d0Return => Sys2Proof.Machine.execD0Return s
  | .hostReadCompletion id ok data => Sys2Proof.Machine.execHostReadCompletion id ok data s
  | .cxlCacheEnable => Sys2Proof.Machine.execCxlCacheEnable s
  | .snpData ha => Sys2Proof.Machine.execSnpData ha s
  | .snpInv ha => Sys2Proof.Machine.execSnpInv ha s
  | .snpCur ha => Sys2Proof.Machine.execSnpCur ha s
  | .goReceive ha st data => Sys2Proof.Machine.execGoReceive ha st data s
  | .goWritepull ha => Sys2Proof.Machine.execGoWritepull ha s
  | .goWritepullDrop ha => Sys2Proof.Machine.execGoWritepullDrop ha s
  | .goErr ha => Sys2Proof.Machine.execGoErr ha s
  | .segApply c sg attr => Sys2Proof.Machine.execSegApply c sg attr s
  | .segFaultTimeout c sg => Sys2Proof.Machine.execSegFaultTimeout c sg s
  | .keySlotWrite k val => Sys2Proof.Machine.execKeySlotWrite k val s
  | .keyGenDone k => Sys2Proof.Machine.execKeyGenDone k s
  | .channelMapOut n => Sys2Proof.Machine.execChannelMapOut n s
  | .channelRestore n => Sys2Proof.Machine.execChannelRestore n s
  | .channelMoveDone n => Sys2Proof.Machine.execChannelMoveDone n s
  | .wrapperRequest m val => Sys2Proof.Machine.execWrapperRequest m val s
  | .wrapperDone m responded data => Sys2Proof.Machine.execWrapperDone m responded data s
  | .bolValueWrite n val => Sys2Proof.Machine.execBolValueWrite n val s
  | .bolNotifyWrite n isCtrl val => Sys2Proof.Machine.execBolNotifyWrite n isCtrl val s
  | .vectorOp at_ op => Sys2Proof.Machine.execVectorOp at_ op s
  | .convertOp at_ op => Sys2Proof.Machine.execConvertOp at_ op s
  | .censusCount at_ census fmt src => Sys2Proof.Machine.execCensusCount at_ census fmt src s
  | .maskkey at_ dst step layer => Sys2Proof.Machine.execMaskkey at_ dst step layer s
  | .maskword at_ dst key lo hi => Sys2Proof.Machine.execMaskword at_ dst key lo hi s
  | .load at_ acc => Sys2Proof.Machine.execLoad at_ acc s
  | .loadFill core line => Sys2Proof.Machine.execLoadFill core line s
  | .store at_ acc => Sys2Proof.Machine.execStore at_ acc s
  | .atomic at_ acc => Sys2Proof.Machine.execAtomic at_ acc s
  | .fenceRelease at_ scope => Sys2Proof.Machine.execFenceRelease at_ scope s
  | .fenceAcquire at_ scope => Sys2Proof.Machine.execFenceAcquire at_ scope s
  | .fenceAcqRel at_ scope => Sys2Proof.Machine.execFenceAcqRel at_ scope s
  | .fenceSc at_ scope => Sys2Proof.Machine.execFenceSc at_ scope s
  | .grottoWb at_ addr len => Sys2Proof.Machine.execGrottoWb at_ addr len s
  | .grottoWbinv at_ addr len => Sys2Proof.Machine.execGrottoWbinv at_ addr len s
  | .grottoInvClean at_ addr len => Sys2Proof.Machine.execGrottoInvClean at_ addr len s
  | .constInvalidate at_ => Sys2Proof.Machine.execConstInvalidate at_ s
  | .descInvalidate at_ => Sys2Proof.Machine.execDescInvalidate at_ s
  | .branch at_ targets => Sys2Proof.Machine.execBranch at_ targets s
  | .join at_ mask => Sys2Proof.Machine.execJoin at_ mask s
  | .joinTimeout core slot lane => Sys2Proof.Machine.execJoinTimeout core slot lane s
  | .fragmentRotate core slot lane => Sys2Proof.Machine.execFragmentRotate core slot lane s
  | .blockBarrier at_ id => Sys2Proof.Machine.execBlockBarrier at_ id s
  | .exit at_ => Sys2Proof.Machine.execExit at_ s
  | .halt at_ operand => Sys2Proof.Machine.execHalt at_ operand s
  | .tokenWait at_ entries => Sys2Proof.Machine.execTokenWait at_ entries s
  | .tokenPost at_ ferry gate waits => Sys2Proof.Machine.execTokenPost at_ ferry gate waits s
  | .tokenWatchdog block => Sys2Proof.Machine.execTokenWatchdog block s
  | .bollardAdvance at_ n inc scope => Sys2Proof.Machine.execBollardAdvance at_ n inc scope s
  | .bollardAdvanceApply => Sys2Proof.Machine.execBollardAdvanceApply s
  | .bollardWait at_ n target dst timed => Sys2Proof.Machine.execBollardWait at_ n target dst timed s
  | .bollardWaitTimeout core slot lane => Sys2Proof.Machine.execBollardWaitTimeout core slot lane s
  | .bollardRead at_ n dst acq => Sys2Proof.Machine.execBollardRead at_ n dst acq s
  | .matrixOpIssue at_ iss array op => Sys2Proof.Machine.execMatrixOpIssue at_ iss array op s
  | .opBufferLeave id => Sys2Proof.Machine.execOpBufferLeave id s
  | .arrayOpAccept core array => Sys2Proof.Machine.execArrayOpAccept core array s
  | .arrayOpComplete core array bubbles ramps => Sys2Proof.Machine.execArrayOpComplete core array bubbles ramps s
  | .segmulIssue at_ iss job => Sys2Proof.Machine.execSegmulIssue at_ iss job s
  | .segmulTaskDispatch job task => Sys2Proof.Machine.execSegmulTaskDispatch job task s
  | .segmulTaskDone job task => Sys2Proof.Machine.execSegmulTaskDone job task s
  | .segmulComplete job => Sys2Proof.Machine.execSegmulComplete job s
  | .tenderCopy at_ iss unit job => Sys2Proof.Machine.execTenderCopy at_ iss unit job s
  | .tenderGather at_ iss unit job => Sys2Proof.Machine.execTenderGather at_ iss unit job s
  | .tenderTranspose at_ iss unit job => Sys2Proof.Machine.execTenderTranspose at_ iss unit job s
  | .tenderConvert at_ iss unit job => Sys2Proof.Machine.execTenderConvert at_ iss unit job s
  | .tenderReduce at_ iss unit job => Sys2Proof.Machine.execTenderReduce at_ iss unit job s
  | .tenderZero at_ iss unit job => Sys2Proof.Machine.execTenderZero at_ iss unit job s
  | .tenderPrefetch at_ iss unit job => Sys2Proof.Machine.execTenderPrefetch at_ iss unit job s
  | .updateTake form => Sys2Proof.Machine.execUpdateTake form s
  | .updateCommit form => Sys2Proof.Machine.execUpdateCommit form s
  | .dispatch form => Sys2Proof.Machine.execDispatch form s
  | .combine form => Sys2Proof.Machine.execCombine form s
  | .engineJobComplete unit => Sys2Proof.Machine.execEngineJobComplete unit s
  | .routineIssue at_ iss job => Sys2Proof.Machine.execRoutineIssue at_ iss job s
  | .attnFwd core => Sys2Proof.Machine.execAttnFwd core s
  | .attnBwdQ core => Sys2Proof.Machine.execAttnBwdQ core s
  | .attnBwdKv core => Sys2Proof.Machine.execAttnBwdKv core s
  | .routineComplete core => Sys2Proof.Machine.execRoutineComplete core s
  | .routineMaxCycles core => Sys2Proof.Machine.execRoutineMaxCycles core s
  | .blockPlace launch idx core => Sys2Proof.Machine.execBlockPlace launch idx core s
  | .coreBind core => Sys2Proof.Machine.execCoreBind core s
  | .bindZeroDone core => Sys2Proof.Machine.execBindZeroDone core s
  | .bindQuantumExpire core ctx => Sys2Proof.Machine.execBindQuantumExpire core ctx s
  | .sliceScrub slice set errs => Sys2Proof.Machine.execSliceScrub slice set errs s
  | .sliceEccError slice kind pa => Sys2Proof.Machine.execSliceEccError slice kind pa s
  | .grottoParityError core addr isCache => Sys2Proof.Machine.execGrottoParityError core addr isCache s
  | .rocacheParityError core kind addr => Sys2Proof.Machine.execRocacheParityError core kind addr s
  | .hotspotWindow cycles counts => Sys2Proof.Machine.execHotspotWindow cycles counts s
  | .sliceDrainDone n => Sys2Proof.Machine.execSliceDrainDone n s
  | .sliceJoin n => Sys2Proof.Machine.execSliceJoin n s
  | .dramScrub pa corrected => Sys2Proof.Machine.execDramScrub pa corrected s
  | .dramUncorrectable pa => Sys2Proof.Machine.execDramUncorrectable pa s
  | .channelFail n => Sys2Proof.Machine.execChannelFail n s
  | .dpuCheckFail pcore place dpu residue => Sys2Proof.Machine.execDpuCheckFail pcore place dpu residue s
  | .arrayParityFail pcore place => Sys2Proof.Machine.execArrayParityFail pcore place s
  | .coreCheckFail pcore block => Sys2Proof.Machine.execCoreCheckFail pcore block s
  | .coreHeartbeatTimeout pcore => Sys2Proof.Machine.execCoreHeartbeatTimeout pcore s
  | .tenderFail u => Sys2Proof.Machine.execTenderFail u s
  | .updateEngineFail u => Sys2Proof.Machine.execUpdateEngineFail u s
  | .dispatchEngineFail u => Sys2Proof.Machine.execDispatchEngineFail u s
  | .ferryFail u => Sys2Proof.Machine.execFerryFail u s
  | .packageAgentFail u => Sys2Proof.Machine.execPackageAgentFail u s
  | .d2dLaneFail edge module lane => Sys2Proof.Machine.execD2dLaneFail edge module lane s
  | .regulatorPhaseFault dom phase => Sys2Proof.Machine.execRegulatorPhaseFault dom phase s
  | .ftTest unit force seq => Sys2Proof.Machine.execFtTest unit force seq s
  | .ftReplace unit seq => Sys2Proof.Machine.execFtReplace unit seq s
  | .ftBypass unit seq => Sys2Proof.Machine.execFtBypass unit seq s
  | .ftReturn unit seq => Sys2Proof.Machine.execFtReturn unit seq s
  | .ftQuery unit seq => Sys2Proof.Machine.execFtQuery unit seq s
  | .ftCommandDone unit pass step => Sys2Proof.Machine.execFtCommandDone unit pass step s
  | .portTrainingStart port => Sys2Proof.Machine.execPortTrainingStart port s
  | .cxlCacheDisable => Sys2Proof.Machine.execCxlCacheDisable s
  | .qDestroyDone q => Sys2Proof.Machine.execQDestroyDone q s
  | .jtagAccess => Sys2Proof.Machine.execJtagAccess s
  | .i3cDynamicAddress addr => Sys2Proof.Machine.execI3cDynamicAddress addr s
  | .spareBistDone dom => Sys2Proof.Machine.execSpareBistDone dom s

end Sys2Proof.Machine
end

