-- ==== Sys2Proof/Machine/Tick.lean ====
section
/-! DEFINITION. What passes while no command waits: a nanosecond of real time, and a piece of each engine's work (0: R4; 3: R85, R92; 4:
R137; 6: R203; 10: R317). -/

namespace Sys2Proof.Machine

/-- A piece of a started job: a row of an array's oldest operation, a tender's chunk, a routine's step. -/
def jobTick (s : State) (id : Nat) : State :=
  match s.eng.jobs.find? (fun j => j.id == id && j.started) with
  | none => s
  | some j =>
    match j.job with
    | .matrix _ =>
      match s.logCore (j.unit % 4096 / 4) with
      | none => s
      | some c => if (arrayHead s c (j.unit % 4)).any (fun h => h.1.id == id) then arrayTick s c (j.unit % 4) else s
    | .routine _ =>
      match s.logCore (j.unit % 4096) with
      | none => s
      | some c => routineTick s c
    | .tender t => tenderTick s j t
    | _ => s

/-- A piece of every task of a segmented multiply that has begun. -/
def segTick (s : State) (m : SegMul) : State := m.tasks.foldl (fun s t => taskTick s m.job.id t.no) s

/-- The block idle for a nanosecond (DESIGN CHOICE, log 1). -/
def tick (s : State) : State :=
  let s := { s with ns := s.ns + 1 }
  s.eng.seg.foldl segTick ((s.eng.jobs.map (fun j => j.id)).foldl jobTick s)

end Sys2Proof.Machine
end

