-- ==== Sys2Proof/Safety.lean ====
section
/-! DEFINITION. The terms in which statements speak of runs: what a command leaves as it was, and what holds of every state. -/

namespace Sys2Proof.Machine

/-- The parts of the state beside the register words and the queue of commands. -/
inductive Part where
  | acc | mem | hl | obj | run | core | eng | tide | sail | fab | pwr | boot | bank | flt | free | ns | out
  deriving DecidableEq, Repr

/-- A part is the same in two states; the retained bank apart from its register words. -/
def Part.same (p : Part) (s t : State) : Prop :=
  match p with
  | .acc => t.acc = s.acc
  | .mem => t.mem = s.mem
  | .hl => t.hl = s.hl
  | .obj => t.obj = s.obj
  | .run => t.run = s.run
  | .core => t.core = s.core
  | .eng => t.eng = s.eng
  | .tide => t.tide = s.tide
  | .sail => t.sail = s.sail
  | .fab => t.fab = s.fab
  | .pwr => t.pwr = s.pwr
  | .boot => t.boot = s.boot
  | .bank => { t.bank with regs := [] } = { s.bank with regs := [] }
  | .flt => t.flt = s.flt
  | .free => t.free = s.free
  | .ns => t.ns = s.ns
  | .out => t.out = s.out

/-- The frame of a command: apart from the parts and registers listed, everything is as it was, the queue of commands too. -/
structure Only (parts : List Part) (regs : List RegId) (s t : State) : Prop where
  pending : t.pending = s.pending
  part : ∀ p, p ∉ parts → p.same s t
  word : ∀ r, r ∉ regs → ∀ i j w, t.word r i j w = s.word r i j w

/-- What every state keeps: each byte store in its canonical form (R7, R145, R456), at most 1,024 records in the hold store (R443),
at most 256 in the fault history of the bank and of each mirror copy (Table 14.8). -/
structure Inv (s : State) : Prop where
  dram : s.mem.wf
  sram : sramWf s.core = true
  flash : smapWf s.boot.flash (fun _ => 0) = true
  hold : s.flt.hold.length ≤ 1024
  hist : s.bank.hist.length ≤ 256
  mirror : ∀ m ∈ s.boot.mirror, m.2.hist.length ≤ 256

/-- A command answers a next state of which something holds. -/
def Gives (c : Instr) (s : State) (P : State → Prop) : Prop := ∃ t, exec c s = .next t ∧ P t

end Sys2Proof.Machine
end

