-- ==== Sys2Proof/WellFormed.lean ====
section
/-! DEFINITION. Well-formed commands: those that name units, registers and slots the part has. An ill-formed one is the event of
no part, and its meaning faults (log 3). -/

namespace Sys2Proof

/-- A job's two forms: its issue by a thread, and a step of the engine that runs it. -/
def EngForm.wf {α : Type} (f : EngForm α) : Bool :=
  match f with
  | .issue at_ iss k _ => decide (k < 2) && Machine.issOk iss true && Machine.placeOk at_
  | .run u => decide (u < 8)

/-- Whether a command is well formed. -/
def Instr.wf (i : Instr) : Bool :=
  match i with
  | .coldReset _ => true
  | .warmReset => true
  | .functionReset => true
  | .flrComplete => true
  | .standbyLoss => true
  | .mainInputGood => true
  | .perstDeassert => true
  | .undervoltageLockout _ => true
  | .inputLowTimeout _ => true
  | .hardThermalTrip tile _ => decide (tile < 4)
  | .moduleResetWarm => true
  | .moduleResetCold _ => true
  | .getStateEffecterStates => true
  | .getStateSensorReadings => true
  | .setPreferred img => decide (img < 2)
  | .clearFaultHistory => true
  | .clearSoftstartSticky => true
  | .requestUpdate => true
  | .passComponentTable _ => true
  | .updateComponent _ => true
  | .requestFirmwareData _ _ => true
  | .transferComplete => true
  | .verifyComplete _ _ => true
  | .applyComplete => true
  | .activateFirmware => true
  | .getStatus => true
  | .cancelUpdate => true
  | .imageLoadDone _ _ => true
  | .firmwareWatchdog => true
  | .domainRampEnd dom _ => decide (dom < 40)
  | .currentLimitTimeout dom => decide (dom < 40)
  | .softStartRetry dom _ => decide (dom < 40)
  | .unitBistDone badCores badSlices badDpus => badCores.all (fun p => decide (p < 256)) && badSlices.all (fun p => decide (p < 272)) && badDpus.all (fun x => decide (x.1 < 1024) && decide (x.2 < 33))
  | .hbmTrainingDone badChannels => badChannels.all (fun n => decide (n < 256))
  | .startJoin _ => true
  | .cellMeasure _ => true
  | .bankMirrorCopy => true
  | .wearSave => true
  | .regWrite _ _ _ => true
  | .regReadLowerLatch _ _ _ => true
  | .domainCmdOn dom _ _ _ _ => decide (dom < 40)
  | .domainCmdClockGated dom _ _ _ _ => decide (dom < 40)
  | .domainCmdRetain dom _ _ _ _ => decide (dom < 40)
  | .domainCmdOff dom _ _ _ _ => decide (dom < 40)
  | .scheduledCmdStart dom => decide (dom ≤ 40)
  | .domainTransitionDone dom => decide (dom < 40)
  | .wakeRampStart dom => decide (dom < 40)
  | .chargeWindowClose dom => decide (dom < 40)
  | .wakeLatch dom => decide (dom < 40)
  | .wakeRetry dom _ => decide (dom < 40)
  | .clockGateIdle dom => decide (dom < 40)
  | .pstateCmd target _ _ _ _ => decide (target < 4)
  | .pstateClockSwitch => true
  | .capInterval _ _ act => act.all (fun x => decide (x.1 < 4096))
  | .thermalInterval temps => decide (temps.length = 4)
  | .tideTick => true
  | .beaconReceive port _ => decide (port < 16)
  | .beaconLossTimeout => true
  | .holdoverTimeout => true
  | .pathWindowExpire path => decide (path < 2)
  | .tideLocalWrite _ => true
  | .tideCopyRenew unit => decide (unit < 65536)
  | .ferryRun f => decide (f < 32)
  | .ferryStop f => decide (f < 32)
  | .ferryDepart f _ => decide (f < 32)
  | .ferryLateHold f _ => decide (f < 32)
  | .ferryMiss f _ => decide (f < 32)
  | .sailRunReceive port _ _ => decide (port < 16)
  | .landAckReceive _ => true
  | .settleReceive _ => true
  | .cutReceive _ => true
  | .turnBackReceive _ => true
  | .missedReceive _ => true
  | .windowReceive _ => true
  | .nodeResetReceive _ => true
  | .ackLimitExpire f _ _ => decide (f < 32)
  | .sailingCut f _ _ => decide (f < 32)
  | .attemptRestart f _ _ => decide (f < 32)
  | .sourceSegmentTimeout f _ _ => decide (f < 32)
  | .ferryAbortOne f _ _ _ => decide (f < 32)
  | .ferryAbortAll f _ => decide (f < 32)
  | .berthApply b _ => decide (b < 4096)
  | .headerSlotReceive port pos _ _ => decide (port < 16) && decide (pos.length ≤ 4)
  | .linkSlotReceive port _ => decide (port < 16)
  | .readReceive port _ => decide (port < 16)
  | .writeReceive port _ _ => decide (port < 16)
  | .writeMaskedReceive port _ _ => decide (port < 16)
  | .readRespReceive _ _ => true
  | .writeAckReceive _ => true
  | .readTimeout _ => true
  | .writeTimeout _ => true
  | .portTrainingDone port _ _ _ => decide (port < 16)
  | .portTrainingTimeout port => decide (port < 16)
  | .laneSignalLoss port lane => decide (port < 16) && decide (lane < 8)
  | .retrainReqWrite port _ => decide (port < 16)
  | .retrainMessageReceive port _ _ => decide (port < 16)
  | .retrainComplete port _ _ => decide (port < 16)
  | .retrainTimeout port => decide (port < 16)
  | .lanesetReceive port _ _ => decide (port < 16)
  | .laneErrorWindow port lane _ _ => decide (port < 16) && decide (lane < 8)
  | .laneMoveDone port lane => decide (port < 16) && decide (lane < 8)
  | .emitterWorn n _ => decide (n < 160)
  | .emitterFail n => decide (n < 160)
  | .emitterRetuneDone n wl => decide (n < 160) && decide (wl < 10)
  | .portDisableWrite port _ => decide (port < 16)
  | .fabRegionApply r _ => decide (r < 1024)
  | .ctxCreate _ _ _ => true
  | .ctxSuspend _ _ _ => true
  | .ctxSuspendDone ctx => decide (ctx < 4096)
  | .ctxResume _ _ => true
  | .ctxCancel _ _ _ => true
  | .ctxCancelDone ctx => decide (ctx < 4096)
  | .ctxDestroy _ _ _ => true
  | .teardownStepDone ctx => decide (ctx < 4096)
  | .qCreate _ _ _ _ _ => true
  | .qCancel _ _ _ => true
  | .qCancelDone q => decide (q < 16384)
  | .qDestroy _ _ _ => true
  | .moAlloc _ _ _ _ _ _ => true
  | .moZeroingDone i => decide (i < 1048576)
  | .moAddref _ _ => true
  | .moRelease _ _ => true
  | .moQuery _ _ => true
  | .qDoorbellWrite q _ => decide (q < 16384)
  | .qCqHeadWrite q _ => decide (q < 16384)
  | .sqEntryFetch q entry holds => decide (q < 16384) && decide (entry.length = 64) && Machine.holdsOk entry holds
  | .sqeNop q => decide (q < 16384)
  | .sqeLaunch q => decide (q < 16384)
  | .sqeSegmul q _ => decide (q < 16384)
  | .sqeEngine q _ => decide (q < 16384)
  | .sqeBollardAdvance q => decide (q < 16384)
  | .sqeBarrier q => decide (q < 16384)
  | .sqeSignal q => decide (q < 16384)
  | .sqEntryComplete q idx => decide (q < 16384) && decide (idx < 65536)
  | .sumpRingWrite _ => true
  | .sumpHeadWrite _ => true
  | .busMasterDisable => true
  | .busMasterEnable => true
  | .d3hotEntry => true
  | .d0Return => true
  | .hostReadCompletion _ _ _ => true
  | .cxlCacheEnable => true
  | .snpData _ => true
  | .snpInv _ => true
  | .snpCur _ => true
  | .goReceive _ st data => decide (st < 4) && decide (data.length = 64)
  | .goWritepull _ => true
  | .goWritepullDrop _ => true
  | .goErr _ => true
  | .segApply c sg _ => decide (c < 4096) && decide (sg < 16)
  | .segFaultTimeout c sg => decide (c < 4096) && decide (sg < 16)
  | .keySlotWrite k _ => decide (k < 4096)
  | .keyGenDone k => decide (k < 4096)
  | .channelMapOut n => decide (n < 256)
  | .channelRestore n => decide (n < 256)
  | .channelMoveDone n => decide (n < 256)
  | .wrapperRequest m _ => decide (m < 8)
  | .wrapperDone m _ _ => decide (m < 8)
  | .bolValueWrite n _ => decide (n < 16384)
  | .bolNotifyWrite n _ _ => decide (n < 16384)
  | .vectorOp at_ _ => Machine.placeOk at_
  | .convertOp at_ _ => Machine.placeOk at_
  | .censusCount at_ census _ _ => decide (census < 65536) && Machine.placeOk at_
  | .maskkey at_ _ _ _ => Machine.placeOk at_
  | .maskword at_ _ _ _ _ => Machine.placeOk at_
  | .load at_ acc => Machine.widthOk acc.width && Machine.placeOk at_
  | .loadFill core _ => decide (core < 240)
  | .store at_ acc => Machine.widthOk acc.width && Machine.placeOk at_
  | .atomic at_ acc => Machine.widthOk acc.width && Machine.placeOk at_
  | .fenceRelease at_ _ => Machine.placeOk at_
  | .fenceAcquire at_ _ => Machine.placeOk at_
  | .fenceAcqRel at_ _ => Machine.placeOk at_
  | .fenceSc at_ _ => Machine.placeOk at_
  | .grottoWb at_ _ _ => Machine.placeOk at_
  | .grottoWbinv at_ _ _ => Machine.placeOk at_
  | .grottoInvClean at_ _ _ => Machine.placeOk at_
  | .constInvalidate at_ => Machine.placeOk at_
  | .descInvalidate at_ => Machine.placeOk at_
  | .branch at_ _ => Machine.placeOk at_
  | .join at_ _ => Machine.placeOk at_
  | .joinTimeout core slot lane => decide (core < 240) && decide (slot < 128) && decide (lane < 32)
  | .fragmentRotate core slot lane => decide (core < 240) && decide (slot < 128) && decide (lane < 32)
  | .blockBarrier at_ _ => Machine.placeOk at_
  | .exit at_ => Machine.placeOk at_
  | .halt at_ _ => Machine.placeOk at_
  | .tokenWait at_ entries => decide (entries.length ≤ 4) && entries.all (fun e => decide (e < 64)) && Machine.placeOk at_
  | .tokenPost at_ ferry gate waits => decide (ferry < 32) && decide (gate < 16) && decide (waits.length ≤ 4) && waits.all (fun e => decide (e < 64)) && Machine.placeOk at_
  | .tokenWatchdog _ => true
  | .bollardAdvance at_ _ _ scope => scope.wide && Machine.placeOk at_
  | .bollardAdvanceApply => true
  | .bollardWait at_ _ _ _ _ => Machine.placeOk at_
  | .bollardWaitTimeout core slot lane => decide (core < 240) && decide (slot < 128) && decide (lane < 32)
  | .bollardRead at_ _ _ _ => Machine.placeOk at_
  | .matrixOpIssue at_ iss array op => decide (array < 4) && decide (op.bank < 2) && Machine.issOk iss false && Machine.placeOk at_
  | .opBufferLeave _ => true
  | .arrayOpAccept core array => decide (core < 240) && decide (array < 4)
  | .arrayOpComplete core array _ _ => decide (core < 240) && decide (array < 4)
  | .segmulIssue at_ iss _ => Machine.issOk iss true && Machine.placeOk at_
  | .segmulTaskDispatch _ _ => true
  | .segmulTaskDone _ _ => true
  | .segmulComplete _ => true
  | .tenderCopy at_ iss unit _ => decide (unit < 8) && Machine.issOk iss true && Machine.placeOk at_
  | .tenderGather at_ iss unit _ => decide (unit < 8) && Machine.issOk iss true && Machine.placeOk at_
  | .tenderTranspose at_ iss unit _ => decide (unit < 8) && Machine.issOk iss true && Machine.placeOk at_
  | .tenderConvert at_ iss unit _ => decide (unit < 8) && Machine.issOk iss true && Machine.placeOk at_
  | .tenderReduce at_ iss unit _ => decide (unit < 8) && Machine.issOk iss true && Machine.placeOk at_
  | .tenderZero at_ iss unit _ => decide (unit < 8) && Machine.issOk iss true && Machine.placeOk at_
  | .tenderPrefetch at_ iss unit _ => decide (unit < 8) && Machine.issOk iss true && Machine.placeOk at_
  | .updateTake form => form.wf
  | .updateCommit form => form.wf
  | .dispatch form => form.wf
  | .combine form => form.wf
  | .engineJobComplete unit => (unit / 4096 == 8 && decide (unit % 4096 < 32)) || ((unit / 4096 == 9 || unit / 4096 == 10) && decide (unit % 4096 < 8))
  | .routineIssue at_ iss job => Machine.issOk iss false && job.body.all Machine.stepOk && Machine.placeOk at_
  | .attnFwd core => decide (core < 240)
  | .attnBwdQ core => decide (core < 240)
  | .attnBwdKv core => decide (core < 240)
  | .routineComplete core => decide (core < 240)
  | .routineMaxCycles core => decide (core < 240)
  | .blockPlace _ _ core => decide (core < 240)
  | .coreBind core => decide (core < 240)
  | .bindZeroDone core => decide (core < 240)
  | .bindQuantumExpire core ctx => decide (core < 240) && decide (ctx < 4096)
  | .sliceScrub slice set _ => decide (slice < 256) && decide (set < 15360)
  | .sliceEccError slice kind _ => decide (slice < 256) && decide (kind < 6)
  | .grottoParityError core _ _ => decide (core < 240)
  | .rocacheParityError core kind _ => decide (core < 240) && decide (kind < 3)
  | .hotspotWindow _ _ => true
  | .sliceDrainDone n => decide (n < 256)
  | .sliceJoin n => decide (n < 256)
  | .dramScrub _ _ => true
  | .dramUncorrectable _ => true
  | .channelFail n => decide (n < 256)
  | .dpuCheckFail pcore place dpu _ => decide (pcore < 256) && decide (place.array < 4) && decide (dpu < 33)
  | .arrayParityFail pcore place => decide (pcore < 256) && decide (place.array < 4)
  | .coreCheckFail pcore _ => decide (pcore < 256)
  | .coreHeartbeatTimeout pcore => decide (pcore < 256)
  | .tenderFail u => decide (u < 32)
  | .updateEngineFail u => decide (u < 8)
  | .dispatchEngineFail u => decide (u < 8)
  | .ferryFail u => decide (u < 32)
  | .packageAgentFail u => decide (u < 4)
  | .d2dLaneFail edge module _ => decide (edge < 4) && decide (module < 40)
  | .regulatorPhaseFault dom phase => decide (dom < 40) && decide (phase < 15)
  | .ftTest _ _ _ => true
  | .ftReplace _ _ => true
  | .ftBypass _ _ => true
  | .ftReturn _ _ => true
  | .ftQuery _ _ => true
  | .ftCommandDone _ _ _ => true
  | .portTrainingStart port => decide (port < 16)
  | .cxlCacheDisable => true
  | .qDestroyDone q => decide (q < 16384)
  | .jtagAccess => true
  | .i3cDynamicAddress addr => decide (addr < 128)
  | .spareBistDone dom => decide (dom < 40)

end Sys2Proof
end

