-- ==== Sys2Proof/Certificates/Slice0/Obligations.lean ====
section
/-! DEFINITION. The statements for the provers. Each docstring names the rule of spec/ that a statement formalises, or says which
choice of the model it rests on. -/

namespace Sys2Proof.Claims

end Sys2Proof.Claims

open Sys2Proof Sys2Proof.Machine Sys2Proof.Claims

/-- Every step keeps the canonical stores and the bounds of the hold store and the fault histories. -/
def Obligations.EveryStepKeepsCanonicalStores : Prop :=
  ∀ s t : State, Inv s → Machine.step s = .next t → Inv t

/-- The state after reset has the invariant of the stores. -/
def Obligations.ResetHasCanonicalStores : Prop :=
  Inv State.reset

/-- A step runs the front command on the state with the rest of the queue; on an empty queue time passes (the model's choice, log 1). -/
def Obligations.StepRunsFrontCommand : Prop :=
  (∀ (c : Instr) (cs : List Instr) (s : State), Machine.step { s with pending := c :: cs } = exec c { s with pending := cs })
    ∧ (∀ (c : Instr) (s t : State), exec c s = .next t → t.pending = s.pending)
    ∧ ∀ s : State, s.pending = [] → ∃ t, Machine.step s = .next t ∧ t.pending = [] ∧ t.ns = s.ns + 1
        ∧ (s.eng.jobs.all (fun j => !j.started) = true → s.eng.seg.all (fun m => m.tasks.isEmpty) = true → t = { s with ns := s.ns + 1 })

/-- A well-formed command answers a next state in every state. -/
def Obligations.WellFormedCommandsAnswer : Prop :=
  ∀ (c : Instr) (s : State), c.wf = true → Gives c s (fun _ => True)

namespace Sys2Proof.Claims

/-- Registers whose write does more than store their fields; statements of their own speak of each. -/
def setsOff (r : RegId) (w : Nat) : Bool :=
  [RegId.hmCtxGrant, .bolValue, .bolCtrl, .bolNotify, .dramChanCtrl, .dram1500Ctrl, .dramRegCfg, .segAttr, .keySlot, .tideCtrl, .ferryCtrl,
    .ferryAbort, .fabPortCtrl, .hostCmd, .qCqHead, .qDoorbell, .sumpRing, .sumpHead, .pwrDomCtrl, .pwrPstate, .ftCmd].contains r
    || (r == .berth && w == 1) || (r == .fabRegion && w == 3)

/-- `o` and `o + 4` are the halves of word `w` of instance (i, j) of a 64-bit register. -/
structure Halves (r : RegId) (i j w o : Nat) : Prop where
  aligned : o % 8 = 0
  wide : r.desc.is32 = false
  lower : regAt o = some ⟨r, i, j, w, false⟩
  upper : regAt (o + 4) = some ⟨r, i, j, w, true⟩
  msix : inMsix o = false ∧ inMsix (o + 4) = false
  pba : inPba o = false ∧ inPba (o + 4) = false

/-- `o` is the place of instance (i, j) of a 32-bit register. -/
structure Dword (r : RegId) (i j o : Nat) : Prop where
  aligned : o % 4 = 0
  narrow : r.desc.is32 = true
  place : regAt o = some ⟨r, i, j, 0, false⟩
  msix : inMsix o = false
  pba : inPba o = false

/-- Bit `b` of a word after a host write of `v`, from its value `x` before (R9, R12, R13, R14). -/
def bitStored (r : RegId) (w v : Nat) (x : Bool) (b : Nat) : Bool :=
  match r.desc.fields.find? (fun f => f.lo / 64 == w && decide (f.lo % 64 ≤ b) && decide (b ≤ f.hi % 64)) with
  | none => x
  | some f =>
    match f.acc with
    | .rw => if encodingOk r f.lo (bitsOf v (f.hi % 64) (f.lo % 64)) then v.testBit b else x
    | .w1c => x && !v.testBit b
    | _ => x

/-- One word of one register instance written, bit by bit as `bitStored` says, and nothing else. -/
def WordStored (r : RegId) (i j w v : Nat) (parts : List Part) (s t : State) : Prop :=
  (∀ b, b < 64 → (t.word r i j w).testBit b = bitStored r w v ((s.word r i j w).testBit b) b)
    ∧ (∀ i' j' w', (i', j', w') ≠ (i, j, w) → t.word r i' j' w' = s.word r i' j' w') ∧ Only parts [r] s t

end Sys2Proof.Claims

/-- A host write stores the writable fields of its register word and nothing else. -/
def Obligations.RegWriteStoresFields : Prop :=
  ∀ (r : RegId) (i j w o v : Nat) (s : State), s.hl.d3 = false → setsOff r w = false →
    (Dword r i j o → w = 0 → Gives (.regWrite o 4 v) s (WordStored r i j w (v % 2 ^ 32) [] s))
    ∧ (Halves r i j w o → Gives (.regWrite o 8 v) s (fun t =>
        WordStored r i j w (v % 2 ^ 64) [.acc] s t ∧ t.acc.latch = s.acc.latch ∧ t.acc.held = smapErase s.acc.held o))

/-- An access of BAR0 of another size or alignment is discarded, or reads all ones. -/
def Obligations.BadSizesAreDiscarded : Prop :=
  ∀ (who o size v : Nat) (s : State), s.hl.d3 = false → ¬(size = 4 ∧ o % 4 = 0) → ¬(size = 8 ∧ o % 8 = 0) →
    exec (.regWrite o size v) s = .next s
    ∧ Gives (.regReadLowerLatch who o size) s (fun t =>
        t.out.reads = s.out.reads ++ [(who, 2 ^ (32 * cdiv size 4) - 1)] ∧ Only [.out] [] s t)

/-- A 64-bit register written as two 32-bit writes takes both halves together at the second. -/
def Obligations.SplitWriteActsAsOneWrite : Prop :=
  ∀ (r : RegId) (i j w o lo lo' hi : Nat) (s : State), Halves r i j w o → s.hl.d3 = false →
    Gives (.regWrite o 4 lo) s (fun t =>
      t.acc.latch = s.acc.latch ∧ Only [.acc] [] s t
      ∧ exec (.regWrite o 4 lo') t = exec (.regWrite o 4 lo') s
      ∧ exec (.regWrite (o + 4) 4 hi) t = exec (.regWrite o 8 (lo % 2 ^ 32 + hi % 2 ^ 32 * 2 ^ 32)) s)
    ∧ (smapFind s.acc.held o = none →
      exec (.regWrite (o + 4) 4 hi) s = exec (.regWrite o 8 (s.word r i j w % 2 ^ 32 + hi % 2 ^ 32 * 2 ^ 32)) s)

/-- The read of a lower half latches the upper half for the same requester. -/
def Obligations.LowerHalfReadLatchesUpper : Prop :=
  ∀ (r : RegId) (i j w o who : Nat) (s : State), Halves r i j w o → s.hl.d3 = false →
    Gives (.regReadLowerLatch who o 4) s (fun t =>
      t.out.reads = s.out.reads ++ [(who, readWord s ⟨r, i, j, w, false⟩ % 2 ^ 32)] ∧ Only [.acc, .out] [] s t
      ∧ ∀ u : State, u.acc.latch = t.acc.latch → u.hl.d3 = false → Gives (.regReadLowerLatch who (o + 4) 4) u (fun v =>
          v.out.reads = u.out.reads ++ [(who, readWord s ⟨r, i, j, w, false⟩ / 2 ^ 32 % 2 ^ 32)] ∧ Only [.acc, .out] [] u v
          ∧ v.acc.latch.find? (fun l => l.1 == (who, o)) = none))

/-- An aligned access where no register is defined reads 0 and its write is discarded. -/
def Obligations.NoRegisterReadsZero : Prop :=
  ∀ (who o v : Nat) (s : State), s.hl.d3 = false → inMsix o = false → inPba o = false → regAt o = none →
    (o % 4 = 0 → exec (.regWrite o 4 v) s = .next s
      ∧ Gives (.regReadLowerLatch who o 4) s (fun t => t.out.reads = s.out.reads ++ [(who, 0)] ∧ Only [.out] [] s t))
    ∧ (o % 8 = 0 → inMsix (o + 4) = false → inPba (o + 4) = false → regAt (o + 4) = none → exec (.regWrite o 8 v) s = .next s
      ∧ Gives (.regReadLowerLatch who o 8) s (fun t => t.out.reads = s.out.reads ++ [(who, 0)] ∧ Only [.out] [] s t))

/-- A write of HM_CTX_GRANT_n whose run of cores passes core 239 keeps the whole register. -/
def Obligations.GrantOverflowKeepsRegister : Prop :=
  ∀ (n o v : Nat) (s : State), s.hl.d3 = false → Dword .hmCtxGrant n 0 o →
    (240 < bitsOf v 7 0 + bitsOf v 15 8 → exec (.regWrite o 4 v) s = .next s)
    ∧ (bitsOf v 7 0 + bitsOf v 15 8 ≤ 240 → Gives (.regWrite o 4 v) s (fun t =>
        t.get F.hmCtxGrant_FIRST_CORE n = bitsOf v 7 0 ∧ t.get F.hmCtxGrant_CORE_COUNT n = bitsOf v 15 8
        ∧ t.get F.hmCtxGrant_PRIORITY n = bitsOf v 17 16 ∧ (∀ m, m ≠ n → t.word .hmCtxGrant m 0 0 = s.word .hmCtxGrant m 0 0)
        ∧ Only [] [.hmCtxGrant] s t))

/-- The registers of Tables 1.7 to 1.9 read all ones until the spare-assignment map is loaded. -/
def Obligations.MapRegistersReadOnesBeforeTheMap : Prop :=
  ∀ (r : RegId) (i j w o who : Nat) (s : State), s.hl.d3 = false → r ∈ [RegId.idDevice, .idCoreMap, .idSliceMap] →
    (Halves r i j w o →
      Gives (.regReadLowerLatch who o 8) s (fun t => t.out.reads = s.out.reads ++
          [(who, if s.boot.bistDone then s.word r i j w else 2 ^ 64 - 1)] ∧ Only [.out] [] s t)
      ∧ Gives (.regReadLowerLatch who o 4) s (fun t => t.out.reads = s.out.reads ++
          [(who, if s.boot.bistDone then s.word r i j w % 2 ^ 32 else 2 ^ 32 - 1)] ∧ Only [.acc, .out] [] s t))
    ∧ (Dword r i j o → Gives (.regReadLowerLatch who o 4) s (fun t => t.out.reads = s.out.reads ++
          [(who, if s.boot.bistDone then s.word r i j 0 % 2 ^ 32 else 2 ^ 32 - 1)] ∧ Only [.out] [] s t))

namespace Sys2Proof.Claims

/-- The commands that are host writes of BAR0 registers, of a unit that exists. -/
def Bar0Write : Instr → Prop
  | .regWrite _ _ _ | .sumpRingWrite _ | .sumpHeadWrite _ | .tideLocalWrite _ => True
  | .ctxCreate _ _ _ | .ctxSuspend _ _ _ | .ctxResume _ _ | .ctxCancel _ _ _ | .ctxDestroy _ _ _ => True
  | .qCreate _ _ _ _ _ | .qCancel _ _ _ | .qDestroy _ _ _ => True
  | .moAlloc _ _ _ _ _ _ | .moAddref _ _ | .moRelease _ _ | .moQuery _ _ => True
  | .ftTest _ _ _ | .ftReplace _ _ | .ftBypass _ _ | .ftReturn _ _ | .ftQuery _ _ => True
  | .domainCmdOn d _ _ _ _ | .domainCmdClockGated d _ _ _ _ | .domainCmdRetain d _ _ _ _ | .domainCmdOff d _ _ _ _ => d < 40
  | .pstateCmd p _ _ _ _ => p < 4
  | .bolValueWrite n _ | .bolNotifyWrite n _ _ => n < 16384
  | .qDoorbellWrite q _ | .qCqHeadWrite q _ => q < 16384
  | .segApply c sg _ => c < 4096 ∧ sg < 16
  | .keySlotWrite k _ => k < 4096
  | .channelMapOut n | .channelRestore n => n < 256
  | .wrapperRequest m _ => m < 8
  | .fabRegionApply r _ => r < 1024
  | .berthApply b _ => b < 4096
  | .ferryRun f | .ferryStop f | .ferryAbortOne f _ _ _ | .ferryAbortAll f _ => f < 32
  | .portDisableWrite p _ | .retrainReqWrite p _ => p < 16
  | _ => False

end Sys2Proof.Claims

/-- In D3hot no access of BAR0 has an effect. -/
def Obligations.HotStateServesNoAccess : Prop :=
  ∀ (who o size v : Nat) (s : State), s.hl.d3 = true →
    exec (.regWrite o size v) s = .next s ∧ exec (.regReadLowerLatch who o size) s = .next s
    ∧ ∀ i, Bar0Write i → exec i s = .next s

namespace Sys2Proof.Claims

/-- Registers that the first steps of a start write: domains, ports, the start's own status, and what a record leaves. -/
def startupRegs : List RegId :=
  [.pwrDomStatus, .fabPortStatus, .fabNode, .lkBootStatus, .lkSoftstart, .faultStatus, .faultCount, .evt, .sumpTail, .sumpHold]

/-- A record of the block stands in host memory's ring, or in the hold store, or the hold store has overflowed (R443). -/
def Delivered (r : SumpRec) (t : State) : Prop :=
  (∃ p ∈ t.out.posted, p.bytes = r.bytes) ∨ { r with flags := r.flags ||| 2 } ∈ t.flt.hold ∨ t.isSet F.sumpHold_OVERFLOW = true

/-- Registers that posting a record writes, and its parts of the state. -/
def recordRegs : List RegId := [.evt, .sumpTail, .sumpHold, .rbStatus, .faultStatus, .faultCount]
def recordParts : List Part := [.hl, .bank, .flt, .out]

/-- Every register outside the retained bank and apart from `but` is at its reset value. -/
def AtReset (but : List RegId) (t : State) : Prop :=
  ∀ r : RegId, r.inBank = false → r ∉ but → ∀ i j w, t.word r i j w = (BitVec.ofNat 64 (r.resetWord i w)).toNat

/-- What every cold start leaves: stage 1 with D39 ramping, the board's and the flash's contents, DRAM of a new epoch, the tide at reset. -/
structure ColdStarted (s t : State) : Prop where
  regs : AtReset startupRegs t
  stage : t.get F.lkBootStatus_STAGE = 1
  ramping : t.pwr.ramping = [39]
  standby : t.boot.standby = true
  flash : t.boot.flash = s.boot.flash
  mirror : t.boot.mirror = s.boot.mirror
  fuses : t.boot.otpMin = s.boot.otpMin
  tide : t.tide = State.reset.tide
  dram : t.mem.dram = [] ∧ t.mem.epoch = s.mem.epoch + 1
  work : t.run = State.reset.run ∧ t.eng = State.reset.eng ∧ t.core = State.reset.core ∧ t.sail = State.reset.sail ∧ t.fab = State.reset.fab

/-- The retained bank after the ROM's check (R476): kept where its CRC is right; else the best mirror copy; else the defaults. -/
def BankChecked (bankOk : Bool) (s t : State) : Prop :=
  if bankOk then
    t.get F.rbStatus_STATE = 0 ∧ t.bank.coreMap = s.bank.coreMap ∧ t.bank.sliceMap = s.bank.sliceMap ∧ t.bank.out = s.bank.out
      ∧ t.bank.hist = s.bank.hist ∧ t.get F.rbBoot_BOOT_COUNT = (s.get F.rbBoot_BOOT_COUNT + 1) % 2 ^ 32
  else
    match bestCopy s.boot.mirror with
    | some b => t.get F.rbStatus_STATE = 1 ∧ t.bank.coreMap = b.coreMap ∧ t.bank.sliceMap = b.sliceMap ∧ t.bank.out = b.out
    | none => t.get F.rbStatus_STATE = 2 ∧ t.bank.coreMap = [] ∧ t.bank.sliceMap = [] ∧ t.bank.out = []

end Sys2Proof.Claims

/-- COLD_RESET and MODULE_RESET_COLD reset every register outside the bank and begin a start. -/
def Obligations.ColdResetsStartTheBlock : Prop :=
  ∀ (bankOk : Bool) (s : State),
    Gives (.coldReset bankOk) s (fun t => ColdStarted s t ∧ BankChecked bankOk s t)
    ∧ (s.boot.standby = true → Gives (.moduleResetCold bankOk) s (fun t =>
        ColdStarted s t ∧ BankChecked bankOk s t ∧ t.boot.dyn = s.boot.dyn ∧ t.boot.eff = 3 ∧ t.out.mgmt = s.out.mgmt ++ [.accepted]))

namespace Sys2Proof.Claims

/-- What a warm reset leaves (R464), from a state in which an image may be tried or D39 is off. -/
structure WarmStarted (s t : State) : Prop where
  warm : ∀ r : RegId, r.inBank = false → r.desc.dom ≠ .cold → r ∉ startupRegs → ∀ i j w, t.word r i j w = (BitVec.ofNat 64 (r.resetWord i w)).toNat
  cold : ∀ r : RegId, r.desc.dom = .cold → r ∉ startupRegs → r ≠ .rbStatus → r ≠ .rbBoot → ∀ i j w, t.word r i j w = s.word r i j w
  stage : t.get F.lkBootStatus_STAGE = 1
  hold : t.flt.hold = s.flt.hold
  bank : t.bank.hist = s.bank.hist ∧ t.bank.coreMap = s.bank.coreMap ∧ t.get F.rbBoot_BOOT_COUNT = (s.get F.rbBoot_BOOT_COUNT + 1) % 2 ^ 32
  off : ∀ d, d < 39 → t.domState d = 3
  d39 : t.domState 39 = s.domState 39
  dram : t.mem.dram = [] ∧ t.mem.epoch = s.mem.epoch + 1 ∧ t.mem.cavern = []
  work : t.run = State.reset.run ∧ t.eng = State.reset.eng ∧ t.core = State.reset.core

/-- Whether a start has an image to try, or its domain D39 has yet to ramp. -/
def startGoesOn (s : State) : Prop := s.domState 39 ≠ 0 ∨ (imgToTry s).isSome = true

end Sys2Proof.Claims

/-- WARM_RESET and MODULE_RESET_WARM keep the cold registers, the hold store and the bank, and begin a start. -/
def Obligations.WarmResetsKeepTheColdRegisters : Prop :=
  ∀ s : State, s.boot.standby = true →
    (startGoesOn s → Gives .warmReset s (fun t => WarmStarted s t ∧ t.boot.perst = true ∧ t.out = s.out)
      ∧ Gives .moduleResetWarm s (fun t => WarmStarted s t ∧ t.boot.perst = s.boot.perst ∧ t.boot.eff = 2
          ∧ t.out.mgmt = s.out.mgmt ++ [.accepted]))
    ∧ (¬startGoesOn s → Gives .warmReset s (fun t => t.get F.lkBootStatus_STAGE = 7 ∧ t.get F.lkBootStatus_STOP_CODE = 1))

/-- STANDBY_LOSS loses all but the retained bank, the flash, the mirror copies and the fuses. -/
def Obligations.StandbyLossKeepsBankAndFlash : Prop :=
  ∀ s : State, Gives .standbyLoss s (fun t =>
    t.boot.standby = false ∧ AtReset [.pwrDomStatus, .fabPortStatus, .fabNode] t ∧ (∀ d, d < 40 → t.domState d = 3)
    ∧ t.bank = s.bank ∧ t.boot.flash = s.boot.flash ∧ t.boot.mirror = s.boot.mirror ∧ t.boot.otpMin = s.boot.otpMin
    ∧ t.flt.hold = [] ∧ t.tide = State.reset.tide ∧ t.out = s.out)

namespace Sys2Proof.Claims

/-- Registers a function reset writes beside its own domain's: what its ends, write-backs and records leave. -/
def functionResetRegs : List RegId :=
  [.coreHaltA, .coreHaltB, .coreHaltC, .coreHaltD, .coreGrottoStatus, .coreGrottoWb, .cavClassHits, .cavClassMisses, .cavClassNofill,
    .cavSliceStatus, .dramRegBytes, .dramRegThrottled, .engStatus, .fabNode, .hostStatus, .cap, .evt, .sumpTail, .sumpHold, .rbStatus,
    .pwrDomStatus, .faultStatus, .faultCount, .coreBinding, .bolValue, .bolCtrl, .segFault, .ferryCtrl, .ferryStatus, .ferryExc,
    .berthStatus, .coreAdapterHolds, .ctxState, .qStatus]

end Sys2Proof.Claims

/-- FUNCTION_RESET returns the function's registers to reset and removes its work; FLR_COMPLETE makes it READY again. -/
def Obligations.FunctionResetClearsTheFunction : Prop :=
  (∀ s : State, Gives .functionReset s (fun t =>
      (∀ r : RegId, r.desc.dom = .function → r ∉ [RegId.engStatus, .hostStatus, .cap] → ∀ i j w,
          t.word r i j w = (BitVec.ofNat 64 (r.resetWord i w)).toNat)
      ∧ (∀ r : RegId, r.desc.dom ≠ .function → r ∉ functionResetRegs → ∀ i j w, t.word r i j w = s.word r i j w)
      ∧ (∀ k, k < 4096 → s.word .keySlot k 0 0 ≠ 0 → keyGenOf t (k + 1) = 1) ∧ t.obj.q = [] ∧ t.obj.mo = [] ∧ t.obj.ctx = [] ∧ t.run = State.reset.run ∧ t.eng.jobs = [] ∧ t.sail = State.reset.sail
      ∧ t.hl.reads = [] ∧ t.hl.flr = true ∧ t.hl.d3 = false ∧ t.boot = s.boot))
    ∧ ∀ s : State, s.hl.flr = true → Gives .flrComplete s (fun t =>
      t.isSet F.hostStatus_READY = true ∧ t.isSet F.fabNode_READY = true ∧ t.hl.flr = false
      ∧ Delivered (newRecord s 0xD003 none 0 0x0D03 0) t ∧ Only recordParts (.fabNode :: .hostStatus :: recordRegs) s t)

/-- MAIN_INPUT_GOOD and PERST_DEASSERT: stage 2 is left once the input is good and PERST# is deasserted. -/
def Obligations.BoardInputsMoveTheStart : Prop :=
  ∀ s : State,
    Gives .mainInputGood s (fun t => t.boot.vinGood = true ∧ t.boot.perst = s.boot.perst ∧ Only [.pwr, .boot] [.lkBootStatus] s t
      ∧ (stage s = 2 ∧ s.boot.perst = false → stage t = 3 ∧ (s.pwr.wakeQ = [] → s.pwr.win = [] →
          t.pwr.win = [0, 1, 2] ∧ t.pwr.wakeQ = (List.range 39).drop 3))
      ∧ (¬(stage s = 2 ∧ s.boot.perst = false) → stage t = stage s ∧ t.pwr = s.pwr))
    ∧ Gives .perstDeassert s (fun t => t.boot.perst = false ∧ t.boot.vinGood = s.boot.vinGood ∧ Only [.pwr, .boot] [.lkBootStatus] s t
      ∧ (stage s = 2 ∧ s.boot.vinGood = true → stage t = 3 ∧ (s.pwr.wakeQ = [] → s.pwr.win = [] →
          t.pwr.win = [0, 1, 2] ∧ t.pwr.wakeQ = (List.range 39).drop 3))
      ∧ (¬(stage s = 2 ∧ s.boot.vinGood = true) → stage t = stage s ∧ t.pwr = s.pwr))

namespace Sys2Proof.Claims

/-- What a device-fatal event of power control does the first time since the start (R494, R497, R506, R469): its mark is set; in stage 6 the
part is FATAL and not READY, before it the start stops with code 0x07. -/
structure FatalTaken (bit : Nat) (s t : State) : Prop where
  mark : t.pwr.fatals.testBit bit = true
  running : stage s = 6 → t.isSet F.faultStatus_FATAL = true ∧ t.isSet F.hostStatus_READY = false
  starting : stage s < 6 → stage t = 7 ∧ t.get F.lkBootStatus_STOP_CODE = 7

end Sys2Proof.Claims

/-- An undervoltage lockout, a low input and a hard thermal trip are device-fatal. -/
def Obligations.SupplyFailuresAreDeviceFatal : Prop :=
  ∀ s : State,
    (s.boot.vinGood = true → ∀ vinMv : Nat,
      Gives (.undervoltageLockout vinMv) s (fun t => t.boot.vinGood = false ∧ t.isSet F.hostStatus_BME = false
        ∧ (stage s = 6 → ∀ d, d < 39 → t.domState d = 3) ∧ (s.pwr.fatals.testBit 0 = false → FatalTaken 0 s t))
      ∧ (s.pwr.fatals.testBit 0 = false → Gives (.inputLowTimeout vinMv) s (fun t => t.boot.vinGood = true ∧ FatalTaken 0 s t))
      ∧ (s.pwr.fatals.testBit 0 = true → exec (.inputLowTimeout vinMv) s = .next s))
    ∧ ∀ tile tempC : Nat, tile < 4 → Gives (.hardThermalTrip tile tempC) s (fun t =>
        t.flt.therm = true ∧ t.isSet F.hostStatus_BME = false ∧ (stage s = 6 → ∀ d, d < 39 → t.domState d = 3)
        ∧ (s.pwr.fatals.testBit 1 = false → FatalTaken 1 s t))

/-- Management requests answer while standby power is present, and change what they name. -/
def Obligations.ManagementPortAnswers : Prop :=
  ∀ s : State, s.boot.standby = true →
    Gives .getStateEffecterStates s (fun t => t.out.mgmt = s.out.mgmt ++ [.effecter s.boot.eff] ∧ Only [.out] [] s t)
    ∧ Gives .getStateSensorReadings s (fun t =>
        t.out.mgmt = s.out.mgmt ++ [.sensor (s.get F.lkBootStatus_STOP_CODE)] ∧ Only [.out] [] s t)
    ∧ Gives .getStatus s (fun t => t.out.mgmt = s.out.mgmt ++ [.fwStatus s.boot.fw.code] ∧ Only [.out] [] s t)
    ∧ Gives .jtagAccess s (fun t =>
        t.out.mgmt = s.out.mgmt ++ [.jtagId (s.get F.idDevice_PART) (s.get F.idDevice_STEPPING)] ∧ Only [.out] [] s t)
    ∧ (∀ img : Nat, img < 2 → Gives (.setPreferred img) s (fun t =>
        t.get F.rbBoot_PREFERRED = img ∧ t.get F.rbStatus_SEQUENCE = (s.get F.rbStatus_SEQUENCE + 1) % 2 ^ 32
        ∧ t.out.mgmt = s.out.mgmt ++ [.accepted] ∧ Only [.out] [.rbBoot, .rbStatus, .lkBootStatus] s t))
    ∧ Gives .clearFaultHistory s (fun t =>
        t.bank.hist = [] ∧ t.get F.rbStatus_SEQUENCE = (s.get F.rbStatus_SEQUENCE + 1) % 2 ^ 32
        ∧ t.out.mgmt = s.out.mgmt ++ [.accepted] ∧ Only [.bank, .out] [.rbStatus] s t)
    ∧ Gives .clearSoftstartSticky s (fun t =>
        t.get F.rbSoftstartSticky_EVER_LATCHED = 0 ∧ t.get F.rbStatus_SEQUENCE = (s.get F.rbStatus_SEQUENCE + 1) % 2 ^ 32
        ∧ t.out.mgmt = s.out.mgmt ++ [.accepted] ∧ Only [.out] [.rbSoftstartSticky, .rbStatus] s t)
    ∧ ∀ addr : Nat, addr < 128 → Gives (.i3cDynamicAddress addr) s (fun t => t.boot.dyn = some addr ∧ Only [.boot] [] s t)

/-- The firmware update moves through its states, writes the slot and changes PREFERRED at its end. -/
def Obligations.FirmwareUpdateFollowsItsStates : Prop :=
  ∀ s : State, s.boot.standby = true →
    (s.boot.fw = .idle → 6 ≤ stage s → Gives .requestUpdate s (fun t =>
      t.boot.fw = .learn ∧ t.out.mgmt = s.out.mgmt ++ [.accepted] ∧ Only [.boot, .out] [] s t))
    ∧ (∀ slot : Nat, slot < 2 → s.boot.img ≠ some slot →
      (s.boot.fw = .learn → Gives (.passComponentTable slot) s (fun t => t.boot.fw = .ready ∧ t.boot.fwSlot = slot ∧ Only [.boot, .out] [] s t))
      ∧ (s.boot.fw = .ready → s.boot.fwSlot = slot → Gives (.updateComponent slot) s (fun t =>
          t.boot.fw = .download ∧ t.boot.fwGot = 0 ∧ Only [.boot, .out] [] s t)))
    ∧ (∀ (off : Nat) (data : List Byte), s.boot.fw = .download → off + data.length ≤ slotSize → Gives (.requestFirmwareData off data) s (fun t =>
      (∀ k, flashByte t k = if slotBase s.boot.fwSlot + off ≤ k ∧ k < slotBase s.boot.fwSlot + off + data.length
        then nthD data (k - (slotBase s.boot.fwSlot + off)) 0 else flashByte s k)
      ∧ t.boot.fwGot = s.boot.fwGot + data.length ∧ t.boot.fw = .download ∧ Only [.boot, .out] [] s t))
    ∧ (s.boot.fw = .download → Gives .transferComplete s (fun t => t.boot.fw = .verify ∧ Only [.boot, .out] [] s t))
    ∧ (∀ keyOk sigOk : Bool, s.boot.fw = .verify → s.boot.fwSlot < 2 →
      (imgFault s s.boot.fwSlot keyOk sigOk = none → Gives (.verifyComplete keyOk sigOk) s (fun t =>
        t.boot.fw = .apply ∧ imgBad t s.boot.fwSlot = false ∧ attempts t s.boot.fwSlot = 0 ∧ Only [.boot, .out] [.rbBoot, .rbStatus] s t))
      ∧ (imgFault s s.boot.fwSlot keyOk sigOk ≠ none → Gives (.verifyComplete keyOk sigOk) s (fun t =>
        t.boot.fw = .ready ∧ t.out.mgmt = s.out.mgmt ++ [.refused] ∧ Only [.boot, .out] [] s t)))
    ∧ (s.boot.fw = .apply → Gives .applyComplete s (fun t => t.boot.fw = .activate ∧ Only [.boot, .out] [] s t))
    ∧ (s.boot.fw = .activate → s.boot.fwSlot < 2 → Gives .activateFirmware s (fun t =>
      t.boot.fw = .idle ∧ t.get F.rbBoot_PREFERRED = s.boot.fwSlot ∧ Only [.boot, .out] [.rbBoot, .rbStatus, .lkBootStatus] s t))
    ∧ (s.boot.fw ≠ .idle → Gives .cancelUpdate s (fun t => t.boot.fw = .idle ∧ Only [.boot, .out] [] s t))

/-- IMAGE_LOAD_DONE loads a valid image or marks an invalid one BAD; the watchdog restarts a silent start. -/
def Obligations.ImageIsJudgedAndLoaded : Prop :=
  ∀ (s : State) (keyOk sigOk : Bool), stage s = 1 → s.domState 39 = 0 →
    (∀ img : Nat, imgToTry s = some img → imgFault s img keyOk sigOk = none → Gives (.imageLoadDone keyOk sigOk) s (fun t =>
      t.boot.img = some img ∧ t.boot.cfg = imgConfig s img ∧ attempts t img = min (attempts s img + 1) 3
      ∧ (3 ≤ attempts s img + 1 → imgBad t img = true)
      ∧ t.get F.lkImageInfo_SEC_VERSION = imgAt s img 0xC 2 ∧ t.get F.lkImageInfo_BUILD = imgAt s img 0x10 4
      ∧ stage t = (if s.boot.vinGood ∧ !s.boot.perst then 3 else 2) ∧ Only [.pwr, .boot] [.lkBootStatus, .lkImageInfo, .rbStatus, .rbBoot] s t))
    ∧ (∀ img k : Nat, imgToTry s = some img → imgFault s img keyOk sigOk = some k → imgBad s (1 - img) = false →
      Gives (.imageLoadDone keyOk sigOk) s (fun t =>
        imgBad t img = true ∧ stage t = 1 ∧ Delivered (newRecord s 0xD006 none 0 0x0E01 (extra2 img k)) t
        ∧ Only recordParts (.rbBoot :: recordRegs) s t))

/-- FIRMWARE_WATCHDOG between loading and READY begins another start and keeps stop code 0x06. -/
def Obligations.FirmwareWatchdogBeginsAnotherStart : Prop :=
  ∀ (s : State) (n : Nat), stage s = n → 2 ≤ n → n ≤ 5 → s.boot.img.isSome = true → s.domState 39 = 0 → (imgToTry s).isSome = true →
    Gives .firmwareWatchdog s (fun t =>
      stage t = 1 ∧ t.get F.lkBootStatus_STOP_CODE = 6 ∧ (∀ d, d < 39 → t.domState d = 3) ∧ t.domState 39 = 0
      ∧ t.get F.rbBoot_BOOT_COUNT = (s.get F.rbBoot_BOOT_COUNT + 1) % 2 ^ 32 ∧ t.get F.rbBoot_A_ATTEMPTS = s.get F.rbBoot_A_ATTEMPTS
      ∧ t.get F.rbBoot_B_ATTEMPTS = s.get F.rbBoot_B_ATTEMPTS ∧ t.run = State.reset.run ∧ t.boot.img = none)

/-- A ramp of a start puts its domain in service or latches it off; retries and map-outs follow. -/
def Obligations.SoftStartRampsAndLatches : Prop :=
  ∀ (s : State) (d : Nat), d < 39 → 3 ≤ stage s → stage s ≤ 5 →
    (s.pwr.ramping.contains d = true →
      Gives (.domainRampEnd d true) s (fun t => t.domState d = 0 ∧ t.pwr.ramping.contains d = false)
      ∧ (smapGet s.boot.latched 0 d < 2 →
        Gives (.domainRampEnd d false) s (fun t => t.domState d = 3 ∧ (t.get F.lkSoftstart_LATCHED).testBit d = true
          ∧ (t.get F.rbSoftstartSticky_EVER_LATCHED).testBit d = true ∧ smapGet t.boot.latched 0 d = smapGet s.boot.latched 0 d + 1)
        ∧ Gives (.currentLimitTimeout d) s (fun t => t.domState d = 3 ∧ (t.get F.lkSoftstart_LATCHED).testBit d = true
          ∧ (t.get F.rbSoftstartSticky_EVER_LATCHED).testBit d = true ∧ smapGet t.boot.latched 0 d = smapGet s.boot.latched 0 d + 1)))
    ∧ (awaitsRetry s d = true →
      Gives (.softStartRetry d true) s (fun t => t.domState d = 0)
      ∧ (smapGet s.boot.latched 0 d = 1 → Gives (.softStartRetry d false) s (fun t =>
          t.domState d = 3 ∧ smapGet t.boot.latched 0 d = 2 ∧ (t.get F.rbSoftstartSticky_EVER_LATCHED).testBit d = true))
      ∧ (smapGet s.boot.latched 0 d = 2 → (degradeBit d).any (mayDegrade s) = false → Gives (.softStartRetry d false) s (fun t =>
          stage t = 7 ∧ t.get F.lkBootStatus_STOP_CODE = 3)))

/-- UNIT_BIST_DONE and HBM_TRAINING_DONE with no failure load the map and show the channels. -/
def Obligations.UnitsAndChannelsComeUpAtStart : Prop :=
  ∀ s : State, stage s = 4 →
    (s.boot.bistDone = false → Gives (.unitBistDone [] [] []) s (fun t => t.boot.bistDone = true ∧ t.mem = s.mem ∧ t.pwr = s.pwr
      ∧ (∀ c, c < 240 → t.isSet F.idCoreMap_VALID c = ((corePos s c).isSome && !downAtStart s (domOfGallery (galleryOfCore c)))
          ∧ (∀ p, corePos s c = some p → p < 256 → t.get F.idCoreMap_PHYS_CORE c = p))
      ∧ (∀ n, n < 256 → t.isSet F.idSliceMap_VALID n = ((slicePos s n).isSome && !downAtStart s (domOfCavern (n / 64))))))
    ∧ (s.boot.hbmDone = false → (List.range 8).all (fun m => s.domState (24 + m) == 0) = true → Gives (.hbmTrainingDone []) s (fun t =>
      t.boot.hbmDone = true ∧ (∀ n, n < 256 → t.get F.dramChanStatus_STATE n = if t.mem.out.contains n then 2 else 0)
      ∧ (∀ n, n < 256 → t.get F.dramChanCtrl_TARGET n = if t.mem.out.contains n then 1 else 0)
      ∧ t.get F.dramSpace_MAX_MAPOUT = cfgVal s (fun c => c.maxMapout) % 16 ∧ t.bank = s.bank))

/-- START_JOIN makes the block READY with the image's values. -/
def Obligations.JoinMakesTheBlockReady : Prop :=
  ∀ (s : State) (c : ImageCfg) (bootMs : Nat), s.boot.cfg = some c → stage s = 4 → s.boot.bistDone = true → s.boot.hbmDone = true →
    (List.range 39).all (fun d => s.domState d == 0 || s.boot.offAt.contains d) = true →
    Gives (.startJoin bootMs) s (fun t =>
      stage t = 6 ∧ t.isSet F.hostStatus_READY = true ∧ t.isSet F.fabNode_READY = true ∧ t.get F.lkBootStatus_STOP_CODE = 0
      ∧ t.isSet F.faultStatus_FATAL = false ∧ t.get F.fabNode_NODE = c.node % 2 ^ 16 ∧ t.get F.tidePaths_SOURCE = c.source % 2 ^ 16
      ∧ t.get F.tidePaths_PORT_A = c.portA % 2 ^ 4 ∧ t.get F.tidePaths_PORT_B = c.portB % 2 ^ 4
      ∧ t.get F.cavHashKey_KEY = c.hashKey % 2 ^ 64 ∧ t.get F.cavCtrl_COMPRESS_EN = c.cavFlags % 2
      ∧ t.get F.cavCtrl_HOSTLINE_EN = c.cavFlags / 2 % 2 ∧ t.boot.otpMin = max s.boot.otpMin c.secVersion
      ∧ (∀ img, s.boot.img = some img → img < 2 → attempts t img = 0) ∧ t.mem = s.mem ∧ t.run = s.run)

/-- The bank's hourly work: the cell measured, a mirror copy made, the hours counted. -/
def Obligations.BankIsMeasuredMirroredAndWorn : Prop :=
  ∀ s : State,
    (∀ mv : Nat, s.boot.standby = true →
      Gives (.cellMeasure mv) s (fun t => t.get F.rbStatus_CELL_MV = mv % 2 ^ 16
        ∧ (mv < 2600 → t.isSet F.rbStatus_CELL_LOW = true)
        ∧ (mv < 2600 → s.isSet F.rbStatus_CELL_LOW = false → Delivered (newRecord s 0xD007 none 0 0x0E07 mv) t)
        ∧ (2600 ≤ mv → t.isSet F.rbStatus_CELL_LOW = s.isSet F.rbStatus_CELL_LOW ∧ Only [] [.rbStatus] s t)
        ∧ Only recordParts recordRegs s t)
      ∧ Gives .bankMirrorCopy s (fun t => smapFind t.boot.mirror s.boot.mirrorNext = some s.bank
        ∧ (∀ k, k ≠ s.boot.mirrorNext → smapFind t.boot.mirror k = smapFind s.boot.mirror k)
        ∧ t.boot.mirrorNext = (s.boot.mirrorNext + 1) % 64 ∧ Only [.boot] [] s t))
    ∧ Gives .wearSave s (fun t =>
        (∀ p, p < 256 → t.get F.wearCore_ON_HOURS p =
          if s.domOn (domOfGallery (p / 16)) then min (s.get F.wearCore_ON_HOURS p + 1) (2 ^ 20 - 1) else s.get F.wearCore_ON_HOURS p)
        ∧ (∀ p, p < 272 → t.get F.wearSlice_ON_HOURS p =
          if s.domOn (domOfCavern (p / 68)) then min (s.get F.wearSlice_ON_HOURS p + 1) (2 ^ 20 - 1) else s.get F.wearSlice_ON_HOURS p)
        ∧ Only [.bank] [.wearCore, .wearSlice, .rbStatus] s t)

namespace Sys2Proof.Claims

/-- A write of PWR_DOM_CTRL_d that asks for state `k`. -/
def domCmd (k d seq : Nat) (atEn evEn : Bool) (event : Nat) : Instr :=
  match k with
  | 0 => .domainCmdOn d seq atEn evEn event
  | 1 => .domainCmdClockGated d seq atEn evEn event
  | 2 => .domainCmdRetain d seq atEn evEn event
  | _ => .domainCmdOff d seq atEn evEn event

/-- What a domain command's write leaves in PWR_DOM_CTRL_d. -/
structure DomAsked (k d seq : Nat) (atEn evEn : Bool) (event : Nat) (t : State) : Prop where
  target : t.get F.pwrDomCtrl_TARGET d = k
  seq : t.get F.pwrDomCtrl_REQ_SEQ d = seq % 256
  at_ : t.isSet F.pwrDomCtrl_AT_EN d = atEn
  en : t.isSet F.pwrDomCtrl_EVENT_EN d = evEn
  event : t.get F.pwrDomCtrl_EVENT d = event % 65536

/-- Registers and parts that a power command's taking or answer writes. -/
def powerRegs : List RegId := [.pwrDomCtrl, .pwrDomStatus, .pwrPstate, .cavSliceStatus, .evt]
def powerParts : List Part := [.acc, .hl, .pwr, .out]

/-- A domain command answered: RESULT, DONE_SEQ, no longer busy or scheduled, nothing pending. -/
structure DomAnswered (d result seq : Nat) (t : State) : Prop where
  result : t.get F.pwrDomStatus_RESULT d = result
  done : t.get F.pwrDomStatus_DONE_SEQ d = seq % 256
  busy : t.isSet F.pwrDomStatus_BUSY d = false
  scheduled : t.isSet F.pwrDomStatus_SCHEDULED d = false

end Sys2Proof.Claims

/-- A domain command that changes REQ_SEQ is taken and starts toward its state, or is answered at once. -/
def Obligations.DomainCommandsStartWork : Prop :=
  ∀ (k d seq : Nat) (evEn : Bool) (event : Nat) (s : State), s.hl.d3 = false → k < 4 → d < 40 →
    (seq % 256 ≠ s.get F.pwrDomCtrl_REQ_SEQ d → smapFind s.pwr.cmd d = none → s.ready = true → s.isSet F.pwrDomStatus_MAPPED_OUT d = false →
      (allowed d k = true → mayLeave s d k = true → s.domState d ≠ k → Gives (domCmd k d seq false evEn event) s (fun t =>
        DomAsked k d seq false evEn event t ∧ t.isSet F.pwrDomStatus_BUSY d = true ∧ t.domState d = s.domState d
        ∧ smapFind t.pwr.cmd d = some ⟨k, seq % 256, event % 65536, evEn, s.get F.pwrDomAt_AT d, true⟩ ∧ Only powerParts powerRegs s t))
      ∧ (allowed d k = true → mayLeave s d k = true → s.domState d = k → Gives (domCmd k d seq false evEn event) s (fun t =>
        DomAsked k d seq false evEn event t ∧ DomAnswered d 0 seq t ∧ t.domState d = k ∧ Only powerParts powerRegs s t))
      ∧ (allowed d k = false → Gives (domCmd k d seq false evEn event) s (fun t =>
        DomAsked k d seq false evEn event t ∧ DomAnswered d 1 seq t ∧ t.domState d = s.domState d ∧ Only powerParts powerRegs s t))
      ∧ (allowed d k = true → mayLeave s d k = false → Gives (domCmd k d seq false evEn event) s (fun t =>
        DomAsked k d seq false evEn event t ∧ DomAnswered d 2 seq t ∧ t.domState d = s.domState d ∧ Only powerParts powerRegs s t)))
    ∧ (seq % 256 = s.get F.pwrDomCtrl_REQ_SEQ d → Gives (domCmd k d seq false evEn event) s (fun t =>
        DomAsked k d seq false evEn event t ∧ Only [.acc] [.pwrDomCtrl] s t))

/-- A command with AT waits for its slot boundary; SCHEDULED_CMD_START starts it then. -/
def Obligations.ScheduledCommandsWaitForTheirBoundary : Prop :=
  ∀ (d : Nat) (s : State),
    (∀ (k seq : Nat) (evEn : Bool) (event : Nat), s.hl.d3 = false → k < 4 → d < 40 → seq % 256 ≠ s.get F.pwrDomCtrl_REQ_SEQ d → smapFind s.pwr.cmd d = none →
      s.isSet F.tideLock_VALID = false → Gives (domCmd k d seq true evEn event) s (fun t =>
        DomAsked k d seq true evEn event t ∧ t.isSet F.pwrDomStatus_SCHEDULED d = true ∧ t.isSet F.pwrDomStatus_BUSY d = s.isSet F.pwrDomStatus_BUSY d
        ∧ smapFind t.pwr.cmd d = some ⟨k, seq % 256, event % 65536, evEn, s.get F.pwrDomAt_AT d, false⟩ ∧ Only [.acc, .pwr] powerRegs s t))
    ∧ (∀ c : PwrCmd, smapFind s.pwr.cmd d = some c → c.started = false → c.target < 4 → s.isSet F.tideLock_VALID = true →
        boundaryAt c.at_ ≤ s.tideNow → s.ready = true →
      (d < 40 → s.isSet F.pwrDomStatus_MAPPED_OUT d = false → allowed d c.target = true → mayLeave s d c.target = true → s.domState d ≠ c.target →
        Gives (.scheduledCmdStart d) s (fun t => t.isSet F.pwrDomStatus_BUSY d = true ∧ t.isSet F.pwrDomStatus_SCHEDULED d = false
          ∧ smapFind t.pwr.cmd d = some { c with started := true } ∧ Only powerParts powerRegs s t))
      ∧ (d = 40 → s.get F.pwrPstate_CURRENT ≠ c.target → Gives (.scheduledCmdStart d) s (fun t =>
          t.isSet F.pwrPstate_BUSY = true ∧ smapFind t.pwr.cmd 40 = some { c with started := true } ∧ Only powerParts powerRegs s t)))

/-- DOMAIN_TRANSITION_DONE and WAKE_RETRY put the domain in the state asked and answer the command. -/
def Obligations.TransitionsReachTheirState : Prop :=
  ∀ (d : Nat) (c : PwrCmd) (s : State), d < 40 → smapFind s.pwr.cmd d = some c → c.started = true → c.target < 4 → c.seq < 256 →
    allowed d c.target = true →
    (c.target < 2 → s.domState d < 2 → Gives (.domainTransitionDone d) s (fun t => t.domState d = c.target ∧ DomAnswered d 0 c.seq t
        ∧ Only powerParts powerRegs s t))
    ∧ (c.target < 2 → 2 ≤ s.domState d → s.boot.ramped.contains d = true → Gives (.domainTransitionDone d) s (fun t =>
        t.domState d = c.target ∧ DomAnswered d 0 c.seq t ∧ t.isSet F.pwrDomStatus_LATCHED d = false
        ∧ t.get F.pwrDomStatus_WAKES d = (s.get F.pwrDomStatus_WAKES d + 1) % 2 ^ 32 ∧ t.boot.ramped = setErase s.boot.ramped d))
    ∧ (2 ≤ c.target → workDone s d c.target = true → Gives (.domainTransitionDone d) s (fun t => t.domState d = c.target ∧ DomAnswered d 0 c.seq t))
    ∧ (c.target < 2 → smapGet s.pwr.tries 0 d ≠ 0 → stage s = 6 → Gives (.wakeRetry d true) s (fun t =>
        t.domState d = c.target ∧ DomAnswered d 0 c.seq t ∧ t.isSet F.pwrDomStatus_LATCHED d = false ∧ smapGet t.pwr.tries 0 d = 0))

/-- The wake queue: ramps begin while fewer than three windows are open; a latch leaves the domain OFF. -/
def Obligations.WakesTakeTurnsAndMayLatch : Prop :=
  ∀ (d : Nat) (s : State), d < 40 →
    (s.pwr.wakeQ.head? = some d → s.pwr.win.length < 3 → Gives (.wakeRampStart d) s (fun t =>
      t.pwr.ramping.contains d = true ∧ t.pwr.win = s.pwr.win ++ [d] ∧ t.pwr.wakeQ = s.pwr.wakeQ.filter (fun x => x != d) ∧ Only [.pwr] [] s t))
    ∧ Gives (.chargeWindowClose d) s (fun t => t.pwr.win = s.pwr.win.filter (fun x => x != d) ∧ t.pwr.ramping = s.pwr.ramping
      ∧ t.pwr.wakeQ = s.pwr.wakeQ ∧ Only [.pwr] [] s t)
    ∧ (s.pwr.ramping.contains d = true → stage s = 6 →
      (smapGet s.pwr.tries 0 d < 2 → Gives (.wakeLatch d) s (fun t => t.domState d = 3 ∧ t.pwr.ramping.contains d = false
        ∧ (t.get F.rbSoftstartSticky_EVER_LATCHED).testBit d = true ∧ smapGet t.pwr.tries 0 d = smapGet s.pwr.tries 0 d + 1
        ∧ smapFind t.pwr.cmd d = smapFind s.pwr.cmd d))
      ∧ (∀ c : PwrCmd, 2 ≤ smapGet s.pwr.tries 0 d → smapFind s.pwr.cmd d = some c → c.seq < 256 → Gives (.wakeLatch d) s (fun t =>
        t.domState d = 3 ∧ DomAnswered d 4 c.seq t ∧ t.isSet F.pwrDomStatus_LATCHED d = true ∧ smapGet t.pwr.tries 0 d = 0)))

/-- CLOCK_GATE_IDLE gates an idle domain; SPARE_BIST_DONE makes the spares of a domain count as free. -/
def Obligations.ClocksGateAndSparesReturn : Prop :=
  (∀ (d : Nat) (s : State), d < 40 → s.domState d = 1 → idleNow s d = true → Gives (.clockGateIdle d) s (fun t =>
      t.isSet F.pwrDomStatus_GATED d = true ∧ (∀ e, e ≠ d → t.word .pwrDomStatus e 0 0 = s.word .pwrDomStatus e 0 0)
      ∧ t.domState d = s.domState d ∧ Only [] [.pwrDomStatus] s t))
    ∧ ∀ (d : Nat) (s : State), d < 24 → s.domOn d = true →
      (d % 6 < 4 → Gives (.spareBistDone d) s (fun t =>
        (∀ u, u ∈ t.flt.untested ↔ u ∈ s.flt.untested ∧ ¬(u / 4096 = 1 ∧ u % 4096 / 16 = 4 * (d / 6) + d % 6)) ∧ Only [.flt] [.ftSpares] s t))
      ∧ (d % 6 = 4 → Gives (.spareBistDone d) s (fun t =>
        (∀ u, u ∈ t.flt.untested ↔ u ∈ s.flt.untested ∧ ¬(u / 4096 = 3 ∧ u % 4096 / 68 = d / 6)) ∧ Only [.flt] [.ftSpares] s t))

/-- PSTATE_CMD makes the P-state busy; PSTATE_CLOCK_SWITCH switches CURRENT once no ACCUMULATING routine runs. -/
def Obligations.PstateCommandsSwitchTheClocks : Prop :=
  ∀ s : State,
    (∀ (target seq : Nat) (evEn : Bool) (event : Nat), s.hl.d3 = false → target < 4 → seq % 256 ≠ s.get F.pwrPstate_REQ_SEQ → smapFind s.pwr.cmd 40 = none →
        s.ready = true →
      (s.get F.pwrPstate_CURRENT ≠ target → Gives (.pstateCmd target seq false evEn event) s (fun t =>
        t.get F.pwrPstate_TARGET = target ∧ t.get F.pwrPstate_REQ_SEQ = seq % 256 ∧ t.isSet F.pwrPstate_BUSY = true
        ∧ t.get F.pwrPstate_CURRENT = s.get F.pwrPstate_CURRENT
        ∧ smapFind t.pwr.cmd 40 = some ⟨target, seq % 256, event % 65536, evEn, s.get F.pwrPstateAt_AT, true⟩ ∧ Only powerParts powerRegs s t))
      ∧ (s.get F.pwrPstate_CURRENT = target → Gives (.pstateCmd target seq false evEn event) s (fun t =>
        t.get F.pwrPstate_DONE_SEQ = seq % 256 ∧ t.isSet F.pwrPstate_BUSY = false ∧ t.get F.pwrPstate_CURRENT = target
        ∧ Only powerParts powerRegs s t)))
    ∧ (∀ c : PwrCmd, smapFind s.pwr.cmd 40 = some c → c.started = true → c.target < 4 → c.seq < 256 →
        s.eng.jobs.any (fun j => j.acc && j.started) = false → Gives .pstateClockSwitch s (fun t =>
          t.get F.pwrPstate_CURRENT = c.target ∧ t.get F.pwrPstate_DONE_SEQ = c.seq ∧ t.isSet F.pwrPstate_BUSY = false
          ∧ t.isSet F.pwrPstate_SUPERSEDED = false ∧ Only [.hl, .core, .eng, .pwr, .out] [.pwrPstate, .pwrDomStatus, .engStatus, .evt] s t))

/-- CAP_INTERVAL integrates the excess over the effective cap and sets the three levels. -/
def Obligations.CapIntervalIntegratesTheExcess : Prop :=
  ∀ (pMw vinMv : Nat) (act : List (Nat × Nat)) (s : State), (∀ x ∈ act, x.1 < 4096) → s.pwr.spans = [800000, 120000, 130000] →
    Gives (.capInterval pMw vinMv act) s (fun t =>
      (t.get F.pwrCap_U_MW : Int) = max 0 (min 1050000 ((s.get F.pwrCap_U_MW : Int) + pMw - min (s.get F.pwrCap_CAP_W * 1000) (50 * vinMv)))
      ∧ t.get F.pwrInput_POWER_DW = min (pMw / 100) 65535 ∧ t.get F.pwrInput_VIN_MV = min vinMv 65535
      ∧ (∀ k lvl, (k, lvl) ∈ [(0, t.get F.pwrInput_COMPUTE_LVL), (1, t.get F.pwrInput_LINK_LVL), (2, t.get F.pwrInput_MEM_LVL)] →
          (t.get F.pwrThrottle_ACTIVE).testBit k = decide (lvl ≠ 0) ∧ lvl ≤ maxLevel k
          ∧ t.get F.pwrThrottleUs_US k = if lvl = 0 then s.get F.pwrThrottleUs_US k else (s.get F.pwrThrottleUs_US k + 10) % 2 ^ 64)
      ∧ (t.get F.pwrCap_U_MW = 0 → t.get F.pwrInput_COMPUTE_LVL = 0 ∧ t.get F.pwrInput_LINK_LVL = 0 ∧ t.get F.pwrInput_MEM_LVL = 0)
      ∧ (t.get F.pwrCap_U_MW = 1050000 → t.get F.pwrInput_COMPUTE_LVL = 240 ∧ t.get F.pwrInput_LINK_LVL = 128 ∧ t.get F.pwrInput_MEM_LVL = 128)
      ∧ Only (.pwr :: recordParts) ([.pwrCap, .pwrInput, .pwrThrottle, .pwrThrottleUs, .ctxEnergy, .pwrEnergyUnattr] ++ recordRegs) s t)

/-- THERMAL_INTERVAL moves each tile's level with its reading; a reading at 110 °C takes D0 to D37 OFF. -/
def Obligations.ThermalIntervalMovesTheLevels : Prop :=
  ∀ (a b c d : Nat) (s : State),
    (a < 110 → b < 110 → c < 110 → d < 110 → Gives (.thermalInterval [a, b, c, d]) s (fun t =>
      (∀ k temp, (k, temp) ∈ [(0, a), (1, b), (2, c), (3, d)] → t.get F.pwrTherm_TEMP_C k = temp
        ∧ t.get F.pwrTherm_LEVEL k =
          (if s.get F.pwrTherm_LIMIT_C k < temp then min 240 (s.get F.pwrTherm_LEVEL k + 4 * (temp - s.get F.pwrTherm_LIMIT_C k))
           else if temp + 2 ≤ s.get F.pwrTherm_LIMIT_C k then s.get F.pwrTherm_LEVEL k - 1 else s.get F.pwrTherm_LEVEL k)
        ∧ t.get F.pwrTherm_LIMIT_C k = s.get F.pwrTherm_LIMIT_C k)
      ∧ Only [] [.pwrTherm] s t))
    ∧ (stage s = 6 → 110 ≤ a → Gives (.thermalInterval [a, b, c, d]) s (fun t =>
      (s.pwr.fatals.testBit 1 = false → t.isSet F.hostStatus_READY = false) ∧ (∀ e, e < 38 → t.domState e = 3)))

/-- TIDE_TICK advances the count by one, or by none or two where a correction is due. -/
def Obligations.TideTickAdvancesTheCount : Prop :=
  ∀ s : State, Gives .tideTick s (fun t =>
    (s.tide.err = 0 → s.tide.half = false → t.get F.tideCount_COUNT = (s.get F.tideCount_COUNT + 1) % 2 ^ 64 ∧ t.tide.err = 0 ∧ t.tide.half = false)
    ∧ (s.tide.half = false → ∃ n, n ≤ 2 ∧ t.get F.tideCount_COUNT = (s.get F.tideCount_COUNT + n) % 2 ^ 64 ∧ t.tide.err = s.tide.err + 1 - n
        ∧ (n ≠ 1 → (s.tide.phase + 1) % 1024 = 0))
    ∧ (s.tide.half = true → ∃ n, n ≤ 1 ∧ t.get F.tideCount_COUNT = (s.get F.tideCount_COUNT + n) % 2 ^ 64
        ∧ (n = 0 ↔ (s.tide.phase + 1) % 1024 % 2 = 1) ∧ (t.tide.half = true → t.tide.err = s.tide.err + 1 - n))
    ∧ t.tide.since = s.tide.since + 1 ∧ t.tide.sinceA = s.tide.sinceA + 1 ∧ t.tide.sinceB = s.tide.sinceB + 1
    ∧ Only [.tide] [.tideCount] s t)

namespace Sys2Proof.Claims

/-- A record with these fields, the next in number after `s`, has been posted (Table 16.2, R443). -/
def Posts (s t : State) (unit : Nat) (ctx : Option Nat) (cls code extra : Nat) : Prop :=
  ∃ r : SumpRec, r.unit = unit ∧ r.ctx = ctx ∧ r.cls = cls ∧ r.code = code ∧ r.extra = extra ∧ r.seq = (s.flt.seq + 1) % 2 ^ 32
    ∧ Delivered r t

end Sys2Proof.Claims

namespace Sys2Proof.Claims

/-- A beacon valid for the active path (R351): it passes its check, comes on that path's port, which is UP, and names the source. -/
def ActiveBeacon (s : State) (port : Nat) (p : Packet) : Prop :=
  port < 16 ∧ s.get F.fabPortStatus_STATE port = 2 ∧ validFor s (if activePath s = 0 then 0 else 1) port p = true

/-- The registers a beacon may write beside what a record leaves. -/
def tideRegs : List RegId := [.tideCount, .tideLock]

end Sys2Proof.Claims

/-- A beacon valid for the active path sets, corrects and locks the tide as Table 11.1 gives. -/
def Obligations.BeaconsMoveTheLock : Prop :=
  ∀ (port : Nat) (p : Packet) (s : State), ActiveBeacon s port p →
    (tideState s = tFree → Gives (.beaconReceive port p) s (fun t =>
      t.get F.tideCount_COUNT = (pf p 111 48 + s.get F.fabPortStatus_DELAY port) % 2 ^ 64 ∧ tideState t = tAcquiring
      ∧ t.isSet F.tideLock_VALID = false ∧ t.tide.fromFree = true ∧ t.tide.since = 0 ∧ Only (.tide :: recordParts) (tideRegs ++ recordRegs) s t))
    ∧ (tideState s = tLocked → (beaconOffset s port p).natAbs ≤ 256 →
      (64 < beaconOffset s port p → Gives (.beaconReceive port p) s (fun t =>
        t.get F.tideCount_COUNT = (s.get F.tideCount_COUNT + (beaconOffset s port p).toNat) % 2 ^ 64 ∧ tideState t = tLocked
        ∧ t.get F.tideLock_STEPS = min (s.get F.tideLock_STEPS + 1) (2 ^ 16 - 1) ∧ t.tide.err = 0
        ∧ Posts s t (pathUnit (activePath s)) none 0 0x0B05 (beaconOffset s port p).toNat))
      ∧ (beaconOffset s port p ≤ 64 → Gives (.beaconReceive port p) s (fun t =>
        t.get F.tideCount_COUNT = s.get F.tideCount_COUNT ∧ tideState t = tLocked ∧ t.tide.err = beaconOffset s port p
        ∧ t.tide.half = decide (beaconOffset s port p < -64) ∧ t.tide.outliers = 0 ∧ Only [.tide] [.tideLock] s t)))
    ∧ (tideState s = tLocked → 256 < (beaconOffset s port p).natAbs → 2 ≤ s.tide.outliers → Gives (.beaconReceive port p) s (fun t =>
        tideState t = tAcquiring ∧ t.isSet F.tideLock_VALID = true ∧ t.get F.tideCount_COUNT = s.get F.tideCount_COUNT))
    ∧ (tideState s = tAcquiring → (beaconOffset s port p).natAbs ≤ 4 → 3 ≤ s.tide.good → Gives (.beaconReceive port p) s (fun t =>
        tideState t = tLocked ∧ t.isSet F.tideLock_VALID = true ∧ Posts s t (pathUnit (activePath s)) none 0 0x0B01 0))
    ∧ (tideState s = tLocal → Gives (.beaconReceive port p) s (fun t =>
        tideState t = tLocal ∧ t.get F.tideCount_COUNT = s.get F.tideCount_COUNT ∧ Only [.tide] [.tideLock] s t))

/-- Without beacons the path switches or the tide enters HOLDOVER and then LOST; windows, LOCAL and copies follow. -/
def Obligations.LostBeaconsSwitchOrHold : Prop :=
  ∀ s : State,
    (12288 ≤ s.tide.since → tideState s ≠ tLocal → (s.isSet F.tideCtrl_PATH_B_EN && otherRecent s) = true → Gives .beaconLossTimeout s (fun t =>
      activePath t = 1 - activePath s ∧ t.bank.path = 1 - activePath s ∧ t.isSet F.tideLock_SWITCHED = true ∧ tideState t = tideState s
      ∧ Posts s t (pathUnit (activePath s)) none 2 0x0B02 0
      ∧ Only (.tide :: recordParts) (.tideLock :: recordRegs) s t))
    ∧ (12288 ≤ s.tide.since → tideState s = tLocked → (s.isSet F.tideCtrl_PATH_B_EN && otherRecent s) = false → Gives .beaconLossTimeout s (fun t =>
      tideState t = tHoldover ∧ t.isSet F.tideLock_VALID = true ∧ t.tide.hold = 0 ∧ Posts s t (pathUnit (activePath s)) none 0 0x0B03 0
      ∧ Only (.tide :: recordParts) (.tideLock :: recordRegs) s t))
    ∧ (tideState s = tHoldover → 10000000 ≤ s.tide.hold → Gives .holdoverTimeout s (fun t =>
      tideState t = tLost ∧ t.isSet F.tideLock_VALID = true ∧ t.isSet F.tideLock_LOST_SEEN = true
      ∧ Posts s t (pathUnit (activePath s)) none 0 0x0B04 0
      ∧ (∀ f, f < 32 → s.isSet F.ferryCtrl_RUN f = true → s.isSet F.ferryCtrl_LOST_ACTION f = true → s.get F.ferryStatus_STATE f ≠ 5 →
        s.sail.held = [] → (∀ x ∈ liveSailings s f, x.segWait = none) → t.get F.ferryStatus_STATE f = 4)
      ∧ Only (.tide :: recordParts) (.tideLock :: .ferryStatus :: recordRegs) s t))
    ∧ (8192 ≤ s.tide.sinceA → Gives (.pathWindowExpire 0) s (fun t => t.isSet F.tideLock_PATH_A_OK = false
      ∧ t.isSet F.tideLock_PATH_B_OK = s.isSet F.tideLock_PATH_B_OK ∧ Only [] [.tideLock] s t))
    ∧ (8192 ≤ s.tide.sinceB → Gives (.pathWindowExpire 1) s (fun t => t.isSet F.tideLock_PATH_B_OK = false
      ∧ t.isSet F.tideLock_PATH_A_OK = s.isSet F.tideLock_PATH_A_OK ∧ Only [] [.tideLock] s t))
    ∧ (s.hl.d3 = false → s.isSet F.tideCtrl_LOCAL = false → Gives (.tideLocalWrite true) s (fun t => t.isSet F.tideCtrl_LOCAL = true ∧ tideState t = tLocal
      ∧ t.isSet F.tideLock_VALID = true ∧ t.get F.tideCount_COUNT = s.get F.tideCount_COUNT ∧ Only [.tide, .hl, .out] [.tideCtrl, .tideLock, .ferryStatus, .evt] s t))
    ∧ (s.hl.d3 = false → s.isSet F.tideCtrl_LOCAL = true → Gives (.tideLocalWrite false) s (fun t => t.isSet F.tideCtrl_LOCAL = false ∧ tideState t = tAcquiring
      ∧ t.isSet F.tideLock_VALID = true ∧ t.get F.tideCount_COUNT = s.get F.tideCount_COUNT ∧ Only [.tide, .hl, .out] [.tideCtrl, .tideLock, .ferryStatus, .evt] s t))
    ∧ (∀ u : Nat, u < 65536 → Gives (.tideCopyRenew u) s (fun t => t.tide.stale = setErase s.tide.stale u ∧ Only [.tide] [] s t))

namespace Sys2Proof.Claims

/-- What a sailing's settling may change beside the sailings: its packet, its bollard with what waits for it, counts and records. -/
def settleParts : List Part := [.hl, .obj, .run, .core, .eng, .sail, .fab, .bank, .flt, .out]
def settleRegs : List RegId := [.bolValue, .bolCtrl, .ferryStatus, .ferryExc, .berthStatus] ++ recordRegs

/-- Bollard `n` has advanced by `inc`, or the advance waits behind those queued before it (R233). -/
def Advanced (s t : State) (n inc : Nat) : Prop :=
  (s.run.bolQ = [] → bolValue t n = (bolValue s n + inc) % 2 ^ 64)
    ∧ (s.run.bolQ ≠ [] → t.run.bolQ = s.run.bolQ ++ [⟨n, inc, .none⟩] ∧ bolValue t n = bolValue s n)

/-- The sailing `x` has settled ABORTED with a reason at its sender, its bollard advanced, record 0x0B13 posted (R371, R372, R377). -/
structure Aborted (s t : State) (x : Sailing) (reason : Nat) : Prop where
  sailings : t.sail.sailings = updWhere s.sail.sailings (fun y => sailingIs x y) (fun y => { y with st := .aborted, reason := reason })
  count : t.get F.ferryExc_ABORTED x.f = min (s.get F.ferryExc_ABORTED x.f + 1) (2 ^ 16 - 1)
  settle : ∀ n, x.settle = some n → Advanced s t n 1
  post : Posts s t (ferryUnit x.f) (some x.ctx) 0 0x0B13 (sailExtra x.entry x.cycle reason)

/-- `x` is the sailing of ferry `f` that an event names by entry and cycle. -/
def Named (s : State) (f entry cycleLo : Nat) (x : Sailing) : Prop := f < 32 ∧ sailingOf s f entry cycleLo = some x

end Sys2Proof.Claims

/-- A host command starts a ferry that passes its checks, stops it, or aborts sailings and answers. -/
def Obligations.FerriesRunStopAndAbort : Prop :=
  ∀ (f : Nat) (s : State), f < 32 → s.hl.d3 = false →
    (s.unitOff .ferryCtrl f = false →
      (s.isSet F.ferryCtrl_RUN f = false →
        (runCheck s f = 0 → Gives (.ferryRun f) s (fun t => t.isSet F.ferryCtrl_RUN f = true ∧ smapGet t.sail.entry 0 f = 0
          ∧ smapGet t.sail.cycle 0 f = 0 ∧ t.get F.ferryStatus_STATE f ≠ 5 ∧ Only [.acc, .sail] [.ferryCtrl, .ferryStatus] s t))
        ∧ (runCheck s f ≠ 0 → Gives (.ferryRun f) s (fun t => t.isSet F.ferryCtrl_RUN f = false ∧ t.get F.ferryStatus_STATE f = 5
          ∧ t.get F.ferryStatus_REJECT_REASON f = runCheck s f ∧ Only [.acc] [.ferryStatus] s t)))
      ∧ Gives (.ferryStop f) s (fun t => t.isSet F.ferryCtrl_RUN f = false ∧ Only [.acc] [.ferryCtrl, .ferryStatus] s t)
      ∧ (∀ e k seq : Nat, e < 4096 → k < 65536 → seq < 256 → seq ≠ s.get F.ferryAbort_REQ_SEQ f →
        (∀ x : Sailing, sailingOf s f e k = some x → Gives (.ferryAbortOne f e k seq) s (fun t => Aborted s t x 0x21
          ∧ t.get F.ferryAbort_RESULT f = 0 ∧ t.get F.ferryAbort_DONE_SEQ f = seq ∧ Only (.acc :: settleParts) (.ferryAbort :: settleRegs) s t))
        ∧ (sailingOf s f e k = none → entryWaits s f e k = true → Gives (.ferryAbortOne f e k seq) s (fun t =>
          t.get F.ferryAbort_RESULT f = 0 ∧ t.get F.ferryAbort_DONE_SEQ f = seq
          ∧ t.get F.ferryExc_ABORTED f = min (s.get F.ferryExc_ABORTED f + 1) (2 ^ 16 - 1)
          ∧ Only (.acc :: settleParts) (.ferryAbort :: .ferryCtrl :: settleRegs) s t))
        ∧ (sailingOf s f e k = none → entryWaits s f e k = false → Gives (.ferryAbortOne f e k seq) s (fun t =>
          t.get F.ferryAbort_RESULT f = (match s.sail.sailings.find? (fun x => x.f == f && x.entry == e && x.cycle % 65536 == k) with
            | some x => if x.st = .complete then 1 else 2
            | none => 3)
          ∧ t.get F.ferryAbort_DONE_SEQ f = seq ∧ Only [.acc] [.ferryAbort] s t)))
      ∧ (∀ e k seq : Nat, seq = s.get F.ferryAbort_REQ_SEQ f → ∀ c ∈ [Instr.ferryAbortOne f e k seq, .ferryAbortAll f seq], Gives c s (fun t =>
          t.get F.ferryAbort_RESULT f = s.get F.ferryAbort_RESULT f ∧ t.get F.ferryAbort_DONE_SEQ f = s.get F.ferryAbort_DONE_SEQ f
          ∧ Only [.acc] [.ferryAbort] s t))
      ∧ ∀ seq : Nat, seq < 256 → seq ≠ s.get F.ferryAbort_REQ_SEQ f → Gives (.ferryAbortAll f seq) s (fun t =>
          t.get F.ferryAbort_RESULT f = 4 ∧ t.get F.ferryAbort_DONE_SEQ f = seq
          ∧ t.isSet F.ferryCtrl_RUN f = false ∧ (∀ x ∈ t.sail.sailings, x.f = f → x.live = false)
          ∧ t.sail.sailings.filter (fun x => x.f != f) = s.sail.sailings.filter (fun x => x.f != f)
          ∧ Only (.acc :: settleParts) (.ferryAbort :: .ferryCtrl :: settleRegs) s t))
    ∧ (s.unitOff .ferryCtrl f = true → ∀ (e k seq : Nat), ∀ c ∈ [Instr.ferryRun f, .ferryStop f, .ferryAbortOne f e k seq, .ferryAbortAll f seq],
        Gives c s (fun t => t.isSet F.ferryCtrl_RUN f = s.isSet F.ferryCtrl_RUN f ∧ Only [.acc, .pwr] [.ferryCtrl, .ferryAbort] s t))

/-- An entry that may depart departs at its slot boundary; one past its limit is held or missed. -/
def Obligations.SailingsDepartAtTheirSlots : Prop :=
  ∀ (f copy : Nat) (s : State) (x : Sailing), f < 32 → considered s f = some x →
    (mayDepart s x copy = true → Gives (.ferryDepart f copy) s (fun t =>
      t.get F.ferryCount_LATE f = (if dueCount s f x.entry x.cycle / 1024 < copy / 1024 then min (s.get F.ferryCount_LATE f + 1) (2 ^ 16 - 1)
        else s.get F.ferryCount_LATE f)
      ∧ t.get F.ferryCount_SAILED f = s.get F.ferryCount_SAILED f
      ∧ (departed s x = false → t.get (gateOf s f x.entry) f = s.get (gateOf s f x.entry) f - (if s.isSet F.tt_GATE_EN f x.entry then 1 else 0))
      ∧ (departed s x = false → s.isSet F.tt_LEN_FROM_HEADER f x.entry = false → x.lines = 0 →
        smapGet t.sail.entry 0 f = (if s.isSet F.tt_LAST f x.entry then 0 else x.entry + 1)
        ∧ (∀ q, leastQueued s (attemptPorts s f x.entry) = some q →
          (∃ y ∈ t.sail.sailings, sailingIs x y = true ∧ y.st = .sailing ∧ y.ports = attemptPorts s f x.entry ∧ y.last = s.tideNow)
          ∧ ((portState s q).queue = [] → 1 ≤ (portState s q).credits → (portState s q).kept < replaySlots →
            ∃ p, t.out.pkts = s.out.pkts ++ [(q, p)] ∧ pkType p = tSailRun)))))
    ∧ (limitAt s x copy = true → mayDepart s x copy = false →
      (s.isSet F.tt_MISS_ACTION f x.entry = false → s.sail.held.contains (f, x.entry, x.cycle) = false → Gives (.ferryLateHold f copy) s (fun t =>
        t.sail.held = s.sail.held ++ [(f, x.entry, x.cycle)] ∧ t.sail.sailings = s.sail.sailings ∧ Posts s t (ferryUnit f) (some x.ctx) 0 0x0B10 (sailExtra x.entry x.cycle 0)
        ∧ (s.get F.ferryStatus_STATE f ≠ 5 → t.get F.ferryStatus_STATE f = 3)
        ∧ Only (.sail :: recordParts) (.ferryStatus :: recordRegs) s t))
      ∧ (s.isSet F.tt_MISS_ACTION f x.entry = true → Gives (.ferryMiss f copy) s (fun t =>
        t.get F.ferryCount_MISSED f = min (s.get F.ferryCount_MISSED f + 1) (2 ^ 16 - 1)
        ∧ Posts s t (ferryUnit f) (some x.ctx) 0 0x0B11 (sailExtra x.entry x.cycle 0)
        ∧ (departed s x = false → smapGet t.sail.entry 0 f = (if s.isSet F.tt_LAST f x.entry then 0 else x.entry + 1))
        ∧ Only (.sail :: .fab :: recordParts) ([.ferryCtrl, .ferryStatus, .ferryCount] ++ recordRegs) s t)))

/-- What reaches a sailing at its sender completes it, returns it, cuts it, restarts it or aborts it. -/
def Obligations.SailingsSettleOnce : Prop :=
  (∀ (p : Packet) (s : State) (x : Sailing), sailingFor s p = some x →
      (pkType p = tLandAck → Gives (.landAckReceive p) s (fun t =>
        t.sail.sailings = updWhere s.sail.sailings (fun y => sailingIs x y) (fun y => { y with st := .complete })
        ∧ t.get F.ferryCount_SAILED x.f = (s.get F.ferryCount_SAILED x.f + 1) % 2 ^ 32
        ∧ (∀ n, x.settle = some n → Advanced s t n 1)
        ∧ Only [.hl, .obj, .run, .core, .eng, .sail, .fab, .out] [.bolValue, .bolCtrl, .ferryStatus, .ferryCount, .berthStatus, .evt] s t))
      ∧ (pkType p = tTurnBack → 0x10 ≤ pkReason p → pkReason p ≤ 0x13 → Gives (.turnBackReceive p) s (fun t =>
        t.sail.sailings = updWhere s.sail.sailings (fun y => sailingIs x y) (fun y => { y with st := .waiting, attempt := y.attempt + 1 })
        ∧ t.get F.ferryExc_TURNED_BACK x.f = min (s.get F.ferryExc_TURNED_BACK x.f + 1) (2 ^ 16 - 1)
        ∧ Only [.sail] [.ferryStatus, .ferryExc] s t))
      ∧ (pkType p = tTurnBack → 1 ≤ pkReason p → pkReason p ≤ 5 → Gives (.turnBackReceive p) s (fun t =>
        Aborted s t x (pkReason p) ∧ Only settleParts settleRegs s t)))
    ∧ (∀ (p : Packet) (s : State) (x : Sailing), pkType p = tWindow →
      s.sail.sailings.find? (fun x => x.st == .sailing && x.node == pkSrc p && x.berth == pkBerth p && x.attempt % 4 == pkAttempt p) = some x →
      (ferryUp s x.f = false ∨ x.lines = 0 ∨ min x.lines (max x.limit (pf p 95 64)) ≤ x.sent) → Gives (.windowReceive p) s (fun t =>
        t.sail.sailings = updWhere s.sail.sailings (fun y => sailingIs x y) (fun _ => { x with limit := max x.limit (pf p 95 64) })
        ∧ Only [.sail] [.ferryStatus] s t))
    ∧ ∀ (f e k : Nat) (s : State) (x : Sailing), Named s f e k x →
      (x.st = .sailing → x.sent = x.lines → Gives (.ackLimitExpire f e k) s (fun t => Aborted s t x 0x24 ∧ Only settleParts settleRegs s t))
      ∧ (x.st = .sailing → x.cuts < 2 → Gives (.sailingCut f e k) s (fun t =>
        t.sail.sailings = updWhere s.sail.sailings (fun y => sailingIs x y) (fun y => { y with st := .cutting, cuts := y.cuts + 1 })
        ∧ Only [.sail] [.ferryStatus] s t))
      ∧ (x.st = .sailing → 2 ≤ x.cuts → Gives (.sailingCut f e k) s (fun t => Aborted s t x 0x25 ∧ Only settleParts settleRegs s t))
      ∧ (x.st = .cutting → linesOut s x = true → exec (.attemptRestart f e k) s = .next s)
      ∧ (x.st = .cutting → linesOut s x = false → x.segWait = none → Gives (.attemptRestart f e k) s (fun t =>
        t.get F.ferryExc_REPLAYED f = min (s.get F.ferryExc_REPLAYED f + 1) (2 ^ 16 - 1)))
      ∧ (x.st = .cutting → linesOut s x = false → x.segWait.isSome = true → Gives (.attemptRestart f e k) s (fun t =>
        t.sail.sailings = updWhere s.sail.sailings (fun y => sailingIs x y) (fun _ => { x with attempt := x.attempt + 1, st := .waiting })
        ∧ Only [.sail, .fab, .out] [.ferryStatus] s t))
      ∧ (x.segWait.isSome = true → s.get F.segFaultLimit_LIMIT_MS ≠ 0 → segBack s x = false → Gives (.sourceSegmentTimeout f e k) s (fun t =>
        (∀ y ∈ t.sail.sailings, sailingIs x y = true → y.live = false) ∧ (s.ctxState x.ctx = 1 ∨ s.ctxState x.ctx = 2 → t.ctxState x.ctx = 3)
        ∧ t.get F.ferryExc_ABORTED f ≥ min (s.get F.ferryExc_ABORTED f + 1) (2 ^ 16 - 1)))

namespace Sys2Proof.Claims

/-- The block after a run in order has been taken up: its berth RECEIVING that sailing, the port's tile running. -/
def takenUp (s : State) (port : Nat) (p : Packet) : State :=
  let b := pkBerth p
  let x := berthRec s b
  ungate (if x.cur = some (keyOf p) then s
    else putBerth s b { meet x (keyOf p) (expected x (keyOf p)) with cur := some (keyOf p), landed := 0, total := pf p 191 160, limit := 0 } bReceiving)
    (unitId 7 (8 * (port / 4)))

/-- A packet of the attempt that the berth expects of its sailing, at a READY node. -/
def Expected (s : State) (p : Packet) : Prop :=
  s.isSet F.fabNode_READY = true ∧ expected (berthRec s (pkBerth p)) (keyOf p) % 4 = pkAttempt p

/-- A packet of `n` slots for which `ok` holds leaves the port, where it is ACTIVE, nothing waits in it, and credits and replay buffer
last (R388, R394). -/
def SentOn (s t : State) (port n : Nat) (ok : Packet → Prop) : Prop :=
  s.get F.fabPortStatus_STATE port = 2 → (portState s port).queue = [] → n ≤ (portState s port).credits →
    (portState s port).kept + n ≤ replaySlots → ∃ q, t.out.pkts = s.out.pkts ++ [(port, q)] ∧ ok q

/-- What a landing's undefined region (R371) may leave beside its bytes: writes to device memory with their counts, and what a failed
channel's records and ends of contexts do. -/
def spoilParts : List Part := [.mem, .hl, .obj, .run, .core, .eng, .sail, .fab, .bank, .flt, .free, .out]
def spoilRegs : List RegId :=
  [.coreBinding, .coreHaltA, .coreHaltB, .coreHaltC, .coreHaltD, .bolValue, .bolCtrl, .cavClassHits, .cavClassMisses, .cavClassNofill,
    .cavSliceStatus, .dramRegBytes, .dramRegThrottled, .segFault, .engStatus, .ferryCtrl, .ferryStatus, .ferryExc, .berthStatus,
    .coreAdapterHolds, .ctxState, .qStatus, .pwrDomStatus] ++ recordRegs

end Sys2Proof.Claims

/-- A SAIL_RUN is refused, dropped, held or landed as the checks of its berth say. -/
def Obligations.LandingsFollowTheirBerth : Prop :=
  ∀ (port : Nat) (p : Packet) (ls : List Line) (s : State), port < 16 → pkType p = tSailRun →
    (s.isSet F.fabNode_READY = false → Gives (.sailRunReceive port p ls) s (fun t => Only [.sail, .fab, .out] [] s t
      ∧ expected (berthRec t (pkBerth p)) (keyOf p) = pkAttempt p + 1
      ∧ SentOn s t port 1 (fun q => pkType q = tTurnBack ∧ pkReason q = 0x12)))
    ∧ (s.isSet F.fabNode_READY = true → expected (berthRec s (pkBerth p)) (keyOf p) % 4 ≠ pkAttempt p →
      exec (.sailRunReceive port p ls) s = .next s)
    ∧ (Expected s p →
      ((berthRec s (pkBerth p)).cur ≠ some (keyOf p) ∧ pf p 159 128 ≠ 0
        ∨ (berthRec s (pkBerth p)).cur = some (keyOf p) ∧ berthState s (pkBerth p) = bReceiving ∧ (berthRec s (pkBerth p)).landed < pf p 159 128) →
      Gives (.sailRunReceive port p ls) s (fun t =>
        t.sail.reorder = s.sail.reorder ++ [⟨p, ls, port, storeFits s (pkBerth p) ls.length, 0⟩] ∧ Only [.sail] [] s t))
    ∧ (∀ r sg, Expected s p → (berthRec s (pkBerth p)).cur ≠ some (keyOf p) → pf p 159 128 = 0 → landChecks s (pkBerth p) p = (some r, sg) →
      Gives (.sailRunReceive port p ls) s (fun t =>
        expected (berthRec t (pkBerth p)) (keyOf p) = expected (berthRec s (pkBerth p)) (keyOf p) + (if 0x10 ≤ r then 1 else 0)
        ∧ (r < 256 → SentOn s t port 1 (fun q => pkType q = tTurnBack ∧ pkReason q = r))
        ∧ (sg = none → Only [.sail, .fab, .out] [.berthStatus] s t)))
    ∧ (∀ u, Expected s p → (berthRec s (pkBerth p)).cur ≠ some (keyOf p) → pf p 159 128 = 0 → landChecks s (pkBerth p) p = (none, none) →
      (∀ r ∈ s.sail.reorder, pkBerth r.p ≠ pkBerth p ∨ keyOf r.p ≠ keyOf p) →
      landLines (takenUp s port p) (berthRec (takenUp s port p) (pkBerth p)) 0 ls = (none, u) → Gives (.sailRunReceive port p ls) s (fun t =>
        t.mem = u.mem ∧ (berthRec t (pkBerth p)).landed = ls.length ∧ (berthRec t (pkBerth p)).cur = some (keyOf p)
        ∧ berthState t (pkBerth p) = (if pf p 191 160 ≤ ls.length then bPending else bReceiving)
        ∧ (pf p 191 160 ≤ ls.length → SentOn u t port 1 (fun q => pkType q = tLandAck))))

/-- Cuts, settlements, missed notices, NODE_RESET and writes to a berth change it as Table 11.20 gives. -/
def Obligations.BerthsSettleAndReset : Prop :=
  (∀ (p : Packet) (s : State), pkType p = tCut → Expected s p → Gives (.cutReceive p) s (fun t =>
      expected (berthRec t (pkBerth p)) (keyOf p) = expected (berthRec s (pkBerth p)) (keyOf p) + 1
      ∧ (∀ r ∈ t.sail.reorder, pkBerth r.p ≠ pkBerth p ∨ keyOf r.p ≠ keyOf p)
      ∧ ((berthRec s (pkBerth p)).cur = some (keyOf p) → berthState t (pkBerth p) = bReceiving ∧ (berthRec t (pkBerth p)).landed = 0)
      ∧ Only [.sail, .fab, .out] [.berthStatus] s t))
    ∧ (∀ (p : Packet) (s : State) (b : Nat) (x : Berth), pkType p = tSettle → b = pkBerth p → x = berthRec s b → Expected s p → x.later = none →
      (pf p 116 116 = 0 → x.cur = some (keyOf p) → berthState s b = bPending → Gives (.settleReceive p) s (fun t =>
        t.get F.berthStatus_LANDED b = (s.get F.berthStatus_LANDED b + 1) % 2 ^ 32 ∧ Advanced s t x.landBollard 1
        ∧ (berthRec t b).cur = none ∧ berthState t b = (if !x.freeEn
            || decide (bitsOf x.word2 63 32 * t.get F.berthStatus_LANDED b % 2 ^ 64 ≤ bolValue t x.freeBollard) then bOpen else bFull)
        ∧ Only [.hl, .obj, .run, .core, .eng, .sail, .out] [.bolValue, .bolCtrl, .berthStatus, .evt] s t))
      ∧ (pf p 116 116 = 1 → x.cur ≠ some (keyOf p) → Gives (.settleReceive p) s (fun t =>
        t.get F.berthStatus_ABORTS b = min (s.get F.berthStatus_ABORTS b + 1) (2 ^ 16 - 1)
        ∧ Posts s t noUnit (if x.valid then some x.owner else none) 0 0x0B14 (sailExtra (pkEntry p) (pkCycleLo p) (pkReason p))
        ∧ berthState t b = berthState s b ∧ Only (.sail :: .fab :: recordParts) (.berthStatus :: recordRegs) s t))
      ∧ (pf p 116 116 = 1 → x.cur = some (keyOf p) → Gives (.settleReceive p) s (fun t =>
        berthState t b = bOpen ∧ (berthRec t b).cur = none ∧ Only spoilParts spoilRegs s t)))
    ∧ (∀ (p : Packet) (s : State), pkType p = tMissed → Gives (.missedReceive p) s (fun t =>
      Posts s t noUnit (if (berthRec s (pkBerth p)).valid then some (berthRec s (pkBerth p)).owner else none) 0 0x0B12
        (sailExtra (pkEntry p) (pkCycleLo p) 0) ∧ Only recordParts recordRegs s t))
    ∧ (∀ (p : Packet) (s : State), pkType p = tNodeReset → Gives (.nodeResetReceive p) s (fun t =>
      (∀ x ∈ t.sail.sailings, x.node = pkSrc p → x.live = false)
      ∧ (∀ b k, (berthRec s b).cur = some k → k.node = pkSrc p → (berthRec s b).later = none → berthState t b = bOpen ∧ (berthRec t b).cur = none)
      ∧ Only spoilParts (.berth :: spoilRegs) s t))
    ∧ ∀ (b v : Nat) (s : State), b < 4096 → s.hl.d3 = false →
      (berthState s b = bPending → v.testBit 12 = true → Gives (.berthApply b v) s (fun t =>
        t.word .berth b 0 1 = berthWord1 v ∧ berthState t b = bPending
        ∧ (berthRec t b).later = some (s.word .berth b 0 0, berthWord1 v, s.word .berth b 0 2, s.word .berth b 0 3) ∧ Only [.acc, .sail] [.berth] s t))
      ∧ (berthState s b ≠ bPending ∨ v.testBit 12 = false → Gives (.berthApply b v) s (fun t =>
        t.word .berth b 0 1 = berthWord1 v ∧ berthState t b = (if v.testBit 12 then bOpen else bClosed)
        ∧ (v.testBit 12 = true → t.get F.berthStatus_LANDED b = 0) ∧ (berthRec t b).word0 = s.word .berth b 0 0 ∧ (berthRec t b).word1 = berthWord1 v
        ∧ (berthRec t b).word2 = s.word .berth b 0 2 ∧ (berthRec t b).word3 = s.word .berth b 0 3 ∧ (berthRec t b).cur = none
        ∧ Only [.acc, .sail, .fab, .out] [.berth, .berthStatus] s t))

namespace Sys2Proof.Claims

/-- The ports after an acknowledgment up to slot `n`, with no packet held. -/
def acked (s : State) (port n : Nat) : State :=
  let u := setPort s port { portState s port with replay := ((portState s port).replay.dropWhile (fun k => k.seq != n)).drop 1, naks := 0 }
  { u with fab := { u.fab with held := [] } }

/-- The bytes of a line that a mask names. -/
def namedBytes (line : Line) (mask : Nat) : SMap Byte :=
  ((List.range 64).filter (fun i => mask.testBit i)).map (fun i => (i, nthD line.2 i 0))

/-- The context ends by a fault of its own: HALTED where it ran or was suspended (R209, R406). -/
def Ended (s t : State) (c : Nat) : Prop := s.ctxState c = 1 ∨ s.ctxState c = 2 → t.ctxState c = 3

/-- What device memory's accesses show: Cavern counters, regulator counts, clocks of the domains used. -/
def memRegs : List RegId := [.cavClassHits, .cavClassMisses, .cavClassNofill, .cavSliceStatus, .dramRegBytes, .dramRegThrottled, .pwrDomStatus]

/-- A load of one lane that waits for this line alone has ended: its register holds the bytes read, and it is outstanding no more (R177,
R247). -/
def LoadEnds (t : State) (core slot : Nat) (o : OutLoad) (l : LineReq) (bs : List Byte) : Prop :=
  ∀ a, o.lanes = [a] → o.need = [(l.key, l.id)] → o.want = [] → a.lane < 32 → o.acc.dst < 64 → o.acc.width ≤ 4 → o.acc.acq = false →
    regRead t core slot o.acc.dst a.lane = BitVec.ofNat 32 (leNat (laneBytes (spaceKind o.acc.space) o.acc.width ((l.key, bs) :: o.got) a))
    ∧ ∀ r, slotRec t core slot = some r → o ∉ r.loads

/-- The packet of a slot as the command that receives it alone. -/
def received (port : Nat) (p : Packet) (ls : List Line) : Instr :=
  let line : Line := ls.headD (false, List.replicate 64 0)
  if pkType p = tBeacon then .beaconReceive port p
  else if pkType p = tRead then .readReceive port p
  else if pkType p = tReadResp then .readRespReceive p line
  else if pkType p = tWrite then .writeReceive port p line
  else if pkType p = tWriteMasked then .writeMaskedReceive port p line
  else if pkType p = tWriteAck then .writeAckReceive p
  else if pkType p = tSailRun then .sailRunReceive port p ls
  else if pkType p = tLandAck then .landAckReceive p
  else if pkType p = tSettle then .settleReceive p
  else if pkType p = tCut then .cutReceive p
  else if pkType p = tTurnBack then .turnBackReceive p
  else if pkType p = tMissed then .missedReceive p
  else if pkType p = tWindow then .windowReceive p
  else .nodeResetReceive p

/-- Once the port takes its next slot and its acknowledgment has left. -/
def slotTaken (s : State) (port : Nat) : State :=
  linkSend (setPort s port { portState s port with rx := ((portState s port).rx + 1) % 4096 }) port (.ack (portState s port).rx)

end Sys2Proof.Claims

/-- A peer's READ or WRITE is performed in its region and answered, refused with 0x0C10, or told RESETTING. -/
def Obligations.PeerAccessesAreAnswered : Prop :=
  (∀ (port : Nat) (p : Packet) (line : Line) (mask : Nat) (w : Bool) (c : Instr) (s : State), port < 16 → s.get F.fabPortStatus_STATE port = 2 →
      (w = false ∧ pkType p = tRead ∧ c = .readReceive port p
        ∨ w = true ∧ pkType p = tWrite ∧ c = .writeReceive port p line ∧ mask = 2 ^ 64 - 1
        ∨ w = true ∧ pkType p = tWriteMasked ∧ c = .writeMaskedReceive port p line ∧ mask = pf p 191 128) →
      (s.isSet F.fabNode_READY = false → Gives c s (fun t =>
        SentOn s t port 1 (fun r => r = response s p (if w then tWriteAck else tReadResp) 3) ∧ Only [.fab, .out] [] s t))
      ∧ (s.isSet F.fabNode_READY = true → peerPlace s p w = none → Gives c s (fun t =>
        SentOn s t port 1 (fun r => r = response s p (if w then tWriteAck else tReadResp) 2)
        ∧ Posts s t noUnit none 0 0x0C10 (extra2 (pkSrc p) (pkOffset p / 64)) ∧ Only (.fab :: recordParts) recordRegs s t))
      ∧ (∀ pa rq, s.isSet F.fabNode_READY = true → peerPlace s p w = some (pa, rq) → pa + 64 ≤ dramLimit s →
        (w = false → Gives c s (fun t => t.mem = (sectorRead s rq pa).2.mem
          ∧ SentOn s t port 2 (fun r => r = response s p tReadResp (if (sectorRead s rq pa).1.1 then 1 else 0))
          ∧ Only [.mem, .free, .fab, .out] memRegs s t))
        ∧ (w = true → namedBytes line mask ≠ [] → Gives c s (fun t => t.mem = (sectorMasked s rq pa (namedBytes line mask) line.1).mem
          ∧ SentOn s t port 1 (fun r => r = response s p tWriteAck 0) ∧ Only [.mem, .free, .fab, .out] memRegs s t))))
    ∧ ∀ (r v : Nat) (s : State) (x : Region), r < 1024 → s.hl.d3 = false →
      x = ⟨s.word .fabRegion r 0 0, s.word .fabRegion r 0 1, s.word .fabRegion r 0 2, regionWord3 (s.word .fabRegion r 0 3) v⟩ →
      Gives (.fabRegionApply r v) s (fun t => t.word .fabRegion r 0 3 = (if regionBad s x then s.word .fabRegion r 0 3 else x.word3)
        ∧ Only [.acc, .fab] [.fabRegion] s t
        ∧ smapFind t.fab.region r = if regionBad s x then smapFind s.fab.region r else if x.valid then some x else none)

/-- Slots are acknowledged and performed as their packets alone; responses and timeouts end peer accesses. -/
def Obligations.SlotsAndResponsesArePerformed : Prop :=
  (∀ (port : Nat) (pos : List (BitVec 128)) (data : List Line) (okSlot : Bool) (m : LinkMsg) (s : State), port < 16 → pos.length ≤ 4 →
      s.get F.fabPortStatus_STATE port = 2 →
      (∀ c, (c = .headerSlotReceive port pos data okSlot ∧ (okSlot = false ∨ parseSlot 4 pos data = none) ∨ c = .linkSlotReceive port ⟨m, false⟩) →
        Gives c s (fun t => t.out.link = s.out.link ++ [(port, .nak (portState s port).rx)]
          ∧ t.get F.fabPortErr_UNCORRECTED_CW port = min (s.get F.fabPortErr_UNCORRECTED_CW port + 1) (2 ^ 16 - 1)
          ∧ Only [.fab, .out] [.fabPortErr] s t))
      ∧ (∀ p ls, okSlot = true → parseSlot 4 pos data = some [(p, ls)] → pkDest p = thisNode s → pkType p ≠ tSailRun →
        Gives (.headerSlotReceive port pos data okSlot) s (fun t => ∃ u, exec (received port p ls) (slotTaken s port) = .next u
          ∧ t = lanesDue (linkSend u port (.credit (1 + data.length))) port)))
    ∧ (∀ (port n : Nat) (s : State), port < 16 → s.get F.fabPortStatus_STATE port = 2 → (portState s port).queue = [] →
      Gives (.linkSlotReceive port ⟨(.credit n), true⟩) s (fun t => (portState t port).credits = (portState s port).credits + n ∧ Only [.fab] [] s t)
      ∧ ((portState s port).replay.any (fun k => k.seq == n) = true → s.isSet F.fabPortCtrl_DISABLE port = false →
        Gives (.linkSlotReceive port ⟨(.ack n), true⟩) s (fun t =>
        (portState t port).naks = 0
        ∧ (s.fab.held = [] → (portState t port).replay = ((portState s port).replay.dropWhile (fun k => k.seq != n)).drop 1 ∧ Only [.fab] [] s t)
        ∧ (∀ k c q, s.fab.held = [k] → k.stream = some c → portFor s (pkDest k.p) c = some q →
          (mustHold (acked s port n) c (pkDest k.p) q = true → t.fab.held = [k] ∧ t.out.pkts = s.out.pkts)
          ∧ (mustHold (acked s port n) c (pkDest k.p) q = false → t.fab.held = [] ∧ SentOn (acked s port n) t q k.slots (fun r => r = k.p)))))
      ∧ ((portState s port).naks < 15 → Gives (.linkSlotReceive port ⟨(.nak n), true⟩) s (fun t => (portState t port).naks = (portState s port).naks + 1
        ∧ t.out.pkts = s.out.pkts ++ (((portState s port).replay.dropWhile (fun k => k.seq != n)).flatMap (fun k => k.pkts)).map (fun k => (port, k.p))
        ∧ Only [.fab, .out] [.fabPortErr] s t))
      ∧ ∀ node pl, node % 65536 ≠ thisNode s → Gives (.linkSlotReceive port ⟨(.retrain node pl), true⟩) s (fun t => t.get F.fabPortStatus_STATE port = 3
        ∧ t.isSet F.fabPortStatus_LEADER port = false ∧ t.get F.fabPortStatus_PEER_NODE port = node % 65536
        ∧ t.get F.fabPortStatus_RETRAINS port = min (s.get F.fabPortStatus_RETRAINS port + 1) (2 ^ 16 - 1)))
    ∧ (∀ (p : Packet) (line : Line) (s : State) (x : PeerReq) (l : LineReq) (slot : Nat) (o : OutLoad), peerReq s x.tag false = some x →
      l.key = lineKey (x.node * 2 ^ 48 + x.line) 2 3 → l.core = x.core → s.core.lreq.find? (fun l => l.core == x.core && l.id == x.req) = some l →
      (coreLoads s x.core).filter (fun y => y.2.need.contains (l.key, l.id)) = [(slot, o)] → (∀ y ∈ coreLoads s x.core, y.2.want = []) →
      (pkType p = tReadResp → pkTag p = x.tag → pkSrc p = x.node → pkStatus p = 0 → line.1 = false → Gives (.readRespReceive p line) s (fun t =>
        (∀ y ∈ t.fab.reqs, y.tag ≠ x.tag) ∧ LoadEnds t x.core slot o l line.2))
      ∧ (∀ b c, (slotRec s x.core slot).bind (fun r => blockRec s r.block) = some b → (c = .readTimeout x.tag
          ∨ ∃ p ln, c = .readRespReceive p ln ∧ pkType p = tReadResp ∧ pkTag p = x.tag ∧ pkSrc p = x.node ∧ 1 ≤ pkStatus p ∧ pkStatus p ≤ 3) →
        Gives c s (fun t => Ended s t b.ctx ∧ (s.get F.coreHaltA_REASON b.ctx = 0 → t.get F.coreHaltA_REASON b.ctx = 0x46)
          ∧ ∀ y ∈ t.fab.reqs, y.tag ≠ x.tag)))
    ∧ ∀ (p : Packet) (s : State) (x : PeerReq), peerReq s x.tag true = some x →
      (pkType p = tWriteAck → pkTag p = x.tag → pkSrc p = x.node →
        (pkStatus p = 0 → Gives (.writeAckReceive p) s (fun t => (∀ y ∈ t.fab.reqs, y.tag ≠ x.tag)
          ∧ (launchRec s x.launch = none → t.fab.reqs = s.fab.reqs.filter (fun y => y.tag != x.tag) ∧ Only [.fab] [] s t)))
        ∧ (pkStatus p = 2 ∨ pkStatus p = 3 → Gives (.writeAckReceive p) s (fun t => Ended s t x.ctx ∧ ∀ y ∈ t.fab.reqs, y.tag ≠ x.tag)))
      ∧ Gives (.writeTimeout x.tag) s (fun t => Ended s t x.ctx ∧ ∀ y ∈ t.fab.reqs, y.tag ≠ x.tag)

/-- A port trains, retrains, changes its lane set, is disabled and goes down as Table 12.6 and R392 to R396 give. -/
def Obligations.PortsTrainAndRetrain : Prop :=
  ∀ (port : Nat) (s : State), port < 16 →
    (s.get F.fabPortStatus_STATE port = 0 → s.isSet F.fabPortCtrl_DISABLE port = false → portPowered s port = true →
      Gives (.portTrainingStart port) s (fun t => t.get F.fabPortStatus_STATE port = 1
        ∧ t.out.link = s.out.link ++ [(port, .train (thisNode s) (proposal s port))] ∧ Only [.out] [.fabPortStatus, .fabNode] s t))
    ∧ (∀ peer pl echo, s.get F.fabPortStatus_STATE port = 1 → Gives (.portTrainingDone port peer pl echo) s (fun t =>
      (peer % 65536 = thisNode s ∨ proposal s port &&& (pl % 256) = 0 →
        t.get F.fabPortStatus_STATE port = if s.isSet F.fabPortCtrl_DISABLE port then 4 else 0)
      ∧ (peer % 65536 ≠ thisNode s → proposal s port &&& (pl % 256) ≠ 0 → t.get F.fabPortStatus_STATE port = 2
        ∧ t.get F.fabPortStatus_LANE_SET port = proposal s port &&& (pl % 256) ∧ t.get F.fabPortStatus_PEER_NODE port = peer % 65536
        ∧ t.get F.fabPortStatus_DELAY port = min (echo / 2) 65535 ∧ t.get F.fabPortStatus_LEADER port = (if thisNode s < peer % 65536 then 1 else 0)
        ∧ (s.fab.held = [] → s.fab.retune = [] → (portState s port).lanes = 0 →
          Posts s t (portUnit port) none 0 0x0C01 (extra2 (proposal s port &&& (pl % 256)) (peer % 65536))
          ∧ Only recordParts (.fabPortStatus :: .fabNode :: recordRegs) s t))))
    ∧ (s.get F.fabPortStatus_STATE port = 1 → Gives (.portTrainingTimeout port) s (fun t =>
        t.get F.fabPortStatus_STATE port = (if s.isSet F.fabPortCtrl_DISABLE port then 4 else 0) ∧ t.get F.fabPortStatus_LANE_SET port = 0))
    ∧ (s.get F.fabPortStatus_STATE port = 3 → Gives (.retrainTimeout port) s (fun t => t.isSet F.fabPortCtrl_RETRAIN_REQ port = false
        ∧ t.get F.fabPortStatus_STATE port = (if s.isSet F.fabPortCtrl_DISABLE port then 4 else 0) ∧ t.get F.fabPortStatus_LANE_SET port = 0))
    ∧ (∀ lane, lane < 8 → s.get F.fabPortStatus_STATE port = 2 → (s.get F.fabPortStatus_LANE_SET port).testBit lane = true →
      Gives (.laneSignalLoss port lane) s (fun t => t.get F.fabPortStatus_STATE port = 3 ∧ t.isSet F.fabPortStatus_LEADER port = true))
    ∧ (∀ peer pl, s.get F.fabPortStatus_STATE port = 2 → peer % 65536 ≠ thisNode s → Gives (.retrainMessageReceive port peer pl) s (fun t =>
        t.get F.fabPortStatus_STATE port = 3 ∧ t.isSet F.fabPortStatus_LEADER port = false ∧ t.get F.fabPortStatus_PEER_NODE port = peer % 65536))
    ∧ (∀ peer pl echo, s.get F.fabPortStatus_STATE port = 3 → peer % 65536 ≠ thisNode s → proposal s port &&& (pl % 256) ≠ 0 →
      s.isSet F.fabPortCtrl_DISABLE port = false → Gives (.retrainComplete port ⟨peer, pl⟩ echo) s (fun t =>
        t.get F.fabPortStatus_STATE port = 2 ∧ t.get F.fabPortStatus_LANE_SET port = proposal s port &&& (pl % 256)
        ∧ t.get F.fabPortStatus_PEER_NODE port = peer % 65536 ∧ t.get F.fabPortStatus_DELAY port = min (echo / 2) 65535
        ∧ t.isSet F.fabPortCtrl_RETRAIN_REQ port = false))
    ∧ (s.hl.d3 = false → s.unitOff .fabPortCtrl port = false →
      (s.get F.fabPortStatus_STATE port = 2 → Gives (.retrainReqWrite port true) s (fun t => t.get F.fabPortStatus_STATE port = 3
        ∧ t.isSet F.fabPortStatus_LEADER port = true ∧ t.isSet F.fabPortCtrl_RETRAIN_REQ port = true
        ∧ t.get F.fabPortStatus_RETRAINS port = min (s.get F.fabPortStatus_RETRAINS port + 1) (2 ^ 16 - 1)))
      ∧ Gives (.portDisableWrite port true) s (fun t => t.isSet F.fabPortCtrl_DISABLE port = true
        ∧ (s.get F.fabPortStatus_STATE port = 2 → (portState s port).replay = [] → (portState s port).queue = [] →
          t.get F.fabPortStatus_STATE port = 4 ∧ t.get F.fabPortStatus_LANE_SET port = 0)
        ∧ (s.get F.fabPortStatus_STATE port = 2 → (portState s port).replay ≠ [] ∨ (portState s port).queue ≠ [] → Only [] [.fabPortCtrl] s t)
        ∧ (s.get F.fabPortStatus_STATE port = 3 → Only [] [.fabPortCtrl] s t)
        ∧ (s.get F.fabPortStatus_STATE port ≠ 2 → s.get F.fabPortStatus_STATE port ≠ 3 → t.get F.fabPortStatus_STATE port = 4
          ∧ t.get F.fabPortStatus_LANE_SET port = 0 ∧ Only [] [.fabPortCtrl, .fabPortStatus, .fabNode] s t))
      ∧ Gives (.portDisableWrite port false) s (fun t => t.isSet F.fabPortCtrl_DISABLE port = false
        ∧ (s.get F.fabPortStatus_STATE port = 4 → t.get F.fabPortStatus_STATE port = 0 ∧ Only [] [.fabPortCtrl, .fabPortStatus, .fabNode] s t)
        ∧ (s.get F.fabPortStatus_STATE port ≠ 4 → s.fab.held = [] → Only [] [.fabPortCtrl] s t)))
    ∧ (s.hl.d3 = false → s.unitOff .fabPortCtrl port = true → ∀ on, ∀ c ∈ [Instr.portDisableWrite port on, .retrainReqWrite port on],
        Gives c s (Only [.pwr] [.fabPortCtrl] s))
    ∧ ∀ lanes seq, s.get F.fabPortStatus_STATE port = 2 → (portState s port).due = [] →
      ((portState s port).pending = [] ∨ (∃ m q rest, (portState s port).pending = (m, q) :: rest ∧ seq < q) → lanes % 256 &&& proposal s port ≠ 0 →
        Gives (.lanesetReceive port lanes seq) s (fun t => t.out.link = s.out.link ++ [(port, .laneSet (proposal s port) seq)]
          ∧ (if reached (portState s port).rx seq then t.get F.fabPortStatus_LANE_SET port = lanes % 256 &&& proposal s port ∧ (portState t port).due = []
            else t.get F.fabPortStatus_LANE_SET port = s.get F.fabPortStatus_LANE_SET port
              ∧ (portState t port).due = [(seq, lanes % 256 &&& proposal s port)])
          ∧ Only [.fab, .out] [.fabPortStatus] s t))
      ∧ (∀ mine, (portState s port).pending = [(mine, seq)] → (portState s port).crossed = [] → lanes % 256 &&& mine ≠ 0 →
        Gives (.lanesetReceive port lanes seq) s (fun t =>
        t.get F.fabPortStatus_LANE_SET port = lanes % 256 &&& mine ∧ (portState t port).pending = [] ∧ Only [.fab] [.fabPortStatus] s t))
      ∧ (∀ mine q rest, (portState s port).pending = (mine, q) :: rest → q < seq → Gives (.lanesetReceive port lanes seq) s (fun t =>
        (portState t port).crossed = (portState s port).crossed ++ [(lanes, seq)] ∧ (portState t port).pending = (portState s port).pending
        ∧ Only [.fab] [] s t))

/-- A failing lane leaves the set and moves to a spare; worn and failed emitters are replaced as R380 to R382 and R397 give. -/
def Obligations.LanesMoveToSpareWavelengths : Prop :=
  (∀ (port lane : Nat) (s : State), port < 16 → lane < 8 →
      (∀ unc w em, s.get F.fabPortStatus_STATE port = 2 → (s.get F.fabPortStatus_LANE_SET port).testBit lane = true →
        (portState s port).lanes.testBit lane = false → (portState s port).pending = [] → spareWl s port = some w →
        Gives (.laneErrorWindow port lane unc em) s (fun t =>
          t.get F.fabPortStatus_LANE_SET port = s.get F.fabPortStatus_LANE_SET port ∧ t.get F.fabPortStatus_STATE port = 2
          ∧ (portState t port).moving = (portState s port).moving ++ [(lane, w)] ∧ (portState t port).lanes.testBit lane = true
          ∧ (portState t port).pending = [(s.get F.fabPortStatus_LANE_SET port - 2 ^ lane, (portState s port).tx)]
          ∧ t.out.link = s.out.link ++ [(port, .laneSet (s.get F.fabPortStatus_LANE_SET port - 2 ^ lane) (portState s port).tx)]
          ∧ t.get F.fabPortErr_UNCORRECTED_CW port = (if unc then min (s.get F.fabPortErr_UNCORRECTED_CW port + 1) (2 ^ 16 - 1)
              else s.get F.fabPortErr_UNCORRECTED_CW port)
          ∧ Only [.fab, .out] [.fabPortErr] s t))
      ∧ (∀ l w, (portState s port).moving.find? (fun m => m.1 == lane) = some (l, w) → w < 10 → Gives (.laneMoveDone port lane) s (fun t =>
          laneWl t port lane = w ∧ (portState t port).moving = (portState s port).moving.filter (fun m => m.1 != lane)
          ∧ (portState t port).lanes.testBit lane = false
          ∧ (laneWl s port lane ≠ w → (t.get F.fabLaneMap_SPARE_WL port).testBit w = false ∧ smapGet t.bank.lanes lane (port * 8 + lane) = w
            ∧ ∃ unit, Posts s t unit none 2 0x0C02 (waveUnit port w))
          ∧ (laneWl s port lane = w → ∀ e n, s.fab.retune = [(e, n)] → portOfEmitter e = port → emState s e = eInUse → e ≠ n →
            emState t n = eWorn ∧ t.fab.retune = [])
          ∧ (s.get F.fabPortStatus_STATE port = 2 → (portState s port).pending = [] →
            t.out.link = s.out.link ++ [(port, .laneSet (s.get F.fabPortStatus_LANE_SET port ||| 2 ^ lane) (portState s port).tx)])
          ∧ Only (.fab :: recordParts) ([.fabLaneMap, .optEmitter, .ftSpares] ++ recordRegs) s t)))
    ∧ ∀ (n : Nat) (s : State), n < 160 →
      (∀ bias e, bias < 256 → emState s n = eInUse → (s.boot.cfg.map (fun c => c.wearLimit)).getD 150 ≤ bias →
        s.fab.retune.any (fun r => r.2 == n) = false → spareEmitter s (portOfEmitter n) = some e → Gives (.emitterWorn n bias) s (fun t =>
          t.get F.optEmitter_BIAS_PCT n = bias ∧ t.fab.retune = s.fab.retune ++ [(e, n)] ∧ emState t n = eInUse ∧ emState t e = eDark
          ∧ Only [.fab] [.fabLaneMap, .optEmitter, .ftSpares] s t))
      ∧ (emState s n ≠ eFailed → Gives (.emitterFail n) s (fun t => emState t n = eFailed ∧ t.get F.optEmitter_WAVELENGTH n = 15
          ∧ (∀ l w, emState s n = eInUse → w = s.get F.optEmitter_WAVELENGTH n → w ≠ 15 →
            (List.range 8).find? (fun l => laneWl s (portOfEmitter n) l == w) = some l → (portState s (portOfEmitter n)).moving.contains (l, w) = false →
            (s.get F.fabPortStatus_LANE_SET (portOfEmitter n)).testBit l = true → s.get F.fabPortStatus_STATE (portOfEmitter n) = 2 →
            t.get F.fabPortStatus_STATE (portOfEmitter n) = 3)))
      ∧ (∀ wl m worn, wl < 10 → s.fab.retune.find? (fun r => r.1 == n) = some (m, worn) → worn ≠ n → emState s n = eDark →
        Gives (.emitterRetuneDone n wl) s (fun t =>
          emState t n = eInUse ∧ t.get F.optEmitter_WAVELENGTH n = s.get F.optEmitter_WAVELENGTH worn ∧ t.get F.optEmitter_WAVELENGTH worn = 15
          ∧ (match (List.range 8).find? (fun l => laneWl s (portOfEmitter n) l == s.get F.optEmitter_WAVELENGTH worn
                && (s.get F.fabPortStatus_LANE_SET (portOfEmitter n)).testBit l) with
            | some l => (portState t (portOfEmitter n)).lanes.testBit l = true
                ∧ (portState t (portOfEmitter n)).moving = (portState s (portOfEmitter n)).moving ++ [(l, s.get F.optEmitter_WAVELENGTH worn)]
            | none => emState t worn = eWorn)
          ∧ Only (.fab :: recordParts) (.optEmitter :: recordRegs) s t))
      ∧ (∀ wl, wl < 10 → s.fab.retune.find? (fun r => r.1 == n) = none → emState s n = eDark → Gives (.emitterRetuneDone n wl) s (fun t =>
          emState t n = eLit ∧ t.get F.optEmitter_WAVELENGTH n = wl
          ∧ ((List.range 8).any (fun l => laneWl s (portOfEmitter n) l == wl) = false → s.bank.out.contains (waveUnit (portOfEmitter n) wl) = false →
            (t.get F.fabLaneMap_SPARE_WL (portOfEmitter n)).testBit wl = true)
          ∧ Only (.fab :: recordParts) ([.fabLaneMap, .optEmitter, .ftSpares] ++ recordRegs) s t))

namespace Sys2Proof.Claims

/-- The host may submit a command numbered `seq`: BAR0 answers, the block is READY, the port idle, the number new (R418, R454). -/
structure Submits (s : State) (seq : Nat) : Prop where
  link : s.hl.d3 = false
  ready : s.ready = true
  small : seq < 256
  fresh : seq ≠ s.get F.hostCmd_REQ_SEQ
  idle : s.get F.hostCmdStatus_DONE_SEQ = s.get F.hostCmd_REQ_SEQ

/-- The port has answered a submission with a result of Table 13.7. -/
structure Answers (t : State) (seq res : Nat) : Prop where
  result : t.get F.hostCmdStatus_RESULT = res
  done : t.get F.hostCmdStatus_DONE_SEQ = seq
  asked : t.get F.hostCmd_REQ_SEQ = seq

def portRegs : List RegId := [.hostCmd, .hostCmdArg, .hostCmdStatus]

end Sys2Proof.Claims

/-- The context commands are answered by Table 13.8 and move a context through Table 13.12. -/
def Obligations.ContextCommandsMoveTheContext : Prop :=
  ∀ (seq c : Nat) (s : State), c < 4096 →
    (Submits s seq →
      (∀ seed, seed < 2 ^ 64 → s.ctxState c = 0 → Gives (.ctxCreate seq c seed) s (fun t => Answers t seq rDone ∧ t.ctxState c = 1
        ∧ t.isSet F.ctxState_SUSPENDING c = false ∧ t.get F.ctxSeed_SEED c = seed ∧ t.get F.coreHaltA_REASON c = 0
        ∧ Only [.acc, .obj] (portRegs ++ [.ctxSeed, .coreHaltA, .coreHaltB, .coreHaltC, .coreHaltD, .segFault, .ctxState]) s t))
      ∧ (∀ a, a < 2 ^ 17 →
        (∀ i ∈ [Instr.ctxCreate seq c a, .ctxSuspend seq c a, .ctxResume seq c, .ctxCancel seq c a, .ctxDestroy seq c a], s.ctxState c = 4 →
          Gives i s (fun t => Answers t seq rBadState ∧ Only [.acc] portRegs s t))
        ∧ (s.ctxState c = 1 → Gives (.ctxSuspend seq c a) s (fun t => Answers t seq rAccepted ∧ t.isSet F.ctxState_SUSPENDING c = true
          ∧ t.ctxState c = 1 ∧ (t.ctxRec c).suspendArgs = (s.ctxRec c).suspendArgs ++ [a] ∧ Only [.acc, .obj] (.ctxState :: portRegs) s t))
        ∧ (s.ctxState c = 1 ∨ s.ctxState c = 2 ∨ s.ctxState c = 3 → Gives (.ctxCancel seq c a) s (fun t => Answers t seq rAccepted
          ∧ (t.ctxRec c).cancelArgs = (s.ctxRec c).cancelArgs ++ [a] ∧ (∀ f ∈ ferriesOf s c, t.isSet F.ferryCtrl_RUN f = false)
          ∧ ∀ q ∈ queuesOf s c, qState s q = 1 ∨ qState s q = 3 → qState t q = 2))
        ∧ (s.ctxState c = 1 ∨ s.ctxState c = 2 ∨ s.ctxState c = 3 → Gives (.ctxDestroy seq c a) s (fun t => Answers t seq rAccepted
          ∧ t.ctxState c = 4 ∧ (t.ctxRec c).destroyArg = some a ∧ (t.ctxRec c).step = 1 ∧ Only [.acc, .obj] (.ctxState :: .qStatus :: portRegs) s t)))
      ∧ (s.ctxState c = 2 → Gives (.ctxResume seq c) s (fun t => Answers t seq rDone ∧ t.ctxState c = 1
          ∧ Only [.acc, .core, .eng] (.ctxState :: .engStatus :: portRegs) s t)))
    ∧ (s.ctxState c = 1 → s.isSet F.ctxState_SUSPENDING c = true → s.eng.jobs.any (fun j => j.ctx == c && endsFirst j) = false → weightRuns s c = false →
      Gives (.ctxSuspendDone c) s (fun t => t.ctxState c = 2 ∧ t.isSet F.ctxState_SUSPENDING c = false ∧ (t.ctxRec c).suspendArgs = []
        ∧ Only [.obj, .hl, .out] [.ctxState, .evt] s t))
    ∧ ((∀ q ∈ queuesOf s c, qState s q = 2 → (qRec s q).destroyArgs ≠ []) → (∀ f ∈ ferriesOf s c, liveSailings s f = []) →
      Gives (.ctxCancelDone c) s (fun t => (t.ctxRec c).cancelArgs = [] ∧ Only [.obj, .hl, .out] [.evt] s t))
    ∧ (∀ n, s.ctxState c = 4 → (s.ctxRec c).step = n → teardownEnded s c n = true → Gives (.teardownStepDone c) s (fun t =>
      (n < 7 → t.ctxState c = 4 ∧ (t.ctxRec c).step = n + 1)
      ∧ (n = 6 → (∀ b, b < 16384 → t.isSet F.bolCtrl_VALID b = true → t.get F.bolCtrl_OWNER b ≠ c)
        ∧ ∀ f, f < 32 → t.isSet F.ferryCtrl_VALID f = true → t.get F.ferryCtrl_OWNER f ≠ c)
      ∧ (n = 7 → t.ctxState c = 0 ∧ Only [.obj, .hl, .out] [.ctxState, .evt] s t)))

/-- The queue and memory-object commands make, cancel and free what they name, and answer. -/
def Obligations.QueueAndObjectCommandsAnswer : Prop :=
  (∀ (seq q sq cq a2 : Nat) (s : State), Submits s seq → q < 16384 → sq < 2 ^ 64 → cq < 2 ^ 64 → a2 < 2 ^ 49 → sq % 4096 = 0 → cq % 4096 = 0 →
      qState s q = 0 → s.ctxState (a2 % 4096) = 1 → logOk (bitsOf a2 20 16) = true → logOk (bitsOf a2 28 24) = true →
      bitsOf a2 15 12 = 0 → bitsOf a2 23 21 = 0 → bitsOf a2 31 29 = 0 → Gives (.qCreate seq q sq cq a2) s (fun t => Answers t seq rDone
        ∧ qState t q = 1 ∧ qCtx t q = a2 % 4096 ∧ sqSize t q = 2 ^ bitsOf a2 20 16 ∧ cqSize t q = 2 ^ bitsOf a2 28 24
        ∧ t.get F.qStatus_SQ_HEAD q = 0 ∧ t.get F.qStatus_CQ_TAIL q = 0 ∧ t.isSet F.qStatus_PHASE q = true
        ∧ (qRec t q).sqBase = sq ∧ (qRec t q).cqBase = cq ∧ (qRec t q).entries = []
        ∧ t.get F.ctxState_QUEUES (a2 % 4096) = (s.get F.ctxState_QUEUES (a2 % 4096) + 1) % 2 ^ 15
        ∧ Only [.acc, .obj] (portRegs ++ [.qStatus, .qCqHead, .qDoorbell, .ctxState]) s t))
    ∧ (∀ (seq q a : Nat) (s : State), Submits s seq → q < 16384 → a < 2 ^ 17 →
      (qState s q = 1 ∨ qState s q = 3 → Gives (.qCancel seq q a) s (fun t => Answers t seq rAccepted ∧ qState t q = 2
        ∧ (qRec t q).cancelTail = some (if s.ctxState (qCtx s q) = 1 ∨ s.ctxState (qCtx s q) = 2 then (qRec s q).tail else s.get F.qStatus_SQ_HEAD q)
        ∧ (∀ e ∈ (qRec t q).entries, e.started = false → e.fin.isSome = true)))
      ∧ (qState s q ≠ 0 → Gives (.qDestroy seq q a) s (fun t => Answers t seq rAccepted ∧ qState t q = 2
        ∧ (qRec t q).destroyArgs = (qRec s q).destroyArgs ++ [a])))
    ∧ (∀ (q : Nat) (s : State), q < 16384 → qState s q = 2 →
      ((qRec s q).destroyArgs = [] → (qRec s q).entries = [] →
        (qRec s q).cancelTail = some (s.get F.qStatus_SQ_HEAD q) ∨ ctxFetches s (qCtx s q) = false →
        Gives (.qCancelDone q) s (fun t => qState t q = (if qFull s q then 3 else 1) ∧ (qRec t q).cancelTail = none
          ∧ (qRec t q).tail = s.get F.qDoorbell_SQ_TAIL q ∧ Only [.obj, .hl, .out] [.qStatus, .evt] s t))
      ∧ ((qRec s q).destroyArgs ≠ [] → (∀ e ∈ (qRec s q).entries, e.fin.isSome = true ∧ e.bolDone = true) → Gives (.qDestroyDone q) s (fun t =>
          qState t q = 0 ∧ smapFind t.obj.q q = none ∧ t.get F.ctxState_QUEUES (qCtx s q) = s.get F.ctxState_QUEUES (qCtx s q) - 1
          ∧ Only [.obj, .hl, .out] [.qStatus, .qCqHead, .qDoorbell, .ctxState, .evt] s t)))
    ∧ (∀ (seq i : Nat) (s : State), Submits s seq → i < 1048576 → s.isSet F.hostMoTable_ENABLE = true →
      (∀ p n a2 a3, (moRec s i).st = 0 → p % 65536 = 0 → n % 65536 = 0 → n ≠ 0 → p + n ≤ dramLimit s → a2 < 2 ^ 13 → a3 < 2 ^ 17 →
        (a2.testBit 12 = true → slotReady s (a2 % 4096) = true) → Gives (.moAlloc seq i p n a2 a3) s (fun t => Answers t seq rAccepted
          ∧ moRec t i = ⟨1, 1, p, n, a2.testBit 12, a2 % 4096, a3⟩ ∧ Only [.acc, .obj] portRegs s t))
      ∧ (moHeld s i = true → (moRec s i).refs < 2 ^ 32 - 1 → Gives (.moAddref seq i) s (fun t => Answers t seq rDone
          ∧ moRec t i = { moRec s i with refs := (moRec s i).refs + 1 } ∧ cmdArg t 0 = (moRec s i).refs + 1 ∧ Only [.acc, .obj] portRegs s t))
      ∧ (moHeld s i = true → (moRec s i).refs < 2 ^ 32 → Gives (.moRelease seq i) s (fun t => Answers t seq rDone
          ∧ moRec t i = (if (moRec s i).refs ≤ 1 then MoRec.initial else { moRec s i with refs := (moRec s i).refs - 1 })
          ∧ cmdArg t 0 = (moRec s i).refs - 1 ∧ Only [.acc, .obj] portRegs s t))
      ∧ ((moRec s i).refs < 2 ^ 32 → (moRec s i).st < 4 → Gives (.moQuery seq i) s (fun t => Answers t seq rDone ∧ cmdArg t 0 = (moRec s i).st
          ∧ cmdArg t 1 = (moRec s i).refs ∧ Only [.acc] portRegs s t)))
    ∧ ∀ (i : Nat) (s : State), i < 1048576 → (moRec s i).st = 1 → Gives (.moZeroingDone i) s (fun t => (moRec t i).st = 2
      ∧ t.mem = (zeroRange s (moRec s i)).mem ∧ Only (.mem :: .free :: .obj :: recordParts) (recordRegs ++ memRegs) s t)

namespace Sys2Proof.Claims

/-- The next entry of a queue is `e`, of opcode `op`, with its bollards owned and its start condition met (R436, R231, R226). -/
structure StartsNow (s : State) (q op : Nat) (e : QEntry) : Prop where
  queue : q < 16384
  next : nextEntry s q op = some e
  owned : badEntryBollard s (qCtx s q) e = none
  met : e.start = none

/-- The entry stands in its queue, started; decided OK where `fin`. -/
def EntryRuns (t : State) (q : Nat) (e : QEntry) (fin : Option (Nat × Nat)) : Prop :=
  ∃ x ∈ (qRec t q).entries, x.idx = e.idx ∧ x.sqe = e.sqe ∧ x.started = true ∧ x.fin = fin

/-- The job that a queue entry makes. -/
def entryJob (s : State) (q : Nat) (e : QEntry) (unit : Nat) (job : Job) : EngJob :=
  { id := s.obj.nextId, unit := unit, ctx := qCtx s q, origin := .queue q e.idx, job := job, acc := false, token := 64, bollard := none,
    start := none, started := false, stopping := false, cursor := 0, census := [], parked := none, got := [], since := s.ns }

/-- The block as a job has arrived at its unit, the unit's clock running. -/
def arrived (s : State) (j : EngJob) : State := ungate (setJobs s (s.eng.jobs ++ [j])) j.unit

/-- The checks of a segmented multiply in their order (R551, R123). -/
def segChecks (c : Nat) (p : SegJob) (s : State) : Res (List SegRun) :=
  (segManifest c p s).then (fun es s => (segEntries c p es 0 0 [] s).then (fun rs s => segWhole c p rs s))

/-- A segmented multiply runs with its runs on its context's granted cores, no task begun. -/
def SegRuns (t w : State) (j : EngJob) (runs : List SegRun) : Prop :=
  ∃ m ∈ t.eng.seg, m.job = { j with started := true } ∧ m.runs = runs ∧ m.cores = grantCores w j.ctx ∧ m.tasks = [] ∧ m.cancelled = false

end Sys2Proof.Claims

/-- A queue fetches its entries in order, starts them when it may, and completes them in ring order. -/
def Obligations.QueueEntriesRunAndComplete : Prop :=
  (∀ (q v : Nat) (s : State), q < 16384 → s.hl.d3 = true → ∀ i ∈ [Instr.qDoorbellWrite q v, .qCqHeadWrite q v], Gives i s (fun t => t = s))
    ∧ (∀ (q v : Nat) (s : State), q < 16384 → s.hl.d3 = false →
      (v % 65536 < sqSize s q → Gives (.qDoorbellWrite q v) s (fun t => t.get F.qDoorbell_SQ_TAIL q = v % 65536
        ∧ (qState s q ≠ 2 → (qRec t q).tail = v % 65536) ∧ (qRec t q).entries = (qRec s q).entries ∧ Only [.obj] [.qDoorbell, .qStatus] s t))
      ∧ (sqSize s q ≤ v % 65536 → Gives (.qDoorbellWrite q v) s (fun t => t = s))
      ∧ (v % 65536 < cqSize s q → (qRec s q).entries = [] → Gives (.qCqHeadWrite q v) s (fun t => t.get F.qCqHead_CQ_HEAD q = v % 65536
        ∧ (qState s q = 1 ∨ qState s q = 3 → qState t q = if qFull t q then 3 else 1) ∧ Only [] [.qCqHead, .qStatus] s t)))
    ∧ (∀ (q : Nat) (bs : List Byte) (holds : List Nat) (s : State) (e : QEntry), q < 16384 → bs.length = 64 → holdsOk bs holds = true →
      mayFetch s q = true → qState s q ≠ 2 → e = ⟨s.get F.qStatus_SQ_HEAD q, bs, [], false, none, false, none,
        if (leAt bs 1 1).testBit 2 && decide (bolValue s (leAt bs 0x2C 2 % 16384) < leAt bs 0x30 8) then some (leAt bs 0x2C 2 % 16384, leAt bs 0x30 8) else none⟩ → sqSize s q ≤ 65536 →
      Gives (.sqEntryFetch q bs holds) s (fun t => t.get F.qStatus_SQ_HEAD q = (s.get F.qStatus_SQ_HEAD q + 1) % sqSize s q
        ∧ (∀ r, e.refused = some r → (qRec t q).entries = (qRec s q).entries ++ [{ e with fin := some (3, r) }])
        ∧ (e.refused = none → holds.all (moReady s) = false → (qRec t q).entries = (qRec s q).entries ++ [{ e with fin := some (3, 3) }])
        ∧ (e.refused = none → holds.all (moReady s) = true → (qRec t q).entries = (qRec s q).entries ++ [{ e with holds := holds }]
          ∧ (holds.Nodup → ∀ i ∈ holds, moRec t i = { moRec s i with refs := (moRec s i).refs + 1 }))
        ∧ Only [.obj] [.qStatus] s t))
    ∧ (∀ (q op : Nat) (s : State) (e : QEntry), StartsNow s q op e →
      (op = 0 → Gives (.sqeNop q) s (fun t => EntryRuns t q e (some (0, 0)) ∧ Only [.obj] [.qStatus] s t))
      ∧ (op = 6 → Gives (.sqeSignal q) s (fun t => EntryRuns t q e (some (0, 0)) ∧ Only [.obj, .hl, .out] [.qStatus, .evt] s t))
      ∧ (op = 4 → Gives (.sqeBollardAdvance q) s (fun t =>
        (s.run.bolQ = [] → EntryRuns t q e (some (0, 0)) ∧ bolValue t e.done = (bolValue s e.done + e.inc) % 2 ^ 64)
        ∧ (s.run.bolQ ≠ [] → EntryRuns t q e none ∧ t.run.bolQ = s.run.bolQ ++ [⟨e.done, e.inc, .finish q e.idx⟩])))
      ∧ (op = 5 → ((qRec s q).entries.takeWhile (fun x => x.idx != e.idx)).all (fun x => x.bolDone) = true →
        Gives (.sqeBarrier q) s (fun t => EntryRuns t q e (some (0, 0)) ∧ Only [.obj] [.qStatus] s t))
      ∧ (∀ l u, op = 1 → launchChecks (qCtx s q) q e s = .ok l u → (∀ x ∈ u.run.launches, x.id ≠ l.id) → l.total ≠ 0 →
        Gives (.sqeLaunch q) s (fun t => EntryRuns t q e none ∧ t.run.launches = u.run.launches ++ [l]))
      ∧ (∀ p pl u v j runs w, op = 2 → descriptorAt s q e = .ok pl u → queueUsed u hmUnit < queueSize hmUnit → j = entryJob u q e hmUnit (.segmul p) →
        v = arrived (markStarted { u with obj := { u.obj with nextId := u.obj.nextId + 1 } } q e.idx) j → segRefused p = none →
        segChecks j.ctx p v = .ok runs w → grantCores w j.ctx ≠ [] → Gives (.sqeSegmul q p) s (fun t => EntryRuns t q e none ∧ SegRuns t w j runs))
      ∧ (∀ job pl u, op = 3 → descriptorAt s q e = .ok pl u → unitFits e.unit job = true → unitUp u e.unit = true → engPowered u e.unit = true →
        queueUsed u e.unit < queueSize e.unit → Gives (.sqeEngine q job) s (fun t => EntryRuns t q e none
          ∧ ∃ x ∈ t.eng.jobs, x.unit = e.unit ∧ x.job = job ∧ x.origin = .queue q e.idx ∧ x.ctx = qCtx s q)))
    ∧ ∀ (q : Nat) (s : State) (e : QEntry) (st rs : Nat), q < 16384 → e.idx < 65536 → (qRec s q).entries = [e] → e.fin = some (st, rs) →
      e.bolDone = false → (∀ a ∈ s.run.bolQ, a.fin ≠ .entry q e.idx) →
      (s.run.bolQ ≠ [] → st = 0 → e.flag 3 = true → Gives (.sqEntryComplete q e.idx) s (fun t => (qRec t q).entries = [e]
        ∧ t.run.bolQ = s.run.bolQ ++ [⟨e.done, e.inc, .entry q e.idx⟩] ∧ Only [.run] [] s t))
      ∧ ((s.run.bolQ = [] ∨ st ≠ 0 ∨ e.flag 3 = false) → s.get F.qStatus_CQ_LOG2 q ≤ 16 → qFull s q = false → s.upstream = true → s.ready = true →
      Gives (.sqEntryComplete q e.idx) s (fun t => (qRec t q).entries = []
        ∧ (st = 0 → e.flag 3 = true → bolValue t e.done = (bolValue s e.done + e.inc) % 2 ^ 64)
        ∧ t.get F.qStatus_CQ_TAIL q = if e.flag 1 && st == 0 then s.get F.qStatus_CQ_TAIL q else (s.get F.qStatus_CQ_TAIL q + 1) % cqSize s q))

namespace Sys2Proof.Claims

/-- What a snoop of a line held in a state is answered, and the state the line goes to (Table 13.29; SnpCur's answers from the buffer, log 29). -/
def snoopAnswer (k : Nat) (l : HostLine) : D2H × Mesi :=
  match l.st, k with
  | .m, 0 => (.rspSFwdM l.ha l.data l.poison, .s)
  | .m, 1 => (.rspIFwdM l.ha l.data l.poison, .i)
  | .m, _ => (.rspVFwdV l.ha l.data l.poison, .m)
  | .i, _ => (.rspIHitI l.ha, .i)
  | _, 0 => (.rspSHitSE l.ha, .s)
  | _, 1 => (.rspIHitSE l.ha, .i)
  | st, _ => (.rspVHitV l.ha, st)

/-- The snoop commands: 0 SnpData, 1 SnpInv, 2 SnpCur. -/
def snpCmd (k ha : Nat) : Instr := match k with | 0 => .snpData ha | 1 => .snpInv ha | _ => .snpCur ha

/-- Contexts that wait for the host lose their path to it (R449). -/
def HostLost (s t : State) : Prop :=
  ∀ w ∈ hostWaits s, s.ctxState w.1 = 1 ∨ s.ctxState w.1 = 2 → t.ctxState w.1 = 3 ∧ t.isSet F.ctxState_HOST_PATH_LOST w.1 = true

end Sys2Proof.Claims

/-- The Sump ring drains, bus mastering and D3hot stop the host path, reads complete, snoops and grants move host lines. -/
def Obligations.HostLinkServesAndStops : Prop :=
  (∀ (v : Nat) (s : State), s.hl.d3 = false → s.flt.hold = [] → Gives (.sumpRingWrite v) s (fun t => t.isSet F.sumpRing_ENABLE = v.testBit 0
      ∧ t.get F.sumpRing_BASE = bitsOf v 63 12
      ∧ t.get F.sumpTail_TAIL = (if v.testBit 0 && !s.isSet F.sumpRing_ENABLE then 0 else s.get F.sumpTail_TAIL) ∧ Only [.acc] [.sumpRing, .sumpTail] s t))
    ∧ (∀ (v : Nat) (s : State), s.hl.d3 = false → Gives (.sumpHeadWrite v) s (fun t => t.get F.sumpHead_HEAD = v % 2 ^ 32
      ∧ (∀ r, s.flt.hold = [r] → sumpWritable (s.put F.sumpHead_HEAD v) = true → t.flt.hold = [] ∧ ∃ p ∈ t.out.posted, p.bytes = r.bytes)
      ∧ Only [.acc, .flt, .hl, .out] [.sumpHead, .sumpTail, .sumpHold, .evt] s t))
    ∧ (∀ s : State, Gives .busMasterDisable s (fun t => t.isSet F.hostStatus_BME = false ∧ t.upstream = false ∧ HostLost s t)
      ∧ Gives .d3hotEntry s (fun t => HostLost s t ∧ (hostWaits s = [] → t.hl.d3 = true ∧ t.upstream = false ∧ Only [.hl] [] s t))
      ∧ Gives .busMasterEnable s (fun t => t.isSet F.hostStatus_BME = true
        ∧ (s.flt.hold = [] → s.obj.q = [] → s.hl.pba = [] → s.hl.flrEvict = false →
          (∀ n, n < 256 → s.get F.cavSliceStatus_STATE n ≠ 1) → t.hl.held = false ∧ t.hl.d3 = s.hl.d3 ∧ Only [.hl] [.hostStatus] s t))
      ∧ (s.isSet F.hostStatus_BME = false ∨ s.hl.held = true → Gives .d0Return s (fun t => t.hl.d3 = false ∧ t.upstream = false ∧ Only [.hl] [] s t))
      ∧ (∀ b : Bool, Gives (if b then .cxlCacheEnable else .cxlCacheDisable) s (fun t => t.hl.cacheEn = b
        ∧ t.isSet F.hostStatus_CXL_CACHE = (b && s.isSet F.cavCtrl_HOSTLINE_EN) ∧ Only [.hl] [.hostStatus, .cap] s t)))
    ∧ (∀ (n : Nat) (data : List Byte) (s : State) (h : HostRead), s.hl.reads.find? (fun x => x.id == n) = some h →
      (s.upstream = true → data.length = h.len → h.core = jobReader → Gives (.hostReadCompletion n true data) s (fun t =>
        t.hl.reads = s.hl.reads.filter (fun x => x.id != n)
        ∧ t.eng.jobs = updWhere s.eng.jobs (fun j => j.id == h.key) (fun j => { j with got := j.got ++ [(h.addr, false, data)] })
        ∧ Only [.hl, .eng] [] s t))
      ∧ (∀ l slot o, s.upstream = true → data.length = h.len → h.len = 128 → h.core ≠ jobReader → s.core.lreq.find? (fun l => l.core == h.core && l.id == h.req) = some l →
        keyKind l.key = 3 → keyTgt l.key = 1 → glFind s h.core (keyAddr l.key) true = none →
        (coreLoads s h.core).filter (fun y => y.2.need.contains (l.key, l.id)) = [(slot, o)] → (∀ y ∈ coreLoads s h.core, y.2.want = []) →
        Gives (.hostReadCompletion n true data) s (fun t => LoadEnds t h.core slot o l data))
      ∧ (s.upstream = true → h.core = jobReader → Gives (.hostReadCompletion n false data) s (fun t => t.hl.reads = s.hl.reads.filter (fun x => x.id != n)
        ∧ Posts s t 0xD003 none 0 0x0D02 (h.addr % 2 ^ 64) ∧ ∃ bs, t.eng.jobs = updWhere s.eng.jobs (fun j => j.id == h.key)
            (fun j => { j with got := j.got ++ [(h.addr, true, bs)] }))))
    ∧ ∀ (ha : Nat) (s : State), ha % 64 = 0 →
      (∀ k, k < 3 → inEvict s ha = false → s.hl.creq.any (fun r => r.ha == ha) = false →
        (hlFind s ha = none → Gives (snpCmd k ha) s (fun t => t.out.cxl = s.out.cxl ++ [(0, .rspIHitI ha)] ∧ hlFind t ha = none ∧ Only [.hl, .out] [] s t))
        ∧ (∀ l, hlFind s ha = some l → Gives (snpCmd k ha) s (fun t => t.out.cxl = s.out.cxl ++ [(0, (snoopAnswer k l).1)]
          ∧ hlFind t ha = (if (snoopAnswer k l).2 = .i then none else some { l with st := (snoopAnswer k l).2 }) ∧ Only [.hl, .out] [] s t)))
      ∧ (∀ st data, st < 4 → data.length = 64 → inEvict s ha = false → s.hl.creq.any (fun r => r.ha == ha) = true →
        Gives (.goReceive ha st data) s (fun t => hlFind t ha = some ⟨ha, mesiOf st, data, false⟩ ∧ (∀ r ∈ t.hl.creq, r.ha ≠ ha) ∧ Only [.hl, .run] [] s t))
      ∧ (inEvict s ha = false → s.hl.creq.any (fun r => r.ha == ha) = true → Gives (.goErr ha) s (fun t =>
        (∃ l, hlFind t ha = some l ∧ l.poison = true ∧ l.st = .i) ∧ Posts s t (hostSliceUnit s ha) none 0 0x0D05 (ha % 2 ^ 64)
        ∧ Only (.free :: .run :: recordParts) recordRegs s t))
      ∧ (∀ e, s.hl.evict.find? (fun x => x.ha == ha) = some e → s.hl.flrEvict = false → s.get F.cavSliceStatus_STATE (hostSet s ha).1 ≠ 1 →
        (∀ st data, st < 4 → Gives (.goReceive ha st data) s (fun t => t.hl.evict = s.hl.evict.filter (fun x => x.ha != ha) ∧ Only [.hl] [] s t))
        ∧ Gives (.goWritepullDrop ha) s (fun t => t.hl.evict = s.hl.evict.filter (fun x => x.ha != ha) ∧ t.out = s.out ∧ Only [.hl] [] s t)
        ∧ Gives (.goWritepull ha) s (fun t => t.hl.evict = s.hl.evict.filter (fun x => x.ha != ha)
          ∧ t.out.cxl = s.out.cxl ++ [(0, .evictData ha e.data e.poison)] ∧ Only [.hl, .out] [] s t))

/-- Segment writes are applied or rejected, keys are made and lost, DRAM channels move, fail and are scrubbed, wrappers answer. -/
def Obligations.SegmentsKeysAndChannelsApply : Prop :=
  (∀ (c sg attr : Nat) (s : State), c < 4096 → sg < 16 → s.hl.d3 = false →
      (attr.testBit 0 = false → Gives (.segApply c sg attr) s (fun t => smapFind t.mem.seg (c * 16 + sg) = none
        ∧ t.get F.segApplyStatus_APPLIED = (s.get F.segApplyStatus_APPLIED + 1) % 2 ^ 32 ∧ Only [.acc, .mem] [.segAttr, .segApplyStatus] s t))
      ∧ (attr.testBit 0 = true → segGood (stagedSeg s c sg (attrWord s c sg attr)) = true → attrReserved attr = 0 →
        s.eng.jobs.any (fun j => j.ctx == c && j.parked == some sg) = false → Gives (.segApply c sg attr) s (fun t =>
        smapFind t.mem.seg (c * 16 + sg) = some (stagedSeg s c sg (attrWord s c sg attr))
        ∧ (attr.testBit 1 = true → ∀ p ∈ t.mem.parked, p.key ≠ c * 16 + sg)
        ∧ t.word .segAttr c sg 0 = attrWord s c sg attr ∧ t.get F.segApplyStatus_APPLIED = (s.get F.segApplyStatus_APPLIED + 1) % 2 ^ 32))
      ∧ (attr.testBit 0 = true → (segGood (stagedSeg s c sg (attrWord s c sg attr)) = false ∨ attrReserved attr ≠ 0) →
        Gives (.segApply c sg attr) s (fun t => t.isSet F.segApplyStatus_REJECTED = true ∧ t.get F.segApplyStatus_REJ_CONTEXT = c
          ∧ t.get F.segApplyStatus_REJ_SEGMENT = sg ∧ Only [.acc] [.segApplyStatus] s t))
      ∧ (∀ p, s.get F.segFaultLimit_LIMIT_MS ≠ 0 → s.mem.parked.find? (fun p => p.key == c * 16 + sg) = some p →
        Gives (.segFaultTimeout c sg) s (fun t => Ended s t c ∧ (s.get F.coreHaltA_REASON c = 0 → t.get F.coreHaltA_REASON c = 0x44))))
    ∧ (∀ (k v : Nat) (s : State), k < 4096 →
      (s.hl.d3 = false → Gives (.keySlotWrite k v) s (fun t => t.get F.keySlot_OWNER k = bitsOf v 11 0 ∧ t.isSet F.keySlot_VALID k = v.testBit 12
        ∧ (s.isSet F.keySlot_VALID k = true → v.testBit 12 = false → t.get F.keySlot_REQ k = 0 ∧ t.get F.keySlot_GEN_DONE k = 0
          ∧ smapGet t.mem.keyGen 1 k = 1)
        ∧ (v.testBit 12 = true → bitsOf v 23 16 ≠ 0 → t.get F.keySlot_REQ k = bitsOf v 23 16 ∧ t.mem = s.mem)
        ∧ Only [.mem] [.keySlot] s t))
      ∧ (unitUp s (unitId 0xD 2) = true → s.isSet F.keySlot_VALID k = true → s.get F.keySlot_REQ k ≠ s.get F.keySlot_GEN_DONE k →
        Gives (.keyGenDone k) s (fun t => t.get F.keySlot_GEN_DONE k = s.get F.keySlot_REQ k ∧ smapGet t.mem.keyGen 1 k = s.mem.keyNext
          ∧ t.mem.keyNext = s.mem.keyNext + 1 ∧ t.mem.dram = s.mem.dram ∧ Only [.mem] [.keySlot] s t)))
    ∧ (∀ (n : Nat) (s : State), n < 256 →
      (s.hl.d3 = false → ∀ b : Bool, Gives (if b then .channelMapOut n else .channelRestore n) s (fun t => s.unitOff .dramChanCtrl n = true →
        t.get F.dramChanCtrl_TARGET n = (if b then 1 else 0) ∧ t.mem = s.mem ∧ Only [.pwr] [.dramChanCtrl] s t))
      ∧ (s.hl.d3 = false → s.unitOff .dramChanCtrl n = false → ∀ b : Bool, s.get F.dramChanCtrl_TARGET n = (if b then 0 else 1) → s.mem.move = none → s.mem.moveQ = [] →
        (if b then chanState s n = 0 ∧ s.mem.out.length < s.get F.dramSpace_MAX_MAPOUT else chanState s n = 2) →
        Gives (if b then .channelMapOut n else .channelRestore n) s (fun t => t.get F.dramChanCtrl_TARGET n = (if b then 1 else 0)
          ∧ chanState t n = (if b then 1 else 3) ∧ t.mem.move = some (n, b) ∧ t.mem.out = (if b then setInsert s.mem.out n else s.mem.out)
          ∧ Only [.mem] [.dramChanCtrl, .dramChanStatus, .dramSpace] s t))
      ∧ (∀ b : Bool, s.mem.move = some (n, b) → s.mem.moveQ = [] → chanState s n ≠ 4 → Gives (.channelMoveDone n) s (fun t =>
          chanState t n = (if b then 2 else 0) ∧ t.mem.move = none ∧ t.mem.out = (if b then s.mem.out else setErase s.mem.out n)
          ∧ Only (.mem :: recordParts) ([.dramChanStatus, .dramSpace, .idDevice] ++ recordRegs) s t))
      ∧ (chanState s n = 0 ∨ chanState s n = 1 ∨ chanState s n = 3 → Gives (.channelFail n) s (fun t => chanState t n = 4
          ∧ Posts s t (chanUnit n) none 1 0x0403 0 ∧ Only (.mem :: recordParts) (.dramChanStatus :: recordRegs) s t)))
    ∧ (∀ (pa : Nat) (s : State), pa < dramLimit s → chanFailed s pa = false →
      Gives (.dramScrub pa true) s (fun t => t.get F.dramChanStatus_CE_COUNT (storeChannel s pa)
          = min (s.get F.dramChanStatus_CE_COUNT (storeChannel s pa) + 1) (2 ^ 16 - 1)
        ∧ Posts s t (chanUnit (storeChannel s pa)) none 0 0x0401 (pa / 64 * 64) ∧ t.mem = s.mem ∧ Only recordParts (.dramChanStatus :: recordRegs) s t)
      ∧ Gives (.dramUncorrectable pa) s (fun t => t.mem.poison = setInsert s.mem.poison (pa / 64)
        ∧ t.get F.dramChanStatus_UE_COUNT (storeChannel s pa) = min (s.get F.dramChanStatus_UE_COUNT (storeChannel s pa) + 1) (2 ^ 8 - 1)
        ∧ Only (.mem :: recordParts) (.dramChanStatus :: recordRegs) s t))
    ∧ ∀ (m v : Nat) (s : State), m < 8 →
      (∀ ch, s.hl.d3 = false → smapFind s.mem.wrap m = none → bitsOf v 39 32 ≠ s.get F.dram1500Ctrl_DONE_SEQ m → 1 ≤ bitsOf v 24 16 → bitsOf v 24 16 ≤ 256 →
        ch = 32 * m + bitsOf v 12 8 → Gives (.wrapperRequest m v) s (fun t =>
          (((s.boot.cfg.map (fun c => c.disruptive)).getD []).contains (bitsOf v 7 0) = true → chanState s ch ≠ 5 →
            t.get F.dram1500Ctrl_RESULT m = 1 ∧ t.get F.dram1500Ctrl_DONE_SEQ m = bitsOf v 39 32 ∧ t.mem = s.mem)
          ∧ (((s.boot.cfg.map (fun c => c.disruptive)).getD []).contains (bitsOf v 7 0) = false ∨ chanState s ch = 5 →
            smapFind t.mem.wrap m = some ⟨bitsOf v 39 32, bitsOf v 7 0, ch, bitsOf v 24 16⟩)
          ∧ Only [.acc, .mem] [.dram1500Ctrl] s t))
      ∧ (∀ r resp data, smapFind s.mem.wrap m = some r → s.get F.dram1500Ctrl_REQ_SEQ m = r.seq → r.seq < 256 →
        Gives (.wrapperDone m resp data) s (fun t => t.get F.dram1500Ctrl_RESULT m = (if resp then 0 else 2) ∧ t.get F.dram1500Ctrl_DONE_SEQ m = r.seq
          ∧ smapFind t.mem.wrap m = none ∧ (resp = true → r.len = 256 → ∀ j, j < 4 → t.get F.dram1500Data_DATA m j = nthD data j 0 % 2 ^ 64)
          ∧ Only [.mem] [.dram1500Ctrl, .dram1500Data] s t))

namespace Sys2Proof.Claims

/-- Registers that reading an instruction's line may change beside ISSUED: what device memory's accesses show, the bytes fetched (R207). -/
def fetchRegs : List RegId := .corePipeIssued :: .ctxIfetchBytes :: memRegs

/-- The instruction at a place issues as thread `t` and its line is read, which leaves `u`: the place exists, its fragment may issue
(R157, R165, R429), the program counter lies in the code (R185), the line answers without poison (R207). -/
structure Issues (s : State) (a : At) (t : Th) (u : State) : Prop where
  place : placeOk a = true
  thread : thread? s a ⟨[], 0⟩ = some t
  inCode : t.l.decl.codeOffset ≤ t.f.pc ∧ t.f.pc < t.l.decl.codeOffset + t.l.decl.codeSize
  line : ∃ bs, roLine (s.bump F.corePipeIssued_ISSUED 1 a.core) t.core t.c 0 (t.l.code + t.l.codeOff + t.f.pc) .exec = .ok false bs u

/-- No outstanding load of the fragment holds back an instruction that uses `x`: its registers and its kind (R165, R168, R219 to R224). -/
def Free (s : State) (t : Th) (x : Uses) : Prop := ∀ r, slotRec s t.core t.slot = some r → ∀ o ∈ r.loads, o.holds t.f.mask x = false

/-- Every lane of the fragment sits in a fragment of its slot that waits for nothing at `pc` (R157, R159). -/
def GoesOn (v : State) (t : Th) (pc : Nat) : Prop :=
  ∃ r, slotRec v t.core t.slot = some r ∧ ∀ l, t.f.mask.testBit l = true → ∃ g ∈ r.frags, g.mask.testBit l = true ∧ g.pc = pc ∧ g.wait = .none

/-- The block records, the launches and the other slots are the same in two states: only one slot's fragments moved. -/
def SlotOnly (u v : State) (core slot : Nat) : Prop :=
  (∃ sl, v.run = { u.run with slots := sl }) ∧ ∀ k, k ≠ slotKey core slot → smapFind v.run.slots k = smapFind u.run.slots k

/-- A register of every lane of the fragment holds these numbers, as 32-bit words. -/
def RegIs (v : State) (t : Th) (r : Nat) (f : Nat → Nat) : Prop :=
  ∀ l, l < 32 → t.f.mask.testBit l = true → t.reg v r l = f l % 2 ^ 32

/-- The register cache of a slot as its reads and writes leave it: one row a register, none dead, a clean row equal to the main file (R172). -/
def CacheOk (u : State) (core slot : Nat) : Prop :=
  ((smapGet u.core.rc [] (slotKey core slot)).map (fun r => r.reg)).Nodup
    ∧ ∀ r ∈ smapGet u.core.rc [] (slotKey core slot), r.reg < 64 ∧ r.dead = false ∧ (r.lanes.map Prod.fst).Pairwise (· < ·)
      ∧ ∀ lv ∈ r.lanes, lv.1 < 32 ∧ (r.dirty = false → lv.2 = smapGet u.core.rf 0 (rfKey core slot r.reg lv.1))

/-- A source that a frame of registers admits: a register that exists, not marked dead. -/
def LiveSrc (x : Src) : Prop := x.reg < 64 ∧ x.dead = false

/-- Every register of every slot but those lanes of the destination reads as before. -/
def RegsKept (u v : State) (t : Th) (dst : Nat) : Prop :=
  ∀ c sl r l, sl < 128 → r < 64 → l < 32 → ¬(c = t.core ∧ sl = t.slot ∧ r = dst ∧ t.f.mask.testBit l = true) →
    regRead v c sl r l = regRead u c sl r l

/-- An instruction that wrote one register has gone on: the result in place, nothing else of the cores, the runs or the rest changed. -/
structure Wrote (u v : State) (t : Th) (dst : Nat) (f : Nat → Nat) : Prop where
  result : RegIs v t dst f
  next : GoesOn v t t.at_.next
  frame : Only [.core, .run, .free] [] u v
  cores : ∃ rf rc, v.core = { u.core with rf := rf, rc := rc }
  slots : SlotOnly u v t.core t.slot

/-- The result of an integer instruction on two words as numbers (Table 5.6, R46's companion INT32), where the manual states one: none
for a shift by 32 or more. -/
def intResult (fn : VFn) (a b : Nat) : Option Nat :=
  match fn with
  | .iadd => some ((a + b) % 2 ^ 32)
  | .isub => some ((2 ^ 32 + a - b) % 2 ^ 32)
  | .imul => some (a * b % 2 ^ 32)
  | .ishl => if b < 32 then some (a * 2 ^ b % 2 ^ 32) else none
  | .ishr => if b < 32 then some (a / 2 ^ b) else none
  | .isar => if b < 32 then some (if a < 2 ^ 31 then a / 2 ^ b else 2 ^ 32 - 1 - (2 ^ 32 - 1 - a) / 2 ^ b) else none
  | .iand => some (a &&& b)
  | .ior => some (a ||| b)
  | .ixor => some (a ^^^ b)
  | _ => none

end Sys2Proof.Claims

/-- Vector, function, conversion, mask and census instructions write their result and go on. -/
def Obligations.ThreadArithmeticWritesItsResult : Prop :=
  ∀ (a : At) (s u : State) (t : Th), Issues s a t u →
    (Only [.mem, .core, .free] fetchRegs s u ∧ u.get F.corePipeIssued_ISSUED a.core = (s.get F.corePipeIssued_ISSUED a.core + 1) % 2 ^ 64
      ∧ ∃ ro, u.core = { s.core with ro := ro })
    ∧ (∀ op : VecOp, op.dst < 64 → Free s t (plainUses (vecSrcs op) [op.dst]) → Gives (.vectorOp a op) s (fun v => Wrote u v t op.dst (vecLane u t op)
      ∧ (∀ l n, l < 32 → t.f.mask.testBit l = true → intResult op.fn (t.reg u op.a.reg l) (t.reg u op.b.reg l) = some n → t.reg v op.dst l = n)
      ∧ (∀ l, op.fn = .exchange → l < 32 → t.f.mask.testBit l = true → t.f.mask.testBit (t.reg u op.b.reg l % 32) = true →
        t.reg v op.dst l = t.reg u op.a.reg (t.reg u op.b.reg l % 32))
      ∧ (CacheOk u t.core t.slot → LiveSrc op.a → LiveSrc op.b → (op.fn = .ffma ∨ op.fn = .select → LiveSrc op.c) → RegsKept u v t op.dst ∧ CacheOk v t.core t.slot)))
    ∧ (∀ (f : XFn) (dst : Nat) (src : Src), dst < 64 → Free s t (plainUses [src] [dst]) → Gives (.convertOp a (.fn f dst src)) s (fun v => Wrote u v t dst (fun l => funcLane f (t.reg u src.reg l))
      ∧ (∀ l, l < 32 → t.f.mask.testBit l = true → isNan32 (t.reg u src.reg l) = true → t.reg v dst l = 0x7FC00000)
      ∧ (CacheOk u t.core t.slot → LiveSrc src → RegsKept u v t dst)))
    ∧ (∀ (op : CvtOp) (w : Nat → Nat), op.dst < 64 → Free s t (plainUses (if op.mode = .sr then [op.src, op.rnd] else [op.src]) [op.dst]) →
      (∀ l, l < 32 → t.f.mask.testBit l = true → convertThread op.srcFmt op.dstFmt (cvtRound t u op l) (t.reg u op.src.reg l % 2 ^ op.srcFmt.width) = some (w l)) →
      Gives (.convertOp a (.cvt op)) s (fun v => Wrote u v t op.dst w
        ∧ (CacheOk u t.core t.slot → LiveSrc op.src → (op.mode = .sr → LiveSrc op.rnd) → RegsKept u v t op.dst)))
    ∧ (∀ (dst : Nat) (step layer : Src), dst < 64 → Free s t (plainUses [step, layer] [dst]) → Gives (.maskkey a dst step layer) s (fun v =>
      Wrote u v t dst (fun l => (maskKey (ctxSeed u t.c) t.c (regRead u t.core t.slot step.reg l) (regRead u t.core t.slot layer.reg l)).toNat)
      ∧ (CacheOk u t.core t.slot → LiveSrc step → LiveSrc layer → RegsKept u v t dst)))
    ∧ (∀ (dst : Nat) (key lo hi : Src), dst < 64 → Free s t (plainUses [key, lo, hi] [dst]) → Gives (.maskword a dst key lo hi) s (fun v =>
      Wrote u v t dst (fun l => (maskWord (regRead u t.core t.slot key.reg l) (BitVec.ofNat 64 (t.reg u lo.reg l + t.reg u hi.reg l * 2 ^ 32))).toNat)
      ∧ (CacheOk u t.core t.slot → LiveSrc key → LiveSrc lo → LiveSrc hi → RegsKept u v t dst)))
    ∧ ∀ (n : Nat) (fmt : OpFmt) (src : Src) (u2 : State), n < 65536 → Free s t (plainUses [src] []) → censusCheck u t.c n = (none, u2) →
      Gives (.censusCount a n fmt src) s (fun v =>
        v.get F.coreCensus_COUNT n = min (u.get F.coreCensus_COUNT n
          + (t.lanes.filter (fun l => fmt.elem.isNan (t.reg u src.reg l % 2 ^ fmt.elem.width))).length
          + (t.lanes.filter (fun l => fmt.elem.isInf (t.reg u src.reg l % 2 ^ fmt.elem.width))).length) 0xFFFFFF
        ∧ (v.isSet F.coreCensus_NAN_SEEN n = true ↔ u.isSet F.coreCensus_NAN_SEEN n = true
            ∨ ∃ l ∈ t.lanes, fmt.elem.isNan (t.reg u src.reg l % 2 ^ fmt.elem.width) = true)
        ∧ GoesOn v t a.next ∧ SlotOnly u v t.core t.slot ∧ Only [.mem, .core, .run, .free] (.coreCensus :: memRegs) u v)

namespace Sys2Proof.Claims

/-- Every lane of the fragment sits in a fragment of its slot at `pc` that waits for `w`. -/
def Waits (v : State) (t : Th) (pc : Nat) (w : FragWait) : Prop :=
  ∃ r, slotRec v t.core t.slot = some r ∧ ∀ l, t.f.mask.testBit l = true → ∃ g ∈ r.frags, g.mask.testBit l = true ∧ g.pc = pc ∧ g.wait = w

/-- Every lane of a waiting fragment sits in a fragment of the slot at `pc` that waits for nothing. -/
def Woken (v : State) (core slot : Nat) (f : Frag) (pc : Nat) : Prop :=
  ∃ r, slotRec v core slot = some r ∧ ∀ l, f.mask.testBit l = true → ∃ g ∈ r.frags, g.mask.testBit l = true ∧ g.pc = pc ∧ g.wait = .none

/-- An acquire at device scope (R220): the core's lines keep just the bytes it has written and not written back, other cores' lines stay. -/
def AcquiredAt (u v : State) (core : Nat) : Prop :=
  (∀ l ∈ v.core.gl, l.core = core → ∀ kv ∈ l.bytes, l.dirty.contains kv.1 = true)
    ∧ v.core.gl.filter (fun l => l.core != core) = u.core.gl.filter (fun l => l.core != core)
    ∧ ∀ l ∈ u.core.gl, l.core = core → ∀ kv ∈ l.bytes, l.dirty.contains kv.1 = true →
      ∃ x ∈ v.core.gl, x.core = core ∧ x.addr = l.addr ∧ x.host = l.host ∧ kv ∈ x.bytes

/-- The lines of a core's Grotto cache once written back (R219): every byte stays, none is dirty. -/
def writtenBack (u : State) (core : Nat) : List GrottoLine :=
  u.core.gl.map (fun l => if l.core = core then { l with dirty := [] } else l)

/-- The context halts with a reason: HALTED; the record keeps the first halt (R209 to R211). -/
def HaltsWith (u v : State) (c reason info : Nat) : Prop :=
  v.ctxState c = 3 ∧ (u.get F.coreHaltA_REASON c = 0 → v.get F.coreHaltA_REASON c = reason ∧ v.get F.coreHaltD_INFO c = info % 2 ^ 64)
    ∧ (u.get F.coreHaltA_REASON c ≠ 0 → v.get F.coreHaltA_REASON c = u.get F.coreHaltA_REASON c ∧ v.isSet F.coreHaltA_MULTIPLE c = true)

/-- The threads that a bollard's value would release: slot key and fragment. -/
def bolWaiters (s : State) (n val : Nat) : List (Nat × Frag) :=
  s.run.slots.flatMap (fun kr => (kr.2.frags.filter (fun f => bolMet val n f.wait)).map (fun f => (kr.1, f)))

end Sys2Proof.Claims

/-- Branches split, joins and barriers hold and release, exits end blocks, HALT ends the context, token waits and posts follow the table. -/
def Obligations.ControlMovesTheFragments : Prop :=
  (∀ (a : At) (s u : State) (t : Th), Issues s a t u →
      (∀ targets : List (Nat × Nat), branchOk t.f targets = true → Gives (.branch a targets) s (fun v =>
        (∃ r, slotRec v t.core t.slot = some r ∧ ∀ x ∈ targets, ∀ l, t.f.mask.testBit l = true → x.1.testBit l = true →
          ∃ g ∈ r.frags, g.mask.testBit l = true ∧ g.pc = x.2 ∧ g.wait = .none)
        ∧ SlotOnly u v t.core t.slot ∧ Only [.run] [.corePipeSplits, .corePipeParks] u v))
      ∧ (∀ mask : Nat, ((∀ r g, slotRec u t.core t.slot = some r → g ∈ r.frags → g ≠ t.f → g.mask &&& mask = 0) →
          Gives (.join a mask) s (fun v => GoesOn v t a.next ∧ SlotOnly u v t.core t.slot ∧ Only [.run] [] u v))
        ∧ ((∃ r g, slotRec u t.core t.slot = some r ∧ g ∈ r.frags ∧ g.mask.testBit a.lane = false ∧ g.mask &&& mask ≠ 0 ∧ g.wait = .none) →
          Gives (.join a mask) s (fun v => Waits v t t.f.pc (.join mask a.next) ∧ SlotOnly u v t.core t.slot ∧ Only [.run] [] u v)))
      ∧ (∀ id : Option Nat, Free s t ⟨[], 2⟩ → (∀ k, id = some k → k < t.l.decl.barriers) →
        ((u.run.slots.map Prod.fst).Nodup →
          (∀ kr ∈ u.run.slots, kr.2.block = t.b.id → ∀ g ∈ kr.2.frags, (kr.1 = slotKey t.core t.slot ∧ g = t.f) ∨ g.wait = .barrier id) →
          Gives (.blockBarrier a id) s (fun v => GoesOn v t a.next ∧ (∀ g ∈ blockFrags v t.b.id, g.wait = .none) ∧ Only [.run] [] u v))
        ∧ ((∃ kr ∈ u.run.slots, kr.2.block = t.b.id ∧ ∃ g ∈ kr.2.frags, g.mask ≠ 0 ∧ g.wait = .none ∧ (kr.1 = slotKey t.core t.slot → g.mask.testBit a.lane = false)) →
          Gives (.blockBarrier a id) s (fun v => Waits v t a.next (.barrier id) ∧ SlotOnly u v t.core t.slot ∧ Only [.run] [] u v)))
      ∧ (Free s t ⟨[], 2⟩ → (blockFrags u t.b.id).length = 1 →
        (t.b.tokens.all (fun x => x.done) = true → Gives (.exit a) s (fun v => blockRec v t.b.id = none
          ∧ (∀ k, k < 128 → k ∈ t.b.slots → slotRec v t.b.core k = none)
          ∧ (t.l.ended + 1 ≠ t.l.total → t.l.cancelled = false → launchRec v t.b.launch = some { t.l with ended := t.l.ended + 1 })))
        ∧ (t.b.tokens.all (fun x => x.done) = false → Gives (.exit a) s (fun v => Waits v t t.f.pc (.exit u.ns) ∧ SlotOnly u v t.core t.slot ∧ Only [.run] [] u v)))
      ∧ (Free s t ⟨[], 2⟩ → (blockFrags u t.b.id).length ≠ 1 → (∀ r g, slotRec u t.core t.slot = some r → g ∈ r.frags → g ≠ t.f → g.mask &&& t.f.mask = 0) →
        Gives (.exit a) s (fun v => ∀ r, slotRec v t.core t.slot = some r → ∀ g ∈ r.frags, g.mask &&& t.f.mask = 0))
      ∧ (∀ operand : Nat, Gives (.halt a operand) s (fun v => HaltsWith u v t.c 0x1E (operand % 2 ^ 32)))
      ∧ (∀ es : List Nat, es.length ≤ 4 → (∀ e ∈ es, e < 64) → Free s t ⟨[], 1⟩ →
        ((∀ e ∈ es, (token t.b e).done = true) → Gives (.tokenWait a es) s (fun v => GoesOn v t a.next ∧ AcquiredAt u v t.core
          ∧ SlotOnly u v t.core t.slot ∧ Only [.run, .core] [] u v))
        ∧ ((∃ e ∈ es, (token t.b e).done = false) → Gives (.tokenWait a es) s (fun v => Waits v t a.next (.token (capture t.b es) u.ns)
          ∧ SlotOnly u v t.core t.slot ∧ Only [.run] [] u v)))
      ∧ ∀ (ferry gate : Nat) (ws : List Nat), ferry < 32 → gate < 16 → ws.length ≤ 4 → (∀ e ∈ ws, e < 64) → Free s t ⟨[], 2⟩ → t.l.decl.replayable = false →
        ferryHeld u ferry t.c = true → unitUp u (unitId 7 ferry) = true → bufferRoom u t.b = true → Gives (.tokenPost a ferry gate ws) s (fun v =>
          GoesOn v t a.next ∧ ∃ o, v.run.ops = u.run.ops ++ [o] ∧ o.unit = unitId 7 ferry ∧ o.job = .post ferry gate ∧ o.token = 64 ∧ o.block = t.b.id
            ∧ o.ctx = t.c ∧ o.waits = capture t.b ws ∧ o.issued = issuedAt u t.b t.slot t.f))
    ∧ (∀ (core slot lane : Nat) (s : State) (r : SlotRec) (f : Frag), core < 240 → slot < 128 → lane < 32 → slotRec s core slot = some r → fragOf r lane = some f →
      (∀ m pc, f.wait = .join m pc → Gives (.joinTimeout core slot lane) s (fun v => Woken v core slot f pc ∧ SlotOnly s v core slot ∧ Only [.run] [] s v))
      ∧ (∀ g, f.active = true → longestParked r.frags = some g → f.mask ≠ g.mask → Gives (.fragmentRotate core slot lane) s (fun v =>
        (∃ x, slotRec v core slot = some x ∧ x.block = r.block ∧ x.frags.length = r.frags.length ∧ { f with active := false, age := s.ns } ∈ x.frags
          ∧ { g with active := true, age := s.ns } ∈ x.frags)
        ∧ v.get F.corePipeParks_PARKS core = (s.get F.corePipeParks_PARKS core + 1) % 2 ^ 64 ∧ SlotOnly s v core slot ∧ Only [.run] [.corePipeParks] s v)))
    ∧ (∀ (block : Nat) (s : State) (b : BlockRec), blockRec s block = some b →
      (s.get F.coreTokenWatchdog_LIMIT_MS = 0 → Gives (.tokenWatchdog block) s (fun v => v = s))
      ∧ (∀ n e i, s.get F.coreTokenWatchdog_LIMIT_MS ≠ 0 → oldest (blockWaits s b) = some (n, e, i) → s.ctxState b.ctx = 1 →
        Gives (.tokenWatchdog block) s (fun v => HaltsWith s v b.ctx 0x63 e)))
    ∧ ∀ (block : Nat) (s : State) (o : BufOp), blockRec s block = none → s.get F.coreTokenWatchdog_LIMIT_MS ≠ 0 →
      s.run.ops.find? (fun o => o.block == block) = some o → s.ctxState o.ctx = 1 →
      Gives (.tokenWatchdog block) s (fun v => HaltsWith s v o.ctx 0x63 (ownEntry o.token))

/-- Bollard advances queue and apply, waits end with the value, host writes set values and notifications. -/
def Obligations.BollardsAdvanceAndRelease : Prop :=
  (∀ (a : At) (s u : State) (t : Th) (n : Nat), Issues s a t u → bolOwned u n t.c = true →
      (∀ (inc : Nat) (sc : Scope), sc.wide = true → t.l.decl.replayable = false → Free s t ⟨[], 2⟩ → peerPending u t.b = false → Gives (.bollardAdvance a n inc sc) s (fun v =>
        v.run.bolQ = u.run.bolQ ++ [⟨n, inc, .none⟩] ∧ GoesOn v t a.next ∧ v.core.gl = writtenBack u t.core ∧ bolValue v n = bolValue u n))
      ∧ (∀ (target dst : Nat) (timed : Bool), dst < 62 → Free s t ⟨[dst, dst + 1, dst + 2], 1⟩ →
        (target ≤ bolValue u n → Gives (.bollardWait a n target dst timed) s (fun v => RegIs v t dst (fun _ => bolValue u n) ∧ RegIs v t (dst + 1) (fun _ => bolValue u n / 2 ^ 32)
          ∧ RegIs v t (dst + 2) (fun _ => 0) ∧ GoesOn v t a.next ∧ AcquiredAt u v t.core ∧ SlotOnly u v t.core t.slot ∧ Only [.run, .core] [] u v))
        ∧ (bolValue u n < target → Gives (.bollardWait a n target dst timed) s (fun v => Waits v t a.next (.bollard n target dst timed)
          ∧ SlotOnly u v t.core t.slot ∧ Only [.run] [] u v)))
      ∧ ∀ (dst : Nat) (acq : Bool), dst < 63 → Free s t ⟨[dst, dst + 1], 1⟩ → Gives (.bollardRead a n dst acq) s (fun v => RegIs v t dst (fun _ => bolValue u n)
        ∧ RegIs v t (dst + 1) (fun _ => bolValue u n / 2 ^ 32) ∧ GoesOn v t a.next ∧ (acq = true → AcquiredAt u v t.core) ∧ (acq = false → v.core.gl = u.core.gl)
        ∧ SlotOnly u v t.core t.slot ∧ Only [.run, .core] [] u v))
    ∧ (∀ s : State, (s.run.bolQ = [] → Gives .bollardAdvanceApply s (fun v => v = s))
      ∧ (∀ x xs, s.run.bolQ = x :: xs → Gives .bollardAdvanceApply s (fun v => bolValue v x.n = (bolValue s x.n + x.inc) % 2 ^ 64
        ∧ ((∀ y ∈ xs, y.n = x.n) → v.run.bolQ = xs ∧ ∀ k, k ≠ x.n → bolValue v k = bolValue s k)
        ∧ ((s.run.bolQ.map Advance.n).Nodup → v.run.bolQ = xs.drop 7 ∧ ∀ y ∈ xs.take 7, bolValue v y.n = (bolValue s y.n + y.inc) % 2 ^ 64)
        ∧ (∀ id e b, x.fin = .token id e → e < 64 → blockRec v id = some b → (token b e).done = true)
        ∧ (∀ q idx e, xs = [] → x.fin = .finish q idx → qEntry s q idx = some e → e.fin = none → ∃ y, qEntry v q idx = some y ∧ y.sqe = e.sqe ∧ y.fin = some (0, 0))
        ∧ ((∀ y ∈ s.run.bolQ, y.fin = .none) → (∀ core slot f, slot < 128 → (slotKey core slot, f) ∈ bolWaiters s x.n ((bolValue s x.n + x.inc) % 2 ^ 64) → (s.run.slots.map Prod.fst).Nodup → Woken v core slot f f.pc)
          ∧ Only [.hl, .obj, .run, .core, .eng, .out] [.bolValue, .bolCtrl, .berthStatus, .evt] s v))))
    ∧ (∀ (core slot lane : Nat) (s : State) (r : SlotRec) (f : Frag) (n target d : Nat), core < 240 → slot < 128 → lane < 32 → slotRec s core slot = some r →
      fragOf r lane = some f → f.wait = .bollard n target d true → d < 62 → Gives (.bollardWaitTimeout core slot lane) s (fun v =>
        Woken v core slot f f.pc ∧ (∀ l, l < 32 → f.mask.testBit l = true → (regRead v core slot d l).toNat = bolValue s n % 2 ^ 32
          ∧ (regRead v core slot (d + 1) l).toNat = bolValue s n / 2 ^ 32 ∧ regRead v core slot (d + 2) l = 1)
        ∧ v.core.gl = s.core.gl ∧ SlotOnly s v core slot ∧ Only [.run, .core] [] s v))
    ∧ ∀ (n val : Nat) (s : State), n < 16384 → s.hl.d3 = false →
      Gives (.bolValueWrite n val) s (fun v => bolValue v n = val % 2 ^ 64 ∧ (∀ k, k ≠ n → bolValue v k = bolValue s k)
        ∧ (∀ core slot f, slot < 128 → bolWaiters s n (val % 2 ^ 64) = [(slotKey core slot, f)] → (s.run.slots.map Prod.fst).Nodup → bolDst f.wait < 62 →
          Woken v core slot f f.pc ∧ AcquiredAt s v core ∧ ∀ l, l < 32 → f.mask.testBit l = true →
            (regRead v core slot (bolDst f.wait) l).toNat = val % 2 ^ 32 ∧ regRead v core slot (bolDst f.wait + 2) l = 0)
        ∧ (s.isSet F.bolCtrl_NOTIFY_EN n = true → s.isSet F.bolCtrl_NOTIFIED n = false →
          (s.get F.bolNotify_THRESHOLD n ≤ val % 2 ^ 64 → v.isSet F.bolCtrl_NOTIFIED n = true ∧ v.isSet F.evt_PENDING (s.get F.bolCtrl_EVENT n) = true)
          ∧ (val % 2 ^ 64 < s.get F.bolNotify_THRESHOLD n → v.isSet F.bolCtrl_NOTIFIED n = false))
        ∧ Only [.acc, .hl, .obj, .run, .core, .eng, .out] [.bolValue, .bolCtrl, .berthStatus, .evt] s v)
      ∧ Gives (.bolNotifyWrite n true val) s (fun v => v.get F.bolCtrl_OWNER n = val % 2 ^ 12 ∧ v.isSet F.bolCtrl_VALID n = val.testBit 12
        ∧ v.isSet F.bolCtrl_NOTIFY_EN n = val.testBit 13 ∧ v.get F.bolCtrl_EVENT n = bitsOf val 31 16
        ∧ (val.testBit 13 = true → s.get F.bolNotify_THRESHOLD n ≤ bolValue s n → v.isSet F.bolCtrl_NOTIFIED n = true)
        ∧ (val.testBit 14 = true → bolValue s n < s.get F.bolNotify_THRESHOLD n → v.isSet F.bolCtrl_NOTIFIED n = false)
        ∧ Only [.acc, .hl, .out] [.bolCtrl, .evt] s v)
      ∧ Gives (.bolNotifyWrite n false val) s (fun v => v.get F.bolNotify_THRESHOLD n = val % 2 ^ 64
        ∧ (s.isSet F.bolCtrl_NOTIFY_EN n = true → s.isSet F.bolCtrl_NOTIFIED n = false → val % 2 ^ 64 ≤ bolValue s n →
          v.isSet F.bolCtrl_NOTIFIED n = true ∧ v.isSet F.evt_PENDING (s.get F.bolCtrl_EVENT n) = true)
        ∧ Only [.acc, .hl, .out] [.bolCtrl, .bolNotify, .evt] s v)

namespace Sys2Proof.Claims

/-- The bytes of a scratchpad or Grotto access by one lane. -/
def OneLane (u : State) (t : Th) (sp : Space) (r : Src) (n : Nat) (need : Need) (tgts : List Nat) (la : LaneAcc) (p : Place) : Prop :=
  sp = .ctx ∧ resolveLanes u t sp r n need tgts = .ok [(la, p)] ∧ la.tgt = 0 ∧ la.lane < 32 ∧ la.addr % 128 + n ≤ 128

/-- The line of a core's cache that holds these bytes from the address on, every one valid and dirty (R248). -/
def HoldsDirty (v : State) (core a : Nat) (bs : List Byte) : Prop :=
  ∃ x, glFind v core a false = some x ∧ ∀ i b, bs[i]? = some b → smapFind x.bytes (a % 128 + i) = some b ∧ x.dirty.contains (a % 128 + i) = true

/-- The clauses of a fence over what its scope reaches: `rel` writes the core's lines back, `acq` drops what is not dirty then (R219, R220, R222). -/
def FenceDone (u v : State) (t : Th) (wide rel acq : Bool) : Prop :=
  GoesOn v t t.at_.next ∧ (wide = false → v.core = u.core ∧ Only [.run] [] u v)
    ∧ (wide = true → (rel = true → acq = false → v.core.gl = writtenBack u t.core) ∧ (rel = false → acq = true → AcquiredAt u v t.core)
      ∧ (rel = true → acq = true → v.core.gl = u.core.gl.filter (fun l => l.core != t.core))
      ∧ Only [.mem, .core, .run, .free] (.coreGrottoStatus :: .coreGrottoWb :: memRegs) u v)

end Sys2Proof.Claims

/-- Loads, stores, atomics, fences and cache maintenance of a thread do what their rules say to its registers and caches. -/
def Obligations.ThreadMemoryAccessesAreMade : Prop :=
  (∀ (a : At) (s u : State) (t : Th), Issues s a t u →
      (∀ acc : LoadAcc, widthOk acc.width = true → acc.dst < 63 → acc.acq = false → Free s t (loadUses acc) →
        (acc.space = .scratch → scratchBad u t acc.addr acc.width = none → Gives (.load a acc) s (fun v =>
          RegIs v t acc.dst (fun l => leNat (sramRead u t.core (t.reg u acc.addr.reg l) acc.width))
          ∧ (acc.width = 8 → RegIs v t (acc.dst + 1) (fun l => leNat (sramRead u t.core (t.reg u acc.addr.reg l) 8) / 2 ^ 32))
          ∧ (acc.width ≠ 8 → CacheOk u t.core t.slot → LiveSrc acc.addr → RegsKept u v t acc.dst)
          ∧ GoesOn v t a.next ∧ SlotOnly u v t.core t.slot ∧ (∃ rf rc, v.core = { u.core with rf := rf, rc := rc }) ∧ Only [.core, .run] [] u v))
        ∧ (∀ x, acc.space = .scratch → scratchBad u t acc.addr acc.width = some x → Gives (.load a acc) s (fun v => HaltsWith u v t.c 0x43 x))
        ∧ (∀ la p, OneLane u t acc.space acc.addr acc.width .read [0, 1, 2] la p →
          (∀ bs, glLoad u t.core la.addr acc.width false = some bs → Gives (.load a acc) s (fun v =>
            (t.reg v acc.dst la.lane) = leNat bs % 2 ^ 32 ∧ v.get F.coreGrottoHits_HITS t.core = (u.get F.coreGrottoHits_HITS t.core + 1) % 2 ^ 64
            ∧ GoesOn v t a.next ∧ SlotOnly u v t.core t.slot ∧ Only [.core, .run] [.coreGrottoHits] u v))
          ∧ (glFind u t.core la.addr false = none → lineReq u t.core (lineKey (la.addr / 128 * 128) 0 3) = none →
            canAsk u t.core t.slot (lineKey (la.addr / 128 * 128) 0 3) = true → Gives (.load a acc) s (fun v =>
            (∃ x, v.core.lreq = u.core.lreq ++ [x] ∧ x.core = t.core ∧ x.slot = t.slot ∧ x.key = lineKey (la.addr / 128 * 128) 0 3)
            ∧ GoesOn v t a.next ∧ (∃ r, slotRec v t.core t.slot = some r ∧ ∃ o ∈ r.loads, o.acc = acc ∧ o.lanes = [la] ∧ o.want = []
              ∧ o.need.map Prod.fst = [lineKey (la.addr / 128 * 128) 0 3])
            ∧ v.get F.coreGrottoMisses_MISSES t.core = (u.get F.coreGrottoMisses_MISSES t.core + 1) % 2 ^ 64
            ∧ SlotOnly u v t.core t.slot ∧ Only [.core, .run, .obj] [.coreGrottoMisses] u v))))
      ∧ (∀ acc : StoreAcc, widthOk acc.width = true → acc.rel = false → Free s t (storeUses acc) →
        (acc.space = .scratch → scratchBad u t acc.addr acc.width = none → Gives (.store a acc) s (fun v =>
          (∀ l ∈ t.lanes, (∀ m ∈ t.lanes, l < m → ∀ i j, i < acc.width → j < acc.width → t.reg u acc.addr.reg l + i ≠ t.reg u acc.addr.reg m + j) →
            sramRead v t.core (t.reg u acc.addr.reg l) acc.width = leBytes acc.width (laneVal u t acc.src acc.width l))
          ∧ (∀ k, (∀ l ∈ t.lanes, ∀ i, i < acc.width → k ≠ sramKey t.core (t.reg u acc.addr.reg l + i)) → smapGet v.core.sram 0 k = smapGet u.core.sram 0 k)
          ∧ GoesOn v t a.next ∧ SlotOnly u v t.core t.slot ∧ (∃ m rf rc, v.core = { u.core with sram := m, rf := rf, rc := rc }) ∧ Only [.core, .run] [] u v))
        ∧ (∀ la p, OneLane u t acc.space acc.addr acc.width .write [0, 1, 2] la p → ownLoads u t acc.width [la] = false →
          ((glFind u t.core la.addr false).isSome = true ∨ (glVictim u t.core la.addr (storeMask u t.c acc.stream)).isSome = true) → Gives (.store a acc) s (fun v =>
          HoldsDirty v t.core la.addr (leBytes acc.width (laneVal u t acc.src acc.width la.lane)) ∧ GoesOn v t a.next ∧ SlotOnly u v t.core t.slot
          ∧ v.core.sram = u.core.sram ∧ v.core.acc = u.core.acc ∧ v.core.lreq = u.core.lreq
          ∧ Only [.mem, .core, .run, .free] (.coreGrottoStatus :: .coreGrottoWb :: memRegs) u v)))
      ∧ (∀ (acc : AtomAcc) (l old : Nat), widthOk acc.width = true → acc.dst < 63 → Free s t (atomUses acc) → acc.rel = false → acc.acq = false → l < 32 → t.lanes = [l] →
        (acc.space = .scratch → scratchBad u t acc.addr acc.width = none → old = leNat (sramRead u t.core (t.reg u acc.addr.reg l) acc.width) → Gives (.atomic a acc) s (fun v =>
          t.reg v acc.dst l = old % 2 ^ 32 ∧ (acc.width = 8 → t.reg v (acc.dst + 1) l = old / 2 ^ 32)
          ∧ sramRead v t.core (t.reg u acc.addr.reg l) acc.width
            = leBytes acc.width (atomNew acc.fn acc.width old (laneVal u t acc.src acc.width l) (laneVal u t acc.cmp acc.width l))
          ∧ (∀ k, (∀ i, i < acc.width → k ≠ sramKey t.core (t.reg u acc.addr.reg l + i)) → smapGet v.core.sram 0 k = smapGet u.core.sram 0 k)
          ∧ GoesOn v t a.next ∧ SlotOnly u v t.core t.slot ∧ Only [.core, .run] [] u v))
        ∧ (∀ la p bs w, OneLane u t acc.space acc.addr acc.width .both [0, 1] la p → la.lane = l → t.l.decl.replayable = false → ownLoads u t acc.width [la] = false → glFind u t.core la.addr false = none →
          glFind u t.core (la.addr + acc.width - 1) false = none → firstPoisoned u (p.rq u).key la.addr acc.width = none → devRead 2 (atomBegin u t acc) (p.rq u) la.addr acc.width = ((false, bs), w) → old = leNat bs → Gives (.atomic a acc) s (fun v =>
          t.reg v acc.dst l = old % 2 ^ 32 ∧ v.mem = (devWrite 2 w (p.rq u) la.addr
            (leBytes acc.width (atomNew acc.fn acc.width old (laneVal u t acc.src acc.width l) (laneVal u t acc.cmp acc.width l)))).mem
          ∧ v.core.gl = u.core.gl ∧ GoesOn v t a.next ∧ SlotOnly u v t.core t.slot ∧ Only [.mem, .core, .run, .free] memRegs u v)))
      ∧ (∀ sc : Scope, Free s t ⟨[], 2⟩ → Gives (.fenceAcquire a sc) s (fun v => FenceDone u v t sc.wide false true)
        ∧ (peerPending u t.b = false → Gives (.fenceRelease a sc) s (fun v => FenceDone u v t sc.wide true false)
          ∧ Gives (.fenceAcqRel a sc) s (fun v => FenceDone u v t sc.wide true true) ∧ Gives (.fenceSc a sc) s (fun v => FenceDone u v t sc.wide true true)))
      ∧ (∀ ca n : Nat, Free s t ⟨[], 1⟩ → (ca % 128 = 0 → n % 128 = 0 →
          Gives (.grottoWb a ca n) s (fun v => v.core.gl = u.core.gl.map (fun l => if l.core = t.core && inLines (rangeLines u t ca n) l then { l with dirty := [] } else l)
            ∧ GoesOn v t a.next)
          ∧ Gives (.grottoWbinv a ca n) s (fun v => (∀ l ∈ v.core.gl, l.core = t.core → inLines (rangeLines u t ca n) l = false)
            ∧ (∀ l ∈ u.core.gl, l.bytes ≠ [] → l.core ≠ t.core ∨ inLines (rangeLines u t ca n) l = false → l ∈ v.core.gl) ∧ GoesOn v t a.next)
          ∧ Gives (.grottoInvClean a ca n) s (fun v => (∀ l ∈ v.core.gl, l.core = t.core → inLines (rangeLines u t ca n) l = true → ∀ kv ∈ l.bytes, l.dirty.contains kv.1 = true)
            ∧ (∀ l ∈ u.core.gl, l.bytes ≠ [] → l.core ≠ t.core ∨ inLines (rangeLines u t ca n) l = false → l ∈ v.core.gl) ∧ GoesOn v t a.next))
        ∧ (ca % 128 ≠ 0 → ca < 2 ^ 64 → Gives (.grottoWb a ca n) s (fun v => HaltsWith u v t.c 0x41 ca)))
      ∧ (Free s t ⟨[], 1⟩ → Gives (.constInvalidate a) s (fun v => v.core.ro = u.core.ro.filter (fun l => !(l.core == t.core && l.kind == 1)) ∧ GoesOn v t a.next ∧ Only [.core, .run] [] u v)
      ∧ Gives (.descInvalidate a) s (fun v => v.core.ro = u.core.ro.filter (fun l => !(l.core == t.core && l.kind == 2)) ∧ GoesOn v t a.next ∧ Only [.core, .run] [] u v)))
    ∧ ∀ (core line slot : Nat) (o : OutLoad) (bs : List Byte) (s u : State) (l : LineReq), core < 240 → keyTgt line = 0 → keyKind line = 3 → s.core.lreq.find? (fun l => l.core == core && l.key == line) = some l →
      devRead 4 s ⟨l.cls, l.reg, l.gen⟩ (keyAddr line) 128 = ((false, bs), u) → glFind s core (keyAddr line) false = none → (coreLoads s core).filter (fun y => y.2.need.contains (l.key, l.id)) = [(slot, o)] →
      (∀ y ∈ coreLoads s core, y.2.want = []) → Gives (.loadFill core line) s (fun v => LoadEnds v core slot o l bs ∧ ∀ x ∈ v.core.lreq, x.id ≠ l.id)

namespace Sys2Proof.Claims

/-- An operation of the thread may be accepted by its unit: nothing refuses it (R185, R192, R194, R231), its token entry is DONE, the buffer has
room (R191, R193). -/
structure MayIssue (u : State) (t : Th) (iss : Issue) (start : Bool) (unit : Nat) (refuse : Option Nat) : Prop where
  form : issOk iss start = true
  stands : issueRefused u t iss unit refuse = none
  entry : iss.token < t.b.tokens.length ∧ (token t.b iss.token).done = true
  room : bufferRoom u t.b = true

/-- The operation stands last in the operation buffer with what its instruction named, its entry PENDING under a new generation, and the
thread has gone on (R190 to R193). -/
def Accepted (u v : State) (t : Th) (iss : Issue) (unit : Nat) (job : Job) (acc : Bool) : Prop :=
  GoesOn v t t.at_.next
    ∧ (∃ o, v.run.ops = u.run.ops ++ [o] ∧ o.id = u.obj.nextId ∧ o.ctx = t.c ∧ o.block = t.b.id ∧ o.unit = unit ∧ o.job = job ∧ o.acc = acc ∧ o.token = iss.token
      ∧ o.waits = capture t.b iss.waits ∧ o.bollard = iss.bollard ∧ o.start = startNow u iss.start)
    ∧ v.obj.nextId = u.obj.nextId + 1
    ∧ ∀ b, blockRec v t.b.id = some b → token b iss.token = ⟨false, ((token t.b iss.token).gen + 1) % 65536⟩
      ∧ ∀ e, e ≠ iss.token → token b e = token t.b e

/-- A job of a block has completed (R195, R225): it is in no queue; its bollard advanced and its token DONE where the block still runs, or, where
other advances wait at the store, both behind those (R233). -/
def Completed (s v : State) (id : Nat) (o : Origin) (tok : Nat) (bol : Option (Nat × Nat)) : Prop :=
  (∀ x ∈ v.eng.jobs, x.id ≠ id)
    ∧ ∀ k i, o = .block k i →
      (bol = none ∨ s.run.bolQ = [] → (∀ b, blockRec v k = some b → (token b tok).done = true) ∧ ∀ n inc, bol = some (n, inc) → bolValue v n = (bolValue s n + inc) % 2 ^ 64)
      ∧ ∀ n inc, bol = some (n, inc) → s.run.bolQ ≠ [] → v.run.bolQ = s.run.bolQ ++ [⟨n, inc, .token k tok⟩]

/-- The bollard that a job advances as it completes: none where it was cut short (R225). -/
def bolAtEnd (j : EngJob) : Option (Nat × Nat) := if j.stopping then none else j.bollard

/-- The block as an operation leaves its buffer, threads that waited for the space going on. -/
def leftBuffer (s : State) (o : BufOp) : State := opGrant (wakeSpace { s with run := { s.run with ops := s.run.ops.filter (fun x => x.id != o.id) } } o.core) o

/-- The operation's conditions hold and it may go to its unit (R193, R194, R226, R488). -/
structure Leaves (s : State) (id : Nat) (o : BufOp) : Prop where
  op : s.run.ops.find? (fun x => x.id == id) = some o
  ready : opReady s o = true
  ahead : opBehind s o = false
  turn : opTurn s o = true
  up : unitUp s o.unit = true
  powered : engPowered s o.unit = true

end Sys2Proof.Claims

/-- Matrix operations and segmented multiplies issue, leave the buffer, are accepted, write their results and complete. -/
def Obligations.OperationsIssueRunAndComplete : Prop :=
  (∀ (a : At) (s u : State) (t : Th) (iss : Issue), Issues s a t u → Free s t ⟨[], 2⟩ →
      (∀ (array : Nat) (op : MatOp), array < 4 → op.bank < 2 →
        (MayIssue u t iss false (arrayUnit u t.core array) none → Gives (.matrixOpIssue a iss array op) s (fun v =>
          Accepted u v t iss (arrayUnit u t.core array) (.matrix op) false))
        ∧ (issOk iss false = true → issueRefused u t iss (arrayUnit u t.core array) none = none → (token t.b iss.token).done = false →
          Gives (.matrixOpIssue a iss array op) s (fun v => Waits v t t.f.pc (.entry iss.token u.ns) ∧ SlotOnly u v t.core t.slot ∧ Only [.run] [.corePipeIssued] u v)))
      ∧ ∀ p : SegJob, MayIssue u t iss true hmUnit (some 8) → Gives (.segmulIssue a iss p) s (fun v => Accepted u v t iss hmUnit (.segmul p) false))
    ∧ (∀ (id : Nat) (s : State) (o : BufOp), Leaves s id o →
      (∀ f g, o.job = .post f g → s.get (F.ferryGates_TOKENS (g % 16)) f < 8 → Gives (.opBufferLeave id) s (fun v =>
        v.get (F.ferryGates_TOKENS (g % 16)) f = s.get (F.ferryGates_TOKENS (g % 16)) f + 1 ∧ ∀ x ∈ v.run.ops, x.id ≠ id))
      ∧ ((∀ f g, o.job ≠ .post f g) → (∀ p, o.job ≠ .segmul p) → queueUsed s o.unit < queueSize o.unit → Gives (.opBufferLeave id) s (fun v =>
        (∀ x ∈ v.run.ops, x.id ≠ id) ∧ ∃ x ∈ v.eng.jobs, x.id = o.id ∧ x.unit = o.unit ∧ x.job = o.job ∧ x.ctx = o.ctx ∧ x.token = o.token ∧ x.bollard = o.bollard
          ∧ x.origin = .block o.block o.issued))
      ∧ (∀ p runs w, o.job = .segmul p → queueUsed s o.unit < queueSize o.unit → segRefused p = none →
        segChecks o.ctx p (arrived (leftBuffer s o) (o.toJob s.ns)) = .ok runs w → grantCores w o.ctx ≠ [] → Gives (.opBufferLeave id) s (fun v =>
        (∀ x ∈ v.run.ops, x.id ≠ id) ∧ SegRuns v w (o.toJob s.ns) runs)))
    ∧ (∀ (core array : Nat) (s : State), core < 240 → array < 4 → coreRuns s core = true → coreDrains s core = false →
      (∀ j op, ((jobsOf s (arrayUnit s core array)).filter (fun x => x.started)).length < 2 → (jobsOf s (arrayUnit s core array)).find? (fun x => !x.started) = some j →
        j.job = .matrix op →
        (∀ u, matCheck s core j.ctx op = (none, u) → Gives (.arrayOpAccept core array) s (fun v =>
          (∃ h, bHalves v core array = h :: (bHalves s core array).take 1 ∧ h.key = j.id ∧ h.rows = if matIdle op then [] else tabulate op.n (fun n => (sramVect s core op.b op.k n).codes))
          ∧ v.eng.jobs = updWhere s.eng.jobs (fun x => x.id == j.id) (fun x => { x with started := true }) ∧ Only [.mem, .core, .eng, .free] memRegs s v))
        ∧ (∀ r i u, matCheck s core j.ctx op = (some (r, i), u) → s.ctxState j.ctx = 1 → Gives (.arrayOpAccept core array) s (fun v => HaltsWith s v j.ctx r i)))
      ∧ ∀ (bubbles ramps : Nat) (j : EngJob) (op : MatOp) (h : BHalf), (jobsOf s (arrayUnit s core array)).head? = some j → j.job = .matrix op → j.started = true →
        (bHalves s core array).find? (fun x => x.key == j.id) = some h → op.bank < 2 → op.m ≤ 256 → op.n ≤ 32 → op.k ≠ 0 ∨ op.mode = .overwrite →
        Gives (.arrayOpComplete core array bubbles ramps) s (fun v => Completed s v j.id j.origin j.token (bolAtEnd j)
          ∧ (op.store = none → op.rowMax = none → (∀ l ∈ feedOf s core array, l.job ≠ j.id) → ∀ m n, j.cursor ≤ m → m < op.m → n < op.n →
            accGet v core array op.bank m n = nthD (rowResult s core array op (halfVects op h) m) n 0 % 2 ^ 32)
          ∧ (j.cursor + 1 = op.m → op.n ≠ 0 → (∀ n, n < op.n → accGet v core array op.bank j.cursor n
              = nthD (rowResult (feedView s core array j.id) core array op (halfVects op h) j.cursor) n 0 % 2 ^ 32)
            ∧ ∀ r e, op.store = some r → r.fmt = .plain e → op.rowMax = none → sramRead v core (r.addr + j.cursor * r.pitch) (packed e op.n) = pack e.width
              (narrowRow r.fmt r.scale (rowResult (feedView s core array j.id) core array op (halfVects op h) j.cursor)
                ((colDraws s j.ctx core array op.tag op.m op.n).map (fun l => nthD l j.cursor 0))).2)
          ∧ (∀ m n, op.m ≤ m ∨ op.n ≤ n ∨ m < j.cursor → m < 256 → n < 32 → accGet v core array op.bank m n = accGet s core array op.bank m n)
          ∧ (∀ m n, m < 256 → n < 32 → accGet v core array (1 - op.bank) m n = accGet s core array (1 - op.bank) m n)
          ∧ v.get F.coreArrayFeedBubbles_BUBBLES (core * 4 + array) = (s.get F.coreArrayFeedBubbles_BUBBLES (core * 4 + array) + bubbles) % 2 ^ 64
          ∧ (op.m ≠ 0 → op.n ≠ 0 → v.get F.coreArraySteps_STEPS (core * 4 + array) = (s.get F.coreArraySteps_STEPS (core * 4 + array) + (op.m - j.cursor) * cdiv op.k (lanesOf op.a.fmt op.b.fmt)) % 2 ^ 64)))
    ∧ ∀ (job task : Nat) (s : State) (m : SegMul), segRec s job = some m →
      (∀ x core, (segTasks m.par m.runs).find? (fun y => y.1 == task) = some x → taskCore s m task = some core → m.cancelled = false → taskBegun m task = false →
        taskReady m (segTasks m.par m.runs) x.2 = true → taskTurn s m (segTasks m.par m.runs) task = true → coreServes s core m.job.ctx = true → s.ctxRuns m.job.ctx = true → keptFrom s core m.job.ctx = false →
        Gives (.segmulTaskDispatch job task) s (fun v => segRec v job = some { m with tasks := m.tasks ++ [⟨task, some core, false, none, 0, []⟩] } ∧ Only [.eng] [] s v))
      ∧ (∀ x t core u, (segTasks m.par m.runs).find? (fun y => y.1 == task) = some x → m.tasks.find? (fun y => y.no == task && !y.done) = some t → t.core = some core →
        t.parked = none → coreRuns s core = true → (s.ctxRuns m.job.ctx || x.2.weight) = true →
        (t.cursor = taskPanels m.par x.2 ∧ u = s ∨ t.cursor + 1 = taskPanels m.par x.2 ∧ ∃ l, Res.held (runPanel m.job.ctx core m.par x.2 t.cursor) s = .ok ((), l) u) →
        Gives (.segmulTaskDone job task) s (fun v => v.mem = u.mem ∧ v.core.acc = u.core.acc ∧ (∃ y, segRec v job = some y ∧ taskDone y task = true)
          ∧ Only [.eng, .core] [.coreBinding, .coreCensus] u v))
      ∧ ((if m.cancelled then m.tasks.all (fun t => t.done) else (segTasks m.par m.runs).all (fun x => taskDone m x.1)) = true → Gives (.segmulComplete job) s (fun v =>
        segRec v job = none ∧ (∀ h ∈ segHandles m, v.get F.coreAdapterHolds_HOLDS h = s.get F.coreAdapterHolds_HOLDS h - 1)
        ∧ ((∀ x ∈ s.eng.jobs, x.id ≠ m.job.id) → Completed s v m.job.id m.job.origin m.job.token (if m.cancelled then none else m.job.bollard))))

namespace Sys2Proof.Claims

/-- The tender commands with their kinds (Table 10.1). -/
def tenderCmds : List ((At → Issue → Nat → TenderJob → Instr) × TKind) :=
  [(.tenderCopy, .copy), (.tenderGather, .gather), (.tenderTranspose, .transpose), (.tenderConvert, .convert), (.tenderReduce, .reduce), (.tenderZero, .zero),
   (.tenderPrefetch, .prefetch)]

/-- A tender job that a REPLAYABLE block may issue (R185): no reduction, nothing written outside device memory. -/
def mayReplay (u : State) (t : Th) (job : TenderJob) (k : TKind) : Prop :=
  k ≠ .reduce ∧ ∀ a g, .ctx a ∈ tenderWrites { job with kind := k } → segOf u t.c a = some g → g.2.target = 0

/-- The block of a job has not ended with it. -/
def BlockStays (v : State) (o : Origin) : Prop := ∀ id i, o = .block id i → (blockRec v id).isSome = true

/-- A tender job once its checks have passed (R61): as it stands where they have, else with cursor 1. -/
def Checked (s : State) (j : EngJob) (t : TenderJob) (j1 : EngJob) (s1 : State) : Prop :=
  (j.cursor ≠ 0 ∧ j1 = j ∧ s1 = s)
    ∨ (j.cursor = 0 ∧ j1 = { j with cursor := 1 } ∧ ∃ w, tenderCheck j t s = .ok () w ∧ s1 = updJob w j.id (fun x => { x with cursor := 1 }))

/-- Two byte ranges that do not meet, in one scratchpad or two. -/
def Apart (c1 b1 c2 b2 n : Nat) : Prop := c1 ≠ c2 ∨ b1 + n ≤ b2 ∨ b2 + n ≤ b1

/-- An engine's running job has come to a point of its work with what its walk leaves, `u`. -/
def CameTo (u v : State) (j : EngJob) (n : Nat) : Prop :=
  v.mem = u.mem ∧ v.eng.jobs = updWhere u.eng.jobs (fun x => x.id == j.id) (fun x => { x with cursor := n })

/-- The attention commands with their kinds and walks. -/
def attnCmds : List ((Nat → Instr) × AttnKind × (Nat → Nat → AttnStep → Nat → State → Res Unit)) :=
  [(.attnFwd, .fwd, Machine.attnFwd), (.attnBwdQ, .bwdQ, Machine.attnBwdQ), (.attnBwdKv, .bwdKv, Machine.attnBwdKv)]

/-- The walk of a DISPATCH job: its checks, its reach, its writes, with the destinations it hands over. -/
def dispWalk (j : EngJob) (p : DispatchJob) (s : State) : Res (Tables × Visit) :=
  (dispCheck j.ctx p s).then (fun xv s => (dispReach j.ctx p xv.1 xv.2 s).then (fun _ s => (dispWrite j p xv.1 xv.2 s).then (fun _ s => .ok xv s)))

end Sys2Proof.Claims

/-- Tender, update, dispatch and routine operations issue, do their work in their steps and complete. -/
def Obligations.EnginesAndRoutinesRun : Prop :=
  (∀ (a : At) (s u : State) (t : Th) (iss : Issue) (k : Nat), Issues s a t u → Free s t ⟨[], 2⟩ →
      (∀ (x : (At → Issue → Nat → TenderJob → Instr) × TKind) (job : TenderJob), x ∈ tenderCmds → k < 8 →
        MayIssue u t iss true (unitId 8 (tileOfCore t.core * 8 + k)) none →
        ((t.l.decl.replayable = false ∨ mayReplay u t job x.2) → Gives (x.1 a iss k job) s (fun v =>
          Accepted u v t iss (unitId 8 (tileOfCore t.core * 8 + k)) (.tender { job with kind := x.2 }) false))
        ∧ (t.l.decl.replayable = true → x.2 = .reduce → Gives (x.1 a iss k job) s (fun v => HaltsWith u v t.c 0x48 (opClass 9))))
      ∧ (k < 2 →
        (∀ p : UpdateJob, MayIssue u t iss true (unitId 9 (tileOfCore t.core * 2 + k)) (some 9) →
          Gives (.updateTake (.issue a iss k p)) s (fun v => Accepted u v t iss (unitId 9 (tileOfCore t.core * 2 + k)) (.update { p with commit := false }) false)
          ∧ Gives (.updateCommit (.issue a iss k p)) s (fun v => Accepted u v t iss (unitId 9 (tileOfCore t.core * 2 + k)) (.update { p with commit := true }) false))
        ∧ (MayIssue u t iss true (unitId 10 (tileOfCore t.core * 2 + k)) (some 9) →
          (∀ p : DispatchJob, Gives (.dispatch (.issue a iss k p)) s (fun v => Accepted u v t iss (unitId 10 (tileOfCore t.core * 2 + k)) (.dispatch p) false))
          ∧ ∀ p : CombineJob, Gives (.combine (.issue a iss k p)) s (fun v => Accepted u v t iss (unitId 10 (tileOfCore t.core * 2 + k)) (.combine p) false)))
      ∧ ∀ (r : RoutineJob) (acc : Bool) (w w2 : State), r.body.all stepOk = true → t.l.decl.routines = true → routineDesc t r.desc u = .ok (some acc) w → saveOk t r.save = true →
        MayIssue w t iss false (coreUnit w t.core) (if acc then some 10 else none) → bodySlots t.c r.body w = (none, w2) → Gives (.routineIssue a iss r) s (fun v =>
          Accepted w2 v t iss (coreUnit w t.core) (.routine r) acc))
    ∧ (∀ (n : Nat) (s : State) (j : EngJob), n < 8 →
      (running s (unitId 9 n) = some j → ∀ (p : UpdateJob), j.job = .update p → (∀ ge g w, updCheck j.ctx p s = .ok ge w → g = decodeGroup ge.1 →
        (∀ u, p.commit = false → j.cursor < 2 →
          devPut j.ctx (g.state + 0x14) (leBytes 4 (sat32 (takeSlots w g.slots).1)) (engBytes (takeSlots w g.slots).2 j.unit (checkBytes g + 4)) = .ok () u →
          Gives (.updateTake (.run n)) s (fun v => CameTo u v j 2 ∧ (∀ h ∈ g.slots, v.get F.coreCensus_COUNT h = 0 ∧ v.isSet F.coreCensus_SATURATED h = false)
            ∧ (g.slots.Nodup → (takeSlots w g.slots).1 = (g.slots.map (fun h => w.get F.coreCensus_COUNT h)).sum)))
        ∧ (∀ go u, p.commit = true → j.cursor = 0 → updGate j p g (lsOf p ge.2) w = .ok go u → Gives (.updateCommit (.run n)) s (fun v => v.mem = u.mem
            ∧ v.eng.jobs = updWhere u.eng.jobs (fun x => x.id == j.id)
              (fun x => if go then { x with cursor := 1, got := [(0, false, ge.1), (1, false, ge.2)] } else { x with cursor := 2 })
            ∧ (g.extras = [] → p.guardScan = false → (go = true ↔ (takeSlots w g.slots).1 = 0))
            ∧ (go = false → v.get F.updGate_SKIPS (engIndex j.unit) = (w.get F.updGate_SKIPS (engIndex j.unit) + 1) % 2 ^ 32))))
        ∧ (∀ g u, p.commit = true → j.cursor = 1 → g = decodeGroup (keptBytes j 0) →
          (checkOthers j.ctx p g s).then (fun _ s => (Res.run (checkLines j.ctx p.adamw) g.tensors s).then (fun _ s => updCommit j p g (lsOf p (keptBytes j 1)) s)) = .ok () u → Gives (.updateCommit (.run n)) s (fun v => CameTo u v j 2
            ∧ v.get F.updGate_COMMITS (engIndex j.unit) = (s.get F.updGate_COMMITS (engIndex j.unit) + 1) % 2 ^ 32)))
      ∧ (running s (unitId 10 n) = some j → j.stopping = false → j.cursor = 0 →
        (∀ p xv u, j.job = .dispatch p → dispWalk j p s = .ok xv u → (∀ q ∈ xv.1.dests, q.ferry = 0xFFFF) → Gives (.dispatch (.run n)) s (fun v =>
          v.mem = u.mem ∧ (∃ x ∈ v.eng.jobs, x.id = j.id ∧ x.job = j.job ∧ x.cursor = xv.1.dests.length + 1)
          ∧ (u.run.bolQ ≠ [] → v.run.bolQ = u.run.bolQ ++ xv.1.dests.map (fun q => ⟨q.bollard, 1, .none⟩))
          ∧ (u.run.bolQ = [] → (xv.1.dests.map (fun q => q.bollard)).Nodup → ∀ q ∈ xv.1.dests, bolValue v q.bollard = (bolValue u q.bollard + 1) % 2 ^ 64)))
        ∧ (∀ p u, j.job = .combine p → combAll j p s = .ok () u → Gives (.combine (.run n)) s (fun v => CameTo u v j 1))))
    ∧ (∀ (unit : Nat) (s : State) (j : EngJob), (unit / 4096 = 8 ∧ unit % 4096 < 32) ∨ ((unit / 4096 = 9 ∨ unit / 4096 = 10) ∧ unit % 4096 < 8) → running s unit = some j →
      (jobDone j = true → Gives (.engineJobComplete unit) s (fun v => Completed s v j.id j.origin j.token (bolAtEnd j) ∧ (BlockStays v j.origin → v.mem = s.mem)))
      ∧ (∀ t idx j1 s1 w u, j.job = .tender t → j.stopping = false → jobRec s j.id = some j → tenderHeld s j t = false → Checked s j t j1 s1 → tenderIndex j1 t s1 = .ok idx w →
        tenderNeeds j1 t idx (stepsLeft j1 t) w = [] → (w.upstream = true ∨ (tenderWrites t).any (inHost w j.ctx) = false) →
        tenderRun j1 t idx (fun s => updJob s j.id (fun x => { x with cursor := x.cursor + 1 })) (stepsLeft j1 t) w = .ok () u → Gives (.engineJobComplete unit) s (fun v =>
          Completed u v j.id j.origin j.token j.bollard ∧ (BlockStays v j.origin → v.mem = u.mem)
          ∧ (j1.cursor = 1 → (∀ x ∈ u.eng.jobs, x.id ≠ j.id → x.started = true) → v.core.sram = u.core.sram
            ∧ (∀ core b, t.kind = .zero → t.dst = .scratch core b → ∀ r i, r < t.rows → i < t.rowBytes → sramByte v core (b + r * t.dstPitch + i) = 0)
            ∧ (∀ c1 b1 c2 b2, t.kind = .copy → t.rows = 1 → t.src = .scratch c1 b1 → t.dst = .scratch c2 b2 → Apart c1 b1 c2 b2 t.rowBytes → sramRead v c2 b2 t.rowBytes = sramRead w c1 b1 t.rowBytes)))))
    ∧ ∀ (core : Nat) (s : State) (j : EngJob) (r : RoutineJob), core < 240 → routineOf s core = some (j, r) →
      (∀ x ∈ attnCmds, ∀ st b l u, bodyAt r.body j.cursor = some (.block st b) → st.kind = x.2.1 → routineGoes s core j = true → Res.held (x.2.2 j.ctx core st b) s = .ok ((), l) u →
        Gives (x.1 core) s (fun v => v.mem = u.mem ∧ v.eng.jobs = updWhere u.eng.jobs (fun x => x.id == j.id) (fun x => { x with cursor := j.cursor + 1, census := [], got := [] })
          ∧ sramRead v core r.save 8 = leBytes 8 (commitsAt r.body (j.cursor + 1)) ∧ Only [.core, .eng, .free] [.coreCensus] u v))
      ∧ (bodyAt r.body j.cursor = none → routineGoes s core j = true → coreDrains s core = false → Gives (.routineComplete core) s (fun v =>
        Completed s v j.id j.origin j.token (bolAtEnd j) ∧ (BlockStays v j.origin → v.mem = s.mem)))
      ∧ (j.acc = true → s.ctxState j.ctx = 1 → Gives (.routineMaxCycles core) s (fun v => HaltsWith s v j.ctx 0x65 r.desc))

namespace Sys2Proof.Claims

/-- Whether a window is hot at a slice (R276): three quarters of its accepting cycles used, four times the mean of the slices in service. -/
def hotAt (s : State) (cycles : Nat) (counts : List (Nat × Nat)) (n : Nat) : Prop :=
  let count (k : Nat) : Nat := ((counts.find? (fun p => p.1 == k)).map (fun p => p.2)).getD 0
  let act := (List.range 256).filter (sliceActive s)
  sliceActive s n = true ∧ 3 * cycles ≤ 4 * count n ∧ 4 * (act.map count).sum ≤ count n * act.length

/-- The block of a check has ended (R104, R507, R510): a REPLAYABLE one is gone and is to run again, any other has ended its context. -/
def BlockFaulted (s v : State) (b : BlockRec) (l : Launch) (unit : Nat) : Prop :=
  (l.decl.replayable = true → blockRec v b.id = none ∧ (∃ x, launchRec v b.launch = some x ∧ b.idx ∈ x.again)
    ∧ Posts s v unit (some b.ctx) 0 0x0101 (b.idx % 2 ^ 64))
  ∧ (l.decl.replayable = false → s.ctxState b.ctx = 1 → v.ctxState b.ctx = 3 ∧ Posts s v unit (some b.ctx) 1 0x0102 (b.idx % 2 ^ 64))

/-- The spares free for physical core `p` as it fails: that of a swap of its own counts, that of another core's does not (R514). -/
def sparesAt (s : State) (p : Nat) : List Nat :=
  freeCores { s with flt := { s.flt with swaps := s.flt.swaps.filter (fun x => x.unit != unitId 1 p) } } (p / 16)

/-- A core has failed (R508, R512): its mark says so, and where it filled a position its lowest free spare fills it now, or it is vacant. -/
def CoreFailed (s v : State) (p : Nat) : Prop :=
  unitMark v (unitId 1 p) = 4
    ∧ (unitMark s (unitId 1 p) ≠ 4 → ∀ c, placedCore s p = some c → (∀ x ∈ s.flt.swaps, x.spare ≠ some p) →
      (∀ q, (sparesAt s p).head? = some q → corePos v c = some q ∧ v.get F.idCoreMap_PHYS_CORE c = q
        ∧ v.isSet F.idCoreMap_VALID c = !downAtStart s (domOfGallery (galleryOfCore c))
        ∧ v.get F.wearCore_SWAPS_OUT p = min (s.get F.wearCore_SWAPS_OUT p + 1) 255)
      ∧ ((sparesAt s p).head? = none → corePos v c = none ∧ v.isSet F.idCoreMap_VALID c = false ∧ v.isSet F.faultStatus_UNIT_LOST = true))

/-- The commands of an engine's failure: kind, engines, command. -/
def engineFails : List (Nat × Nat × (Nat → Instr)) := [(8, 32, .tenderFail), (9, 8, .updateEngineFail), (0xA, 8, .dispatchEngineFail)]

end Sys2Proof.Claims

/-- Errors of slices, caches, cores, arrays, engines, ferries, agents, lanes and phases are recorded, repaired or contained. -/
def Obligations.UnitErrorsAreRecordedAndContained : Prop :=
  (∀ (n set pa : Nat) (s : State), n < 256 → atSlice s n pa = true →
      (set < 15360 → Gives (.sliceScrub n set []) s (fun v => v = s))
      ∧ (∀ i ∈ [Instr.sliceEccError n 0 pa, .sliceScrub n (set % 15360) [pa]], Gives i s (fun v =>
        v.get F.cavSliceStatus_CE_COUNT n = min (s.get F.cavSliceStatus_CE_COUNT n + 1) (2 ^ 16 - 1) ∧ Posts s v (sliceUnit s n) none 0 0x0311 (pa / 64 * 64 % 2 ^ 64)))
      ∧ (∀ l c, cavFind s pa = some l → l.secs[pa / 64 % 4]? = some c → c.valid = true → Gives (.sliceEccError n 1 pa) s (fun v =>
        v.get F.cavSliceStatus_UE_COUNT n = min (s.get F.cavSliceStatus_UE_COUNT n + 1) 255
        ∧ (c.dirty = true → (cavFind v pa).bind (fun x => x.secs[pa / 64 % 4]?) = some { c with poison := true } ∧ Posts s v (sliceUnit s n) none 1 0x0313 (pa / 64 * 64 % 2 ^ 64))
        ∧ (c.dirty = false → (cavFind v pa).bind (fun x => x.secs[pa / 64 % 4]?) = some ⟨true, false, (chanSector s l.key pa).1, (chanSector s l.key pa).2⟩
          ∧ Posts s v (sliceUnit s n) none 0 0x0312 (pa / 64 * 64 % 2 ^ 64))))
      ∧ (∀ kind, kind = 4 ∨ kind = 5 → hlFind s (pa / 64 * 64) = none → Gives (.sliceEccError n kind pa) s (fun v => v = s))
      ∧ (∀ l, hlFind s (pa / 64 * 64) = some l → Gives (.sliceEccError n 4 pa) s (fun v =>
          v.get F.cavSliceStatus_CE_COUNT n = min (s.get F.cavSliceStatus_CE_COUNT n + 1) (2 ^ 16 - 1) ∧ Posts s v (sliceUnit s n) none 0 0x0311 (pa / 64 * 64 % 2 ^ 64))
        ∧ Gives (.sliceEccError n 5 pa) s (fun v => v.get F.cavSliceStatus_UE_COUNT n = min (s.get F.cavSliceStatus_UE_COUNT n + 1) 255
          ∧ (l.st = .m → hlFind v l.ha = some { l with poison := true } ∧ Posts s v (sliceUnit s n) none 1 0x0313 (l.ha % 2 ^ 64))
          ∧ (l.st ≠ .m → hlFind v l.ha = none ∧ Posts s v (sliceUnit s n) none 0 0x0312 (l.ha % 2 ^ 64) ∧ v.hl.creq =
            (hlRequest (setHostLines (sliceUncounted s n (sliceUnit s n)) (s.hl.lines.filter (fun x => x.ha != l.ha))) l.ha false).hl.creq)))
      ∧ Gives (.sliceEccError n 2 pa) s (fun v => Posts s v (sliceUnit s n) none 0 0x0314 (pa / 64 * 64 % 2 ^ 64))
      ∧ (s.get F.faultStatus_FATAL_CODE = 0 → Gives (.sliceEccError n 3 pa) s (fun v => v.get F.faultStatus_FATAL_CODE = 0x0315 ∧ v.ready = (s.ready && decide (6 < stage s)))))
    ∧ (∀ (core p a : Nat) (s : State) (c : Nat), core < 240 → s.physCore core = some p → boundCtx s core = some c → s.ctxState c = 1 → s.isSet F.faultCtrl_AUTO_TEST_EN = false →
      (∀ h l, glFind s core a h = some l → (h = true → glFind s core a false = none) → (∀ x ∈ s.core.gl, x.core = core → x.addr = l.addr → x.host = h → x = l) →
        ((∀ k ∈ l.dirty, k / 4 ≠ a % 128 / 4) → Gives (.grottoParityError core a true) s (fun v => Posts s v (unitId 1 p) (some c) 0 0x0301 (c % 2 ^ 64) ∧ v.ctxState c = 1
          ∧ ∀ x, glFind v core a h = some x → ∀ k, k / 4 = a % 128 / 4 → smapFind x.bytes k = none))
        ∧ ((∃ k ∈ l.dirty, k / 4 = a % 128 / 4) → Gives (.grottoParityError core a true) s (fun v => Posts s v (unitId 1 p) (some c) 1 0x0302 (c % 2 ^ 64) ∧ v.ctxState c = 3
          ∧ ∀ x, glFind v core a h = some x → x.dirty = [])))
      ∧ (a < sramSize s core → Gives (.grottoParityError core a false) s (fun v => Posts s v (unitId 1 p) (some c) 1 0x0303 (c % 2 ^ 64) ∧ v.ctxState c = 3))
      ∧ (∀ kind h l, kind < 3 → roFind s core kind h a = some l → (h = true → roFind s core kind false a = none) → Gives (.rocacheParityError core kind a) s (fun v =>
        Posts s v (unitId 1 p) (some c) 0 0x0304 (c % 2 ^ 64) ∧ (h = true ∨ roSegment s c l = none → v.core.ro = s.core.ro.filter (fun x => x != l))
        ∧ ∀ g, h = false → roSegment s c l = some g → ∃ x, roFind v core kind false a = some x ∧ (x.poison, x.bytes)
          = (devRead 4 { s with core := { s.core with ro := s.core.ro.filter (fun x => x != l) } } (g.rq s) l.addr 128).1)))
    ∧ (∀ (cycles : Nat) (counts : List (Nat × Nat)) (s : State),
      ((∀ n, n < 256 → ¬ hotAt s cycles counts n) → Gives (.hotspotWindow cycles counts) s (fun v => v = s))
      ∧ ∀ n, n < 256 → hotAt s cycles counts n → (∀ m, m < n → ¬ hotAt s cycles counts m) → Gives (.hotspotWindow cycles counts) s (fun v =>
        v.isSet F.cavHotspot_NOTICE = true ∧ v.get F.cavHotspot_SLICE = n ∧ v.get F.cavHotspot_WINDOWS = (s.get F.cavHotspot_WINDOWS + 1) % 2 ^ 32
        ∧ Only [.hl, .out] [.cavHotspot, .evt] s v))
    ∧ (∀ (p array dpu work : Nat) (residue : Bool) (s : State) (n : Nat), p < 256 → array < 4 → dpu < 33 → n = smapGet s.bank.dpuMap 0 (p * 4 + array) →
      (n % 64 = dpu + 1 → Gives (.dpuCheckFail p ⟨array, work⟩ dpu residue) s (fun v => v = s))
      ∧ (n = 0 → dpu < 32 → Gives (.dpuCheckFail p ⟨array, work⟩ dpu residue) s (fun v => smapGet v.bank.dpuMap 0 (p * 4 + array) = dpu + 1
        ∧ v.get F.coreArrayDpuMap_SPARE_FILLS (p * 4 + array) = dpu ∧ v.get F.coreArrayDpuMap_FAILED_PHYS (p * 4 + array) = dpu))
      ∧ (n = 0 → dpu = 32 → Gives (.dpuCheckFail p ⟨array, work⟩ dpu residue) s (fun v => v.get F.coreArrayDpuMap_SPARE_FILLS (p * 4 + array) = 0x3F
        ∧ Posts s v (unitId 2 (p * 4 + array)) none 0 0x0111 32))
      ∧ (n ≠ 0 → n % 64 ≠ dpu + 1 → Gives (.dpuCheckFail p ⟨array, work⟩ dpu residue) s (fun v => v.isSet F.coreArrayDpuMap_EXHAUSTED (p * 4 + array) = true ∧ unitMark v (unitId 1 p) = 4)))
    ∧ (∀ (p : Nat) (s : State), p < 256 →
      (∀ array work, array < 4 → (∀ c, placedCore s p = some c → (arrayWork s c p array)[work]? = none) → Gives (.arrayParityFail p ⟨array, work⟩) s (fun v => v = s))
      ∧ (∀ array work c j id i b l, array < 4 → placedCore s p = some c → (arrayWork s c p array)[work]? = some (.job j) → j.acc = false → j.origin = .block id i →
        blockRec s id = some b → launchRec s b.launch = some l → Gives (.arrayParityFail p ⟨array, work⟩) s (fun v => BlockFaulted s v b l (unitId 1 p)))
      ∧ (recentCheck s (unitId 1 p) = false →
        (Gives (.coreCheckFail p none) s (fun v => v.get F.wearCore_CHECKS p = min (s.get F.wearCore_CHECKS p + 1) 255 ∧ recentCheck v (unitId 1 p) = true
          ∧ Only [.flt] [.wearCore] s v))
        ∧ ∀ c k b l, placedCore s p = some c → s.run.blocks.find? (fun b => b.core == c && b.idx == k) = some b → blockRec s b.id = some b → launchRec s b.launch = some l →
          Gives (.coreCheckFail p (some k)) s (fun v => BlockFaulted s v b l (unitId 1 p)))
      ∧ (recentCheck s (unitId 1 p) = true → ∀ k, Gives (.coreCheckFail p k) s (fun v => unitMark v (unitId 1 p) = 4))
      ∧ Gives (.coreHeartbeatTimeout p) s (fun v => CoreFailed s v p))
    ∧ (∀ x ∈ engineFails, ∀ (n : Nat) (s : State), n < x.2.1 →
      (unitUp s (unitId x.1 n) = false → Gives (x.2.2 n) s (fun v => v = s))
      ∧ (unitUp s (unitId x.1 n) = true → Gives (x.2.2 n) s (fun v => unitUp v (unitId x.1 n) = false ∧ jobsOf v (unitId x.1 n) = []
        ∧ v.isSet F.faultStatus_UNIT_LOST = true ∧ v.isSet F.engStatus_IN_SERVICE (engIndex (unitId x.1 n)) = false
        ∧ (jobsOf s (unitId x.1 n) = [] → Posts s v (unitId x.1 n) none 1 0x1031 0xFFF)
        ∧ ∀ j, running s (unitId x.1 n) = some j → s.ctxState j.ctx = 1 → v.ctxState j.ctx = 3
          ∧ ((∀ p, j.job ≠ .update p) → Posts s v (unitId x.1 n) (some j.ctx) 1 0x1031 (j.ctx % 2 ^ 64)))))
    ∧ (∀ (f : Nat) (s : State), f < 32 → unitUp s (unitId 7 f) = true → Gives (.ferryFail f) s (fun v => unitUp v (unitId 7 f) = false ∧ v.isSet F.faultStatus_UNIT_LOST = true
      ∧ v.isSet F.ferryCtrl_RUN f = false ∧ (s.isSet F.ferryCtrl_VALID f = true → s.ctxState (s.get F.ferryCtrl_OWNER f) = 1 → v.ctxState (s.get F.ferryCtrl_OWNER f) = 3)))
    ∧ (∀ (a : Nat) (s : State), a < 4 → s.get F.faultStatus_FATAL_CODE = 0 → Gives (.packageAgentFail a) s (fun v => v.get F.faultStatus_FATAL_CODE = 0x1040
      ∧ v.ready = (s.ready && decide (6 < stage s)) ∧ (a = 2 → unitUp v (unitId 0xD 2) = false)))
    ∧ (∀ (e m lane k : Nat) (s : State), e < 4 → m < 40 → k = e * 64 + m → s.flt.d2dOut.contains k = false →
      (smapGet s.flt.lanesUsed 0 k < Config.repairLanes → Gives (.d2dLaneFail e m lane) s (fun v => smapGet v.flt.lanesUsed 0 k = smapGet s.flt.lanesUsed 0 k + 1
        ∧ v.flt.d2dOut = s.flt.d2dOut ∧ Posts s v (unitId 0xB k) none 2 0x1010 (lane % 2 ^ 64) ∧ Only recordParts recordRegs s v))
      ∧ (Config.repairLanes ≤ smapGet s.flt.lanesUsed 0 k → Gives (.d2dLaneFail e m lane) s (fun v => v.flt.d2dOut.contains k = true ∧ v.isSet F.faultStatus_UNIT_LOST = true
        ∧ ∃ x, Posts s v (unitId 0xB k) none 0 0x1011 x)))
    ∧ ∀ (dom phase : Nat) (s : State), dom < 40 → phase < phasesOf dom → smapGet s.pwr.lost 0 dom = 0 →
      (smapGet s.bank.phases 0 dom = 0 → Gives (.regulatorPhaseFault dom phase) s (fun v => smapGet v.bank.phases 0 dom = phase + 1
        ∧ Posts s v (unitId 0xC (dom * 16 + phase)) none 2 0x1020 (unitId 0xC (dom * 16 + phasesOf dom)) ∧ Only recordParts recordRegs s v))
      ∧ (smapGet s.bank.phases 0 dom ≠ 0 → smapGet s.bank.phases 0 dom ≠ phase + 1 → Gives (.regulatorPhaseFault dom phase) s (fun v =>
        (smapGet v.pwr.lost 0 dom).testBit phase = true ∧ v.isSet F.faultStatus_UNIT_LOST = true
        ∧ Posts s v (unitId 0xC (dom * 16 + phase)) none 0 0x1021 (phasesOf dom - 1) ∧ Only (.pwr :: recordParts) recordRegs s v))

namespace Sys2Proof.Claims

/-- The host may submit a command of FT_CMD numbered `seq`, and names unit `u` (R418, R519). -/
structure FtSubmits (s : State) (u seq : Nat) : Prop where
  link : s.hl.d3 = false
  ready : s.ready = true
  small : seq < 256 ∧ u < 65536
  fresh : seq ≠ s.get F.ftCmd_REQ_SEQ
  idle : s.get F.ftCmd_DONE_SEQ = s.get F.ftCmd_REQ_SEQ

/-- FT_CMD has answered with a result of Table 16.10 and the unit's state. -/
structure FtAnswers (v : State) (u res seq : Nat) : Prop where
  result : v.get F.ftCmd_RESULT = res
  state : v.get F.ftCmd_UNIT_STATE = unitState v u % 16
  unit : v.get F.ftCmd_UNIT = u
  asked : v.get F.ftCmd_REQ_SEQ = seq
  done : v.get F.ftCmd_DONE_SEQ = seq

/-- `i` is the command of FT_CMD with operation `op` on unit `u`, numbered `seq` (Table 16.9). -/
def FtCommand (u seq op : Nat) (i : Instr) : Prop :=
  (op = 0 ∧ ∃ force, i = .ftTest u force seq) ∨ (op = 1 ∧ i = .ftReplace u seq) ∨ (op = 2 ∧ i = .ftBypass u seq)
    ∨ (op = 3 ∧ i = .ftReturn u seq) ∨ (op = 4 ∧ i = .ftQuery u seq)

end Sys2Proof.Claims

/-- FT_CMD is answered by Table 16.9, takes units to their spares or out, tests and returns them; slices drain and join. -/
def Obligations.FieldTestsMoveTheUnits : Prop :=
  (∀ (u seq : Nat) (s : State), FtSubmits s u seq →
      (∀ op i, FtCommand u seq op i →
        (ftKind u op = false → Gives i s (fun v => FtAnswers v u 2 seq ∧ Only [.acc] [.ftCmd] s v))
        ∧ (ftKind u op = true → op = 4 → Gives i s (fun v => FtAnswers v u 0 seq ∧ Only [.acc] [.ftCmd] s v))
        ∧ (ftKind u op = true → op ≠ 4 → groupBusy s (groupOf u) = true → Gives i s (fun v => FtAnswers v u 5 seq ∧ Only [.acc] [.ftCmd] s v))
        ∧ (ftKind u op = true → op ≠ 4 → groupBusy s (groupOf u) = false → ftState s u op = false → Gives i s (fun v => FtAnswers v u 3 seq ∧ Only [.acc] [.ftCmd] s v)))
      ∧ (ftKind u 3 = true → groupBusy s (groupOf u) = false → ftState s u 3 = true → Gives (.ftReturn u seq) s (fun v => FtAnswers v u 1 seq ∧ unitMark v u = 3
        ∧ v.flt.swaps = s.flt.swaps ++ [⟨u, 3, none, some seq, 0⟩] ∧ Posts s v u none 0 0x1001 3))
      ∧ ∀ p c, u = unitId 1 p → p < 256 → placedCore s p = some c → groupBusy s (groupOf u) = false →
        (∀ op i, FtCommand u seq op i → op < 2 → ftState s u op = true → accRuns s p = true → ∀ q, (freeCores s (p / 16)).head? = some q → Gives i s (fun v => FtAnswers v u 1 seq
          ∧ unitMark v u = 2 ∧ v.bank.coreMap = s.bank.coreMap ∧ v.flt.swaps = s.flt.swaps ++ [⟨u, op, some q, some seq, 0⟩]))
        ∧ (∀ op i, FtCommand u seq op i → op < 2 → ftState s u op = true → accRuns s p = false → ∀ q, (freeCores s (p / 16)).head? = some q → Gives i s (fun v => FtAnswers v u 1 seq
          ∧ corePos v c = some q ∧ v.get F.idCoreMap_PHYS_CORE c = q ∧ unitMark v u = afterSwap op ∧ v.flt.swaps = s.flt.swaps ++ [⟨u, op, some q, some seq, 0⟩]
          ∧ Posts s v u none 2 0x0103 (extra2 (unitId 1 q) c)))
        ∧ (ftState s u 1 = true → (freeCores s (p / 16)).head? = none → Gives (.ftReplace u seq) s (fun v => FtAnswers v u 4 seq ∧ Only [.acc] [.ftCmd] s v))
        ∧ (ftState s u 2 = true → coreFree s c = true → Gives (.ftBypass u seq) s (fun v => FtAnswers v u 1 seq ∧ corePos v c = none ∧ v.isSet F.idCoreMap_VALID c = false
          ∧ unitMark v u = 5 ∧ v.isSet F.faultStatus_UNIT_LOST = true))
        ∧ (ftState s u 2 = true → coreFree s c = false → Gives (.ftBypass u seq) s (fun v => FtAnswers v u 3 seq ∧ Only [.acc] [.ftCmd] s v)))
    ∧ (∀ (p n q seq : Nat) (s : State), FtSubmits s (unitId 3 p) seq → p < 272 → placedSlice s p = some n → sliceActive s n = true → groupBusy s (groupOf (unitId 3 p)) = false →
      ftState s (unitId 3 p) 1 = true → (freeSlices s (p / 68)).head? = some q → Gives (.ftReplace (unitId 3 p) seq) s (fun v => FtAnswers v (unitId 3 p) 1 seq
        ∧ v.get F.cavSliceStatus_STATE n = 1 ∧ unitMark v (unitId 3 p) = 2 ∧ v.flt.swaps = s.flt.swaps ++ [⟨unitId 3 p, 1, some q, some seq, 0⟩]))
    ∧ (∀ (n : Nat) (s : State), n < 256 →
      (s.get F.cavSliceStatus_STATE n = 1 → (∀ e ∈ s.hl.evict, e.slice ≠ n) → (∀ l ∈ s.hl.lines, (hostSet s l.ha).1 ≠ n) →
        Gives (.sliceDrainDone n) s (fun v =>
        v.isSet F.idSliceMap_VALID n = false ∧ (∀ l ∈ v.mem.cavern, l.slice ≠ n)
        ∧ (swapOfSlice s n = none → v.get F.cavSliceStatus_STATE n = 3)
        ∧ (∀ x, swapOfSlice s n = some x → (x.spare.isSome = true → v.get F.cavSliceStatus_STATE n = 2)
          ∧ (x.spare = none → v.get F.cavSliceStatus_STATE n = 3 ∧ slicePos v n = none ∧ unitMark v x.unit = afterSwap x.op ∧ v.isSet F.faultStatus_UNIT_LOST = true
            ∧ Posts s v x.unit none 0 0x0321 n))))
      ∧ (s.get F.cavSliceStatus_STATE n = 2 → s.domOn (domOfCavern (n / 64)) = true → Gives (.sliceJoin n) s (fun v =>
        v.get F.cavSliceStatus_STATE n = 0 ∧ v.isSet F.idSliceMap_VALID n = true ∧ (∀ l ∈ v.mem.cavern, l.slice ≠ n)
        ∧ (∀ x q, swapOfSlice s n = some x → x.spare = some q → q < 512 → slicePos v n = some q ∧ v.get F.idSliceMap_PHYS_SLICE n = q ∧ unitMark v x.unit = afterSwap x.op
          ∧ Posts s v x.unit none 2 0x0320 (extra2 (unitId 3 q) n)))))
    ∧ ∀ (p step : Nat) (s : State) (x : Swap), p < 256 → s.flt.waiting = [] → s.flt.swaps.find? (fun y => y.unit == unitId 1 p) = some x → placedCore s p = none → step < 65536 →
      (∀ pass, x.op = 1 ∨ x.op = 2 → Gives (.ftCommandDone (unitId 1 p) pass step) s (fun v => unitMark v (unitId 1 p) = afterSwap x.op
        ∧ (x.seq.isSome = true → v.get F.ftCmd_RESULT = 0 ∧ v.get F.ftCmd_UNIT_STATE = afterSwap x.op) ∧ ∀ y ∈ v.flt.swaps, y.unit ≠ unitId 1 p))
      ∧ (x.op = 0 ∨ x.op = 3 →
        Gives (.ftCommandDone (unitId 1 p) true step) s (fun v => unitMark v (unitId 1 p) = 0 ∧ (x.seq.isSome = true → v.get F.ftCmd_RESULT = 0)
          ∧ (∀ y ∈ v.flt.swaps, y.unit ≠ unitId 1 p)
          ∧ (∀ c, (coresOf (p / 16)).find? (fun k => (corePos s k).isNone) = some c → corePos v c = some p ∧ v.isSet F.idCoreMap_VALID c = !downAtStart s (domOfGallery (galleryOfCore c))
            ∧ Posts s v (unitId 1 p) none 0 0x1002 c)
          ∧ ((coresOf (p / 16)).find? (fun k => (corePos s k).isNone) = none → v.bank.coreMap = s.bank.coreMap ∧ Posts s v (unitId 1 p) none 0 0x1002 0xFFFF))
        ∧ Gives (.ftCommandDone (unitId 1 p) false step) s (fun v => unitMark v (unitId 1 p) = 4
          ∧ v.get F.wearCore_BIST_FAILS p = min (s.get F.wearCore_BIST_FAILS p + 1) 255 ∧ (x.seq.isSome = true → v.get F.ftCmd_RESULT = 6 ∧ v.get F.ftCmd_DETAIL = step)
          ∧ (∀ y ∈ v.flt.swaps, y.unit ≠ unitId 1 p) ∧ v.bank.coreMap = s.bank.coreMap ∧ Posts s v (unitId 1 p) none 0 0x1003 step))

namespace Sys2Proof.Claims

/-- Block `b` is resident with its groups at their first instruction and its threads' registers as a block starts (R141, R142, R150, R190). -/
structure Placed (s v : State) (l : Launch) (idx core : Nat) (b : BlockRec) : Prop where
  blocks : v.run.blocks = s.run.blocks ++ [b]
  names : b.launch = l.id ∧ b.ctx = l.ctx ∧ b.idx = idx ∧ b.core = core ∧ b.granules = l.decl.granules ∧ b.slots.length = slotsPer l.decl
  tokens : b.tokens = List.replicate 64 ⟨true, 0⟩
  fresh : ∀ k ∈ b.slots, k < 128 ∧ slotRec s core k = none
  scratch : b.granules ≠ 0 → b.gran + b.granules ≤ granulesOf l.decl.cacheWays
    ∧ ∀ x ∈ s.run.blocks, x.core = core → x.granules ≠ 0 → b.gran + b.granules ≤ x.gran ∨ x.gran + x.granules ≤ b.gran
  groups : ∀ g k, b.slots[g]? = some k → slotRec v core k = some ⟨b.id, g, [⟨l.decl.codeOffset, groupMask l.decl.threads g, true, .none, s.ns⟩], []⟩
  regs : ∀ g k n, b.slots[g]? = some k → n < 32 → (groupMask l.decl.threads g).testBit n = true →
    (regRead v core k 0 n).toNat = (32 * g + n) % 2 ^ 32 ∧ (regRead v core k 1 n).toNat = idx % 2 ^ 32 ∧ (regRead v core k 2 n).toNat = idx / 2 ^ 32 % 256
      ∧ (regRead v core k 3 n).toNat = l.arg % 2 ^ 32 ∧ (regRead v core k 4 n).toNat = l.arg / 2 ^ 32 % 2 ^ 32

end Sys2Proof.Claims

/-- A free core binds to the bidder of highest priority, cleared where the context changes, and takes the launch’s next block. -/
def Obligations.CoresBindAndBlocksArePlaced : Prop :=
  ∀ (core : Nat) (s : State), core < 240 →
    (∀ c, bidder s core = some c → c < 4096 → coreBusy s core = false → coreRuns s core = true → coreDrains s core = false →
      Gives (.coreBind core) s (fun v => v.isSet F.coreBinding_BOUND core = true ∧ v.get F.coreBinding_CONTEXT core = c ∧ c ∈ bidders s core
        ∧ (∀ x ∈ bidders s core, s.get F.hmCtxGrant_PRIORITY x ≤ s.get F.hmCtxGrant_PRIORITY c)
        ∧ ((coreFlags s core).servedNone = true ∨ s.get F.coreBinding_CONTEXT core ≠ c → (coreFlags v core).clearing = true
          ∧ (∀ k r l, k < 128 → r < 64 → l < 32 → regRead v core k r l = 0) ∧ (∀ a, a < 2097152 → sramByte v core a = 0)
          ∧ (∀ l ∈ v.core.gl, l.core ≠ core) ∧ (∀ l ∈ v.core.ro, l.core ≠ core))
        ∧ ((coreFlags s core).servedNone = false → s.get F.coreBinding_CONTEXT core = c → (coreFlags v core).clearing = (coreFlags s core).clearing ∧ v.core.rf = s.core.rf ∧ v.core.rc = s.core.rc
          ∧ v.core.sram = s.core.sram ∧ v.core.gl = s.core.gl)
        ∧ (coreFlags v core).lfsr = 0xACE1 ∧ Only [.mem, .core, .free] ([.coreBinding, .coreGrottoStatus, .coreGrottoWb] ++ memRegs) s v))
    ∧ Gives (.bindZeroDone core) s (fun v => coreFlags v core = { coreFlags s core with clearing := false } ∧ (∀ k, k ≠ core → coreFlags v k = coreFlags s k) ∧ Only [.core] [] s v)
    ∧ (∀ launch idx l, launchRec s launch = some l → wantsCore s l core = true → coreServes s core l.ctx = true → blockFor s l core = some idx →
      Gives (.blockPlace launch idx core) s (fun v => (∃ b, b.id = s.obj.nextId ∧ Placed s v l idx core b)
        ∧ ((∀ b ∈ s.run.blocks, b.core ≠ core) → l.decl.cacheWays < 32 → v.get F.coreGrottoStatus_CACHE_WAYS core = l.decl.cacheWays)
        ∧ Only [.mem, .obj, .run, .core, .free] ([.coreBinding, .coreGrottoStatus, .coreGrottoWb] ++ memRegs) s v))
    ∧ ∀ ctx, ctx < 4096 → s.isSet F.coreBinding_BOUND core = true → s.get F.coreBinding_CONTEXT core ≠ ctx → s.get F.hmBindQuantum_QUANTUM_US ≠ 0 →
      s.get F.hmCtxGrant_PRIORITY (s.get F.coreBinding_CONTEXT core) ≤ s.get F.hmCtxGrant_PRIORITY ctx → waitsFor s core ctx = true →
      (keptFrom s core ctx = true → Gives (.bindQuantumExpire core ctx) s (fun v => v = s))
      ∧ (keptFrom s core ctx = false → Gives (.bindQuantumExpire core ctx) s (fun v => (coreBusy s core = true → (coreFlags v core).closed = true ∧ v.isSet F.coreBinding_BOUND core = true)
        ∧ (coreBusy s core = false → v.isSet F.coreBinding_BOUND core = false ∧ (coreFlags v core).closed = false)
        ∧ Only [.core] [.coreBinding] s v))
end

