-- ==== Sys2Proof/Laws/Bits.lean ====
section
/-! SUPPORT. Fields of words: what reading a field gives after a field was written. -/

namespace Sys2Proof

theorem testBit_bitsOf (x hi lo k : Nat) : (bitsOf x hi lo).testBit k = (decide (k < hi - lo + 1) && x.testBit (lo + k)) := by
  simp [bitsOf, Nat.testBit_mod_two_pow, Nat.testBit_shiftRight]

theorem bitsOf_lt (x hi lo : Nat) : bitsOf x hi lo < 2 ^ (hi - lo + 1) := Nat.mod_lt _ (Nat.two_pow_pos _)

/-- A word with a field replaced, by its parts: what lies above, the field, what lies below. -/
theorem withBits_eq (x hi lo v : Nat) :
    withBits x hi lo v
      = 2 ^ (lo + (hi - lo + 1)) * (x / 2 ^ (lo + (hi - lo + 1))) + (2 ^ lo * (v % 2 ^ (hi - lo + 1)) + x % 2 ^ lo) := by
  unfold withBits bitsOf
  generalize hi - lo + 1 = n
  rw [Nat.shiftRight_eq_div_pow, Nat.shiftLeft_eq, Nat.shiftLeft_eq]
  have h1 := Nat.div_add_mod x (2 ^ lo)
  have h2 := Nat.div_add_mod (x / 2 ^ lo) (2 ^ n)
  rw [Nat.div_div_eq_div_mul, ← Nat.pow_add] at h2
  have h3 : 2 ^ (lo + n) * (x / 2 ^ (lo + n)) = 2 ^ lo * (2 ^ n * (x / 2 ^ (lo + n))) := by rw [Nat.pow_add, Nat.mul_assoc]
  have h4 : x = 2 ^ lo * (2 ^ n * (x / 2 ^ (lo + n))) + 2 ^ lo * (x / 2 ^ lo % 2 ^ n) + x % 2 ^ lo := by
    rw [← Nat.mul_add, h2, h1]
  rw [h3, Nat.mul_comm (x / 2 ^ lo % 2 ^ n), Nat.mul_comm (v % 2 ^ n)]
  omega

theorem testBit_withBits {x hi lo v k : Nat} (h : lo ≤ hi) :
    (withBits x hi lo v).testBit k = if lo ≤ k ∧ k ≤ hi then v.testBit (k - lo) else x.testBit k := by
  have hb : 2 ^ lo * (v % 2 ^ (hi - lo + 1)) + x % 2 ^ lo < 2 ^ (lo + (hi - lo + 1)) := by
    have h1 := Nat.mod_lt x (Nat.two_pow_pos lo)
    have h2 := Nat.mod_lt v (Nat.two_pow_pos (hi - lo + 1))
    calc 2 ^ lo * (v % 2 ^ (hi - lo + 1)) + x % 2 ^ lo < 2 ^ lo * (v % 2 ^ (hi - lo + 1)) + 2 ^ lo := by omega
      _ = 2 ^ lo * (v % 2 ^ (hi - lo + 1) + 1) := by ring
      _ ≤ 2 ^ lo * 2 ^ (hi - lo + 1) := Nat.mul_le_mul_left _ h2
      _ = 2 ^ (lo + (hi - lo + 1)) := (Nat.pow_add ..).symm
  rw [withBits_eq, Nat.testBit_two_pow_mul_add _ hb, Nat.testBit_two_pow_mul_add _ (Nat.mod_lt _ (Nat.two_pow_pos lo))]
  have e : lo + (hi - lo + 1) = hi + 1 := by omega
  rw [e]
  by_cases c1 : k < lo
  · simp [c1, show k < hi + 1 by omega, show ¬ lo ≤ k by omega, Nat.testBit_mod_two_pow]
  · by_cases c2 : k ≤ hi
    · simp [c1, show k < hi + 1 by omega, show lo ≤ k by omega, c2, Nat.testBit_mod_two_pow]
      omega
    · have : ¬ k < hi + 1 := by omega
      simp [this, c2, Nat.testBit_div_two_pow, show k - (hi + 1) + (hi + 1) = k by omega]

/-- The field written reads as what was written, at its width. -/
theorem bitsOf_withBits_same {x hi lo v : Nat} (h : lo ≤ hi) : bitsOf (withBits x hi lo v) hi lo = v % 2 ^ (hi - lo + 1) := by
  apply Nat.eq_of_testBit_eq
  intro k
  rw [testBit_bitsOf, testBit_withBits h, Nat.testBit_mod_two_pow]
  by_cases c : k < hi - lo + 1
  · simp [c, show lo + k ≤ hi by omega]
  · simp [c]

/-- A field apart from the one written is unchanged. -/
theorem bitsOf_withBits_apart {x hi lo v h2 l2 : Nat} (h : lo ≤ hi) (d : h2 < lo ∨ hi < l2) (h' : l2 ≤ h2) :
    bitsOf (withBits x hi lo v) h2 l2 = bitsOf x h2 l2 := by
  apply Nat.eq_of_testBit_eq
  intro k
  rw [testBit_bitsOf, testBit_bitsOf, testBit_withBits h]
  by_cases c : k < h2 - l2 + 1
  · have : ¬ (lo ≤ l2 + k ∧ l2 + k ≤ hi) := by omega
    simp [this]
  · simp [c]

/-- Reading a field within the low `n` bits ignores what lies above them. -/
theorem bitsOf_mod {x n hi lo : Nat} (h : hi < n) (h' : lo ≤ hi) : bitsOf (x % 2 ^ n) hi lo = bitsOf x hi lo := by
  apply Nat.eq_of_testBit_eq
  intro k
  rw [testBit_bitsOf, testBit_bitsOf, Nat.testBit_mod_two_pow]
  by_cases c : k < hi - lo + 1
  · simp [show lo + k < n by omega]
  · simp [c]

end Sys2Proof
end

