-- ==== Sys2Proof/Laws/Regs.lean ====
section
/-! SUPPORT. Register storage: what a read gives after a write, and that a write leaves the rest of the state alone. -/

namespace Sys2Proof.Machine

/-! The store of register words. -/

theorem regFind_regInsert_same (m : RegStore) (a : RegKey) (v : W64) : regFind (regInsert m a v) a = some v := by
  induction m with
  | nil => simp [regInsert, regFind]
  | cons x m ih =>
    obtain ⟨k, w⟩ := x
    unfold regInsert
    split
    · simp [regFind]
    · split
      · simp [regFind]
      · rename_i h _
        simp [regFind, h, ih]

theorem regFind_regInsert_ne (m : RegStore) {a b : RegKey} (v : W64) (h : b ≠ a) : regFind (regInsert m a v) b = regFind m b := by
  induction m with
  | nil => simp [regInsert, regFind, h]
  | cons x m ih =>
    obtain ⟨k, w⟩ := x
    unfold regInsert
    split
    · rename_i e
      subst e
      simp [regFind, h]
    · split
      · simp [regFind, h]
      · simp [regFind, ih]

theorem regFind_filter_same (m : RegStore) (a : RegKey) : regFind (m.filter (fun e => decide (e.1 ≠ a))) a = none := by
  induction m with
  | nil => rfl
  | cons x m ih =>
    obtain ⟨k, w⟩ := x
    by_cases h : k = a
    · simpa [List.filter_cons, h] using ih
    · simp only [List.filter_cons, ne_eq, h, not_false_eq_true, decide_true, if_true, regFind, Ne.symm h, if_false]
      exact ih

theorem regFind_filter_ne (m : RegStore) {a b : RegKey} (h : b ≠ a) :
    regFind (m.filter (fun e => decide (e.1 ≠ a))) b = regFind m b := by
  induction m with
  | nil => rfl
  | cons x m ih =>
    obtain ⟨k, w⟩ := x
    by_cases e : k = a
    · subst e
      simpa [List.filter_cons, regFind, h] using ih
    · simp only [List.filter_cons, ne_eq, e, not_false_eq_true, decide_true, if_true, regFind]
      split
      · rfl
      · exact ih

theorem regGet_regSet_same (m : RegStore) (d : W64) (a : RegKey) (v : W64) : regGet (regSet m d a v) d a = v := by
  unfold regSet regGet
  split
  · rename_i h
    rw [regFind_filter_same, h]
    rfl
  · rw [regFind_regInsert_same]
    rfl

theorem regGet_regSet_ne (m : RegStore) (d d' : W64) {a b : RegKey} (v : W64) (h : b ≠ a) : regGet (regSet m d a v) d' b = regGet m d' b := by
  unfold regSet regGet
  split
  · rw [regFind_filter_ne m h]
  · rw [regFind_regInsert_ne m v h]

/-! Words. -/

theorem State.word_setWord_same (s : State) (r : RegId) (i j w v : Nat) : (s.setWord r i j w v).word r i j w = v % 2 ^ 64 := by
  unfold State.word State.setWord
  cases h : r.inBank <;> simp [regGet_regSet_same, BitVec.toNat_ofNat]

theorem State.word_setWord_ne (s : State) {r r' : RegId} {i i' j j' w w' : Nat} (v : Nat)
    (h : (⟨r', i', j', w'⟩ : RegKey) ≠ ⟨r, i, j, w⟩) : (s.setWord r i j w v).word r' i' j' w' = s.word r' i' j' w' := by
  unfold State.word State.setWord
  cases h1 : r.inBank <;> cases h2 : r'.inBank <;> simp [regGet_regSet_ne _ _ _ _ h]

/-! Fields. -/

/-- A field lies in one word. -/
def Fld.ok (f : Fld) : Bool := decide (f.lo ≤ f.hi) && f.hi / 64 == f.lo / 64

theorem Fld.ok_mod {f : Fld} (h : f.ok = true) : f.lo % 64 ≤ f.hi % 64 ∧ f.hi % 64 < 64 ∧ f.hi % 64 - f.lo % 64 = f.hi - f.lo := by
  simp [Fld.ok] at h
  omega

/-- The field written reads as what was written, at its width. -/
theorem State.get_put_same (s : State) {f : Fld} (v i j : Nat) (h : f.ok = true) : (s.put f v i j).get f i j = v % 2 ^ (f.hi - f.lo + 1) := by
  obtain ⟨h1, h2, h3⟩ := Fld.ok_mod h
  unfold State.get State.put
  rw [State.word_setWord_same, bitsOf_mod h2 h1, bitsOf_withBits_same h1, h3]

/-- A field of another register is unchanged. -/
theorem State.get_put_reg (s : State) {f g : Fld} (v i j i' j' : Nat) (h : g.reg ≠ f.reg) : (s.put f v i j).get g i' j' = s.get g i' j' := by
  unfold State.get State.put
  rw [State.word_setWord_ne]
  exact fun e => h (RegKey.mk.inj e).1

/-- A field of another instance is unchanged. -/
theorem State.get_put_i (s : State) {f g : Fld} (v j j' : Nat) {i i' : Nat} (h : i' ≠ i) : (s.put f v i j).get g i' j' = s.get g i' j' := by
  unfold State.get State.put
  rw [State.word_setWord_ne]
  exact fun e => h (RegKey.mk.inj e).2.1

theorem State.get_put_j (s : State) {f g : Fld} (v i i' : Nat) {j j' : Nat} (h : j' ≠ j) : (s.put f v i j).get g i' j' = s.get g i' j' := by
  unfold State.get State.put
  rw [State.word_setWord_ne]
  exact fun e => h (RegKey.mk.inj e).2.2.1

/-- A field at other bits is unchanged. -/
theorem State.get_put_bits (s : State) {f g : Fld} (v i j i' j' : Nat) (hf : f.ok = true) (hg : g.ok = true) (h : g.hi < f.lo ∨ f.hi < g.lo) :
    (s.put f v i j).get g i' j' = s.get g i' j' := by
  obtain ⟨f1, f2, f3⟩ := Fld.ok_mod hf
  obtain ⟨g1, g2, g3⟩ := Fld.ok_mod hg
  simp [Fld.ok] at hf hg
  unfold State.get State.put
  by_cases e : (⟨g.reg, i', j', g.lo / 64⟩ : RegKey) = ⟨f.reg, i, j, f.lo / 64⟩
  · obtain ⟨e1, e2, e3, e4⟩ := RegKey.mk.inj e
    rw [e1, e2, e3, e4, State.word_setWord_same, bitsOf_mod g2 g1, bitsOf_withBits_apart f1 (by omega) g1]
  · rw [State.word_setWord_ne _ _ e]

/-- A field within its width. -/
theorem State.get_lt (s : State) (f : Fld) (i j : Nat) (h : f.ok = true) : s.get f i j < 2 ^ (f.hi - f.lo + 1) := by
  obtain ⟨_, _, h3⟩ := Fld.ok_mod h
  have := bitsOf_lt (s.word f.reg i j (f.lo / 64)) (f.hi % 64) (f.lo % 64)
  rwa [h3] at this

/-- A counter raised by `n` reads as its sum, at its width. -/
theorem State.get_bump_same (s : State) {f : Fld} (n i j : Nat) (h : f.ok = true) :
    (s.bump f n i j).get f i j = (s.get f i j + n) % 2 ^ (f.hi - f.lo + 1) := State.get_put_same s _ i j h

/-- A saturating counter stays below its largest value. -/
theorem State.get_bumpSat_same (s : State) {f : Fld} (n i j : Nat) (h : f.ok = true) :
    (s.bumpSat f n i j).get f i j = min (s.get f i j + n) (2 ^ (f.hi - f.lo + 1) - 1) := by
  have := Nat.two_pow_pos (f.hi - f.lo + 1)
  unfold State.bumpSat
  rw [State.get_put_same s _ i j h, Nat.mod_eq_of_lt (by omega)]

/-! The rest of the state. -/

theorem State.setWord_bank_eq (s : State) (r : RegId) (i j w v : Nat) (h : r.inBank = false) : (s.setWord r i j w v).bank = s.bank := by
  simp [State.setWord, h]

theorem State.setWord_regs_eq (s : State) (r : RegId) (i j w v : Nat) (h : r.inBank = true) : (s.setWord r i j w v).regs = s.regs := by
  simp [State.setWord, h]

/-- A write of a register outside the bank changes nothing but the registers. -/
theorem State.setWord_only (s : State) (r : RegId) (i j w v : Nat) (h : r.inBank = false) :
    s.setWord r i j w v = { s with regs := (s.setWord r i j w v).regs } := by
  simp [State.setWord, h]

@[simp] theorem State.setWord_pending (s : State) (r : RegId) (i j w v : Nat) : (s.setWord r i j w v).pending = s.pending := by
  unfold State.setWord; split <;> rfl

@[simp] theorem State.setWord_acc (s : State) (r : RegId) (i j w v : Nat) : (s.setWord r i j w v).acc = s.acc := by
  unfold State.setWord; split <;> rfl

@[simp] theorem State.setWord_mem (s : State) (r : RegId) (i j w v : Nat) : (s.setWord r i j w v).mem = s.mem := by
  unfold State.setWord; split <;> rfl

@[simp] theorem State.setWord_hl (s : State) (r : RegId) (i j w v : Nat) : (s.setWord r i j w v).hl = s.hl := by
  unfold State.setWord; split <;> rfl

@[simp] theorem State.setWord_obj (s : State) (r : RegId) (i j w v : Nat) : (s.setWord r i j w v).obj = s.obj := by
  unfold State.setWord; split <;> rfl

@[simp] theorem State.setWord_run (s : State) (r : RegId) (i j w v : Nat) : (s.setWord r i j w v).run = s.run := by
  unfold State.setWord; split <;> rfl

@[simp] theorem State.setWord_core (s : State) (r : RegId) (i j w v : Nat) : (s.setWord r i j w v).core = s.core := by
  unfold State.setWord; split <;> rfl

@[simp] theorem State.setWord_eng (s : State) (r : RegId) (i j w v : Nat) : (s.setWord r i j w v).eng = s.eng := by
  unfold State.setWord; split <;> rfl

@[simp] theorem State.setWord_tide (s : State) (r : RegId) (i j w v : Nat) : (s.setWord r i j w v).tide = s.tide := by
  unfold State.setWord; split <;> rfl

@[simp] theorem State.setWord_sail (s : State) (r : RegId) (i j w v : Nat) : (s.setWord r i j w v).sail = s.sail := by
  unfold State.setWord; split <;> rfl

@[simp] theorem State.setWord_fab (s : State) (r : RegId) (i j w v : Nat) : (s.setWord r i j w v).fab = s.fab := by
  unfold State.setWord; split <;> rfl

@[simp] theorem State.setWord_pwr (s : State) (r : RegId) (i j w v : Nat) : (s.setWord r i j w v).pwr = s.pwr := by
  unfold State.setWord; split <;> rfl

@[simp] theorem State.setWord_boot (s : State) (r : RegId) (i j w v : Nat) : (s.setWord r i j w v).boot = s.boot := by
  unfold State.setWord; split <;> rfl

@[simp] theorem State.setWord_flt (s : State) (r : RegId) (i j w v : Nat) : (s.setWord r i j w v).flt = s.flt := by
  unfold State.setWord; split <;> rfl

@[simp] theorem State.setWord_free (s : State) (r : RegId) (i j w v : Nat) : (s.setWord r i j w v).free = s.free := by
  unfold State.setWord; split <;> rfl

@[simp] theorem State.setWord_ns (s : State) (r : RegId) (i j w v : Nat) : (s.setWord r i j w v).ns = s.ns := by
  unfold State.setWord; split <;> rfl

@[simp] theorem State.setWord_out (s : State) (r : RegId) (i j w v : Nat) : (s.setWord r i j w v).out = s.out := by
  unfold State.setWord; split <;> rfl

@[simp] theorem State.setWord_bank_lit (s : State) (r : RegId) (i j w v : Nat) : (s.setWord r i j w v).bank.lit = s.bank.lit := by
  unfold State.setWord; split <;> rfl

@[simp] theorem State.setWord_bank_bol (s : State) (r : RegId) (i j w v : Nat) : (s.setWord r i j w v).bank.bol = s.bank.bol := by
  unfold State.setWord; split <;> rfl

@[simp] theorem State.setWord_bank_coreMap (s : State) (r : RegId) (i j w v : Nat) : (s.setWord r i j w v).bank.coreMap = s.bank.coreMap := by
  unfold State.setWord; split <;> rfl

@[simp] theorem State.setWord_bank_sliceMap (s : State) (r : RegId) (i j w v : Nat) : (s.setWord r i j w v).bank.sliceMap = s.bank.sliceMap := by
  unfold State.setWord; split <;> rfl

@[simp] theorem State.setWord_bank_dpuMap (s : State) (r : RegId) (i j w v : Nat) : (s.setWord r i j w v).bank.dpuMap = s.bank.dpuMap := by
  unfold State.setWord; split <;> rfl

@[simp] theorem State.setWord_bank_phases (s : State) (r : RegId) (i j w v : Nat) : (s.setWord r i j w v).bank.phases = s.bank.phases := by
  unfold State.setWord; split <;> rfl

@[simp] theorem State.setWord_bank_path (s : State) (r : RegId) (i j w v : Nat) : (s.setWord r i j w v).bank.path = s.bank.path := by
  unfold State.setWord; split <;> rfl

@[simp] theorem State.setWord_bank_out (s : State) (r : RegId) (i j w v : Nat) : (s.setWord r i j w v).bank.out = s.bank.out := by
  unfold State.setWord; split <;> rfl

@[simp] theorem State.setWord_bank_soft (s : State) (r : RegId) (i j w v : Nat) : (s.setWord r i j w v).bank.soft = s.bank.soft := by
  unfold State.setWord; split <;> rfl

@[simp] theorem State.setWord_bank_lanes (s : State) (r : RegId) (i j w v : Nat) : (s.setWord r i j w v).bank.lanes = s.bank.lanes := by
  unfold State.setWord; split <;> rfl

@[simp] theorem State.setWord_bank_emap (s : State) (r : RegId) (i j w v : Nat) : (s.setWord r i j w v).bank.emap = s.bank.emap := by
  unfold State.setWord; split <;> rfl

@[simp] theorem State.setWord_bank_hist (s : State) (r : RegId) (i j w v : Nat) : (s.setWord r i j w v).bank.hist = s.bank.hist := by
  unfold State.setWord; split <;> rfl

@[simp] theorem State.put_pending (s : State) (f : Fld) (v i j : Nat) : (s.put f v i j).pending = s.pending := State.setWord_pending ..
@[simp] theorem State.put_acc (s : State) (f : Fld) (v i j : Nat) : (s.put f v i j).acc = s.acc := State.setWord_acc ..
@[simp] theorem State.put_mem (s : State) (f : Fld) (v i j : Nat) : (s.put f v i j).mem = s.mem := State.setWord_mem ..
@[simp] theorem State.put_hl (s : State) (f : Fld) (v i j : Nat) : (s.put f v i j).hl = s.hl := State.setWord_hl ..
@[simp] theorem State.put_obj (s : State) (f : Fld) (v i j : Nat) : (s.put f v i j).obj = s.obj := State.setWord_obj ..
@[simp] theorem State.put_run (s : State) (f : Fld) (v i j : Nat) : (s.put f v i j).run = s.run := State.setWord_run ..
@[simp] theorem State.put_core (s : State) (f : Fld) (v i j : Nat) : (s.put f v i j).core = s.core := State.setWord_core ..
@[simp] theorem State.put_eng (s : State) (f : Fld) (v i j : Nat) : (s.put f v i j).eng = s.eng := State.setWord_eng ..
@[simp] theorem State.put_tide (s : State) (f : Fld) (v i j : Nat) : (s.put f v i j).tide = s.tide := State.setWord_tide ..
@[simp] theorem State.put_sail (s : State) (f : Fld) (v i j : Nat) : (s.put f v i j).sail = s.sail := State.setWord_sail ..
@[simp] theorem State.put_fab (s : State) (f : Fld) (v i j : Nat) : (s.put f v i j).fab = s.fab := State.setWord_fab ..
@[simp] theorem State.put_pwr (s : State) (f : Fld) (v i j : Nat) : (s.put f v i j).pwr = s.pwr := State.setWord_pwr ..
@[simp] theorem State.put_boot (s : State) (f : Fld) (v i j : Nat) : (s.put f v i j).boot = s.boot := State.setWord_boot ..
@[simp] theorem State.put_flt (s : State) (f : Fld) (v i j : Nat) : (s.put f v i j).flt = s.flt := State.setWord_flt ..
@[simp] theorem State.put_free (s : State) (f : Fld) (v i j : Nat) : (s.put f v i j).free = s.free := State.setWord_free ..
@[simp] theorem State.put_ns (s : State) (f : Fld) (v i j : Nat) : (s.put f v i j).ns = s.ns := State.setWord_ns ..
@[simp] theorem State.put_out (s : State) (f : Fld) (v i j : Nat) : (s.put f v i j).out = s.out := State.setWord_out ..
@[simp] theorem State.put_bank_lit (s : State) (f : Fld) (v i j : Nat) : (s.put f v i j).bank.lit = s.bank.lit := State.setWord_bank_lit ..
@[simp] theorem State.put_bank_bol (s : State) (f : Fld) (v i j : Nat) : (s.put f v i j).bank.bol = s.bank.bol := State.setWord_bank_bol ..
@[simp] theorem State.put_bank_coreMap (s : State) (f : Fld) (v i j : Nat) : (s.put f v i j).bank.coreMap = s.bank.coreMap := State.setWord_bank_coreMap ..
@[simp] theorem State.put_bank_sliceMap (s : State) (f : Fld) (v i j : Nat) : (s.put f v i j).bank.sliceMap = s.bank.sliceMap := State.setWord_bank_sliceMap ..
@[simp] theorem State.put_bank_dpuMap (s : State) (f : Fld) (v i j : Nat) : (s.put f v i j).bank.dpuMap = s.bank.dpuMap := State.setWord_bank_dpuMap ..
@[simp] theorem State.put_bank_phases (s : State) (f : Fld) (v i j : Nat) : (s.put f v i j).bank.phases = s.bank.phases := State.setWord_bank_phases ..
@[simp] theorem State.put_bank_path (s : State) (f : Fld) (v i j : Nat) : (s.put f v i j).bank.path = s.bank.path := State.setWord_bank_path ..
@[simp] theorem State.put_bank_out (s : State) (f : Fld) (v i j : Nat) : (s.put f v i j).bank.out = s.bank.out := State.setWord_bank_out ..
@[simp] theorem State.put_bank_soft (s : State) (f : Fld) (v i j : Nat) : (s.put f v i j).bank.soft = s.bank.soft := State.setWord_bank_soft ..
@[simp] theorem State.put_bank_lanes (s : State) (f : Fld) (v i j : Nat) : (s.put f v i j).bank.lanes = s.bank.lanes := State.setWord_bank_lanes ..
@[simp] theorem State.put_bank_emap (s : State) (f : Fld) (v i j : Nat) : (s.put f v i j).bank.emap = s.bank.emap := State.setWord_bank_emap ..
@[simp] theorem State.put_bank_hist (s : State) (f : Fld) (v i j : Nat) : (s.put f v i j).bank.hist = s.bank.hist := State.setWord_bank_hist ..
@[simp] theorem State.bump_pending (s : State) (f : Fld) (n i j : Nat) : (s.bump f n i j).pending = s.pending := State.setWord_pending ..
@[simp] theorem State.bump_acc (s : State) (f : Fld) (n i j : Nat) : (s.bump f n i j).acc = s.acc := State.setWord_acc ..
@[simp] theorem State.bump_mem (s : State) (f : Fld) (n i j : Nat) : (s.bump f n i j).mem = s.mem := State.setWord_mem ..
@[simp] theorem State.bump_hl (s : State) (f : Fld) (n i j : Nat) : (s.bump f n i j).hl = s.hl := State.setWord_hl ..
@[simp] theorem State.bump_obj (s : State) (f : Fld) (n i j : Nat) : (s.bump f n i j).obj = s.obj := State.setWord_obj ..
@[simp] theorem State.bump_run (s : State) (f : Fld) (n i j : Nat) : (s.bump f n i j).run = s.run := State.setWord_run ..
@[simp] theorem State.bump_core (s : State) (f : Fld) (n i j : Nat) : (s.bump f n i j).core = s.core := State.setWord_core ..
@[simp] theorem State.bump_eng (s : State) (f : Fld) (n i j : Nat) : (s.bump f n i j).eng = s.eng := State.setWord_eng ..
@[simp] theorem State.bump_tide (s : State) (f : Fld) (n i j : Nat) : (s.bump f n i j).tide = s.tide := State.setWord_tide ..
@[simp] theorem State.bump_sail (s : State) (f : Fld) (n i j : Nat) : (s.bump f n i j).sail = s.sail := State.setWord_sail ..
@[simp] theorem State.bump_fab (s : State) (f : Fld) (n i j : Nat) : (s.bump f n i j).fab = s.fab := State.setWord_fab ..
@[simp] theorem State.bump_pwr (s : State) (f : Fld) (n i j : Nat) : (s.bump f n i j).pwr = s.pwr := State.setWord_pwr ..
@[simp] theorem State.bump_boot (s : State) (f : Fld) (n i j : Nat) : (s.bump f n i j).boot = s.boot := State.setWord_boot ..
@[simp] theorem State.bump_flt (s : State) (f : Fld) (n i j : Nat) : (s.bump f n i j).flt = s.flt := State.setWord_flt ..
@[simp] theorem State.bump_free (s : State) (f : Fld) (n i j : Nat) : (s.bump f n i j).free = s.free := State.setWord_free ..
@[simp] theorem State.bump_ns (s : State) (f : Fld) (n i j : Nat) : (s.bump f n i j).ns = s.ns := State.setWord_ns ..
@[simp] theorem State.bump_out (s : State) (f : Fld) (n i j : Nat) : (s.bump f n i j).out = s.out := State.setWord_out ..
@[simp] theorem State.bump_bank_lit (s : State) (f : Fld) (n i j : Nat) : (s.bump f n i j).bank.lit = s.bank.lit := State.setWord_bank_lit ..
@[simp] theorem State.bump_bank_bol (s : State) (f : Fld) (n i j : Nat) : (s.bump f n i j).bank.bol = s.bank.bol := State.setWord_bank_bol ..
@[simp] theorem State.bump_bank_coreMap (s : State) (f : Fld) (n i j : Nat) : (s.bump f n i j).bank.coreMap = s.bank.coreMap := State.setWord_bank_coreMap ..
@[simp] theorem State.bump_bank_sliceMap (s : State) (f : Fld) (n i j : Nat) : (s.bump f n i j).bank.sliceMap = s.bank.sliceMap := State.setWord_bank_sliceMap ..
@[simp] theorem State.bump_bank_dpuMap (s : State) (f : Fld) (n i j : Nat) : (s.bump f n i j).bank.dpuMap = s.bank.dpuMap := State.setWord_bank_dpuMap ..
@[simp] theorem State.bump_bank_phases (s : State) (f : Fld) (n i j : Nat) : (s.bump f n i j).bank.phases = s.bank.phases := State.setWord_bank_phases ..
@[simp] theorem State.bump_bank_path (s : State) (f : Fld) (n i j : Nat) : (s.bump f n i j).bank.path = s.bank.path := State.setWord_bank_path ..
@[simp] theorem State.bump_bank_out (s : State) (f : Fld) (n i j : Nat) : (s.bump f n i j).bank.out = s.bank.out := State.setWord_bank_out ..
@[simp] theorem State.bump_bank_soft (s : State) (f : Fld) (n i j : Nat) : (s.bump f n i j).bank.soft = s.bank.soft := State.setWord_bank_soft ..
@[simp] theorem State.bump_bank_lanes (s : State) (f : Fld) (n i j : Nat) : (s.bump f n i j).bank.lanes = s.bank.lanes := State.setWord_bank_lanes ..
@[simp] theorem State.bump_bank_emap (s : State) (f : Fld) (n i j : Nat) : (s.bump f n i j).bank.emap = s.bank.emap := State.setWord_bank_emap ..
@[simp] theorem State.bump_bank_hist (s : State) (f : Fld) (n i j : Nat) : (s.bump f n i j).bank.hist = s.bank.hist := State.setWord_bank_hist ..
@[simp] theorem State.bumpSat_pending (s : State) (f : Fld) (n i j : Nat) : (s.bumpSat f n i j).pending = s.pending := State.setWord_pending ..
@[simp] theorem State.bumpSat_acc (s : State) (f : Fld) (n i j : Nat) : (s.bumpSat f n i j).acc = s.acc := State.setWord_acc ..
@[simp] theorem State.bumpSat_mem (s : State) (f : Fld) (n i j : Nat) : (s.bumpSat f n i j).mem = s.mem := State.setWord_mem ..
@[simp] theorem State.bumpSat_hl (s : State) (f : Fld) (n i j : Nat) : (s.bumpSat f n i j).hl = s.hl := State.setWord_hl ..
@[simp] theorem State.bumpSat_obj (s : State) (f : Fld) (n i j : Nat) : (s.bumpSat f n i j).obj = s.obj := State.setWord_obj ..
@[simp] theorem State.bumpSat_run (s : State) (f : Fld) (n i j : Nat) : (s.bumpSat f n i j).run = s.run := State.setWord_run ..
@[simp] theorem State.bumpSat_core (s : State) (f : Fld) (n i j : Nat) : (s.bumpSat f n i j).core = s.core := State.setWord_core ..
@[simp] theorem State.bumpSat_eng (s : State) (f : Fld) (n i j : Nat) : (s.bumpSat f n i j).eng = s.eng := State.setWord_eng ..
@[simp] theorem State.bumpSat_tide (s : State) (f : Fld) (n i j : Nat) : (s.bumpSat f n i j).tide = s.tide := State.setWord_tide ..
@[simp] theorem State.bumpSat_sail (s : State) (f : Fld) (n i j : Nat) : (s.bumpSat f n i j).sail = s.sail := State.setWord_sail ..
@[simp] theorem State.bumpSat_fab (s : State) (f : Fld) (n i j : Nat) : (s.bumpSat f n i j).fab = s.fab := State.setWord_fab ..
@[simp] theorem State.bumpSat_pwr (s : State) (f : Fld) (n i j : Nat) : (s.bumpSat f n i j).pwr = s.pwr := State.setWord_pwr ..
@[simp] theorem State.bumpSat_boot (s : State) (f : Fld) (n i j : Nat) : (s.bumpSat f n i j).boot = s.boot := State.setWord_boot ..
@[simp] theorem State.bumpSat_flt (s : State) (f : Fld) (n i j : Nat) : (s.bumpSat f n i j).flt = s.flt := State.setWord_flt ..
@[simp] theorem State.bumpSat_free (s : State) (f : Fld) (n i j : Nat) : (s.bumpSat f n i j).free = s.free := State.setWord_free ..
@[simp] theorem State.bumpSat_ns (s : State) (f : Fld) (n i j : Nat) : (s.bumpSat f n i j).ns = s.ns := State.setWord_ns ..
@[simp] theorem State.bumpSat_out (s : State) (f : Fld) (n i j : Nat) : (s.bumpSat f n i j).out = s.out := State.setWord_out ..
@[simp] theorem State.bumpSat_bank_lit (s : State) (f : Fld) (n i j : Nat) : (s.bumpSat f n i j).bank.lit = s.bank.lit := State.setWord_bank_lit ..
@[simp] theorem State.bumpSat_bank_bol (s : State) (f : Fld) (n i j : Nat) : (s.bumpSat f n i j).bank.bol = s.bank.bol := State.setWord_bank_bol ..
@[simp] theorem State.bumpSat_bank_coreMap (s : State) (f : Fld) (n i j : Nat) : (s.bumpSat f n i j).bank.coreMap = s.bank.coreMap := State.setWord_bank_coreMap ..
@[simp] theorem State.bumpSat_bank_sliceMap (s : State) (f : Fld) (n i j : Nat) : (s.bumpSat f n i j).bank.sliceMap = s.bank.sliceMap := State.setWord_bank_sliceMap ..
@[simp] theorem State.bumpSat_bank_dpuMap (s : State) (f : Fld) (n i j : Nat) : (s.bumpSat f n i j).bank.dpuMap = s.bank.dpuMap := State.setWord_bank_dpuMap ..
@[simp] theorem State.bumpSat_bank_phases (s : State) (f : Fld) (n i j : Nat) : (s.bumpSat f n i j).bank.phases = s.bank.phases := State.setWord_bank_phases ..
@[simp] theorem State.bumpSat_bank_path (s : State) (f : Fld) (n i j : Nat) : (s.bumpSat f n i j).bank.path = s.bank.path := State.setWord_bank_path ..
@[simp] theorem State.bumpSat_bank_out (s : State) (f : Fld) (n i j : Nat) : (s.bumpSat f n i j).bank.out = s.bank.out := State.setWord_bank_out ..
@[simp] theorem State.bumpSat_bank_soft (s : State) (f : Fld) (n i j : Nat) : (s.bumpSat f n i j).bank.soft = s.bank.soft := State.setWord_bank_soft ..
@[simp] theorem State.bumpSat_bank_lanes (s : State) (f : Fld) (n i j : Nat) : (s.bumpSat f n i j).bank.lanes = s.bank.lanes := State.setWord_bank_lanes ..
@[simp] theorem State.bumpSat_bank_emap (s : State) (f : Fld) (n i j : Nat) : (s.bumpSat f n i j).bank.emap = s.bank.emap := State.setWord_bank_emap ..
@[simp] theorem State.bumpSat_bank_hist (s : State) (f : Fld) (n i j : Nat) : (s.bumpSat f n i j).bank.hist = s.bank.hist := State.setWord_bank_hist ..
@[simp] theorem State.orBit_pending (s : State) (f : Fld) (k i j : Nat) : (s.orBit f k i j).pending = s.pending := State.setWord_pending ..
@[simp] theorem State.orBit_acc (s : State) (f : Fld) (k i j : Nat) : (s.orBit f k i j).acc = s.acc := State.setWord_acc ..
@[simp] theorem State.orBit_mem (s : State) (f : Fld) (k i j : Nat) : (s.orBit f k i j).mem = s.mem := State.setWord_mem ..
@[simp] theorem State.orBit_hl (s : State) (f : Fld) (k i j : Nat) : (s.orBit f k i j).hl = s.hl := State.setWord_hl ..
@[simp] theorem State.orBit_obj (s : State) (f : Fld) (k i j : Nat) : (s.orBit f k i j).obj = s.obj := State.setWord_obj ..
@[simp] theorem State.orBit_run (s : State) (f : Fld) (k i j : Nat) : (s.orBit f k i j).run = s.run := State.setWord_run ..
@[simp] theorem State.orBit_core (s : State) (f : Fld) (k i j : Nat) : (s.orBit f k i j).core = s.core := State.setWord_core ..
@[simp] theorem State.orBit_eng (s : State) (f : Fld) (k i j : Nat) : (s.orBit f k i j).eng = s.eng := State.setWord_eng ..
@[simp] theorem State.orBit_tide (s : State) (f : Fld) (k i j : Nat) : (s.orBit f k i j).tide = s.tide := State.setWord_tide ..
@[simp] theorem State.orBit_sail (s : State) (f : Fld) (k i j : Nat) : (s.orBit f k i j).sail = s.sail := State.setWord_sail ..
@[simp] theorem State.orBit_fab (s : State) (f : Fld) (k i j : Nat) : (s.orBit f k i j).fab = s.fab := State.setWord_fab ..
@[simp] theorem State.orBit_pwr (s : State) (f : Fld) (k i j : Nat) : (s.orBit f k i j).pwr = s.pwr := State.setWord_pwr ..
@[simp] theorem State.orBit_boot (s : State) (f : Fld) (k i j : Nat) : (s.orBit f k i j).boot = s.boot := State.setWord_boot ..
@[simp] theorem State.orBit_flt (s : State) (f : Fld) (k i j : Nat) : (s.orBit f k i j).flt = s.flt := State.setWord_flt ..
@[simp] theorem State.orBit_free (s : State) (f : Fld) (k i j : Nat) : (s.orBit f k i j).free = s.free := State.setWord_free ..
@[simp] theorem State.orBit_ns (s : State) (f : Fld) (k i j : Nat) : (s.orBit f k i j).ns = s.ns := State.setWord_ns ..
@[simp] theorem State.orBit_out (s : State) (f : Fld) (k i j : Nat) : (s.orBit f k i j).out = s.out := State.setWord_out ..
@[simp] theorem State.orBit_bank_lit (s : State) (f : Fld) (k i j : Nat) : (s.orBit f k i j).bank.lit = s.bank.lit := State.setWord_bank_lit ..
@[simp] theorem State.orBit_bank_bol (s : State) (f : Fld) (k i j : Nat) : (s.orBit f k i j).bank.bol = s.bank.bol := State.setWord_bank_bol ..
@[simp] theorem State.orBit_bank_coreMap (s : State) (f : Fld) (k i j : Nat) : (s.orBit f k i j).bank.coreMap = s.bank.coreMap := State.setWord_bank_coreMap ..
@[simp] theorem State.orBit_bank_sliceMap (s : State) (f : Fld) (k i j : Nat) : (s.orBit f k i j).bank.sliceMap = s.bank.sliceMap := State.setWord_bank_sliceMap ..
@[simp] theorem State.orBit_bank_dpuMap (s : State) (f : Fld) (k i j : Nat) : (s.orBit f k i j).bank.dpuMap = s.bank.dpuMap := State.setWord_bank_dpuMap ..
@[simp] theorem State.orBit_bank_phases (s : State) (f : Fld) (k i j : Nat) : (s.orBit f k i j).bank.phases = s.bank.phases := State.setWord_bank_phases ..
@[simp] theorem State.orBit_bank_path (s : State) (f : Fld) (k i j : Nat) : (s.orBit f k i j).bank.path = s.bank.path := State.setWord_bank_path ..
@[simp] theorem State.orBit_bank_out (s : State) (f : Fld) (k i j : Nat) : (s.orBit f k i j).bank.out = s.bank.out := State.setWord_bank_out ..
@[simp] theorem State.orBit_bank_soft (s : State) (f : Fld) (k i j : Nat) : (s.orBit f k i j).bank.soft = s.bank.soft := State.setWord_bank_soft ..
@[simp] theorem State.orBit_bank_lanes (s : State) (f : Fld) (k i j : Nat) : (s.orBit f k i j).bank.lanes = s.bank.lanes := State.setWord_bank_lanes ..
@[simp] theorem State.orBit_bank_emap (s : State) (f : Fld) (k i j : Nat) : (s.orBit f k i j).bank.emap = s.bank.emap := State.setWord_bank_emap ..
@[simp] theorem State.orBit_bank_hist (s : State) (f : Fld) (k i j : Nat) : (s.orBit f k i j).bank.hist = s.bank.hist := State.setWord_bank_hist ..
@[simp] theorem State.clrBit_pending (s : State) (f : Fld) (k i j : Nat) : (s.clrBit f k i j).pending = s.pending := State.setWord_pending ..
@[simp] theorem State.clrBit_acc (s : State) (f : Fld) (k i j : Nat) : (s.clrBit f k i j).acc = s.acc := State.setWord_acc ..
@[simp] theorem State.clrBit_mem (s : State) (f : Fld) (k i j : Nat) : (s.clrBit f k i j).mem = s.mem := State.setWord_mem ..
@[simp] theorem State.clrBit_hl (s : State) (f : Fld) (k i j : Nat) : (s.clrBit f k i j).hl = s.hl := State.setWord_hl ..
@[simp] theorem State.clrBit_obj (s : State) (f : Fld) (k i j : Nat) : (s.clrBit f k i j).obj = s.obj := State.setWord_obj ..
@[simp] theorem State.clrBit_run (s : State) (f : Fld) (k i j : Nat) : (s.clrBit f k i j).run = s.run := State.setWord_run ..
@[simp] theorem State.clrBit_core (s : State) (f : Fld) (k i j : Nat) : (s.clrBit f k i j).core = s.core := State.setWord_core ..
@[simp] theorem State.clrBit_eng (s : State) (f : Fld) (k i j : Nat) : (s.clrBit f k i j).eng = s.eng := State.setWord_eng ..
@[simp] theorem State.clrBit_tide (s : State) (f : Fld) (k i j : Nat) : (s.clrBit f k i j).tide = s.tide := State.setWord_tide ..
@[simp] theorem State.clrBit_sail (s : State) (f : Fld) (k i j : Nat) : (s.clrBit f k i j).sail = s.sail := State.setWord_sail ..
@[simp] theorem State.clrBit_fab (s : State) (f : Fld) (k i j : Nat) : (s.clrBit f k i j).fab = s.fab := State.setWord_fab ..
@[simp] theorem State.clrBit_pwr (s : State) (f : Fld) (k i j : Nat) : (s.clrBit f k i j).pwr = s.pwr := State.setWord_pwr ..
@[simp] theorem State.clrBit_boot (s : State) (f : Fld) (k i j : Nat) : (s.clrBit f k i j).boot = s.boot := State.setWord_boot ..
@[simp] theorem State.clrBit_flt (s : State) (f : Fld) (k i j : Nat) : (s.clrBit f k i j).flt = s.flt := State.setWord_flt ..
@[simp] theorem State.clrBit_free (s : State) (f : Fld) (k i j : Nat) : (s.clrBit f k i j).free = s.free := State.setWord_free ..
@[simp] theorem State.clrBit_ns (s : State) (f : Fld) (k i j : Nat) : (s.clrBit f k i j).ns = s.ns := State.setWord_ns ..
@[simp] theorem State.clrBit_out (s : State) (f : Fld) (k i j : Nat) : (s.clrBit f k i j).out = s.out := State.setWord_out ..
@[simp] theorem State.clrBit_bank_lit (s : State) (f : Fld) (k i j : Nat) : (s.clrBit f k i j).bank.lit = s.bank.lit := State.setWord_bank_lit ..
@[simp] theorem State.clrBit_bank_bol (s : State) (f : Fld) (k i j : Nat) : (s.clrBit f k i j).bank.bol = s.bank.bol := State.setWord_bank_bol ..
@[simp] theorem State.clrBit_bank_coreMap (s : State) (f : Fld) (k i j : Nat) : (s.clrBit f k i j).bank.coreMap = s.bank.coreMap := State.setWord_bank_coreMap ..
@[simp] theorem State.clrBit_bank_sliceMap (s : State) (f : Fld) (k i j : Nat) : (s.clrBit f k i j).bank.sliceMap = s.bank.sliceMap := State.setWord_bank_sliceMap ..
@[simp] theorem State.clrBit_bank_dpuMap (s : State) (f : Fld) (k i j : Nat) : (s.clrBit f k i j).bank.dpuMap = s.bank.dpuMap := State.setWord_bank_dpuMap ..
@[simp] theorem State.clrBit_bank_phases (s : State) (f : Fld) (k i j : Nat) : (s.clrBit f k i j).bank.phases = s.bank.phases := State.setWord_bank_phases ..
@[simp] theorem State.clrBit_bank_path (s : State) (f : Fld) (k i j : Nat) : (s.clrBit f k i j).bank.path = s.bank.path := State.setWord_bank_path ..
@[simp] theorem State.clrBit_bank_out (s : State) (f : Fld) (k i j : Nat) : (s.clrBit f k i j).bank.out = s.bank.out := State.setWord_bank_out ..
@[simp] theorem State.clrBit_bank_soft (s : State) (f : Fld) (k i j : Nat) : (s.clrBit f k i j).bank.soft = s.bank.soft := State.setWord_bank_soft ..
@[simp] theorem State.clrBit_bank_lanes (s : State) (f : Fld) (k i j : Nat) : (s.clrBit f k i j).bank.lanes = s.bank.lanes := State.setWord_bank_lanes ..
@[simp] theorem State.clrBit_bank_emap (s : State) (f : Fld) (k i j : Nat) : (s.clrBit f k i j).bank.emap = s.bank.emap := State.setWord_bank_emap ..
@[simp] theorem State.clrBit_bank_hist (s : State) (f : Fld) (k i j : Nat) : (s.clrBit f k i j).bank.hist = s.bank.hist := State.setWord_bank_hist ..

end Sys2Proof.Machine
end

