-- ==== Sys2Proof/Laws/Tables.lean ====
section
/-! SUPPORT. The laws of sparse tables, of the DRAM store and of the scratchpads' store: canonical form, read after write. -/

namespace Sys2Proof.Laws

open Sys2Proof.Machine

theorem smapErase_lt {α : Type} {m : SMap α} {a : Nat} (h : (m.map Prod.fst).Pairwise (· < ·)) :
    ((smapErase m a).map Prod.fst).Pairwise (· < ·) := h.sublist (List.filter_sublist.map _)

theorem smapDrop_lt {α : Type} {m : SMap α} {p : Nat → Bool} (h : (m.map Prod.fst).Pairwise (· < ·)) :
    ((smapDrop m p).map Prod.fst).Pairwise (· < ·) := h.sublist (List.filter_sublist.map _)

theorem mem_smapInsert {α : Type} {m : SMap α} {a : Nat} {v : α} {kv : Nat × α} (h : kv ∈ smapInsert m a v) : kv = (a, v) ∨ kv ∈ m := by
  induction m with
  | nil => simpa [smapInsert] using h
  | cons x m ih =>
    obtain ⟨k, w⟩ := x
    unfold smapInsert at h
    split at h
    · rcases List.mem_cons.1 h with h | h
      · exact .inl h
      · exact .inr (List.mem_cons_of_mem _ h)
    · split at h
      · rcases List.mem_cons.1 h with h | h
        · exact .inl h
        · exact .inr h
      · rcases List.mem_cons.1 h with h | h
        · exact .inr (h ▸ List.mem_cons_self ..)
        · rcases ih h with h | h
          · exact .inl h
          · exact .inr (List.mem_cons_of_mem _ h)

theorem smapInsert_lt {α : Type} {m : SMap α} {a : Nat} {v : α} (h : (m.map Prod.fst).Pairwise (· < ·)) :
    ((smapInsert m a v).map Prod.fst).Pairwise (· < ·) := by
  induction m with
  | nil => simp [smapInsert]
  | cons x m ih =>
    obtain ⟨k, w⟩ := x
    simp only [List.map_cons, List.pairwise_cons] at h
    unfold smapInsert
    split
    · rename_i e; subst e; simpa using h
    · split
      · rename_i e
        simp only [List.map_cons, List.pairwise_cons, List.mem_cons]
        exact ⟨fun b hb => hb.elim (fun q => q ▸ e) (fun q => Nat.lt_trans e (h.1 b q)), h⟩
      · rename_i n e
        simp only [List.map_cons, List.pairwise_cons]
        refine ⟨fun b hb => ?_, ih h.2⟩
        obtain ⟨y, hy, rfl⟩ := List.mem_map.1 hb
        rcases mem_smapInsert hy with rfl | hy
        · exact Nat.lt_of_le_of_ne (Nat.le_of_not_lt e) (fun q => n q.symm)
        · exact h.1 _ (List.mem_map_of_mem hy)

/-- Every table operation keeps the canonical form. -/
theorem smapSet_wf {α : Type} [DecidableEq α] {m : SMap α} {d v : α} {a : Nat} (h : smapWf m (fun _ => d) = true) :
    smapWf (smapSet m d a v) (fun _ => d) = true := by
  simp only [smapWf, Bool.and_eq_true, decide_eq_true_eq, List.all_eq_true] at h ⊢
  unfold smapSet
  split
  · exact ⟨smapErase_lt h.1, fun kv hk => h.2 kv (List.mem_of_mem_filter hk)⟩
  · rename_i n
    refine ⟨smapInsert_lt h.1, fun kv hk => ?_⟩
    rcases mem_smapInsert hk with rfl | hk
    · exact n
    · exact h.2 kv hk

theorem smapDrop_wf {α : Type} [DecidableEq α] {m : SMap α} {d : α} {p : Nat → Bool} (h : smapWf m (fun _ => d) = true) :
    smapWf (smapDrop m p) (fun _ => d) = true := by
  simp only [smapWf, Bool.and_eq_true, decide_eq_true_eq, List.all_eq_true] at h ⊢
  exact ⟨smapDrop_lt h.1, fun kv hk => h.2 kv (List.mem_of_mem_filter hk)⟩

/-- Every write of DRAM keeps the canonical form. -/
theorem dramSet_wf {m : Memory} (a : Nat) (b : Byte) (h : m.wf) : (dramSet m a b).wf := by
  obtain ⟨h1, h2⟩ := h
  unfold dramSet
  split
  · rename_i k
    unfold smapSet
    split
    · exact ⟨smapErase_lt h1, fun kv hk => h2 kv (List.mem_of_mem_filter hk)⟩
    · rename_i n
      refine ⟨smapInsert_lt h1, fun kv hk e => ?_⟩
      rcases mem_smapInsert hk with rfl | hk
      · exact n
      · exact h2 kv hk e
  · rename_i k
    refine ⟨smapInsert_lt h1, fun kv hk e => ?_⟩
    rcases mem_smapInsert hk with rfl | hk
    · exact absurd e k
    · exact h2 kv hk e

theorem dramWrite_wf {m : Memory} (a : Nat) (bs : List Byte) (h : m.wf) : (dramWrite m a bs).wf := by
  induction bs generalizing m a with
  | nil => exact h
  | cons b bs ih => exact ih _ (dramSet_wf a b h)

theorem smapFind_insert {α : Type} (m : SMap α) (a b : Nat) (v : α) :
    smapFind (smapInsert m a v) b = if b = a then some v else smapFind m b := by
  induction m with
  | nil => simp only [smapInsert, smapFind]
  | cons x m ih =>
    obtain ⟨k, w⟩ := x
    unfold smapInsert
    split
    · rename_i e
      subst e
      simp only [smapFind]
      split <;> rfl
    · rename_i n
      split
      · simp only [smapFind]
      · simp only [smapFind, ih]
        by_cases hb : b = k
        · rw [if_pos hb, if_pos hb, if_neg (fun q : b = a => n (q ▸ hb))]
        · rw [if_neg hb, if_neg hb]

theorem smapFind_erase {α : Type} (m : SMap α) (a b : Nat) : smapFind (smapErase m a) b = if b = a then none else smapFind m b := by
  induction m with
  | nil => simp [smapErase, smapFind]
  | cons x m ih =>
    obtain ⟨k, w⟩ := x
    unfold smapErase at ih ⊢
    by_cases hk : k = a
    · rw [List.filter_cons_of_neg (by simp [hk]), ih]
      subst hk
      by_cases hb : b = k
      · simp [hb]
      · simp [hb, smapFind]
    · rw [List.filter_cons_of_pos (by simp [hk])]
      simp only [smapFind, ih]
      by_cases hb : b = k
      · subst hb; simp [hk]
      · simp [hb]

theorem smapGet_set {α : Type} [DecidableEq α] (m : SMap α) (d : α) (a b : Nat) (v : α) :
    smapGet (smapSet m d a v) d b = if b = a then v else smapGet m d b := by
  unfold smapGet smapSet
  split
  · rename_i e
    rw [smapFind_erase]
    split
    · simp [e]
    · rfl
  · rw [smapFind_insert]
    split <;> rfl

/-- Read after write in DRAM. -/
theorem dramByte_set (m : Memory) (a b : Nat) (v : Byte) : dramByte (dramSet m a v) b = if b = a then v else dramByte m b := by
  have e (x : SMap Byte) (c : Nat) : dramDefault { m with dram := x } c = dramDefault m c := rfl
  unfold dramByte dramSet
  split
  · rename_i k
    simp only [e]
    unfold smapSet
    split
    · rename_i z
      rw [smapFind_erase]
      split
      · rename_i q
        subst q
        simp [dramDefault, k, z]
      · rfl
    · rw [smapFind_insert]
      split <;> rfl
  · simp only [e]
    rw [smapFind_insert]
    split <;> rfl

theorem foldl_smapSet_wf {α : Type} {l : List α} {k : α → Nat} {v : α → Byte} {m : SMap Byte} (h : smapWf m (fun _ => 0) = true) :
    smapWf (l.foldl (fun m x => smapSet m 0 (k x) (v x)) m) (fun _ => 0) = true := by
  induction l generalizing m with
  | nil => exact h
  | cons x l ih => exact ih (smapSet_wf h)

theorem smapFind_drop {α : Type} (m : SMap α) (p : Nat → Bool) (a : Nat) : smapFind (smapDrop m p) a = if p a then none else smapFind m a := by
  induction m with
  | nil => simp [smapDrop, smapFind]
  | cons kv m ih =>
    simp only [smapDrop, List.filter_cons, smapFind] at ih ⊢
    by_cases e : a = kv.1
    · subst e
      split <;> rename_i h
      · simp [smapFind]; simpa using h
      · simp at h; rw [ih]; simp [h]
    · split <;> simp [smapFind, e, ih]

theorem smapGet_drop {α : Type} {m : SMap α} {d v : α} {p : Nat → Bool} {a : Nat} (h : p a = false) (e : smapGet (smapDrop m p) d a = v) :
    smapGet m d a = v := by
  rw [← e]; simp [smapGet, smapFind_drop, h]

/-! The scratchpads' bytes. -/

theorem sramWf_iff {c : Cores} :
    sramWf c = true ↔ (c.sram.map Prod.fst).Pairwise (· < ·) ∧ ∀ kv ∈ c.sram, scramOf c kv.1 = 0 → kv.2 ≠ 0 := by
  simp [sramWf, List.all_eq_true, Decidable.or_iff_not_imp_left]

theorem sramSet_wf {c : Cores} (k : Nat) (b : Byte) (h : sramWf c = true) : sramWf (sramSet c k b) = true := by
  rw [sramWf_iff] at h ⊢
  have r (a : Nat) : scramOf (sramSet c k b) a = scramOf c a := rfl
  simp only [r]
  unfold sramSet
  split
  · simp only [smapSet]
    split
    · exact ⟨smapErase_lt h.1, fun kv hk => h.2 kv (List.mem_of_mem_filter hk)⟩
    · rename_i n
      refine ⟨smapInsert_lt h.1, fun kv hk => ?_⟩
      rcases mem_smapInsert hk with rfl | hk
      · exact fun _ => n
      · exact h.2 kv hk
  · rename_i n
    refine ⟨smapInsert_lt h.1, fun kv hk => ?_⟩
    rcases mem_smapInsert hk with rfl | hk
    · exact fun e => absurd e n
    · exact h.2 kv hk

/-- Every scratchpad write keeps the canonical form. -/
theorem sramPut_wf {c : Cores} (k : Nat) (bs : List Byte) (h : sramWf c = true) : sramWf (sramPut c k bs) = true := by
  induction bs generalizing c k with
  | nil => exact h
  | cons b bs ih => exact ih _ (sramSet_wf k b h)

/-- Bytes dropped, where the marks of those that stay read as before or are set. -/
theorem sramDrop_wf {c d : Cores} {p : Nat → Bool} (hd : d.sram = smapDrop c.sram p)
    (hs : ∀ k, p k = false → scramOf d k = 0 → scramOf c k = 0) (h : sramWf c = true) : sramWf d = true := by
  rw [sramWf_iff] at h ⊢
  rw [hd]
  refine ⟨smapDrop_lt h.1, fun kv hk e => ?_⟩
  have hm := List.mem_filter.1 hk
  exact h.2 kv hm.1 (hs _ (by simpa using hm.2) e)

theorem smapGet_foldl_insert {l : List Nat} {f : Nat → Nat} {v a : Nat} {m : SMap Nat}
    (h : smapGet (l.foldl (fun m j => smapInsert m (f j) (v + 1)) m) 0 a = 0) : smapGet m 0 a = 0 := by
  induction l generalizing m with
  | nil => exact h
  | cons j l ih =>
    have g := ih h
    simp only [smapGet, smapFind_insert] at g ⊢
    split at g
    · simp at g
    · exact g

end Sys2Proof.Laws
end

