-- ==== Sys2Proof/Laws/Frame.lean ====
section
/-! SUPPORT. Frames: how what each operation may change is put together. `Frame ps rs s t` says that `t` differs from `s` at most
in the parts whose bits `ps` has and in the registers whose bits `rs` has, and keeps `Inv`. -/

namespace Sys2Proof.Laws

open Sys2Proof.Machine

/-- The bit of a part. -/
def partBit (p : Part) : Nat := p.ctorIdx

/-- The parts with bit 0 agree, part by part. -/
def PartsSame (ps : Nat) (s t : State) : Prop :=
  (ps.testBit 0 = true ∨ t.acc = s.acc) ∧ (ps.testBit 1 = true ∨ t.mem = s.mem) ∧ (ps.testBit 2 = true ∨ t.hl = s.hl)
  ∧ (ps.testBit 3 = true ∨ t.obj = s.obj) ∧ (ps.testBit 4 = true ∨ t.run = s.run) ∧ (ps.testBit 5 = true ∨ t.core = s.core)
  ∧ (ps.testBit 6 = true ∨ t.eng = s.eng) ∧ (ps.testBit 7 = true ∨ t.tide = s.tide) ∧ (ps.testBit 8 = true ∨ t.sail = s.sail)
  ∧ (ps.testBit 9 = true ∨ t.fab = s.fab) ∧ (ps.testBit 10 = true ∨ t.pwr = s.pwr) ∧ (ps.testBit 11 = true ∨ t.boot = s.boot)
  ∧ (ps.testBit 12 = true ∨ { t.bank with regs := [] } = { s.bank with regs := [] }) ∧ (ps.testBit 13 = true ∨ t.flt = s.flt)
  ∧ (ps.testBit 14 = true ∨ t.free = s.free) ∧ (ps.testBit 15 = true ∨ t.ns = s.ns) ∧ (ps.testBit 16 = true ∨ t.out = s.out)

structure Frame (ps rs : Nat) (s t : State) : Prop where
  pending : t.pending = s.pending
  parts : PartsSame ps s t
  word : ∀ r : RegId, rs.testBit r.ctorIdx = false → ∀ i j w, t.word r i j w = s.word r i j w
  inv : Inv s → Inv t

theorem PartsSame.part {ps : Nat} {s t : State} (h : PartsSame ps s t) (p : Part) (hp : ps.testBit (partBit p) = false) :
    p.same s t := by
  obtain ⟨h0, h1, h2, h3, h4, h5, h6, h7, h8, h9, h10, h11, h12, h13, h14, h15, h16⟩ := h
  have pick {q : Prop} {i : Nat} (x : ps.testBit i = true ∨ q) (y : ps.testBit i = false) : q :=
    x.resolve_left (by rw [y]; exact Bool.false_ne_true)
  cases p
  · exact pick h0 hp
  · exact pick h1 hp
  · exact pick h2 hp
  · exact pick h3 hp
  · exact pick h4 hp
  · exact pick h5 hp
  · exact pick h6 hp
  · exact pick h7 hp
  · exact pick h8 hp
  · exact pick h9 hp
  · exact pick h10 hp
  · exact pick h11 hp
  · exact pick h12 hp
  · exact pick h13 hp
  · exact pick h14 hp
  · exact pick h15 hp
  · exact pick h16 hp

theorem PartsSame.refl (ps : Nat) (s : State) : PartsSame ps s s := by simp [PartsSame]

theorem testBit_of_or {a b : Nat} (h : a ||| b = b) (i : Nat) (ha : a.testBit i = true) : b.testBit i = true := by
  rw [← h, Nat.testBit_or, ha, Bool.true_or]

theorem PartsSame.trans {ps ps' : Nat} {s t u : State} (h : PartsSame ps s t) (g : PartsSame ps' t u) (hp : ps' ||| ps = ps) :
    PartsSame ps s u := by
  obtain ⟨h0, h1, h2, h3, h4, h5, h6, h7, h8, h9, h10, h11, h12, h13, h14, h15, h16⟩ := h
  obtain ⟨g0, g1, g2, g3, g4, g5, g6, g7, g8, g9, g10, g11, g12, g13, g14, g15, g16⟩ := g
  have k := testBit_of_or hp
  have join {α : Type} {i : Nat} {a b c : α} (x : ps.testBit i = true ∨ b = a) (y : ps'.testBit i = true ∨ c = b) :
      ps.testBit i = true ∨ c = a := by
    rcases x with x | x
    · exact .inl x
    · rcases y with y | y
      · exact .inl (k i y)
      · exact .inr (y.trans x)
  exact ⟨join h0 g0, join h1 g1, join h2 g2, join h3 g3, join h4 g4, join h5 g5, join h6 g6, join h7 g7, join h8 g8, join h9 g9,
    join h10 g10, join h11 g11, join h12 g12, join h13 g13, join h14 g14, join h15 g15, join h16 g16⟩

variable {ps rs : Nat} {s t u : State}

theorem Frame.refl (ps rs : Nat) (s : State) : Frame ps rs s s :=
  ⟨rfl, .refl ps s, fun _ _ _ _ _ => rfl, id⟩

/-- A further operation with a frame of its own. -/
theorem Frame.step {ps' rs' : Nat} (h : Frame ps rs s t) (g : Frame ps' rs' t u) (hp : ps' ||| ps = ps) (hr : rs' ||| rs = rs) :
    Frame ps rs s u where
  pending := g.pending.trans h.pending
  parts := h.parts.trans g.parts hp
  word r k i j w := by
    have : rs'.testBit r.ctorIdx = false := by
      cases e : rs'.testBit r.ctorIdx
      · rfl
      · rw [testBit_of_or hr _ e] at k; cases k
    rw [g.word r this i j w, h.word r k i j w]
  inv x := g.inv (h.inv x)

theorem Frame.mono {ps' rs' : Nat} (g : Frame ps' rs' s t) (hp : ps' ||| ps = ps) (hr : rs' ||| rs = rs) : Frame ps rs s t :=
  (Frame.refl ps rs s).step g hp hr

/-- An update of parts that keeps `Inv`. -/
theorem Frame.updI (h : Frame ps rs s t) (hr : u.regs = t.regs) (hb : u.bank.regs = t.bank.regs) (hq : u.pending = t.pending)
    (hi : Inv t → Inv u) (hp : PartsSame ps t u) : Frame ps rs s u where
  pending := hq.trans h.pending
  parts := h.parts.trans hp (Nat.or_self ps)
  word r k i j w := by
    rw [← h.word r k i j w]
    simp [State.word, hr, hb]
  inv x := hi (h.inv x)

/-- An update of parts that leaves the byte stores, the hold store and the histories as they are. -/
theorem Frame.upd (h : Frame ps rs s t) (hr : u.regs = t.regs) (hb : u.bank.regs = t.bank.regs) (hq : u.pending = t.pending)
    (hm : u.mem.dram = t.mem.dram) (he : u.mem.epoch = t.mem.epoch) (hl : u.mem.low = t.mem.low)
    (hc : u.core.sram = t.core.sram) (hsc : u.core.scram = t.core.scram) (hf : u.boot.flash = t.boot.flash) (hh : u.flt.hold = t.flt.hold)
    (hi : u.bank.hist = t.bank.hist) (hmi : u.boot.mirror = t.boot.mirror) (hp : PartsSame ps t u) : Frame ps rs s u := by
  refine h.updI hr hb hq (fun y => ?_) hp
  exact ⟨by simp [Memory.wf, dramKnown, hm, he, hl]; simpa [Memory.wf, dramKnown] using y.dram, by simp [sramWf, scramOf, hc, hsc]; simpa [sramWf, scramOf] using y.sram,
    by rw [hf]; exact y.flash, by rw [hh]; exact y.hold, by rw [hi]; exact y.hist, by rw [hmi]; exact y.mirror⟩

theorem Frame.mk_upd {acc : SplitAccess} {mem : Memory} {hl : HostLink} {obj : Objects} {run : Running} {core : Cores} {eng : Engines} {tide : Tide} {sail : Sails} {fab : Fabric} {pwr : Power} {boot : Boot} {bank : Bank} {flt : FaultState} {free : Nat} {ns : Nat} {out : Outputs}
    (h : Frame ps rs s t) (hb : bank.regs = t.bank.regs) (hm : mem.dram = t.mem.dram) (he : mem.epoch = t.mem.epoch)
    (hl' : mem.low = t.mem.low) (hc : core.sram = t.core.sram) (hsc : core.scram = t.core.scram) (hf : boot.flash = t.boot.flash) (hh : flt.hold = t.flt.hold)
    (hi : bank.hist = t.bank.hist) (hmi : boot.mirror = t.boot.mirror)
    (h0 : ps.testBit 0 = true ∨ acc = t.acc) (h1 : ps.testBit 1 = true ∨ mem = t.mem) (h2 : ps.testBit 2 = true ∨ hl = t.hl)
    (h3 : ps.testBit 3 = true ∨ obj = t.obj) (h4 : ps.testBit 4 = true ∨ run = t.run) (h5 : ps.testBit 5 = true ∨ core = t.core)
    (h6 : ps.testBit 6 = true ∨ eng = t.eng) (h7 : ps.testBit 7 = true ∨ tide = t.tide) (h8 : ps.testBit 8 = true ∨ sail = t.sail)
    (h9 : ps.testBit 9 = true ∨ fab = t.fab) (h10 : ps.testBit 10 = true ∨ pwr = t.pwr) (h11 : ps.testBit 11 = true ∨ boot = t.boot)
    (h12 : ps.testBit 12 = true ∨ { bank with regs := [] } = { t.bank with regs := [] }) (h13 : ps.testBit 13 = true ∨ flt = t.flt) (h14 : ps.testBit 14 = true ∨ free = t.free)
    (h15 : ps.testBit 15 = true ∨ ns = t.ns) (h16 : ps.testBit 16 = true ∨ out = t.out) :
    Frame ps rs s ⟨t.pending, t.regs, acc, mem, hl, obj, run, core, eng, tide, sail, fab, pwr, boot, bank, flt, free, ns, out⟩ :=
  h.upd rfl hb rfl hm he hl' hc hsc hf hh hi hmi ⟨h0, h1, h2, h3, h4, h5, h6, h7, h8, h9, h10, h11, h12, h13, h14, h15, h16⟩

theorem inv_setWord {s : State} (r : RegId) (i j w v : Nat) (h : Inv s) : Inv (s.setWord r i j w v) :=
  ⟨by simpa [Memory.wf] using h.dram, by simpa using h.sram, by simpa using h.flash, by simpa using h.hold, by simpa using h.hist,
    by simpa using h.mirror⟩

/-- A register word written. -/
theorem Frame.setWord {r : RegId} {i j w v : Nat} (h : Frame ps rs s t) (hr : rs.testBit r.ctorIdx = true) :
    Frame ps rs s (t.setWord r i j w v) where
  pending := by simp [h.pending]
  parts := by
    refine h.parts.trans (ps' := ps) ?_ (Nat.or_self ps)
    simp [PartsSame]
  word r' k i' j' w' := by
    rw [← h.word r' k i' j' w']
    exact State.word_setWord_ne t v (by rintro ⟨⟩; rw [hr] at k; cases k)
  inv x := inv_setWord _ _ _ _ _ (h.inv x)

theorem Frame.put {f : Fld} {v i j : Nat} (h : Frame ps rs s t) (hr : rs.testBit f.reg.ctorIdx = true) : Frame ps rs s (t.put f v i j) :=
  h.setWord hr

theorem Frame.bump {f : Fld} {v i j : Nat} (h : Frame ps rs s t) (hr : rs.testBit f.reg.ctorIdx = true) : Frame ps rs s (t.bump f v i j) :=
  h.put hr

theorem Frame.bumpSat {f : Fld} {v i j : Nat} (h : Frame ps rs s t) (hr : rs.testBit f.reg.ctorIdx = true) :
    Frame ps rs s (t.bumpSat f v i j) := h.put hr

theorem Frame.orBit {f : Fld} {v i j : Nat} (h : Frame ps rs s t) (hr : rs.testBit f.reg.ctorIdx = true) : Frame ps rs s (t.orBit f v i j) :=
  h.put hr

theorem Frame.clrBit {f : Fld} {v i j : Nat} (h : Frame ps rs s t) (hr : rs.testBit f.reg.ctorIdx = true) :
    Frame ps rs s (t.clrBit f v i j) := h.put hr

theorem Frame.ite {c : Prop} [Decidable c] (ht : c → Frame ps rs s t) (hu : ¬c → Frame ps rs s u) :
    Frame ps rs s (if c then t else u) := by
  by_cases h : c
  · rw [if_pos h]; exact ht h
  · rw [if_neg h]; exact hu h

theorem Frame.foldl {α : Type} {f : State → α → State} {l : List α} (h : Frame ps rs s t)
    (hf : ∀ t a, Frame ps rs s t → Frame ps rs s (f t a)) : Frame ps rs s (l.foldl f t) := by
  induction l generalizing t with
  | nil => exact h
  | cons a l ih => exact ih (hf t a h)

theorem Frame.foldl2 {α β : Type} {f : β × State → α → β × State} {l : List α} {x : β × State} (h : Frame ps rs s x.2)
    (hf : ∀ y a, Frame ps rs s y.2 → Frame ps rs s (f y a).2) : Frame ps rs s (l.foldl f x).2 := by
  induction l generalizing x with
  | nil => exact h
  | cons a l ih => exact ih (hf x a h)

/-- What a meaning answers, in a frame. -/
structure FrameO (ps rs : Nat) (s : State) (o : Out) : Prop where
  of_next : ∀ t, o = .next t → Frame ps rs s t

theorem FrameO.next (h : Frame ps rs s t) : FrameO ps rs s (.next t) := ⟨by rintro _ ⟨⟩; exact h⟩

theorem FrameO.fault {x : Fault} : FrameO ps rs s (.fault x) := ⟨by rintro _ ⟨⟩⟩

theorem FrameO.ite {c : Prop} [Decidable c] {a b : Out} (ht : c → FrameO ps rs s a) (hu : ¬c → FrameO ps rs s b) :
    FrameO ps rs s (if c then a else b) := by
  by_cases h : c
  · rw [if_pos h]; exact ht h
  · rw [if_neg h]; exact hu h

theorem FrameO.of {ps' rs' : Nat} {o : Out} (h : Frame ps rs s t) (g : FrameO ps' rs' t o) (hp : ps' ||| ps = ps) (hr : rs' ||| rs = rs) :
    FrameO ps rs s o := ⟨fun _ e => h.step (g.of_next _ e) hp hr⟩

/-- A pair whose second part is a state, in a frame; both halves of a choice. -/
theorem Frame.pairIte {α : Type} {c : Prop} [Decidable c] {a b : α × State} (ht : c → Frame ps rs s a.2) (hu : ¬c → Frame ps rs s b.2) :
    Frame ps rs s (if c then a else b).2 := by
  by_cases h : c
  · rw [if_pos h]; exact ht h
  · rw [if_neg h]; exact hu h

/-- The state of a result. -/
def resState {α : Type} (r : Res α) : State :=
  match r with
  | .ok _ t => t
  | .absent _ _ t => t
  | .halt _ _ t => t

/-- A result that carries a state, in a frame. -/
structure FrameR {α : Type} (ps rs : Nat) (s : State) (r : Res α) : Prop where
  of_state : Frame ps rs s (resState r)

theorem FrameR.ok {α : Type} {a : α} (h : Frame ps rs s t) : FrameR ps rs s (.ok a t) := ⟨h⟩
theorem FrameR.absent {α : Type} {n a : Nat} (h : Frame ps rs s t) : FrameR (α := α) ps rs s (.absent n a t) := ⟨h⟩
theorem FrameR.halt {α : Type} {x i : Nat} (h : Frame ps rs s t) : FrameR (α := α) ps rs s (.halt x i t) := ⟨h⟩

theorem FrameR.then {α β : Type} {r : Res α} {k : α → State → Res β} (h : FrameR ps rs s r)
    (hk : ∀ a t, Frame ps rs s t → FrameR ps rs s (k a t)) : FrameR ps rs s (r.then k) := by
  cases r with
  | ok a t => exact hk a t h.of_state
  | absent n a t => exact ⟨h.of_state⟩
  | halt x i t => exact ⟨h.of_state⟩

theorem FrameR.each {α β : Type} {f : α → State → Res β} {l : List α} (h : Frame ps rs s t)
    (hf : ∀ a t, Frame ps rs s t → FrameR ps rs s (f a t)) : FrameR ps rs s (Res.each f l t) := by
  induction l generalizing t with
  | nil => exact .ok h
  | cons a l ih => exact (hf a t h).then (fun _ _ g => (ih g).then (fun _ _ g => .ok g))

theorem FrameR.run {α : Type} {f : α → State → Res Unit} {l : List α} (h : Frame ps rs s t)
    (hf : ∀ a t, Frame ps rs s t → FrameR ps rs s (f a t)) : FrameR ps rs s (Res.run f l t) := by
  induction l generalizing t with
  | nil => exact .ok h
  | cons a l ih => exact (hf a t h).then (fun _ _ g => ih g)

theorem FrameR.ite {α : Type} {c : Prop} [Decidable c] {a b : Res α} (ht : c → FrameR ps rs s a) (hu : ¬c → FrameR ps rs s b) :
    FrameR ps rs s (if c then a else b) := by
  by_cases h : c
  · rw [if_pos h]; exact ht h
  · rw [if_neg h]; exact hu h

theorem FrameR.of {α : Type} {ps' rs' : Nat} {r : Res α} (h : Frame ps rs s t) (g : FrameR ps' rs' t r) (hp : ps' ||| ps = ps)
    (hr : rs' ||| rs = rs) : FrameR ps rs s r := ⟨h.step g.of_state hp hr⟩

theorem FrameR.mono {α : Type} {ps' rs' : Nat} {r : Res α} (g : FrameR ps' rs' s r) (hp : ps' ||| ps = ps) (hr : rs' ||| rs = rs) :
    FrameR ps rs s r := ⟨g.of_state.mono hp hr⟩

theorem Frame.eqSnd {α : Type} {x : α × State} {a : α} (h : Frame ps rs s x.2) (e : x = (a, t)) : Frame ps rs s t := by
  rw [e] at h; exact h

theorem FrameR.eqOk {α : Type} {r : Res α} {a : α} (h : FrameR ps rs s r) (e : r = .ok a t) : Frame ps rs s t := by
  rw [e] at h; exact h.of_state

theorem FrameR.eqAbsent {α : Type} {r : Res α} {n a : Nat} (h : FrameR ps rs s r) (e : r = .absent n a t) : Frame ps rs s t := by
  rw [e] at h; exact h.of_state

theorem FrameR.eqHalt {α : Type} {r : Res α} {x i : Nat} (h : FrameR ps rs s r) (e : r = .halt x i t) : Frame ps rs s t := by
  rw [e] at h; exact h.of_state

end Sys2Proof.Laws
end

