-- ==== Sys2Proof/Laws/FrameOps.lean ====
section
/-! SUPPORT. What each operation of Machine/Ops.lean may change, as a frame (Laws/Frame.lean): the parts and registers by their bits. -/

namespace Sys2Proof.Laws

open Sys2Proof.Machine

theorem FrameO.bar0 {ps rs : Nat} {s0 s t : State} (h : Frame ps rs s0 s) (g : Frame ps rs s0 t) : FrameO ps rs s0 (bar0 s t) := by
  unfold Machine.bar0
  split
  · exact .next h
  · exact .next g

theorem frame_wideWrite (s : State) (r : RegId) (i : Nat) (j : Nat) (w : Nat) : Frame 1 0 s (wideWrite s r i j w) := by
  dsimp only [wideWrite, ok]
  repeat' first
    | with_reducible assumption
    | with_reducible exact Frame.refl _ _ _
    | intro _
    | apply Eq.refl true
    | apply Eq.refl (_ : Nat)
    | with_reducible apply Frame.ite
    | with_reducible apply Frame.mk_upd
    | (apply Or.inl; apply Eq.refl true)
    | (apply Or.inr; exact rfl)
    | (with_reducible_and_instances rfl)
    | split

theorem frame_State_drawFree (s : State) : Frame 16384 0 s (State.drawFree s).2 := by
  dsimp only [State.drawFree, ok]
  repeat' first
    | with_reducible assumption
    | with_reducible exact Frame.refl _ _ _
    | intro _
    | apply Eq.refl true
    | apply Eq.refl (_ : Nat)
    | with_reducible apply Frame.ite
    | with_reducible apply Frame.pairIte
    | with_reducible apply Frame.mk_upd
    | (apply Or.inl; apply Eq.refl true)
    | (apply Or.inr; exact rfl)
    | (with_reducible_and_instances rfl)
    | split

theorem frame_State_restart (s : State) (d : Nat) : Frame 0 41538374868278621028243970633760768 s (State.restart s d) := by
  dsimp only [State.restart, ok]
  repeat' first
    | with_reducible assumption
    | with_reducible exact Frame.refl _ _ _
    | intro _
    | apply Eq.refl true
    | apply Eq.refl (_ : Nat)
    | with_reducible apply Frame.put
    | with_reducible apply Frame.ite
    | split

theorem frame_State_setCtxRec (s : State) (c : Nat) (r : CtxRec) : Frame 8 0 s (State.setCtxRec s c r) := by
  dsimp only [State.setCtxRec, ok]
  repeat' first
    | with_reducible assumption
    | with_reducible exact Frame.refl _ _ _
    | intro _
    | apply Eq.refl true
    | apply Eq.refl (_ : Nat)
    | with_reducible apply Frame.ite
    | with_reducible apply Frame.mk_upd
    | (apply Or.inl; apply Eq.refl true)
    | (apply Or.inr; exact rfl)
    | (with_reducible_and_instances rfl)
    | split

end Sys2Proof.Laws
end

