-- ==== Sys2Proof/Laws/FrameFlags.lean ====
section
/-! SUPPORT. What each operation of Machine/Flags.lean may change, as a frame (Laws/Frame.lean): the parts and registers by their bits. -/

namespace Sys2Proof.Laws

open Sys2Proof.Machine

theorem length_dropNewest {h : List SumpRec} (hx : h.any (fun x => x.cls != 3) = true) : (dropNewest h).length + 1 = h.length := by
  induction h with
  | nil => cases hx
  | cons r rs ih =>
    unfold dropNewest
    split
    · rename_i g; simp [ih g]
    · rename_i g
      rw [List.any_cons] at hx
      simp only [Bool.or_eq_true, g, or_false] at hx
      simp [show ¬r.cls = 3 by simpa using hx]

theorem classBit_reg (c : Nat) : (classBit c).reg = .faultStatus := by
  unfold classBit; split <;> rfl

theorem frame_hostWrite (s : State) (addr : Nat) (bytes : List Byte) (poisoned : Bool) : Frame 65536 0 s (hostWrite s addr bytes poisoned) := by
  dsimp only [hostWrite, ok]
  repeat' first
    | with_reducible assumption
    | with_reducible exact Frame.refl _ _ _
    | intro _
    | apply Eq.refl true
    | apply Eq.refl (_ : Nat)
    | with_reducible apply Frame.ite
    | with_reducible apply Frame.mk_upd
    | (apply Or.inl; apply Eq.refl true)
    | (apply Or.inr; exact rfl)
    | (with_reducible_and_instances rfl)
    | split

theorem frame_msixSend (s : State) (v : Nat) : Frame 65540 0 s (msixSend s v) := by
  dsimp only [msixSend, ok]
  repeat' first
    | with_reducible assumption
    | with_reducible exact Frame.refl _ _ _
    | intro _
    | apply Eq.refl true
    | apply Eq.refl (_ : Nat)
    | with_reducible apply Frame.ite
    | with_reducible apply Frame.mk_upd
    | (apply Or.inl; apply Eq.refl true)
    | (apply Or.inr; exact rfl)
    | (with_reducible_and_instances rfl)
    | split

theorem frame_msixFlush (s : State) : Frame 65540 0 s (msixFlush s) := by
  dsimp only [msixFlush, ok]
  repeat' first
    | with_reducible assumption
    | with_reducible exact Frame.refl _ _ _
    | intro _
    | apply Eq.refl true
    | apply Eq.refl (_ : Nat)
    | with_reducible apply Frame.step (g := frame_msixSend ..)
    | with_reducible apply Frame.foldl
    | with_reducible apply Frame.foldl2
    | with_reducible apply Frame.ite
    | split

theorem frame_signal (s : State) (n : Nat) : Frame 65540 633825300114114700748351602688 s (signal s n) := by
  dsimp only [signal, ok]
  repeat' first
    | with_reducible assumption
    | with_reducible exact Frame.refl _ _ _
    | intro _
    | apply Eq.refl true
    | apply Eq.refl (_ : Nat)
    | with_reducible apply Frame.put
    | with_reducible apply Frame.bump
    | with_reducible apply Frame.step (g := frame_msixSend ..)
    | with_reducible apply Frame.ite
    | split

theorem frame_signalIf (s : State) (en : Bool) (n : Nat) : Frame 65540 633825300114114700748351602688 s (signalIf s en n) := by
  dsimp only [signalIf, ok]
  repeat' first
    | with_reducible assumption
    | with_reducible exact Frame.refl _ _ _
    | intro _
    | apply Eq.refl true
    | apply Eq.refl (_ : Nat)
    | with_reducible apply Frame.step (g := frame_signal ..)
    | with_reducible apply Frame.ite
    | split

theorem frame_signalArg3 (s : State) (arg3 : Nat) : Frame 65540 633825300114114700748351602688 s (signalArg3 s arg3) := by
  dsimp only [signalArg3, ok]
  repeat' first
    | with_reducible assumption
    | with_reducible exact Frame.refl _ _ _
    | intro _
    | apply Eq.refl true
    | apply Eq.refl (_ : Nat)
    | with_reducible apply Frame.step (g := frame_signalIf ..)
    | with_reducible apply Frame.ite
    | split

theorem frame_sumpWrite (s : State) (r : SumpRec) : Frame 65540 3169126500570573503741758013440 s (sumpWrite s r) := by
  dsimp only [sumpWrite, ok]
  repeat' first
    | with_reducible assumption
    | with_reducible exact Frame.refl _ _ _
    | intro _
    | apply Eq.refl true
    | apply Eq.refl (_ : Nat)
    | with_reducible apply Frame.bump
    | with_reducible apply Frame.step (g := frame_hostWrite ..)
    | with_reducible apply Frame.step (g := frame_signalIf ..)
    | with_reducible apply Frame.ite
    | split

theorem frame_setHold (s : State) (h : List SumpRec) (hl : Inv s → h.length ≤ 1024) : Frame 8192 20282409603651670423947251286016 s (setHold s h) := by
  refine Frame.put ?_ rfl
  exact (Frame.refl _ _ s).updI rfl rfl rfl (fun i => ⟨i.dram, i.sram, i.flash, hl i, i.hist, i.mirror⟩) ⟨.inr rfl, .inr rfl, .inr rfl, .inr rfl, .inr rfl, .inr rfl, .inr rfl, .inr rfl, .inr rfl, .inr rfl, .inr rfl, .inr rfl, .inr rfl, .inl rfl, .inr rfl, .inr rfl, .inr rfl⟩

theorem frame_sumpHold (s : State) (r : SumpRec) : Frame 8192 20282409603651670423947251286016 s (sumpHold s r) := by
  dsimp only [sumpHold]
  split
  · rename_i h
    exact frame_setHold _ _ (fun _ => by simp; omega) |>.mono rfl rfl
  · have g : Frame 8192 20282409603651670423947251286016 s ((s.put F.sumpHold_OVERFLOW 1).bumpSat F.sumpHold_LOST) := .bumpSat (.put (.refl _ _ _) rfl) rfl
    split
    · rename_i h
      refine g.step (frame_setHold _ _ (fun i => ?_)) rfl rfl
      have k := i.hold
      simp only [State.bumpSat_flt, State.put_flt, Bool.and_eq_true] at h k ⊢
      have := length_dropNewest h.2
      simp
      omega
    · exact g

theorem frame_sumpDrainN (a0 : Nat) (a1 : State) : Frame 73732 23451536104222243927689009299456 a1 (sumpDrainN a0 a1) := by
  induction a0 generalizing a1 with
  | zero => exact .refl _ _ _
  | succ n ih =>
    unfold sumpDrainN
    split
    · exact .refl _ _ _
    · rename_i r rs e
      split
      · exact (((frame_setHold a1 rs (fun i => by have := i.hold; rw [e] at this; simp at this; omega)).mono rfl rfl).step
          (frame_sumpWrite ..) rfl rfl).step (ih _) rfl rfl
      · exact .refl _ _ _

theorem frame_sumpDrain (s : State) : Frame 73732 23451536104222243927689009299456 s (sumpDrain s) := by
  dsimp only [sumpDrain, ok]
  repeat' first
    | with_reducible assumption
    | with_reducible exact Frame.refl _ _ _
    | intro _
    | apply Eq.refl true
    | apply Eq.refl (_ : Nat)
    | with_reducible apply Frame.step (g := frame_sumpDrainN ..)
    | with_reducible apply Frame.ite
    | split

theorem frame_sumpDeliver (s : State) (r : SumpRec) : Frame 73732 23451536104222243927689009299456 s (sumpDeliver s r) := by
  dsimp only [sumpDeliver, ok]
  repeat' first
    | with_reducible assumption
    | with_reducible exact Frame.refl _ _ _
    | intro _
    | apply Eq.refl true
    | apply Eq.refl (_ : Nat)
    | with_reducible apply Frame.step (g := frame_sumpWrite ..)
    | with_reducible apply Frame.step (g := frame_sumpHold ..)
    | with_reducible apply Frame.ite
    | split

theorem frame_bankChange (s : State) : Frame 0 649037107316853453566312041152512 s (bankChange s) := by
  dsimp only [bankChange, ok]
  repeat' first
    | with_reducible assumption
    | with_reducible exact Frame.refl _ _ _
    | intro _
    | apply Eq.refl true
    | apply Eq.refl (_ : Nat)
    | with_reducible apply Frame.bump
    | with_reducible apply Frame.ite
    | split

theorem frame_histAdd (s : State) (r : SumpRec) : Frame 4096 649037107316853453566312041152512 s (histAdd s r) := by
  refine Frame.step ?_ (frame_bankChange _) rfl rfl
  exact (Frame.refl _ _ s).updI rfl rfl rfl
    (fun i => ⟨i.dram, i.sram, i.flash, i.hold, by simp, i.mirror⟩) ⟨.inr rfl, .inr rfl, .inr rfl, .inr rfl, .inr rfl, .inr rfl, .inr rfl, .inr rfl, .inr rfl, .inr rfl, .inr rfl, .inr rfl, .inl rfl, .inr rfl, .inr rfl, .inr rfl, .inr rfl⟩

theorem frame_countRecord (s : State) (r : SumpRec) : Frame 12288 127606536632459240652219044098954231808 s (countRecord s r) := by
  dsimp only [countRecord, ok]
  repeat' first
    | with_reducible assumption
    | with_reducible exact Frame.refl _ _ _
    | intro _
    | apply Eq.refl true
    | apply Eq.refl (_ : Nat)
    | with_reducible apply Frame.put
    | with_reducible apply Frame.bump
    | with_reducible apply Frame.step (g := frame_histAdd ..)
    | with_reducible apply Frame.ite
    | with_reducible apply Frame.mk_upd
    | (apply Or.inl; apply Eq.refl true)
    | (apply Or.inr; exact rfl)
    | (with_reducible_and_instances rfl)
    | (rw [classBit_reg]; rfl)
    | split

theorem frame_postOverflow (s : State) : Frame 77828 127606560083995344874462971787963531264 s (postOverflow s) := by
  dsimp only [postOverflow, ok]
  repeat' first
    | with_reducible assumption
    | with_reducible exact Frame.refl _ _ _
    | intro _
    | apply Eq.refl true
    | apply Eq.refl (_ : Nat)
    | with_reducible apply Frame.step (g := frame_sumpDeliver ..)
    | with_reducible apply Frame.step (g := frame_countRecord ..)
    | with_reducible apply Frame.ite
    | split

theorem frame_post (s : State) (unit : Nat) (ctx : Option Nat) (cls code extra : Nat) : Frame 77828 127606560083995344874462971787963531264 s (post s unit ctx cls code extra) := by
  dsimp only [post, ok]
  repeat' first
    | with_reducible assumption
    | with_reducible exact Frame.refl _ _ _
    | intro _
    | apply Eq.refl true
    | apply Eq.refl (_ : Nat)
    | with_reducible apply Frame.step (g := frame_sumpDeliver ..)
    | with_reducible apply Frame.step (g := frame_countRecord ..)
    | with_reducible apply Frame.step (g := frame_postOverflow ..)
    | with_reducible apply Frame.ite
    | split

theorem frame_spareFlag (s : State) (f : Fld) (hf : f.reg = .faultStatus) : Frame 65540 42535296498942608047036526677322629120 s (spareFlag s f) := by
  dsimp only [spareFlag]
  exact .ite (fun _ => .refl _ _ _) (fun _ => ((Frame.refl _ _ s).put (by rw [hf]; rfl)).step (frame_signalIf ..) rfl rfl)

theorem frame_spareEmpty (s : State) (unit : Nat) : Frame 77828 127606560083995344874462971787963531264 s (spareEmpty s unit) := by
  dsimp only [spareEmpty, ok]
  repeat' first
    | with_reducible assumption
    | with_reducible exact Frame.refl _ _ _
    | intro _
    | apply Eq.refl true
    | apply Eq.refl (_ : Nat)
    | with_reducible apply Frame.step (g := frame_spareFlag _ _ rfl)
    | with_reducible apply Frame.step (g := frame_post ..)
    | with_reducible apply Frame.ite
    | split

end Sys2Proof.Laws
end

