-- ==== Sys2Proof/Laws/FrameOperands.lean ====
section
/-! SUPPORT. What each operation of Machine/Operands.lean may change, as a frame (Laws/Frame.lean): the parts and registers by their bits. -/

namespace Sys2Proof.Laws

open Sys2Proof.Machine

theorem frame_setRc (s : State) (core slot : Nat) (rows : List RcRow) : Frame 32 0 s (setRc s core slot rows) := by
  dsimp only [setRc, ok]
  repeat' first
    | with_reducible assumption
    | with_reducible exact Frame.refl _ _ _
    | intro _
    | apply Eq.refl true
    | apply Eq.refl (_ : Nat)
    | with_reducible apply Frame.ite
    | with_reducible apply Frame.mk_upd
    | (apply Or.inl; apply Eq.refl true)
    | (apply Or.inr; exact rfl)
    | (with_reducible_and_instances rfl)
    | split

theorem frame_writeBackRow (s : State) (core slot : Nat) (r : RcRow) : Frame 32 0 s (writeBackRow s core slot r) := by
  dsimp only [writeBackRow, ok]
  repeat' first
    | with_reducible assumption
    | with_reducible exact Frame.refl _ _ _
    | intro _
    | apply Eq.refl true
    | apply Eq.refl (_ : Nat)
    | with_reducible apply Frame.foldl
    | with_reducible apply Frame.foldl2
    | with_reducible apply Frame.ite
    | with_reducible apply Frame.pairIte
    | with_reducible apply Frame.mk_upd
    | (apply Or.inl; apply Eq.refl true)
    | (apply Or.inr; exact rfl)
    | (with_reducible_and_instances rfl)
    | split

theorem frame_rcPlace (s : State) (core slot : Nat) (row : RcRow) : Frame 32 0 s (rcPlace s core slot row) := by
  dsimp only [rcPlace, ok]
  repeat' first
    | with_reducible assumption
    | with_reducible exact Frame.refl _ _ _
    | intro _
    | apply Eq.refl true
    | apply Eq.refl (_ : Nat)
    | with_reducible apply Frame.step (g := frame_setRc ..)
    | with_reducible apply Frame.step (g := frame_writeBackRow ..)
    | with_reducible apply Frame.ite
    | split

theorem frame_regTouch (s : State) (core slot : Nat) (src : Src) : Frame 32 0 s (regTouch s core slot src) := by
  dsimp only [regTouch, ok]
  repeat' first
    | with_reducible assumption
    | with_reducible exact Frame.refl _ _ _
    | intro _
    | apply Eq.refl true
    | apply Eq.refl (_ : Nat)
    | with_reducible apply Frame.step (g := frame_rcPlace ..)
    | with_reducible apply Frame.ite
    | (apply Or.inl; apply Eq.refl true)
    | (apply Or.inr; exact rfl)
    | (with_reducible_and_instances rfl)
    | split
    | with_reducible apply Frame.mk_upd

theorem frame_regWrite (s : State) (core slot reg mask : Nat) (f : Nat → W32) : Frame 32 0 s (regWrite s core slot reg mask f) := by
  dsimp only [regWrite, ok]
  repeat' first
    | with_reducible assumption
    | with_reducible exact Frame.refl _ _ _
    | intro _
    | apply Eq.refl true
    | apply Eq.refl (_ : Nat)
    | with_reducible apply Frame.step (g := frame_rcPlace ..)
    | with_reducible apply Frame.foldl
    | with_reducible apply Frame.foldl2
    | with_reducible apply Frame.ite
    | with_reducible apply Frame.mk_upd
    | (apply Or.inl; apply Eq.refl true)
    | (apply Or.inr; exact rfl)
    | (with_reducible_and_instances rfl)
    | split

theorem frame_regWrite64 (s : State) (core slot reg mask : Nat) (f : Nat → Nat) : Frame 32 0 s (regWrite64 s core slot reg mask f) := by
  dsimp only [regWrite64, ok]
  repeat' first
    | with_reducible assumption
    | with_reducible exact Frame.refl _ _ _
    | intro _
    | apply Eq.refl true
    | apply Eq.refl (_ : Nat)
    | with_reducible apply Frame.step (g := frame_regWrite ..)
    | with_reducible apply Frame.ite
    | split

theorem frame_setSlot (s : State) (core slot : Nat) (r : SlotRec) : Frame 16 0 s (setSlot s core slot r) := by
  dsimp only [setSlot, ok]
  repeat' first
    | with_reducible assumption
    | with_reducible exact Frame.refl _ _ _
    | intro _
    | apply Eq.refl true
    | apply Eq.refl (_ : Nat)
    | with_reducible apply Frame.ite
    | with_reducible apply Frame.mk_upd
    | (apply Or.inl; apply Eq.refl true)
    | (apply Or.inr; exact rfl)
    | (with_reducible_and_instances rfl)
    | split

theorem frame_updFrag (s : State) (core slot lane : Nat) (g : Frag → Frag) : Frame 16 0 s (updFrag s core slot lane g) := by
  dsimp only [updFrag, ok]
  repeat' first
    | with_reducible assumption
    | with_reducible exact Frame.refl _ _ _
    | intro _
    | apply Eq.refl true
    | apply Eq.refl (_ : Nat)
    | with_reducible apply Frame.step (g := frame_setSlot ..)
    | with_reducible apply Frame.ite
    | (apply Or.inl; apply Eq.refl true)
    | (apply Or.inr; exact rfl)
    | (with_reducible_and_instances rfl)
    | split
    | with_reducible apply Frame.mk_upd

theorem frame_updFrags (s : State) (g : Nat → SlotRec → Frag → Frag) : Frame 16 0 s (updFrags s g) := by
  dsimp only [updFrags, ok]
  repeat' first
    | with_reducible assumption
    | with_reducible exact Frame.refl _ _ _
    | intro _
    | apply Eq.refl true
    | apply Eq.refl (_ : Nat)
    | with_reducible apply Frame.ite
    | with_reducible apply Frame.pairIte
    | with_reducible apply Frame.mk_upd
    | (apply Or.inl; apply Eq.refl true)
    | (apply Or.inr; exact rfl)
    | (with_reducible_and_instances rfl)
    | split

theorem frame_updBlock (s : State) (id : Nat) (f : BlockRec → BlockRec) : Frame 16 0 s (updBlock s id f) := by
  dsimp only [updBlock, ok]
  repeat' first
    | with_reducible assumption
    | with_reducible exact Frame.refl _ _ _
    | intro _
    | apply Eq.refl true
    | apply Eq.refl (_ : Nat)
    | with_reducible apply Frame.ite
    | with_reducible apply Frame.mk_upd
    | (apply Or.inl; apply Eq.refl true)
    | (apply Or.inr; exact rfl)
    | (with_reducible_and_instances rfl)
    | split

theorem frame_updLaunch (s : State) (id : Nat) (f : Launch → Launch) : Frame 16 0 s (updLaunch s id f) := by
  dsimp only [updLaunch, ok]
  repeat' first
    | with_reducible assumption
    | with_reducible exact Frame.refl _ _ _
    | intro _
    | apply Eq.refl true
    | apply Eq.refl (_ : Nat)
    | with_reducible apply Frame.ite
    | with_reducible apply Frame.mk_upd
    | (apply Or.inl; apply Eq.refl true)
    | (apply Or.inr; exact rfl)
    | (with_reducible_and_instances rfl)
    | split

theorem frame_showCore (s : State) (core : Nat) : Frame 0 4096 s (showCore s core) := by
  dsimp only [showCore, ok]
  repeat' first
    | with_reducible assumption
    | with_reducible exact Frame.refl _ _ _
    | intro _
    | apply Eq.refl true
    | apply Eq.refl (_ : Nat)
    | with_reducible apply Frame.put
    | with_reducible apply Frame.ite
    | split

theorem frame_shutReqs (s : State) (core kind : Nat) (p : Nat → Bool) : Frame 32 0 s (shutReqs s core kind p) := by
  dsimp only [shutReqs, ok]
  repeat' first
    | with_reducible assumption
    | with_reducible exact Frame.refl _ _ _
    | intro _
    | apply Eq.refl true
    | apply Eq.refl (_ : Nat)
    | with_reducible apply Frame.ite
    | with_reducible apply Frame.mk_upd
    | (apply Or.inl; apply Eq.refl true)
    | (apply Or.inr; exact rfl)
    | (with_reducible_and_instances rfl)
    | split

theorem frame_acquireWide (s : State) (core : Nat) : Frame 32 0 s (acquireWide s core) := by
  dsimp only [acquireWide, ok]
  repeat' first
    | with_reducible assumption
    | with_reducible exact Frame.refl _ _ _
    | intro _
    | apply Eq.refl true
    | apply Eq.refl (_ : Nat)
    | with_reducible apply Frame.step (g := frame_shutReqs ..)
    | with_reducible apply Frame.ite
    | with_reducible apply Frame.mk_upd
    | (apply Or.inl; apply Eq.refl true)
    | (apply Or.inr; exact rfl)
    | (with_reducible_and_instances rfl)
    | split

theorem frame_wakeBlock (s : State) (id : Nat) : Frame 48 0 s (wakeBlock s id) := by
  dsimp only [wakeBlock, ok]
  repeat' first
    | with_reducible assumption
    | with_reducible exact Frame.refl _ _ _
    | intro _
    | apply Eq.refl true
    | apply Eq.refl (_ : Nat)
    | with_reducible apply Frame.step (g := frame_updFrags ..)
    | with_reducible apply Frame.step (g := frame_acquireWide ..)
    | with_reducible apply Frame.ite
    | with_reducible apply Frame.pairIte
    | (apply Or.inl; apply Eq.refl true)
    | (apply Or.inr; exact rfl)
    | (with_reducible_and_instances rfl)
    | split
    | with_reducible apply Frame.mk_upd

theorem frame_produceToken (s : State) (block entry : Nat) : Frame 48 0 s (produceToken s block entry) := by
  dsimp only [produceToken, ok]
  repeat' first
    | with_reducible assumption
    | with_reducible exact Frame.refl _ _ _
    | intro _
    | apply Eq.refl true
    | apply Eq.refl (_ : Nat)
    | with_reducible apply Frame.step (g := frame_wakeBlock ..)
    | with_reducible apply Frame.step (g := frame_updBlock ..)
    | with_reducible apply Frame.ite
    | with_reducible apply Frame.mk_upd
    | (apply Or.inl; apply Eq.refl true)
    | (apply Or.inr; exact rfl)
    | (with_reducible_and_instances rfl)
    | split

theorem frame_bolNotify (s : State) (n : Nat) : Frame 65540 633825300114114700748485820416 s (bolNotify s n) := by
  dsimp only [bolNotify, ok]
  repeat' first
    | with_reducible assumption
    | with_reducible exact Frame.refl _ _ _
    | intro _
    | apply Eq.refl true
    | apply Eq.refl (_ : Nat)
    | with_reducible apply Frame.put
    | with_reducible apply Frame.step (g := frame_signal ..)
    | with_reducible apply Frame.ite
    | split

theorem frame_bolWaitEnd (s : State) (core slot : Nat) (f : Frag) (v : Nat) (timedOut : Bool) : Frame 48 0 s (bolWaitEnd s core slot f v timedOut) := by
  dsimp only [bolWaitEnd, ok]
  repeat' first
    | with_reducible assumption
    | with_reducible exact Frame.refl _ _ _
    | intro _
    | apply Eq.refl true
    | apply Eq.refl (_ : Nat)
    | with_reducible apply Frame.step (g := frame_regWrite64 ..)
    | with_reducible apply Frame.step (g := frame_regWrite ..)
    | with_reducible apply Frame.step (g := frame_setSlot ..)
    | with_reducible apply Frame.step (g := frame_acquireWide ..)
    | with_reducible apply Frame.ite
    | (apply Or.inl; apply Eq.refl true)
    | (apply Or.inr; exact rfl)
    | (with_reducible_and_instances rfl)
    | split
    | with_reducible apply Frame.mk_upd

theorem frame_bolWake (s : State) (n : Nat) : Frame 48 0 s (bolWake s n) := by
  dsimp only [bolWake, ok]
  repeat' first
    | with_reducible assumption
    | with_reducible exact Frame.refl _ _ _
    | intro _
    | apply Eq.refl true
    | apply Eq.refl (_ : Nat)
    | with_reducible apply Frame.step (g := frame_bolWaitEnd ..)
    | with_reducible apply Frame.foldl
    | with_reducible apply Frame.foldl2
    | with_reducible apply Frame.ite
    | with_reducible apply Frame.pairIte
    | split

theorem frame_berthReopen (s : State) (n : Nat) : Frame 0 604462909807314587353088 s (berthReopen s n) := by
  dsimp only [berthReopen, ok]
  repeat' first
    | with_reducible assumption
    | with_reducible exact Frame.refl _ _ _
    | intro _
    | apply Eq.refl true
    | apply Eq.refl (_ : Nat)
    | with_reducible apply Frame.put
    | with_reducible apply Frame.foldl
    | with_reducible apply Frame.foldl2
    | with_reducible apply Frame.ite
    | with_reducible apply Frame.pairIte
    | split

theorem frame_bolLatch (s : State) (n : Nat) : Frame 88 0 s (bolLatch s n) := by
  dsimp only [bolLatch, ok]
  repeat' first
    | with_reducible assumption
    | with_reducible exact Frame.refl _ _ _
    | intro _
    | apply Eq.refl true
    | apply Eq.refl (_ : Nat)
    | with_reducible apply Frame.ite
    | with_reducible apply Frame.pairIte
    | with_reducible apply Frame.mk_upd
    | (apply Or.inl; apply Eq.refl true)
    | (apply Or.inr; exact rfl)
    | (with_reducible_and_instances rfl)
    | split

theorem frame_bolChanged (s : State) (n : Nat) : Frame 65660 633825904577024508063073173504 s (bolChanged s n) := by
  dsimp only [bolChanged, ok]
  repeat' first
    | with_reducible assumption
    | with_reducible exact Frame.refl _ _ _
    | intro _
    | apply Eq.refl true
    | apply Eq.refl (_ : Nat)
    | with_reducible apply Frame.step (g := frame_bolNotify ..)
    | with_reducible apply Frame.step (g := frame_berthReopen ..)
    | with_reducible apply Frame.step (g := frame_bolWake ..)
    | with_reducible apply Frame.step (g := frame_bolLatch ..)
    | with_reducible apply Frame.ite
    | split

theorem frame_bolApply (s : State) (n inc : Nat) : Frame 65660 633825904577024508063140282368 s (bolApply s n inc) := by
  dsimp only [bolApply, ok]
  repeat' first
    | with_reducible assumption
    | with_reducible exact Frame.refl _ _ _
    | intro _
    | apply Eq.refl true
    | apply Eq.refl (_ : Nat)
    | with_reducible apply Frame.bump
    | with_reducible apply Frame.step (g := frame_bolChanged ..)
    | with_reducible apply Frame.ite
    | split

theorem frame_bolSend (s : State) (n inc : Nat) (fin : AdvEnd) : Frame 65660 633825904577024508063140282368 s (bolSend s n inc fin) := by
  dsimp only [bolSend, ok]
  repeat' first
    | with_reducible assumption
    | with_reducible exact Frame.refl _ _ _
    | intro _
    | apply Eq.refl true
    | apply Eq.refl (_ : Nat)
    | with_reducible apply Frame.step (g := frame_bolApply ..)
    | with_reducible apply Frame.ite
    | with_reducible apply Frame.mk_upd
    | (apply Or.inl; apply Eq.refl true)
    | (apply Or.inr; exact rfl)
    | (with_reducible_and_instances rfl)
    | split

end Sys2Proof.Laws
end

