-- ==== Sys2Proof/Laws/FrameMemory.lean ====
section
/-! SUPPORT. What each operation of Machine/Memory.lean may change, as a frame (Laws/Frame.lean): the parts and registers by their bits. -/

namespace Sys2Proof.Laws

open Sys2Proof.Machine

theorem frame_chanStore (s : State) (key pa : Nat) (poison : Bool) (data : List Byte) : Frame 2 0 s (chanStore s key pa poison data) := by
  dsimp only [chanStore]
  refine .ite (fun _ => .refl _ _ _) (fun _ => ?_)
  exact (Frame.refl _ _ s).updI rfl rfl rfl
    (fun i => ⟨dramWrite_wf (pa / 64 * 64) data i.dram, i.sram, i.flash, i.hold, i.hist, i.mirror⟩) ⟨.inr rfl, .inl rfl, .inr rfl, .inr rfl, .inr rfl, .inr rfl, .inr rfl, .inr rfl, .inr rfl, .inr rfl, .inr rfl, .inr rfl, .inr rfl, .inr rfl, .inr rfl, .inr rfl, .inr rfl⟩

theorem frame_charge (s : State) (r pa : Nat) : Frame 2 41538374868278621029932820494024704 s (charge s r pa) := by
  dsimp only [charge, ok]
  repeat' first
    | with_reducible assumption
    | with_reducible exact Frame.refl _ _ _
    | intro _
    | apply Eq.refl true
    | apply Eq.refl (_ : Nat)
    | with_reducible apply Frame.bump
    | with_reducible apply Frame.step (g := frame_State_restart ..)
    | with_reducible apply Frame.ite
    | with_reducible apply Frame.mk_upd
    | (apply Or.inl; apply Eq.refl true)
    | (apply Or.inr; exact rfl)
    | (with_reducible_and_instances rfl)
    | split

theorem frame_chargeN (a0 : Nat) (a1 : State) (a2 : Nat) (a3 : Nat) : Frame 2 41538374868278621029932820494024704 a1 (chargeN a0 a1 a2 a3) := by
  induction a0 generalizing a1 with
  | zero => exact .refl _ _ _
  | succ n ih => exact (frame_charge a1 a2 a3).step (ih _) rfl rfl

theorem frame_cavCount (s : State) (n : Nat) : Frame 0 4398046511104 s (cavCount s n) := by
  dsimp only [cavCount, ok]
  repeat' first
    | with_reducible assumption
    | with_reducible exact Frame.refl _ _ _
    | intro _
    | apply Eq.refl true
    | apply Eq.refl (_ : Nat)
    | with_reducible apply Frame.put
    | with_reducible apply Frame.ite
    | split

theorem frame_setCavern (s : State) (n : Nat) (ls : List CavLine) : Frame 2 4398046511104 s (setCavern s n ls) := by
  dsimp only [setCavern, ok]
  repeat' first
    | with_reducible assumption
    | with_reducible exact Frame.refl _ _ _
    | intro _
    | apply Eq.refl true
    | apply Eq.refl (_ : Nat)
    | with_reducible apply Frame.step (g := frame_cavCount ..)
    | with_reducible apply Frame.ite
    | with_reducible apply Frame.mk_upd
    | (apply Or.inl; apply Eq.refl true)
    | (apply Or.inr; exact rfl)
    | (with_reducible_and_instances rfl)
    | split

theorem frame_cavWriteBack (s : State) (l : CavLine) : Frame 2 41538374868278621029932820494024704 s (cavWriteBack s l) := by
  dsimp only [cavWriteBack, ok]
  repeat' first
    | with_reducible assumption
    | with_reducible exact Frame.refl _ _ _
    | intro _
    | apply Eq.refl true
    | apply Eq.refl (_ : Nat)
    | with_reducible apply Frame.step (g := frame_charge ..)
    | with_reducible apply Frame.step (g := frame_chanStore ..)
    | with_reducible apply Frame.foldl
    | with_reducible apply Frame.foldl2
    | with_reducible apply Frame.ite
    | split

theorem frame_cavEvict (s : State) (l : CavLine) : Frame 2 41538374868278621029937218540535808 s (cavEvict s l) := by
  dsimp only [cavEvict, ok]
  repeat' first
    | with_reducible assumption
    | with_reducible exact Frame.refl _ _ _
    | intro _
    | apply Eq.refl true
    | apply Eq.refl (_ : Nat)
    | with_reducible apply Frame.step (g := frame_cavWriteBack ..)
    | with_reducible apply Frame.step (g := frame_setCavern ..)
    | with_reducible apply Frame.ite
    | split

theorem frame_cavPlaceWay (s : State) (n set cls : Nat) (comp : Bool) : ∀ w t, cavPlaceWay s n set cls comp = some (w, t) → Frame 16386 41538374868278621029937218540535808 s t := by
  intro x t h
  dsimp only [cavPlaceWay] at h
  split at h
  · cases h; exact .refl _ _ _
  · split at h
    · cases h
    · cases h
      refine Frame.foldl ?_ (fun _ _ h => h.step (frame_cavEvict ..) rfl rfl)
      exact (Frame.refl _ _ s).upd rfl rfl rfl rfl rfl rfl rfl rfl rfl rfl rfl rfl ⟨.inr rfl, .inr rfl, .inr rfl, .inr rfl, .inr rfl, .inr rfl, .inr rfl, .inr rfl, .inr rfl, .inr rfl, .inr rfl, .inr rfl, .inr rfl, .inr rfl, .inl rfl, .inr rfl, .inr rfl⟩

theorem frame_cavUpdate (s : State) (l : CavLine) : Frame 2 41538374868278621029937218540535808 s (cavUpdate s l) := by
  dsimp only [cavUpdate, ok]
  repeat' first
    | with_reducible assumption
    | with_reducible exact Frame.refl _ _ _
    | intro _
    | apply Eq.refl true
    | apply Eq.refl (_ : Nat)
    | with_reducible apply Frame.bumpSat
    | with_reducible apply Frame.step (g := frame_cavEvict ..)
    | with_reducible apply Frame.step (g := frame_setCavern ..)
    | with_reducible apply Frame.foldl
    | with_reducible apply Frame.foldl2
    | with_reducible apply Frame.ite
    | with_reducible apply Frame.mk_upd
    | (apply Or.inl; apply Eq.refl true)
    | (apply Or.inr; exact rfl)
    | (with_reducible_and_instances rfl)
    | split

theorem frame_cavAllocate (s : State) (rq : Rq) (pa : Nat) (secs : List CavSector) : ∀ t, cavAllocate s rq pa secs = some t → Frame 16386 41538374868278621029937218540535808 s t := by
  intro t h
  dsimp only [cavAllocate] at h
  split at h
  · cases h
  · obtain ⟨ws, e, rfl⟩ := Option.map_eq_some_iff.1 h
    exact ((frame_cavPlaceWay _ _ _ _ _ _ _ e).mono rfl rfl).step (frame_setCavern ..) rfl rfl

theorem frame_requestAt (s : State) (pa : Nat) : Frame 0 41538374868278621028243970633760768 s (requestAt s pa) := by
  dsimp only [requestAt, ok]
  repeat' first
    | with_reducible assumption
    | with_reducible exact Frame.refl _ _ _
    | intro _
    | apply Eq.refl true
    | apply Eq.refl (_ : Nat)
    | with_reducible apply Frame.step (g := frame_State_restart ..)
    | with_reducible apply Frame.ite
    | split

theorem frame_countSeen (s : State) (cls : Nat) (l : List Seen) : Frame 0 481036337152 s (countSeen s cls l) := by
  dsimp only [countSeen, ok]
  repeat' first
    | with_reducible assumption
    | with_reducible exact Frame.refl _ _ _
    | intro _
    | apply Eq.refl true
    | apply Eq.refl (_ : Nat)
    | with_reducible apply Frame.bump
    | with_reducible apply Frame.ite
    | split

theorem frame_sectorGet (s : State) (rq : Rq) (pa : Nat) : Frame 16386 41538374868278621029937218540535808 s (sectorGet s rq pa).2.2 := by
  dsimp only [sectorGet, ok]
  repeat' first
    | with_reducible assumption
    | with_reducible exact Frame.refl _ _ _
    | intro _
    | apply Eq.refl true
    | apply Eq.refl (_ : Nat)
    | with_reducible apply Frame.step (g := frame_requestAt ..)
    | with_reducible apply Frame.step (g := frame_charge ..)
    | with_reducible apply Frame.step (g := frame_cavUpdate ..)
    | with_reducible apply Frame.step (g := frame_cavAllocate _ _ _ _ _ (by assumption))
    | with_reducible apply Frame.step (g := frame_chargeN ..)
    | with_reducible apply Frame.ite
    | with_reducible apply Frame.pairIte
    | (apply Or.inl; apply Eq.refl true)
    | (apply Or.inr; exact rfl)
    | (with_reducible_and_instances rfl)
    | split
    | with_reducible apply Frame.mk_upd

theorem frame_sectorRead (s : State) (rq : Rq) (pa : Nat) : Frame 16386 41538374868278621029937699576872960 s (sectorRead s rq pa).2 := by
  dsimp only [sectorRead, ok]
  repeat' first
    | with_reducible assumption
    | with_reducible exact Frame.refl _ _ _
    | intro _
    | apply Eq.refl true
    | apply Eq.refl (_ : Nat)
    | with_reducible apply Frame.step (g := frame_sectorGet ..)
    | with_reducible apply Frame.step (g := frame_countSeen ..)
    | with_reducible apply Frame.eqSnd (e := by assumption)
    | with_reducible apply Frame.ite
    | with_reducible apply Frame.pairIte
    | split

theorem frame_sectorPut (s : State) (rq : Rq) (pa : Nat) (m : SMap Byte) (poison : Bool) : Frame 16386 41538374868278621029937218540535808 s (sectorPut s rq pa m poison).2 := by
  dsimp only [sectorPut, ok]
  repeat' first
    | with_reducible assumption
    | with_reducible exact Frame.refl _ _ _
    | intro _
    | apply Eq.refl true
    | apply Eq.refl (_ : Nat)
    | with_reducible apply Frame.step (g := frame_requestAt ..)
    | with_reducible apply Frame.step (g := frame_charge ..)
    | with_reducible apply Frame.step (g := frame_cavUpdate ..)
    | with_reducible apply Frame.step (g := frame_cavAllocate _ _ _ _ _ (by assumption))
    | with_reducible apply Frame.step (g := frame_chanStore ..)
    | with_reducible apply Frame.ite
    | with_reducible apply Frame.pairIte
    | (apply Or.inl; apply Eq.refl true)
    | (apply Or.inr; exact rfl)
    | (with_reducible_and_instances rfl)
    | split
    | with_reducible apply Frame.mk_upd

theorem frame_sectorMasked (s : State) (rq : Rq) (pa : Nat) (m : SMap Byte) (poison : Bool) : Frame 16386 41538374868278621029937699576872960 s (sectorMasked s rq pa m poison) := by
  dsimp only [sectorMasked, ok]
  repeat' first
    | with_reducible assumption
    | with_reducible exact Frame.refl _ _ _
    | intro _
    | apply Eq.refl true
    | apply Eq.refl (_ : Nat)
    | with_reducible apply Frame.step (g := frame_sectorPut ..)
    | with_reducible apply Frame.step (g := frame_countSeen ..)
    | with_reducible apply Frame.eqSnd (e := by assumption)
    | with_reducible apply Frame.ite
    | with_reducible apply Frame.pairIte
    | split

theorem frame_sectorWrite (s : State) (rq : Rq) (pa : Nat) (bytes : List Byte) (poison : Bool) : Frame 16386 41538374868278621029937699576872960 s (sectorWrite s rq pa bytes poison) := by
  dsimp only [sectorWrite, ok]
  repeat' first
    | with_reducible assumption
    | with_reducible exact Frame.refl _ _ _
    | intro _
    | apply Eq.refl true
    | apply Eq.refl (_ : Nat)
    | with_reducible apply Frame.step (g := frame_sectorMasked ..)
    | with_reducible apply Frame.ite
    | with_reducible apply Frame.pairIte
    | split

theorem frame_devReadFrom (seen : List Seen) (a0 : Nat) (a1 : State) (a2 : Rq) (a3 : Nat) (a4 : Nat) : Frame 16386 41538374868278621029937699576872960 a1 (devReadFrom seen a0 a1 a2 a3 a4).2 := by
  induction a0 generalizing seen a1 a2 a3 a4 with
  | zero =>
    dsimp only [devReadFrom, ok]
    repeat' first
      | with_reducible assumption
      | with_reducible exact Frame.refl _ _ _
      | intro _
      | apply Eq.refl true
      | apply Eq.refl (_ : Nat)
      | with_reducible apply Frame.step (g := frame_countSeen ..)
      | with_reducible apply Frame.step (g := frame_sectorGet ..)
      | with_reducible apply Frame.eqSnd (e := by assumption)
      | with_reducible apply Frame.ite
      | with_reducible apply Frame.pairIte
      | split
  | succ n ih =>
    dsimp only [devReadFrom, ok]
    repeat' first
      | with_reducible assumption
      | with_reducible exact Frame.refl _ _ _
      | intro _
      | with_reducible apply Frame.step (g := ih ..)
      | apply Eq.refl true
      | apply Eq.refl (_ : Nat)
      | with_reducible apply Frame.step (g := frame_countSeen ..)
      | with_reducible apply Frame.step (g := frame_sectorGet ..)
      | with_reducible apply Frame.eqSnd (e := by assumption)
      | with_reducible apply Frame.ite
      | with_reducible apply Frame.pairIte
      | split

theorem frame_devRead (fuel : Nat) (s : State) (rq : Rq) (pa n : Nat) : Frame 16386 41538374868278621029937699576872960 s (devRead fuel s rq pa n).2 := by
  dsimp only [devRead, ok]
  repeat' first
    | with_reducible assumption
    | with_reducible exact Frame.refl _ _ _
    | intro _
    | apply Eq.refl true
    | apply Eq.refl (_ : Nat)
    | with_reducible apply Frame.step (g := frame_devReadFrom ..)
    | with_reducible apply Frame.eqSnd (e := by assumption)
    | with_reducible apply Frame.ite
    | with_reducible apply Frame.pairIte
    | split

theorem frame_devWriteFrom (seen : List Seen) (a0 : Nat) (a1 : State) (a2 : Rq) (a3 : Nat) (a4 : List Byte) : Frame 16386 41538374868278621029937699576872960 a1 (devWriteFrom seen a0 a1 a2 a3 a4) := by
  induction a0 generalizing seen a1 a2 a3 a4 with
  | zero =>
    dsimp only [devWriteFrom, ok]
    repeat' first
      | with_reducible assumption
      | with_reducible exact Frame.refl _ _ _
      | intro _
      | apply Eq.refl true
      | apply Eq.refl (_ : Nat)
      | with_reducible apply Frame.step (g := frame_countSeen ..)
      | with_reducible apply Frame.step (g := frame_sectorPut ..)
      | with_reducible apply Frame.eqSnd (e := by assumption)
      | with_reducible apply Frame.ite
      | with_reducible apply Frame.pairIte
      | split
  | succ n ih =>
    dsimp only [devWriteFrom, ok]
    repeat' first
      | with_reducible assumption
      | with_reducible exact Frame.refl _ _ _
      | intro _
      | with_reducible apply Frame.step (g := ih ..)
      | apply Eq.refl true
      | apply Eq.refl (_ : Nat)
      | with_reducible apply Frame.step (g := frame_countSeen ..)
      | with_reducible apply Frame.step (g := frame_sectorPut ..)
      | with_reducible apply Frame.eqSnd (e := by assumption)
      | with_reducible apply Frame.ite
      | with_reducible apply Frame.pairIte
      | split

theorem frame_devWrite (fuel : Nat) (s : State) (rq : Rq) (pa : Nat) (bs : List Byte) : Frame 16386 41538374868278621029937699576872960 s (devWrite fuel s rq pa bs) := by
  dsimp only [devWrite, ok]
  repeat' first
    | with_reducible assumption
    | with_reducible exact Frame.refl _ _ _
    | intro _
    | apply Eq.refl true
    | apply Eq.refl (_ : Nat)
    | with_reducible apply Frame.step (g := frame_devWriteFrom ..)
    | with_reducible apply Frame.ite
    | split

theorem frame_limitRefused (s : State) : Frame 77828 127606560083995344874462971787963531264 s (limitRefused s) := by
  dsimp only [limitRefused, ok]
  repeat' first
    | with_reducible assumption
    | with_reducible exact Frame.refl _ _ _
    | intro _
    | apply Eq.refl true
    | apply Eq.refl (_ : Nat)
    | with_reducible apply Frame.step (g := frame_post ..)
    | with_reducible apply Frame.ite
    | split

theorem frame_segNote (s : State) (c sg ca unit : Nat) : Frame 77830 127606560083995344874607086976039387136 s (segNote s c sg ca unit) := by
  dsimp only [segNote, ok]
  repeat' first
    | with_reducible assumption
    | with_reducible exact Frame.refl _ _ _
    | intro _
    | apply Eq.refl true
    | apply Eq.refl (_ : Nat)
    | with_reducible apply Frame.put
    | with_reducible apply Frame.step (g := frame_post ..)
    | with_reducible apply Frame.ite
    | with_reducible apply Frame.mk_upd
    | (apply Or.inl; apply Eq.refl true)
    | (apply Or.inr; exact rfl)
    | (with_reducible_and_instances rfl)
    | split

theorem frame_showParked (s : State) (c : Nat) : Frame 0 144115188075855872 s (showParked s c) := by
  dsimp only [showParked, ok]
  repeat' first
    | with_reducible assumption
    | with_reducible exact Frame.refl _ _ _
    | intro _
    | apply Eq.refl true
    | apply Eq.refl (_ : Nat)
    | with_reducible apply Frame.put
    | with_reducible apply Frame.ite
    | split

theorem frame_segFault (s : State) (c sg ca unit : Nat) (who : Parker) : Frame 77830 127606560083995344874607086976039387136 s (segFault s c sg ca unit who) := by
  dsimp only [segFault, ok]
  repeat' first
    | with_reducible assumption
    | with_reducible exact Frame.refl _ _ _
    | intro _
    | apply Eq.refl true
    | apply Eq.refl (_ : Nat)
    | with_reducible apply Frame.step (g := frame_segNote ..)
    | with_reducible apply Frame.step (g := frame_showParked ..)
    | with_reducible apply Frame.ite
    | with_reducible apply Frame.mk_upd
    | (apply Or.inl; apply Eq.refl true)
    | (apply Or.inr; exact rfl)
    | (with_reducible_and_instances rfl)
    | split

theorem frame_unpark (s : State) (c : Nat) (gone : Parked → Bool) : Frame 2 144115188075855872 s (unpark s c gone) := by
  dsimp only [unpark, ok]
  repeat' first
    | with_reducible assumption
    | with_reducible exact Frame.refl _ _ _
    | intro _
    | apply Eq.refl true
    | apply Eq.refl (_ : Nat)
    | with_reducible apply Frame.step (g := frame_showParked ..)
    | with_reducible apply Frame.ite
    | with_reducible apply Frame.mk_upd
    | (apply Or.inl; apply Eq.refl true)
    | (apply Or.inr; exact rfl)
    | (with_reducible_and_instances rfl)
    | split

end Sys2Proof.Laws
end

