-- ==== Sys2Proof/Laws/FrameGrotto.lean ====
section
/-! SUPPORT. What each operation of Machine/Grotto.lean may change, as a frame (Laws/Frame.lean): the parts and registers by their bits. -/

namespace Sys2Proof.Laws

open Sys2Proof.Machine

theorem frame_setFlags (s : State) (core : Nat) (f : CoreFlags) : Frame 32 0 s (setFlags s core f) := by
  dsimp only [setFlags, ok]
  repeat' first
    | with_reducible assumption
    | with_reducible exact Frame.refl _ _ _
    | intro _
    | apply Eq.refl true
    | apply Eq.refl (_ : Nat)
    | with_reducible apply Frame.ite
    | with_reducible apply Frame.mk_upd
    | (apply Or.inl; apply Eq.refl true)
    | (apply Or.inr; exact rfl)
    | (with_reducible_and_instances rfl)
    | split

theorem frame_setGl (s : State) (core : Nat) (gl : List GrottoLine) : Frame 32 1073741824 s (setGl s core gl) := by
  dsimp only [setGl, ok]
  repeat' first
    | with_reducible assumption
    | with_reducible exact Frame.refl _ _ _
    | intro _
    | apply Eq.refl true
    | apply Eq.refl (_ : Nat)
    | with_reducible apply Frame.put
    | with_reducible apply Frame.ite
    | with_reducible apply Frame.mk_upd
    | (apply Or.inl; apply Eq.refl true)
    | (apply Or.inr; exact rfl)
    | (with_reducible_and_instances rfl)
    | split

theorem frame_glSend (s : State) (l : GrottoLine) : Frame 16386 41538374868278621029937699576872960 s (glSend s l) := by
  dsimp only [glSend, ok]
  repeat' first
    | with_reducible assumption
    | with_reducible exact Frame.refl _ _ _
    | intro _
    | apply Eq.refl true
    | apply Eq.refl (_ : Nat)
    | with_reducible apply Frame.step (g := frame_sectorPut ..)
    | with_reducible apply Frame.step (g := frame_countSeen ..)
    | with_reducible apply Frame.eqSnd (e := by assumption)
    | with_reducible apply Frame.ite
    | with_reducible apply Frame.pairIte
    | split

theorem frame_glWriteBack (s : State) (l : GrottoLine) : Frame 16418 41538374868278621029937709240549376 s (glWriteBack s l) := by
  dsimp only [glWriteBack, ok]
  repeat' first
    | with_reducible assumption
    | with_reducible exact Frame.refl _ _ _
    | intro _
    | apply Eq.refl true
    | apply Eq.refl (_ : Nat)
    | with_reducible apply Frame.bump
    | with_reducible apply Frame.step (g := frame_glSend ..)
    | with_reducible apply Frame.step (g := frame_setGl ..)
    | with_reducible apply Frame.ite
    | with_reducible apply Frame.mk_upd
    | (apply Or.inl; apply Eq.refl true)
    | (apply Or.inr; exact rfl)
    | (with_reducible_and_instances rfl)
    | split

theorem frame_glFlush (s : State) (core : Nat) : Frame 16418 41538374868278621029937709240549376 s (glFlush s core) := by
  dsimp only [glFlush, ok]
  repeat' first
    | with_reducible assumption
    | with_reducible exact Frame.refl _ _ _
    | intro _
    | apply Eq.refl true
    | apply Eq.refl (_ : Nat)
    | with_reducible apply Frame.step (g := frame_glWriteBack ..)
    | with_reducible apply Frame.foldl
    | with_reducible apply Frame.foldl2
    | with_reducible apply Frame.ite
    | split

theorem frame_glInvalidate (s : State) (core : Nat) : Frame 32 1073741824 s (glInvalidate s core) := by
  dsimp only [glInvalidate, ok]
  repeat' first
    | with_reducible assumption
    | with_reducible exact Frame.refl _ _ _
    | intro _
    | apply Eq.refl true
    | apply Eq.refl (_ : Nat)
    | with_reducible apply Frame.step (g := frame_setGl ..)
    | with_reducible apply Frame.ite
    | split

theorem frame_glFlushRange (s : State) (core : Nat) (inRange : GrottoLine → Bool) : Frame 16418 41538374868278621029937709240549376 s (glFlushRange s core inRange) := by
  dsimp only [glFlushRange, ok]
  repeat' first
    | with_reducible assumption
    | with_reducible exact Frame.refl _ _ _
    | intro _
    | apply Eq.refl true
    | apply Eq.refl (_ : Nat)
    | with_reducible apply Frame.step (g := frame_glWriteBack ..)
    | with_reducible apply Frame.foldl
    | with_reducible apply Frame.foldl2
    | with_reducible apply Frame.ite
    | split

theorem frame_glVictim (s : State) (core a mask : Nat) : ∀ w t, glVictim s core a mask = some (w, t) → Frame 16418 41538374868278621029937709240549376 s t := by
  intro w t h
  dsimp only [glVictim] at h
  split at h
  · cases h
  · cases h
    refine Frame.step (g := frame_setGl ..) (Frame.foldl ((Frame.refl _ _ s).step (frame_setFlags ..) rfl rfl) ?_) rfl rfl
    exact fun _ _ h => h.step (frame_glWriteBack ..) rfl rfl

theorem frame_glFill (s : State) (core a : Nat) (host : Bool) (rq : Rq) (mask : Nat) (data : List Byte) : Frame 16418 41538374868278621029937709240549376 s (glFill s core a host rq mask data) := by
  dsimp only [glFill, ok]
  repeat' first
    | with_reducible assumption
    | with_reducible exact Frame.refl _ _ _
    | intro _
    | apply Eq.refl true
    | apply Eq.refl (_ : Nat)
    | with_reducible apply Frame.step (g := frame_setGl ..)
    | with_reducible apply Frame.step (g := frame_glVictim _ _ _ _ _ _ (by assumption))
    | with_reducible apply Frame.ite
    | with_reducible apply Frame.pairIte
    | (apply Or.inl; apply Eq.refl true)
    | (apply Or.inr; exact rfl)
    | (with_reducible_and_instances rfl)
    | split
    | with_reducible apply Frame.mk_upd

theorem frame_glStore (s : State) (core a : Nat) (rq : Rq) (mask : Nat) (bs : List Byte) : Frame 16418 41538374868278621029937709240549376 s (glStore s core a rq mask bs) := by
  dsimp only [glStore, ok]
  repeat' first
    | with_reducible assumption
    | with_reducible exact Frame.refl _ _ _
    | intro _
    | apply Eq.refl true
    | apply Eq.refl (_ : Nat)
    | with_reducible apply Frame.step (g := frame_setGl ..)
    | with_reducible apply Frame.step (g := frame_glVictim _ _ _ _ _ _ (by assumption))
    | with_reducible apply Frame.step (g := frame_devWrite ..)
    | with_reducible apply Frame.foldl
    | with_reducible apply Frame.foldl2
    | with_reducible apply Frame.ite
    | with_reducible apply Frame.pairIte
    | (apply Or.inl; apply Eq.refl true)
    | (apply Or.inr; exact rfl)
    | (with_reducible_and_instances rfl)
    | split
    | with_reducible apply Frame.mk_upd

theorem frame_glPatch (s : State) (core a : Nat) (host : Bool) (bs : List Byte) : Frame 32 1073741824 s (glPatch s core a host bs) := by
  dsimp only [glPatch, ok]
  repeat' first
    | with_reducible assumption
    | with_reducible exact Frame.refl _ _ _
    | intro _
    | apply Eq.refl true
    | apply Eq.refl (_ : Nat)
    | with_reducible apply Frame.step (g := frame_setGl ..)
    | with_reducible apply Frame.foldl
    | with_reducible apply Frame.foldl2
    | with_reducible apply Frame.ite
    | with_reducible apply Frame.pairIte
    | (apply Or.inl; apply Eq.refl true)
    | (apply Or.inr; exact rfl)
    | (with_reducible_and_instances rfl)
    | split
    | with_reducible apply Frame.mk_upd

theorem frame_glExpel (s : State) (core a : Nat) (host : Bool) : Frame 16418 41538374868278621029937709240549376 s (glExpel s core a host) := by
  dsimp only [glExpel, ok]
  repeat' first
    | with_reducible assumption
    | with_reducible exact Frame.refl _ _ _
    | intro _
    | apply Eq.refl true
    | apply Eq.refl (_ : Nat)
    | with_reducible apply Frame.step (g := frame_glWriteBack ..)
    | with_reducible apply Frame.step (g := frame_setGl ..)
    | with_reducible apply Frame.ite
    | split

theorem frame_releaseWide (s : State) (core : Nat) : Frame 16418 41538374868278621029937709240549376 s (releaseWide s core) := by
  dsimp only [releaseWide, ok]
  repeat' first
    | with_reducible assumption
    | with_reducible exact Frame.refl _ _ _
    | intro _
    | apply Eq.refl true
    | apply Eq.refl (_ : Nat)
    | with_reducible apply Frame.step (g := frame_glFlush ..)
    | with_reducible apply Frame.ite
    | split

theorem frame_glInvClean (s : State) (core : Nat) (inRange : GrottoLine → Bool) : Frame 32 1073741824 s (glInvClean s core inRange) := by
  dsimp only [glInvClean, ok]
  repeat' first
    | with_reducible assumption
    | with_reducible exact Frame.refl _ _ _
    | intro _
    | apply Eq.refl true
    | apply Eq.refl (_ : Nat)
    | with_reducible apply Frame.step (g := frame_setGl ..)
    | with_reducible apply Frame.ite
    | with_reducible apply Frame.mk_upd
    | (apply Or.inl; apply Eq.refl true)
    | (apply Or.inr; exact rfl)
    | (with_reducible_and_instances rfl)
    | split

theorem frame_roInvalidate (s : State) (core kind : Nat) : Frame 32 0 s (roInvalidate s core kind) := by
  dsimp only [roInvalidate, ok]
  repeat' first
    | with_reducible assumption
    | with_reducible exact Frame.refl _ _ _
    | intro _
    | apply Eq.refl true
    | apply Eq.refl (_ : Nat)
    | with_reducible apply Frame.ite
    | with_reducible apply Frame.mk_upd
    | (apply Or.inl; apply Eq.refl true)
    | (apply Or.inr; exact rfl)
    | (with_reducible_and_instances rfl)
    | split

theorem frame_roInvalidateAll (s : State) (core : Nat) : Frame 32 0 s (roInvalidateAll s core) := by
  dsimp only [roInvalidateAll, ok]
  repeat' first
    | with_reducible assumption
    | with_reducible exact Frame.refl _ _ _
    | intro _
    | apply Eq.refl true
    | apply Eq.refl (_ : Nat)
    | with_reducible apply Frame.ite
    | with_reducible apply Frame.mk_upd
    | (apply Or.inl; apply Eq.refl true)
    | (apply Or.inr; exact rfl)
    | (with_reducible_and_instances rfl)
    | split

theorem frame_roTouch (s : State) (core kind : Nat) (host : Bool) (a : Nat) : Frame 32 0 s (roTouch s core kind host a) := by
  dsimp only [roTouch, ok]
  repeat' first
    | with_reducible assumption
    | with_reducible exact Frame.refl _ _ _
    | intro _
    | apply Eq.refl true
    | apply Eq.refl (_ : Nat)
    | with_reducible apply Frame.ite
    | (apply Or.inl; apply Eq.refl true)
    | (apply Or.inr; exact rfl)
    | (with_reducible_and_instances rfl)
    | split
    | with_reducible apply Frame.mk_upd

theorem frame_roFill (s : State) (core kind : Nat) (host : Bool) (a ctx : Nat) (data : List Byte) (poison : Bool) : Frame 32 1048576 s (roFill s core kind host a ctx data poison) := by
  dsimp only [roFill, ok]
  repeat' first
    | with_reducible assumption
    | with_reducible exact Frame.refl _ _ _
    | intro _
    | apply Eq.refl true
    | apply Eq.refl (_ : Nat)
    | with_reducible apply Frame.bump
    | with_reducible apply Frame.ite
    | with_reducible apply Frame.mk_upd
    | (apply Or.inl; apply Eq.refl true)
    | (apply Or.inr; exact rfl)
    | (with_reducible_and_instances rfl)
    | split

theorem frame_sramWrite (s : State) (core a : Nat) (bs : List Byte) : Frame 32 0 s (sramWrite s core a bs) := by
  exact (Frame.refl _ _ s).updI rfl rfl rfl
    (fun i => ⟨i.dram, sramPut_wf _ _ i.sram, i.flash, i.hold, i.hist, i.mirror⟩)  ⟨.inr rfl, .inr rfl, .inr rfl, .inr rfl, .inr rfl, .inl rfl, .inr rfl, .inr rfl, .inr rfl, .inr rfl, .inr rfl, .inr rfl, .inr rfl, .inr rfl, .inr rfl, .inr rfl, .inr rfl⟩

theorem frame_resetVictim (s : State) (core : Nat) : Frame 32 0 s (resetVictim s core) := by
  dsimp only [resetVictim, ok]
  repeat' first
    | with_reducible assumption
    | with_reducible exact Frame.refl _ _ _
    | intro _
    | apply Eq.refl true
    | apply Eq.refl (_ : Nat)
    | with_reducible apply Frame.step (g := frame_setFlags ..)
    | with_reducible apply Frame.ite
    | with_reducible apply Frame.mk_upd
    | (apply Or.inl; apply Eq.refl true)
    | (apply Or.inr; exact rfl)
    | (with_reducible_and_instances rfl)
    | split

theorem frame_scramble (s : State) (core lo hi : Nat) : Frame 16416 0 s (scramble s core lo hi) := by
  exact (Frame.refl _ _ s).updI rfl rfl rfl
    (fun i => ⟨i.dram, sramDrop_wf (c := s.core) (p := fun k => k / 2097152 == core && decide (lo ≤ 15 - k % 2097152 / 131072) && decide (15 - k % 2097152 / 131072 < hi)) rfl (fun _ _ e => smapGet_foldl_insert (m := s.core.scram) e) i.sram, i.flash, i.hold, i.hist, i.mirror⟩)  ⟨.inr rfl, .inr rfl, .inr rfl, .inr rfl, .inr rfl, .inl rfl, .inr rfl, .inr rfl, .inr rfl, .inr rfl, .inr rfl, .inr rfl, .inr rfl, .inr rfl, .inl rfl, .inr rfl, .inr rfl⟩

theorem frame_setSplit (s : State) (core ways : Nat) : Frame 16418 41538374868278621029937709240549376 s (setSplit s core ways) := by
  dsimp only [setSplit, ok]
  repeat' first
    | with_reducible assumption
    | with_reducible exact Frame.refl _ _ _
    | intro _
    | apply Eq.refl true
    | apply Eq.refl (_ : Nat)
    | with_reducible apply Frame.put
    | with_reducible apply Frame.step (g := frame_glInvalidate ..)
    | with_reducible apply Frame.step (g := frame_glFlush ..)
    | with_reducible apply Frame.step (g := frame_scramble ..)
    | with_reducible apply Frame.ite
    | split

theorem frame_clearCore (s : State) (core : Nat) : Frame 32 0 s (clearCore s core) := by
  exact (Frame.refl _ _ s).updI rfl rfl rfl
    (fun i => ⟨i.dram, sramDrop_wf (p := fun k => k / 2097152 == core) rfl (fun k hk e => smapGet_drop (p := fun k => k / 16 == core) (by simp only [beq_eq_false_iff_ne] at hk ⊢; omega) e) i.sram, i.flash, i.hold, i.hist, i.mirror⟩)  ⟨.inr rfl, .inr rfl, .inr rfl, .inr rfl, .inr rfl, .inl rfl, .inr rfl, .inr rfl, .inr rfl, .inr rfl, .inr rfl, .inr rfl, .inr rfl, .inr rfl, .inr rfl, .inr rfl, .inr rfl⟩

end Sys2Proof.Laws
end

