-- ==== Sys2Proof/Laws/FramePacket.lean ====
section
/-! SUPPORT. What each operation of Machine/Packet.lean may change, as a frame (Laws/Frame.lean): the parts and registers by their bits. -/

namespace Sys2Proof.Laws

open Sys2Proof.Machine

theorem frame_setPort (s : State) (p : Nat) (x : PortState) : Frame 512 0 s (setPort s p x) := by
  dsimp only [setPort, ok]
  repeat' first
    | with_reducible assumption
    | with_reducible exact Frame.refl _ _ _
    | intro _
    | apply Eq.refl true
    | apply Eq.refl (_ : Nat)
    | with_reducible apply Frame.ite
    | with_reducible apply Frame.mk_upd
    | (apply Or.inl; apply Eq.refl true)
    | (apply Or.inr; exact rfl)
    | (with_reducible_and_instances rfl)
    | split

theorem frame_emitSlot (port : Nat) (s : State) (tag : Nat) : Frame 66048 0 s (emitSlot port s tag) := by
  dsimp only [emitSlot, ok]
  repeat' first
    | with_reducible assumption
    | with_reducible exact Frame.refl _ _ _
    | intro _
    | apply Eq.refl true
    | apply Eq.refl (_ : Nat)
    | with_reducible apply Frame.step (g := frame_setPort ..)
    | with_reducible apply Frame.ite
    | with_reducible apply Frame.mk_upd
    | (apply Or.inl; apply Eq.refl true)
    | (apply Or.inr; exact rfl)
    | (with_reducible_and_instances rfl)
    | split

theorem frame_linkSend (s : State) (port : Nat) (m : LinkMsg) : Frame 66048 0 s (linkSend s port m) := by
  dsimp only [linkSend, ok]
  repeat' first
    | with_reducible assumption
    | with_reducible exact Frame.refl _ _ _
    | intro _
    | apply Eq.refl true
    | apply Eq.refl (_ : Nat)
    | with_reducible apply Frame.step (g := frame_emitSlot ..)
    | with_reducible apply Frame.ite
    | with_reducible apply Frame.mk_upd
    | (apply Or.inl; apply Eq.refl true)
    | (apply Or.inr; exact rfl)
    | (with_reducible_and_instances rfl)
    | split

theorem frame_emit (port : Nat) (s : State) (tag : Nat) : Frame 66048 0 s (emit port s tag) := by
  dsimp only [emit, ok]
  repeat' first
    | with_reducible assumption
    | with_reducible exact Frame.refl _ _ _
    | intro _
    | apply Eq.refl true
    | apply Eq.refl (_ : Nat)
    | with_reducible apply Frame.step (g := frame_emitSlot ..)
    | with_reducible apply Frame.step (g := frame_linkSend ..)
    | with_reducible apply Frame.ite
    | split

theorem frame_emitPkt (port : Nat) (s : State) (k : SentPkt) : Frame 66048 0 s (emitPkt port s k) := by
  dsimp only [emitPkt, ok]
  repeat' first
    | with_reducible assumption
    | with_reducible exact Frame.refl _ _ _
    | intro _
    | apply Eq.refl true
    | apply Eq.refl (_ : Nat)
    | with_reducible apply Frame.step (g := frame_emit ..)
    | with_reducible apply Frame.foldl
    | with_reducible apply Frame.foldl2
    | with_reducible apply Frame.ite
    | with_reducible apply Frame.mk_upd
    | (apply Or.inl; apply Eq.refl true)
    | (apply Or.inr; exact rfl)
    | (with_reducible_and_instances rfl)
    | split

theorem frame_leavePort (s : State) (port : Nat) (k : SentPkt) : Frame 66048 0 s (leavePort s port k) := by
  dsimp only [leavePort, ok]
  repeat' first
    | with_reducible assumption
    | with_reducible exact Frame.refl _ _ _
    | intro _
    | apply Eq.refl true
    | apply Eq.refl (_ : Nat)
    | with_reducible apply Frame.step (g := frame_emitPkt ..)
    | with_reducible apply Frame.step (g := frame_setPort ..)
    | with_reducible apply Frame.ite
    | with_reducible apply Frame.mk_upd
    | (apply Or.inl; apply Eq.refl true)
    | (apply Or.inr; exact rfl)
    | (with_reducible_and_instances rfl)
    | split

theorem frame_pumpQueue (a0 : Nat) (a1 : State) (a2 : Nat) : Frame 66048 0 a1 (pumpQueue a0 a1 a2) := by
  induction a0 generalizing a1 a2 with
  | zero =>
    dsimp only [pumpQueue, ok]
    repeat' first
      | with_reducible assumption
      | with_reducible exact Frame.refl _ _ _
      | intro _
      | apply Eq.refl true
      | apply Eq.refl (_ : Nat)
      | with_reducible apply Frame.step (g := frame_leavePort ..)
      | with_reducible apply Frame.step (g := frame_setPort ..)
      | with_reducible apply Frame.ite
      | (apply Or.inl; apply Eq.refl true)
      | (apply Or.inr; exact rfl)
      | (with_reducible_and_instances rfl)
      | split
      | with_reducible apply Frame.mk_upd
  | succ n ih =>
    dsimp only [pumpQueue, ok]
    repeat' first
      | with_reducible assumption
      | with_reducible exact Frame.refl _ _ _
      | intro _
      | with_reducible apply Frame.step (g := ih ..)
      | apply Eq.refl true
      | apply Eq.refl (_ : Nat)
      | with_reducible apply Frame.step (g := frame_leavePort ..)
      | with_reducible apply Frame.step (g := frame_setPort ..)
      | with_reducible apply Frame.ite
      | (apply Or.inl; apply Eq.refl true)
      | (apply Or.inr; exact rfl)
      | (with_reducible_and_instances rfl)
      | split
      | with_reducible apply Frame.mk_upd

theorem frame_pumpPort (s : State) (port : Nat) : Frame 66048 0 s (pumpPort s port) := by
  dsimp only [pumpPort, ok]
  repeat' first
    | with_reducible assumption
    | with_reducible exact Frame.refl _ _ _
    | intro _
    | apply Eq.refl true
    | apply Eq.refl (_ : Nat)
    | with_reducible apply Frame.step (g := frame_pumpQueue ..)
    | with_reducible apply Frame.ite
    | split

theorem frame_sendOn (s : State) (port : Nat) (p : Packet) (lines : List Line) (stream : Option Nat) : Frame 66048 0 s (sendOn s port p lines stream) := by
  dsimp only [sendOn, ok]
  repeat' first
    | with_reducible assumption
    | with_reducible exact Frame.refl _ _ _
    | intro _
    | apply Eq.refl true
    | apply Eq.refl (_ : Nat)
    | with_reducible apply Frame.step (g := frame_setPort ..)
    | with_reducible apply Frame.step (g := frame_pumpPort ..)
    | with_reducible apply Frame.ite
    | with_reducible apply Frame.mk_upd
    | (apply Or.inl; apply Eq.refl true)
    | (apply Or.inr; exact rfl)
    | (with_reducible_and_instances rfl)
    | split

theorem frame_holdPkt (s : State) (k : SentPkt) : Frame 512 0 s (holdPkt s k) := by
  dsimp only [holdPkt, ok]
  repeat' first
    | with_reducible assumption
    | with_reducible exact Frame.refl _ _ _
    | intro _
    | apply Eq.refl true
    | apply Eq.refl (_ : Nat)
    | with_reducible apply Frame.ite
    | with_reducible apply Frame.mk_upd
    | (apply Or.inl; apply Eq.refl true)
    | (apply Or.inr; exact rfl)
    | (with_reducible_and_instances rfl)
    | split

theorem frame_fabSend (s : State) (c : Nat) (p : Packet) (lines : List Line) : Frame 66048 0 s (fabSend s c p lines) := by
  dsimp only [fabSend, ok]
  repeat' first
    | with_reducible assumption
    | with_reducible exact Frame.refl _ _ _
    | intro _
    | apply Eq.refl true
    | apply Eq.refl (_ : Nat)
    | with_reducible apply Frame.step (g := frame_holdPkt ..)
    | with_reducible apply Frame.step (g := frame_sendOn ..)
    | with_reducible apply Frame.ite
    | split

theorem frame_fabReply (s : State) (port : Nat) (p : Packet) (lines : List Line) : Frame 66048 0 s (fabReply s port p lines) := by
  dsimp only [fabReply, ok]
  repeat' first
    | with_reducible assumption
    | with_reducible exact Frame.refl _ _ _
    | intro _
    | apply Eq.refl true
    | apply Eq.refl (_ : Nat)
    | with_reducible apply Frame.step (g := frame_sendOn ..)
    | with_reducible apply Frame.step (g := frame_fabSend ..)
    | with_reducible apply Frame.ite
    | split

theorem frame_updSailing (s : State) (x : Sailing) (g : Sailing → Sailing) : Frame 256 0 s (updSailing s x g) := by
  dsimp only [updSailing, ok]
  repeat' first
    | with_reducible assumption
    | with_reducible exact Frame.refl _ _ _
    | intro _
    | apply Eq.refl true
    | apply Eq.refl (_ : Nat)
    | with_reducible apply Frame.ite
    | with_reducible apply Frame.mk_upd
    | (apply Or.inl; apply Eq.refl true)
    | (apply Or.inr; exact rfl)
    | (with_reducible_and_instances rfl)
    | split

theorem frame_ferryShow (s : State) (f : Nat) : Frame 0 1180591620717411303424 s (ferryShow s f) := by
  dsimp only [ferryShow, ok]
  repeat' first
    | with_reducible assumption
    | with_reducible exact Frame.refl _ _ _
    | intro _
    | apply Eq.refl true
    | apply Eq.refl (_ : Nat)
    | with_reducible apply Frame.put
    | with_reducible apply Frame.ite
    | split

theorem frame_ferrySend (s : State) (f : Nat) (p : Packet) : Frame 66048 0 s (ferrySend s f p) := by
  dsimp only [ferrySend, ok]
  repeat' first
    | with_reducible assumption
    | with_reducible exact Frame.refl _ _ _
    | intro _
    | apply Eq.refl true
    | apply Eq.refl (_ : Nat)
    | with_reducible apply Frame.step (g := frame_fabSend ..)
    | with_reducible apply Frame.ite
    | split

theorem frame_settleBollard (s : State) (x : Sailing) : Frame 65660 633825904577024508063140282368 s (settleBollard s x) := by
  dsimp only [settleBollard, ok]
  repeat' first
    | with_reducible assumption
    | with_reducible exact Frame.refl _ _ _
    | intro _
    | apply Eq.refl true
    | apply Eq.refl (_ : Nat)
    | with_reducible apply Frame.step (g := frame_bolSend ..)
    | with_reducible apply Frame.ite
    | split

theorem frame_abortSailing (s : State) (x : Sailing) (reason : Nat) : Frame 78716 127606560083995955240330882689808728064 s (abortSailing s x reason) := by
  dsimp only [abortSailing, ok]
  repeat' first
    | with_reducible assumption
    | with_reducible exact Frame.refl _ _ _
    | intro _
    | apply Eq.refl true
    | apply Eq.refl (_ : Nat)
    | with_reducible apply Frame.bumpSat
    | with_reducible apply Frame.step (g := frame_updSailing ..)
    | with_reducible apply Frame.step (g := frame_ferrySend ..)
    | with_reducible apply Frame.step (g := frame_settleBollard ..)
    | with_reducible apply Frame.step (g := frame_post ..)
    | with_reducible apply Frame.step (g := frame_ferryShow ..)
    | with_reducible apply Frame.ite
    | with_reducible apply Frame.mk_upd
    | (apply Or.inl; apply Eq.refl true)
    | (apply Or.inr; exact rfl)
    | (with_reducible_and_instances rfl)
    | split

theorem frame_cutSailing (s : State) (x : Sailing) : Frame 78716 127606560083995955240330882689808728064 s (cutSailing s x) := by
  dsimp only [cutSailing, ok]
  repeat' first
    | with_reducible assumption
    | with_reducible exact Frame.refl _ _ _
    | intro _
    | apply Eq.refl true
    | apply Eq.refl (_ : Nat)
    | with_reducible apply Frame.step (g := frame_abortSailing ..)
    | with_reducible apply Frame.step (g := frame_ferryShow ..)
    | with_reducible apply Frame.step (g := frame_updSailing ..)
    | with_reducible apply Frame.ite
    | with_reducible apply Frame.mk_upd
    | (apply Or.inl; apply Eq.refl true)
    | (apply Or.inr; exact rfl)
    | (with_reducible_and_instances rfl)
    | split

theorem frame_runLost (s : State) (p : Packet) : Frame 78716 127606560083995955240330882689808728064 s (runLost s p) := by
  dsimp only [runLost, ok]
  repeat' first
    | with_reducible assumption
    | with_reducible exact Frame.refl _ _ _
    | intro _
    | apply Eq.refl true
    | apply Eq.refl (_ : Nat)
    | with_reducible apply Frame.step (g := frame_cutSailing ..)
    | with_reducible apply Frame.ite
    | split

theorem frame_abortWaiting (s : State) (f reason : Nat) : Frame 78716 127606560083995955240330882689808728064 s (abortWaiting s f reason) := by
  dsimp only [abortWaiting, ok]
  repeat' first
    | with_reducible assumption
    | with_reducible exact Frame.refl _ _ _
    | intro _
    | apply Eq.refl true
    | apply Eq.refl (_ : Nat)
    | with_reducible apply Frame.step (g := frame_abortSailing ..)
    | with_reducible apply Frame.ite
    | with_reducible apply Frame.mk_upd
    | (apply Or.inl; apply Eq.refl true)
    | (apply Or.inr; exact rfl)
    | (with_reducible_and_instances rfl)
    | split

theorem frame_dropHeld (s : State) (f e k : Nat) : Frame 256 0 s (dropHeld s f e k) := by
  dsimp only [dropHeld, ok]
  repeat' first
    | with_reducible assumption
    | with_reducible exact Frame.refl _ _ _
    | intro _
    | apply Eq.refl true
    | apply Eq.refl (_ : Nat)
    | with_reducible apply Frame.ite
    | with_reducible apply Frame.mk_upd
    | (apply Or.inl; apply Eq.refl true)
    | (apply Or.inr; exact rfl)
    | (with_reducible_and_instances rfl)
    | split

theorem frame_ferryAdvance (s : State) (f : Nat) : Frame 256 147573952589676412928 s (ferryAdvance s f) := by
  dsimp only [ferryAdvance, ok]
  repeat' first
    | with_reducible assumption
    | with_reducible exact Frame.refl _ _ _
    | intro _
    | apply Eq.refl true
    | apply Eq.refl (_ : Nat)
    | with_reducible apply Frame.put
    | with_reducible apply Frame.step (g := frame_dropHeld ..)
    | with_reducible apply Frame.ite
    | with_reducible apply Frame.mk_upd
    | (apply Or.inl; apply Eq.refl true)
    | (apply Or.inr; exact rfl)
    | (with_reducible_and_instances rfl)
    | split

theorem frame_abortFerry (s : State) (f reason : Nat) : Frame 78716 127606560083995955387904835279485140992 s (abortFerry s f reason) := by
  dsimp only [abortFerry, ok]
  repeat' first
    | with_reducible assumption
    | with_reducible exact Frame.refl _ _ _
    | intro _
    | apply Eq.refl true
    | apply Eq.refl (_ : Nat)
    | with_reducible apply Frame.put
    | with_reducible apply Frame.step (g := frame_abortSailing ..)
    | with_reducible apply Frame.step (g := frame_abortWaiting ..)
    | with_reducible apply Frame.step (g := frame_ferryShow ..)
    | with_reducible apply Frame.foldl
    | with_reducible apply Frame.foldl2
    | with_reducible apply Frame.ite
    | with_reducible apply Frame.mk_upd
    | (apply Or.inl; apply Eq.refl true)
    | (apply Or.inr; exact rfl)
    | (with_reducible_and_instances rfl)
    | split

theorem frame_abortFerriesOf (s : State) (c reason : Nat) : Frame 78716 127606560083995955387904835279485140992 s (abortFerriesOf s c reason) := by
  dsimp only [abortFerriesOf, ok]
  repeat' first
    | with_reducible assumption
    | with_reducible exact Frame.refl _ _ _
    | intro _
    | apply Eq.refl true
    | apply Eq.refl (_ : Nat)
    | with_reducible apply Frame.step (g := frame_abortFerry ..)
    | with_reducible apply Frame.foldl
    | with_reducible apply Frame.foldl2
    | with_reducible apply Frame.ite
    | split

end Sys2Proof.Laws
end

