-- ==== Sys2Proof/Laws/FrameContextEnd.lean ====
section
/-! SUPPORT. What each operation of Machine/ContextEnd.lean may change, as a frame (Laws/Frame.lean): the parts and registers by their bits. -/

namespace Sys2Proof.Laws

open Sys2Proof.Machine

theorem frame_setMo (s : State) (i : Nat) (m : MoRec) : Frame 8 0 s (setMo s i m) := by
  dsimp only [setMo, ok]
  repeat' first
    | with_reducible assumption
    | with_reducible exact Frame.refl _ _ _
    | intro _
    | apply Eq.refl true
    | apply Eq.refl (_ : Nat)
    | with_reducible apply Frame.ite
    | with_reducible apply Frame.mk_upd
    | (apply Or.inl; apply Eq.refl true)
    | (apply Or.inr; exact rfl)
    | (with_reducible_and_instances rfl)
    | split

theorem frame_moDrop (s : State) (i : Nat) : Frame 8 0 s (moDrop s i) := by
  dsimp only [moDrop, ok]
  repeat' first
    | with_reducible assumption
    | with_reducible exact Frame.refl _ _ _
    | intro _
    | apply Eq.refl true
    | apply Eq.refl (_ : Nat)
    | with_reducible apply Frame.step (g := frame_setMo ..)
    | with_reducible apply Frame.ite
    | with_reducible apply Frame.mk_upd
    | (apply Or.inl; apply Eq.refl true)
    | (apply Or.inr; exact rfl)
    | (with_reducible_and_instances rfl)
    | split

theorem frame_dropHolds (s : State) (holds : List Nat) : Frame 8 0 s (dropHolds s holds) := by
  dsimp only [dropHolds, ok]
  repeat' first
    | with_reducible assumption
    | with_reducible exact Frame.refl _ _ _
    | intro _
    | apply Eq.refl true
    | apply Eq.refl (_ : Nat)
    | with_reducible apply Frame.step (g := frame_moDrop ..)
    | with_reducible apply Frame.foldl
    | with_reducible apply Frame.foldl2
    | with_reducible apply Frame.ite
    | split

theorem frame_setQ (s : State) (q : Nat) (x : QRec) : Frame 8 79228162514264337593543950336 s (setQ s q x) := by
  dsimp only [setQ, ok]
  repeat' first
    | with_reducible assumption
    | with_reducible exact Frame.refl _ _ _
    | intro _
    | apply Eq.refl true
    | apply Eq.refl (_ : Nat)
    | with_reducible apply Frame.put
    | with_reducible apply Frame.ite
    | with_reducible apply Frame.mk_upd
    | (apply Or.inl; apply Eq.refl true)
    | (apply Or.inr; exact rfl)
    | (with_reducible_and_instances rfl)
    | split

theorem frame_updEntry (s : State) (q idx : Nat) (f : QEntry → QEntry) : Frame 8 79228162514264337593543950336 s (updEntry s q idx f) := by
  dsimp only [updEntry, ok]
  repeat' first
    | with_reducible assumption
    | with_reducible exact Frame.refl _ _ _
    | intro _
    | apply Eq.refl true
    | apply Eq.refl (_ : Nat)
    | with_reducible apply Frame.step (g := frame_setQ ..)
    | with_reducible apply Frame.ite
    | with_reducible apply Frame.mk_upd
    | (apply Or.inl; apply Eq.refl true)
    | (apply Or.inr; exact rfl)
    | (with_reducible_and_instances rfl)
    | split

theorem frame_qFinish (s : State) (q idx st rs : Nat) : Frame 8 79228162514264337593543950336 s (qFinish s q idx st rs) := by
  dsimp only [qFinish, ok]
  repeat' first
    | with_reducible assumption
    | with_reducible exact Frame.refl _ _ _
    | intro _
    | apply Eq.refl true
    | apply Eq.refl (_ : Nat)
    | with_reducible apply Frame.step (g := frame_updEntry ..)
    | with_reducible apply Frame.ite
    | with_reducible apply Frame.mk_upd
    | (apply Or.inl; apply Eq.refl true)
    | (apply Or.inr; exact rfl)
    | (with_reducible_and_instances rfl)
    | split

theorem frame_launchFlush (s : State) (l : Launch) : Frame 16418 41538374868278621029937709240549376 s (launchFlush s l) := by
  dsimp only [launchFlush, ok]
  repeat' first
    | with_reducible assumption
    | with_reducible exact Frame.refl _ _ _
    | intro _
    | apply Eq.refl true
    | apply Eq.refl (_ : Nat)
    | with_reducible apply Frame.step (g := frame_glFlush ..)
    | with_reducible apply Frame.foldl
    | with_reducible apply Frame.foldl2
    | with_reducible apply Frame.ite
    | split

theorem frame_launchCheck (s : State) (lid : Nat) : Frame 16442 41538454096441135294275302784499712 s (launchCheck s lid) := by
  dsimp only [launchCheck, ok]
  repeat' first
    | with_reducible assumption
    | with_reducible exact Frame.refl _ _ _
    | intro _
    | apply Eq.refl true
    | apply Eq.refl (_ : Nat)
    | with_reducible apply Frame.step (g := frame_launchFlush ..)
    | with_reducible apply Frame.step (g := frame_qFinish ..)
    | with_reducible apply Frame.ite
    | (apply Or.inl; apply Eq.refl true)
    | (apply Or.inr; exact rfl)
    | (with_reducible_and_instances rfl)
    | split
    | with_reducible apply Frame.mk_upd

theorem frame_freeCore (s : State) (core : Nat) : Frame 32 4096 s (freeCore s core) := by
  dsimp only [freeCore, ok]
  repeat' first
    | with_reducible assumption
    | with_reducible exact Frame.refl _ _ _
    | intro _
    | apply Eq.refl true
    | apply Eq.refl (_ : Nat)
    | with_reducible apply Frame.put
    | with_reducible apply Frame.step (g := frame_setFlags ..)
    | with_reducible apply Frame.ite
    | with_reducible apply Frame.mk_upd
    | (apply Or.inl; apply Eq.refl true)
    | (apply Or.inr; exact rfl)
    | (with_reducible_and_instances rfl)
    | split

theorem frame_dropBlock (s : State) (b : BlockRec) : Frame 50 144115188075859968 s (dropBlock s b) := by
  dsimp only [dropBlock, ok]
  repeat' first
    | with_reducible assumption
    | with_reducible exact Frame.refl _ _ _
    | intro _
    | apply Eq.refl true
    | apply Eq.refl (_ : Nat)
    | with_reducible apply Frame.step (g := frame_unpark ..)
    | with_reducible apply Frame.step (g := frame_freeCore ..)
    | with_reducible apply Frame.step (g := frame_showCore ..)
    | with_reducible apply Frame.ite
    | with_reducible apply Frame.mk_upd
    | (apply Or.inl; apply Eq.refl true)
    | (apply Or.inr; exact rfl)
    | (with_reducible_and_instances rfl)
    | split

theorem frame_endBlock (s : State) (b : BlockRec) : Frame 16442 41538454096441135438390490860359680 s (endBlock s b) := by
  dsimp only [endBlock, ok]
  repeat' first
    | with_reducible assumption
    | with_reducible exact Frame.refl _ _ _
    | intro _
    | apply Eq.refl true
    | apply Eq.refl (_ : Nat)
    | with_reducible apply Frame.step (g := frame_launchCheck ..)
    | with_reducible apply Frame.step (g := frame_updLaunch ..)
    | with_reducible apply Frame.step (g := frame_dropBlock ..)
    | with_reducible apply Frame.ite
    | with_reducible apply Frame.mk_upd
    | (apply Or.inl; apply Eq.refl true)
    | (apply Or.inr; exact rfl)
    | (with_reducible_and_instances rfl)
    | split

theorem frame_exitReady (s : State) (id : Nat) : Frame 16442 41538454096441135438390490860359680 s (exitReady s id) := by
  dsimp only [exitReady, ok]
  repeat' first
    | with_reducible assumption
    | with_reducible exact Frame.refl _ _ _
    | intro _
    | apply Eq.refl true
    | apply Eq.refl (_ : Nat)
    | with_reducible apply Frame.step (g := frame_endBlock ..)
    | with_reducible apply Frame.ite
    | split

theorem frame_tokenDone (s : State) (id e : Nat) : Frame 16442 41538454096441135438390490860359680 s (tokenDone s id e) := by
  dsimp only [tokenDone, ok]
  repeat' first
    | with_reducible assumption
    | with_reducible exact Frame.refl _ _ _
    | intro _
    | apply Eq.refl true
    | apply Eq.refl (_ : Nat)
    | with_reducible apply Frame.step (g := frame_exitReady ..)
    | with_reducible apply Frame.step (g := frame_produceToken ..)
    | with_reducible apply Frame.ite
    | split

theorem frame_setJobs (s : State) (js : List EngJob) : Frame 64 0 s (setJobs s js) := by
  dsimp only [setJobs, ok]
  repeat' first
    | with_reducible assumption
    | with_reducible exact Frame.refl _ _ _
    | intro _
    | apply Eq.refl true
    | apply Eq.refl (_ : Nat)
    | with_reducible apply Frame.ite
    | with_reducible apply Frame.mk_upd
    | (apply Or.inl; apply Eq.refl true)
    | (apply Or.inr; exact rfl)
    | (with_reducible_and_instances rfl)
    | split

theorem frame_updJob (s : State) (id : Nat) (f : EngJob → EngJob) : Frame 64 0 s (updJob s id f) := by
  dsimp only [updJob, ok]
  repeat' first
    | with_reducible assumption
    | with_reducible exact Frame.refl _ _ _
    | intro _
    | apply Eq.refl true
    | apply Eq.refl (_ : Nat)
    | with_reducible apply Frame.step (g := frame_setJobs ..)
    | with_reducible apply Frame.ite
    | split

theorem frame_engShow (s : State) (u : Nat) : Frame 0 576460752303423488 s (engShow s u) := by
  dsimp only [engShow, ok]
  repeat' first
    | with_reducible assumption
    | with_reducible exact Frame.refl _ _ _
    | intro _
    | apply Eq.refl true
    | apply Eq.refl (_ : Nat)
    | with_reducible apply Frame.put
    | with_reducible apply Frame.ite
    | split

theorem frame_routineBegin (s : State) (j : EngJob) : Frame 32 0 s (routineBegin s j) := by
  dsimp only [routineBegin, ok]
  repeat' first
    | with_reducible assumption
    | with_reducible exact Frame.refl _ _ _
    | intro _
    | apply Eq.refl true
    | apply Eq.refl (_ : Nat)
    | with_reducible apply Frame.step (g := frame_sramWrite ..)
    | with_reducible apply Frame.ite
    | split

theorem frame_startHead (s : State) (u : Nat) : Frame 96 576460752303423488 s (startHead s u) := by
  dsimp only [startHead, ok]
  repeat' first
    | with_reducible assumption
    | with_reducible exact Frame.refl _ _ _
    | intro _
    | apply Eq.refl true
    | apply Eq.refl (_ : Nat)
    | with_reducible apply Frame.step (g := frame_engShow ..)
    | with_reducible apply Frame.step (g := frame_routineBegin ..)
    | with_reducible apply Frame.step (g := frame_updJob ..)
    | with_reducible apply Frame.ite
    | (apply Or.inl; apply Eq.refl true)
    | (apply Or.inr; exact rfl)
    | (with_reducible_and_instances rfl)
    | split
    | with_reducible apply Frame.mk_upd

theorem frame_freeOf (s : State) (o : Origin) : Frame 32 4096 s (freeOf s o) := by
  dsimp only [freeOf, ok]
  repeat' first
    | with_reducible assumption
    | with_reducible exact Frame.refl _ _ _
    | intro _
    | apply Eq.refl true
    | apply Eq.refl (_ : Nat)
    | with_reducible apply Frame.step (g := frame_freeCore ..)
    | with_reducible apply Frame.ite
    | split

theorem frame_dropJob (s : State) (id : Nat) : Frame 98 720575940379283456 s (dropJob s id) := by
  dsimp only [dropJob, ok]
  repeat' first
    | with_reducible assumption
    | with_reducible exact Frame.refl _ _ _
    | intro _
    | apply Eq.refl true
    | apply Eq.refl (_ : Nat)
    | with_reducible apply Frame.step (g := frame_unpark ..)
    | with_reducible apply Frame.step (g := frame_setJobs ..)
    | with_reducible apply Frame.step (g := frame_startHead ..)
    | with_reducible apply Frame.step (g := frame_freeOf ..)
    | with_reducible apply Frame.ite
    | split

theorem frame_completeTo (s : State) (c : Nat) (o : Origin) (tok : Nat) (bol : Option (Nat × Nat)) (cut : Bool) : Frame 82046 41539087922345712462898554000642048 s (completeTo s c o tok bol cut) := by
  dsimp only [completeTo, ok]
  repeat' first
    | with_reducible assumption
    | with_reducible exact Frame.refl _ _ _
    | intro _
    | apply Eq.refl true
    | apply Eq.refl (_ : Nat)
    | with_reducible apply Frame.step (g := frame_qFinish ..)
    | with_reducible apply Frame.step (g := frame_tokenDone ..)
    | with_reducible apply Frame.step (g := frame_bolApply ..)
    | with_reducible apply Frame.step (g := frame_bolSend ..)
    | with_reducible apply Frame.ite
    | split

theorem frame_finishJob (s : State) (j : EngJob) (cancelled : Bool) : Frame 82046 41539087922345713039359306304065536 s (finishJob s j cancelled) := by
  dsimp only [finishJob, ok]
  repeat' first
    | with_reducible assumption
    | with_reducible exact Frame.refl _ _ _
    | intro _
    | apply Eq.refl true
    | apply Eq.refl (_ : Nat)
    | with_reducible apply Frame.step (g := frame_completeTo ..)
    | with_reducible apply Frame.step (g := frame_dropJob ..)
    | with_reducible apply Frame.ite
    | split

theorem frame_dropSegHolds (s : State) (m : SegMul) : Frame 0 9903520314283042199192993792 s (dropSegHolds s m) := by
  dsimp only [dropSegHolds, ok]
  repeat' first
    | with_reducible assumption
    | with_reducible exact Frame.refl _ _ _
    | intro _
    | apply Eq.refl true
    | apply Eq.refl (_ : Nat)
    | with_reducible apply Frame.put
    | with_reducible apply Frame.foldl
    | with_reducible apply Frame.foldl2
    | with_reducible apply Frame.ite
    | split

theorem frame_endJobs (s : State) (c : Nat) : Frame 96 9903520314859502951496421376 s (endJobs s c) := by
  dsimp only [endJobs, ok]
  repeat' first
    | with_reducible assumption
    | with_reducible exact Frame.refl _ _ _
    | intro _
    | apply Eq.refl true
    | apply Eq.refl (_ : Nat)
    | with_reducible apply Frame.step (g := frame_dropSegHolds ..)
    | with_reducible apply Frame.step (g := frame_freeCore ..)
    | with_reducible apply Frame.step (g := frame_startHead ..)
    | with_reducible apply Frame.foldl
    | with_reducible apply Frame.foldl2
    | with_reducible apply Frame.ite
    | with_reducible apply Frame.mk_upd
    | (apply Or.inl; apply Eq.refl true)
    | (apply Or.inr; exact rfl)
    | (with_reducible_and_instances rfl)
    | split

theorem frame_endEntries (s : State) (c : Nat) (own : Option (Nat × Nat × Nat × Nat)) (teardown : Bool) : Frame 8 79228162514264337593543950336 s (endEntries s c own teardown) := by
  dsimp only [endEntries, ok]
  repeat' first
    | with_reducible assumption
    | with_reducible exact Frame.refl _ _ _
    | intro _
    | apply Eq.refl true
    | apply Eq.refl (_ : Nat)
    | with_reducible apply Frame.step (g := frame_setQ ..)
    | with_reducible apply Frame.foldl
    | with_reducible apply Frame.foldl2
    | with_reducible apply Frame.ite
    | (apply Or.inl; apply Eq.refl true)
    | (apply Or.inr; exact rfl)
    | (with_reducible_and_instances rfl)
    | split
    | with_reducible apply Frame.mk_upd

theorem frame_endRunning (s : State) (c : Nat) : Frame 566 144115188075859968 s (endRunning s c) := by
  dsimp only [endRunning, ok]
  repeat' first
    | with_reducible assumption
    | with_reducible exact Frame.refl _ _ _
    | intro _
    | apply Eq.refl true
    | apply Eq.refl (_ : Nat)
    | with_reducible apply Frame.put
    | with_reducible apply Frame.step (g := frame_freeCore ..)
    | with_reducible apply Frame.step (g := frame_showCore ..)
    | with_reducible apply Frame.foldl
    | with_reducible apply Frame.foldl2
    | with_reducible apply Frame.ite
    | with_reducible apply Frame.pairIte
    | with_reducible apply Frame.mk_upd
    | (apply Or.inl; apply Eq.refl true)
    | (apply Or.inr; exact rfl)
    | (with_reducible_and_instances rfl)
    | split

theorem frame_endContext (s : State) (c : Nat) (own : Option (Nat × Nat × Nat × Nat)) (reason : Nat) : Frame 78718 127606560192934678845738875410987356160 s (endContext s c own reason) := by
  dsimp only [endContext, ok]
  repeat' first
    | with_reducible assumption
    | with_reducible exact Frame.refl _ _ _
    | intro _
    | apply Eq.refl true
    | apply Eq.refl (_ : Nat)
    | with_reducible apply Frame.put
    | with_reducible apply Frame.step (g := frame_State_setCtxRec ..)
    | with_reducible apply Frame.step (g := frame_abortFerriesOf ..)
    | with_reducible apply Frame.step (g := frame_endEntries ..)
    | with_reducible apply Frame.step (g := frame_endJobs ..)
    | with_reducible apply Frame.step (g := frame_endRunning ..)
    | with_reducible apply Frame.ite
    | with_reducible apply Frame.mk_upd
    | (apply Or.inl; apply Eq.refl true)
    | (apply Or.inr; exact rfl)
    | (with_reducible_and_instances rfl)
    | split

theorem frame_haltRecord (s : State) (c reason info : Nat) (i : Option IssuedAt) : Frame 0 62914560 s (haltRecord s c reason info i) := by
  dsimp only [haltRecord, ok]
  repeat' first
    | with_reducible assumption
    | with_reducible exact Frame.refl _ _ _
    | intro _
    | apply Eq.refl true
    | apply Eq.refl (_ : Nat)
    | with_reducible apply Frame.put
    | with_reducible apply Frame.ite
    | split

theorem frame_halt (s : State) (c reason info : Nat) (i : Option IssuedAt) (qe : Option (Nat × Nat)) : Frame 78718 127606560192934678845738875411050270720 s (halt s c reason info i qe) := by
  dsimp only [halt, ok]
  repeat' first
    | with_reducible assumption
    | with_reducible exact Frame.refl _ _ _
    | intro _
    | apply Eq.refl true
    | apply Eq.refl (_ : Nat)
    | with_reducible apply Frame.put
    | with_reducible apply Frame.step (g := frame_haltRecord ..)
    | with_reducible apply Frame.step (g := frame_post ..)
    | with_reducible apply Frame.step (g := frame_endContext ..)
    | with_reducible apply Frame.ite
    | with_reducible apply Frame.pairIte
    | split

theorem frame_haltFrom (s : State) (c : Nat) (o : Origin) (reason info : Nat) : Frame 78718 127606560192934678845738875411050270720 s (haltFrom s c o reason info) := by
  dsimp only [haltFrom, ok]
  repeat' first
    | with_reducible assumption
    | with_reducible exact Frame.refl _ _ _
    | intro _
    | apply Eq.refl true
    | apply Eq.refl (_ : Nat)
    | with_reducible apply Frame.step (g := frame_halt ..)
    | with_reducible apply Frame.ite
    | split

theorem frame_haltJob (s : State) (j : EngJob) (reason info : Nat) : Frame 78718 127606560192934678845738875411050270720 s (haltJob s j reason info) := by
  dsimp only [haltJob, ok]
  repeat' first
    | with_reducible assumption
    | with_reducible exact Frame.refl _ _ _
    | intro _
    | apply Eq.refl true
    | apply Eq.refl (_ : Nat)
    | with_reducible apply Frame.step (g := frame_haltFrom ..)
    | with_reducible apply Frame.step (g := frame_dropJob ..)
    | with_reducible apply Frame.ite
    | split

theorem frame_contained (s : State) (c unit code extra : Nat) (own : Option (Nat × Nat × Nat × Nat)) : Frame 78718 127606560192934678845738875410987356160 s (contained s c unit code extra own) := by
  dsimp only [contained, ok]
  repeat' first
    | with_reducible assumption
    | with_reducible exact Frame.refl _ _ _
    | intro _
    | apply Eq.refl true
    | apply Eq.refl (_ : Nat)
    | with_reducible apply Frame.step (g := frame_endContext ..)
    | with_reducible apply Frame.step (g := frame_post ..)
    | with_reducible apply Frame.ite
    | split

theorem frame_hostPathLost (s : State) (c addr : Nat) (own : Option (Nat × Nat)) : Frame 78718 127606600757753886149079723305489928192 s (hostPathLost s c addr own) := by
  dsimp only [hostPathLost, ok]
  repeat' first
    | with_reducible assumption
    | with_reducible exact Frame.refl _ _ _
    | intro _
    | apply Eq.refl true
    | apply Eq.refl (_ : Nat)
    | with_reducible apply Frame.put
    | with_reducible apply Frame.bumpSat
    | with_reducible apply Frame.step (g := frame_contained ..)
    | with_reducible apply Frame.ite
    | with_reducible apply Frame.pairIte
    | split

theorem frame_resetSailings (s : State) (reason : Nat) : Frame 78716 127606560083995955387904835279485140992 s (resetSailings s reason) := by
  dsimp only [resetSailings, ok]
  repeat' first
    | with_reducible assumption
    | with_reducible exact Frame.refl _ _ _
    | intro _
    | apply Eq.refl true
    | apply Eq.refl (_ : Nat)
    | with_reducible apply Frame.step (g := frame_fabSend ..)
    | with_reducible apply Frame.step (g := frame_abortFerry ..)
    | with_reducible apply Frame.foldl
    | with_reducible apply Frame.foldl2
    | with_reducible apply Frame.ite
    | split

theorem frame_deviceFatal (s : State) (unit code extra : Nat) : Frame 78718 127606600757756304000718952563839340544 s (deviceFatal s unit code extra) := by
  dsimp only [deviceFatal, ok]
  repeat' first
    | with_reducible assumption
    | with_reducible exact Frame.refl _ _ _
    | intro _
    | apply Eq.refl true
    | apply Eq.refl (_ : Nat)
    | with_reducible apply Frame.put
    | with_reducible apply Frame.step (g := frame_resetSailings ..)
    | with_reducible apply Frame.step (g := frame_endContext ..)
    | with_reducible apply Frame.step (g := frame_post ..)
    | with_reducible apply Frame.step (g := frame_signalIf ..)
    | with_reducible apply Frame.foldl
    | with_reducible apply Frame.foldl2
    | with_reducible apply Frame.ite
    | split

end Sys2Proof.Laws
end

