-- ==== Sys2Proof/Laws/FrameCensus.lean ====
section
/-! SUPPORT. What each operation of Machine/Census.lean may change, as a frame (Laws/Frame.lean): the parts and registers by their bits. -/

namespace Sys2Proof.Laws

open Sys2Proof.Machine

theorem frame_physRead (s : State) (pa n : Nat) : Frame 94214 127648098458863623495492909487540404224 s (physRead s pa n).2 := by
  dsimp only [physRead, ok]
  repeat' first
    | with_reducible assumption
    | with_reducible exact Frame.refl _ _ _
    | intro _
    | apply Eq.refl true
    | apply Eq.refl (_ : Nat)
    | with_reducible apply Frame.step (g := frame_limitRefused ..)
    | with_reducible apply Frame.step (g := frame_devRead ..)
    | with_reducible apply Frame.eqSnd (e := by assumption)
    | with_reducible apply Frame.ite
    | with_reducible apply Frame.pairIte
    | split

theorem frame_censusCheck (s : State) (c h : Nat) : Frame 94214 127648098458863623495492909487540404224 s (censusCheck s c h).2 := by
  dsimp only [censusCheck, ok]
  repeat' first
    | with_reducible assumption
    | with_reducible exact Frame.refl _ _ _
    | intro _
    | apply Eq.refl true
    | apply Eq.refl (_ : Nat)
    | with_reducible apply Frame.step (g := frame_physRead ..)
    | with_reducible apply Frame.eqSnd (e := by assumption)
    | with_reducible apply Frame.ite
    | with_reducible apply Frame.pairIte
    | split

theorem frame_censusCheckOpt (s : State) (c : Nat) (h : Option Nat) : Frame 94214 127648098458863623495492909487540404224 s (censusCheckOpt s c h).2 := by
  dsimp only [censusCheckOpt, ok]
  repeat' first
    | with_reducible assumption
    | with_reducible exact Frame.refl _ _ _
    | intro _
    | apply Eq.refl true
    | apply Eq.refl (_ : Nat)
    | with_reducible apply Frame.step (g := frame_censusCheck ..)
    | with_reducible apply Frame.eqSnd (e := by assumption)
    | with_reducible apply Frame.ite
    | with_reducible apply Frame.pairIte
    | split

theorem frame_censusNow (s : State) (h nans pinf ninf : Nat) : Frame 0 8 s (censusNow s h nans pinf ninf) := by
  dsimp only [censusNow, ok]
  repeat' first
    | with_reducible assumption
    | with_reducible exact Frame.refl _ _ _
    | intro _
    | apply Eq.refl true
    | apply Eq.refl (_ : Nat)
    | with_reducible apply Frame.put
    | with_reducible apply Frame.ite
    | split

theorem frame_censusAdd (s : State) (h nans pinf ninf : Nat) : Frame 64 8 s (censusAdd s h nans pinf ninf) := by
  dsimp only [censusAdd, ok]
  repeat' first
    | with_reducible assumption
    | with_reducible exact Frame.refl _ _ _
    | intro _
    | apply Eq.refl true
    | apply Eq.refl (_ : Nat)
    | with_reducible apply Frame.step (g := frame_censusNow ..)
    | with_reducible apply Frame.ite
    | with_reducible apply Frame.mk_upd
    | (apply Or.inl; apply Eq.refl true)
    | (apply Or.inr; exact rfl)
    | (with_reducible_and_instances rfl)
    | split

theorem frame_censusApply (s : State) (l : List CensusInc) : Frame 0 8 s (censusApply s l) := by
  dsimp only [censusApply, ok]
  repeat' first
    | with_reducible assumption
    | with_reducible exact Frame.refl _ _ _
    | intro _
    | apply Eq.refl true
    | apply Eq.refl (_ : Nat)
    | with_reducible apply Frame.step (g := frame_censusNow ..)
    | with_reducible apply Frame.foldl
    | with_reducible apply Frame.foldl2
    | with_reducible apply Frame.ite
    | split

theorem frame_censusHold (s : State) : Frame 64 0 s (censusHold s) := by
  dsimp only [censusHold, ok]
  repeat' first
    | with_reducible assumption
    | with_reducible exact Frame.refl _ _ _
    | intro _
    | apply Eq.refl true
    | apply Eq.refl (_ : Nat)
    | with_reducible apply Frame.ite
    | with_reducible apply Frame.mk_upd
    | (apply Or.inl; apply Eq.refl true)
    | (apply Or.inr; exact rfl)
    | (with_reducible_and_instances rfl)
    | split

theorem frame_censusTake (s : State) : Frame 64 0 s (censusTake s).2 := by
  dsimp only [censusTake, ok]
  repeat' first
    | with_reducible assumption
    | with_reducible exact Frame.refl _ _ _
    | intro _
    | apply Eq.refl true
    | apply Eq.refl (_ : Nat)
    | with_reducible apply Frame.ite
    | with_reducible apply Frame.pairIte
    | with_reducible apply Frame.mk_upd
    | (apply Or.inl; apply Eq.refl true)
    | (apply Or.inr; exact rfl)
    | (with_reducible_and_instances rfl)
    | split

theorem frame_censusCodes (s : State) (h : Nat) (e : Elem) (codes : List Nat) : Frame 64 8 s (censusCodes s h e codes) := by
  dsimp only [censusCodes, ok]
  repeat' first
    | with_reducible assumption
    | with_reducible exact Frame.refl _ _ _
    | intro _
    | apply Eq.refl true
    | apply Eq.refl (_ : Nat)
    | with_reducible apply Frame.step (g := frame_censusAdd ..)
    | with_reducible apply Frame.ite
    | with_reducible apply Frame.pairIte
    | split

theorem frame_censusCodesOpt (s : State) (h : Option Nat) (e : Elem) (codes : List Nat) : Frame 64 8 s (censusCodesOpt s h e codes) := by
  dsimp only [censusCodesOpt, ok]
  repeat' first
    | with_reducible assumption
    | with_reducible exact Frame.refl _ _ _
    | intro _
    | apply Eq.refl true
    | apply Eq.refl (_ : Nat)
    | with_reducible apply Frame.step (g := frame_censusCodes ..)
    | with_reducible apply Frame.ite
    | split

end Sys2Proof.Laws
end

