-- ==== Sys2Proof/Laws/FrameDomains.lean ====
section
/-! SUPPORT. What each operation of Machine/Domains.lean may change, as a frame (Laws/Frame.lean): the parts and registers by their bits. -/

namespace Sys2Proof.Laws

open Sys2Proof.Machine

theorem frame_setPortState (s : State) (p st : Nat) : Frame 0 12089258196146291747061760 s (setPortState s p st) := by
  dsimp only [setPortState, ok]
  repeat' first
    | with_reducible assumption
    | with_reducible exact Frame.refl _ _ _
    | intro _
    | apply Eq.refl true
    | apply Eq.refl (_ : Nat)
    | with_reducible apply Frame.put
    | with_reducible apply Frame.ite
    | split

theorem frame_setLanes (s : State) (p lanes : Nat) : Frame 0 9671406556917033397649408 s (setLanes s p lanes) := by
  dsimp only [setLanes, ok]
  repeat' first
    | with_reducible assumption
    | with_reducible exact Frame.refl _ _ _
    | intro _
    | apply Eq.refl true
    | apply Eq.refl (_ : Nat)
    | with_reducible apply Frame.put
    | with_reducible apply Frame.ite
    | split

theorem frame_peerWriteLost (s : State) (x : PeerReq) : Frame 78718 127606560192934678845738875410987356160 s (peerWriteLost s x) := by
  dsimp only [peerWriteLost, ok]
  repeat' first
    | with_reducible assumption
    | with_reducible exact Frame.refl _ _ _
    | intro _
    | apply Eq.refl true
    | apply Eq.refl (_ : Nat)
    | with_reducible apply Frame.step (g := frame_contained ..)
    | with_reducible apply Frame.ite
    | with_reducible apply Frame.mk_upd
    | (apply Or.inl; apply Eq.refl true)
    | (apply Or.inr; exact rfl)
    | (with_reducible_and_instances rfl)
    | split

theorem frame_packetLost (p : Nat) (s : State) (k : SentPkt) : Frame 78718 127606560192934678845738875410987356160 s (packetLost p s k) := by
  dsimp only [packetLost, ok]
  repeat' first
    | with_reducible assumption
    | with_reducible exact Frame.refl _ _ _
    | intro _
    | apply Eq.refl true
    | apply Eq.refl (_ : Nat)
    | with_reducible apply Frame.step (g := frame_peerWriteLost ..)
    | with_reducible apply Frame.step (g := frame_runLost ..)
    | with_reducible apply Frame.ite
    | split

theorem frame_losePackets (s : State) (p : Nat) : Frame 78718 127606560192934678845738875410987356160 s (losePackets s p) := by
  dsimp only [losePackets, ok]
  repeat' first
    | with_reducible assumption
    | with_reducible exact Frame.refl _ _ _
    | intro _
    | apply Eq.refl true
    | apply Eq.refl (_ : Nat)
    | with_reducible apply Frame.step (g := frame_packetLost ..)
    | with_reducible apply Frame.step (g := frame_setPort ..)
    | with_reducible apply Frame.foldl
    | with_reducible apply Frame.foldl2
    | with_reducible apply Frame.ite
    | with_reducible apply Frame.mk_upd
    | (apply Or.inl; apply Eq.refl true)
    | (apply Or.inr; exact rfl)
    | (with_reducible_and_instances rfl)
    | split

theorem frame_resumePkt (p : Nat) (s : State) (k : SentPkt) : Frame 78718 127606560192934678845738875410987356160 s (resumePkt p s k) := by
  dsimp only [resumePkt, ok]
  repeat' first
    | with_reducible assumption
    | with_reducible exact Frame.refl _ _ _
    | intro _
    | apply Eq.refl true
    | apply Eq.refl (_ : Nat)
    | with_reducible apply Frame.step (g := frame_packetLost ..)
    | with_reducible apply Frame.step (g := frame_fabSend ..)
    | with_reducible apply Frame.ite
    | split

theorem frame_resumeHeld (s : State) (p : Nat) : Frame 78718 127606560192934678845738875410987356160 s (resumeHeld s p) := by
  dsimp only [resumeHeld, ok]
  repeat' first
    | with_reducible assumption
    | with_reducible exact Frame.refl _ _ _
    | intro _
    | apply Eq.refl true
    | apply Eq.refl (_ : Nat)
    | with_reducible apply Frame.step (g := frame_resumePkt ..)
    | with_reducible apply Frame.foldl
    | with_reducible apply Frame.foldl2
    | with_reducible apply Frame.ite
    | with_reducible apply Frame.mk_upd
    | (apply Or.inl; apply Eq.refl true)
    | (apply Or.inr; exact rfl)
    | (with_reducible_and_instances rfl)
    | split

theorem frame_restLink (s : State) (p : Nat) : Frame 512 0 s (restLink s p) := by
  dsimp only [restLink, ok]
  repeat' first
    | with_reducible assumption
    | with_reducible exact Frame.refl _ _ _
    | intro _
    | apply Eq.refl true
    | apply Eq.refl (_ : Nat)
    | with_reducible apply Frame.step (g := frame_setPort ..)
    | with_reducible apply Frame.foldl
    | with_reducible apply Frame.foldl2
    | with_reducible apply Frame.ite
    | with_reducible apply Frame.mk_upd
    | (apply Or.inl; apply Eq.refl true)
    | (apply Or.inr; exact rfl)
    | (with_reducible_and_instances rfl)
    | split

theorem frame_portDown (s : State) (p : Nat) : Frame 78718 127606560192946768103935021702734417920 s (portDown s p) := by
  dsimp only [portDown, ok]
  repeat' first
    | with_reducible assumption
    | with_reducible exact Frame.refl _ _ _
    | intro _
    | apply Eq.refl true
    | apply Eq.refl (_ : Nat)
    | with_reducible apply Frame.step (g := frame_setLanes ..)
    | with_reducible apply Frame.step (g := frame_setPortState ..)
    | with_reducible apply Frame.step (g := frame_resumeHeld ..)
    | with_reducible apply Frame.step (g := frame_losePackets ..)
    | with_reducible apply Frame.step (g := frame_restLink ..)
    | with_reducible apply Frame.ite
    | split

theorem frame_retainCore (s : State) (core : Nat) : Frame 16418 41538374868278621029937709240549376 s (retainCore s core) := by
  dsimp only [retainCore, ok]
  repeat' first
    | with_reducible assumption
    | with_reducible exact Frame.refl _ _ _
    | intro _
    | apply Eq.refl true
    | apply Eq.refl (_ : Nat)
    | with_reducible apply Frame.step (g := frame_writeBackRow ..)
    | with_reducible apply Frame.step (g := frame_glInvalidate ..)
    | with_reducible apply Frame.step (g := frame_glFlush ..)
    | with_reducible apply Frame.step (g := frame_resetVictim ..)
    | with_reducible apply Frame.foldl
    | with_reducible apply Frame.foldl2
    | with_reducible apply Frame.ite
    | with_reducible apply Frame.pairIte
    | with_reducible apply Frame.mk_upd
    | (apply Or.inl; apply Eq.refl true)
    | (apply Or.inr; exact rfl)
    | (with_reducible_and_instances rfl)
    | split

theorem frame_unbind (s : State) (core : Nat) : Frame 0 4096 s (unbind s core) := by
  dsimp only [unbind, ok]
  repeat' first
    | with_reducible assumption
    | with_reducible exact Frame.refl _ _ _
    | intro _
    | apply Eq.refl true
    | apply Eq.refl (_ : Nat)
    | with_reducible apply Frame.put
    | with_reducible apply Frame.ite
    | split

theorem frame_loseCore (s : State) (core : Nat) : Frame 32 1073745920 s (loseCore s core) := by
  dsimp only [loseCore, ok]
  repeat' first
    | with_reducible assumption
    | with_reducible exact Frame.refl _ _ _
    | intro _
    | apply Eq.refl true
    | apply Eq.refl (_ : Nat)
    | with_reducible apply Frame.step (g := frame_clearCore ..)
    | with_reducible apply Frame.step (g := frame_setGl ..)
    | with_reducible apply Frame.step (g := frame_unbind ..)
    | with_reducible apply Frame.step (g := frame_setFlags ..)
    | with_reducible apply Frame.ite
    | with_reducible apply Frame.mk_upd
    | (apply Or.inl; apply Eq.refl true)
    | (apply Or.inr; exact rfl)
    | (with_reducible_and_instances rfl)
    | split

theorem frame_loseSlice (s : State) (n : Nat) : Frame 2 4398046511104 s (loseSlice s n) := by
  dsimp only [loseSlice, ok]
  repeat' first
    | with_reducible assumption
    | with_reducible exact Frame.refl _ _ _
    | intro _
    | apply Eq.refl true
    | apply Eq.refl (_ : Nat)
    | with_reducible apply Frame.step (g := frame_setCavern ..)
    | with_reducible apply Frame.ite
    | split

theorem frame_drainSlice (s : State) (n : Nat) : Frame 2 41538374868278621029937218540535808 s (drainSlice s n) := by
  dsimp only [drainSlice, ok]
  repeat' first
    | with_reducible assumption
    | with_reducible exact Frame.refl _ _ _
    | intro _
    | apply Eq.refl true
    | apply Eq.refl (_ : Nat)
    | with_reducible apply Frame.step (g := frame_cavEvict ..)
    | with_reducible apply Frame.foldl
    | with_reducible apply Frame.foldl2
    | with_reducible apply Frame.ite
    | split

theorem frame_dropRetunes (s : State) (gone : Nat → Nat → Bool) : Frame 512 0 s (dropRetunes s gone) := by
  dsimp only [dropRetunes, ok]
  repeat' first
    | with_reducible assumption
    | with_reducible exact Frame.refl _ _ _
    | intro _
    | apply Eq.refl true
    | apply Eq.refl (_ : Nat)
    | with_reducible apply Frame.ite
    | with_reducible apply Frame.pairIte
    | with_reducible apply Frame.mk_upd
    | (apply Or.inl; apply Eq.refl true)
    | (apply Or.inr; exact rfl)
    | (with_reducible_and_instances rfl)
    | split

theorem frame_domainLost (s : State) (d : Nat) : Frame 78718 127606560192946768103935026101854670848 s (domainLost s d) := by
  dsimp only [domainLost, ok]
  repeat' first
    | with_reducible assumption
    | with_reducible exact Frame.refl _ _ _
    | intro _
    | apply Eq.refl true
    | apply Eq.refl (_ : Nat)
    | with_reducible apply Frame.step (g := frame_loseCore ..)
    | with_reducible apply Frame.step (g := frame_loseSlice ..)
    | with_reducible apply Frame.step (g := frame_dropRetunes ..)
    | with_reducible apply Frame.step (g := frame_portDown ..)
    | with_reducible apply Frame.foldl
    | with_reducible apply Frame.foldl2
    | with_reducible apply Frame.ite
    | split

theorem frame_setDomain (s : State) (d st : Nat) : Frame 0 41538374868278621028243970633760768 s (setDomain s d st) := by
  dsimp only [setDomain, ok]
  repeat' first
    | with_reducible assumption
    | with_reducible exact Frame.refl _ _ _
    | intro _
    | apply Eq.refl true
    | apply Eq.refl (_ : Nat)
    | with_reducible apply Frame.put
    | with_reducible apply Frame.ite
    | split

theorem frame_domainOff (s : State) (d : Nat) : Frame 78718 127648098567815046724963270072488431616 s (domainOff s d) := by
  dsimp only [domainOff, ok]
  repeat' first
    | with_reducible assumption
    | with_reducible exact Frame.refl _ _ _
    | intro _
    | apply Eq.refl true
    | apply Eq.refl (_ : Nat)
    | with_reducible apply Frame.step (g := frame_domainLost ..)
    | with_reducible apply Frame.step (g := frame_setDomain ..)
    | with_reducible apply Frame.ite
    | split

theorem frame_powerOff (s : State) (n : Nat) : Frame 78718 127648098567815046724963270072488431616 s (powerOff s n) := by
  dsimp only [powerOff, ok]
  repeat' first
    | with_reducible assumption
    | with_reducible exact Frame.refl _ _ _
    | intro _
    | apply Eq.refl true
    | apply Eq.refl (_ : Nat)
    | with_reducible apply Frame.step (g := frame_domainOff ..)
    | with_reducible apply Frame.foldl
    | with_reducible apply Frame.foldl2
    | with_reducible apply Frame.ite
    | split

theorem frame_histStop (s : State) (code : Nat) : Frame 4096 649037107316853453566312041152512 s (histStop s code) := by
  dsimp only [histStop, ok]
  repeat' first
    | with_reducible assumption
    | with_reducible exact Frame.refl _ _ _
    | intro _
    | apply Eq.refl true
    | apply Eq.refl (_ : Nat)
    | with_reducible apply Frame.step (g := frame_histAdd ..)
    | with_reducible apply Frame.ite
    | with_reducible apply Frame.mk_upd
    | (apply Or.inl; apply Eq.refl true)
    | (apply Or.inr; exact rfl)
    | (with_reducible_and_instances rfl)
    | split

theorem frame_clearAttempts (s : State) : Frame 0 1947111321950560360698936123457536 s (clearAttempts s) := by
  dsimp only [clearAttempts, ok]
  repeat' first
    | with_reducible assumption
    | with_reducible exact Frame.refl _ _ _
    | intro _
    | apply Eq.refl true
    | apply Eq.refl (_ : Nat)
    | with_reducible apply Frame.put
    | with_reducible apply Frame.step (g := frame_bankChange ..)
    | with_reducible apply Frame.ite
    | split

theorem frame_startStop (s : State) (code : Nat) : Frame 81790 127649518336487302341892946380078452736 s (startStop s code) := by
  dsimp only [startStop, ok]
  repeat' first
    | with_reducible assumption
    | with_reducible exact Frame.refl _ _ _
    | intro _
    | apply Eq.refl true
    | apply Eq.refl (_ : Nat)
    | with_reducible apply Frame.put
    | with_reducible apply Frame.step (g := frame_powerOff ..)
    | with_reducible apply Frame.step (g := frame_clearAttempts ..)
    | with_reducible apply Frame.step (g := frame_histStop ..)
    | with_reducible apply Frame.ite
    | with_reducible apply Frame.mk_upd
    | (apply Or.inl; apply Eq.refl true)
    | (apply Or.inr; exact rfl)
    | (with_reducible_and_instances rfl)
    | split

theorem frame_fatal (s : State) (unit code extra : Nat) : Frame 81790 127649518336487302341892946380078452736 s (fatal s unit code extra) := by
  dsimp only [fatal, ok]
  repeat' first
    | with_reducible assumption
    | with_reducible exact Frame.refl _ _ _
    | intro _
    | apply Eq.refl true
    | apply Eq.refl (_ : Nat)
    | with_reducible apply Frame.step (g := frame_startStop ..)
    | with_reducible apply Frame.step (g := frame_post ..)
    | with_reducible apply Frame.step (g := frame_deviceFatal ..)
    | with_reducible apply Frame.ite
    | split

end Sys2Proof.Laws
end

