-- ==== Sys2Proof/Laws/FrameFetch.lean ====
section
/-! SUPPORT. What each operation of Machine/Fetch.lean may change, as a frame (Laws/Frame.lean): the parts and registers by their bits. -/

namespace Sys2Proof.Laws

open Sys2Proof.Machine

theorem frame_haltTh (s : State) (t : Th) (reason info : Nat) : Frame 78718 127606560192934678845738875411050270720 s (haltTh s t reason info) := by
  dsimp only [haltTh, ok]
  repeat' first
    | with_reducible assumption
    | with_reducible exact Frame.refl _ _ _
    | intro _
    | apply Eq.refl true
    | apply Eq.refl (_ : Nat)
    | with_reducible apply Frame.step (g := frame_halt ..)
    | with_reducible apply Frame.ite
    | split

theorem frame_goTo (s : State) (t : Th) (pc : Nat) : Frame 16 0 s (goTo s t pc) := by
  dsimp only [goTo, ok]
  repeat' first
    | with_reducible assumption
    | with_reducible exact Frame.refl _ _ _
    | intro _
    | apply Eq.refl true
    | apply Eq.refl (_ : Nat)
    | with_reducible apply Frame.step (g := frame_updFrag ..)
    | with_reducible apply Frame.ite
    | with_reducible apply Frame.mk_upd
    | (apply Or.inl; apply Eq.refl true)
    | (apply Or.inr; exact rfl)
    | (with_reducible_and_instances rfl)
    | split

theorem frame_waitAt (s : State) (t : Th) (pc : Nat) (w : FragWait) (park : Bool) : Frame 16 0 s (waitAt s t pc w park) := by
  dsimp only [waitAt, ok]
  repeat' first
    | with_reducible assumption
    | with_reducible exact Frame.refl _ _ _
    | intro _
    | apply Eq.refl true
    | apply Eq.refl (_ : Nat)
    | with_reducible apply Frame.step (g := frame_updFrag ..)
    | with_reducible apply Frame.ite
    | with_reducible apply Frame.mk_upd
    | (apply Or.inl; apply Eq.refl true)
    | (apply Or.inr; exact rfl)
    | (with_reducible_and_instances rfl)
    | split

theorem frame_parkTh (s : State) (t : Th) (sg ca : Nat) : Frame 77846 127606560083995344874607086976039387136 s (parkTh s t sg ca) := by
  dsimp only [parkTh, ok]
  repeat' first
    | with_reducible assumption
    | with_reducible exact Frame.refl _ _ _
    | intro _
    | apply Eq.refl true
    | apply Eq.refl (_ : Nat)
    | with_reducible apply Frame.step (g := frame_waitAt ..)
    | with_reducible apply Frame.step (g := frame_segFault ..)
    | with_reducible apply Frame.ite
    | split

theorem frame_roLine (s : State) (core c kind ca : Nat) (need : Need) : ∀ p b t, roLine s core c kind ca need = .ok p b t → Frame 95102 127648098567802957466768813110628192256 s t := by
  intro p b u h
  dsimp only [roLine] at h
  split at h
  · cases h
  · cases h
  · split at h
    · cases h; exact (frame_roTouch ..).mono rfl rfl
    · cases h
      exact Frame.step (g := frame_roFill ..) ((Frame.refl _ _ s).step (frame_devRead ..) rfl rfl) rfl rfl

theorem frame_notIssued (s : State) (t : Th) : Frame 0 8192 s (notIssued s t) := by
  dsimp only [notIssued, ok]
  repeat' first
    | with_reducible assumption
    | with_reducible exact Frame.refl _ _ _
    | intro _
    | apply Eq.refl true
    | apply Eq.refl (_ : Nat)
    | with_reducible apply Frame.bump
    | with_reducible apply Frame.ite
    | split

theorem frame_touchAll (s : State) (t : Th) (l : List Src) : Frame 32 0 s (touchAll s t l) := by
  dsimp only [touchAll, ok]
  repeat' first
    | with_reducible assumption
    | with_reducible exact Frame.refl _ _ _
    | intro _
    | apply Eq.refl true
    | apply Eq.refl (_ : Nat)
    | with_reducible apply Frame.step (g := frame_regTouch ..)
    | with_reducible apply Frame.foldl
    | with_reducible apply Frame.foldl2
    | with_reducible apply Frame.ite
    | split

variable {ps rs : Nat} {s0 s : State}

theorem Frame.fetch {t : Th} {k : State → State} (h : Frame ps rs s0 s) (hp : 95102 ||| ps = ps) (hr : 127648098567802957466768813110628192256 ||| rs = rs)
    (hk : ∀ u, Frame ps rs s0 u → Frame ps rs s0 (k u)) : Frame ps rs s0 (fetch s t k) := by
  have w {u : State} (x : Frame 95102 127648098567802957466768813110628192256 s u) : Frame ps rs s0 u := h.step x hp hr
  dsimp only [Machine.fetch]
  refine .ite (fun _ => w ((frame_haltTh ..).mono rfl rfl)) (fun _ => ?_)
  split
  · exact w ((frame_haltTh ..).mono rfl rfl)
  · exact w ((frame_parkTh ..).mono rfl rfl)
  · rename_i e
    have g := w ((frame_roLine _ _ _ _ _ _ _ _ _ e).mono rfl rfl)
    exact .ite (fun _ => w (Frame.step (g := frame_haltTh ..) ((frame_roLine _ _ _ _ _ _ _ _ _ e).mono rfl rfl) rfl rfl)) (fun _ => hk _ g)

theorem FrameO.instr {a : At} {uses : Uses} {k : Th → State → State} (h : Frame ps rs s0 s)
    (hp : 95102 ||| ps = ps) (hr : 127648098567802957466768813110628192256 ||| rs = rs) (hi : rs.testBit RegId.corePipeIssued.ctorIdx = true)
    (hk : ∀ t u, Frame ps rs s0 u → Frame ps rs s0 (k t u)) : FrameO ps rs s0 (instr s a uses k) := by
  dsimp only [Machine.instr]
  refine .ite (fun _ => ?_) (fun _ => .fault)
  split
  · exact .next h
  · exact .next (Frame.fetch (h.bump hi) hp hr (hk _))

theorem FrameO.instrNext {a : At} {uses : Uses} {k : Th → State → State} (h : Frame ps rs s0 s)
    (hp : 95102 ||| ps = ps) (hr : 127648098567802957466768813110628192256 ||| rs = rs) (hi : rs.testBit RegId.corePipeIssued.ctorIdx = true) (hg : 16 ||| ps = ps)
    (hk : ∀ t u, Frame ps rs s0 u → Frame ps rs s0 (k t u)) : FrameO ps rs s0 (instrNext s a uses k) :=
  FrameO.instr h hp hr hi (fun t u x => Frame.step (g := (frame_goTo ..).mono rfl rfl) (hk t u x) hg (Nat.zero_or _))

end Sys2Proof.Laws
end

