-- ==== Sys2Proof/Laws/FrameIssue.lean ====
section
/-! SUPPORT. What each operation of Machine/Issue.lean may change, as a frame (Laws/Frame.lean): the parts and registers by their bits. -/

namespace Sys2Proof.Laws

open Sys2Proof.Machine

theorem frame_wakeSpace (s : State) (core : Nat) : Frame 48 0 s (wakeSpace s core) := by
  dsimp only [wakeSpace, ok]
  repeat' first
    | with_reducible assumption
    | with_reducible exact Frame.refl _ _ _
    | intro _
    | apply Eq.refl true
    | apply Eq.refl (_ : Nat)
    | with_reducible apply Frame.step (g := frame_wakeBlock ..)
    | with_reducible apply Frame.foldl
    | with_reducible apply Frame.foldl2
    | with_reducible apply Frame.ite
    | split

theorem frame_acceptOp (s : State) (t : Th) (iss : Issue) (unit : Nat) (job : Job) (acc : Bool) : Frame 77884 127606560083995344874462971787963531264 s (acceptOp s t iss unit job acc) := by
  dsimp only [acceptOp, ok]
  repeat' first
    | with_reducible assumption
    | with_reducible exact Frame.refl _ _ _
    | intro _
    | apply Eq.refl true
    | apply Eq.refl (_ : Nat)
    | with_reducible apply Frame.step (g := frame_post ..)
    | with_reducible apply Frame.step (g := frame_updBlock ..)
    | with_reducible apply Frame.step (g := frame_wakeBlock ..)
    | with_reducible apply Frame.ite
    | with_reducible apply Frame.mk_upd
    | (apply Or.inl; apply Eq.refl true)
    | (apply Or.inr; exact rfl)
    | (with_reducible_and_instances rfl)
    | split

theorem frame_issueTo (s : State) (t : Th) (iss : Issue) (unit : Nat) (job : Job) (acc : Bool) : Frame 77884 127606560083995344874462971787963539456 s (issueTo s t iss unit job acc) := by
  dsimp only [issueTo, ok]
  repeat' first
    | with_reducible assumption
    | with_reducible exact Frame.refl _ _ _
    | intro _
    | apply Eq.refl true
    | apply Eq.refl (_ : Nat)
    | with_reducible apply Frame.step (g := frame_waitAt ..)
    | with_reducible apply Frame.step (g := frame_notIssued ..)
    | with_reducible apply Frame.step (g := frame_goTo ..)
    | with_reducible apply Frame.step (g := frame_acceptOp ..)
    | with_reducible apply Frame.ite
    | split

theorem frame_opGrant (s : State) (o : BufOp) : Frame 16 0 s (opGrant s o) := by
  dsimp only [opGrant, ok]
  repeat' first
    | with_reducible assumption
    | with_reducible exact Frame.refl _ _ _
    | intro _
    | apply Eq.refl true
    | apply Eq.refl (_ : Nat)
    | with_reducible apply Frame.ite
    | with_reducible apply Frame.mk_upd
    | (apply Or.inl; apply Eq.refl true)
    | (apply Or.inr; exact rfl)
    | (with_reducible_and_instances rfl)
    | split

theorem frame_ungate (s : State) (u : Nat) : Frame 0 41538374868278621028243970633760768 s (ungate s u) := by
  dsimp only [ungate, ok]
  repeat' first
    | with_reducible assumption
    | with_reducible exact Frame.refl _ _ _
    | intro _
    | apply Eq.refl true
    | apply Eq.refl (_ : Nat)
    | with_reducible apply Frame.step (g := frame_State_restart ..)
    | with_reducible apply Frame.ite
    | split

theorem frame_execTokenWait (at_ : At) (entries : List Nat) (s : State) : FrameO 95102 127648098567802957466768813110628200448 s (execTokenWait at_ entries s) := by
  dsimp only [execTokenWait, ok]
  repeat' first
    | with_reducible assumption
    | with_reducible exact Frame.refl _ _ _
    | intro _
    | apply Eq.refl true
    | apply Eq.refl (_ : Nat)
    | exact FrameO.fault
    | with_reducible apply FrameO.next
    | with_reducible apply Frame.step (g := frame_goTo ..)
    | with_reducible apply Frame.step (g := frame_acquireWide ..)
    | with_reducible apply Frame.step (g := frame_waitAt ..)
    | with_reducible apply FrameO.instr
    | with_reducible apply Frame.ite
    | with_reducible apply FrameO.ite
    | split

theorem frame_execTokenPost (at_ : At) (ferry gate : Nat) (waits : List Nat) (s : State) : FrameO 95102 127648098567802957466768813110628200448 s (execTokenPost at_ ferry gate waits s) := by
  dsimp only [execTokenPost, ok]
  repeat' first
    | with_reducible assumption
    | with_reducible exact Frame.refl _ _ _
    | intro _
    | apply Eq.refl true
    | apply Eq.refl (_ : Nat)
    | exact FrameO.fault
    | with_reducible apply FrameO.next
    | with_reducible apply Frame.step (g := frame_haltTh ..)
    | with_reducible apply Frame.step (g := frame_issueTo ..)
    | with_reducible apply Frame.step (g := frame_post ..)
    | with_reducible apply FrameO.instr
    | with_reducible apply Frame.ite
    | with_reducible apply FrameO.ite
    | split

theorem frame_execTokenWatchdog (block : Nat) (s : State) : FrameO 78718 127606560192934678845738875411050270720 s (execTokenWatchdog block s) := by
  dsimp only [execTokenWatchdog, ok]
  repeat' first
    | with_reducible assumption
    | with_reducible exact Frame.refl _ _ _
    | intro _
    | apply Eq.refl true
    | apply Eq.refl (_ : Nat)
    | exact FrameO.fault
    | with_reducible apply FrameO.next
    | with_reducible apply Frame.step (g := frame_halt ..)
    | with_reducible apply Frame.ite
    | with_reducible apply FrameO.ite
    | split

end Sys2Proof.Laws
end

