-- ==== Sys2Proof/Laws/FrameEngine.lean ====
section
/-! SUPPORT. What each operation of Machine/Engine.lean may change, as a frame (Laws/Frame.lean): the parts and registers by their bits. -/

namespace Sys2Proof.Laws

open Sys2Proof.Machine

theorem frame_placeOf (c ca n : Nat) (need : Need) (tgts : List Nat) (s : State) : FrameR 78718 127606560192934678845738875411050270720 s (placeOf c ca n need tgts s) := by
  dsimp only [placeOf, ok]
  repeat' first
    | with_reducible assumption
    | with_reducible exact Frame.refl _ _ _
    | intro _
    | apply Eq.refl true
    | apply Eq.refl (_ : Nat)
    | with_reducible apply FrameR.ok
    | with_reducible apply FrameR.halt
    | with_reducible apply FrameR.absent
    | with_reducible apply FrameR.then
    | with_reducible apply Frame.step (g := frame_halt ..)
    | with_reducible apply Frame.ite
    | with_reducible apply FrameR.ite
    | split

theorem frame_devGet (c ca n : Nat) (s : State) : FrameR 95102 127648098567802957466768813110627143680 s (devGet c ca n s) := by
  dsimp only [devGet, ok]
  repeat' first
    | with_reducible assumption
    | with_reducible exact Frame.refl _ _ _
    | intro _
    | apply Eq.refl true
    | apply Eq.refl (_ : Nat)
    | with_reducible apply FrameR.ok
    | with_reducible apply FrameR.halt
    | with_reducible apply FrameR.absent
    | with_reducible apply FrameR.then
    | with_reducible apply FrameR.of (g := frame_placeOf ..)
    | with_reducible apply Frame.step (g := frame_devRead ..)
    | with_reducible apply Frame.eqSnd (e := by assumption)
    | with_reducible apply FrameR.eqAbsent (e := by assumption)
    | with_reducible apply FrameR.eqHalt (e := by assumption)
    | with_reducible apply FrameR.eqOk (e := by assumption)
    | with_reducible apply Frame.ite
    | with_reducible apply FrameR.ite
    | with_reducible apply Frame.pairIte
    | split

theorem frame_bytesUnder (need : Need) (c ca n : Nat) (s : State) : FrameR 95102 127648098567802957466768813110627143680 s (bytesUnder need c ca n s) := by
  dsimp only [bytesUnder, ok]
  repeat' first
    | with_reducible assumption
    | with_reducible exact Frame.refl _ _ _
    | intro _
    | apply Eq.refl true
    | apply Eq.refl (_ : Nat)
    | with_reducible apply FrameR.ok
    | with_reducible apply FrameR.halt
    | with_reducible apply FrameR.absent
    | with_reducible apply FrameR.then
    | with_reducible apply FrameR.of (g := frame_placeOf ..)
    | with_reducible apply Frame.step (g := frame_devRead ..)
    | with_reducible apply Frame.step (g := frame_halt ..)
    | with_reducible apply Frame.eqSnd (e := by assumption)
    | with_reducible apply FrameR.eqAbsent (e := by assumption)
    | with_reducible apply FrameR.eqHalt (e := by assumption)
    | with_reducible apply FrameR.eqOk (e := by assumption)
    | with_reducible apply Frame.ite
    | with_reducible apply FrameR.ite
    | with_reducible apply Frame.pairIte
    | split

theorem frame_devBytes (c ca n : Nat) (s : State) : FrameR 95102 127648098567802957466768813110627143680 s (devBytes c ca n s) := by
  dsimp only [devBytes, ok]
  repeat' first
    | with_reducible assumption
    | with_reducible exact Frame.refl _ _ _
    | intro _
    | apply Eq.refl true
    | apply Eq.refl (_ : Nat)
    | with_reducible apply FrameR.ok
    | with_reducible apply FrameR.halt
    | with_reducible apply FrameR.absent
    | with_reducible apply FrameR.then
    | with_reducible apply FrameR.of (g := frame_bytesUnder ..)
    | with_reducible apply FrameR.eqAbsent (e := by assumption)
    | with_reducible apply FrameR.eqHalt (e := by assumption)
    | with_reducible apply FrameR.eqOk (e := by assumption)
    | with_reducible apply Frame.ite
    | with_reducible apply FrameR.ite
    | split

theorem FrameR.held {ps rs : Nat} {s0 s : State} {α : Type} {f : State → Res α} (h : Frame ps rs s0 s) (hp : 64 ||| ps = ps) 
    (hf : ∀ u, Frame ps rs s0 u → FrameR ps rs s0 (f u)) : FrameR ps rs s0 (Res.held f s) := by
  have g := hf _ (h.step (frame_censusHold s) hp (Nat.zero_or _))
  have w {u : State} (x : Frame ps rs s0 u) : Frame ps rs s0 (censusTake u).2 := x.step (frame_censusTake u) hp (Nat.zero_or _)
  dsimp only [Machine.Res.held]
  split
  · rename_i e; exact .ok (w (g.eqOk e))
  · rename_i e; exact .absent (w (g.eqAbsent e))
  · rename_i e; exact .halt (w (g.eqHalt e))

theorem frame_devPut (c ca : Nat) (bs : List Byte) (s : State) : FrameR 95102 127648098567802957466768813110627143680 s (devPut c ca bs s) := by
  dsimp only [devPut, ok]
  repeat' first
    | with_reducible assumption
    | with_reducible exact Frame.refl _ _ _
    | intro _
    | apply Eq.refl true
    | apply Eq.refl (_ : Nat)
    | with_reducible apply FrameR.ok
    | with_reducible apply FrameR.halt
    | with_reducible apply FrameR.absent
    | with_reducible apply FrameR.then
    | with_reducible apply FrameR.of (g := frame_placeOf ..)
    | with_reducible apply Frame.step (g := frame_devWrite ..)
    | with_reducible apply FrameR.eqAbsent (e := by assumption)
    | with_reducible apply FrameR.eqHalt (e := by assumption)
    | with_reducible apply FrameR.eqOk (e := by assumption)
    | with_reducible apply Frame.ite
    | with_reducible apply FrameR.ite
    | split

theorem frame_devCheck (need : Need) (c ca n : Nat) (s : State) : FrameR 78718 127606560192934678845738875411050270720 s (devCheck need c ca n s) := by
  dsimp only [devCheck, ok]
  repeat' first
    | with_reducible assumption
    | with_reducible exact Frame.refl _ _ _
    | intro _
    | apply Eq.refl true
    | apply Eq.refl (_ : Nat)
    | with_reducible apply FrameR.ok
    | with_reducible apply FrameR.halt
    | with_reducible apply FrameR.absent
    | with_reducible apply FrameR.then
    | with_reducible apply FrameR.of (g := frame_placeOf ..)
    | with_reducible apply FrameR.eqAbsent (e := by assumption)
    | with_reducible apply FrameR.eqHalt (e := by assumption)
    | with_reducible apply FrameR.eqOk (e := by assumption)
    | with_reducible apply Frame.ite
    | with_reducible apply FrameR.ite
    | split

end Sys2Proof.Laws
end

