-- ==== Sys2Proof/Laws/FrameMatrix.lean ====
section
/-! SUPPORT. What each operation of Machine/Matrix.lean may change, as a frame (Laws/Frame.lean): the parts and registers by their bits. -/

namespace Sys2Proof.Laws

open Sys2Proof.Machine

theorem frame_accSet (s : State) (core array bank m n v : Nat) : Frame 32 0 s (accSet s core array bank m n v) := by
  dsimp only [accSet, ok]
  repeat' first
    | with_reducible assumption
    | with_reducible exact Frame.refl _ _ _
    | intro _
    | apply Eq.refl true
    | apply Eq.refl (_ : Nat)
    | with_reducible apply Frame.ite
    | with_reducible apply Frame.mk_upd
    | (apply Or.inl; apply Eq.refl true)
    | (apply Or.inr; exact rfl)
    | (with_reducible_and_instances rfl)
    | split

theorem frame_matCheck (s : State) (core ctx : Nat) (op : MatOp) : Frame 94214 127648098458863623495492909487540404224 s (matCheck s core ctx op).2 := by
  dsimp only [matCheck, ok]
  repeat' first
    | with_reducible assumption
    | with_reducible exact Frame.refl _ _ _
    | intro _
    | apply Eq.refl true
    | apply Eq.refl (_ : Nat)
    | with_reducible apply Frame.step (g := frame_censusCheckOpt ..)
    | with_reducible apply Frame.eqSnd (e := by assumption)
    | with_reducible apply Frame.ite
    | with_reducible apply Frame.pairIte
    | split

theorem frame_countRow (s : State) (census : Option Nat) (f : OpFmt) (r : Option Nat × List Nat) : Frame 64 8 s (countRow s census f r) := by
  dsimp only [countRow, ok]
  repeat' first
    | with_reducible assumption
    | with_reducible exact Frame.refl _ _ _
    | intro _
    | apply Eq.refl true
    | apply Eq.refl (_ : Nat)
    | with_reducible apply Frame.step (g := frame_censusAdd ..)
    | with_reducible apply Frame.step (g := frame_censusCodes ..)
    | with_reducible apply Frame.ite
    | with_reducible apply Frame.pairIte
    | split

theorem frame_storeRow (s : State) (core : Nat) (op : MatOp) (r : MRef) (ds : List (List Nat)) (m : Nat) (vals : List Nat) : Frame 96 8 s (storeRow s core op r ds m vals) := by
  dsimp only [storeRow, ok]
  repeat' first
    | with_reducible assumption
    | with_reducible exact Frame.refl _ _ _
    | intro _
    | apply Eq.refl true
    | apply Eq.refl (_ : Nat)
    | with_reducible apply Frame.step (g := frame_sramWrite ..)
    | with_reducible apply Frame.step (g := frame_countRow ..)
    | with_reducible apply Frame.ite
    | with_reducible apply Frame.pairIte
    | split

theorem frame_writeRow (s : State) (core array : Nat) (op : MatOp) (ds : List (List Nat)) (m : Nat) (vals : List Nat) : Frame 96 8 s (writeRow s core array op ds m vals) := by
  dsimp only [writeRow, ok]
  repeat' first
    | with_reducible assumption
    | with_reducible exact Frame.refl _ _ _
    | intro _
    | apply Eq.refl true
    | apply Eq.refl (_ : Nat)
    | with_reducible apply Frame.step (g := frame_accSet ..)
    | with_reducible apply Frame.step (g := frame_storeRow ..)
    | with_reducible apply Frame.step (g := frame_sramWrite ..)
    | with_reducible apply Frame.foldl
    | with_reducible apply Frame.foldl2
    | with_reducible apply Frame.ite
    | with_reducible apply Frame.pairIte
    | split

theorem frame_setFeed (s : State) (core array : Nat) (l : List FeedLine) : Frame 32 0 s (setFeed s core array l) := by
  dsimp only [setFeed, ok]
  repeat' first
    | with_reducible assumption
    | with_reducible exact Frame.refl _ _ _
    | intro _
    | apply Eq.refl true
    | apply Eq.refl (_ : Nat)
    | with_reducible apply Frame.ite
    | with_reducible apply Frame.mk_upd
    | (apply Or.inl; apply Eq.refl true)
    | (apply Or.inr; exact rfl)
    | (with_reducible_and_instances rfl)
    | split

theorem frame_feedLine (core array : Nat) (s : State) : Frame 32 0 s (feedLine core array s) := by
  dsimp only [feedLine, ok]
  repeat' first
    | with_reducible assumption
    | with_reducible exact Frame.refl _ _ _
    | intro _
    | apply Eq.refl true
    | apply Eq.refl (_ : Nat)
    | with_reducible apply Frame.step (g := frame_setFeed ..)
    | with_reducible apply Frame.ite
    | split

theorem frame_feedView (s : State) (core array job : Nat) : Frame 32 0 s (feedView s core array job) := by
  dsimp only [feedView, ok]
  repeat' first
    | with_reducible assumption
    | with_reducible exact Frame.refl _ _ _
    | intro _
    | apply Eq.refl true
    | apply Eq.refl (_ : Nat)
    | with_reducible apply Frame.step (g := frame_sramWrite ..)
    | with_reducible apply Frame.foldl
    | with_reducible apply Frame.foldl2
    | with_reducible apply Frame.ite
    | split

theorem frame_matRow (j : EngJob) (core array : Nat) (op : MatOp) (bv : List Vect) (s : State) (m : Nat) : Frame 96 296 s (matRow j core array op bv s m) := by
  dsimp only [matRow, ok]
  repeat' first
    | with_reducible assumption
    | with_reducible exact Frame.refl _ _ _
    | intro _
    | apply Eq.refl true
    | apply Eq.refl (_ : Nat)
    | with_reducible apply Frame.bump
    | with_reducible apply Frame.step (g := frame_writeRow ..)
    | with_reducible apply Frame.step (g := frame_feedView ..)
    | with_reducible apply Frame.step (g := frame_setFeed ..)
    | with_reducible apply Frame.ite
    | with_reducible apply Frame.mk_upd
    | (apply Or.inl; apply Eq.refl true)
    | (apply Or.inr; exact rfl)
    | (with_reducible_and_instances rfl)
    | split

theorem frame_matRun (s : State) (j : EngJob) (core array : Nat) (op : MatOp) (bv : List Vect) (m : Nat) : Frame 96 296 s (matRun s j core array op bv m) := by
  dsimp only [matRun, ok]
  repeat' first
    | with_reducible assumption
    | with_reducible exact Frame.refl _ _ _
    | intro _
    | apply Eq.refl true
    | apply Eq.refl (_ : Nat)
    | with_reducible apply Frame.step (g := frame_matRow ..)
    | with_reducible apply Frame.foldl
    | with_reducible apply Frame.foldl2
    | with_reducible apply Frame.ite
    | split

theorem frame_execMatrixOpIssue (at_ : At) (iss : Issue) (array : Nat) (op : MatOp) (s : State) : FrameO 95102 127648098567802957466768813110628200448 s (execMatrixOpIssue at_ iss array op s) := by
  dsimp only [execMatrixOpIssue, ok, issueOp]
  repeat' first
    | with_reducible assumption
    | with_reducible exact Frame.refl _ _ _
    | intro _
    | apply Eq.refl true
    | apply Eq.refl (_ : Nat)
    | exact FrameO.fault
    | with_reducible apply FrameO.next
    | with_reducible apply Frame.step (g := frame_refuse ..)
    | with_reducible apply Frame.step (g := frame_haltTh ..)
    | with_reducible apply Frame.step (g := frame_issueTo ..)
    | with_reducible apply FrameO.instr
    | with_reducible apply Frame.ite
    | with_reducible apply FrameO.ite
    | split

theorem frame_setHalves (s : State) (core array : Nat) (l : List BHalf) : Frame 32 0 s (setHalves s core array l) := by
  dsimp only [setHalves, ok]
  repeat' first
    | with_reducible assumption
    | with_reducible exact Frame.refl _ _ _
    | intro _
    | apply Eq.refl true
    | apply Eq.refl (_ : Nat)
    | with_reducible apply Frame.ite
    | with_reducible apply Frame.mk_upd
    | (apply Or.inl; apply Eq.refl true)
    | (apply Or.inr; exact rfl)
    | (with_reducible_and_instances rfl)
    | split

theorem frame_execArrayOpAccept (core array : Nat) (s : State) : FrameO 95102 127648098567802957466768813110627143680 s (execArrayOpAccept core array s) := by
  dsimp only [execArrayOpAccept, ok]
  repeat' first
    | with_reducible assumption
    | with_reducible exact Frame.refl _ _ _
    | intro _
    | apply Eq.refl true
    | apply Eq.refl (_ : Nat)
    | exact FrameO.fault
    | with_reducible apply FrameO.next
    | with_reducible apply Frame.step (g := frame_matCheck ..)
    | with_reducible apply Frame.step (g := frame_haltJob ..)
    | with_reducible apply Frame.step (g := frame_updJob ..)
    | with_reducible apply Frame.step (g := frame_setHalves ..)
    | with_reducible apply Frame.eqSnd (e := by assumption)
    | with_reducible apply Frame.ite
    | with_reducible apply FrameO.ite
    | (apply Or.inl; apply Eq.refl true)
    | (apply Or.inr; exact rfl)
    | (with_reducible_and_instances rfl)
    | split
    | with_reducible apply Frame.mk_upd

theorem frame_arrayTick (s : State) (core array : Nat) : Frame 96 296 s (arrayTick s core array) := by
  dsimp only [arrayTick, ok]
  repeat' first
    | with_reducible assumption
    | with_reducible exact Frame.refl _ _ _
    | intro _
    | apply Eq.refl true
    | apply Eq.refl (_ : Nat)
    | with_reducible apply Frame.step (g := frame_feedLine ..)
    | with_reducible apply Frame.step (g := frame_updJob ..)
    | with_reducible apply Frame.step (g := frame_matRow ..)
    | with_reducible apply Frame.ite
    | (apply Or.inl; apply Eq.refl true)
    | (apply Or.inr; exact rfl)
    | (with_reducible_and_instances rfl)
    | split
    | with_reducible apply Frame.mk_upd

theorem frame_execArrayOpComplete (core array bubbles ramps : Nat) (s : State) : FrameO 82046 41539087922345713039359306304066024 s (execArrayOpComplete core array bubbles ramps s) := by
  dsimp only [execArrayOpComplete, ok]
  repeat' first
    | with_reducible assumption
    | with_reducible exact Frame.refl _ _ _
    | intro _
    | apply Eq.refl true
    | apply Eq.refl (_ : Nat)
    | exact FrameO.fault
    | with_reducible apply FrameO.next
    | with_reducible apply Frame.bump
    | with_reducible apply Frame.step (g := frame_matRun ..)
    | with_reducible apply Frame.step (g := frame_finishJob ..)
    | with_reducible apply Frame.ite
    | with_reducible apply FrameO.ite
    | split

end Sys2Proof.Laws
end

