-- ==== Sys2Proof/Laws/FrameSegmul.lean ====
section
/-! SUPPORT. What each operation of Machine/Segmul.lean may change, as a frame (Laws/Frame.lean): the parts and registers by their bits. -/

namespace Sys2Proof.Laws

open Sys2Proof.Machine

theorem frame_segManifest (c : Nat) (j : SegJob) (s : State) : FrameR 95102 127648098567802957466768813110627143680 s (segManifest c j s) := by
  dsimp only [segManifest, ok]
  repeat' first
    | with_reducible assumption
    | with_reducible exact Frame.refl _ _ _
    | intro _
    | apply Eq.refl true
    | apply Eq.refl (_ : Nat)
    | with_reducible apply FrameR.ok
    | with_reducible apply FrameR.halt
    | with_reducible apply FrameR.absent
    | with_reducible apply FrameR.then
    | with_reducible apply Frame.step (g := frame_halt ..)
    | with_reducible apply FrameR.of (g := frame_devBytes ..)
    | with_reducible apply FrameR.eqAbsent (e := by assumption)
    | with_reducible apply FrameR.eqHalt (e := by assumption)
    | with_reducible apply FrameR.eqOk (e := by assumption)
    | with_reducible apply Frame.foldl
    | with_reducible apply Frame.foldl2
    | with_reducible apply Frame.ite
    | with_reducible apply FrameR.ite
    | split

theorem frame_segExtent (c idx : Nat) (need : Need) (addr pitch rows len : Nat) (s : State) : FrameR 78718 127606560192934678845738875411050270720 s (segExtent c idx need addr pitch rows len s) := by
  dsimp only [segExtent, ok]
  repeat' first
    | with_reducible assumption
    | with_reducible exact Frame.refl _ _ _
    | intro _
    | apply Eq.refl true
    | apply Eq.refl (_ : Nat)
    | with_reducible apply FrameR.ok
    | with_reducible apply FrameR.halt
    | with_reducible apply FrameR.absent
    | with_reducible apply FrameR.then
    | with_reducible apply Frame.step (g := frame_halt ..)
    | with_reducible apply FrameR.of (g := frame_devCheck ..)
    | with_reducible apply FrameR.eqAbsent (e := by assumption)
    | with_reducible apply FrameR.eqHalt (e := by assumption)
    | with_reducible apply FrameR.eqOk (e := by assumption)
    | with_reducible apply Frame.ite
    | with_reducible apply FrameR.ite
    | split

theorem frame_segDescriptor (c : Nat) (j : SegJob) (idx h : Nat) (s : State) : FrameR 95102 127648098567802957466768813110627143680 s (segDescriptor c j idx h s) := by
  dsimp only [segDescriptor, ok]
  repeat' first
    | with_reducible assumption
    | with_reducible exact Frame.refl _ _ _
    | intro _
    | apply Eq.refl true
    | apply Eq.refl (_ : Nat)
    | with_reducible apply FrameR.ok
    | with_reducible apply FrameR.halt
    | with_reducible apply FrameR.absent
    | with_reducible apply FrameR.then
    | with_reducible apply Frame.step (g := frame_halt ..)
    | with_reducible apply Frame.step (g := frame_physRead ..)
    | with_reducible apply FrameR.of (g := frame_segExtent ..)
    | with_reducible apply Frame.eqSnd (e := by assumption)
    | with_reducible apply FrameR.eqAbsent (e := by assumption)
    | with_reducible apply FrameR.eqHalt (e := by assumption)
    | with_reducible apply FrameR.eqOk (e := by assumption)
    | with_reducible apply Frame.ite
    | with_reducible apply FrameR.ite
    | with_reducible apply Frame.pairIte
    | split

theorem frame_segEntries (c : Nat) (j : SegJob) (a0 : List (Nat × Nat)) (a1 : Nat) (a2 : Nat) (a3 : List SegRun) (a4 : State) : FrameR 95102 127648098567802957466768813110627143680 a4 (segEntries c j a0 a1 a2 a3 a4) := by
  induction a0 generalizing c j a1 a2 a3 a4 with
  | nil =>
    dsimp only [segEntries, ok]
    repeat' first
      | with_reducible assumption
      | with_reducible exact Frame.refl _ _ _
      | intro _
      | apply Eq.refl true
      | apply Eq.refl (_ : Nat)
      | with_reducible apply FrameR.ok
      | with_reducible apply FrameR.halt
      | with_reducible apply FrameR.absent
      | with_reducible apply FrameR.then
      | with_reducible apply FrameR.of (g := frame_segDescriptor ..)
      | with_reducible apply Frame.step (g := frame_halt ..)
      | with_reducible apply FrameR.eqAbsent (e := by assumption)
      | with_reducible apply FrameR.eqHalt (e := by assumption)
      | with_reducible apply FrameR.eqOk (e := by assumption)
      | with_reducible apply Frame.ite
      | with_reducible apply FrameR.ite
      | split
  | cons y ys ih =>
    dsimp only [segEntries, ok]
    repeat' first
      | with_reducible assumption
      | with_reducible exact Frame.refl _ _ _
      | intro _
      | with_reducible apply FrameR.of (g := ih ..)
      | apply Eq.refl true
      | apply Eq.refl (_ : Nat)
      | with_reducible apply FrameR.ok
      | with_reducible apply FrameR.halt
      | with_reducible apply FrameR.absent
      | with_reducible apply FrameR.then
      | with_reducible apply FrameR.of (g := frame_segDescriptor ..)
      | with_reducible apply Frame.step (g := frame_halt ..)
      | with_reducible apply FrameR.eqAbsent (e := by assumption)
      | with_reducible apply FrameR.eqHalt (e := by assumption)
      | with_reducible apply FrameR.eqOk (e := by assumption)
      | with_reducible apply Frame.ite
      | with_reducible apply FrameR.ite
      | split

theorem frame_segWhole (c : Nat) (j : SegJob) (runs : List SegRun) (s : State) : FrameR 78718 127606560192934678845738875411050270720 s (segWhole c j runs s) := by
  dsimp only [segWhole, ok]
  repeat' first
    | with_reducible assumption
    | with_reducible exact Frame.refl _ _ _
    | intro _
    | apply Eq.refl true
    | apply Eq.refl (_ : Nat)
    | with_reducible apply FrameR.ok
    | with_reducible apply FrameR.halt
    | with_reducible apply FrameR.absent
    | with_reducible apply FrameR.then
    | with_reducible apply Frame.step (g := frame_halt ..)
    | with_reducible apply Frame.foldl
    | with_reducible apply Frame.foldl2
    | with_reducible apply Frame.ite
    | with_reducible apply FrameR.ite
    | split

theorem frame_updSeg (s : State) (id : Nat) (f : SegMul → SegMul) : Frame 64 0 s (updSeg s id f) := by
  dsimp only [updSeg, ok]
  repeat' first
    | with_reducible assumption
    | with_reducible exact Frame.refl _ _ _
    | intro _
    | apply Eq.refl true
    | apply Eq.refl (_ : Nat)
    | with_reducible apply Frame.ite
    | with_reducible apply Frame.mk_upd
    | (apply Or.inl; apply Eq.refl true)
    | (apply Or.inr; exact rfl)
    | (with_reducible_and_instances rfl)
    | split

theorem frame_segStart (s : State) (j : EngJob) (p : SegJob) (runs : List SegRun) : Frame 78718 127606560192934678845738875411050270720 s (segStart s j p runs) := by
  dsimp only [segStart, ok]
  repeat' first
    | with_reducible assumption
    | with_reducible exact Frame.refl _ _ _
    | intro _
    | apply Eq.refl true
    | apply Eq.refl (_ : Nat)
    | with_reducible apply Frame.bump
    | with_reducible apply Frame.step (g := frame_haltJob ..)
    | with_reducible apply Frame.step (g := frame_dropJob ..)
    | with_reducible apply Frame.foldl
    | with_reducible apply Frame.foldl2
    | with_reducible apply Frame.ite
    | with_reducible apply Frame.mk_upd
    | (apply Or.inl; apply Eq.refl true)
    | (apply Or.inr; exact rfl)
    | (with_reducible_and_instances rfl)
    | split

theorem frame_parkJob (s : State) (id c sg ca unit : Nat) : Frame 77894 127606560083995344874607086976039387136 s (parkJob s id c sg ca unit) := by
  dsimp only [parkJob, ok]
  repeat' first
    | with_reducible assumption
    | with_reducible exact Frame.refl _ _ _
    | intro _
    | apply Eq.refl true
    | apply Eq.refl (_ : Nat)
    | with_reducible apply Frame.step (g := frame_updJob ..)
    | with_reducible apply Frame.step (g := frame_segFault ..)
    | with_reducible apply Frame.ite
    | with_reducible apply Frame.mk_upd
    | (apply Or.inl; apply Eq.refl true)
    | (apply Or.inr; exact rfl)
    | (with_reducible_and_instances rfl)
    | split

theorem frame_segAccept (s : State) (j : EngJob) : Frame 95102 127648098567802957466768813110627143680 s (segAccept s j) := by
  dsimp only [segAccept, ok]
  repeat' first
    | with_reducible assumption
    | with_reducible exact Frame.refl _ _ _
    | intro _
    | apply Eq.refl true
    | apply Eq.refl (_ : Nat)
    | with_reducible apply Frame.step (g := frame_haltJob ..)
    | with_reducible apply FrameR.of (g := frame_segManifest ..)
    | with_reducible apply FrameR.of (g := frame_segEntries ..)
    | with_reducible apply FrameR.of (g := frame_segWhole ..)
    | with_reducible apply Frame.step (g := frame_halt ..)
    | with_reducible apply Frame.step (g := frame_parkJob ..)
    | with_reducible apply Frame.step (g := frame_segStart ..)
    | with_reducible apply FrameR.absent
    | with_reducible apply FrameR.eqAbsent (e := by assumption)
    | with_reducible apply FrameR.eqHalt (e := by assumption)
    | with_reducible apply FrameR.eqOk (e := by assumption)
    | with_reducible apply FrameR.halt
    | with_reducible apply FrameR.ite
    | with_reducible apply FrameR.ok
    | with_reducible apply FrameR.then
    | with_reducible apply Frame.ite
    | split

theorem frame_jobArrive (s : State) (j : EngJob) : Frame 95102 127648098567802957466768813110627143680 s (jobArrive s j) := by
  dsimp only [jobArrive, ok]
  repeat' first
    | with_reducible assumption
    | with_reducible exact Frame.refl _ _ _
    | intro _
    | apply Eq.refl true
    | apply Eq.refl (_ : Nat)
    | with_reducible apply Frame.step (g := frame_ungate ..)
    | with_reducible apply Frame.step (g := frame_setJobs ..)
    | with_reducible apply Frame.step (g := frame_segAccept ..)
    | with_reducible apply Frame.step (g := frame_startHead ..)
    | with_reducible apply Frame.ite
    | split

theorem frame_execSegmulIssue (at_ : At) (iss : Issue) (job : SegJob) (s : State) : FrameO 95102 127648098567802957466768813110628200448 s (execSegmulIssue at_ iss job s) := by
  dsimp only [execSegmulIssue, ok, issueOp]
  repeat' first
    | with_reducible assumption
    | with_reducible exact Frame.refl _ _ _
    | intro _
    | apply Eq.refl true
    | apply Eq.refl (_ : Nat)
    | exact FrameO.fault
    | with_reducible apply FrameO.next
    | with_reducible apply Frame.step (g := frame_refuse ..)
    | with_reducible apply Frame.step (g := frame_haltTh ..)
    | with_reducible apply Frame.step (g := frame_issueTo ..)
    | with_reducible apply FrameO.instr
    | with_reducible apply Frame.ite
    | with_reducible apply FrameO.ite
    | split

theorem frame_execOpBufferLeave (id : Nat) (s : State) : FrameO 95102 127648098567802976356234744589207998464 s (execOpBufferLeave id s) := by
  dsimp only [execOpBufferLeave, ok]
  repeat' first
    | with_reducible assumption
    | with_reducible exact Frame.refl _ _ _
    | intro _
    | apply Eq.refl true
    | apply Eq.refl (_ : Nat)
    | exact FrameO.fault
    | with_reducible apply FrameO.next
    | with_reducible apply Frame.bump
    | with_reducible apply Frame.step (g := frame_opGrant ..)
    | with_reducible apply Frame.step (g := frame_wakeSpace ..)
    | with_reducible apply Frame.step (g := frame_haltFrom ..)
    | with_reducible apply Frame.step (g := frame_post ..)
    | with_reducible apply Frame.step (g := frame_ungate ..)
    | with_reducible apply Frame.step (g := frame_jobArrive ..)
    | (dsimp only [F.ferryGates_TOKENS]; exact Eq.refl true)
    | with_reducible apply Frame.ite
    | with_reducible apply FrameO.ite
    | (apply Or.inl; apply Eq.refl true)
    | (apply Or.inr; exact rfl)
    | (with_reducible_and_instances rfl)
    | split
    | with_reducible apply Frame.mk_upd

theorem frame_memVect (c : Nat) (r : MRef) (k i : Nat) (s : State) : FrameR 95102 127648098567802957466768813110627143680 s (memVect c r k i s) := by
  dsimp only [memVect, ok]
  repeat' first
    | with_reducible assumption
    | with_reducible exact Frame.refl _ _ _
    | intro _
    | apply Eq.refl true
    | apply Eq.refl (_ : Nat)
    | with_reducible apply FrameR.ok
    | with_reducible apply FrameR.halt
    | with_reducible apply FrameR.absent
    | with_reducible apply FrameR.then
    | with_reducible apply FrameR.of (g := frame_devBytes ..)
    | with_reducible apply FrameR.eqAbsent (e := by assumption)
    | with_reducible apply FrameR.eqHalt (e := by assumption)
    | with_reducible apply FrameR.eqOk (e := by assumption)
    | with_reducible apply Frame.ite
    | with_reducible apply FrameR.ite
    | split

theorem frame_memCodes (c ca w n : Nat) (s : State) : FrameR 95102 127648098567802957466768813110627143680 s (memCodes c ca w n s) := by
  dsimp only [memCodes, ok]
  repeat' first
    | with_reducible assumption
    | with_reducible exact Frame.refl _ _ _
    | intro _
    | apply Eq.refl true
    | apply Eq.refl (_ : Nat)
    | with_reducible apply FrameR.ok
    | with_reducible apply FrameR.halt
    | with_reducible apply FrameR.absent
    | with_reducible apply FrameR.then
    | with_reducible apply FrameR.of (g := frame_devBytes ..)
    | with_reducible apply FrameR.eqAbsent (e := by assumption)
    | with_reducible apply FrameR.eqHalt (e := by assumption)
    | with_reducible apply FrameR.eqOk (e := by assumption)
    | with_reducible apply Frame.ite
    | with_reducible apply FrameR.ite
    | split

theorem frame_adapterCols (c addr pitch cols len : Nat) (s : State) : FrameR 95102 127648098567802957466768813110627143680 s (adapterCols c addr pitch cols len s) := by
  dsimp only [adapterCols, ok]
  repeat' first
    | with_reducible assumption
    | with_reducible exact Frame.refl _ _ _
    | intro _
    | apply Eq.refl true
    | apply Eq.refl (_ : Nat)
    | with_reducible apply FrameR.ok
    | with_reducible apply FrameR.halt
    | with_reducible apply FrameR.absent
    | with_reducible apply FrameR.then
    | with_reducible apply FrameR.each
    | with_reducible apply FrameR.of (g := frame_memCodes ..)
    | with_reducible apply FrameR.eqAbsent (e := by assumption)
    | with_reducible apply FrameR.eqHalt (e := by assumption)
    | with_reducible apply FrameR.eqOk (e := by assumption)
    | with_reducible apply Frame.ite
    | with_reducible apply FrameR.ite
    | split

theorem frame_downCols (c : Nat) (mode : SegMode) (r : SegRun) (s : State) : FrameR 95102 127648098567802957466768813110627143680 s (downCols c mode r s) := by
  dsimp only [downCols, ok]
  repeat' first
    | with_reducible assumption
    | with_reducible exact Frame.refl _ _ _
    | intro _
    | apply Eq.refl true
    | apply Eq.refl (_ : Nat)
    | with_reducible apply FrameR.ok
    | with_reducible apply FrameR.halt
    | with_reducible apply FrameR.absent
    | with_reducible apply FrameR.then
    | with_reducible apply FrameR.of (g := frame_adapterCols ..)
    | with_reducible apply FrameR.eqAbsent (e := by assumption)
    | with_reducible apply FrameR.eqHalt (e := by assumption)
    | with_reducible apply FrameR.eqOk (e := by assumption)
    | with_reducible apply Frame.ite
    | with_reducible apply FrameR.ite
    | split

theorem frame_upCols (c : Nat) (mode : SegMode) (r : SegRun) (c0 n : Nat) (s : State) : FrameR 95102 127648098567802957466768813110627143680 s (upCols c mode r c0 n s) := by
  dsimp only [upCols, ok]
  repeat' first
    | with_reducible assumption
    | with_reducible exact Frame.refl _ _ _
    | intro _
    | apply Eq.refl true
    | apply Eq.refl (_ : Nat)
    | with_reducible apply FrameR.ok
    | with_reducible apply FrameR.halt
    | with_reducible apply FrameR.absent
    | with_reducible apply FrameR.then
    | with_reducible apply FrameR.each
    | with_reducible apply FrameR.of (g := frame_adapterCols ..)
    | with_reducible apply FrameR.of (g := frame_memCodes ..)
    | with_reducible apply FrameR.eqAbsent (e := by assumption)
    | with_reducible apply FrameR.eqHalt (e := by assumption)
    | with_reducible apply FrameR.eqOk (e := by assumption)
    | with_reducible apply Frame.ite
    | with_reducible apply FrameR.ite
    | split

theorem frame_lostCycles (s : State) (core array : Nat) : Frame 16384 192 s (lostCycles s core array) := by
  dsimp only [lostCycles, ok]
  repeat' first
    | with_reducible assumption
    | with_reducible exact Frame.refl _ _ _
    | intro _
    | apply Eq.refl true
    | apply Eq.refl (_ : Nat)
    | with_reducible apply Frame.bump
    | with_reducible apply Frame.ite
    | with_reducible apply Frame.mk_upd
    | (apply Or.inl; apply Eq.refl true)
    | (apply Or.inr; exact rfl)
    | (with_reducible_and_instances rfl)
    | split

theorem frame_countSteps (s : State) (core array rows steps : Nat) : Frame 16384 480 s (countSteps s core array rows steps) := by
  dsimp only [countSteps, ok]
  repeat' first
    | with_reducible assumption
    | with_reducible exact Frame.refl _ _ _
    | intro _
    | apply Eq.refl true
    | apply Eq.refl (_ : Nat)
    | with_reducible apply Frame.bump
    | with_reducible apply Frame.step (g := frame_lostCycles ..)
    | with_reducible apply Frame.ite
    | split

theorem frame_segCount (s : State) (j : SegJob) (h : Nat) (e : Elem) (codes : List Nat) : Frame 64 8 s (segCount s j h e codes) := by
  dsimp only [segCount, ok]
  repeat' first
    | with_reducible assumption
    | with_reducible exact Frame.refl _ _ _
    | intro _
    | apply Eq.refl true
    | apply Eq.refl (_ : Nat)
    | with_reducible apply Frame.step (g := frame_censusCodes ..)
    | with_reducible apply Frame.ite
    | split

theorem frame_runLow (c core : Nat) (j : SegJob) (r : SegRun) (row rows t p : Nat) (s : State) : FrameR 95102 127648098567802957466768813110627144168 s (runLow c core j r row rows t p s) := by
  dsimp only [runLow, ok]
  repeat' first
    | with_reducible assumption
    | with_reducible exact Frame.refl _ _ _
    | intro _
    | apply Eq.refl true
    | apply Eq.refl (_ : Nat)
    | with_reducible apply FrameR.ok
    | with_reducible apply FrameR.halt
    | with_reducible apply FrameR.absent
    | with_reducible apply FrameR.then
    | with_reducible apply FrameR.run
    | with_reducible apply FrameR.of (g := frame_downCols ..)
    | with_reducible apply FrameR.of (g := frame_memVect ..)
    | with_reducible apply FrameR.of (g := frame_devPut ..)
    | with_reducible apply Frame.step (g := frame_segCount ..)
    | with_reducible apply Frame.step (g := frame_countSteps ..)
    | with_reducible apply FrameR.eqAbsent (e := by assumption)
    | with_reducible apply FrameR.eqHalt (e := by assumption)
    | with_reducible apply FrameR.eqOk (e := by assumption)
    | with_reducible apply Frame.ite
    | with_reducible apply FrameR.ite
    | split

theorem frame_storeOut (c : Nat) (j : SegJob) (h m col : Nat) (vals rnd : List Nat) (s : State) : FrameR 95102 127648098567802957466768813110627143688 s (storeOut c j h m col vals rnd s) := by
  dsimp only [storeOut, ok]
  repeat' first
    | with_reducible assumption
    | with_reducible exact Frame.refl _ _ _
    | intro _
    | apply Eq.refl true
    | apply Eq.refl (_ : Nat)
    | with_reducible apply FrameR.ok
    | with_reducible apply FrameR.halt
    | with_reducible apply FrameR.absent
    | with_reducible apply FrameR.then
    | with_reducible apply FrameR.of (g := frame_devPut ..)
    | with_reducible apply Frame.step (g := frame_countRow ..)
    | with_reducible apply FrameR.eqAbsent (e := by assumption)
    | with_reducible apply FrameR.eqHalt (e := by assumption)
    | with_reducible apply FrameR.eqOk (e := by assumption)
    | with_reducible apply Frame.ite
    | with_reducible apply FrameR.ite
    | with_reducible apply Frame.pairIte
    | split

theorem frame_zeroOut (c core : Nat) (j : SegJob) (r : SegRun) (row rows tag col n p : Nat) (s : State) : FrameR 95102 127648098567802957466768813110627143688 s (zeroOut c core j r row rows tag col n p s) := by
  dsimp only [zeroOut, ok]
  repeat' first
    | with_reducible assumption
    | with_reducible exact Frame.refl _ _ _
    | intro _
    | apply Eq.refl true
    | apply Eq.refl (_ : Nat)
    | with_reducible apply FrameR.ok
    | with_reducible apply FrameR.halt
    | with_reducible apply FrameR.absent
    | with_reducible apply FrameR.then
    | with_reducible apply FrameR.run
    | with_reducible apply FrameR.of (g := frame_storeOut ..)
    | with_reducible apply FrameR.eqAbsent (e := by assumption)
    | with_reducible apply FrameR.eqHalt (e := by assumption)
    | with_reducible apply FrameR.eqOk (e := by assumption)
    | with_reducible apply Frame.ite
    | with_reducible apply FrameR.ite
    | split

theorem frame_runOut (c core : Nat) (j : SegJob) (r : SegRun) (row rows i b p : Nat) (s : State) : FrameR 95102 127648098567802957466768813110627144168 s (runOut c core j r row rows i b p s) := by
  dsimp only [runOut, ok]
  repeat' first
    | with_reducible assumption
    | with_reducible exact Frame.refl _ _ _
    | intro _
    | apply Eq.refl true
    | apply Eq.refl (_ : Nat)
    | with_reducible apply FrameR.ok
    | with_reducible apply FrameR.halt
    | with_reducible apply FrameR.absent
    | with_reducible apply FrameR.then
    | with_reducible apply FrameR.each
    | with_reducible apply FrameR.run
    | with_reducible apply FrameR.of (g := frame_zeroOut ..)
    | with_reducible apply FrameR.of (g := frame_memVect ..)
    | with_reducible apply FrameR.of (g := frame_upCols ..)
    | with_reducible apply FrameR.of (g := frame_memCodes ..)
    | with_reducible apply FrameR.of (g := frame_devBytes ..)
    | with_reducible apply FrameR.of (g := frame_storeOut ..)
    | with_reducible apply Frame.step (g := frame_countSteps ..)
    | with_reducible apply FrameR.eqAbsent (e := by assumption)
    | with_reducible apply FrameR.eqHalt (e := by assumption)
    | with_reducible apply FrameR.eqOk (e := by assumption)
    | with_reducible apply Frame.ite
    | with_reducible apply FrameR.ite
    | split

theorem frame_chunkCols (c : Nat) (x : MRef) (row rows k0 n : Nat) (s : State) : FrameR 95102 127648098567802957466768813110627143680 s (chunkCols c x row rows k0 n s) := by
  dsimp only [chunkCols, ok]
  repeat' first
    | with_reducible assumption
    | with_reducible exact Frame.refl _ _ _
    | intro _
    | apply Eq.refl true
    | apply Eq.refl (_ : Nat)
    | with_reducible apply FrameR.ok
    | with_reducible apply FrameR.halt
    | with_reducible apply FrameR.absent
    | with_reducible apply FrameR.then
    | with_reducible apply FrameR.each
    | with_reducible apply FrameR.of (g := frame_memCodes ..)
    | with_reducible apply FrameR.eqAbsent (e := by assumption)
    | with_reducible apply FrameR.eqHalt (e := by assumption)
    | with_reducible apply FrameR.eqOk (e := by assumption)
    | with_reducible apply Frame.ite
    | with_reducible apply FrameR.ite
    | split

theorem frame_gradElem (c : Nat) (j : SegJob) (h ca : Nat) (fresh : Bool) (a b : List Nat) (s : State) : FrameR 95102 127648098567802957466768813110627143688 s (gradElem c j h ca fresh a b s) := by
  dsimp only [gradElem, ok]
  repeat' first
    | with_reducible assumption
    | with_reducible exact Frame.refl _ _ _
    | intro _
    | apply Eq.refl true
    | apply Eq.refl (_ : Nat)
    | with_reducible apply FrameR.ok
    | with_reducible apply FrameR.halt
    | with_reducible apply FrameR.absent
    | with_reducible apply FrameR.then
    | with_reducible apply FrameR.of (g := frame_memCodes ..)
    | with_reducible apply FrameR.of (g := frame_devPut ..)
    | with_reducible apply Frame.step (g := frame_segCount ..)
    | with_reducible apply FrameR.eqAbsent (e := by assumption)
    | with_reducible apply FrameR.eqHalt (e := by assumption)
    | with_reducible apply FrameR.eqOk (e := by assumption)
    | with_reducible apply Frame.ite
    | with_reducible apply FrameR.ite
    | split

theorem frame_runGa (c core : Nat) (j : SegJob) (r : SegRun) (chunk b : Nat) (s : State) : FrameR 95102 127648098567802957466768813110627144168 s (runGa c core j r chunk b s) := by
  dsimp only [runGa, ok]
  repeat' first
    | with_reducible assumption
    | with_reducible exact Frame.refl _ _ _
    | intro _
    | apply Eq.refl true
    | apply Eq.refl (_ : Nat)
    | with_reducible apply FrameR.ok
    | with_reducible apply FrameR.halt
    | with_reducible apply FrameR.absent
    | with_reducible apply FrameR.then
    | with_reducible apply FrameR.run
    | with_reducible apply FrameR.of (g := frame_chunkCols ..)
    | with_reducible apply FrameR.of (g := frame_gradElem ..)
    | with_reducible apply Frame.step (g := frame_countSteps ..)
    | with_reducible apply FrameR.eqAbsent (e := by assumption)
    | with_reducible apply FrameR.eqHalt (e := by assumption)
    | with_reducible apply FrameR.eqOk (e := by assumption)
    | with_reducible apply Frame.foldl
    | with_reducible apply Frame.foldl2
    | with_reducible apply Frame.ite
    | with_reducible apply FrameR.ite
    | split

theorem frame_runGb (c core : Nat) (j : SegJob) (r : SegRun) (chunk b : Nat) (s : State) : FrameR 95102 127648098567802957466768813110627144168 s (runGb c core j r chunk b s) := by
  dsimp only [runGb, ok]
  repeat' first
    | with_reducible assumption
    | with_reducible exact Frame.refl _ _ _
    | intro _
    | apply Eq.refl true
    | apply Eq.refl (_ : Nat)
    | with_reducible apply FrameR.ok
    | with_reducible apply FrameR.halt
    | with_reducible apply FrameR.absent
    | with_reducible apply FrameR.then
    | with_reducible apply FrameR.run
    | with_reducible apply FrameR.of (g := frame_chunkCols ..)
    | with_reducible apply FrameR.of (g := frame_gradElem ..)
    | with_reducible apply Frame.step (g := frame_countSteps ..)
    | with_reducible apply FrameR.eqAbsent (e := by assumption)
    | with_reducible apply FrameR.eqHalt (e := by assumption)
    | with_reducible apply FrameR.eqOk (e := by assumption)
    | with_reducible apply Frame.foldl
    | with_reducible apply Frame.foldl2
    | with_reducible apply Frame.ite
    | with_reducible apply FrameR.ite
    | split

theorem frame_runPanel (c core : Nat) (j : SegJob) (t : STask) (p : Nat) (s : State) : FrameR 95102 127648098567802957466768813110627144168 s (runPanel c core j t p s) := by
  dsimp only [runPanel, ok]
  repeat' first
    | with_reducible assumption
    | with_reducible exact Frame.refl _ _ _
    | intro _
    | apply Eq.refl true
    | apply Eq.refl (_ : Nat)
    | with_reducible apply FrameR.ok
    | with_reducible apply FrameR.halt
    | with_reducible apply FrameR.absent
    | with_reducible apply FrameR.then
    | with_reducible apply FrameR.of (g := frame_runLow ..)
    | with_reducible apply FrameR.of (g := frame_runOut ..)
    | with_reducible apply FrameR.of (g := frame_runGa ..)
    | with_reducible apply FrameR.of (g := frame_runGb ..)
    | with_reducible apply FrameR.eqAbsent (e := by assumption)
    | with_reducible apply FrameR.eqHalt (e := by assumption)
    | with_reducible apply FrameR.eqOk (e := by assumption)
    | with_reducible apply Frame.ite
    | with_reducible apply FrameR.ite
    | split

theorem frame_updTask (s : State) (job task : Nat) (f : SegTask → SegTask) : Frame 64 0 s (updTask s job task f) := by
  dsimp only [updTask, ok]
  repeat' first
    | with_reducible assumption
    | with_reducible exact Frame.refl _ _ _
    | intro _
    | apply Eq.refl true
    | apply Eq.refl (_ : Nat)
    | with_reducible apply Frame.step (g := frame_updSeg ..)
    | with_reducible apply Frame.ite
    | with_reducible apply Frame.mk_upd
    | (apply Or.inl; apply Eq.refl true)
    | (apply Or.inr; exact rfl)
    | (with_reducible_and_instances rfl)
    | split

theorem frame_panelStep (s : State) (job : Nat) (m : SegMul) (x : STask) (t : SegTask) (core : Nat) : Frame 95102 127648098567802957466768813110627144168 s (panelStep s job m x t core) := by
  dsimp only [panelStep, ok]
  repeat' first
    | with_reducible assumption
    | with_reducible exact Frame.refl _ _ _
    | intro _
    | apply Eq.refl true
    | apply Eq.refl (_ : Nat)
    | with_reducible apply FrameR.of (g := frame_runPanel ..)
    | with_reducible apply Frame.step (g := frame_updTask ..)
    | with_reducible apply Frame.step (g := frame_segFault ..)
    | with_reducible apply Frame.step (g := frame_halt ..)
    | with_reducible apply Frame.step (g := frame_haltFrom ..)
    | with_reducible apply FrameR.absent
    | with_reducible apply FrameR.eqAbsent (e := by assumption)
    | with_reducible apply FrameR.eqHalt (e := by assumption)
    | with_reducible apply FrameR.eqOk (e := by assumption)
    | with_reducible apply FrameR.halt
    | with_reducible apply FrameR.ite
    | with_reducible apply FrameR.ok
    | with_reducible apply FrameR.then
    | with_reducible apply FrameR.held
    | with_reducible apply Frame.ite
    | with_reducible apply Frame.pairIte
    | (apply Or.inl; apply Eq.refl true)
    | (apply Or.inr; exact rfl)
    | (with_reducible_and_instances rfl)
    | split
    | with_reducible apply Frame.mk_upd

theorem frame_panelSteps (a0 : Nat) (a1 : State) (a2 : Nat) (a3 : Nat) : Frame 95102 127648098567802957466768813110627144168 a1 (panelSteps a0 a1 a2 a3) := by
  induction a0 generalizing a1 a2 a3 with
  | zero =>
    dsimp only [panelSteps, ok]
    repeat' first
      | with_reducible assumption
      | with_reducible exact Frame.refl _ _ _
      | intro _
      | apply Eq.refl true
      | apply Eq.refl (_ : Nat)
      | with_reducible apply Frame.step (g := frame_panelStep ..)
      | with_reducible apply Frame.ite
      | split
  | succ n ih =>
    dsimp only [panelSteps, ok]
    repeat' first
      | with_reducible assumption
      | with_reducible exact Frame.refl _ _ _
      | intro _
      | with_reducible apply Frame.step (g := ih ..)
      | apply Eq.refl true
      | apply Eq.refl (_ : Nat)
      | with_reducible apply Frame.step (g := frame_panelStep ..)
      | with_reducible apply Frame.ite
      | split

theorem frame_taskEnd (s : State) (job task : Nat) : Frame 96 4104 s (taskEnd s job task) := by
  dsimp only [taskEnd, ok]
  repeat' first
    | with_reducible assumption
    | with_reducible exact Frame.refl _ _ _
    | intro _
    | apply Eq.refl true
    | apply Eq.refl (_ : Nat)
    | with_reducible apply Frame.step (g := frame_freeCore ..)
    | with_reducible apply Frame.step (g := frame_updTask ..)
    | with_reducible apply Frame.step (g := frame_censusApply ..)
    | with_reducible apply Frame.ite
    | (apply Or.inl; apply Eq.refl true)
    | (apply Or.inr; exact rfl)
    | (with_reducible_and_instances rfl)
    | split
    | with_reducible apply Frame.mk_upd

theorem frame_taskTick (s : State) (job task : Nat) : Frame 95102 127648098567802957466768813110627144168 s (taskTick s job task) := by
  dsimp only [taskTick, ok]
  repeat' first
    | with_reducible assumption
    | with_reducible exact Frame.refl _ _ _
    | intro _
    | apply Eq.refl true
    | apply Eq.refl (_ : Nat)
    | with_reducible apply Frame.step (g := frame_panelSteps ..)
    | with_reducible apply Frame.ite
    | split

theorem frame_execSegmulTaskDone (job task : Nat) (s : State) : FrameO 95102 127648098567802957466768813110627144168 s (execSegmulTaskDone job task s) := by
  dsimp only [execSegmulTaskDone, ok]
  repeat' first
    | with_reducible assumption
    | with_reducible exact Frame.refl _ _ _
    | intro _
    | apply Eq.refl true
    | apply Eq.refl (_ : Nat)
    | exact FrameO.fault
    | with_reducible apply FrameO.next
    | with_reducible apply Frame.step (g := frame_taskEnd ..)
    | with_reducible apply Frame.step (g := frame_panelSteps ..)
    | with_reducible apply Frame.ite
    | with_reducible apply FrameO.ite
    | split

theorem frame_execSegmulComplete (job : Nat) (s : State) : FrameO 82046 41539097825866026745940753193635840 s (execSegmulComplete job s) := by
  dsimp only [execSegmulComplete, ok]
  repeat' first
    | with_reducible assumption
    | with_reducible exact Frame.refl _ _ _
    | intro _
    | apply Eq.refl true
    | apply Eq.refl (_ : Nat)
    | exact FrameO.fault
    | with_reducible apply FrameO.next
    | with_reducible apply Frame.step (g := frame_dropSegHolds ..)
    | with_reducible apply Frame.step (g := frame_completeTo ..)
    | with_reducible apply Frame.ite
    | with_reducible apply FrameO.ite
    | (apply Or.inl; apply Eq.refl true)
    | (apply Or.inr; exact rfl)
    | (with_reducible_and_instances rfl)
    | split
    | with_reducible apply Frame.mk_upd

end Sys2Proof.Laws
end

