-- ==== Sys2Proof/Laws/FramePlace.lean ====
section
/-! SUPPORT. What each operation of Machine/Place.lean may change, as a frame (Laws/Frame.lean): the parts and registers by their bits. -/

namespace Sys2Proof.Laws

open Sys2Proof.Machine

theorem frame_execSegmulTaskDispatch (job task : Nat) (s : State) : FrameO 64 0 s (execSegmulTaskDispatch job task s) := by
  dsimp only [execSegmulTaskDispatch, ok]
  repeat' first
    | with_reducible assumption
    | with_reducible exact Frame.refl _ _ _
    | intro _
    | apply Eq.refl true
    | apply Eq.refl (_ : Nat)
    | exact FrameO.fault
    | with_reducible apply FrameO.next
    | with_reducible apply Frame.step (g := frame_updSeg ..)
    | with_reducible apply Frame.ite
    | with_reducible apply FrameO.ite
    | with_reducible apply Frame.pairIte
    | (apply Or.inl; apply Eq.refl true)
    | (apply Or.inr; exact rfl)
    | (with_reducible_and_instances rfl)
    | split
    | with_reducible apply Frame.mk_upd

theorem frame_startRegs (s : State) (l : Launch) (core slot idx g : Nat) : Frame 32 0 s (startRegs s l core slot idx g) := by
  dsimp only [startRegs, ok]
  repeat' first
    | with_reducible assumption
    | with_reducible exact Frame.refl _ _ _
    | intro _
    | apply Eq.refl true
    | apply Eq.refl (_ : Nat)
    | with_reducible apply Frame.foldl
    | with_reducible apply Frame.foldl2
    | with_reducible apply Frame.ite
    | with_reducible apply Frame.mk_upd
    | (apply Or.inl; apply Eq.refl true)
    | (apply Or.inr; exact rfl)
    | (with_reducible_and_instances rfl)
    | split

theorem frame_startSlot (s : State) (l : Launch) (b : BlockRec) (slot g : Nat) : Frame 48 0 s (startSlot s l b slot g) := by
  dsimp only [startSlot, ok]
  repeat' first
    | with_reducible assumption
    | with_reducible exact Frame.refl _ _ _
    | intro _
    | apply Eq.refl true
    | apply Eq.refl (_ : Nat)
    | with_reducible apply Frame.step (g := frame_setSlot ..)
    | with_reducible apply Frame.step (g := frame_startRegs ..)
    | with_reducible apply Frame.ite
    | split

theorem frame_putBlock (s : State) (l : Launch) (idx core : Nat) : Frame 16442 41538374868278621029937709240553472 s (putBlock s l idx core) := by
  dsimp only [putBlock, ok]
  repeat' first
    | with_reducible assumption
    | with_reducible exact Frame.refl _ _ _
    | intro _
    | apply Eq.refl true
    | apply Eq.refl (_ : Nat)
    | with_reducible apply Frame.step (g := frame_State_restart ..)
    | with_reducible apply Frame.step (g := frame_setSplit ..)
    | with_reducible apply Frame.step (g := frame_startSlot ..)
    | with_reducible apply Frame.step (g := frame_updLaunch ..)
    | with_reducible apply Frame.step (g := frame_showCore ..)
    | with_reducible apply Frame.foldl
    | with_reducible apply Frame.foldl2
    | with_reducible apply Frame.ite
    | with_reducible apply Frame.pairIte
    | with_reducible apply Frame.mk_upd
    | (apply Or.inl; apply Eq.refl true)
    | (apply Or.inr; exact rfl)
    | (with_reducible_and_instances rfl)
    | split

theorem frame_execBlockPlace (launch idx core : Nat) (s : State) : FrameO 16442 41538374868278621029937709240553472 s (execBlockPlace launch idx core s) := by
  dsimp only [execBlockPlace, ok]
  repeat' first
    | with_reducible assumption
    | with_reducible exact Frame.refl _ _ _
    | intro _
    | apply Eq.refl true
    | apply Eq.refl (_ : Nat)
    | exact FrameO.fault
    | with_reducible apply FrameO.next
    | with_reducible apply Frame.step (g := frame_putBlock ..)
    | with_reducible apply Frame.ite
    | with_reducible apply FrameO.ite
    | split

theorem frame_execCoreBind (core : Nat) (s : State) : FrameO 16418 41538374868278621029937709240553472 s (execCoreBind core s) := by
  dsimp only [execCoreBind, ok]
  repeat' first
    | with_reducible assumption
    | with_reducible exact Frame.refl _ _ _
    | intro _
    | apply Eq.refl true
    | apply Eq.refl (_ : Nat)
    | exact FrameO.fault
    | with_reducible apply FrameO.next
    | with_reducible apply Frame.put
    | with_reducible apply Frame.step (g := frame_clearCore ..)
    | with_reducible apply Frame.step (g := frame_glInvalidate ..)
    | with_reducible apply Frame.step (g := frame_glFlush ..)
    | with_reducible apply Frame.step (g := frame_setFlags ..)
    | with_reducible apply Frame.ite
    | with_reducible apply FrameO.ite
    | (apply Or.inl; apply Eq.refl true)
    | (apply Or.inr; exact rfl)
    | (with_reducible_and_instances rfl)
    | split
    | with_reducible apply Frame.mk_upd

theorem frame_execBindZeroDone (core : Nat) (s : State) : FrameO 32 0 s (execBindZeroDone core s) := by
  dsimp only [execBindZeroDone, ok]
  repeat' first
    | with_reducible assumption
    | with_reducible exact Frame.refl _ _ _
    | intro _
    | apply Eq.refl true
    | apply Eq.refl (_ : Nat)
    | exact FrameO.fault
    | with_reducible apply FrameO.next
    | with_reducible apply Frame.step (g := frame_setFlags ..)
    | with_reducible apply Frame.ite
    | with_reducible apply Frame.mk_upd
    | with_reducible apply FrameO.ite
    | (apply Or.inl; apply Eq.refl true)
    | (apply Or.inr; exact rfl)
    | (with_reducible_and_instances rfl)
    | split

theorem frame_execBindQuantumExpire (core ctx : Nat) (s : State) : FrameO 32 4096 s (execBindQuantumExpire core ctx s) := by
  dsimp only [execBindQuantumExpire, ok]
  repeat' first
    | with_reducible assumption
    | with_reducible exact Frame.refl _ _ _
    | intro _
    | apply Eq.refl true
    | apply Eq.refl (_ : Nat)
    | exact FrameO.fault
    | with_reducible apply FrameO.next
    | with_reducible apply Frame.step (g := frame_freeCore ..)
    | with_reducible apply Frame.step (g := frame_setFlags ..)
    | with_reducible apply Frame.ite
    | with_reducible apply Frame.mk_upd
    | with_reducible apply FrameO.ite
    | (apply Or.inl; apply Eq.refl true)
    | (apply Or.inr; exact rfl)
    | (with_reducible_and_instances rfl)
    | split

end Sys2Proof.Laws
end

