-- ==== Sys2Proof/Laws/FrameSegments.lean ====
section
/-! SUPPORT. What each operation of Machine/Segments.lean may change, as a frame (Laws/Frame.lean): the parts and registers by their bits. -/

namespace Sys2Proof.Laws

open Sys2Proof.Machine

theorem frame_wakeThreads (s : State) (c sg : Nat) : Frame 16 0 s (wakeThreads s c sg) := by
  dsimp only [wakeThreads, ok]
  repeat' first
    | with_reducible assumption
    | with_reducible exact Frame.refl _ _ _
    | intro _
    | apply Eq.refl true
    | apply Eq.refl (_ : Nat)
    | with_reducible apply Frame.step (g := frame_updFrags ..)
    | with_reducible apply Frame.ite
    | (apply Or.inl; apply Eq.refl true)
    | (apply Or.inr; exact rfl)
    | (with_reducible_and_instances rfl)
    | split
    | with_reducible apply Frame.mk_upd

theorem frame_wakeJobs (s : State) (c sg : Nat) : Frame 95102 127648098567802957466768813110627143680 s (wakeJobs s c sg) := by
  dsimp only [wakeJobs, ok]
  repeat' first
    | with_reducible assumption
    | with_reducible exact Frame.refl _ _ _
    | intro _
    | apply Eq.refl true
    | apply Eq.refl (_ : Nat)
    | with_reducible apply Frame.step (g := frame_updJob ..)
    | with_reducible apply Frame.step (g := frame_segAccept ..)
    | with_reducible apply Frame.step (g := frame_startHead ..)
    | with_reducible apply Frame.foldl
    | with_reducible apply Frame.foldl2
    | with_reducible apply Frame.ite
    | (apply Or.inl; apply Eq.refl true)
    | (apply Or.inr; exact rfl)
    | (with_reducible_and_instances rfl)
    | split
    | with_reducible apply Frame.mk_upd

theorem frame_wakeTasks (s : State) (c sg : Nat) : Frame 64 0 s (wakeTasks s c sg) := by
  dsimp only [wakeTasks, ok]
  repeat' first
    | with_reducible assumption
    | with_reducible exact Frame.refl _ _ _
    | intro _
    | apply Eq.refl true
    | apply Eq.refl (_ : Nat)
    | with_reducible apply Frame.ite
    | with_reducible apply Frame.mk_upd
    | (apply Or.inl; apply Eq.refl true)
    | (apply Or.inr; exact rfl)
    | (with_reducible_and_instances rfl)
    | split

theorem frame_wakeLaunches (s : State) (c sg : Nat) : Frame 8 79228162514264337593543950336 s (wakeLaunches s c sg) := by
  dsimp only [wakeLaunches, ok]
  repeat' first
    | with_reducible assumption
    | with_reducible exact Frame.refl _ _ _
    | intro _
    | apply Eq.refl true
    | apply Eq.refl (_ : Nat)
    | with_reducible apply Frame.step (g := frame_setQ ..)
    | with_reducible apply Frame.foldl
    | with_reducible apply Frame.foldl2
    | with_reducible apply Frame.ite
    | with_reducible apply Frame.mk_upd
    | (apply Or.inl; apply Eq.refl true)
    | (apply Or.inr; exact rfl)
    | (with_reducible_and_instances rfl)
    | split

theorem frame_segResume (s : State) (c sg : Nat) : Frame 95102 127648098567802957466768813110627143680 s (segResume s c sg) := by
  dsimp only [segResume, ok]
  repeat' first
    | with_reducible assumption
    | with_reducible exact Frame.refl _ _ _
    | intro _
    | apply Eq.refl true
    | apply Eq.refl (_ : Nat)
    | with_reducible apply Frame.step (g := frame_showParked ..)
    | with_reducible apply Frame.step (g := frame_wakeLaunches ..)
    | with_reducible apply Frame.step (g := frame_wakeTasks ..)
    | with_reducible apply Frame.step (g := frame_wakeJobs ..)
    | with_reducible apply Frame.step (g := frame_wakeThreads ..)
    | with_reducible apply Frame.ite
    | with_reducible apply Frame.mk_upd
    | (apply Or.inl; apply Eq.refl true)
    | (apply Or.inr; exact rfl)
    | (with_reducible_and_instances rfl)
    | split

theorem frame_segApply (s : State) (c sg attr : Nat) : Frame 95102 127648098567802957466822856306155589632 s (segApply s c sg attr) := by
  dsimp only [segApply, ok]
  repeat' first
    | with_reducible assumption
    | with_reducible exact Frame.refl _ _ _
    | intro _
    | apply Eq.refl true
    | apply Eq.refl (_ : Nat)
    | with_reducible apply Frame.put
    | with_reducible apply Frame.bump
    | with_reducible apply Frame.setWord
    | with_reducible apply Frame.step (g := frame_segResume ..)
    | with_reducible apply Frame.ite
    | with_reducible apply Frame.mk_upd
    | (apply Or.inl; apply Eq.refl true)
    | (apply Or.inr; exact rfl)
    | (with_reducible_and_instances rfl)
    | split

theorem frame_execSegApply (c sg attr : Nat) (s : State) : FrameO 95103 127648098567802957466822856306155589632 s (execSegApply c sg attr s) := by
  dsimp only [execSegApply, ok]
  repeat' first
    | with_reducible assumption
    | with_reducible exact Frame.refl _ _ _
    | intro _
    | apply Eq.refl true
    | apply Eq.refl (_ : Nat)
    | exact FrameO.fault
    | with_reducible apply FrameO.next
    | with_reducible apply Frame.step (g := frame_segApply ..)
    | with_reducible apply Frame.step (g := frame_wideWrite ..)
    | with_reducible apply FrameO.bar0
    | with_reducible apply Frame.ite
    | with_reducible apply FrameO.ite
    | split

theorem frame_parkedHalt (s : State) (c sg : Nat) (p : Parked) : Frame 78718 127606560192934678845738875411050270720 s (parkedHalt s c sg p) := by
  dsimp only [parkedHalt, ok]
  repeat' first
    | with_reducible assumption
    | with_reducible exact Frame.refl _ _ _
    | intro _
    | apply Eq.refl true
    | apply Eq.refl (_ : Nat)
    | with_reducible apply Frame.step (g := frame_halt ..)
    | with_reducible apply Frame.step (g := frame_haltFrom ..)
    | with_reducible apply Frame.ite
    | split

theorem frame_execSegFaultTimeout (c sg : Nat) (s : State) : FrameO 78718 127606560192934678845738875411050270720 s (execSegFaultTimeout c sg s) := by
  dsimp only [execSegFaultTimeout, ok]
  repeat' first
    | with_reducible assumption
    | with_reducible exact Frame.refl _ _ _
    | intro _
    | apply Eq.refl true
    | apply Eq.refl (_ : Nat)
    | exact FrameO.fault
    | with_reducible apply FrameO.next
    | with_reducible apply Frame.step (g := frame_parkedHalt ..)
    | with_reducible apply Frame.ite
    | with_reducible apply FrameO.ite
    | split

theorem frame_newKeys (s : State) (k : Nat) : Frame 2 0 s (newKeys s k) := by
  dsimp only [newKeys, ok]
  repeat' first
    | with_reducible assumption
    | with_reducible exact Frame.refl _ _ _
    | intro _
    | apply Eq.refl true
    | apply Eq.refl (_ : Nat)
    | with_reducible apply Frame.ite
    | with_reducible apply Frame.mk_upd
    | (apply Or.inl; apply Eq.refl true)
    | (apply Or.inr; exact rfl)
    | (with_reducible_and_instances rfl)
    | split

theorem frame_keyZero (s : State) (k : Nat) : Frame 2 288230376151711744 s (keyZero s k) := by
  dsimp only [keyZero, ok]
  repeat' first
    | with_reducible assumption
    | with_reducible exact Frame.refl _ _ _
    | intro _
    | apply Eq.refl true
    | apply Eq.refl (_ : Nat)
    | with_reducible apply Frame.put
    | with_reducible apply Frame.ite
    | with_reducible apply Frame.mk_upd
    | (apply Or.inl; apply Eq.refl true)
    | (apply Or.inr; exact rfl)
    | (with_reducible_and_instances rfl)
    | split

theorem frame_keyFree (s : State) (k : Nat) : Frame 2 288230376151711744 s (keyFree s k) := by
  dsimp only [keyFree, ok]
  repeat' first
    | with_reducible assumption
    | with_reducible exact Frame.refl _ _ _
    | intro _
    | apply Eq.refl true
    | apply Eq.refl (_ : Nat)
    | with_reducible apply Frame.setWord
    | with_reducible apply Frame.step (g := frame_keyZero ..)
    | with_reducible apply Frame.ite
    | split

theorem frame_keyWrite (s : State) (k v : Nat) : Frame 2 288230376151711744 s (keyWrite s k v) := by
  dsimp only [keyWrite, ok]
  repeat' first
    | with_reducible assumption
    | with_reducible exact Frame.refl _ _ _
    | intro _
    | apply Eq.refl true
    | apply Eq.refl (_ : Nat)
    | with_reducible apply Frame.put
    | with_reducible apply Frame.step (g := frame_keyZero ..)
    | with_reducible apply Frame.ite
    | split

theorem frame_execKeySlotWrite (k val : Nat) (s : State) : FrameO 2 288230376151711744 s (execKeySlotWrite k val s) := by
  dsimp only [execKeySlotWrite, ok]
  repeat' first
    | with_reducible assumption
    | with_reducible exact Frame.refl _ _ _
    | intro _
    | apply Eq.refl true
    | apply Eq.refl (_ : Nat)
    | exact FrameO.fault
    | with_reducible apply FrameO.next
    | with_reducible apply Frame.step (g := frame_keyWrite ..)
    | with_reducible apply FrameO.bar0
    | with_reducible apply Frame.ite
    | with_reducible apply FrameO.ite
    | split

theorem frame_execKeyGenDone (k : Nat) (s : State) : FrameO 2 288230376151711744 s (execKeyGenDone k s) := by
  dsimp only [execKeyGenDone, ok]
  repeat' first
    | with_reducible assumption
    | with_reducible exact Frame.refl _ _ _
    | intro _
    | apply Eq.refl true
    | apply Eq.refl (_ : Nat)
    | exact FrameO.fault
    | with_reducible apply FrameO.next
    | with_reducible apply Frame.put
    | with_reducible apply Frame.step (g := frame_newKeys ..)
    | with_reducible apply Frame.step (g := frame_keyZero ..)
    | with_reducible apply Frame.ite
    | with_reducible apply FrameO.ite
    | split

end Sys2Proof.Laws
end

