-- ==== Sys2Proof/Laws/FrameTender.lean ====
section
/-! SUPPORT. What each operation of Machine/Tender.lean may change, as a frame (Laws/Frame.lean): the parts and registers by their bits. -/

namespace Sys2Proof.Laws

open Sys2Proof.Machine

theorem frame_tCheck (j : EngJob) (p : TPlace) (n : Nat) (need : Need) (s : State) : FrameR 78718 127606560192934678845738875411050270720 s (tCheck j p n need s) := by
  dsimp only [tCheck, ok]
  repeat' first
    | with_reducible assumption
    | with_reducible exact Frame.refl _ _ _
    | intro _
    | apply Eq.refl true
    | apply Eq.refl (_ : Nat)
    | with_reducible apply FrameR.ok
    | with_reducible apply FrameR.halt
    | with_reducible apply FrameR.absent
    | with_reducible apply FrameR.then
    | with_reducible apply FrameR.of (g := frame_placeOf ..)
    | with_reducible apply Frame.step (g := frame_halt ..)
    | with_reducible apply FrameR.eqAbsent (e := by assumption)
    | with_reducible apply FrameR.eqHalt (e := by assumption)
    | with_reducible apply FrameR.eqOk (e := by assumption)
    | with_reducible apply Frame.ite
    | with_reducible apply FrameR.ite
    | split

theorem frame_tGet (j : EngJob) (p : TPlace) (n : Nat) (s : State) : FrameR 95102 127648098567802957466768813110627143680 s (tGet j p n s) := by
  dsimp only [tGet, ok]
  repeat' first
    | with_reducible assumption
    | with_reducible exact Frame.refl _ _ _
    | intro _
    | apply Eq.refl true
    | apply Eq.refl (_ : Nat)
    | with_reducible apply FrameR.ok
    | with_reducible apply FrameR.halt
    | with_reducible apply FrameR.absent
    | with_reducible apply FrameR.then
    | with_reducible apply Frame.step (g := frame_halt ..)
    | with_reducible apply FrameR.of (g := frame_placeOf ..)
    | with_reducible apply Frame.step (g := frame_devRead ..)
    | with_reducible apply Frame.eqSnd (e := by assumption)
    | with_reducible apply FrameR.eqAbsent (e := by assumption)
    | with_reducible apply FrameR.eqHalt (e := by assumption)
    | with_reducible apply FrameR.eqOk (e := by assumption)
    | with_reducible apply Frame.foldl
    | with_reducible apply Frame.foldl2
    | with_reducible apply Frame.ite
    | with_reducible apply FrameR.ite
    | with_reducible apply Frame.pairIte
    | split

theorem frame_tPut (j : EngJob) (p : TPlace) (l : List Sector) (s : State) : FrameR 95102 127648098567802957466768813110627143680 s (tPut j p l s) := by
  dsimp only [tPut, ok]
  repeat' first
    | with_reducible assumption
    | with_reducible exact Frame.refl _ _ _
    | intro _
    | apply Eq.refl true
    | apply Eq.refl (_ : Nat)
    | with_reducible apply FrameR.ok
    | with_reducible apply FrameR.halt
    | with_reducible apply FrameR.absent
    | with_reducible apply FrameR.then
    | with_reducible apply Frame.step (g := frame_halt ..)
    | with_reducible apply Frame.step (g := frame_sramWrite ..)
    | with_reducible apply FrameR.of (g := frame_placeOf ..)
    | with_reducible apply Frame.step (g := frame_hostWrite ..)
    | with_reducible apply Frame.step (g := frame_sectorWrite ..)
    | with_reducible apply FrameR.eqAbsent (e := by assumption)
    | with_reducible apply FrameR.eqHalt (e := by assumption)
    | with_reducible apply FrameR.eqOk (e := by assumption)
    | with_reducible apply Frame.foldl
    | with_reducible apply Frame.foldl2
    | with_reducible apply Frame.ite
    | with_reducible apply FrameR.ite
    | with_reducible apply Frame.pairIte
    | split

theorem frame_engBytes (s : State) (u n : Nat) : Frame 0 1152921504606846976 s (engBytes s u n) := by
  dsimp only [engBytes, ok]
  repeat' first
    | with_reducible assumption
    | with_reducible exact Frame.refl _ _ _
    | intro _
    | apply Eq.refl true
    | apply Eq.refl (_ : Nat)
    | with_reducible apply Frame.bump
    | with_reducible apply Frame.ite
    | split

theorem frame_tenderIndex (j : EngJob) (t : TenderJob) (s : State) : FrameR 95102 127648098567802957466768813110627143680 s (tenderIndex j t s) := by
  dsimp only [tenderIndex, ok]
  repeat' first
    | with_reducible assumption
    | with_reducible exact Frame.refl _ _ _
    | intro _
    | apply Eq.refl true
    | apply Eq.refl (_ : Nat)
    | with_reducible apply FrameR.ok
    | with_reducible apply FrameR.halt
    | with_reducible apply FrameR.absent
    | with_reducible apply FrameR.then
    | with_reducible apply FrameR.of (g := frame_memCodes ..)
    | with_reducible apply FrameR.eqAbsent (e := by assumption)
    | with_reducible apply FrameR.eqHalt (e := by assumption)
    | with_reducible apply FrameR.eqOk (e := by assumption)
    | with_reducible apply Frame.ite
    | with_reducible apply FrameR.ite
    | split

theorem frame_srcCheck (j : EngJob) (t : TenderJob) (p : TPlace) (n : Nat) (s : State) : FrameR 78718 127606560192934678845738875411050270720 s (srcCheck j t p n s) := by
  dsimp only [srcCheck, ok]
  repeat' first
    | with_reducible assumption
    | with_reducible exact Frame.refl _ _ _
    | intro _
    | apply Eq.refl true
    | apply Eq.refl (_ : Nat)
    | with_reducible apply FrameR.ok
    | with_reducible apply FrameR.halt
    | with_reducible apply FrameR.absent
    | with_reducible apply FrameR.then
    | with_reducible apply FrameR.of (g := frame_devCheck ..)
    | with_reducible apply Frame.step (g := frame_halt ..)
    | with_reducible apply FrameR.of (g := frame_tCheck ..)
    | with_reducible apply FrameR.eqAbsent (e := by assumption)
    | with_reducible apply FrameR.eqHalt (e := by assumption)
    | with_reducible apply FrameR.eqOk (e := by assumption)
    | with_reducible apply Frame.ite
    | with_reducible apply FrameR.ite
    | split

theorem frame_tenderCheck (j : EngJob) (t : TenderJob) (s : State) : FrameR 95102 127648098567802957467921734615233990656 s (tenderCheck j t s) := by
  dsimp only [tenderCheck, ok]
  repeat' first
    | with_reducible assumption
    | with_reducible exact Frame.refl _ _ _
    | intro _
    | apply Eq.refl true
    | apply Eq.refl (_ : Nat)
    | with_reducible apply FrameR.ok
    | with_reducible apply FrameR.halt
    | with_reducible apply FrameR.absent
    | with_reducible apply FrameR.then
    | with_reducible apply FrameR.run
    | with_reducible apply Frame.step (g := frame_halt ..)
    | with_reducible apply FrameR.of (g := frame_tenderIndex ..)
    | with_reducible apply FrameR.of (g := frame_srcCheck ..)
    | with_reducible apply FrameR.of (g := frame_tCheck ..)
    | with_reducible apply Frame.step (g := frame_censusCheckOpt ..)
    | with_reducible apply Frame.step (g := frame_engBytes ..)
    | with_reducible apply Frame.eqSnd (e := by assumption)
    | with_reducible apply FrameR.eqAbsent (e := by assumption)
    | with_reducible apply FrameR.eqHalt (e := by assumption)
    | with_reducible apply FrameR.eqOk (e := by assumption)
    | with_reducible apply Frame.ite
    | with_reducible apply FrameR.ite
    | split

theorem frame_stepCount (s : State) (t : TenderJob) (scales : List Sector) (codes : List Nat) : Frame 64 8 s (stepCount s t scales codes) := by
  dsimp only [stepCount, ok]
  repeat' first
    | with_reducible assumption
    | with_reducible exact Frame.refl _ _ _
    | intro _
    | apply Eq.refl true
    | apply Eq.refl (_ : Nat)
    | with_reducible apply Frame.step (g := frame_censusAdd ..)
    | with_reducible apply Frame.step (g := frame_censusCodes ..)
    | with_reducible apply Frame.ite
    | with_reducible apply Frame.pairIte
    | split

theorem frame_tenderStep (j : EngJob) (t : TenderJob) (idx : List Nat) (x : TStep) (s : State) : FrameR 95102 127648098567802957467921734615233990664 s (tenderStep j t idx x s) := by
  dsimp only [tenderStep, ok]
  repeat' first
    | with_reducible assumption
    | with_reducible exact Frame.refl _ _ _
    | intro _
    | apply Eq.refl true
    | apply Eq.refl (_ : Nat)
    | with_reducible apply FrameR.ok
    | with_reducible apply FrameR.halt
    | with_reducible apply FrameR.absent
    | with_reducible apply FrameR.then
    | with_reducible apply FrameR.each
    | with_reducible apply FrameR.of (g := frame_devGet ..)
    | with_reducible apply Frame.step (g := frame_engBytes ..)
    | with_reducible apply FrameR.of (g := frame_tGet ..)
    | with_reducible apply FrameR.of (g := frame_tPut ..)
    | with_reducible apply Frame.step (g := frame_stepCount ..)
    | with_reducible apply FrameR.eqAbsent (e := by assumption)
    | with_reducible apply FrameR.eqHalt (e := by assumption)
    | with_reducible apply FrameR.eqOk (e := by assumption)
    | with_reducible apply Frame.foldl
    | with_reducible apply Frame.foldl2
    | with_reducible apply Frame.ite
    | with_reducible apply FrameR.ite
    | with_reducible apply Frame.pairIte
    | split

theorem FrameR.tenderRun {ps rs : Nat} {s0 s : State} {j : EngJob} {t : TenderJob} {idx : List Nat} {note : State → State} {l : List TStep}
    (h : Frame ps rs s0 s) (hp : 95102 ||| ps = ps) (hr : 127648098567802957467921734615233990664 ||| rs = rs)
    (hn : ∀ u, Frame ps rs s0 u → Frame ps rs s0 (note u)) : FrameR ps rs s0 (tenderRun j t idx note l s) := by
  dsimp only [Machine.tenderRun]
  refine .run h (fun x u hu => .then (.of hu ((frame_tenderStep ..).mono rfl rfl) hp hr) (fun _ v hv => .ok (hn v hv)))

theorem frame_readLines (s : State) (j : EngJob) (lines : List Nat) : Frame 65548 0 s (readLines s j lines) := by
  dsimp only [readLines, ok]
  repeat' first
    | with_reducible assumption
    | with_reducible exact Frame.refl _ _ _
    | intro _
    | apply Eq.refl true
    | apply Eq.refl (_ : Nat)
    | with_reducible apply Frame.foldl
    | with_reducible apply Frame.foldl2
    | with_reducible apply Frame.ite
    | with_reducible apply Frame.mk_upd
    | (apply Or.inl; apply Eq.refl true)
    | (apply Or.inr; exact rfl)
    | (with_reducible_and_instances rfl)
    | split

theorem Frame.jobRes {ps rs : Nat} {s0 : State} {α : Type} {j : EngJob} {r : Res α} {k : α → State → State} (h : FrameR ps rs s0 r)
    (hp : 78718 ||| ps = ps) (hr : 127606560192934678845738875411050270720 ||| rs = rs) (hk : ∀ v u, Frame ps rs s0 u → Frame ps rs s0 (k v u)) :
    Frame ps rs s0 (jobRes j r k) := by
  have w {t u : State} (x : Frame ps rs s0 t) (y : Frame 78718 127606560192934678845738875411050270720 t u) : Frame ps rs s0 u := x.step y hp hr
  dsimp only [Machine.jobRes]
  split
  · exact hk _ _ (h.eqOk rfl)
  · exact w (w (h.eqAbsent rfl) ((frame_parkJob ..).mono rfl rfl)) ((frame_startHead ..).mono rfl rfl)
  · exact w (h.eqHalt rfl) ((frame_haltJob ..).mono rfl rfl)

theorem Frame.tenderDo {ps rs : Nat} {s0 s : State} {j : EngJob} {t : TenderJob} {l : List TStep} {k : State → State}
    (h : Frame ps rs s0 s) (hp : 95102 ||| ps = ps) (hr : 127648139132622164771262582509736562696 ||| rs = rs)
    (hk : ∀ u, Frame ps rs s0 u → Frame ps rs s0 (k u)) : Frame ps rs s0 (tenderDo s j t l k) := by
  have w {t u : State} (x : Frame ps rs s0 t) (y : Frame 95102 127648139132622164771262582509736562696 t u) : Frame ps rs s0 u := x.step y hp hr
  have m {a b : Nat} (e : a ||| 95102 = 95102) (f : b ||| 127648139132622164771262582509736562696 = 127648139132622164771262582509736562696) : a ||| ps = ps ∧ b ||| rs = rs := by
    rw [← hp, ← hr, ← Nat.or_assoc, ← Nat.or_assoc, e, f]; exact ⟨rfl, rfl⟩
  have z := m (a := 78718) (b := 127606560192934678845738875411050270720) rfl rfl
  have y := m (a := 95102) (b := 127648098567802957467921734615233990664) rfl rfl
  dsimp only [Machine.tenderDo]
  refine .jobRes (.of h ((frame_tenderIndex ..).mono rfl rfl) hp hr) z.1 z.2 (fun idx u hu => ?_)
  refine .ite (fun _ => w hu ((frame_hostPathLost ..).mono rfl rfl)) (fun _ => .ite (fun _ => w hu ((frame_readLines ..).mono rfl rfl)) (fun _ => ?_))
  refine .jobRes (.tenderRun hu y.1 y.2 (fun v hv => w hv ((frame_updJob ..).mono rfl rfl))) z.1 z.2 (fun _ v hv => hk _ (w hv ((frame_updJob ..).mono rfl rfl)))

theorem frame_tenderAccept (s : State) (j : EngJob) (t : TenderJob) : Frame 95102 127648098567802957467921734615233990656 s (tenderAccept s j t) := by
  dsimp only [tenderAccept, ok]
  repeat' first
    | with_reducible assumption
    | with_reducible exact Frame.refl _ _ _
    | intro _
    | apply Eq.refl true
    | apply Eq.refl (_ : Nat)
    | with_reducible apply FrameR.of (g := frame_tenderCheck ..)
    | with_reducible apply Frame.step (g := frame_updJob ..)
    | with_reducible apply FrameR.absent
    | with_reducible apply FrameR.eqAbsent (e := by assumption)
    | with_reducible apply FrameR.eqHalt (e := by assumption)
    | with_reducible apply FrameR.eqOk (e := by assumption)
    | with_reducible apply FrameR.halt
    | with_reducible apply FrameR.ite
    | with_reducible apply FrameR.ok
    | with_reducible apply FrameR.then
    | with_reducible apply Frame.jobRes
    | with_reducible apply Frame.ite
    | with_reducible apply Frame.mk_upd
    | (apply Or.inl; apply Eq.refl true)
    | (apply Or.inr; exact rfl)
    | (with_reducible_and_instances rfl)
    | split

theorem frame_tenderTick (s : State) (j : EngJob) (t : TenderJob) : Frame 95102 127648139132622164771262582509736562696 s (tenderTick s j t) := by
  dsimp only [tenderTick, ok]
  repeat' first
    | with_reducible assumption
    | with_reducible exact Frame.refl _ _ _
    | intro _
    | apply Eq.refl true
    | apply Eq.refl (_ : Nat)
    | with_reducible apply Frame.step (g := frame_tenderAccept ..)
    | with_reducible apply Frame.tenderDo
    | with_reducible apply Frame.ite
    | assumption
    | split

theorem frame_tenderComplete (s : State) (j : EngJob) (t : TenderJob) : Frame 95102 127648139132622164771262582519400239112 s (tenderComplete s j t) := by
  dsimp only [tenderComplete, ok]
  repeat' first
    | with_reducible assumption
    | with_reducible exact Frame.refl _ _ _
    | intro _
    | apply Eq.refl true
    | apply Eq.refl (_ : Nat)
    | with_reducible apply FrameR.of (g := frame_tenderIndex ..)
    | with_reducible apply Frame.step (g := frame_finishJob ..)
    | with_reducible apply Frame.step (g := frame_halt ..)
    | with_reducible apply Frame.step (g := frame_tenderAccept ..)
    | with_reducible apply FrameR.absent
    | with_reducible apply FrameR.eqAbsent (e := by assumption)
    | with_reducible apply FrameR.eqHalt (e := by assumption)
    | with_reducible apply FrameR.eqOk (e := by assumption)
    | with_reducible apply FrameR.halt
    | with_reducible apply FrameR.ite
    | with_reducible apply FrameR.ok
    | with_reducible apply FrameR.then
    | with_reducible apply FrameR.tenderRun
    | with_reducible apply Frame.tenderDo
    | with_reducible apply Frame.ite
    | (apply Or.inl; apply Eq.refl true)
    | (apply Or.inr; exact rfl)
    | (with_reducible_and_instances rfl)
    | split
    | with_reducible apply Frame.mk_upd

theorem frame_tenderIssue (s : State) (at_ : At) (iss : Issue) (unit : Nat) (t : TenderJob) : FrameO 95102 127648098567802957466768813110628200448 s (tenderIssue s at_ iss unit t) := by
  dsimp only [tenderIssue, ok, issueOp]
  repeat' first
    | with_reducible assumption
    | with_reducible exact Frame.refl _ _ _
    | intro _
    | apply Eq.refl true
    | apply Eq.refl (_ : Nat)
    | exact FrameO.fault
    | with_reducible apply FrameO.next
    | with_reducible apply Frame.step (g := frame_refuse ..)
    | with_reducible apply Frame.step (g := frame_haltTh ..)
    | with_reducible apply Frame.step (g := frame_issueTo ..)
    | with_reducible apply FrameO.instr
    | with_reducible apply Frame.ite
    | with_reducible apply FrameO.ite
    | with_reducible apply Frame.pairIte
    | split

theorem frame_execTenderCopy (at_ : At) (iss : Issue) (unit : Nat) (job : TenderJob) (s : State) : FrameO 95102 127648098567802957466768813110628200448 s (execTenderCopy at_ iss unit job s) := by
  dsimp only [execTenderCopy, ok]
  repeat' first
    | with_reducible assumption
    | with_reducible exact Frame.refl _ _ _
    | intro _
    | apply Eq.refl true
    | apply Eq.refl (_ : Nat)
    | exact FrameO.fault
    | with_reducible apply FrameO.next
    | with_reducible apply FrameO.of (g := frame_tenderIssue ..)
    | with_reducible apply Frame.ite
    | with_reducible apply Frame.mk_upd
    | with_reducible apply FrameO.ite
    | (apply Or.inl; apply Eq.refl true)
    | (apply Or.inr; exact rfl)
    | (with_reducible_and_instances rfl)
    | split

theorem frame_execTenderGather (at_ : At) (iss : Issue) (unit : Nat) (job : TenderJob) (s : State) : FrameO 95102 127648098567802957466768813110628200448 s (execTenderGather at_ iss unit job s) := by
  dsimp only [execTenderGather, ok]
  repeat' first
    | with_reducible assumption
    | with_reducible exact Frame.refl _ _ _
    | intro _
    | apply Eq.refl true
    | apply Eq.refl (_ : Nat)
    | exact FrameO.fault
    | with_reducible apply FrameO.next
    | with_reducible apply FrameO.of (g := frame_tenderIssue ..)
    | with_reducible apply Frame.ite
    | with_reducible apply Frame.mk_upd
    | with_reducible apply FrameO.ite
    | (apply Or.inl; apply Eq.refl true)
    | (apply Or.inr; exact rfl)
    | (with_reducible_and_instances rfl)
    | split

theorem frame_execTenderTranspose (at_ : At) (iss : Issue) (unit : Nat) (job : TenderJob) (s : State) : FrameO 95102 127648098567802957466768813110628200448 s (execTenderTranspose at_ iss unit job s) := by
  dsimp only [execTenderTranspose, ok]
  repeat' first
    | with_reducible assumption
    | with_reducible exact Frame.refl _ _ _
    | intro _
    | apply Eq.refl true
    | apply Eq.refl (_ : Nat)
    | exact FrameO.fault
    | with_reducible apply FrameO.next
    | with_reducible apply FrameO.of (g := frame_tenderIssue ..)
    | with_reducible apply Frame.ite
    | with_reducible apply Frame.mk_upd
    | with_reducible apply FrameO.ite
    | (apply Or.inl; apply Eq.refl true)
    | (apply Or.inr; exact rfl)
    | (with_reducible_and_instances rfl)
    | split

theorem frame_execTenderConvert (at_ : At) (iss : Issue) (unit : Nat) (job : TenderJob) (s : State) : FrameO 95102 127648098567802957466768813110628200448 s (execTenderConvert at_ iss unit job s) := by
  dsimp only [execTenderConvert, ok]
  repeat' first
    | with_reducible assumption
    | with_reducible exact Frame.refl _ _ _
    | intro _
    | apply Eq.refl true
    | apply Eq.refl (_ : Nat)
    | exact FrameO.fault
    | with_reducible apply FrameO.next
    | with_reducible apply FrameO.of (g := frame_tenderIssue ..)
    | with_reducible apply Frame.ite
    | with_reducible apply Frame.mk_upd
    | with_reducible apply FrameO.ite
    | (apply Or.inl; apply Eq.refl true)
    | (apply Or.inr; exact rfl)
    | (with_reducible_and_instances rfl)
    | split

theorem frame_execTenderReduce (at_ : At) (iss : Issue) (unit : Nat) (job : TenderJob) (s : State) : FrameO 95102 127648098567802957466768813110628200448 s (execTenderReduce at_ iss unit job s) := by
  dsimp only [execTenderReduce, ok]
  repeat' first
    | with_reducible assumption
    | with_reducible exact Frame.refl _ _ _
    | intro _
    | apply Eq.refl true
    | apply Eq.refl (_ : Nat)
    | exact FrameO.fault
    | with_reducible apply FrameO.next
    | with_reducible apply FrameO.of (g := frame_tenderIssue ..)
    | with_reducible apply Frame.ite
    | with_reducible apply Frame.mk_upd
    | with_reducible apply FrameO.ite
    | (apply Or.inl; apply Eq.refl true)
    | (apply Or.inr; exact rfl)
    | (with_reducible_and_instances rfl)
    | split

theorem frame_execTenderZero (at_ : At) (iss : Issue) (unit : Nat) (job : TenderJob) (s : State) : FrameO 95102 127648098567802957466768813110628200448 s (execTenderZero at_ iss unit job s) := by
  dsimp only [execTenderZero, ok]
  repeat' first
    | with_reducible assumption
    | with_reducible exact Frame.refl _ _ _
    | intro _
    | apply Eq.refl true
    | apply Eq.refl (_ : Nat)
    | exact FrameO.fault
    | with_reducible apply FrameO.next
    | with_reducible apply FrameO.of (g := frame_tenderIssue ..)
    | with_reducible apply Frame.ite
    | with_reducible apply Frame.mk_upd
    | with_reducible apply FrameO.ite
    | (apply Or.inl; apply Eq.refl true)
    | (apply Or.inr; exact rfl)
    | (with_reducible_and_instances rfl)
    | split

theorem frame_execTenderPrefetch (at_ : At) (iss : Issue) (unit : Nat) (job : TenderJob) (s : State) : FrameO 95102 127648098567802957466768813110628200448 s (execTenderPrefetch at_ iss unit job s) := by
  dsimp only [execTenderPrefetch, ok]
  repeat' first
    | with_reducible assumption
    | with_reducible exact Frame.refl _ _ _
    | intro _
    | apply Eq.refl true
    | apply Eq.refl (_ : Nat)
    | exact FrameO.fault
    | with_reducible apply FrameO.next
    | with_reducible apply FrameO.of (g := frame_tenderIssue ..)
    | with_reducible apply Frame.ite
    | with_reducible apply Frame.mk_upd
    | with_reducible apply FrameO.ite
    | (apply Or.inl; apply Eq.refl true)
    | (apply Or.inr; exact rfl)
    | (with_reducible_and_instances rfl)
    | split

end Sys2Proof.Laws
end

