-- ==== Sys2Proof/Laws/FrameQueue.lean ====
section
/-! SUPPORT. What each operation of Machine/Queue.lean may change, as a frame (Laws/Frame.lean): the parts and registers by their bits. -/

namespace Sys2Proof.Laws

open Sys2Proof.Machine

theorem frame_showStall (s : State) (q : Nat) : Frame 0 79228162514264337593543950336 s (showStall s q) := by
  dsimp only [showStall, ok]
  repeat' first
    | with_reducible assumption
    | with_reducible exact Frame.refl _ _ _
    | intro _
    | apply Eq.refl true
    | apply Eq.refl (_ : Nat)
    | with_reducible apply Frame.put
    | with_reducible apply Frame.ite
    | split

theorem frame_writeCqe (s : State) (q : Nat) (e : QEntry) (st rs : Nat) : Frame 65536 79228162514264337593543950336 s (writeCqe s q e st rs) := by
  dsimp only [writeCqe, ok]
  repeat' first
    | with_reducible assumption
    | with_reducible exact Frame.refl _ _ _
    | intro _
    | apply Eq.refl true
    | apply Eq.refl (_ : Nat)
    | with_reducible apply Frame.put
    | with_reducible apply Frame.step (g := frame_hostWrite ..)
    | with_reducible apply Frame.step (g := frame_showStall ..)
    | with_reducible apply Frame.ite
    | split

theorem frame_qDrainN (a0 : Nat) (a1 : State) (a2 : Nat) : Frame 65548 713053462628379038341895553024 a1 (qDrainN a0 a1 a2) := by
  induction a0 generalizing a1 a2 with
  | zero =>
    dsimp only [qDrainN, ok]
    repeat' first
      | with_reducible assumption
      | with_reducible exact Frame.refl _ _ _
      | intro _
      | apply Eq.refl true
      | apply Eq.refl (_ : Nat)
      | with_reducible apply Frame.step (g := frame_setQ ..)
      | with_reducible apply Frame.step (g := frame_writeCqe ..)
      | with_reducible apply Frame.step (g := frame_signalIf ..)
      | with_reducible apply Frame.step (g := frame_dropHolds ..)
      | with_reducible apply Frame.ite
      | (apply Or.inl; apply Eq.refl true)
      | (apply Or.inr; exact rfl)
      | (with_reducible_and_instances rfl)
      | split
      | with_reducible apply Frame.mk_upd
  | succ n ih =>
    dsimp only [qDrainN, ok]
    repeat' first
      | with_reducible assumption
      | with_reducible exact Frame.refl _ _ _
      | intro _
      | with_reducible apply Frame.step (g := ih ..)
      | apply Eq.refl true
      | apply Eq.refl (_ : Nat)
      | with_reducible apply Frame.step (g := frame_setQ ..)
      | with_reducible apply Frame.step (g := frame_writeCqe ..)
      | with_reducible apply Frame.step (g := frame_signalIf ..)
      | with_reducible apply Frame.step (g := frame_dropHolds ..)
      | with_reducible apply Frame.ite
      | (apply Or.inl; apply Eq.refl true)
      | (apply Or.inr; exact rfl)
      | (with_reducible_and_instances rfl)
      | split
      | with_reducible apply Frame.mk_upd

theorem frame_qDrain (s : State) (q : Nat) : Frame 65548 713053462628379038341895553024 s (qDrain s q) := by
  dsimp only [qDrain, ok]
  repeat' first
    | with_reducible assumption
    | with_reducible exact Frame.refl _ _ _
    | intro _
    | apply Eq.refl true
    | apply Eq.refl (_ : Nat)
    | with_reducible apply Frame.step (g := frame_qDrainN ..)
    | with_reducible apply Frame.ite
    | split

theorem frame_bolBehind (s : State) (q idx : Nat) : Frame 65548 713053462628379038341895553024 s (bolBehind s q idx) := by
  dsimp only [bolBehind, ok]
  repeat' first
    | with_reducible assumption
    | with_reducible exact Frame.refl _ _ _
    | intro _
    | apply Eq.refl true
    | apply Eq.refl (_ : Nat)
    | with_reducible apply Frame.step (g := frame_qDrain ..)
    | with_reducible apply Frame.step (g := frame_updEntry ..)
    | with_reducible apply Frame.ite
    | with_reducible apply Frame.mk_upd
    | (apply Or.inl; apply Eq.refl true)
    | (apply Or.inr; exact rfl)
    | (with_reducible_and_instances rfl)
    | split

theorem frame_qComplete (s : State) (q : Nat) (e : QEntry) : Frame 65660 713054067091288845656684232704 s (qComplete s q e) := by
  dsimp only [qComplete, ok]
  repeat' first
    | with_reducible assumption
    | with_reducible exact Frame.refl _ _ _
    | intro _
    | apply Eq.refl true
    | apply Eq.refl (_ : Nat)
    | with_reducible apply Frame.step (g := frame_qDrain ..)
    | with_reducible apply Frame.step (g := frame_bolBehind ..)
    | with_reducible apply Frame.step (g := frame_bolApply ..)
    | with_reducible apply Frame.step (g := frame_bolSend ..)
    | with_reducible apply Frame.ite
    | split

theorem frame_execSqEntryComplete (q idx : Nat) (s : State) : FrameO 65660 713054067091288845656684232704 s (execSqEntryComplete q idx s) := by
  dsimp only [execSqEntryComplete, ok]
  repeat' first
    | with_reducible assumption
    | with_reducible exact Frame.refl _ _ _
    | intro _
    | apply Eq.refl true
    | apply Eq.refl (_ : Nat)
    | exact FrameO.fault
    | with_reducible apply FrameO.next
    | with_reducible apply Frame.step (g := frame_qComplete ..)
    | with_reducible apply Frame.ite
    | with_reducible apply FrameO.ite
    | split

theorem frame_qDoorbell (s : State) (q v : Nat) : Frame 8 396140812571321687967719751680 s (qDoorbell s q v) := by
  dsimp only [qDoorbell, ok]
  repeat' first
    | with_reducible assumption
    | with_reducible exact Frame.refl _ _ _
    | intro _
    | apply Eq.refl true
    | apply Eq.refl (_ : Nat)
    | with_reducible apply Frame.put
    | with_reducible apply Frame.step (g := frame_setQ ..)
    | with_reducible apply Frame.ite
    | with_reducible apply Frame.mk_upd
    | (apply Or.inl; apply Eq.refl true)
    | (apply Or.inr; exact rfl)
    | (with_reducible_and_instances rfl)
    | split

theorem frame_execQDoorbellWrite (q val : Nat) (s : State) : FrameO 8 396140812571321687967719751680 s (execQDoorbellWrite q val s) := by
  dsimp only [execQDoorbellWrite, ok]
  repeat' first
    | with_reducible assumption
    | with_reducible exact Frame.refl _ _ _
    | intro _
    | apply Eq.refl true
    | apply Eq.refl (_ : Nat)
    | exact FrameO.fault
    | with_reducible apply FrameO.next
    | with_reducible apply Frame.step (g := frame_qDoorbell ..)
    | with_reducible apply FrameO.bar0
    | with_reducible apply Frame.ite
    | with_reducible apply FrameO.ite
    | split

theorem frame_qCqHead (s : State) (q v : Nat) : Frame 65548 871509787656907713528983453696 s (qCqHead s q v) := by
  dsimp only [qCqHead, ok]
  repeat' first
    | with_reducible assumption
    | with_reducible exact Frame.refl _ _ _
    | intro _
    | apply Eq.refl true
    | apply Eq.refl (_ : Nat)
    | with_reducible apply Frame.put
    | with_reducible apply Frame.step (g := frame_qDrain ..)
    | with_reducible apply Frame.step (g := frame_showStall ..)
    | with_reducible apply Frame.ite
    | split

theorem frame_execQCqHeadWrite (q val : Nat) (s : State) : FrameO 65548 871509787656907713528983453696 s (execQCqHeadWrite q val s) := by
  dsimp only [execQCqHeadWrite, ok]
  repeat' first
    | with_reducible assumption
    | with_reducible exact Frame.refl _ _ _
    | intro _
    | apply Eq.refl true
    | apply Eq.refl (_ : Nat)
    | exact FrameO.fault
    | with_reducible apply FrameO.next
    | with_reducible apply Frame.step (g := frame_qCqHead ..)
    | with_reducible apply FrameO.bar0
    | with_reducible apply Frame.ite
    | with_reducible apply FrameO.ite
    | split

theorem frame_takeHolds (s : State) (holds : List Nat) : Frame 8 0 s (takeHolds s holds) := by
  dsimp only [takeHolds, ok]
  repeat' first
    | with_reducible assumption
    | with_reducible exact Frame.refl _ _ _
    | intro _
    | apply Eq.refl true
    | apply Eq.refl (_ : Nat)
    | with_reducible apply Frame.step (g := frame_setMo ..)
    | with_reducible apply Frame.foldl
    | with_reducible apply Frame.foldl2
    | with_reducible apply Frame.ite
    | with_reducible apply Frame.mk_upd
    | (apply Or.inl; apply Eq.refl true)
    | (apply Or.inr; exact rfl)
    | (with_reducible_and_instances rfl)
    | split

theorem frame_qFetch (s : State) (q : Nat) (sqe : List Byte) (holds : List Nat) : Frame 8 79228162514264337593543950336 s (qFetch s q sqe holds) := by
  dsimp only [qFetch, ok]
  repeat' first
    | with_reducible assumption
    | with_reducible exact Frame.refl _ _ _
    | intro _
    | apply Eq.refl true
    | apply Eq.refl (_ : Nat)
    | with_reducible apply Frame.put
    | with_reducible apply Frame.step (g := frame_setQ ..)
    | with_reducible apply Frame.step (g := frame_takeHolds ..)
    | with_reducible apply Frame.ite
    | (apply Or.inl; apply Eq.refl true)
    | (apply Or.inr; exact rfl)
    | (with_reducible_and_instances rfl)
    | split
    | with_reducible apply Frame.mk_upd

theorem frame_execSqEntryFetch (q : Nat) (entry : List Byte) (holds : List Nat) (s : State) : FrameO 8 79228162514264337593543950336 s (execSqEntryFetch q entry holds s) := by
  dsimp only [execSqEntryFetch, ok]
  repeat' first
    | with_reducible assumption
    | with_reducible exact Frame.refl _ _ _
    | intro _
    | apply Eq.refl true
    | apply Eq.refl (_ : Nat)
    | exact FrameO.fault
    | with_reducible apply FrameO.next
    | with_reducible apply Frame.step (g := frame_qFetch ..)
    | with_reducible apply Frame.ite
    | with_reducible apply FrameO.ite
    | split

theorem frame_markStarted (s : State) (q idx : Nat) : Frame 8 79228162514264337593543950336 s (markStarted s q idx) := by
  dsimp only [markStarted, ok]
  repeat' first
    | with_reducible assumption
    | with_reducible exact Frame.refl _ _ _
    | intro _
    | apply Eq.refl true
    | apply Eq.refl (_ : Nat)
    | with_reducible apply Frame.step (g := frame_updEntry ..)
    | with_reducible apply Frame.ite
    | with_reducible apply Frame.mk_upd
    | (apply Or.inl; apply Eq.refl true)
    | (apply Or.inr; exact rfl)
    | (with_reducible_and_instances rfl)
    | split

theorem frame_execSqeNop (q : Nat) (s : State) : FrameO 78718 127606560192934678845738875411050270720 s (execSqeNop q s) := by
  dsimp only [execSqeNop, ok, startEntry]
  repeat' first
    | with_reducible assumption
    | with_reducible exact Frame.refl _ _ _
    | intro _
    | apply Eq.refl true
    | apply Eq.refl (_ : Nat)
    | exact FrameO.fault
    | with_reducible apply FrameO.next
    | with_reducible apply Frame.step (g := frame_halt ..)
    | with_reducible apply Frame.step (g := frame_qFinish ..)
    | with_reducible apply Frame.step (g := frame_markStarted ..)
    | with_reducible apply Frame.ite
    | with_reducible apply FrameO.ite
    | split

theorem frame_execSqeBollardAdvance (q : Nat) (s : State) : FrameO 78718 127606560192934678845738875411050270720 s (execSqeBollardAdvance q s) := by
  dsimp only [execSqeBollardAdvance, ok, startEntry]
  repeat' first
    | with_reducible assumption
    | with_reducible exact Frame.refl _ _ _
    | intro _
    | apply Eq.refl true
    | apply Eq.refl (_ : Nat)
    | exact FrameO.fault
    | with_reducible apply FrameO.next
    | with_reducible apply Frame.step (g := frame_halt ..)
    | with_reducible apply Frame.step (g := frame_markStarted ..)
    | with_reducible apply Frame.step (g := frame_qFinish ..)
    | with_reducible apply Frame.step (g := frame_bolApply ..)
    | with_reducible apply Frame.step (g := frame_bolSend ..)
    | with_reducible apply Frame.ite
    | with_reducible apply FrameO.ite
    | split

theorem frame_execSqeBarrier (q : Nat) (s : State) : FrameO 78718 127606560192934678845738875411050270720 s (execSqeBarrier q s) := by
  dsimp only [execSqeBarrier, ok, startEntry]
  repeat' first
    | with_reducible assumption
    | with_reducible exact Frame.refl _ _ _
    | intro _
    | apply Eq.refl true
    | apply Eq.refl (_ : Nat)
    | exact FrameO.fault
    | with_reducible apply FrameO.next
    | with_reducible apply Frame.step (g := frame_halt ..)
    | with_reducible apply Frame.step (g := frame_qFinish ..)
    | with_reducible apply Frame.step (g := frame_markStarted ..)
    | with_reducible apply Frame.ite
    | with_reducible apply FrameO.ite
    | split

theorem frame_execSqeSignal (q : Nat) (s : State) : FrameO 78718 127606560192934678845738875411050270720 s (execSqeSignal q s) := by
  dsimp only [execSqeSignal, ok, startEntry]
  repeat' first
    | with_reducible assumption
    | with_reducible exact Frame.refl _ _ _
    | intro _
    | apply Eq.refl true
    | apply Eq.refl (_ : Nat)
    | exact FrameO.fault
    | with_reducible apply FrameO.next
    | with_reducible apply Frame.step (g := frame_halt ..)
    | with_reducible apply Frame.step (g := frame_qFinish ..)
    | with_reducible apply Frame.step (g := frame_signal ..)
    | with_reducible apply Frame.step (g := frame_markStarted ..)
    | with_reducible apply Frame.ite
    | with_reducible apply FrameO.ite
    | split

theorem frame_codeBytes (c obj n : Nat) (s : State) : FrameR 95102 127648098567802957466768813110627143680 s (codeBytes c obj n s) := by
  dsimp only [codeBytes, ok]
  repeat' first
    | with_reducible assumption
    | with_reducible exact Frame.refl _ _ _
    | intro _
    | apply Eq.refl true
    | apply Eq.refl (_ : Nat)
    | with_reducible apply FrameR.ok
    | with_reducible apply FrameR.halt
    | with_reducible apply FrameR.absent
    | with_reducible apply FrameR.then
    | with_reducible apply FrameR.of (g := frame_bytesUnder ..)
    | with_reducible apply FrameO.of (g := frame_exec ..)
    | with_reducible apply FrameR.eqAbsent (e := by assumption)
    | with_reducible apply FrameR.eqHalt (e := by assumption)
    | with_reducible apply FrameR.eqOk (e := by assumption)
    | with_reducible apply Frame.ite
    | with_reducible apply FrameR.ite
    | split

theorem frame_launchFit (c q : Nat) (e : QEntry) (ss : List Section) (ent : List Byte) (total : Nat) (s : State) : FrameR 78718 127606560192934678845738875411050270720 s (launchFit c q e ss ent total s) := by
  dsimp only [launchFit, ok]
  repeat' first
    | with_reducible assumption
    | with_reducible exact Frame.refl _ _ _
    | intro _
    | apply Eq.refl true
    | apply Eq.refl (_ : Nat)
    | with_reducible apply FrameR.ok
    | with_reducible apply FrameR.halt
    | with_reducible apply FrameR.absent
    | with_reducible apply FrameR.then
    | with_reducible apply Frame.step (g := frame_halt ..)
    | with_reducible apply Frame.ite
    | with_reducible apply FrameR.ite
    | with_reducible apply Frame.pairIte
    | split

theorem frame_launchChecks (c q : Nat) (e : QEntry) (s : State) : FrameR 95102 127648098567802957466768813110627143680 s (launchChecks c q e s) := by
  dsimp only [launchChecks, ok]
  repeat' first
    | with_reducible assumption
    | with_reducible exact Frame.refl _ _ _
    | intro _
    | apply Eq.refl true
    | apply Eq.refl (_ : Nat)
    | with_reducible apply FrameR.ok
    | with_reducible apply FrameR.halt
    | with_reducible apply FrameR.absent
    | with_reducible apply FrameR.then
    | with_reducible apply Frame.step (g := frame_halt ..)
    | with_reducible apply FrameR.of (g := frame_codeBytes ..)
    | with_reducible apply FrameR.of (g := frame_devCheck ..)
    | with_reducible apply FrameO.of (g := frame_exec ..)
    | with_reducible apply FrameR.of (g := frame_launchFit ..)
    | with_reducible apply FrameR.eqAbsent (e := by assumption)
    | with_reducible apply FrameR.eqHalt (e := by assumption)
    | with_reducible apply FrameR.eqOk (e := by assumption)
    | with_reducible apply Frame.ite
    | with_reducible apply FrameR.ite
    | split

theorem frame_takeLaunch (s : State) (q : Nat) (e : QEntry) (l : Launch) : Frame 16442 41538454096441135294275302784499712 s (takeLaunch s q e l) := by
  dsimp only [takeLaunch, ok]
  repeat' first
    | with_reducible assumption
    | with_reducible exact Frame.refl _ _ _
    | intro _
    | apply Eq.refl true
    | apply Eq.refl (_ : Nat)
    | with_reducible apply Frame.step (g := frame_markStarted ..)
    | with_reducible apply Frame.step (g := frame_launchCheck ..)
    | with_reducible apply Frame.ite
    | with_reducible apply Frame.mk_upd
    | (apply Or.inl; apply Eq.refl true)
    | (apply Or.inr; exact rfl)
    | (with_reducible_and_instances rfl)
    | split

theorem frame_execSqeLaunch (q : Nat) (s : State) : FrameO 95102 127648098567802957466768813120290820096 s (execSqeLaunch q s) := by
  dsimp only [execSqeLaunch, ok, entryRes, startEntry]
  repeat' first
    | with_reducible assumption
    | with_reducible exact Frame.refl _ _ _
    | intro _
    | apply Eq.refl true
    | apply Eq.refl (_ : Nat)
    | exact FrameO.fault
    | with_reducible apply FrameO.next
    | with_reducible apply Frame.step (g := frame_halt ..)
    | with_reducible apply Frame.step (g := frame_updEntry ..)
    | with_reducible apply Frame.step (g := frame_segFault ..)
    | with_reducible apply FrameR.of (g := frame_launchChecks ..)
    | with_reducible apply Frame.step (g := frame_takeLaunch ..)
    | with_reducible apply FrameR.absent
    | with_reducible apply FrameR.eqAbsent (e := by assumption)
    | with_reducible apply FrameR.eqHalt (e := by assumption)
    | with_reducible apply FrameR.eqOk (e := by assumption)
    | with_reducible apply FrameR.halt
    | with_reducible apply FrameR.ite
    | with_reducible apply FrameR.ok
    | with_reducible apply FrameR.then
    | with_reducible apply Frame.ite
    | with_reducible apply FrameO.ite
    | (apply Or.inl; apply Eq.refl true)
    | (apply Or.inr; exact rfl)
    | (with_reducible_and_instances rfl)
    | split
    | with_reducible apply Frame.mk_upd

theorem frame_queueJob (s : State) (q : Nat) (e : QEntry) (unit : Nat) (job : Job) : Frame 95102 127648098567802957466768813110627143680 s (queueJob s q e unit job) := by
  dsimp only [queueJob, ok]
  repeat' first
    | with_reducible assumption
    | with_reducible exact Frame.refl _ _ _
    | intro _
    | apply Eq.refl true
    | apply Eq.refl (_ : Nat)
    | with_reducible apply Frame.step (g := frame_jobArrive ..)
    | with_reducible apply Frame.step (g := frame_markStarted ..)
    | with_reducible apply Frame.ite
    | with_reducible apply Frame.mk_upd
    | (apply Or.inl; apply Eq.refl true)
    | (apply Or.inr; exact rfl)
    | (with_reducible_and_instances rfl)
    | split

theorem frame_descriptorAt (s : State) (q : Nat) (e : QEntry) : FrameR 78718 127606560192934678845738875411050270720 s (descriptorAt s q e) := by
  dsimp only [descriptorAt, ok]
  repeat' first
    | with_reducible assumption
    | with_reducible exact Frame.refl _ _ _
    | intro _
    | apply Eq.refl true
    | apply Eq.refl (_ : Nat)
    | with_reducible apply FrameR.ok
    | with_reducible apply FrameR.halt
    | with_reducible apply FrameR.absent
    | with_reducible apply FrameR.then
    | with_reducible apply FrameR.of (g := frame_placeOf ..)
    | with_reducible apply FrameR.eqAbsent (e := by assumption)
    | with_reducible apply FrameR.eqHalt (e := by assumption)
    | with_reducible apply FrameR.eqOk (e := by assumption)
    | with_reducible apply Frame.ite
    | with_reducible apply FrameR.ite
    | split

theorem frame_execSqeSegmul (q : Nat) (job : SegJob) (s : State) : FrameO 95102 127648098567802957466768813110627143680 s (execSqeSegmul q job s) := by
  dsimp only [execSqeSegmul, ok, entryRes, startEntry]
  repeat' first
    | with_reducible assumption
    | with_reducible exact Frame.refl _ _ _
    | intro _
    | apply Eq.refl true
    | apply Eq.refl (_ : Nat)
    | exact FrameO.fault
    | with_reducible apply FrameO.next
    | with_reducible apply Frame.step (g := frame_halt ..)
    | with_reducible apply Frame.step (g := frame_updEntry ..)
    | with_reducible apply Frame.step (g := frame_segFault ..)
    | with_reducible apply FrameR.of (g := frame_descriptorAt ..)
    | with_reducible apply Frame.step (g := frame_queueJob ..)
    | with_reducible apply FrameR.absent
    | with_reducible apply FrameR.eqAbsent (e := by assumption)
    | with_reducible apply FrameR.eqHalt (e := by assumption)
    | with_reducible apply FrameR.eqOk (e := by assumption)
    | with_reducible apply FrameR.halt
    | with_reducible apply FrameR.ite
    | with_reducible apply FrameR.ok
    | with_reducible apply FrameR.then
    | with_reducible apply Frame.ite
    | with_reducible apply FrameO.ite
    | (apply Or.inl; apply Eq.refl true)
    | (apply Or.inr; exact rfl)
    | (with_reducible_and_instances rfl)
    | split
    | with_reducible apply Frame.mk_upd

theorem frame_execSqeEngine (q : Nat) (job : Job) (s : State) : FrameO 95102 127648098567802957466768813110627143680 s (execSqeEngine q job s) := by
  dsimp only [execSqeEngine, ok, entryRes, startEntry]
  repeat' first
    | with_reducible assumption
    | with_reducible exact Frame.refl _ _ _
    | intro _
    | apply Eq.refl true
    | apply Eq.refl (_ : Nat)
    | exact FrameO.fault
    | with_reducible apply FrameO.next
    | with_reducible apply Frame.step (g := frame_halt ..)
    | with_reducible apply Frame.step (g := frame_updEntry ..)
    | with_reducible apply Frame.step (g := frame_segFault ..)
    | with_reducible apply FrameR.of (g := frame_descriptorAt ..)
    | with_reducible apply Frame.step (g := frame_qFinish ..)
    | with_reducible apply Frame.step (g := frame_queueJob ..)
    | with_reducible apply FrameR.absent
    | with_reducible apply FrameR.eqAbsent (e := by assumption)
    | with_reducible apply FrameR.eqHalt (e := by assumption)
    | with_reducible apply FrameR.eqOk (e := by assumption)
    | with_reducible apply FrameR.halt
    | with_reducible apply FrameR.ite
    | with_reducible apply FrameR.ok
    | with_reducible apply FrameR.then
    | with_reducible apply Frame.ite
    | with_reducible apply FrameO.ite
    | (apply Or.inl; apply Eq.refl true)
    | (apply Or.inr; exact rfl)
    | (with_reducible_and_instances rfl)
    | split
    | with_reducible apply Frame.mk_upd

end Sys2Proof.Laws
end

