-- ==== Sys2Proof/Laws/FrameRegAccess.lean ====
section
/-! SUPPORT. What each operation of Machine/RegAccess.lean may change, as a frame (Laws/Frame.lean): the parts and registers by their bits. -/

namespace Sys2Proof.Laws

open Sys2Proof.Machine

theorem mask_or (r : RegId) : 2 ^ r.ctorIdx ||| 5444517870735015415413993718908291383295 = 5444517870735015415413993718908291383295 := by cases r <;> rfl

theorem mask_bit (r : RegId) : Nat.testBit 5444517870735015415413993718908291383295 r.ctorIdx = true := by cases r <;> rfl


theorem frame_storeWord (s : State) (r : RegId) (i j w val : Nat) : Frame 0 (2 ^ r.ctorIdx) s (storeWord s r i j w val) := by
  exact (Frame.refl _ _ s).setWord (Nat.testBit_two_pow_self)

theorem frame_deferWrite (s : State) (r : RegId) (i v : Nat) : Frame 1024 (2 ^ r.ctorIdx) s (deferWrite s r i v) := by
  dsimp only [deferWrite]
  refine Frame.step (g := frame_storeWord ..) ?_ rfl (Nat.or_self _)
  exact (Frame.refl _ _ s).upd rfl rfl rfl rfl rfl rfl rfl rfl rfl rfl rfl rfl ⟨.inr rfl, .inr rfl, .inr rfl, .inr rfl, .inr rfl, .inr rfl, .inr rfl, .inr rfl, .inr rfl, .inr rfl, .inl rfl, .inr rfl, .inr rfl, .inr rfl, .inr rfl, .inr rfl, .inr rfl⟩

end Sys2Proof.Laws
end

