-- ==== Sys2Proof/Laws/FrameBollard.lean ====
section
/-! SUPPORT. What each operation of Machine/Bollard.lean may change, as a frame (Laws/Frame.lean): the parts and registers by their bits. -/

namespace Sys2Proof.Laws

open Sys2Proof.Machine

theorem frame_execBollardAdvance (at_ : At) (n inc : Nat) (scope : Scope) (s : State) : FrameO 95102 127648098567802957466768813120291876864 s (execBollardAdvance at_ n inc scope s) := by
  dsimp only [execBollardAdvance, ok]
  repeat' first
    | with_reducible assumption
    | with_reducible exact Frame.refl _ _ _
    | intro _
    | apply Eq.refl true
    | apply Eq.refl (_ : Nat)
    | exact FrameO.fault
    | with_reducible apply FrameO.next
    | with_reducible apply Frame.step (g := frame_haltTh ..)
    | with_reducible apply Frame.step (g := frame_notIssued ..)
    | with_reducible apply Frame.step (g := frame_releaseWide ..)
    | with_reducible apply Frame.step (g := frame_goTo ..)
    | with_reducible apply FrameO.instr
    | with_reducible apply Frame.ite
    | with_reducible apply Frame.mk_upd
    | with_reducible apply FrameO.ite
    | (apply Or.inl; apply Eq.refl true)
    | (apply Or.inr; exact rfl)
    | (with_reducible_and_instances rfl)
    | split

theorem frame_bolStep (s : State) (a : Advance) : Frame 82046 41539087922345712462898554000642048 s (bolStep s a) := by
  dsimp only [bolStep, ok]
  repeat' first
    | with_reducible assumption
    | with_reducible exact Frame.refl _ _ _
    | intro _
    | apply Eq.refl true
    | apply Eq.refl (_ : Nat)
    | with_reducible apply Frame.step (g := frame_bolApply ..)
    | with_reducible apply Frame.step (g := frame_tokenDone ..)
    | with_reducible apply Frame.step (g := frame_bolBehind ..)
    | with_reducible apply Frame.step (g := frame_qFinish ..)
    | with_reducible apply Frame.ite
    | split

theorem frame_execBollardAdvanceApply (s : State) : FrameO 82046 41539087922345712462898554000642048 s (execBollardAdvanceApply s) := by
  dsimp only [execBollardAdvanceApply, ok]
  repeat' first
    | with_reducible assumption
    | with_reducible exact Frame.refl _ _ _
    | intro _
    | apply Eq.refl true
    | apply Eq.refl (_ : Nat)
    | exact FrameO.fault
    | with_reducible apply FrameO.next
    | with_reducible apply Frame.step (g := frame_bolStep ..)
    | with_reducible apply Frame.foldl
    | with_reducible apply Frame.foldl2
    | with_reducible apply Frame.ite
    | with_reducible apply FrameO.ite
    | with_reducible apply Frame.pairIte
    | with_reducible apply Frame.mk_upd
    | (apply Or.inl; apply Eq.refl true)
    | (apply Or.inr; exact rfl)
    | (with_reducible_and_instances rfl)
    | split

theorem frame_execBollardWait (at_ : At) (n target dst : Nat) (timed : Bool) (s : State) : FrameO 95102 127648098567802957466768813110628200448 s (execBollardWait at_ n target dst timed s) := by
  dsimp only [execBollardWait, ok]
  repeat' first
    | with_reducible assumption
    | with_reducible exact Frame.refl _ _ _
    | intro _
    | apply Eq.refl true
    | apply Eq.refl (_ : Nat)
    | exact FrameO.fault
    | with_reducible apply FrameO.next
    | with_reducible apply Frame.step (g := frame_haltTh ..)
    | with_reducible apply Frame.step (g := frame_regWrite64 ..)
    | with_reducible apply Frame.step (g := frame_goTo ..)
    | with_reducible apply Frame.step (g := frame_acquireWide ..)
    | with_reducible apply Frame.step (g := frame_regWrite ..)
    | with_reducible apply Frame.step (g := frame_waitAt ..)
    | with_reducible apply FrameO.instr
    | with_reducible apply Frame.ite
    | with_reducible apply FrameO.ite
    | split

theorem frame_execBollardWaitTimeout (core slot lane : Nat) (s : State) : FrameO 48 0 s (execBollardWaitTimeout core slot lane s) := by
  dsimp only [execBollardWaitTimeout, ok]
  repeat' first
    | with_reducible assumption
    | with_reducible exact Frame.refl _ _ _
    | intro _
    | apply Eq.refl true
    | apply Eq.refl (_ : Nat)
    | exact FrameO.fault
    | with_reducible apply FrameO.next
    | with_reducible apply Frame.step (g := frame_bolWaitEnd ..)
    | with_reducible apply Frame.ite
    | with_reducible apply FrameO.ite
    | split

theorem frame_execBollardRead (at_ : At) (n dst : Nat) (acq : Bool) (s : State) : FrameO 95102 127648098567802957466768813110628200448 s (execBollardRead at_ n dst acq s) := by
  dsimp only [execBollardRead, ok]
  repeat' first
    | with_reducible assumption
    | with_reducible exact Frame.refl _ _ _
    | intro _
    | apply Eq.refl true
    | apply Eq.refl (_ : Nat)
    | exact FrameO.fault
    | with_reducible apply FrameO.next
    | with_reducible apply Frame.step (g := frame_haltTh ..)
    | with_reducible apply Frame.step (g := frame_regWrite64 ..)
    | with_reducible apply Frame.step (g := frame_goTo ..)
    | with_reducible apply Frame.step (g := frame_acquireWide ..)
    | with_reducible apply FrameO.instr
    | with_reducible apply Frame.ite
    | with_reducible apply FrameO.ite
    | split

theorem frame_bolWrite (s : State) (n val : Nat) : Frame 65660 633825904577024508063140282368 s (bolWrite s n val) := by
  dsimp only [bolWrite, ok]
  repeat' first
    | with_reducible assumption
    | with_reducible exact Frame.refl _ _ _
    | intro _
    | apply Eq.refl true
    | apply Eq.refl (_ : Nat)
    | with_reducible apply Frame.put
    | with_reducible apply Frame.step (g := frame_bolChanged ..)
    | with_reducible apply Frame.ite
    | split

theorem frame_execBolValueWrite (n val : Nat) (s : State) : FrameO 65661 633825904577024508063140282368 s (execBolValueWrite n val s) := by
  dsimp only [execBolValueWrite, ok]
  repeat' first
    | with_reducible assumption
    | with_reducible exact Frame.refl _ _ _
    | intro _
    | apply Eq.refl true
    | apply Eq.refl (_ : Nat)
    | exact FrameO.fault
    | with_reducible apply FrameO.next
    | with_reducible apply Frame.step (g := frame_bolWrite ..)
    | with_reducible apply Frame.step (g := frame_wideWrite ..)
    | with_reducible apply FrameO.bar0
    | with_reducible apply Frame.ite
    | with_reducible apply FrameO.ite
    | split

theorem frame_bolNotifyStore (s : State) (n : Nat) (isCtrl : Bool) (val : Nat) : Frame 65540 633825300114114700748754255872 s (bolNotifyStore s n isCtrl val) := by
  dsimp only [bolNotifyStore, ok]
  repeat' first
    | with_reducible assumption
    | with_reducible exact Frame.refl _ _ _
    | intro _
    | apply Eq.refl true
    | apply Eq.refl (_ : Nat)
    | with_reducible apply Frame.step (g := frame_bolNotify ..)
    | with_reducible apply Frame.step (g := frame_storeWord ..)
    | with_reducible apply Frame.ite
    | split

theorem frame_execBolNotifyWrite (n : Nat) (isCtrl : Bool) (val : Nat) (s : State) : FrameO 65541 633825300114114700748754255872 s (execBolNotifyWrite n isCtrl val s) := by
  dsimp only [execBolNotifyWrite, ok]
  repeat' first
    | with_reducible assumption
    | with_reducible exact Frame.refl _ _ _
    | intro _
    | apply Eq.refl true
    | apply Eq.refl (_ : Nat)
    | exact FrameO.fault
    | with_reducible apply FrameO.next
    | with_reducible apply Frame.step (g := frame_bolNotifyStore ..)
    | with_reducible apply Frame.step (g := frame_wideWrite ..)
    | with_reducible apply Frame.step (g := frame_bolNotify ..)
    | with_reducible apply FrameO.bar0
    | with_reducible apply Frame.ite
    | with_reducible apply FrameO.ite
    | split

end Sys2Proof.Laws
end

