-- ==== Sys2Proof/Laws/FrameSpares.lean ====
section
/-! SUPPORT. What each operation of Machine/Spares.lean may change, as a frame (Laws/Frame.lean): the parts and registers by their bits. -/

namespace Sys2Proof.Laws

open Sys2Proof.Machine

theorem frame_setCorePos (s : State) (c : Nat) (p : Option Nat) : Frame 4096 649037107316853453566312041152512 s (setCorePos s c p) := by
  dsimp only [setCorePos, ok]
  repeat' first
    | with_reducible assumption
    | with_reducible exact Frame.refl _ _ _
    | intro _
    | apply Eq.refl true
    | apply Eq.refl (_ : Nat)
    | with_reducible apply Frame.step (g := frame_bankChange ..)
    | with_reducible apply Frame.ite
    | with_reducible apply Frame.mk_upd
    | (apply Or.inl; apply Eq.refl true)
    | (apply Or.inr; exact rfl)
    | (with_reducible_and_instances rfl)
    | split

theorem frame_setSlicePos (s : State) (n : Nat) (p : Option Nat) : Frame 4096 649037107316853453566312041152512 s (setSlicePos s n p) := by
  dsimp only [setSlicePos, ok]
  repeat' first
    | with_reducible assumption
    | with_reducible exact Frame.refl _ _ _
    | intro _
    | apply Eq.refl true
    | apply Eq.refl (_ : Nat)
    | with_reducible apply Frame.step (g := frame_bankChange ..)
    | with_reducible apply Frame.ite
    | with_reducible apply Frame.mk_upd
    | (apply Or.inl; apply Eq.refl true)
    | (apply Or.inr; exact rfl)
    | (with_reducible_and_instances rfl)
    | split

theorem frame_setMark (s : State) (u m : Nat) : Frame 8192 0 s (setMark s u m) := by
  dsimp only [setMark, ok]
  repeat' first
    | with_reducible assumption
    | with_reducible exact Frame.refl _ _ _
    | intro _
    | apply Eq.refl true
    | apply Eq.refl (_ : Nat)
    | with_reducible apply Frame.ite
    | with_reducible apply Frame.mk_upd
    | (apply Or.inl; apply Eq.refl true)
    | (apply Or.inr; exact rfl)
    | (with_reducible_and_instances rfl)
    | split

theorem frame_showCoreSpare (s : State) (g : Nat) : Frame 0 340282366920938463463374607431768211456 s (showCoreSpare s g) := by
  dsimp only [showCoreSpare, ok]
  repeat' first
    | with_reducible assumption
    | with_reducible exact Frame.refl _ _ _
    | intro _
    | apply Eq.refl true
    | apply Eq.refl (_ : Nat)
    | with_reducible apply Frame.orBit
    | with_reducible apply Frame.clrBit
    | with_reducible apply Frame.ite
    | split

theorem frame_showSliceSpare (s : State) (t : Nat) : Frame 0 340282366920938463463374607431768211456 s (showSliceSpare s t) := by
  dsimp only [showSliceSpare, ok]
  repeat' first
    | with_reducible assumption
    | with_reducible exact Frame.refl _ _ _
    | intro _
    | apply Eq.refl true
    | apply Eq.refl (_ : Nat)
    | with_reducible apply Frame.put
    | with_reducible apply Frame.ite
    | split

theorem frame_showCorePos (s : State) (c : Nat) : Frame 0 2 s (showCorePos s c) := by
  dsimp only [showCorePos, ok]
  repeat' first
    | with_reducible assumption
    | with_reducible exact Frame.refl _ _ _
    | intro _
    | apply Eq.refl true
    | apply Eq.refl (_ : Nat)
    | with_reducible apply Frame.put
    | with_reducible apply Frame.ite
    | split

theorem frame_showSlicePos (s : State) (n : Nat) : Frame 0 4398046511108 s (showSlicePos s n) := by
  dsimp only [showSlicePos, ok]
  repeat' first
    | with_reducible assumption
    | with_reducible exact Frame.refl _ _ _
    | intro _
    | apply Eq.refl true
    | apply Eq.refl (_ : Nat)
    | with_reducible apply Frame.put
    | with_reducible apply Frame.ite
    | split

theorem frame_showDpu (s : State) (n : Nat) : Frame 0 16 s (showDpu s n) := by
  dsimp only [showDpu, ok]
  repeat' first
    | with_reducible assumption
    | with_reducible exact Frame.refl _ _ _
    | intro _
    | apply Eq.refl true
    | apply Eq.refl (_ : Nat)
    | with_reducible apply Frame.put
    | with_reducible apply Frame.ite
    | split

theorem frame_showCounts (s : State) : Frame 0 1 s (showCounts s) := by
  dsimp only [showCounts, ok]
  repeat' first
    | with_reducible assumption
    | with_reducible exact Frame.refl _ _ _
    | intro _
    | apply Eq.refl true
    | apply Eq.refl (_ : Nat)
    | with_reducible apply Frame.put
    | with_reducible apply Frame.ite
    | split

theorem frame_showMap (s : State) : Frame 0 340282366920938463463374611829814722583 s (showMap s) := by
  dsimp only [showMap, ok]
  repeat' first
    | with_reducible assumption
    | with_reducible exact Frame.refl _ _ _
    | intro _
    | apply Eq.refl true
    | apply Eq.refl (_ : Nat)
    | with_reducible apply Frame.step (g := frame_showCorePos ..)
    | with_reducible apply Frame.step (g := frame_showSlicePos ..)
    | with_reducible apply Frame.step (g := frame_showDpu ..)
    | with_reducible apply Frame.step (g := frame_showCoreSpare ..)
    | with_reducible apply Frame.step (g := frame_showCounts ..)
    | with_reducible apply Frame.step (g := frame_showSliceSpare ..)
    | with_reducible apply Frame.foldl
    | with_reducible apply Frame.foldl2
    | with_reducible apply Frame.ite
    | split

theorem frame_showService (s : State) (u : Nat) : Frame 0 576460752303423488 s (showService s u) := by
  dsimp only [showService, ok]
  repeat' first
    | with_reducible assumption
    | with_reducible exact Frame.refl _ _ _
    | intro _
    | apply Eq.refl true
    | apply Eq.refl (_ : Nat)
    | with_reducible apply Frame.put
    | with_reducible apply Frame.ite
    | split

theorem frame_showEngines (s : State) : Frame 0 576460752303423488 s (showEngines s) := by
  dsimp only [showEngines, ok]
  repeat' first
    | with_reducible assumption
    | with_reducible exact Frame.refl _ _ _
    | intro _
    | apply Eq.refl true
    | apply Eq.refl (_ : Nat)
    | with_reducible apply Frame.step (g := frame_showService ..)
    | with_reducible apply Frame.foldl
    | with_reducible apply Frame.foldl2
    | with_reducible apply Frame.ite
    | split

theorem frame_engineOut (s : State) (u : Nat) : Frame 64 576460752303423488 s (engineOut s u) := by
  dsimp only [engineOut, ok]
  repeat' first
    | with_reducible assumption
    | with_reducible exact Frame.refl _ _ _
    | intro _
    | apply Eq.refl true
    | apply Eq.refl (_ : Nat)
    | with_reducible apply Frame.step (g := frame_showService ..)
    | with_reducible apply Frame.ite
    | with_reducible apply Frame.mk_upd
    | (apply Or.inl; apply Eq.refl true)
    | (apply Or.inr; exact rfl)
    | (with_reducible_and_instances rfl)
    | split

theorem frame_staleCopies (s : State) (d : Nat) : Frame 128 0 s (staleCopies s d) := by
  dsimp only [staleCopies, ok]
  repeat' first
    | with_reducible assumption
    | with_reducible exact Frame.refl _ _ _
    | intro _
    | apply Eq.refl true
    | apply Eq.refl (_ : Nat)
    | with_reducible apply Frame.foldl
    | with_reducible apply Frame.foldl2
    | with_reducible apply Frame.ite
    | with_reducible apply Frame.mk_upd
    | (apply Or.inl; apply Eq.refl true)
    | (apply Or.inr; exact rfl)
    | (with_reducible_and_instances rfl)
    | split

end Sys2Proof.Laws
end

