-- ==== Sys2Proof/Laws/FrameChannels.lean ====
section
/-! SUPPORT. What each operation of Machine/Channels.lean may change, as a frame (Laws/Frame.lean): the parts and registers by their bits. -/

namespace Sys2Proof.Laws

open Sys2Proof.Machine

theorem frame_showSpace (s : State) : Frame 0 8796093022208 s (showSpace s) := by
  dsimp only [showSpace, ok]
  repeat' first
    | with_reducible assumption
    | with_reducible exact Frame.refl _ _ _
    | intro _
    | apply Eq.refl true
    | apply Eq.refl (_ : Nat)
    | with_reducible apply Frame.put
    | with_reducible apply Frame.ite
    | split

theorem frame_showActive (s : State) : Frame 0 1 s (showActive s) := by
  dsimp only [showActive, ok]
  repeat' first
    | with_reducible assumption
    | with_reducible exact Frame.refl _ _ _
    | intro _
    | apply Eq.refl true
    | apply Eq.refl (_ : Nat)
    | with_reducible apply Frame.put
    | with_reducible apply Frame.ite
    | split

theorem frame_loseLines (s : State) (n : Nat) : Frame 2 0 s (loseLines s n) := by
  dsimp only [loseLines, ok]
  repeat' first
    | with_reducible assumption
    | with_reducible exact Frame.refl _ _ _
    | intro _
    | apply Eq.refl true
    | apply Eq.refl (_ : Nat)
    | with_reducible apply Frame.ite
    | with_reducible apply Frame.pairIte
    | with_reducible apply Frame.mk_upd
    | (apply Or.inl; apply Eq.refl true)
    | (apply Or.inr; exact rfl)
    | (with_reducible_and_instances rfl)
    | split

theorem frame_loseFailed (s : State) : Frame 2 0 s (loseFailed s) := by
  dsimp only [loseFailed, ok]
  repeat' first
    | with_reducible assumption
    | with_reducible exact Frame.refl _ _ _
    | intro _
    | apply Eq.refl true
    | apply Eq.refl (_ : Nat)
    | with_reducible apply Frame.step (g := frame_loseLines ..)
    | with_reducible apply Frame.foldl
    | with_reducible apply Frame.foldl2
    | with_reducible apply Frame.ite
    | split

theorem frame_giveUp (s : State) (limit : Nat) : Frame 2 0 s (giveUp s limit) := by
  dsimp only [giveUp]
  refine (Frame.refl _ _ s).updI rfl rfl rfl
    (fun i => ⟨⟨smapDrop_lt (p := fun a => decide (limit ≤ a)) i.dram.1, fun kv hk e => ?_⟩, i.sram, i.flash, i.hold, i.hist, i.mirror⟩) ⟨.inr rfl, .inl rfl, .inr rfl, .inr rfl, .inr rfl, .inr rfl, .inr rfl, .inr rfl, .inr rfl, .inr rfl, .inr rfl, .inr rfl, .inr rfl, .inr rfl, .inr rfl, .inr rfl, .inr rfl⟩
  refine i.dram.2 kv (List.mem_of_mem_filter hk) ?_
  simp only [dramKnown, Option.all_some, Bool.and_eq_true, decide_eq_true_eq] at e ⊢
  refine ⟨e.1, ?_⟩
  have l := e.2
  cases hl : s.mem.low with
  | none => rfl
  | some k => simp only [hl, Option.getD_some] at l; simp; omega

theorem frame_setMove (s : State) (m : Option (Nat × Bool)) : Frame 2 0 s (setMove s m) := by
  dsimp only [setMove, ok]
  repeat' first
    | with_reducible assumption
    | with_reducible exact Frame.refl _ _ _
    | intro _
    | apply Eq.refl true
    | apply Eq.refl (_ : Nat)
    | with_reducible apply Frame.ite
    | with_reducible apply Frame.mk_upd
    | (apply Or.inl; apply Eq.refl true)
    | (apply Or.inr; exact rfl)
    | (with_reducible_and_instances rfl)
    | split

theorem frame_setMapped (s : State) (l : List Nat) : Frame 2 0 s (setMapped s l) := by
  dsimp only [setMapped, ok]
  repeat' first
    | with_reducible assumption
    | with_reducible exact Frame.refl _ _ _
    | intro _
    | apply Eq.refl true
    | apply Eq.refl (_ : Nat)
    | with_reducible apply Frame.ite
    | with_reducible apply Frame.mk_upd
    | (apply Or.inl; apply Eq.refl true)
    | (apply Or.inr; exact rfl)
    | (with_reducible_and_instances rfl)
    | split

theorem frame_setBankOut (s : State) (l : List Nat) : Frame 4096 649037107316853453566312041152512 s (setBankOut s l) := by
  dsimp only [setBankOut, ok]
  repeat' first
    | with_reducible assumption
    | with_reducible exact Frame.refl _ _ _
    | intro _
    | apply Eq.refl true
    | apply Eq.refl (_ : Nat)
    | with_reducible apply Frame.step (g := frame_bankChange ..)
    | with_reducible apply Frame.ite
    | with_reducible apply Frame.mk_upd
    | (apply Or.inl; apply Eq.refl true)
    | (apply Or.inr; exact rfl)
    | (with_reducible_and_instances rfl)
    | split

theorem frame_startMove (s : State) (n : Nat) (toOut : Bool) : Frame 2 26388279066624 s (startMove s n toOut) := by
  dsimp only [startMove, ok]
  repeat' first
    | with_reducible assumption
    | with_reducible exact Frame.refl _ _ _
    | intro _
    | apply Eq.refl true
    | apply Eq.refl (_ : Nat)
    | with_reducible apply Frame.put
    | with_reducible apply Frame.step (g := frame_setMove ..)
    | with_reducible apply Frame.step (g := frame_showSpace ..)
    | with_reducible apply Frame.step (g := frame_setMapped ..)
    | with_reducible apply Frame.step (g := frame_loseFailed ..)
    | with_reducible apply Frame.step (g := frame_giveUp ..)
    | with_reducible apply Frame.ite
    | split

theorem frame_nextMove (s : State) : Frame 2 26388279066624 s (nextMove s) := by
  dsimp only [nextMove, ok]
  repeat' first
    | with_reducible assumption
    | with_reducible exact Frame.refl _ _ _
    | intro _
    | apply Eq.refl true
    | apply Eq.refl (_ : Nat)
    | with_reducible apply Frame.step (g := frame_startMove ..)
    | with_reducible apply Frame.ite
    | with_reducible apply Frame.pairIte
    | (apply Or.inl; apply Eq.refl true)
    | (apply Or.inr; exact rfl)
    | (with_reducible_and_instances rfl)
    | split
    | with_reducible apply Frame.mk_upd

theorem frame_chanTarget (s : State) (n : Nat) (toOut : Bool) : Frame 2 61572651155456 s (chanTarget s n toOut) := by
  dsimp only [chanTarget, ok]
  repeat' first
    | with_reducible assumption
    | with_reducible exact Frame.refl _ _ _
    | intro _
    | apply Eq.refl true
    | apply Eq.refl (_ : Nat)
    | with_reducible apply Frame.put
    | with_reducible apply Frame.step (g := frame_nextMove ..)
    | with_reducible apply Frame.ite
    | with_reducible apply Frame.pairIte
    | with_reducible apply Frame.mk_upd
    | (apply Or.inl; apply Eq.refl true)
    | (apply Or.inr; exact rfl)
    | (with_reducible_and_instances rfl)
    | split

theorem frame_moveDone (s : State) (n : Nat) (toOut : Bool) : Frame 77830 127606560083995344874462998176242597889 s (moveDone s n toOut) := by
  dsimp only [moveDone, ok]
  repeat' first
    | with_reducible assumption
    | with_reducible exact Frame.refl _ _ _
    | intro _
    | apply Eq.refl true
    | apply Eq.refl (_ : Nat)
    | with_reducible apply Frame.put
    | with_reducible apply Frame.step (g := frame_showSpace ..)
    | with_reducible apply Frame.step (g := frame_setMapped ..)
    | with_reducible apply Frame.step (g := frame_loseFailed ..)
    | with_reducible apply Frame.step (g := frame_showCounts ..)
    | with_reducible apply Frame.step (g := frame_showActive ..)
    | with_reducible apply Frame.step (g := frame_setMove ..)
    | with_reducible apply Frame.step (g := frame_setBankOut ..)
    | with_reducible apply Frame.step (g := frame_post ..)
    | with_reducible apply Frame.step (g := frame_nextMove ..)
    | with_reducible apply Frame.ite
    | split

theorem frame_execChannelMoveDone (n : Nat) (s : State) : FrameO 77830 127606560083995344874462998176242597889 s (execChannelMoveDone n s) := by
  dsimp only [execChannelMoveDone, ok]
  repeat' first
    | with_reducible assumption
    | with_reducible exact Frame.refl _ _ _
    | intro _
    | apply Eq.refl true
    | apply Eq.refl (_ : Nat)
    | exact FrameO.fault
    | with_reducible apply FrameO.next
    | with_reducible apply Frame.step (g := frame_moveDone ..)
    | with_reducible apply Frame.ite
    | with_reducible apply FrameO.ite
    | split

theorem frame_chanFail (s : State) (n : Nat) (pa : Nat) : Frame 77830 127606560083995344874462989380149575680 s (chanFail s n pa) := by
  dsimp only [chanFail, ok]
  repeat' first
    | with_reducible assumption
    | with_reducible exact Frame.refl _ _ _
    | intro _
    | apply Eq.refl true
    | apply Eq.refl (_ : Nat)
    | with_reducible apply Frame.put
    | with_reducible apply Frame.step (g := frame_post ..)
    | with_reducible apply Frame.ite
    | with_reducible apply Frame.mk_upd
    | (apply Or.inl; apply Eq.refl true)
    | (apply Or.inr; exact rfl)
    | (with_reducible_and_instances rfl)
    | split

theorem frame_execChannelFail (n : Nat) (s : State) : FrameO 77830 127606560083995344874462989380149575680 s (execChannelFail n s) := by
  dsimp only [execChannelFail, ok]
  repeat' first
    | with_reducible assumption
    | with_reducible exact Frame.refl _ _ _
    | intro _
    | apply Eq.refl true
    | apply Eq.refl (_ : Nat)
    | exact FrameO.fault
    | with_reducible apply FrameO.next
    | with_reducible apply Frame.step (g := frame_chanFail ..)
    | with_reducible apply Frame.ite
    | with_reducible apply FrameO.ite
    | split

theorem frame_execDramScrub (pa : Nat) (corrected : Bool) (s : State) : FrameO 77828 127606560083995344874462989380149575680 s (execDramScrub pa corrected s) := by
  dsimp only [execDramScrub, ok]
  repeat' first
    | with_reducible assumption
    | with_reducible exact Frame.refl _ _ _
    | intro _
    | apply Eq.refl true
    | apply Eq.refl (_ : Nat)
    | exact FrameO.fault
    | with_reducible apply FrameO.next
    | with_reducible apply Frame.bumpSat
    | with_reducible apply Frame.step (g := frame_post ..)
    | with_reducible apply Frame.ite
    | with_reducible apply FrameO.ite
    | split

theorem frame_execDramUncorrectable (pa : Nat) (s : State) : FrameO 77830 127606560083995344874462989380149575680 s (execDramUncorrectable pa s) := by
  dsimp only [execDramUncorrectable, ok]
  repeat' first
    | with_reducible assumption
    | with_reducible exact Frame.refl _ _ _
    | intro _
    | apply Eq.refl true
    | apply Eq.refl (_ : Nat)
    | exact FrameO.fault
    | with_reducible apply FrameO.next
    | with_reducible apply Frame.bumpSat
    | with_reducible apply Frame.step (g := frame_post ..)
    | with_reducible apply Frame.step (g := frame_chanFail ..)
    | with_reducible apply Frame.ite
    | with_reducible apply Frame.mk_upd
    | with_reducible apply FrameO.ite
    | (apply Or.inl; apply Eq.refl true)
    | (apply Or.inr; exact rfl)
    | (with_reducible_and_instances rfl)
    | split

theorem frame_wrapBegin (s : State) (m : Nat) : Frame 2 70368744177664 s (wrapBegin s m) := by
  dsimp only [wrapBegin, ok]
  repeat' first
    | with_reducible assumption
    | with_reducible exact Frame.refl _ _ _
    | intro _
    | apply Eq.refl true
    | apply Eq.refl (_ : Nat)
    | with_reducible apply Frame.put
    | with_reducible apply Frame.ite
    | with_reducible apply Frame.mk_upd
    | (apply Or.inl; apply Eq.refl true)
    | (apply Or.inr; exact rfl)
    | (with_reducible_and_instances rfl)
    | split

theorem frame_wrapWrite (s : State) (m v : Nat) : Frame 2 70368744177664 s (wrapWrite s m v) := by
  dsimp only [wrapWrite, ok]
  repeat' first
    | with_reducible assumption
    | with_reducible exact Frame.refl _ _ _
    | intro _
    | apply Eq.refl true
    | apply Eq.refl (_ : Nat)
    | with_reducible apply Frame.put
    | with_reducible apply Frame.step (g := frame_wrapBegin ..)
    | with_reducible apply Frame.ite
    | split

theorem frame_execWrapperRequest (m val : Nat) (s : State) : FrameO 3 70368744177664 s (execWrapperRequest m val s) := by
  dsimp only [execWrapperRequest, ok]
  repeat' first
    | with_reducible assumption
    | with_reducible exact Frame.refl _ _ _
    | intro _
    | apply Eq.refl true
    | apply Eq.refl (_ : Nat)
    | exact FrameO.fault
    | with_reducible apply FrameO.next
    | with_reducible apply Frame.step (g := frame_wrapWrite ..)
    | with_reducible apply Frame.step (g := frame_wideWrite ..)
    | with_reducible apply FrameO.bar0
    | with_reducible apply Frame.ite
    | with_reducible apply FrameO.ite
    | split

theorem frame_execWrapperDone (m : Nat) (responded : Bool) (data : List Nat) (s : State) : FrameO 2 211106232532992 s (execWrapperDone m responded data s) := by
  dsimp only [execWrapperDone, ok]
  repeat' first
    | with_reducible assumption
    | with_reducible exact Frame.refl _ _ _
    | intro _
    | apply Eq.refl true
    | apply Eq.refl (_ : Nat)
    | exact FrameO.fault
    | with_reducible apply FrameO.next
    | with_reducible apply Frame.put
    | with_reducible apply Frame.step (g := frame_wrapBegin ..)
    | with_reducible apply Frame.foldl
    | with_reducible apply Frame.foldl2
    | with_reducible apply Frame.ite
    | with_reducible apply FrameO.ite
    | (apply Or.inl; apply Eq.refl true)
    | (apply Or.inr; exact rfl)
    | (with_reducible_and_instances rfl)
    | split
    | with_reducible apply Frame.mk_upd

end Sys2Proof.Laws
end

