-- ==== Sys2Proof/Laws/FrameUpdate.lean ====
section
/-! SUPPORT. What each operation of Machine/Update.lean may change, as a frame (Laws/Frame.lean): the parts and registers by their bits. -/

namespace Sys2Proof.Laws

open Sys2Proof.Machine

theorem frame_readGroup (c : Nat) (p : UpdateJob) (s : State) : FrameR 95102 127648098567802957466768813110627143680 s (readGroup c p s) := by
  dsimp only [readGroup, ok]
  repeat' first
    | with_reducible assumption
    | with_reducible exact Frame.refl _ _ _
    | intro _
    | apply Eq.refl true
    | apply Eq.refl (_ : Nat)
    | with_reducible apply FrameR.ok
    | with_reducible apply FrameR.halt
    | with_reducible apply FrameR.absent
    | with_reducible apply FrameR.then
    | with_reducible apply FrameR.of (g := frame_devBytes ..)
    | with_reducible apply Frame.step (g := frame_halt ..)
    | with_reducible apply FrameR.eqAbsent (e := by assumption)
    | with_reducible apply FrameR.eqHalt (e := by assumption)
    | with_reducible apply FrameR.eqOk (e := by assumption)
    | with_reducible apply Frame.ite
    | with_reducible apply FrameR.ite
    | split

theorem frame_checkSlots (c : Nat) (a0 : List Nat) (a1 : State) : FrameR 95102 127648098567802957466768813110627143680 a1 (checkSlots c a0 a1) := by
  induction a0 generalizing c a1 with
  | nil =>
    dsimp only [checkSlots, ok]
    repeat' first
      | with_reducible assumption
      | with_reducible exact Frame.refl _ _ _
      | intro _
      | apply Eq.refl true
      | apply Eq.refl (_ : Nat)
      | with_reducible apply FrameR.ok
      | with_reducible apply FrameR.halt
      | with_reducible apply FrameR.absent
      | with_reducible apply FrameR.then
      | with_reducible apply Frame.step (g := frame_censusCheck ..)
      | with_reducible apply Frame.step (g := frame_halt ..)
      | with_reducible apply Frame.eqSnd (e := by assumption)
      | with_reducible apply Frame.ite
      | with_reducible apply FrameR.ite
      | split
  | cons y ys ih =>
    dsimp only [checkSlots, ok]
    repeat' first
      | with_reducible assumption
      | with_reducible exact Frame.refl _ _ _
      | intro _
      | with_reducible apply FrameR.of (g := ih ..)
      | apply Eq.refl true
      | apply Eq.refl (_ : Nat)
      | with_reducible apply FrameR.ok
      | with_reducible apply FrameR.halt
      | with_reducible apply FrameR.absent
      | with_reducible apply FrameR.then
      | with_reducible apply Frame.step (g := frame_censusCheck ..)
      | with_reducible apply Frame.step (g := frame_halt ..)
      | with_reducible apply Frame.eqSnd (e := by assumption)
      | with_reducible apply Frame.ite
      | with_reducible apply FrameR.ite
      | split

theorem frame_checkLines (c : Nat) (adamw : Bool) (t : Tensor) (s : State) : FrameR 78718 127606560192934678845738875411050270720 s (checkLines c adamw t s) := by
  dsimp only [checkLines, ok]
  repeat' first
    | with_reducible assumption
    | with_reducible exact Frame.refl _ _ _
    | intro _
    | apply Eq.refl true
    | apply Eq.refl (_ : Nat)
    | with_reducible apply FrameR.ok
    | with_reducible apply FrameR.halt
    | with_reducible apply FrameR.absent
    | with_reducible apply FrameR.then
    | with_reducible apply FrameR.run
    | with_reducible apply FrameR.of (g := frame_devCheck ..)
    | with_reducible apply FrameR.eqAbsent (e := by assumption)
    | with_reducible apply FrameR.eqHalt (e := by assumption)
    | with_reducible apply FrameR.eqOk (e := by assumption)
    | with_reducible apply Frame.ite
    | with_reducible apply FrameR.ite
    | with_reducible apply Frame.pairIte
    | split

theorem frame_checkTensor (c : Nat) (adamw : Bool) (t : Tensor) (s : State) : FrameR 78718 127606560192934678845738875411050270720 s (checkTensor c adamw t s) := by
  dsimp only [checkTensor, ok]
  repeat' first
    | with_reducible assumption
    | with_reducible exact Frame.refl _ _ _
    | intro _
    | apply Eq.refl true
    | apply Eq.refl (_ : Nat)
    | with_reducible apply FrameR.ok
    | with_reducible apply FrameR.halt
    | with_reducible apply FrameR.absent
    | with_reducible apply FrameR.then
    | with_reducible apply FrameR.run
    | with_reducible apply FrameR.of (g := frame_checkLines ..)
    | with_reducible apply FrameR.of (g := frame_devCheck ..)
    | with_reducible apply FrameR.eqAbsent (e := by assumption)
    | with_reducible apply FrameR.eqHalt (e := by assumption)
    | with_reducible apply FrameR.eqOk (e := by assumption)
    | with_reducible apply Frame.ite
    | with_reducible apply FrameR.ite
    | split

theorem frame_checkOthers (c : Nat) (p : UpdateJob) (g : Group) (s : State) : FrameR 78718 127606560192934678845738875411050270720 s (checkOthers c p g s) := by
  dsimp only [checkOthers, ok]
  repeat' first
    | with_reducible assumption
    | with_reducible exact Frame.refl _ _ _
    | intro _
    | apply Eq.refl true
    | apply Eq.refl (_ : Nat)
    | with_reducible apply FrameR.ok
    | with_reducible apply FrameR.halt
    | with_reducible apply FrameR.absent
    | with_reducible apply FrameR.then
    | with_reducible apply FrameR.run
    | with_reducible apply FrameR.of (g := frame_devCheck ..)
    | with_reducible apply FrameR.eqAbsent (e := by assumption)
    | with_reducible apply FrameR.eqHalt (e := by assumption)
    | with_reducible apply FrameR.eqOk (e := by assumption)
    | with_reducible apply Frame.ite
    | with_reducible apply FrameR.ite
    | with_reducible apply Frame.pairIte
    | split

theorem frame_updCheck (c : Nat) (p : UpdateJob) (s : State) : FrameR 95102 127648098567802957466768813110627143680 s (updCheck c p s) := by
  dsimp only [updCheck, ok]
  repeat' first
    | with_reducible assumption
    | with_reducible exact Frame.refl _ _ _
    | intro _
    | apply Eq.refl true
    | apply Eq.refl (_ : Nat)
    | with_reducible apply FrameR.ok
    | with_reducible apply FrameR.halt
    | with_reducible apply FrameR.absent
    | with_reducible apply FrameR.then
    | with_reducible apply FrameR.run
    | with_reducible apply Frame.step (g := frame_halt ..)
    | with_reducible apply FrameR.of (g := frame_readGroup ..)
    | with_reducible apply FrameR.of (g := frame_checkSlots ..)
    | with_reducible apply FrameR.of (g := frame_checkOthers ..)
    | with_reducible apply FrameR.of (g := frame_checkTensor ..)
    | with_reducible apply FrameR.of (g := frame_devBytes ..)
    | with_reducible apply FrameR.eqAbsent (e := by assumption)
    | with_reducible apply FrameR.eqHalt (e := by assumption)
    | with_reducible apply FrameR.eqOk (e := by assumption)
    | with_reducible apply Frame.ite
    | with_reducible apply FrameR.ite
    | split

theorem frame_takeSlot (s : State) (h : Nat) : Frame 0 8 s (takeSlot s h).2 := by
  dsimp only [takeSlot, ok]
  repeat' first
    | with_reducible assumption
    | with_reducible exact Frame.refl _ _ _
    | intro _
    | apply Eq.refl true
    | apply Eq.refl (_ : Nat)
    | with_reducible apply Frame.put
    | with_reducible apply Frame.ite
    | with_reducible apply Frame.pairIte
    | split

theorem frame_takeSlots (s : State) (hs : List Nat) : Frame 0 8 s (takeSlots s hs).2 := by
  dsimp only [takeSlots, ok]
  repeat' first
    | with_reducible assumption
    | with_reducible exact Frame.refl _ _ _
    | intro _
    | apply Eq.refl true
    | apply Eq.refl (_ : Nat)
    | with_reducible apply Frame.step (g := frame_takeSlot ..)
    | with_reducible apply Frame.eqSnd (e := by assumption)
    | with_reducible apply Frame.foldl
    | with_reducible apply Frame.foldl2
    | with_reducible apply Frame.ite
    | with_reducible apply Frame.pairIte
    | split

theorem frame_colLines (c addr pitch bytes lines : Nat) (s : State) : FrameR 95102 127648098567802957466768813110627143680 s (colLines c addr pitch bytes lines s) := by
  dsimp only [colLines, ok]
  repeat' first
    | with_reducible assumption
    | with_reducible exact Frame.refl _ _ _
    | intro _
    | apply Eq.refl true
    | apply Eq.refl (_ : Nat)
    | with_reducible apply FrameR.ok
    | with_reducible apply FrameR.halt
    | with_reducible apply FrameR.absent
    | with_reducible apply FrameR.then
    | with_reducible apply FrameR.each
    | with_reducible apply FrameR.of (g := frame_devBytes ..)
    | with_reducible apply FrameR.eqAbsent (e := by assumption)
    | with_reducible apply FrameR.eqHalt (e := by assumption)
    | with_reducible apply FrameR.eqOk (e := by assumption)
    | with_reducible apply Frame.ite
    | with_reducible apply FrameR.ite
    | split

theorem frame_scanTensor (c : Nat) (t : Tensor) (s : State) : FrameR 95102 127648098567802957466768813110627143680 s (scanTensor c t s) := by
  dsimp only [scanTensor, ok]
  repeat' first
    | with_reducible assumption
    | with_reducible exact Frame.refl _ _ _
    | intro _
    | apply Eq.refl true
    | apply Eq.refl (_ : Nat)
    | with_reducible apply FrameR.ok
    | with_reducible apply FrameR.halt
    | with_reducible apply FrameR.absent
    | with_reducible apply FrameR.then
    | with_reducible apply FrameR.of (g := frame_colLines ..)
    | with_reducible apply FrameR.eqAbsent (e := by assumption)
    | with_reducible apply FrameR.eqHalt (e := by assumption)
    | with_reducible apply FrameR.eqOk (e := by assumption)
    | with_reducible apply Frame.foldl
    | with_reducible apply Frame.foldl2
    | with_reducible apply Frame.ite
    | with_reducible apply FrameR.ite
    | split

theorem frame_readTensor (c : Nat) (adamw : Bool) (t : Tensor) (s : State) : FrameR 95102 127648098567802957466768813110627143680 s (readTensor c adamw t s) := by
  dsimp only [readTensor, ok]
  repeat' first
    | with_reducible assumption
    | with_reducible exact Frame.refl _ _ _
    | intro _
    | apply Eq.refl true
    | apply Eq.refl (_ : Nat)
    | with_reducible apply FrameR.ok
    | with_reducible apply FrameR.halt
    | with_reducible apply FrameR.absent
    | with_reducible apply FrameR.then
    | with_reducible apply FrameR.run
    | with_reducible apply FrameR.of (g := frame_colLines ..)
    | with_reducible apply FrameR.eqAbsent (e := by assumption)
    | with_reducible apply FrameR.eqHalt (e := by assumption)
    | with_reducible apply FrameR.eqOk (e := by assumption)
    | with_reducible apply Frame.ite
    | with_reducible apply FrameR.ite
    | with_reducible apply Frame.pairIte
    | split

theorem frame_updSkip (j : EngJob) (p : UpdateJob) (g : Group) (e : Int) (rec_ : List Byte) (total : Nat) (s : State) : FrameR 95102 127648098567802957470227577624447684608 s (updSkip j p g e rec_ total s) := by
  dsimp only [updSkip, ok]
  repeat' first
    | with_reducible assumption
    | with_reducible exact Frame.refl _ _ _
    | intro _
    | apply Eq.refl true
    | apply Eq.refl (_ : Nat)
    | with_reducible apply FrameR.ok
    | with_reducible apply FrameR.halt
    | with_reducible apply FrameR.absent
    | with_reducible apply FrameR.then
    | with_reducible apply Frame.bump
    | with_reducible apply FrameR.of (g := frame_devPut ..)
    | with_reducible apply Frame.step (g := frame_post ..)
    | with_reducible apply Frame.step (g := frame_engBytes ..)
    | with_reducible apply FrameR.eqAbsent (e := by assumption)
    | with_reducible apply FrameR.eqHalt (e := by assumption)
    | with_reducible apply FrameR.eqOk (e := by assumption)
    | with_reducible apply Frame.ite
    | with_reducible apply FrameR.ite
    | split

theorem frame_updGate (j : EngJob) (p : UpdateJob) (g : Group) (e : Int) (s : State) : FrameR 95102 127648098567802957470227577624447684616 s (updGate j p g e s) := by
  dsimp only [updGate, ok]
  repeat' first
    | with_reducible assumption
    | with_reducible exact Frame.refl _ _ _
    | intro _
    | apply Eq.refl true
    | apply Eq.refl (_ : Nat)
    | with_reducible apply FrameR.ok
    | with_reducible apply FrameR.halt
    | with_reducible apply FrameR.absent
    | with_reducible apply FrameR.then
    | with_reducible apply FrameR.each
    | with_reducible apply FrameR.run
    | with_reducible apply Frame.step (g := frame_takeSlots ..)
    | with_reducible apply FrameR.of (g := frame_devBytes ..)
    | with_reducible apply FrameR.of (g := frame_scanTensor ..)
    | with_reducible apply Frame.step (g := frame_engBytes ..)
    | with_reducible apply FrameR.of (g := frame_updSkip ..)
    | with_reducible apply FrameR.of (g := frame_readTensor ..)
    | with_reducible apply FrameR.of (g := frame_devPut ..)
    | with_reducible apply Frame.eqSnd (e := by assumption)
    | with_reducible apply FrameR.eqAbsent (e := by assumption)
    | with_reducible apply FrameR.eqHalt (e := by assumption)
    | with_reducible apply FrameR.eqOk (e := by assumption)
    | with_reducible apply Frame.foldl
    | with_reducible apply Frame.foldl2
    | with_reducible apply Frame.ite
    | with_reducible apply FrameR.ite
    | with_reducible apply Frame.pairIte
    | split

theorem frame_doLine (c : Nat) (k : StepPar) (t : Tensor) (no : Nat) (a : StepAcc) (l : Nat) (s : State) : FrameR 95102 127648098567802957466768813110627143680 s (doLine c k t no a l s) := by
  dsimp only [doLine, ok]
  repeat' first
    | with_reducible assumption
    | with_reducible exact Frame.refl _ _ _
    | intro _
    | apply Eq.refl true
    | apply Eq.refl (_ : Nat)
    | with_reducible apply FrameR.ok
    | with_reducible apply FrameR.halt
    | with_reducible apply FrameR.absent
    | with_reducible apply FrameR.then
    | with_reducible apply FrameR.of (g := frame_memCodes ..)
    | with_reducible apply FrameR.of (g := frame_devPut ..)
    | with_reducible apply FrameR.eqAbsent (e := by assumption)
    | with_reducible apply FrameR.eqHalt (e := by assumption)
    | with_reducible apply FrameR.eqOk (e := by assumption)
    | with_reducible apply Frame.ite
    | with_reducible apply FrameR.ite
    | with_reducible apply Frame.pairIte
    | split

theorem FrameR.fold {ps rs : Nat} {s0 s : State} {α β : Type} {f : β → α → State → Res β} {b : β} {l : List α} (h : Frame ps rs s0 s)
    (hf : ∀ b a u, Frame ps rs s0 u → FrameR ps rs s0 (f b a u)) : FrameR ps rs s0 (Res.fold f b l s) := by
  induction l generalizing s b with
  | nil => exact .ok h
  | cons a l ih => exact (hf b a s h).then (fun _ _ g => ih g)

theorem frame_stepTensors (c : Nat) (k : StepPar) (ts : List Tensor) (a : StepAcc) (s : State) : FrameR 95102 127648098567802957466768813110627143680 s (stepTensors c k ts a s) := by
  dsimp only [stepTensors, ok]
  repeat' first
    | with_reducible assumption
    | with_reducible exact Frame.refl _ _ _
    | intro _
    | apply Eq.refl true
    | apply Eq.refl (_ : Nat)
    | with_reducible apply FrameR.ok
    | with_reducible apply FrameR.halt
    | with_reducible apply FrameR.absent
    | with_reducible apply FrameR.then
    | with_reducible apply FrameR.of (g := frame_doLine ..)
    | with_reducible apply FrameR.eqAbsent (e := by assumption)
    | with_reducible apply FrameR.eqHalt (e := by assumption)
    | with_reducible apply FrameR.eqOk (e := by assumption)
    | with_reducible apply FrameR.fold
    | with_reducible apply Frame.ite
    | with_reducible apply FrameR.ite
    | with_reducible apply Frame.pairIte
    | split

theorem frame_updCommit (j : EngJob) (p : UpdateJob) (g : Group) (e : Int) (s : State) : FrameR 95102 127648098567802957470227577624447684608 s (updCommit j p g e s) := by
  dsimp only [updCommit, ok]
  repeat' first
    | with_reducible assumption
    | with_reducible exact Frame.refl _ _ _
    | intro _
    | apply Eq.refl true
    | apply Eq.refl (_ : Nat)
    | with_reducible apply FrameR.ok
    | with_reducible apply FrameR.halt
    | with_reducible apply FrameR.absent
    | with_reducible apply FrameR.then
    | with_reducible apply Frame.bump
    | with_reducible apply FrameR.of (g := frame_devBytes ..)
    | with_reducible apply FrameR.of (g := frame_stepTensors ..)
    | with_reducible apply Frame.step (g := frame_post ..)
    | with_reducible apply FrameR.of (g := frame_devPut ..)
    | with_reducible apply Frame.step (g := frame_engBytes ..)
    | with_reducible apply FrameR.eqAbsent (e := by assumption)
    | with_reducible apply FrameR.eqHalt (e := by assumption)
    | with_reducible apply FrameR.eqOk (e := by assumption)
    | with_reducible apply Frame.ite
    | with_reducible apply FrameR.ite
    | split

theorem frame_commitLost (s : State) (j : EngJob) (p : UpdateJob) : Frame 95102 127648098567802957466768813110627143680 s (commitLost s j p) := by
  dsimp only [commitLost, ok]
  repeat' first
    | with_reducible assumption
    | with_reducible exact Frame.refl _ _ _
    | intro _
    | apply Eq.refl true
    | apply Eq.refl (_ : Nat)
    | with_reducible apply FrameR.of (g := frame_devPut ..)
    | with_reducible apply Frame.step (g := frame_halt ..)
    | with_reducible apply FrameR.absent
    | with_reducible apply FrameR.eqAbsent (e := by assumption)
    | with_reducible apply FrameR.eqHalt (e := by assumption)
    | with_reducible apply FrameR.eqOk (e := by assumption)
    | with_reducible apply FrameR.halt
    | with_reducible apply FrameR.ite
    | with_reducible apply FrameR.ok
    | with_reducible apply FrameR.then
    | with_reducible apply Frame.foldl
    | with_reducible apply Frame.foldl2
    | with_reducible apply Frame.ite
    | with_reducible apply Frame.pairIte
    | (apply Or.inl; apply Eq.refl true)
    | (apply Or.inr; exact rfl)
    | (with_reducible_and_instances rfl)
    | split
    | with_reducible apply Frame.mk_upd

theorem frame_setCursor (s : State) (j : EngJob) (n : Nat) : Frame 64 0 s (setCursor s j n) := by
  dsimp only [setCursor, ok]
  repeat' first
    | with_reducible assumption
    | with_reducible exact Frame.refl _ _ _
    | intro _
    | apply Eq.refl true
    | apply Eq.refl (_ : Nat)
    | with_reducible apply Frame.step (g := frame_updJob ..)
    | with_reducible apply Frame.ite
    | with_reducible apply Frame.mk_upd
    | (apply Or.inl; apply Eq.refl true)
    | (apply Or.inr; exact rfl)
    | (with_reducible_and_instances rfl)
    | split

theorem frame_takeRun (s : State) (j : EngJob) (p : UpdateJob) : Frame 95102 127648098567802957467921734615233990664 s (takeRun s j p) := by
  dsimp only [takeRun, ok]
  repeat' first
    | with_reducible assumption
    | with_reducible exact Frame.refl _ _ _
    | intro _
    | apply Eq.refl true
    | apply Eq.refl (_ : Nat)
    | with_reducible apply FrameR.of (g := frame_updCheck ..)
    | with_reducible apply Frame.step (g := frame_takeSlots ..)
    | with_reducible apply FrameR.of (g := frame_devPut ..)
    | with_reducible apply Frame.step (g := frame_engBytes ..)
    | with_reducible apply Frame.step (g := frame_setCursor ..)
    | with_reducible apply Frame.eqSnd (e := by assumption)
    | with_reducible apply FrameR.absent
    | with_reducible apply FrameR.eqAbsent (e := by assumption)
    | with_reducible apply FrameR.eqHalt (e := by assumption)
    | with_reducible apply FrameR.eqOk (e := by assumption)
    | with_reducible apply FrameR.halt
    | with_reducible apply FrameR.ite
    | with_reducible apply FrameR.ok
    | with_reducible apply FrameR.then
    | with_reducible apply Frame.jobRes
    | with_reducible apply Frame.ite
    | with_reducible apply Frame.pairIte
    | split

theorem frame_gateRun (s : State) (j : EngJob) (p : UpdateJob) : Frame 95102 127648098567802957470227577624447684616 s (gateRun s j p) := by
  dsimp only [gateRun, ok]
  repeat' first
    | with_reducible assumption
    | with_reducible exact Frame.refl _ _ _
    | intro _
    | apply Eq.refl true
    | apply Eq.refl (_ : Nat)
    | with_reducible apply FrameR.of (g := frame_updCheck ..)
    | with_reducible apply FrameR.of (g := frame_updGate ..)
    | with_reducible apply Frame.step (g := frame_setCursor ..)
    | with_reducible apply Frame.step (g := frame_updJob ..)
    | with_reducible apply FrameR.absent
    | with_reducible apply FrameR.eqAbsent (e := by assumption)
    | with_reducible apply FrameR.eqHalt (e := by assumption)
    | with_reducible apply FrameR.eqOk (e := by assumption)
    | with_reducible apply FrameR.halt
    | with_reducible apply FrameR.ite
    | with_reducible apply FrameR.ok
    | with_reducible apply FrameR.then
    | with_reducible apply Frame.jobRes
    | with_reducible apply Frame.ite
    | with_reducible apply Frame.pairIte
    | (apply Or.inl; apply Eq.refl true)
    | (apply Or.inr; exact rfl)
    | (with_reducible_and_instances rfl)
    | split
    | with_reducible apply Frame.mk_upd

theorem frame_commitRun (s : State) (j : EngJob) (p : UpdateJob) : Frame 95102 127648098567802957470227577624447684616 s (commitRun s j p) := by
  dsimp only [commitRun, ok]
  repeat' first
    | with_reducible assumption
    | with_reducible exact Frame.refl _ _ _
    | intro _
    | apply Eq.refl true
    | apply Eq.refl (_ : Nat)
    | with_reducible apply FrameR.run
    | with_reducible apply Frame.step (g := frame_gateRun ..)
    | with_reducible apply FrameR.of (g := frame_checkOthers ..)
    | with_reducible apply FrameR.of (g := frame_checkLines ..)
    | with_reducible apply FrameR.of (g := frame_updCommit ..)
    | with_reducible apply Frame.step (g := frame_setCursor ..)
    | with_reducible apply FrameR.absent
    | with_reducible apply FrameR.eqAbsent (e := by assumption)
    | with_reducible apply FrameR.eqHalt (e := by assumption)
    | with_reducible apply FrameR.eqOk (e := by assumption)
    | with_reducible apply FrameR.halt
    | with_reducible apply FrameR.ite
    | with_reducible apply FrameR.ok
    | with_reducible apply FrameR.then
    | with_reducible apply Frame.jobRes
    | with_reducible apply Frame.ite
    | split

theorem frame_updateRun (s : State) (j : EngJob) (p : UpdateJob) : Frame 95102 127648098567802957470227577624447684616 s (updateRun s j p) := by
  dsimp only [updateRun, ok]
  repeat' first
    | with_reducible assumption
    | with_reducible exact Frame.refl _ _ _
    | intro _
    | apply Eq.refl true
    | apply Eq.refl (_ : Nat)
    | with_reducible apply Frame.step (g := frame_commitRun ..)
    | with_reducible apply Frame.step (g := frame_takeRun ..)
    | with_reducible apply Frame.ite
    | split

theorem frame_updateForm (form : EngForm UpdateJob) (commit : Bool) (s : State) : FrameO 95102 127648098567802957470227577624448741384 s (updateForm form commit s) := by
  dsimp only [updateForm, ok, issueOp]
  repeat' first
    | with_reducible assumption
    | with_reducible exact Frame.refl _ _ _
    | intro _
    | apply Eq.refl true
    | apply Eq.refl (_ : Nat)
    | exact FrameO.fault
    | with_reducible apply FrameO.next
    | with_reducible apply Frame.step (g := frame_refuse ..)
    | with_reducible apply Frame.step (g := frame_haltTh ..)
    | with_reducible apply Frame.step (g := frame_issueTo ..)
    | with_reducible apply Frame.step (g := frame_updateRun ..)
    | with_reducible apply FrameO.instr
    | with_reducible apply Frame.ite
    | with_reducible apply FrameO.ite
    | (apply Or.inl; apply Eq.refl true)
    | (apply Or.inr; exact rfl)
    | (with_reducible_and_instances rfl)
    | split
    | with_reducible apply Frame.mk_upd

theorem frame_execUpdateTake (form : EngForm UpdateJob) (s : State) : FrameO 95102 127648098567802957470227577624448741384 s (execUpdateTake form s) := by
  dsimp only [execUpdateTake, ok]
  repeat' first
    | with_reducible assumption
    | with_reducible exact Frame.refl _ _ _
    | intro _
    | apply Eq.refl true
    | apply Eq.refl (_ : Nat)
    | exact FrameO.fault
    | with_reducible apply FrameO.next
    | with_reducible apply FrameO.of (g := frame_updateForm ..)
    | with_reducible apply Frame.ite
    | with_reducible apply FrameO.ite
    | split

theorem frame_execUpdateCommit (form : EngForm UpdateJob) (s : State) : FrameO 95102 127648098567802957470227577624448741384 s (execUpdateCommit form s) := by
  dsimp only [execUpdateCommit, ok]
  repeat' first
    | with_reducible assumption
    | with_reducible exact Frame.refl _ _ _
    | intro _
    | apply Eq.refl true
    | apply Eq.refl (_ : Nat)
    | exact FrameO.fault
    | with_reducible apply FrameO.next
    | with_reducible apply FrameO.of (g := frame_updateForm ..)
    | with_reducible apply Frame.ite
    | with_reducible apply FrameO.ite
    | split

end Sys2Proof.Laws
end

