-- ==== Sys2Proof/Laws/FrameExperts.lean ====
section
/-! SUPPORT. What each operation of Machine/Experts.lean may change, as a frame (Laws/Frame.lean): the parts and registers by their bits. -/

namespace Sys2Proof.Laws

open Sys2Proof.Machine

theorem frame_readDests (c dests d : Nat) (s : State) : FrameR 95102 127648098567802957466768813110627143680 s (readDests c dests d s) := by
  dsimp only [readDests, ok]
  repeat' first
    | with_reducible assumption
    | with_reducible exact Frame.refl _ _ _
    | intro _
    | apply Eq.refl true
    | apply Eq.refl (_ : Nat)
    | with_reducible apply FrameR.ok
    | with_reducible apply FrameR.halt
    | with_reducible apply FrameR.absent
    | with_reducible apply FrameR.then
    | with_reducible apply FrameR.of (g := frame_devBytes ..)
    | with_reducible apply FrameR.eqAbsent (e := by assumption)
    | with_reducible apply FrameR.eqHalt (e := by assumption)
    | with_reducible apply FrameR.eqOk (e := by assumption)
    | with_reducible apply Frame.ite
    | with_reducible apply FrameR.ite
    | split

theorem frame_readRoutes (c t k routes : Nat) (s : State) : FrameR 95102 127648098567802957466768813110627143680 s (readRoutes c t k routes s) := by
  dsimp only [readRoutes, ok]
  repeat' first
    | with_reducible assumption
    | with_reducible exact Frame.refl _ _ _
    | intro _
    | apply Eq.refl true
    | apply Eq.refl (_ : Nat)
    | with_reducible apply FrameR.ok
    | with_reducible apply FrameR.halt
    | with_reducible apply FrameR.absent
    | with_reducible apply FrameR.then
    | with_reducible apply FrameR.each
    | with_reducible apply FrameR.of (g := frame_devBytes ..)
    | with_reducible apply FrameR.eqAbsent (e := by assumption)
    | with_reducible apply FrameR.eqHalt (e := by assumption)
    | with_reducible apply FrameR.eqOk (e := by assumption)
    | with_reducible apply Frame.ite
    | with_reducible apply FrameR.ite
    | split

theorem frame_readTables (c t k e routes emap dests d : Nat) (s : State) : FrameR 95102 127648098567802957466768813110627143680 s (readTables c t k e routes emap dests d s) := by
  dsimp only [readTables, ok]
  repeat' first
    | with_reducible assumption
    | with_reducible exact Frame.refl _ _ _
    | intro _
    | apply Eq.refl true
    | apply Eq.refl (_ : Nat)
    | with_reducible apply FrameR.ok
    | with_reducible apply FrameR.halt
    | with_reducible apply FrameR.absent
    | with_reducible apply FrameR.then
    | with_reducible apply FrameR.of (g := frame_devBytes ..)
    | with_reducible apply FrameR.of (g := frame_readDests ..)
    | with_reducible apply FrameR.of (g := frame_readRoutes ..)
    | with_reducible apply FrameR.eqAbsent (e := by assumption)
    | with_reducible apply FrameR.eqHalt (e := by assumption)
    | with_reducible apply FrameR.eqOk (e := by assumption)
    | with_reducible apply Frame.ite
    | with_reducible apply FrameR.ite
    | split

theorem frame_checkDest (c : Nat) (q : Dest) (s : State) : FrameR 78718 127606560192934678845738875411050270720 s (checkDest c q s) := by
  dsimp only [checkDest, ok]
  repeat' first
    | with_reducible assumption
    | with_reducible exact Frame.refl _ _ _
    | intro _
    | apply Eq.refl true
    | apply Eq.refl (_ : Nat)
    | with_reducible apply FrameR.ok
    | with_reducible apply FrameR.halt
    | with_reducible apply FrameR.absent
    | with_reducible apply FrameR.then
    | with_reducible apply Frame.step (g := frame_halt ..)
    | with_reducible apply Frame.ite
    | with_reducible apply FrameR.ite
    | split

theorem frame_dispCheck (c : Nat) (p : DispatchJob) (s : State) : FrameR 95102 127648098567802957466768813110627143680 s (dispCheck c p s) := by
  dsimp only [dispCheck, ok]
  repeat' first
    | with_reducible assumption
    | with_reducible exact Frame.refl _ _ _
    | intro _
    | apply Eq.refl true
    | apply Eq.refl (_ : Nat)
    | with_reducible apply FrameR.ok
    | with_reducible apply FrameR.halt
    | with_reducible apply FrameR.absent
    | with_reducible apply FrameR.then
    | with_reducible apply FrameR.run
    | with_reducible apply Frame.step (g := frame_halt ..)
    | with_reducible apply FrameR.of (g := frame_readTables ..)
    | with_reducible apply FrameR.of (g := frame_checkDest ..)
    | with_reducible apply FrameR.eqAbsent (e := by assumption)
    | with_reducible apply FrameR.eqHalt (e := by assumption)
    | with_reducible apply FrameR.eqOk (e := by assumption)
    | with_reducible apply Frame.ite
    | with_reducible apply FrameR.ite
    | with_reducible apply Frame.pairIte
    | split

theorem frame_dispReach (c : Nat) (p : DispatchJob) (x : Tables) (v : Visit) (s : State) : FrameR 95102 127648098567802957466768813110627143680 s (dispReach c p x v s) := by
  dsimp only [dispReach, ok]
  repeat' first
    | with_reducible assumption
    | with_reducible exact Frame.refl _ _ _
    | intro _
    | apply Eq.refl true
    | apply Eq.refl (_ : Nat)
    | with_reducible apply FrameR.ok
    | with_reducible apply FrameR.halt
    | with_reducible apply FrameR.absent
    | with_reducible apply FrameR.then
    | with_reducible apply FrameR.run
    | with_reducible apply FrameR.of (g := frame_devCheck ..)
    | with_reducible apply FrameR.of (g := frame_devBytes ..)
    | with_reducible apply FrameR.eqAbsent (e := by assumption)
    | with_reducible apply FrameR.eqHalt (e := by assumption)
    | with_reducible apply FrameR.eqOk (e := by assumption)
    | with_reducible apply Frame.ite
    | with_reducible apply FrameR.ite
    | split

theorem frame_dispWrite (j : EngJob) (p : DispatchJob) (x : Tables) (v : Visit) (s : State) : FrameR 95102 127648098567802957472533420633661378560 s (dispWrite j p x v s) := by
  dsimp only [dispWrite, ok]
  repeat' first
    | with_reducible assumption
    | with_reducible exact Frame.refl _ _ _
    | intro _
    | apply Eq.refl true
    | apply Eq.refl (_ : Nat)
    | with_reducible apply FrameR.ok
    | with_reducible apply FrameR.halt
    | with_reducible apply FrameR.absent
    | with_reducible apply FrameR.then
    | with_reducible apply FrameR.run
    | with_reducible apply Frame.bump
    | with_reducible apply FrameR.of (g := frame_devPut ..)
    | with_reducible apply FrameR.of (g := frame_devBytes ..)
    | with_reducible apply Frame.step (g := frame_engBytes ..)
    | with_reducible apply FrameR.eqAbsent (e := by assumption)
    | with_reducible apply FrameR.eqHalt (e := by assumption)
    | with_reducible apply FrameR.eqOk (e := by assumption)
    | with_reducible apply Frame.ite
    | with_reducible apply FrameR.ite
    | with_reducible apply Frame.pairIte
    | split

theorem frame_handOver (s : State) (j : EngJob) (a0 : List Dest) (a1 : Nat) : Frame 65660 41539008694202087518683512354897920 s (handOver s j a0 a1) := by
  induction a0 generalizing s j a1 with
  | nil =>
    dsimp only [handOver, ok]
    repeat' first
      | with_reducible assumption
      | with_reducible exact Frame.refl _ _ _
      | intro _
      | apply Eq.refl true
      | apply Eq.refl (_ : Nat)
      | with_reducible apply Frame.bump
      | with_reducible apply Frame.step (g := frame_setCursor ..)
      | with_reducible apply Frame.step (g := frame_bolSend ..)
      | with_reducible apply Frame.step (g := frame_ungate ..)
      | (dsimp only [F.ferryGates_TOKENS]; exact Eq.refl true)
      | with_reducible apply Frame.ite
      | split
  | cons y ys ih =>
    dsimp only [handOver, ok]
    repeat' first
      | with_reducible assumption
      | with_reducible exact Frame.refl _ _ _
      | intro _
      | with_reducible apply Frame.step (g := ih ..)
      | apply Eq.refl true
      | apply Eq.refl (_ : Nat)
      | with_reducible apply Frame.bump
      | with_reducible apply Frame.step (g := frame_setCursor ..)
      | with_reducible apply Frame.step (g := frame_bolSend ..)
      | with_reducible apply Frame.step (g := frame_ungate ..)
      | (dsimp only [F.ferryGates_TOKENS]; exact Eq.refl true)
      | with_reducible apply Frame.ite
      | split

theorem frame_dispRun (s : State) (j : EngJob) (p : DispatchJob) : Frame 95102 127648098567802976361999352112242233344 s (dispRun s j p) := by
  dsimp only [dispRun, ok]
  repeat' first
    | with_reducible assumption
    | with_reducible exact Frame.refl _ _ _
    | intro _
    | apply Eq.refl true
    | apply Eq.refl (_ : Nat)
    | with_reducible apply FrameR.of (g := frame_dispCheck ..)
    | with_reducible apply FrameR.of (g := frame_dispReach ..)
    | with_reducible apply FrameR.of (g := frame_dispWrite ..)
    | with_reducible apply Frame.step (g := frame_handOver ..)
    | with_reducible apply FrameR.of (g := frame_readDests ..)
    | with_reducible apply FrameR.absent
    | with_reducible apply FrameR.eqAbsent (e := by assumption)
    | with_reducible apply FrameR.eqHalt (e := by assumption)
    | with_reducible apply FrameR.eqOk (e := by assumption)
    | with_reducible apply FrameR.halt
    | with_reducible apply FrameR.ite
    | with_reducible apply FrameR.ok
    | with_reducible apply FrameR.then
    | with_reducible apply Frame.jobRes
    | with_reducible apply Frame.ite
    | with_reducible apply Frame.pairIte
    | split

theorem frame_retRow (c : Nat) (p : CombineJob) (ds : List Dest) (counts : List (List Nat)) (m : Nat) (s : State) : FrameR 95102 127648098567802957466768813110627143680 s (retRow c p ds counts m s) := by
  dsimp only [retRow, ok]
  repeat' first
    | with_reducible assumption
    | with_reducible exact Frame.refl _ _ _
    | intro _
    | apply Eq.refl true
    | apply Eq.refl (_ : Nat)
    | with_reducible apply FrameR.ok
    | with_reducible apply FrameR.halt
    | with_reducible apply FrameR.absent
    | with_reducible apply FrameR.then
    | with_reducible apply FrameR.of (g := frame_memCodes ..)
    | with_reducible apply FrameR.eqAbsent (e := by assumption)
    | with_reducible apply FrameR.eqHalt (e := by assumption)
    | with_reducible apply FrameR.eqOk (e := by assumption)
    | with_reducible apply Frame.foldl
    | with_reducible apply Frame.foldl2
    | with_reducible apply Frame.ite
    | with_reducible apply FrameR.ite
    | split

theorem frame_residualRow (c : Nat) (p : CombineJob) (t : Nat) (s : State) : FrameR 95102 127648098567802957466768813110627143680 s (residualRow c p t s) := by
  dsimp only [residualRow, ok]
  repeat' first
    | with_reducible assumption
    | with_reducible exact Frame.refl _ _ _
    | intro _
    | apply Eq.refl true
    | apply Eq.refl (_ : Nat)
    | with_reducible apply FrameR.ok
    | with_reducible apply FrameR.halt
    | with_reducible apply FrameR.absent
    | with_reducible apply FrameR.then
    | with_reducible apply FrameR.of (g := frame_memCodes ..)
    | with_reducible apply FrameR.eqAbsent (e := by assumption)
    | with_reducible apply FrameR.eqHalt (e := by assumption)
    | with_reducible apply FrameR.eqOk (e := by assumption)
    | with_reducible apply Frame.ite
    | with_reducible apply FrameR.ite
    | split

theorem frame_combRow (c : Nat) (p : CombineJob) (ds : List Dest) (rs : List Routes) (counts : List (List Nat)) (map : List Nat) (t : Nat) (s : State) : FrameR 95102 127648098567802957466768813110627143680 s (combRow c p ds rs counts map t s) := by
  dsimp only [combRow, ok]
  repeat' first
    | with_reducible assumption
    | with_reducible exact Frame.refl _ _ _
    | intro _
    | apply Eq.refl true
    | apply Eq.refl (_ : Nat)
    | with_reducible apply FrameR.ok
    | with_reducible apply FrameR.halt
    | with_reducible apply FrameR.absent
    | with_reducible apply FrameR.then
    | with_reducible apply FrameR.of (g := frame_residualRow ..)
    | with_reducible apply FrameR.of (g := frame_retRow ..)
    | with_reducible apply FrameR.eqAbsent (e := by assumption)
    | with_reducible apply FrameR.eqHalt (e := by assumption)
    | with_reducible apply FrameR.eqOk (e := by assumption)
    | with_reducible apply FrameR.fold
    | with_reducible apply Frame.ite
    | with_reducible apply FrameR.ite
    | with_reducible apply Frame.pairIte
    | split

theorem frame_combAll (j : EngJob) (p : CombineJob) (s : State) : FrameR 95102 127648098567802957467921734615233990656 s (combAll j p s) := by
  dsimp only [combAll, ok]
  repeat' first
    | with_reducible assumption
    | with_reducible exact Frame.refl _ _ _
    | intro _
    | apply Eq.refl true
    | apply Eq.refl (_ : Nat)
    | with_reducible apply FrameR.ok
    | with_reducible apply FrameR.halt
    | with_reducible apply FrameR.absent
    | with_reducible apply FrameR.then
    | with_reducible apply FrameR.each
    | with_reducible apply FrameR.run
    | with_reducible apply Frame.step (g := frame_halt ..)
    | with_reducible apply FrameR.of (g := frame_readDests ..)
    | with_reducible apply FrameR.of (g := frame_readRoutes ..)
    | with_reducible apply FrameR.of (g := frame_devBytes ..)
    | with_reducible apply FrameR.of (g := frame_devCheck ..)
    | with_reducible apply FrameR.of (g := frame_combRow ..)
    | with_reducible apply FrameR.of (g := frame_devPut ..)
    | with_reducible apply Frame.step (g := frame_engBytes ..)
    | with_reducible apply FrameR.eqAbsent (e := by assumption)
    | with_reducible apply FrameR.eqHalt (e := by assumption)
    | with_reducible apply FrameR.eqOk (e := by assumption)
    | with_reducible apply Frame.ite
    | with_reducible apply FrameR.ite
    | with_reducible apply Frame.pairIte
    | split

theorem frame_expertIssue (s : State) (at_ : At) (iss : Issue) (k : Nat) (job : Job) : FrameO 95102 127648098567802957466768813110628200448 s (expertIssue s at_ iss k job) := by
  dsimp only [expertIssue, ok, issueOp]
  repeat' first
    | with_reducible assumption
    | with_reducible exact Frame.refl _ _ _
    | intro _
    | apply Eq.refl true
    | apply Eq.refl (_ : Nat)
    | exact FrameO.fault
    | with_reducible apply FrameO.next
    | with_reducible apply Frame.step (g := frame_refuse ..)
    | with_reducible apply Frame.step (g := frame_haltTh ..)
    | with_reducible apply Frame.step (g := frame_issueTo ..)
    | with_reducible apply FrameO.instr
    | with_reducible apply Frame.ite
    | with_reducible apply FrameO.ite
    | split

theorem frame_execDispatch (form : EngForm DispatchJob) (s : State) : FrameO 95102 127648098567802976361999352112243290112 s (execDispatch form s) := by
  dsimp only [execDispatch, ok]
  repeat' first
    | with_reducible assumption
    | with_reducible exact Frame.refl _ _ _
    | intro _
    | apply Eq.refl true
    | apply Eq.refl (_ : Nat)
    | exact FrameO.fault
    | with_reducible apply FrameO.next
    | with_reducible apply FrameO.of (g := frame_expertIssue ..)
    | with_reducible apply Frame.step (g := frame_dispRun ..)
    | with_reducible apply Frame.ite
    | with_reducible apply FrameO.ite
    | split

theorem frame_execCombine (form : EngForm CombineJob) (s : State) : FrameO 95102 127648098567802957467921734615235047424 s (execCombine form s) := by
  dsimp only [execCombine, ok]
  repeat' first
    | with_reducible assumption
    | with_reducible exact Frame.refl _ _ _
    | intro _
    | apply Eq.refl true
    | apply Eq.refl (_ : Nat)
    | exact FrameO.fault
    | with_reducible apply FrameO.next
    | with_reducible apply FrameO.of (g := frame_expertIssue ..)
    | with_reducible apply FrameR.of (g := frame_combAll ..)
    | with_reducible apply Frame.step (g := frame_setCursor ..)
    | with_reducible apply FrameR.absent
    | with_reducible apply FrameR.eqAbsent (e := by assumption)
    | with_reducible apply FrameR.eqHalt (e := by assumption)
    | with_reducible apply FrameR.eqOk (e := by assumption)
    | with_reducible apply FrameR.halt
    | with_reducible apply FrameR.ite
    | with_reducible apply FrameR.ok
    | with_reducible apply FrameR.then
    | with_reducible apply Frame.jobRes
    | with_reducible apply Frame.ite
    | with_reducible apply FrameO.ite
    | split

theorem frame_execEngineJobComplete (unit : Nat) (s : State) : FrameO 95102 127648139132622164771262582519400239112 s (execEngineJobComplete unit s) := by
  dsimp only [execEngineJobComplete, ok]
  repeat' first
    | with_reducible assumption
    | with_reducible exact Frame.refl _ _ _
    | intro _
    | apply Eq.refl true
    | apply Eq.refl (_ : Nat)
    | exact FrameO.fault
    | with_reducible apply FrameO.next
    | with_reducible apply Frame.step (g := frame_tenderComplete ..)
    | with_reducible apply Frame.step (g := frame_finishJob ..)
    | with_reducible apply Frame.ite
    | with_reducible apply FrameO.ite
    | split

end Sys2Proof.Laws
end

