-- ==== Sys2Proof/Laws/FrameSwap.lean ====
section
/-! SUPPORT. What each operation of Machine/Swap.lean may change, as a frame (Laws/Frame.lean): the parts and registers by their bits. -/

namespace Sys2Proof.Laws

open Sys2Proof.Machine

theorem frame_coreTaken (s : State) (g : Nat) : Frame 77828 467888927004933808337837579219731742720 s (coreTaken s g) := by
  dsimp only [coreTaken, ok]
  repeat' first
    | with_reducible assumption
    | with_reducible exact Frame.refl _ _ _
    | intro _
    | apply Eq.refl true
    | apply Eq.refl (_ : Nat)
    | with_reducible apply Frame.step (g := frame_showCoreSpare ..)
    | with_reducible apply Frame.step (g := frame_spareEmpty ..)
    | with_reducible apply Frame.ite
    | split

theorem frame_moveUnits (s : State) (p q : Nat) : Frame 80 0 s (moveUnits s p q) := by
  dsimp only [moveUnits, ok]
  repeat' first
    | with_reducible assumption
    | with_reducible exact Frame.refl _ _ _
    | intro _
    | apply Eq.refl true
    | apply Eq.refl (_ : Nat)
    | with_reducible apply Frame.ite
    | with_reducible apply Frame.mk_upd
    | (apply Or.inl; apply Eq.refl true)
    | (apply Or.inr; exact rfl)
    | (with_reducible_and_instances rfl)
    | split

theorem frame_giveCore (s : State) (c p q : Nat) : Frame 77828 1829018394688687662191336008946804588547 s (giveCore s c p q) := by
  dsimp only [giveCore, ok]
  repeat' first
    | with_reducible assumption
    | with_reducible exact Frame.refl _ _ _
    | intro _
    | apply Eq.refl true
    | apply Eq.refl (_ : Nat)
    | with_reducible apply Frame.bumpSat
    | with_reducible apply Frame.step (g := frame_showCounts ..)
    | with_reducible apply Frame.step (g := frame_showCorePos ..)
    | with_reducible apply Frame.step (g := frame_setCorePos ..)
    | with_reducible apply Frame.step (g := frame_post ..)
    | with_reducible apply Frame.step (g := frame_coreTaken ..)
    | with_reducible apply Frame.ite
    | split

theorem frame_coreMove (s : State) (c p q : Nat) : Frame 77940 1829018394688687662191336008946804588547 s (coreMove s c p q) := by
  dsimp only [coreMove, ok]
  repeat' first
    | with_reducible assumption
    | with_reducible exact Frame.refl _ _ _
    | intro _
    | apply Eq.refl true
    | apply Eq.refl (_ : Nat)
    | with_reducible apply Frame.step (g := frame_roInvalidateAll ..)
    | with_reducible apply Frame.step (g := frame_moveUnits ..)
    | with_reducible apply Frame.step (g := frame_giveCore ..)
    | with_reducible apply Frame.ite
    | with_reducible apply Frame.pairIte
    | with_reducible apply Frame.mk_upd
    | (apply Or.inl; apply Eq.refl true)
    | (apply Or.inr; exact rfl)
    | (with_reducible_and_instances rfl)
    | split

theorem frame_drainEnds (s : State) (c : Nat) : Frame 77940 1829018394688687662191336008946804588547 s (drainEnds s c) := by
  dsimp only [drainEnds, ok]
  repeat' first
    | with_reducible assumption
    | with_reducible exact Frame.refl _ _ _
    | intro _
    | apply Eq.refl true
    | apply Eq.refl (_ : Nat)
    | with_reducible apply Frame.step (g := frame_coreMove ..)
    | with_reducible apply Frame.step (g := frame_setMark ..)
    | with_reducible apply Frame.ite
    | split

end Sys2Proof.Laws
end

