-- ==== Sys2Proof/Laws/FrameRoutine.lean ====
section
/-! SUPPORT. What each operation of Machine/Routine.lean may change, as a frame (Laws/Frame.lean): the parts and registers by their bits. -/

namespace Sys2Proof.Laws

open Sys2Proof.Machine

theorem frame_routineDesc (t : Th) (off : Nat) (s : State) : FrameR 95102 127648098567802957466768813110627143680 s (routineDesc t off s) := by
  dsimp only [routineDesc, ok]
  repeat' first
    | with_reducible assumption
    | with_reducible exact Frame.refl _ _ _
    | intro _
    | apply Eq.refl true
    | apply Eq.refl (_ : Nat)
    | with_reducible apply FrameR.ok
    | with_reducible apply FrameR.halt
    | with_reducible apply FrameR.absent
    | with_reducible apply FrameR.then
    | with_reducible apply FrameO.of (g := frame_exec ..)
    | with_reducible apply Frame.step (g := frame_halt ..)
    | with_reducible apply Frame.step (g := frame_devRead ..)
    | with_reducible apply Frame.eqSnd (e := by assumption)
    | with_reducible apply Frame.ite
    | with_reducible apply FrameR.ite
    | with_reducible apply Frame.pairIte
    | split

theorem frame_bodySlots (c : Nat) (a0 : List RStep) (a1 : State) : Frame 94214 127648098458863623495492909487540404224 a1 (bodySlots c a0 a1).2 := by
  induction a0 generalizing c a1 with
  | nil =>
    dsimp only [bodySlots, ok]
    repeat' first
      | with_reducible assumption
      | with_reducible exact Frame.refl _ _ _
      | intro _
      | apply Eq.refl true
      | apply Eq.refl (_ : Nat)
      | with_reducible apply Frame.step (g := frame_censusCheckOpt ..)
      | with_reducible apply Frame.eqSnd (e := by assumption)
      | with_reducible apply Frame.ite
      | with_reducible apply Frame.pairIte
      | split
  | cons y ys ih =>
    cases y
    all_goals
      dsimp only [bodySlots, ok]
      repeat' first
        | with_reducible assumption
        | with_reducible exact Frame.refl _ _ _
        | intro _
        | with_reducible apply Frame.step (g := ih ..)
        | apply Eq.refl true
        | apply Eq.refl (_ : Nat)
        | with_reducible apply Frame.step (g := frame_censusCheckOpt ..)
        | with_reducible apply Frame.eqSnd (e := by assumption)
        | with_reducible apply Frame.ite
        | with_reducible apply Frame.pairIte
        | split

theorem frame_execRoutineIssue (at_ : At) (iss : Issue) (job : RoutineJob) (s : State) : FrameO 95102 127648098567802957466768813110628200448 s (execRoutineIssue at_ iss job s) := by
  dsimp only [execRoutineIssue, ok]
  repeat' first
    | with_reducible assumption
    | with_reducible exact Frame.refl _ _ _
    | intro _
    | apply Eq.refl true
    | apply Eq.refl (_ : Nat)
    | exact FrameO.fault
    | with_reducible apply FrameO.next
    | with_reducible apply Frame.step (g := frame_haltTh ..)
    | with_reducible apply FrameR.of (g := frame_routineDesc ..)
    | with_reducible apply Frame.step (g := frame_halt ..)
    | with_reducible apply Frame.step (g := frame_parkTh ..)
    | with_reducible apply Frame.step (g := frame_bodySlots ..)
    | with_reducible apply Frame.step (g := frame_issueTo ..)
    | with_reducible apply Frame.eqSnd (e := by assumption)
    | with_reducible apply FrameR.absent
    | with_reducible apply FrameR.eqAbsent (e := by assumption)
    | with_reducible apply FrameR.eqHalt (e := by assumption)
    | with_reducible apply FrameR.eqOk (e := by assumption)
    | with_reducible apply FrameR.halt
    | with_reducible apply FrameR.ite
    | with_reducible apply FrameR.ok
    | with_reducible apply FrameR.then
    | with_reducible apply FrameO.instr
    | with_reducible apply Frame.ite
    | with_reducible apply FrameO.ite
    | split

theorem frame_bfRows (c : Nat) (m : MRef) (row rows d : Nat) (s : State) : FrameR 95102 127648098567802957466768813110627143680 s (bfRows c m row rows d s) := by
  dsimp only [bfRows, ok]
  repeat' first
    | with_reducible assumption
    | with_reducible exact Frame.refl _ _ _
    | intro _
    | apply Eq.refl true
    | apply Eq.refl (_ : Nat)
    | with_reducible apply FrameR.ok
    | with_reducible apply FrameR.halt
    | with_reducible apply FrameR.absent
    | with_reducible apply FrameR.then
    | with_reducible apply FrameR.each
    | with_reducible apply FrameR.of (g := frame_memCodes ..)
    | with_reducible apply FrameR.eqAbsent (e := by assumption)
    | with_reducible apply FrameR.eqHalt (e := by assumption)
    | with_reducible apply FrameR.eqOk (e := by assumption)
    | with_reducible apply Frame.ite
    | with_reducible apply FrameR.ite
    | split

theorem frame_fwdRows (c : Nat) (a : AttnStep) (b : Nat) (qs : List (List Nat)) (s : State) : FrameR 95102 127648098567802957466768813110627143680 s (fwdRows c a b qs s) := by
  dsimp only [fwdRows, ok]
  repeat' first
    | with_reducible assumption
    | with_reducible exact Frame.refl _ _ _
    | intro _
    | apply Eq.refl true
    | apply Eq.refl (_ : Nat)
    | with_reducible apply FrameR.ok
    | with_reducible apply FrameR.halt
    | with_reducible apply FrameR.absent
    | with_reducible apply FrameR.then
    | with_reducible apply FrameR.of (g := frame_bfRows ..)
    | with_reducible apply FrameR.eqAbsent (e := by assumption)
    | with_reducible apply FrameR.eqHalt (e := by assumption)
    | with_reducible apply FrameR.eqOk (e := by assumption)
    | with_reducible apply FrameR.fold
    | with_reducible apply Frame.ite
    | with_reducible apply FrameR.ite
    | with_reducible apply Frame.pairIte
    | split

theorem frame_countProduct (s : State) (core rows cols k : Nat) : Frame 16384 480 s (countProduct s core rows cols k) := by
  dsimp only [countProduct, ok]
  repeat' first
    | with_reducible assumption
    | with_reducible exact Frame.refl _ _ _
    | intro _
    | apply Eq.refl true
    | apply Eq.refl (_ : Nat)
    | with_reducible apply Frame.step (g := frame_countSteps ..)
    | with_reducible apply Frame.foldl
    | with_reducible apply Frame.foldl2
    | with_reducible apply Frame.ite
    | split

theorem frame_countFwd (s : State) (core : Nat) (a : AttnStep) (b : Nat) : Frame 16384 480 s (countFwd s core a b) := by
  dsimp only [countFwd, ok]
  repeat' first
    | with_reducible assumption
    | with_reducible exact Frame.refl _ _ _
    | intro _
    | apply Eq.refl true
    | apply Eq.refl (_ : Nat)
    | with_reducible apply Frame.step (g := frame_countProduct ..)
    | with_reducible apply Frame.foldl
    | with_reducible apply Frame.foldl2
    | with_reducible apply Frame.ite
    | split

theorem frame_countBwdQ (s : State) (core : Nat) (a : AttnStep) (b : Nat) : Frame 16384 480 s (countBwdQ s core a b) := by
  dsimp only [countBwdQ, ok]
  repeat' first
    | with_reducible assumption
    | with_reducible exact Frame.refl _ _ _
    | intro _
    | apply Eq.refl true
    | apply Eq.refl (_ : Nat)
    | with_reducible apply Frame.step (g := frame_countProduct ..)
    | with_reducible apply Frame.step (g := frame_countFwd ..)
    | with_reducible apply Frame.foldl
    | with_reducible apply Frame.foldl2
    | with_reducible apply Frame.ite
    | split

theorem frame_countBwdKv (s : State) (core : Nat) (a : AttnStep) (j : Nat) : Frame 16384 480 s (countBwdKv s core a j) := by
  dsimp only [countBwdKv, ok]
  repeat' first
    | with_reducible assumption
    | with_reducible exact Frame.refl _ _ _
    | intro _
    | apply Eq.refl true
    | apply Eq.refl (_ : Nat)
    | with_reducible apply Frame.step (g := frame_countProduct ..)
    | with_reducible apply Frame.foldl
    | with_reducible apply Frame.foldl2
    | with_reducible apply Frame.ite
    | split

theorem frame_putWords (c addr row : Nat) (l : List Nat) (s : State) : FrameR 95102 127648098567802957466768813110627143680 s (putWords c addr row l s) := by
  dsimp only [putWords, ok]
  repeat' first
    | with_reducible assumption
    | with_reducible exact Frame.refl _ _ _
    | intro _
    | apply Eq.refl true
    | apply Eq.refl (_ : Nat)
    | with_reducible apply FrameR.ok
    | with_reducible apply FrameR.halt
    | with_reducible apply FrameR.absent
    | with_reducible apply FrameR.then
    | with_reducible apply FrameR.of (g := frame_devPut ..)
    | with_reducible apply FrameR.eqAbsent (e := by assumption)
    | with_reducible apply FrameR.eqHalt (e := by assumption)
    | with_reducible apply FrameR.eqOk (e := by assumption)
    | with_reducible apply Frame.ite
    | with_reducible apply FrameR.ite
    | split

theorem frame_attnFwd (c core : Nat) (a : AttnStep) (b : Nat) (s : State) : FrameR 95102 127648098567802957466768813110627144160 s (attnFwd c core a b s) := by
  dsimp only [attnFwd, ok]
  repeat' first
    | with_reducible assumption
    | with_reducible exact Frame.refl _ _ _
    | intro _
    | apply Eq.refl true
    | apply Eq.refl (_ : Nat)
    | with_reducible apply FrameR.ok
    | with_reducible apply FrameR.halt
    | with_reducible apply FrameR.absent
    | with_reducible apply FrameR.then
    | with_reducible apply FrameR.run
    | with_reducible apply FrameR.of (g := frame_bfRows ..)
    | with_reducible apply FrameR.of (g := frame_fwdRows ..)
    | with_reducible apply FrameR.of (g := frame_devPut ..)
    | with_reducible apply FrameR.of (g := frame_putWords ..)
    | with_reducible apply Frame.step (g := frame_countFwd ..)
    | with_reducible apply FrameR.eqAbsent (e := by assumption)
    | with_reducible apply FrameR.eqHalt (e := by assumption)
    | with_reducible apply FrameR.eqOk (e := by assumption)
    | with_reducible apply Frame.ite
    | with_reducible apply FrameR.ite
    | with_reducible apply Frame.pairIte
    | split

theorem frame_storeNarrow (c core : Nat) (census : Option Nat) (m : MRef) (tag row : Nat) (rows : List (List Nat)) (s : State) : FrameR 95102 127648098567802957466768813110627143688 s (storeNarrow c core census m tag row rows s) := by
  dsimp only [storeNarrow, ok]
  repeat' first
    | with_reducible assumption
    | with_reducible exact Frame.refl _ _ _
    | intro _
    | apply Eq.refl true
    | apply Eq.refl (_ : Nat)
    | with_reducible apply FrameR.ok
    | with_reducible apply FrameR.halt
    | with_reducible apply FrameR.absent
    | with_reducible apply FrameR.then
    | with_reducible apply FrameR.run
    | with_reducible apply FrameR.of (g := frame_devPut ..)
    | with_reducible apply Frame.step (g := frame_countRow ..)
    | with_reducible apply FrameR.eqAbsent (e := by assumption)
    | with_reducible apply FrameR.eqHalt (e := by assumption)
    | with_reducible apply FrameR.eqOk (e := by assumption)
    | with_reducible apply Frame.ite
    | with_reducible apply FrameR.ite
    | with_reducible apply Frame.pairIte
    | split

theorem frame_statsOf (c : Nat) (a : AttnStep) (b : Nat) (qs dOs : List (List Nat)) (s : State) : FrameR 95102 127648098567802957466768813110627143680 s (statsOf c a b qs dOs s) := by
  dsimp only [statsOf, ok]
  repeat' first
    | with_reducible assumption
    | with_reducible exact Frame.refl _ _ _
    | intro _
    | apply Eq.refl true
    | apply Eq.refl (_ : Nat)
    | with_reducible apply FrameR.ok
    | with_reducible apply FrameR.halt
    | with_reducible apply FrameR.absent
    | with_reducible apply FrameR.then
    | with_reducible apply FrameR.of (g := frame_fwdRows ..)
    | with_reducible apply FrameR.of (g := frame_putWords ..)
    | with_reducible apply FrameR.of (g := frame_memCodes ..)
    | with_reducible apply FrameR.eqAbsent (e := by assumption)
    | with_reducible apply FrameR.eqHalt (e := by assumption)
    | with_reducible apply FrameR.eqOk (e := by assumption)
    | with_reducible apply Frame.ite
    | with_reducible apply FrameR.ite
    | with_reducible apply Frame.pairIte
    | split

theorem frame_attnBwdQ (c core : Nat) (a : AttnStep) (b : Nat) (s : State) : FrameR 95102 127648098567802957466768813110627144168 s (attnBwdQ c core a b s) := by
  dsimp only [attnBwdQ, ok]
  repeat' first
    | with_reducible assumption
    | with_reducible exact Frame.refl _ _ _
    | intro _
    | apply Eq.refl true
    | apply Eq.refl (_ : Nat)
    | with_reducible apply FrameR.ok
    | with_reducible apply FrameR.halt
    | with_reducible apply FrameR.absent
    | with_reducible apply FrameR.then
    | with_reducible apply FrameR.of (g := frame_bfRows ..)
    | with_reducible apply FrameR.of (g := frame_statsOf ..)
    | with_reducible apply FrameR.of (g := frame_storeNarrow ..)
    | with_reducible apply Frame.step (g := frame_countBwdQ ..)
    | with_reducible apply FrameR.eqAbsent (e := by assumption)
    | with_reducible apply FrameR.eqHalt (e := by assumption)
    | with_reducible apply FrameR.eqOk (e := by assumption)
    | with_reducible apply FrameR.fold
    | with_reducible apply Frame.ite
    | with_reducible apply FrameR.ite
    | with_reducible apply Frame.pairIte
    | split

theorem frame_attnBwdKv (c core : Nat) (a : AttnStep) (j : Nat) (s : State) : FrameR 95102 127648098567802957466768813110627144168 s (attnBwdKv c core a j s) := by
  dsimp only [attnBwdKv, ok]
  repeat' first
    | with_reducible assumption
    | with_reducible exact Frame.refl _ _ _
    | intro _
    | apply Eq.refl true
    | apply Eq.refl (_ : Nat)
    | with_reducible apply FrameR.ok
    | with_reducible apply FrameR.halt
    | with_reducible apply FrameR.absent
    | with_reducible apply FrameR.then
    | with_reducible apply FrameR.of (g := frame_bfRows ..)
    | with_reducible apply FrameR.of (g := frame_memCodes ..)
    | with_reducible apply FrameR.of (g := frame_storeNarrow ..)
    | with_reducible apply Frame.step (g := frame_countBwdKv ..)
    | with_reducible apply FrameR.eqAbsent (e := by assumption)
    | with_reducible apply FrameR.eqHalt (e := by assumption)
    | with_reducible apply FrameR.eqOk (e := by assumption)
    | with_reducible apply FrameR.fold
    | with_reducible apply Frame.ite
    | with_reducible apply FrameR.ite
    | with_reducible apply Frame.pairIte
    | split

theorem frame_commitPoint (s : State) (core : Nat) (j : EngJob) (r : RoutineJob) : Frame 16416 0 s (commitPoint s core j r) := by
  dsimp only [commitPoint, ok]
  repeat' first
    | with_reducible assumption
    | with_reducible exact Frame.refl _ _ _
    | intro _
    | apply Eq.refl true
    | apply Eq.refl (_ : Nat)
    | with_reducible apply Frame.step (g := frame_sramWrite ..)
    | with_reducible apply Frame.ite
    | with_reducible apply Frame.mk_upd
    | (apply Or.inl; apply Eq.refl true)
    | (apply Or.inr; exact rfl)
    | (with_reducible_and_instances rfl)
    | split

theorem frame_unitEnd (s : State) (core : Nat) (j : EngJob) (r : RoutineJob) (u : RUnit) (inc : List CensusInc) : Frame 16480 8 s (unitEnd s core j r u inc) := by
  dsimp only [unitEnd, ok]
  repeat' first
    | with_reducible assumption
    | with_reducible exact Frame.refl _ _ _
    | intro _
    | apply Eq.refl true
    | apply Eq.refl (_ : Nat)
    | with_reducible apply Frame.step (g := frame_censusApply ..)
    | with_reducible apply Frame.step (g := frame_commitPoint ..)
    | with_reducible apply Frame.step (g := frame_updJob ..)
    | with_reducible apply Frame.ite
    | with_reducible apply Frame.mk_upd
    | (apply Or.inl; apply Eq.refl true)
    | (apply Or.inr; exact rfl)
    | (with_reducible_and_instances rfl)
    | split

theorem frame_execAttnFwd (core : Nat) (s : State) : FrameO 95102 127648098567802957466768813110627144168 s (execAttnFwd core s) := by
  dsimp only [execAttnFwd, ok, attnCmd]
  repeat' first
    | with_reducible assumption
    | with_reducible exact Frame.refl _ _ _
    | intro _
    | apply Eq.refl true
    | apply Eq.refl (_ : Nat)
    | exact FrameO.fault
    | with_reducible apply FrameO.next
    | with_reducible apply Frame.step (g := frame_unitEnd ..)
    | with_reducible apply FrameR.of (g := frame_attnFwd ..)
    | with_reducible apply FrameR.absent
    | with_reducible apply FrameR.eqAbsent (e := by assumption)
    | with_reducible apply FrameR.eqHalt (e := by assumption)
    | with_reducible apply FrameR.eqOk (e := by assumption)
    | with_reducible apply FrameR.halt
    | with_reducible apply FrameR.ite
    | with_reducible apply FrameR.ok
    | with_reducible apply FrameR.then
    | with_reducible apply Frame.jobRes
    | with_reducible apply FrameR.held
    | with_reducible apply Frame.ite
    | with_reducible apply FrameO.ite
    | with_reducible apply Frame.pairIte
    | split

theorem frame_execAttnBwdQ (core : Nat) (s : State) : FrameO 95102 127648098567802957466768813110627144168 s (execAttnBwdQ core s) := by
  dsimp only [execAttnBwdQ, ok, attnCmd]
  repeat' first
    | with_reducible assumption
    | with_reducible exact Frame.refl _ _ _
    | intro _
    | apply Eq.refl true
    | apply Eq.refl (_ : Nat)
    | exact FrameO.fault
    | with_reducible apply FrameO.next
    | with_reducible apply Frame.step (g := frame_unitEnd ..)
    | with_reducible apply FrameR.of (g := frame_attnBwdQ ..)
    | with_reducible apply FrameR.absent
    | with_reducible apply FrameR.eqAbsent (e := by assumption)
    | with_reducible apply FrameR.eqHalt (e := by assumption)
    | with_reducible apply FrameR.eqOk (e := by assumption)
    | with_reducible apply FrameR.halt
    | with_reducible apply FrameR.ite
    | with_reducible apply FrameR.ok
    | with_reducible apply FrameR.then
    | with_reducible apply Frame.jobRes
    | with_reducible apply FrameR.held
    | with_reducible apply Frame.ite
    | with_reducible apply FrameO.ite
    | with_reducible apply Frame.pairIte
    | split

theorem frame_execAttnBwdKv (core : Nat) (s : State) : FrameO 95102 127648098567802957466768813110627144168 s (execAttnBwdKv core s) := by
  dsimp only [execAttnBwdKv, ok, attnCmd]
  repeat' first
    | with_reducible assumption
    | with_reducible exact Frame.refl _ _ _
    | intro _
    | apply Eq.refl true
    | apply Eq.refl (_ : Nat)
    | exact FrameO.fault
    | with_reducible apply FrameO.next
    | with_reducible apply Frame.step (g := frame_unitEnd ..)
    | with_reducible apply FrameR.of (g := frame_attnBwdKv ..)
    | with_reducible apply FrameR.absent
    | with_reducible apply FrameR.eqAbsent (e := by assumption)
    | with_reducible apply FrameR.eqHalt (e := by assumption)
    | with_reducible apply FrameR.eqOk (e := by assumption)
    | with_reducible apply FrameR.halt
    | with_reducible apply FrameR.ite
    | with_reducible apply FrameR.ok
    | with_reducible apply FrameR.then
    | with_reducible apply Frame.jobRes
    | with_reducible apply FrameR.held
    | with_reducible apply Frame.ite
    | with_reducible apply FrameO.ite
    | with_reducible apply Frame.pairIte
    | split

theorem frame_routineArray (core : Nat) (j : EngJob) (k : Nat) (op : MatOp) (s : State) : FrameR 95102 127648098567802957466768813110627144168 s (routineArray core j k op s) := by
  dsimp only [routineArray, ok]
  repeat' first
    | with_reducible assumption
    | with_reducible exact Frame.refl _ _ _
    | intro _
    | apply Eq.refl true
    | apply Eq.refl (_ : Nat)
    | with_reducible apply FrameR.ok
    | with_reducible apply FrameR.halt
    | with_reducible apply FrameR.absent
    | with_reducible apply FrameR.then
    | with_reducible apply Frame.step (g := frame_halt ..)
    | with_reducible apply Frame.step (g := frame_matCheck ..)
    | with_reducible apply Frame.step (g := frame_lostCycles ..)
    | with_reducible apply Frame.step (g := frame_matRun ..)
    | with_reducible apply Frame.eqSnd (e := by assumption)
    | with_reducible apply Frame.ite
    | with_reducible apply FrameR.ite
    | split

theorem frame_routineTender (s : State) (core : Nat) (j : EngJob) (r : RoutineJob) (unit : Nat) (t : TenderJob) : Frame 95102 127648139132622164771262582509736562696 s (routineTender s core j r unit t) := by
  dsimp only [routineTender, ok]
  repeat' first
    | with_reducible assumption
    | with_reducible exact Frame.refl _ _ _
    | intro _
    | apply Eq.refl true
    | apply Eq.refl (_ : Nat)
    | with_reducible apply Frame.step (g := frame_haltJob ..)
    | with_reducible apply FrameR.of (g := frame_tenderCheck ..)
    | with_reducible apply FrameR.of (g := frame_tenderIndex ..)
    | with_reducible apply Frame.step (g := frame_hostPathLost ..)
    | with_reducible apply Frame.step (g := frame_readLines ..)
    | with_reducible apply Frame.step (g := frame_unitEnd ..)
    | with_reducible apply FrameR.absent
    | with_reducible apply FrameR.eqAbsent (e := by assumption)
    | with_reducible apply FrameR.eqHalt (e := by assumption)
    | with_reducible apply FrameR.eqOk (e := by assumption)
    | with_reducible apply FrameR.halt
    | with_reducible apply FrameR.ite
    | with_reducible apply FrameR.ok
    | with_reducible apply FrameR.then
    | with_reducible apply Frame.jobRes
    | with_reducible apply FrameR.held
    | with_reducible apply FrameR.tenderRun
    | with_reducible apply Frame.ite
    | with_reducible apply Frame.pairIte
    | (apply Or.inl; apply Eq.refl true)
    | (apply Or.inr; exact rfl)
    | (with_reducible_and_instances rfl)
    | split
    | with_reducible apply Frame.mk_upd

theorem frame_routineStep (s : State) (core : Nat) (j : EngJob) (r : RoutineJob) (x : RStep) : Frame 95102 127648139132622164771262582509736563176 s (routineStep s core j r x) := by
  dsimp only [routineStep, ok]
  repeat' first
    | with_reducible assumption
    | with_reducible exact Frame.refl _ _ _
    | intro _
    | apply Eq.refl true
    | apply Eq.refl (_ : Nat)
    | with_reducible apply FrameR.of (g := frame_routineArray ..)
    | with_reducible apply Frame.step (g := frame_unitEnd ..)
    | with_reducible apply Frame.step (g := frame_routineTender ..)
    | with_reducible apply FrameR.absent
    | with_reducible apply FrameR.eqAbsent (e := by assumption)
    | with_reducible apply FrameR.eqHalt (e := by assumption)
    | with_reducible apply FrameR.eqOk (e := by assumption)
    | with_reducible apply FrameR.halt
    | with_reducible apply FrameR.ite
    | with_reducible apply FrameR.ok
    | with_reducible apply FrameR.then
    | with_reducible apply Frame.jobRes
    | with_reducible apply FrameR.held
    | with_reducible apply Frame.ite
    | with_reducible apply Frame.pairIte
    | split

theorem frame_routineTick (s : State) (core : Nat) : Frame 95102 127648139132622164771262582509736563176 s (routineTick s core) := by
  dsimp only [routineTick, ok]
  repeat' first
    | with_reducible assumption
    | with_reducible exact Frame.refl _ _ _
    | intro _
    | apply Eq.refl true
    | apply Eq.refl (_ : Nat)
    | with_reducible apply Frame.step (g := frame_routineStep ..)
    | with_reducible apply Frame.ite
    | split

theorem frame_routineTicks (a0 : Nat) (a1 : State) (a2 : Nat) : Frame 95102 127648139132622164771262582509736563176 a1 (routineTicks a0 a1 a2) := by
  induction a0 generalizing a1 a2 with
  | zero =>
    dsimp only [routineTicks, ok]
    repeat' first
      | with_reducible assumption
      | with_reducible exact Frame.refl _ _ _
      | intro _
      | apply Eq.refl true
      | apply Eq.refl (_ : Nat)
      | with_reducible apply Frame.step (g := frame_routineTick ..)
      | with_reducible apply Frame.ite
      | split
  | succ n ih =>
    dsimp only [routineTicks, ok]
    repeat' first
      | with_reducible assumption
      | with_reducible exact Frame.refl _ _ _
      | intro _
      | with_reducible apply Frame.step (g := ih ..)
      | apply Eq.refl true
      | apply Eq.refl (_ : Nat)
      | with_reducible apply Frame.step (g := frame_routineTick ..)
      | with_reducible apply Frame.ite
      | split

theorem frame_execRoutineComplete (core : Nat) (s : State) : FrameO 95102 1829059973737314482088135619678241296875 s (execRoutineComplete core s) := by
  dsimp only [execRoutineComplete, ok]
  repeat' first
    | with_reducible assumption
    | with_reducible exact Frame.refl _ _ _
    | intro _
    | apply Eq.refl true
    | apply Eq.refl (_ : Nat)
    | exact FrameO.fault
    | with_reducible apply FrameO.next
    | with_reducible apply Frame.step (g := frame_routineTicks ..)
    | with_reducible apply Frame.step (g := frame_drainEnds ..)
    | with_reducible apply Frame.step (g := frame_finishJob ..)
    | with_reducible apply Frame.step (g := frame_censusApply ..)
    | with_reducible apply Frame.ite
    | with_reducible apply FrameO.ite
    | split

theorem frame_spoilAt (c : Nat) (s : State) (ca n : Nat) : Frame 95102 127648098567802957466768813110627143680 s (spoilAt c s ca n) := by
  dsimp only [spoilAt, ok]
  repeat' first
    | with_reducible assumption
    | with_reducible exact Frame.refl _ _ _
    | intro _
    | apply Eq.refl true
    | apply Eq.refl (_ : Nat)
    | with_reducible apply FrameR.of (g := frame_devPut ..)
    | with_reducible apply FrameR.absent
    | with_reducible apply FrameR.eqAbsent (e := by assumption)
    | with_reducible apply FrameR.eqHalt (e := by assumption)
    | with_reducible apply FrameR.eqOk (e := by assumption)
    | with_reducible apply FrameR.halt
    | with_reducible apply FrameR.ite
    | with_reducible apply FrameR.ok
    | with_reducible apply FrameR.then
    | with_reducible apply Frame.ite
    | (apply Or.inl; apply Eq.refl true)
    | (apply Or.inr; exact rfl)
    | (with_reducible_and_instances rfl)
    | split
    | with_reducible apply Frame.mk_upd

theorem frame_spoilSram (s : State) (core a n : Nat) : Frame 16416 0 s (spoilSram s core a n) := by
  dsimp only [spoilSram, ok]
  repeat' first
    | with_reducible assumption
    | with_reducible exact Frame.refl _ _ _
    | intro _
    | apply Eq.refl true
    | apply Eq.refl (_ : Nat)
    | with_reducible apply Frame.step (g := frame_sramWrite ..)
    | with_reducible apply Frame.ite
    | with_reducible apply Frame.mk_upd
    | (apply Or.inl; apply Eq.refl true)
    | (apply Or.inr; exact rfl)
    | (with_reducible_and_instances rfl)
    | split

theorem frame_spoilStep (c core : Nat) (s : State) (x : RStep) : Frame 95102 127648098567802957466768813110627143680 s (spoilStep c core s x) := by
  dsimp only [spoilStep, ok]
  repeat' first
    | with_reducible assumption
    | with_reducible exact Frame.refl _ _ _
    | intro _
    | apply Eq.refl true
    | apply Eq.refl (_ : Nat)
    | with_reducible apply Frame.step (g := frame_spoilAt ..)
    | with_reducible apply Frame.step (g := frame_spoilSram ..)
    | with_reducible apply Frame.foldl
    | with_reducible apply Frame.foldl2
    | with_reducible apply Frame.ite
    | with_reducible apply Frame.pairIte
    | split

theorem frame_spoil (c core : Nat) (r : RoutineJob) (s : State) : Frame 95102 127648098567802957466768813110627143680 s (spoil c core r s) := by
  dsimp only [spoil, ok]
  repeat' first
    | with_reducible assumption
    | with_reducible exact Frame.refl _ _ _
    | intro _
    | apply Eq.refl true
    | apply Eq.refl (_ : Nat)
    | with_reducible apply Frame.step (g := frame_spoilStep ..)
    | with_reducible apply Frame.foldl
    | with_reducible apply Frame.foldl2
    | with_reducible apply Frame.ite
    | split

theorem frame_execRoutineMaxCycles (core : Nat) (s : State) : FrameO 95102 1829059933172495274783641850269468200963 s (execRoutineMaxCycles core s) := by
  dsimp only [execRoutineMaxCycles, ok]
  repeat' first
    | with_reducible assumption
    | with_reducible exact Frame.refl _ _ _
    | intro _
    | apply Eq.refl true
    | apply Eq.refl (_ : Nat)
    | exact FrameO.fault
    | with_reducible apply FrameO.next
    | with_reducible apply Frame.step (g := frame_drainEnds ..)
    | with_reducible apply Frame.step (g := frame_haltJob ..)
    | with_reducible apply Frame.step (g := frame_spoil ..)
    | with_reducible apply Frame.ite
    | with_reducible apply FrameO.ite
    | split

end Sys2Proof.Laws
end

