-- ==== Sys2Proof/Laws/FrameTide.lean ====
section
/-! SUPPORT. What each operation of Machine/Tide.lean may change, as a frame (Laws/Frame.lean): the parts and registers by their bits. -/

namespace Sys2Proof.Laws

open Sys2Proof.Machine

theorem frame_tidePost (s : State) (code extra : Nat) : Frame 77828 127606560083995344874462971787963531264 s (tidePost s code extra) := by
  dsimp only [tidePost, ok]
  repeat' first
    | with_reducible assumption
    | with_reducible exact Frame.refl _ _ _
    | intro _
    | apply Eq.refl true
    | apply Eq.refl (_ : Nat)
    | with_reducible apply Frame.step (g := frame_post ..)
    | with_reducible apply Frame.ite
    | split

theorem frame_setTideRec (s : State) (t : Tide) : Frame 128 0 s (setTideRec s t) := by
  dsimp only [setTideRec, ok]
  repeat' first
    | with_reducible assumption
    | with_reducible exact Frame.refl _ _ _
    | intro _
    | apply Eq.refl true
    | apply Eq.refl (_ : Nat)
    | with_reducible apply Frame.ite
    | with_reducible apply Frame.mk_upd
    | (apply Or.inl; apply Eq.refl true)
    | (apply Or.inr; exact rfl)
    | (with_reducible_and_instances rfl)
    | split

theorem frame_tideGo (s : State) (st : Nat) (fromFree : Bool) : Frame 65668 633825301313153065539472457728 s (tideGo s st fromFree) := by
  dsimp only [tideGo, ok]
  repeat' first
    | with_reducible assumption
    | with_reducible exact Frame.refl _ _ _
    | intro _
    | apply Eq.refl true
    | apply Eq.refl (_ : Nat)
    | with_reducible apply Frame.put
    | with_reducible apply Frame.step (g := frame_setTideRec ..)
    | with_reducible apply Frame.step (g := frame_ferryShow ..)
    | with_reducible apply Frame.step (g := frame_signalIf ..)
    | with_reducible apply Frame.foldl
    | with_reducible apply Frame.foldl2
    | with_reducible apply Frame.ite
    | with_reducible apply Frame.mk_upd
    | (apply Or.inl; apply Eq.refl true)
    | (apply Or.inr; exact rfl)
    | (with_reducible_and_instances rfl)
    | split

theorem frame_setCount (s : State) (n : Nat) : Frame 0 9223372036854775808 s (setCount s n) := by
  dsimp only [setCount, ok]
  repeat' first
    | with_reducible assumption
    | with_reducible exact Frame.refl _ _ _
    | intro _
    | apply Eq.refl true
    | apply Eq.refl (_ : Nat)
    | with_reducible apply Frame.put
    | with_reducible apply Frame.ite
    | split

theorem frame_execTideTick (s : State) : FrameO 128 9223372036854775808 s (execTideTick s) := by
  dsimp only [execTideTick, ok]
  repeat' first
    | with_reducible assumption
    | with_reducible exact Frame.refl _ _ _
    | intro _
    | apply Eq.refl true
    | apply Eq.refl (_ : Nat)
    | exact FrameO.fault
    | with_reducible apply FrameO.next
    | with_reducible apply Frame.step (g := frame_setTideRec ..)
    | with_reducible apply Frame.step (g := frame_setCount ..)
    | with_reducible apply Frame.ite
    | with_reducible apply FrameO.ite
    | with_reducible apply Frame.pairIte
    | split

theorem frame_pathSeen (s : State) (path : Nat) : Frame 128 18446744073709551616 s (pathSeen s path) := by
  dsimp only [pathSeen, ok]
  repeat' first
    | with_reducible assumption
    | with_reducible exact Frame.refl _ _ _
    | intro _
    | apply Eq.refl true
    | apply Eq.refl (_ : Nat)
    | with_reducible apply Frame.put
    | with_reducible apply Frame.step (g := frame_setTideRec ..)
    | with_reducible apply Frame.ite
    | with_reducible apply Frame.mk_upd
    | (apply Or.inl; apply Eq.refl true)
    | (apply Or.inr; exact rfl)
    | (with_reducible_and_instances rfl)
    | split

theorem frame_showOffset (s : State) (d : Int) : Frame 0 18446744073709551616 s (showOffset s d) := by
  dsimp only [showOffset, ok]
  repeat' first
    | with_reducible assumption
    | with_reducible exact Frame.refl _ _ _
    | intro _
    | apply Eq.refl true
    | apply Eq.refl (_ : Nat)
    | with_reducible apply Frame.put
    | with_reducible apply Frame.ite
    | split

theorem frame_tideCorrect (s : State) (d : Int) : Frame 77956 127606560083995344902133087898527858688 s (tideCorrect s d) := by
  dsimp only [tideCorrect, ok]
  repeat' first
    | with_reducible assumption
    | with_reducible exact Frame.refl _ _ _
    | intro _
    | apply Eq.refl true
    | apply Eq.refl (_ : Nat)
    | with_reducible apply Frame.bumpSat
    | with_reducible apply Frame.step (g := frame_setCount ..)
    | with_reducible apply Frame.step (g := frame_tidePost ..)
    | with_reducible apply Frame.step (g := frame_setTideRec ..)
    | with_reducible apply Frame.ite
    | with_reducible apply Frame.mk_upd
    | (apply Or.inl; apply Eq.refl true)
    | (apply Or.inr; exact rfl)
    | (with_reducible_and_instances rfl)
    | split

theorem frame_tideLockIn (s : State) : Frame 77956 127606560083995346073501336579084386304 s (tideLockIn s) := by
  dsimp only [tideLockIn, ok]
  repeat' first
    | with_reducible assumption
    | with_reducible exact Frame.refl _ _ _
    | intro _
    | apply Eq.refl true
    | apply Eq.refl (_ : Nat)
    | with_reducible apply Frame.step (g := frame_tidePost ..)
    | with_reducible apply Frame.step (g := frame_tideGo ..)
    | with_reducible apply Frame.step (g := frame_setTideRec ..)
    | with_reducible apply Frame.ite
    | with_reducible apply Frame.mk_upd
    | (apply Or.inl; apply Eq.refl true)
    | (apply Or.inr; exact rfl)
    | (with_reducible_and_instances rfl)
    | split

theorem frame_acquire (s : State) (d : Int) : Frame 77956 127606560083995346082724708615939162112 s (acquire s d) := by
  dsimp only [acquire, ok]
  repeat' first
    | with_reducible assumption
    | with_reducible exact Frame.refl _ _ _
    | intro _
    | apply Eq.refl true
    | apply Eq.refl (_ : Nat)
    | with_reducible apply Frame.step (g := frame_tideCorrect ..)
    | with_reducible apply Frame.step (g := frame_tideLockIn ..)
    | with_reducible apply Frame.step (g := frame_setTideRec ..)
    | with_reducible apply Frame.ite
    | with_reducible apply Frame.mk_upd
    | (apply Or.inl; apply Eq.refl true)
    | (apply Or.inr; exact rfl)
    | (with_reducible_and_instances rfl)
    | split

theorem frame_beaconActive (s : State) (port : Nat) (p : Packet) : Frame 77956 127606560083995346082724708615939162112 s (beaconActive s port p) := by
  dsimp only [beaconActive, ok]
  repeat' first
    | with_reducible assumption
    | with_reducible exact Frame.refl _ _ _
    | intro _
    | apply Eq.refl true
    | apply Eq.refl (_ : Nat)
    | with_reducible apply Frame.step (g := frame_setTideRec ..)
    | with_reducible apply Frame.step (g := frame_setCount ..)
    | with_reducible apply Frame.step (g := frame_tideGo ..)
    | with_reducible apply Frame.step (g := frame_showOffset ..)
    | with_reducible apply Frame.step (g := frame_tideCorrect ..)
    | with_reducible apply Frame.step (g := frame_acquire ..)
    | with_reducible apply Frame.ite
    | with_reducible apply Frame.mk_upd
    | (apply Or.inl; apply Eq.refl true)
    | (apply Or.inr; exact rfl)
    | (with_reducible_and_instances rfl)
    | split

theorem frame_beaconIn (s : State) (port : Nat) (p : Packet) : Frame 77956 127606560083995346082724708615939162112 s (beaconIn s port p) := by
  dsimp only [beaconIn, ok]
  repeat' first
    | with_reducible assumption
    | with_reducible exact Frame.refl _ _ _
    | intro _
    | apply Eq.refl true
    | apply Eq.refl (_ : Nat)
    | with_reducible apply Frame.step (g := frame_pathSeen ..)
    | with_reducible apply Frame.step (g := frame_beaconActive ..)
    | with_reducible apply Frame.ite
    | split

theorem frame_execBeaconReceive (port : Nat) (p : Packet) (s : State) : FrameO 77956 127606560083995346082724708615939162112 s (execBeaconReceive port p s) := by
  dsimp only [execBeaconReceive, ok]
  repeat' first
    | with_reducible assumption
    | with_reducible exact Frame.refl _ _ _
    | intro _
    | apply Eq.refl true
    | apply Eq.refl (_ : Nat)
    | exact FrameO.fault
    | with_reducible apply FrameO.next
    | with_reducible apply Frame.step (g := frame_beaconIn ..)
    | with_reducible apply Frame.ite
    | with_reducible apply FrameO.ite
    | split

theorem frame_beaconLoss (s : State) : Frame 77956 127606560083995346073501336579084386304 s (beaconLoss s) := by
  dsimp only [beaconLoss, ok]
  repeat' first
    | with_reducible assumption
    | with_reducible exact Frame.refl _ _ _
    | intro _
    | apply Eq.refl true
    | apply Eq.refl (_ : Nat)
    | with_reducible apply Frame.put
    | with_reducible apply Frame.step (g := frame_setTideRec ..)
    | with_reducible apply Frame.step (g := frame_bankChange ..)
    | with_reducible apply Frame.step (g := frame_post ..)
    | with_reducible apply Frame.step (g := frame_tidePost ..)
    | with_reducible apply Frame.step (g := frame_tideGo ..)
    | with_reducible apply Frame.ite
    | with_reducible apply Frame.mk_upd
    | (apply Or.inl; apply Eq.refl true)
    | (apply Or.inr; exact rfl)
    | (with_reducible_and_instances rfl)
    | split

theorem frame_execBeaconLossTimeout (s : State) : FrameO 77956 127606560083995346073501336579084386304 s (execBeaconLossTimeout s) := by
  dsimp only [execBeaconLossTimeout, ok]
  repeat' first
    | with_reducible assumption
    | with_reducible exact Frame.refl _ _ _
    | intro _
    | apply Eq.refl true
    | apply Eq.refl (_ : Nat)
    | exact FrameO.fault
    | with_reducible apply FrameO.next
    | with_reducible apply Frame.step (g := frame_beaconLoss ..)
    | with_reducible apply Frame.ite
    | with_reducible apply FrameO.ite
    | split

theorem frame_execHoldoverTimeout (s : State) : FrameO 77956 127606560083995346073501336579084386304 s (execHoldoverTimeout s) := by
  dsimp only [execHoldoverTimeout, ok]
  repeat' first
    | with_reducible assumption
    | with_reducible exact Frame.refl _ _ _
    | intro _
    | apply Eq.refl true
    | apply Eq.refl (_ : Nat)
    | exact FrameO.fault
    | with_reducible apply FrameO.next
    | with_reducible apply Frame.put
    | with_reducible apply Frame.step (g := frame_tidePost ..)
    | with_reducible apply Frame.step (g := frame_tideGo ..)
    | with_reducible apply Frame.ite
    | with_reducible apply FrameO.ite
    | split

theorem frame_execPathWindowExpire (path : Nat) (s : State) : FrameO 0 18446744073709551616 s (execPathWindowExpire path s) := by
  dsimp only [execPathWindowExpire, ok]
  repeat' first
    | with_reducible assumption
    | with_reducible exact Frame.refl _ _ _
    | intro _
    | apply Eq.refl true
    | apply Eq.refl (_ : Nat)
    | exact FrameO.fault
    | with_reducible apply FrameO.next
    | with_reducible apply Frame.put
    | with_reducible apply Frame.ite
    | with_reducible apply FrameO.ite
    | split

theorem frame_tideLocal (s : State) (on : Bool) : Frame 65668 633825301350046553686891560960 s (tideLocal s on) := by
  dsimp only [tideLocal, ok]
  repeat' first
    | with_reducible assumption
    | with_reducible exact Frame.refl _ _ _
    | intro _
    | apply Eq.refl true
    | apply Eq.refl (_ : Nat)
    | with_reducible apply Frame.put
    | with_reducible apply Frame.step (g := frame_tideGo ..)
    | with_reducible apply Frame.step (g := frame_setTideRec ..)
    | with_reducible apply Frame.ite
    | with_reducible apply Frame.mk_upd
    | (apply Or.inl; apply Eq.refl true)
    | (apply Or.inr; exact rfl)
    | (with_reducible_and_instances rfl)
    | split

theorem frame_execTideLocalWrite (on : Bool) (s : State) : FrameO 65668 633825301350046553686891560960 s (execTideLocalWrite on s) := by
  dsimp only [execTideLocalWrite, ok]
  repeat' first
    | with_reducible assumption
    | with_reducible exact Frame.refl _ _ _
    | intro _
    | apply Eq.refl true
    | apply Eq.refl (_ : Nat)
    | exact FrameO.fault
    | with_reducible apply FrameO.next
    | with_reducible apply Frame.step (g := frame_tideLocal ..)
    | with_reducible apply FrameO.bar0
    | with_reducible apply Frame.ite
    | with_reducible apply FrameO.ite
    | split

theorem frame_execTideCopyRenew (unit : Nat) (s : State) : FrameO 128 0 s (execTideCopyRenew unit s) := by
  dsimp only [execTideCopyRenew, ok, within]
  repeat' first
    | with_reducible assumption
    | with_reducible exact Frame.refl _ _ _
    | intro _
    | apply Eq.refl true
    | apply Eq.refl (_ : Nat)
    | exact FrameO.fault
    | with_reducible apply FrameO.next
    | with_reducible apply Frame.step (g := frame_setTideRec ..)
    | with_reducible apply Frame.ite
    | with_reducible apply Frame.mk_upd
    | with_reducible apply FrameO.ite
    | (apply Or.inl; apply Eq.refl true)
    | (apply Or.inr; exact rfl)
    | (with_reducible_and_instances rfl)
    | split

end Sys2Proof.Laws
end

