-- ==== Sys2Proof/Laws/FrameFerry.lean ====
section
/-! SUPPORT. What each operation of Machine/Ferry.lean may change, as a frame (Laws/Frame.lean): the parts and registers by their bits. -/

namespace Sys2Proof.Laws

open Sys2Proof.Machine

theorem frame_setSails (s : State) (x : Sails) : Frame 256 0 s (setSails s x) := by
  dsimp only [setSails, ok]
  repeat' first
    | with_reducible assumption
    | with_reducible exact Frame.refl _ _ _
    | intro _
    | apply Eq.refl true
    | apply Eq.refl (_ : Nat)
    | with_reducible apply Frame.ite
    | with_reducible apply Frame.mk_upd
    | (apply Or.inl; apply Eq.refl true)
    | (apply Or.inr; exact rfl)
    | (with_reducible_and_instances rfl)
    | split

theorem frame_ferryStart (s : State) (f : Nat) : Frame 256 1328165573307087716352 s (ferryStart s f) := by
  dsimp only [ferryStart, ok]
  repeat' first
    | with_reducible assumption
    | with_reducible exact Frame.refl _ _ _
    | intro _
    | apply Eq.refl true
    | apply Eq.refl (_ : Nat)
    | with_reducible apply Frame.put
    | with_reducible apply Frame.step (g := frame_ferryShow ..)
    | with_reducible apply Frame.step (g := frame_setSails ..)
    | with_reducible apply Frame.ite
    | with_reducible apply Frame.pairIte
    | with_reducible apply Frame.mk_upd
    | (apply Or.inl; apply Eq.refl true)
    | (apply Or.inr; exact rfl)
    | (with_reducible_and_instances rfl)
    | split

theorem frame_ferryHalt (s : State) (f : Nat) : Frame 0 1328165573307087716352 s (ferryHalt s f) := by
  dsimp only [ferryHalt, ok]
  repeat' first
    | with_reducible assumption
    | with_reducible exact Frame.refl _ _ _
    | intro _
    | apply Eq.refl true
    | apply Eq.refl (_ : Nat)
    | with_reducible apply Frame.put
    | with_reducible apply Frame.step (g := frame_ferryShow ..)
    | with_reducible apply Frame.ite
    | split

theorem frame_readLine (s : State) (c ca : Nat) : ∀ l t, readLine s c ca = .line l t → Frame 95102 127648098567802957466768813110627143680 s t := by
  intro l t h
  dsimp only [readLine] at h
  split at h
  · cases h
  · cases h
  · cases h; exact (frame_sectorRead ..).mono rfl rfl

theorem frame_readRun (c src : Nat) (a0 : Nat) (a1 : Nat) (a2 : List Line) (a3 : State) : Frame 95102 127648098567802957466768813110627143680 a3 (readRun c src a0 a1 a2 a3).2.2 := by
  induction a0 generalizing a1 a2 a3 with
  | zero => exact .refl _ _ _
  | succ n ih =>
    dsimp only [readRun]
    split
    · rename_i e
      exact ((frame_readLine _ _ _ _ _ e).mono rfl rfl).step (ih _ _ _) rfl rfl
    · exact .refl _ _ _

theorem frame_sendRun (s : State) (x : Sailing) (first : Nat) (ls : List Line) : Frame 78716 127606560083995955240330882689808728064 s (sendRun s x first ls) := by
  dsimp only [sendRun, ok]
  repeat' first
    | with_reducible assumption
    | with_reducible exact Frame.refl _ _ _
    | intro _
    | apply Eq.refl true
    | apply Eq.refl (_ : Nat)
    | with_reducible apply Frame.step (g := frame_sendOn ..)
    | with_reducible apply Frame.step (g := frame_runLost ..)
    | with_reducible apply Frame.ite
    | split

theorem frame_sailHalt (s : State) (x : Sailing) (reason ca : Nat) : Frame 78718 127606560192934678845738875411050270720 s (sailHalt s x reason ca) := by
  dsimp only [sailHalt, ok]
  repeat' first
    | with_reducible assumption
    | with_reducible exact Frame.refl _ _ _
    | intro _
    | apply Eq.refl true
    | apply Eq.refl (_ : Nat)
    | with_reducible apply Frame.step (g := frame_halt ..)
    | with_reducible apply Frame.step (g := frame_abortSailing ..)
    | with_reducible apply Frame.ite
    | split

theorem frame_issueRuns (a0 : Nat) (a1 : State) (a2 : Sailing) : Frame 95102 127648098567802957466768813110627143680 a1 (issueRuns a0 a1 a2) := by
  induction a0 generalizing a1 a2 with
  | zero =>
    dsimp only [issueRuns, ok]
    repeat' first
      | with_reducible assumption
      | with_reducible exact Frame.refl _ _ _
      | intro _
      | apply Eq.refl true
      | apply Eq.refl (_ : Nat)
      | with_reducible apply Frame.step (g := frame_readRun ..)
      | with_reducible apply Frame.step (g := frame_halt ..)
      | with_reducible apply Frame.step (g := frame_sailHalt ..)
      | with_reducible apply Frame.step (g := frame_segNote ..)
      | with_reducible apply Frame.step (g := frame_ferryShow ..)
      | with_reducible apply Frame.step (g := frame_updSailing ..)
      | with_reducible apply Frame.step (g := frame_segStart ..)
      | with_reducible apply Frame.step (g := frame_sendRun ..)
      | with_reducible apply Frame.eqSnd (e := by assumption)
      | with_reducible apply Frame.ite
      | with_reducible apply Frame.pairIte
      | (apply Or.inl; apply Eq.refl true)
      | (apply Or.inr; exact rfl)
      | (with_reducible_and_instances rfl)
      | split
      | with_reducible apply Frame.mk_upd
  | succ n ih =>
    dsimp only [issueRuns, ok]
    repeat' first
      | with_reducible assumption
      | with_reducible exact Frame.refl _ _ _
      | intro _
      | with_reducible apply Frame.step (g := ih ..)
      | apply Eq.refl true
      | apply Eq.refl (_ : Nat)
      | with_reducible apply Frame.step (g := frame_readRun ..)
      | with_reducible apply Frame.step (g := frame_halt ..)
      | with_reducible apply Frame.step (g := frame_sailHalt ..)
      | with_reducible apply Frame.step (g := frame_segNote ..)
      | with_reducible apply Frame.step (g := frame_ferryShow ..)
      | with_reducible apply Frame.step (g := frame_updSailing ..)
      | with_reducible apply Frame.step (g := frame_segStart ..)
      | with_reducible apply Frame.step (g := frame_sendRun ..)
      | with_reducible apply Frame.eqSnd (e := by assumption)
      | with_reducible apply Frame.ite
      | with_reducible apply Frame.pairIte
      | (apply Or.inl; apply Eq.refl true)
      | (apply Or.inr; exact rfl)
      | (with_reducible_and_instances rfl)
      | split
      | with_reducible apply Frame.mk_upd

theorem frame_issueLines (s : State) (x : Sailing) : Frame 95102 127648098567802957466768813110627143680 s (issueLines s x) := by
  dsimp only [issueLines, ok]
  repeat' first
    | with_reducible assumption
    | with_reducible exact Frame.refl _ _ _
    | intro _
    | apply Eq.refl true
    | apply Eq.refl (_ : Nat)
    | with_reducible apply Frame.step (g := frame_sendRun ..)
    | with_reducible apply Frame.step (g := frame_updSailing ..)
    | with_reducible apply Frame.step (g := frame_issueRuns ..)
    | with_reducible apply Frame.ite
    | with_reducible apply Frame.mk_upd
    | (apply Or.inl; apply Eq.refl true)
    | (apply Or.inr; exact rfl)
    | (with_reducible_and_instances rfl)
    | split

theorem frame_beginAttempt (s : State) (x : Sailing) : Frame 95102 127648098567802957466768813110627143680 s (beginAttempt s x) := by
  dsimp only [beginAttempt, ok]
  repeat' first
    | with_reducible assumption
    | with_reducible exact Frame.refl _ _ _
    | intro _
    | apply Eq.refl true
    | apply Eq.refl (_ : Nat)
    | with_reducible apply Frame.step (g := frame_ferryShow ..)
    | with_reducible apply Frame.step (g := frame_issueLines ..)
    | with_reducible apply Frame.step (g := frame_updSailing ..)
    | with_reducible apply Frame.ite
    | with_reducible apply Frame.mk_upd
    | (apply Or.inl; apply Eq.refl true)
    | (apply Or.inr; exact rfl)
    | (with_reducible_and_instances rfl)
    | split

theorem frame_redepart (s : State) (x : Sailing) : Frame 95102 127648098567802957466768813110627143680 s (redepart s x) := by
  dsimp only [redepart, ok]
  repeat' first
    | with_reducible assumption
    | with_reducible exact Frame.refl _ _ _
    | intro _
    | apply Eq.refl true
    | apply Eq.refl (_ : Nat)
    | with_reducible apply Frame.bumpSat
    | with_reducible apply Frame.step (g := frame_dropHeld ..)
    | with_reducible apply Frame.step (g := frame_readLine _ _ _ _ _ (by assumption))
    | with_reducible apply Frame.step (g := frame_beginAttempt ..)
    | with_reducible apply Frame.step (g := frame_halt ..)
    | with_reducible apply Frame.step (g := frame_sailHalt ..)
    | with_reducible apply Frame.step (g := frame_segNote ..)
    | with_reducible apply Frame.step (g := frame_ferryShow ..)
    | with_reducible apply Frame.step (g := frame_updSailing ..)
    | with_reducible apply Frame.step (g := frame_segStart ..)
    | with_reducible apply Frame.ite
    | with_reducible apply Frame.pairIte
    | (apply Or.inl; apply Eq.refl true)
    | (apply Or.inr; exact rfl)
    | (with_reducible_and_instances rfl)
    | split
    | with_reducible apply Frame.mk_upd

theorem frame_firstDepart (s : State) (x : Sailing) : Frame 95102 127648098567802976356234744589207998464 s (firstDepart s x) := by
  dsimp only [firstDepart, ok]
  repeat' first
    | with_reducible assumption
    | with_reducible exact Frame.refl _ _ _
    | intro _
    | apply Eq.refl true
    | apply Eq.refl (_ : Nat)
    | with_reducible apply Frame.put
    | with_reducible apply Frame.step (g := frame_ferryAdvance ..)
    | with_reducible apply Frame.step (g := frame_readLine _ _ _ _ _ (by assumption))
    | with_reducible apply Frame.step (g := frame_ferryShow ..)
    | with_reducible apply Frame.step (g := frame_issueLines ..)
    | with_reducible apply Frame.step (g := frame_halt ..)
    | with_reducible apply Frame.step (g := frame_sailHalt ..)
    | with_reducible apply Frame.step (g := frame_segNote ..)
    | with_reducible apply Frame.step (g := frame_segStart ..)
    | (dsimp only [gateOf, F.ferryGates_TOKENS]; exact Eq.refl true)
    | with_reducible apply Frame.ite
    | with_reducible apply Frame.pairIte
    | (apply Or.inl; apply Eq.refl true)
    | (apply Or.inr; exact rfl)
    | (with_reducible_and_instances rfl)
    | split
    | with_reducible apply Frame.mk_upd

theorem frame_depart (s : State) (x : Sailing) (copy : Nat) : Frame 95102 127648098567802978717417986024030605312 s (depart s x copy) := by
  dsimp only [depart, ok]
  repeat' first
    | with_reducible assumption
    | with_reducible exact Frame.refl _ _ _
    | intro _
    | apply Eq.refl true
    | apply Eq.refl (_ : Nat)
    | with_reducible apply Frame.bumpSat
    | with_reducible apply Frame.step (g := frame_ungate ..)
    | with_reducible apply Frame.step (g := frame_redepart ..)
    | with_reducible apply Frame.step (g := frame_firstDepart ..)
    | with_reducible apply Frame.ite
    | split

theorem frame_execFerryDepart (f copy : Nat) (s : State) : FrameO 95102 127648098567802978717417986024030605312 s (execFerryDepart f copy s) := by
  dsimp only [execFerryDepart, ok]
  repeat' first
    | with_reducible assumption
    | with_reducible exact Frame.refl _ _ _
    | intro _
    | apply Eq.refl true
    | apply Eq.refl (_ : Nat)
    | exact FrameO.fault
    | with_reducible apply FrameO.next
    | with_reducible apply Frame.step (g := frame_depart ..)
    | with_reducible apply Frame.ite
    | with_reducible apply FrameO.ite
    | split

theorem frame_execFerryLateHold (f copy : Nat) (s : State) : FrameO 78084 127606560083995346055054592505374834688 s (execFerryLateHold f copy s) := by
  dsimp only [execFerryLateHold, ok]
  repeat' first
    | with_reducible assumption
    | with_reducible exact Frame.refl _ _ _
    | intro _
    | apply Eq.refl true
    | apply Eq.refl (_ : Nat)
    | exact FrameO.fault
    | with_reducible apply FrameO.next
    | with_reducible apply Frame.step (g := frame_ferryShow ..)
    | with_reducible apply Frame.step (g := frame_post ..)
    | with_reducible apply Frame.ite
    | with_reducible apply FrameO.ite
    | (apply Or.inl; apply Eq.refl true)
    | (apply Or.inr; exact rfl)
    | (with_reducible_and_instances rfl)
    | split
    | with_reducible apply Frame.mk_upd

theorem frame_missEntry (s : State) (x : Sailing) : Frame 78596 127606560083995348563811786529873854464 s (missEntry s x) := by
  dsimp only [missEntry, ok]
  repeat' first
    | with_reducible assumption
    | with_reducible exact Frame.refl _ _ _
    | intro _
    | apply Eq.refl true
    | apply Eq.refl (_ : Nat)
    | with_reducible apply Frame.bumpSat
    | with_reducible apply Frame.step (g := frame_ferrySend ..)
    | with_reducible apply Frame.step (g := frame_post ..)
    | with_reducible apply Frame.step (g := frame_dropHeld ..)
    | with_reducible apply Frame.step (g := frame_ferryShow ..)
    | with_reducible apply Frame.step (g := frame_ferryAdvance ..)
    | with_reducible apply Frame.ite
    | with_reducible apply Frame.mk_upd
    | (apply Or.inl; apply Eq.refl true)
    | (apply Or.inr; exact rfl)
    | (with_reducible_and_instances rfl)
    | split

theorem frame_execFerryMiss (f copy : Nat) (s : State) : FrameO 78596 127606560083995348563811786529873854464 s (execFerryMiss f copy s) := by
  dsimp only [execFerryMiss, ok]
  repeat' first
    | with_reducible assumption
    | with_reducible exact Frame.refl _ _ _
    | intro _
    | apply Eq.refl true
    | apply Eq.refl (_ : Nat)
    | exact FrameO.fault
    | with_reducible apply FrameO.next
    | with_reducible apply Frame.step (g := frame_missEntry ..)
    | with_reducible apply Frame.ite
    | with_reducible apply FrameO.ite
    | split

theorem frame_completeSailing (s : State) (x : Sailing) : Frame 66428 633825908118799370215374192640 s (completeSailing s x) := by
  dsimp only [completeSailing, ok]
  repeat' first
    | with_reducible assumption
    | with_reducible exact Frame.refl _ _ _
    | intro _
    | apply Eq.refl true
    | apply Eq.refl (_ : Nat)
    | with_reducible apply Frame.bump
    | with_reducible apply Frame.step (g := frame_updSailing ..)
    | with_reducible apply Frame.step (g := frame_ferrySend ..)
    | with_reducible apply Frame.step (g := frame_ferryShow ..)
    | with_reducible apply Frame.step (g := frame_settleBollard ..)
    | with_reducible apply Frame.ite
    | with_reducible apply Frame.mk_upd
    | (apply Or.inl; apply Eq.refl true)
    | (apply Or.inr; exact rfl)
    | (with_reducible_and_instances rfl)
    | split

theorem frame_landAckIn (s : State) (p : Packet) : Frame 66428 633825908118799370215374192640 s (landAckIn s p) := by
  dsimp only [landAckIn, ok]
  repeat' first
    | with_reducible assumption
    | with_reducible exact Frame.refl _ _ _
    | intro _
    | apply Eq.refl true
    | apply Eq.refl (_ : Nat)
    | with_reducible apply Frame.step (g := frame_completeSailing ..)
    | with_reducible apply Frame.ite
    | split

theorem frame_execLandAckReceive (p : Packet) (s : State) : FrameO 66428 633825908118799370215374192640 s (execLandAckReceive p s) := by
  dsimp only [execLandAckReceive, ok]
  repeat' first
    | with_reducible assumption
    | with_reducible exact Frame.refl _ _ _
    | intro _
    | apply Eq.refl true
    | apply Eq.refl (_ : Nat)
    | exact FrameO.fault
    | with_reducible apply FrameO.next
    | with_reducible apply Frame.step (g := frame_landAckIn ..)
    | with_reducible apply Frame.ite
    | with_reducible apply FrameO.ite
    | split

theorem frame_turnBackIn (s : State) (p : Packet) : Frame 78716 127606560083995955240330882689808728064 s (turnBackIn s p) := by
  dsimp only [turnBackIn, ok]
  repeat' first
    | with_reducible assumption
    | with_reducible exact Frame.refl _ _ _
    | intro _
    | apply Eq.refl true
    | apply Eq.refl (_ : Nat)
    | with_reducible apply Frame.bumpSat
    | with_reducible apply Frame.step (g := frame_abortSailing ..)
    | with_reducible apply Frame.step (g := frame_ferryShow ..)
    | with_reducible apply Frame.step (g := frame_updSailing ..)
    | with_reducible apply Frame.ite
    | (apply Or.inl; apply Eq.refl true)
    | (apply Or.inr; exact rfl)
    | (with_reducible_and_instances rfl)
    | split
    | with_reducible apply Frame.mk_upd

theorem frame_execTurnBackReceive (p : Packet) (s : State) : FrameO 78716 127606560083995955240330882689808728064 s (execTurnBackReceive p s) := by
  dsimp only [execTurnBackReceive, ok]
  repeat' first
    | with_reducible assumption
    | with_reducible exact Frame.refl _ _ _
    | intro _
    | apply Eq.refl true
    | apply Eq.refl (_ : Nat)
    | exact FrameO.fault
    | with_reducible apply FrameO.next
    | with_reducible apply Frame.step (g := frame_turnBackIn ..)
    | with_reducible apply Frame.ite
    | with_reducible apply FrameO.ite
    | split

theorem frame_windowIn (s : State) (p : Packet) : Frame 95102 127648098567802957466768813110627143680 s (windowIn s p) := by
  dsimp only [windowIn, ok]
  repeat' first
    | with_reducible assumption
    | with_reducible exact Frame.refl _ _ _
    | intro _
    | apply Eq.refl true
    | apply Eq.refl (_ : Nat)
    | with_reducible apply Frame.step (g := frame_updSailing ..)
    | with_reducible apply Frame.step (g := frame_ferryShow ..)
    | with_reducible apply Frame.step (g := frame_issueLines ..)
    | with_reducible apply Frame.ite
    | (apply Or.inl; apply Eq.refl true)
    | (apply Or.inr; exact rfl)
    | (with_reducible_and_instances rfl)
    | split
    | with_reducible apply Frame.mk_upd

theorem frame_execWindowReceive (p : Packet) (s : State) : FrameO 95102 127648098567802957466768813110627143680 s (execWindowReceive p s) := by
  dsimp only [execWindowReceive, ok]
  repeat' first
    | with_reducible assumption
    | with_reducible exact Frame.refl _ _ _
    | intro _
    | apply Eq.refl true
    | apply Eq.refl (_ : Nat)
    | exact FrameO.fault
    | with_reducible apply FrameO.next
    | with_reducible apply Frame.step (g := frame_windowIn ..)
    | with_reducible apply Frame.ite
    | with_reducible apply FrameO.ite
    | split

theorem frame_execAckLimitExpire (f entry cycleLo : Nat) (s : State) : FrameO 78716 127606560083995955240330882689808728064 s (execAckLimitExpire f entry cycleLo s) := by
  dsimp only [execAckLimitExpire, ok, withSailing]
  repeat' first
    | with_reducible assumption
    | with_reducible exact Frame.refl _ _ _
    | intro _
    | apply Eq.refl true
    | apply Eq.refl (_ : Nat)
    | exact FrameO.fault
    | with_reducible apply FrameO.next
    | with_reducible apply Frame.step (g := frame_abortSailing ..)
    | with_reducible apply Frame.ite
    | with_reducible apply FrameO.ite
    | split

theorem frame_execSailingCut (f entry cycleLo : Nat) (s : State) : FrameO 78716 127606560083995955240330882689808728064 s (execSailingCut f entry cycleLo s) := by
  dsimp only [execSailingCut, ok, withSailing]
  repeat' first
    | with_reducible assumption
    | with_reducible exact Frame.refl _ _ _
    | intro _
    | apply Eq.refl true
    | apply Eq.refl (_ : Nat)
    | exact FrameO.fault
    | with_reducible apply FrameO.next
    | with_reducible apply Frame.step (g := frame_cutSailing ..)
    | with_reducible apply Frame.ite
    | with_reducible apply FrameO.ite
    | split

theorem frame_endCut (s : State) (x : Sailing) : Frame 95102 127648098567802957466768813110627143680 s (endCut s x) := by
  dsimp only [endCut, ok]
  repeat' first
    | with_reducible assumption
    | with_reducible exact Frame.refl _ _ _
    | intro _
    | apply Eq.refl true
    | apply Eq.refl (_ : Nat)
    | with_reducible apply Frame.bumpSat
    | with_reducible apply Frame.step (g := frame_ferrySend ..)
    | with_reducible apply Frame.step (g := frame_ferryShow ..)
    | with_reducible apply Frame.step (g := frame_updSailing ..)
    | with_reducible apply Frame.step (g := frame_post ..)
    | with_reducible apply Frame.step (g := frame_beginAttempt ..)
    | with_reducible apply Frame.ite
    | (apply Or.inl; apply Eq.refl true)
    | (apply Or.inr; exact rfl)
    | (with_reducible_and_instances rfl)
    | split
    | with_reducible apply Frame.mk_upd

theorem frame_execAttemptRestart (f entry cycleLo : Nat) (s : State) : FrameO 95102 127648098567802978717417986024030605312 s (execAttemptRestart f entry cycleLo s) := by
  dsimp only [execAttemptRestart, ok, withSailing]
  repeat' first
    | with_reducible assumption
    | with_reducible exact Frame.refl _ _ _
    | intro _
    | apply Eq.refl true
    | apply Eq.refl (_ : Nat)
    | exact FrameO.fault
    | with_reducible apply FrameO.next
    | with_reducible apply Frame.step (g := frame_endCut ..)
    | with_reducible apply Frame.step (g := frame_depart ..)
    | with_reducible apply Frame.ite
    | with_reducible apply FrameO.ite
    | split

theorem frame_execSourceSegmentTimeout (f entry cycleLo : Nat) (s : State) : FrameO 78718 127606560192934678845738875411050270720 s (execSourceSegmentTimeout f entry cycleLo s) := by
  dsimp only [execSourceSegmentTimeout, ok, withSailing]
  repeat' first
    | with_reducible assumption
    | with_reducible exact Frame.refl _ _ _
    | intro _
    | apply Eq.refl true
    | apply Eq.refl (_ : Nat)
    | exact FrameO.fault
    | with_reducible apply FrameO.next
    | with_reducible apply Frame.step (g := frame_halt ..)
    | with_reducible apply Frame.step (g := frame_abortSailing ..)
    | with_reducible apply Frame.ite
    | with_reducible apply FrameO.ite
    | with_reducible apply Frame.pairIte
    | split

theorem frame_abortAnswer (s : State) (f seq result : Nat) : Frame 0 9444732965739290427392 s (abortAnswer s f seq result) := by
  dsimp only [abortAnswer, ok]
  repeat' first
    | with_reducible assumption
    | with_reducible exact Frame.refl _ _ _
    | intro _
    | apply Eq.refl true
    | apply Eq.refl (_ : Nat)
    | with_reducible apply Frame.put
    | with_reducible apply Frame.ite
    | split

theorem frame_abortOne (s : State) (f entry cycleLo seq : Nat) : Frame 78716 127606560083995964832637801018775568384 s (abortOne s f entry cycleLo seq) := by
  dsimp only [abortOne, ok]
  repeat' first
    | with_reducible assumption
    | with_reducible exact Frame.refl _ _ _
    | intro _
    | apply Eq.refl true
    | apply Eq.refl (_ : Nat)
    | with_reducible apply Frame.step (g := frame_abortAnswer ..)
    | with_reducible apply Frame.step (g := frame_abortSailing ..)
    | with_reducible apply Frame.step (g := frame_ferryShow ..)
    | with_reducible apply Frame.step (g := frame_ferryAdvance ..)
    | with_reducible apply Frame.ite
    | (apply Or.inl; apply Eq.refl true)
    | (apply Or.inr; exact rfl)
    | (with_reducible_and_instances rfl)
    | split
    | with_reducible apply Frame.mk_upd

theorem frame_abortAllOf (s : State) (f seq : Nat) : Frame 78716 127606560083995964832637801018775568384 s (abortAllOf s f seq) := by
  dsimp only [abortAllOf, ok]
  repeat' first
    | with_reducible assumption
    | with_reducible exact Frame.refl _ _ _
    | intro _
    | apply Eq.refl true
    | apply Eq.refl (_ : Nat)
    | with_reducible apply Frame.step (g := frame_abortAnswer ..)
    | with_reducible apply Frame.step (g := frame_abortFerry ..)
    | with_reducible apply Frame.ite
    | split

end Sys2Proof.Laws
end

