-- ==== Sys2Proof/Laws/FrameLanding.lean ====
section
/-! SUPPORT. What each operation of Machine/Landing.lean may change, as a frame (Laws/Frame.lean): the parts and registers by their bits. -/

namespace Sys2Proof.Laws

open Sys2Proof.Machine

theorem frame_setBerth (s : State) (b : Nat) (x : Berth) : Frame 256 0 s (setBerth s b x) := by
  dsimp only [setBerth, ok]
  repeat' first
    | with_reducible assumption
    | with_reducible exact Frame.refl _ _ _
    | intro _
    | apply Eq.refl true
    | apply Eq.refl (_ : Nat)
    | with_reducible apply Frame.ite
    | with_reducible apply Frame.mk_upd
    | (apply Or.inl; apply Eq.refl true)
    | (apply Or.inr; exact rfl)
    | (with_reducible_and_instances rfl)
    | split

theorem frame_showAttempt (s : State) (b : Nat) : Frame 0 604462909807314587353088 s (showAttempt s b) := by
  dsimp only [showAttempt, ok]
  repeat' first
    | with_reducible assumption
    | with_reducible exact Frame.refl _ _ _
    | intro _
    | apply Eq.refl true
    | apply Eq.refl (_ : Nat)
    | with_reducible apply Frame.put
    | with_reducible apply Frame.ite
    | split

theorem frame_putBerth (s : State) (b : Nat) (x : Berth) (st : Nat) : Frame 256 604462909807314587353088 s (putBerth s b x st) := by
  dsimp only [putBerth, ok]
  repeat' first
    | with_reducible assumption
    | with_reducible exact Frame.refl _ _ _
    | intro _
    | apply Eq.refl true
    | apply Eq.refl (_ : Nat)
    | with_reducible apply Frame.put
    | with_reducible apply Frame.step (g := frame_showAttempt ..)
    | with_reducible apply Frame.step (g := frame_setBerth ..)
    | with_reducible apply Frame.ite
    | split

theorem frame_storeRun (s : State) (r : EarlyRun) : Frame 66304 0 s (storeRun s r) := by
  dsimp only [storeRun, ok]
  repeat' first
    | with_reducible assumption
    | with_reducible exact Frame.refl _ _ _
    | intro _
    | apply Eq.refl true
    | apply Eq.refl (_ : Nat)
    | with_reducible apply Frame.step (g := frame_linkSend ..)
    | with_reducible apply Frame.ite
    | with_reducible apply Frame.mk_upd
    | (apply Or.inl; apply Eq.refl true)
    | (apply Or.inr; exact rfl)
    | (with_reducible_and_instances rfl)
    | split

theorem frame_takeRuns (s : State) (gone : EarlyRun → Bool) : Frame 66304 0 s (takeRuns s gone) := by
  dsimp only [takeRuns, ok]
  repeat' first
    | with_reducible assumption
    | with_reducible exact Frame.refl _ _ _
    | intro _
    | apply Eq.refl true
    | apply Eq.refl (_ : Nat)
    | with_reducible apply Frame.step (g := frame_linkSend ..)
    | with_reducible apply Frame.step (g := frame_storeRun ..)
    | with_reducible apply Frame.foldl
    | with_reducible apply Frame.foldl2
    | with_reducible apply Frame.ite
    | with_reducible apply Frame.mk_upd
    | (apply Or.inl; apply Eq.refl true)
    | (apply Or.inr; exact rfl)
    | (with_reducible_and_instances rfl)
    | split

theorem frame_berthApplyNow (s : State) (b w0 w1 w2 w3 : Nat) : Frame 66304 604462909807314587353088 s (berthApplyNow s b w0 w1 w2 w3) := by
  dsimp only [berthApplyNow, ok]
  repeat' first
    | with_reducible assumption
    | with_reducible exact Frame.refl _ _ _
    | intro _
    | apply Eq.refl true
    | apply Eq.refl (_ : Nat)
    | with_reducible apply Frame.put
    | with_reducible apply Frame.step (g := frame_takeRuns ..)
    | with_reducible apply Frame.step (g := frame_putBerth ..)
    | with_reducible apply Frame.ite
    | with_reducible apply Frame.mk_upd
    | (apply Or.inl; apply Eq.refl true)
    | (apply Or.inr; exact rfl)
    | (with_reducible_and_instances rfl)
    | split

theorem frame_berthWrite (s : State) (b v : Nat) : Frame 66304 906694364710971881029632 s (berthWrite s b v) := by
  dsimp only [berthWrite, ok]
  repeat' first
    | with_reducible assumption
    | with_reducible exact Frame.refl _ _ _
    | intro _
    | apply Eq.refl true
    | apply Eq.refl (_ : Nat)
    | with_reducible apply Frame.setWord
    | with_reducible apply Frame.step (g := frame_setBerth ..)
    | with_reducible apply Frame.step (g := frame_berthApplyNow ..)
    | with_reducible apply Frame.ite
    | with_reducible apply Frame.mk_upd
    | (apply Or.inl; apply Eq.refl true)
    | (apply Or.inr; exact rfl)
    | (with_reducible_and_instances rfl)
    | split

theorem frame_execBerthApply (b word1 : Nat) (s : State) : FrameO 66305 906694364710971881029632 s (execBerthApply b word1 s) := by
  dsimp only [execBerthApply, ok]
  repeat' first
    | with_reducible assumption
    | with_reducible exact Frame.refl _ _ _
    | intro _
    | apply Eq.refl true
    | apply Eq.refl (_ : Nat)
    | exact FrameO.fault
    | with_reducible apply FrameO.next
    | with_reducible apply Frame.step (g := frame_berthWrite ..)
    | with_reducible apply Frame.step (g := frame_wideWrite ..)
    | with_reducible apply FrameO.bar0
    | with_reducible apply Frame.ite
    | with_reducible apply FrameO.ite
    | split

theorem frame_berthNext (s : State) (b : Nat) (x : Berth) (st : Nat) : Frame 66304 604462909807314587353088 s (berthNext s b x st) := by
  dsimp only [berthNext, ok]
  repeat' first
    | with_reducible assumption
    | with_reducible exact Frame.refl _ _ _
    | intro _
    | apply Eq.refl true
    | apply Eq.refl (_ : Nat)
    | with_reducible apply Frame.step (g := frame_berthApplyNow ..)
    | with_reducible apply Frame.step (g := frame_putBerth ..)
    | with_reducible apply Frame.ite
    | with_reducible apply Frame.pairIte
    | (apply Or.inl; apply Eq.refl true)
    | (apply Or.inr; exact rfl)
    | (with_reducible_and_instances rfl)
    | split
    | with_reducible apply Frame.mk_upd

theorem frame_landPost (s : State) (b : Nat) (p : Packet) (code reason : Nat) : Frame 77828 127606560083995344874462971787963531264 s (landPost s b p code reason) := by
  dsimp only [landPost, ok]
  repeat' first
    | with_reducible assumption
    | with_reducible exact Frame.refl _ _ _
    | intro _
    | apply Eq.refl true
    | apply Eq.refl (_ : Nat)
    | with_reducible apply Frame.step (g := frame_post ..)
    | with_reducible apply Frame.ite
    | split

theorem frame_dropEarly (s : State) (b : Nat) (k : SailKey) : Frame 66304 0 s (dropEarly s b k) := by
  dsimp only [dropEarly, ok]
  repeat' first
    | with_reducible assumption
    | with_reducible exact Frame.refl _ _ _
    | intro _
    | apply Eq.refl true
    | apply Eq.refl (_ : Nat)
    | with_reducible apply Frame.step (g := frame_takeRuns ..)
    | with_reducible apply Frame.ite
    | split

theorem frame_refuseRun (s : State) (port b : Nat) (p : Packet) (reason : Nat) : Frame 66304 604462909807314587353088 s (refuseRun s port b p reason) := by
  dsimp only [refuseRun, ok]
  repeat' first
    | with_reducible assumption
    | with_reducible exact Frame.refl _ _ _
    | intro _
    | apply Eq.refl true
    | apply Eq.refl (_ : Nat)
    | with_reducible apply Frame.step (g := frame_dropEarly ..)
    | with_reducible apply Frame.step (g := frame_showAttempt ..)
    | with_reducible apply Frame.step (g := frame_setBerth ..)
    | with_reducible apply Frame.step (g := frame_fabReply ..)
    | with_reducible apply Frame.ite
    | with_reducible apply Frame.mk_upd
    | (apply Or.inl; apply Eq.refl true)
    | (apply Or.inr; exact rfl)
    | (with_reducible_and_instances rfl)
    | split

theorem frame_refuseBy (s : State) (port b : Nat) (p : Packet) (r : Nat) (sg : Option (Nat × Nat)) : Frame 78598 127606560083995949337516894290626740224 s (refuseBy s port b p r sg) := by
  dsimp only [refuseBy, ok]
  repeat' first
    | with_reducible assumption
    | with_reducible exact Frame.refl _ _ _
    | intro _
    | apply Eq.refl true
    | apply Eq.refl (_ : Nat)
    | with_reducible apply Frame.step (g := frame_segNote ..)
    | with_reducible apply Frame.step (g := frame_refuseRun ..)
    | with_reducible apply Frame.ite
    | split

theorem frame_landLines (s : State) (x : Berth) (first : Nat) (ls : List Line) : Frame 95102 127648098567802957466768813110627143680 s (landLines s x first ls).2 := by
  dsimp only [landLines, ok]
  repeat' first
    | with_reducible assumption
    | with_reducible exact Frame.refl _ _ _
    | intro _
    | apply Eq.refl true
    | apply Eq.refl (_ : Nat)
    | with_reducible apply Frame.step (g := frame_sectorWrite ..)
    | with_reducible apply Frame.step (g := frame_halt ..)
    | with_reducible apply Frame.foldl
    | with_reducible apply Frame.foldl2
    | with_reducible apply Frame.ite
    | with_reducible apply Frame.pairIte
    | split

theorem frame_sendWindow (s : State) (port b : Nat) (p : Packet) : Frame 66304 0 s (sendWindow s port b p) := by
  dsimp only [sendWindow, ok]
  repeat' first
    | with_reducible assumption
    | with_reducible exact Frame.refl _ _ _
    | intro _
    | apply Eq.refl true
    | apply Eq.refl (_ : Nat)
    | with_reducible apply Frame.step (g := frame_setBerth ..)
    | with_reducible apply Frame.step (g := frame_fabReply ..)
    | with_reducible apply Frame.ite
    | with_reducible apply Frame.mk_upd
    | (apply Or.inl; apply Eq.refl true)
    | (apply Or.inr; exact rfl)
    | (with_reducible_and_instances rfl)
    | split

theorem frame_afterRun (s : State) (port b : Nat) (p : Packet) (before : Nat) : Frame 66304 604462909807314587353088 s (afterRun s port b p before) := by
  dsimp only [afterRun, ok]
  repeat' first
    | with_reducible assumption
    | with_reducible exact Frame.refl _ _ _
    | intro _
    | apply Eq.refl true
    | apply Eq.refl (_ : Nat)
    | with_reducible apply Frame.step (g := frame_putBerth ..)
    | with_reducible apply Frame.step (g := frame_fabReply ..)
    | with_reducible apply Frame.step (g := frame_sendWindow ..)
    | with_reducible apply Frame.ite
    | split

theorem frame_performRun (s : State) (port b : Nat) (p : Packet) (ls : List Line) : Frame 95102 127648098567802957466768813110627143680 s (performRun s port b p ls) := by
  dsimp only [performRun, ok]
  repeat' first
    | with_reducible assumption
    | with_reducible exact Frame.refl _ _ _
    | intro _
    | apply Eq.refl true
    | apply Eq.refl (_ : Nat)
    | with_reducible apply Frame.step (g := frame_landLines ..)
    | with_reducible apply Frame.step (g := frame_refuseBy ..)
    | with_reducible apply Frame.step (g := frame_afterRun ..)
    | with_reducible apply Frame.step (g := frame_setBerth ..)
    | with_reducible apply Frame.eqSnd (e := by assumption)
    | with_reducible apply Frame.ite
    | with_reducible apply Frame.pairIte
    | (apply Or.inl; apply Eq.refl true)
    | (apply Or.inr; exact rfl)
    | (with_reducible_and_instances rfl)
    | split
    | with_reducible apply Frame.mk_upd

theorem frame_performEarly (a0 : Nat) (a1 : State) (a2 : Nat) (a3 : Nat) (a4 : SailKey) : Frame 95102 127648098567802957466768813110627143680 a1 (performEarly a0 a1 a2 a3 a4) := by
  induction a0 generalizing a1 a2 a3 a4 with
  | zero =>
    dsimp only [performEarly, ok]
    repeat' first
      | with_reducible assumption
      | with_reducible exact Frame.refl _ _ _
      | intro _
      | apply Eq.refl true
      | apply Eq.refl (_ : Nat)
      | with_reducible apply Frame.step (g := frame_takeRuns ..)
      | with_reducible apply Frame.step (g := frame_performRun ..)
      | with_reducible apply Frame.ite
      | split
  | succ n ih =>
    dsimp only [performEarly, ok]
    repeat' first
      | with_reducible assumption
      | with_reducible exact Frame.refl _ _ _
      | intro _
      | with_reducible apply Frame.step (g := ih ..)
      | apply Eq.refl true
      | apply Eq.refl (_ : Nat)
      | with_reducible apply Frame.step (g := frame_takeRuns ..)
      | with_reducible apply Frame.step (g := frame_performRun ..)
      | with_reducible apply Frame.ite
      | split

theorem frame_sailRunIn (s : State) (port : Nat) (p : Packet) (ls : List Line) (owed : Nat) : Frame 95102 127648098567802957466768813110627143680 s (sailRunIn s port p ls owed) := by
  dsimp only [sailRunIn, ok]
  repeat' first
    | with_reducible assumption
    | with_reducible exact Frame.refl _ _ _
    | intro _
    | apply Eq.refl true
    | apply Eq.refl (_ : Nat)
    | with_reducible apply Frame.step (g := frame_fabReply ..)
    | with_reducible apply Frame.step (g := frame_setBerth ..)
    | with_reducible apply Frame.step (g := frame_refuseBy ..)
    | with_reducible apply Frame.step (g := frame_putBerth ..)
    | with_reducible apply Frame.step (g := frame_performEarly ..)
    | with_reducible apply Frame.step (g := frame_performRun ..)
    | with_reducible apply Frame.step (g := frame_ungate ..)
    | with_reducible apply Frame.ite
    | (apply Or.inl; apply Eq.refl true)
    | (apply Or.inr; exact rfl)
    | (with_reducible_and_instances rfl)
    | split
    | with_reducible apply Frame.mk_upd

theorem frame_execSailRunReceive (port : Nat) (p : Packet) (lines : List Line) (s : State) : FrameO 95102 127648098567802957466768813110627143680 s (execSailRunReceive port p lines s) := by
  dsimp only [execSailRunReceive, ok]
  repeat' first
    | with_reducible assumption
    | with_reducible exact Frame.refl _ _ _
    | intro _
    | apply Eq.refl true
    | apply Eq.refl (_ : Nat)
    | exact FrameO.fault
    | with_reducible apply FrameO.next
    | with_reducible apply Frame.step (g := frame_sailRunIn ..)
    | with_reducible apply Frame.ite
    | with_reducible apply FrameO.ite
    | split

theorem frame_cutIn (s : State) (p : Packet) : Frame 66304 604462909807314587353088 s (cutIn s p) := by
  dsimp only [cutIn, ok]
  repeat' first
    | with_reducible assumption
    | with_reducible exact Frame.refl _ _ _
    | intro _
    | apply Eq.refl true
    | apply Eq.refl (_ : Nat)
    | with_reducible apply Frame.step (g := frame_dropEarly ..)
    | with_reducible apply Frame.step (g := frame_putBerth ..)
    | with_reducible apply Frame.step (g := frame_showAttempt ..)
    | with_reducible apply Frame.step (g := frame_setBerth ..)
    | with_reducible apply Frame.ite
    | with_reducible apply Frame.mk_upd
    | (apply Or.inl; apply Eq.refl true)
    | (apply Or.inr; exact rfl)
    | (with_reducible_and_instances rfl)
    | split

theorem frame_execCutReceive (p : Packet) (s : State) : FrameO 66304 604462909807314587353088 s (execCutReceive p s) := by
  dsimp only [execCutReceive, ok]
  repeat' first
    | with_reducible assumption
    | with_reducible exact Frame.refl _ _ _
    | intro _
    | apply Eq.refl true
    | apply Eq.refl (_ : Nat)
    | exact FrameO.fault
    | with_reducible apply FrameO.next
    | with_reducible apply Frame.step (g := frame_cutIn ..)
    | with_reducible apply Frame.ite
    | with_reducible apply FrameO.ite
    | split

theorem frame_landComplete (s : State) (b : Nat) (k : SailKey) : Frame 66428 633825904577024508063140282368 s (landComplete s b k) := by
  dsimp only [landComplete, ok]
  repeat' first
    | with_reducible assumption
    | with_reducible exact Frame.refl _ _ _
    | intro _
    | apply Eq.refl true
    | apply Eq.refl (_ : Nat)
    | with_reducible apply Frame.bump
    | with_reducible apply Frame.step (g := frame_bolSend ..)
    | with_reducible apply Frame.step (g := frame_berthNext ..)
    | with_reducible apply Frame.ite
    | split

theorem frame_spoilRegion (s : State) (x : Berth) : Frame 95102 127648098567802957466768813110627143680 s (spoilRegion s x) := by
  dsimp only [spoilRegion, ok]
  repeat' first
    | with_reducible assumption
    | with_reducible exact Frame.refl _ _ _
    | intro _
    | apply Eq.refl true
    | apply Eq.refl (_ : Nat)
    | with_reducible apply Frame.step (g := frame_spoilAt ..)
    | with_reducible apply Frame.foldl
    | with_reducible apply Frame.foldl2
    | with_reducible apply Frame.ite
    | split

theorem frame_landAborted (s : State) (b : Nat) (p : Packet) : Frame 95102 127648098567802957466768813110627143680 s (landAborted s b p) := by
  dsimp only [landAborted, ok]
  repeat' first
    | with_reducible assumption
    | with_reducible exact Frame.refl _ _ _
    | intro _
    | apply Eq.refl true
    | apply Eq.refl (_ : Nat)
    | with_reducible apply Frame.bumpSat
    | with_reducible apply Frame.step (g := frame_landPost ..)
    | with_reducible apply Frame.step (g := frame_dropEarly ..)
    | with_reducible apply Frame.step (g := frame_berthNext ..)
    | with_reducible apply Frame.step (g := frame_spoilRegion ..)
    | with_reducible apply Frame.step (g := frame_setBerth ..)
    | with_reducible apply Frame.ite
    | with_reducible apply Frame.mk_upd
    | (apply Or.inl; apply Eq.refl true)
    | (apply Or.inr; exact rfl)
    | (with_reducible_and_instances rfl)
    | split

theorem frame_settleIn (s : State) (p : Packet) : Frame 95102 127648098567802957466768813110627143680 s (settleIn s p) := by
  dsimp only [settleIn, ok]
  repeat' first
    | with_reducible assumption
    | with_reducible exact Frame.refl _ _ _
    | intro _
    | apply Eq.refl true
    | apply Eq.refl (_ : Nat)
    | with_reducible apply Frame.step (g := frame_landAborted ..)
    | with_reducible apply Frame.step (g := frame_landComplete ..)
    | with_reducible apply Frame.ite
    | split

theorem frame_execSettleReceive (p : Packet) (s : State) : FrameO 95102 127648098567802957466768813110627143680 s (execSettleReceive p s) := by
  dsimp only [execSettleReceive, ok]
  repeat' first
    | with_reducible assumption
    | with_reducible exact Frame.refl _ _ _
    | intro _
    | apply Eq.refl true
    | apply Eq.refl (_ : Nat)
    | exact FrameO.fault
    | with_reducible apply FrameO.next
    | with_reducible apply Frame.step (g := frame_settleIn ..)
    | with_reducible apply Frame.ite
    | with_reducible apply FrameO.ite
    | split

theorem frame_missedIn (s : State) (p : Packet) : Frame 77828 127606560083995344874462971787963531264 s (missedIn s p) := by
  dsimp only [missedIn, ok]
  repeat' first
    | with_reducible assumption
    | with_reducible exact Frame.refl _ _ _
    | intro _
    | apply Eq.refl true
    | apply Eq.refl (_ : Nat)
    | with_reducible apply Frame.step (g := frame_landPost ..)
    | with_reducible apply Frame.ite
    | split

theorem frame_execMissedReceive (p : Packet) (s : State) : FrameO 77828 127606560083995344874462971787963531264 s (execMissedReceive p s) := by
  dsimp only [execMissedReceive, ok]
  repeat' first
    | with_reducible assumption
    | with_reducible exact Frame.refl _ _ _
    | intro _
    | apply Eq.refl true
    | apply Eq.refl (_ : Nat)
    | exact FrameO.fault
    | with_reducible apply FrameO.next
    | with_reducible apply Frame.step (g := frame_missedIn ..)
    | with_reducible apply Frame.ite
    | with_reducible apply FrameO.ite
    | split

theorem frame_berthReset (s : State) (b : Nat) (k : SailKey) : Frame 95102 127648098567802957466768813110627143680 s (berthReset s b k) := by
  dsimp only [berthReset, ok]
  repeat' first
    | with_reducible assumption
    | with_reducible exact Frame.refl _ _ _
    | intro _
    | apply Eq.refl true
    | apply Eq.refl (_ : Nat)
    | with_reducible apply Frame.step (g := frame_dropEarly ..)
    | with_reducible apply Frame.step (g := frame_post ..)
    | with_reducible apply Frame.step (g := frame_berthNext ..)
    | with_reducible apply Frame.step (g := frame_spoilRegion ..)
    | with_reducible apply Frame.ite
    | split

theorem frame_forgetNode (s : State) (n : Nat) : Frame 256 0 s (forgetNode s n) := by
  dsimp only [forgetNode, ok]
  repeat' first
    | with_reducible assumption
    | with_reducible exact Frame.refl _ _ _
    | intro _
    | apply Eq.refl true
    | apply Eq.refl (_ : Nat)
    | with_reducible apply Frame.ite
    | with_reducible apply Frame.pairIte
    | with_reducible apply Frame.mk_upd
    | (apply Or.inl; apply Eq.refl true)
    | (apply Or.inr; exact rfl)
    | (with_reducible_and_instances rfl)
    | split

theorem frame_nodeResetIn (s : State) (p : Packet) : Frame 95102 127648098567802957466768813110627143680 s (nodeResetIn s p) := by
  dsimp only [nodeResetIn, ok]
  repeat' first
    | with_reducible assumption
    | with_reducible exact Frame.refl _ _ _
    | intro _
    | apply Eq.refl true
    | apply Eq.refl (_ : Nat)
    | with_reducible apply Frame.step (g := frame_abortSailing ..)
    | with_reducible apply Frame.step (g := frame_forgetNode ..)
    | with_reducible apply Frame.step (g := frame_berthReset ..)
    | with_reducible apply Frame.foldl
    | with_reducible apply Frame.foldl2
    | with_reducible apply Frame.ite
    | with_reducible apply Frame.pairIte
    | split

theorem frame_execNodeResetReceive (p : Packet) (s : State) : FrameO 95102 127648098567802957466768813110627143680 s (execNodeResetReceive p s) := by
  dsimp only [execNodeResetReceive, ok]
  repeat' first
    | with_reducible assumption
    | with_reducible exact Frame.refl _ _ _
    | intro _
    | apply Eq.refl true
    | apply Eq.refl (_ : Nat)
    | exact FrameO.fault
    | with_reducible apply FrameO.next
    | with_reducible apply Frame.step (g := frame_nodeResetIn ..)
    | with_reducible apply Frame.ite
    | with_reducible apply FrameO.ite
    | split

end Sys2Proof.Laws
end

