-- ==== Sys2Proof/Laws/FrameHostLine.lean ====
section
/-! SUPPORT. What each operation of Machine/HostLine.lean may change, as a frame (Laws/Frame.lean): the parts and registers by their bits. -/

namespace Sys2Proof.Laws

open Sys2Proof.Machine

theorem frame_cxlShow (s : State) : Frame 0 40565128692313162192963227353088 s (cxlShow s) := by
  dsimp only [cxlShow, ok]
  repeat' first
    | with_reducible assumption
    | with_reducible exact Frame.refl _ _ _
    | intro _
    | apply Eq.refl true
    | apply Eq.refl (_ : Nat)
    | with_reducible apply Frame.put
    | with_reducible apply Frame.ite
    | split

theorem frame_setHostLines (s : State) (ls : List HostLine) : Frame 4 0 s (setHostLines s ls) := by
  dsimp only [setHostLines, ok]
  repeat' first
    | with_reducible assumption
    | with_reducible exact Frame.refl _ _ _
    | intro _
    | apply Eq.refl true
    | apply Eq.refl (_ : Nat)
    | with_reducible apply Frame.ite
    | with_reducible apply Frame.mk_upd
    | (apply Or.inl; apply Eq.refl true)
    | (apply Or.inr; exact rfl)
    | (with_reducible_and_instances rfl)
    | split

theorem frame_hlPut (s : State) (l : HostLine) : Frame 4 0 s (hlPut s l) := by
  dsimp only [hlPut, ok]
  repeat' first
    | with_reducible assumption
    | with_reducible exact Frame.refl _ _ _
    | intro _
    | apply Eq.refl true
    | apply Eq.refl (_ : Nat)
    | with_reducible apply Frame.step (g := frame_setHostLines ..)
    | with_reducible apply Frame.ite
    | split

theorem frame_hlUsed (s : State) (l : HostLine) : Frame 4 0 s (hlUsed s l) := by
  dsimp only [hlUsed, ok]
  repeat' first
    | with_reducible assumption
    | with_reducible exact Frame.refl _ _ _
    | intro _
    | apply Eq.refl true
    | apply Eq.refl (_ : Nat)
    | with_reducible apply Frame.step (g := frame_setHostLines ..)
    | with_reducible apply Frame.step (g := frame_hlPut ..)
    | with_reducible apply Frame.ite
    | split

theorem frame_cxlSend (s : State) (m : D2H) : Frame 65536 0 s (cxlSend s m) := by
  dsimp only [cxlSend, ok]
  repeat' first
    | with_reducible assumption
    | with_reducible exact Frame.refl _ _ _
    | intro _
    | apply Eq.refl true
    | apply Eq.refl (_ : Nat)
    | with_reducible apply Frame.ite
    | with_reducible apply Frame.mk_upd
    | (apply Or.inl; apply Eq.refl true)
    | (apply Or.inr; exact rfl)
    | (with_reducible_and_instances rfl)
    | split

theorem frame_hlEvict (s : State) (l : HostLine) : Frame 65540 0 s (hlEvict s l) := by
  dsimp only [hlEvict, ok]
  repeat' first
    | with_reducible assumption
    | with_reducible exact Frame.refl _ _ _
    | intro _
    | apply Eq.refl true
    | apply Eq.refl (_ : Nat)
    | with_reducible apply Frame.step (g := frame_cxlSend ..)
    | with_reducible apply Frame.step (g := frame_setHostLines ..)
    | with_reducible apply Frame.ite
    | with_reducible apply Frame.mk_upd
    | (apply Or.inl; apply Eq.refl true)
    | (apply Or.inr; exact rfl)
    | (with_reducible_and_instances rfl)
    | split

theorem frame_hlRoom (s : State) (ha : Nat) : Frame 65540 0 s (hlRoom s ha) := by
  dsimp only [hlRoom, ok]
  repeat' first
    | with_reducible assumption
    | with_reducible exact Frame.refl _ _ _
    | intro _
    | apply Eq.refl true
    | apply Eq.refl (_ : Nat)
    | with_reducible apply Frame.step (g := frame_hlEvict ..)
    | with_reducible apply Frame.ite
    | split

theorem frame_hlDrain (s : State) (n : Nat) : Frame 65540 0 s (hlDrain s n) := by
  dsimp only [hlDrain, ok]
  repeat' first
    | with_reducible assumption
    | with_reducible exact Frame.refl _ _ _
    | intro _
    | apply Eq.refl true
    | apply Eq.refl (_ : Nat)
    | with_reducible apply Frame.step (g := frame_hlEvict ..)
    | with_reducible apply Frame.foldl
    | with_reducible apply Frame.foldl2
    | with_reducible apply Frame.ite
    | split

theorem frame_hlDrainAll (s : State) : Frame 65540 0 s (hlDrainAll s) := by
  dsimp only [hlDrainAll, ok]
  repeat' first
    | with_reducible assumption
    | with_reducible exact Frame.refl _ _ _
    | intro _
    | apply Eq.refl true
    | apply Eq.refl (_ : Nat)
    | with_reducible apply Frame.step (g := frame_hlDrain ..)
    | with_reducible apply Frame.foldl
    | with_reducible apply Frame.foldl2
    | with_reducible apply Frame.ite
    | split

theorem frame_hlPurge (s : State) : Frame 65540 0 s (hlPurge s) := by
  dsimp only [hlPurge, ok]
  repeat' first
    | with_reducible assumption
    | with_reducible exact Frame.refl _ _ _
    | intro _
    | apply Eq.refl true
    | apply Eq.refl (_ : Nat)
    | with_reducible apply Frame.step (g := frame_hlEvict ..)
    | with_reducible apply Frame.foldl
    | with_reducible apply Frame.foldl2
    | with_reducible apply Frame.ite
    | with_reducible apply Frame.mk_upd
    | (apply Or.inl; apply Eq.refl true)
    | (apply Or.inr; exact rfl)
    | (with_reducible_and_instances rfl)
    | split

theorem frame_hlRequest (s : State) (ha : Nat) (own : Bool) : Frame 65540 0 s (hlRequest s ha own) := by
  dsimp only [hlRequest, ok]
  repeat' first
    | with_reducible assumption
    | with_reducible exact Frame.refl _ _ _
    | intro _
    | apply Eq.refl true
    | apply Eq.refl (_ : Nat)
    | with_reducible apply Frame.step (g := frame_hlRoom ..)
    | with_reducible apply Frame.step (g := frame_cxlSend ..)
    | with_reducible apply Frame.ite
    | with_reducible apply Frame.mk_upd
    | (apply Or.inl; apply Eq.refl true)
    | (apply Or.inr; exact rfl)
    | (with_reducible_and_instances rfl)
    | split

theorem frame_hlWrite (s : State) (ha : Nat) (bs : List Byte) : Frame 4 0 s (hlWrite s ha bs) := by
  dsimp only [hlWrite, ok]
  repeat' first
    | with_reducible assumption
    | with_reducible exact Frame.refl _ _ _
    | intro _
    | apply Eq.refl true
    | apply Eq.refl (_ : Nat)
    | with_reducible apply Frame.step (g := frame_hlPut ..)
    | with_reducible apply Frame.foldl
    | with_reducible apply Frame.foldl2
    | with_reducible apply Frame.ite
    | with_reducible apply Frame.pairIte
    | (apply Or.inl; apply Eq.refl true)
    | (apply Or.inr; exact rfl)
    | (with_reducible_and_instances rfl)
    | split
    | with_reducible apply Frame.mk_upd

end Sys2Proof.Laws
end

