-- ==== Sys2Proof/Laws/FrameThreadMem.lean ====
section
/-! SUPPORT. What each operation of Machine/ThreadMem.lean may change, as a frame (Laws/Frame.lean): the parts and registers by their bits. -/

namespace Sys2Proof.Laws

open Sys2Proof.Machine

theorem frame_putVal (s : State) (core slot dst width lane : Nat) (v : Nat) : Frame 32 0 s (putVal s core slot dst width lane v) := by
  dsimp only [putVal, ok]
  repeat' first
    | with_reducible assumption
    | with_reducible exact Frame.refl _ _ _
    | intro _
    | apply Eq.refl true
    | apply Eq.refl (_ : Nat)
    | with_reducible apply Frame.step (g := frame_regWrite64 ..)
    | with_reducible apply Frame.step (g := frame_regWrite ..)
    | with_reducible apply Frame.ite
    | split

theorem frame_peerAccess (s : State) (write : Bool) (c core slot node line req : Nat) : Frame 512 0 s (peerAccess s write c core slot node line req).2 := by
  dsimp only [peerAccess, ok]
  repeat' first
    | with_reducible assumption
    | with_reducible exact Frame.refl _ _ _
    | intro _
    | apply Eq.refl true
    | apply Eq.refl (_ : Nat)
    | with_reducible apply Frame.ite
    | with_reducible apply Frame.pairIte
    | with_reducible apply Frame.mk_upd
    | (apply Or.inl; apply Eq.refl true)
    | (apply Or.inr; exact rfl)
    | (with_reducible_and_instances rfl)
    | split

theorem frame_peerRead (s : State) (c core slot addr req : Nat) : Frame 66048 0 s (peerRead s c core slot addr req) := by
  dsimp only [peerRead, ok]
  repeat' first
    | with_reducible assumption
    | with_reducible exact Frame.refl _ _ _
    | intro _
    | apply Eq.refl true
    | apply Eq.refl (_ : Nat)
    | with_reducible apply Frame.step (g := frame_peerAccess ..)
    | with_reducible apply Frame.step (g := frame_fabSend ..)
    | with_reducible apply Frame.eqSnd (e := by assumption)
    | with_reducible apply Frame.ite
    | with_reducible apply Frame.pairIte
    | split

theorem frame_requestLine (s : State) (c core slot : Nat) (w : WantLine) : Frame 66092 4294967296 s (requestLine s c core slot w) := by
  dsimp only [requestLine, ok]
  repeat' first
    | with_reducible assumption
    | with_reducible exact Frame.refl _ _ _
    | intro _
    | apply Eq.refl true
    | apply Eq.refl (_ : Nat)
    | with_reducible apply Frame.bump
    | with_reducible apply Frame.step (g := frame_peerRead ..)
    | with_reducible apply Frame.step (g := frame_hlRequest ..)
    | with_reducible apply Frame.ite
    | (apply Or.inl; apply Eq.refl true)
    | (apply Or.inr; exact rfl)
    | (with_reducible_and_instances rfl)
    | split
    | with_reducible apply Frame.mk_upd

theorem frame_askLine (s : State) (c core slot : Nat) (w : WantLine) : Frame 66092 4294967296 s (askLine s c core slot w).2 := by
  dsimp only [askLine, ok]
  repeat' first
    | with_reducible assumption
    | with_reducible exact Frame.refl _ _ _
    | intro _
    | apply Eq.refl true
    | apply Eq.refl (_ : Nat)
    | with_reducible apply Frame.step (g := frame_requestLine ..)
    | with_reducible apply Frame.ite
    | with_reducible apply Frame.pairIte
    | split

theorem frame_askLines (c core slot : Nat) (a0 : State) (a1 : List WantLine) : Frame 66092 4294967296 a0 (askLines c core slot a0 a1).2 := by
  induction a1 generalizing c core slot a0 with
  | nil =>
    dsimp only [askLines, ok]
    repeat' first
      | with_reducible assumption
      | with_reducible exact Frame.refl _ _ _
      | intro _
      | apply Eq.refl true
      | apply Eq.refl (_ : Nat)
      | with_reducible apply Frame.step (g := frame_askLine ..)
      | with_reducible apply Frame.eqSnd (e := by assumption)
      | with_reducible apply Frame.ite
      | with_reducible apply Frame.pairIte
      | split
  | cons y ys ih =>
    dsimp only [askLines, ok]
    repeat' first
      | with_reducible assumption
      | with_reducible exact Frame.refl _ _ _
      | intro _
      | with_reducible apply Frame.step (g := ih ..)
      | apply Eq.refl true
      | apply Eq.refl (_ : Nat)
      | with_reducible apply Frame.step (g := frame_askLine ..)
      | with_reducible apply Frame.eqSnd (e := by assumption)
      | with_reducible apply Frame.ite
      | with_reducible apply Frame.pairIte
      | split

theorem frame_loadDone (s : State) (core slot : Nat) (acc : LoadAcc) (lanes : List LaneAcc) (got : List (Nat × List Byte)) : Frame 32 0 s (loadDone s core slot acc lanes got) := by
  dsimp only [loadDone, ok]
  repeat' first
    | with_reducible assumption
    | with_reducible exact Frame.refl _ _ _
    | intro _
    | apply Eq.refl true
    | apply Eq.refl (_ : Nat)
    | with_reducible apply Frame.step (g := frame_putVal ..)
    | with_reducible apply Frame.step (g := frame_acquireWide ..)
    | with_reducible apply Frame.foldl
    | with_reducible apply Frame.foldl2
    | with_reducible apply Frame.ite
    | split

theorem frame_loadScratch (s : State) (t : Th) (acc : LoadAcc) (next : Nat) : Frame 78718 127606560192934678845738875411050270720 s (loadScratch s t acc next) := by
  dsimp only [loadScratch, ok]
  repeat' first
    | with_reducible assumption
    | with_reducible exact Frame.refl _ _ _
    | intro _
    | apply Eq.refl true
    | apply Eq.refl (_ : Nat)
    | with_reducible apply Frame.step (g := frame_haltTh ..)
    | with_reducible apply Frame.step (g := frame_touchAll ..)
    | with_reducible apply Frame.step (g := frame_putVal ..)
    | with_reducible apply Frame.step (g := frame_goTo ..)
    | with_reducible apply Frame.step (g := frame_acquireWide ..)
    | with_reducible apply Frame.foldl
    | with_reducible apply Frame.foldl2
    | with_reducible apply Frame.ite
    | with_reducible apply Frame.pairIte
    | split

theorem frame_addLoad (s : State) (core slot : Nat) (o : OutLoad) : Frame 16 0 s (addLoad s core slot o) := by
  dsimp only [addLoad, ok]
  repeat' first
    | with_reducible assumption
    | with_reducible exact Frame.refl _ _ _
    | intro _
    | apply Eq.refl true
    | apply Eq.refl (_ : Nat)
    | with_reducible apply Frame.step (g := frame_setSlot ..)
    | with_reducible apply Frame.ite
    | (apply Or.inl; apply Eq.refl true)
    | (apply Or.inr; exact rfl)
    | (with_reducible_and_instances rfl)
    | split
    | with_reducible apply Frame.mk_upd

theorem frame_loadCtx (s : State) (t : Th) (acc : LoadAcc) (next : Nat) : Frame 78718 127606600757753886149079723311995564032 s (loadCtx s t acc next) := by
  dsimp only [loadCtx, ok]
  repeat' first
    | with_reducible assumption
    | with_reducible exact Frame.refl _ _ _
    | intro _
    | apply Eq.refl true
    | apply Eq.refl (_ : Nat)
    | with_reducible apply Frame.bump
    | with_reducible apply Frame.step (g := frame_halt ..)
    | with_reducible apply Frame.step (g := frame_haltTh ..)
    | with_reducible apply Frame.step (g := frame_parkTh ..)
    | with_reducible apply Frame.step (g := frame_roTouch ..)
    | with_reducible apply Frame.step (g := frame_touchAll ..)
    | with_reducible apply Frame.step (g := frame_loadDone ..)
    | with_reducible apply Frame.step (g := frame_goTo ..)
    | with_reducible apply Frame.step (g := frame_hostPathLost ..)
    | with_reducible apply Frame.step (g := frame_notIssued ..)
    | with_reducible apply Frame.step (g := frame_askLines ..)
    | with_reducible apply Frame.step (g := frame_addLoad ..)
    | with_reducible apply Frame.eqSnd (e := by assumption)
    | with_reducible apply Frame.foldl
    | with_reducible apply Frame.foldl2
    | with_reducible apply Frame.ite
    | with_reducible apply Frame.pairIte
    | (apply Or.inl; apply Eq.refl true)
    | (apply Or.inr; exact rfl)
    | (with_reducible_and_instances rfl)
    | split
    | with_reducible apply Frame.mk_upd

theorem frame_execLoad (at_ : At) (acc : LoadAcc) (s : State) : FrameO 95102 127648139132622164770109661011573485568 s (execLoad at_ acc s) := by
  dsimp only [execLoad, ok]
  repeat' first
    | with_reducible assumption
    | with_reducible exact Frame.refl _ _ _
    | intro _
    | apply Eq.refl true
    | apply Eq.refl (_ : Nat)
    | exact FrameO.fault
    | with_reducible apply FrameO.next
    | with_reducible apply Frame.step (g := frame_loadScratch ..)
    | with_reducible apply Frame.step (g := frame_loadCtx ..)
    | with_reducible apply FrameO.instr
    | with_reducible apply Frame.ite
    | with_reducible apply FrameO.ite
    | split

theorem frame_setLoad (s : State) (core slot : Nat) (o : OutLoad) (n : Option OutLoad) : Frame 16 0 s (setLoad s core slot o n) := by
  dsimp only [setLoad, ok]
  repeat' first
    | with_reducible assumption
    | with_reducible exact Frame.refl _ _ _
    | intro _
    | apply Eq.refl true
    | apply Eq.refl (_ : Nat)
    | with_reducible apply Frame.step (g := frame_setSlot ..)
    | with_reducible apply Frame.ite
    | (apply Or.inl; apply Eq.refl true)
    | (apply Or.inr; exact rfl)
    | (with_reducible_and_instances rfl)
    | split
    | with_reducible apply Frame.mk_upd

theorem frame_giveLine (s : State) (core slot : Nat) (o : OutLoad) (l : LineReq) (bs : List Byte) : Frame 48 0 s (giveLine s core slot o l bs) := by
  dsimp only [giveLine, ok]
  repeat' first
    | with_reducible assumption
    | with_reducible exact Frame.refl _ _ _
    | intro _
    | apply Eq.refl true
    | apply Eq.refl (_ : Nat)
    | with_reducible apply Frame.step (g := frame_loadDone ..)
    | with_reducible apply Frame.step (g := frame_setLoad ..)
    | with_reducible apply Frame.ite
    | with_reducible apply Frame.mk_upd
    | (apply Or.inl; apply Eq.refl true)
    | (apply Or.inr; exact rfl)
    | (with_reducible_and_instances rfl)
    | split

theorem frame_pumpLoad (core : Nat) (s : State) (x : Nat × OutLoad) : Frame 78718 127606600757753886149079723309784895488 s (pumpLoad core s x) := by
  dsimp only [pumpLoad, ok]
  repeat' first
    | with_reducible assumption
    | with_reducible exact Frame.refl _ _ _
    | intro _
    | apply Eq.refl true
    | apply Eq.refl (_ : Nat)
    | with_reducible apply Frame.step (g := frame_hostPathLost ..)
    | with_reducible apply Frame.step (g := frame_askLines ..)
    | with_reducible apply Frame.step (g := frame_setLoad ..)
    | with_reducible apply Frame.eqSnd (e := by assumption)
    | with_reducible apply Frame.ite
    | with_reducible apply Frame.pairIte
    | (apply Or.inl; apply Eq.refl true)
    | (apply Or.inr; exact rfl)
    | (with_reducible_and_instances rfl)
    | split
    | with_reducible apply Frame.mk_upd

theorem frame_pump (s : State) (core : Nat) : Frame 78718 127606600757753886149079723309784895488 s (pump s core) := by
  dsimp only [pump, ok]
  repeat' first
    | with_reducible assumption
    | with_reducible exact Frame.refl _ _ _
    | intro _
    | apply Eq.refl true
    | apply Eq.refl (_ : Nat)
    | with_reducible apply Frame.step (g := frame_pumpLoad ..)
    | with_reducible apply Frame.foldl
    | with_reducible apply Frame.foldl2
    | with_reducible apply Frame.ite
    | with_reducible apply Frame.pairIte
    | split

theorem frame_fillLine (s : State) (l : LineReq) (bs : List Byte) (ctx : Nat) : Frame 16418 41538374868278621029937709241597952 s (fillLine s l bs ctx) := by
  dsimp only [fillLine, ok]
  repeat' first
    | with_reducible assumption
    | with_reducible exact Frame.refl _ _ _
    | intro _
    | apply Eq.refl true
    | apply Eq.refl (_ : Nat)
    | with_reducible apply Frame.step (g := frame_glFill ..)
    | with_reducible apply Frame.step (g := frame_roFill ..)
    | with_reducible apply Frame.ite
    | split

theorem frame_lineArrived (s : State) (l : LineReq) (poison : Bool) (bs : List Byte) (ctx : Nat) : Frame 95102 127648139132622164770109661019089408000 s (lineArrived s l poison bs ctx) := by
  dsimp only [lineArrived, ok]
  repeat' first
    | with_reducible assumption
    | with_reducible exact Frame.refl _ _ _
    | intro _
    | apply Eq.refl true
    | apply Eq.refl (_ : Nat)
    | with_reducible apply Frame.step (g := frame_pump ..)
    | with_reducible apply Frame.step (g := frame_halt ..)
    | with_reducible apply Frame.step (g := frame_fillLine ..)
    | with_reducible apply Frame.step (g := frame_giveLine ..)
    | with_reducible apply Frame.foldl
    | with_reducible apply Frame.foldl2
    | with_reducible apply Frame.ite
    | with_reducible apply Frame.pairIte
    | (apply Or.inl; apply Eq.refl true)
    | (apply Or.inr; exact rfl)
    | (with_reducible_and_instances rfl)
    | split
    | with_reducible apply Frame.mk_upd

theorem frame_execLoadFill (core line : Nat) (s : State) : FrameO 95102 127648139132622164770109661019089408000 s (execLoadFill core line s) := by
  dsimp only [execLoadFill, ok]
  repeat' first
    | with_reducible assumption
    | with_reducible exact Frame.refl _ _ _
    | intro _
    | apply Eq.refl true
    | apply Eq.refl (_ : Nat)
    | exact FrameO.fault
    | with_reducible apply FrameO.next
    | with_reducible apply Frame.step (g := frame_devRead ..)
    | with_reducible apply Frame.step (g := frame_lineArrived ..)
    | with_reducible apply Frame.step (g := frame_hlUsed ..)
    | with_reducible apply Frame.step (g := frame_hlRequest ..)
    | with_reducible apply Frame.eqSnd (e := by assumption)
    | with_reducible apply Frame.ite
    | with_reducible apply FrameO.ite
    | with_reducible apply Frame.pairIte
    | split

theorem frame_peerWriteLine (s : State) (c core slot node line : Nat) (m : SMap Byte) : Frame 66048 0 s (peerWriteLine s c core slot node line m) := by
  dsimp only [peerWriteLine, ok]
  repeat' first
    | with_reducible assumption
    | with_reducible exact Frame.refl _ _ _
    | intro _
    | apply Eq.refl true
    | apply Eq.refl (_ : Nat)
    | with_reducible apply Frame.step (g := frame_peerAccess ..)
    | with_reducible apply Frame.step (g := frame_fabSend ..)
    | with_reducible apply Frame.eqSnd (e := by assumption)
    | with_reducible apply Frame.foldl
    | with_reducible apply Frame.foldl2
    | with_reducible apply Frame.ite
    | with_reducible apply Frame.pairIte
    | split

theorem frame_peerWrite (s : State) (t : Th) (addr : Nat) (bs : List Byte) : Frame 66048 0 s (peerWrite s t addr bs) := by
  dsimp only [peerWrite, ok]
  repeat' first
    | with_reducible assumption
    | with_reducible exact Frame.refl _ _ _
    | intro _
    | apply Eq.refl true
    | apply Eq.refl (_ : Nat)
    | with_reducible apply Frame.step (g := frame_peerWriteLine ..)
    | with_reducible apply Frame.ite
    | with_reducible apply Frame.pairIte
    | split

theorem frame_storeLane (s : State) (t : Th) (acc : StoreAcc) (a : LaneAcc) (p : Place) (bs : List Byte) : Frame 82470 41538374868278621029937709240549376 s (storeLane s t acc a p bs) := by
  dsimp only [storeLane, ok]
  repeat' first
    | with_reducible assumption
    | with_reducible exact Frame.refl _ _ _
    | intro _
    | apply Eq.refl true
    | apply Eq.refl (_ : Nat)
    | with_reducible apply Frame.step (g := frame_glStore ..)
    | with_reducible apply Frame.step (g := frame_glPatch ..)
    | with_reducible apply Frame.step (g := frame_hostWrite ..)
    | with_reducible apply Frame.step (g := frame_peerWrite ..)
    | with_reducible apply Frame.step (g := frame_hlWrite ..)
    | with_reducible apply Frame.ite
    | split

theorem frame_waitOwn (s : State) (t : Th) (ha : Nat) : Frame 65556 8192 s (waitOwn s t ha) := by
  dsimp only [waitOwn, ok]
  repeat' first
    | with_reducible assumption
    | with_reducible exact Frame.refl _ _ _
    | intro _
    | apply Eq.refl true
    | apply Eq.refl (_ : Nat)
    | with_reducible apply Frame.step (g := frame_hlRequest ..)
    | with_reducible apply Frame.step (g := frame_notIssued ..)
    | with_reducible apply Frame.step (g := frame_waitAt ..)
    | with_reducible apply Frame.ite
    | split

theorem frame_shutStored (s : State) (core n : Nat) (lanes : List LaneAcc) : Frame 32 0 s (shutStored s core n lanes) := by
  dsimp only [shutStored, ok]
  repeat' first
    | with_reducible assumption
    | with_reducible exact Frame.refl _ _ _
    | intro _
    | apply Eq.refl true
    | apply Eq.refl (_ : Nat)
    | with_reducible apply Frame.step (g := frame_shutReqs ..)
    | with_reducible apply Frame.ite
    | split

theorem frame_storeTouch (s : State) (t : Th) (acc : StoreAcc) : Frame 32 0 s (storeTouch s t acc) := by
  dsimp only [storeTouch, ok]
  repeat' first
    | with_reducible assumption
    | with_reducible exact Frame.refl _ _ _
    | intro _
    | apply Eq.refl true
    | apply Eq.refl (_ : Nat)
    | with_reducible apply Frame.step (g := frame_touchAll ..)
    | with_reducible apply Frame.ite
    | split

theorem frame_storeCtx (s : State) (t : Th) (acc : StoreAcc) (next : Nat) : Frame 95102 127648139132622164770109661014793400320 s (storeCtx s t acc next) := by
  dsimp only [storeCtx, ok]
  repeat' first
    | with_reducible assumption
    | with_reducible exact Frame.refl _ _ _
    | intro _
    | apply Eq.refl true
    | apply Eq.refl (_ : Nat)
    | with_reducible apply Frame.step (g := frame_halt ..)
    | with_reducible apply Frame.step (g := frame_haltTh ..)
    | with_reducible apply Frame.step (g := frame_parkTh ..)
    | with_reducible apply Frame.step (g := frame_notIssued ..)
    | with_reducible apply Frame.step (g := frame_hostPathLost ..)
    | with_reducible apply Frame.step (g := frame_waitOwn ..)
    | with_reducible apply Frame.step (g := frame_releaseWide ..)
    | with_reducible apply Frame.step (g := frame_shutStored ..)
    | with_reducible apply Frame.step (g := frame_storeTouch ..)
    | with_reducible apply Frame.step (g := frame_storeLane ..)
    | with_reducible apply Frame.step (g := frame_goTo ..)
    | with_reducible apply Frame.foldl
    | with_reducible apply Frame.foldl2
    | with_reducible apply Frame.ite
    | with_reducible apply Frame.pairIte
    | split

theorem frame_storeScratch (s : State) (t : Th) (acc : StoreAcc) (next : Nat) : Frame 95102 127648098567802957466768813120290828288 s (storeScratch s t acc next) := by
  dsimp only [storeScratch, ok]
  repeat' first
    | with_reducible assumption
    | with_reducible exact Frame.refl _ _ _
    | intro _
    | apply Eq.refl true
    | apply Eq.refl (_ : Nat)
    | with_reducible apply Frame.step (g := frame_haltTh ..)
    | with_reducible apply Frame.step (g := frame_notIssued ..)
    | with_reducible apply Frame.step (g := frame_storeTouch ..)
    | with_reducible apply Frame.step (g := frame_releaseWide ..)
    | with_reducible apply Frame.step (g := frame_goTo ..)
    | with_reducible apply Frame.step (g := frame_sramWrite ..)
    | with_reducible apply Frame.foldl
    | with_reducible apply Frame.foldl2
    | with_reducible apply Frame.ite
    | with_reducible apply Frame.pairIte
    | split

theorem frame_execStore (at_ : At) (acc : StoreAcc) (s : State) : FrameO 95102 127648139132622164770109661014794448896 s (execStore at_ acc s) := by
  dsimp only [execStore, ok]
  repeat' first
    | with_reducible assumption
    | with_reducible exact Frame.refl _ _ _
    | intro _
    | apply Eq.refl true
    | apply Eq.refl (_ : Nat)
    | exact FrameO.fault
    | with_reducible apply FrameO.next
    | with_reducible apply Frame.step (g := frame_storeScratch ..)
    | with_reducible apply Frame.step (g := frame_storeCtx ..)
    | with_reducible apply FrameO.instr
    | with_reducible apply Frame.ite
    | with_reducible apply FrameO.ite
    | split

theorem frame_atomBegin (s : State) (t : Th) (acc : AtomAcc) : Frame 16418 41538374868278621029937709240549376 s (atomBegin s t acc) := by
  dsimp only [atomBegin, ok]
  repeat' first
    | with_reducible assumption
    | with_reducible exact Frame.refl _ _ _
    | intro _
    | apply Eq.refl true
    | apply Eq.refl (_ : Nat)
    | with_reducible apply Frame.step (g := frame_touchAll ..)
    | with_reducible apply Frame.step (g := frame_releaseWide ..)
    | with_reducible apply Frame.ite
    | split

variable {ps rs : Nat} {s0 s u : State}

theorem Frame.atomLanes {t : Th} {acc : AtomAcc} {rd : State → Nat → List Byte × State} {wr : State → Nat → List Byte → State}
    {ls : List AtomLane} (h : Frame ps rs s0 s) (hp : 32 ||| ps = ps) (hrd : ∀ u a, Frame ps rs s0 u → Frame ps rs s0 (rd u a).2)
    (hwr : ∀ u a bs, Frame ps rs s0 u → Frame ps rs s0 (wr u a bs)) : Frame ps rs s0 (atomLanes t acc rd wr s ls) := by
  induction ls generalizing s with
  | nil => exact h
  | cons x ls ih =>
    dsimp only [Machine.atomLanes]
    refine ih (Frame.step (g := (frame_putVal ..).mono rfl rfl) (hwr _ _ _ (hrd _ _ h)) hp (Nat.zero_or _))

theorem frame_atomEnd (s : State) (t : Th) (acc : AtomAcc) (next : Nat) : Frame 48 0 s (atomEnd s t acc next) := by
  dsimp only [atomEnd, ok]
  repeat' first
    | with_reducible assumption
    | with_reducible exact Frame.refl _ _ _
    | intro _
    | apply Eq.refl true
    | apply Eq.refl (_ : Nat)
    | with_reducible apply Frame.step (g := frame_goTo ..)
    | with_reducible apply Frame.step (g := frame_acquireWide ..)
    | with_reducible apply Frame.ite
    | split

theorem frame_atomScratch (s : State) (t : Th) (acc : AtomAcc) (next : Nat) : Frame 95102 127648098567802957466768813120290828288 s (atomScratch s t acc next) := by
  dsimp only [atomScratch, ok]
  repeat' first
    | with_reducible assumption
    | with_reducible exact Frame.refl _ _ _
    | intro _
    | apply Eq.refl true
    | apply Eq.refl (_ : Nat)
    | with_reducible apply Frame.step (g := frame_haltTh ..)
    | with_reducible apply Frame.step (g := frame_notIssued ..)
    | with_reducible apply Frame.step (g := frame_sramWrite ..)
    | with_reducible apply Frame.step (g := frame_atomEnd ..)
    | with_reducible apply Frame.step (g := frame_atomBegin ..)
    | with_reducible apply Frame.atomLanes
    | with_reducible apply Frame.ite
    | split

theorem frame_atomCtx (s : State) (t : Th) (acc : AtomAcc) (next : Nat) : Frame 95102 127648139132622164770109661014793400320 s (atomCtx s t acc next) := by
  dsimp only [atomCtx, ok]
  repeat' first
    | with_reducible assumption
    | with_reducible exact Frame.refl _ _ _
    | intro _
    | apply Eq.refl true
    | apply Eq.refl (_ : Nat)
    | with_reducible apply Frame.step (g := frame_haltTh ..)
    | with_reducible apply Frame.step (g := frame_halt ..)
    | with_reducible apply Frame.step (g := frame_parkTh ..)
    | with_reducible apply Frame.step (g := frame_notIssued ..)
    | with_reducible apply Frame.step (g := frame_waitOwn ..)
    | with_reducible apply Frame.step (g := frame_hostPathLost ..)
    | with_reducible apply Frame.step (g := frame_glExpel ..)
    | with_reducible apply Frame.step (g := frame_atomBegin ..)
    | with_reducible apply Frame.step (g := frame_devRead ..)
    | with_reducible apply Frame.step (g := frame_hlWrite ..)
    | with_reducible apply Frame.step (g := frame_devWrite ..)
    | with_reducible apply Frame.step (g := frame_atomEnd ..)
    | with_reducible apply Frame.eqSnd (e := by assumption)
    | with_reducible apply Frame.atomLanes
    | with_reducible apply Frame.foldl
    | with_reducible apply Frame.foldl2
    | with_reducible apply Frame.ite
    | with_reducible apply Frame.pairIte
    | (apply Or.inl; apply Eq.refl true)
    | (apply Or.inr; exact rfl)
    | (with_reducible_and_instances rfl)
    | split
    | with_reducible apply Frame.mk_upd

theorem frame_execAtomic (at_ : At) (acc : AtomAcc) (s : State) : FrameO 95102 127648139132622164770109661014794448896 s (execAtomic at_ acc s) := by
  dsimp only [execAtomic, ok]
  repeat' first
    | with_reducible assumption
    | with_reducible exact Frame.refl _ _ _
    | intro _
    | apply Eq.refl true
    | apply Eq.refl (_ : Nat)
    | exact FrameO.fault
    | with_reducible apply FrameO.next
    | with_reducible apply Frame.step (g := frame_atomScratch ..)
    | with_reducible apply Frame.step (g := frame_atomCtx ..)
    | with_reducible apply FrameO.instr
    | with_reducible apply Frame.ite
    | with_reducible apply FrameO.ite
    | split

theorem frame_fenceAcq (s : State) (t : Th) (scope : Scope) : Frame 32 0 s (fenceAcq s t scope) := by
  dsimp only [fenceAcq, ok]
  repeat' first
    | with_reducible assumption
    | with_reducible exact Frame.refl _ _ _
    | intro _
    | apply Eq.refl true
    | apply Eq.refl (_ : Nat)
    | with_reducible apply Frame.step (g := frame_acquireWide ..)
    | with_reducible apply Frame.ite
    | split

theorem frame_execFenceRelease (at_ : At) (scope : Scope) (s : State) : FrameO 95102 127648098567802957466768813120291876864 s (execFenceRelease at_ scope s) := by
  dsimp only [execFenceRelease, ok, fenceRel]
  repeat' first
    | with_reducible assumption
    | with_reducible exact Frame.refl _ _ _
    | intro _
    | apply Eq.refl true
    | apply Eq.refl (_ : Nat)
    | exact FrameO.fault
    | with_reducible apply FrameO.next
    | with_reducible apply Frame.step (g := frame_notIssued ..)
    | with_reducible apply Frame.step (g := frame_releaseWide ..)
    | with_reducible apply Frame.step (g := frame_goTo ..)
    | with_reducible apply FrameO.instr
    | with_reducible apply Frame.ite
    | with_reducible apply FrameO.ite
    | split

theorem frame_execFenceAcquire (at_ : At) (scope : Scope) (s : State) : FrameO 95102 127648098567802957466768813110628200448 s (execFenceAcquire at_ scope s) := by
  dsimp only [execFenceAcquire, ok]
  repeat' first
    | with_reducible assumption
    | with_reducible exact Frame.refl _ _ _
    | intro _
    | apply Eq.refl true
    | apply Eq.refl (_ : Nat)
    | exact FrameO.fault
    | with_reducible apply FrameO.next
    | with_reducible apply Frame.step (g := frame_goTo ..)
    | with_reducible apply Frame.step (g := frame_fenceAcq ..)
    | with_reducible apply FrameO.instr
    | with_reducible apply Frame.ite
    | with_reducible apply FrameO.ite
    | split

theorem frame_execFenceAcqRel (at_ : At) (scope : Scope) (s : State) : FrameO 95102 127648098567802957466768813120291876864 s (execFenceAcqRel at_ scope s) := by
  dsimp only [execFenceAcqRel, ok, fenceRel]
  repeat' first
    | with_reducible assumption
    | with_reducible exact Frame.refl _ _ _
    | intro _
    | apply Eq.refl true
    | apply Eq.refl (_ : Nat)
    | exact FrameO.fault
    | with_reducible apply FrameO.next
    | with_reducible apply Frame.step (g := frame_notIssued ..)
    | with_reducible apply Frame.step (g := frame_releaseWide ..)
    | with_reducible apply Frame.step (g := frame_goTo ..)
    | with_reducible apply Frame.step (g := frame_fenceAcq ..)
    | with_reducible apply FrameO.instr
    | with_reducible apply Frame.ite
    | with_reducible apply FrameO.ite
    | split

theorem frame_execFenceSc (at_ : At) (scope : Scope) (s : State) : FrameO 95102 127648098567802957466768813120291876864 s (execFenceSc at_ scope s) := by
  dsimp only [execFenceSc, ok, fenceRel]
  repeat' first
    | with_reducible assumption
    | with_reducible exact Frame.refl _ _ _
    | intro _
    | apply Eq.refl true
    | apply Eq.refl (_ : Nat)
    | exact FrameO.fault
    | with_reducible apply FrameO.next
    | with_reducible apply Frame.step (g := frame_notIssued ..)
    | with_reducible apply Frame.step (g := frame_releaseWide ..)
    | with_reducible apply Frame.step (g := frame_goTo ..)
    | with_reducible apply Frame.step (g := frame_fenceAcq ..)
    | with_reducible apply FrameO.instr
    | with_reducible apply Frame.ite
    | with_reducible apply FrameO.ite
    | split

theorem frame_execGrottoWb (at_ : At) (addr len : Nat) (s : State) : FrameO 95102 127648098567802957466768813120291876864 s (execGrottoWb at_ addr len s) := by
  dsimp only [execGrottoWb, ok, maintain]
  repeat' first
    | with_reducible assumption
    | with_reducible exact Frame.refl _ _ _
    | intro _
    | apply Eq.refl true
    | apply Eq.refl (_ : Nat)
    | exact FrameO.fault
    | with_reducible apply FrameO.next
    | with_reducible apply Frame.step (g := frame_haltTh ..)
    | with_reducible apply Frame.step (g := frame_goTo ..)
    | with_reducible apply Frame.step (g := frame_glFlushRange ..)
    | with_reducible apply FrameO.instr
    | with_reducible apply Frame.ite
    | with_reducible apply FrameO.ite
    | split

theorem frame_execGrottoWbinv (at_ : At) (addr len : Nat) (s : State) : FrameO 95102 127648098567802957466768813120291876864 s (execGrottoWbinv at_ addr len s) := by
  dsimp only [execGrottoWbinv, ok, maintain]
  repeat' first
    | with_reducible assumption
    | with_reducible exact Frame.refl _ _ _
    | intro _
    | apply Eq.refl true
    | apply Eq.refl (_ : Nat)
    | exact FrameO.fault
    | with_reducible apply FrameO.next
    | with_reducible apply Frame.step (g := frame_haltTh ..)
    | with_reducible apply Frame.step (g := frame_goTo ..)
    | with_reducible apply Frame.step (g := frame_glInvClean ..)
    | with_reducible apply Frame.step (g := frame_glFlushRange ..)
    | with_reducible apply FrameO.instr
    | with_reducible apply Frame.ite
    | with_reducible apply FrameO.ite
    | split

theorem frame_execGrottoInvClean (at_ : At) (addr len : Nat) (s : State) : FrameO 95102 127648098567802957466768813111701942272 s (execGrottoInvClean at_ addr len s) := by
  dsimp only [execGrottoInvClean, ok, maintain]
  repeat' first
    | with_reducible assumption
    | with_reducible exact Frame.refl _ _ _
    | intro _
    | apply Eq.refl true
    | apply Eq.refl (_ : Nat)
    | exact FrameO.fault
    | with_reducible apply FrameO.next
    | with_reducible apply Frame.step (g := frame_haltTh ..)
    | with_reducible apply Frame.step (g := frame_goTo ..)
    | with_reducible apply Frame.step (g := frame_glInvClean ..)
    | with_reducible apply FrameO.instr
    | with_reducible apply Frame.ite
    | with_reducible apply FrameO.ite
    | split

theorem frame_roFresh (s : State) (core kind : Nat) : Frame 32 0 s (roFresh s core kind) := by
  dsimp only [roFresh, ok]
  repeat' first
    | with_reducible assumption
    | with_reducible exact Frame.refl _ _ _
    | intro _
    | apply Eq.refl true
    | apply Eq.refl (_ : Nat)
    | with_reducible apply Frame.step (g := frame_shutReqs ..)
    | with_reducible apply Frame.step (g := frame_roInvalidate ..)
    | with_reducible apply Frame.ite
    | split

theorem frame_execConstInvalidate (at_ : At) (s : State) : FrameO 95102 127648098567802957466768813110628200448 s (execConstInvalidate at_ s) := by
  dsimp only [execConstInvalidate, ok]
  repeat' first
    | with_reducible assumption
    | with_reducible exact Frame.refl _ _ _
    | intro _
    | apply Eq.refl true
    | apply Eq.refl (_ : Nat)
    | exact FrameO.fault
    | with_reducible apply FrameO.next
    | with_reducible apply Frame.step (g := frame_roFresh ..)
    | with_reducible apply FrameO.instrNext
    | with_reducible apply Frame.ite
    | with_reducible apply FrameO.ite
    | split

theorem frame_execDescInvalidate (at_ : At) (s : State) : FrameO 95102 127648098567802957466768813110628200448 s (execDescInvalidate at_ s) := by
  dsimp only [execDescInvalidate, ok]
  repeat' first
    | with_reducible assumption
    | with_reducible exact Frame.refl _ _ _
    | intro _
    | apply Eq.refl true
    | apply Eq.refl (_ : Nat)
    | exact FrameO.fault
    | with_reducible apply FrameO.next
    | with_reducible apply Frame.step (g := frame_roFresh ..)
    | with_reducible apply FrameO.instrNext
    | with_reducible apply Frame.ite
    | with_reducible apply FrameO.ite
    | split

end Sys2Proof.Laws
end

