-- ==== Sys2Proof/Laws/FrameFabric.lean ====
section
/-! SUPPORT. What each operation of Machine/Fabric.lean may change, as a frame (Laws/Frame.lean): the parts and registers by their bits. -/

namespace Sys2Proof.Laws

open Sys2Proof.Machine

theorem frame_regionApply (s : State) (r v : Nat) : Frame 512 1208925819614629174706176 s (regionApply s r v) := by
  dsimp only [regionApply, ok]
  repeat' first
    | with_reducible assumption
    | with_reducible exact Frame.refl _ _ _
    | intro _
    | apply Eq.refl true
    | apply Eq.refl (_ : Nat)
    | with_reducible apply Frame.setWord
    | with_reducible apply Frame.ite
    | with_reducible apply Frame.mk_upd
    | (apply Or.inl; apply Eq.refl true)
    | (apply Or.inr; exact rfl)
    | (with_reducible_and_instances rfl)
    | split

theorem frame_execFabRegionApply (r word3 : Nat) (s : State) : FrameO 513 1208925819614629174706176 s (execFabRegionApply r word3 s) := by
  dsimp only [execFabRegionApply, ok]
  repeat' first
    | with_reducible assumption
    | with_reducible exact Frame.refl _ _ _
    | intro _
    | apply Eq.refl true
    | apply Eq.refl (_ : Nat)
    | exact FrameO.fault
    | with_reducible apply FrameO.next
    | with_reducible apply Frame.step (g := frame_regionApply ..)
    | with_reducible apply Frame.step (g := frame_wideWrite ..)
    | with_reducible apply FrameO.bar0
    | with_reducible apply Frame.ite
    | with_reducible apply FrameO.ite
    | split

theorem frame_refusePeer (s : State) (port : Nat) (p : Packet) (ty : Nat) : Frame 78340 127606560083995344874462971787963531264 s (refusePeer s port p ty) := by
  dsimp only [refusePeer, ok]
  repeat' first
    | with_reducible assumption
    | with_reducible exact Frame.refl _ _ _
    | intro _
    | apply Eq.refl true
    | apply Eq.refl (_ : Nat)
    | with_reducible apply Frame.step (g := frame_fabReply ..)
    | with_reducible apply Frame.step (g := frame_post ..)
    | with_reducible apply Frame.ite
    | split

theorem frame_readIn (s : State) (port : Nat) (p : Packet) : Frame 94726 127648098458863623495492909487540404224 s (readIn s port p) := by
  dsimp only [readIn, ok]
  repeat' first
    | with_reducible assumption
    | with_reducible exact Frame.refl _ _ _
    | intro _
    | apply Eq.refl true
    | apply Eq.refl (_ : Nat)
    | with_reducible apply Frame.step (g := frame_fabReply ..)
    | with_reducible apply Frame.step (g := frame_refusePeer ..)
    | with_reducible apply Frame.step (g := frame_limitRefused ..)
    | with_reducible apply Frame.step (g := frame_sectorRead ..)
    | with_reducible apply Frame.eqSnd (e := by assumption)
    | with_reducible apply Frame.ite
    | with_reducible apply Frame.pairIte
    | split

theorem frame_execReadReceive (port : Nat) (p : Packet) (s : State) : FrameO 94726 127648098458863623495492909487540404224 s (execReadReceive port p s) := by
  dsimp only [execReadReceive, ok]
  repeat' first
    | with_reducible assumption
    | with_reducible exact Frame.refl _ _ _
    | intro _
    | apply Eq.refl true
    | apply Eq.refl (_ : Nat)
    | exact FrameO.fault
    | with_reducible apply FrameO.next
    | with_reducible apply Frame.step (g := frame_readIn ..)
    | with_reducible apply Frame.ite
    | with_reducible apply FrameO.ite
    | split

theorem frame_writeIn (s : State) (port : Nat) (p : Packet) (line : Line) (mask : Nat) : Frame 94726 127648098458863623495492909487540404224 s (writeIn s port p line mask) := by
  dsimp only [writeIn, ok]
  repeat' first
    | with_reducible assumption
    | with_reducible exact Frame.refl _ _ _
    | intro _
    | apply Eq.refl true
    | apply Eq.refl (_ : Nat)
    | with_reducible apply Frame.step (g := frame_fabReply ..)
    | with_reducible apply Frame.step (g := frame_refusePeer ..)
    | with_reducible apply Frame.step (g := frame_limitRefused ..)
    | with_reducible apply Frame.step (g := frame_sectorMasked ..)
    | with_reducible apply Frame.ite
    | with_reducible apply Frame.pairIte
    | split

theorem frame_execWriteReceive (port : Nat) (p : Packet) (line : Line) (s : State) : FrameO 94726 127648098458863623495492909487540404224 s (execWriteReceive port p line s) := by
  dsimp only [execWriteReceive, ok]
  repeat' first
    | with_reducible assumption
    | with_reducible exact Frame.refl _ _ _
    | intro _
    | apply Eq.refl true
    | apply Eq.refl (_ : Nat)
    | exact FrameO.fault
    | with_reducible apply FrameO.next
    | with_reducible apply Frame.step (g := frame_writeIn ..)
    | with_reducible apply Frame.ite
    | with_reducible apply FrameO.ite
    | split

theorem frame_execWriteMaskedReceive (port : Nat) (p : Packet) (line : Line) (s : State) : FrameO 94726 127648098458863623495492909487540404224 s (execWriteMaskedReceive port p line s) := by
  dsimp only [execWriteMaskedReceive, ok]
  repeat' first
    | with_reducible assumption
    | with_reducible exact Frame.refl _ _ _
    | intro _
    | apply Eq.refl true
    | apply Eq.refl (_ : Nat)
    | exact FrameO.fault
    | with_reducible apply FrameO.next
    | with_reducible apply Frame.step (g := frame_writeIn ..)
    | with_reducible apply Frame.ite
    | with_reducible apply FrameO.ite
    | split

theorem frame_dropReq (s : State) (x : PeerReq) : Frame 512 0 s (dropReq s x) := by
  dsimp only [dropReq, ok]
  repeat' first
    | with_reducible assumption
    | with_reducible exact Frame.refl _ _ _
    | intro _
    | apply Eq.refl true
    | apply Eq.refl (_ : Nat)
    | with_reducible apply Frame.ite
    | with_reducible apply Frame.mk_upd
    | (apply Or.inl; apply Eq.refl true)
    | (apply Or.inr; exact rfl)
    | (with_reducible_and_instances rfl)
    | split

theorem frame_peerLine (s : State) (x : PeerReq) (poison : Bool) (bs : List Byte) : Frame 95102 127648139132622164770109661019089408000 s (peerLine s x poison bs) := by
  dsimp only [peerLine, ok]
  repeat' first
    | with_reducible assumption
    | with_reducible exact Frame.refl _ _ _
    | intro _
    | apply Eq.refl true
    | apply Eq.refl (_ : Nat)
    | with_reducible apply Frame.step (g := frame_dropReq ..)
    | with_reducible apply Frame.step (g := frame_lineArrived ..)
    | with_reducible apply Frame.ite
    | split

theorem frame_readRespIn (s : State) (p : Packet) (line : Line) : Frame 95102 127648139132622164770109661019089408000 s (readRespIn s p line) := by
  dsimp only [readRespIn, ok]
  repeat' first
    | with_reducible assumption
    | with_reducible exact Frame.refl _ _ _
    | intro _
    | apply Eq.refl true
    | apply Eq.refl (_ : Nat)
    | with_reducible apply Frame.step (g := frame_peerLine ..)
    | with_reducible apply Frame.ite
    | with_reducible apply Frame.pairIte
    | split

theorem frame_execReadRespReceive (p : Packet) (line : Line) (s : State) : FrameO 95102 127648139132622164770109661019089408000 s (execReadRespReceive p line s) := by
  dsimp only [execReadRespReceive, ok]
  repeat' first
    | with_reducible assumption
    | with_reducible exact Frame.refl _ _ _
    | intro _
    | apply Eq.refl true
    | apply Eq.refl (_ : Nat)
    | exact FrameO.fault
    | with_reducible apply FrameO.next
    | with_reducible apply Frame.step (g := frame_readRespIn ..)
    | with_reducible apply Frame.ite
    | with_reducible apply FrameO.ite
    | split

theorem frame_writeAckIn (s : State) (p : Packet) : Frame 95102 127648098567802957466768813120227905536 s (writeAckIn s p) := by
  dsimp only [writeAckIn, ok]
  repeat' first
    | with_reducible assumption
    | with_reducible exact Frame.refl _ _ _
    | intro _
    | apply Eq.refl true
    | apply Eq.refl (_ : Nat)
    | with_reducible apply Frame.step (g := frame_launchCheck ..)
    | with_reducible apply Frame.step (g := frame_dropReq ..)
    | with_reducible apply Frame.step (g := frame_peerWriteLost ..)
    | with_reducible apply Frame.ite
    | split

theorem frame_execWriteAckReceive (p : Packet) (s : State) : FrameO 95102 127648098567802957466768813120227905536 s (execWriteAckReceive p s) := by
  dsimp only [execWriteAckReceive, ok]
  repeat' first
    | with_reducible assumption
    | with_reducible exact Frame.refl _ _ _
    | intro _
    | apply Eq.refl true
    | apply Eq.refl (_ : Nat)
    | exact FrameO.fault
    | with_reducible apply FrameO.next
    | with_reducible apply Frame.step (g := frame_writeAckIn ..)
    | with_reducible apply Frame.ite
    | with_reducible apply FrameO.ite
    | split

theorem frame_execReadTimeout (tag : Nat) (s : State) : FrameO 95102 127648139132622164770109661019089408000 s (execReadTimeout tag s) := by
  dsimp only [execReadTimeout, ok]
  repeat' first
    | with_reducible assumption
    | with_reducible exact Frame.refl _ _ _
    | intro _
    | apply Eq.refl true
    | apply Eq.refl (_ : Nat)
    | exact FrameO.fault
    | with_reducible apply FrameO.next
    | with_reducible apply Frame.step (g := frame_peerLine ..)
    | with_reducible apply Frame.ite
    | with_reducible apply FrameO.ite
    | split

theorem frame_execWriteTimeout (tag : Nat) (s : State) : FrameO 78718 127606560192934678845738875410987356160 s (execWriteTimeout tag s) := by
  dsimp only [execWriteTimeout, ok]
  repeat' first
    | with_reducible assumption
    | with_reducible exact Frame.refl _ _ _
    | intro _
    | apply Eq.refl true
    | apply Eq.refl (_ : Nat)
    | exact FrameO.fault
    | with_reducible apply FrameO.next
    | with_reducible apply Frame.step (g := frame_peerWriteLost ..)
    | with_reducible apply Frame.ite
    | with_reducible apply FrameO.ite
    | split

theorem frame_packetIn (s : State) (port : Nat) (p : Packet) (ls : List Line) : Frame 95230 127648139132622167158963018564476342272 s (packetIn s port p ls) := by
  dsimp only [packetIn, ok]
  repeat' first
    | with_reducible assumption
    | with_reducible exact Frame.refl _ _ _
    | intro _
    | apply Eq.refl true
    | apply Eq.refl (_ : Nat)
    | with_reducible apply Frame.step (g := frame_beaconIn ..)
    | with_reducible apply Frame.step (g := frame_readIn ..)
    | with_reducible apply Frame.step (g := frame_readRespIn ..)
    | with_reducible apply Frame.step (g := frame_writeIn ..)
    | with_reducible apply Frame.step (g := frame_writeAckIn ..)
    | with_reducible apply Frame.step (g := frame_sailRunIn ..)
    | with_reducible apply Frame.step (g := frame_landAckIn ..)
    | with_reducible apply Frame.step (g := frame_settleIn ..)
    | with_reducible apply Frame.step (g := frame_cutIn ..)
    | with_reducible apply Frame.step (g := frame_turnBackIn ..)
    | with_reducible apply Frame.step (g := frame_missedIn ..)
    | with_reducible apply Frame.step (g := frame_windowIn ..)
    | with_reducible apply Frame.step (g := frame_nodeResetIn ..)
    | with_reducible apply Frame.ite
    | split

theorem frame_nakSlot (s : State) (port : Nat) : Frame 66048 77371252455336267181195264 s (nakSlot s port) := by
  dsimp only [nakSlot, ok]
  repeat' first
    | with_reducible assumption
    | with_reducible exact Frame.refl _ _ _
    | intro _
    | apply Eq.refl true
    | apply Eq.refl (_ : Nat)
    | with_reducible apply Frame.bumpSat
    | with_reducible apply Frame.step (g := frame_linkSend ..)
    | with_reducible apply Frame.ite
    | split

theorem frame_applyLanes (s : State) (p set : Nat) : Frame 78718 127606560192946768103935021702734417920 s (applyLanes s p set) := by
  dsimp only [applyLanes, ok]
  repeat' first
    | with_reducible assumption
    | with_reducible exact Frame.refl _ _ _
    | intro _
    | apply Eq.refl true
    | apply Eq.refl (_ : Nat)
    | with_reducible apply Frame.step (g := frame_portDown ..)
    | with_reducible apply Frame.step (g := frame_setLanes ..)
    | with_reducible apply Frame.ite
    | split

theorem frame_lanesDue (s : State) (p : Nat) : Frame 78718 127606560192946768103935021702734417920 s (lanesDue s p) := by
  dsimp only [lanesDue, ok]
  repeat' first
    | with_reducible assumption
    | with_reducible exact Frame.refl _ _ _
    | intro _
    | apply Eq.refl true
    | apply Eq.refl (_ : Nat)
    | with_reducible apply Frame.step (g := frame_applyLanes ..)
    | with_reducible apply Frame.step (g := frame_setPort ..)
    | with_reducible apply Frame.foldl
    | with_reducible apply Frame.foldl2
    | with_reducible apply Frame.ite
    | with_reducible apply Frame.pairIte
    | with_reducible apply Frame.mk_upd
    | (apply Or.inl; apply Eq.refl true)
    | (apply Or.inr; exact rfl)
    | (with_reducible_and_instances rfl)
    | split

theorem frame_execHeaderSlotReceive (port : Nat) (pos : List (BitVec 128)) (data : List Line) (okSlot : Bool) (s : State) : FrameO 95230 127648139132711627669614501123404599296 s (execHeaderSlotReceive port pos data okSlot s) := by
  dsimp only [execHeaderSlotReceive, ok]
  repeat' first
    | with_reducible assumption
    | with_reducible exact Frame.refl _ _ _
    | intro _
    | apply Eq.refl true
    | apply Eq.refl (_ : Nat)
    | exact FrameO.fault
    | with_reducible apply FrameO.next
    | with_reducible apply Frame.step (g := frame_nakSlot ..)
    | with_reducible apply Frame.step (g := frame_setPort ..)
    | with_reducible apply Frame.step (g := frame_packetIn ..)
    | with_reducible apply Frame.step (g := frame_linkSend ..)
    | with_reducible apply Frame.step (g := frame_lanesDue ..)
    | with_reducible apply Frame.foldl
    | with_reducible apply Frame.foldl2
    | with_reducible apply Frame.ite
    | with_reducible apply FrameO.ite
    | with_reducible apply Frame.pairIte
    | (apply Or.inl; apply Eq.refl true)
    | (apply Or.inr; exact rfl)
    | (with_reducible_and_instances rfl)
    | split
    | with_reducible apply Frame.mk_upd

theorem frame_loseRuns (s : State) (p : Nat) : Frame 78716 127606560083995955240330882689808728064 s (loseRuns s p) := by
  dsimp only [loseRuns, ok]
  repeat' first
    | with_reducible assumption
    | with_reducible exact Frame.refl _ _ _
    | intro _
    | apply Eq.refl true
    | apply Eq.refl (_ : Nat)
    | with_reducible apply Frame.step (g := frame_runLost ..)
    | with_reducible apply Frame.step (g := frame_setPort ..)
    | with_reducible apply Frame.foldl
    | with_reducible apply Frame.foldl2
    | with_reducible apply Frame.ite
    | with_reducible apply Frame.mk_upd
    | (apply Or.inl; apply Eq.refl true)
    | (apply Or.inr; exact rfl)
    | (with_reducible_and_instances rfl)
    | split

theorem frame_beginRetrain (s : State) (p : Nat) (asked : Bool) : Frame 78718 127606560192946768103935021702734417920 s (beginRetrain s p asked) := by
  dsimp only [beginRetrain, ok]
  repeat' first
    | with_reducible assumption
    | with_reducible exact Frame.refl _ _ _
    | intro _
    | apply Eq.refl true
    | apply Eq.refl (_ : Nat)
    | with_reducible apply Frame.put
    | with_reducible apply Frame.bumpSat
    | with_reducible apply Frame.step (g := frame_setPortState ..)
    | with_reducible apply Frame.step (g := frame_setPort ..)
    | with_reducible apply Frame.step (g := frame_resumeHeld ..)
    | with_reducible apply Frame.step (g := frame_loseRuns ..)
    | with_reducible apply Frame.step (g := frame_linkSend ..)
    | with_reducible apply Frame.ite
    | with_reducible apply Frame.mk_upd
    | (apply Or.inl; apply Eq.refl true)
    | (apply Or.inr; exact rfl)
    | (with_reducible_and_instances rfl)
    | split

theorem frame_resend (s : State) (p : Nat) (slots : List SentSlot) : Frame 66048 77371252455336267181195264 s (resend s p slots) := by
  dsimp only [resend, ok]
  repeat' first
    | with_reducible assumption
    | with_reducible exact Frame.refl _ _ _
    | intro _
    | apply Eq.refl true
    | apply Eq.refl (_ : Nat)
    | with_reducible apply Frame.bumpSat
    | with_reducible apply Frame.step (g := frame_emitPkt ..)
    | with_reducible apply Frame.foldl
    | with_reducible apply Frame.foldl2
    | with_reducible apply Frame.ite
    | split

theorem frame_nakIn (s : State) (p seq : Nat) : Frame 78718 127606560193024139356390357969915613184 s (nakIn s p seq) := by
  dsimp only [nakIn, ok]
  repeat' first
    | with_reducible assumption
    | with_reducible exact Frame.refl _ _ _
    | intro _
    | apply Eq.refl true
    | apply Eq.refl (_ : Nat)
    | with_reducible apply Frame.step (g := frame_setPort ..)
    | with_reducible apply Frame.step (g := frame_beginRetrain ..)
    | with_reducible apply Frame.step (g := frame_resend ..)
    | with_reducible apply Frame.ite
    | with_reducible apply Frame.mk_upd
    | (apply Or.inl; apply Eq.refl true)
    | (apply Or.inr; exact rfl)
    | (with_reducible_and_instances rfl)
    | split

theorem frame_drainEnd (s : State) (p : Nat) : Frame 78718 127606560192946768103935021702734417920 s (drainEnd s p) := by
  dsimp only [drainEnd, ok]
  repeat' first
    | with_reducible assumption
    | with_reducible exact Frame.refl _ _ _
    | intro _
    | apply Eq.refl true
    | apply Eq.refl (_ : Nat)
    | with_reducible apply Frame.step (g := frame_resumeHeld ..)
    | with_reducible apply Frame.step (g := frame_setLanes ..)
    | with_reducible apply Frame.step (g := frame_setPortState ..)
    | with_reducible apply Frame.step (g := frame_restLink ..)
    | with_reducible apply Frame.ite
    | split

theorem frame_ackIn (s : State) (p seq : Nat) : Frame 78718 127606560192946768103935021702734417920 s (ackIn s p seq) := by
  dsimp only [ackIn, ok]
  repeat' first
    | with_reducible assumption
    | with_reducible exact Frame.refl _ _ _
    | intro _
    | apply Eq.refl true
    | apply Eq.refl (_ : Nat)
    | with_reducible apply Frame.step (g := frame_drainEnd ..)
    | with_reducible apply Frame.step (g := frame_resumeHeld ..)
    | with_reducible apply Frame.step (g := frame_pumpPort ..)
    | with_reducible apply Frame.step (g := frame_setPort ..)
    | with_reducible apply Frame.ite
    | with_reducible apply Frame.mk_upd
    | (apply Or.inl; apply Eq.refl true)
    | (apply Or.inr; exact rfl)
    | (with_reducible_and_instances rfl)
    | split

theorem frame_creditIn (s : State) (p n : Nat) : Frame 66048 0 s (creditIn s p n) := by
  dsimp only [creditIn, ok]
  repeat' first
    | with_reducible assumption
    | with_reducible exact Frame.refl _ _ _
    | intro _
    | apply Eq.refl true
    | apply Eq.refl (_ : Nat)
    | with_reducible apply Frame.step (g := frame_pumpPort ..)
    | with_reducible apply Frame.step (g := frame_setPort ..)
    | with_reducible apply Frame.ite
    | with_reducible apply Frame.mk_upd
    | (apply Or.inl; apply Eq.refl true)
    | (apply Or.inr; exact rfl)
    | (with_reducible_and_instances rfl)
    | split

theorem frame_answerLanes (s : State) (p lanes seq : Nat) : Frame 78718 127606560192946768103935021702734417920 s (answerLanes s p lanes seq) := by
  dsimp only [answerLanes, ok]
  repeat' first
    | with_reducible assumption
    | with_reducible exact Frame.refl _ _ _
    | intro _
    | apply Eq.refl true
    | apply Eq.refl (_ : Nat)
    | with_reducible apply Frame.step (g := frame_linkSend ..)
    | with_reducible apply Frame.step (g := frame_lanesDue ..)
    | with_reducible apply Frame.step (g := frame_setPort ..)
    | with_reducible apply Frame.ite
    | with_reducible apply Frame.mk_upd
    | (apply Or.inl; apply Eq.refl true)
    | (apply Or.inr; exact rfl)
    | (with_reducible_and_instances rfl)
    | split

theorem frame_laneSetIn (s : State) (p lanes seq : Nat) : Frame 78718 127606560192946768103935021702734417920 s (laneSetIn s p lanes seq) := by
  dsimp only [laneSetIn, ok]
  repeat' first
    | with_reducible assumption
    | with_reducible exact Frame.refl _ _ _
    | intro _
    | apply Eq.refl true
    | apply Eq.refl (_ : Nat)
    | with_reducible apply Frame.step (g := frame_answerLanes ..)
    | with_reducible apply Frame.step (g := frame_setPort ..)
    | with_reducible apply Frame.step (g := frame_applyLanes ..)
    | with_reducible apply Frame.foldl
    | with_reducible apply Frame.foldl2
    | with_reducible apply Frame.ite
    | with_reducible apply Frame.pairIte
    | (apply Or.inl; apply Eq.refl true)
    | (apply Or.inr; exact rfl)
    | (with_reducible_and_instances rfl)
    | split
    | with_reducible apply Frame.mk_upd

theorem frame_execLanesetReceive (port lanes seq : Nat) (s : State) : FrameO 78718 127606560192946768103935021702734417920 s (execLanesetReceive port lanes seq s) := by
  dsimp only [execLanesetReceive, ok]
  repeat' first
    | with_reducible assumption
    | with_reducible exact Frame.refl _ _ _
    | intro _
    | apply Eq.refl true
    | apply Eq.refl (_ : Nat)
    | exact FrameO.fault
    | with_reducible apply FrameO.next
    | with_reducible apply Frame.step (g := frame_laneSetIn ..)
    | with_reducible apply Frame.ite
    | with_reducible apply FrameO.ite
    | split

theorem frame_sameNode (s : State) (p : Nat) : Frame 78718 127606560192946768103935021702734417920 s (sameNode s p) := by
  dsimp only [sameNode, ok]
  repeat' first
    | with_reducible assumption
    | with_reducible exact Frame.refl _ _ _
    | intro _
    | apply Eq.refl true
    | apply Eq.refl (_ : Nat)
    | with_reducible apply Frame.step (g := frame_post ..)
    | with_reducible apply Frame.step (g := frame_portDown ..)
    | with_reducible apply Frame.ite
    | split

theorem frame_retrainIn (s : State) (port peer : Nat) : Frame 78718 127606560192946768103935021702734417920 s (retrainIn s port peer) := by
  dsimp only [retrainIn, ok]
  repeat' first
    | with_reducible assumption
    | with_reducible exact Frame.refl _ _ _
    | intro _
    | apply Eq.refl true
    | apply Eq.refl (_ : Nat)
    | with_reducible apply Frame.put
    | with_reducible apply Frame.step (g := frame_sameNode ..)
    | with_reducible apply Frame.step (g := frame_beginRetrain ..)
    | with_reducible apply Frame.step (g := frame_setPort ..)
    | with_reducible apply Frame.ite
    | with_reducible apply Frame.mk_upd
    | (apply Or.inl; apply Eq.refl true)
    | (apply Or.inr; exact rfl)
    | (with_reducible_and_instances rfl)
    | split

theorem frame_execLinkSlotReceive (port : Nat) (slot : LinkSlot) (s : State) : FrameO 78718 127606560193024139356390357969915613184 s (execLinkSlotReceive port slot s) := by
  dsimp only [execLinkSlotReceive, ok]
  repeat' first
    | with_reducible assumption
    | with_reducible exact Frame.refl _ _ _
    | intro _
    | apply Eq.refl true
    | apply Eq.refl (_ : Nat)
    | exact FrameO.fault
    | with_reducible apply FrameO.next
    | with_reducible apply Frame.step (g := frame_nakSlot ..)
    | with_reducible apply Frame.step (g := frame_ackIn ..)
    | with_reducible apply Frame.step (g := frame_nakIn ..)
    | with_reducible apply Frame.step (g := frame_creditIn ..)
    | with_reducible apply Frame.step (g := frame_laneSetIn ..)
    | with_reducible apply Frame.step (g := frame_retrainIn ..)
    | with_reducible apply Frame.ite
    | with_reducible apply FrameO.ite
    | split

end Sys2Proof.Laws
end

