-- ==== Sys2Proof/Laws/FrameObjects.lean ====
section
/-! SUPPORT. What each operation of Machine/Objects.lean may change, as a frame (Laws/Frame.lean): the parts and registers by their bits. -/

namespace Sys2Proof.Laws

open Sys2Proof.Machine

theorem frame_cancelJob (s : State) (j : EngJob) (q idx : Nat) : Frame 106 79228162514984913533923233792 s (cancelJob s j q idx) := by
  dsimp only [cancelJob, ok]
  repeat' first
    | with_reducible assumption
    | with_reducible exact Frame.refl _ _ _
    | intro _
    | apply Eq.refl true
    | apply Eq.refl (_ : Nat)
    | with_reducible apply Frame.step (g := frame_updJob ..)
    | with_reducible apply Frame.step (g := frame_qFinish ..)
    | with_reducible apply Frame.step (g := frame_dropJob ..)
    | with_reducible apply Frame.ite
    | (apply Or.inl; apply Eq.refl true)
    | (apply Or.inr; exact rfl)
    | (with_reducible_and_instances rfl)
    | split
    | with_reducible apply Frame.mk_upd

theorem frame_dropParkedTasks (s : State) (m : SegMul) : Frame 98 144115188075859968 s (dropParkedTasks s m) := by
  dsimp only [dropParkedTasks, ok]
  repeat' first
    | with_reducible assumption
    | with_reducible exact Frame.refl _ _ _
    | intro _
    | apply Eq.refl true
    | apply Eq.refl (_ : Nat)
    | with_reducible apply Frame.step (g := frame_updSeg ..)
    | with_reducible apply Frame.step (g := frame_freeCore ..)
    | with_reducible apply Frame.step (g := frame_unpark ..)
    | with_reducible apply Frame.foldl
    | with_reducible apply Frame.foldl2
    | with_reducible apply Frame.ite
    | (apply Or.inl; apply Eq.refl true)
    | (apply Or.inr; exact rfl)
    | (with_reducible_and_instances rfl)
    | split
    | with_reducible apply Frame.mk_upd

theorem frame_cancelStarted (s : State) (q : Nat) (e : QEntry) : Frame 16506 41538454096441136014851243163783168 s (cancelStarted s q e) := by
  dsimp only [cancelStarted, ok]
  repeat' first
    | with_reducible assumption
    | with_reducible exact Frame.refl _ _ _
    | intro _
    | apply Eq.refl true
    | apply Eq.refl (_ : Nat)
    | with_reducible apply Frame.step (g := frame_launchCheck ..)
    | with_reducible apply Frame.step (g := frame_updLaunch ..)
    | with_reducible apply Frame.step (g := frame_dropParkedTasks ..)
    | with_reducible apply Frame.step (g := frame_cancelJob ..)
    | with_reducible apply Frame.ite
    | (apply Or.inl; apply Eq.refl true)
    | (apply Or.inr; exact rfl)
    | (with_reducible_and_instances rfl)
    | split
    | with_reducible apply Frame.mk_upd

theorem frame_cancelEntries (s : State) (q : Nat) : Frame 16506 41538454096441136014851243163783168 s (cancelEntries s q) := by
  dsimp only [cancelEntries, ok]
  repeat' first
    | with_reducible assumption
    | with_reducible exact Frame.refl _ _ _
    | intro _
    | apply Eq.refl true
    | apply Eq.refl (_ : Nat)
    | with_reducible apply Frame.step (g := frame_cancelStarted ..)
    | with_reducible apply Frame.step (g := frame_qFinish ..)
    | with_reducible apply Frame.step (g := frame_unpark ..)
    | with_reducible apply Frame.foldl
    | with_reducible apply Frame.foldl2
    | with_reducible apply Frame.ite
    | split

theorem frame_qCancel (s : State) (q arg : Nat) : Frame 16506 41538454096441136014851243163783168 s (qCancel s q arg) := by
  dsimp only [qCancel, ok]
  repeat' first
    | with_reducible assumption
    | with_reducible exact Frame.refl _ _ _
    | intro _
    | apply Eq.refl true
    | apply Eq.refl (_ : Nat)
    | with_reducible apply Frame.put
    | with_reducible apply Frame.step (g := frame_setQ ..)
    | with_reducible apply Frame.step (g := frame_cancelEntries ..)
    | with_reducible apply Frame.ite
    | with_reducible apply Frame.mk_upd
    | (apply Or.inl; apply Eq.refl true)
    | (apply Or.inr; exact rfl)
    | (with_reducible_and_instances rfl)
    | split

theorem frame_execQCancelDone (q : Nat) (s : State) : FrameO 65548 713053462628379038341895553024 s (execQCancelDone q s) := by
  dsimp only [execQCancelDone, ok]
  repeat' first
    | with_reducible assumption
    | with_reducible exact Frame.refl _ _ _
    | intro _
    | apply Eq.refl true
    | apply Eq.refl (_ : Nat)
    | exact FrameO.fault
    | with_reducible apply FrameO.next
    | with_reducible apply Frame.put
    | with_reducible apply Frame.step (g := frame_setQ ..)
    | with_reducible apply Frame.step (g := frame_signalArg3 ..)
    | with_reducible apply Frame.step (g := frame_showStall ..)
    | with_reducible apply Frame.ite
    | with_reducible apply Frame.mk_upd
    | with_reducible apply FrameO.ite
    | (apply Or.inl; apply Eq.refl true)
    | (apply Or.inr; exact rfl)
    | (with_reducible_and_instances rfl)
    | split

theorem frame_freeQueue (s : State) (q : Nat) : Frame 65548 1208229478342531148301545242624 s (freeQueue s q) := by
  dsimp only [freeQueue, ok]
  repeat' first
    | with_reducible assumption
    | with_reducible exact Frame.refl _ _ _
    | intro _
    | apply Eq.refl true
    | apply Eq.refl (_ : Nat)
    | with_reducible apply Frame.put
    | with_reducible apply Frame.setWord
    | with_reducible apply Frame.step (g := frame_qCqHead ..)
    | with_reducible apply Frame.step (g := frame_qDoorbell ..)
    | with_reducible apply Frame.ite
    | with_reducible apply Frame.mk_upd
    | (apply Or.inl; apply Eq.refl true)
    | (apply Or.inr; exact rfl)
    | (with_reducible_and_instances rfl)
    | split

theorem frame_qDestroy (s : State) (q arg : Nat) : Frame 16506 41538454096441136014851243163783168 s (qDestroy s q arg) := by
  dsimp only [qDestroy, ok]
  repeat' first
    | with_reducible assumption
    | with_reducible exact Frame.refl _ _ _
    | intro _
    | apply Eq.refl true
    | apply Eq.refl (_ : Nat)
    | with_reducible apply Frame.put
    | with_reducible apply Frame.step (g := frame_cancelEntries ..)
    | with_reducible apply Frame.step (g := frame_setQ ..)
    | with_reducible apply Frame.ite
    | with_reducible apply Frame.mk_upd
    | (apply Or.inl; apply Eq.refl true)
    | (apply Or.inr; exact rfl)
    | (with_reducible_and_instances rfl)
    | split

theorem frame_execQDestroyDone (q : Nat) (s : State) : FrameO 65548 1208229478342531148301545242624 s (execQDestroyDone q s) := by
  dsimp only [execQDestroyDone, ok]
  repeat' first
    | with_reducible assumption
    | with_reducible exact Frame.refl _ _ _
    | intro _
    | apply Eq.refl true
    | apply Eq.refl (_ : Nat)
    | exact FrameO.fault
    | with_reducible apply FrameO.next
    | with_reducible apply Frame.step (g := frame_freeQueue ..)
    | with_reducible apply Frame.step (g := frame_dropHolds ..)
    | with_reducible apply Frame.step (g := frame_signalArg3 ..)
    | with_reducible apply Frame.foldl
    | with_reducible apply Frame.foldl2
    | with_reducible apply Frame.ite
    | with_reducible apply FrameO.ite
    | split

theorem frame_qCreate (s : State) (q sq cq a2 : Nat) : Frame 65548 1208229478342531148301545242624 s (qCreate s q sq cq a2) := by
  dsimp only [qCreate, ok]
  repeat' first
    | with_reducible assumption
    | with_reducible exact Frame.refl _ _ _
    | intro _
    | apply Eq.refl true
    | apply Eq.refl (_ : Nat)
    | with_reducible apply Frame.put
    | with_reducible apply Frame.bump
    | with_reducible apply Frame.setWord
    | with_reducible apply Frame.step (g := frame_setQ ..)
    | with_reducible apply Frame.step (g := frame_qCqHead ..)
    | with_reducible apply Frame.step (g := frame_qDoorbell ..)
    | with_reducible apply Frame.ite
    | with_reducible apply Frame.mk_upd
    | (apply Or.inl; apply Eq.refl true)
    | (apply Or.inr; exact rfl)
    | (with_reducible_and_instances rfl)
    | split

theorem frame_cmdQCreate (s : State) (q : Nat) : Frame 65548 1208229478342531148301545242624 s (cmdQCreate s q).2 := by
  dsimp only [cmdQCreate, ok]
  repeat' first
    | with_reducible assumption
    | with_reducible exact Frame.refl _ _ _
    | intro _
    | apply Eq.refl true
    | apply Eq.refl (_ : Nat)
    | with_reducible apply Frame.step (g := frame_qCreate ..)
    | with_reducible apply Frame.ite
    | with_reducible apply Frame.pairIte
    | split

theorem frame_cmdQCancel (s : State) (q : Nat) : Frame 16506 41538454096441136014851243163783168 s (cmdQCancel s q).2 := by
  dsimp only [cmdQCancel, ok]
  repeat' first
    | with_reducible assumption
    | with_reducible exact Frame.refl _ _ _
    | intro _
    | apply Eq.refl true
    | apply Eq.refl (_ : Nat)
    | with_reducible apply Frame.step (g := frame_qCancel ..)
    | with_reducible apply Frame.ite
    | with_reducible apply Frame.pairIte
    | split

theorem frame_cmdQDestroy (s : State) (q : Nat) : Frame 16506 41538454096441136014851243163783168 s (cmdQDestroy s q).2 := by
  dsimp only [cmdQDestroy, ok]
  repeat' first
    | with_reducible assumption
    | with_reducible exact Frame.refl _ _ _
    | intro _
    | apply Eq.refl true
    | apply Eq.refl (_ : Nat)
    | with_reducible apply Frame.step (g := frame_qDestroy ..)
    | with_reducible apply Frame.ite
    | with_reducible apply Frame.pairIte
    | split

theorem frame_cmdMoAlloc (s : State) (i : Nat) : Frame 8 0 s (cmdMoAlloc s i).2 := by
  dsimp only [cmdMoAlloc, ok]
  repeat' first
    | with_reducible assumption
    | with_reducible exact Frame.refl _ _ _
    | intro _
    | apply Eq.refl true
    | apply Eq.refl (_ : Nat)
    | with_reducible apply Frame.step (g := frame_setMo ..)
    | with_reducible apply Frame.ite
    | with_reducible apply Frame.pairIte
    | split

theorem frame_zeroRange (s : State) (m : MoRec) : Frame 94214 127648098458863623495492909487540404224 s (zeroRange s m) := by
  dsimp only [zeroRange, ok]
  repeat' first
    | with_reducible assumption
    | with_reducible exact Frame.refl _ _ _
    | intro _
    | apply Eq.refl true
    | apply Eq.refl (_ : Nat)
    | with_reducible apply Frame.step (g := frame_limitRefused ..)
    | with_reducible apply Frame.step (g := frame_sectorWrite ..)
    | with_reducible apply Frame.foldl
    | with_reducible apply Frame.foldl2
    | with_reducible apply Frame.ite
    | split

theorem frame_execMoZeroingDone (i : Nat) (s : State) : FrameO 94222 127648098458863623495492909487540404224 s (execMoZeroingDone i s) := by
  dsimp only [execMoZeroingDone, ok]
  repeat' first
    | with_reducible assumption
    | with_reducible exact Frame.refl _ _ _
    | intro _
    | apply Eq.refl true
    | apply Eq.refl (_ : Nat)
    | exact FrameO.fault
    | with_reducible apply FrameO.next
    | with_reducible apply Frame.step (g := frame_signalArg3 ..)
    | with_reducible apply Frame.step (g := frame_setMo ..)
    | with_reducible apply Frame.step (g := frame_zeroRange ..)
    | with_reducible apply Frame.ite
    | with_reducible apply Frame.mk_upd
    | with_reducible apply FrameO.ite
    | (apply Or.inl; apply Eq.refl true)
    | (apply Or.inr; exact rfl)
    | (with_reducible_and_instances rfl)
    | split

theorem frame_cmdMoAddref (s : State) (i : Nat) : Frame 8 1237940039285380274899124224 s (cmdMoAddref s i).2 := by
  dsimp only [cmdMoAddref, ok]
  repeat' first
    | with_reducible assumption
    | with_reducible exact Frame.refl _ _ _
    | intro _
    | apply Eq.refl true
    | apply Eq.refl (_ : Nat)
    | with_reducible apply Frame.put
    | with_reducible apply Frame.step (g := frame_setMo ..)
    | with_reducible apply Frame.ite
    | with_reducible apply Frame.pairIte
    | with_reducible apply Frame.mk_upd
    | (apply Or.inl; apply Eq.refl true)
    | (apply Or.inr; exact rfl)
    | (with_reducible_and_instances rfl)
    | split

theorem frame_cmdMoRelease (s : State) (i : Nat) : Frame 8 1237940039285380274899124224 s (cmdMoRelease s i).2 := by
  dsimp only [cmdMoRelease, ok]
  repeat' first
    | with_reducible assumption
    | with_reducible exact Frame.refl _ _ _
    | intro _
    | apply Eq.refl true
    | apply Eq.refl (_ : Nat)
    | with_reducible apply Frame.put
    | with_reducible apply Frame.step (g := frame_moDrop ..)
    | with_reducible apply Frame.ite
    | with_reducible apply Frame.pairIte
    | split

theorem frame_cmdMoQuery (s : State) (i : Nat) : Frame 0 1237940039285380274899124224 s (cmdMoQuery s i).2 := by
  dsimp only [cmdMoQuery, ok]
  repeat' first
    | with_reducible assumption
    | with_reducible exact Frame.refl _ _ _
    | intro _
    | apply Eq.refl true
    | apply Eq.refl (_ : Nat)
    | with_reducible apply Frame.put
    | with_reducible apply Frame.ite
    | with_reducible apply Frame.pairIte
    | split

theorem frame_clearHalt (s : State) (c : Nat) : Frame 0 62914560 s (clearHalt s c) := by
  dsimp only [clearHalt, ok]
  repeat' first
    | with_reducible assumption
    | with_reducible exact Frame.refl _ _ _
    | intro _
    | apply Eq.refl true
    | apply Eq.refl (_ : Nat)
    | with_reducible apply Frame.setWord
    | with_reducible apply Frame.ite
    | split

theorem frame_ctxCreate (s : State) (c seed : Nat) : Frame 77838 127606560143416466760305340171260264448 s (ctxCreate s c seed) := by
  dsimp only [ctxCreate, ok]
  repeat' first
    | with_reducible assumption
    | with_reducible exact Frame.refl _ _ _
    | intro _
    | apply Eq.refl true
    | apply Eq.refl (_ : Nat)
    | with_reducible apply Frame.put
    | with_reducible apply Frame.setWord
    | with_reducible apply Frame.step (g := frame_clearHalt ..)
    | with_reducible apply Frame.step (g := frame_segFault ..)
    | with_reducible apply Frame.step (g := frame_State_setCtxRec ..)
    | with_reducible apply Frame.ite
    | split

theorem frame_cmdCtxCreate (s : State) (c : Nat) : Frame 77838 127606560143416466760305340171260264448 s (cmdCtxCreate s c).2 := by
  dsimp only [cmdCtxCreate, ok]
  repeat' first
    | with_reducible assumption
    | with_reducible exact Frame.refl _ _ _
    | intro _
    | apply Eq.refl true
    | apply Eq.refl (_ : Nat)
    | with_reducible apply Frame.step (g := frame_ctxCreate ..)
    | with_reducible apply Frame.ite
    | with_reducible apply Frame.pairIte
    | split

theorem frame_cmdCtxSuspend (s : State) (c : Nat) : Frame 8 19807040628566084398385987584 s (cmdCtxSuspend s c).2 := by
  dsimp only [cmdCtxSuspend, ok]
  repeat' first
    | with_reducible assumption
    | with_reducible exact Frame.refl _ _ _
    | intro _
    | apply Eq.refl true
    | apply Eq.refl (_ : Nat)
    | with_reducible apply Frame.put
    | with_reducible apply Frame.step (g := frame_State_setCtxRec ..)
    | with_reducible apply Frame.ite
    | with_reducible apply Frame.pairIte
    | with_reducible apply Frame.mk_upd
    | (apply Or.inl; apply Eq.refl true)
    | (apply Or.inr; exact rfl)
    | (with_reducible_and_instances rfl)
    | split

theorem frame_execCtxSuspendDone (c : Nat) (s : State) : FrameO 65548 653632340742680785146737590272 s (execCtxSuspendDone c s) := by
  dsimp only [execCtxSuspendDone, ok]
  repeat' first
    | with_reducible assumption
    | with_reducible exact Frame.refl _ _ _
    | intro _
    | apply Eq.refl true
    | apply Eq.refl (_ : Nat)
    | exact FrameO.fault
    | with_reducible apply FrameO.next
    | with_reducible apply Frame.put
    | with_reducible apply Frame.step (g := frame_signalArg3 ..)
    | with_reducible apply Frame.step (g := frame_State_setCtxRec ..)
    | with_reducible apply Frame.foldl
    | with_reducible apply Frame.foldl2
    | with_reducible apply Frame.ite
    | with_reducible apply Frame.mk_upd
    | with_reducible apply FrameO.ite
    | (apply Or.inl; apply Eq.refl true)
    | (apply Or.inr; exact rfl)
    | (with_reducible_and_instances rfl)
    | split

theorem frame_resumeJobs (s : State) (c : Nat) : Frame 96 576460752303423488 s (resumeJobs s c) := by
  dsimp only [resumeJobs, ok]
  repeat' first
    | with_reducible assumption
    | with_reducible exact Frame.refl _ _ _
    | intro _
    | apply Eq.refl true
    | apply Eq.refl (_ : Nat)
    | with_reducible apply Frame.step (g := frame_updJob ..)
    | with_reducible apply Frame.step (g := frame_startHead ..)
    | with_reducible apply Frame.foldl
    | with_reducible apply Frame.foldl2
    | with_reducible apply Frame.ite
    | (apply Or.inl; apply Eq.refl true)
    | (apply Or.inr; exact rfl)
    | (with_reducible_and_instances rfl)
    | split
    | with_reducible apply Frame.mk_upd

theorem frame_cmdCtxResume (s : State) (c : Nat) : Frame 96 19807040629142545150689411072 s (cmdCtxResume s c).2 := by
  dsimp only [cmdCtxResume, ok]
  repeat' first
    | with_reducible assumption
    | with_reducible exact Frame.refl _ _ _
    | intro _
    | apply Eq.refl true
    | apply Eq.refl (_ : Nat)
    | with_reducible apply Frame.put
    | with_reducible apply Frame.step (g := frame_resumeJobs ..)
    | with_reducible apply Frame.ite
    | with_reducible apply Frame.pairIte
    | split

theorem frame_ctxCancel (s : State) (c arg : Nat) : Frame 95102 127648098538092396523919686522648924160 s (ctxCancel s c arg) := by
  dsimp only [ctxCancel, ok]
  repeat' first
    | with_reducible assumption
    | with_reducible exact Frame.refl _ _ _
    | intro _
    | apply Eq.refl true
    | apply Eq.refl (_ : Nat)
    | with_reducible apply Frame.step (g := frame_qCancel ..)
    | with_reducible apply Frame.step (g := frame_abortFerry ..)
    | with_reducible apply Frame.step (g := frame_State_setCtxRec ..)
    | with_reducible apply Frame.foldl
    | with_reducible apply Frame.foldl2
    | with_reducible apply Frame.ite
    | with_reducible apply Frame.mk_upd
    | (apply Or.inl; apply Eq.refl true)
    | (apply Or.inr; exact rfl)
    | (with_reducible_and_instances rfl)
    | split

theorem frame_cmdCtxCancel (s : State) (c : Nat) : Frame 95102 127648098538092396523919686522648924160 s (cmdCtxCancel s c).2 := by
  dsimp only [cmdCtxCancel, ok]
  repeat' first
    | with_reducible assumption
    | with_reducible exact Frame.refl _ _ _
    | intro _
    | apply Eq.refl true
    | apply Eq.refl (_ : Nat)
    | with_reducible apply Frame.step (g := frame_ctxCancel ..)
    | with_reducible apply Frame.ite
    | with_reducible apply Frame.pairIte
    | split

theorem frame_execCtxCancelDone (c : Nat) (s : State) : FrameO 65548 633825300114114700748351602688 s (execCtxCancelDone c s) := by
  dsimp only [execCtxCancelDone, ok]
  repeat' first
    | with_reducible assumption
    | with_reducible exact Frame.refl _ _ _
    | intro _
    | apply Eq.refl true
    | apply Eq.refl (_ : Nat)
    | exact FrameO.fault
    | with_reducible apply FrameO.next
    | with_reducible apply Frame.step (g := frame_signalArg3 ..)
    | with_reducible apply Frame.step (g := frame_State_setCtxRec ..)
    | with_reducible apply Frame.foldl
    | with_reducible apply Frame.foldl2
    | with_reducible apply Frame.ite
    | with_reducible apply Frame.mk_upd
    | with_reducible apply FrameO.ite
    | (apply Or.inl; apply Eq.refl true)
    | (apply Or.inr; exact rfl)
    | (with_reducible_and_instances rfl)
    | split

theorem frame_regionDrop (s : State) (r : Nat) : Frame 512 1208925819614629174706176 s (regionDrop s r) := by
  dsimp only [regionDrop, ok]
  repeat' first
    | with_reducible assumption
    | with_reducible exact Frame.refl _ _ _
    | intro _
    | apply Eq.refl true
    | apply Eq.refl (_ : Nat)
    | with_reducible apply Frame.setWord
    | with_reducible apply Frame.ite
    | with_reducible apply Frame.mk_upd
    | (apply Or.inl; apply Eq.refl true)
    | (apply Or.inr; exact rfl)
    | (with_reducible_and_instances rfl)
    | split

theorem frame_freeOwned (s : State) (c : Nat) : Frame 66318 1208231594110595671267672589312 s (freeOwned s c) := by
  dsimp only [freeOwned, ok]
  repeat' first
    | with_reducible assumption
    | with_reducible exact Frame.refl _ _ _
    | intro _
    | apply Eq.refl true
    | apply Eq.refl (_ : Nat)
    | with_reducible apply Frame.put
    | with_reducible apply Frame.setWord
    | with_reducible apply Frame.step (g := frame_keyZero ..)
    | with_reducible apply Frame.step (g := frame_berthWrite ..)
    | with_reducible apply Frame.step (g := frame_regionDrop ..)
    | with_reducible apply Frame.step (g := frame_freeQueue ..)
    | with_reducible apply Frame.step (g := frame_clearHalt ..)
    | with_reducible apply Frame.foldl
    | with_reducible apply Frame.foldl2
    | with_reducible apply Frame.ite
    | with_reducible apply Frame.mk_upd
    | (apply Or.inl; apply Eq.refl true)
    | (apply Or.inr; exact rfl)
    | (with_reducible_and_instances rfl)
    | split

theorem frame_teardownBegin (s : State) (c step : Nat) : Frame 95102 127648099043173443709935601743220970496 s (teardownBegin s c step) := by
  dsimp only [teardownBegin, ok]
  repeat' first
    | with_reducible assumption
    | with_reducible exact Frame.refl _ _ _
    | intro _
    | apply Eq.refl true
    | apply Eq.refl (_ : Nat)
    | with_reducible apply Frame.setWord
    | with_reducible apply Frame.step (g := frame_setQ ..)
    | with_reducible apply Frame.step (g := frame_endEntries ..)
    | with_reducible apply Frame.step (g := frame_endJobs ..)
    | with_reducible apply Frame.step (g := frame_endRunning ..)
    | with_reducible apply Frame.step (g := frame_abortFerriesOf ..)
    | with_reducible apply Frame.step (g := frame_freeCore ..)
    | with_reducible apply Frame.step (g := frame_glFlush ..)
    | with_reducible apply Frame.step (g := frame_dropHolds ..)
    | with_reducible apply Frame.step (g := frame_freeOwned ..)
    | with_reducible apply Frame.step (g := frame_signalArg3 ..)
    | with_reducible apply Frame.step (g := frame_State_setCtxRec ..)
    | with_reducible apply Frame.foldl
    | with_reducible apply Frame.foldl2
    | with_reducible apply Frame.ite
    | (apply Or.inl; apply Eq.refl true)
    | (apply Or.inr; exact rfl)
    | (with_reducible_and_instances rfl)
    | split
    | with_reducible apply Frame.mk_upd

theorem frame_ctxDestroy (s : State) (c arg : Nat) : Frame 95102 127648099043173443709935601743220970496 s (ctxDestroy s c arg) := by
  dsimp only [ctxDestroy, ok]
  repeat' first
    | with_reducible assumption
    | with_reducible exact Frame.refl _ _ _
    | intro _
    | apply Eq.refl true
    | apply Eq.refl (_ : Nat)
    | with_reducible apply Frame.put
    | with_reducible apply Frame.step (g := frame_teardownBegin ..)
    | with_reducible apply Frame.step (g := frame_State_setCtxRec ..)
    | with_reducible apply Frame.ite
    | with_reducible apply Frame.mk_upd
    | (apply Or.inl; apply Eq.refl true)
    | (apply Or.inr; exact rfl)
    | (with_reducible_and_instances rfl)
    | split

theorem frame_cmdCtxDestroy (s : State) (c : Nat) : Frame 95102 127648099043173443709935601743220970496 s (cmdCtxDestroy s c).2 := by
  dsimp only [cmdCtxDestroy, ok]
  repeat' first
    | with_reducible assumption
    | with_reducible exact Frame.refl _ _ _
    | intro _
    | apply Eq.refl true
    | apply Eq.refl (_ : Nat)
    | with_reducible apply Frame.step (g := frame_ctxDestroy ..)
    | with_reducible apply Frame.ite
    | with_reducible apply Frame.pairIte
    | split

theorem frame_execTeardownStepDone (c : Nat) (s : State) : FrameO 95102 127648099043173443709935601743220970496 s (execTeardownStepDone c s) := by
  dsimp only [execTeardownStepDone, ok]
  repeat' first
    | with_reducible assumption
    | with_reducible exact Frame.refl _ _ _
    | intro _
    | apply Eq.refl true
    | apply Eq.refl (_ : Nat)
    | exact FrameO.fault
    | with_reducible apply FrameO.next
    | with_reducible apply Frame.step (g := frame_teardownBegin ..)
    | with_reducible apply Frame.step (g := frame_State_setCtxRec ..)
    | with_reducible apply Frame.ite
    | with_reducible apply Frame.mk_upd
    | with_reducible apply FrameO.ite
    | (apply Or.inl; apply Eq.refl true)
    | (apply Or.inr; exact rfl)
    | (with_reducible_and_instances rfl)
    | split

theorem frame_hostOp (s : State) (op index : Nat) : Frame 95102 127648099084025465006353150814892069888 s (hostOp s op index).2 := by
  dsimp only [hostOp, ok]
  repeat' first
    | with_reducible assumption
    | with_reducible exact Frame.refl _ _ _
    | intro _
    | apply Eq.refl true
    | apply Eq.refl (_ : Nat)
    | with_reducible apply Frame.step (g := frame_cmdCtxCreate ..)
    | with_reducible apply Frame.step (g := frame_cmdCtxSuspend ..)
    | with_reducible apply Frame.step (g := frame_cmdCtxResume ..)
    | with_reducible apply Frame.step (g := frame_cmdCtxCancel ..)
    | with_reducible apply Frame.step (g := frame_cmdCtxDestroy ..)
    | with_reducible apply Frame.step (g := frame_cmdQCreate ..)
    | with_reducible apply Frame.step (g := frame_cmdQCancel ..)
    | with_reducible apply Frame.step (g := frame_cmdQDestroy ..)
    | with_reducible apply Frame.step (g := frame_cmdMoAlloc ..)
    | with_reducible apply Frame.step (g := frame_cmdMoAddref ..)
    | with_reducible apply Frame.step (g := frame_cmdMoRelease ..)
    | with_reducible apply Frame.step (g := frame_cmdMoQuery ..)
    | with_reducible apply Frame.eqSnd (e := by assumption)
    | with_reducible apply Frame.ite
    | with_reducible apply Frame.pairIte
    | split

theorem frame_hostCmdWrite (s : State) (op index seq : Nat) : Frame 95102 127648099087120315104566601502139880448 s (hostCmdWrite s op index seq) := by
  dsimp only [hostCmdWrite, ok]
  repeat' first
    | with_reducible assumption
    | with_reducible exact Frame.refl _ _ _
    | intro _
    | apply Eq.refl true
    | apply Eq.refl (_ : Nat)
    | with_reducible apply Frame.put
    | with_reducible apply Frame.step (g := frame_hostOp ..)
    | with_reducible apply Frame.eqSnd (e := by assumption)
    | with_reducible apply Frame.ite
    | with_reducible apply Frame.pairIte
    | split

theorem frame_hostCmd (s : State) (seq op index : Nat) (args : List (Nat × Nat)) : FrameO 95103 127648099087120315104566601502139880448 s (hostCmd s seq op index args) := by
  dsimp only [hostCmd, ok]
  repeat' first
    | with_reducible assumption
    | with_reducible exact Frame.refl _ _ _
    | intro _
    | apply Eq.refl true
    | apply Eq.refl (_ : Nat)
    | exact FrameO.fault
    | with_reducible apply FrameO.next
    | with_reducible apply Frame.put
    | with_reducible apply Frame.step (g := frame_wideWrite ..)
    | with_reducible apply Frame.step (g := frame_hostCmdWrite ..)
    | with_reducible apply FrameO.bar0
    | with_reducible apply Frame.foldl
    | with_reducible apply Frame.foldl2
    | with_reducible apply Frame.ite
    | with_reducible apply FrameO.ite
    | with_reducible apply Frame.pairIte
    | split

theorem frame_execCtxCreate (seq ctx seed : Nat) (s : State) : FrameO 95103 127648099087120315104566601502139880448 s (execCtxCreate seq ctx seed s) := by
  dsimp only [execCtxCreate, ok]
  repeat' first
    | with_reducible assumption
    | with_reducible exact Frame.refl _ _ _
    | intro _
    | apply Eq.refl true
    | apply Eq.refl (_ : Nat)
    | exact FrameO.fault
    | with_reducible apply FrameO.next
    | with_reducible apply FrameO.of (g := frame_hostCmd ..)
    | with_reducible apply Frame.ite
    | with_reducible apply FrameO.ite
    | split

theorem frame_execCtxSuspend (seq ctx arg3 : Nat) (s : State) : FrameO 95103 127648099087120315104566601502139880448 s (execCtxSuspend seq ctx arg3 s) := by
  dsimp only [execCtxSuspend, ok]
  repeat' first
    | with_reducible assumption
    | with_reducible exact Frame.refl _ _ _
    | intro _
    | apply Eq.refl true
    | apply Eq.refl (_ : Nat)
    | exact FrameO.fault
    | with_reducible apply FrameO.next
    | with_reducible apply FrameO.of (g := frame_hostCmd ..)
    | with_reducible apply Frame.ite
    | with_reducible apply FrameO.ite
    | split

theorem frame_execCtxResume (seq ctx : Nat) (s : State) : FrameO 95103 127648099087120315104566601502139880448 s (execCtxResume seq ctx s) := by
  dsimp only [execCtxResume, ok]
  repeat' first
    | with_reducible assumption
    | with_reducible exact Frame.refl _ _ _
    | intro _
    | apply Eq.refl true
    | apply Eq.refl (_ : Nat)
    | exact FrameO.fault
    | with_reducible apply FrameO.next
    | with_reducible apply FrameO.of (g := frame_hostCmd ..)
    | with_reducible apply Frame.ite
    | with_reducible apply FrameO.ite
    | split

theorem frame_execCtxCancel (seq ctx arg3 : Nat) (s : State) : FrameO 95103 127648099087120315104566601502139880448 s (execCtxCancel seq ctx arg3 s) := by
  dsimp only [execCtxCancel, ok]
  repeat' first
    | with_reducible assumption
    | with_reducible exact Frame.refl _ _ _
    | intro _
    | apply Eq.refl true
    | apply Eq.refl (_ : Nat)
    | exact FrameO.fault
    | with_reducible apply FrameO.next
    | with_reducible apply FrameO.of (g := frame_hostCmd ..)
    | with_reducible apply Frame.ite
    | with_reducible apply FrameO.ite
    | split

theorem frame_execCtxDestroy (seq ctx arg3 : Nat) (s : State) : FrameO 95103 127648099087120315104566601502139880448 s (execCtxDestroy seq ctx arg3 s) := by
  dsimp only [execCtxDestroy, ok]
  repeat' first
    | with_reducible assumption
    | with_reducible exact Frame.refl _ _ _
    | intro _
    | apply Eq.refl true
    | apply Eq.refl (_ : Nat)
    | exact FrameO.fault
    | with_reducible apply FrameO.next
    | with_reducible apply FrameO.of (g := frame_hostCmd ..)
    | with_reducible apply Frame.ite
    | with_reducible apply FrameO.ite
    | split

theorem frame_execQCreate (seq q sqBase cqBase arg2 : Nat) (s : State) : FrameO 95103 127648099087120315104566601502139880448 s (execQCreate seq q sqBase cqBase arg2 s) := by
  dsimp only [execQCreate, ok]
  repeat' first
    | with_reducible assumption
    | with_reducible exact Frame.refl _ _ _
    | intro _
    | apply Eq.refl true
    | apply Eq.refl (_ : Nat)
    | exact FrameO.fault
    | with_reducible apply FrameO.next
    | with_reducible apply FrameO.of (g := frame_hostCmd ..)
    | with_reducible apply Frame.ite
    | with_reducible apply FrameO.ite
    | split

theorem frame_execQCancel (seq q arg3 : Nat) (s : State) : FrameO 95103 127648099087120315104566601502139880448 s (execQCancel seq q arg3 s) := by
  dsimp only [execQCancel, ok]
  repeat' first
    | with_reducible assumption
    | with_reducible exact Frame.refl _ _ _
    | intro _
    | apply Eq.refl true
    | apply Eq.refl (_ : Nat)
    | exact FrameO.fault
    | with_reducible apply FrameO.next
    | with_reducible apply FrameO.of (g := frame_hostCmd ..)
    | with_reducible apply Frame.ite
    | with_reducible apply FrameO.ite
    | split

theorem frame_execQDestroy (seq q arg3 : Nat) (s : State) : FrameO 95103 127648099087120315104566601502139880448 s (execQDestroy seq q arg3 s) := by
  dsimp only [execQDestroy, ok]
  repeat' first
    | with_reducible assumption
    | with_reducible exact Frame.refl _ _ _
    | intro _
    | apply Eq.refl true
    | apply Eq.refl (_ : Nat)
    | exact FrameO.fault
    | with_reducible apply FrameO.next
    | with_reducible apply FrameO.of (g := frame_hostCmd ..)
    | with_reducible apply Frame.ite
    | with_reducible apply FrameO.ite
    | split

theorem frame_execMoAlloc (seq i pbase len arg2 arg3 : Nat) (s : State) : FrameO 95103 127648099087120315104566601502139880448 s (execMoAlloc seq i pbase len arg2 arg3 s) := by
  dsimp only [execMoAlloc, ok]
  repeat' first
    | with_reducible assumption
    | with_reducible exact Frame.refl _ _ _
    | intro _
    | apply Eq.refl true
    | apply Eq.refl (_ : Nat)
    | exact FrameO.fault
    | with_reducible apply FrameO.next
    | with_reducible apply FrameO.of (g := frame_hostCmd ..)
    | with_reducible apply Frame.ite
    | with_reducible apply FrameO.ite
    | split

theorem frame_execMoAddref (seq i : Nat) (s : State) : FrameO 95103 127648099087120315104566601502139880448 s (execMoAddref seq i s) := by
  dsimp only [execMoAddref, ok]
  repeat' first
    | with_reducible assumption
    | with_reducible exact Frame.refl _ _ _
    | intro _
    | apply Eq.refl true
    | apply Eq.refl (_ : Nat)
    | exact FrameO.fault
    | with_reducible apply FrameO.next
    | with_reducible apply FrameO.of (g := frame_hostCmd ..)
    | with_reducible apply Frame.ite
    | with_reducible apply FrameO.ite
    | split

theorem frame_execMoRelease (seq i : Nat) (s : State) : FrameO 95103 127648099087120315104566601502139880448 s (execMoRelease seq i s) := by
  dsimp only [execMoRelease, ok]
  repeat' first
    | with_reducible assumption
    | with_reducible exact Frame.refl _ _ _
    | intro _
    | apply Eq.refl true
    | apply Eq.refl (_ : Nat)
    | exact FrameO.fault
    | with_reducible apply FrameO.next
    | with_reducible apply FrameO.of (g := frame_hostCmd ..)
    | with_reducible apply Frame.ite
    | with_reducible apply FrameO.ite
    | split

theorem frame_execMoQuery (seq i : Nat) (s : State) : FrameO 95103 127648099087120315104566601502139880448 s (execMoQuery seq i s) := by
  dsimp only [execMoQuery, ok]
  repeat' first
    | with_reducible assumption
    | with_reducible exact Frame.refl _ _ _
    | intro _
    | apply Eq.refl true
    | apply Eq.refl (_ : Nat)
    | exact FrameO.fault
    | with_reducible apply FrameO.next
    | with_reducible apply FrameO.of (g := frame_hostCmd ..)
    | with_reducible apply Frame.ite
    | with_reducible apply FrameO.ite
    | split

end Sys2Proof.Laws
end

