-- ==== Sys2Proof/Laws/FrameHostLink.lean ====
section
/-! SUPPORT. What each operation of Machine/HostLink.lean may change, as a frame (Laws/Frame.lean): the parts and registers by their bits. -/

namespace Sys2Proof.Laws

open Sys2Proof.Machine

theorem frame_sumpRing (s : State) (v : Nat) : Frame 73732 24719186704450473329185712504832 s (sumpRing s v) := by
  dsimp only [sumpRing, ok]
  repeat' first
    | with_reducible assumption
    | with_reducible exact Frame.refl _ _ _
    | intro _
    | apply Eq.refl true
    | apply Eq.refl (_ : Nat)
    | with_reducible apply Frame.put
    | with_reducible apply Frame.step (g := frame_storeWord ..)
    | with_reducible apply Frame.step (g := frame_sumpDrain ..)
    | with_reducible apply Frame.ite
    | split

theorem frame_execSumpRingWrite (val : Nat) (s : State) : FrameO 73733 24719186704450473329185712504832 s (execSumpRingWrite val s) := by
  dsimp only [execSumpRingWrite, ok]
  repeat' first
    | with_reducible assumption
    | with_reducible exact Frame.refl _ _ _
    | intro _
    | apply Eq.refl true
    | apply Eq.refl (_ : Nat)
    | exact FrameO.fault
    | with_reducible apply FrameO.next
    | with_reducible apply Frame.step (g := frame_sumpRing ..)
    | with_reducible apply Frame.step (g := frame_wideWrite ..)
    | with_reducible apply FrameO.bar0
    | with_reducible apply Frame.ite
    | with_reducible apply FrameO.ite
    | split

theorem frame_sumpHead (s : State) (v : Nat) : Frame 73732 28522138505135161533675822120960 s (sumpHead s v) := by
  dsimp only [sumpHead, ok]
  repeat' first
    | with_reducible assumption
    | with_reducible exact Frame.refl _ _ _
    | intro _
    | apply Eq.refl true
    | apply Eq.refl (_ : Nat)
    | with_reducible apply Frame.put
    | with_reducible apply Frame.step (g := frame_sumpDrain ..)
    | with_reducible apply Frame.ite
    | split

theorem frame_execSumpHeadWrite (val : Nat) (s : State) : FrameO 73733 28522138505135161533675822120960 s (execSumpHeadWrite val s) := by
  dsimp only [execSumpHeadWrite, ok]
  repeat' first
    | with_reducible assumption
    | with_reducible exact Frame.refl _ _ _
    | intro _
    | apply Eq.refl true
    | apply Eq.refl (_ : Nat)
    | exact FrameO.fault
    | with_reducible apply FrameO.next
    | with_reducible apply Frame.step (g := frame_sumpHead ..)
    | with_reducible apply Frame.step (g := frame_wideWrite ..)
    | with_reducible apply FrameO.bar0
    | with_reducible apply Frame.ite
    | with_reducible apply FrameO.ite
    | split

theorem frame_loseHost (s : State) : Frame 78718 127606600757753886149079723305489928192 s (loseHost s) := by
  dsimp only [loseHost, ok]
  repeat' first
    | with_reducible assumption
    | with_reducible exact Frame.refl _ _ _
    | intro _
    | apply Eq.refl true
    | apply Eq.refl (_ : Nat)
    | with_reducible apply Frame.step (g := frame_hostPathLost ..)
    | with_reducible apply Frame.foldl
    | with_reducible apply Frame.foldl2
    | with_reducible apply Frame.ite
    | with_reducible apply Frame.pairIte
    | split

theorem frame_execBusMasterDisable (s : State) : FrameO 78718 127606600757753886149079723305489928192 s (execBusMasterDisable s) := by
  dsimp only [execBusMasterDisable, ok]
  repeat' first
    | with_reducible assumption
    | with_reducible exact Frame.refl _ _ _
    | intro _
    | apply Eq.refl true
    | apply Eq.refl (_ : Nat)
    | exact FrameO.fault
    | with_reducible apply FrameO.next
    | with_reducible apply Frame.put
    | with_reducible apply Frame.step (g := frame_loseHost ..)
    | with_reducible apply Frame.ite
    | with_reducible apply FrameO.ite
    | split

theorem frame_upstreamAgain (s : State) : Frame 73740 23530764266736508265282553249792 s (upstreamAgain s) := by
  dsimp only [upstreamAgain, ok]
  repeat' first
    | with_reducible assumption
    | with_reducible exact Frame.refl _ _ _
    | intro _
    | apply Eq.refl true
    | apply Eq.refl (_ : Nat)
    | with_reducible apply Frame.step (g := frame_hlPurge ..)
    | with_reducible apply Frame.step (g := frame_hlDrainAll ..)
    | with_reducible apply Frame.step (g := frame_msixFlush ..)
    | with_reducible apply Frame.step (g := frame_qDrain ..)
    | with_reducible apply Frame.step (g := frame_sumpDrain ..)
    | with_reducible apply Frame.foldl
    | with_reducible apply Frame.foldl2
    | with_reducible apply Frame.ite
    | split

theorem frame_execBusMasterEnable (s : State) : FrameO 73740 64095583474039849113177055821824 s (execBusMasterEnable s) := by
  dsimp only [execBusMasterEnable, ok]
  repeat' first
    | with_reducible assumption
    | with_reducible exact Frame.refl _ _ _
    | intro _
    | apply Eq.refl true
    | apply Eq.refl (_ : Nat)
    | exact FrameO.fault
    | with_reducible apply FrameO.next
    | with_reducible apply Frame.put
    | with_reducible apply Frame.step (g := frame_upstreamAgain ..)
    | with_reducible apply Frame.ite
    | with_reducible apply Frame.mk_upd
    | with_reducible apply FrameO.ite
    | (apply Or.inl; apply Eq.refl true)
    | (apply Or.inr; exact rfl)
    | (with_reducible_and_instances rfl)
    | split

theorem frame_execD3hotEntry (s : State) : FrameO 78718 127606600757753886149079723305489928192 s (execD3hotEntry s) := by
  dsimp only [execD3hotEntry, ok]
  repeat' first
    | with_reducible assumption
    | with_reducible exact Frame.refl _ _ _
    | intro _
    | apply Eq.refl true
    | apply Eq.refl (_ : Nat)
    | exact FrameO.fault
    | with_reducible apply FrameO.next
    | with_reducible apply Frame.step (g := frame_loseHost ..)
    | with_reducible apply Frame.ite
    | with_reducible apply Frame.mk_upd
    | with_reducible apply FrameO.ite
    | (apply Or.inl; apply Eq.refl true)
    | (apply Or.inr; exact rfl)
    | (with_reducible_and_instances rfl)
    | split

theorem frame_execD0Return (s : State) : FrameO 73740 23530764266736508265282553249792 s (execD0Return s) := by
  dsimp only [execD0Return, ok]
  repeat' first
    | with_reducible assumption
    | with_reducible exact Frame.refl _ _ _
    | intro _
    | apply Eq.refl true
    | apply Eq.refl (_ : Nat)
    | exact FrameO.fault
    | with_reducible apply FrameO.next
    | with_reducible apply Frame.step (g := frame_upstreamAgain ..)
    | with_reducible apply Frame.ite
    | with_reducible apply Frame.mk_upd
    | with_reducible apply FrameO.ite
    | (apply Or.inl; apply Eq.refl true)
    | (apply Or.inr; exact rfl)
    | (with_reducible_and_instances rfl)
    | split

theorem frame_readDone (s : State) (h : HostRead) (poison : Bool) (bs : List Byte) : Frame 95102 127648139132622164770109661019089408000 s (readDone s h poison bs) := by
  dsimp only [readDone, ok]
  repeat' first
    | with_reducible assumption
    | with_reducible exact Frame.refl _ _ _
    | intro _
    | apply Eq.refl true
    | apply Eq.refl (_ : Nat)
    | with_reducible apply Frame.step (g := frame_updJob ..)
    | with_reducible apply Frame.step (g := frame_lineArrived ..)
    | with_reducible apply Frame.ite
    | (apply Or.inl; apply Eq.refl true)
    | (apply Or.inr; exact rfl)
    | (with_reducible_and_instances rfl)
    | split
    | with_reducible apply Frame.mk_upd

theorem frame_execHostReadCompletion (id : Nat) (okRead : Bool) (data : List Byte) (s : State) : FrameO 95102 127648139132622164770109661019089408000 s (execHostReadCompletion id okRead data s) := by
  dsimp only [execHostReadCompletion, ok]
  repeat' first
    | with_reducible assumption
    | with_reducible exact Frame.refl _ _ _
    | intro _
    | apply Eq.refl true
    | apply Eq.refl (_ : Nat)
    | exact FrameO.fault
    | with_reducible apply FrameO.next
    | with_reducible apply Frame.step (g := frame_post ..)
    | with_reducible apply Frame.step (g := frame_readDone ..)
    | with_reducible apply Frame.ite
    | with_reducible apply FrameO.ite
    | (apply Or.inl; apply Eq.refl true)
    | (apply Or.inr; exact rfl)
    | (with_reducible_and_instances rfl)
    | split
    | with_reducible apply Frame.mk_upd

theorem frame_execCxlCacheEnable (s : State) : FrameO 4 40565128692313162192963227353088 s (execCxlCacheEnable s) := by
  dsimp only [execCxlCacheEnable, ok]
  repeat' first
    | with_reducible assumption
    | with_reducible exact Frame.refl _ _ _
    | intro _
    | apply Eq.refl true
    | apply Eq.refl (_ : Nat)
    | exact FrameO.fault
    | with_reducible apply FrameO.next
    | with_reducible apply Frame.step (g := frame_cxlShow ..)
    | with_reducible apply Frame.ite
    | with_reducible apply Frame.mk_upd
    | with_reducible apply FrameO.ite
    | (apply Or.inl; apply Eq.refl true)
    | (apply Or.inr; exact rfl)
    | (with_reducible_and_instances rfl)
    | split

theorem frame_execCxlCacheDisable (s : State) : FrameO 4 40565128692313162192963227353088 s (execCxlCacheDisable s) := by
  dsimp only [execCxlCacheDisable, ok]
  repeat' first
    | with_reducible assumption
    | with_reducible exact Frame.refl _ _ _
    | intro _
    | apply Eq.refl true
    | apply Eq.refl (_ : Nat)
    | exact FrameO.fault
    | with_reducible apply FrameO.next
    | with_reducible apply Frame.step (g := frame_cxlShow ..)
    | with_reducible apply Frame.ite
    | with_reducible apply Frame.mk_upd
    | with_reducible apply FrameO.ite
    | (apply Or.inl; apply Eq.refl true)
    | (apply Or.inr; exact rfl)
    | (with_reducible_and_instances rfl)
    | split

theorem frame_dropLine (s : State) (ha : Nat) : Frame 4 0 s (dropLine s ha) := by
  dsimp only [dropLine, ok]
  repeat' first
    | with_reducible assumption
    | with_reducible exact Frame.refl _ _ _
    | intro _
    | apply Eq.refl true
    | apply Eq.refl (_ : Nat)
    | with_reducible apply Frame.step (g := frame_setHostLines ..)
    | with_reducible apply Frame.ite
    | split

theorem frame_snoop (s : State) (k : Snoop) (ha : Nat) : Frame 65540 0 s (snoop s k ha) := by
  dsimp only [snoop, ok]
  repeat' first
    | with_reducible assumption
    | with_reducible exact Frame.refl _ _ _
    | intro _
    | apply Eq.refl true
    | apply Eq.refl (_ : Nat)
    | with_reducible apply Frame.step (g := frame_cxlSend ..)
    | with_reducible apply Frame.step (g := frame_dropLine ..)
    | with_reducible apply Frame.step (g := frame_setHostLines ..)
    | with_reducible apply Frame.ite
    | with_reducible apply Frame.pairIte
    | (apply Or.inl; apply Eq.refl true)
    | (apply Or.inr; exact rfl)
    | (with_reducible_and_instances rfl)
    | split
    | with_reducible apply Frame.mk_upd

theorem frame_execSnpData (ha : Nat) (s : State) : FrameO 65540 0 s (execSnpData ha s) := by
  dsimp only [execSnpData, ok]
  repeat' first
    | with_reducible assumption
    | with_reducible exact Frame.refl _ _ _
    | intro _
    | apply Eq.refl true
    | apply Eq.refl (_ : Nat)
    | exact FrameO.fault
    | with_reducible apply FrameO.next
    | with_reducible apply Frame.step (g := frame_snoop ..)
    | with_reducible apply Frame.ite
    | with_reducible apply FrameO.ite
    | split

theorem frame_execSnpInv (ha : Nat) (s : State) : FrameO 65540 0 s (execSnpInv ha s) := by
  dsimp only [execSnpInv, ok]
  repeat' first
    | with_reducible assumption
    | with_reducible exact Frame.refl _ _ _
    | intro _
    | apply Eq.refl true
    | apply Eq.refl (_ : Nat)
    | exact FrameO.fault
    | with_reducible apply FrameO.next
    | with_reducible apply Frame.step (g := frame_snoop ..)
    | with_reducible apply Frame.ite
    | with_reducible apply FrameO.ite
    | split

theorem frame_execSnpCur (ha : Nat) (s : State) : FrameO 65540 0 s (execSnpCur ha s) := by
  dsimp only [execSnpCur, ok]
  repeat' first
    | with_reducible assumption
    | with_reducible exact Frame.refl _ _ _
    | intro _
    | apply Eq.refl true
    | apply Eq.refl (_ : Nat)
    | exact FrameO.fault
    | with_reducible apply FrameO.next
    | with_reducible apply Frame.step (g := frame_snoop ..)
    | with_reducible apply Frame.ite
    | with_reducible apply FrameO.ite
    | split

theorem frame_freeEvict (s : State) (ha : Nat) : Frame 65540 0 s (freeEvict s ha) := by
  dsimp only [freeEvict, ok]
  repeat' first
    | with_reducible assumption
    | with_reducible exact Frame.refl _ _ _
    | intro _
    | apply Eq.refl true
    | apply Eq.refl (_ : Nat)
    | with_reducible apply Frame.step (g := frame_hlPurge ..)
    | with_reducible apply Frame.step (g := frame_hlDrain ..)
    | with_reducible apply Frame.ite
    | with_reducible apply Frame.mk_upd
    | (apply Or.inl; apply Eq.refl true)
    | (apply Or.inr; exact rfl)
    | (with_reducible_and_instances rfl)
    | split

theorem frame_wakeOwners (s : State) (ha : Nat) : Frame 16 0 s (wakeOwners s ha) := by
  dsimp only [wakeOwners, ok]
  repeat' first
    | with_reducible assumption
    | with_reducible exact Frame.refl _ _ _
    | intro _
    | apply Eq.refl true
    | apply Eq.refl (_ : Nat)
    | with_reducible apply Frame.step (g := frame_updFrags ..)
    | with_reducible apply Frame.ite
    | (apply Or.inl; apply Eq.refl true)
    | (apply Or.inr; exact rfl)
    | (with_reducible_and_instances rfl)
    | split
    | with_reducible apply Frame.mk_upd

theorem frame_lineGranted (s : State) (l : HostLine) : Frame 20 0 s (lineGranted s l) := by
  dsimp only [lineGranted, ok]
  repeat' first
    | with_reducible assumption
    | with_reducible exact Frame.refl _ _ _
    | intro _
    | apply Eq.refl true
    | apply Eq.refl (_ : Nat)
    | with_reducible apply Frame.step (g := frame_wakeOwners ..)
    | with_reducible apply Frame.step (g := frame_hlPut ..)
    | with_reducible apply Frame.ite
    | with_reducible apply Frame.mk_upd
    | (apply Or.inl; apply Eq.refl true)
    | (apply Or.inr; exact rfl)
    | (with_reducible_and_instances rfl)
    | split

theorem frame_execGoReceive (ha st : Nat) (data : List Byte) (s : State) : FrameO 65556 0 s (execGoReceive ha st data s) := by
  dsimp only [execGoReceive, ok]
  repeat' first
    | with_reducible assumption
    | with_reducible exact Frame.refl _ _ _
    | intro _
    | apply Eq.refl true
    | apply Eq.refl (_ : Nat)
    | exact FrameO.fault
    | with_reducible apply FrameO.next
    | with_reducible apply Frame.step (g := frame_freeEvict ..)
    | with_reducible apply Frame.step (g := frame_lineGranted ..)
    | with_reducible apply Frame.ite
    | with_reducible apply FrameO.ite
    | split

theorem frame_execGoWritepull (ha : Nat) (s : State) : FrameO 65540 0 s (execGoWritepull ha s) := by
  dsimp only [execGoWritepull, ok]
  repeat' first
    | with_reducible assumption
    | with_reducible exact Frame.refl _ _ _
    | intro _
    | apply Eq.refl true
    | apply Eq.refl (_ : Nat)
    | exact FrameO.fault
    | with_reducible apply FrameO.next
    | with_reducible apply Frame.step (g := frame_freeEvict ..)
    | with_reducible apply Frame.step (g := frame_cxlSend ..)
    | with_reducible apply Frame.ite
    | with_reducible apply FrameO.ite
    | split

theorem frame_execGoWritepullDrop (ha : Nat) (s : State) : FrameO 65540 0 s (execGoWritepullDrop ha s) := by
  dsimp only [execGoWritepullDrop, ok]
  repeat' first
    | with_reducible assumption
    | with_reducible exact Frame.refl _ _ _
    | intro _
    | apply Eq.refl true
    | apply Eq.refl (_ : Nat)
    | exact FrameO.fault
    | with_reducible apply FrameO.next
    | with_reducible apply Frame.step (g := frame_freeEvict ..)
    | with_reducible apply Frame.ite
    | with_reducible apply FrameO.ite
    | split

theorem frame_execGoErr (ha : Nat) (s : State) : FrameO 94228 127606560083995344874462971787963531264 s (execGoErr ha s) := by
  dsimp only [execGoErr, ok]
  repeat' first
    | with_reducible assumption
    | with_reducible exact Frame.refl _ _ _
    | intro _
    | apply Eq.refl true
    | apply Eq.refl (_ : Nat)
    | exact FrameO.fault
    | with_reducible apply FrameO.next
    | with_reducible apply Frame.step (g := frame_post ..)
    | with_reducible apply Frame.step (g := frame_freeEvict ..)
    | with_reducible apply Frame.step (g := frame_lineGranted ..)
    | with_reducible apply Frame.ite
    | with_reducible apply Frame.mk_upd
    | with_reducible apply FrameO.ite
    | (apply Or.inl; apply Eq.refl true)
    | (apply Or.inr; exact rfl)
    | (with_reducible_and_instances rfl)
    | split

/-- A register word after a reset of some domains (R11). -/
theorem word_resetRegs (s : State) (p : RDomain → Bool) (r : RegId) (i j w : Nat) :
    (resetRegs s p).word r i j w =
      if r.inBank || !p r.desc.dom then s.word r i j w else (BitVec.ofNat 64 (r.resetWord i w)).toNat := by
  unfold State.word resetRegs
  by_cases h : r.inBank = true
  · simp [h]
  · have e (m : RegStore) : regFind (m.filter (fun e => !p e.1.reg.desc.dom)) ⟨r, i, j, w⟩
        = if p r.desc.dom then none else regFind m ⟨r, i, j, w⟩ := by
      induction m with
      | nil => simp [regFind]
      | cons x m ih =>
        obtain ⟨k, v⟩ := x
        by_cases hk : p k.reg.desc.dom = true
        · rw [List.filter_cons_of_neg (by simp [hk]), ih]
          by_cases hr : p r.desc.dom = true
          · simp [hr]
          · have n : ¬(⟨r, i, j, w⟩ : RegKey) = k := by rintro rfl; exact hr hk
            simp [hr, regFind, n]
        · rw [List.filter_cons_of_pos (by simp [hk])]
          simp only [regFind, ih]
          split
          · rename_i q; subst q; simp [hk]
          · rfl
    simp only [h, Bool.false_eq_true, if_false, Bool.false_or, regGet, e]
    by_cases hp : p r.desc.dom = true <;> simp [hp]

theorem frame_resetRegs (s : State) (p : RDomain → Bool) : Frame 1025 1361124924424002635879323465542784778239 s (resetRegs s p) := by
  refine ⟨rfl, ⟨.inl rfl, .inr rfl, .inr rfl, .inr rfl, .inr rfl, .inr rfl, .inr rfl, .inr rfl, .inr rfl, .inr rfl, .inl rfl, .inr rfl, .inr rfl, .inr rfl, .inr rfl, .inr rfl, .inr rfl⟩, fun r k i j w => ?_, fun x => ⟨x.dram, x.sram, x.flash, x.hold, x.hist, x.mirror⟩⟩
  have b : r.inBank = true := by
    revert k
    cases r <;> decide
  rw [word_resetRegs, if_pos (by rw [b]; rfl)]

theorem frame_stopCommits (s : State) : Frame 95102 127648098567802957466768813110627143680 s (stopCommits s) := by
  dsimp only [stopCommits, ok]
  repeat' first
    | with_reducible assumption
    | with_reducible exact Frame.refl _ _ _
    | intro _
    | apply Eq.refl true
    | apply Eq.refl (_ : Nat)
    | with_reducible apply Frame.step (g := frame_commitLost ..)
    | with_reducible apply Frame.foldl
    | with_reducible apply Frame.foldl2
    | with_reducible apply Frame.ite
    | split

theorem frame_functionDrop (s : State) : Frame 892 0 s (functionDrop s) := by
  dsimp only [functionDrop, ok]
  repeat' first
    | with_reducible assumption
    | with_reducible exact Frame.refl _ _ _
    | intro _
    | apply Eq.refl true
    | apply Eq.refl (_ : Nat)
    | with_reducible apply Frame.ite
    | with_reducible apply Frame.mk_upd
    | (apply Or.inl; apply Eq.refl true)
    | (apply Or.inr; exact rfl)
    | (with_reducible_and_instances rfl)
    | split

theorem frame_functionStop (s : State) : Frame 95102 127648139132624582621748890273142804480 s (functionStop s) := by
  dsimp only [functionStop, ok]
  repeat' first
    | with_reducible assumption
    | with_reducible exact Frame.refl _ _ _
    | intro _
    | apply Eq.refl true
    | apply Eq.refl (_ : Nat)
    | with_reducible apply Frame.put
    | with_reducible apply Frame.step (g := frame_resetSailings ..)
    | with_reducible apply Frame.step (g := frame_stopCommits ..)
    | with_reducible apply Frame.step (g := frame_resetVictim ..)
    | with_reducible apply Frame.step (g := frame_setFlags ..)
    | with_reducible apply Frame.step (g := frame_glFlush ..)
    | with_reducible apply Frame.step (g := frame_functionDrop ..)
    | with_reducible apply Frame.step (g := frame_dropBlock ..)
    | with_reducible apply Frame.foldl
    | with_reducible apply Frame.foldl2
    | with_reducible apply Frame.ite
    | with_reducible apply Frame.mk_upd
    | (apply Or.inl; apply Eq.refl true)
    | (apply Or.inr; exact rfl)
    | (with_reducible_and_instances rfl)
    | split

theorem frame_dropWindows (s : State) : Frame 6 0 s (dropWindows s) := by
  dsimp only [dropWindows, ok]
  repeat' first
    | with_reducible assumption
    | with_reducible exact Frame.refl _ _ _
    | intro _
    | apply Eq.refl true
    | apply Eq.refl (_ : Nat)
    | with_reducible apply Frame.ite
    | with_reducible apply Frame.mk_upd
    | (apply Or.inl; apply Eq.refl true)
    | (apply Or.inr; exact rfl)
    | (with_reducible_and_instances rfl)
    | split

theorem frame_functionClear (s : State) : Frame 1031 1361124924424002635879323465542784778239 s (functionClear s) := by
  dsimp only [functionClear, ok]
  repeat' first
    | with_reducible assumption
    | with_reducible exact Frame.refl _ _ _
    | intro _
    | apply Eq.refl true
    | apply Eq.refl (_ : Nat)
    | with_reducible apply Frame.step (g := frame_showEngines ..)
    | with_reducible apply Frame.step (g := frame_resetRegs ..)
    | with_reducible apply Frame.step (g := frame_dropWindows ..)
    | with_reducible apply Frame.step (g := frame_keyZero ..)
    | with_reducible apply Frame.foldl
    | with_reducible apply Frame.foldl2
    | with_reducible apply Frame.ite
    | split

theorem frame_flrBegin (s : State) : Frame 4 0 s (flrBegin s) := by
  dsimp only [flrBegin, ok]
  repeat' first
    | with_reducible assumption
    | with_reducible exact Frame.refl _ _ _
    | intro _
    | apply Eq.refl true
    | apply Eq.refl (_ : Nat)
    | with_reducible apply Frame.ite
    | with_reducible apply Frame.mk_upd
    | (apply Or.inl; apply Eq.refl true)
    | (apply Or.inr; exact rfl)
    | (with_reducible_and_instances rfl)
    | split

theorem frame_functionReset (s : State) : Frame 96127 1361125573461109952732777031854825930751 s (functionReset s) := by
  dsimp only [functionReset, ok]
  repeat' first
    | with_reducible assumption
    | with_reducible exact Frame.refl _ _ _
    | intro _
    | apply Eq.refl true
    | apply Eq.refl (_ : Nat)
    | with_reducible apply Frame.step (g := frame_cxlShow ..)
    | with_reducible apply Frame.step (g := frame_flrBegin ..)
    | with_reducible apply Frame.step (g := frame_functionClear ..)
    | with_reducible apply Frame.step (g := frame_functionStop ..)
    | with_reducible apply Frame.ite
    | split

theorem frame_execFunctionReset (s : State) : FrameO 96127 1361125573461109952732777031854825930751 s (execFunctionReset s) := by
  dsimp only [execFunctionReset, ok]
  repeat' first
    | with_reducible assumption
    | with_reducible exact Frame.refl _ _ _
    | intro _
    | apply Eq.refl true
    | apply Eq.refl (_ : Nat)
    | exact FrameO.fault
    | with_reducible apply FrameO.next
    | with_reducible apply Frame.step (g := frame_functionReset ..)
    | with_reducible apply Frame.ite
    | with_reducible apply FrameO.ite
    | split

theorem frame_execFlrComplete (s : State) : FrameO 77828 127606600648816970029443048940815515648 s (execFlrComplete s) := by
  dsimp only [execFlrComplete, ok]
  repeat' first
    | with_reducible assumption
    | with_reducible exact Frame.refl _ _ _
    | intro _
    | apply Eq.refl true
    | apply Eq.refl (_ : Nat)
    | exact FrameO.fault
    | with_reducible apply FrameO.next
    | with_reducible apply Frame.put
    | with_reducible apply Frame.step (g := frame_post ..)
    | with_reducible apply Frame.ite
    | with_reducible apply Frame.mk_upd
    | with_reducible apply FrameO.ite
    | (apply Or.inl; apply Eq.refl true)
    | (apply Or.inr; exact rfl)
    | (with_reducible_and_instances rfl)
    | split

end Sys2Proof.Laws
end

