-- ==== Sys2Proof/Laws/FrameImage.lean ====
section
/-! SUPPORT. What each operation of Machine/Image.lean may change, as a frame (Laws/Frame.lean): the parts and registers by their bits. -/

namespace Sys2Proof.Laws

open Sys2Proof.Machine

theorem frame_flashWrite (s : State) (a : Nat) (bs : List Byte) : Frame 2048 0 s (flashWrite s a bs) := by
  exact (Frame.refl _ _ s).updI rfl rfl rfl
    (fun i => ⟨i.dram, i.sram, foldl_smapSet_wf i.flash, i.hold, i.hist, i.mirror⟩) ⟨.inr rfl, .inr rfl, .inr rfl, .inr rfl, .inr rfl, .inr rfl, .inr rfl, .inr rfl, .inr rfl, .inr rfl, .inr rfl, .inl rfl, .inr rfl, .inr rfl, .inr rfl, .inr rfl, .inr rfl⟩

theorem frame_setBad (s : State) (img v : Nat) : Frame 0 1947111321950560360698936123457536 s (setBad s img v) := by
  dsimp only [setBad, ok]
  repeat' first
    | with_reducible assumption
    | with_reducible exact Frame.refl _ _ _
    | intro _
    | apply Eq.refl true
    | apply Eq.refl (_ : Nat)
    | with_reducible apply Frame.put
    | with_reducible apply Frame.step (g := frame_bankChange ..)
    | with_reducible apply Frame.ite
    | split

theorem frame_setAttempts (s : State) (img v : Nat) : Frame 0 1947111321950560360698936123457536 s (setAttempts s img v) := by
  dsimp only [setAttempts, ok]
  repeat' first
    | with_reducible assumption
    | with_reducible exact Frame.refl _ _ _
    | intro _
    | apply Eq.refl true
    | apply Eq.refl (_ : Nat)
    | with_reducible apply Frame.put
    | with_reducible apply Frame.step (g := frame_bankChange ..)
    | with_reducible apply Frame.ite
    | split

theorem frame_showImage (s : State) : Frame 0 81129638414606681695789005144064 s (showImage s) := by
  dsimp only [showImage, ok]
  repeat' first
    | with_reducible assumption
    | with_reducible exact Frame.refl _ _ _
    | intro _
    | apply Eq.refl true
    | apply Eq.refl (_ : Nat)
    | with_reducible apply Frame.put
    | with_reducible apply Frame.ite
    | split

theorem frame_setPref (s : State) (img : Nat) : Frame 0 2028240960365167042394725128601600 s (setPref s img) := by
  dsimp only [setPref, ok]
  repeat' first
    | with_reducible assumption
    | with_reducible exact Frame.refl _ _ _
    | intro _
    | apply Eq.refl true
    | apply Eq.refl (_ : Nat)
    | with_reducible apply Frame.put
    | with_reducible apply Frame.step (g := frame_showImage ..)
    | with_reducible apply Frame.step (g := frame_bankChange ..)
    | with_reducible apply Frame.ite
    | split

end Sys2Proof.Laws
end

