-- ==== Sys2Proof/Laws/FrameOptics.lean ====
section
/-! SUPPORT. What each operation of Machine/Optics.lean may change, as a frame (Laws/Frame.lean): the parts and registers by their bits. -/

namespace Sys2Proof.Laws

open Sys2Proof.Machine

theorem frame_showWlSpares (s : State) (p : Nat) : Frame 0 340282366920938463463374607431768211456 s (showWlSpares s p) := by
  dsimp only [showWlSpares, ok]
  repeat' first
    | with_reducible assumption
    | with_reducible exact Frame.refl _ _ _
    | intro _
    | apply Eq.refl true
    | apply Eq.refl (_ : Nat)
    | with_reducible apply Frame.put
    | with_reducible apply Frame.ite
    | split

theorem frame_execPortTrainingStart (port : Nat) (s : State) : FrameO 66048 12089258196146291747061760 s (execPortTrainingStart port s) := by
  dsimp only [execPortTrainingStart, ok]
  repeat' first
    | with_reducible assumption
    | with_reducible exact Frame.refl _ _ _
    | intro _
    | apply Eq.refl true
    | apply Eq.refl (_ : Nat)
    | exact FrameO.fault
    | with_reducible apply FrameO.next
    | with_reducible apply Frame.step (g := frame_linkSend ..)
    | with_reducible apply Frame.step (g := frame_setPortState ..)
    | with_reducible apply Frame.ite
    | with_reducible apply FrameO.ite
    | split

theorem frame_linkUp (s : State) (p peer set echo : Nat) : Frame 0 12089258196146291747061760 s (linkUp s p peer set echo) := by
  dsimp only [linkUp, ok]
  repeat' first
    | with_reducible assumption
    | with_reducible exact Frame.refl _ _ _
    | intro _
    | apply Eq.refl true
    | apply Eq.refl (_ : Nat)
    | with_reducible apply Frame.put
    | with_reducible apply Frame.step (g := frame_setLanes ..)
    | with_reducible apply Frame.step (g := frame_setPortState ..)
    | with_reducible apply Frame.ite
    | split

theorem frame_execPortTrainingTimeout (port : Nat) (s : State) : FrameO 78718 127606560192946768103935021702734417920 s (execPortTrainingTimeout port s) := by
  dsimp only [execPortTrainingTimeout, ok]
  repeat' first
    | with_reducible assumption
    | with_reducible exact Frame.refl _ _ _
    | intro _
    | apply Eq.refl true
    | apply Eq.refl (_ : Nat)
    | exact FrameO.fault
    | with_reducible apply FrameO.next
    | with_reducible apply Frame.step (g := frame_portDown ..)
    | with_reducible apply Frame.ite
    | with_reducible apply FrameO.ite
    | split

theorem frame_sendLaneSet (s : State) (p set : Nat) : Frame 66048 0 s (sendLaneSet s p set) := by
  dsimp only [sendLaneSet, ok]
  repeat' first
    | with_reducible assumption
    | with_reducible exact Frame.refl _ _ _
    | intro _
    | apply Eq.refl true
    | apply Eq.refl (_ : Nat)
    | with_reducible apply Frame.step (g := frame_linkSend ..)
    | with_reducible apply Frame.step (g := frame_setPort ..)
    | with_reducible apply Frame.ite
    | with_reducible apply Frame.mk_upd
    | (apply Or.inl; apply Eq.refl true)
    | (apply Or.inr; exact rfl)
    | (with_reducible_and_instances rfl)
    | split

theorem frame_leaveSet (s : State) (p l : Nat) : Frame 66048 0 s (leaveSet s p l) := by
  dsimp only [leaveSet, ok]
  repeat' first
    | with_reducible assumption
    | with_reducible exact Frame.refl _ _ _
    | intro _
    | apply Eq.refl true
    | apply Eq.refl (_ : Nat)
    | with_reducible apply Frame.step (g := frame_sendLaneSet ..)
    | with_reducible apply Frame.ite
    | split

theorem frame_joinSet (s : State) (p l : Nat) : Frame 66048 0 s (joinSet s p l) := by
  dsimp only [joinSet, ok]
  repeat' first
    | with_reducible assumption
    | with_reducible exact Frame.refl _ _ _
    | intro _
    | apply Eq.refl true
    | apply Eq.refl (_ : Nat)
    | with_reducible apply Frame.step (g := frame_sendLaneSet ..)
    | with_reducible apply Frame.ite
    | split

theorem frame_markLane (s : State) (p l : Nat) : Frame 512 0 s (markLane s p l) := by
  dsimp only [markLane, ok]
  repeat' first
    | with_reducible assumption
    | with_reducible exact Frame.refl _ _ _
    | intro _
    | apply Eq.refl true
    | apply Eq.refl (_ : Nat)
    | with_reducible apply Frame.step (g := frame_setPort ..)
    | with_reducible apply Frame.ite
    | with_reducible apply Frame.mk_upd
    | (apply Or.inl; apply Eq.refl true)
    | (apply Or.inr; exact rfl)
    | (with_reducible_and_instances rfl)
    | split

theorem frame_clearLane (s : State) (p l : Nat) : Frame 512 0 s (clearLane s p l) := by
  dsimp only [clearLane, ok]
  repeat' first
    | with_reducible assumption
    | with_reducible exact Frame.refl _ _ _
    | intro _
    | apply Eq.refl true
    | apply Eq.refl (_ : Nat)
    | with_reducible apply Frame.step (g := frame_setPort ..)
    | with_reducible apply Frame.ite
    | with_reducible apply Frame.mk_upd
    | (apply Or.inl; apply Eq.refl true)
    | (apply Or.inr; exact rfl)
    | (with_reducible_and_instances rfl)
    | split

theorem frame_beginMove (s : State) (p l : Nat) (emitterCause : Bool) : Frame 78340 127606560083995344874462971787963531264 s (beginMove s p l emitterCause) := by
  dsimp only [beginMove, ok]
  repeat' first
    | with_reducible assumption
    | with_reducible exact Frame.refl _ _ _
    | intro _
    | apply Eq.refl true
    | apply Eq.refl (_ : Nat)
    | with_reducible apply Frame.step (g := frame_setPort ..)
    | with_reducible apply Frame.step (g := frame_post ..)
    | with_reducible apply Frame.ite
    | (apply Or.inl; apply Eq.refl true)
    | (apply Or.inr; exact rfl)
    | (with_reducible_and_instances rfl)
    | split
    | with_reducible apply Frame.mk_upd

theorem frame_beginMoves (s : State) (p : Nat) : Frame 78340 127606560083995344874462971787963531264 s (beginMoves s p) := by
  dsimp only [beginMoves, ok]
  repeat' first
    | with_reducible assumption
    | with_reducible exact Frame.refl _ _ _
    | intro _
    | apply Eq.refl true
    | apply Eq.refl (_ : Nat)
    | with_reducible apply Frame.step (g := frame_beginMove ..)
    | with_reducible apply Frame.foldl
    | with_reducible apply Frame.foldl2
    | with_reducible apply Frame.ite
    | split

theorem frame_execLaneErrorWindow (port lane : Nat) (uncorrectable emitterCause : Bool) (s : State) : FrameO 78340 127606560084072716126918308055144726528 s (execLaneErrorWindow port lane uncorrectable emitterCause s) := by
  dsimp only [execLaneErrorWindow, ok]
  repeat' first
    | with_reducible assumption
    | with_reducible exact Frame.refl _ _ _
    | intro _
    | apply Eq.refl true
    | apply Eq.refl (_ : Nat)
    | exact FrameO.fault
    | with_reducible apply FrameO.next
    | with_reducible apply Frame.bumpSat
    | with_reducible apply Frame.step (g := frame_beginMove ..)
    | with_reducible apply Frame.step (g := frame_leaveSet ..)
    | with_reducible apply Frame.step (g := frame_markLane ..)
    | with_reducible apply Frame.ite
    | with_reducible apply FrameO.ite
    | split

theorem frame_laneLost (s : State) (p l : Nat) : Frame 78718 127606560192946768103935021702734417920 s (laneLost s p l) := by
  dsimp only [laneLost, ok]
  repeat' first
    | with_reducible assumption
    | with_reducible exact Frame.refl _ _ _
    | intro _
    | apply Eq.refl true
    | apply Eq.refl (_ : Nat)
    | with_reducible apply Frame.step (g := frame_markLane ..)
    | with_reducible apply Frame.step (g := frame_beginRetrain ..)
    | with_reducible apply Frame.ite
    | split

theorem frame_execLaneSignalLoss (port lane : Nat) (s : State) : FrameO 78718 127606560192946768103935021702734417920 s (execLaneSignalLoss port lane s) := by
  dsimp only [execLaneSignalLoss, ok]
  repeat' first
    | with_reducible assumption
    | with_reducible exact Frame.refl _ _ _
    | intro _
    | apply Eq.refl true
    | apply Eq.refl (_ : Nat)
    | exact FrameO.fault
    | with_reducible apply FrameO.next
    | with_reducible apply Frame.step (g := frame_laneLost ..)
    | with_reducible apply Frame.ite
    | with_reducible apply FrameO.ite
    | split

theorem frame_emitterOut (s : State) (mark : Nat) : Frame 4096 649037107316853453566312041152512 s (emitterOut s mark) := by
  dsimp only [emitterOut, ok]
  repeat' first
    | with_reducible assumption
    | with_reducible exact Frame.refl _ _ _
    | intro _
    | apply Eq.refl true
    | apply Eq.refl (_ : Nat)
    | with_reducible apply Frame.step (g := frame_bankChange ..)
    | with_reducible apply Frame.ite
    | with_reducible apply Frame.mk_upd
    | (apply Or.inl; apply Eq.refl true)
    | (apply Or.inr; exact rfl)
    | (with_reducible_and_instances rfl)
    | split

theorem frame_swapEnd (s : State) (n worn : Nat) : Frame 78340 127606560084150087379373644322325921792 s (swapEnd s n worn) := by
  dsimp only [swapEnd, ok]
  repeat' first
    | with_reducible assumption
    | with_reducible exact Frame.refl _ _ _
    | intro _
    | apply Eq.refl true
    | apply Eq.refl (_ : Nat)
    | with_reducible apply Frame.put
    | with_reducible apply Frame.step (g := frame_emitterOut ..)
    | with_reducible apply Frame.step (g := frame_dropRetunes ..)
    | with_reducible apply Frame.step (g := frame_post ..)
    | with_reducible apply Frame.step (g := frame_spareEmpty ..)
    | with_reducible apply Frame.ite
    | split

theorem frame_swapsEnd (s : State) (p : Nat) : Frame 78340 127606560084150087379373644322325921792 s (swapsEnd s p) := by
  dsimp only [swapsEnd, ok]
  repeat' first
    | with_reducible assumption
    | with_reducible exact Frame.refl _ _ _
    | intro _
    | apply Eq.refl true
    | apply Eq.refl (_ : Nat)
    | with_reducible apply Frame.step (g := frame_swapEnd ..)
    | with_reducible apply Frame.foldl
    | with_reducible apply Frame.foldl2
    | with_reducible apply Frame.ite
    | with_reducible apply Frame.pairIte
    | split

theorem frame_moveLane (s : State) (port lane w : Nat) : Frame 77828 467888927005127236468975919887684730880 s (moveLane s port lane w) := by
  dsimp only [moveLane, ok]
  repeat' first
    | with_reducible assumption
    | with_reducible exact Frame.refl _ _ _
    | intro _
    | apply Eq.refl true
    | apply Eq.refl (_ : Nat)
    | with_reducible apply Frame.put
    | with_reducible apply Frame.clrBit
    | with_reducible apply Frame.step (g := frame_showWlSpares ..)
    | with_reducible apply Frame.step (g := frame_bankChange ..)
    | with_reducible apply Frame.step (g := frame_post ..)
    | with_reducible apply Frame.step (g := frame_spareEmpty ..)
    | (dsimp only [F.fabLaneMap_WL]; exact Eq.refl true)
    | with_reducible apply Frame.ite
    | with_reducible apply Frame.mk_upd
    | (apply Or.inl; apply Eq.refl true)
    | (apply Or.inr; exact rfl)
    | (with_reducible_and_instances rfl)
    | split

theorem frame_execLaneMoveDone (port lane : Nat) (s : State) : FrameO 78340 467888927005127236468975919887684730880 s (execLaneMoveDone port lane s) := by
  dsimp only [execLaneMoveDone, ok]
  repeat' first
    | with_reducible assumption
    | with_reducible exact Frame.refl _ _ _
    | intro _
    | apply Eq.refl true
    | apply Eq.refl (_ : Nat)
    | exact FrameO.fault
    | with_reducible apply FrameO.next
    | with_reducible apply Frame.step (g := frame_setPort ..)
    | with_reducible apply Frame.step (g := frame_clearLane ..)
    | with_reducible apply Frame.step (g := frame_swapsEnd ..)
    | with_reducible apply Frame.step (g := frame_joinSet ..)
    | with_reducible apply Frame.step (g := frame_moveLane ..)
    | with_reducible apply Frame.ite
    | with_reducible apply FrameO.ite
    | (apply Or.inl; apply Eq.refl true)
    | (apply Or.inr; exact rfl)
    | (with_reducible_and_instances rfl)
    | split
    | with_reducible apply Frame.mk_upd

theorem frame_execPortTrainingDone (port peer peerLanes echo : Nat) (s : State) : FrameO 78718 127606560193101510608845694237096808448 s (execPortTrainingDone port peer peerLanes echo s) := by
  dsimp only [execPortTrainingDone, ok]
  repeat' first
    | with_reducible assumption
    | with_reducible exact Frame.refl _ _ _
    | intro _
    | apply Eq.refl true
    | apply Eq.refl (_ : Nat)
    | exact FrameO.fault
    | with_reducible apply FrameO.next
    | with_reducible apply Frame.put
    | with_reducible apply Frame.step (g := frame_sameNode ..)
    | with_reducible apply Frame.step (g := frame_portDown ..)
    | with_reducible apply Frame.step (g := frame_linkUp ..)
    | with_reducible apply Frame.step (g := frame_post ..)
    | with_reducible apply Frame.step (g := frame_beginMoves ..)
    | with_reducible apply Frame.step (g := frame_swapsEnd ..)
    | with_reducible apply Frame.step (g := frame_resumeHeld ..)
    | with_reducible apply Frame.ite
    | with_reducible apply FrameO.ite
    | split

theorem frame_retrainReq (s : State) (p : Nat) (on : Bool) : Frame 78718 127606560192966110917048855769529716736 s (retrainReq s p on) := by
  dsimp only [retrainReq, ok]
  repeat' first
    | with_reducible assumption
    | with_reducible exact Frame.refl _ _ _
    | intro _
    | apply Eq.refl true
    | apply Eq.refl (_ : Nat)
    | with_reducible apply Frame.put
    | with_reducible apply Frame.step (g := frame_beginRetrain ..)
    | with_reducible apply Frame.ite
    | split

theorem frame_execRetrainMessageReceive (port peer _peerLanes : Nat) (s : State) : FrameO 78718 127606560192946768103935021702734417920 s (execRetrainMessageReceive port peer _peerLanes s) := by
  dsimp only [execRetrainMessageReceive, ok]
  repeat' first
    | with_reducible assumption
    | with_reducible exact Frame.refl _ _ _
    | intro _
    | apply Eq.refl true
    | apply Eq.refl (_ : Nat)
    | exact FrameO.fault
    | with_reducible apply FrameO.next
    | with_reducible apply Frame.step (g := frame_retrainIn ..)
    | with_reducible apply Frame.ite
    | with_reducible apply FrameO.ite
    | split

theorem frame_execRetrainComplete (port : Nat) (peer : PeerOffer) (echo : Nat) (s : State) : FrameO 78718 127606560193043482169504192036710912000 s (execRetrainComplete port peer echo s) := by
  dsimp only [execRetrainComplete, ok]
  repeat' first
    | with_reducible assumption
    | with_reducible exact Frame.refl _ _ _
    | intro _
    | apply Eq.refl true
    | apply Eq.refl (_ : Nat)
    | exact FrameO.fault
    | with_reducible apply FrameO.next
    | with_reducible apply Frame.put
    | with_reducible apply Frame.step (g := frame_sameNode ..)
    | with_reducible apply Frame.step (g := frame_portDown ..)
    | with_reducible apply Frame.step (g := frame_setPort ..)
    | with_reducible apply Frame.step (g := frame_linkUp ..)
    | with_reducible apply Frame.step (g := frame_pumpPort ..)
    | with_reducible apply Frame.step (g := frame_resend ..)
    | with_reducible apply Frame.step (g := frame_post ..)
    | with_reducible apply Frame.step (g := frame_drainEnd ..)
    | with_reducible apply Frame.step (g := frame_beginMoves ..)
    | with_reducible apply Frame.step (g := frame_resumeHeld ..)
    | with_reducible apply Frame.ite
    | with_reducible apply Frame.mk_upd
    | with_reducible apply FrameO.ite
    | (apply Or.inl; apply Eq.refl true)
    | (apply Or.inr; exact rfl)
    | (with_reducible_and_instances rfl)
    | split

theorem frame_execRetrainTimeout (port : Nat) (s : State) : FrameO 78718 127606560192966110917048855769529716736 s (execRetrainTimeout port s) := by
  dsimp only [execRetrainTimeout, ok]
  repeat' first
    | with_reducible assumption
    | with_reducible exact Frame.refl _ _ _
    | intro _
    | apply Eq.refl true
    | apply Eq.refl (_ : Nat)
    | exact FrameO.fault
    | with_reducible apply FrameO.next
    | with_reducible apply Frame.put
    | with_reducible apply Frame.step (g := frame_portDown ..)
    | with_reducible apply Frame.ite
    | with_reducible apply FrameO.ite
    | split

theorem frame_portDisable (s : State) (p : Nat) (on : Bool) : Frame 78718 127606560192966110917048855769529716736 s (portDisable s p on) := by
  dsimp only [portDisable, ok]
  repeat' first
    | with_reducible assumption
    | with_reducible exact Frame.refl _ _ _
    | intro _
    | apply Eq.refl true
    | apply Eq.refl (_ : Nat)
    | with_reducible apply Frame.put
    | with_reducible apply Frame.step (g := frame_drainEnd ..)
    | with_reducible apply Frame.step (g := frame_setLanes ..)
    | with_reducible apply Frame.step (g := frame_setPortState ..)
    | with_reducible apply Frame.step (g := frame_resumeHeld ..)
    | with_reducible apply Frame.ite
    | split

theorem frame_startRetune (s : State) (e n : Nat) : Frame 512 340282366921131891594512948099721199616 s (startRetune s e n) := by
  dsimp only [startRetune, ok]
  repeat' first
    | with_reducible assumption
    | with_reducible exact Frame.refl _ _ _
    | intro _
    | apply Eq.refl true
    | apply Eq.refl (_ : Nat)
    | with_reducible apply Frame.put
    | with_reducible apply Frame.clrBit
    | with_reducible apply Frame.step (g := frame_showWlSpares ..)
    | with_reducible apply Frame.ite
    | with_reducible apply Frame.mk_upd
    | (apply Or.inl; apply Eq.refl true)
    | (apply Or.inr; exact rfl)
    | (with_reducible_and_instances rfl)
    | split

theorem frame_execEmitterWorn (n biasPct : Nat) (s : State) : FrameO 512 340282366921131891594512948099721199616 s (execEmitterWorn n biasPct s) := by
  dsimp only [execEmitterWorn, ok]
  repeat' first
    | with_reducible assumption
    | with_reducible exact Frame.refl _ _ _
    | intro _
    | apply Eq.refl true
    | apply Eq.refl (_ : Nat)
    | exact FrameO.fault
    | with_reducible apply FrameO.next
    | with_reducible apply Frame.put
    | with_reducible apply Frame.step (g := frame_startRetune ..)
    | with_reducible apply Frame.ite
    | with_reducible apply FrameO.ite
    | with_reducible apply Frame.pairIte
    | split

theorem frame_lightLost (s : State) (p l w : Nat) : Frame 78718 127606560192946768103935021702734417920 s (lightLost s p l w) := by
  dsimp only [lightLost, ok]
  repeat' first
    | with_reducible assumption
    | with_reducible exact Frame.refl _ _ _
    | intro _
    | apply Eq.refl true
    | apply Eq.refl (_ : Nat)
    | with_reducible apply Frame.step (g := frame_beginMove ..)
    | with_reducible apply Frame.step (g := frame_setPort ..)
    | with_reducible apply Frame.step (g := frame_laneLost ..)
    | with_reducible apply Frame.ite
    | with_reducible apply Frame.mk_upd
    | (apply Or.inl; apply Eq.refl true)
    | (apply Or.inr; exact rfl)
    | (with_reducible_and_instances rfl)
    | split

theorem frame_execEmitterFail (n : Nat) (s : State) : FrameO 78718 467888927114078659698447969802455617536 s (execEmitterFail n s) := by
  dsimp only [execEmitterFail, ok]
  repeat' first
    | with_reducible assumption
    | with_reducible exact Frame.refl _ _ _
    | intro _
    | apply Eq.refl true
    | apply Eq.refl (_ : Nat)
    | exact FrameO.fault
    | with_reducible apply FrameO.next
    | with_reducible apply Frame.put
    | with_reducible apply Frame.clrBit
    | with_reducible apply Frame.step (g := frame_emitterOut ..)
    | with_reducible apply Frame.step (g := frame_dropRetunes ..)
    | with_reducible apply Frame.step (g := frame_showWlSpares ..)
    | with_reducible apply Frame.step (g := frame_lightLost ..)
    | with_reducible apply Frame.ite
    | with_reducible apply FrameO.ite
    | split

theorem frame_wornSwap (s : State) (n worn w : Nat) : Frame 4096 649037262059358364238846403543040 s (wornSwap s n worn w) := by
  dsimp only [wornSwap, ok]
  repeat' first
    | with_reducible assumption
    | with_reducible exact Frame.refl _ _ _
    | intro _
    | apply Eq.refl true
    | apply Eq.refl (_ : Nat)
    | with_reducible apply Frame.put
    | with_reducible apply Frame.step (g := frame_bankChange ..)
    | with_reducible apply Frame.ite
    | with_reducible apply Frame.mk_upd
    | (apply Or.inl; apply Eq.refl true)
    | (apply Or.inr; exact rfl)
    | (with_reducible_and_instances rfl)
    | split

theorem frame_replaceWorn (s : State) (n worn : Nat) : Frame 78340 127606560084150087379373644322325921792 s (replaceWorn s n worn) := by
  dsimp only [replaceWorn, ok]
  repeat' first
    | with_reducible assumption
    | with_reducible exact Frame.refl _ _ _
    | intro _
    | apply Eq.refl true
    | apply Eq.refl (_ : Nat)
    | with_reducible apply Frame.step (g := frame_wornSwap ..)
    | with_reducible apply Frame.step (g := frame_leaveSet ..)
    | with_reducible apply Frame.step (g := frame_markLane ..)
    | with_reducible apply Frame.step (g := frame_setPort ..)
    | with_reducible apply Frame.step (g := frame_swapEnd ..)
    | with_reducible apply Frame.ite
    | (apply Or.inl; apply Eq.refl true)
    | (apply Or.inr; exact rfl)
    | (with_reducible_and_instances rfl)
    | split
    | with_reducible apply Frame.mk_upd

theorem frame_execEmitterRetuneDone (n wl : Nat) (s : State) : FrameO 78340 467888927005127236468975919887684730880 s (execEmitterRetuneDone n wl s) := by
  dsimp only [execEmitterRetuneDone, ok]
  repeat' first
    | with_reducible assumption
    | with_reducible exact Frame.refl _ _ _
    | intro _
    | apply Eq.refl true
    | apply Eq.refl (_ : Nat)
    | exact FrameO.fault
    | with_reducible apply FrameO.next
    | with_reducible apply Frame.put
    | with_reducible apply Frame.orBit
    | with_reducible apply Frame.step (g := frame_replaceWorn ..)
    | with_reducible apply Frame.step (g := frame_bankChange ..)
    | with_reducible apply Frame.step (g := frame_beginMoves ..)
    | with_reducible apply Frame.step (g := frame_showWlSpares ..)
    | with_reducible apply Frame.ite
    | with_reducible apply FrameO.ite
    | (apply Or.inl; apply Eq.refl true)
    | (apply Or.inr; exact rfl)
    | (with_reducible_and_instances rfl)
    | split
    | with_reducible apply Frame.mk_upd

theorem frame_showEmitter (p : Nat) (s : State) (e : Nat) : Frame 0 154742504910672534362390528 s (showEmitter p s e) := by
  dsimp only [showEmitter, ok]
  repeat' first
    | with_reducible assumption
    | with_reducible exact Frame.refl _ _ _
    | intro _
    | apply Eq.refl true
    | apply Eq.refl (_ : Nat)
    | with_reducible apply Frame.put
    | with_reducible apply Frame.ite
    | with_reducible apply Frame.pairIte
    | split

theorem frame_showOptics (s : State) (p : Nat) : Frame 0 340282366921131891594512948099721199616 s (showOptics s p) := by
  dsimp only [showOptics, ok]
  repeat' first
    | with_reducible assumption
    | with_reducible exact Frame.refl _ _ _
    | intro _
    | apply Eq.refl true
    | apply Eq.refl (_ : Nat)
    | with_reducible apply Frame.put
    | with_reducible apply Frame.step (g := frame_showEmitter ..)
    | with_reducible apply Frame.step (g := frame_showWlSpares ..)
    | (dsimp only [F.fabLaneMap_WL]; exact Eq.refl true)
    | with_reducible apply Frame.foldl
    | with_reducible apply Frame.foldl2
    | with_reducible apply Frame.ite
    | split

end Sys2Proof.Laws
end

