-- ==== Sys2Proof/Laws/FrameWake.lean ====
section
/-! SUPPORT. What each operation of Machine/Wake.lean may change, as a frame (Laws/Frame.lean): the parts and registers by their bits. -/

namespace Sys2Proof.Laws

open Sys2Proof.Machine

theorem frame_pwrAnswer (s : State) (d result : Nat) : Frame 66564 124615758430135977199432660252884992 s (pwrAnswer s d result) := by
  dsimp only [pwrAnswer, ok]
  repeat' first
    | with_reducible assumption
    | with_reducible exact Frame.refl _ _ _
    | intro _
    | apply Eq.refl true
    | apply Eq.refl (_ : Nat)
    | with_reducible apply Frame.put
    | with_reducible apply Frame.step (g := frame_signalIf ..)
    | with_reducible apply Frame.ite
    | (apply Or.inl; apply Eq.refl true)
    | (apply Or.inr; exact rfl)
    | (with_reducible_and_instances rfl)
    | split
    | with_reducible apply Frame.mk_upd

theorem frame_setPwr (s : State) (p : Power) : Frame 1024 0 s (setPwr s p) := by
  dsimp only [setPwr, ok]
  repeat' first
    | with_reducible assumption
    | with_reducible exact Frame.refl _ _ _
    | intro _
    | apply Eq.refl true
    | apply Eq.refl (_ : Nat)
    | with_reducible apply Frame.ite
    | with_reducible apply Frame.mk_upd
    | (apply Or.inl; apply Eq.refl true)
    | (apply Or.inr; exact rfl)
    | (with_reducible_and_instances rfl)
    | split

theorem frame_beginRamp (s : State) (d : Nat) : Frame 1024 0 s (beginRamp s d) := by
  dsimp only [beginRamp, ok]
  repeat' first
    | with_reducible assumption
    | with_reducible exact Frame.refl _ _ _
    | intro _
    | apply Eq.refl true
    | apply Eq.refl (_ : Nat)
    | with_reducible apply Frame.step (g := frame_setPwr ..)
    | with_reducible apply Frame.ite
    | with_reducible apply Frame.mk_upd
    | (apply Or.inl; apply Eq.refl true)
    | (apply Or.inr; exact rfl)
    | (with_reducible_and_instances rfl)
    | split

theorem frame_serveWakes (a0 : Nat) (a1 : State) : Frame 1024 0 a1 (serveWakes a0 a1) := by
  induction a0 generalizing a1 with
  | zero =>
    dsimp only [serveWakes, ok]
    repeat' first
      | with_reducible assumption
      | with_reducible exact Frame.refl _ _ _
      | intro _
      | apply Eq.refl true
      | apply Eq.refl (_ : Nat)
      | with_reducible apply Frame.step (g := frame_beginRamp ..)
      | with_reducible apply Frame.ite
      | split
  | succ n ih =>
    dsimp only [serveWakes, ok]
    repeat' first
      | with_reducible assumption
      | with_reducible exact Frame.refl _ _ _
      | intro _
      | with_reducible apply Frame.step (g := ih ..)
      | apply Eq.refl true
      | apply Eq.refl (_ : Nat)
      | with_reducible apply Frame.step (g := frame_beginRamp ..)
      | with_reducible apply Frame.ite
      | split

theorem frame_enqueueWakes (s : State) (ds : List Nat) : Frame 1024 0 s (enqueueWakes s ds) := by
  dsimp only [enqueueWakes, ok]
  repeat' first
    | with_reducible assumption
    | with_reducible exact Frame.refl _ _ _
    | intro _
    | apply Eq.refl true
    | apply Eq.refl (_ : Nat)
    | with_reducible apply Frame.step (g := frame_serveWakes ..)
    | with_reducible apply Frame.step (g := frame_setPwr ..)
    | with_reducible apply Frame.ite
    | with_reducible apply Frame.mk_upd
    | (apply Or.inl; apply Eq.refl true)
    | (apply Or.inr; exact rfl)
    | (with_reducible_and_instances rfl)
    | split

theorem frame_closeWindow (s : State) (d : Nat) : Frame 1024 0 s (closeWindow s d) := by
  dsimp only [closeWindow, ok]
  repeat' first
    | with_reducible assumption
    | with_reducible exact Frame.refl _ _ _
    | intro _
    | apply Eq.refl true
    | apply Eq.refl (_ : Nat)
    | with_reducible apply Frame.step (g := frame_setPwr ..)
    | with_reducible apply Frame.ite
    | with_reducible apply Frame.mk_upd
    | (apply Or.inl; apply Eq.refl true)
    | (apply Or.inr; exact rfl)
    | (with_reducible_and_instances rfl)
    | split

theorem frame_endRamp (s : State) (d : Nat) : Frame 1024 0 s (endRamp s d) := by
  dsimp only [endRamp, ok]
  repeat' first
    | with_reducible assumption
    | with_reducible exact Frame.refl _ _ _
    | intro _
    | apply Eq.refl true
    | apply Eq.refl (_ : Nat)
    | with_reducible apply Frame.step (g := frame_closeWindow ..)
    | with_reducible apply Frame.step (g := frame_setPwr ..)
    | with_reducible apply Frame.ite
    | with_reducible apply Frame.mk_upd
    | (apply Or.inl; apply Eq.refl true)
    | (apply Or.inr; exact rfl)
    | (with_reducible_and_instances rfl)
    | split

theorem frame_execWakeRampStart (dom : Nat) (s : State) : FrameO 1024 0 s (execWakeRampStart dom s) := by
  dsimp only [execWakeRampStart, ok]
  repeat' first
    | with_reducible assumption
    | with_reducible exact Frame.refl _ _ _
    | intro _
    | apply Eq.refl true
    | apply Eq.refl (_ : Nat)
    | exact FrameO.fault
    | with_reducible apply FrameO.next
    | with_reducible apply Frame.step (g := frame_beginRamp ..)
    | with_reducible apply Frame.ite
    | with_reducible apply FrameO.ite
    | split

theorem frame_execChargeWindowClose (dom : Nat) (s : State) : FrameO 1024 0 s (execChargeWindowClose dom s) := by
  dsimp only [execChargeWindowClose, ok]
  repeat' first
    | with_reducible assumption
    | with_reducible exact Frame.refl _ _ _
    | intro _
    | apply Eq.refl true
    | apply Eq.refl (_ : Nat)
    | exact FrameO.fault
    | with_reducible apply FrameO.next
    | with_reducible apply Frame.step (g := frame_closeWindow ..)
    | with_reducible apply Frame.ite
    | with_reducible apply FrameO.ite
    | split

theorem frame_ferryCtrlWrite (s : State) (f v : Nat) : Frame 256 1328165573307087716352 s (ferryCtrlWrite s f v) := by
  dsimp only [ferryCtrlWrite, ok]
  repeat' first
    | with_reducible assumption
    | with_reducible exact Frame.refl _ _ _
    | intro _
    | apply Eq.refl true
    | apply Eq.refl (_ : Nat)
    | with_reducible apply Frame.step (g := frame_storeWord ..)
    | with_reducible apply Frame.step (g := frame_ferryStart ..)
    | with_reducible apply Frame.step (g := frame_ferryHalt ..)
    | with_reducible apply Frame.step (g := frame_ferryShow ..)
    | with_reducible apply Frame.ite
    | split

theorem frame_ferryAbortWrite (s : State) (f v : Nat) : Frame 78716 127606560083995964832637801018775568384 s (ferryAbortWrite s f v) := by
  dsimp only [ferryAbortWrite, ok]
  repeat' first
    | with_reducible assumption
    | with_reducible exact Frame.refl _ _ _
    | intro _
    | apply Eq.refl true
    | apply Eq.refl (_ : Nat)
    | with_reducible apply Frame.step (g := frame_storeWord ..)
    | with_reducible apply Frame.step (g := frame_abortAllOf ..)
    | with_reducible apply Frame.step (g := frame_abortOne ..)
    | with_reducible apply Frame.ite
    | split

theorem frame_portCtrlWrite (s : State) (p v : Nat) : Frame 78718 127606560192966110917048855769529716736 s (portCtrlWrite s p v) := by
  dsimp only [portCtrlWrite, ok]
  repeat' first
    | with_reducible assumption
    | with_reducible exact Frame.refl _ _ _
    | intro _
    | apply Eq.refl true
    | apply Eq.refl (_ : Nat)
    | with_reducible apply Frame.put
    | with_reducible apply Frame.step (g := frame_portDisable ..)
    | with_reducible apply Frame.step (g := frame_retrainReq ..)
    | with_reducible apply Frame.ite
    | split

theorem frame_unitWriteNow (s : State) (r : RegId) (i v : Nat) : Frame 78718 127606560192966120361781883081471299584 s (unitWriteNow s r i v) := by
  dsimp only [unitWriteNow, ok]
  repeat' first
    | with_reducible assumption
    | with_reducible exact Frame.refl _ _ _
    | intro _
    | apply Eq.refl true
    | apply Eq.refl (_ : Nat)
    | with_reducible apply Frame.step (g := frame_ferryCtrlWrite ..)
    | with_reducible apply Frame.step (g := frame_ferryAbortWrite ..)
    | with_reducible apply Frame.step (g := frame_portCtrlWrite ..)
    | with_reducible apply Frame.step (g := frame_chanTarget ..)
    | with_reducible apply Frame.ite
    | split

theorem frame_unitWrite (s : State) (r : RegId) (i v : Nat) : Frame 79742 127606560192966120361781883081471299584 s (unitWrite s r i v) := by
  dsimp only [unitWrite]
  split
  · rename_i h
    have k : 2 ^ r.ctorIdx ||| 127606560192966120361781883081471299584 = 127606560192966120361781883081471299584 := by
      cases r <;> first | rfl | exact nomatch (show false = true from h)
    exact (frame_deferWrite ..).mono rfl k
  · exact (frame_unitWriteNow ..).mono rfl rfl

theorem frame_execFerryRun (f : Nat) (s : State) : FrameO 1281 1328165573307087716352 s (execFerryRun f s) := by
  dsimp only [execFerryRun, ok]
  repeat' first
    | with_reducible assumption
    | with_reducible exact Frame.refl _ _ _
    | intro _
    | apply Eq.refl true
    | apply Eq.refl (_ : Nat)
    | exact FrameO.fault
    | with_reducible apply FrameO.next
    | with_reducible apply Frame.step (g := frame_wideWrite ..)
    | with_reducible apply Frame.step (g := frame_deferWrite ..)
    | with_reducible apply Frame.step (g := frame_ferryStart ..)
    | with_reducible apply FrameO.bar0
    | with_reducible apply Frame.ite
    | with_reducible apply FrameO.ite
    | split

theorem frame_execFerryStop (f : Nat) (s : State) : FrameO 1025 1328165573307087716352 s (execFerryStop f s) := by
  dsimp only [execFerryStop, ok]
  repeat' first
    | with_reducible assumption
    | with_reducible exact Frame.refl _ _ _
    | intro _
    | apply Eq.refl true
    | apply Eq.refl (_ : Nat)
    | exact FrameO.fault
    | with_reducible apply FrameO.next
    | with_reducible apply Frame.step (g := frame_wideWrite ..)
    | with_reducible apply Frame.step (g := frame_deferWrite ..)
    | with_reducible apply Frame.step (g := frame_ferryHalt ..)
    | with_reducible apply FrameO.bar0
    | with_reducible apply Frame.ite
    | with_reducible apply FrameO.ite
    | split

theorem frame_execFerryAbortOne (f entry cycleLo seq : Nat) (s : State) : FrameO 79743 127606560192966120361781883081471299584 s (execFerryAbortOne f entry cycleLo seq s) := by
  dsimp only [execFerryAbortOne, ok]
  repeat' first
    | with_reducible assumption
    | with_reducible exact Frame.refl _ _ _
    | intro _
    | apply Eq.refl true
    | apply Eq.refl (_ : Nat)
    | exact FrameO.fault
    | with_reducible apply FrameO.next
    | with_reducible apply Frame.step (g := frame_unitWrite ..)
    | with_reducible apply Frame.step (g := frame_wideWrite ..)
    | with_reducible apply FrameO.bar0
    | with_reducible apply Frame.ite
    | with_reducible apply FrameO.ite
    | split

theorem frame_execFerryAbortAll (f seq : Nat) (s : State) : FrameO 79743 127606560192966120361781883081471299584 s (execFerryAbortAll f seq s) := by
  dsimp only [execFerryAbortAll, ok]
  repeat' first
    | with_reducible assumption
    | with_reducible exact Frame.refl _ _ _
    | intro _
    | apply Eq.refl true
    | apply Eq.refl (_ : Nat)
    | exact FrameO.fault
    | with_reducible apply FrameO.next
    | with_reducible apply Frame.step (g := frame_unitWrite ..)
    | with_reducible apply Frame.step (g := frame_wideWrite ..)
    | with_reducible apply FrameO.bar0
    | with_reducible apply Frame.ite
    | with_reducible apply FrameO.ite
    | split

theorem frame_execPortDisableWrite (port : Nat) (on : Bool) (s : State) : FrameO 79742 127606560192966110917048855769529716736 s (execPortDisableWrite port on s) := by
  dsimp only [execPortDisableWrite, ok]
  repeat' first
    | with_reducible assumption
    | with_reducible exact Frame.refl _ _ _
    | intro _
    | apply Eq.refl true
    | apply Eq.refl (_ : Nat)
    | exact FrameO.fault
    | with_reducible apply FrameO.next
    | with_reducible apply Frame.step (g := frame_deferWrite ..)
    | with_reducible apply Frame.step (g := frame_portDisable ..)
    | with_reducible apply FrameO.bar0
    | with_reducible apply Frame.ite
    | with_reducible apply FrameO.ite
    | split

theorem frame_execRetrainReqWrite (port : Nat) (on : Bool) (s : State) : FrameO 79742 127606560192966110917048855769529716736 s (execRetrainReqWrite port on s) := by
  dsimp only [execRetrainReqWrite, ok]
  repeat' first
    | with_reducible assumption
    | with_reducible exact Frame.refl _ _ _
    | intro _
    | apply Eq.refl true
    | apply Eq.refl (_ : Nat)
    | exact FrameO.fault
    | with_reducible apply FrameO.next
    | with_reducible apply Frame.step (g := frame_deferWrite ..)
    | with_reducible apply Frame.step (g := frame_retrainReq ..)
    | with_reducible apply FrameO.bar0
    | with_reducible apply Frame.ite
    | with_reducible apply FrameO.ite
    | split

theorem frame_execChannelMapOut (n : Nat) (s : State) : FrameO 79742 127606560192966120361781883081471299584 s (execChannelMapOut n s) := by
  dsimp only [execChannelMapOut, ok]
  repeat' first
    | with_reducible assumption
    | with_reducible exact Frame.refl _ _ _
    | intro _
    | apply Eq.refl true
    | apply Eq.refl (_ : Nat)
    | exact FrameO.fault
    | with_reducible apply FrameO.next
    | with_reducible apply Frame.step (g := frame_unitWrite ..)
    | with_reducible apply FrameO.bar0
    | with_reducible apply Frame.ite
    | with_reducible apply FrameO.ite
    | split

theorem frame_execChannelRestore (n : Nat) (s : State) : FrameO 79742 127606560192966120361781883081471299584 s (execChannelRestore n s) := by
  dsimp only [execChannelRestore, ok]
  repeat' first
    | with_reducible assumption
    | with_reducible exact Frame.refl _ _ _
    | intro _
    | apply Eq.refl true
    | apply Eq.refl (_ : Nat)
    | exact FrameO.fault
    | with_reducible apply FrameO.next
    | with_reducible apply Frame.step (g := frame_unitWrite ..)
    | with_reducible apply FrameO.bar0
    | with_reducible apply Frame.ite
    | with_reducible apply FrameO.ite
    | split

theorem frame_lateRun (s : State) (l : LateWrite) : Frame 78718 5444517870735015415413993718908291383295 s (lateRun s l) := by
  dsimp only [lateRun, ok]
  repeat' first
    | with_reducible assumption
    | with_reducible exact Frame.refl _ _ _
    | intro _
    | apply Eq.refl true
    | apply Eq.refl (_ : Nat)
    | with_reducible apply Frame.setWord
    | with_reducible apply Frame.step (g := frame_unitWriteNow ..)
    | with_reducible apply Frame.foldl
    | with_reducible apply Frame.foldl2
    | with_reducible apply Frame.ite
    | exact mask_bit _
    | split

theorem frame_lateWrites (s : State) (d : Nat) : Frame 79742 5444517870735015415413993718908291383295 s (lateWrites s d) := by
  dsimp only [lateWrites, ok]
  repeat' first
    | with_reducible assumption
    | with_reducible exact Frame.refl _ _ _
    | intro _
    | apply Eq.refl true
    | apply Eq.refl (_ : Nat)
    | with_reducible apply Frame.step (g := frame_lateRun ..)
    | with_reducible apply Frame.step (g := frame_setPwr ..)
    | with_reducible apply Frame.foldl
    | with_reducible apply Frame.foldl2
    | with_reducible apply Frame.ite
    | with_reducible apply Frame.mk_upd
    | (apply Or.inl; apply Eq.refl true)
    | (apply Or.inr; exact rfl)
    | (with_reducible_and_instances rfl)
    | split

theorem frame_untestSpares (s : State) (d : Nat) : Frame 8192 340282366920938463463374607431768211456 s (untestSpares s d) := by
  dsimp only [untestSpares, ok]
  repeat' first
    | with_reducible assumption
    | with_reducible exact Frame.refl _ _ _
    | intro _
    | apply Eq.refl true
    | apply Eq.refl (_ : Nat)
    | with_reducible apply Frame.step (g := frame_showCoreSpare ..)
    | with_reducible apply Frame.step (g := frame_showSliceSpare ..)
    | with_reducible apply Frame.foldl
    | with_reducible apply Frame.foldl2
    | with_reducible apply Frame.ite
    | with_reducible apply Frame.mk_upd
    | (apply Or.inl; apply Eq.refl true)
    | (apply Or.inr; exact rfl)
    | (with_reducible_and_instances rfl)
    | split

theorem frame_joinSlices (s : State) (t : Nat) : Frame 0 4398046511104 s (joinSlices s t) := by
  dsimp only [joinSlices, ok]
  repeat' first
    | with_reducible assumption
    | with_reducible exact Frame.refl _ _ _
    | intro _
    | apply Eq.refl true
    | apply Eq.refl (_ : Nat)
    | with_reducible apply Frame.put
    | with_reducible apply Frame.foldl
    | with_reducible apply Frame.foldl2
    | with_reducible apply Frame.ite
    | split

theorem frame_domainBack (s : State) (d : Nat) (wasOff : Bool) : Frame 79870 5444517870735015415413993718908291383295 s (domainBack s d wasOff) := by
  dsimp only [domainBack, ok]
  repeat' first
    | with_reducible assumption
    | with_reducible exact Frame.refl _ _ _
    | intro _
    | apply Eq.refl true
    | apply Eq.refl (_ : Nat)
    | with_reducible apply Frame.step (g := frame_staleCopies ..)
    | with_reducible apply Frame.step (g := frame_untestSpares ..)
    | with_reducible apply Frame.step (g := frame_joinSlices ..)
    | with_reducible apply Frame.step (g := frame_startHead ..)
    | with_reducible apply Frame.step (g := frame_showOptics ..)
    | with_reducible apply Frame.step (g := frame_lateWrites ..)
    | with_reducible apply Frame.foldl
    | with_reducible apply Frame.foldl2
    | with_reducible apply Frame.ite
    | split

theorem frame_wakeDone (s : State) (d target : Nat) : Frame 81918 5444517870735015415413993718908291383295 s (wakeDone s d target) := by
  dsimp only [wakeDone, ok]
  repeat' first
    | with_reducible assumption
    | with_reducible exact Frame.refl _ _ _
    | intro _
    | apply Eq.refl true
    | apply Eq.refl (_ : Nat)
    | with_reducible apply Frame.put
    | with_reducible apply Frame.bump
    | with_reducible apply Frame.step (g := frame_setDomain ..)
    | with_reducible apply Frame.step (g := frame_setPwr ..)
    | with_reducible apply Frame.step (g := frame_pwrAnswer ..)
    | with_reducible apply Frame.step (g := frame_domainBack ..)
    | with_reducible apply Frame.ite
    | with_reducible apply Frame.mk_upd
    | (apply Or.inl; apply Eq.refl true)
    | (apply Or.inr; exact rfl)
    | (with_reducible_and_instances rfl)
    | split

theorem frame_stick (s : State) (d : Nat) : Frame 0 3245185536584267267831560205762560 s (stick s d) := by
  dsimp only [stick, ok]
  repeat' first
    | with_reducible assumption
    | with_reducible exact Frame.refl _ _ _
    | intro _
    | apply Eq.refl true
    | apply Eq.refl (_ : Nat)
    | with_reducible apply Frame.orBit
    | with_reducible apply Frame.step (g := frame_bankChange ..)
    | with_reducible apply Frame.ite
    | split

theorem frame_wakeLatch (s : State) (d : Nat) : Frame 79742 127733771465980871380834023261920563200 s (wakeLatch s d) := by
  dsimp only [wakeLatch, ok]
  repeat' first
    | with_reducible assumption
    | with_reducible exact Frame.refl _ _ _
    | intro _
    | apply Eq.refl true
    | apply Eq.refl (_ : Nat)
    | with_reducible apply Frame.put
    | with_reducible apply Frame.step (g := frame_stick ..)
    | with_reducible apply Frame.step (g := frame_domainOff ..)
    | with_reducible apply Frame.step (g := frame_endRamp ..)
    | with_reducible apply Frame.step (g := frame_post ..)
    | with_reducible apply Frame.step (g := frame_setPwr ..)
    | with_reducible apply Frame.step (g := frame_pwrAnswer ..)
    | with_reducible apply Frame.ite
    | with_reducible apply Frame.mk_upd
    | (apply Or.inl; apply Eq.refl true)
    | (apply Or.inr; exact rfl)
    | (with_reducible_and_instances rfl)
    | split

theorem frame_execWakeLatch (dom : Nat) (s : State) : FrameO 79742 127733771465980871380834023261920563200 s (execWakeLatch dom s) := by
  dsimp only [execWakeLatch, ok]
  repeat' first
    | with_reducible assumption
    | with_reducible exact Frame.refl _ _ _
    | intro _
    | apply Eq.refl true
    | apply Eq.refl (_ : Nat)
    | exact FrameO.fault
    | with_reducible apply FrameO.next
    | with_reducible apply Frame.step (g := frame_wakeLatch ..)
    | with_reducible apply Frame.ite
    | with_reducible apply FrameO.ite
    | split

theorem frame_execWakeRetry (dom : Nat) (railOk : Bool) (s : State) : FrameO 81918 5444517870735015415413993718908291383295 s (execWakeRetry dom railOk s) := by
  dsimp only [execWakeRetry, ok]
  repeat' first
    | with_reducible assumption
    | with_reducible exact Frame.refl _ _ _
    | intro _
    | apply Eq.refl true
    | apply Eq.refl (_ : Nat)
    | exact FrameO.fault
    | with_reducible apply FrameO.next
    | with_reducible apply Frame.step (g := frame_wakeDone ..)
    | with_reducible apply Frame.step (g := frame_wakeLatch ..)
    | with_reducible apply Frame.ite
    | with_reducible apply FrameO.ite
    | split

theorem frame_execSpareBistDone (dom : Nat) (s : State) : FrameO 8192 340282366920938463463374607431768211456 s (execSpareBistDone dom s) := by
  dsimp only [execSpareBistDone, ok]
  repeat' first
    | with_reducible assumption
    | with_reducible exact Frame.refl _ _ _
    | intro _
    | apply Eq.refl true
    | apply Eq.refl (_ : Nat)
    | exact FrameO.fault
    | with_reducible apply FrameO.next
    | with_reducible apply Frame.step (g := frame_showCoreSpare ..)
    | with_reducible apply Frame.step (g := frame_showSliceSpare ..)
    | with_reducible apply Frame.ite
    | with_reducible apply Frame.mk_upd
    | with_reducible apply FrameO.ite
    | (apply Or.inl; apply Eq.refl true)
    | (apply Or.inr; exact rfl)
    | (with_reducible_and_instances rfl)
    | split

end Sys2Proof.Laws
end

