-- ==== Sys2Proof/Laws/FrameBoot.lean ====
section
/-! SUPPORT. What each operation of Machine/Boot.lean may change, as a frame (Laws/Frame.lean): the parts and registers by their bits. -/

namespace Sys2Proof.Laws

open Sys2Proof.Machine

theorem frame_setStage (s : State) (n : Nat) : Frame 0 81129638414606681695789005144064 s (setStage s n) := by
  dsimp only [setStage, ok]
  repeat' first
    | with_reducible assumption
    | with_reducible exact Frame.refl _ _ _
    | intro _
    | apply Eq.refl true
    | apply Eq.refl (_ : Nat)
    | with_reducible apply Frame.put
    | with_reducible apply Frame.ite
    | split

theorem frame_tryImages (s : State) : Frame 81790 127649518336487302341892946380078452736 s (tryImages s) := by
  dsimp only [tryImages, ok]
  repeat' first
    | with_reducible assumption
    | with_reducible exact Frame.refl _ _ _
    | intro _
    | apply Eq.refl true
    | apply Eq.refl (_ : Nat)
    | with_reducible apply Frame.step (g := frame_startStop ..)
    | with_reducible apply Frame.ite
    | split

theorem Frame.onBoot {ps rs : Nat} {s0 s : State} {f : Boot → Boot} (h : Frame ps rs s0 s) (hp : ps.testBit 11 = true)
    (hf : ∀ b, (f b).flash = b.flash) (hm : ∀ b, (f b).mirror = b.mirror) : Frame ps rs s0 (onBoot s f) :=
  h.upd rfl rfl rfl rfl rfl rfl rfl rfl (hf _) rfl rfl (hm _) ⟨.inr rfl, .inr rfl, .inr rfl, .inr rfl, .inr rfl, .inr rfl, .inr rfl,
    .inr rfl, .inr rfl, .inr rfl, .inr rfl, .inl hp, .inr rfl, .inr rfl, .inr rfl, .inr rfl, .inr rfl⟩


theorem frame_leaveWait (s : State) : Frame 1024 81129638414606681695789005144064 s (leaveWait s) := by
  dsimp only [leaveWait, ok]
  repeat' first
    | with_reducible assumption
    | with_reducible exact Frame.refl _ _ _
    | intro _
    | apply Eq.refl true
    | apply Eq.refl (_ : Nat)
    | with_reducible apply Frame.step (g := frame_enqueueWakes ..)
    | with_reducible apply Frame.step (g := frame_setStage ..)
    | with_reducible apply Frame.ite
    | split

theorem frame_startBegin (s : State) : Frame 81790 4551320450567964156579126296143726645271 s (startBegin s) := by
  dsimp only [startBegin, ok]
  repeat' first
    | with_reducible assumption
    | with_reducible exact Frame.refl _ _ _
    | intro _
    | apply Eq.refl true
    | apply Eq.refl (_ : Nat)
    | with_reducible apply Frame.put
    | with_reducible apply Frame.bump
    | with_reducible apply Frame.step (g := frame_setStage ..)
    | with_reducible apply Frame.step (g := frame_bistDone ..)
    | with_reducible apply Frame.step (g := frame_hbmDone ..)
    | with_reducible apply Frame.step (g := frame_bankChange ..)
    | with_reducible apply Frame.step (g := frame_tryImages ..)
    | with_reducible apply Frame.step (g := frame_setPwr ..)
    | with_reducible apply Frame.onBoot
    | (with_reducible_and_instances rfl)
    | with_reducible apply Frame.ite
    | with_reducible apply Frame.mk_upd
    | (apply Or.inl; apply Eq.refl true)
    | (apply Or.inr; exact rfl)
    | (with_reducible_and_instances rfl)
    | split

theorem frame_loseWork (s : State) : Frame 10239 0 s (loseWork s) := by
  exact (Frame.refl _ _ s).updI rfl rfl rfl (fun i => ⟨⟨List.Pairwise.nil, by rintro kv ⟨⟩⟩, rfl, i.flash, i.hold, i.hist, i.mirror⟩)
    ⟨.inl rfl, .inl rfl, .inl rfl, .inl rfl, .inl rfl, .inl rfl, .inl rfl, .inl rfl, .inl rfl, .inl rfl, .inl rfl, .inr rfl, .inr rfl, .inl rfl, .inr rfl, .inr rfl, .inr rfl⟩

theorem frame_allOff (s : State) (n : Nat) : Frame 0 41538374880367879224390262380822528 s (allOff s n) := by
  dsimp only [allOff, ok]
  repeat' first
    | with_reducible assumption
    | with_reducible exact Frame.refl _ _ _
    | intro _
    | apply Eq.refl true
    | apply Eq.refl (_ : Nat)
    | with_reducible apply Frame.step (g := frame_setDomain ..)
    | with_reducible apply Frame.step (g := frame_setLanes ..)
    | with_reducible apply Frame.step (g := frame_setPortState ..)
    | with_reducible apply Frame.foldl
    | with_reducible apply Frame.foldl2
    | with_reducible apply Frame.ite
    | split

theorem frame_warmClear (s : State) : Frame 10239 1361124924424002635879323465542784778239 s (warmClear s) := by
  dsimp only [warmClear, ok]
  repeat' first
    | with_reducible assumption
    | with_reducible exact Frame.refl _ _ _
    | intro _
    | apply Eq.refl true
    | apply Eq.refl (_ : Nat)
    | with_reducible apply Frame.put
    | with_reducible apply Frame.step (g := frame_resetRegs ..)
    | with_reducible apply Frame.step (g := frame_loseWork ..)
    | with_reducible apply Frame.step (g := frame_setDomain ..)
    | with_reducible apply Frame.step (g := frame_allOff ..)
    | with_reducible apply Frame.ite
    | split

theorem frame_warmReset (s : State) : Frame 81919 5444515274586586148000179453660126773247 s (warmReset s) := by
  dsimp only [warmReset, ok]
  repeat' first
    | with_reducible assumption
    | with_reducible exact Frame.refl _ _ _
    | intro _
    | apply Eq.refl true
    | apply Eq.refl (_ : Nat)
    | with_reducible apply Frame.step (g := frame_startBegin ..)
    | with_reducible apply Frame.step (g := frame_warmClear ..)
    | with_reducible apply Frame.ite
    | split

theorem frame_execWarmReset (s : State) : FrameO 81919 5444515274586586148000179453660126773247 s (execWarmReset s) := by
  dsimp only [execWarmReset, ok]
  repeat' first
    | with_reducible assumption
    | with_reducible exact Frame.refl _ _ _
    | intro _
    | apply Eq.refl true
    | apply Eq.refl (_ : Nat)
    | exact FrameO.fault
    | with_reducible apply FrameO.next
    | with_reducible apply Frame.step (g := frame_warmReset ..)
    | with_reducible apply Frame.onBoot
    | (with_reducible_and_instances rfl)
    | with_reducible apply Frame.ite
    | with_reducible apply Frame.mk_upd
    | with_reducible apply FrameO.ite
    | (apply Or.inl; apply Eq.refl true)
    | (apply Or.inr; exact rfl)
    | (with_reducible_and_instances rfl)
    | split

theorem frame_coldDrop (s : State) : Frame 10368 1361124924424002635879323465542784778239 s (coldDrop s) := by
  refine ⟨rfl, ⟨.inr rfl, .inr rfl, .inr rfl, .inr rfl, .inr rfl, .inr rfl, .inr rfl, .inl rfl, .inr rfl, .inr rfl, .inr rfl, .inl rfl, .inr rfl, .inl rfl, .inr rfl, .inr rfl, .inr rfl⟩, fun r k i j w => ?_, fun x => ⟨x.dram, x.sram, x.flash, Nat.zero_le _, x.hist, x.mirror⟩⟩
  have b : r.inBank = true := by
    revert k
    cases r <;> decide
  simp [State.word, coldDrop, b]

theorem frame_coldClear (s : State) : Frame 12287 1361124924424002635879323465542784778239 s (coldClear s) := by
  dsimp only [coldClear, ok]
  repeat' first
    | with_reducible assumption
    | with_reducible exact Frame.refl _ _ _
    | intro _
    | apply Eq.refl true
    | apply Eq.refl (_ : Nat)
    | with_reducible apply Frame.step (g := frame_allOff ..)
    | with_reducible apply Frame.step (g := frame_coldDrop ..)
    | with_reducible apply Frame.step (g := frame_loseWork ..)
    | with_reducible apply Frame.ite
    | split

theorem frame_adoptBank (s : State) (b : Bank) (hb : Inv s → b.hist.length ≤ 256) : Frame 4096 4083392946311012779534670253365506605056 s (adoptBank s b) := by
  refine ⟨rfl, ⟨.inr rfl, .inr rfl, .inr rfl, .inr rfl, .inr rfl, .inr rfl, .inr rfl, .inr rfl, .inr rfl, .inr rfl, .inr rfl, .inr rfl, .inl rfl, .inr rfl, .inr rfl, .inr rfl, .inr rfl⟩, fun r k i j w => ?_, fun x => ⟨x.dram, x.sram, x.flash, x.hold, hb x, x.mirror⟩⟩
  have n : r.inBank = false := by
    revert k
    cases r <;> decide
  simp [State.word, adoptBank, n]

theorem bestCopy_mem {l : List (Nat × Bank)} {b : Bank} (h : bestCopy l = some b) : ∃ n, (n, b) ∈ l := by
  induction l with
  | nil => cases h
  | cons x l ih =>
    obtain ⟨n, c⟩ := x
    dsimp only [bestCopy] at h
    split at h
    · cases h; exact ⟨n, .head _⟩
    · rename_i c' e
      split at h
      · cases h
        obtain ⟨m, hm⟩ := ih e
        exact ⟨m, .tail _ hm⟩
      · cases h; exact ⟨n, .head _⟩

theorem frame_bankCheck (s : State) (bankOk : Bool) (bias : SMap Nat) : Frame 77828 4210998857357900807555679658841428983808 s (bankCheck s bankOk bias) := by
  dsimp only [bankCheck]
  refine .ite (fun _ => (Frame.refl _ _ s).put rfl) (fun _ => ?_)
  split
  · rename_i b e
    refine Frame.step (g := frame_post ..) (Frame.put ((frame_adoptBank _ _ fun i => ?_).mono rfl rfl) rfl) rfl rfl
    obtain ⟨n, hn⟩ := bestCopy_mem e
    exact i.mirror _ hn
  · refine Frame.step (g := frame_post ..) (Frame.put (Frame.step (g := frame_adoptBank _ _ fun _ => ?_) ?_ rfl rfl) rfl) rfl rfl
    rotate_left
    · exact Nat.zero_le _
    · exact (Frame.refl _ _ s).upd rfl rfl rfl rfl rfl rfl rfl rfl rfl rfl rfl rfl ⟨.inr rfl, .inr rfl, .inr rfl, .inr rfl, .inr rfl, .inr rfl, .inr rfl, .inr rfl, .inr rfl, .inr rfl, .inr rfl, .inr rfl, .inr rfl, .inl rfl, .inr rfl, .inr rfl, .inr rfl⟩

theorem frame_coldReset (s : State) (bankOk : Bool) : Frame 81919 5444517870735015415413993718908291383295 s (coldReset s bankOk) := by
  dsimp only [coldReset, ok]
  repeat' first
    | with_reducible assumption
    | with_reducible exact Frame.refl _ _ _
    | intro _
    | apply Eq.refl true
    | apply Eq.refl (_ : Nat)
    | with_reducible apply Frame.step (g := frame_startBegin ..)
    | with_reducible apply Frame.step (g := frame_bankCheck ..)
    | with_reducible apply Frame.step (g := frame_coldClear ..)
    | with_reducible apply Frame.ite
    | split

theorem frame_execColdReset (bankOk : Bool) (s : State) : FrameO 81919 5444517870735015415413993718908291383295 s (execColdReset bankOk s) := by
  dsimp only [execColdReset, ok]
  repeat' first
    | with_reducible assumption
    | with_reducible exact Frame.refl _ _ _
    | intro _
    | apply Eq.refl true
    | apply Eq.refl (_ : Nat)
    | exact FrameO.fault
    | with_reducible apply FrameO.next
    | with_reducible apply Frame.step (g := frame_coldReset ..)
    | with_reducible apply Frame.onBoot
    | (with_reducible_and_instances rfl)
    | with_reducible apply Frame.ite
    | with_reducible apply Frame.mk_upd
    | with_reducible apply FrameO.ite
    | (apply Or.inl; apply Eq.refl true)
    | (apply Or.inr; exact rfl)
    | (with_reducible_and_instances rfl)
    | split

theorem frame_execStandbyLoss (s : State) : FrameO 12287 1361124924424002635879323465542784778239 s (execStandbyLoss s) := by
  dsimp only [execStandbyLoss, ok]
  repeat' first
    | with_reducible assumption
    | with_reducible exact Frame.refl _ _ _
    | intro _
    | apply Eq.refl true
    | apply Eq.refl (_ : Nat)
    | exact FrameO.fault
    | with_reducible apply FrameO.next
    | with_reducible apply Frame.step (g := frame_coldClear ..)
    | with_reducible apply Frame.onBoot
    | (with_reducible_and_instances rfl)
    | with_reducible apply Frame.ite
    | with_reducible apply Frame.mk_upd
    | with_reducible apply FrameO.ite
    | (apply Or.inl; apply Eq.refl true)
    | (apply Or.inr; exact rfl)
    | (with_reducible_and_instances rfl)
    | split

theorem frame_execMainInputGood (s : State) : FrameO 3072 81129638414606681695789005144064 s (execMainInputGood s) := by
  dsimp only [execMainInputGood, ok]
  repeat' first
    | with_reducible assumption
    | with_reducible exact Frame.refl _ _ _
    | intro _
    | apply Eq.refl true
    | apply Eq.refl (_ : Nat)
    | exact FrameO.fault
    | with_reducible apply FrameO.next
    | with_reducible apply Frame.step (g := frame_leaveWait ..)
    | with_reducible apply Frame.onBoot
    | (with_reducible_and_instances rfl)
    | with_reducible apply Frame.ite
    | with_reducible apply Frame.mk_upd
    | with_reducible apply FrameO.ite
    | (apply Or.inl; apply Eq.refl true)
    | (apply Or.inr; exact rfl)
    | (with_reducible_and_instances rfl)
    | split

theorem frame_execPerstDeassert (s : State) : FrameO 3072 81129638414606681695789005144064 s (execPerstDeassert s) := by
  dsimp only [execPerstDeassert, ok]
  repeat' first
    | with_reducible assumption
    | with_reducible exact Frame.refl _ _ _
    | intro _
    | apply Eq.refl true
    | apply Eq.refl (_ : Nat)
    | exact FrameO.fault
    | with_reducible apply FrameO.next
    | with_reducible apply Frame.step (g := frame_leaveWait ..)
    | with_reducible apply Frame.onBoot
    | (with_reducible_and_instances rfl)
    | with_reducible apply Frame.ite
    | with_reducible apply Frame.mk_upd
    | with_reducible apply FrameO.ite
    | (apply Or.inl; apply Eq.refl true)
    | (apply Or.inr; exact rfl)
    | (with_reducible_and_instances rfl)
    | split

theorem frame_powerFatal (s : State) (code extra : Nat) : Frame 81790 127649518336487302341892946380078452736 s (powerFatal s code extra) := by
  dsimp only [powerFatal, ok]
  repeat' first
    | with_reducible assumption
    | with_reducible exact Frame.refl _ _ _
    | intro _
    | apply Eq.refl true
    | apply Eq.refl (_ : Nat)
    | with_reducible apply Frame.step (g := frame_fatal ..)
    | with_reducible apply Frame.step (g := frame_setPwr ..)
    | with_reducible apply Frame.ite
    | with_reducible apply Frame.mk_upd
    | (apply Or.inl; apply Eq.refl true)
    | (apply Or.inr; exact rfl)
    | (with_reducible_and_instances rfl)
    | split

theorem frame_regulatorsStop (s : State) (code extra : Nat) : Frame 81790 127649518336487302341892946380078452736 s (regulatorsStop s code extra) := by
  dsimp only [regulatorsStop, ok]
  repeat' first
    | with_reducible assumption
    | with_reducible exact Frame.refl _ _ _
    | intro _
    | apply Eq.refl true
    | apply Eq.refl (_ : Nat)
    | with_reducible apply Frame.put
    | with_reducible apply Frame.step (g := frame_powerFatal ..)
    | with_reducible apply Frame.step (g := frame_powerOff ..)
    | with_reducible apply Frame.step (g := frame_setPwr ..)
    | with_reducible apply Frame.ite
    | with_reducible apply Frame.mk_upd
    | (apply Or.inl; apply Eq.refl true)
    | (apply Or.inr; exact rfl)
    | (with_reducible_and_instances rfl)
    | split

theorem frame_execUndervoltageLockout (vinMv : Nat) (s : State) : FrameO 81790 127649518336487302341892946380078452736 s (execUndervoltageLockout vinMv s) := by
  dsimp only [execUndervoltageLockout, ok]
  repeat' first
    | with_reducible assumption
    | with_reducible exact Frame.refl _ _ _
    | intro _
    | apply Eq.refl true
    | apply Eq.refl (_ : Nat)
    | exact FrameO.fault
    | with_reducible apply FrameO.next
    | with_reducible apply Frame.step (g := frame_regulatorsStop ..)
    | with_reducible apply Frame.onBoot
    | (with_reducible_and_instances rfl)
    | with_reducible apply Frame.ite
    | with_reducible apply Frame.mk_upd
    | with_reducible apply FrameO.ite
    | (apply Or.inl; apply Eq.refl true)
    | (apply Or.inr; exact rfl)
    | (with_reducible_and_instances rfl)
    | split

theorem frame_execInputLowTimeout (vinMv : Nat) (s : State) : FrameO 81790 127649518336487302341892946380078452736 s (execInputLowTimeout vinMv s) := by
  dsimp only [execInputLowTimeout, ok]
  repeat' first
    | with_reducible assumption
    | with_reducible exact Frame.refl _ _ _
    | intro _
    | apply Eq.refl true
    | apply Eq.refl (_ : Nat)
    | exact FrameO.fault
    | with_reducible apply FrameO.next
    | with_reducible apply Frame.step (g := frame_powerFatal ..)
    | with_reducible apply Frame.ite
    | with_reducible apply FrameO.ite
    | split

theorem frame_execHardThermalTrip (tile tempC : Nat) (s : State) : FrameO 81790 127649518336487302341892946380078452736 s (execHardThermalTrip tile tempC s) := by
  dsimp only [execHardThermalTrip, ok]
  repeat' first
    | with_reducible assumption
    | with_reducible exact Frame.refl _ _ _
    | intro _
    | apply Eq.refl true
    | apply Eq.refl (_ : Nat)
    | exact FrameO.fault
    | with_reducible apply FrameO.next
    | with_reducible apply Frame.step (g := frame_regulatorsStop ..)
    | with_reducible apply Frame.ite
    | with_reducible apply Frame.mk_upd
    | with_reducible apply FrameO.ite
    | (apply Or.inl; apply Eq.refl true)
    | (apply Or.inr; exact rfl)
    | (with_reducible_and_instances rfl)
    | split

theorem frame_loadImage (s : State) (img : Nat) : Frame 3072 2352759514023593769177881149177856 s (loadImage s img) := by
  dsimp only [loadImage, ok]
  repeat' first
    | with_reducible assumption
    | with_reducible exact Frame.refl _ _ _
    | intro _
    | apply Eq.refl true
    | apply Eq.refl (_ : Nat)
    | with_reducible apply Frame.put
    | with_reducible apply Frame.step (g := frame_setAttempts ..)
    | with_reducible apply Frame.step (g := frame_setBad ..)
    | with_reducible apply Frame.step (g := frame_showImage ..)
    | with_reducible apply Frame.step (g := frame_leaveWait ..)
    | with_reducible apply Frame.step (g := frame_setStage ..)
    | with_reducible apply Frame.onBoot
    | (with_reducible_and_instances rfl)
    | with_reducible apply Frame.ite
    | with_reducible apply Frame.mk_upd
    | (apply Or.inl; apply Eq.refl true)
    | (apply Or.inr; exact rfl)
    | (with_reducible_and_instances rfl)
    | split

theorem frame_execImageLoadDone (keyOk sigOk : Bool) (s : State) : FrameO 81790 127649842855040960768619729536099028992 s (execImageLoadDone keyOk sigOk s) := by
  dsimp only [execImageLoadDone, ok]
  repeat' first
    | with_reducible assumption
    | with_reducible exact Frame.refl _ _ _
    | intro _
    | apply Eq.refl true
    | apply Eq.refl (_ : Nat)
    | exact FrameO.fault
    | with_reducible apply FrameO.next
    | with_reducible apply Frame.step (g := frame_startStop ..)
    | with_reducible apply Frame.step (g := frame_loadImage ..)
    | with_reducible apply Frame.step (g := frame_tryImages ..)
    | with_reducible apply Frame.step (g := frame_post ..)
    | with_reducible apply Frame.step (g := frame_setBad ..)
    | with_reducible apply Frame.ite
    | with_reducible apply FrameO.ite
    | split

theorem frame_execFirmwareWatchdog (s : State) : FrameO 81919 5444515274586586148000179453660126773247 s (execFirmwareWatchdog s) := by
  dsimp only [execFirmwareWatchdog, ok]
  repeat' first
    | with_reducible assumption
    | with_reducible exact Frame.refl _ _ _
    | intro _
    | apply Eq.refl true
    | apply Eq.refl (_ : Nat)
    | exact FrameO.fault
    | with_reducible apply FrameO.next
    | with_reducible apply Frame.step (g := frame_startBegin ..)
    | with_reducible apply Frame.step (g := frame_warmClear ..)
    | with_reducible apply Frame.step (g := frame_startStop ..)
    | with_reducible apply Frame.ite
    | with_reducible apply FrameO.ite
    | split

theorem frame_showDegradedStart (s : State) : Frame 0 81129638414606681695789005144065 s (showDegradedStart s) := by
  dsimp only [showDegradedStart, ok]
  repeat' first
    | with_reducible assumption
    | with_reducible exact Frame.refl _ _ _
    | intro _
    | apply Eq.refl true
    | apply Eq.refl (_ : Nat)
    | with_reducible apply Frame.put
    | with_reducible apply Frame.ite
    | split

theorem frame_showDomainUnits (s : State) (d : Nat) : Frame 81790 4551320288308687327365762904565716357143 s (showDomainUnits s d) := by
  dsimp only [showDomainUnits, ok]
  repeat' first
    | with_reducible assumption
    | with_reducible exact Frame.refl _ _ _
    | intro _
    | apply Eq.refl true
    | apply Eq.refl (_ : Nat)
    | with_reducible apply Frame.step (g := frame_bistDone ..)
    | with_reducible apply Frame.step (g := frame_showCounts ..)
    | with_reducible apply Frame.step (g := frame_showCorePos ..)
    | with_reducible apply Frame.step (g := frame_showSlicePos ..)
    | with_reducible apply Frame.foldl
    | with_reducible apply Frame.foldl2
    | with_reducible apply Frame.ite
    | split

theorem frame_mapOutDomain (s : State) (d : Nat) : Frame 81790 4551320450567964156579126296143726645271 s (mapOutDomain s d) := by
  dsimp only [mapOutDomain, ok]
  repeat' first
    | with_reducible assumption
    | with_reducible exact Frame.refl _ _ _
    | intro _
    | apply Eq.refl true
    | apply Eq.refl (_ : Nat)
    | with_reducible apply Frame.put
    | with_reducible apply Frame.step (g := frame_engineOut ..)
    | with_reducible apply Frame.step (g := frame_showDegradedStart ..)
    | with_reducible apply Frame.step (g := frame_showDomainUnits ..)
    | with_reducible apply Frame.step (g := frame_post ..)
    | with_reducible apply Frame.onBoot
    | (with_reducible_and_instances rfl)
    | with_reducible apply Frame.foldl
    | with_reducible apply Frame.foldl2
    | with_reducible apply Frame.ite
    | with_reducible apply Frame.mk_upd
    | (apply Or.inl; apply Eq.refl true)
    | (apply Or.inr; exact rfl)
    | (with_reducible_and_instances rfl)
    | split

theorem frame_leaveRamp (s : State) : Frame 0 340282448050770306201771104641029767168 s (leaveRamp s) := by
  dsimp only [leaveRamp, ok]
  repeat' first
    | with_reducible assumption
    | with_reducible exact Frame.refl _ _ _
    | intro _
    | apply Eq.refl true
    | apply Eq.refl (_ : Nat)
    | with_reducible apply Frame.step (g := frame_showOptics ..)
    | with_reducible apply Frame.step (g := frame_showEngines ..)
    | with_reducible apply Frame.step (g := frame_setStage ..)
    | with_reducible apply Frame.foldl
    | with_reducible apply Frame.foldl2
    | with_reducible apply Frame.ite
    | split

theorem frame_startUp (s : State) (d : Nat) : Frame 81790 4551320288308880755496901245233669345303 s (startUp s d) := by
  dsimp only [startUp, ok]
  repeat' first
    | with_reducible assumption
    | with_reducible exact Frame.refl _ _ _
    | intro _
    | apply Eq.refl true
    | apply Eq.refl (_ : Nat)
    | with_reducible apply Frame.step (g := frame_setDomain ..)
    | with_reducible apply Frame.step (g := frame_tryImages ..)
    | with_reducible apply Frame.step (g := frame_showOptics ..)
    | with_reducible apply Frame.step (g := frame_leaveRamp ..)
    | with_reducible apply Frame.step (g := frame_showDomainUnits ..)
    | with_reducible apply Frame.foldl
    | with_reducible apply Frame.foldl2
    | with_reducible apply Frame.ite
    | split

theorem frame_softLatch (s : State) (d : Nat) : Frame 81790 4551323046716586852124078902059844243479 s (softLatch s d) := by
  dsimp only [softLatch, ok]
  repeat' first
    | with_reducible assumption
    | with_reducible exact Frame.refl _ _ _
    | intro _
    | apply Eq.refl true
    | apply Eq.refl (_ : Nat)
    | with_reducible apply Frame.orBit
    | with_reducible apply Frame.step (g := frame_stick ..)
    | with_reducible apply Frame.step (g := frame_setDomain ..)
    | with_reducible apply Frame.step (g := frame_endRamp ..)
    | with_reducible apply Frame.step (g := frame_post ..)
    | with_reducible apply Frame.step (g := frame_leaveRamp ..)
    | with_reducible apply Frame.step (g := frame_startStop ..)
    | with_reducible apply Frame.step (g := frame_mapOutDomain ..)
    | with_reducible apply Frame.onBoot
    | (with_reducible_and_instances rfl)
    | with_reducible apply Frame.ite
    | with_reducible apply Frame.mk_upd
    | (apply Or.inl; apply Eq.refl true)
    | (apply Or.inr; exact rfl)
    | (with_reducible_and_instances rfl)
    | split

theorem frame_execDomainRampEnd (dom : Nat) (railOk : Bool) (s : State) : FrameO 81790 4551406123466323409366135390001111765015 s (execDomainRampEnd dom railOk s) := by
  dsimp only [execDomainRampEnd, ok]
  repeat' first
    | with_reducible assumption
    | with_reducible exact Frame.refl _ _ _
    | intro _
    | apply Eq.refl true
    | apply Eq.refl (_ : Nat)
    | exact FrameO.fault
    | with_reducible apply FrameO.next
    | with_reducible apply Frame.step (g := frame_endRamp ..)
    | with_reducible apply Frame.step (g := frame_wakeLatch ..)
    | with_reducible apply Frame.step (g := frame_startUp ..)
    | with_reducible apply Frame.step (g := frame_softLatch ..)
    | with_reducible apply Frame.onBoot
    | (with_reducible_and_instances rfl)
    | with_reducible apply Frame.ite
    | with_reducible apply Frame.mk_upd
    | with_reducible apply FrameO.ite
    | (apply Or.inl; apply Eq.refl true)
    | (apply Or.inr; exact rfl)
    | (with_reducible_and_instances rfl)
    | split

theorem frame_execCurrentLimitTimeout (dom : Nat) (s : State) : FrameO 81790 4551406123466323409366135390001111765015 s (execCurrentLimitTimeout dom s) := by
  dsimp only [execCurrentLimitTimeout, ok]
  repeat' first
    | with_reducible assumption
    | with_reducible exact Frame.refl _ _ _
    | intro _
    | apply Eq.refl true
    | apply Eq.refl (_ : Nat)
    | exact FrameO.fault
    | with_reducible apply FrameO.next
    | with_reducible apply Frame.step (g := frame_wakeLatch ..)
    | with_reducible apply Frame.step (g := frame_softLatch ..)
    | with_reducible apply Frame.ite
    | with_reducible apply FrameO.ite
    | split

theorem frame_execSoftStartRetry (dom : Nat) (railOk : Bool) (s : State) : FrameO 81790 4551323046716586852124078902059844243479 s (execSoftStartRetry dom railOk s) := by
  dsimp only [execSoftStartRetry, ok]
  repeat' first
    | with_reducible assumption
    | with_reducible exact Frame.refl _ _ _
    | intro _
    | apply Eq.refl true
    | apply Eq.refl (_ : Nat)
    | exact FrameO.fault
    | with_reducible apply FrameO.next
    | with_reducible apply Frame.step (g := frame_startUp ..)
    | with_reducible apply Frame.step (g := frame_softLatch ..)
    | with_reducible apply Frame.ite
    | with_reducible apply FrameO.ite
    | split

end Sys2Proof.Laws
end

