-- ==== Sys2Proof/Laws/FrameStartUnits.lean ====
section
/-! SUPPORT. What each operation of Machine/StartUnits.lean may change, as a frame (Laws/Frame.lean): the parts and registers by their bits. -/

namespace Sys2Proof.Laws

open Sys2Proof.Machine

theorem frame_bistFail (s : State) (u : Nat) : Frame 8192 4083389052088368878413948855493259689984 s (bistFail s u) := by
  dsimp only [bistFail, ok]
  repeat' first
    | with_reducible assumption
    | with_reducible exact Frame.refl _ _ _
    | intro _
    | apply Eq.refl true
    | apply Eq.refl (_ : Nat)
    | with_reducible apply Frame.bumpSat
    | with_reducible apply Frame.step (g := frame_setMark ..)
    | with_reducible apply Frame.step (g := frame_bankChange ..)
    | with_reducible apply Frame.ite
    | split

theorem frame_mapOutUnit (s : State) (bit u left : Nat) : Frame 77828 127606641213633759481144667576968675329 s (mapOutUnit s bit u left).2 := by
  dsimp only [mapOutUnit, ok]
  repeat' first
    | with_reducible assumption
    | with_reducible exact Frame.refl _ _ _
    | intro _
    | apply Eq.refl true
    | apply Eq.refl (_ : Nat)
    | with_reducible apply Frame.step (g := frame_post ..)
    | with_reducible apply Frame.step (g := frame_showDegradedStart ..)
    | with_reducible apply Frame.ite
    | with_reducible apply Frame.pairIte
    | split

theorem frame_replaceCoreAtStart (s : State) (p : Nat) : Frame 77828 1488736108897387613334643097304041521153 s (replaceCoreAtStart s p).2 := by
  dsimp only [replaceCoreAtStart, ok]
  repeat' first
    | with_reducible assumption
    | with_reducible exact Frame.refl _ _ _
    | intro _
    | apply Eq.refl true
    | apply Eq.refl (_ : Nat)
    | with_reducible apply Frame.bumpSat
    | with_reducible apply Frame.step (g := frame_setCorePos ..)
    | with_reducible apply Frame.step (g := frame_post ..)
    | with_reducible apply Frame.step (g := frame_mapOutUnit ..)
    | with_reducible apply Frame.eqSnd (e := by assumption)
    | with_reducible apply Frame.ite
    | with_reducible apply Frame.pairIte
    | split

theorem frame_replaceSliceAtStart (s : State) (p : Nat) : Frame 77828 2849865576581141467188141527031114366977 s (replaceSliceAtStart s p).2 := by
  dsimp only [replaceSliceAtStart, ok]
  repeat' first
    | with_reducible assumption
    | with_reducible exact Frame.refl _ _ _
    | intro _
    | apply Eq.refl true
    | apply Eq.refl (_ : Nat)
    | with_reducible apply Frame.bumpSat
    | with_reducible apply Frame.step (g := frame_setSlicePos ..)
    | with_reducible apply Frame.step (g := frame_post ..)
    | with_reducible apply Frame.step (g := frame_mapOutUnit ..)
    | with_reducible apply Frame.eqSnd (e := by assumption)
    | with_reducible apply Frame.ite
    | with_reducible apply Frame.pairIte
    | split

theorem frame_dpuAtStart (s : State) (n d : Nat) : Frame 77828 1488736108897387613334643097304041521153 s (dpuAtStart s n d).2 := by
  dsimp only [dpuAtStart, ok]
  repeat' first
    | with_reducible assumption
    | with_reducible exact Frame.refl _ _ _
    | intro _
    | apply Eq.refl true
    | apply Eq.refl (_ : Nat)
    | with_reducible apply Frame.step (g := frame_bankChange ..)
    | with_reducible apply Frame.step (g := frame_post ..)
    | with_reducible apply Frame.step (g := frame_replaceCoreAtStart ..)
    | with_reducible apply Frame.step (g := frame_setMark ..)
    | with_reducible apply Frame.eqSnd (e := by assumption)
    | with_reducible apply Frame.ite
    | with_reducible apply Frame.pairIte
    | with_reducible apply Frame.mk_upd
    | (apply Or.inl; apply Eq.refl true)
    | (apply Or.inr; exact rfl)
    | (with_reducible_and_instances rfl)
    | split

theorem Frame.tryAll {ps rs : Nat} {s0 s : State} {α : Type} {f : State → α → Tried} {l : List α} (h : Frame ps rs s0 s)
    (hf : ∀ u a, Frame ps rs s0 u → Frame ps rs s0 (f u a).2) : Frame ps rs s0 (tryAll f l s).2 := by
  induction l generalizing s with
  | nil => exact h
  | cons a l ih =>
    dsimp only [Machine.tryAll]
    split
    · rename_i e; exact (hf s a h).eqSnd e
    · rename_i e; exact ih ((hf s a h).eqSnd e)

theorem frame_bistDone (s : State) (cores slices : List Nat) (dpus : List (Nat × Nat)) : Frame 81790 4551320288308687327365762904565716357143 s (bistDone s cores slices dpus) := by
  dsimp only [bistDone, ok]
  repeat' first
    | with_reducible assumption
    | with_reducible exact Frame.refl _ _ _
    | intro _
    | apply Eq.refl true
    | apply Eq.refl (_ : Nat)
    | with_reducible apply Frame.put
    | with_reducible apply Frame.step (g := frame_bistFail ..)
    | with_reducible apply Frame.step (g := frame_replaceCoreAtStart ..)
    | with_reducible apply Frame.step (g := frame_dpuAtStart ..)
    | with_reducible apply Frame.step (g := frame_replaceSliceAtStart ..)
    | with_reducible apply Frame.step (g := frame_startStop ..)
    | with_reducible apply Frame.step (g := frame_showMap ..)
    | with_reducible apply Frame.step (g := frame_hbmDone ..)
    | with_reducible apply Frame.step (g := frame_showActive ..)
    | with_reducible apply Frame.eqSnd (e := by assumption)
    | with_reducible apply Frame.eqSnd (e := by assumption)
    | with_reducible apply Frame.tryAll
    | with_reducible apply Frame.onBoot
    | (with_reducible_and_instances rfl)
    | with_reducible apply Frame.foldl
    | with_reducible apply Frame.foldl2
    | with_reducible apply Frame.ite
    | with_reducible apply Frame.pairIte
    | with_reducible apply Frame.mk_upd
    | (apply Or.inl; apply Eq.refl true)
    | (apply Or.inr; exact rfl)
    | (with_reducible_and_instances rfl)
    | split

theorem frame_execUnitBistDone (badCores badSlices : List Nat) (badDpus : List (Nat × Nat)) (s : State) : FrameO 81790 4551320288308687327365762904565716357143 s (execUnitBistDone badCores badSlices badDpus s) := by
  dsimp only [execUnitBistDone, ok]
  repeat' first
    | with_reducible assumption
    | with_reducible exact Frame.refl _ _ _
    | intro _
    | apply Eq.refl true
    | apply Eq.refl (_ : Nat)
    | exact FrameO.fault
    | with_reducible apply FrameO.next
    | with_reducible apply Frame.step (g := frame_bistDone ..)
    | with_reducible apply Frame.ite
    | with_reducible apply FrameO.ite
    | with_reducible apply Frame.pairIte
    | split

theorem frame_chanAtStart (s : State) (n : Nat) : Frame 77828 127606641213633759481144667576968675329 s (chanAtStart s n).2 := by
  dsimp only [chanAtStart, ok]
  repeat' first
    | with_reducible assumption
    | with_reducible exact Frame.refl _ _ _
    | intro _
    | apply Eq.refl true
    | apply Eq.refl (_ : Nat)
    | with_reducible apply Frame.step (g := frame_bankChange ..)
    | with_reducible apply Frame.step (g := frame_post ..)
    | with_reducible apply Frame.step (g := frame_showDegradedStart ..)
    | with_reducible apply Frame.ite
    | with_reducible apply Frame.pairIte
    | with_reducible apply Frame.mk_upd
    | (apply Or.inl; apply Eq.refl true)
    | (apply Or.inr; exact rfl)
    | (with_reducible_and_instances rfl)
    | split

theorem frame_showChannel (s : State) (n : Nat) : Frame 0 52776558133248 s (showChannel s n) := by
  dsimp only [showChannel, ok]
  repeat' first
    | with_reducible assumption
    | with_reducible exact Frame.refl _ _ _
    | intro _
    | apply Eq.refl true
    | apply Eq.refl (_ : Nat)
    | with_reducible apply Frame.put
    | with_reducible apply Frame.ite
    | split

theorem frame_hbmDone (s : State) (bad : List Nat) : Frame 81790 127649518336487302341893007952729608193 s (hbmDone s bad) := by
  dsimp only [hbmDone, ok]
  repeat' first
    | with_reducible assumption
    | with_reducible exact Frame.refl _ _ _
    | intro _
    | apply Eq.refl true
    | apply Eq.refl (_ : Nat)
    | with_reducible apply Frame.put
    | with_reducible apply Frame.step (g := frame_chanAtStart ..)
    | with_reducible apply Frame.step (g := frame_startStop ..)
    | with_reducible apply Frame.step (g := frame_showChannel ..)
    | with_reducible apply Frame.step (g := frame_showActive ..)
    | with_reducible apply Frame.step (g := frame_showSpace ..)
    | with_reducible apply Frame.eqSnd (e := by assumption)
    | with_reducible apply Frame.eqSnd (e := by assumption)
    | with_reducible apply Frame.tryAll
    | with_reducible apply Frame.onBoot
    | (with_reducible_and_instances rfl)
    | with_reducible apply Frame.foldl
    | with_reducible apply Frame.foldl2
    | with_reducible apply Frame.ite
    | with_reducible apply Frame.pairIte
    | with_reducible apply Frame.mk_upd
    | (apply Or.inl; apply Eq.refl true)
    | (apply Or.inr; exact rfl)
    | (with_reducible_and_instances rfl)
    | split

theorem frame_execHbmTrainingDone (badChannels : List Nat) (s : State) : FrameO 81790 127649518336487302341893007952729608193 s (execHbmTrainingDone badChannels s) := by
  dsimp only [execHbmTrainingDone, ok]
  repeat' first
    | with_reducible assumption
    | with_reducible exact Frame.refl _ _ _
    | intro _
    | apply Eq.refl true
    | apply Eq.refl (_ : Nat)
    | exact FrameO.fault
    | with_reducible apply FrameO.next
    | with_reducible apply Frame.step (g := frame_hbmDone ..)
    | with_reducible apply Frame.ite
    | with_reducible apply FrameO.ite
    | split

theorem frame_imageValues (s : State) (c : ImageCfg) : Frame 0 1661534994733562785002710101515042816 s (imageValues s c) := by
  dsimp only [imageValues, ok]
  repeat' first
    | with_reducible assumption
    | with_reducible exact Frame.refl _ _ _
    | intro _
    | apply Eq.refl true
    | apply Eq.refl (_ : Nat)
    | with_reducible apply Frame.put
    | with_reducible apply Frame.foldl
    | with_reducible apply Frame.foldl2
    | with_reducible apply Frame.ite
    | split

theorem frame_becomeReady (s : State) (c : ImageCfg) (bootMs : Nat) : Frame 2048 42537689189762441691492426031696969728 s (becomeReady s c bootMs) := by
  dsimp only [becomeReady, ok]
  repeat' first
    | with_reducible assumption
    | with_reducible exact Frame.refl _ _ _
    | intro _
    | apply Eq.refl true
    | apply Eq.refl (_ : Nat)
    | with_reducible apply Frame.put
    | with_reducible apply Frame.step (g := frame_clearAttempts ..)
    | with_reducible apply Frame.step (g := frame_setStage ..)
    | with_reducible apply Frame.step (g := frame_cxlShow ..)
    | with_reducible apply Frame.onBoot
    | (with_reducible_and_instances rfl)
    | with_reducible apply Frame.ite
    | with_reducible apply Frame.mk_upd
    | (apply Or.inl; apply Eq.refl true)
    | (apply Or.inr; exact rfl)
    | (with_reducible_and_instances rfl)
    | split

theorem frame_execStartJoin (bootMs : Nat) (s : State) : FrameO 81790 4552982147822281615735674513633627344919 s (execStartJoin bootMs s) := by
  dsimp only [execStartJoin, ok]
  repeat' first
    | with_reducible assumption
    | with_reducible exact Frame.refl _ _ _
    | intro _
    | apply Eq.refl true
    | apply Eq.refl (_ : Nat)
    | exact FrameO.fault
    | with_reducible apply FrameO.next
    | with_reducible apply Frame.step (g := frame_bistDone ..)
    | with_reducible apply Frame.step (g := frame_hbmDone ..)
    | with_reducible apply Frame.step (g := frame_becomeReady ..)
    | with_reducible apply Frame.step (g := frame_imageValues ..)
    | with_reducible apply Frame.ite
    | with_reducible apply FrameO.ite
    | split

theorem frame_execCellMeasure (mv : Nat) (s : State) : FrameO 77828 127606560083995344874462971787963531264 s (execCellMeasure mv s) := by
  dsimp only [execCellMeasure, ok]
  repeat' first
    | with_reducible assumption
    | with_reducible exact Frame.refl _ _ _
    | intro _
    | apply Eq.refl true
    | apply Eq.refl (_ : Nat)
    | exact FrameO.fault
    | with_reducible apply FrameO.next
    | with_reducible apply Frame.put
    | with_reducible apply Frame.step (g := frame_bankChange ..)
    | with_reducible apply Frame.step (g := frame_post ..)
    | with_reducible apply Frame.ite
    | with_reducible apply FrameO.ite
    | split

theorem frame_execBankMirrorCopy (s : State) : FrameO 2048 0 s (execBankMirrorCopy s) := by
  dsimp only [execBankMirrorCopy, ok]
  refine .ite (fun _ => .next ?_) (fun _ => .next (.refl _ _ _))
  refine (Frame.refl _ _ s).updI rfl rfl rfl (fun i => ⟨i.dram, i.sram, i.flash, i.hold, i.hist, fun m hm => ?_⟩) ⟨.inr rfl, .inr rfl, .inr rfl, .inr rfl, .inr rfl, .inr rfl, .inr rfl, .inr rfl, .inr rfl, .inr rfl, .inr rfl, .inl rfl, .inr rfl, .inr rfl, .inr rfl, .inr rfl, .inr rfl⟩
  rcases mem_smapInsert hm with rfl | hm
  · exact i.hist
  · exact i.mirror m hm

theorem frame_litHour (s : State) : Frame 4096 0 s (litHour s) := by
  dsimp only [litHour, ok]
  repeat' first
    | with_reducible assumption
    | with_reducible exact Frame.refl _ _ _
    | intro _
    | apply Eq.refl true
    | apply Eq.refl (_ : Nat)
    | with_reducible apply Frame.foldl
    | with_reducible apply Frame.foldl2
    | with_reducible apply Frame.ite
    | with_reducible apply Frame.mk_upd
    | (apply Or.inl; apply Eq.refl true)
    | (apply Or.inr; exact rfl)
    | (with_reducible_and_instances rfl)
    | split

theorem frame_execWearSave (s : State) : FrameO 4096 4083389052088368878413948855493259689984 s (execWearSave s) := by
  dsimp only [execWearSave, ok]
  repeat' first
    | with_reducible assumption
    | with_reducible exact Frame.refl _ _ _
    | intro _
    | apply Eq.refl true
    | apply Eq.refl (_ : Nat)
    | exact FrameO.fault
    | with_reducible apply FrameO.next
    | with_reducible apply Frame.bumpSat
    | with_reducible apply Frame.step (g := frame_bankChange ..)
    | with_reducible apply Frame.step (g := frame_litHour ..)
    | with_reducible apply Frame.foldl
    | with_reducible apply Frame.foldl2
    | with_reducible apply Frame.ite
    | with_reducible apply FrameO.ite
    | split

end Sys2Proof.Laws
end

