-- ==== Sys2Proof/Laws/FrameMgmt.lean ====
section
/-! SUPPORT. What each operation of Machine/Mgmt.lean may change, as a frame (Laws/Frame.lean): the parts and registers by their bits. -/

namespace Sys2Proof.Laws

open Sys2Proof.Machine

theorem frame_mgmtSay (s : State) (m : MgmtMsg) : Frame 65536 0 s (mgmtSay s m) := by
  dsimp only [mgmtSay, ok]
  repeat' first
    | with_reducible assumption
    | with_reducible exact Frame.refl _ _ _
    | intro _
    | apply Eq.refl true
    | apply Eq.refl (_ : Nat)
    | with_reducible apply Frame.ite
    | with_reducible apply Frame.mk_upd
    | (apply Or.inl; apply Eq.refl true)
    | (apply Or.inr; exact rfl)
    | (with_reducible_and_instances rfl)
    | split

theorem frame_accept (s : State) : Frame 77828 127606560083995344874462971787963531264 s (accept s) := by
  dsimp only [accept, ok]
  repeat' first
    | with_reducible assumption
    | with_reducible exact Frame.refl _ _ _
    | intro _
    | apply Eq.refl true
    | apply Eq.refl (_ : Nat)
    | with_reducible apply Frame.step (g := frame_mgmtSay ..)
    | with_reducible apply Frame.step (g := frame_accepted ..)
    | with_reducible apply Frame.ite
    | split

theorem frame_refuse (s : State) : Frame 65536 0 s (refuse s) := by
  dsimp only [refuse, ok]
  repeat' first
    | with_reducible assumption
    | with_reducible exact Frame.refl _ _ _
    | intro _
    | apply Eq.refl true
    | apply Eq.refl (_ : Nat)
    | with_reducible apply Frame.step (g := frame_mgmtSay ..)
    | with_reducible apply Frame.ite
    | split

theorem frame_execModuleResetWarm (s : State) : FrameO 81919 5444515274586586148000179453660126773247 s (execModuleResetWarm s) := by
  dsimp only [execModuleResetWarm, ok, served]
  repeat' first
    | with_reducible assumption
    | with_reducible exact Frame.refl _ _ _
    | intro _
    | apply Eq.refl true
    | apply Eq.refl (_ : Nat)
    | exact FrameO.fault
    | with_reducible apply FrameO.next
    | with_reducible apply Frame.step (g := frame_warmReset ..)
    | with_reducible apply Frame.step (g := frame_accept ..)
    | with_reducible apply Frame.onBoot
    | (with_reducible_and_instances rfl)
    | with_reducible apply Frame.ite
    | with_reducible apply Frame.mk_upd
    | with_reducible apply FrameO.ite
    | (apply Or.inl; apply Eq.refl true)
    | (apply Or.inr; exact rfl)
    | (with_reducible_and_instances rfl)
    | split

theorem frame_execModuleResetCold (bankOk : Bool) (s : State) : FrameO 81919 5444517870735015415413993718908291383295 s (execModuleResetCold bankOk s) := by
  dsimp only [execModuleResetCold, ok, served]
  repeat' first
    | with_reducible assumption
    | with_reducible exact Frame.refl _ _ _
    | intro _
    | apply Eq.refl true
    | apply Eq.refl (_ : Nat)
    | exact FrameO.fault
    | with_reducible apply FrameO.next
    | with_reducible apply Frame.step (g := frame_coldReset ..)
    | with_reducible apply Frame.step (g := frame_accept ..)
    | with_reducible apply Frame.onBoot
    | (with_reducible_and_instances rfl)
    | with_reducible apply Frame.ite
    | with_reducible apply Frame.mk_upd
    | with_reducible apply FrameO.ite
    | (apply Or.inl; apply Eq.refl true)
    | (apply Or.inr; exact rfl)
    | (with_reducible_and_instances rfl)
    | split

theorem frame_execGetStateEffecterStates (s : State) : FrameO 65536 0 s (execGetStateEffecterStates s) := by
  dsimp only [execGetStateEffecterStates, ok, served]
  repeat' first
    | with_reducible assumption
    | with_reducible exact Frame.refl _ _ _
    | intro _
    | apply Eq.refl true
    | apply Eq.refl (_ : Nat)
    | exact FrameO.fault
    | with_reducible apply FrameO.next
    | with_reducible apply Frame.step (g := frame_mgmtSay ..)
    | with_reducible apply Frame.ite
    | with_reducible apply FrameO.ite
    | split

theorem frame_execGetStateSensorReadings (s : State) : FrameO 65536 0 s (execGetStateSensorReadings s) := by
  dsimp only [execGetStateSensorReadings, ok, served]
  repeat' first
    | with_reducible assumption
    | with_reducible exact Frame.refl _ _ _
    | intro _
    | apply Eq.refl true
    | apply Eq.refl (_ : Nat)
    | exact FrameO.fault
    | with_reducible apply FrameO.next
    | with_reducible apply Frame.step (g := frame_mgmtSay ..)
    | with_reducible apply Frame.ite
    | with_reducible apply FrameO.ite
    | split

theorem frame_execSetPreferred (img : Nat) (s : State) : FrameO 77828 127607939287848393188051800201050980352 s (execSetPreferred img s) := by
  dsimp only [execSetPreferred, ok, served]
  repeat' first
    | with_reducible assumption
    | with_reducible exact Frame.refl _ _ _
    | intro _
    | apply Eq.refl true
    | apply Eq.refl (_ : Nat)
    | exact FrameO.fault
    | with_reducible apply FrameO.next
    | with_reducible apply Frame.step (g := frame_accept ..)
    | with_reducible apply Frame.step (g := frame_setPref ..)
    | with_reducible apply Frame.ite
    | with_reducible apply FrameO.ite
    | split

theorem frame_execClearFaultHistory (s : State) : FrameO 77828 127606560083995344874462971787963531264 s (execClearFaultHistory s) := by
  dsimp only [execClearFaultHistory, ok, served]
  refine .ite (fun _ => .next ?_) (fun _ => .next (.refl _ _ _))
  refine Frame.step (g := frame_accept ..) (Frame.step (g := frame_bankChange ..) ?_ rfl rfl) rfl rfl
  exact (Frame.refl _ _ s).updI rfl rfl rfl (fun i => ⟨i.dram, i.sram, i.flash, i.hold, Nat.zero_le _, i.mirror⟩) ⟨.inr rfl, .inr rfl, .inr rfl, .inr rfl, .inr rfl, .inr rfl, .inr rfl, .inr rfl, .inr rfl, .inr rfl, .inr rfl, .inr rfl, .inl rfl, .inr rfl, .inr rfl, .inr rfl, .inr rfl⟩

theorem frame_execClearSoftstartSticky (s : State) : FrameO 77828 127609156232424612288277237036128141312 s (execClearSoftstartSticky s) := by
  dsimp only [execClearSoftstartSticky, ok, served]
  repeat' first
    | with_reducible assumption
    | with_reducible exact Frame.refl _ _ _
    | intro _
    | apply Eq.refl true
    | apply Eq.refl (_ : Nat)
    | exact FrameO.fault
    | with_reducible apply FrameO.next
    | with_reducible apply Frame.put
    | with_reducible apply Frame.step (g := frame_accept ..)
    | with_reducible apply Frame.step (g := frame_bankChange ..)
    | with_reducible apply Frame.ite
    | with_reducible apply FrameO.ite
    | split

theorem frame_setFw (s : State) (f : FwState) : Frame 2048 0 s (setFw s f) := by
  dsimp only [setFw, ok]
  repeat' first
    | with_reducible assumption
    | with_reducible exact Frame.refl _ _ _
    | intro _
    | apply Eq.refl true
    | apply Eq.refl (_ : Nat)
    | with_reducible apply Frame.onBoot
    | (with_reducible_and_instances rfl)
    | with_reducible apply Frame.ite
    | with_reducible apply Frame.mk_upd
    | (apply Or.inl; apply Eq.refl true)
    | (apply Or.inr; exact rfl)
    | (with_reducible_and_instances rfl)
    | split

theorem frame_execRequestUpdate (s : State) : FrameO 79876 127606560083995344874462971787963531264 s (execRequestUpdate s) := by
  dsimp only [execRequestUpdate, ok, served]
  repeat' first
    | with_reducible assumption
    | with_reducible exact Frame.refl _ _ _
    | intro _
    | apply Eq.refl true
    | apply Eq.refl (_ : Nat)
    | exact FrameO.fault
    | with_reducible apply FrameO.next
    | with_reducible apply Frame.step (g := frame_accept ..)
    | with_reducible apply Frame.step (g := frame_setFw ..)
    | with_reducible apply Frame.step (g := frame_refuse ..)
    | with_reducible apply Frame.ite
    | with_reducible apply FrameO.ite
    | split

theorem frame_execPassComponentTable (slot : Nat) (s : State) : FrameO 79876 127606560083995344874462971787963531264 s (execPassComponentTable slot s) := by
  dsimp only [execPassComponentTable, ok, served]
  repeat' first
    | with_reducible assumption
    | with_reducible exact Frame.refl _ _ _
    | intro _
    | apply Eq.refl true
    | apply Eq.refl (_ : Nat)
    | exact FrameO.fault
    | with_reducible apply FrameO.next
    | with_reducible apply Frame.step (g := frame_accept ..)
    | with_reducible apply Frame.step (g := frame_setFw ..)
    | with_reducible apply Frame.step (g := frame_refuse ..)
    | with_reducible apply Frame.onBoot
    | (with_reducible_and_instances rfl)
    | with_reducible apply Frame.ite
    | with_reducible apply Frame.mk_upd
    | with_reducible apply FrameO.ite
    | (apply Or.inl; apply Eq.refl true)
    | (apply Or.inr; exact rfl)
    | (with_reducible_and_instances rfl)
    | split

theorem frame_execUpdateComponent (slot : Nat) (s : State) : FrameO 79876 127606560083995344874462971787963531264 s (execUpdateComponent slot s) := by
  dsimp only [execUpdateComponent, ok, served]
  repeat' first
    | with_reducible assumption
    | with_reducible exact Frame.refl _ _ _
    | intro _
    | apply Eq.refl true
    | apply Eq.refl (_ : Nat)
    | exact FrameO.fault
    | with_reducible apply FrameO.next
    | with_reducible apply Frame.step (g := frame_accept ..)
    | with_reducible apply Frame.step (g := frame_setFw ..)
    | with_reducible apply Frame.step (g := frame_refuse ..)
    | with_reducible apply Frame.onBoot
    | (with_reducible_and_instances rfl)
    | with_reducible apply Frame.ite
    | with_reducible apply Frame.mk_upd
    | with_reducible apply FrameO.ite
    | (apply Or.inl; apply Eq.refl true)
    | (apply Or.inr; exact rfl)
    | (with_reducible_and_instances rfl)
    | split

theorem frame_execRequestFirmwareData (off : Nat) (data : List Byte) (s : State) : FrameO 79876 127606560083995344874462971787963531264 s (execRequestFirmwareData off data s) := by
  dsimp only [execRequestFirmwareData, ok, served]
  repeat' first
    | with_reducible assumption
    | with_reducible exact Frame.refl _ _ _
    | intro _
    | apply Eq.refl true
    | apply Eq.refl (_ : Nat)
    | exact FrameO.fault
    | with_reducible apply FrameO.next
    | with_reducible apply Frame.step (g := frame_flashWrite ..)
    | with_reducible apply Frame.step (g := frame_accept ..)
    | with_reducible apply Frame.step (g := frame_refuse ..)
    | with_reducible apply Frame.onBoot
    | (with_reducible_and_instances rfl)
    | with_reducible apply Frame.ite
    | with_reducible apply Frame.mk_upd
    | with_reducible apply FrameO.ite
    | (apply Or.inl; apply Eq.refl true)
    | (apply Or.inr; exact rfl)
    | (with_reducible_and_instances rfl)
    | split

theorem frame_execTransferComplete (s : State) : FrameO 79876 127606560083995344874462971787963531264 s (execTransferComplete s) := by
  dsimp only [execTransferComplete, ok, fwStep, served]
  repeat' first
    | with_reducible assumption
    | with_reducible exact Frame.refl _ _ _
    | intro _
    | apply Eq.refl true
    | apply Eq.refl (_ : Nat)
    | exact FrameO.fault
    | with_reducible apply FrameO.next
    | with_reducible apply Frame.step (g := frame_accept ..)
    | with_reducible apply Frame.step (g := frame_refuse ..)
    | with_reducible apply Frame.step (g := frame_setFw ..)
    | with_reducible apply Frame.ite
    | with_reducible apply FrameO.ite
    | split

theorem frame_execVerifyComplete (keyOk sigOk : Bool) (s : State) : FrameO 79876 127607858158209978581370104412045836288 s (execVerifyComplete keyOk sigOk s) := by
  dsimp only [execVerifyComplete, ok, served]
  repeat' first
    | with_reducible assumption
    | with_reducible exact Frame.refl _ _ _
    | intro _
    | apply Eq.refl true
    | apply Eq.refl (_ : Nat)
    | exact FrameO.fault
    | with_reducible apply FrameO.next
    | with_reducible apply Frame.step (g := frame_accept ..)
    | with_reducible apply Frame.step (g := frame_setFw ..)
    | with_reducible apply Frame.step (g := frame_setAttempts ..)
    | with_reducible apply Frame.step (g := frame_setBad ..)
    | with_reducible apply Frame.step (g := frame_refuse ..)
    | with_reducible apply Frame.ite
    | with_reducible apply FrameO.ite
    | split

theorem frame_execApplyComplete (s : State) : FrameO 79876 127606560083995344874462971787963531264 s (execApplyComplete s) := by
  dsimp only [execApplyComplete, ok, fwStep, served]
  repeat' first
    | with_reducible assumption
    | with_reducible exact Frame.refl _ _ _
    | intro _
    | apply Eq.refl true
    | apply Eq.refl (_ : Nat)
    | exact FrameO.fault
    | with_reducible apply FrameO.next
    | with_reducible apply Frame.step (g := frame_accept ..)
    | with_reducible apply Frame.step (g := frame_refuse ..)
    | with_reducible apply Frame.step (g := frame_setFw ..)
    | with_reducible apply Frame.ite
    | with_reducible apply FrameO.ite
    | split

theorem frame_execActivateFirmware (s : State) : FrameO 79876 127607939287848393188051800201050980352 s (execActivateFirmware s) := by
  dsimp only [execActivateFirmware, ok, fwStep, served]
  repeat' first
    | with_reducible assumption
    | with_reducible exact Frame.refl _ _ _
    | intro _
    | apply Eq.refl true
    | apply Eq.refl (_ : Nat)
    | exact FrameO.fault
    | with_reducible apply FrameO.next
    | with_reducible apply Frame.step (g := frame_accept ..)
    | with_reducible apply Frame.step (g := frame_refuse ..)
    | with_reducible apply Frame.step (g := frame_setFw ..)
    | with_reducible apply Frame.step (g := frame_setPref ..)
    | with_reducible apply Frame.ite
    | with_reducible apply FrameO.ite
    | split

theorem frame_execGetStatus (s : State) : FrameO 65536 0 s (execGetStatus s) := by
  dsimp only [execGetStatus, ok, served]
  repeat' first
    | with_reducible assumption
    | with_reducible exact Frame.refl _ _ _
    | intro _
    | apply Eq.refl true
    | apply Eq.refl (_ : Nat)
    | exact FrameO.fault
    | with_reducible apply FrameO.next
    | with_reducible apply Frame.step (g := frame_mgmtSay ..)
    | with_reducible apply Frame.ite
    | with_reducible apply FrameO.ite
    | split

theorem frame_execCancelUpdate (s : State) : FrameO 79876 127606560083995344874462971787963531264 s (execCancelUpdate s) := by
  dsimp only [execCancelUpdate, ok, fwStep, served]
  repeat' first
    | with_reducible assumption
    | with_reducible exact Frame.refl _ _ _
    | intro _
    | apply Eq.refl true
    | apply Eq.refl (_ : Nat)
    | exact FrameO.fault
    | with_reducible apply FrameO.next
    | with_reducible apply Frame.step (g := frame_accept ..)
    | with_reducible apply Frame.step (g := frame_refuse ..)
    | with_reducible apply Frame.step (g := frame_setFw ..)
    | with_reducible apply Frame.ite
    | with_reducible apply FrameO.ite
    | split

theorem frame_execJtagAccess (s : State) : FrameO 65536 0 s (execJtagAccess s) := by
  dsimp only [execJtagAccess, ok, served]
  repeat' first
    | with_reducible assumption
    | with_reducible exact Frame.refl _ _ _
    | intro _
    | apply Eq.refl true
    | apply Eq.refl (_ : Nat)
    | exact FrameO.fault
    | with_reducible apply FrameO.next
    | with_reducible apply Frame.step (g := frame_mgmtSay ..)
    | with_reducible apply Frame.ite
    | with_reducible apply FrameO.ite
    | split

theorem frame_execI3cDynamicAddress (addr : Nat) (s : State) : FrameO 2048 0 s (execI3cDynamicAddress addr s) := by
  dsimp only [execI3cDynamicAddress, ok, served]
  repeat' first
    | with_reducible assumption
    | with_reducible exact Frame.refl _ _ _
    | intro _
    | apply Eq.refl true
    | apply Eq.refl (_ : Nat)
    | exact FrameO.fault
    | with_reducible apply FrameO.next
    | with_reducible apply Frame.onBoot
    | (with_reducible_and_instances rfl)
    | with_reducible apply Frame.ite
    | with_reducible apply Frame.mk_upd
    | with_reducible apply FrameO.ite
    | (apply Or.inl; apply Eq.refl true)
    | (apply Or.inr; exact rfl)
    | (with_reducible_and_instances rfl)
    | split

end Sys2Proof.Laws
end

