-- ==== Sys2Proof/Laws/FramePower.lean ====
section
/-! SUPPORT. What each operation of Machine/Power.lean may change, as a frame (Laws/Frame.lean): the parts and registers by their bits. -/

namespace Sys2Proof.Laws

open Sys2Proof.Machine

theorem frame_drainTile (s : State) (t : Nat) : Frame 65540 4398046511104 s (drainTile s t) := by
  dsimp only [drainTile, ok]
  repeat' first
    | with_reducible assumption
    | with_reducible exact Frame.refl _ _ _
    | intro _
    | apply Eq.refl true
    | apply Eq.refl (_ : Nat)
    | with_reducible apply Frame.put
    | with_reducible apply Frame.step (g := frame_hlDrain ..)
    | with_reducible apply Frame.foldl
    | with_reducible apply Frame.foldl2
    | with_reducible apply Frame.ite
    | split

theorem frame_beginTransition (s : State) (d target : Nat) : Frame 66564 41538374868278621028248368680271872 s (beginTransition s d target) := by
  dsimp only [beginTransition, ok]
  repeat' first
    | with_reducible assumption
    | with_reducible exact Frame.refl _ _ _
    | intro _
    | apply Eq.refl true
    | apply Eq.refl (_ : Nat)
    | with_reducible apply Frame.put
    | with_reducible apply Frame.step (g := frame_enqueueWakes ..)
    | with_reducible apply Frame.step (g := frame_drainTile ..)
    | with_reducible apply Frame.ite
    | split

theorem frame_markCmd (s : State) (d : Nat) : Frame 1024 0 s (markCmd s d) := by
  dsimp only [markCmd, ok]
  repeat' first
    | with_reducible assumption
    | with_reducible exact Frame.refl _ _ _
    | intro _
    | apply Eq.refl true
    | apply Eq.refl (_ : Nat)
    | with_reducible apply Frame.step (g := frame_setPwr ..)
    | with_reducible apply Frame.ite
    | with_reducible apply Frame.mk_upd
    | (apply Or.inl; apply Eq.refl true)
    | (apply Or.inr; exact rfl)
    | (with_reducible_and_instances rfl)
    | split

theorem frame_startCmd (s : State) (d : Nat) (c : PwrCmd) : Frame 66564 124615758430135977199437058299396096 s (startCmd s d c) := by
  dsimp only [startCmd, ok]
  repeat' first
    | with_reducible assumption
    | with_reducible exact Frame.refl _ _ _
    | intro _
    | apply Eq.refl true
    | apply Eq.refl (_ : Nat)
    | with_reducible apply Frame.put
    | with_reducible apply Frame.step (g := frame_markCmd ..)
    | with_reducible apply Frame.step (g := frame_pwrAnswer ..)
    | with_reducible apply Frame.step (g := frame_beginTransition ..)
    | with_reducible apply Frame.ite
    | split

theorem frame_setLate (s : State) (d v : Nat) : Frame 0 124615124604835863084731911901282304 s (setLate s d v) := by
  dsimp only [setLate, ok]
  repeat' first
    | with_reducible assumption
    | with_reducible exact Frame.refl _ _ _
    | intro _
    | apply Eq.refl true
    | apply Eq.refl (_ : Nat)
    | with_reducible apply Frame.put
    | with_reducible apply Frame.ite
    | split

theorem frame_takeCmd (s : State) (d : Nat) (atEn : Bool) (c : PwrCmd) : Frame 66564 124615758430135977199437058299396096 s (takeCmd s d atEn c) := by
  dsimp only [takeCmd, ok]
  repeat' first
    | with_reducible assumption
    | with_reducible exact Frame.refl _ _ _
    | intro _
    | apply Eq.refl true
    | apply Eq.refl (_ : Nat)
    | with_reducible apply Frame.put
    | with_reducible apply Frame.step (g := frame_setLate ..)
    | with_reducible apply Frame.step (g := frame_setPwr ..)
    | with_reducible apply Frame.step (g := frame_startCmd ..)
    | with_reducible apply Frame.ite
    | with_reducible apply Frame.mk_upd
    | (apply Or.inl; apply Eq.refl true)
    | (apply Or.inr; exact rfl)
    | (with_reducible_and_instances rfl)
    | split

theorem frame_submit (s : State) (d : Nat) (atEn : Bool) (c : PwrCmd) : Frame 66564 124615758430135977199437058299396096 s (submit s d atEn c) := by
  dsimp only [submit, ok]
  repeat' first
    | with_reducible assumption
    | with_reducible exact Frame.refl _ _ _
    | intro _
    | apply Eq.refl true
    | apply Eq.refl (_ : Nat)
    | with_reducible apply Frame.put
    | with_reducible apply Frame.step (g := frame_takeCmd ..)
    | with_reducible apply Frame.step (g := frame_pwrAnswer ..)
    | with_reducible apply Frame.ite
    | split

theorem frame_domWrite (s : State) (d target seq : Nat) (atEn evEn : Bool) (event : Nat) : Frame 66564 135000352147205632456498050957836288 s (domWrite s d target seq atEn evEn event) := by
  dsimp only [domWrite, ok]
  repeat' first
    | with_reducible assumption
    | with_reducible exact Frame.refl _ _ _
    | intro _
    | apply Eq.refl true
    | apply Eq.refl (_ : Nat)
    | with_reducible apply Frame.put
    | with_reducible apply Frame.step (g := frame_submit ..)
    | with_reducible apply Frame.ite
    | split

theorem frame_pstateWrite (s : State) (target seq : Nat) (atEn evEn : Bool) (event : Nat) : Frame 66564 124615758430135977199437058299396096 s (pstateWrite s target seq atEn evEn event) := by
  dsimp only [pstateWrite, ok]
  repeat' first
    | with_reducible assumption
    | with_reducible exact Frame.refl _ _ _
    | intro _
    | apply Eq.refl true
    | apply Eq.refl (_ : Nat)
    | with_reducible apply Frame.put
    | with_reducible apply Frame.step (g := frame_submit ..)
    | with_reducible apply Frame.ite
    | split

theorem frame_execDomainCmdOn (dom seq : Nat) (atEn evEn : Bool) (event : Nat) (s : State) : FrameO 66565 135000352147205632456498050957836288 s (execDomainCmdOn dom seq atEn evEn event s) := by
  dsimp only [execDomainCmdOn, ok]
  repeat' first
    | with_reducible assumption
    | with_reducible exact Frame.refl _ _ _
    | intro _
    | apply Eq.refl true
    | apply Eq.refl (_ : Nat)
    | exact FrameO.fault
    | with_reducible apply FrameO.next
    | with_reducible apply Frame.step (g := frame_domWrite ..)
    | with_reducible apply Frame.step (g := frame_wideWrite ..)
    | with_reducible apply FrameO.bar0
    | with_reducible apply Frame.ite
    | with_reducible apply FrameO.ite
    | split

theorem frame_execDomainCmdClockGated (dom seq : Nat) (atEn evEn : Bool) (event : Nat) (s : State) : FrameO 66565 135000352147205632456498050957836288 s (execDomainCmdClockGated dom seq atEn evEn event s) := by
  dsimp only [execDomainCmdClockGated, ok]
  repeat' first
    | with_reducible assumption
    | with_reducible exact Frame.refl _ _ _
    | intro _
    | apply Eq.refl true
    | apply Eq.refl (_ : Nat)
    | exact FrameO.fault
    | with_reducible apply FrameO.next
    | with_reducible apply Frame.step (g := frame_domWrite ..)
    | with_reducible apply Frame.step (g := frame_wideWrite ..)
    | with_reducible apply FrameO.bar0
    | with_reducible apply Frame.ite
    | with_reducible apply FrameO.ite
    | split

theorem frame_execDomainCmdRetain (dom seq : Nat) (atEn evEn : Bool) (event : Nat) (s : State) : FrameO 66565 135000352147205632456498050957836288 s (execDomainCmdRetain dom seq atEn evEn event s) := by
  dsimp only [execDomainCmdRetain, ok]
  repeat' first
    | with_reducible assumption
    | with_reducible exact Frame.refl _ _ _
    | intro _
    | apply Eq.refl true
    | apply Eq.refl (_ : Nat)
    | exact FrameO.fault
    | with_reducible apply FrameO.next
    | with_reducible apply Frame.step (g := frame_domWrite ..)
    | with_reducible apply Frame.step (g := frame_wideWrite ..)
    | with_reducible apply FrameO.bar0
    | with_reducible apply Frame.ite
    | with_reducible apply FrameO.ite
    | split

theorem frame_execDomainCmdOff (dom seq : Nat) (atEn evEn : Bool) (event : Nat) (s : State) : FrameO 66565 135000352147205632456498050957836288 s (execDomainCmdOff dom seq atEn evEn event s) := by
  dsimp only [execDomainCmdOff, ok]
  repeat' first
    | with_reducible assumption
    | with_reducible exact Frame.refl _ _ _
    | intro _
    | apply Eq.refl true
    | apply Eq.refl (_ : Nat)
    | exact FrameO.fault
    | with_reducible apply FrameO.next
    | with_reducible apply Frame.step (g := frame_domWrite ..)
    | with_reducible apply Frame.step (g := frame_wideWrite ..)
    | with_reducible apply FrameO.bar0
    | with_reducible apply Frame.ite
    | with_reducible apply FrameO.ite
    | split

theorem frame_execPstateCmd (target seq : Nat) (atEn evEn : Bool) (event : Nat) (s : State) : FrameO 66565 124615758430135977199437058299396096 s (execPstateCmd target seq atEn evEn event s) := by
  dsimp only [execPstateCmd, ok]
  repeat' first
    | with_reducible assumption
    | with_reducible exact Frame.refl _ _ _
    | intro _
    | apply Eq.refl true
    | apply Eq.refl (_ : Nat)
    | exact FrameO.fault
    | with_reducible apply FrameO.next
    | with_reducible apply Frame.step (g := frame_pstateWrite ..)
    | with_reducible apply Frame.step (g := frame_wideWrite ..)
    | with_reducible apply FrameO.bar0
    | with_reducible apply Frame.ite
    | with_reducible apply FrameO.ite
    | split

theorem frame_execScheduledCmdStart (dom : Nat) (s : State) : FrameO 66564 124615758430135977199437058299396096 s (execScheduledCmdStart dom s) := by
  dsimp only [execScheduledCmdStart, ok]
  repeat' first
    | with_reducible assumption
    | with_reducible exact Frame.refl _ _ _
    | intro _
    | apply Eq.refl true
    | apply Eq.refl (_ : Nat)
    | exact FrameO.fault
    | with_reducible apply FrameO.next
    | with_reducible apply Frame.step (g := frame_startCmd ..)
    | with_reducible apply Frame.ite
    | with_reducible apply FrameO.ite
    | split

theorem frame_cavernOff (s : State) (t : Nat) : Frame 2 41538374868278621029937218540535813 s (cavernOff s t) := by
  dsimp only [cavernOff, ok]
  repeat' first
    | with_reducible assumption
    | with_reducible exact Frame.refl _ _ _
    | intro _
    | apply Eq.refl true
    | apply Eq.refl (_ : Nat)
    | with_reducible apply Frame.put
    | with_reducible apply Frame.step (g := frame_drainSlice ..)
    | with_reducible apply Frame.step (g := frame_showCounts ..)
    | with_reducible apply Frame.foldl
    | with_reducible apply Frame.foldl2
    | with_reducible apply Frame.ite
    | split

theorem frame_enterLower (s : State) (d target : Nat) : Frame 95102 467930465488946938319477907511696166917 s (enterLower s d target) := by
  dsimp only [enterLower, ok]
  repeat' first
    | with_reducible assumption
    | with_reducible exact Frame.refl _ _ _
    | intro _
    | apply Eq.refl true
    | apply Eq.refl (_ : Nat)
    | with_reducible apply Frame.step (g := frame_setDomain ..)
    | with_reducible apply Frame.step (g := frame_retainCore ..)
    | with_reducible apply Frame.step (g := frame_domainOff ..)
    | with_reducible apply Frame.step (g := frame_glFlush ..)
    | with_reducible apply Frame.step (g := frame_cavernOff ..)
    | with_reducible apply Frame.step (g := frame_showOptics ..)
    | with_reducible apply Frame.foldl
    | with_reducible apply Frame.foldl2
    | with_reducible apply Frame.ite
    | split

theorem frame_execDomainTransitionDone (dom : Nat) (s : State) : FrameO 98302 5444517870735015415413993718908291383295 s (execDomainTransitionDone dom s) := by
  dsimp only [execDomainTransitionDone, ok]
  repeat' first
    | with_reducible assumption
    | with_reducible exact Frame.refl _ _ _
    | intro _
    | apply Eq.refl true
    | apply Eq.refl (_ : Nat)
    | exact FrameO.fault
    | with_reducible apply FrameO.next
    | with_reducible apply Frame.step (g := frame_wakeDone ..)
    | with_reducible apply Frame.step (g := frame_pwrAnswer ..)
    | with_reducible apply Frame.step (g := frame_setDomain ..)
    | with_reducible apply Frame.step (g := frame_enterLower ..)
    | with_reducible apply Frame.ite
    | with_reducible apply FrameO.ite
    | split

theorem frame_execClockGateIdle (dom : Nat) (s : State) : FrameO 0 41538374868278621028243970633760768 s (execClockGateIdle dom s) := by
  dsimp only [execClockGateIdle, ok]
  repeat' first
    | with_reducible assumption
    | with_reducible exact Frame.refl _ _ _
    | intro _
    | apply Eq.refl true
    | apply Eq.refl (_ : Nat)
    | exact FrameO.fault
    | with_reducible apply FrameO.next
    | with_reducible apply Frame.put
    | with_reducible apply Frame.ite
    | with_reducible apply FrameO.ite
    | split

theorem frame_execPstateClockSwitch (s : State) : FrameO 66660 124615758430135977775893412556308480 s (execPstateClockSwitch s) := by
  dsimp only [execPstateClockSwitch, ok]
  repeat' first
    | with_reducible assumption
    | with_reducible exact Frame.refl _ _ _
    | intro _
    | apply Eq.refl true
    | apply Eq.refl (_ : Nat)
    | exact FrameO.fault
    | with_reducible apply FrameO.next
    | with_reducible apply Frame.put
    | with_reducible apply Frame.step (g := frame_pwrAnswer ..)
    | with_reducible apply Frame.step (g := frame_startHead ..)
    | with_reducible apply Frame.foldl
    | with_reducible apply Frame.foldl2
    | with_reducible apply Frame.ite
    | with_reducible apply FrameO.ite
    | split

theorem frame_reasonOn (on : Nat → Bool) (s : State) (k : Nat) : Frame 0 7975367974709495237422842361682067456 s (reasonOn on s k) := by
  dsimp only [reasonOn, ok]
  repeat' first
    | with_reducible assumption
    | with_reducible exact Frame.refl _ _ _
    | intro _
    | apply Eq.refl true
    | apply Eq.refl (_ : Nat)
    | with_reducible apply Frame.put
    | with_reducible apply Frame.bump
    | with_reducible apply Frame.orBit
    | with_reducible apply Frame.ite
    | split

theorem frame_onsets (on : Nat → Bool) (was dw : Nat) (s : State) : Frame 77828 127606560083995344874462971787963531264 s (onsets on was dw s) := by
  dsimp only [onsets, ok]
  repeat' first
    | with_reducible assumption
    | with_reducible exact Frame.refl _ _ _
    | intro _
    | apply Eq.refl true
    | apply Eq.refl (_ : Nat)
    | with_reducible apply Frame.step (g := frame_post ..)
    | with_reducible apply Frame.foldl
    | with_reducible apply Frame.foldl2
    | with_reducible apply Frame.ite
    | split

theorem frame_throttle (s : State) (on : Nat → Bool) (dw : Nat) : Frame 77828 135581928058704840111885814149645598720 s (throttle s on dw) := by
  dsimp only [throttle, ok]
  repeat' first
    | with_reducible assumption
    | with_reducible exact Frame.refl _ _ _
    | intro _
    | apply Eq.refl true
    | apply Eq.refl (_ : Nat)
    | with_reducible apply Frame.put
    | with_reducible apply Frame.step (g := frame_reasonOn ..)
    | with_reducible apply Frame.step (g := frame_onsets ..)
    | with_reducible apply Frame.foldl
    | with_reducible apply Frame.foldl2
    | with_reducible apply Frame.ite
    | split

theorem frame_giveEnergy (s : State) (c e : Nat) : Frame 1024 10633823966279326983230456482242756608 s (giveEnergy s c e) := by
  dsimp only [giveEnergy, ok]
  repeat' first
    | with_reducible assumption
    | with_reducible exact Frame.refl _ _ _
    | intro _
    | apply Eq.refl true
    | apply Eq.refl (_ : Nat)
    | with_reducible apply Frame.bump
    | with_reducible apply Frame.step (g := frame_setPwr ..)
    | with_reducible apply Frame.ite
    | with_reducible apply Frame.mk_upd
    | (apply Or.inl; apply Eq.refl true)
    | (apply Or.inr; exact rfl)
    | (with_reducible_and_instances rfl)
    | split

theorem frame_giveUnattr (s : State) (e : Nat) : Frame 1024 21267647932558653966460912964485513216 s (giveUnattr s e) := by
  dsimp only [giveUnattr, ok]
  repeat' first
    | with_reducible assumption
    | with_reducible exact Frame.refl _ _ _
    | intro _
    | apply Eq.refl true
    | apply Eq.refl (_ : Nat)
    | with_reducible apply Frame.bump
    | with_reducible apply Frame.step (g := frame_setPwr ..)
    | with_reducible apply Frame.ite
    | with_reducible apply Frame.mk_upd
    | (apply Or.inl; apply Eq.refl true)
    | (apply Or.inr; exact rfl)
    | (with_reducible_and_instances rfl)
    | split

theorem frame_energy (s : State) (p : Nat) (act : List (Nat × Nat)) : Frame 1024 31901471898837980949691369446728269824 s (energy s p act) := by
  dsimp only [energy, ok]
  repeat' first
    | with_reducible assumption
    | with_reducible exact Frame.refl _ _ _
    | intro _
    | apply Eq.refl true
    | apply Eq.refl (_ : Nat)
    | with_reducible apply Frame.step (g := frame_giveUnattr ..)
    | with_reducible apply Frame.step (g := frame_giveEnergy ..)
    | with_reducible apply Frame.foldl
    | with_reducible apply Frame.foldl2
    | with_reducible apply Frame.ite
    | with_reducible apply Frame.pairIte
    | split

theorem frame_capStep (s : State) (p vinMv : Nat) (act : List (Nat × Nat)) : Frame 78852 168480320954381507966255038891584126976 s (capStep s p vinMv act) := by
  dsimp only [capStep, ok]
  repeat' first
    | with_reducible assumption
    | with_reducible exact Frame.refl _ _ _
    | intro _
    | apply Eq.refl true
    | apply Eq.refl (_ : Nat)
    | with_reducible apply Frame.put
    | with_reducible apply Frame.step (g := frame_energy ..)
    | with_reducible apply Frame.step (g := frame_throttle ..)
    | with_reducible apply Frame.foldl
    | with_reducible apply Frame.foldl2
    | with_reducible apply Frame.ite
    | split

theorem frame_execCapInterval (pMw vinMv : Nat) (act : List (Nat × Nat)) (s : State) : FrameO 78852 168480320954381507966255038891584126976 s (execCapInterval pMw vinMv act s) := by
  dsimp only [execCapInterval, ok]
  repeat' first
    | with_reducible assumption
    | with_reducible exact Frame.refl _ _ _
    | intro _
    | apply Eq.refl true
    | apply Eq.refl (_ : Nat)
    | exact FrameO.fault
    | with_reducible apply FrameO.next
    | with_reducible apply Frame.step (g := frame_capStep ..)
    | with_reducible apply Frame.ite
    | with_reducible apply FrameO.ite
    | split

theorem frame_thermTile (s : State) (t temp : Nat) : Frame 0 1329227995784915872903807060280344576 s (thermTile s t temp) := by
  dsimp only [thermTile, ok]
  repeat' first
    | with_reducible assumption
    | with_reducible exact Frame.refl _ _ _
    | intro _
    | apply Eq.refl true
    | apply Eq.refl (_ : Nat)
    | with_reducible apply Frame.put
    | with_reducible apply Frame.ite
    | split

theorem frame_thermShut (s : State) (t temp : Nat) : Frame 81790 127649518336487302341892946380078452736 s (thermShut s t temp) := by
  dsimp only [thermShut, ok]
  repeat' first
    | with_reducible assumption
    | with_reducible exact Frame.refl _ _ _
    | intro _
    | apply Eq.refl true
    | apply Eq.refl (_ : Nat)
    | with_reducible apply Frame.step (g := frame_powerFatal ..)
    | with_reducible apply Frame.step (g := frame_powerOff ..)
    | with_reducible apply Frame.step (g := frame_setPwr ..)
    | with_reducible apply Frame.ite
    | with_reducible apply Frame.mk_upd
    | (apply Or.inl; apply Eq.refl true)
    | (apply Or.inr; exact rfl)
    | (with_reducible_and_instances rfl)
    | split

theorem frame_execThermalInterval (temps : List Nat) (s : State) : FrameO 81790 128978746332272218214796753440358797312 s (execThermalInterval temps s) := by
  dsimp only [execThermalInterval, ok]
  repeat' first
    | with_reducible assumption
    | with_reducible exact Frame.refl _ _ _
    | intro _
    | apply Eq.refl true
    | apply Eq.refl (_ : Nat)
    | exact FrameO.fault
    | with_reducible apply FrameO.next
    | with_reducible apply Frame.step (g := frame_thermTile ..)
    | with_reducible apply Frame.step (g := frame_thermShut ..)
    | with_reducible apply Frame.foldl
    | with_reducible apply Frame.foldl2
    | with_reducible apply Frame.ite
    | with_reducible apply FrameO.ite
    | with_reducible apply Frame.pairIte
    | split

end Sys2Proof.Laws
end

