-- ==== Sys2Proof/Laws/FrameCoreFault.lean ====
section
/-! SUPPORT. What each operation of Machine/CoreFault.lean may change, as a frame (Laws/Frame.lean): the parts and registers by their bits. -/

namespace Sys2Proof.Laws

open Sys2Proof.Machine

theorem frame_abandonJobs (s : State) (id : Nat) : Frame 98 720575940379279360 s (abandonJobs s id) := by
  dsimp only [abandonJobs, ok]
  repeat' first
    | with_reducible assumption
    | with_reducible exact Frame.refl _ _ _
    | intro _
    | apply Eq.refl true
    | apply Eq.refl (_ : Nat)
    | with_reducible apply Frame.step (g := frame_unpark ..)
    | with_reducible apply Frame.step (g := frame_startHead ..)
    | with_reducible apply Frame.step (g := frame_setJobs ..)
    | with_reducible apply Frame.foldl
    | with_reducible apply Frame.foldl2
    | with_reducible apply Frame.ite
    | (apply Or.inl; apply Eq.refl true)
    | (apply Or.inr; exact rfl)
    | (with_reducible_and_instances rfl)
    | split
    | with_reducible apply Frame.mk_upd

theorem frame_replayBlock (s : State) (b : BlockRec) : Frame 114 720575940379283456 s (replayBlock s b) := by
  dsimp only [replayBlock, ok]
  repeat' first
    | with_reducible assumption
    | with_reducible exact Frame.refl _ _ _
    | intro _
    | apply Eq.refl true
    | apply Eq.refl (_ : Nat)
    | with_reducible apply Frame.step (g := frame_updLaunch ..)
    | with_reducible apply Frame.step (g := frame_abandonJobs ..)
    | with_reducible apply Frame.step (g := frame_dropBlock ..)
    | with_reducible apply Frame.ite
    | with_reducible apply Frame.mk_upd
    | (apply Or.inl; apply Eq.refl true)
    | (apply Or.inr; exact rfl)
    | (with_reducible_and_instances rfl)
    | split

theorem frame_faultBlock (s : State) (unit : Nat) (rec : Bool) (b : BlockRec) : Frame 78718 127606560192934678845738875410987356160 s (faultBlock s unit rec b) := by
  dsimp only [faultBlock, ok]
  repeat' first
    | with_reducible assumption
    | with_reducible exact Frame.refl _ _ _
    | intro _
    | apply Eq.refl true
    | apply Eq.refl (_ : Nat)
    | with_reducible apply Frame.step (g := frame_replayBlock ..)
    | with_reducible apply Frame.step (g := frame_post ..)
    | with_reducible apply Frame.step (g := frame_contained ..)
    | with_reducible apply Frame.ite
    | split

theorem frame_spoilGrads (s : State) (m : SegMul) : Frame 95102 127648098567802957466768813110627143680 s (spoilGrads s m) := by
  dsimp only [spoilGrads, ok]
  repeat' first
    | with_reducible assumption
    | with_reducible exact Frame.refl _ _ _
    | intro _
    | apply Eq.refl true
    | apply Eq.refl (_ : Nat)
    | with_reducible apply FrameR.of (g := frame_devPut ..)
    | with_reducible apply Frame.step (g := frame_halt ..)
    | with_reducible apply FrameR.absent
    | with_reducible apply FrameR.eqAbsent (e := by assumption)
    | with_reducible apply FrameR.eqHalt (e := by assumption)
    | with_reducible apply FrameR.eqOk (e := by assumption)
    | with_reducible apply FrameR.halt
    | with_reducible apply FrameR.ite
    | with_reducible apply FrameR.ok
    | with_reducible apply FrameR.then
    | with_reducible apply Frame.foldl
    | with_reducible apply Frame.foldl2
    | with_reducible apply Frame.ite
    | with_reducible apply Frame.pairIte
    | (apply Or.inl; apply Eq.refl true)
    | (apply Or.inr; exact rfl)
    | (with_reducible_and_instances rfl)
    | split
    | with_reducible apply Frame.mk_upd

theorem frame_faultTask (s : State) (unit : Nat) (rec : Bool) (mt : SegMul × SegTask) : Frame 95102 127648098567802957466768813110627143680 s (faultTask s unit rec mt) := by
  dsimp only [faultTask, ok]
  repeat' first
    | with_reducible assumption
    | with_reducible exact Frame.refl _ _ _
    | intro _
    | apply Eq.refl true
    | apply Eq.refl (_ : Nat)
    | with_reducible apply Frame.step (g := frame_contained ..)
    | with_reducible apply Frame.step (g := frame_spoilGrads ..)
    | with_reducible apply Frame.step (g := frame_updSeg ..)
    | with_reducible apply Frame.step (g := frame_unpark ..)
    | with_reducible apply Frame.step (g := frame_post ..)
    | with_reducible apply Frame.ite
    | with_reducible apply Frame.mk_upd
    | (apply Or.inl; apply Eq.refl true)
    | (apply Or.inr; exact rfl)
    | (with_reducible_and_instances rfl)
    | split

theorem frame_faultRoutine (c p : Nat) (s : State) (j : EngJob) : Frame 95102 127648098567802957466768813110627143680 s (faultRoutine c p s j) := by
  dsimp only [faultRoutine, ok]
  repeat' first
    | with_reducible assumption
    | with_reducible exact Frame.refl _ _ _
    | intro _
    | apply Eq.refl true
    | apply Eq.refl (_ : Nat)
    | with_reducible apply Frame.step (g := frame_spoil ..)
    | with_reducible apply Frame.step (g := frame_contained ..)
    | with_reducible apply Frame.step (g := frame_dropJob ..)
    | with_reducible apply Frame.ite
    | split

theorem frame_faultRoutines (s : State) (c p : Nat) : Frame 95102 127648098567802957466768813110627143680 s (faultRoutines s c p) := by
  dsimp only [faultRoutines, ok]
  repeat' first
    | with_reducible assumption
    | with_reducible exact Frame.refl _ _ _
    | intro _
    | apply Eq.refl true
    | apply Eq.refl (_ : Nat)
    | with_reducible apply Frame.step (g := frame_faultRoutine ..)
    | with_reducible apply Frame.foldl
    | with_reducible apply Frame.foldl2
    | with_reducible apply Frame.ite
    | split

theorem frame_vacateCore (s : State) (c : Nat) : Frame 4128 649037107316853453566313114898435 s (vacateCore s c) := by
  dsimp only [vacateCore, ok]
  repeat' first
    | with_reducible assumption
    | with_reducible exact Frame.refl _ _ _
    | intro _
    | apply Eq.refl true
    | apply Eq.refl (_ : Nat)
    | with_reducible apply Frame.put
    | with_reducible apply Frame.step (g := frame_showCounts ..)
    | with_reducible apply Frame.step (g := frame_loseCore ..)
    | with_reducible apply Frame.step (g := frame_setCorePos ..)
    | with_reducible apply Frame.ite
    | split

theorem frame_emptyCore (s : State) (c : Nat) (kept : Bool) : Frame 36 1073745920 s (emptyCore s c kept) := by
  dsimp only [emptyCore, ok]
  repeat' first
    | with_reducible assumption
    | with_reducible exact Frame.refl _ _ _
    | intro _
    | apply Eq.refl true
    | apply Eq.refl (_ : Nat)
    | with_reducible apply Frame.put
    | with_reducible apply Frame.step (g := frame_resetVictim ..)
    | with_reducible apply Frame.step (g := frame_loseCore ..)
    | with_reducible apply Frame.step (g := frame_setFlags ..)
    | with_reducible apply Frame.ite
    | with_reducible apply Frame.mk_upd
    | (apply Or.inl; apply Eq.refl true)
    | (apply Or.inr; exact rfl)
    | (with_reducible_and_instances rfl)
    | split

theorem frame_failPlaced (s : State) (c p : Nat) : Frame 95102 1829059933172495274783641850270541942787 s (failPlaced s c p) := by
  dsimp only [failPlaced, ok]
  repeat' first
    | with_reducible assumption
    | with_reducible exact Frame.refl _ _ _
    | intro _
    | apply Eq.refl true
    | apply Eq.refl (_ : Nat)
    | with_reducible apply Frame.step (g := frame_faultRoutines ..)
    | with_reducible apply Frame.step (g := frame_faultBlock ..)
    | with_reducible apply Frame.step (g := frame_faultTask ..)
    | with_reducible apply Frame.step (g := frame_unpark ..)
    | with_reducible apply Frame.step (g := frame_setJobs ..)
    | with_reducible apply Frame.step (g := frame_giveCore ..)
    | with_reducible apply Frame.step (g := frame_emptyCore ..)
    | with_reducible apply Frame.step (g := frame_vacateCore ..)
    | with_reducible apply Frame.step (g := frame_spareFlag _ _ rfl)
    | with_reducible apply Frame.step (g := frame_post ..)
    | with_reducible apply Frame.foldl
    | with_reducible apply Frame.foldl2
    | with_reducible apply Frame.ite
    | split

theorem frame_abandonSwap (s : State) (q : Nat) : Frame 73732 680564734475702227040863915611888025600 s (abandonSwap s q) := by
  dsimp only [abandonSwap, ok]
  repeat' first
    | with_reducible assumption
    | with_reducible exact Frame.refl _ _ _
    | intro _
    | apply Eq.refl true
    | apply Eq.refl (_ : Nat)
    | with_reducible apply Frame.put
    | with_reducible apply Frame.step (g := frame_setMark ..)
    | with_reducible apply Frame.step (g := frame_signalIf ..)
    | with_reducible apply Frame.ite
    | (apply Or.inl; apply Eq.refl true)
    | (apply Or.inr; exact rfl)
    | (with_reducible_and_instances rfl)
    | split
    | with_reducible apply Frame.mk_upd

theorem frame_coreFail (s : State) (p : Nat) : Frame 95102 2509624667014372201710391065134078365699 s (coreFail s p) := by
  dsimp only [coreFail, ok]
  repeat' first
    | with_reducible assumption
    | with_reducible exact Frame.refl _ _ _
    | intro _
    | apply Eq.refl true
    | apply Eq.refl (_ : Nat)
    | with_reducible apply Frame.step (g := frame_setMark ..)
    | with_reducible apply Frame.step (g := frame_abandonSwap ..)
    | with_reducible apply Frame.step (g := frame_failPlaced ..)
    | with_reducible apply Frame.step (g := frame_showCoreSpare ..)
    | with_reducible apply Frame.ite
    | (apply Or.inl; apply Eq.refl true)
    | (apply Or.inr; exact rfl)
    | (with_reducible_and_instances rfl)
    | split
    | with_reducible apply Frame.mk_upd

theorem frame_noteCheck (s : State) (u : Nat) : Frame 8192 1361129467683753853853498429727072845824 s (noteCheck s u) := by
  dsimp only [noteCheck, ok]
  repeat' first
    | with_reducible assumption
    | with_reducible exact Frame.refl _ _ _
    | intro _
    | apply Eq.refl true
    | apply Eq.refl (_ : Nat)
    | with_reducible apply Frame.bumpSat
    | with_reducible apply Frame.ite
    | with_reducible apply Frame.mk_upd
    | (apply Or.inl; apply Eq.refl true)
    | (apply Or.inr; exact rfl)
    | (with_reducible_and_instances rfl)
    | split

theorem frame_execCoreCheckFail (pcore : Nat) (block : Option Nat) (s : State) : FrameO 95102 2509624667014372201710391065134078365699 s (execCoreCheckFail pcore block s) := by
  dsimp only [execCoreCheckFail, ok]
  repeat' first
    | with_reducible assumption
    | with_reducible exact Frame.refl _ _ _
    | intro _
    | apply Eq.refl true
    | apply Eq.refl (_ : Nat)
    | exact FrameO.fault
    | with_reducible apply FrameO.next
    | with_reducible apply Frame.step (g := frame_noteCheck ..)
    | with_reducible apply Frame.step (g := frame_coreFail ..)
    | with_reducible apply Frame.step (g := frame_faultBlock ..)
    | with_reducible apply Frame.ite
    | with_reducible apply FrameO.ite
    | split

theorem frame_execCoreHeartbeatTimeout (pcore : Nat) (s : State) : FrameO 95102 2509624667014372201710391065134078365699 s (execCoreHeartbeatTimeout pcore s) := by
  dsimp only [execCoreHeartbeatTimeout, ok]
  repeat' first
    | with_reducible assumption
    | with_reducible exact Frame.refl _ _ _
    | intro _
    | apply Eq.refl true
    | apply Eq.refl (_ : Nat)
    | exact FrameO.fault
    | with_reducible apply FrameO.next
    | with_reducible apply Frame.step (g := frame_coreFail ..)
    | with_reducible apply Frame.ite
    | with_reducible apply FrameO.ite
    | split

theorem frame_faultJob (s : State) (c pcore : Nat) (j : EngJob) : Frame 95102 127648098567802957466768813110627143680 s (faultJob s c pcore j) := by
  dsimp only [faultJob, ok]
  repeat' first
    | with_reducible assumption
    | with_reducible exact Frame.refl _ _ _
    | intro _
    | apply Eq.refl true
    | apply Eq.refl (_ : Nat)
    | with_reducible apply Frame.step (g := frame_faultRoutine ..)
    | with_reducible apply Frame.step (g := frame_faultBlock ..)
    | with_reducible apply Frame.step (g := frame_contained ..)
    | with_reducible apply Frame.step (g := frame_dropJob ..)
    | with_reducible apply Frame.ite
    | split

theorem frame_arrayFault (s : State) (pcore array work : Nat) : Frame 95102 127648098567802957466768813110627143680 s (arrayFault s pcore array work) := by
  dsimp only [arrayFault, ok]
  repeat' first
    | with_reducible assumption
    | with_reducible exact Frame.refl _ _ _
    | intro _
    | apply Eq.refl true
    | apply Eq.refl (_ : Nat)
    | with_reducible apply Frame.step (g := frame_faultJob ..)
    | with_reducible apply Frame.step (g := frame_faultTask ..)
    | with_reducible apply Frame.ite
    | split

theorem frame_execArrayParityFail (pcore : Nat) (place : ArrayPlace) (s : State) : FrameO 95102 127648098567802957466768813110627143680 s (execArrayParityFail pcore place s) := by
  dsimp only [execArrayParityFail, ok]
  repeat' first
    | with_reducible assumption
    | with_reducible exact Frame.refl _ _ _
    | intro _
    | apply Eq.refl true
    | apply Eq.refl (_ : Nat)
    | exact FrameO.fault
    | with_reducible apply FrameO.next
    | with_reducible apply Frame.step (g := frame_arrayFault ..)
    | with_reducible apply Frame.ite
    | with_reducible apply FrameO.ite
    | split

theorem frame_setDpu (s : State) (n v : Nat) : Frame 4096 649037107316853453566312041152528 s (setDpu s n v) := by
  dsimp only [setDpu, ok]
  repeat' first
    | with_reducible assumption
    | with_reducible exact Frame.refl _ _ _
    | intro _
    | apply Eq.refl true
    | apply Eq.refl (_ : Nat)
    | with_reducible apply Frame.step (g := frame_showDpu ..)
    | with_reducible apply Frame.step (g := frame_bankChange ..)
    | with_reducible apply Frame.ite
    | with_reducible apply Frame.mk_upd
    | (apply Or.inl; apply Eq.refl true)
    | (apply Or.inr; exact rfl)
    | (with_reducible_and_instances rfl)
    | split

theorem frame_clearHalves (s : State) (pcore array : Nat) : Frame 32 0 s (clearHalves s pcore array) := by
  dsimp only [clearHalves, ok]
  repeat' first
    | with_reducible assumption
    | with_reducible exact Frame.refl _ _ _
    | intro _
    | apply Eq.refl true
    | apply Eq.refl (_ : Nat)
    | with_reducible apply Frame.step (g := frame_setHalves ..)
    | with_reducible apply Frame.ite
    | split

theorem frame_execDpuCheckFail (pcore : Nat) (place : ArrayPlace) (dpu : Nat) (_residue : Bool) (s : State) : FrameO 95102 2509624667014372201710391065134078365715 s (execDpuCheckFail pcore place dpu _residue s) := by
  dsimp only [execDpuCheckFail, ok]
  repeat' first
    | with_reducible assumption
    | with_reducible exact Frame.refl _ _ _
    | intro _
    | apply Eq.refl true
    | apply Eq.refl (_ : Nat)
    | exact FrameO.fault
    | with_reducible apply FrameO.next
    | with_reducible apply Frame.step (g := frame_post ..)
    | with_reducible apply Frame.step (g := frame_setDpu ..)
    | with_reducible apply Frame.step (g := frame_clearHalves ..)
    | with_reducible apply Frame.step (g := frame_arrayFault ..)
    | with_reducible apply Frame.step (g := frame_coreFail ..)
    | with_reducible apply Frame.ite
    | with_reducible apply FrameO.ite
    | split

end Sys2Proof.Laws
end

