-- ==== Sys2Proof/Laws/FrameFieldTest.lean ====
section
/-! SUPPORT. What each operation of Machine/FieldTest.lean may change, as a frame (Laws/Frame.lean): the parts and registers by their bits. -/

namespace Sys2Proof.Laws

open Sys2Proof.Machine

theorem frame_ftAnswer (s : State) (result unit detail seq : Nat) : Frame 0 680564733841876926926749214863536422912 s (ftAnswer s result unit detail seq) := by
  dsimp only [ftAnswer, ok]
  repeat' first
    | with_reducible assumption
    | with_reducible exact Frame.refl _ _ _
    | intro _
    | apply Eq.refl true
    | apply Eq.refl (_ : Nat)
    | with_reducible apply Frame.put
    | with_reducible apply Frame.ite
    | split

theorem frame_ftFinish (s : State) (x : Swap) (result detail : Nat) : Frame 73732 680564734475702227040863915611888025600 s (ftFinish s x result detail) := by
  dsimp only [ftFinish, ok]
  repeat' first
    | with_reducible assumption
    | with_reducible exact Frame.refl _ _ _
    | intro _
    | apply Eq.refl true
    | apply Eq.refl (_ : Nat)
    | with_reducible apply Frame.put
    | with_reducible apply Frame.step (g := frame_signalIf ..)
    | with_reducible apply Frame.ite
    | (apply Or.inl; apply Eq.refl true)
    | (apply Or.inr; exact rfl)
    | (with_reducible_and_instances rfl)
    | split
    | with_reducible apply Frame.mk_upd

theorem frame_addSwap (s : State) (x : Swap) : Frame 8192 0 s (addSwap s x) := by
  dsimp only [addSwap, ok]
  repeat' first
    | with_reducible assumption
    | with_reducible exact Frame.refl _ _ _
    | intro _
    | apply Eq.refl true
    | apply Eq.refl (_ : Nat)
    | with_reducible apply Frame.ite
    | with_reducible apply Frame.mk_upd
    | (apply Or.inl; apply Eq.refl true)
    | (apply Or.inr; exact rfl)
    | (with_reducible_and_instances rfl)
    | split

theorem frame_unitLost (s : State) : Frame 65540 42535296498942608047036526677322629120 s (unitLost s) := by
  dsimp only [unitLost, ok]
  repeat' first
    | with_reducible assumption
    | with_reducible exact Frame.refl _ _ _
    | intro _
    | apply Eq.refl true
    | apply Eq.refl (_ : Nat)
    | with_reducible apply Frame.step (g := frame_spareFlag _ _ rfl)
    | with_reducible apply Frame.ite
    | split

theorem frame_drainSliceOf (s : State) (n : Nat) : Frame 65540 4398046511104 s (drainSliceOf s n) := by
  dsimp only [drainSliceOf, ok]
  repeat' first
    | with_reducible assumption
    | with_reducible exact Frame.refl _ _ _
    | intro _
    | apply Eq.refl true
    | apply Eq.refl (_ : Nat)
    | with_reducible apply Frame.put
    | with_reducible apply Frame.step (g := frame_hlDrain ..)
    | with_reducible apply Frame.ite
    | split

theorem frame_drainDone (s : State) (n : Nat) : Frame 77830 127648098458863623495492909006504067077 s (drainDone s n) := by
  dsimp only [drainDone, ok]
  repeat' first
    | with_reducible assumption
    | with_reducible exact Frame.refl _ _ _
    | intro _
    | apply Eq.refl true
    | apply Eq.refl (_ : Nat)
    | with_reducible apply Frame.put
    | with_reducible apply Frame.step (g := frame_drainSlice ..)
    | with_reducible apply Frame.step (g := frame_showCounts ..)
    | with_reducible apply Frame.step (g := frame_setMark ..)
    | with_reducible apply Frame.step (g := frame_setSlicePos ..)
    | with_reducible apply Frame.step (g := frame_post ..)
    | with_reducible apply Frame.step (g := frame_unitLost ..)
    | with_reducible apply Frame.ite
    | split

theorem frame_execSliceDrainDone (n : Nat) (s : State) : FrameO 77830 127648098458863623495492909006504067077 s (execSliceDrainDone n s) := by
  dsimp only [execSliceDrainDone, ok]
  repeat' first
    | with_reducible assumption
    | with_reducible exact Frame.refl _ _ _
    | intro _
    | apply Eq.refl true
    | apply Eq.refl (_ : Nat)
    | exact FrameO.fault
    | with_reducible apply FrameO.next
    | with_reducible apply Frame.step (g := frame_drainDone ..)
    | with_reducible apply Frame.ite
    | with_reducible apply FrameO.ite
    | split

theorem frame_sliceTaken (s : State) (t : Nat) : Frame 77828 467888927004933808337837579219731742720 s (sliceTaken s t) := by
  dsimp only [sliceTaken, ok]
  repeat' first
    | with_reducible assumption
    | with_reducible exact Frame.refl _ _ _
    | intro _
    | apply Eq.refl true
    | apply Eq.refl (_ : Nat)
    | with_reducible apply Frame.step (g := frame_showSliceSpare ..)
    | with_reducible apply Frame.step (g := frame_spareEmpty ..)
    | with_reducible apply Frame.ite
    | split

theorem frame_sliceJoin (s : State) (n : Nat) : Frame 77830 3190147862372441516044834443071923945477 s (sliceJoin s n) := by
  dsimp only [sliceJoin, ok]
  repeat' first
    | with_reducible assumption
    | with_reducible exact Frame.refl _ _ _
    | intro _
    | apply Eq.refl true
    | apply Eq.refl (_ : Nat)
    | with_reducible apply Frame.put
    | with_reducible apply Frame.bumpSat
    | with_reducible apply Frame.step (g := frame_loseSlice ..)
    | with_reducible apply Frame.step (g := frame_showCounts ..)
    | with_reducible apply Frame.step (g := frame_setMark ..)
    | with_reducible apply Frame.step (g := frame_setSlicePos ..)
    | with_reducible apply Frame.step (g := frame_sliceTaken ..)
    | with_reducible apply Frame.step (g := frame_post ..)
    | with_reducible apply Frame.ite
    | split

theorem frame_execSliceJoin (n : Nat) (s : State) : FrameO 77830 3190147862372441516044834443071923945477 s (execSliceJoin n s) := by
  dsimp only [execSliceJoin, ok]
  repeat' first
    | with_reducible assumption
    | with_reducible exact Frame.refl _ _ _
    | intro _
    | apply Eq.refl true
    | apply Eq.refl (_ : Nat)
    | exact FrameO.fault
    | with_reducible apply FrameO.next
    | with_reducible apply Frame.step (g := frame_sliceJoin ..)
    | with_reducible apply Frame.ite
    | with_reducible apply FrameO.ite
    | split

theorem frame_accepted (s : State) (u op : Nat) (spare : Option Nat) (seq : Option Nat) : Frame 77828 127606560083995344874462971787963531264 s (accepted s u op spare seq) := by
  dsimp only [accepted, ok]
  repeat' first
    | with_reducible assumption
    | with_reducible exact Frame.refl _ _ _
    | intro _
    | apply Eq.refl true
    | apply Eq.refl (_ : Nat)
    | with_reducible apply Frame.step (g := frame_addSwap ..)
    | with_reducible apply Frame.step (g := frame_post ..)
    | with_reducible apply Frame.ite
    | split

theorem frame_takeCore (s : State) (p op : Nat) (out : Bool) (seq : Option Nat) : Frame 94326 1829059933063555940812365946656045142019 s (takeCore s p op out seq).2 := by
  dsimp only [takeCore, ok]
  repeat' first
    | with_reducible assumption
    | with_reducible exact Frame.refl _ _ _
    | intro _
    | apply Eq.refl true
    | apply Eq.refl (_ : Nat)
    | with_reducible apply Frame.step (g := frame_showCoreSpare ..)
    | with_reducible apply Frame.step (g := frame_accepted ..)
    | with_reducible apply Frame.step (g := frame_setMark ..)
    | with_reducible apply Frame.step (g := frame_coreMove ..)
    | with_reducible apply Frame.step (g := frame_unitLost ..)
    | with_reducible apply Frame.step (g := frame_vacateCore ..)
    | with_reducible apply Frame.step (g := frame_glFlush ..)
    | with_reducible apply Frame.ite
    | with_reducible apply Frame.pairIte
    | split

theorem frame_takeSlice (s : State) (p op : Nat) (out : Bool) (seq : Option Nat) : Frame 77828 467888927004933808337837583617778253824 s (takeSlice s p op out seq).2 := by
  dsimp only [takeSlice, ok]
  repeat' first
    | with_reducible assumption
    | with_reducible exact Frame.refl _ _ _
    | intro _
    | apply Eq.refl true
    | apply Eq.refl (_ : Nat)
    | with_reducible apply Frame.step (g := frame_showSliceSpare ..)
    | with_reducible apply Frame.step (g := frame_accepted ..)
    | with_reducible apply Frame.step (g := frame_setMark ..)
    | with_reducible apply Frame.step (g := frame_drainSliceOf ..)
    | with_reducible apply Frame.ite
    | with_reducible apply Frame.pairIte
    | split

theorem frame_dropLane (s : State) (p l : Nat) : Frame 78718 127606560192985453730162689836325015552 s (dropLane s p l) := by
  dsimp only [dropLane, ok]
  repeat' first
    | with_reducible assumption
    | with_reducible exact Frame.refl _ _ _
    | intro _
    | apply Eq.refl true
    | apply Eq.refl (_ : Nat)
    | with_reducible apply Frame.put
    | with_reducible apply Frame.step (g := frame_bankChange ..)
    | with_reducible apply Frame.step (g := frame_portDown ..)
    | with_reducible apply Frame.step (g := frame_leaveSet ..)
    | (dsimp only [F.fabLaneMap_WL]; exact Eq.refl true)
    | with_reducible apply Frame.ite
    | with_reducible apply Frame.mk_upd
    | (apply Or.inl; apply Eq.refl true)
    | (apply Or.inr; exact rfl)
    | (with_reducible_and_instances rfl)
    | split

theorem frame_takeWave (s : State) (u op : Nat) (out : Bool) (seq : Option Nat) : Frame 78718 467888927113923917193537297268093227008 s (takeWave s u op out seq).2 := by
  dsimp only [takeWave, ok]
  repeat' first
    | with_reducible assumption
    | with_reducible exact Frame.refl _ _ _
    | intro _
    | apply Eq.refl true
    | apply Eq.refl (_ : Nat)
    | with_reducible apply Frame.clrBit
    | with_reducible apply Frame.step (g := frame_accepted ..)
    | with_reducible apply Frame.step (g := frame_showWlSpares ..)
    | with_reducible apply Frame.step (g := frame_setMark ..)
    | with_reducible apply Frame.step (g := frame_beginMove ..)
    | with_reducible apply Frame.step (g := frame_leaveSet ..)
    | with_reducible apply Frame.step (g := frame_markLane ..)
    | with_reducible apply Frame.step (g := frame_unitLost ..)
    | with_reducible apply Frame.step (g := frame_dropLane ..)
    | with_reducible apply Frame.ite
    | with_reducible apply Frame.pairIte
    | split

theorem frame_takeEmitter (s : State) (n op : Nat) (seq : Option Nat) : Frame 78340 467888927005127236468975919887684730880 s (takeEmitter s n op seq).2 := by
  dsimp only [takeEmitter, ok]
  repeat' first
    | with_reducible assumption
    | with_reducible exact Frame.refl _ _ _
    | intro _
    | apply Eq.refl true
    | apply Eq.refl (_ : Nat)
    | with_reducible apply Frame.clrBit
    | with_reducible apply Frame.step (g := frame_accepted ..)
    | with_reducible apply Frame.step (g := frame_startRetune ..)
    | with_reducible apply Frame.step (g := frame_showWlSpares ..)
    | with_reducible apply Frame.step (g := frame_setMark ..)
    | with_reducible apply Frame.ite
    | with_reducible apply Frame.pairIte
    | split

theorem frame_takeChannel (s : State) (n : Nat) (seq : Option Nat) : Frame 77828 127606560083995344874462989380149575680 s (takeChannel s n seq).2 := by
  dsimp only [takeChannel, ok]
  repeat' first
    | with_reducible assumption
    | with_reducible exact Frame.refl _ _ _
    | intro _
    | apply Eq.refl true
    | apply Eq.refl (_ : Nat)
    | with_reducible apply Frame.put
    | with_reducible apply Frame.step (g := frame_accepted ..)
    | with_reducible apply Frame.ite
    | with_reducible apply Frame.pairIte
    | split

theorem frame_takeUnit (s : State) (u op : Nat) (out : Bool) (seq : Option Nat) : Frame 95102 1829059933172700792172976354830955057155 s (takeUnit s u op out seq).2 := by
  dsimp only [takeUnit, ok]
  repeat' first
    | with_reducible assumption
    | with_reducible exact Frame.refl _ _ _
    | intro _
    | apply Eq.refl true
    | apply Eq.refl (_ : Nat)
    | with_reducible apply Frame.step (g := frame_takeCore ..)
    | with_reducible apply Frame.step (g := frame_takeSlice ..)
    | with_reducible apply Frame.step (g := frame_takeWave ..)
    | with_reducible apply Frame.step (g := frame_takeEmitter ..)
    | with_reducible apply Frame.step (g := frame_takeChannel ..)
    | with_reducible apply Frame.eqSnd (e := by assumption)
    | with_reducible apply Frame.ite
    | with_reducible apply Frame.pairIte
    | split

theorem frame_returnUnit (s : State) (u : Nat) (seq : Option Nat) : Frame 77828 127606560083995344874462971787963531264 s (returnUnit s u seq).2 := by
  dsimp only [returnUnit, ok]
  repeat' first
    | with_reducible assumption
    | with_reducible exact Frame.refl _ _ _
    | intro _
    | apply Eq.refl true
    | apply Eq.refl (_ : Nat)
    | with_reducible apply Frame.step (g := frame_accepted ..)
    | with_reducible apply Frame.step (g := frame_setMark ..)
    | with_reducible apply Frame.ite
    | with_reducible apply Frame.pairIte
    | split

theorem frame_ftRun (s : State) (u op : Nat) (force : Bool) (seq : Option Nat) : Frame 95102 1829059933172700792172976354830955057155 s (ftRun s u op force seq).2 := by
  dsimp only [ftRun, ok]
  repeat' first
    | with_reducible assumption
    | with_reducible exact Frame.refl _ _ _
    | intro _
    | apply Eq.refl true
    | apply Eq.refl (_ : Nat)
    | with_reducible apply Frame.step (g := frame_returnUnit ..)
    | with_reducible apply Frame.step (g := frame_takeUnit ..)
    | with_reducible apply Frame.eqSnd (e := by assumption)
    | with_reducible apply Frame.ite
    | with_reducible apply Frame.pairIte
    | split

theorem frame_ftWrite (s : State) (u op : Nat) (force : Bool) (seq : Nat) : Frame 95102 2509624667014577719099725569694491480067 s (ftWrite s u op force seq) := by
  dsimp only [ftWrite, ok]
  repeat' first
    | with_reducible assumption
    | with_reducible exact Frame.refl _ _ _
    | intro _
    | apply Eq.refl true
    | apply Eq.refl (_ : Nat)
    | with_reducible apply Frame.put
    | with_reducible apply Frame.step (g := frame_ftAnswer ..)
    | with_reducible apply Frame.step (g := frame_ftRun ..)
    | with_reducible apply Frame.eqSnd (e := by assumption)
    | with_reducible apply Frame.ite
    | with_reducible apply Frame.pairIte
    | split

theorem frame_ftCommand (s : State) (u op : Nat) (force : Bool) (seq : Nat) : FrameO 95103 2509624667014577719099725569694491480067 s (ftCommand s u op force seq) := by
  dsimp only [ftCommand, ok]
  repeat' first
    | with_reducible assumption
    | with_reducible exact Frame.refl _ _ _
    | intro _
    | apply Eq.refl true
    | apply Eq.refl (_ : Nat)
    | exact FrameO.fault
    | with_reducible apply FrameO.next
    | with_reducible apply Frame.step (g := frame_ftWrite ..)
    | with_reducible apply Frame.step (g := frame_wideWrite ..)
    | with_reducible apply FrameO.bar0
    | with_reducible apply Frame.ite
    | with_reducible apply FrameO.ite
    | split

theorem frame_execFtTest (unit : Nat) (force : Bool) (seq : Nat) (s : State) : FrameO 95103 2509624667014577719099725569694491480067 s (execFtTest unit force seq s) := by
  dsimp only [execFtTest, ok]
  repeat' first
    | with_reducible assumption
    | with_reducible exact Frame.refl _ _ _
    | intro _
    | apply Eq.refl true
    | apply Eq.refl (_ : Nat)
    | exact FrameO.fault
    | with_reducible apply FrameO.next
    | with_reducible apply FrameO.of (g := frame_ftCommand ..)
    | with_reducible apply Frame.ite
    | with_reducible apply FrameO.ite
    | split

theorem frame_execFtReplace (unit seq : Nat) (s : State) : FrameO 95103 2509624667014577719099725569694491480067 s (execFtReplace unit seq s) := by
  dsimp only [execFtReplace, ok]
  repeat' first
    | with_reducible assumption
    | with_reducible exact Frame.refl _ _ _
    | intro _
    | apply Eq.refl true
    | apply Eq.refl (_ : Nat)
    | exact FrameO.fault
    | with_reducible apply FrameO.next
    | with_reducible apply FrameO.of (g := frame_ftCommand ..)
    | with_reducible apply Frame.ite
    | with_reducible apply FrameO.ite
    | split

theorem frame_execFtBypass (unit seq : Nat) (s : State) : FrameO 95103 2509624667014577719099725569694491480067 s (execFtBypass unit seq s) := by
  dsimp only [execFtBypass, ok]
  repeat' first
    | with_reducible assumption
    | with_reducible exact Frame.refl _ _ _
    | intro _
    | apply Eq.refl true
    | apply Eq.refl (_ : Nat)
    | exact FrameO.fault
    | with_reducible apply FrameO.next
    | with_reducible apply FrameO.of (g := frame_ftCommand ..)
    | with_reducible apply Frame.ite
    | with_reducible apply FrameO.ite
    | split

theorem frame_execFtReturn (unit seq : Nat) (s : State) : FrameO 95103 2509624667014577719099725569694491480067 s (execFtReturn unit seq s) := by
  dsimp only [execFtReturn, ok]
  repeat' first
    | with_reducible assumption
    | with_reducible exact Frame.refl _ _ _
    | intro _
    | apply Eq.refl true
    | apply Eq.refl (_ : Nat)
    | exact FrameO.fault
    | with_reducible apply FrameO.next
    | with_reducible apply FrameO.of (g := frame_ftCommand ..)
    | with_reducible apply Frame.ite
    | with_reducible apply FrameO.ite
    | split

theorem frame_execFtQuery (unit seq : Nat) (s : State) : FrameO 95103 2509624667014577719099725569694491480067 s (execFtQuery unit seq s) := by
  dsimp only [execFtQuery, ok]
  repeat' first
    | with_reducible assumption
    | with_reducible exact Frame.refl _ _ _
    | intro _
    | apply Eq.refl true
    | apply Eq.refl (_ : Nat)
    | exact FrameO.fault
    | with_reducible apply FrameO.next
    | with_reducible apply FrameO.of (g := frame_ftCommand ..)
    | with_reducible apply Frame.ite
    | with_reducible apply FrameO.ite
    | split

theorem frame_rejoinCore (s : State) (p : Nat) : Frame 12320 340283015958045780316828173744883109891 s (rejoinCore s p).2 := by
  dsimp only [rejoinCore, ok]
  repeat' first
    | with_reducible assumption
    | with_reducible exact Frame.refl _ _ _
    | intro _
    | apply Eq.refl true
    | apply Eq.refl (_ : Nat)
    | with_reducible apply Frame.step (g := frame_setMark ..)
    | with_reducible apply Frame.step (g := frame_showCoreSpare ..)
    | with_reducible apply Frame.step (g := frame_showCounts ..)
    | with_reducible apply Frame.step (g := frame_showCorePos ..)
    | with_reducible apply Frame.step (g := frame_loseCore ..)
    | with_reducible apply Frame.step (g := frame_setCorePos ..)
    | with_reducible apply Frame.step (g := frame_bankChange ..)
    | with_reducible apply Frame.ite
    | with_reducible apply Frame.pairIte
    | split

theorem frame_rejoinSlice (s : State) (p : Nat) : Frame 12290 340283015958045780316828178141855875077 s (rejoinSlice s p).2 := by
  dsimp only [rejoinSlice, ok]
  repeat' first
    | with_reducible assumption
    | with_reducible exact Frame.refl _ _ _
    | intro _
    | apply Eq.refl true
    | apply Eq.refl (_ : Nat)
    | with_reducible apply Frame.put
    | with_reducible apply Frame.step (g := frame_setMark ..)
    | with_reducible apply Frame.step (g := frame_loseSlice ..)
    | with_reducible apply Frame.step (g := frame_setSlicePos ..)
    | with_reducible apply Frame.step (g := frame_showSliceSpare ..)
    | with_reducible apply Frame.step (g := frame_showCounts ..)
    | with_reducible apply Frame.step (g := frame_bankChange ..)
    | with_reducible apply Frame.ite
    | with_reducible apply Frame.pairIte
    | split

theorem frame_rejoinWave (s : State) (u : Nat) : Frame 78336 340283015958239208447966514411762352128 s (rejoinWave s u).2 := by
  dsimp only [rejoinWave, ok]
  repeat' first
    | with_reducible assumption
    | with_reducible exact Frame.refl _ _ _
    | intro _
    | apply Eq.refl true
    | apply Eq.refl (_ : Nat)
    | with_reducible apply Frame.step (g := frame_setMark ..)
    | with_reducible apply Frame.step (g := frame_showOptics ..)
    | with_reducible apply Frame.step (g := frame_bankChange ..)
    | with_reducible apply Frame.step (g := frame_joinSet ..)
    | with_reducible apply Frame.ite
    | with_reducible apply Frame.pairIte
    | (apply Or.inl; apply Eq.refl true)
    | (apply Or.inr; exact rfl)
    | (with_reducible_and_instances rfl)
    | split
    | with_reducible apply Frame.mk_upd

theorem frame_rejoinEmitter (s : State) (n : Nat) : Frame 77824 340283015958239208447966514411762352128 s (rejoinEmitter s n).2 := by
  dsimp only [rejoinEmitter, ok]
  repeat' first
    | with_reducible assumption
    | with_reducible exact Frame.refl _ _ _
    | intro _
    | apply Eq.refl true
    | apply Eq.refl (_ : Nat)
    | with_reducible apply Frame.step (g := frame_setMark ..)
    | with_reducible apply Frame.step (g := frame_showOptics ..)
    | with_reducible apply Frame.step (g := frame_bankChange ..)
    | with_reducible apply Frame.ite
    | with_reducible apply Frame.pairIte
    | with_reducible apply Frame.mk_upd
    | (apply Or.inl; apply Eq.refl true)
    | (apply Or.inr; exact rfl)
    | (with_reducible_and_instances rfl)
    | split

theorem frame_rejoin (s : State) (u : Nat) : Frame 78374 467888927005127236468975924286804987911 s (rejoin s u) := by
  dsimp only [rejoin, ok]
  repeat' first
    | with_reducible assumption
    | with_reducible exact Frame.refl _ _ _
    | intro _
    | apply Eq.refl true
    | apply Eq.refl (_ : Nat)
    | with_reducible apply Frame.step (g := frame_rejoinCore ..)
    | with_reducible apply Frame.step (g := frame_rejoinSlice ..)
    | with_reducible apply Frame.step (g := frame_rejoinWave ..)
    | with_reducible apply Frame.step (g := frame_rejoinEmitter ..)
    | with_reducible apply Frame.step (g := frame_post ..)
    | with_reducible apply Frame.eqSnd (e := by assumption)
    | with_reducible apply Frame.ite
    | with_reducible apply Frame.pairIte
    | split

theorem frame_showFail (s : State) (u : Nat) : Frame 0 4083388403051416304065405961715580928000 s (showFail s u) := by
  dsimp only [showFail, ok]
  repeat' first
    | with_reducible assumption
    | with_reducible exact Frame.refl _ _ _
    | intro _
    | apply Eq.refl true
    | apply Eq.refl (_ : Nat)
    | with_reducible apply Frame.put
    | with_reducible apply Frame.bumpSat
    | with_reducible apply Frame.ite
    | split

theorem frame_optOut (s : State) (u : Nat) : Frame 4096 0 s (optOut s u) := by
  dsimp only [optOut, ok]
  repeat' first
    | with_reducible assumption
    | with_reducible exact Frame.refl _ _ _
    | intro _
    | apply Eq.refl true
    | apply Eq.refl (_ : Nat)
    | with_reducible apply Frame.ite
    | with_reducible apply Frame.mk_upd
    | (apply Or.inl; apply Eq.refl true)
    | (apply Or.inr; exact rfl)
    | (with_reducible_and_instances rfl)
    | split

theorem frame_testFails (s : State) (u step : Nat) : Frame 77828 4210994963135411648939868933503544459264 s (testFails s u step) := by
  dsimp only [testFails, ok]
  repeat' first
    | with_reducible assumption
    | with_reducible exact Frame.refl _ _ _
    | intro _
    | apply Eq.refl true
    | apply Eq.refl (_ : Nat)
    | with_reducible apply Frame.step (g := frame_post ..)
    | with_reducible apply Frame.step (g := frame_bankChange ..)
    | with_reducible apply Frame.step (g := frame_optOut ..)
    | with_reducible apply Frame.step (g := frame_showFail ..)
    | with_reducible apply Frame.step (g := frame_setMark ..)
    | with_reducible apply Frame.ite
    | split

theorem frame_channelTested (s : State) (n : Nat) (pass : Bool) (step : Nat) : Frame 77830 127606560083995344874462998176242597888 s (channelTested s n pass step) := by
  dsimp only [channelTested, ok]
  repeat' first
    | with_reducible assumption
    | with_reducible exact Frame.refl _ _ _
    | intro _
    | apply Eq.refl true
    | apply Eq.refl (_ : Nat)
    | with_reducible apply Frame.put
    | with_reducible apply Frame.step (g := frame_bankChange ..)
    | with_reducible apply Frame.step (g := frame_nextMove ..)
    | with_reducible apply Frame.step (g := frame_post ..)
    | with_reducible apply Frame.ite
    | with_reducible apply Frame.mk_upd
    | (apply Or.inl; apply Eq.refl true)
    | (apply Or.inr; exact rfl)
    | (with_reducible_and_instances rfl)
    | split

theorem frame_ftDone (s : State) (x : Swap) (pass : Bool) (step : Nat) : Frame 78374 5231842063898265724956220454719839014919 s (ftDone s x pass step) := by
  dsimp only [ftDone, ok]
  repeat' first
    | with_reducible assumption
    | with_reducible exact Frame.refl _ _ _
    | intro _
    | apply Eq.refl true
    | apply Eq.refl (_ : Nat)
    | with_reducible apply Frame.step (g := frame_ftFinish ..)
    | with_reducible apply Frame.step (g := frame_channelTested ..)
    | with_reducible apply Frame.step (g := frame_setMark ..)
    | with_reducible apply Frame.step (g := frame_rejoin ..)
    | with_reducible apply Frame.step (g := frame_testFails ..)
    | with_reducible apply Frame.ite
    | split

theorem frame_replaceSlice (s : State) (u : Nat) : Frame 95102 1829059933172700792172976354830955057155 s (replaceSlice s u) := by
  dsimp only [replaceSlice, ok]
  repeat' first
    | with_reducible assumption
    | with_reducible exact Frame.refl _ _ _
    | intro _
    | apply Eq.refl true
    | apply Eq.refl (_ : Nat)
    | with_reducible apply Frame.step (g := frame_takeUnit ..)
    | with_reducible apply Frame.eqSnd (e := by assumption)
    | with_reducible apply Frame.ite
    | with_reducible apply Frame.pairIte
    | with_reducible apply Frame.mk_upd
    | (apply Or.inl; apply Eq.refl true)
    | (apply Or.inr; exact rfl)
    | (with_reducible_and_instances rfl)
    | split

theorem frame_nextSwap (s : State) (g : Nat × Nat) : Frame 95102 1829059933172700792172976354830955057155 s (nextSwap s g) := by
  dsimp only [nextSwap, ok]
  repeat' first
    | with_reducible assumption
    | with_reducible exact Frame.refl _ _ _
    | intro _
    | apply Eq.refl true
    | apply Eq.refl (_ : Nat)
    | with_reducible apply Frame.step (g := frame_replaceSlice ..)
    | with_reducible apply Frame.ite
    | (apply Or.inl; apply Eq.refl true)
    | (apply Or.inr; exact rfl)
    | (with_reducible_and_instances rfl)
    | split
    | with_reducible apply Frame.mk_upd

theorem frame_execFtCommandDone (unit : Nat) (pass : Bool) (step : Nat) (s : State) : FrameO 95102 5231883602382085426806722437944730193927 s (execFtCommandDone unit pass step s) := by
  dsimp only [execFtCommandDone, ok]
  repeat' first
    | with_reducible assumption
    | with_reducible exact Frame.refl _ _ _
    | intro _
    | apply Eq.refl true
    | apply Eq.refl (_ : Nat)
    | exact FrameO.fault
    | with_reducible apply FrameO.next
    | with_reducible apply Frame.step (g := frame_nextSwap ..)
    | with_reducible apply Frame.step (g := frame_ftDone ..)
    | with_reducible apply Frame.ite
    | with_reducible apply FrameO.ite
    | split

theorem frame_autoTest (s : State) (u why : Nat) : Frame 95102 1829059933172700792172976354830955057155 s (autoTest s u why) := by
  dsimp only [autoTest, ok]
  repeat' first
    | with_reducible assumption
    | with_reducible exact Frame.refl _ _ _
    | intro _
    | apply Eq.refl true
    | apply Eq.refl (_ : Nat)
    | with_reducible apply Frame.step (g := frame_post ..)
    | with_reducible apply Frame.step (g := frame_takeUnit ..)
    | with_reducible apply Frame.eqSnd (e := by assumption)
    | with_reducible apply Frame.ite
    | with_reducible apply Frame.pairIte
    | split

end Sys2Proof.Laws
end

