-- ==== Sys2Proof/Laws/FrameUnitFault.lean ====
section
/-! SUPPORT. What each operation of Machine/UnitFault.lean may change, as a frame (Laws/Frame.lean): the parts and registers by their bits. -/

namespace Sys2Proof.Laws

open Sys2Proof.Machine

theorem frame_sliceCorrected (s : State) (n pa : Nat) : Frame 95102 4551318868540208499879973214285100748803 s (sliceCorrected s n pa) := by
  dsimp only [sliceCorrected, ok]
  repeat' first
    | with_reducible assumption
    | with_reducible exact Frame.refl _ _ _
    | intro _
    | apply Eq.refl true
    | apply Eq.refl (_ : Nat)
    | with_reducible apply Frame.bumpSat
    | with_reducible apply Frame.step (g := frame_bankChange ..)
    | with_reducible apply Frame.step (g := frame_post ..)
    | with_reducible apply Frame.step (g := frame_autoTest ..)
    | with_reducible apply Frame.ite
    | with_reducible apply Frame.mk_upd
    | (apply Or.inl; apply Eq.refl true)
    | (apply Or.inr; exact rfl)
    | (with_reducible_and_instances rfl)
    | split

theorem frame_execSliceScrub (n set : Nat) (errs : List Nat) (s : State) : FrameO 95102 4551318868540208499879973214285100748803 s (execSliceScrub n set errs s) := by
  dsimp only [execSliceScrub, ok]
  repeat' first
    | with_reducible assumption
    | with_reducible exact Frame.refl _ _ _
    | intro _
    | apply Eq.refl true
    | apply Eq.refl (_ : Nat)
    | exact FrameO.fault
    | with_reducible apply FrameO.next
    | with_reducible apply Frame.step (g := frame_sliceCorrected ..)
    | with_reducible apply Frame.foldl
    | with_reducible apply Frame.foldl2
    | with_reducible apply Frame.ite
    | with_reducible apply FrameO.ite
    | split

theorem frame_sliceUncounted (s : State) (n u : Nat) : Frame 0 2722259584404615024560450430164233355264 s (sliceUncounted s n u) := by
  dsimp only [sliceUncounted, ok]
  repeat' first
    | with_reducible assumption
    | with_reducible exact Frame.refl _ _ _
    | intro _
    | apply Eq.refl true
    | apply Eq.refl (_ : Nat)
    | with_reducible apply Frame.bumpSat
    | with_reducible apply Frame.step (g := frame_bankChange ..)
    | with_reducible apply Frame.ite
    | split

theorem frame_setSector (s : State) (l : CavLine) (i : Nat) (c : CavSector) : Frame 2 41538374868278621029937218540535808 s (setSector s l i c) := by
  dsimp only [setSector, ok]
  repeat' first
    | with_reducible assumption
    | with_reducible exact Frame.refl _ _ _
    | intro _
    | apply Eq.refl true
    | apply Eq.refl (_ : Nat)
    | with_reducible apply Frame.step (g := frame_cavUpdate ..)
    | with_reducible apply Frame.ite
    | with_reducible apply Frame.mk_upd
    | (apply Or.inl; apply Eq.refl true)
    | (apply Or.inr; exact rfl)
    | (with_reducible_and_instances rfl)
    | split

theorem frame_sliceDataError (s : State) (n pa : Nat) : Frame 77830 2849907033826371331202489768460649758720 s (sliceDataError s n pa) := by
  dsimp only [sliceDataError, ok]
  repeat' first
    | with_reducible assumption
    | with_reducible exact Frame.refl _ _ _
    | intro _
    | apply Eq.refl true
    | apply Eq.refl (_ : Nat)
    | with_reducible apply Frame.step (g := frame_sliceUncounted ..)
    | with_reducible apply Frame.step (g := frame_post ..)
    | with_reducible apply Frame.step (g := frame_setSector ..)
    | with_reducible apply Frame.step (g := frame_charge ..)
    | with_reducible apply Frame.ite
    | with_reducible apply Frame.pairIte
    | (apply Or.inl; apply Eq.refl true)
    | (apply Or.inr; exact rfl)
    | (with_reducible_and_instances rfl)
    | split
    | with_reducible apply Frame.mk_upd

theorem frame_hostDataError (s : State) (n pa : Nat) : Frame 77828 2849865495451503052581459835640155734016 s (hostDataError s n pa) := by
  dsimp only [hostDataError, ok]
  repeat' first
    | with_reducible assumption
    | with_reducible exact Frame.refl _ _ _
    | intro _
    | apply Eq.refl true
    | apply Eq.refl (_ : Nat)
    | with_reducible apply Frame.step (g := frame_sliceUncounted ..)
    | with_reducible apply Frame.step (g := frame_post ..)
    | with_reducible apply Frame.step (g := frame_setHostLines ..)
    | with_reducible apply Frame.step (g := frame_hlRequest ..)
    | with_reducible apply Frame.ite
    | (apply Or.inl; apply Eq.refl true)
    | (apply Or.inr; exact rfl)
    | (with_reducible_and_instances rfl)
    | split
    | with_reducible apply Frame.mk_upd

theorem frame_execSliceEccError (n kind pa : Nat) (s : State) : FrameO 98174 4551320288308880755496902890592690769923 s (execSliceEccError n kind pa s) := by
  dsimp only [execSliceEccError, ok]
  repeat' first
    | with_reducible assumption
    | with_reducible exact Frame.refl _ _ _
    | intro _
    | apply Eq.refl true
    | apply Eq.refl (_ : Nat)
    | exact FrameO.fault
    | with_reducible apply FrameO.next
    | with_reducible apply Frame.step (g := frame_sliceCorrected ..)
    | with_reducible apply Frame.step (g := frame_sliceDataError ..)
    | with_reducible apply Frame.step (g := frame_replaceSlice ..)
    | with_reducible apply Frame.step (g := frame_post ..)
    | with_reducible apply Frame.step (g := frame_fatal ..)
    | with_reducible apply Frame.step (g := frame_hostDataError ..)
    | with_reducible apply Frame.ite
    | with_reducible apply FrameO.ite
    | split

theorem frame_execHotspotWindow (cycles : Nat) (counts : List (Nat × Nat)) (s : State) : FrameO 65540 633825300114114702947374858240 s (execHotspotWindow cycles counts s) := by
  dsimp only [execHotspotWindow, ok]
  repeat' first
    | with_reducible assumption
    | with_reducible exact Frame.refl _ _ _
    | intro _
    | apply Eq.refl true
    | apply Eq.refl (_ : Nat)
    | exact FrameO.fault
    | with_reducible apply FrameO.next
    | with_reducible apply Frame.put
    | with_reducible apply Frame.bump
    | with_reducible apply Frame.step (g := frame_signalIf ..)
    | with_reducible apply Frame.foldl
    | with_reducible apply Frame.foldl2
    | with_reducible apply Frame.ite
    | with_reducible apply FrameO.ite
    | with_reducible apply Frame.pairIte
    | split

theorem frame_setParity (s : State) (h : SMap (List Nat)) : Frame 8192 0 s (setParity s h) := by
  dsimp only [setParity, ok]
  repeat' first
    | with_reducible assumption
    | with_reducible exact Frame.refl _ _ _
    | intro _
    | apply Eq.refl true
    | apply Eq.refl (_ : Nat)
    | with_reducible apply Frame.ite
    | with_reducible apply Frame.mk_upd
    | (apply Or.inl; apply Eq.refl true)
    | (apply Or.inr; exact rfl)
    | (with_reducible_and_instances rfl)
    | split

theorem frame_parityNoted (s : State) (p : Nat) : Frame 95102 1829059933172700792172976354830955057155 s (parityNoted s p) := by
  dsimp only [parityNoted, ok]
  repeat' first
    | with_reducible assumption
    | with_reducible exact Frame.refl _ _ _
    | intro _
    | apply Eq.refl true
    | apply Eq.refl (_ : Nat)
    | with_reducible apply Frame.bumpSat
    | with_reducible apply Frame.step (g := frame_bankChange ..)
    | with_reducible apply Frame.step (g := frame_autoTest ..)
    | with_reducible apply Frame.step (g := frame_setParity ..)
    | with_reducible apply Frame.ite
    | split

theorem frame_parityCorrected (s : State) (core p code : Nat) : Frame 95102 1829059933172700792172976354830955057155 s (parityCorrected s core p code) := by
  dsimp only [parityCorrected, ok]
  repeat' first
    | with_reducible assumption
    | with_reducible exact Frame.refl _ _ _
    | intro _
    | apply Eq.refl true
    | apply Eq.refl (_ : Nat)
    | with_reducible apply Frame.step (g := frame_parityNoted ..)
    | with_reducible apply Frame.step (g := frame_post ..)
    | with_reducible apply Frame.ite
    | split

theorem frame_parityFatal (s : State) (core p code : Nat) : Frame 95102 1829059933172700792172976354830955057155 s (parityFatal s core p code) := by
  dsimp only [parityFatal, ok]
  repeat' first
    | with_reducible assumption
    | with_reducible exact Frame.refl _ _ _
    | intro _
    | apply Eq.refl true
    | apply Eq.refl (_ : Nat)
    | with_reducible apply Frame.step (g := frame_contained ..)
    | with_reducible apply Frame.step (g := frame_post ..)
    | with_reducible apply Frame.step (g := frame_parityNoted ..)
    | with_reducible apply Frame.ite
    | split

theorem frame_cacheParity (s : State) (core p : Nat) (l : GrottoLine) (a : Nat) : Frame 95102 1829059933172700792172976354830955057155 s (cacheParity s core p l a) := by
  dsimp only [cacheParity, ok]
  repeat' first
    | with_reducible assumption
    | with_reducible exact Frame.refl _ _ _
    | intro _
    | apply Eq.refl true
    | apply Eq.refl (_ : Nat)
    | with_reducible apply Frame.step (g := frame_setGl ..)
    | with_reducible apply Frame.step (g := frame_parityFatal ..)
    | with_reducible apply Frame.step (g := frame_parityCorrected ..)
    | with_reducible apply Frame.ite
    | with_reducible apply Frame.mk_upd
    | (apply Or.inl; apply Eq.refl true)
    | (apply Or.inr; exact rfl)
    | (with_reducible_and_instances rfl)
    | split

theorem frame_execGrottoParityError (core a : Nat) (isCache : Bool) (s : State) : FrameO 95102 1829059933172700792172976354830955057155 s (execGrottoParityError core a isCache s) := by
  dsimp only [execGrottoParityError, ok]
  repeat' first
    | with_reducible assumption
    | with_reducible exact Frame.refl _ _ _
    | intro _
    | apply Eq.refl true
    | apply Eq.refl (_ : Nat)
    | exact FrameO.fault
    | with_reducible apply FrameO.next
    | with_reducible apply Frame.step (g := frame_cacheParity ..)
    | with_reducible apply Frame.step (g := frame_parityFatal ..)
    | with_reducible apply Frame.ite
    | with_reducible apply FrameO.ite
    | split

theorem frame_roRefetch (s : State) (core : Nat) (l : RoLine) : Frame 82478 41538374868278621029937703872888832 s (roRefetch s core l) := by
  dsimp only [roRefetch, ok]
  repeat' first
    | with_reducible assumption
    | with_reducible exact Frame.refl _ _ _
    | intro _
    | apply Eq.refl true
    | apply Eq.refl (_ : Nat)
    | with_reducible apply Frame.step (g := frame_requestLine ..)
    | with_reducible apply Frame.step (g := frame_devRead ..)
    | with_reducible apply Frame.step (g := frame_roFill ..)
    | with_reducible apply Frame.eqSnd (e := by assumption)
    | with_reducible apply Frame.ite
    | with_reducible apply Frame.pairIte
    | split

theorem frame_execRocacheParityError (core kind a : Nat) (s : State) : FrameO 95102 1829059933172700792172976354835251073027 s (execRocacheParityError core kind a s) := by
  dsimp only [execRocacheParityError, ok]
  repeat' first
    | with_reducible assumption
    | with_reducible exact Frame.refl _ _ _
    | intro _
    | apply Eq.refl true
    | apply Eq.refl (_ : Nat)
    | exact FrameO.fault
    | with_reducible apply FrameO.next
    | with_reducible apply Frame.step (g := frame_parityCorrected ..)
    | with_reducible apply Frame.step (g := frame_roRefetch ..)
    | with_reducible apply Frame.ite
    | with_reducible apply FrameO.ite
    | (apply Or.inl; apply Eq.refl true)
    | (apply Or.inr; exact rfl)
    | (with_reducible_and_instances rfl)
    | split
    | with_reducible apply Frame.mk_upd

theorem frame_failRun (s : State) (j : EngJob) : Frame 95102 127648098567802957466768813110627143680 s (failRun s j) := by
  dsimp only [failRun, ok]
  repeat' first
    | with_reducible assumption
    | with_reducible exact Frame.refl _ _ _
    | intro _
    | apply Eq.refl true
    | apply Eq.refl (_ : Nat)
    | with_reducible apply Frame.step (g := frame_contained ..)
    | with_reducible apply Frame.step (g := frame_commitLost ..)
    | with_reducible apply Frame.ite
    | split

theorem frame_settleJob (s : State) (j : EngJob) : Frame 8 79228162514264337593543950336 s (settleJob s j) := by
  dsimp only [settleJob, ok]
  repeat' first
    | with_reducible assumption
    | with_reducible exact Frame.refl _ _ _
    | intro _
    | apply Eq.refl true
    | apply Eq.refl (_ : Nat)
    | with_reducible apply Frame.step (g := frame_qFinish ..)
    | with_reducible apply Frame.ite
    | split

theorem frame_engineFail (s : State) (u : Nat) : Frame 95102 127648098567802957466768813110627143680 s (engineFail s u) := by
  dsimp only [engineFail, ok]
  repeat' first
    | with_reducible assumption
    | with_reducible exact Frame.refl _ _ _
    | intro _
    | apply Eq.refl true
    | apply Eq.refl (_ : Nat)
    | with_reducible apply Frame.step (g := frame_unitLost ..)
    | with_reducible apply Frame.step (g := frame_engineOut ..)
    | with_reducible apply Frame.step (g := frame_setJobs ..)
    | with_reducible apply Frame.step (g := frame_settleJob ..)
    | with_reducible apply Frame.step (g := frame_contained ..)
    | with_reducible apply Frame.step (g := frame_failRun ..)
    | with_reducible apply Frame.step (g := frame_post ..)
    | with_reducible apply Frame.step (g := frame_haltFrom ..)
    | with_reducible apply Frame.step (g := frame_engShow ..)
    | with_reducible apply Frame.foldl
    | with_reducible apply Frame.foldl2
    | with_reducible apply Frame.ite
    | split

theorem frame_execTenderFail (u : Nat) (s : State) : FrameO 95102 127648098567802957466768813110627143680 s (execTenderFail u s) := by
  dsimp only [execTenderFail, ok]
  repeat' first
    | with_reducible assumption
    | with_reducible exact Frame.refl _ _ _
    | intro _
    | apply Eq.refl true
    | apply Eq.refl (_ : Nat)
    | exact FrameO.fault
    | with_reducible apply FrameO.next
    | with_reducible apply Frame.step (g := frame_engineFail ..)
    | with_reducible apply Frame.ite
    | with_reducible apply FrameO.ite
    | split

theorem frame_execUpdateEngineFail (u : Nat) (s : State) : FrameO 95102 127648098567802957466768813110627143680 s (execUpdateEngineFail u s) := by
  dsimp only [execUpdateEngineFail, ok]
  repeat' first
    | with_reducible assumption
    | with_reducible exact Frame.refl _ _ _
    | intro _
    | apply Eq.refl true
    | apply Eq.refl (_ : Nat)
    | exact FrameO.fault
    | with_reducible apply FrameO.next
    | with_reducible apply Frame.step (g := frame_engineFail ..)
    | with_reducible apply Frame.ite
    | with_reducible apply FrameO.ite
    | split

theorem frame_execDispatchEngineFail (u : Nat) (s : State) : FrameO 95102 127648098567802957466768813110627143680 s (execDispatchEngineFail u s) := by
  dsimp only [execDispatchEngineFail, ok]
  repeat' first
    | with_reducible assumption
    | with_reducible exact Frame.refl _ _ _
    | intro _
    | apply Eq.refl true
    | apply Eq.refl (_ : Nat)
    | exact FrameO.fault
    | with_reducible apply FrameO.next
    | with_reducible apply Frame.step (g := frame_engineFail ..)
    | with_reducible apply Frame.ite
    | with_reducible apply FrameO.ite
    | split

theorem frame_ferryFail (s : State) (f : Nat) : Frame 78718 127606560192934678845738875410987356160 s (ferryFail s f) := by
  dsimp only [ferryFail, ok]
  repeat' first
    | with_reducible assumption
    | with_reducible exact Frame.refl _ _ _
    | intro _
    | apply Eq.refl true
    | apply Eq.refl (_ : Nat)
    | with_reducible apply Frame.put
    | with_reducible apply Frame.step (g := frame_unitLost ..)
    | with_reducible apply Frame.step (g := frame_engineOut ..)
    | with_reducible apply Frame.step (g := frame_abortSailing ..)
    | with_reducible apply Frame.step (g := frame_contained ..)
    | with_reducible apply Frame.step (g := frame_post ..)
    | with_reducible apply Frame.step (g := frame_ferryShow ..)
    | with_reducible apply Frame.foldl
    | with_reducible apply Frame.foldl2
    | with_reducible apply Frame.ite
    | split

theorem frame_execFerryFail (f : Nat) (s : State) : FrameO 78718 127606560192934678845738875410987356160 s (execFerryFail f s) := by
  dsimp only [execFerryFail, ok]
  repeat' first
    | with_reducible assumption
    | with_reducible exact Frame.refl _ _ _
    | intro _
    | apply Eq.refl true
    | apply Eq.refl (_ : Nat)
    | exact FrameO.fault
    | with_reducible apply FrameO.next
    | with_reducible apply Frame.step (g := frame_ferryFail ..)
    | with_reducible apply Frame.ite
    | with_reducible apply FrameO.ite
    | split

theorem frame_execPackageAgentFail (a : Nat) (s : State) : FrameO 81790 127649518336487302341892946380078452736 s (execPackageAgentFail a s) := by
  dsimp only [execPackageAgentFail, ok]
  repeat' first
    | with_reducible assumption
    | with_reducible exact Frame.refl _ _ _
    | intro _
    | apply Eq.refl true
    | apply Eq.refl (_ : Nat)
    | exact FrameO.fault
    | with_reducible apply FrameO.next
    | with_reducible apply Frame.step (g := frame_engineOut ..)
    | with_reducible apply Frame.step (g := frame_fatal ..)
    | with_reducible apply Frame.ite
    | with_reducible apply FrameO.ite
    | split

theorem frame_execD2dLaneFail (edge module lane : Nat) (s : State) : FrameO 77828 127606560083995344874462971787963531264 s (execD2dLaneFail edge module lane s) := by
  dsimp only [execD2dLaneFail, ok]
  repeat' first
    | with_reducible assumption
    | with_reducible exact Frame.refl _ _ _
    | intro _
    | apply Eq.refl true
    | apply Eq.refl (_ : Nat)
    | exact FrameO.fault
    | with_reducible apply FrameO.next
    | with_reducible apply Frame.step (g := frame_post ..)
    | with_reducible apply Frame.step (g := frame_unitLost ..)
    | with_reducible apply Frame.ite
    | with_reducible apply Frame.mk_upd
    | with_reducible apply FrameO.ite
    | (apply Or.inl; apply Eq.refl true)
    | (apply Or.inr; exact rfl)
    | (with_reducible_and_instances rfl)
    | split

theorem frame_phaseFault (s : State) (dom phase : Nat) : Frame 78852 127606560083995344874462971787963531264 s (phaseFault s dom phase) := by
  dsimp only [phaseFault, ok]
  repeat' first
    | with_reducible assumption
    | with_reducible exact Frame.refl _ _ _
    | intro _
    | apply Eq.refl true
    | apply Eq.refl (_ : Nat)
    | with_reducible apply Frame.step (g := frame_bankChange ..)
    | with_reducible apply Frame.step (g := frame_post ..)
    | with_reducible apply Frame.step (g := frame_unitLost ..)
    | with_reducible apply Frame.ite
    | with_reducible apply Frame.mk_upd
    | (apply Or.inl; apply Eq.refl true)
    | (apply Or.inr; exact rfl)
    | (with_reducible_and_instances rfl)
    | split

theorem frame_execRegulatorPhaseFault (dom phase : Nat) (s : State) : FrameO 78852 127606560083995344874462971787963531264 s (execRegulatorPhaseFault dom phase s) := by
  dsimp only [execRegulatorPhaseFault, ok]
  repeat' first
    | with_reducible assumption
    | with_reducible exact Frame.refl _ _ _
    | intro _
    | apply Eq.refl true
    | apply Eq.refl (_ : Nat)
    | exact FrameO.fault
    | with_reducible apply FrameO.next
    | with_reducible apply Frame.step (g := frame_phaseFault ..)
    | with_reducible apply Frame.ite
    | with_reducible apply FrameO.ite
    | split

end Sys2Proof.Laws
end

