-- ==== Sys2Proof/Laws/FrameRegisters.lean ====
section
/-! SUPPORT. What each operation of Machine/Registers.lean may change, as a frame (Laws/Frame.lean): the parts and registers by their bits. -/

namespace Sys2Proof.Laws

open Sys2Proof.Machine

theorem frame_grantWrite (s : State) (c v : Nat) : Frame 0 1024 s (grantWrite s c v) := by
  dsimp only [grantWrite, ok]
  repeat' first
    | with_reducible assumption
    | with_reducible exact Frame.refl _ _ _
    | intro _
    | apply Eq.refl true
    | apply Eq.refl (_ : Nat)
    | with_reducible apply Frame.step (g := frame_storeWord ..)
    | with_reducible apply Frame.ite
    | split

theorem frame_regCfgWrite (s : State) (r v : Nat) : Frame 2 281474976710656 s (regCfgWrite s r v) := by
  dsimp only [regCfgWrite, ok]
  repeat' first
    | with_reducible assumption
    | with_reducible exact Frame.refl _ _ _
    | intro _
    | apply Eq.refl true
    | apply Eq.refl (_ : Nat)
    | with_reducible apply Frame.step (g := frame_storeWord ..)
    | with_reducible apply Frame.foldl
    | with_reducible apply Frame.foldl2
    | with_reducible apply Frame.ite
    | with_reducible apply Frame.pairIte
    | with_reducible apply Frame.mk_upd
    | (apply Or.inl; apply Eq.refl true)
    | (apply Or.inr; exact rfl)
    | (with_reducible_and_instances rfl)
    | split

theorem frame_tideCtrlWrite (s : State) (v : Nat) : Frame 65668 633825301350046553686891560960 s (tideCtrlWrite s v) := by
  dsimp only [tideCtrlWrite, ok]
  repeat' first
    | with_reducible assumption
    | with_reducible exact Frame.refl _ _ _
    | intro _
    | apply Eq.refl true
    | apply Eq.refl (_ : Nat)
    | with_reducible apply Frame.step (g := frame_tideLocal ..)
    | with_reducible apply Frame.step (g := frame_storeWord ..)
    | with_reducible apply Frame.ite
    | split

theorem frame_pstateReg (s : State) (v : Nat) : Frame 66564 124615758430135977199437058299396096 s (pstateReg s v) := by
  dsimp only [pstateReg, ok]
  repeat' first
    | with_reducible assumption
    | with_reducible exact Frame.refl _ _ _
    | intro _
    | apply Eq.refl true
    | apply Eq.refl (_ : Nat)
    | with_reducible apply Frame.put
    | with_reducible apply Frame.step (g := frame_pstateWrite ..)
    | with_reducible apply Frame.ite
    | split

theorem frame_ftReg (s : State) (v : Nat) : Frame 95102 2509624667014577719099725569694491480067 s (ftReg s v) := by
  dsimp only [ftReg, ok]
  repeat' first
    | with_reducible assumption
    | with_reducible exact Frame.refl _ _ _
    | intro _
    | apply Eq.refl true
    | apply Eq.refl (_ : Nat)
    | with_reducible apply Frame.step (g := frame_ftWrite ..)
    | with_reducible apply Frame.ite
    | split

theorem frame_regStore (s : State) (a : RegAt) (v : Nat) : Frame 96255 5444517870735015415413993718908291383295 s (regStore s a v) := by
  dsimp only [regStore, ok]
  repeat' first
    | with_reducible assumption
    | with_reducible exact Frame.refl _ _ _
    | intro _
    | apply Eq.refl true
    | apply Eq.refl (_ : Nat)
    | with_reducible apply Frame.step (g := frame_unitWrite ..)
    | with_reducible apply Frame.step (g := frame_grantWrite ..)
    | with_reducible apply Frame.step (g := frame_bolWrite ..)
    | with_reducible apply Frame.step (g := frame_bolNotifyStore ..)
    | with_reducible apply Frame.step (g := frame_bolNotify ..)
    | with_reducible apply Frame.step (g := frame_wrapWrite ..)
    | with_reducible apply Frame.step (g := frame_regCfgWrite ..)
    | with_reducible apply Frame.step (g := frame_segApply ..)
    | with_reducible apply Frame.step (g := frame_keyWrite ..)
    | with_reducible apply Frame.step (g := frame_tideCtrlWrite ..)
    | with_reducible apply Frame.step (g := frame_berthWrite ..)
    | with_reducible apply Frame.step (g := frame_regionApply ..)
    | with_reducible apply FrameO.of (g := frame_hostCmd ..)
    | with_reducible apply Frame.step (g := frame_hostCmdWrite ..)
    | with_reducible apply Frame.step (g := frame_qCqHead ..)
    | with_reducible apply Frame.step (g := frame_qDoorbell ..)
    | with_reducible apply Frame.step (g := frame_sumpRing ..)
    | with_reducible apply Frame.step (g := frame_sumpHead ..)
    | with_reducible apply Frame.step (g := frame_domWrite ..)
    | with_reducible apply Frame.step (g := frame_pstateReg ..)
    | with_reducible apply Frame.step (g := frame_ftReg ..)
    | with_reducible apply Frame.step (g := frame_storeWord ..)
    | with_reducible apply Frame.ite
    | exact mask_or _
    | split

theorem frame_msixStore (s : State) (o v : Nat) : Frame 65540 0 s (msixStore s o v) := by
  dsimp only [msixStore, ok]
  repeat' first
    | with_reducible assumption
    | with_reducible exact Frame.refl _ _ _
    | intro _
    | apply Eq.refl true
    | apply Eq.refl (_ : Nat)
    | with_reducible apply Frame.step (g := frame_msixFlush ..)
    | with_reducible apply Frame.ite
    | (apply Or.inl; apply Eq.refl true)
    | (apply Or.inr; exact rfl)
    | (with_reducible_and_instances rfl)
    | split
    | with_reducible apply Frame.mk_upd

theorem frame_write32 (s : State) (o v : Nat) : Frame 96255 5444517870735015415413993718908291383295 s (write32 s o v) := by
  dsimp only [write32, ok]
  repeat' first
    | with_reducible assumption
    | with_reducible exact Frame.refl _ _ _
    | intro _
    | apply Eq.refl true
    | apply Eq.refl (_ : Nat)
    | with_reducible apply Frame.step (g := frame_msixStore ..)
    | with_reducible apply Frame.step (g := frame_regStore ..)
    | with_reducible apply Frame.ite
    | (apply Or.inl; apply Eq.refl true)
    | (apply Or.inr; exact rfl)
    | (with_reducible_and_instances rfl)
    | split
    | with_reducible apply Frame.mk_upd

theorem frame_write64 (s : State) (o v : Nat) : Frame 96255 5444517870735015415413993718908291383295 s (write64 s o v) := by
  dsimp only [write64, ok]
  repeat' first
    | with_reducible assumption
    | with_reducible exact Frame.refl _ _ _
    | intro _
    | apply Eq.refl true
    | apply Eq.refl (_ : Nat)
    | with_reducible apply Frame.step (g := frame_regStore ..)
    | with_reducible apply Frame.step (g := frame_write32 ..)
    | with_reducible apply Frame.ite
    | (apply Or.inl; apply Eq.refl true)
    | (apply Or.inr; exact rfl)
    | (with_reducible_and_instances rfl)
    | split
    | with_reducible apply Frame.mk_upd

theorem frame_execRegWrite (o size v : Nat) (s : State) : FrameO 96255 5444517870735015415413993718908291383295 s (execRegWrite o size v s) := by
  dsimp only [execRegWrite, ok]
  repeat' first
    | with_reducible assumption
    | with_reducible exact Frame.refl _ _ _
    | intro _
    | apply Eq.refl true
    | apply Eq.refl (_ : Nat)
    | exact FrameO.fault
    | with_reducible apply FrameO.next
    | with_reducible apply Frame.step (g := frame_write32 ..)
    | with_reducible apply Frame.step (g := frame_write64 ..)
    | with_reducible apply Frame.ite
    | with_reducible apply FrameO.ite
    | split

theorem frame_read32 (s : State) (who o : Nat) : Frame 1 0 s (read32 s who o).2 := by
  dsimp only [read32, ok]
  repeat' first
    | with_reducible assumption
    | with_reducible exact Frame.refl _ _ _
    | intro _
    | apply Eq.refl true
    | apply Eq.refl (_ : Nat)
    | with_reducible apply Frame.ite
    | with_reducible apply Frame.pairIte
    | (apply Or.inl; apply Eq.refl true)
    | (apply Or.inr; exact rfl)
    | (with_reducible_and_instances rfl)
    | split
    | with_reducible apply Frame.mk_upd

theorem frame_read64 (s : State) (who o : Nat) : Frame 1 0 s (read64 s who o).2 := by
  unfold read64
  split
  · exact .refl _ _ _
  · exact (frame_read32 s who o).step (frame_read32 _ who (o + 4)) rfl rfl

theorem frame_answerRead (r : Nat × State) (who : Nat) : Frame 65536 0 r.2 (answerRead r who) := by
  exact (Frame.refl _ _ r.2).upd rfl rfl rfl rfl rfl rfl rfl rfl rfl rfl rfl rfl ⟨.inr rfl, .inr rfl, .inr rfl, .inr rfl, .inr rfl, .inr rfl, .inr rfl, .inr rfl, .inr rfl, .inr rfl, .inr rfl, .inr rfl, .inr rfl, .inr rfl, .inr rfl, .inr rfl, .inl rfl⟩

theorem frame_execRegReadLowerLatch (who o size : Nat) (s : State) : FrameO 65537 0 s (execRegReadLowerLatch who o size s) := by
  dsimp only [execRegReadLowerLatch, ok]
  repeat' first
    | with_reducible assumption
    | with_reducible exact Frame.refl _ _ _
    | intro _
    | apply Eq.refl true
    | apply Eq.refl (_ : Nat)
    | exact FrameO.fault
    | with_reducible apply FrameO.next
    | with_reducible apply Frame.step (g := frame_answerRead ..)
    | with_reducible apply Frame.step (g := frame_read32 ..)
    | with_reducible apply Frame.step (g := frame_read64 ..)
    | with_reducible apply Frame.eqSnd (e := by assumption)
    | with_reducible apply Frame.ite
    | with_reducible apply FrameO.ite
    | split

end Sys2Proof.Laws
end

