-- ==== Sys2Proof/Laws/FrameThread.lean ====
section
/-! SUPPORT. What each operation of Machine/Thread.lean may change, as a frame (Laws/Frame.lean): the parts and registers by their bits. -/

namespace Sys2Proof.Laws

open Sys2Proof.Machine

theorem frame_execVectorOp (at_ : At) (op : VecOp) (s : State) : FrameO 95102 127648098567802957466768813110628200448 s (execVectorOp at_ op s) := by
  dsimp only [execVectorOp, ok]
  repeat' first
    | with_reducible assumption
    | with_reducible exact Frame.refl _ _ _
    | intro _
    | apply Eq.refl true
    | apply Eq.refl (_ : Nat)
    | exact FrameO.fault
    | with_reducible apply FrameO.next
    | with_reducible apply Frame.step (g := frame_touchAll ..)
    | with_reducible apply Frame.step (g := frame_regWrite ..)
    | with_reducible apply FrameO.instrNext
    | with_reducible apply Frame.ite
    | with_reducible apply Frame.mk_upd
    | with_reducible apply FrameO.ite
    | (apply Or.inl; apply Eq.refl true)
    | (apply Or.inr; exact rfl)
    | (with_reducible_and_instances rfl)
    | split

theorem frame_execConvertOp (at_ : At) (op : XOp) (s : State) : FrameO 95102 127648098567802957466768813110628200448 s (execConvertOp at_ op s) := by
  dsimp only [execConvertOp, ok]
  repeat' first
    | with_reducible assumption
    | with_reducible exact Frame.refl _ _ _
    | intro _
    | apply Eq.refl true
    | apply Eq.refl (_ : Nat)
    | exact FrameO.fault
    | with_reducible apply FrameO.next
    | with_reducible apply Frame.step (g := frame_regWrite ..)
    | with_reducible apply Frame.step (g := frame_regTouch ..)
    | with_reducible apply Frame.step (g := frame_goTo ..)
    | with_reducible apply Frame.step (g := frame_touchAll ..)
    | with_reducible apply Frame.step (g := frame_haltTh ..)
    | with_reducible apply FrameO.instrNext
    | with_reducible apply FrameO.instr
    | with_reducible apply Frame.ite
    | with_reducible apply FrameO.ite
    | split

theorem frame_execCensusCount (at_ : At) (census : Nat) (fmt : OpFmt) (src : Src) (s : State) : FrameO 95102 127648098567802957466768813110628200456 s (execCensusCount at_ census fmt src s) := by
  dsimp only [execCensusCount, ok]
  repeat' first
    | with_reducible assumption
    | with_reducible exact Frame.refl _ _ _
    | intro _
    | apply Eq.refl true
    | apply Eq.refl (_ : Nat)
    | exact FrameO.fault
    | with_reducible apply FrameO.next
    | with_reducible apply Frame.step (g := frame_censusCheck ..)
    | with_reducible apply Frame.step (g := frame_haltTh ..)
    | with_reducible apply Frame.step (g := frame_goTo ..)
    | with_reducible apply Frame.step (g := frame_censusNow ..)
    | with_reducible apply Frame.step (g := frame_regTouch ..)
    | with_reducible apply Frame.eqSnd (e := by assumption)
    | with_reducible apply FrameO.instr
    | with_reducible apply Frame.ite
    | with_reducible apply FrameO.ite
    | with_reducible apply Frame.pairIte
    | split

theorem frame_execMaskkey (at_ : At) (dst : Nat) (step layer : Src) (s : State) : FrameO 95102 127648098567802957466768813110628200448 s (execMaskkey at_ dst step layer s) := by
  dsimp only [execMaskkey, ok]
  repeat' first
    | with_reducible assumption
    | with_reducible exact Frame.refl _ _ _
    | intro _
    | apply Eq.refl true
    | apply Eq.refl (_ : Nat)
    | exact FrameO.fault
    | with_reducible apply FrameO.next
    | with_reducible apply Frame.step (g := frame_regWrite ..)
    | with_reducible apply Frame.step (g := frame_touchAll ..)
    | with_reducible apply FrameO.instrNext
    | with_reducible apply Frame.ite
    | with_reducible apply FrameO.ite
    | split

theorem frame_execMaskword (at_ : At) (dst : Nat) (key lo hi : Src) (s : State) : FrameO 95102 127648098567802957466768813110628200448 s (execMaskword at_ dst key lo hi s) := by
  dsimp only [execMaskword, ok]
  repeat' first
    | with_reducible assumption
    | with_reducible exact Frame.refl _ _ _
    | intro _
    | apply Eq.refl true
    | apply Eq.refl (_ : Nat)
    | exact FrameO.fault
    | with_reducible apply FrameO.next
    | with_reducible apply Frame.step (g := frame_regWrite ..)
    | with_reducible apply Frame.step (g := frame_touchAll ..)
    | with_reducible apply FrameO.instrNext
    | with_reducible apply Frame.ite
    | with_reducible apply FrameO.ite
    | split

theorem frame_execBranch (at_ : At) (targets : List (Nat × Nat)) (s : State) : FrameO 95102 127648098567802957466768813110628397056 s (execBranch at_ targets s) := by
  dsimp only [execBranch, ok]
  repeat' first
    | with_reducible assumption
    | with_reducible exact Frame.refl _ _ _
    | intro _
    | apply Eq.refl true
    | apply Eq.refl (_ : Nat)
    | exact FrameO.fault
    | with_reducible apply FrameO.next
    | with_reducible apply Frame.bump
    | with_reducible apply Frame.step (g := frame_setSlot ..)
    | with_reducible apply FrameO.instr
    | with_reducible apply Frame.ite
    | with_reducible apply FrameO.ite
    | (apply Or.inl; apply Eq.refl true)
    | (apply Or.inr; exact rfl)
    | (with_reducible_and_instances rfl)
    | split
    | with_reducible apply Frame.mk_upd

theorem frame_joinsOf (s : State) (core slot : Nat) : Frame 16 0 s (joinsOf s core slot) := by
  dsimp only [joinsOf, ok]
  repeat' first
    | with_reducible assumption
    | with_reducible exact Frame.refl _ _ _
    | intro _
    | apply Eq.refl true
    | apply Eq.refl (_ : Nat)
    | with_reducible apply Frame.step (g := frame_setSlot ..)
    | with_reducible apply Frame.ite
    | (apply Or.inl; apply Eq.refl true)
    | (apply Or.inr; exact rfl)
    | (with_reducible_and_instances rfl)
    | split
    | with_reducible apply Frame.mk_upd

theorem frame_execJoin (at_ : At) (mask : Nat) (s : State) : FrameO 95102 127648098567802957466768813110628200448 s (execJoin at_ mask s) := by
  dsimp only [execJoin, ok]
  repeat' first
    | with_reducible assumption
    | with_reducible exact Frame.refl _ _ _
    | intro _
    | apply Eq.refl true
    | apply Eq.refl (_ : Nat)
    | exact FrameO.fault
    | with_reducible apply FrameO.next
    | with_reducible apply Frame.step (g := frame_joinsOf ..)
    | with_reducible apply Frame.step (g := frame_waitAt ..)
    | with_reducible apply FrameO.instr
    | with_reducible apply Frame.ite
    | with_reducible apply FrameO.ite
    | split

theorem frame_execJoinTimeout (core slot lane : Nat) (s : State) : FrameO 16 0 s (execJoinTimeout core slot lane s) := by
  dsimp only [execJoinTimeout, ok]
  repeat' first
    | with_reducible assumption
    | with_reducible exact Frame.refl _ _ _
    | intro _
    | apply Eq.refl true
    | apply Eq.refl (_ : Nat)
    | exact FrameO.fault
    | with_reducible apply FrameO.next
    | with_reducible apply Frame.step (g := frame_updFrag ..)
    | with_reducible apply Frame.ite
    | with_reducible apply FrameO.ite
    | (apply Or.inl; apply Eq.refl true)
    | (apply Or.inr; exact rfl)
    | (with_reducible_and_instances rfl)
    | split
    | with_reducible apply Frame.mk_upd

theorem frame_execFragmentRotate (core slot lane : Nat) (s : State) : FrameO 16 131072 s (execFragmentRotate core slot lane s) := by
  dsimp only [execFragmentRotate, ok]
  repeat' first
    | with_reducible assumption
    | with_reducible exact Frame.refl _ _ _
    | intro _
    | apply Eq.refl true
    | apply Eq.refl (_ : Nat)
    | exact FrameO.fault
    | with_reducible apply FrameO.next
    | with_reducible apply Frame.bump
    | with_reducible apply Frame.step (g := frame_setSlot ..)
    | with_reducible apply Frame.ite
    | with_reducible apply FrameO.ite
    | (apply Or.inl; apply Eq.refl true)
    | (apply Or.inr; exact rfl)
    | (with_reducible_and_instances rfl)
    | split
    | with_reducible apply Frame.mk_upd

theorem frame_releaseBarrier (s : State) (block : Nat) : Frame 16 0 s (releaseBarrier s block) := by
  dsimp only [releaseBarrier, ok]
  repeat' first
    | with_reducible assumption
    | with_reducible exact Frame.refl _ _ _
    | intro _
    | apply Eq.refl true
    | apply Eq.refl (_ : Nat)
    | with_reducible apply Frame.step (g := frame_updFrags ..)
    | with_reducible apply Frame.ite
    | (apply Or.inl; apply Eq.refl true)
    | (apply Or.inr; exact rfl)
    | (with_reducible_and_instances rfl)
    | split
    | with_reducible apply Frame.mk_upd

theorem frame_execBlockBarrier (at_ : At) (id : Option Nat) (s : State) : FrameO 95102 127648098567802957466768813110628200448 s (execBlockBarrier at_ id s) := by
  dsimp only [execBlockBarrier, ok]
  repeat' first
    | with_reducible assumption
    | with_reducible exact Frame.refl _ _ _
    | intro _
    | apply Eq.refl true
    | apply Eq.refl (_ : Nat)
    | exact FrameO.fault
    | with_reducible apply FrameO.next
    | with_reducible apply Frame.step (g := frame_haltTh ..)
    | with_reducible apply Frame.step (g := frame_releaseBarrier ..)
    | with_reducible apply Frame.step (g := frame_waitAt ..)
    | with_reducible apply FrameO.instr
    | with_reducible apply Frame.ite
    | with_reducible apply FrameO.ite
    | split

theorem frame_execExit (at_ : At) (s : State) : FrameO 95102 127648098567802957466768813120291876864 s (execExit at_ s) := by
  dsimp only [execExit, ok]
  repeat' first
    | with_reducible assumption
    | with_reducible exact Frame.refl _ _ _
    | intro _
    | apply Eq.refl true
    | apply Eq.refl (_ : Nat)
    | exact FrameO.fault
    | with_reducible apply FrameO.next
    | with_reducible apply Frame.step (g := frame_endBlock ..)
    | with_reducible apply Frame.step (g := frame_waitAt ..)
    | with_reducible apply Frame.step (g := frame_updFrag ..)
    | with_reducible apply Frame.step (g := frame_exitReady ..)
    | with_reducible apply Frame.step (g := frame_releaseBarrier ..)
    | with_reducible apply Frame.step (g := frame_joinsOf ..)
    | with_reducible apply FrameO.instr
    | with_reducible apply Frame.ite
    | with_reducible apply Frame.mk_upd
    | with_reducible apply FrameO.ite
    | (apply Or.inl; apply Eq.refl true)
    | (apply Or.inr; exact rfl)
    | (with_reducible_and_instances rfl)
    | split

theorem frame_execHalt (at_ : At) (operand : Nat) (s : State) : FrameO 95102 127648098567802957466768813110628200448 s (execHalt at_ operand s) := by
  dsimp only [execHalt, ok]
  repeat' first
    | with_reducible assumption
    | with_reducible exact Frame.refl _ _ _
    | intro _
    | apply Eq.refl true
    | apply Eq.refl (_ : Nat)
    | exact FrameO.fault
    | with_reducible apply FrameO.next
    | with_reducible apply Frame.step (g := frame_haltTh ..)
    | with_reducible apply FrameO.instr
    | with_reducible apply Frame.ite
    | with_reducible apply FrameO.ite
    | split

end Sys2Proof.Laws
end

