-- ==== Sys2Proof/Laws/FrameTick.lean ====
section
/-! SUPPORT. What each operation of Machine/Tick.lean may change, as a frame (Laws/Frame.lean): the parts and registers by their bits. -/

namespace Sys2Proof.Laws

open Sys2Proof.Machine

theorem frame_jobTick (s : State) (id : Nat) : Frame 95102 127648139132622164771262582509736563176 s (jobTick s id) := by
  dsimp only [jobTick, ok]
  repeat' first
    | with_reducible assumption
    | with_reducible exact Frame.refl _ _ _
    | intro _
    | apply Eq.refl true
    | apply Eq.refl (_ : Nat)
    | with_reducible apply Frame.step (g := frame_arrayTick ..)
    | with_reducible apply Frame.step (g := frame_routineTick ..)
    | with_reducible apply Frame.step (g := frame_tenderTick ..)
    | with_reducible apply Frame.ite
    | split

theorem frame_segTick (s : State) (m : SegMul) : Frame 95102 127648098567802957466768813110627144168 s (segTick s m) := by
  dsimp only [segTick, ok]
  repeat' first
    | with_reducible assumption
    | with_reducible exact Frame.refl _ _ _
    | intro _
    | apply Eq.refl true
    | apply Eq.refl (_ : Nat)
    | with_reducible apply Frame.step (g := frame_taskTick ..)
    | with_reducible apply Frame.foldl
    | with_reducible apply Frame.foldl2
    | with_reducible apply Frame.ite
    | split

theorem frame_tick (s : State) : Frame 127870 127648139132622164771262582509736563176 s (tick s) := by
  dsimp only [tick, ok]
  repeat' first
    | with_reducible assumption
    | with_reducible exact Frame.refl _ _ _
    | intro _
    | apply Eq.refl true
    | apply Eq.refl (_ : Nat)
    | with_reducible apply Frame.step (g := frame_segTick ..)
    | with_reducible apply Frame.step (g := frame_jobTick ..)
    | with_reducible apply Frame.foldl
    | with_reducible apply Frame.foldl2
    | with_reducible apply Frame.ite
    | with_reducible apply Frame.mk_upd
    | (apply Or.inl; apply Eq.refl true)
    | (apply Or.inr; exact rfl)
    | (with_reducible_and_instances rfl)
    | split

end Sys2Proof.Laws
end

