-- ==== Sys2Proof/Laws/Only.lean ====
section
/-! SUPPORT. What a frame gives a reader: each part, each field, and the frame in the words of the statements. -/

namespace Sys2Proof.Laws

open Sys2Proof.Machine

variable {ps rs : Nat} {s t : State}

theorem Frame.get (h : Frame ps rs s t) (f : Fld) (hf : rs.testBit f.reg.ctorIdx = false) (i : Nat := 0) (j : Nat := 0) :
    t.get f i j = s.get f i j := by
  simp [State.get, h.word f.reg hf]

theorem Frame.isSet (h : Frame ps rs s t) (f : Fld) (hf : rs.testBit f.reg.ctorIdx = false) (i : Nat := 0) (j : Nat := 0) :
    t.isSet f i j = s.isSet f i j := by
  rw [State.isSet, State.isSet, h.get f hf i j]

theorem Frame.acc (h : Frame ps rs s t) (b : ps.testBit 0 = false) : t.acc = s.acc := h.parts.part .acc b
theorem Frame.mem (h : Frame ps rs s t) (b : ps.testBit 1 = false) : t.mem = s.mem := h.parts.part .mem b
theorem Frame.hl (h : Frame ps rs s t) (b : ps.testBit 2 = false) : t.hl = s.hl := h.parts.part .hl b
theorem Frame.obj (h : Frame ps rs s t) (b : ps.testBit 3 = false) : t.obj = s.obj := h.parts.part .obj b
theorem Frame.run (h : Frame ps rs s t) (b : ps.testBit 4 = false) : t.run = s.run := h.parts.part .run b
theorem Frame.core (h : Frame ps rs s t) (b : ps.testBit 5 = false) : t.core = s.core := h.parts.part .core b
theorem Frame.eng (h : Frame ps rs s t) (b : ps.testBit 6 = false) : t.eng = s.eng := h.parts.part .eng b
theorem Frame.tide (h : Frame ps rs s t) (b : ps.testBit 7 = false) : t.tide = s.tide := h.parts.part .tide b
theorem Frame.sail (h : Frame ps rs s t) (b : ps.testBit 8 = false) : t.sail = s.sail := h.parts.part .sail b
theorem Frame.fab (h : Frame ps rs s t) (b : ps.testBit 9 = false) : t.fab = s.fab := h.parts.part .fab b
theorem Frame.pwr (h : Frame ps rs s t) (b : ps.testBit 10 = false) : t.pwr = s.pwr := h.parts.part .pwr b
theorem Frame.boot (h : Frame ps rs s t) (b : ps.testBit 11 = false) : t.boot = s.boot := h.parts.part .boot b
theorem Frame.flt (h : Frame ps rs s t) (b : ps.testBit 13 = false) : t.flt = s.flt := h.parts.part .flt b
theorem Frame.free (h : Frame ps rs s t) (b : ps.testBit 14 = false) : t.free = s.free := h.parts.part .free b
theorem Frame.ns (h : Frame ps rs s t) (b : ps.testBit 15 = false) : t.ns = s.ns := h.parts.part .ns b
theorem Frame.out (h : Frame ps rs s t) (b : ps.testBit 16 = false) : t.out = s.out := h.parts.part .out b

theorem Frame.bank (h : Frame ps rs s t) (b : ps.testBit 12 = false) : { t.bank with regs := [] } = { s.bank with regs := [] } :=
  h.parts.part .bank b

theorem Frame.bank_lit (h : Frame ps rs s t) (b : ps.testBit 12 = false) : t.bank.lit = s.bank.lit := by
  have e := congrArg Bank.lit (h.bank b)
  exact e
theorem Frame.bank_bol (h : Frame ps rs s t) (b : ps.testBit 12 = false) : t.bank.bol = s.bank.bol := by
  have e := congrArg Bank.bol (h.bank b)
  exact e
theorem Frame.bank_coreMap (h : Frame ps rs s t) (b : ps.testBit 12 = false) : t.bank.coreMap = s.bank.coreMap := by
  have e := congrArg Bank.coreMap (h.bank b)
  exact e
theorem Frame.bank_sliceMap (h : Frame ps rs s t) (b : ps.testBit 12 = false) : t.bank.sliceMap = s.bank.sliceMap := by
  have e := congrArg Bank.sliceMap (h.bank b)
  exact e
theorem Frame.bank_dpuMap (h : Frame ps rs s t) (b : ps.testBit 12 = false) : t.bank.dpuMap = s.bank.dpuMap := by
  have e := congrArg Bank.dpuMap (h.bank b)
  exact e
theorem Frame.bank_phases (h : Frame ps rs s t) (b : ps.testBit 12 = false) : t.bank.phases = s.bank.phases := by
  have e := congrArg Bank.phases (h.bank b)
  exact e
theorem Frame.bank_path (h : Frame ps rs s t) (b : ps.testBit 12 = false) : t.bank.path = s.bank.path := by
  have e := congrArg Bank.path (h.bank b)
  exact e
theorem Frame.bank_out (h : Frame ps rs s t) (b : ps.testBit 12 = false) : t.bank.out = s.bank.out := by
  have e := congrArg Bank.out (h.bank b)
  exact e
theorem Frame.bank_soft (h : Frame ps rs s t) (b : ps.testBit 12 = false) : t.bank.soft = s.bank.soft := by
  have e := congrArg Bank.soft (h.bank b)
  exact e
theorem Frame.bank_lanes (h : Frame ps rs s t) (b : ps.testBit 12 = false) : t.bank.lanes = s.bank.lanes := by
  have e := congrArg Bank.lanes (h.bank b)
  exact e
theorem Frame.bank_emap (h : Frame ps rs s t) (b : ps.testBit 12 = false) : t.bank.emap = s.bank.emap := by
  have e := congrArg Bank.emap (h.bank b)
  exact e
theorem Frame.bank_hist (h : Frame ps rs s t) (b : ps.testBit 12 = false) : t.bank.hist = s.bank.hist := by
  have e := congrArg Bank.hist (h.bank b)
  exact e

/-- A frame in the words of the statements; the lists are checked part by part and register by register. -/
theorem Frame.only {parts : List Part} {regs : List RegId} (h : Frame ps rs s t) (hp : ∀ p, p ∉ parts → ps.testBit (partBit p) = false)
    (hr : ∀ r, r ∉ regs → rs.testBit r.ctorIdx = false) : Only parts regs s t :=
  ⟨h.pending, fun p k => h.parts.part p (hp p k), fun r k => h.word r (hr r k)⟩

/-- A command that answers a next state answers it within its frame. -/
theorem FrameO.only {parts : List Part} {regs : List RegId} {o : Out} (h : FrameO ps rs s o) (e : o = .next t)
    (hp : ∀ p, p ∉ parts → ps.testBit (partBit p) = false) (hr : ∀ r, r ∉ regs → rs.testBit r.ctorIdx = false) : Only parts regs s t :=
  (h.of_next t e).only hp hr

end Sys2Proof.Laws
end

