-- ==== Sys2Proof/Tests/Slice0.lean ====
section
/-! SUPPORT. Tests of the model: ill-formed commands are refused, the hypotheses of each statement are met by a small state (and the
command then does what the statement says there), words of the table decode to their commands. -/

open Sys2Proof Sys2Proof.Machine Sys2Proof.Claims

set_option maxRecDepth 20000
set_option Elab.async false

namespace Sys2Proof.Tests

/-! Places and operands. -/

def here : At := ⟨0, 0, 0, 8⟩
def there : At := ⟨240, 0, 0, 8⟩
def src0 : Src := ⟨1, false, false⟩
def iss0 : Issue := ⟨0, [], none, none⟩
def issBad : Issue := ⟨64, [], none, none⟩
def ref0 : MRef := ⟨0, 128, .plain .fp32, 0, 0⟩
def ld0 : LoadAcc := ⟨.scratch, src0, 4, 2, .group, false, false⟩
def st0 : StoreAcc := ⟨.scratch, src0, 4, ⟨2, false, false⟩, .group, false, false⟩
def at0 : AtomAcc := ⟨.scratch, src0, 4, .add, ⟨2, false, false⟩, ⟨3, false, false⟩, 4, .group, false, false⟩
def vec0 : VecOp := ⟨.iadd, 2, src0, src0, src0⟩
def mat0 : MatOp := ⟨ref0, ref0, 1, 1, 0, .overwrite, 0, none, none, 0, none, 0, none⟩
def ten0 : TenderJob := ⟨.copy, .scratch 0 0, .scratch 0 64, 1, 4, 64, 64, 1, 4, .plain .fp32, .plain .fp32, 0, 0, 0, .plain .fp32, none, 0⟩
def seg0 : SegJob := ⟨.forward, 0, 1, 1, 1, ref0, ref0, ref0, false, ref0, ref0, ref0, ref0, ref0, ref0, 0, false⟩
def upd0 : UpdateJob := ⟨0, false, false, 0, 0, 0, 0, 0, 0, 0, 0, 0, 0, 0, false, 0⟩
def dis0 : DispatchJob := ⟨0, 1, 1, 0, 0, 0, 0, 0, 0, 1, 1, 0⟩
def com0 : CombineJob := ⟨0, 1, 1, 0, 0, 0, 0, 1, 1, false, none, 0, 0⟩
def attn0 : AttnStep := ⟨.fwd, ref0, ref0, ref0, ref0, ref0, ref0, ref0, ref0, 0, 0, 0, 1, 1, 0, 0, false, false, 0, none⟩
def rou0 : RoutineJob := ⟨0, 0, []⟩

/-- The state a command leaves. -/
def after (c : Instr) (s : State) : State := match exec c s with | .next t => t | _ => s

/-- Whether an outcome is this next state. -/
def answers (o : Out) (t : State) : Bool := match o with | .next u => decide (u = t) | _ => false

theorem next_of {o : Out} {t : State} (h : answers o t = true) : o = .next t := by
  cases o <;> simp_all [answers]

/-! States. -/

/-- Fields set one after the other: field, instance, value. -/
def sets (s : State) (xs : List (Fld × Nat × Nat)) : State := xs.foldl (fun s x => s.put x.1 x.2.2 x.2.1) s

/-- READY in D0 with its path to the host, gallery 0, Cavern 0 and engines 0 powered, core 0 and slices 0 to 3 in service. -/
def live : State :=
  let s := sets State.reset [(F.lkBootStatus_STAGE, 0, 6), (F.hostStatus_READY, 0, 1), (F.hostStatus_BME, 0, 1), (F.fabNode_READY, 0, 1),
    (F.pwrDomStatus_STATE, 0, 0), (F.pwrDomStatus_STATE, 4, 0), (F.pwrDomStatus_STATE, 5, 0), (F.idCoreMap_VALID, 0, 1)]
  { s with boot := { s.boot with standby := true, vinGood := true, perst := false, bistDone := true, hbmDone := true } }

/-! Ill-formed commands: one for each check of Instr.wf. -/

theorem test_ill_formed_1 : [Instr.hardThermalTrip 4 0,
    .setPreferred 2,
    .domainRampEnd 40 false,
    .currentLimitTimeout 40,
    .softStartRetry 40 false,
    .unitBistDone [256] [] [],
    .unitBistDone [] [272] [],
    .unitBistDone [] [] [(1024, 0)],
    .unitBistDone [] [] [(0, 33)],
    .hbmTrainingDone [256],
    .domainCmdOn 40 0 false false 0,
    .domainCmdClockGated 40 0 false false 0,
    .domainCmdRetain 40 0 false false 0,
    .domainCmdOff 40 0 false false 0].all (fun i => !i.wf) = true := by decide

theorem test_ill_formed_2 : [Instr.scheduledCmdStart 41,
    .domainTransitionDone 40,
    .wakeRampStart 40,
    .chargeWindowClose 40,
    .wakeLatch 40,
    .wakeRetry 40 false,
    .clockGateIdle 40,
    .pstateCmd 4 0 false false 0,
    .capInterval 0 0 [(4096, 0)],
    .thermalInterval [],
    .beaconReceive 16 0,
    .pathWindowExpire 2,
    .tideCopyRenew 65536,
    .ferryRun 32].all (fun i => !i.wf) = true := by decide

theorem test_ill_formed_3 : [Instr.ferryStop 32,
    .ferryDepart 32 0,
    .ferryLateHold 32 0,
    .ferryMiss 32 0,
    .sailRunReceive 16 0 [],
    .ackLimitExpire 32 0 0,
    .sailingCut 32 0 0,
    .attemptRestart 32 0 0,
    .sourceSegmentTimeout 32 0 0,
    .ferryAbortOne 32 0 0 0,
    .ferryAbortAll 32 0,
    .berthApply 4096 0,
    .headerSlotReceive 16 [] [] false,
    .headerSlotReceive 0 (List.replicate 5 0) [] false].all (fun i => !i.wf) = true := by decide

theorem test_ill_formed_4 : [Instr.linkSlotReceive 16 ⟨(.ack 0), false⟩,
    .readReceive 16 0,
    .writeReceive 16 0 (false, []),
    .writeMaskedReceive 16 0 (false, []),
    .portTrainingDone 16 0 0 0,
    .portTrainingTimeout 16,
    .laneSignalLoss 16 0,
    .laneSignalLoss 0 8,
    .retrainReqWrite 16 false,
    .retrainMessageReceive 16 0 0,
    .retrainComplete 16 ⟨0, 0⟩ 0,
    .retrainTimeout 16,
    .lanesetReceive 16 0 0,
    .laneErrorWindow 16 0 false false].all (fun i => !i.wf) = true := by decide

theorem test_ill_formed_5 : [Instr.laneErrorWindow 0 8 false false,
    .laneMoveDone 16 0,
    .laneMoveDone 0 8,
    .emitterWorn 160 0,
    .emitterFail 160,
    .emitterRetuneDone 160 0,
    .emitterRetuneDone 0 10,
    .portDisableWrite 16 false,
    .fabRegionApply 1024 0,
    .ctxSuspendDone 4096,
    .ctxCancelDone 4096,
    .teardownStepDone 4096,
    .qCancelDone 16384,
    .moZeroingDone 1048576].all (fun i => !i.wf) = true := by decide

theorem test_ill_formed_6 : [Instr.qDoorbellWrite 16384 0,
    .qCqHeadWrite 16384 0,
    .sqEntryFetch 16384 (List.replicate 64 0) [],
    .sqEntryFetch 0 [] [],
    .sqEntryFetch 0 (List.replicate 64 0) [0],
    .sqeNop 16384,
    .sqeLaunch 16384,
    .sqeSegmul 16384 seg0,
    .sqeEngine 16384 (.post 0 0),
    .sqeBollardAdvance 16384,
    .sqeBarrier 16384,
    .sqeSignal 16384,
    .sqEntryComplete 16384 0,
    .sqEntryComplete 0 65536].all (fun i => !i.wf) = true := by decide

theorem test_ill_formed_7 : [Instr.goReceive 0 4 (List.replicate 64 0),
    .goReceive 0 0 [],
    .segApply 4096 0 0,
    .segApply 0 16 0,
    .segFaultTimeout 4096 0,
    .segFaultTimeout 0 16,
    .keySlotWrite 4096 0,
    .keyGenDone 4096,
    .channelMapOut 256,
    .channelRestore 256,
    .channelMoveDone 256,
    .wrapperRequest 8 0,
    .wrapperDone 8 false [],
    .bolValueWrite 16384 0].all (fun i => !i.wf) = true := by decide

theorem test_ill_formed_8 : [Instr.bolNotifyWrite 16384 false 0,
    .vectorOp there vec0,
    .convertOp there (.fn .recip 0 src0),
    .censusCount here 65536 (.plain .fp32) src0,
    .censusCount there 0 (.plain .fp32) src0,
    .maskkey there 0 src0 src0,
    .maskword there 0 src0 src0 src0,
    .load here { ld0 with width := 3 },
    .load there ld0,
    .loadFill 240 0,
    .store here { st0 with width := 3 },
    .store there st0,
    .atomic here { at0 with width := 3 },
    .atomic there at0].all (fun i => !i.wf) = true := by decide

theorem test_ill_formed_9 : [Instr.fenceRelease there .device,
    .fenceAcquire there .device,
    .fenceAcqRel there .device,
    .fenceSc there .device,
    .grottoWb there 0 0,
    .grottoWbinv there 0 0,
    .grottoInvClean there 0 0,
    .constInvalidate there,
    .descInvalidate there,
    .branch there [],
    .join there 0,
    .joinTimeout 240 0 0,
    .joinTimeout 0 128 0,
    .joinTimeout 0 0 32].all (fun i => !i.wf) = true := by decide

theorem test_ill_formed_10 : [Instr.fragmentRotate 240 0 0,
    .fragmentRotate 0 128 0,
    .fragmentRotate 0 0 32,
    .blockBarrier there none,
    .exit there,
    .halt there 0,
    .tokenWait here (List.replicate 5 0),
    .tokenWait here [64],
    .tokenWait there [],
    .tokenPost here 32 0 [],
    .tokenPost here 0 16 [],
    .tokenPost here 0 0 (List.replicate 5 0),
    .tokenPost here 0 0 [64],
    .tokenPost there 0 0 []].all (fun i => !i.wf) = true := by decide

theorem test_ill_formed_11 : [Instr.bollardAdvance here 0 0 .block,
    .bollardAdvance there 0 0 .device,
    .bollardWait there 0 0 0 false,
    .bollardWaitTimeout 240 0 0,
    .bollardWaitTimeout 0 128 0,
    .bollardWaitTimeout 0 0 32,
    .bollardRead there 0 0 false,
    .matrixOpIssue here iss0 4 mat0,
    .matrixOpIssue here iss0 0 { mat0 with bank := 2 },
    .matrixOpIssue here issBad 0 mat0,
    .matrixOpIssue there iss0 0 mat0,
    .arrayOpAccept 240 0,
    .arrayOpAccept 0 4,
    .arrayOpComplete 240 0 0 0].all (fun i => !i.wf) = true := by decide

theorem test_ill_formed_12 : [Instr.arrayOpComplete 0 4 0 0,
    .segmulIssue here issBad seg0,
    .segmulIssue there iss0 seg0,
    .tenderCopy here iss0 8 ten0,
    .tenderCopy here issBad 0 ten0,
    .tenderCopy there iss0 0 ten0,
    .tenderGather here iss0 8 ten0,
    .tenderGather here issBad 0 ten0,
    .tenderGather there iss0 0 ten0,
    .tenderTranspose here iss0 8 ten0,
    .tenderTranspose here issBad 0 ten0,
    .tenderTranspose there iss0 0 ten0,
    .tenderConvert here iss0 8 ten0,
    .tenderConvert here issBad 0 ten0].all (fun i => !i.wf) = true := by decide

theorem test_ill_formed_13 : [Instr.tenderConvert there iss0 0 ten0,
    .tenderReduce here iss0 8 ten0,
    .tenderReduce here issBad 0 ten0,
    .tenderReduce there iss0 0 ten0,
    .tenderZero here iss0 8 ten0,
    .tenderZero here issBad 0 ten0,
    .tenderZero there iss0 0 ten0,
    .tenderPrefetch here iss0 8 ten0,
    .tenderPrefetch here issBad 0 ten0,
    .tenderPrefetch there iss0 0 ten0,
    .updateTake (.run 8),
    .updateTake (.issue here iss0 2 upd0),
    .updateTake (.issue there iss0 0 upd0),
    .updateTake (.issue here issBad 0 upd0)].all (fun i => !i.wf) = true := by decide

theorem test_ill_formed_14 : [Instr.updateCommit (.run 8),
    .updateCommit (.issue here iss0 2 upd0),
    .updateCommit (.issue there iss0 0 upd0),
    .updateCommit (.issue here issBad 0 upd0),
    .dispatch (.run 8),
    .dispatch (.issue here iss0 2 dis0),
    .dispatch (.issue there iss0 0 dis0),
    .dispatch (.issue here issBad 0 dis0),
    .combine (.run 8),
    .combine (.issue here iss0 2 com0),
    .combine (.issue there iss0 0 com0),
    .combine (.issue here issBad 0 com0),
    .engineJobComplete 0x8020,
    .engineJobComplete 0x9008].all (fun i => !i.wf) = true := by decide

theorem test_ill_formed_15 : [Instr.engineJobComplete 0xA008,
    .engineJobComplete 0x1000,
    .routineIssue here issBad rou0,
    .routineIssue here iss0 { rou0 with body := [.attn attn0] },
    .routineIssue there iss0 rou0,
    .attnFwd 240,
    .attnBwdQ 240,
    .attnBwdKv 240,
    .routineComplete 240,
    .routineMaxCycles 240,
    .blockPlace 0 0 240,
    .coreBind 240,
    .bindZeroDone 240,
    .bindQuantumExpire 240 0].all (fun i => !i.wf) = true := by decide

theorem test_ill_formed_16 : [Instr.bindQuantumExpire 0 4096,
    .sliceScrub 256 0 [],
    .sliceScrub 0 15360 [],
    .sliceEccError 256 0 0,
    .sliceEccError 0 6 0,
    .grottoParityError 240 0 false,
    .rocacheParityError 240 0 0,
    .rocacheParityError 0 3 0,
    .sliceDrainDone 256,
    .sliceJoin 256,
    .channelFail 256,
    .dpuCheckFail 256 ⟨0, 0⟩ 0 false,
    .dpuCheckFail 0 ⟨4, 0⟩ 0 false,
    .dpuCheckFail 0 ⟨0, 0⟩ 33 false].all (fun i => !i.wf) = true := by decide

theorem test_ill_formed_17 : [Instr.arrayParityFail 256 ⟨0, 0⟩,
    .arrayParityFail 0 ⟨4, 0⟩,
    .coreCheckFail 256 none,
    .coreHeartbeatTimeout 256,
    .tenderFail 32,
    .updateEngineFail 8,
    .dispatchEngineFail 8,
    .ferryFail 32,
    .packageAgentFail 4,
    .d2dLaneFail 4 0 0,
    .d2dLaneFail 0 40 0,
    .regulatorPhaseFault 40 0,
    .regulatorPhaseFault 0 15,
    .portTrainingStart 16].all (fun i => !i.wf) = true := by decide

theorem test_ill_formed_18 : [Instr.qDestroyDone 16384,
    .i3cDynamicAddress 128,
    .spareBistDone 40].all (fun i => !i.wf) = true := by decide

/-! Hypotheses of the statements, met: steps and register accesses. -/

def queued : State := { live with pending := [.mainInputGood] }

theorem test_wit_inv : Inv queued := by constructor <;> decide

theorem test_wit_inv_step : Machine.step queued = .next (after .mainInputGood live) := by
  have h : answers (Machine.step queued) (after .mainInputGood live) = true := by decide +kernel
  exact next_of h

theorem test_wit_well_formed : Instr.wf (.hardThermalTrip 3 120) = true ∧ Instr.wf (.vectorOp here vec0) = true
    ∧ Instr.wf (.bolValueWrite 16383 0) = true := by decide

theorem test_wit_dword : Dword .hmBindQuantum 0 0 0x3004000 ∧ setsOff .hmBindQuantum 0 = false ∧ live.hl.d3 = false := by
  refine ⟨by constructor <;> decide, by decide⟩

theorem test_wit_halves : Halves .evt 65535 0 0 0x2A7FFF8 ∧ setsOff .evt 0 = false := by
  refine ⟨by constructor <;> decide, by decide⟩

theorem test_reg_write_narrow : (after (.regWrite 0x3004000 4 0x12345) live).get F.hmBindQuantum_QUANTUM_US = 0x2345
    ∧ (after (.regWrite 0x3004000 2 0x12345) live) = live ∧ ¬(2 = 4 ∧ 0x3004000 % 4 = 0) ∧ ¬(2 = 8 ∧ 0x3004000 % 8 = 0) := by decide

theorem test_reg_write_wide : (after (.regWrite 0x2A7FFF8 8 0x700000C05) live).get F.evt_VECTOR 65535 = 0x405
    ∧ (after (.regWrite 0x2A7FFF8 8 0x700000C05) live).isSet F.evt_ENABLE 65535 = true
    ∧ (after (.regWrite 0x2A7FFF8 8 0x700000C05) live).get F.evt_COUNT 65535 = 7 := by decide

theorem test_wit_bad_size : (after (.regReadLowerLatch 7 1 4) live).out.reads = [(7, 0xFFFFFFFF)]
    ∧ (after (.regReadLowerLatch 7 0 12) live).out.reads = [(7, 2 ^ 96 - 1)] ∧ ¬(12 = 4 ∧ 0 % 4 = 0) ∧ ¬(12 = 8 ∧ 0 % 8 = 0) := by decide

theorem test_wit_split : Halves .pwrDomAt 0 0 0 (0x200008) ∧ smapFind live.acc.held 0x200008 = none := by
  refine ⟨by constructor <;> decide, by decide⟩

theorem test_wit_no_register : inMsix 0x10 = false ∧ inPba 0x10 = false ∧ regAt 0x10 = none ∧ 0x10 % 8 = 0
    ∧ inMsix 0x14 = false ∧ inPba 0x14 = false ∧ regAt 0x14 = none
    ∧ (after (.regReadLowerLatch 3 0x10 8) live).out.reads = [(3, 0)] := by decide

theorem test_wit_grant : Dword .hmCtxGrant 4095 0 0x3003FFC ∧ bitsOf 0xE10F 7 0 + bitsOf 0xE10F 15 8 = 240
    ∧ 240 < bitsOf 0xE110 7 0 + bitsOf 0xE110 15 8 := by
  refine ⟨by constructor <;> decide, by decide⟩

theorem test_grant : (after (.regWrite 0x3003FFC 4 0x2E10F) live).get F.hmCtxGrant_CORE_COUNT 4095 = 225
    ∧ (after (.regWrite 0x3003FFC 4 0x2E10F) live).get F.hmCtxGrant_PRIORITY 4095 = 2
    ∧ (after (.regWrite 0x3003FFC 4 0x2E110) live) = live := by decide

theorem test_wit_map_registers : Halves .idDevice 0 0 0 0 ∧ Dword .idCoreMap 239 0 0x13BC ∧ RegId.idCoreMap ∈ [RegId.idDevice, .idCoreMap, .idSliceMap]
    ∧ live.boot.bistDone = true ∧ State.reset.boot.bistDone = false := by
  refine ⟨by constructor <;> decide, by constructor <;> decide, by decide⟩

theorem test_map_registers : (after (.regReadLowerLatch 1 0 8) State.reset).out.reads = [(1, 2 ^ 64 - 1)]
    ∧ (after (.regReadLowerLatch 1 0x1000 4) live).out.reads = [(1, 0x80000000)] := by decide

def hot : State := { live with hl := { live.hl with d3 := true } }

theorem test_wit_hot : hot.hl.d3 = true ∧ Bar0Write (.regWrite 0x3004000 4 1) ∧ Bar0Write (.ferryRun 31) ∧ Bar0Write (.domainCmdOff 39 0 false 0 0)
    ∧ after (.regWrite 0x3004000 4 1) hot = hot := by
  refine ⟨by decide, trivial, ?_, ?_, by decide⟩ <;> simp only [Bar0Write] <;> decide

/-! Starts, the retained bank, the image and the management port. -/

/-- A valid image in slot A: a header of six sections, CONFIG at 0x100. -/
def flashed (s : State) : State :=
  let sec (k off size : Nat) : List Byte := leBytes 2 k ++ leBytes 2 0 ++ leBytes 4 off ++ leBytes 4 size ++ leBytes 4 0
  let s := flashWrite s 0 (leBytes 4 0x45504E31 ++ leBytes 2 1 ++ leBytes 2 6 ++ leBytes 4 65536 ++ leBytes 2 1 ++ leBytes 2 0 ++ leBytes 4 7)
  let s := flashWrite s 0x40 (sec 2 0x100 0x28 ++ sec 1 0x200 0 ++ sec 3 0x300 0 ++ sec 4 0x400 0 ++ sec 5 0x500 0 ++ sec 6 0x600 0)
  flashWrite s 0x100 (leBytes 2 1 ++ leBytes 2 2 ++ leBytes 1 0 ++ leBytes 1 1 ++ leBytes 13 0 ++ leBytes 1 150)

/-- A start whose ROM runs: stage 1, D39 in service. -/
def rom : State :=
  let s := flashed (sets State.reset [(F.lkBootStatus_STAGE, 0, 1), (F.pwrDomStatus_STATE, 39, 0)])
  { s with boot := { s.boot with standby := true } }

/-- A start past the image's loading, at a stage. -/
def begun (n : Nat) : State :=
  let s := rom.put F.lkBootStatus_STAGE n
  { s with boot := { s.boot with img := some 0, cfg := imgConfig rom 0, vinGood := true, perst := false } }

theorem test_wit_cold : live.boot.standby = true ∧ bestCopy live.boot.mirror = none
    ∧ (bestCopy (after .bankMirrorCopy live).boot.mirror).isSome = true := by decide +kernel

theorem test_wit_warm : startGoesOn live := by unfold startGoesOn; decide +kernel

theorem test_wit_warm_stops : ¬startGoesOn { (sets rom [(F.rbBoot_A_BAD, 0, 1), (F.rbBoot_B_BAD, 0, 1)]) with free := 1 } := by
  unfold startGoesOn; decide +kernel

theorem test_warm_reset : (after .warmReset (sets rom [(F.rbBoot_A_BAD, 0, 1), (F.rbBoot_B_BAD, 0, 1)])).get F.lkBootStatus_STOP_CODE = 1 := by decide +kernel

theorem test_wit_flr : (after .functionReset live).hl.flr = true ∧ (after .functionReset live).ready = false
    ∧ (after .flrComplete (after .functionReset live)).ready = true := by decide +kernel

theorem test_standby_loss : (after .standbyLoss live).domState 0 = 3 ∧ (after .standbyLoss rom).boot.flash = rom.boot.flash := by decide +kernel

theorem test_wit_board_inputs : stage (begun 2) = 2 ∧ (begun 2).boot.perst = false ∧ (begun 2).boot.vinGood = true ∧ (begun 2).pwr.wakeQ = []
    ∧ (begun 2).pwr.win = [] ∧ stage (after .perstDeassert (begun 2)) = 3 ∧ (after .mainInputGood (begun 2)).pwr.win = [0, 1, 2]
    ∧ stage (after .mainInputGood (begun 3)) = 3 := by decide +kernel

theorem test_wit_supply : stage (begun 2) < 6 ∧ (begun 2).pwr.fatals.testBit 0 = false ∧ (after (.inputLowTimeout 40000) live).pwr.fatals.testBit 0 = true
    ∧ stage live = 6 ∧ live.pwr.fatals = 0 ∧ live.boot.vinGood = true := by decide +kernel

theorem test_management : (after .getStateEffecterStates live).out.mgmt = [.effecter 1] ∧ (after .getStateSensorReadings live).out.mgmt = [.sensor 0]
    ∧ (after .getStatus live).out.mgmt = [.fwStatus 0] ∧ (after .jtagAccess live).out.mgmt = [.jtagId 0xC19 1]
    ∧ (after (.setPreferred 1) live).get F.rbBoot_PREFERRED = 1 ∧ (after .clearFaultHistory live).bank.hist = []
    ∧ (after .clearSoftstartSticky (live.put F.rbSoftstartSticky_EVER_LATCHED 5)).get F.rbSoftstartSticky_EVER_LATCHED = 0
    ∧ (after (.i3cDynamicAddress 127) live).boot.dyn = some 127 := by decide +kernel

/-- An update in a state, of slot B while A runs. -/
def updating (s : State) (f : FwState) : State := { s with boot := { s.boot with fw := f, fwSlot := 1, img := some 0 } }

theorem test_wit_update : (updating live .idle).boot.fw = .idle ∧ 6 ≤ stage (updating live .idle) ∧ live.boot.standby = true
    ∧ (updating live .learn).boot.img ≠ some 1 ∧ (updating live .ready).boot.fwSlot = 1
    ∧ slotSize - 2 + [1, 2].length ≤ slotSize ∧ (updating rom .verify).boot.fwSlot < 2
    ∧ imgFault (updating rom .verify) 1 true true ≠ none := by decide +kernel

theorem test_wit_update_valid : (let s := { updating rom .verify with boot := { (updating rom .verify).boot with fwSlot := 0, img := some 1 } }
    imgFault s s.boot.fwSlot true true = none ∧ (after (.verifyComplete true true) s).boot.fw = .apply) := by decide +kernel

theorem test_update_runs : (after .requestUpdate (updating live .idle)).boot.fw = .learn
    ∧ (after (.passComponentTable 1) (updating live .learn)).boot.fw = .ready
    ∧ (after (.updateComponent 1) (updating live .ready)).boot.fw = .download
    ∧ flashByte (after (.requestFirmwareData 4 [0xAB]) (updating live .download)) (slotBase 1 + 4) = 0xAB
    ∧ (after .transferComplete (updating live .download)).boot.fw = .verify
    ∧ (after (.verifyComplete true true) (updating live .verify)).boot.fw = .ready
    ∧ (after .applyComplete (updating live .apply)).boot.fw = .activate
    ∧ (after .activateFirmware (updating live .activate)).get F.rbBoot_PREFERRED = 1
    ∧ (after .cancelUpdate (updating live .verify)).boot.fw = .idle := by decide +kernel

theorem test_wit_image : stage rom = 1 ∧ rom.domState 39 = 0 ∧ imgToTry rom = some 0 ∧ imgFault rom 0 true true = none
    ∧ imgFault rom 0 true false = some 2 ∧ imgBad rom 1 = false := by decide +kernel

theorem test_image_loads : (after (.imageLoadDone true true) rom).get F.lkImageInfo_BUILD = 7 ∧ stage (after (.imageLoadDone true true) rom) = 2
    ∧ imgBad (after (.imageLoadDone true false) rom) 0 = true ∧ attempts (after (.imageLoadDone true true) rom) 0 = 1 := by decide +kernel

theorem test_wit_watchdog : stage (begun 2) = 2 ∧ stage (begun 5) = 5 ∧ (begun 5).boot.img.isSome = true ∧ (begun 5).domState 39 = 0
    ∧ (imgToTry (begun 5)).isSome = true := by decide +kernel

/-- A start whose domain 38 ramps. -/
def ramping (n : Nat) : State :=
  let s := begun 3
  { s with pwr := { s.pwr with ramping := [38] }, boot := { s.boot with latched := if n = 0 then [] else [(38, n)] } }

theorem test_wit_ramp : 3 ≤ stage (ramping 1) ∧ stage (ramping 1) ≤ 5 ∧ (ramping 1).pwr.ramping.contains 38 = true ∧ smapGet (ramping 1).boot.latched 0 38 < 2 := by decide +kernel

/-- A start whose domain has latched `n` times and awaits its retry. -/
def latchedAt (n : Nat) : State :=
  let s := { begun 3 with pwr := { (begun 3).pwr with ramping := [38] } }
  after (.currentLimitTimeout 38) { s with boot := { s.boot with latched := if n = 1 then [] else [(38, n - 1)] } }

theorem test_wit_retry : awaitsRetry (latchedAt 1) 38 = true ∧ smapGet (latchedAt 1).boot.latched 0 38 = 1
    ∧ awaitsRetry (latchedAt 2) 38 = true ∧ smapGet (latchedAt 2).boot.latched 0 38 = 2 ∧ (degradeBit 38).any (mayDegrade (latchedAt 2)) = false := by
  decide +kernel

/-- Stage 4 with every domain in service. -/
def tested : State :=
  let s := (List.range 40).foldl (fun s d => s.put F.pwrDomStatus_STATE 0 d) (begun 4)
  { s with boot := { s.boot with bistDone := false, hbmDone := false } }

theorem test_wit_units : stage tested = 4 ∧ tested.boot.bistDone = false ∧ tested.boot.hbmDone = false
    ∧ (List.range 8).all (fun m => tested.domState (24 + m) == 0) = true := by decide +kernel

def joined : State := { tested with boot := { tested.boot with bistDone := true, hbmDone := true } }

theorem test_wit_join : joined.boot.cfg.isSome = true ∧ stage joined = 4
    ∧ (List.range 39).all (fun d => joined.domState d == 0 || joined.boot.offAt.contains d) = true := by decide +kernel

theorem test_bank : (after (.cellMeasure 2599) live).isSet F.rbStatus_CELL_LOW = true ∧ (after (.cellMeasure 2600) live).isSet F.rbStatus_CELL_LOW = false
    ∧ (after .bankMirrorCopy live).boot.mirrorNext = 1 := by decide +kernel

/-! Power. -/

/-- Command `c` on a domain is under way. -/
def commanded (s : State) (d target : Nat) (started : Bool) : State :=
  { s with pwr := { s.pwr with cmd := [(d, ⟨target, 3, 9, true, 2048, started⟩)] } }

/-- A block on core 0 keeps its gallery. -/
def busyGallery : State :=
  { live with run := { live.run with blocks := [⟨2, 1, 1, 0, 0, 0, 1, [0], List.replicate 64 ⟨true, 0⟩⟩] } }

theorem test_wit_domain_commands : 511 % 256 ≠ live.get F.pwrDomCtrl_REQ_SEQ 0 ∧ smapFind live.pwr.cmd 0 = none ∧ live.ready = true
    ∧ live.isSet F.pwrDomStatus_MAPPED_OUT 0 = false ∧ allowed 0 2 = true ∧ mayLeave live 0 2 = true ∧ live.domState 0 ≠ 2
    ∧ live.domState 0 = 0 ∧ allowed 4 2 = false ∧ allowed 39 3 = false ∧ mayLeave busyGallery 0 3 = false ∧ allowed 0 3 = true
    ∧ 256 % 256 = live.get F.pwrDomCtrl_REQ_SEQ 39 := by decide +kernel

theorem test_domain_commands : (after (.domainCmdRetain 0 511 false true 9) live).isSet F.pwrDomStatus_BUSY = true
    ∧ (after (.domainCmdOn 0 511 false true 9) live).get F.pwrDomStatus_DONE_SEQ = 255
    ∧ (after (.domainCmdOff 39 1 false true 9) live).get F.pwrDomStatus_RESULT 39 = 1
    ∧ (after (.domainCmdOff 0 1 false true 9) busyGallery).get F.pwrDomStatus_RESULT = 2
    ∧ (after (.domainCmdClockGated 0 1 false true 9) live).isSet F.pwrDomStatus_BUSY = true := by decide +kernel

theorem test_wit_scheduled : live.isSet F.tideLock_VALID = false ∧ (after (.domainCmdOff 5 1 true true 9) live).isSet F.pwrDomStatus_SCHEDULED 5 = true
    ∧ (let s := commanded (live.put F.tideLock_VALID 1 |>.put F.tideCount_COUNT 2048) 0 1 false
       smapFind s.pwr.cmd 0 = some ⟨1, 3, 9, true, 2048, false⟩ ∧ boundaryAt 2048 ≤ s.tideNow ∧ s.isSet F.tideLock_VALID = true ∧ s.domState 0 ≠ 1
         ∧ (after (.scheduledCmdStart 0) s).isSet F.pwrDomStatus_BUSY = true) := by decide +kernel

theorem test_wit_scheduled_pstate : (let s := commanded (live.put F.tideLock_VALID 1 |>.put F.tideCount_COUNT 2048) 40 1 false
       smapFind s.pwr.cmd 40 = some ⟨1, 3, 9, true, 2048, false⟩ ∧ s.get F.pwrPstate_CURRENT ≠ 1
         ∧ (after (.scheduledCmdStart 40) s).isSet F.pwrPstate_BUSY = true) := by decide +kernel

theorem test_wit_transitions : (commanded live 0 1 true).domState 0 < 2
    ∧ (after (.domainTransitionDone 0) (commanded live 0 1 true)).domState 0 = 1
    ∧ 2 ≤ live.domState 1 ∧ workDone (commanded live 0 2 true) 0 2 = true ∧ (after (.domainTransitionDone 0) (commanded live 0 2 true)).domState 0 = 2
    ∧ (let s := { commanded live 1 0 true with boot := { live.boot with ramped := [1] } }
       s.boot.ramped.contains 1 = true ∧ (after (.domainTransitionDone 1) s).get F.pwrDomStatus_WAKES 1 = 1) := by decide +kernel

theorem test_wit_wake_retry : (let s := commanded { live with pwr := { live.pwr with tries := [(1, 2)] } } 1 0 true
    let s := { s with pwr := { s.pwr with tries := [(1, 2)] } }
    smapGet s.pwr.tries 0 1 ≠ 0 ∧ stage s = 6 ∧ (after (.wakeRetry 1 true) s).domState 1 = 0) := by decide +kernel

/-- Domain 39 is next to wake with two windows open, or ramps and has latched `n` times. -/
def waking (n : Nat) : State :=
  let ramp := if n = 3 then [] else [39]
  let tries := if n = 0 ∨ n = 3 then [] else [(39, n)]
  { live with pwr := { live.pwr with wakeQ := [39], win := [1, 2], ramping := ramp, tries := tries, cmd := [(39, ⟨0, 3, 9, true, 0, true⟩)] } }

theorem test_wit_wake_queue : (waking 3).pwr.wakeQ.head? = some 39 ∧ (waking 3).pwr.win.length < 3
    ∧ (after (.wakeRampStart 39) (waking 3)).pwr.win = [1, 2, 39] ∧ (after (.chargeWindowClose 1) (waking 3)).pwr.win = [2]
    ∧ (waking 1).pwr.ramping.contains 39 = true ∧ stage (waking 1) = 6 ∧ smapGet (waking 1).pwr.tries 0 39 < 2 ∧ 2 ≤ smapGet (waking 2).pwr.tries 0 39 := by
  decide +kernel

theorem test_wit_clock_gate : (let s := live.put F.pwrDomStatus_STATE 1 0
    s.domState 0 = 1 ∧ idleNow s 0 = true ∧ (after (.clockGateIdle 0) s).isSet F.pwrDomStatus_GATED = true) := by decide +kernel

theorem test_wit_spares_return : (let s := { live with flt := { live.flt with untested := [0x100F, 0x3040] } }
    s.domOn 0 = true ∧ s.domOn 4 = true ∧ (after (.spareBistDone 0) s).flt.untested = [0x3040] ∧ (after (.spareBistDone 4) s).flt.untested = [0x100F]) := by
  decide +kernel

theorem test_wit_pstate : 1 % 256 ≠ live.get F.pwrPstate_REQ_SEQ ∧ smapFind live.pwr.cmd 40 = none ∧ live.get F.pwrPstate_CURRENT ≠ 3
    ∧ (after (.pstateCmd 3 1 false true 9) live).isSet F.pwrPstate_BUSY = true ∧ (after (.pstateCmd 0 1 false true 9) live).get F.pwrPstate_DONE_SEQ = 1
    ∧ (commanded live 40 3 true).eng.jobs.any (fun j => j.acc && j.started) = false
    ∧ (after .pstateClockSwitch (commanded live 40 3 true)).get F.pwrPstate_CURRENT = 3 := by decide +kernel

theorem test_wit_cap : live.pwr.spans = [800000, 120000, 130000] ∧ (after (.capInterval 2500000 48000 []) live).get F.pwrCap_U_MW = 100000
    ∧ (after (.capInterval 2500000 48000 []) live).get F.pwrInput_POWER_DW = 25000 := by decide +kernel

/-- Thresholds at the image's default. -/
def limited : State := sets live [(F.pwrTherm_LIMIT_C, 0, 95), (F.pwrTherm_LIMIT_C, 2, 95), (F.pwrTherm_LIMIT_C, 3, 95)]

theorem test_wit_thermal : stage live = 6 ∧ live.pwr.fatals = 0 ∧ (after (.thermalInterval [109, 93, 95, 96]) limited).get F.pwrTherm_LEVEL 0 = 56
    ∧ (after (.thermalInterval [109, 93, 95, 96]) limited).get F.pwrTherm_LEVEL 3 = 4
    ∧ (after (.thermalInterval [109, 93, 95, 96]) limited).get F.pwrTherm_LEVEL 2 = 0 := by decide +kernel

/-! The tide. -/

/-- A beacon of source 2 with a count and its check. -/
def beacon (count : Nat) : Packet :=
  let p := mkPacket [(7, 0, 0x20), (31, 16, 2), (47, 32, 2), (111, 48, count)]
  mkPacket [(7, 0, 0x20), (31, 16, 2), (47, 32, 2), (111, 48, count), (119, 112, (crc8 (leBytes 14 (p.toNat % 2 ^ 112))).toNat)]

/-- Port 1 UP and the active path, the count 10,000, the lock in a state. -/
def tided (st : Nat) (t : Tide) : State :=
  { sets live [(F.tidePaths_SOURCE, 0, 2), (F.tidePaths_PORT_A, 0, 1), (F.tidePaths_PORT_B, 0, 2), (F.fabPortStatus_STATE, 1, 2),
      (F.tideCount_COUNT, 0, 10000), (F.tideLock_STATE, 0, st), (F.tideLock_VALID, 0, if st = 0 then 0 else 1)] with tide := t }

theorem test_wit_beacon : ActiveBeacon (tided 2 live.tide) 1 (beacon 10000) := by unfold ActiveBeacon; decide +kernel

theorem test_wit_beacon_states : tideState (tided 0 live.tide) = tFree ∧ tideState (tided 2 live.tide) = tLocked
    ∧ beaconOffset (tided 2 live.tide) 1 (beacon 10256) = 256 ∧ 64 < beaconOffset (tided 2 live.tide) 1 (beacon 10065)
    ∧ beaconOffset (tided 2 live.tide) 1 (beacon 10064) = 64 ∧ beaconOffset (tided 2 live.tide) 1 (beacon 9744) = -256
    ∧ (beaconOffset (tided 1 live.tide) 1 (beacon 10004)).natAbs ≤ 4 ∧ 256 < (beaconOffset (tided 2 live.tide) 1 (beacon 9743)).natAbs
    ∧ tideState (tided 5 live.tide) = tLocal := by decide +kernel

theorem test_beacons : (after (.beaconReceive 1 (beacon 5)) (tided 0 live.tide)).get F.tideCount_COUNT = 5
    ∧ (after (.beaconReceive 1 (beacon 10065)) (tided 2 live.tide)).get F.tideCount_COUNT = 10065
    ∧ (after (.beaconReceive 1 (beacon 9900)) (tided 2 live.tide)).tide.half = true
    ∧ tideState (after (.beaconReceive 1 (beacon 20000)) (tided 2 { live.tide with outliers := 2 })) = tAcquiring
    ∧ tideState (after (.beaconReceive 1 (beacon 10004)) (tided 1 { live.tide with good := 3 })) = tLocked
    ∧ (after (.beaconReceive 1 (beacon 5)) (tided 5 live.tide)).get F.tideCount_COUNT = 10000 := by decide +kernel

theorem test_tide_tick : (after .tideTick (tided 2 { live.tide with err := 2, phase := 1023 })).get F.tideCount_COUNT = 10002
    ∧ (after .tideTick (tided 2 { live.tide with err := -2, phase := 1023 })).get F.tideCount_COUNT = 10000
    ∧ (after .tideTick (tided 2 { live.tide with err := -70, half := true, phase := 0 })).get F.tideCount_COUNT = 10000
    ∧ (after .tideTick live).tide.since = live.tide.since + 1 := by decide +kernel

theorem test_wit_tide_loss : (let t := { live.tide with since := 12288, sinceB := 100, seenB := true }
    let s := (tided 2 t).put F.tideCtrl_PATH_B_EN 1
    12288 ≤ s.tide.since ∧ tideState s ≠ tLocal ∧ (s.isSet F.tideCtrl_PATH_B_EN && otherRecent s) = true
      ∧ activePath (after .beaconLossTimeout s) = 1 ∧ (s.put F.tideCtrl_PATH_B_EN 0).isSet F.tideCtrl_PATH_B_EN = false
      ∧ tideState (after .beaconLossTimeout (s.put F.tideCtrl_PATH_B_EN 0)) = tHoldover) := by decide +kernel

theorem test_wit_holdover : (let s := tided 3 { live.tide with hold := 10000000 }
    tideState s = tHoldover ∧ 10000000 ≤ s.tide.hold ∧ tideState (after .holdoverTimeout s) = tLost) := by decide +kernel

theorem test_wit_windows : (let s := sets (tided 2 { live.tide with sinceA := 8192, sinceB := 8192 }) [(F.tideLock_PATH_A_OK, 0, 1), (F.tideLock_PATH_B_OK, 0, 1)]
    8192 ≤ s.tide.sinceA ∧ 8192 ≤ s.tide.sinceB ∧ (after (.pathWindowExpire 0) s).isSet F.tideLock_PATH_A_OK = false
      ∧ (after (.pathWindowExpire 1) s).isSet F.tideLock_PATH_A_OK = true) := by decide +kernel

theorem test_wit_local : (tided 2 live.tide).isSet F.tideCtrl_LOCAL = false ∧ tideState (after (.tideLocalWrite true) (tided 2 live.tide)) = tLocal
    ∧ (after (.tideLocalWrite true) (tided 2 live.tide)).isSet F.tideCtrl_LOCAL = true
    ∧ (after (.tideCopyRenew 0x7003) { live with tide := { live.tide with stale := [0x7003] } }).tide.stale = [] := by decide +kernel

/-! Ferries. -/

/-- Ferry 0 of context 1 with one entry of no lines to node 2, berth 7, due at count 2,048; port 3 UP. -/
def ferried (miss run : Nat) : State :=
  let s := sets live [(F.fabNode_NODE, 0, 9), (F.fabPortStatus_STATE, 3, 2), (F.ferryCtrl_VALID, 0, 1), (F.ferryCtrl_OWNER, 0, 1), (F.ferryCtrl_RUN, 0, run),
    (F.ferryEpoch_EPOCH, 0, 2048), (F.ferryPeriod_PERIOD, 0, 8), (F.ferryRoute_VALID, 0, 1), (F.ferryRoute_NODE, 0, 2), (F.tideLock_VALID, 0, 1),
    (F.tideCount_COUNT, 0, 3072)]
  sets s [(F.tt_VALID, 0, 1), (F.tt_LAST, 0, 1), (F.tt_COND, 0, 0x3F), (F.tt_BERTH, 0, 7), (F.tt_MISS_ACTION, 0, miss)]

def sail0 : Sailing := ⟨0, 0, 5, 0, 0, 7, 2, 1, 0, 0, 0, 0, [3], .sailing, 0, some 4, 0, none, 0⟩

/-- A sailing of ferry 0 is under way. -/
def sailed (x : Sailing) : State := { ferried 0 1 with sail := { live.sail with sailings := [x], cycle := [(0, 6)] } }

theorem test_wit_ferry_run : (ferried 0 0).isSet F.ferryCtrl_RUN = false ∧ runCheck (ferried 0 0) 0 = 0 ∧ live.hl.d3 = false
    ∧ (ferried 0 0).unitOff .ferryCtrl 0 = false ∧ (after (.ferryRun 0) (ferried 0 0)).isSet F.ferryCtrl_RUN = true
    ∧ (let s := live.put F.pwrDomStatus_STATE 0 23
       s.unitOff .ferryCtrl 31 = false ∧ runCheck s 31 = 1 ∧ (after (.ferryRun 31) s).get F.ferryStatus_REJECT_REASON 31 = 1)
    ∧ live.unitOff .ferryCtrl 31 = true ∧ (after (.ferryRun 31) live).pwr.late ≠ []
    ∧ (after (.ferryStop 0) (ferried 0 1)).isSet F.ferryCtrl_RUN = false := by decide +kernel

theorem test_wit_ferry_abort : sailingOf (sailed sail0) 0 0 5 = some sail0 ∧ sailingOf (sailed sail0) 0 4095 65535 = none
    ∧ entryWaits (sailed sail0) 0 4095 65535 = false ∧ (sailed sail0).get F.ferryAbort_REQ_SEQ 0 = 0
    ∧ sailingOf (sailed sail0) 0 0 6 = none ∧ entryWaits (sailed sail0) 0 0 6 = true ∧ (after (.ferryAbortOne 0 0 6 255) (sailed sail0)).get F.ferryExc_ABORTED = 1
    ∧ (after (.ferryAbortOne 0 0 5 0) (sailed sail0)).get F.ferryExc_ABORTED = 0 := by decide +kernel

theorem test_ferry_abort : (after (.ferryAbortOne 0 0 5 255) (sailed sail0)).get F.ferryAbort_DONE_SEQ = 255
    ∧ (after (.ferryAbortOne 0 0 5 255) (sailed sail0)).get F.ferryExc_ABORTED = 1
    ∧ (after (.ferryAbortOne 0 4095 65535 9) (sailed sail0)).get F.ferryAbort_RESULT = 3
    ∧ (after (.ferryAbortAll 0 9) (sailed sail0)).get F.ferryAbort_RESULT = 4 := by decide +kernel

theorem test_wit_depart : considered (ferried 0 1) 0 = some (nextSailing (ferried 0 1) 0) ∧ mayDepart (ferried 0 1) (nextSailing (ferried 0 1) 0) 3072 = true
    ∧ departed (ferried 0 1) (nextSailing (ferried 0 1) 0) = false ∧ (ferried 0 1).isSet F.tt_LEN_FROM_HEADER = false ∧ (nextSailing (ferried 0 1) 0).lines = 0
    ∧ leastQueued (ferried 0 1) (attemptPorts (ferried 0 1) 0 0) = some 3 ∧ (portState (ferried 0 1) 3).queue = []
    ∧ 1 ≤ (portState (ferried 0 1) 3).credits ∧ (portState (ferried 0 1) 3).kept < replaySlots := by decide +kernel

theorem test_depart : (after (.ferryDepart 0 3072) (ferried 0 1)).get F.ferryCount_LATE = 1
    ∧ (after (.ferryDepart 0 3072) (ferried 0 1)).out.pkts.map (fun x => (x.1, pkType x.2, pkBerth x.2)) = [(3, 0x10, 7)] := by decide +kernel

/-- The gate is closed: the entry cannot depart. -/
def gated (miss : Nat) : State := sets (ferried miss 1) [(F.tt_GATE_EN, 0, 1)]

theorem test_wit_late : (let x := nextSailing (gated 0) 0
    considered (gated 0) 0 = some x ∧ limitAt (gated 0) x 3072 = true ∧ mayDepart (gated 0) x 3072 = false ∧ (gated 0).isSet F.tt_MISS_ACTION = false
      ∧ (gated 0).sail.held.contains (0, 0, 0) = false ∧ (after (.ferryLateHold 0 3072) (gated 0)).sail.held = [(0, 0, 0)]) := by decide +kernel

theorem test_wit_miss : (let x := nextSailing (gated 1) 0
    considered (gated 1) 0 = some x ∧ limitAt (gated 1) x 3072 = true ∧ mayDepart (gated 1) x 3072 = false ∧ (gated 1).isSet F.tt_MISS_ACTION = true
      ∧ departed (gated 1) x = false ∧ (after (.ferryMiss 0 3072) (gated 1)).get F.ferryCount_MISSED = 1) := by decide +kernel

/-- A packet from node 2 about the sailing, of a type and reason. -/
def about (ty reason limit : Nat) : Packet :=
  if ty = 0x16 then mkPacket [(7, 0, ty), (31, 16, 9), (47, 32, 2), (59, 48, 7), (95, 64, limit)]
  else mkPacket [(7, 0, ty), (31, 16, 9), (47, 32, 2), (59, 48, 7), (107, 92, 5), (115, 108, reason)]

theorem test_wit_settles : sailingFor (sailed sail0) (about 0x11 0 0) = some sail0 ∧ pkType (about 0x11 0 0) = tLandAck
    ∧ sailingFor (sailed sail0) (about 0x14 0x10 0) = some sail0 ∧ pkType (about 0x14 0x13 0) = tTurnBack ∧ pkReason (about 0x14 0x13 0) = 0x13
    ∧ pkReason (about 0x14 1 0) = 1 ∧ pkType (about 0x16 0 8192) = tWindow ∧ sail0.lines = 0
    ∧ (sailed sail0).sail.sailings.find? (fun x => x.st == .sailing && x.node == pkSrc (about 0x16 0 8192) && x.berth == pkBerth (about 0x16 0 8192)
        && x.attempt % 4 == pkAttempt (about 0x16 0 8192)) = some sail0 := by decide +kernel

theorem test_settles : (after (.landAckReceive (about 0x11 0 0)) (sailed sail0)).get F.ferryCount_SAILED = 1
    ∧ bolValue (after (.landAckReceive (about 0x11 0 0)) (sailed sail0)) 4 = 1
    ∧ (after (.turnBackReceive (about 0x14 0x10 0)) (sailed sail0)).get F.ferryExc_TURNED_BACK = 1
    ∧ (after (.turnBackReceive (about 0x14 5 0)) (sailed sail0)).get F.ferryExc_ABORTED = 1
    ∧ (after (.windowReceive (about 0x16 0 8192)) (sailed sail0)).sail.sailings.map (fun x => x.limit) = [8192] := by decide +kernel

/-- A cut sailing whose run still stands in its port's replay buffer. -/
def cutOut : State :=
  let s := sailed { sail0 with st := .cutting }
  { s with fab := { s.fab with port := [(3, { PortState.initial with replay := [⟨5, [⟨mkPacket [(7, 0, 0x10), (47, 32, 9), (107, 92, 5)], [], none⟩]⟩] })] } }

theorem test_wit_named : Named (sailed sail0) 0 0 5 sail0 ∧ Named (sailed { sail0 with cuts := 2 }) 0 0 5 { sail0 with cuts := 2 }
    ∧ Named (sailed { sail0 with st := .cutting, segWait := some 3 }) 0 0 5 { sail0 with st := .cutting, segWait := some 3 }
    ∧ Named (sailed { sail0 with st := .cutting }) 0 0 5 { sail0 with st := .cutting } ∧ Named cutOut 0 0 5 { sail0 with st := .cutting } := by
  unfold Named; decide +kernel

theorem test_named : linesOut cutOut { sail0 with st := .cutting } = true ∧ linesOut (sailed { sail0 with st := .cutting }) { sail0 with st := .cutting } = false
    ∧ (after (.attemptRestart 0 0 5) (sailed { sail0 with st := .cutting })).get F.ferryExc_REPLAYED = 1 ∧ sail0.st = .sailing ∧ sail0.sent = sail0.lines ∧ sail0.cuts < 2
    ∧ (after (.ackLimitExpire 0 0 5) (sailed sail0)).get F.ferryExc_ABORTED = 1
    ∧ (after (.sailingCut 0 0 5) (sailed sail0)).sail.sailings.map (fun x => x.st) = [.cutting]
    ∧ (after (.sailingCut 0 0 5) (sailed { sail0 with cuts := 2 })).get F.ferryExc_ABORTED = 1
    ∧ (after (.attemptRestart 0 0 5) (sailed { sail0 with st := .cutting, segWait := some 3 })).sail.sailings.map (fun x => x.attempt) = [1] := by decide +kernel

theorem test_wit_source_segment : (let x := { sail0 with st := .waiting, segWait := some 3 }
    let s := (sailed x).put F.segFaultLimit_LIMIT_MS 1
    s.get F.segFaultLimit_LIMIT_MS ≠ 0 ∧ segBack s x = false ∧ (after (.sourceSegmentTimeout 0 0 5) s).get F.ferryExc_ABORTED = 1) := by decide +kernel

/-! Berths. -/

/-- Berth 7 of context 1, OPEN to ferry 0 of node 2, its region of one line at 0, land bollard 4. -/
def berthed (st : Nat) (x : Berth) : State :=
  let s := sets live [(F.fabNode_NODE, 0, 9), (F.fabPortStatus_STATE, 15, 2), (F.dramSpace_LIMIT_GROUPS, 0, 2), (F.berthStatus_STATE, 7, st), (F.bolCtrl_VALID, 4, 1), (F.bolCtrl_OWNER, 4, 1)]
  { s with sail := { s.sail with berth := [(7, x)] },
           mem := { s.mem with seg := [(16, ⟨0, 65536, 65536, 0, true, 0, true, true, true, false, false, 0, 0, 0⟩)] } }

def berth0 : Berth := ⟨0, 1 + 4096 + 2 * 2 ^ 32, 4, 1, none, [], none, 0, 0, 0, none⟩

/-- A run of `n` lines of a sailing of `lines` lines from node 2. -/
def run (first lines n attempt : Nat) : Packet :=
  mkPacket [(7, 0, 0x10), (31, 16, 9), (47, 32, 2), (59, 48, 7), (61, 60, attempt), (107, 92, 5), (159, 128, first), (191, 160, lines), (203, 192, n)]

def key0 : SailKey := ⟨2, 0, 0, 5⟩

theorem test_wit_expected : Expected (berthed 1 berth0) (run 0 1 1 0) := by unfold Expected; decide +kernel

theorem test_wit_landing : pkType (run 0 1 1 0) = tSailRun ∧ (live.put F.fabNode_READY 0).isSet F.fabNode_READY = false
    ∧ expected (berthRec (berthed 1 berth0) 7) (keyOf (run 0 1 1 1)) % 4 ≠ pkAttempt (run 0 1 1 1)
    ∧ (berthRec (berthed 1 berth0) (pkBerth (run 1 1 1 0))).cur ≠ some (keyOf (run 1 1 1 0)) ∧ pf (run 1 1 1 0) 159 128 ≠ 0
    ∧ landChecks (berthed 1 berth0) 7 (run 0 2 1 0) = (some 3, none) ∧ landChecks (berthed 4 berth0) 7 (run 0 1 1 0) = (some 0x10, none)
    ∧ landChecks (berthed 1 berth0) 7 (run 0 1 1 0) = (none, none)
    ∧ (berthRec (berthed 2 { berth0 with cur := some key0 }) 7).landed < pf (run 1 2 1 0) 159 128 ∧ keyOf (run 1 2 1 0) = key0
    ∧ berthState (berthed 2 { berth0 with cur := some key0 }) 7 = bReceiving ∧ storeFits (berthed 1 berth0) 7 1 = true
    ∧ (landLines (takenUp (berthed 1 berth0) 15 (run 0 1 0 0)) (berthRec (takenUp (berthed 1 berth0) 15 (run 0 1 0 0)) 7) 0 []).1 = none := by decide +kernel

theorem test_landing : (after (.sailRunReceive 15 (run 0 2 1 0) [(false, List.replicate 64 1)]) (berthed 1 berth0)).out.pkts.map (fun x => pkReason x.2) = [3]
    ∧ (after (.sailRunReceive 15 (run 1 1 1 0) []) (berthed 1 berth0)).sail.reorder.length = 1
    ∧ berthState (after (.sailRunReceive 15 (run 0 0 0 0) []) (berthed 1 berth0)) 7 = bPending := by decide +kernel

/-- The sailing's packets that settle, cut or miss it; `k` is its name at the receiver. -/
def told (ty aborted : Nat) : Packet := mkPacket [(7, 0, ty), (31, 16, 9), (47, 32, 2), (59, 48, 7), (107, 92, 5), (116, 116, aborted)]

theorem test_wit_berth_settles : keyOf (told 0x12 0) = key0 ∧ pkType (told 0x12 0) = tSettle ∧ pf (told 0x12 1) 116 116 = 1 ∧ pkType (told 0x13 0) = tCut
    ∧ pkType (told 0x15 0) = tMissed ∧ pkType (told 0x17 0) = tNodeReset ∧ (berthRec (berthed 3 { berth0 with cur := some key0 }) 7).later = none
    ∧ berthState (berthed 3 { berth0 with cur := some key0 }) 7 = bPending := by decide +kernel

theorem test_wit_berth_expected : Expected (berthed 3 { berth0 with cur := some key0 }) (told 0x12 0) ∧ Expected (berthed 2 { berth0 with cur := some key0 }) (told 0x13 0)
    ∧ Expected (berthed 1 berth0) (told 0x12 1) := by
  unfold Expected; decide +kernel

theorem test_berth_settles : (after (.settleReceive (told 0x12 0)) (berthed 3 { berth0 with cur := some key0 })).get F.berthStatus_LANDED 7 = 1
    ∧ bolValue (after (.settleReceive (told 0x12 0)) (berthed 3 { berth0 with cur := some key0 })) 4 = 1
    ∧ (after (.settleReceive (told 0x12 1)) (berthed 2 { berth0 with cur := some key0 })).get F.berthStatus_ABORTS 7 = 1
    ∧ expected (berthRec (after (.cutReceive (told 0x13 0)) (berthed 2 { berth0 with cur := some key0 })) 7) key0 = 1
    ∧ (after (.missedReceive (told 0x15 0)) (berthed 1 berth0)).flt.seq = 1
    ∧ berthState (after (.nodeResetReceive (told 0x17 0)) (berthed 2 { berth0 with cur := some key0 })) 7 = bOpen := by decide +kernel

theorem test_berth_apply : (berthRec (after (.berthApply 7 0x1001) (berthed 3 berth0)) 7).later = some (0, 0x1001, 0, 0)
    ∧ berthState (after (.berthApply 4095 0x1001) live) 4095 = bOpen ∧ berthState (after (.berthApply 7 0) (berthed 3 berth0)) 7 = bClosed := by decide +kernel

/-! The fabric. -/

/-- Node 9 with port 15 UP and region 3 of 64 KB at offset 0, which peers may read and node 2 may write. -/
def fabric : State :=
  let s := sets live [(F.fabNode_NODE, 0, 9), (F.fabPortStatus_STATE, 15, 2), (F.dramSpace_LIMIT_GROUPS, 0, 1), (F.fabPortCtrl_LANE_ALLOW, 15, 255),
    (F.fabPortStatus_LANE_SET, 15, 3)]
  { s with fab := { s.fab with region := [(3, ⟨0, 0, 65536 + 2 * 2 ^ 48, 7⟩)] } }

/-- A request or an answer of node 2 with a tag. -/
def peer (ty status offset : Nat) : Packet :=
  mkPacket [(7, 0, ty), (11, 8, status), (31, 16, 9), (47, 32, 2), (63, 48, 77), (105, 64, offset / 64), (191, 128, 1)]

def zeros : Line := (false, List.replicate 64 0)

theorem test_wit_peer : fabric.get F.fabPortStatus_STATE 15 = 2 ∧ pkType (peer 1 0 0) = tRead ∧ pkType (peer 3 0 0) = tWrite ∧ pkType (peer 4 0 0) = tWriteMasked
    ∧ (fabric.put F.fabNode_READY 0).isSet F.fabNode_READY = false ∧ fabric.isSet F.fabNode_READY = true ∧ peerPlace fabric (peer 1 0 65536) false = none
    ∧ peerPlace fabric (peer 1 0 65472) false = some (65472, ⟨0, 0, 0⟩) ∧ peerPlace fabric (peer 4 0 0) true = some (0, ⟨0, 0, 0⟩)
    ∧ 65472 + 64 ≤ dramLimit fabric ∧ namedBytes zeros (pf (peer 4 0 0) 191 128) ≠ [] := by decide +kernel

theorem test_peer : (after (.readReceive 15 (peer 1 0 0)) fabric).out.pkts.map (fun x => (pkType x.2, pkStatus x.2, pkTag x.2)) = [(2, 0, 77)]
    ∧ (after (.readReceive 15 (peer 1 0 65536)) fabric).out.pkts.map (fun x => (pkType x.2, pkStatus x.2)) = [(2, 2)]
    ∧ (after (.writeReceive 15 (peer 3 0 0) zeros) (fabric.put F.fabNode_READY 0)).out.pkts.map (fun x => (pkType x.2, pkStatus x.2)) = [(5, 3)]
    ∧ (after (.writeMaskedReceive 15 (peer 4 0 0) zeros) fabric).out.pkts.map (fun x => (pkType x.2, pkStatus x.2)) = [(5, 0)] := by decide +kernel

theorem test_wit_region : (let s := sets fabric [(⟨.fabRegion, 175, 128⟩, 1023, 65536)]
    (after (.fabRegionApply 1023 3) s).fab.region.map Prod.fst = [3, 1023] ∧ (after (.fabRegionApply 3 0) s).fab.region.map Prod.fst = []
      ∧ regionBad s ⟨1, 0, 65536, 3⟩ = true) := by decide +kernel

/-- A beacon, and a reserved type, as a header slot's first position. -/
def pos (ty : Nat) : BitVec 128 := BitVec.ofNat 128 (ty + 9 * 2 ^ 16 + 2 * 2 ^ 32)

theorem test_wit_slot : parseSlot 4 [pos 0x30] [] = none ∧ (parseSlot 4 [pos 0x15] []).map (fun l => l.length) = some 1
    ∧ (parseSlot 4 [pos 0x15] []).map (fun l => l.map (fun x => (pkType x.1, pkDest x.1))) = some [(tMissed, thisNode fabric)] := by decide +kernel

theorem test_slot : (after (.headerSlotReceive 15 [pos 0x30] [] true) fabric).out.link = [(15, .nak 0)]
    ∧ (after (.headerSlotReceive 15 [pos 0x15] [] true) fabric).out.link = [(15, .ack 0), (15, .credit 1)]
    ∧ tMissed ≠ tSailRun ∧ (after (.headerSlotReceive 15 [pos 0x15] [] false) fabric).get F.fabPortErr_UNCORRECTED_CW 15 = 1 := by decide +kernel

/-- A slot of port 15 stands in its replay buffer. -/
def replaying : State := { fabric with fab := { fabric.fab with port := [(15, { PortState.initial with replay := [⟨5, [⟨peer 1 0 0, [], none⟩]⟩] })] } }

/-- A packet of context 4's stream to node 2 is held while port `q` still holds one of its packets (R402). -/
def holding (q : Nat) : State := { fabric with fab := { fabric.fab with
  port := [(q, { PortState.initial with replay := [⟨5, [⟨peer 1 0 0, [], some 4⟩]⟩] })], held := [⟨peer 3 0 0, [], some 4⟩] } }

theorem test_wit_held : (portState (holding 15) 15).replay.any (fun k => k.seq == 5) = true ∧ portFor (holding 15) (pkDest (peer 3 0 0)) 4 = some 15
    ∧ mustHold (Claims.acked (holding 15) 15 5) 4 (pkDest (peer 3 0 0)) 15 = false
    ∧ (after (.linkSlotReceive 15 ⟨(.ack 5), true⟩) (holding 15)).out.pkts = [(15, peer 3 0 0)]
    ∧ mustHold (holding 3) 4 (pkDest (peer 3 0 0)) 15 = true ∧ (fabSend { holding 3 with fab := { (holding 3).fab with held := [] } } 4 (peer 3 0 0)).fab.held.length = 1 := by decide +kernel

theorem test_wit_link : (portState replaying 15).replay.any (fun k => k.seq == 5) = true ∧ (portState replaying 15).naks < 15
    ∧ (portState (after (.linkSlotReceive 15 ⟨(.ack 5), true⟩) replaying) 15).replay = [] ∧ (after (.linkSlotReceive 15 ⟨(.nak 5), true⟩) replaying).out.pkts.length = 1
    ∧ (portState (after (.linkSlotReceive 15 ⟨(.credit 3), true⟩) replaying) 15).credits = peerSlots + 3
    ∧ (portState replaying 15).queue = [] ∧ replaying.isSet F.fabPortCtrl_DISABLE 15 = false ∧ 65535 % 65536 ≠ thisNode replaying
    ∧ (after (.linkSlotReceive 15 ⟨(.ack 5), false⟩) replaying).out.link = [(15, .nak 0)]
    ∧ (after (.linkSlotReceive 15 ⟨(.retrain 65535 3), true⟩) replaying).get F.fabPortStatus_STATE 15 = 3 := by decide +kernel

/-- A thread of context 1 on core 0 waits for line 0 of node 2 (tag 77), and a write of the context is outstanding (tag 78). -/
def pline : Nat := lineKey (2 * 2 ^ 48) 2 3
def pfrag : Frag := ⟨0, 1, true, .none, 0⟩
def pload : OutLoad := ⟨{ ld0 with space := .ctx }, [⟨0, 2, 2 * 2 ^ 48, 0⟩], [(pline, 1)], [], [], 0⟩
def waiting : State :=
  { fabric.put F.ctxState_STATE 1 1 with
    run := { live.run with blocks := [⟨2, 1, 1, 0, 0, 0, 1, [0], List.replicate 64 ⟨true, 0⟩⟩], slots := [(0, ⟨2, 0, [pfrag], [pload]⟩)] },
    core := { live.core with lreq := [⟨1, false, 0, 0, pline, 0, 0, 0, 0⟩] },
    fab := { fabric.fab with reqs := [⟨77, false, 2, 0, 1, 0, 0, 1, 15, 1⟩, ⟨78, true, 2, 0, 1, 0, 0, 0, 15, 1⟩] } }

theorem test_wit_peer_waits : peerReq waiting 77 false = some ⟨77, false, 2, 0, 1, 0, 0, 1, 15, 1⟩ ∧ peerReq waiting 78 true = some ⟨78, true, 2, 0, 1, 0, 0, 0, 15, 1⟩
    ∧ waiting.core.lreq.find? (fun l => l.core == 0 && l.id == 1) = some ⟨1, false, 0, 0, pline, 0, 0, 0, 0⟩ ∧ pline = lineKey (2 * 2 ^ 48 + 0) 2 3
    ∧ (coreLoads waiting 0).filter (fun y => y.2.need.contains (pline, 1)) = [(0, pload)] ∧ (∀ y ∈ coreLoads waiting 0, y.2.want = [])
    ∧ pload.lanes = [⟨0, 2, 2 * 2 ^ 48, 0⟩] ∧ pload.acc.dst < 64 ∧ pload.acc.width ≤ 4 ∧ pload.acc.acq = false
    ∧ ((slotRec waiting 0 0).bind (fun r => blockRec waiting r.block)).map (fun b => b.ctx) = some 1 ∧ launchRec waiting 1 = none
    ∧ pkTag (peer 2 0 0) = 77 ∧ pkSrc (peer 2 0 0) = 2 ∧ pkStatus (peer 2 3 0) = 3 ∧ pkStatus (peer 5 2 0) = 2 := by decide +kernel

theorem test_peer_waits : regRead (after (.readRespReceive (peer 2 0 0) (false, List.replicate 64 3)) waiting) 0 0 2 0 = 0x03030303
    ∧ (after (.readRespReceive (peer 2 2 0) zeros) waiting).ctxState 1 = 3 ∧ (after (.readTimeout 77) waiting).get F.coreHaltA_REASON 1 = 0x46
    ∧ (after (.writeTimeout 78) waiting).ctxState 1 = 3 := by decide +kernel

theorem test_write_ack : (let s := { waiting with fab := { waiting.fab with reqs := [⟨77, true, 2, 0, 1, 0, 0, 0, 15, 1⟩] } }
    (after (.writeAckReceive (peer 5 0 0)) s).fab.reqs = [] ∧ (after (.writeAckReceive (peer 5 2 0)) s).ctxState 1 = 3) := by decide +kernel

/-- Port 15 in a state. -/
def ported (st : Nat) : State := sets fabric [(F.fabPortStatus_STATE, 15, st), (F.pwrDomStatus_STATE, 35, 0), (F.pwrDomStatus_STATE, 37, 0)]

/-- Port 15 ACTIVE with its own LANESET of three lanes, sequence 9, unanswered. -/
def proposing : State := { ported 2 with fab := { fabric.fab with port := [(15, { PortState.initial with pending := [(3, 9)] })] } }

theorem test_wit_ports : (ported 0).isSet F.fabPortCtrl_DISABLE 15 = false ∧ portPowered (ported 0) 15 = true ∧ proposal (ported 1) 15 &&& (255 % 256) ≠ 0
    ∧ 9 % 65536 = thisNode (ported 1) ∧ 65535 % 65536 ≠ thisNode (ported 1) ∧ ((ported 2).get F.fabPortStatus_LANE_SET 15).testBit 1 = true
    ∧ (ported 2).hl.d3 = false ∧ (ported 2).unitOff .fabPortCtrl 15 = false ∧ live.unitOff .fabPortCtrl 15 = true
    ∧ (ported 1).fab.held = [] ∧ (ported 1).fab.retune = [] ∧ (portState (ported 1) 15).lanes = 0 ∧ proposal (ported 1) 15 &&& (256 % 256) = 0
    ∧ (portState (ported 2) 15).replay = [] ∧ (portState (ported 2) 15).queue = [] ∧ (portState replaying 15).replay ≠ []
    ∧ (portState (ported 2) 15).pending = [] ∧ (portState (ported 2) 15).due = [] ∧ 258 % 256 &&& proposal (ported 2) 15 ≠ 0
    ∧ reached (portState (ported 2) 15).rx 0 = true ∧ reached (portState (ported 2) 15).rx 9 = false
    ∧ (portState proposing 15).pending = [(3, 9)] ∧ (portState proposing 15).due = [] ∧ 8 < 9 ∧ 9 < 4095 ∧ (portState proposing 15).crossed = [] ∧ 6 % 256 &&& 3 ≠ 0 := by decide +kernel

theorem test_ports : (after (.portTrainingStart 15) (ported 0)).get F.fabPortStatus_STATE 15 = 1
    ∧ (after (.portTrainingDone 15 65535 7 100) (ported 1)).get F.fabPortStatus_LANE_SET 15 = 7
    ∧ (after (.portTrainingDone 15 65535 7 200000) (ported 1)).get F.fabPortStatus_DELAY 15 = 65535
    ∧ (after (.portTrainingDone 15 9 7 100) (ported 1)).get F.fabPortStatus_STATE 15 = 0
    ∧ (after (.portTrainingTimeout 15) (ported 1)).get F.fabPortStatus_LANE_SET 15 = 0
    ∧ (after (.retrainTimeout 15) (ported 3)).get F.fabPortStatus_STATE 15 = 0
    ∧ (after (.laneSignalLoss 15 1) (ported 2)).get F.fabPortStatus_STATE 15 = 3
    ∧ (after (.retrainReqWrite 15 true) (ported 2)).get F.fabPortStatus_RETRAINS 15 = 1
    ∧ (after (.retrainMessageReceive 15 2 255) (ported 2)).isSet F.fabPortStatus_LEADER 15 = false := by decide +kernel

theorem test_ports_again : (after (.retrainComplete 15 ⟨65535, 6⟩ 50) (ported 3)).get F.fabPortStatus_LANE_SET 15 = 6
    ∧ (after (.retrainComplete 15 ⟨65535, 6⟩ 50) (ported 3)).get F.fabPortStatus_DELAY 15 = 25
    ∧ (after (.portDisableWrite 15 true) (ported 2)).get F.fabPortStatus_STATE 15 = 4
    ∧ (after (.portDisableWrite 15 true) (sets replaying [(F.pwrDomStatus_STATE, 35, 0), (F.pwrDomStatus_STATE, 37, 0)])).get F.fabPortStatus_STATE 15 = 2
    ∧ (after (.portDisableWrite 15 false) (ported 4)).get F.fabPortStatus_STATE 15 = 0
    ∧ (after (.lanesetReceive 15 1 0) (ported 2)).get F.fabPortStatus_LANE_SET 15 = 1
    ∧ (portState (after (.lanesetReceive 15 1 9) (ported 2)) 15).due = [(9, 1)]
    ∧ (after (.lanesetReceive 15 6 9) proposing).get F.fabPortStatus_LANE_SET 15 = 2
    ∧ (portState (after (.lanesetReceive 15 6 10) proposing) 15).crossed = [(6, 10)] := by decide +kernel

theorem test_wit_lane_error : (let s := (ported 2).put F.fabLaneMap_SPARE_WL 512 15
    (s.get F.fabPortStatus_LANE_SET 15).testBit 1 = true ∧ (portState s 15).lanes.testBit 1 = false ∧ (portState s 15).pending = [] ∧ spareWl s 15 = some 9
      ∧ (after (.laneErrorWindow 15 1 true false) s).out.link = [(15, .laneSet 1 0)]
      ∧ (portState (after (.laneErrorWindow 15 1 true false) s) 15).moving = [(1, 9)]) := by decide +kernel

/-- Lane 7 of port 15 moves to wavelength `w`, or back onto its own from emitter 159 to 158. -/
def moving (w : Nat) : State :=
  let s := sets (ported 2) [(F.fabLaneMap_SPARE_WL, 15, 512), (F.fabLaneMap_WL 7, 15, 7), (F.optEmitter_STATE, 158, 0), (F.optEmitter_WAVELENGTH, 158, 7)]
  { s with fab := { fabric.fab with port := [(15, { PortState.initial with moving := [(7, w)], lanes := 128 })], retune := if w = 7 then [(158, 159)] else [] } }

theorem test_wit_lane_move : (portState (moving 9) 15).moving.find? (fun m => m.1 == 7) = some (7, 9) ∧ laneWl (moving 9) 15 7 ≠ 9 ∧ laneWl (moving 7) 15 7 = 7
    ∧ (portState (moving 7) 15).moving.find? (fun m => m.1 == 7) = some (7, 7) ∧ (moving 7).fab.retune = [(158, 159)] ∧ portOfEmitter 158 = 15
    ∧ emState (moving 7) 158 = eInUse ∧ (portState (moving 9) 15).pending = [] := by decide +kernel

theorem test_lane_move : laneWl (after (.laneMoveDone 15 7) (moving 9)) 15 7 = 9 ∧ (after (.laneMoveDone 15 7) (moving 9)).out.link = [(15, .laneSet 131 0)]
    ∧ emState (after (.laneMoveDone 15 7) (moving 7)) 159 = eWorn ∧ (after (.laneMoveDone 15 7) (moving 7)).fab.retune = [] := by decide +kernel

/-- Emitter 159 of port 15 in a state, emitter 158 a spare LIT, others in use. -/
def emitting (st : Nat) : State := sets (ported 2) [(F.optEmitter_STATE, 159, st), (F.optEmitter_STATE, 158, 1), (F.optEmitter_WAVELENGTH, 159, 4)]

theorem test_wit_emitters : emState (emitting 0) 159 = eInUse ∧ portOfEmitter 159 = 15 ∧ spareEmitter (emitting 0) 15 = some 158
    ∧ ((emitting 0).boot.cfg.map (fun c => c.wearLimit)).getD 150 ≤ 150 ∧ (emitting 0).fab.retune.any (fun r => r.2 == 159) = false
    ∧ emState (after (.emitterWorn 159 150) (emitting 0)) 158 = eDark ∧ emState (emitting 2) 159 = eDark ∧ (emitting 2).fab.retune.find? (fun r => r.1 == 159) = none
    ∧ (after (.emitterWorn 159 150) (emitting 0)).fab.retune = [(158, 159)] ∧ emState (after (.emitterFail 159) (emitting 0)) 159 = eFailed
    ∧ emState (after (.emitterRetuneDone 159 9) (emitting 2)) 159 = eLit
    ∧ (after (.emitterRetuneDone 158 4) (after (.emitterWorn 159 150) (emitting 0))).get F.optEmitter_WAVELENGTH 158 = 4 := by decide +kernel

/-! The host's objects. -/

/-- Context 1 in a state, asked to suspend. -/
def hosted (st : Nat) : State := sets live [(F.ctxState_STATE, 1, st), (F.ctxState_SUSPENDING, 1, 1)]

theorem test_wit_submits : Submits (hosted 1) 255 := ⟨by decide +kernel, by decide +kernel, by decide +kernel, by decide +kernel, by decide +kernel⟩

theorem test_wit_contexts : live.ctxState 4095 = 0 ∧ (hosted 1).isSet F.ctxState_SUSPENDING 1 = true
    ∧ weightRuns (hosted 1) 1 = false ∧ (hosted 1).eng.jobs.any (fun j => j.ctx == 1 && endsFirst j) = false ∧ (hosted 2).ctxState 1 = 2 ∧ (hosted 4).ctxState 1 = 4
    ∧ queuesOf (hosted 1) 1 = [] ∧ ferriesOf (hosted 1) 1 = [] ∧ teardownEnded (hosted 4) 1 ((hosted 4).ctxRec 1).step = true := by decide +kernel

theorem test_contexts : (after (.ctxCreate 255 4095 (2 ^ 64 - 1)) live).ctxState 4095 = 1 ∧ (after (.ctxSuspend 255 1 131071) (hosted 1)).get F.hostCmdStatus_RESULT = 1
    ∧ (after (.ctxResume 255 1) (hosted 2)).ctxState 1 = 1 ∧ (after (.ctxCancel 255 1 0) (hosted 3)).get F.hostCmdStatus_RESULT = 1
    ∧ (after (.ctxDestroy 255 1 0) (hosted 3)).ctxState 1 = 4 ∧ (after (.ctxCreate 255 1 0) (hosted 4)).get F.hostCmdStatus_RESULT = 3
    ∧ (after (.ctxSuspendDone 1) (hosted 1)).ctxState 1 = 2 := by decide +kernel

/-- Context 1 in teardown, at a step. -/
def tearing (n : Nat) : State :=
  { hosted 4 with obj := { live.obj with ctx := [(1, ⟨[], [], some 0, n, false⟩)] } }

theorem test_wit_teardown : ∀ n ∈ [1, 6, 7], ((tearing n).ctxRec 1).step = n ∧ (tearing n).ctxState 1 = 4 ∧ teardownEnded (tearing n) 1 n = true := by decide +kernel

theorem test_teardown : (after (.teardownStepDone 1) (tearing 7)).ctxState 1 = 0 := by decide +kernel

/-- Queue 3 of context 1, both rings of 16 entries, in a state and with its record. -/
def ringed (st : Nat) (r : QRec) : State :=
  let s := sets (hosted 1) [(F.qStatus_STATE, 3, st), (F.qStatus_CONTEXT, 3, 1), (F.qStatus_SQ_LOG2, 3, 4), (F.qStatus_CQ_LOG2, 3, 4), (F.qStatus_PHASE, 3, 1)]
  { s with obj := { s.obj with q := [(3, r)] } }

/-- A queue record with entries, what its cancel fetches up to, its tail and what its destroys signal. -/
def qrec (es : List QEntry) (cancel : Option Nat) (tail : Nat) (ds : List Nat) : QRec :=
  { QRec.initial with sqBase := 4096, cqBase := 8192, entries := es, cancelTail := cancel, tail := tail, destroyArgs := ds }

/-- The 64 bytes of an entry with these bytes at these offsets. -/
def sqe (xs : List (Nat × Nat)) : List Byte := (List.range 64).map (fun i => BitVec.ofNat 8 ((xs.lookup i).getD 0))

/-- An entry at ring index 0. -/
def qent (xs : List (Nat × Nat)) (fin : Option (Nat × Nat)) : QEntry := ⟨0, sqe xs, [], false, fin, false, none, none⟩

def twoArg : Nat := 1 + 4 * 2 ^ 16 + 16 * 2 ^ 24 + 2 ^ 48

theorem test_wit_queues : qState (hosted 1) 16383 = 0 ∧ twoArg < 2 ^ 49 ∧ (hosted 1).ctxState (twoArg % 4096) = 1 ∧ logOk (bitsOf twoArg 20 16) = true
    ∧ logOk (bitsOf twoArg 28 24) = true ∧ bitsOf twoArg 15 12 = 0 ∧ bitsOf twoArg 23 21 = 0 ∧ bitsOf twoArg 31 29 = 0
    ∧ qState (ringed 1 (qrec [] none 0 [])) 3 = 1 ∧ (ringed 1 (qrec [] none 0 [])).hl.d3 = false
    ∧ (qRec (ringed 2 (qrec [] (some 0) 0 [])) 3).cancelTail = some ((ringed 2 (qrec [] (some 0) 0 [])).get F.qStatus_SQ_HEAD 3)
    ∧ (qRec (ringed 2 (qrec [{ qent [] (some (2, 0)) with bolDone := true }] (some 0) 0 [7])) 3).destroyArgs ≠ [] := by decide +kernel

theorem test_queues : (after (.qCreate 255 16383 4096 8192 twoArg) (hosted 1)).get F.qStatus_CQ_LOG2 16383 = 16
    ∧ qState (after (.qCancel 255 3 0) (ringed 3 (qrec [qent [] none] none 1 []))) 3 = 2
    ∧ (qRec (after (.qDestroy 255 3 65536) (ringed 1 (qrec [] none 0 []))) 3).destroyArgs = [65536]
    ∧ qState (after (.qCancelDone 3) (ringed 2 (qrec [] (some 0) 0 []))) 3 = 1
    ∧ qState (after (.qDestroyDone 3) (ringed 2 (qrec [{ qent [] (some (2, 0)) with bolDone := true }] (some 0) 0 [7]))) 3 = 0 := by decide +kernel

/-- Memory objects on, object 1,048,575 in a state, 128 KB of device memory. -/
def objects (st refs : Nat) : State :=
  let s := sets live [(F.hostMoTable_ENABLE, 0, 1), (F.dramSpace_LIMIT_GROUPS, 0, 2)]
  { s with obj := { s.obj with mo := [(1048575, ⟨st, refs, 65536, 65536, false, 0, 0⟩)] } }

theorem test_wit_objects : (objects 0 0).isSet F.hostMoTable_ENABLE = true ∧ 65536 + 65536 ≤ dramLimit (objects 0 0) ∧ moHeld (objects 1 1) 1048575 = true
    ∧ moHeld (objects 2 (2 ^ 32 - 2)) 1048575 = true ∧ (moRec (objects 1 1) 1048575).st = 1 ∧ (objects 0 0).hl.d3 = false ∧ (objects 0 0).ready = true
    ∧ slotReady (sets (objects 0 0) [(F.keySlot_VALID, 5, 1), (F.keySlot_GEN_DONE, 5, 1)]) 5 = true := by decide +kernel

theorem test_objects : (moRec (after (.moAlloc 255 7 65536 65536 0 131071) (objects 0 0)) 7).st = 1
    ∧ cmdArg (after (.moAddref 255 1048575) (objects 2 (2 ^ 32 - 2))) 0 = 2 ^ 32 - 1
    ∧ (moRec (after (.moRelease 255 1048575) (objects 2 1)) 1048575).st = 0 ∧ cmdArg (after (.moQuery 255 1048575) (objects 1 9)) 1 = 9 := by decide +kernel

theorem test_zeroing : (let s := objects 1 1
    let s := { s with obj := { s.obj with mo := [(1048575, ⟨1, 1, 65536, 128, false, 0, 0⟩)] }, mem := { s.mem with dram := [(65535, 1), (65536, 2), (65664, 3)] } }
    ((after (.moZeroingDone 1048575) s).mem.dram, (moRec (after (.moZeroingDone 1048575) s) 1048575).st)) = ([(65535, 1), (65664, 3)], 2) := by decide +kernel

theorem test_wit_doorbells : sqSize (ringed 1 (qrec [] none 0 [])) 3 = 16 ∧ cqSize (ringed 1 (qrec [] none 0 [])) 3 = 16
    ∧ mayFetch (ringed 1 (qrec [] none 1 [])) 3 = true ∧ holdsOk (sqe []) [] = true ∧ holdsOk (sqe [(2, 1)]) [9] = true
    ∧ (qent [] none).refused = none ∧ (qent [(0, 7)] none).refused = some 1 ∧ (qent [(2, 65)] none).refused = some 2 ∧ holdsOk (sqe [(0, 7)]) [] = true
    ∧ [1048575].all (moReady (objects 2 1)) = true ∧ [1048575].all (moReady (objects 1 1)) = false := by decide +kernel

theorem test_doorbells : (after (.qDoorbellWrite 3 15) (ringed 1 (qrec [] none 0 []))).get F.qDoorbell_SQ_TAIL 3 = 15
    ∧ (after (.qDoorbellWrite 3 16) (ringed 1 (qrec [] none 0 []))).get F.qDoorbell_SQ_TAIL 3 = 0
    ∧ qState (after (.qCqHeadWrite 3 1) (ringed 1 (qrec [] none 0 []))) 3 = 3
    ∧ (qRec (after (.sqEntryFetch 3 (sqe []) []) (ringed 1 (qrec [] none 1 []))) 3).entries = [qent [] none]
    ∧ (qRec (after (.sqEntryFetch 3 (sqe [(0, 7)]) []) (ringed 1 (qrec [] none 1 []))) 3).entries = [qent [(0, 7)] (some (3, 1))]
    ∧ (qRec (after (.sqEntryFetch 3 (sqe [(2, 1)]) [9]) (ringed 1 (qrec [] none 1 []))) 3).entries = [qent [(2, 1)] (some (3, 3))] := by decide +kernel

/-- Queue 3 with one entry of an opcode to start; the context owns bollard 16,383. -/
def starting (xs : List (Nat × Nat)) : State :=
  sets (ringed 1 (qrec [qent xs none] none 1 [])) [(F.ctxState_SUSPENDING, 1, 0), (F.bolCtrl_VALID, 16383, 1), (F.bolCtrl_OWNER, 16383, 1)]

/-- The entry advances bollard 16,383 by 5, and starts at 0 of it. -/
def advs (op : Nat) : List (Nat × Nat) := [(0, op), (1, 12), (0x24, 0xFF), (0x25, 0x3F), (0x28, 5), (0x2C, 0xFF), (0x2D, 0x3F)]

theorem test_wit_starts : ∀ op ∈ [0, 4, 5, 6], StartsNow (starting (advs op)) 3 op (qent (advs op) none) := by
  intro op h
  simp only [List.mem_cons, List.not_mem_nil, or_false] at h
  rcases h with rfl | rfl | rfl | rfl <;> exact ⟨by decide +kernel, by decide +kernel, by decide +kernel, by decide +kernel⟩

theorem test_starts : ((qRec (after (.sqeNop 3) (starting [])) 3).entries.map (fun e => (e.started, e.fin))) = [(true, some (0, 0))]
    ∧ bolValue (after (.sqeBollardAdvance 3) (starting (advs 4))) 16383 = 5
    ∧ (qRec (after (.sqeBarrier 3) (starting (advs 5))) 3).entries.map (fun e => e.fin) = [some (0, 0)]
    ∧ (qRec (after (.sqeSignal 3) (starting (advs 6))) 3).entries.map (fun e => e.fin) = [some (0, 0)] := by decide +kernel

theorem test_wit_complete : (let s := ringed 1 (qrec [qent (advs 0) (some (0, 0))] none 1 [])
    qFull s 3 = false ∧ s.upstream = true ∧ s.ready = true ∧ s.get F.qStatus_CQ_LOG2 3 ≤ 16 ∧ (after (.sqEntryComplete 3 0) s).get F.qStatus_CQ_TAIL 3 = 1
      ∧ bolValue (after (.sqEntryComplete 3 0) s) 16383 = 5 ∧ (qRec (after (.sqEntryComplete 3 0) s) 3).entries = []) := by decide +kernel

/-- Advances queued at the store before. -/
def queuedAdv (s : State) : State := { s with run := { s.run with bolQ := [⟨5, 1, .none⟩] } }

theorem test_wit_behind : (queuedAdv (starting (advs 4))).run.bolQ ≠ [] ∧ (∀ a ∈ (queuedAdv live).run.bolQ, a.fin ≠ .entry 3 0) ∧ (qent (advs 0) (some (0, 0))).flag 3 = true
    ∧ StartsNow (queuedAdv (starting (advs 4))) 3 4 (qent (advs 4) none) := by
  refine ⟨by decide, by decide, by decide +kernel, ⟨by decide +kernel, by decide +kernel, by decide +kernel, by decide +kernel⟩⟩

theorem test_behind : (after (.sqeBollardAdvance 3) (queuedAdv (starting (advs 4)))).run.bolQ = [⟨5, 1, .none⟩, ⟨16383, 5, .finish 3 0⟩]
    ∧ (after (.sqEntryComplete 3 0) (queuedAdv (ringed 1 (qrec [qent (advs 0) (some (0, 0))] none 1 [])))).run.bolQ = [⟨5, 1, .none⟩, ⟨16383, 5, .entry 3 0⟩]
    ∧ (let s := { live with hl := { live.hl with d3 := true } }; after (.qDoorbellWrite 3 15) s = s) := by decide +kernel

/-! Entries that start work. -/

/-- A code object with one entry of 128 threads at 0 of the context's segment, a manifest of one row at 8,192, an adapter descriptor. -/
def code : SMap Byte :=
  [(65536, 71), (65537, 76), (65538, 80), (65539, 88), (65540, 1), (65542, 64), (65544, 25), (65545, 12), (65548, 1), (65550, 1), (65553, 16), (65556, 199), (65557, 240), (65558, 161), (65559, 190), (65600, 1), (65605, 1), (65608, 128), (65620, 128), (65624, 128), (65626, 2), (65628, 2), (73728, 1), (73730, 1), (73732, 1), (73746, 1), (81968, 1), (81972, 1), (81976, 1), (81981, 1)]

/-- Queue 3 of context 1, which is granted core 0, with an entry; segment 0 maps 64 KB; a tender's window of tile 0. -/
def working (xs : List (Nat × Nat)) : State :=
  let s := sets (starting xs) [(F.hmCtxGrant_CORE_COUNT, 1, 1), (F.dramSpace_LIMIT_GROUPS, 0, 3), (F.coreAdapterTable_ENABLE, 0, 1), (F.coreAdapterTable_BASE, 0, 20)]
  { s with mem := { s.mem with dram := code, seg := [(16, ⟨0, 65536, 65536, 0, true, 0, true, true, true, false, false, 0, 0, 0⟩)] } }

/-- A result that is right and meets a test. -/
def right {α : Type} (r : Res α) (p : α → State → Bool) : Bool := match r with | .ok v s => p v s | _ => false

theorem of_right {α : Type} {r : Res α} {p : α → State → Bool} (h : right r p = true) : ∃ v s, r = .ok v s ∧ p v s = true := by
  cases r <;> simp_all [right]

def launching : State := working [(0, 1), (0x18, 1), (0x1C, 1), (0x1E, 1)]
def launchEnt : QEntry := qent [(0, 1), (0x18, 1), (0x1C, 1), (0x1E, 1)] none

theorem test_wit_launch_starts : StartsNow launching 3 1 launchEnt := ⟨by decide +kernel, by decide +kernel, by decide +kernel, by decide +kernel⟩

theorem test_wit_launch : ∃ l u, launchChecks (qCtx launching 3) 3 launchEnt launching = .ok l u
    ∧ (u.run.launches.isEmpty && l.total == 1 && l.cores == [0] && l.decl.threads == 128) = true := of_right (by decide +kernel)

/-- A job of one row, k and n 1, its adapter's rank 0. -/
def seg1 : SegJob := ⟨.forward, 8192, 1, 1, 1, ⟨16384, 64, .plain .bf16, 0, 0⟩, ⟨20480, 64, .plain .bf16, 0, 0⟩, ⟨16384, 64, .plain .bf16, 0, 0⟩, false, ref0,
  ⟨24576, 64, .plain .fp32, 0, 0⟩, ⟨28672, 64, .plain .bf16, 0, 0⟩, ref0, ref0, ref0, 0, false⟩

def segmul : State := working [(0, 2)]
def segEnt : QEntry := qent [(0, 2)] none

theorem test_wit_segmul_starts : StartsNow segmul 3 2 segEnt := ⟨by decide +kernel, by decide +kernel, by decide +kernel, by decide +kernel⟩

theorem test_wit_segmul : segRefused seg1 = none ∧ ∃ p u, descriptorAt segmul 3 segEnt = .ok p u ∧ (decide (queueUsed u hmUnit < queueSize hmUnit)
      && right (segChecks 1 seg1 (arrived (markStarted { u with obj := { u.obj with nextId := u.obj.nextId + 1 } } 3 0) (entryJob u 3 segEnt hmUnit (.segmul seg1))))
        (fun runs w => runs.length == 1 && grantCores w 1 == [0])) = true := ⟨by decide +kernel, of_right (by decide +kernel)⟩

def engine : State := working [(0, 3), (0x23, 0x80)]
def engEnt : QEntry := qent [(0, 3), (0x23, 0x80)] none

theorem test_wit_engine_starts : StartsNow engine 3 3 engEnt := ⟨by decide +kernel, by decide +kernel, by decide +kernel, by decide +kernel⟩

theorem test_wit_engine : engEnt.unit = 0x8000 ∧ ∃ p u, descriptorAt engine 3 engEnt = .ok p u ∧ (unitFits 0x8000 (.tender ten0) && unitUp u 0x8000
    && engPowered u 0x8000 && decide (queueUsed u 0x8000 < queueSize 0x8000)) = true := ⟨by decide +kernel, of_right (by decide +kernel)⟩

theorem test_entries_start : (after (.sqeLaunch 3) launching).run.launches.length = 1 ∧ (after (.sqeSegmul 3 seg1) segmul).eng.seg.length = 1
    ∧ (after (.sqeEngine 3 (.tender ten0)) engine).eng.jobs.map (fun j => j.unit) = [0x8000] := by decide +kernel

/-! The host link. -/

/-- A ring of one record's room in use, one record held. -/
def sumping : State :=
  let s := sets live [(F.sumpRing_ENABLE, 0, 1), (F.sumpTail_TAIL, 0, 5), (F.sumpHead_HEAD, 0, 5)]
  { s with flt := { s.flt with hold := [⟨1, 2, none, 0, 0, 3, 4, 5⟩] } }

theorem test_wit_sump : live.flt.hold = [] ∧ sumpWritable (sumping.put F.sumpHead_HEAD 5) = true
    ∧ (after (.sumpHeadWrite 5) sumping).get F.sumpTail_TAIL = 6 ∧ (after (.sumpHeadWrite 5) sumping).flt.hold = []
    ∧ (after (.sumpRingWrite 1) (live.put F.sumpTail_TAIL 5)).get F.sumpTail_TAIL = 0 := by decide +kernel

/-- A thread of context 1 on core 0 waits for the line at host address 4,096 (read 5), and job 9 of context 2 for another (read 6). -/
def hline : Nat := lineKey 4096 1 3
def hfrag : Frag := ⟨0, 1, true, .none, 0⟩
def hload : OutLoad := ⟨{ ld0 with space := .ctx }, [⟨0, 1, 4096, 0⟩], [(hline, 1)], [], [], 0⟩
def reading : State :=
  let s := sets live [(F.ctxState_STATE, 1, 1), (F.ctxState_STATE, 2, 2)]
  { s with
    run := { s.run with blocks := [⟨2, 1, 1, 0, 0, 0, 1, [0], List.replicate 64 ⟨true, 0⟩⟩], slots := [(0, ⟨2, 0, [hfrag], [hload]⟩)] },
    core := { s.core with lreq := [⟨1, false, 0, 0, hline, 0, 0, 0, 0⟩] },
    eng := { s.eng with jobs := [⟨9, 0x8000, 2, .queue 3 0, .tender ten0, false, 64, none, none, true, false, 0, [], none, [], 0⟩] },
    hl := { s.hl with reads := [⟨5, 4096, 128, 1, 0, hline, 1⟩, ⟨6, 8192, 64, 2, jobReader, 9, 0⟩] } }

theorem test_wit_host_lost : (hostWaits reading).map Prod.fst = [1, 2] ∧ reading.ctxState 1 = 1 ∧ reading.ctxState 2 = 2 ∧ hostWaits live = []
    ∧ live.hl.pba = [] ∧ live.obj.q = [] ∧ live.hl.flrEvict = false ∧ (live.put F.hostStatus_BME 0).isSet F.hostStatus_BME = false
    ∧ { live with hl := { live.hl with held := true } }.hl.held = true := by decide +kernel

theorem test_host_lost : (after .busMasterDisable reading).ctxState 1 = 3 ∧ (after .d3hotEntry reading).ctxState 2 = 3
    ∧ (after .busMasterEnable (after .d3hotEntry live)).hl.held = false ∧ (after .d0Return (after .d3hotEntry live)).upstream = false
    ∧ (after .cxlCacheEnable live).hl.cacheEn = true ∧ (after .cxlCacheDisable live).hl.cacheEn = false := by decide +kernel

theorem test_wit_host_reads : reading.hl.reads.find? (fun x => x.id == 5) = some ⟨5, 4096, 128, 1, 0, hline, 1⟩
    ∧ reading.hl.reads.find? (fun x => x.id == 6) = some ⟨6, 8192, 64, 2, jobReader, 9, 0⟩ ∧ reading.upstream = true ∧ 0 ≠ jobReader
    ∧ reading.core.lreq.find? (fun l => l.core == 0 && l.id == 1) = some ⟨1, false, 0, 0, hline, 0, 0, 0, 0⟩ ∧ keyKind hline = 3 ∧ keyTgt hline = 1
    ∧ glFind reading 0 (keyAddr hline) true = none ∧ (coreLoads reading 0).filter (fun y => y.2.need.contains (hline, 1)) = [(0, hload)]
    ∧ (∀ y ∈ coreLoads reading 0, y.2.want = []) := by decide +kernel

theorem test_host_reads : regRead (after (.hostReadCompletion 5 true (List.replicate 128 3)) reading) 0 0 2 0 = 0x03030303
    ∧ (after (.hostReadCompletion 6 true (List.replicate 64 3)) reading).eng.jobs.map (fun j => j.got) = [[(8192, false, List.replicate 64 3)]]
    ∧ (after (.hostReadCompletion 6 false []) reading).flt.seq = 1 := by decide +kernel

/-- A host line at 4,096 in a state of Table 13.28, a read outstanding at 8,192, an eviction under way at 12,288. -/
def caching (st : Mesi) : State :=
  { live with hl := { live.hl with lines := [⟨4096, st, List.replicate 64 7, false⟩], creq := [⟨8192, true⟩], evict := [⟨0, 12288, .m, List.replicate 64 9, false, false⟩] } }

theorem test_wit_snoop : inEvict (caching .m) 4096 = false ∧ (caching .m).hl.creq.any (fun r => r.ha == 4096) = false
    ∧ hlFind (caching .m) 4096 = some ⟨4096, .m, List.replicate 64 7, false⟩ ∧ hlFind live 4096 = none
    ∧ inEvict (caching .m) 8192 = false ∧ (caching .m).hl.creq.any (fun r => r.ha == 8192) = true
    ∧ (caching .m).hl.evict.find? (fun x => x.ha == 12288) = some ⟨0, 12288, .m, List.replicate 64 9, false, false⟩
    ∧ (caching .m).hl.flrEvict = false ∧ (caching .m).get F.cavSliceStatus_STATE (hostSet (caching .m) 12288).1 ≠ 1 := by decide +kernel

theorem test_snoop : (after (.snpData 4096) (caching .m)).out.cxl = [(0, .rspSFwdM 4096 (List.replicate 64 7) false)]
    ∧ (after (.snpInv 4096) (caching .e)).out.cxl = [(0, .rspIHitSE 4096)] ∧ hlFind (after (.snpInv 4096) (caching .e)) 4096 = none
    ∧ (after (.snpCur 4096) live).out.cxl = [(0, .rspIHitI 4096)]
    ∧ (hlFind (after (.goReceive 8192 3 (List.replicate 64 1)) (caching .s)) 8192).isSome = true
    ∧ ((hlFind (after (.goErr 8192) (caching .s)) 8192).map (fun l => l.poison)) = some true
    ∧ (after (.goReceive 12288 0 []) (caching .s)).hl.evict = [] ∧ (after (.goWritepullDrop 12288) (caching .s)).hl.evict = []
    ∧ (after (.goWritepull 12288) (caching .s)).out.cxl = [(0, .evictData 12288 (List.replicate 64 9) false)] := by decide +kernel

/-! Segments, keys, channels. -/

/-- Segment 15 of context 4,095 staged with 64 KB at 0; context 1 with a task parked for segment 3. -/
def segging : State :=
  let s := sets (live.put F.segLen_LENGTH 65536 4095 15) [(F.ctxState_STATE, 1, 1), (F.segFaultLimit_LIMIT_MS, 0, 5), (F.dramSpace_LIMIT_GROUPS, 0, 1),
    (F.dramSpace_MAX_MAPOUT, 0, 1), (F.dramChanCtrl_TARGET, 254, 1), (F.dramChanStatus_STATE, 254, 2), (F.pwrDomStatus_STATE, 31, 0)]
  { s with mem := { s.mem with parked := [⟨19, 0, 77, .thread 2⟩], out := [] } }

theorem test_wit_segments : Nat.testBit 0x72 0 = false ∧ Nat.testBit 0x73 1 = true
    ∧ segGood (stagedSeg segging 4095 15 (attrWord segging 4095 15 0x73)) = true ∧ attrReserved 0x73 = 0
    ∧ segging.eng.jobs.any (fun j => j.ctx == 4095 && j.parked == some 15) = false
    ∧ segGood (stagedSeg segging 4095 14 (attrWord segging 4095 14 0x73)) = false ∧ attrReserved 0x273 ≠ 0
    ∧ segging.get F.segFaultLimit_LIMIT_MS ≠ 0 ∧ segging.mem.parked.find? (fun p => p.key == 1 * 16 + 3) = some ⟨19, 0, 77, .thread 2⟩ := by decide +kernel

theorem test_segments : smapFind (after (.segApply 4095 15 0x73) segging).mem.seg 65535 = some ⟨0, 0, 65536, 0, true, 0, true, true, true, false, false, 0, 0, 0⟩
    ∧ (after (.segApply 4095 14 0x73) segging).isSet F.segApplyStatus_REJECTED = true
    ∧ (after (.segApply 4095 15 0x72) segging).get F.segApplyStatus_APPLIED = 1 ∧ (after (.segFaultTimeout 1 3) segging).ctxState 1 = 3 := by decide +kernel

/-- Key slot 4,095 valid with request 3 not generated. -/
def keying : State := sets live [(F.keySlot_VALID, 4095, 1), (F.keySlot_REQ, 4095, 3)]

theorem test_wit_keys : unitUp keying (unitId 0xD 2) = true ∧ keying.isSet F.keySlot_VALID 4095 = true
    ∧ keying.get F.keySlot_REQ 4095 ≠ keying.get F.keySlot_GEN_DONE 4095 ∧ (2 ^ 12 + 5 * 2 ^ 16).testBit 12 = true ∧ bitsOf (2 ^ 12 + 5 * 2 ^ 16) 23 16 ≠ 0
    ∧ Nat.testBit 0 12 = false := by decide +kernel

theorem test_keys : (after (.keyGenDone 4095) keying).get F.keySlot_GEN_DONE 4095 = 3 ∧ (after (.keySlotWrite 4095 0) keying).get F.keySlot_REQ 4095 = 0
    ∧ (after (.keySlotWrite 4095 (2 ^ 12 + 5 * 2 ^ 16)) keying).get F.keySlot_REQ 4095 = 5 := by decide +kernel

theorem test_wit_channels : segging.get F.dramChanCtrl_TARGET 255 = 0 ∧ segging.get F.dramChanCtrl_TARGET 254 = 1 ∧ segging.mem.move = none ∧ segging.mem.moveQ = []
    ∧ chanState segging 255 = 0 ∧ segging.mem.out.length < segging.get F.dramSpace_MAX_MAPOUT ∧ chanState segging 254 = 2
    ∧ (after (.channelMapOut 255) segging).mem.move = some (255, true) ∧ chanState (after (.channelMapOut 255) segging) 255 = 1
    ∧ segging.hl.d3 = false ∧ segging.unitOff .dramChanCtrl 255 = false ∧ live.unitOff .dramChanCtrl 255 = true ∧ 65535 < dramLimit segging ∧ chanFailed segging 65535 = false := by decide +kernel

theorem test_channels : chanState (after (.channelRestore 254) segging) 254 = 3 ∧ chanState (after (.channelFail 255) segging) 255 = 4
    ∧ (after (.dramScrub 65535 true) segging).get F.dramChanStatus_CE_COUNT (storeChannel segging 65535) = 1
    ∧ (after (.dramUncorrectable 65535) segging).mem.poison = [1023] := by decide +kernel

theorem test_channel_moved : chanState (after (.channelMoveDone 255) { sets live [(F.dramChanStatus_STATE, 255, 1)] with
    mem := { live.mem with move := some (255, true), out := [255] } }) 255 = 2 := by decide +kernel

/-- Module 7's wrapper asks for an instruction that is disruptive, with the image's list. -/
def wrapping : State :=
  let r : ImageCfg := ⟨0, 0, 0, 0, 0, 0, 0, 0, 0, 0, 0, [9], 0, 0⟩
  { live with boot := { live.boot with cfg := some r } }

def wrapVal : Nat := 9 + 31 * 2 ^ 8 + 256 * 2 ^ 16 + 1 * 2 ^ 32

theorem test_wit_wrapper : smapFind wrapping.mem.wrap 7 = none ∧ bitsOf wrapVal 39 32 ≠ wrapping.get F.dram1500Ctrl_DONE_SEQ 7 ∧ 1 ≤ bitsOf wrapVal 24 16
    ∧ bitsOf wrapVal 24 16 ≤ 256 ∧ 255 = 32 * 7 + bitsOf wrapVal 12 8
    ∧ ((wrapping.boot.cfg.map (fun c => c.disruptive)).getD []).contains (bitsOf wrapVal 7 0) = true ∧ chanState wrapping 255 ≠ 5
    ∧ ((wrapping.boot.cfg.map (fun c => c.disruptive)).getD []).contains (bitsOf (wrapVal - 1) 7 0) = false := by decide +kernel

theorem test_wrapper : (after (.wrapperRequest 7 wrapVal) wrapping).get F.dram1500Ctrl_RESULT 7 = 1
    ∧ smapFind (after (.wrapperRequest 7 (wrapVal - 1)) wrapping).mem.wrap 7 = some ⟨1, 8, 255, 256⟩
    ∧ (after (.wrapperDone 7 true [5]) (after (.wrapperRequest 7 (wrapVal - 1)) wrapping)).get F.dram1500Data_DATA 7 = 5
    ∧ (after (.wrapperDone 7 false []) (after (.wrapperRequest 7 (wrapVal - 1)) wrapping)).get F.dram1500Ctrl_RESULT 7 = 2 := by decide +kernel

/-! Threads. -/

def decl0 : EntryDecl := ⟨0, 128, 128, 2, 1, 2, false, false, false, true⟩
def launch0 : Launch := ⟨1, 1, 3, 0, 0, 0, 0, 0, 0, decl0, 0, 2, 1, 1, false, 0, [0], [], [], 0, false⟩
def block0 : BlockRec := ⟨2, 1, 1, 0, 0, 0, 1, [0], List.replicate 64 ⟨true, 0⟩⟩
def frag0 : Frag := ⟨0, 3, true, .none, 0⟩
def th0 : Th := ⟨block0, launch0, frag0, here⟩

/-- Registers 1 to 4 of lanes 0 and 1: 1.0 and 1.0, 1 and 0, 5 and 2^32 - 1, NaN and 64. -/
def regs0 : SMap W32 := [(32, 0x3F800000), (33, 0x3F800000), (64, 1), (96, 5), (97, 0xFFFFFFFF), (128, 0x7F800001), (129, 64)]

/-- Block 2 of context 1 runs on core 0 with these fragments in slot 0; its code's line is held. -/
def runs (fs : List Frag) (b : BlockRec) (l : Launch) : State :=
  let s := sets live [(F.ctxState_STATE, 1, 1), (F.dramSpace_LIMIT_GROUPS, 0, 3), (F.coreAdapterTable_ENABLE, 0, 1), (F.coreAdapterTable_BASE, 0, 20),
    (F.bolCtrl_VALID, 9, 1), (F.bolCtrl_OWNER, 9, 1), (F.bolValue_VALUE, 9, 7)]
  { s with
    mem := { s.mem with dram := code, seg := [(16, ⟨0, 65536, 65536, 0, true, 0, true, true, true, false, false, 0, 0, 0⟩)] },
    run := { s.run with launches := [l], blocks := [b], slots := [(0, ⟨2, 0, fs, []⟩)] },
    core := { s.core with ro := [⟨0, 0, false, 65536, List.replicate 128 0, false⟩], rf := regs0 } }

def run0 : State := runs [frag0] block0 launch0

/-- The state once the instruction has issued, its line held. -/
def issued (s : State) : State := s.bump F.corePipeIssued_ISSUED 1 0

/-- Whether an instruction issues here. -/
def hits (s : State) (t : Th) : Bool :=
  decide (thread? s here ⟨[], 0⟩ = some t) && decide (t.l.decl.codeOffset ≤ t.f.pc ∧ t.f.pc < t.l.decl.codeOffset + t.l.decl.codeSize) &&
    (match roLine (issued s) t.core t.c 0 (t.l.code + t.l.codeOff + t.f.pc) .exec with
      | .ok false _ w => decide (w = issued s)
      | _ => false)

theorem issues_of {s : State} {t : Th} (h : hits s t = true) : Issues s here t (issued s) := by
  unfold hits at h
  simp only [Bool.and_eq_true, decide_eq_true_eq] at h
  obtain ⟨⟨h1, h2⟩, h3⟩ := h
  refine ⟨rfl, h1, h2, ?_⟩
  show ∃ bs, roLine (issued s) t.core t.c 0 (t.l.code + t.l.codeOff + t.f.pc) .exec = .ok false bs (issued s)
  revert h3
  generalize roLine (issued s) t.core t.c 0 (t.l.code + t.l.codeOff + t.f.pc) .exec = r
  intro h3
  cases r with
  | ok p bs w =>
    cases p with
    | false => exact ⟨bs, by rw [of_decide_eq_true h3]⟩
    | true => exact absurd h3 Bool.false_ne_true
  | halt _ _ => exact absurd h3 Bool.false_ne_true
  | absent _ => exact absurd h3 Bool.false_ne_true

theorem test_wit_issues : Issues run0 here th0 (issued run0) := issues_of (by decide +kernel)

theorem test_wit_cache : CacheOk (issued run0) th0.core th0.slot := by
  unfold CacheOk
  exact ⟨by decide +kernel, by decide +kernel⟩

def reg (r : Nat) : Src := ⟨r, false, false⟩
def narrow : CvtOp := ⟨5, src0, src0, .fp32, .bf16, .rne⟩

theorem test_wit_vector : (63 : Nat) < 64 ∧ src0.reg < 64 ∧ src0.dead = false ∧ intResult .iadd (th0.reg (issued run0) 3 1) (th0.reg (issued run0) 3 0) = some 4
    ∧ intResult .isar (2 ^ 32 - 4) 31 = some (2 ^ 32 - 1) ∧ intResult .ishl 1 32 = none
    ∧ th0.f.mask.testBit (th0.reg (issued run0) 2 0 % 32) = true ∧ isNan32 (th0.reg (issued run0) 4 0) = true
    ∧ (∀ l, l < 32 → th0.f.mask.testBit l = true → convertThread narrow.srcFmt narrow.dstFmt (cvtRound th0 (issued run0) narrow l)
        (th0.reg (issued run0) narrow.src.reg l % 2 ^ narrow.srcFmt.width) = some 0x3F80)
    ∧ censusCheck (issued run0) 1 0 = (none, (censusCheck (issued run0) 1 0).2) := by
  refine ⟨by decide, by decide, rfl, by decide +kernel, by decide +kernel, by decide +kernel, by decide +kernel, by decide +kernel, by decide +kernel, ?_⟩
  exact Prod.ext (by decide +kernel) rfl

theorem test_vector : regRead (after (.vectorOp here ⟨.iadd, 63, reg 3, reg 3, src0⟩) run0) 0 0 63 1 = 0xFFFFFFFE
    ∧ regRead (after (.vectorOp here ⟨.exchange, 5, reg 3, reg 2, src0⟩) run0) 0 0 5 0 = 0xFFFFFFFF
    ∧ regRead (after (.convertOp here (.fn .recip 5 (reg 4))) run0) 0 0 5 0 = 0x7FC00000
    ∧ regRead (after (.convertOp here (.cvt narrow)) run0) 0 0 5 1 = 0x3F80 := by decide +kernel

theorem test_census : (after (.censusCount here 0 (.plain .fp32) (reg 4)) run0).get F.coreCensus_COUNT 0 = 1
    ∧ regRead (after (.maskkey here 5 src0 src0) run0) 0 0 5 0 = maskKey 0 1 0x3F800000 0x3F800000
    ∧ regRead (after (.maskword here 5 src0 src0 (reg 2)) run0) 0 0 5 0 = maskWord 0x3F800000 (BitVec.ofNat 64 (0x3F800000 + 2 ^ 32)) := by decide +kernel

/-- A slot with an outstanding load to register 9 of lane 0, which an instruction on other registers does not wait for. -/
def wait9 : OutLoad := ⟨{ ld0 with dst := 9 }, [⟨0, 0, 0, 4⟩], [(1, 0)], [], [], 0⟩
def loading : State := { run0 with run := { run0.run with slots := [(0, ⟨2, 0, [frag0], [wait9]⟩)] } }

theorem free_of {s : State} {t : Th} {r : SlotRec} {x : Uses} (hr : slotRec s t.core t.slot = some r)
    (h : r.loads.all (fun o => !o.holds t.f.mask x) = true) : Free s t x := by
  intro r' hr' o ho
  rw [hr] at hr'
  obtain rfl := Option.some.inj hr'
  simpa using List.all_eq_true.mp h o ho

theorem test_wit_free : Issues loading here th0 (issued loading) ∧ Free loading th0 ⟨[63, 1], 0⟩ :=
  ⟨issues_of (by decide +kernel), free_of (r := ⟨2, 0, [frag0], [wait9]⟩) (by decide +kernel) (by decide +kernel)⟩

theorem test_load_holds : regRead (after (.vectorOp here ⟨.iadd, 63, reg 3, reg 3, src0⟩) loading) 0 0 63 1 = 0xFFFFFFFE
    ∧ after (.vectorOp here ⟨.iadd, 63, reg 3, reg 9, src0⟩) loading = loading := by decide +kernel

/-! Control and bollards. -/

def other : Frag := ⟨0, 4, true, .none, 0⟩
def blockT : BlockRec := { block0 with tokens := ⟨false, 5⟩ :: List.replicate 63 ⟨true, 0⟩ }

/-- Two fragments; a fragment at the barrier; a token entry PENDING. -/
def run1 : State := sets (runs [frag0, other] block0 launch0) [(F.ferryCtrl_VALID, 31, 1), (F.ferryCtrl_OWNER, 31, 1)]
def runB : State := runs [frag0, { other with wait := .barrier none }] block0 launch0
def runT : State := runs [frag0] blockT launch0

theorem test_wit_issues_run1 : Issues run1 here th0 (issued run1) := issues_of (by decide +kernel)
theorem test_wit_issues_runB : Issues runB here th0 (issued runB) := issues_of (by decide +kernel)
theorem test_wit_issues_runT : Issues runT here { th0 with b := blockT } (issued runT) := issues_of (by decide +kernel)

theorem test_wit_branch : branchOk th0.f [(1, 0), (2, 64)] = true ∧ branchOk th0.f [(3, 8)] = true := by decide +kernel

theorem test_wit_joins : (∀ r g, slotRec (issued run0) 0 0 = some r → g ∈ r.frags → g ≠ th0.f → g.mask &&& 3 = 0)
    ∧ ∃ r g, slotRec (issued run1) 0 0 = some r ∧ g ∈ r.frags ∧ g.mask.testBit here.lane = false ∧ g.mask &&& 4 ≠ 0 ∧ g.wait = .none := by
  refine ⟨fun r g hr hg hn => ?_, ⟨2, 0, [frag0, other], []⟩, other, by decide +kernel, by decide, by decide, by decide, rfl⟩
  have h : slotRec (issued run0) 0 0 = some ⟨2, 0, [frag0], []⟩ := by decide +kernel
  rw [h] at hr
  obtain rfl := Option.some.inj hr
  simp only [List.mem_singleton] at hg
  exact absurd hg hn

theorem test_wit_barrier : ((issued runB).run.slots.map Prod.fst).Nodup
    ∧ (∀ kr ∈ (issued runB).run.slots, kr.2.block = block0.id → ∀ g ∈ kr.2.frags, (kr.1 = slotKey 0 0 ∧ g = th0.f) ∨ g.wait = .barrier none)
    ∧ (∃ kr ∈ (issued run1).run.slots, kr.2.block = block0.id ∧ ∃ g ∈ kr.2.frags, g.mask ≠ 0 ∧ g.wait = .none ∧ (kr.1 = slotKey 0 0 → g.mask.testBit here.lane = false))
    ∧ 0 < launch0.decl.barriers := by decide +kernel

theorem test_wit_exit : (blockFrags (issued run0) block0.id).length = 1 ∧ block0.tokens.all (fun x => x.done) = true ∧ launch0.ended + 1 ≠ launch0.total
    ∧ launch0.cancelled = false ∧ (blockFrags (issued runT) blockT.id).length = 1 ∧ blockT.tokens.all (fun x => x.done) = false
    ∧ (blockFrags (issued run1) block0.id).length ≠ 1 ∧ other.mask &&& frag0.mask = 0 := by decide +kernel

theorem test_wit_tokens : (∀ e ∈ [63, 1], (token block0 e).done = true) ∧ (∃ e ∈ [63, 0], (token blockT e).done = false)
    ∧ launch0.decl.replayable = false ∧ ferryHeld (issued run1) 31 1 = true ∧ unitUp (issued run1) (unitId 7 31) = true ∧ bufferRoom (issued run1) block0 = true := by
  decide +kernel

theorem test_control : (slotRec (after (.branch here [(1, 0), (2, 64)]) run0) 0 0).map (fun r => r.frags.map (fun f => (f.pc, f.mask))) = some [(0, 1), (64, 2)]
    ∧ (slotRec (after (.join here 4) run1) 0 0).map (fun r => r.frags.map (fun f => f.wait)) = some [.join 4 8, .none]
    ∧ (slotRec (after (.blockBarrier here none) runB) 0 0).map (fun r => r.frags.map (fun f => (f.pc, f.wait))) = some [(8, .none), (0, .none)]
    ∧ blockRec (after (.exit here) run0) 2 = none ∧ (after (.halt here 77) run0).get F.coreHaltD_INFO 1 = 77 := by decide +kernel

theorem test_tokens : (slotRec (after (.tokenWait here [0]) runT) 0 0).map (fun r => r.frags.map (fun f => f.wait)) = some [.token [(0, 5)] 0]
    ∧ (slotRec (after (.exit here) runT) 0 0).map (fun r => r.frags.map (fun f => f.wait)) = some [.exit 0]
    ∧ (after (.tokenPost here 31 15 [63]) run1).run.ops.map (fun o => (o.unit, o.token)) = [(0x701F, 64)] := by decide +kernel

/-- Slot 127 of core 239 with a fragment that waits in lane 31 and one parked. -/
def wide (w : FragWait) (active : Bool) : State :=
  { run0 with run := { run0.run with slots := [(slotKey 239 127, ⟨2, 0, [⟨0, 2 ^ 31, active, w, 0⟩, ⟨0, 1, false, .none, 0⟩], []⟩)] } }

theorem test_wit_places : slotRec (wide (.join 1 8) true) 239 127 = some ⟨2, 0, [⟨0, 2 ^ 31, true, .join 1 8, 0⟩, ⟨0, 1, false, .none, 0⟩], []⟩
    ∧ fragOf ⟨2, 0, [⟨0, 2 ^ 31, true, .join 1 8, 0⟩, ⟨0, 1, false, .none, 0⟩], []⟩ 31 = some ⟨0, 2 ^ 31, true, .join 1 8, 0⟩
    ∧ longestParked [⟨0, 2 ^ 31, true, .none, 0⟩, ⟨0, 1, false, .none, 0⟩] = some ⟨0, 1, false, .none, 0⟩
    ∧ fragOf ⟨2, 0, [⟨0, 2 ^ 31, true, .bollard 9 8 61 true, 0⟩, ⟨0, 1, false, .none, 0⟩], []⟩ 31 = some ⟨0, 2 ^ 31, true, .bollard 9 8 61 true, 0⟩ := by decide +kernel

theorem test_places : ((slotRec (after (.joinTimeout 239 127 31) (wide (.join 1 8) true)) 239 127).bind (fun r => fragOf r 31)).map (fun f => (f.pc, f.wait)) = some (8, .none)
    ∧ ((slotRec (after (.fragmentRotate 239 127 31) (wide .none true)) 239 127).map (fun r => r.frags.map (fun f => f.active))) = some [false, true]
    ∧ regRead (after (.bollardWaitTimeout 239 127 31) (wide (.bollard 9 8 61 true) true)) 239 127 61 31 = 7
    ∧ regRead (after (.bollardWaitTimeout 239 127 31) (wide (.bollard 9 8 61 true) true)) 239 127 63 31 = 1 := by decide +kernel

/-- A thread that waits for token entry 0, the watchdog on. -/
def watched : State := (runs [{ frag0 with wait := .token [(0, 5)] 3 }] blockT launch0).put F.coreTokenWatchdog_LIMIT_MS 5

theorem test_wit_token_watchdog : (run0.put F.coreTokenWatchdog_LIMIT_MS 0).get F.coreTokenWatchdog_LIMIT_MS = 0 ∧ watched.get F.coreTokenWatchdog_LIMIT_MS ≠ 0 ∧ blockRec watched 2 = some blockT
    ∧ ((oldest (blockWaits watched blockT)).map (fun x => (x.1, x.2.1))) = some (3, 0) ∧ watched.ctxState 1 = 1
    ∧ (after (.tokenWatchdog 2) watched).get F.coreHaltA_REASON 1 = 0x63 := by decide +kernel

theorem test_wit_bollards : bolOwned (issued run0) 9 1 = true ∧ Scope.wide .device = true ∧ peerPending (issued run0) block0 = false ∧ 7 ≤ bolValue (issued run0) 9
    ∧ bolValue (issued run0) 9 < 8 := by decide +kernel

theorem test_bollards : (after (.bollardAdvance here 9 5 .device) run0).run.bolQ = [⟨9, 5, .none⟩]
    ∧ regRead (after (.bollardWait here 9 7 61 false) run0) 0 0 61 1 = 7
    ∧ (slotRec (after (.bollardWait here 9 8 61 true) run0) 0 0).map (fun r => r.frags.map (fun f => f.wait)) = some [.bollard 9 8 61 true]
    ∧ regRead (after (.bollardRead here 9 62 true) run0) 0 0 62 1 = 7 := by decide +kernel

/-- Advances queued, a thread waiting for bollard 9, its notification enabled at 8. -/
def advancing (qs : List Advance) : State :=
  let s := sets (wide (.bollard 9 8 61 false) true) [(F.bolCtrl_NOTIFY_EN, 9, 1), (F.bolNotify_THRESHOLD, 9, 8), (F.bolCtrl_EVENT, 9, 4)]
  { s with run := { s.run with bolQ := qs } }

theorem test_wit_advances : run0.run.bolQ = [] ∧ ((advancing [⟨9, 1, .none⟩, ⟨10, 2, .none⟩]).run.bolQ.map Advance.n).Nodup ∧ ((advancing [⟨9, 1, .none⟩, ⟨9, 2, .none⟩]).run.bolQ.all (fun y => y.n == 9)) = true
    ∧ (slotKey 239 127, (⟨0, 2 ^ 31, true, .bollard 9 8 61 false, 0⟩ : Frag)) ∈ bolWaiters (advancing []) 9 ((7 + 1) % 2 ^ 64)
    ∧ bolWaiters (advancing []) 9 (8 % 2 ^ 64) = [(slotKey 239 127, ⟨0, 2 ^ 31, true, .bollard 9 8 61 false, 0⟩)]
    ∧ ((advancing []).run.slots.map Prod.fst).Nodup ∧ bolDst (.bollard 9 8 61 false) < 62
    ∧ (advancing []).isSet F.bolCtrl_NOTIFY_EN 9 = true ∧ (advancing []).isSet F.bolCtrl_NOTIFIED 9 = false := by decide +kernel

theorem test_advances : (after .bollardAdvanceApply (advancing [⟨9, 1, .none⟩, ⟨10, 2, .none⟩])).run.bolQ = [] ∧ bolValue (after .bollardAdvanceApply (advancing [⟨9, 1, .none⟩, ⟨9, 2, .none⟩])) 9 = 8
    ∧ (after .bollardAdvanceApply (advancing [⟨9, 1, .none⟩, ⟨9, 2, .none⟩])).run.bolQ = [⟨9, 2, .none⟩]
    ∧ regRead (after (.bolValueWrite 9 (2 ^ 32 + 8)) (advancing [])) 239 127 62 31 = 1
    ∧ (after (.bolValueWrite 9 8) (advancing [])).isSet F.bolCtrl_NOTIFIED 9 = true
    ∧ (after (.bolNotifyWrite 9 false 7) (advancing [])).isSet F.bolCtrl_NOTIFIED 9 = true
    ∧ (after (.bolNotifyWrite 16383 true 0xFFFF3FFF) run0).get F.bolCtrl_EVENT 16383 = 65535 := by decide +kernel

theorem test_wit_advance_ends : (let s := { runT with run := { runT.run with bolQ := [⟨9, 1, .token 2 0⟩] } }
    blockRec s 2 = some blockT ∧ (blockRec (after .bollardAdvanceApply s) 2).map (fun b => (token b 0).done) = some true)
    ∧ (let s := { starting (advs 4) with run := { live.run with bolQ := [⟨9, 1, .finish 3 0⟩] } }
      (qEntry s 3 0).map (fun e => e.fin) = some none ∧ (qEntry (after .bollardAdvanceApply s) 3 0).map (fun e => e.fin) = some (some (0, 0))) := by decide +kernel

theorem test_wit_watchdog_ended : (let s := { watched with run := { watched.run with blocks := [], ops := [⟨5, 1, 2, 0, ⟨0, 0, 0, 0, 0, 0, 3⟩, 0x701F, .post 31 15, false, 64, [], none, none, 0⟩] } }
    blockRec s 2 = none ∧ s.run.ops.length = 1 ∧ s.ctxState 1 = 1 ∧ (after (.tokenWatchdog 2) s).get F.coreHaltA_REASON 1 = 0x63) := by decide +kernel

/-! Memory accesses of threads. -/

/-- A fragment of lane 0 alone; a Grotto line of the segment's first bytes. -/
def frag1 : Frag := ⟨0, 1, true, .none, 0⟩
def th1 : Th := { th0 with f := frag1 }
def gline : GrottoLine := ⟨0, 0, 0, 65536, false, [(0, 1), (1, 2), (2, 3), (3, 4), (4, 5)], [0], 0, 0, 0⟩
def run2 : State := (runs [frag1] block0 launch0).put F.coreGrottoStatus_CACHE_WAYS 2
def run3 : State := { run2 with core := { run2.core with gl := [gline], sram := [(4092, 9)] } }

theorem test_wit_issues_run2 : Issues run2 here th1 (issued run2) := issues_of (by decide +kernel)

theorem test_wit_issues_run3 : Issues run3 here th1 (issued run3) := issues_of (by decide +kernel)

theorem test_wit_scratch : widthOk 8 = true ∧ scratchBad (issued run0) th0 (reg 2) 8 = none ∧ scratchBad (issued run0) th0 src0 4 = some 0x3F800000
    ∧ (∀ m ∈ th0.lanes, 0 < m → th0.reg (issued run0) 2 0 + 0 ≠ th0.reg (issued run0) 2 m + 0) ∧ th1.lanes = [0] ∧ scratchBad (issued run2) th1 (reg 10) 4 = none := by
  decide +kernel

def lane0 : LaneAcc := ⟨0, 0, 65536, 0⟩
def place0 : Place := ⟨⟨0, 65536, 65536, 0, true, 0, true, true, true, false, false, 0, 0, 0⟩, 0, 65536⟩

theorem test_wit_lane : OneLane (issued run2) th1 .ctx (reg 10) 4 .read [0, 1, 2] lane0 place0 ∧ OneLane (issued run2) th1 .ctx (reg 10) 4 .write [0, 1, 2] lane0 place0
    ∧ OneLane (issued run2) th1 .ctx (reg 10) 8 .both [0, 1] lane0 place0 ∧ OneLane (issued run3) th1 .ctx (reg 10) 4 .read [0, 1, 2] lane0 place0 := by
  unfold OneLane
  decide +kernel

theorem test_wit_loads : glLoad (issued run3) 0 65536 4 false = some [1, 2, 3, 4] ∧ glFind (issued run2) 0 65536 false = none
    ∧ lineReq (issued run2) 0 (lineKey (65536 / 128 * 128) 0 3) = none ∧ canAsk (issued run2) 0 0 (lineKey (65536 / 128 * 128) 0 3) = true
    ∧ (glFind (issued run3) 0 65536 false).isSome = true ∧ (glVictim (issued run2) 0 65536 (storeMask (issued run2) 1 false)).isSome = true
    ∧ (devRead 2 (issued run2) (place0.rq (issued run2)) 65536 4).1 = (false, [0x47, 0x4C, 0x50, 0x58]) ∧ glFind (issued run2) 0 (65536 + 4 - 1) false = none
    ∧ launch0.decl.replayable = false ∧ peerPending (issued run3) block0 = false := by decide +kernel

def ctxLoad : LoadAcc := { ld0 with space := .ctx, addr := reg 10 }
def ctxStore : StoreAcc := { st0 with space := .ctx, addr := reg 10, src := reg 3 }
def ctxAtom : AtomAcc := { at0 with space := .ctx, addr := reg 10, src := reg 3, dst := 62 }

theorem test_accesses : regRead (after (.load here ctxLoad) run3) 0 0 2 0 = 0x04030201 ∧ (after (.load here ctxLoad) run2).core.lreq.length = 1
    ∧ ((glFind (after (.store here ctxStore) run3) 0 65536 false).map (fun l => l.dirty)) = some [0, 1, 2, 3]
    ∧ regRead (after (.atomic here ctxAtom) run2) 0 0 62 0 = 0x58504C47
    ∧ (after (.load here ld0) run0).get F.coreHaltA_REASON 1 = 0x43 := by decide +kernel

theorem test_accesses_more : leNat (sramRead (after (.store here ⟨.scratch, reg 10, 8, reg 2, .group, false, false⟩) run2) 0 0 8) = 1 + 5 * 2 ^ 32
    ∧ leNat (sramRead (after (.atomic here ⟨.scratch, reg 10, 4, .add, reg 3, reg 3, 62, .group, false, false⟩) run2) 0 0 4) = 5 := by decide +kernel

theorem test_fences : (after (.fenceAcquire here .device) run3).core.gl.map (fun l => l.bytes) = [[(0, 1)]]
    ∧ (after (.fenceRelease here .system) run3).core.gl.map (fun l => l.dirty) = [[]] ∧ (after (.fenceAcqRel here .device) run3).core.gl = []
    ∧ (after (.fenceSc here .group) run3).core.gl = [gline] ∧ (after (.grottoWb here 0 128) run3).core.gl.map (fun l => l.dirty) = [[]]
    ∧ (after (.grottoWbinv here 0 0) run3).core.gl = [] ∧ (after (.grottoInvClean here 0 128) run3).core.gl.map (fun l => l.bytes) = [[(0, 1)]]
    ∧ (after (.grottoWb here 1 128) run3).get F.coreHaltA_REASON 1 = 0x41 ∧ (after (.constInvalidate here) run3).core.ro.length = 1 := by decide +kernel

/-- A load of lane 0 waits for the first line of the segment. -/
def fline : Nat := lineKey 65536 0 3
def fload : OutLoad := ⟨ctxLoad, [lane0], [(fline, 1)], [], [], 0⟩
def filling : State := { run2 with run := { run2.run with slots := [(0, ⟨2, 0, [frag1], [fload]⟩)] }, core := { run2.core with lreq := [⟨1, false, 0, 0, fline, 0, 0, 0, 3⟩] } }

theorem test_wit_fill : keyTgt fline = 0 ∧ keyKind fline = 3 ∧ filling.core.lreq.find? (fun l => l.core == 0 && l.key == fline) = some ⟨1, false, 0, 0, fline, 0, 0, 0, 3⟩
    ∧ (devRead 4 filling ⟨0, 0, 0⟩ (keyAddr fline) 128).1.1 = false ∧ glFind filling 0 (keyAddr fline) false = none
    ∧ (coreLoads filling 0).filter (fun y => y.2.need.contains (fline, 1)) = [(0, fload)] ∧ ((coreLoads filling 0).all fun y => y.2.want.isEmpty) = true
    ∧ regRead (after (.loadFill 0 fline) filling) 0 0 2 0 = 0x58504C47 ∧ (slotRec (after (.loadFill 0 fline) filling) 0 0).map (fun r => r.loads) = some [] := by
  decide +kernel

theorem test_wit_own_loads : ownLoads (issued run2) th1 8 [lane0] = false ∧ ownLoads filling th1 4 [lane0] = true ∧ firstPoisoned (issued run2) (place0.rq (issued run2)).key 65536 8 = none
    ∧ (devRead 2 (atomBegin (issued run2) th1 ctxAtom) (place0.rq (issued run2)) 65536 4).1.1 = false ∧ Free run2 th1 ⟨[], 2⟩ :=
  ⟨by decide +kernel, by decide +kernel, by decide +kernel, by decide +kernel, free_of (r := ⟨2, 0, [frag1], []⟩) (by decide +kernel) (by decide +kernel)⟩

theorem test_narrow : (sramRead (after (.atomic here ⟨.scratch, reg 10, 1, .add, reg 3, reg 3, 62, .group, false, false⟩) run2) 0 0 2) = [5, 0] := by decide +kernel

/-! Operations. -/

def unit0 : Nat := arrayUnit run0 0 3
def mat1 : MatOp := ⟨⟨0, 64, .plain .fp32, 0, 0⟩, ⟨256, 64, .plain .fp32, 0, 0⟩, 1, 2, 4, .overwrite, 1, none, none, 0, none, 0, none⟩

theorem test_wit_may_issue : MayIssue (issued run0) th0 iss0 false unit0 none ∧ MayIssue (issued run0) th0 iss0 true hmUnit (some 8)
    ∧ MayIssue (issued run0) th0 ⟨63, [0, 1, 2, 3], some (9, 2 ^ 32 - 1), none⟩ false unit0 none :=
  ⟨⟨by decide +kernel, by decide +kernel, by decide +kernel, by decide +kernel⟩, ⟨by decide +kernel, by decide +kernel, by decide +kernel, by decide +kernel⟩,
    ⟨by decide +kernel, by decide +kernel, by decide +kernel, by decide +kernel⟩⟩

theorem test_wit_issue_waits : issOk iss0 false = true ∧ issueRefused (issued runT) { th0 with b := blockT } iss0 (arrayUnit (issued runT) 0 3) none = none
    ∧ (token blockT iss0.token).done = false := by decide +kernel

theorem test_issues : (after (.matrixOpIssue here iss0 3 mat1) run0).run.ops.map (fun o => (o.unit, o.token)) = [(0x2003, 0)]
    ∧ (after (.segmulIssue here iss0 seg1) run0).run.ops.map (fun o => o.unit) = [hmUnit]
    ∧ (slotRec (after (.matrixOpIssue here iss0 3 mat1) runT) 0 0).map (fun r => r.frags.map (fun f => f.wait)) = some [.entry 0 0] := by decide +kernel

/-- An operation of block 2 in the buffer. -/
def opOf (unit : Nat) (job : Job) (token : Nat) : BufOp := ⟨5, 1, 2, 0, ⟨0, 0, 0, 0, 0, 0, 3⟩, unit, job, false, token, [], none, none, 0⟩
def buffered (o : BufOp) : State :=
  let s := sets run0 [(F.hmCtxGrant_CORE_COUNT, 1, 1), (F.coreBinding_BOUND, 0, 1), (F.coreBinding_CONTEXT, 0, 1)]
  { s with run := { s.run with ops := [o] } }

theorem test_wit_leaves : ∀ o ∈ [opOf 0x7000 (.post 0 15) 64, opOf 0x8000 (.tender ten0) 0, opOf hmUnit (.segmul seg1) 0], Leaves (buffered o) 5 o := by
  intro o h
  simp only [List.mem_cons, List.not_mem_nil, or_false] at h
  rcases h with rfl | rfl | rfl <;> exact ⟨by decide +kernel, by decide +kernel, by decide +kernel, by decide +kernel, by decide +kernel, by decide +kernel⟩

theorem test_wit_leave : (buffered (opOf 0x7000 (.post 0 15) 64)).get (F.ferryGates_TOKENS 15) 0 < 8
    ∧ queueUsed (buffered (opOf 0x8000 (.tender ten0) 0)) 0x8000 < queueSize 0x8000 ∧ queueUsed (buffered (opOf hmUnit (.segmul seg1) 0)) hmUnit < queueSize hmUnit
    ∧ right (segChecks 1 seg1 (arrived (leftBuffer (buffered (opOf hmUnit (.segmul seg1) 0)) (opOf hmUnit (.segmul seg1) 0)) ((opOf hmUnit (.segmul seg1) 0).toJob 0)))
      (fun rs w => rs.length == 1 && grantCores w 1 == [0]) = true := by decide +kernel

theorem test_leaves : (after (.opBufferLeave 5) (buffered (opOf 0x7000 (.post 0 15) 64))).get (F.ferryGates_TOKENS 15) 0 = 1
    ∧ (after (.opBufferLeave 5) (buffered (opOf 0x8000 (.tender ten0) 0))).eng.jobs.length = 1
    ∧ (after (.opBufferLeave 5) (buffered (opOf hmUnit (.segmul seg1) 0))).eng.seg.length = 1 := by decide +kernel

/-- A matrix operation of block 2 on array 3 of core 0; rows of 1.0, and the half that holds its B. -/
def mjob (op : MatOp) (st : Bool) : EngJob :=
  ⟨7, 0x2003, 1, .block 2 ⟨0, 0, 0, 0, 0, 0, 3⟩, .matrix op, false, 0, some (9, 2), none, st, false, 0, [], none, [], 0⟩
def arraying (op : MatOp) (st : Bool) : State :=
  let ones : SMap Byte := [(2, 0x80), (3, 0x3F), (6, 0x80), (7, 0x3F), (258, 0x80), (259, 0x3F)]
  { run0 with
    eng := { run0.eng with jobs := [mjob op st] },
    core := { run0.core with sram := ones, bst := [(3, [⟨7, [[0x3F800000, 0, 0, 0], [0x40000000, 0x40000000, 0, 0]], [[], []]⟩])] } }

theorem test_wit_arrays : coreRuns (arraying mat1 false) 0 = true ∧ (jobsOf (arraying mat1 false) 0x2003).find? (fun x => !x.started) = some (mjob mat1 false)
    ∧ coreDrains (arraying mat1 false) 0 = false ∧ matIdle mat1 = false ∧ matIdle { mat1 with m := 0 } = true ∧ feedOf (arraying mat1 true) 0 3 = []
    ∧ mat1.store = none ∧ mat1.rowMax = none ∧ (mjob mat1 true).cursor + 1 = mat1.m ∧ ((jobsOf (arraying mat1 false) 0x2003).filter (fun x => x.started)).length < 2
    ∧ (matCheck (arraying mat1 false) 0 1 mat1).1 = none ∧ (matCheck (arraying mat1 false) 0 1 { mat1 with m := 257 }).1 = some (0x22, 257 * 2 ^ 44 + 2 * 2 ^ 32 + 4)
    ∧ (jobsOf (arraying mat1 true) 0x2003).head? = some (mjob mat1 true)
    ∧ (bHalves (arraying mat1 true) 0 3).find? (fun x => x.key == 7) = some ⟨7, [[0x3F800000, 0, 0, 0], [0x40000000, 0x40000000, 0, 0]], [[], []]⟩ := by
  decide +kernel

theorem test_arrays : (bHalves (after (.arrayOpAccept 0 3) (arraying mat1 false)) 0 3).map (fun h => h.rows.map (fun r => r.head?)) =
      [[some 0x3F800000, some 0], [some 0x3F800000, some 0x40000000]]
    ∧ (after (.arrayOpAccept 0 3) (arraying { mat1 with m := 257 } false)).get F.coreHaltA_REASON 1 = 0x22
    ∧ accGet (after (.arrayOpComplete 0 3 5 6) (arraying mat1 true)) 0 3 1 0 0 = 0x3F800000
    ∧ accGet (after (.arrayOpComplete 0 3 5 6) (arraying mat1 true)) 0 3 1 0 1 = 0x40800000
    ∧ bolValue (after (.arrayOpComplete 0 3 5 6) (arraying mat1 true)) 9 = 9 := by decide +kernel

/-- Line 0 of A as the feeder read it, 2.0 in element 0, before the scratchpad changed; the result stored. -/
def feeding : State :=
  let s := arraying { mat1 with store := some ⟨1024, 64, .plain .fp32, 0, 0⟩ } true
  { s with core := { s.core with feed := [(3, [⟨7, 0, [0, 0, 0, 0x40] ++ List.replicate 60 0⟩])] } }

theorem test_feed : accGet (after (.arrayOpComplete 0 3 0 0) feeding) 0 3 1 0 0 = 0x40000000 ∧ sramRead (after (.arrayOpComplete 0 3 0 0) feeding) 0 1024 4 = [0, 0, 0, 0x40] := by
  decide +kernel

/-- A segmented multiply of one row with rank 0: task 1 is its output tile, on core 0. -/
def srun : SegRun := ⟨0, 1, 0, 0, 0, 0, 0, 0, 0, 0, 0, 0, 0, 1, 1⟩
def smul (tasks : List SegTask) (cancelled : Bool) : SegMul :=
  ⟨{ mjob mat1 true with unit := hmUnit, job := .segmul seg1 }, seg1, [0], [srun], tasks, cancelled⟩
def multiplying (m : SegMul) : State :=
  let s := sets (buffered (opOf 0x8000 (.tender ten0) 0)) [(F.coreAdapterHolds_HOLDS, 0, 1)]
  { s with eng := { s.eng with seg := [m] } }

theorem test_wit_segtasks : segRec (multiplying (smul [] false)) 7 = some (smul [] false)
    ∧ (segTasks seg1 [srun]).map (fun x => x.1) = [1] ∧ taskCore (multiplying (smul [] false)) (smul [] false) 1 = some 0
    ∧ taskBegun (smul [] false) 1 = false ∧ (segTasks seg1 [srun]).all (fun x => taskReady (smul [] false) (segTasks seg1 [srun]) x.2) = true
    ∧ taskTurn (multiplying (smul [] false)) (smul [] false) (segTasks seg1 [srun]) 1 = true ∧ coreServes (multiplying (smul [] false)) 0 1 = true
    ∧ keptFrom (multiplying (smul [] false)) 0 1 = false ∧ (multiplying (smul [] false)).ctxRuns 1 = true ∧ (smul [⟨1, some 0, false, none, 0, []⟩] false).tasks.find? (fun y => y.no == 1 && !y.done) = some ⟨1, some 0, false, none, 0, []⟩
    ∧ (segTasks seg1 [srun]).all (fun x => taskPanels seg1 x.2 == 1 && right (Res.held (runPanel 1 0 seg1 x.2 0) (multiplying (smul [⟨1, some 0, false, none, 0, []⟩] false))) (fun _ _ => true)) = true
    ∧ (segTasks seg1 [srun]).all (fun x => taskDone (smul [⟨1, some 0, true, none, 0, []⟩] false) x.1) = true := by decide +kernel

theorem test_segtasks : (segRec (after (.segmulTaskDispatch 7 1) (multiplying (smul [] false))) 7).map (fun m => m.tasks) = some [⟨1, some 0, false, none, 0, []⟩]
    ∧ (segRec (after (.segmulTaskDone 7 1) (multiplying (smul [⟨1, some 0, false, none, 1, []⟩] false))) 7).map (fun m => m.tasks.map (fun t => (t.done, t.cursor))) = some [(true, 1)]
    ∧ (after (.segmulComplete 7) (multiplying (smul [⟨1, some 0, true, none, 0, []⟩] false))).get F.coreAdapterHolds_HOLDS 0 = 0
    ∧ segRec (after (.segmulComplete 7) (multiplying (smul [] true))) 7 = none := by decide +kernel

/-! Engines and routines. -/

/-- A group with one tensor at 32,768, its loss scale 1.0 at 36,864; rows, routes, maps and destinations of dispatch jobs from 40,960;
routine descriptors at 53,248. -/
def tables : SMap Byte :=
  [(98304, 1), (98306, 1), (98308, 1), (98313, 132), (98433, 136), (98441, 137), (98448, 64), (98449, 136), (98456, 128), (98457, 136), (98464, 192),
   (98465, 136), (98472, 64), (98476, 64), (98480, 64), (98484, 64), (98488, 64), (98492, 1), (98496, 1), (98500, 3), (100354, 128), (100355, 63),
   (100418, 128), (100419, 63), (102402, 128), (102403, 63), (106496, 1), (106497, 2), (106498, 3), (106499, 4), (106500, 5), (106501, 6),
   (106502, 7), (106503, 8), (106504, 9), (106505, 10), (106506, 11), (106507, 12), (106508, 13), (106509, 14), (106510, 15), (106511, 16),
   (106512, 17), (106513, 18), (106514, 19), (106515, 20), (106516, 21), (106517, 22), (106518, 23), (106519, 24), (106520, 25), (106521, 26),
   (106522, 27), (106523, 28), (106524, 29), (106525, 30), (106526, 31), (106527, 32), (106528, 33), (106529, 34), (106530, 35), (106531, 36),
   (106532, 37), (106533, 38), (106534, 39), (106535, 40), (106536, 41), (106537, 42), (106538, 43), (106539, 44), (106540, 45), (106541, 46),
   (106542, 47), (106543, 48), (106544, 49), (106545, 50), (106546, 51), (106547, 52), (106548, 53), (106549, 54), (106550, 55), (106551, 56),
   (106552, 57), (106553, 58), (106554, 59), (106555, 60), (106556, 61), (106557, 62), (106558, 63), (106559, 64), (107538, 128), (107539, 63),
   (108547, 128), (109569, 176), (109577, 16), (109586, 255), (109587, 255), (109590, 9), (113665, 192), (113673, 16), (113682, 255), (113683, 255),
   (113686, 9), (114704, 1), (114754, 64), (114755, 64), (118784, 128), (118788, 128), (118848, 128), (118852, 128), (118856, 1), (118860, 224),
   (118861, 46)]

/-- Block 2's code object has routines at 53,248; a job of it. -/
def launchR : Launch := { launch0 with routineOff := 53248, routineSize := 256 }
def base (l : Launch) : State := let s := runs [frag0] block0 l
  { s with mem := { s.mem with dram := code ++ tables } }
def jobOf (unit : Nat) (job : Job) (cursor : Nat) (acc : Bool) : EngJob :=
  ⟨7, unit, 1, .block 2 ⟨0, 0, 0, 0, 0, 0, 3⟩, job, acc, 0, some (9, 2), none, true, false, cursor, [], none, [], 0⟩
def bound : State := sets (base launchR) [(F.coreBinding_BOUND, 0, 1), (F.coreBinding_CONTEXT, 0, 1)]
def engaged (j : EngJob) : State := { bound with eng := { live.eng with jobs := [j] }, core := { run0.core with sram := [(0, 5), (1, 6)] } }

def launchP : Launch := { launch0 with decl := { decl0 with replayable := true } }

theorem test_wit_may_issue_engines : MayIssue (issued run0) th0 iss0 true (unitId 8 (tileOfCore 0 * 8 + 7)) none
    ∧ MayIssue (issued run0) th0 iss0 true (unitId 9 (tileOfCore 0 * 2 + 1)) (some 9) ∧ MayIssue (issued run0) th0 iss0 true (unitId 10 (tileOfCore 0 * 2 + 1)) (some 9)
    ∧ MayIssue (issued (base launchR)) { th0 with l := launchR } iss0 true (coreUnit (issued (base launchR)) 0) none :=
  ⟨⟨by decide +kernel, by decide +kernel, by decide +kernel, by decide +kernel⟩, ⟨by decide +kernel, by decide +kernel, by decide +kernel, by decide +kernel⟩,
    ⟨by decide +kernel, by decide +kernel, by decide +kernel, by decide +kernel⟩, ⟨by decide +kernel, by decide +kernel, by decide +kernel, by decide +kernel⟩⟩

/-- A copy of one row into device memory, which a REPLAYABLE block may issue. -/
def ten1 : TenderJob := { ten0 with dst := .ctx 0, rowBytes := 64 }
def runP : State := runs [frag0] block0 launchP
def thP : Th := { th0 with l := launchP }

theorem test_wit_replayable : MayIssue (issued runP) thP iss0 true (unitId 8 7) none ∧ launchP.decl.replayable = true ∧ Issues runP here thP (issued runP)
    ∧ mayReplay (issued runP) thP ten1 .copy := by
  refine ⟨⟨by decide +kernel, by decide +kernel, by decide +kernel, by decide +kernel⟩, rfl, issues_of (by decide +kernel), by decide, fun a g h hs => ?_⟩
  have hw : tenderWrites { ten1 with kind := .copy } = [.ctx 0] := by decide +kernel
  have ht : (segOf (issued runP) thP.c 0).all (fun g => g.2.target == 0) = true := by decide +kernel
  rw [hw, List.mem_singleton] at h
  cases h
  rw [hs] at ht
  simpa using ht

def step0 (k : AttnKind) : AttnStep := ⟨k, ref0, ref0, ref0, ref0, ref0, ref0, ref0, ref0, 0, 0, 32, 1, 1, 0, 0, false, false, 0, none⟩

theorem test_wit_routine : [step0 .fwd, step0 .bwdQ, step0 .bwdKv].all (fun a => stepOk (.attn a)) = true
    ∧ (bodySlots 1 [.attn (step0 .fwd), .array 3 mat1, .tender 7 ten1, .commit] (issued (base launchR))).1 = none ∧ launchR.decl.routines = true
    ∧ right (routineDesc { th0 with l := launchR } 0 (issued (base launchR))) (fun a _ => a == some false) = true
    ∧ right (routineDesc { th0 with l := launchR } 64 (issued (base launchR))) (fun a _ => a == some true) = true ∧ saveOk { th0 with l := launchR } 4032 = true := by
  decide +kernel

theorem test_wit_issues_routine : Issues (base launchR) here { th0 with l := launchR } (issued (base launchR)) := issues_of (by decide +kernel)

theorem test_engine_issues : (after (.tenderZero here iss0 7 ten0) run0).run.ops.map (fun o => o.unit) = [0x8007]
    ∧ (after (.updateTake (.issue here iss0 1 upd0)) run0).run.ops.map (fun o => o.unit) = [0x9001]
    ∧ (after (.combine (.issue here iss0 1 com0)) run0).run.ops.map (fun o => o.unit) = [0xA001]
    ∧ (after (.routineIssue here iss0 ⟨64, 4032, []⟩) (base launchR)).run.ops.map (fun o => (o.unit, o.acc)) = [(0x1000, true)] := by decide +kernel

def upd1 (commit : Bool) : UpdateJob := ⟨32768, commit, false, 0x3F800000, 0, 0, 0, 0, 0, 0, 36864, -126, 127, 0, false, 0⟩
def takes : State := (engaged (jobOf 0x9007 (.update (upd1 false)) 0 false)).put F.coreCensus_COUNT 6 0
def commits (n cursor : Nat) : State := (engaged (jobOf 0x9007 (.update (upd1 true)) cursor false)).put F.coreCensus_COUNT n 0

/-- The take's last write, after the checks. -/
def takePut (ge : List Byte × List Byte) (w : State) : Res Unit :=
  let g := decodeGroup ge.1
  devPut 1 (g.state + 0x14) (leBytes 4 (sat32 (takeSlots w g.slots).1)) (engBytes (takeSlots w g.slots).2 0x9007 (checkBytes g + 4))

def gatesTo (s : State) (go : Bool) : Bool :=
  right (updCheck 1 (upd1 true) s) (fun ge w => (decodeGroup ge.1).extras == [] && (decodeGroup ge.1).slots == [0]
    && right (updGate (jobOf 0x9007 (.update (upd1 true)) 0 false) (upd1 true) (decodeGroup ge.1) (lsOf (upd1 true) ge.2) w) (fun x _ => x == go))

/-- The commit that has passed its gate, with what its checks read. -/
def jobC : EngJob := { jobOf 0x9007 (.update (upd1 true)) 1 false with
  got := (match updCheck 1 (upd1 true) (commits 0 0) with | .ok ge _ => [(0, false, ge.1), (1, false, ge.2)] | _ => []) }
def committing : State := engaged jobC

theorem test_wit_updates : running takes (unitId 9 7) = some (jobOf 0x9007 (.update (upd1 false)) 0 false) ∧ running committing (unitId 9 7) = some jobC
    ∧ right (updCheck 1 (upd1 false) takes) (fun ge w => (decodeGroup ge.1).slots == [0] && right (takePut ge w) (fun _ _ => true)) = true
    ∧ gatesTo (commits 6 0) false = true ∧ gatesTo (commits 0 0) true = true
    ∧ right ((checkOthers 1 (upd1 true) (decodeGroup (keptBytes jobC 0)) committing).then (fun _ s =>
      (Res.run (checkLines 1 (upd1 true).adamw) (decodeGroup (keptBytes jobC 0)).tensors s).then (fun _ s =>
        updCommit jobC (upd1 true) (decodeGroup (keptBytes jobC 0)) (lsOf (upd1 true) (keptBytes jobC 1)) s))) (fun _ _ => true) = true := by
  decide +kernel

theorem test_updates : (after (.updateTake (.run 7)) takes).get F.coreCensus_COUNT 0 = 0
    ∧ (devRead 4 (after (.updateTake (.run 7)) takes) ⟨0, 0, 0⟩ (65536 + 33792 + 0x14) 4).1.2 = [6, 0, 0, 0] := by decide +kernel

def dis1 : DispatchJob := ⟨1, 1, 1, 40960, 64, 64, 41984, 43008, 44032, 1, 1, 46080⟩
def com1 : CombineJob := ⟨1, 1, 1, 41984, 47104, 43008, 48128, 1, 1, false, none, 50176, 64⟩
def dispatching : State := engaged (jobOf 0xA007 (.dispatch dis1) 0 false)
def combining : State := engaged (jobOf 0xA007 (.combine com1) 0 false)

theorem test_wit_experts : running dispatching (unitId 10 7) = some (jobOf 0xA007 (.dispatch dis1) 0 false)
    ∧ running combining (unitId 10 7) = some (jobOf 0xA007 (.combine com1) 0 false)
    ∧ right (dispWalk (jobOf 0xA007 (.dispatch dis1) 0 false) dis1 dispatching) (fun xv _ => xv.1.dests.all (fun q => q.ferry == 0xFFFF && q.bollard == 9)) = true
    ∧ right (combAll (jobOf 0xA007 (.combine com1) 0 false) com1 combining) (fun _ _ => true) = true := by decide +kernel

theorem test_experts : bolValue (after (.dispatch (.run 7)) dispatching) 9 = 8
    ∧ (devRead 4 (after (.combine (.run 7)) combining) ⟨0, 0, 0⟩ (65536 + 50176) 4).1.2 = [0, 0, 64, 64] := by decide +kernel

def copy1 : TenderJob := { ten0 with rowBytes := 64 }
def zero1 : TenderJob := { copy1 with kind := .zero }
def tending (t : TenderJob) : State := engaged (jobOf 0x8007 (.tender t) 0 false)

theorem test_wit_completes : running (tending zero1) 0x8007 = some (jobOf 0x8007 (.tender zero1) 0 false) ∧ jobRec (tending zero1) 7 = some (jobOf 0x8007 (.tender zero1) 0 false)
    ∧ tenderHeld (tending copy1) (jobOf 0x8007 (.tender copy1) 0 false) copy1 = false
    ∧ right (tenderCheck (jobOf 0x8007 (.tender zero1) 0 false) zero1 (tending zero1)) (fun _ _ => true) = true
    ∧ [zero1, copy1].all (fun t => let j := jobOf 0x8007 (.tender t) 1 false; let s := engaged j
      right (tenderIndex j t s) (fun idx w => (tenderNeeds j t idx (stepsLeft j t) w).isEmpty && w.upstream
        && right (tenderRun j t idx (fun s => updJob s j.id (fun x => { x with cursor := x.cursor + 1 })) (stepsLeft j t) w) (fun _ _ => true))) = true
    ∧ jobDone (jobOf 0x9007 (.update (upd1 true)) 2 false) = true ∧ jobDone (jobOf 0xA007 (.dispatch dis1) 2 false) = true
    ∧ running (engaged (jobOf 0xA007 (.dispatch dis1) 2 false)) 0xA007 = some (jobOf 0xA007 (.dispatch dis1) 2 false) := by decide +kernel

theorem test_completes : sramRead (after (.engineJobComplete 0x8007) (tending copy1)) 0 64 4 = [5, 6, 0, 0]
    ∧ sramByte (after (.engineJobComplete 0x8007) (tending { zero1 with dst := .scratch 0 0 })) 0 1 = 0
    ∧ (after (.engineJobComplete 0x9007) (engaged (jobOf 0x9007 (.update (upd1 true)) 2 false))).eng.jobs = [] := by decide +kernel

/-- A routine of one step on core 0; it is ACCUMULATING where `acc`. -/
def rjob (k : AttnKind) (cursor : Nat) (acc : Bool) : EngJob := jobOf 0x1000 (.routine ⟨64, 4032, [.attn (step0 k)]⟩) cursor acc
def routed (k : AttnKind) (cursor : Nat) (acc : Bool) : State := engaged (rjob k cursor acc)

theorem test_wit_routines : ∀ k ∈ [AttnKind.fwd, .bwdQ, .bwdKv], routineOf (routed k 0 false) 0 = some (rjob k 0 false, ⟨64, 4032, [.attn (step0 k)]⟩)
    ∧ bodyAt [.attn (step0 k)] 0 = some (.block (step0 k) 0) ∧ routineGoes (routed k 0 false) 0 (rjob k 0 false) = true ∧ bodyAt [.attn (step0 k)] 1 = none
    ∧ routineGoes (routed k 1 true) 0 (rjob k 1 true) = true ∧ (rjob k 1 true).acc = true := by decide +kernel

theorem test_wit_walks : right (Res.held (attnFwd 1 0 (step0 .fwd) 0) (routed .fwd 0 false)) (fun _ _ => true) = true
    ∧ right (Res.held (attnBwdQ 1 0 (step0 .bwdQ) 0) (routed .bwdQ 0 false)) (fun _ _ => true) = true
    ∧ right (Res.held (attnBwdKv 1 0 (step0 .bwdKv) 0) (routed .bwdKv 0 false)) (fun _ _ => true) = true := by decide +kernel

theorem test_routines : (after (.routineComplete 0) (routed .fwd 1 true)).eng.jobs = [] ∧ (after (.routineMaxCycles 0) (routed .fwd 0 true)).get F.coreHaltA_REASON 1 = 0x65 := by
  decide +kernel

theorem test_commit_point : (after (.attnFwd 0) (routed .fwd 0 false)).eng.jobs.map (fun j => j.cursor) = [1] := by decide +kernel

/-! Errors of units. -/

/-- A Cavern line of the segment's first 256 bytes at its home, slice 0: a clean sector, a dirty one. -/
def sector (d : Bool) : CavSector := ⟨true, d, false, List.replicate 64 7⟩
def cavLine0 : CavLine := ⟨256, 0, 0, 0, false, 0, 0, 0, [sector false, sector true, ⟨false, false, false, []⟩, ⟨false, false, false, []⟩], 0⟩
def serving : State :=
  let s := sets run3 [(F.idSliceMap_VALID, 0, 1), (F.idSliceMap_VALID, 1, 1), (F.idSliceMap_VALID, 2, 1), (F.idSliceMap_VALID, 3, 1), (F.coreBinding_BOUND, 0, 1),
    (F.coreBinding_CONTEXT, 0, 1), (F.faultCtrl_AUTO_TEST_EN, 0, 0), (F.ferryCtrl_VALID, 31, 1), (F.ferryCtrl_OWNER, 31, 1)]
  { s with mem := { s.mem with cavern := [cavLine0] } }

theorem test_wit_slices : atSlice serving 0 65536 = true ∧ atSlice serving 0 65600 = true ∧ cavFind serving 65536 = some cavLine0
    ∧ cavLine0.secs[65536 / 64 % 4]? = some (sector false) ∧ cavLine0.secs[65600 / 64 % 4]? = some (sector true)
    ∧ serving.get F.faultStatus_FATAL_CODE 0 = 0 := by decide +kernel

theorem test_slices : (after (.sliceScrub 0 15359 [65536]) serving).get F.cavSliceStatus_CE_COUNT 0 = 1
    ∧ (after (.sliceEccError 0 1 65600) serving).get F.cavSliceStatus_UE_COUNT 0 = 1 := by decide +kernel

def roLine0 : RoLine := ⟨0, 0, false, 65536, List.replicate 128 0, false⟩

theorem test_wit_parity : serving.physCore 0 = some 0 ∧ boundCtx serving 0 = some 1 ∧ serving.ctxState 1 = 1 ∧ serving.isSet F.faultCtrl_AUTO_TEST_EN = false
    ∧ glFind serving 0 65540 false = some gline ∧ glFind serving 0 65536 false = some gline ∧ (∀ x ∈ serving.core.gl, x = gline)
    ∧ (∀ k ∈ gline.dirty, k / 4 ≠ 65540 % 128 / 4) ∧ (∃ k ∈ gline.dirty, k / 4 = 65536 % 128 / 4) ∧ 1835007 < sramSize serving 0
    ∧ roFind serving 0 0 false 65536 = some roLine0 ∧ (roSegment serving 1 roLine0).isSome = true ∧ roSegment serving 1 { roLine0 with addr := 0 } = none := by decide +kernel

theorem test_parity : (after (.grottoParityError 0 65540 true) serving).ctxState 1 = 1 ∧ (after (.grottoParityError 0 65536 true) serving).ctxState 1 = 3
    ∧ (after (.grottoParityError 0 1835007 false) serving).ctxState 1 = 3 ∧ (after (.rocacheParityError 0 0 65536) serving).core.ro.map (fun l => l.bytes.take 2) = [[7, 7]] := by decide +kernel

theorem test_wit_cold_window : ∀ n, n < 256 → ¬ hotAt serving 1 [] n := by
  intro n _ h
  unfold hotAt at h
  simp at h

theorem test_wit_hot_window : hotAt serving 4 [(0, 3)] 0 := by
  unfold hotAt
  decide +kernel

theorem test_hot : (after (.hotspotWindow 4 [(0, 3)]) serving).isSet F.cavHotspot_NOTICE = true := by decide +kernel

/-- The store holds the host line at 65,536. -/
def hostsLine (st : Mesi) : State := { serving with hl := { serving.hl with lines := [⟨65536, st, List.replicate 64 7, false⟩] } }

theorem test_wit_host_line : hlFind serving 65536 = none ∧ hlFind (hostsLine .m) (65537 / 64 * 64) = some ⟨65536, .m, List.replicate 64 7, false⟩
    ∧ hlFind (hostsLine .s) 65536 = some ⟨65536, .s, List.replicate 64 7, false⟩ ∧ (let n := (hostSet (hostsLine .m) 65536).1; n < 256 ∧ atSlice (hostsLine .m) n 65537 = true) := by decide +kernel

theorem test_host_line : (let n := (hostSet (hostsLine .m) 65536).1; (after (.sliceEccError n 5 65537) (hostsLine .m)).hl.lines.map (fun l => l.poison) = [true]
    ∧ (after (.sliceEccError n 5 65537) (hostsLine .s)).hl.lines = [] ∧ (after (.sliceEccError n 4 65537) (hostsLine .s)).get F.cavSliceStatus_CE_COUNT n = 1) := by decide +kernel

/-- The spare of physical core 255's array 3 fills for a unit. -/
def filled (unit : Nat) : State := { live with bank := { live.bank with dpuMap := [(1023, unit + 1)] } }

theorem test_wit_dpu : smapGet live.bank.dpuMap 0 1023 = 0 ∧ smapGet (filled 31).bank.dpuMap 0 1023 % 64 = 31 + 1 ∧ smapGet (filled 5).bank.dpuMap 0 1023 % 64 ≠ 31 + 1
    ∧ smapGet (after (.dpuCheckFail 255 ⟨3, 0⟩ 31 true) live).bank.dpuMap 0 1023 = 32
    ∧ (after (.dpuCheckFail 255 ⟨3, 0⟩ 32 false) live).get F.coreArrayDpuMap_SPARE_FILLS 1023 = 0x3F
    ∧ unitMark (after (.dpuCheckFail 255 ⟨3, 0⟩ 31 false) (filled 5)) (unitId 1 255) = 4 := by decide +kernel

def checked : State := { arraying mat1 true with flt := { live.flt with lastCheck := [(0x1000, 0)] } }
def again : State := { arraying mat1 true with run := { run0.run with launches := [launchP] } }

def isJob (w : Option ArrayWork) (j : EngJob) : Bool := match w with | some (.job x) => x == j | _ => false

theorem work_of {w : Option ArrayWork} {j : EngJob} (h : isJob w j = true) : w = some (.job j) := by
  unfold isJob at h
  split at h
  · exact congrArg (fun x => some (ArrayWork.job x)) (eq_of_beq h)
  · cases h

theorem test_wit_work : (arrayWork (arraying mat1 true) 0 0 3)[0]? = some (.job (mjob mat1 true)) ∧ (mjob mat1 true).acc = false
    ∧ (arrayWork (arraying mat1 true) 0 0 3)[1]? = none := ⟨work_of (by decide +kernel), rfl, by
  rw [List.getElem?_eq_none_iff]
  decide +kernel⟩

theorem test_wit_cores : placedCore (arraying mat1 true) 0 = some 0 ∧ jobsOf (arraying mat1 true) (unitId 2 3) = [mjob mat1 true] ∧ blockRec (arraying mat1 true) 2 = some block0
    ∧ launchRec (arraying mat1 true) 1 = some launch0 ∧ launchRec again 1 = some launchP ∧ recentCheck (arraying mat1 true) (unitId 1 0) = false
    ∧ (arraying mat1 true).run.blocks.find? (fun b => b.core == 0 && b.idx == 0) = some block0 ∧ recentCheck checked (unitId 1 0) = true
    ∧ (freeCores live 0).head? = some 15 := by decide +kernel

theorem test_cores : (after (.arrayParityFail 0 ⟨3, 0⟩) (arraying mat1 true)).ctxState 1 = 3 ∧ (after (.arrayParityFail 0 ⟨3, 0⟩) again).run.blocks = []
    ∧ (after (.coreCheckFail 0 none) live).get F.wearCore_CHECKS 0 = 1 ∧ (after (.coreCheckFail 0 (some 0)) (arraying mat1 true)).ctxState 1 = 3
    ∧ unitMark (after (.coreCheckFail 0 none) checked) 0x1000 = 4 ∧ corePos (after (.coreHeartbeatTimeout 0) live) 0 = some 15 := by decide +kernel

theorem test_wit_engine_fails : unitUp live (unitId 8 31) = true ∧ unitUp { live with eng := { live.eng with down := [0x8007] } } (unitId 8 7) = false ∧ jobsOf live (unitId 9 7) = []
    ∧ running (tending zero1) (unitId 8 7) = some (jobOf 0x8007 (.tender zero1) 0 false) ∧ (tending zero1).ctxState 1 = 1 ∧ unitUp serving (unitId 7 31) = true
    ∧ serving.isSet F.ferryCtrl_VALID 31 = true ∧ serving.ctxState (serving.get F.ferryCtrl_OWNER 31) = 1 := by decide +kernel

theorem test_engine_fails : (after (.tenderFail 7) (tending zero1)).ctxState 1 = 3 ∧ unitUp (after (.ferryFail 31) serving) 0x701F = false
    ∧ (after (.packageAgentFail 2) live).get F.faultStatus_FATAL_CODE = 0x1040 := by decide +kernel

theorem test_wit_links : serving.flt.d2dOut.contains 231 = false ∧ 231 = 3 * 64 + 39 ∧ smapGet serving.flt.lanesUsed 0 231 < Config.repairLanes
    ∧ (let s := { serving with flt := { serving.flt with lanesUsed := [(231, 4)] } }
      Config.repairLanes ≤ smapGet s.flt.lanesUsed 0 231 ∧ (after (.d2dLaneFail 3 39 7) s).flt.d2dOut = [231])
    ∧ smapGet serving.pwr.lost 0 39 = 0 ∧ smapGet serving.bank.phases 0 39 = 0 := by decide +kernel

theorem test_wit_phase : 0 < phasesOf 39 := by unfold phasesOf; omega

theorem test_wit_phase_used : (let s := { serving with bank := { serving.bank with phases := [(39, 14)] } }
    smapGet s.bank.phases 0 39 ≠ 0 ∧ smapGet s.bank.phases 0 39 ≠ 0 + 1 ∧ smapGet s.pwr.lost 0 39 = 0) := by decide +kernel

/-! Field tests; binding and placing. -/

/-- Units marked, a swap under way. -/
def swapping (marks : SMap Nat) (xs : List Swap) (map : SMap (Option Nat)) : State :=
  { live with flt := { live.flt with unit := marks, swaps := xs }, bank := { live.bank with coreMap := map } }

theorem test_wit_ft : FtSubmits live 0x1000 255 ∧ FtSubmits run0 0x1000 255 ∧ FtSubmits serving 0x3000 255 ∧ FtSubmits (swapping [(0x1000, 4)] [] []) 0x1000 255 :=
  ⟨⟨by decide +kernel, by decide +kernel, by decide +kernel, by decide +kernel, by decide +kernel⟩,
    ⟨by decide +kernel, by decide +kernel, by decide +kernel, by decide +kernel, by decide +kernel⟩,
    ⟨by decide +kernel, by decide +kernel, by decide +kernel, by decide +kernel, by decide +kernel⟩,
    ⟨by decide +kernel, by decide +kernel, by decide +kernel, by decide +kernel, by decide +kernel⟩⟩

theorem test_wit_ft_commands : FtCommand 0x1000 255 0 (.ftTest 0x1000 true 255) ∧ FtCommand 0x1000 255 1 (.ftReplace 0x1000 255)
    ∧ FtCommand 0x1000 255 2 (.ftBypass 0x1000 255) ∧ FtCommand 0x1000 255 3 (.ftReturn 0x1000 255) ∧ FtCommand 0x1000 255 4 (.ftQuery 0x1000 255) :=
  ⟨.inl ⟨rfl, true, rfl⟩, .inr (.inl ⟨rfl, rfl⟩), .inr (.inr (.inl ⟨rfl, rfl⟩)), .inr (.inr (.inr (.inl ⟨rfl, rfl⟩))), .inr (.inr (.inr (.inr ⟨rfl, rfl⟩)))⟩

theorem test_wit_ft_answers : ftKind 0xD000 1 = false ∧ ftKind 0x1000 4 = true ∧ ftKind 0x1000 1 = true ∧ groupBusy (swapping [] [⟨0x1001, 1, some 15, none, 0⟩] []) (groupOf 0x1000) = true
    ∧ groupBusy live (groupOf 0x1000) = false ∧ ftState live 0x1000 3 = false ∧ ftKind 0x1000 3 = true ∧ ftState (swapping [(0x1000, 4)] [] []) 0x1000 3 = true
    ∧ placedCore live 0 = some 0 ∧ ftState live 0x1000 0 = true ∧ ftState live 0x1000 1 = true ∧ ftState live 0x1000 2 = true ∧ (freeCores live (0 / 16)).head? = some 15
    ∧ (freeCores (swapping [(0x100F, 4)] [] []) (0 / 16)).head? = none ∧ coreFree live 0 = true ∧ coreFree run0 0 = false := by decide +kernel

theorem test_ft : (after (.ftTest 0xD000 false 255) live).get F.ftCmd_RESULT = 2 ∧ (after (.ftReturn 0x1000 255) live).get F.ftCmd_RESULT = 3
    ∧ (after (.ftQuery 0x1000 255) live).get F.ftCmd_UNIT_STATE = 0 ∧ (after (.ftReturn 0x1000 255) (swapping [(0x1000, 4)] [] [])).get F.ftCmd_UNIT_STATE = 3
    ∧ corePos (after (.ftReplace 0x1000 255) live) 0 = some 15 ∧ (after (.ftReplace 0x1000 255) (swapping [(0x100F, 4)] [] [])).get F.ftCmd_RESULT = 4
    ∧ corePos (after (.ftBypass 0x1000 255) live) 0 = none ∧ (after (.ftBypass 0x1000 255) run0).get F.ftCmd_RESULT = 3 := by decide +kernel

/-- Slice 0 in a state with its physical slice's swap under way. -/
def slicing (st : Nat) (xs : List Swap) : State :=
  let s := serving.put F.cavSliceStatus_STATE st 0
  { s with flt := { s.flt with unit := [(0x3000, 2)], swaps := xs } }

theorem test_wit_slice_swaps : placedSlice serving 0 = some 0 ∧ sliceActive serving 0 = true ∧ groupBusy serving (groupOf (unitId 3 0)) = false ∧ ftState serving (unitId 3 0) 1 = true
    ∧ (freeSlices serving 0).head? = some 64 ∧ (slicing 1 []).get F.cavSliceStatus_STATE 0 = 1 ∧ (slicing 1 []).hl.evict = [] ∧ swapOfSlice (slicing 1 []) 0 = none
    ∧ swapOfSlice (slicing 1 [⟨0x3000, 1, some 64, some 3, 0⟩]) 0 = some ⟨0x3000, 1, some 64, some 3, 0⟩
    ∧ swapOfSlice (slicing 1 [⟨0x3000, 2, none, some 3, 0⟩]) 0 = some ⟨0x3000, 2, none, some 3, 0⟩
    ∧ (slicing 2 [⟨0x3000, 1, some 64, some 3, 0⟩]).get F.cavSliceStatus_STATE 0 = 2 ∧ serving.domOn (domOfCavern (0 / 64)) = true := by decide +kernel

theorem test_slice_swaps : (after (.ftReplace 0x3000 255) serving).get F.cavSliceStatus_STATE 0 = 1 ∧ (after (.sliceDrainDone 0) (slicing 1 [])).get F.cavSliceStatus_STATE 0 = 3
    ∧ (after (.sliceDrainDone 0) (slicing 1 [⟨0x3000, 1, some 64, some 3, 0⟩])).get F.cavSliceStatus_STATE 0 = 2
    ∧ slicePos (after (.sliceJoin 0) (slicing 2 [⟨0x3000, 1, some 64, some 3, 0⟩])) 0 = some 64 := by decide +kernel

/-- Core 0's test under way, its place vacant or filled. -/
def testing (op : Nat) (map : Option Nat) : State := swapping [] [⟨0x1000, op, none, some 3, 0⟩] [(0, map)]

theorem test_wit_ft_done : (testing 3 none).flt.waiting = [] ∧ (testing 3 none).flt.swaps.find? (fun y => y.unit == unitId 1 0) = some ⟨0x1000, 3, none, some 3, 0⟩
    ∧ placedCore (testing 3 none) 0 = none ∧ (coresOf (0 / 16)).find? (fun k => (corePos (testing 3 none) k).isNone) = some 0
    ∧ placedCore (testing 1 (some 15)) 0 = none ∧ (coresOf (0 / 16)).find? (fun k => (corePos (testing 0 (some 15)) k).isNone) = none := by decide +kernel

theorem test_ft_done : corePos (after (.ftCommandDone 0x1000 true 0) (testing 3 none)) 0 = some 0 ∧ (after (.ftCommandDone 0x1000 false 65535) (testing 0 none)).get F.ftCmd_DETAIL = 65535
    ∧ unitMark (after (.ftCommandDone 0x1000 true 0) (testing 1 (some 15))) 0x1000 = 4 := by decide +kernel

/-- Context 1's launch waits for core 0: free, bound to it, bound to context 2. -/
def free0 : State := { run0 with run := { run0.run with blocks := [], slots := [] } }
def mine : State := sets free0 [(F.coreBinding_BOUND, 0, 1), (F.coreBinding_CONTEXT, 0, 1)]
def theirs : State := sets free0 [(F.coreBinding_BOUND, 0, 1), (F.coreBinding_CONTEXT, 0, 2), (F.hmBindQuantum_QUANTUM_US, 0, 5)]

theorem test_wit_bind : bidder free0 0 = some 1 ∧ free0.isSet F.coreBinding_BOUND 0 = false ∧ free0.run.blocks = [] ∧ coreRuns free0 0 = true
    ∧ free0.get F.coreBinding_CONTEXT 0 ≠ 1 ∧ (coreFlags { mine with core := { mine.core with flags := [(0, ⟨false, false, false, false, 0, 0⟩)] } } 0).servedNone = false
    ∧ bidder (mine.put F.coreBinding_BOUND 0 0) 0 = some 1 ∧ (mine.put F.coreBinding_BOUND 0 0).get F.coreBinding_CONTEXT 0 = 1 := by decide +kernel

theorem test_wit_place : launchRec mine 1 = some launch0 ∧ wantsCore mine launch0 0 = true ∧ coreServes mine 0 launch0.ctx = true ∧ blockFor mine launch0 0 = some 0
    ∧ launch0.decl.cacheWays < 32 := by decide +kernel

theorem test_wit_quantum : theirs.isSet F.coreBinding_BOUND 0 = true ∧ theirs.get F.coreBinding_CONTEXT 0 ≠ 1 ∧ theirs.get F.hmBindQuantum_QUANTUM_US ≠ 0
    ∧ theirs.get F.hmCtxGrant_PRIORITY (theirs.get F.coreBinding_CONTEXT 0) ≤ theirs.get F.hmCtxGrant_PRIORITY 1 ∧ waitsFor theirs 0 1 = true ∧ theirs.eng.seg = []
    ∧ (let s := { theirs with run := { theirs.run with blocks := [{ block0 with ctx := 2, launch := 9 }] } }
      waitsFor s 0 1 = true ∧ (coreFlags (after (.bindQuantumExpire 0 1) s) 0).closed = true) := by decide +kernel

theorem test_bind : (after (.coreBind 0) free0).get F.coreBinding_CONTEXT 0 = 1 ∧ (coreFlags (after (.coreBind 0) free0) 0).clearing = true
    ∧ (coreFlags (after (.bindZeroDone 0) (after (.coreBind 0) free0)) 0).clearing = false ∧ (after (.bindQuantumExpire 0 1) theirs).isSet F.coreBinding_BOUND 0 = false := by decide +kernel

theorem test_place : (after (.blockPlace 1 0 0) mine).run.blocks.map (fun b => (b.idx, b.slots)) = [(0, [0, 1, 2, 3])]
    ∧ regRead (after (.blockPlace 1 0 0) mine) 0 3 0 31 = 127 := by decide +kernel

end Sys2Proof.Tests
end

section
/-! Frames and tables: what earlier layers leave to say about `Only`, masks and sparse tables. -/

namespace Sys2Proof.Machine

theorem Part.same_refl (p : Part) (s : State) : p.same s s := by cases p <;> rfl

theorem Part.same_trans {p : Part} {s t u : State} (h : p.same s t) (g : p.same t u) : p.same s u := by
  cases p <;> exact Eq.trans g h

theorem Only.refl (ps : List Part) (rs : List RegId) (s : State) : Only ps rs s s :=
  ⟨rfl, fun p _ => Part.same_refl p s, fun _ _ _ _ _ => rfl⟩

theorem Only.trans {ps : List Part} {rs : List RegId} {s t u : State} (h : Only ps rs s t) (g : Only ps rs t u) : Only ps rs s u where
  pending := g.pending.trans h.pending
  part p hp := Part.same_trans (h.part p hp) (g.part p hp)
  word r hr i j w := (g.word r hr i j w).trans (h.word r hr i j w)

theorem Only.mono {ps ps' : List Part} {rs rs' : List RegId} {s t : State} (h : Only ps rs s t) (hp : ps ⊆ ps') (hr : rs ⊆ rs') :
    Only ps' rs' s t where
  pending := h.pending
  part p k := h.part p (fun m => k (hp m))
  word r k := h.word r (fun m => k (hr m))

end Sys2Proof.Machine

namespace Sys2Proof.Laws

open Sys2Proof.Machine

/-- Every part. -/
def allParts : List Part := [.acc, .mem, .hl, .obj, .run, .core, .eng, .tide, .sail, .fab, .pwr, .boot, .bank, .flt, .free, .ns, .out]

theorem mem_allParts (p : Part) : p ∈ allParts := by cases p <;> decide

theorem mem_allRegs (r : RegId) : r ∈ RegId.all := by cases r <;> decide

/-- The parts and registers of a mask that a list leaves out; none for a frame in the words of the statements. -/
def maskWithin (ps rs : Nat) (parts : List Part) (regs : List RegId) : Bool :=
  allParts.all (fun p => parts.contains p || !ps.testBit (partBit p)) && RegId.all.all (fun r => regs.contains r || !rs.testBit r.ctorIdx)

theorem Frame.onlyOf {ps rs : Nat} {s t : State} {parts : List Part} {regs : List RegId} (h : Frame ps rs s t)
    (hm : maskWithin ps rs parts regs = true) : Only parts regs s t := by
  simp only [maskWithin, Bool.and_eq_true, List.all_eq_true, Bool.or_eq_true, List.contains_iff_mem, Bool.not_eq_true'] at hm
  exact h.only (fun p hp => (hm.1 p (mem_allParts p)).resolve_left hp) (fun r hr => (hm.2 r (mem_allRegs r)).resolve_left hr)

theorem smapInsert_smapInsert {α : Type} (m : SMap α) (a : Nat) (v v' : α) : smapInsert (smapInsert m a v) a v' = smapInsert m a v' := by
  induction m with
  | nil => simp [smapInsert]
  | cons x m ih =>
    obtain ⟨k, w⟩ := x
    by_cases hk : a = k
    · simp [smapInsert, hk]
    · by_cases hlt : a < k <;> simp [smapInsert, hk, hlt, ih]

theorem smapErase_smapInsert {α : Type} (m : SMap α) (a : Nat) (v : α) : smapErase (smapInsert m a v) a = smapErase m a := by
  induction m with
  | nil => simp [smapErase, smapInsert]
  | cons x m ih =>
    obtain ⟨k, w⟩ := x
    unfold smapErase at ih ⊢
    by_cases hk : a = k
    · simp [smapInsert, hk]
    · by_cases hlt : a < k
      · simp [smapInsert, hk, hlt]
      · rw [smapInsert, if_neg hk, if_neg hlt, List.filter_cons, List.filter_cons, ih]

end Sys2Proof.Laws
end

section
/-! Host accesses of BAR0 (R9, R13 to R17): the bits of a word written, the halves of a 64-bit register, the latch of a read. -/

namespace Sys2Proof.Proofs

open Sys2Proof.Machine Sys2Proof.Claims Sys2Proof.Laws

/-! The fields of a word, bit by bit. -/

/-- Bit `b` of word `w` belongs to a field. -/
def covers (w b : Nat) (f : RegField) : Bool := f.lo / 64 == w && decide (f.lo % 64 ≤ b) && decide (b ≤ f.hi % 64)

/-- A field's part of its first word is no wider than the field. -/
def FieldFits (f : RegField) : Prop := f.lo % 64 ≤ f.hi % 64 ∧ f.hi % 64 - f.lo % 64 ≤ f.hi - f.lo

/-- Two fields of one word share no bit. -/
def FieldsApart (f g : RegField) : Prop := f.lo / 64 = g.lo / 64 → f.hi % 64 < g.lo % 64 ∨ g.hi % 64 < f.lo % 64

theorem desc_fieldFits (r : RegId) : ∀ f ∈ r.desc.fields, FieldFits f := by
  unfold FieldFits
  cases r <;> decide

theorem desc_fieldsApart (r : RegId) : r.desc.fields.Pairwise FieldsApart := by
  unfold FieldsApart
  cases r <;> decide

/-- What a write of `v` leaves in bit `b` of a field whose bit is `x`, by its access type (R9, R13, R14). -/
def fieldBit (r : RegId) (v : Nat) (f : RegField) (x : Bool) (b : Nat) : Bool :=
  match f.acc with
  | .rw => if encodingOk r f.lo (bitsOf v (f.hi % 64) (f.lo % 64)) then v.testBit b else x
  | .w1c => x && !v.testBit b
  | _ => x

theorem bitStored_eq (r : RegId) (w v : Nat) (x : Bool) (b : Nat) :
    bitStored r w v x b = ((r.desc.fields.find? (covers w b)).map (fun f => fieldBit r v f x b)).getD x := by
  unfold bitStored covers
  cases r.desc.fields.find? _ <;> rfl

section
variable {r : RegId} {w v x b : Nat} {f : RegField}

theorem testBit_writeField_of_not_covers (hf : FieldFits f) (hb : covers w b f = false) :
    (writeField r w v x f).testBit b = x.testBit b := by
  have keep (y : Nat) : f.lo / 64 = w → (withBits x (f.hi % 64) (f.lo % 64) y).testBit b = x.testBit b := by
    intro hw
    simp only [covers, hw, beq_self_eq_true, Bool.true_and, Bool.and_eq_false_iff, decide_eq_false_iff_not] at hb
    rw [testBit_withBits hf.1, if_neg (by omega)]
  unfold writeField
  by_cases hw : f.lo / 64 = w
  · cases ha : f.acc <;> simp [hw, keep, apply_ite (fun n : Nat => n.testBit b)]
  · simp [hw]

/-- The bits of a W1C field that are written 1 are taken out of it. -/
theorem testBit_clearOnes {x v n k : Nat} (hv : v < 2 ^ n) (hk : k < n) :
    (x &&& (2 ^ n - 1 - v)).testBit k = (x.testBit k && !v.testBit k) := by
  rw [Nat.testBit_and, Nat.sub_sub, Nat.add_comm 1 v, Nat.testBit_two_pow_sub_succ hv]
  simp [hk]

theorem testBit_writeField_of_covers (hf : FieldFits f) (hb : covers w b f = true) :
    (writeField r w v x f).testBit b = fieldBit r v f (x.testBit b) b := by
  obtain ⟨hle, hwidth⟩ := hf
  simp only [covers, Bool.and_eq_true, beq_iff_eq, decide_eq_true_eq] at hb
  obtain ⟨⟨hw, hlo⟩, hhi⟩ := hb
  have put (y : Nat) : (withBits x (f.hi % 64) (f.lo % 64) y).testBit b = y.testBit (b - f.lo % 64) := by
    rw [testBit_withBits hle, if_pos ⟨hlo, hhi⟩]
  have own (y : Nat) : (bitsOf y (f.hi % 64) (f.lo % 64)).testBit (b - f.lo % 64) = y.testBit b := by
    rw [testBit_bitsOf, Nat.add_sub_cancel' hlo, decide_eq_true (by omega), Bool.true_and]
  have narrow : bitsOf v (f.hi % 64) (f.lo % 64) < 2 ^ (f.hi - f.lo + 1) :=
    (bitsOf_lt ..).trans_le (Nat.pow_le_pow_right (by decide) (by omega))
  unfold writeField fieldBit
  cases f.acc with
  | rw => simp [hw, put, own, apply_ite (fun n : Nat => n.testBit b)]
  | w1c => simp [hw, put, own, testBit_clearOnes narrow (show b - f.lo % 64 < f.hi - f.lo + 1 by omega)]
  | ro => simp [hw]
  | rb => simp [hw]

/-- A bit that no field of a list covers is kept. -/
theorem testBit_foldl_writeField_of_not_covers {fs : List RegField} (hf : ∀ f ∈ fs, FieldFits f) (hb : ∀ f ∈ fs, covers w b f = false)
    (x : Nat) : (fs.foldl (writeField r w v) x).testBit b = x.testBit b := by
  induction fs generalizing x with
  | nil => rfl
  | cons f fs ih =>
    simp only [List.forall_mem_cons] at hf hb
    rw [List.foldl_cons, ih hf.2 hb.2, testBit_writeField_of_not_covers hf.1 hb.1]

theorem covers_of_apart {f g : RegField} (h : FieldsApart f g) (hb : covers w b f = true) : covers w b g = false := by
  simp only [covers, Bool.and_eq_true, beq_iff_eq, decide_eq_true_eq] at hb
  by_contra hg
  simp only [covers, Bool.not_eq_false, Bool.and_eq_true, beq_iff_eq, decide_eq_true_eq] at hg
  have := h (by omega)
  omega

/-- Writing the fields of a word one by one leaves in each bit what its own field makes of it: no later field covers it. -/
theorem testBit_foldl_writeField {fs : List RegField} (hf : ∀ f ∈ fs, FieldFits f) (ha : fs.Pairwise FieldsApart) (x : Nat) :
    (fs.foldl (writeField r w v) x).testBit b = ((fs.find? (covers w b)).map (fun f => fieldBit r v f (x.testBit b) b)).getD (x.testBit b) := by
  induction fs generalizing x with
  | nil => rfl
  | cons f fs ih =>
    simp only [List.forall_mem_cons] at hf
    rw [List.pairwise_cons] at ha
    rw [List.foldl_cons]
    cases hb : covers w b f with
    | true =>
      rw [testBit_foldl_writeField_of_not_covers hf.2 (fun g hg => covers_of_apart (ha.1 g hg) hb),
        testBit_writeField_of_covers hf.1 hb, List.find?_cons_of_pos hb]
      rfl
    | false => rw [ih hf.2 ha.2, testBit_writeField_of_not_covers hf.1 hb, List.find?_cons_of_neg (by simp [hb])]

end

/-- A host write of a register's word leaves each bit as its field says. -/
theorem testBit_word_storeWord (s : State) (r : RegId) (i j w v : Nat) {b : Nat} (hb : b < 64) :
    ((storeWord s r i j w v).word r i j w).testBit b = bitStored r w v ((s.word r i j w).testBit b) b := by
  rw [storeWord, State.word_setWord_same, Nat.testBit_mod_two_pow, decide_eq_true hb, Bool.true_and,
    testBit_foldl_writeField (desc_fieldFits r) (desc_fieldsApart r), bitStored_eq]

theorem word_storeWord_ne (s : State) (r : RegId) {i j w i' j' w' : Nat} (v : Nat) (h : (i', j', w') ≠ (i, j, w)) :
    (storeWord s r i j w v).word r i' j' w' = s.word r i' j' w' :=
  State.word_setWord_ne _ _ (by simpa using h)

/-! What a write leaves alone. -/

theorem only_setWord (s : State) (r : RegId) (i j w v : Nat) : Only [] [r] s (s.setWord r i j w v) where
  pending := State.setWord_pending ..
  part p _ := by cases p <;> simp [Part.same]
  word r' hr i' j' w' := State.word_setWord_ne s v (fun e => hr (by simp [(RegKey.mk.inj e).1]))

/-- The state with other lower halves held (R16). -/
def setHeld (s : State) (m : SMap W32) : State := { s with acc := { s.acc with held := m } }

theorem setHeld_setHeld (s : State) (m m' : SMap W32) : setHeld (setHeld s m) m' = setHeld s m' := rfl

theorem only_setHeld (s : State) (m : SMap W32) : Only [.acc] [] s (setHeld s m) where
  pending := rfl
  part p hp := by
    cases p with
    | acc => exact absurd (List.mem_singleton_self _) hp
    | _ => rfl
  word _ _ _ _ _ := rfl

theorem wordStored_storeWord (s : State) (r : RegId) (i j w v : Nat) : WordStored r i j w v [] s (storeWord s r i j w v) :=
  ⟨fun _ hb => testBit_word_storeWord s r i j w v hb, fun _ _ _ h => word_storeWord_ne s r v h, only_setWord ..⟩

/-! Accesses by size and place. -/

theorem regStore_eq_storeWord {r : RegId} {w : Nat} (h : setsOff r w = false) (s : State) (i j v : Nat) (u : Bool) :
    regStore s ⟨r, i, j, w, u⟩ v = storeWord s r i j w v := by
  unfold regStore
  split
  case h_24 => rfl
  all_goals
    dsimp only at *
    subst_vars
    simp [setsOff] at h

theorem exec_regWrite (o size v : Nat) (s : State) : exec (.regWrite o size v) s = execRegWrite o size v s := rfl

theorem exec_regRead (who o size : Nat) (s : State) : exec (.regReadLowerLatch who o size) s = execRegReadLowerLatch who o size s := rfl

theorem exec_regWrite_dword {o v : Nat} {s : State} (hd : s.hl.d3 = false) (ho : o % 4 = 0) :
    exec (.regWrite o 4 v) s = .next (write32 s o (v % 2 ^ 32)) := by
  simp [exec_regWrite, execRegWrite, hd, ho]

theorem exec_regWrite_qword {o v : Nat} {s : State} (hd : s.hl.d3 = false) (ho : o % 8 = 0) :
    exec (.regWrite o 8 v) s = .next (write64 s o (v % 2 ^ 64)) := by
  simp [exec_regWrite, execRegWrite, hd, ho]

theorem exec_regRead_dword {who o : Nat} {s : State} (hd : s.hl.d3 = false) (ho : o % 4 = 0) :
    exec (.regReadLowerLatch who o 4) s = .next (answerRead (read32 s who o) who) := by
  simp [exec_regRead, execRegReadLowerLatch, hd, ho]

/-- An access of another size or alignment (R15). -/
theorem exec_regWrite_badSize {o size v : Nat} {s : State} (hd : s.hl.d3 = false) (h4 : ¬(size = 4 ∧ o % 4 = 0))
    (h8 : ¬(size = 8 ∧ o % 8 = 0)) : exec (.regWrite o size v) s = .next s := by
  simp [exec_regWrite, execRegWrite, hd, h4, h8]

theorem exec_regRead_badSize {who o size : Nat} {s : State} (hd : s.hl.d3 = false) (h4 : ¬(size = 4 ∧ o % 4 = 0))
    (h8 : ¬(size = 8 ∧ o % 8 = 0)) :
    exec (.regReadLowerLatch who o size) s = .next (answerRead (2 ^ (32 * cdiv size 4) - 1, s) who) := by
  simp [exec_regRead, execRegReadLowerLatch, hd, h4, h8]

theorem wideAt_lower {r : RegId} {i j w o : Nat} (h : Halves r i j w o) : wideAt o = some ⟨r, i, j, w, false⟩ := by
  simp [wideAt, h.lower, h.wide]

theorem write32_dword {r : RegId} {i j o : Nat} (h : Dword r i j o) (s : State) (v : Nat) :
    write32 s o v = regStore s ⟨r, i, j, 0, false⟩ v := by
  simp [write32, h.msix, h.place, h.narrow]

theorem write32_lower {r : RegId} {i j w o : Nat} (h : Halves r i j w o) (s : State) (v : Nat) :
    write32 s o v = setHeld s (smapInsert s.acc.held o (BitVec.ofNat 32 v)) := by
  simp [write32, h.msix.1, h.lower, h.wide, setHeld]

/-- The lower half that a write of the upper one takes: the one held, else the register's own (R16). -/
def lowerHalf (s : State) (r : RegId) (i j w o : Nat) : Nat :=
  ((smapFind s.acc.held o).map BitVec.toNat).getD (s.word r i j w % 2 ^ 32)

theorem write32_upper {r : RegId} {i j w o : Nat} (h : Halves r i j w o) (s : State) (v : Nat) :
    write32 s (o + 4) v
      = regStore (setHeld s (smapErase s.acc.held o)) ⟨r, i, j, w, true⟩ (lowerHalf s r i j w o + v * 2 ^ 32) := by
  simp only [write32, h.msix.2, h.upper, h.wide, Nat.add_sub_cancel, Bool.false_eq_true, if_false, if_true]
  congr 2
  unfold lowerHalf
  cases smapFind s.acc.held o <;> rfl

theorem write64_halves {r : RegId} {i j w o : Nat} (h : Halves r i j w o) (s : State) (v : Nat) :
    write64 s o v = regStore (setHeld s (smapErase s.acc.held o)) ⟨r, i, j, w, false⟩ v := by
  simp [write64, wideAt_lower h, setHeld]

theorem regStore_upper (s : State) (r : RegId) (i j w v : Nat) :
    regStore s ⟨r, i, j, w, true⟩ v = regStore s ⟨r, i, j, w, false⟩ v := rfl

theorem read32_lower {r : RegId} {i j w o : Nat} (h : Halves r i j w o) (s : State) (who : Nat) :
    read32 s who o = (readWord s ⟨r, i, j, w, false⟩ % 2 ^ 32,
      { s with acc := { s.acc with latch := ((who, o), BitVec.ofNat 32 (readWord s ⟨r, i, j, w, false⟩ / 2 ^ 32))
                                    :: s.acc.latch.filter (fun x => x.1 != (who, o)) } }) := by
  simp [read32, h.msix.1, h.pba.1, h.lower, h.wide]

/-- The upper half read while one is latched for the requester: the latch answers and is gone (R17). -/
theorem read32_upper_latched {r : RegId} {i j w o who : Nat} {x : W32} {s : State} (h : Halves r i j w o)
    (hl : s.acc.latch.find? (fun l => l.1 == (who, o)) = some ((who, o), x)) :
    read32 s who (o + 4) = (x.toNat, { s with acc := { s.acc with latch := s.acc.latch.filter (fun l => l.1 != (who, o)) } }) := by
  simp [read32, h.msix.2, h.pba.2, h.upper, h.wide, hl]

/-! The obligations on accesses. -/

/-- Settles O5: such a write is `storeWord`, whose fold over the fields leaves each bit to the one field that covers it. -/
theorem regWriteStoresFields : Obligations.RegWriteStoresFields := by
  unfold Obligations.RegWriteStoresFields
  intro r i j w o v s hd hset
  refine ⟨fun h hw => ?_, fun h => ?_⟩
  · subst hw
    refine ⟨_, exec_regWrite_dword hd h.aligned, ?_⟩
    rw [write32_dword h, regStore_eq_storeWord hset]
    exact wordStored_storeWord ..
  · refine ⟨_, exec_regWrite_qword hd h.aligned, ?_⟩
    rw [write64_halves h, regStore_eq_storeWord hset]
    obtain ⟨bits, others, frame⟩ := wordStored_storeWord (setHeld s (smapErase s.acc.held o)) r i j w (v % 2 ^ 64)
    refine ⟨⟨bits, others, ?_⟩, ?_, ?_⟩
    · exact ((only_setHeld s _).mono (by simp) (by simp)).trans (frame.mono (by simp) (by simp))
    · simp [storeWord, setHeld]
    · simp [storeWord, setHeld]

/-- Settles O6: neither form of access applies. -/
theorem badSizesAreDiscarded : Obligations.BadSizesAreDiscarded := by
  unfold Obligations.BadSizesAreDiscarded
  intro who o size v s hd h4 h8
  exact ⟨exec_regWrite_badSize hd h4 h8, _, exec_regRead_badSize hd h4 h8, rfl, (frame_answerRead (_, s) who).onlyOf rfl⟩

/-- Settles O7: the write of the upper half joins the half held, and both forms then make the same `regStore`. -/
theorem splitWriteActsAsOneWrite : Obligations.SplitWriteActsAsOneWrite := by
  unfold Obligations.SplitWriteActsAsOneWrite
  intro r i j w o lo lo' hi s h hd
  have h4 : o % 4 = 0 := by have := h.aligned; omega
  have h4' : (o + 4) % 4 = 0 := by omega
  have held (m : SMap W32) : (setHeld s m).hl.d3 = false := hd
  have join (x : Nat) : (x % 2 ^ 32 + hi % 2 ^ 32 * 2 ^ 32) % 2 ^ 64 = x % 2 ^ 32 + hi % 2 ^ 32 * 2 ^ 32 := by omega
  refine ⟨⟨_, exec_regWrite_dword hd h4, ?_⟩, fun hnone => ?_⟩
  · rw [write32_lower h]
    refine ⟨rfl, only_setHeld .., ?_, ?_⟩
    · rw [exec_regWrite_dword (held _) h4, exec_regWrite_dword hd h4, write32_lower h, write32_lower h, setHeld_setHeld]
      simp only [setHeld, smapInsert_smapInsert]
    · rw [exec_regWrite_dword (held _) h4', exec_regWrite_qword hd h.aligned, write32_upper h, write64_halves h, regStore_upper,
        setHeld_setHeld, join]
      simp only [setHeld, lowerHalf, smapFind_insert, if_true, smapErase_smapInsert, Option.map_some, Option.getD_some, BitVec.toNat_ofNat, Nat.mod_mod]
  · rw [exec_regWrite_dword hd h4', exec_regWrite_qword hd h.aligned, write32_upper h, write64_halves h, regStore_upper, join]
    simp only [lowerHalf, hnone, Option.map_none, Option.getD_none]

/-- Settles O8: the latch set first is the first one found, and the read that takes it drops every latch of its place. -/
theorem lowerHalfReadLatchesUpper : Obligations.LowerHalfReadLatchesUpper := by
  unfold Obligations.LowerHalfReadLatchesUpper
  intro r i j w o who s h hd
  have h4 : o % 4 = 0 := by have := h.aligned; omega
  refine ⟨_, exec_regRead_dword hd h4, ?_, ?_, fun u hu hud => ?_⟩
  · rw [read32_lower h]; rfl
  · exact ((frame_read32 s who o).onlyOf rfl).trans ((frame_answerRead _ who).onlyOf rfl)
  · rw [read32_lower h] at hu
    have hlatch : u.acc.latch.find? (fun l => l.1 == (who, o)) = some ((who, o), BitVec.ofNat 32 (readWord s ⟨r, i, j, w, false⟩ / 2 ^ 32)) := by
      rw [hu]; exact List.find?_cons_of_pos (beq_self_eq_true _)
    refine ⟨_, exec_regRead_dword hud (by omega), ?_, ?_, ?_⟩
    · rw [read32_upper_latched h hlatch]
      simp only [answerRead, BitVec.toNat_ofNat]
    · exact ((frame_read32 u who (o + 4)).onlyOf rfl).trans ((frame_answerRead _ who).onlyOf rfl)
    · rw [read32_upper_latched h hlatch]
      simp [answerRead]

/-! The state after reset. -/

/-- Settles O2: every store of `State.reset` is empty. -/
theorem resetHasCanonicalStores : Obligations.ResetHasCanonicalStores := by
  unfold Obligations.ResetHasCanonicalStores
  exact
    { dram := ⟨List.Pairwise.nil, by simp [State.reset]⟩
      sram := rfl
      flash := rfl
      hold := Nat.zero_le _
      hist := Nat.zero_le _
      mirror := by simp [State.reset] }

end Sys2Proof.Proofs
end

section
/-! Records, domains and starts: what posting a record leaves alone (R443, R505), and the state a cold start begins from
(R10, R463, R472, R476). -/

namespace Sys2Proof.Proofs

open Sys2Proof.Machine Sys2Proof.Claims Sys2Proof.Laws

/-! The start-up state or the power state changed: nothing else is. -/

@[simp] theorem onBoot_boot (s : State) (f : Boot → Boot) : (onBoot s f).boot = f s.boot := rfl
@[simp] theorem onBoot_pending (s : State) (f : Boot → Boot) : (onBoot s f).pending = s.pending := rfl
@[simp] theorem onBoot_regs (s : State) (f : Boot → Boot) : (onBoot s f).regs = s.regs := rfl
@[simp] theorem onBoot_acc (s : State) (f : Boot → Boot) : (onBoot s f).acc = s.acc := rfl
@[simp] theorem onBoot_mem (s : State) (f : Boot → Boot) : (onBoot s f).mem = s.mem := rfl
@[simp] theorem onBoot_hl (s : State) (f : Boot → Boot) : (onBoot s f).hl = s.hl := rfl
@[simp] theorem onBoot_obj (s : State) (f : Boot → Boot) : (onBoot s f).obj = s.obj := rfl
@[simp] theorem onBoot_run (s : State) (f : Boot → Boot) : (onBoot s f).run = s.run := rfl
@[simp] theorem onBoot_core (s : State) (f : Boot → Boot) : (onBoot s f).core = s.core := rfl
@[simp] theorem onBoot_eng (s : State) (f : Boot → Boot) : (onBoot s f).eng = s.eng := rfl
@[simp] theorem onBoot_tide (s : State) (f : Boot → Boot) : (onBoot s f).tide = s.tide := rfl
@[simp] theorem onBoot_sail (s : State) (f : Boot → Boot) : (onBoot s f).sail = s.sail := rfl
@[simp] theorem onBoot_fab (s : State) (f : Boot → Boot) : (onBoot s f).fab = s.fab := rfl
@[simp] theorem onBoot_pwr (s : State) (f : Boot → Boot) : (onBoot s f).pwr = s.pwr := rfl
@[simp] theorem onBoot_bank (s : State) (f : Boot → Boot) : (onBoot s f).bank = s.bank := rfl
@[simp] theorem onBoot_flt (s : State) (f : Boot → Boot) : (onBoot s f).flt = s.flt := rfl
@[simp] theorem onBoot_free (s : State) (f : Boot → Boot) : (onBoot s f).free = s.free := rfl
@[simp] theorem onBoot_ns (s : State) (f : Boot → Boot) : (onBoot s f).ns = s.ns := rfl
@[simp] theorem onBoot_out (s : State) (f : Boot → Boot) : (onBoot s f).out = s.out := rfl
@[simp] theorem onBoot_word (s : State) (f : Boot → Boot) (r : RegId) (i j w : Nat) : (onBoot s f).word r i j w = s.word r i j w := rfl
@[simp] theorem onBoot_get (s : State) (f : Boot → Boot) (g : Fld) (i j : Nat) : (onBoot s f).get g i j = s.get g i j := rfl
@[simp] theorem onBoot_domState (s : State) (f : Boot → Boot) (d : Nat) : (onBoot s f).domState d = s.domState d := rfl
@[simp] theorem setPwr_boot (s : State) (p : Power) : (setPwr s p).boot = s.boot := rfl
@[simp] theorem setPwr_mem (s : State) (p : Power) : (setPwr s p).mem = s.mem := rfl
@[simp] theorem setPwr_out (s : State) (p : Power) : (setPwr s p).out = s.out := rfl

/-! Answers on the management port are no record's. -/

theorem hostWrite_mgmt (s : State) (a : Nat) (bs : List Byte) (p : Bool) : (hostWrite s a bs p).out.mgmt = s.out.mgmt := by
  unfold hostWrite
  split <;> rfl

theorem msixSend_mgmt (s : State) (v : Nat) : (msixSend s v).out.mgmt = s.out.mgmt := by
  unfold msixSend
  split <;> rfl

theorem signal_mgmt (s : State) (n : Nat) : (signal s n).out.mgmt = s.out.mgmt := by
  simp only [signal]
  split
  · simp
  · split <;> simp [msixSend_mgmt]

theorem signalIf_mgmt (s : State) (en : Bool) (n : Nat) : (signalIf s en n).out.mgmt = s.out.mgmt := by
  cases en
  · rfl
  · exact signal_mgmt s n

theorem sumpWrite_mgmt (s : State) (r : SumpRec) : (sumpWrite s r).out.mgmt = s.out.mgmt := by
  simp only [sumpWrite]
  rw [signalIf_mgmt]
  split <;> simp [hostWrite_mgmt]

theorem sumpDeliver_mgmt (s : State) (r : SumpRec) : (sumpDeliver s r).out.mgmt = s.out.mgmt := by
  unfold sumpDeliver
  split
  · exact sumpWrite_mgmt s r
  · rw [(frame_sumpHold s r).out rfl]

theorem countRecord_out (s : State) (r : SumpRec) : (countRecord s r).out = s.out := (frame_countRecord s r).out rfl

theorem postOverflow_mgmt (s : State) : (postOverflow s).out.mgmt = s.out.mgmt := by
  simp only [postOverflow, sumpDeliver_mgmt, countRecord_out]

theorem post_mgmt (s : State) (unit : Nat) (ctx : Option Nat) (cls code extra : Nat) :
    (post s unit ctx cls code extra).out.mgmt = s.out.mgmt := by
  simp only [post]
  split <;> simp only [postOverflow_mgmt, sumpDeliver_mgmt, countRecord_out]

/-! A record changes the retained bank's history and its sequence number, and nothing else of the bank. -/

/-- The retained bank without its register words and its fault history. -/
def bankRest (b : Bank) : Bank := { b with regs := [], hist := [] }

/-- What a record cannot change of the bank: all but the words and the history, and STATE of RB_STATUS. -/
structure BankHeld (s t : State) : Prop where
  rest : bankRest t.bank = bankRest s.bank
  state : t.get F.rbStatus_STATE = s.get F.rbStatus_STATE

theorem BankHeld.trans {s t u : State} (h : BankHeld s t) (g : BankHeld t u) : BankHeld s u :=
  ⟨g.rest.trans h.rest, g.state.trans h.state⟩

theorem bankRest_of_frame {ps rs : Nat} {s t : State} (h : Frame ps rs s t) (hp : ps.testBit 12 = false) :
    bankRest t.bank = bankRest s.bank := by
  have e := congrArg bankRest (h.bank hp)
  exact e

theorem BankHeld.of_frame {ps rs : Nat} {s t : State} (h : Frame ps rs s t) (hp : ps.testBit 12 = false)
    (hr : rs.testBit RegId.rbStatus.ctorIdx = false) : BankHeld s t where
  rest := bankRest_of_frame h hp
  state := h.get F.rbStatus_STATE hr

theorem bankHeld_bankChange (s : State) : BankHeld s (bankChange s) where
  rest := bankRest_of_frame (frame_bankChange s) rfl
  state := by
    rw [bankChange, State.bump, State.get_put_bits s _ _ _ _ _ rfl rfl (.inl (by decide))]

theorem bankHeld_hist (s : State) (h : List SumpRec) : BankHeld s { s with bank := { s.bank with hist := h } } := ⟨rfl, rfl⟩

theorem bankHeld_histAdd (s : State) (r : SumpRec) : BankHeld s (histAdd s r) :=
  (bankHeld_hist s _).trans (bankHeld_bankChange _)

/-- A record numbered and counted, before its copy in the fault history. -/
def counted (s : State) (r : SumpRec) : State :=
  let s := { s with flt := { s.flt with seq := r.seq } }
  let s := (s.bump F.faultCount_COUNT 1 r.cls).put (classBit r.cls) 1
  if r.cls = 3 && s.get F.faultStatus_FATAL_CODE = 0 then s.put F.faultStatus_FATAL_CODE r.code else s

theorem countRecord_eq (s : State) (r : SumpRec) :
    countRecord s r = if inHistory r.cls r.code then histAdd (counted s r) r else counted s r := rfl

/-- It changes the record's number, FAULT_STATUS and FAULT_COUNT. -/
theorem frame_counted (s : State) (r : SumpRec) : Frame 8192 127605887595351923798765477786913079296 s (counted s r) := by
  have numbered : Frame 8192 127605887595351923798765477786913079296 s { s with flt := { s.flt with seq := r.seq } } :=
    (Frame.refl _ _ s).mk_upd rfl rfl rfl rfl rfl rfl rfl rfl rfl rfl (.inr rfl) (.inr rfl) (.inr rfl) (.inr rfl) (.inr rfl) (.inr rfl)
      (.inr rfl) (.inr rfl) (.inr rfl) (.inr rfl) (.inr rfl) (.inr rfl) (.inr rfl) (.inl rfl) (.inr rfl) (.inr rfl) (.inr rfl)
  have marked := (numbered.bump (f := F.faultCount_COUNT) (v := 1) (i := r.cls) (j := 0) rfl).put (f := classBit r.cls) (v := 1) (i := 0) (j := 0)
    (by rw [classBit_reg]; rfl)
  exact .ite (fun _ => marked.put rfl) (fun _ => marked)

theorem bankHeld_counted (s : State) (r : SumpRec) : BankHeld s (counted s r) := .of_frame (frame_counted s r) rfl rfl

theorem bankHeld_countRecord (s : State) (r : SumpRec) : BankHeld s (countRecord s r) := by
  rw [countRecord_eq]
  split
  · exact (bankHeld_counted s r).trans (bankHeld_histAdd _ r)
  · exact bankHeld_counted s r

theorem bankHeld_sumpDeliver (s : State) (r : SumpRec) : BankHeld s (sumpDeliver s r) := .of_frame (frame_sumpDeliver s r) rfl rfl

theorem bankHeld_post (s : State) (unit : Nat) (ctx : Option Nat) (cls code extra : Nat) :
    BankHeld s (post s unit ctx cls code extra) := by
  have h := (bankHeld_countRecord s (newRecord s unit ctx cls code extra)).trans (bankHeld_sumpDeliver _ (newRecord s unit ctx cls code extra))
  simp only [post]
  split
  · exact h.trans ((bankHeld_countRecord _ _).trans (bankHeld_sumpDeliver _ _))
  · exact h

theorem BankHeld.maps {s t : State} (h : BankHeld s t) :
    t.bank.coreMap = s.bank.coreMap ∧ t.bank.sliceMap = s.bank.sliceMap ∧ t.bank.out = s.bank.out := by
  have maps := congrArg Bank.coreMap h.rest
  have slices := congrArg Bank.sliceMap h.rest
  have mappedOut := congrArg Bank.out h.rest
  exact ⟨maps, slices, mappedOut⟩

/-! Registers at their reset values. -/

/-- Registers that a frame lists, or the bank holds, or that were apart before, are apart after. -/
theorem atReset_of_frame {but but' : List RegId} {ps rs : Nat} {s t : State} (h : AtReset but s) (g : Frame ps rs s t)
    (hm : RegId.all.all (fun r => r.inBank || but'.contains r || (!but.contains r && !rs.testBit r.ctorIdx)) = true) : AtReset but' t := by
  intro r hbank hr i j w
  simp only [List.all_eq_true, Bool.or_eq_true, Bool.and_eq_true, Bool.not_eq_true', List.contains_iff_mem] at hm
  have k := (hm r (mem_allRegs r)).resolve_left (by simp [hbank, hr])
  rw [g.word r k.2 i j w]
  exact h r hbank (by simpa using k.1) i j w

theorem atReset_onBoot {but : List RegId} {s : State} (h : AtReset but s) (f : Boot → Boot) : AtReset but (onBoot s f) := h

theorem atReset_coldDrop (s : State) : AtReset [] (coldDrop s) := by
  intro r hbank _ i j w
  simp only [State.word, hbank, Bool.false_eq_true, if_false]
  rfl

theorem atReset_coldClear (s : State) : AtReset [.pwrDomStatus, .fabPortStatus, .fabNode] (coldClear s) :=
  atReset_of_frame (atReset_coldDrop _) (frame_allOff _ 40) rfl

/-! Domains shown OFF. -/

/-- What every step of a fold keeps, the fold keeps. -/
theorem foldl_keeps {α β : Type} {f : State → α → State} (p : State → β) (h : ∀ s a, p (f s a) = p s) (l : List α) (s : State) :
    p (l.foldl f s) = p s := by
  induction l generalizing s with
  | nil => rfl
  | cons a l ih => rw [List.foldl_cons, ih, h]

theorem put_bank {f : Fld} (h : f.reg.inBank = false) (s : State) (v i j : Nat) : (s.put f v i j).bank = s.bank :=
  State.setWord_bank_eq s _ _ _ _ _ h

theorem domState_setDomain (s : State) (d e st : Nat) (h : st < 4) :
    (setDomain s d st).domState e = if e = d then st else s.domState e := by
  unfold setDomain State.domState
  rw [State.get_put_bits _ _ _ _ _ _ rfl rfl (.inl (by decide))]
  split
  · rename_i he
    rw [he, State.get_put_same _ _ _ _ rfl]
    exact Nat.mod_eq_of_lt h
  · rename_i he
    rw [State.get_put_i _ _ _ _ he]

theorem domState_domainsOff (s : State) (n d : Nat) :
    ((List.range n).foldl (fun s d => setDomain s d 3) s).domState d = if d < n then 3 else s.domState d := by
  induction n with
  | zero => rfl
  | succ n ih =>
    rw [List.range_succ, List.foldl_append, List.foldl_cons, List.foldl_nil, domState_setDomain _ _ _ _ (by decide), ih]
    by_cases h : d = n
    · simp [h]
    · simp [h, show d < n + 1 ↔ d < n by omega]

theorem domState_portDark (s : State) (p d : Nat) : (setLanes (setPortState s p 0) p 0).domState d = s.domState d :=
  ((frame_setLanes _ p 0).get F.pwrDomStatus_STATE rfl d).trans ((frame_setPortState s p 0).get F.pwrDomStatus_STATE rfl d)

theorem domState_allOff (s : State) (n d : Nat) : (allOff s n).domState d = if d < n then 3 else s.domState d := by
  unfold allOff
  rw [foldl_keeps (fun s => s.domState d) (fun s p => domState_portDark s p d), domState_domainsOff]

theorem allOff_bank (s : State) (n : Nat) : (allOff s n).bank = s.bank := by
  unfold allOff
  rw [foldl_keeps State.bank (fun s p => ?_), foldl_keeps State.bank (fun s d => ?_)]
  · simp only [setDomain]
    rw [put_bank rfl, put_bank rfl]
  · simp only [setLanes, setPortState]
    rw [put_bank rfl, put_bank rfl, put_bank rfl, put_bank rfl]

theorem coldClear_bank (s : State) : (coldClear s).bank = s.bank := (allOff_bank ..).trans rfl

/-! What `coldClear` leaves, part by part: `allOff` writes registers only. -/

theorem coldClear_boot (s : State) : (coldClear s).boot = coldBoot s.boot := (frame_allOff _ 40).boot rfl
theorem coldClear_tide (s : State) : (coldClear s).tide = State.reset.tide := (frame_allOff _ 40).tide rfl
theorem coldClear_out (s : State) : (coldClear s).out = s.out := (frame_allOff _ 40).out rfl
theorem coldClear_mem (s : State) : (coldClear s).mem = emptyMemory s := (frame_allOff _ 40).mem rfl
theorem coldClear_run (s : State) : (coldClear s).run = State.reset.run := (frame_allOff _ 40).run rfl
theorem coldClear_eng (s : State) : (coldClear s).eng = State.reset.eng := (frame_allOff _ 40).eng rfl
theorem coldClear_core (s : State) : (coldClear s).core = State.reset.core := (frame_allOff _ 40).core rfl
theorem coldClear_sail (s : State) : (coldClear s).sail = State.reset.sail := (frame_allOff _ 40).sail rfl
theorem coldClear_fab (s : State) : (coldClear s).fab = State.reset.fab := (frame_allOff _ 40).fab rfl
theorem coldClear_hold (s : State) : (coldClear s).flt.hold = [] := congrArg FaultState.hold ((frame_allOff _ 40).flt rfl)

theorem coldClear_domState (s : State) {d : Nat} (h : d < 40) : (coldClear s).domState d = 3 := by
  unfold coldClear
  rw [domState_allOff, if_pos h]

theorem exec_standbyLoss (s : State) : exec .standbyLoss s = .next (onBoot (coldClear s) (fun b => { b with standby := false })) := rfl

/-- Settles O15: `allOff` changes registers that show domains and ports, and `coldDrop` has set the rest. -/
theorem standbyLossKeepsBankAndFlash : Obligations.StandbyLossKeepsBankAndFlash := by
  unfold Obligations.StandbyLossKeepsBankAndFlash
  intro s
  refine ⟨_, exec_standbyLoss s, rfl, atReset_onBoot (atReset_coldClear s) _, fun d hd => ?_, ?_⟩
  · rw [onBoot_domState, coldClear_domState s hd]
  · simp [coldClear_bank, coldClear_boot, coldBoot, coldClear_hold, coldClear_tide, coldClear_out]

/-! The ROM's check of the bank, and a start (R463, R476). -/

theorem bankCheck_mgmt (s : State) (ok : Bool) (bias : SMap Nat) : (bankCheck s ok bias).out.mgmt = s.out.mgmt := by
  unfold bankCheck
  cases ok
  · cases bestCopy s.boot.mirror <;> simp [adoptBank, post_mgmt]
  · simp

theorem bankHeld_bankCheck_copy {s : State} {b : Bank} (bias : SMap Nat) (h : bestCopy s.boot.mirror = some b) :
    BankHeld ((adoptBank s b).put F.rbStatus_STATE 1) (bankCheck s false bias) := by
  simp only [bankCheck, Bool.false_eq_true, if_false, h]
  exact bankHeld_post ..

theorem bankHeld_bankCheck_default {s : State} (bias : SMap Nat) (h : bestCopy s.boot.mirror = none) :
    BankHeld ((adoptBank { s with flt := { s.flt with unit := [] } } { Bank.default with bol := bias }).put F.rbStatus_STATE 2)
      (bankCheck s false bias) := by
  simp only [bankCheck, Bool.false_eq_true, if_false, h]
  exact bankHeld_post ..

/-- A start's own registers and state, before the bank counts it (R463). -/
def startShown (s : State) : State :=
  let s := (setStage s 1).put F.lkBootStatus_DEGRADED 0
  let s := (s.put F.lkBootStatus_BOOT_MS 0).put F.lkSoftstart_LATCHED 0
  let s := (s.put F.lkSoftstart_OFF_AT_START 0).put F.faultStatus_FATAL_CODE 0
  let s := onBoot s (fun b => { b with img := none, cfg := none, latched := [], ramped := [], offAt := [] })
  onBoot s (fun b => { b with bistDone := false, hbmDone := false, fw := .idle, fwGot := 0 })

/-- A start up to the ramp of D39 or the choice of an image. -/
def startPrep (s : State) : State := bankChange ((startShown s).bump F.rbBoot_BOOT_COUNT)

theorem startBegin_eq (s : State) :
    startBegin s = if (startPrep s).domState 39 = 0 then tryImages (startPrep s) else setPwr (startPrep s) { (startPrep s).pwr with ramping := [39] } :=
  rfl

/-- A start with D39 off ramps it. -/
theorem startBegin_of_off {s : State} (h : (startPrep s).domState 39 ≠ 0) :
    startBegin s = setPwr (startPrep s) { (startPrep s).pwr with ramping := [39] } := by
  rw [startBegin_eq, if_neg h]

/-- It changes the start-up state, LK_BOOT_STATUS, LK_SOFTSTART and FAULT_STATUS. -/
theorem frame_startShown (s : State) : Frame 2048 42535539254032551752966913295986458624 s (startShown s) := by
  dsimp only [startShown, setStage]
  refine .onBoot (.onBoot ?_ rfl (fun _ => rfl) (fun _ => rfl)) rfl (fun _ => rfl) (fun _ => rfl)
  exact .put (.put (.put (.put (.put (.put (.refl _ _ s) rfl) rfl) rfl) rfl) rfl) rfl

theorem frame_startPrep (s : State) : Frame 2048 42537486365354502313327612232109916160 s (startPrep s) :=
  ((((frame_startShown s).mono rfl rfl).bump rfl).step (frame_bankChange _) rfl rfl)

theorem startShown_stage (s : State) : (startShown s).get F.lkBootStatus_STAGE = 1 := by
  simp only [startShown, onBoot_get]
  rw [State.get_put_reg _ _ _ _ _ _ (by decide), State.get_put_reg _ _ _ _ _ _ (by decide), State.get_put_reg _ _ _ _ _ _ (by decide),
    State.get_put_bits _ _ _ _ _ _ rfl rfl (.inl (by decide)), State.get_put_bits _ _ _ _ _ _ rfl rfl (.inl (by decide)), setStage,
    State.get_put_same _ _ _ _ rfl]
  rfl

theorem startPrep_stage (s : State) : (startPrep s).get F.lkBootStatus_STAGE = 1 := by
  rw [startPrep, (frame_bankChange _).get _ rfl, State.bump, State.get_put_reg _ _ _ _ _ _ (by decide), startShown_stage]

theorem startPrep_boot (s : State) :
    (startPrep s).boot = { s.boot with img := none, cfg := none, latched := [], ramped := [], offAt := [], bistDone := false, hbmDone := false,
                                       fw := .idle, fwGot := 0 } := by
  simp [startPrep, startShown, bankChange, setStage]

theorem startPrep_bootCount (s : State) : (startPrep s).get F.rbBoot_BOOT_COUNT = (s.get F.rbBoot_BOOT_COUNT + 1) % 2 ^ 32 := by
  rw [startPrep, (frame_bankChange _).get _ rfl, State.get_bump_same _ _ _ _ rfl, (frame_startShown s).get _ rfl]
  rfl

theorem bankHeld_startPrep (s : State) : BankHeld s (startPrep s) := by
  have shown : BankHeld s (startShown s) := .of_frame (frame_startShown s) rfl rfl
  have count : BankHeld (startShown s) ((startShown s).bump F.rbBoot_BOOT_COUNT) :=
    ⟨by simp [bankRest], by rw [State.bump, State.get_put_reg _ _ _ _ _ _ (by decide)]⟩
  exact (shown.trans count).trans (bankHeld_bankChange _)

/-! The check and the start, from any state `c` that has lost what a cold reset loses. -/

section
variable (c : State) (ok : Bool) (bias : SMap Nat)

/-- The ROM's check and a start, up to the ramp of D39. -/
def checkedStart : State := startPrep (bankCheck c ok bias)

/-- They change the bank, a record's parts, the start-up state, and registers of the bank, of a record and of the start. -/
theorem frame_checkedStart : Frame 79876 4210999100746816051375724746208444416000 c (checkedStart c ok bias) :=
  ((frame_bankCheck c ok bias).mono rfl rfl).step (frame_startPrep (bankCheck c ok bias)) rfl rfl

/-- With D39 off the start ramps it. -/
theorem startBegin_bankCheck (h : c.domState 39 = 3) :
    startBegin (bankCheck c ok bias) = setPwr (checkedStart c ok bias) { (checkedStart c ok bias).pwr with ramping := [39] } :=
  have off : (checkedStart c ok bias).domState 39 = 3 := ((frame_checkedStart c ok bias).get F.pwrDomStatus_STATE rfl 39).trans h
  startBegin_of_off (s := bankCheck c ok bias) (off.trans_ne (by decide))

theorem checkedStart_stage : (checkedStart c ok bias).get F.lkBootStatus_STAGE = 1 := startPrep_stage _

theorem checkedStart_boot :
    (checkedStart c ok bias).boot = { c.boot with img := none, cfg := none, latched := [], ramped := [], offAt := [], bistDone := false,
                                                  hbmDone := false, fw := .idle, fwGot := 0 } := by
  rw [checkedStart, startPrep_boot, (frame_bankCheck c ok bias).boot rfl]

theorem checkedStart_mgmt : (checkedStart c ok bias).out.mgmt = c.out.mgmt := by
  rw [checkedStart, (frame_startPrep _).out rfl, bankCheck_mgmt]

theorem atReset_checkedStart (h : AtReset [.pwrDomStatus, .fabPortStatus, .fabNode] c) : AtReset startupRegs (checkedStart c ok bias) :=
  atReset_of_frame h (frame_checkedStart c ok bias) rfl

/-- A start leaves the bank as the ROM's check found it, and counts itself. -/
theorem bankChecked_checkedStart {s : State} (hb : c.bank = s.bank) (hm : c.boot.mirror = s.boot.mirror) :
    BankChecked ok s (checkedStart c ok bias) := by
  have held := bankHeld_startPrep (bankCheck c ok bias)
  unfold BankChecked checkedStart
  cases ok with
  | true =>
    have put : bankCheck c true bias = c.put F.rbStatus_STATE 0 := rfl
    obtain ⟨core, slice, mapped⟩ := held.maps
    have count : (c.put F.rbStatus_STATE 0).get F.rbBoot_BOOT_COUNT = s.get F.rbBoot_BOOT_COUNT := by
      rw [State.get_put_reg _ _ _ _ _ _ (by decide)]
      exact congrArg (fun b => bitsOf (regGet b.regs 0 ⟨.rbBoot, 0, 0, 0⟩).toNat 31 0) hb
    rw [if_pos rfl, held.state, core, slice, mapped, (frame_startPrep _).bank_hist rfl, startPrep_bootCount, put, count]
    refine ⟨State.get_put_same _ _ _ _ rfl, ?_⟩
    simp [hb]
  | false =>
    rw [if_neg (by decide), ← hm]
    split
    · rename_i b hbest
      have copy := (bankHeld_bankCheck_copy bias hbest).trans held
      refine ⟨copy.state.trans (State.get_put_same _ _ _ _ rfl), ?_⟩
      simpa [adoptBank] using copy.maps
    · rename_i hbest
      have fresh := (bankHeld_bankCheck_default bias hbest).trans held
      refine ⟨fresh.state.trans (State.get_put_same _ _ _ _ rfl), ?_⟩
      simpa [adoptBank, Bank.default] using fresh.maps

end

/-! A cold reset. -/

/-- A cold reset up to the ramp of D39. -/
def coldPrep (s : State) (ok : Bool) : State := checkedStart (coldClear s) ok (currentBias s)

/-- Every domain has been shown OFF, so the start ramps D39. -/
theorem coldReset_eq (s : State) (ok : Bool) :
    coldReset s ok = setPwr (coldPrep s ok) { (coldPrep s ok).pwr with ramping := [39] } := by
  unfold coldReset coldPrep
  exact startBegin_bankCheck _ ok _ (coldClear_domState s (by decide))

theorem coldPrep_boot (s : State) (ok : Bool) :
    (coldPrep s ok).boot = { coldBoot s.boot with img := none, cfg := none, latched := [], ramped := [], offAt := [], bistDone := false,
                                                  hbmDone := false, fw := .idle, fwGot := 0 } := by
  rw [coldPrep, checkedStart_boot, coldClear_boot]

theorem frame_coldPrep (s : State) (ok : Bool) : Frame 79876 4210999100746816051375724746208444416000 (coldClear s) (coldPrep s ok) :=
  frame_checkedStart (coldClear s) ok (currentBias s)

theorem coldStarted_coldReset (s : State) (ok : Bool) : ColdStarted s (coldReset s ok) := by
  have g := frame_coldPrep s ok
  have boot := coldPrep_boot s ok
  have stage : (coldPrep s ok).get F.lkBootStatus_STAGE = 1 := checkedStart_stage ..
  have regs : AtReset startupRegs (coldPrep s ok) := atReset_checkedStart _ ok _ (atReset_coldClear s)
  have mem := (g.mem rfl).trans (coldClear_mem s)
  have tide := (g.tide rfl).trans (coldClear_tide s)
  have run := (g.run rfl).trans (coldClear_run s)
  have eng := (g.eng rfl).trans (coldClear_eng s)
  have core := (g.core rfl).trans (coldClear_core s)
  have sail := (g.sail rfl).trans (coldClear_sail s)
  have fab := (g.fab rfl).trans (coldClear_fab s)
  rw [coldReset_eq]
  generalize coldPrep s ok = t at boot stage regs mem tide run eng core sail fab
  exact
    { regs := regs
      stage := stage
      ramping := rfl
      standby := by simp [boot, coldBoot, State.reset]
      flash := by simp [boot, coldBoot]
      mirror := by simp [boot, coldBoot]
      fuses := by simp [boot, coldBoot]
      tide := tide
      dram := by simp [mem, emptyMemory, State.reset]
      work := ⟨run, eng, core, sail, fab⟩ }

theorem bankChecked_coldReset {s₀ s : State} (ok : Bool) (hb : s.bank = s₀.bank) (hm : s.boot.mirror = s₀.boot.mirror) :
    BankChecked ok s₀ (coldReset s ok) := by
  rw [coldReset_eq]
  have h : BankChecked ok s₀ (coldPrep s ok) :=
    bankChecked_checkedStart _ ok _ ((coldClear_bank s).trans hb) ((congrArg Boot.mirror (coldClear_boot s)).trans hm)
  generalize coldPrep s ok = t at h ⊢
  exact h

/-- What a cold start keeps, it keeps of any state with the same flash, mirror copies, fuses and DRAM epoch. -/
theorem coldStarted_of_same {s₀ s t : State} (h : ColdStarted s t) (flash : s.boot.flash = s₀.boot.flash)
    (mirror : s.boot.mirror = s₀.boot.mirror) (fuses : s.boot.otpMin = s₀.boot.otpMin) (epoch : s.mem.epoch = s₀.mem.epoch) : ColdStarted s₀ t :=
  { h with
    flash := h.flash.trans flash
    mirror := h.mirror.trans mirror
    fuses := h.fuses.trans fuses
    dram := ⟨h.dram.1, h.dram.2.trans (congrArg (· + 1) epoch)⟩ }

/-- The I3C address and the effecter are no part of what a cold start leaves. -/
theorem coldStarted_setDyn {s t : State} (h : ColdStarted s t) (dyn : Option Nat) (eff : Nat) :
    ColdStarted s (onBoot t (fun b => { b with dyn := dyn, eff := eff })) := { h with }

theorem bankChecked_onBoot {ok : Bool} {s t : State} (h : BankChecked ok s t) (f : Boot → Boot) : BankChecked ok s (onBoot t f) := h

theorem coldReset_mgmt (s : State) (ok : Bool) : (coldReset s ok).out.mgmt = s.out.mgmt := by
  rw [coldReset_eq, setPwr_out, coldPrep, checkedStart_mgmt, coldClear_out]

theorem exec_coldReset (ok : Bool) (s : State) :
    exec (.coldReset ok) s = .next (coldReset (onBoot s (fun b => { b with standby := true })) ok) := rfl

theorem exec_moduleResetCold {s : State} (ok : Bool) (h : s.boot.standby = true) :
    exec (.moduleResetCold ok) s = .next (onBoot (coldReset (accept s) ok) (fun b => { b with dyn := s.boot.dyn, eff := 3 })) := by
  have stage : stage (coldReset (accept s) ok) ≠ 7 := by
    rw [Machine.stage, (coldStarted_coldReset _ ok).stage]
    decide
  have exec_eq : exec (.moduleResetCold ok) s = execModuleResetCold ok s := rfl
  simp [exec_eq, execModuleResetCold, served, h, stage]

/-- Settles O13: both commands are `coldReset`, from a state that differs from `s` in the standby signal or in the answer sent. -/
theorem coldResetsStartTheBlock : Obligations.ColdResetsStartTheBlock := by
  unfold Obligations.ColdResetsStartTheBlock
  intro ok s
  refine ⟨⟨_, exec_coldReset ok s, ?_, ?_⟩, fun h => ⟨_, exec_moduleResetCold ok h, ?_, ?_, ?_, ?_, ?_⟩⟩
  · exact coldStarted_of_same (coldStarted_coldReset _ ok) rfl rfl rfl rfl
  · exact bankChecked_coldReset ok rfl rfl
  · exact coldStarted_setDyn (coldStarted_of_same (s₀ := s) (coldStarted_coldReset (accept s) ok) rfl rfl rfl rfl) s.boot.dyn 3
  · exact bankChecked_onBoot (bankChecked_coldReset (s₀ := s) (s := accept s) ok rfl rfl) _
  · rw [onBoot_boot]
  · rw [onBoot_boot]
  · rw [onBoot_out, coldReset_mgmt]
    rfl

end Sys2Proof.Proofs
end

section
/-! Host reads and the offsets of no register (R17, R29, R32): what a plain read answers, and the registers of the spare-assignment map. -/

namespace Sys2Proof.Proofs

open Sys2Proof.Machine Sys2Proof.Claims Sys2Proof.Laws

theorem exec_regRead_qword {who o : Nat} {s : State} (hd : s.hl.d3 = false) (ho : o % 8 = 0) :
    exec (.regReadLowerLatch who o 8) s = .next (answerRead (read64 s who o) who) := by
  simp [exec_regRead, execRegReadLowerLatch, hd, ho]

/-- A read that sets and takes no latch adds its answer to the answers sent, and changes nothing else. -/
theorem answerRead_plain (s : State) (who v : Nat) :
    (answerRead (v, s) who).out.reads = s.out.reads ++ [(who, v)] ∧ Only [.out] [] s (answerRead (v, s) who) :=
  ⟨rfl, (frame_answerRead (v, s) who).onlyOf rfl⟩

theorem read32_dword {r : RegId} {i j o : Nat} (h : Dword r i j o) (s : State) (who : Nat) :
    read32 s who o = (readWord s ⟨r, i, j, 0, false⟩ % 2 ^ 32, s) := by
  simp [read32, h.msix, h.pba, h.place, h.narrow]

theorem read64_halves {r : RegId} {i j w o : Nat} (h : Halves r i j w o) (s : State) (who : Nat) :
    read64 s who o = (readWord s ⟨r, i, j, w, false⟩, s) := by
  simp [read64, wideAt_lower h]

/-! Offsets of no register (R29). -/

/-- No register, no DWORD of the MSI-X table and none of the pending bits is at `o`. -/
structure Undefined (o : Nat) : Prop where
  msix : inMsix o = false
  pba : inPba o = false
  place : regAt o = none

section
variable {o : Nat}

theorem wideAt_undefined (h : Undefined o) : wideAt o = none := by
  simp [wideAt, h.place]

theorem write32_undefined (h : Undefined o) (s : State) (v : Nat) : write32 s o v = s := by
  simp [write32, h.msix, h.place]

theorem read32_undefined (h : Undefined o) (s : State) (who : Nat) : read32 s who o = (0, s) := by
  simp [read32, h.msix, h.pba, h.place]

theorem write64_undefined (h : Undefined o) (h' : Undefined (o + 4)) (s : State) (v : Nat) : write64 s o v = s := by
  simp [write64, wideAt_undefined h, write32_undefined h, write32_undefined h']

theorem read64_undefined (h : Undefined o) (h' : Undefined (o + 4)) (s : State) (who : Nat) : read64 s who o = (0, s) := by
  simp [read64, wideAt_undefined h, read32_undefined h, read32_undefined h']

end

/-- Settles O9: a 32-bit access of such an offset keeps the state and reads 0, and a 64-bit access is two of those. -/
theorem noRegisterReadsZero : Obligations.NoRegisterReadsZero := by
  unfold Obligations.NoRegisterReadsZero
  intro who o v s hd hmsix hpba hplace
  have h : Undefined o := ⟨hmsix, hpba, hplace⟩
  refine ⟨fun ho => ⟨?_, _, exec_regRead_dword hd ho, ?_⟩, fun ho hmsix' hpba' hplace' => ?_⟩
  · rw [exec_regWrite_dword hd ho, write32_undefined h]
  · rw [read32_undefined h]
    exact answerRead_plain s who 0
  · have h' : Undefined (o + 4) := ⟨hmsix', hpba', hplace'⟩
    refine ⟨?_, _, exec_regRead_qword hd ho, ?_⟩
    · rw [exec_regWrite_qword hd ho, write64_undefined h h']
    · rw [read64_undefined h h']
      exact answerRead_plain s who 0

/-! The registers of the spare-assignment map (R32). -/

/-- A word of Tables 1.7 to 1.9 reads all ones until the map is loaded, then as it is stored. -/
theorem readWord_mapRegister {r : RegId} (hr : r ∈ [RegId.idDevice, .idCoreMap, .idSliceMap]) (s : State) (i j w : Nat) (u : Bool) :
    readWord s ⟨r, i, j, w, u⟩ = if s.boot.bistDone then s.word r i j w else 2 ^ 64 - 1 := by
  simp only [List.mem_cons, List.not_mem_nil, or_false] at hr
  obtain rfl | rfl | rfl := hr <;> cases hb : s.boot.bistDone <;> simp [readWord, RegId.mapped, hb]

/-- The low half of such a word: all ones of 32 bits until the map is loaded. -/
theorem readWord_mapRegister_low {r : RegId} (hr : r ∈ [RegId.idDevice, .idCoreMap, .idSliceMap]) (s : State) (i j w : Nat) (u : Bool) :
    readWord s ⟨r, i, j, w, u⟩ % 2 ^ 32 = if s.boot.bistDone then s.word r i j w % 2 ^ 32 else 2 ^ 32 - 1 := by
  rw [readWord_mapRegister hr, apply_ite (· % 2 ^ 32), show (2 ^ 64 - 1) % 2 ^ 32 = 2 ^ 32 - 1 by decide]

/-- Settles O11: each of the three reads answers `readWord` or its low half, and only that of a lower half sets a latch. -/
theorem mapRegistersReadOnesBeforeTheMap : Obligations.MapRegistersReadOnesBeforeTheMap := by
  unfold Obligations.MapRegistersReadOnesBeforeTheMap
  intro r i j w o who s hd hr
  refine ⟨fun h => ⟨⟨_, exec_regRead_qword hd h.aligned, ?_⟩, ?_⟩, fun h => ⟨_, exec_regRead_dword hd h.aligned, ?_⟩⟩
  · rw [read64_halves h, readWord_mapRegister hr]
    exact answerRead_plain ..
  · have h4 : o % 4 = 0 := by have := h.aligned; omega
    refine ⟨_, exec_regRead_dword hd h4, ?_, ?_⟩
    · rw [read32_lower h, readWord_mapRegister_low hr]
      rfl
    · exact ((frame_read32 s who o).onlyOf rfl).trans ((frame_answerRead _ who).onlyOf rfl)
  · rw [read32_dword h, readWord_mapRegister_low hr]
    exact answerRead_plain ..

end Sys2Proof.Proofs
end

section
/-! Registers through the register caches (R171 to R173): what placing a row, reading an operand and writing a result leave in every
register and in the cache. -/

namespace Sys2Proof.Proofs

open Sys2Proof.Machine Sys2Proof.Claims Sys2Proof.Laws

/-- The rows of a slot's register cache. -/
def cacheRows (s : State) (core slot : Nat) : List RcRow := smapGet s.core.rc [] (slotKey core slot)

/-- A register of one lane as the rows of a cache and the main file give it. -/
def rowsRead (rows : List RcRow) (rf : SMap W32) (core slot reg lane : Nat) : W32 :=
  ((rows.find? (fun r => r.reg == reg)).bind (fun r => smapFind r.lanes lane)).getD (smapGet rf 0 (rfKey core slot reg lane))

theorem regRead_eq_rowsRead (s : State) (core slot reg lane : Nat) :
    regRead s core slot reg lane = rowsRead (cacheRows s core slot) s.core.rf core slot reg lane := by
  unfold regRead rowsRead rcFind cacheRows
  cases (List.find? _ _).bind _ <;> rfl

/-- What `CacheOk` asks of one row. -/
structure RowOk (rf : SMap W32) (core slot : Nat) (r : RcRow) : Prop where
  reg : r.reg < 64
  live : r.dead = false
  sorted : (r.lanes.map Prod.fst).Pairwise (· < ·)
  lane : ∀ lv ∈ r.lanes, lv.1 < 32
  clean : r.dirty = false → ∀ lv ∈ r.lanes, lv.2 = smapGet rf 0 (rfKey core slot r.reg lv.1)

/-- `CacheOk` of a list of rows over a main file. -/
structure RowsOk (rf : SMap W32) (core slot : Nat) (rows : List RcRow) : Prop where
  nodup : (rows.map (fun r => r.reg)).Nodup
  row : ∀ r ∈ rows, RowOk rf core slot r

theorem cacheOk_iff {s : State} {core slot : Nat} : CacheOk s core slot ↔ RowsOk s.core.rf core slot (cacheRows s core slot) := by
  constructor
  · rintro ⟨nodup, rows⟩
    refine ⟨nodup, fun r hr => ?_⟩
    obtain ⟨reg, live, sorted, lanes⟩ := rows r hr
    exact ⟨reg, live, sorted, fun lv h => (lanes lv h).1, fun hd lv h => (lanes lv h).2 hd⟩
  · rintro ⟨nodup, rows⟩
    exact ⟨nodup, fun r hr => ⟨(rows r hr).reg, (rows r hr).live, (rows r hr).sorted,
      fun lv h => ⟨(rows r hr).lane lv h, fun hd => (rows r hr).clean hd lv h⟩⟩⟩

/-! Places in the main file. -/

theorem slotKey_inj {c c' sl sl' : Nat} (h : sl < 128) (h' : sl' < 128) (e : slotKey c sl = slotKey c' sl') : c = c' ∧ sl = sl' := by
  unfold slotKey at e
  omega

/-- Places of the main file are apart. -/
theorem rfKey_inj {c c' sl sl' r r' l l' : Nat} (hs : sl < 128) (hs' : sl' < 128) (hr : r < 64) (hr' : r' < 64) (hl : l < 32)
    (hl' : l' < 32) (e : rfKey c sl r l = rfKey c' sl' r' l') : (c = c' ∧ sl = sl') ∧ r = r' ∧ l = l' := by
  unfold rfKey slotKey at e
  omega

/-! Rows found and dropped. -/

theorem find?_drop (rows : List RcRow) (a b : Nat) :
    (rows.filter (fun r => r.reg != a)).find? (fun r => r.reg == b) = if b = a then none else rows.find? (fun r => r.reg == b) := by
  rw [List.find?_filter]
  by_cases h : b = a
  · subst h
    simp
  · rw [if_neg h]
    congr 1
    funext r
    by_cases hb : r.reg = b <;> simp [hb, h]

theorem find?_of_mem {rows : List RcRow} {v : RcRow} (h : (rows.map (fun r => r.reg)).Nodup) (hv : v ∈ rows) :
    rows.find? (fun r => r.reg == v.reg) = some v := by
  induction rows with
  | nil => cases hv
  | cons r rows ih =>
    rw [List.map_cons, List.nodup_cons] at h
    rcases List.mem_cons.mp hv with rfl | hv
    · simp
    · have hne : r.reg ≠ v.reg := fun e => h.1 (e ▸ List.mem_map_of_mem hv)
      rw [List.find?_cons_of_neg (by simpa using hne), ih h.2 hv]

theorem smapFind_mem {α : Type} {m : SMap α} {a : Nat} {v : α} (h : smapFind m a = some v) : (a, v) ∈ m := by
  induction m with
  | nil => cases h
  | cons x m ih =>
    obtain ⟨k, w⟩ := x
    rw [smapFind] at h
    split at h
    · rename_i e
      cases h
      exact e ▸ List.mem_cons_self ..
    · exact List.mem_cons_of_mem _ (ih h)

theorem smapFind_eq_none {α : Type} {m : SMap α} {a : Nat} (h : ∀ kv ∈ m, kv.1 ≠ a) : smapFind m a = none :=
  Option.eq_none_iff_forall_ne_some.mpr fun _ e => h _ (smapFind_mem e) rfl

/-! A row written back. -/

/-- The main file with a row written back. -/
def withRow (rf : SMap W32) (core slot : Nat) (r : RcRow) : SMap W32 :=
  r.lanes.foldl (fun m lv => smapSet m 0 (rfKey core slot r.reg lv.1) lv.2) rf

theorem smapGet_foldl_smapSet_of_ne {key : Nat → Nat} {k : Nat} {lanes : SMap W32} (h : ∀ lv ∈ lanes, k ≠ key lv.1) (m : SMap W32) :
    smapGet (lanes.foldl (fun m lv => smapSet m 0 (key lv.1) lv.2) m) 0 k = smapGet m 0 k := by
  induction lanes generalizing m with
  | nil => rfl
  | cons x lanes ih =>
    rw [List.foldl_cons, ih (fun lv hl => h lv (List.mem_cons_of_mem _ hl)), smapGet_set, if_neg (h x (List.mem_cons_self ..))]

theorem smapGet_foldl_smapSet {key : Nat → Nat} {l : Nat} {lanes : SMap W32} (hs : (lanes.map Prod.fst).Pairwise (· < ·))
    (hk : ∀ lv ∈ lanes, key l = key lv.1 → l = lv.1) (m : SMap W32) :
    smapGet (lanes.foldl (fun m lv => smapSet m 0 (key lv.1) lv.2) m) 0 (key l) = (smapFind lanes l).getD (smapGet m 0 (key l)) := by
  induction lanes generalizing m with
  | nil => rfl
  | cons x lanes ih =>
    obtain ⟨k, w⟩ := x
    simp only [List.map_cons, List.pairwise_cons, List.forall_mem_map] at hs
    rw [List.foldl_cons, ih hs.2 (fun lv h => hk lv (List.mem_cons_of_mem _ h)), smapGet_set, smapFind]
    by_cases e : l = k
    · subst e
      rw [smapFind_eq_none (fun kv h => Nat.ne_of_gt (hs.1 kv h)), if_pos rfl, if_pos rfl]
      rfl
    · rw [if_neg e, if_neg (fun q => e (hk _ (List.mem_cons_self ..) q))]

section
variable {rf : SMap W32} {core slot : Nat} {v : RcRow}

theorem withRow_same (hs : slot < 128) (hv : RowOk rf core slot v) {l : Nat} (hl : l < 32) :
    smapGet (withRow rf core slot v) 0 (rfKey core slot v.reg l) = (smapFind v.lanes l).getD (smapGet rf 0 (rfKey core slot v.reg l)) :=
  smapGet_foldl_smapSet hv.sorted (fun lv h e => (rfKey_inj hs hs hv.reg hv.reg hl (hv.lane lv h) e).2.2) rf

theorem withRow_other (hs : slot < 128) (hv : RowOk rf core slot v) {c sl r l : Nat} (hsl : sl < 128) (hr : r < 64) (hl : l < 32)
    (hne : ¬((c = core ∧ sl = slot) ∧ r = v.reg)) : smapGet (withRow rf core slot v) 0 (rfKey c sl r l) = smapGet rf 0 (rfKey c sl r l) :=
  smapGet_foldl_smapSet_of_ne (fun lv h e => have k := rfKey_inj hsl hs hr hv.reg hl (hv.lane lv h) e; hne ⟨k.1, k.2.1⟩) rf

end

/-! An entry replaced (R173). -/

/-- The rows and the main file once an entry, or none, has been replaced: a dirty row is written back first. -/
def evicted (rf : SMap W32) (core slot : Nat) (rows : List RcRow) (x : Option RcRow) : List RcRow × SMap W32 :=
  match x with
  | none => (rows, rf)
  | some v => (rows.filter (fun r => r.reg != v.reg), if v.dirty && !v.dead then withRow rf core slot v else rf)

theorem rcVictim_mem {rows : List RcRow} {v : RcRow} (h : rcVictim rows = some v) : v ∈ rows := by
  unfold rcVictim at h
  rw [← List.mem_reverse]
  dsimp only at h
  split at h
  · cases h
    exact List.mem_of_find?_eq_some ‹_›
  · split at h
    · cases h
      exact List.mem_of_find?_eq_some ‹_›
    · exact List.mem_of_head? h

theorem rcVictim_isSome {rows : List RcRow} (h : rows ≠ []) : (rcVictim rows).isSome := by
  unfold rcVictim
  dsimp only
  split
  · rfl
  · split
    · rfl
    · simpa using h

/-- Placing a row replaces one entry of the cache or none, and puts the row in front of the others. -/
theorem rcPlace_eq (s : State) (core slot : Nat) (row : RcRow) :
    ∃ x : Option RcRow, (∀ v ∈ x, v ∈ cacheRows s core slot ∧ v.reg ≠ row.reg)
      ∧ rcPlace s core slot row = setRc { s with core := { s.core with rf := (evicted s.core.rf core slot (cacheRows s core slot) x).2 } } core slot
        (row :: (evicted s.core.rf core slot (cacheRows s core slot) x).1.filter (fun r => r.reg != row.reg)) := by
  unfold rcPlace cacheRows
  generalize smapGet s.core.rc [] (slotKey core slot) = rows
  dsimp only
  split
  · exact ⟨none, by simp, rfl⟩
  · rename_i hlen
    have hne : rows.filter (fun r => r.reg != row.reg) ≠ [] := by
      intro e
      rw [e] at hlen
      exact hlen (by decide)
    obtain ⟨v, hv⟩ := Option.isSome_iff_exists.mp (rcVictim_isSome hne)
    refine ⟨some v, fun w hw => ?_, ?_⟩
    · cases hw
      simpa using rcVictim_mem hv
    · rw [hv]
      dsimp only [evicted]
      rw [List.filter_filter, List.filter_filter]
      simp only [Bool.and_comm]
      cases v.dirty && !v.dead <;> rfl

section
variable {rf : SMap W32} {core slot : Nat} {rows : List RcRow} {x : Option RcRow}

/-- The main file of the registers that the entry replaced does not hold. -/
theorem evicted_file (hs : slot < 128) (ok : RowsOk rf core slot rows) (hx : ∀ v ∈ x, v ∈ rows) {c sl r l : Nat} (hsl : sl < 128)
    (hr : r < 64) (hl : l < 32) (hne : ∀ v ∈ x, ¬((c = core ∧ sl = slot) ∧ r = v.reg)) :
    smapGet (evicted rf core slot rows x).2 0 (rfKey c sl r l) = smapGet rf 0 (rfKey c sl r l) := by
  cases x with
  | none => rfl
  | some v =>
    dsimp only [evicted]
    split
    · exact withRow_other hs (ok.row v (hx v rfl)) hsl hr hl (hne v rfl)
    · rfl

/-- No register reads differently for an entry replaced: a dirty row is in the main file now, a clean one was there already. -/
theorem evicted_read (hs : slot < 128) (ok : RowsOk rf core slot rows) (hx : ∀ v ∈ x, v ∈ rows) {r l : Nat} (hr : r < 64) (hl : l < 32) :
    rowsRead (evicted rf core slot rows x).1 (evicted rf core slot rows x).2 core slot r l = rowsRead rows rf core slot r l := by
  cases x with
  | none => rfl
  | some v =>
    have hv := ok.row v (hx v rfl)
    by_cases e : r = v.reg
    · subst e
      unfold rowsRead
      rw [find?_of_mem ok.nodup (hx v rfl)]
      dsimp only [evicted]
      rw [find?_drop, if_pos rfl, hv.live]
      simp only [Option.bind_none, Option.getD_none, Option.bind_some, Bool.not_false, Bool.and_true]
      cases hd : v.dirty with
      | true => rw [if_pos rfl, withRow_same hs hv hl]
      | false =>
        rw [if_neg (by decide)]
        cases hf : smapFind v.lanes l with
        | none => rfl
        | some w => exact (hv.clean hd _ (smapFind_mem hf)).symm
    · have file := evicted_file hs ok hx (c := core) hs hr hl (fun w hw => by cases hw; exact fun k => e k.2)
      unfold rowsRead
      rw [file]
      dsimp only [evicted]
      rw [find?_drop, if_neg e]

theorem evicted_ok (hs : slot < 128) (ok : RowsOk rf core slot rows) (hx : ∀ v ∈ x, v ∈ rows) :
    RowsOk (evicted rf core slot rows x).2 core slot (evicted rf core slot rows x).1 := by
  cases x with
  | none => exact ok
  | some v =>
    refine ⟨ok.nodup.sublist (List.filter_sublist.map _), fun r hr => ?_⟩
    obtain ⟨hm, hne⟩ := List.mem_filter.mp hr
    have h := ok.row r hm
    refine ⟨h.reg, h.live, h.sorted, h.lane, fun hd lv hl => ?_⟩
    rw [evicted_file hs ok hx hs h.reg (h.lane lv hl) (fun w hw => by cases hw; exact fun k => by simp [k.2] at hne)]
    exact h.clean hd lv hl

end

/-! A row placed. -/

section
variable {s : State} {core slot : Nat} {row : RcRow}

theorem cacheRows_setRc (s : State) (core slot : Nat) (rows : List RcRow) : cacheRows (setRc s core slot rows) core slot = rows := by
  rw [cacheRows, setRc, smapGet_set, if_pos rfl]

theorem cacheRows_setRc_ne (s : State) {core slot c sl : Nat} (rows : List RcRow) (h : slotKey c sl ≠ slotKey core slot) :
    cacheRows (setRc s core slot rows) c sl = cacheRows s c sl := by
  rw [cacheRows, setRc, smapGet_set, if_neg h, cacheRows]

/-- A lane that the row placed holds reads as it holds it. -/
theorem regRead_rcPlace_held {l : Nat} {w : W32} (h : smapFind row.lanes l = some w) :
    regRead (rcPlace s core slot row) core slot row.reg l = w := by
  obtain ⟨x, -, e⟩ := rcPlace_eq s core slot row
  rw [e, regRead_eq_rowsRead, cacheRows_setRc, rowsRead, List.find?_cons_of_pos (by simp), Option.bind_some, h, Option.getD_some]

/-- Every other register reads as before a row was placed; its own reads as the row or the main file has it. -/
theorem regRead_rcPlace (hs : slot < 128) (ok : CacheOk s core slot) {c sl r l : Nat} (hsl : sl < 128) (hr : r < 64) (hl : l < 32) :
    regRead (rcPlace s core slot row) c sl r l
      = if (c = core ∧ sl = slot) ∧ r = row.reg then (smapFind row.lanes l).getD (smapGet s.core.rf 0 (rfKey core slot row.reg l))
        else regRead s c sl r l := by
  obtain ⟨x, hx, e⟩ := rcPlace_eq s core slot row
  rw [cacheOk_iff] at ok
  have mem : ∀ v ∈ x, v ∈ cacheRows s core slot := fun v hv => (hx v hv).1
  rw [e, regRead_eq_rowsRead]
  by_cases here : c = core ∧ sl = slot
  · obtain ⟨rfl, rfl⟩ := here
    rw [cacheRows_setRc]
    by_cases hreg : r = row.reg
    · subst hreg
      have file := evicted_file hs ok mem (c := c) hsl hr hl (fun v hv k => (hx v hv).2 k.2.symm)
      rw [if_pos ⟨⟨rfl, rfl⟩, rfl⟩, rowsRead, List.find?_cons_of_pos (by simp), Option.bind_some]
      exact congrArg _ file
    · rw [if_neg (fun k => hreg k.2), regRead_eq_rowsRead, ← evicted_read hs ok mem hr hl, rowsRead,
        List.find?_cons_of_neg (by simpa using Ne.symm hreg), find?_drop, if_neg hreg]
      rfl
  · have file := evicted_file hs ok mem hsl hr hl (fun v _ k => here k.1)
    rw [if_neg (fun k => here k.1), cacheRows_setRc_ne _ _ (fun k => here (slotKey_inj hsl hs k)), regRead_eq_rowsRead]
    exact congrArg _ file

theorem cacheOk_rcPlace (hs : slot < 128) (ok : CacheOk s core slot) (hrow : RowOk s.core.rf core slot row) :
    CacheOk (rcPlace s core slot row) core slot := by
  obtain ⟨x, hx, e⟩ := rcPlace_eq s core slot row
  rw [cacheOk_iff] at ok
  have mem : ∀ v ∈ x, v ∈ cacheRows s core slot := fun v hv => (hx v hv).1
  have kept := evicted_ok hs ok mem
  rw [e, cacheOk_iff, cacheRows_setRc]
  refine ⟨?_, fun r hr => ?_⟩
  · rw [List.map_cons, List.nodup_cons]
    refine ⟨?_, kept.nodup.sublist (List.filter_sublist.map _)⟩
    simp
  · rcases List.mem_cons.mp hr with rfl | hr
    · refine ⟨hrow.reg, hrow.live, hrow.sorted, hrow.lane, fun hd lv h => (hrow.clean hd lv h).trans ?_⟩
      exact (evicted_file hs ok mem hs hrow.reg (hrow.lane lv h) (fun v hv k => (hx v hv).2 k.2.symm)).symm
    · exact kept.row r (List.mem_of_mem_filter hr)

end

/-! Sources read (R173). -/

/-- Every register of every slot reads the same in two states. -/
def SameRegs (s t : State) : Prop := ∀ c sl r l, sl < 128 → r < 64 → l < 32 → regRead t c sl r l = regRead s c sl r l

section
variable {s : State} {core slot : Nat}

theorem rowOk_of_rcFind {r : RcRow} {reg : Nat} (ok : CacheOk s core slot) (h : rcFind s core slot reg = some r) :
    r.reg = reg ∧ RowOk s.core.rf core slot r :=
  ⟨by simpa using List.find?_some h, (cacheOk_iff.mp ok).row r (List.mem_of_find?_eq_some h)⟩

theorem regRead_of_rcFind {r : RcRow} {reg : Nat} (h : rcFind s core slot reg = some r) (l : Nat) :
    regRead s core slot reg l = (smapFind r.lanes l).getD (smapGet s.core.rf 0 (rfKey core slot reg l)) := by
  rw [regRead, h, Option.bind_some]
  cases smapFind r.lanes l <;> rfl

theorem regRead_of_rcFind_none {reg : Nat} (h : rcFind s core slot reg = none) (l : Nat) :
    regRead s core slot reg l = smapGet s.core.rf 0 (rfKey core slot reg l) := by
  rw [regRead, h]
  rfl

/-- A row that holds what its register reads as changes no register when it is placed. -/
theorem sameRegs_rcPlace {row : RcRow} (hs : slot < 128) (ok : CacheOk s core slot)
    (h : ∀ l, l < 32 → regRead s core slot row.reg l = (smapFind row.lanes l).getD (smapGet s.core.rf 0 (rfKey core slot row.reg l))) :
    SameRegs s (rcPlace s core slot row) := by
  intro c sl r l hsl hr hl
  rw [regRead_rcPlace hs ok hsl hr hl]
  split
  · rename_i k
    obtain ⟨⟨rfl, rfl⟩, rfl⟩ := k
    exact (h l hl).symm
  · rfl

theorem smapFind_map_of_mem {α : Type} (f : Nat → α) {ls : List Nat} {l : Nat} (h : l ∈ ls) :
    smapFind (ls.map (fun l => (l, f l))) l = some (f l) := by
  induction ls with
  | nil => cases h
  | cons k ls ih =>
    rw [List.map_cons, smapFind]
    by_cases e : l = k
    · rw [if_pos e, e]
    · rw [if_neg e, ih ((List.mem_cons.mp h).resolve_left e)]

/-- The row of a source that the main file holds: every lane, clean. -/
def mainRow (s : State) (core slot : Nat) (src : Src) : RcRow :=
  ⟨src.reg, tabulate 32 (fun l => (l, smapGet s.core.rf 0 (rfKey core slot src.reg l))), false, src.dead⟩

theorem smapFind_mainRow {src : Src} {l : Nat} (hl : l < 32) :
    smapFind (mainRow s core slot src).lanes l = some (smapGet s.core.rf 0 (rfKey core slot src.reg l)) :=
  smapFind_map_of_mem _ (List.mem_range.mpr hl)

theorem rowOk_mainRow {src : Src} (hreg : src.reg < 64) (hlive : src.dead = false) : RowOk s.core.rf core slot (mainRow s core slot src) where
  reg := hreg
  live := hlive
  sorted := by simp [mainRow, tabulate, Function.comp_def, List.pairwise_lt_range]
  lane := by simp [mainRow, tabulate]
  clean := by simp [mainRow, tabulate]

/-- A live source read changes no register and keeps the cache in order. -/
theorem regTouch_keeps {src : Src} (hs : slot < 128) (ok : CacheOk s core slot) (hsrc : LiveSrc src) :
    SameRegs s (regTouch s core slot src) ∧ CacheOk (regTouch s core slot src) core slot := by
  obtain ⟨hreg, hlive⟩ := hsrc
  unfold regTouch
  split
  · rename_i r hr
    obtain ⟨hreg', hrow⟩ := rowOk_of_rcFind ok hr
    have same : { r with dead := r.dead || src.dead } = r := by rw [hlive, Bool.or_false]
    rw [same]
    exact ⟨sameRegs_rcPlace hs ok (fun l _ => hreg' ▸ regRead_of_rcFind hr l), cacheOk_rcPlace hs ok hrow⟩
  · rename_i hn
    split
    · refine ⟨sameRegs_rcPlace (row := mainRow s core slot src) hs ok (fun l hl => ?_), cacheOk_rcPlace hs ok (rowOk_mainRow hreg hlive)⟩
      rw [smapFind_mainRow hl, Option.getD_some]
      exact regRead_of_rcFind_none hn l
    · exact ⟨fun _ _ _ _ _ _ _ => rfl, ok⟩

theorem touchAll_keeps {t : Th} {srcs : List Src} (hs : t.slot < 128) (ok : CacheOk s t.core t.slot) (hsrc : ∀ x ∈ srcs, LiveSrc x) :
    SameRegs s (touchAll s t srcs) ∧ CacheOk (touchAll s t srcs) t.core t.slot := by
  induction srcs generalizing s with
  | nil => exact ⟨fun _ _ _ _ _ _ _ => rfl, ok⟩
  | cons x srcs ih =>
    obtain ⟨hx, hsrc⟩ := List.forall_mem_cons.mp hsrc
    obtain ⟨same, ok'⟩ := regTouch_keeps hs ok hx
    obtain ⟨same', ok''⟩ := ih ok' hsrc
    exact ⟨fun c sl r l h h' h'' => (same' c sl r l h h' h'').trans (same c sl r l h h' h''), ok''⟩

/-! A result written (R172). -/

/-- The lanes of a row with a result in those of a mask. -/
def withLanes (m : SMap W32) (mask : Nat) (f : Nat → W32) (ls : List Nat) : SMap W32 :=
  ls.foldl (fun m l => if mask.testBit l then smapInsert m l (f l) else m) m

section
variable {mask : Nat} {f : Nat → W32}

theorem smapFind_withLanes (m : SMap W32) (ls : List Nat) (l : Nat) :
    smapFind (withLanes m mask f ls) l = if l ∈ ls ∧ mask.testBit l = true then some (f l) else smapFind m l := by
  induction ls generalizing m with
  | nil => simp [withLanes]
  | cons k ls ih =>
    rw [withLanes, List.foldl_cons]
    refine (ih _).trans ?_
    by_cases hm : l ∈ ls ∧ mask.testBit l = true
    · rw [if_pos hm, if_pos ⟨List.mem_cons_of_mem _ hm.1, hm.2⟩]
    · rw [if_neg hm]
      by_cases hk : mask.testBit k = true
      · rw [if_pos hk, smapFind_insert]
        by_cases e : l = k
        · subst e
          simp [hk]
        · rw [if_neg e, if_neg]
          simpa [e] using hm
      · rw [if_neg hk, if_neg]
        rintro ⟨h, h'⟩
        rcases List.mem_cons.mp h with rfl | h
        · exact hk h'
        · exact hm ⟨h, h'⟩

theorem withLanes_sorted {m : SMap W32} (h : (m.map Prod.fst).Pairwise (· < ·)) (ls : List Nat) :
    ((withLanes m mask f ls).map Prod.fst).Pairwise (· < ·) := by
  induction ls generalizing m with
  | nil => exact h
  | cons k ls ih =>
    rw [withLanes, List.foldl_cons]
    split
    · exact ih (smapInsert_lt h)
    · exact ih h

theorem mem_withLanes {m : SMap W32} {ls : List Nat} {lv : Nat × W32} (h : lv ∈ withLanes m mask f ls) : lv.1 ∈ ls ∨ lv ∈ m := by
  induction ls generalizing m with
  | nil => exact .inr h
  | cons k ls ih =>
    rw [withLanes, List.foldl_cons] at h
    rcases ih h with h | h
    · exact .inl (List.mem_cons_of_mem _ h)
    · split at h
      · rcases mem_smapInsert h with rfl | h
        · exact .inl (List.mem_cons_self ..)
        · exact .inr h
      · exact .inr h

end

/-- The row of a register in the cache, or a new one. -/
def rowOf (s : State) (core slot reg : Nat) : RcRow := (rcFind s core slot reg).getD ⟨reg % 64, [], true, false⟩

/-- That row with a result in the lanes of a mask. -/
def resultRow (s : State) (core slot reg mask : Nat) (f : Nat → W32) : RcRow :=
  { rowOf s core slot reg with lanes := withLanes (rowOf s core slot reg).lanes mask f (List.range 32), dirty := true, dead := false }

theorem regWrite_eq (s : State) (core slot reg mask : Nat) (f : Nat → W32) :
    regWrite s core slot reg mask f = rcPlace s core slot (resultRow s core slot reg mask f) := rfl

variable {reg mask : Nat} {f : Nat → W32}

theorem resultRow_reg (hr : reg < 64) : (resultRow s core slot reg mask f).reg = reg := by
  change (rowOf s core slot reg).reg = reg
  unfold rowOf
  cases h : rcFind s core slot reg with
  | none => exact Nat.mod_eq_of_lt hr
  | some r => simpa using List.find?_some h

theorem smapFind_resultRow {l : Nat} (hl : l < 32) :
    smapFind (resultRow s core slot reg mask f).lanes l = if mask.testBit l then some (f l) else smapFind (rowOf s core slot reg).lanes l := by
  simp [resultRow, smapFind_withLanes, hl]

/-- A result stands in its register, for every lane of the mask. -/
theorem regRead_regWrite_result (hr : reg < 64) {l : Nat} (hl : l < 32) (hm : mask.testBit l = true) :
    regRead (regWrite s core slot reg mask f) core slot reg l = f l := by
  have held := regRead_rcPlace_held (s := s) (core := core) (slot := slot) (row := resultRow s core slot reg mask f) (l := l) (w := f l)
    (by rw [smapFind_resultRow hl, if_pos hm])
  rwa [resultRow_reg hr, ← regWrite_eq] at held

theorem resultRow_ok (hr : reg < 64) (ok : CacheOk s core slot) : RowOk s.core.rf core slot (resultRow s core slot reg mask f) := by
  have sorted : ((rowOf s core slot reg).lanes.map Prod.fst).Pairwise (· < ·) ∧ ∀ lv ∈ (rowOf s core slot reg).lanes, lv.1 < 32 := by
    unfold rowOf
    cases h : rcFind s core slot reg with
    | none => simp
    | some r => exact ⟨(rowOk_of_rcFind ok h).2.sorted, (rowOk_of_rcFind ok h).2.lane⟩
  refine ⟨(resultRow_reg hr).symm ▸ hr, rfl, withLanes_sorted sorted.1 _, fun lv h => ?_, fun h => Bool.noConfusion h⟩
  rcases mem_withLanes h with h | h
  · exact List.mem_range.mp h
  · exact sorted.2 lv h

theorem cacheOk_regWrite (hs : slot < 128) (hr : reg < 64) (ok : CacheOk s core slot) : CacheOk (regWrite s core slot reg mask f) core slot := by
  rw [regWrite_eq]
  exact cacheOk_rcPlace hs ok (resultRow_ok hr ok)

/-- A register reads as before a result was written, but in the lanes of the mask of its destination. -/
theorem regRead_regWrite_other (hs : slot < 128) (hr : reg < 64) (ok : CacheOk s core slot) {c sl r l : Nat} (hsl : sl < 128) (hr' : r < 64)
    (hl : l < 32) (hne : ¬(c = core ∧ sl = slot ∧ r = reg ∧ mask.testBit l = true)) :
    regRead (regWrite s core slot reg mask f) c sl r l = regRead s c sl r l := by
  have hrow : (resultRow s core slot reg mask f).reg = reg := resultRow_reg hr
  rw [regWrite_eq, regRead_rcPlace hs ok hsl hr' hl, hrow]
  split
  · rename_i k
    obtain ⟨⟨rfl, rfl⟩, rfl⟩ := k
    rw [smapFind_resultRow hl, if_neg (fun hm => hne ⟨rfl, rfl, rfl, hm⟩)]
    unfold rowOf
    cases h : rcFind s c sl r with
    | none => exact (regRead_of_rcFind_none h l).symm
    | some row => exact (regRead_of_rcFind h l).symm
  · rfl

end

end Sys2Proof.Proofs
end

section
/-! A thread's instruction as it issues (R157 to R172, R185, R207): what its fetch leaves, what it performs, and how its fragment goes on. -/

namespace Sys2Proof.Proofs

open Sys2Proof.Machine Sys2Proof.Claims Sys2Proof.Laws

/-! The issue. -/

/-- The issuing thread of a place, taken apart. -/
structure IssuesAs (s : State) (a : At) (x : Uses) (t : Th) (r : SlotRec) : Prop where
  at_eq : t.at_ = a
  slot : slotRec s a.core a.slot = some r
  frag : fragOf r a.lane = some t.f
  block : blockRec s r.block = some t.b
  launch : launchRec s t.b.launch = some t.l
  wait : t.f.wait = .none
  loads : r.loads.any (fun o => o.holds t.f.mask x) = false
  may : (t.f.active && s.ctxRuns t.b.ctx && coreRuns s a.core && !coreDrains s a.core) = true

theorem thread?_eq_some {s : State} {a : At} {x : Uses} {t : Th} : thread? s a x = some t ↔ ∃ r, IssuesAs s a x t r := by
  constructor
  · intro h
    unfold thread? at h
    split at h
    · cases h
    · rename_i r hr
      split at h
      · rename_i f b hf hb
        split at h
        · rename_i l hl
          split at h
          · rename_i hc
            cases h
            simp only [Bool.and_eq_true, beq_iff_eq, Bool.not_eq_true'] at hc
            obtain ⟨⟨⟨⟨⟨active, wait⟩, loads⟩, ctx⟩, core⟩, drains⟩ := hc
            exact ⟨r, rfl, hr, hf, hb, hl, wait, loads, by simp [active, ctx, core, drains]⟩
          · cases h
        · cases h
      · cases h
  · rintro ⟨r, h⟩
    have may := h.may
    simp only [Bool.and_eq_true] at may
    obtain ⟨⟨⟨active, ctx⟩, core⟩, drains⟩ := may
    unfold thread?
    simp only [h.slot, h.frag, h.block, h.launch, active, h.wait, h.loads, ctx, core, drains, beq_self_eq_true, Bool.not_false,
      Bool.and_self, if_true]
    rw [← h.at_eq]

theorem thread?_of_free {s : State} {a : At} {x : Uses} {t : Th} (h : thread? s a ⟨[], 0⟩ = some t) (hf : Free s t x) :
    thread? s a x = some t := by
  obtain ⟨r, hr⟩ := thread?_eq_some.mp h
  have free : ∀ o ∈ r.loads, o.holds t.f.mask x = false := hf r (by rw [Th.core, Th.slot, hr.at_eq, hr.slot])
  exact thread?_eq_some.mpr ⟨r, { hr with loads := by simpa using free }⟩

section
variable {s u : State} {a : At} {t : Th}

theorem issues_at (h : Issues s a t u) : t.at_ = a := by
  obtain ⟨r, hr⟩ := thread?_eq_some.mp h.thread
  exact hr.at_eq

theorem issues_slot_lt (h : Issues s a t u) : t.slot < 128 := by
  have place := h.place
  simp only [placeOk, Bool.and_eq_true, decide_eq_true_eq] at place
  rw [Th.slot, issues_at h]
  exact place.1.1.2

theorem roFill_core (s : State) (core kind : Nat) (host : Bool) (a c : Nat) (data : List Byte) (poison : Bool) :
    ∃ ro, (roFill s core kind host a c data poison).core = { s.core with ro := ro } :=
  ⟨_, State.bump_core ..⟩

/-- The line held or read, which leaves `u` (R240, R254). -/
theorem roLine_ok {core c kind ca : Nat} {need : Need} {p : Bool} {bs : List Byte} (h : roLine s core c kind ca need = .ok p bs u) :
    (∃ ro, u.core = { s.core with ro := ro }) ∧ Only [.mem, .core, .free] (.ctxIfetchBytes :: memRegs) s u := by
  unfold roLine at h
  dsimp only at h
  split at h
  · cases h
  · cases h
  · split at h
    · cases h
      refine ⟨?_, (frame_roTouch ..).onlyOf rfl⟩
      unfold roTouch
      split
      · exact ⟨_, rfl⟩
      · exact ⟨_, rfl⟩
    · rename_i p _ _ _
      have read := frame_devRead 4 s (p.rq s) p.addr 128
      cases h
      obtain ⟨ro, filled⟩ := roFill_core (devRead 4 s (p.rq s) p.addr 128).2 core kind false p.addr c
        (devRead 4 s (p.rq s) p.addr 128).1.2 (devRead 4 s (p.rq s) p.addr 128).1.1
      exact ⟨⟨ro, by rw [filled, read.core rfl]⟩, (read.onlyOf rfl).trans ((frame_roFill ..).onlyOf rfl)⟩

/-- What the issue and the fetch of an instruction leave (R207, Table 5.9). -/
theorem issues_frame (h : Issues s a t u) : Only [.mem, .core, .free] fetchRegs s u
    ∧ u.get F.corePipeIssued_ISSUED a.core = (s.get F.corePipeIssued_ISSUED a.core + 1) % 2 ^ 64 ∧ ∃ ro, u.core = { s.core with ro := ro } := by
  obtain ⟨bs, line⟩ := h.line
  obtain ⟨⟨ro, core⟩, only⟩ := roLine_ok line
  have count : Only [.mem, .core, .free] fetchRegs s (s.bump F.corePipeIssued_ISSUED 1 a.core) :=
    (only_setWord s .corePipeIssued a.core 0 0 _).mono (by decide) (by decide)
  refine ⟨count.trans (only.mono (by decide) (by decide)), ?_, ro, ?_⟩
  · rw [State.get, only.word _ (by decide)]
    exact State.get_bump_same s 1 a.core 0 rfl
  · rw [core, State.bump_core]

/-- The fetch changes no slot, block or launch. -/
theorem issues_run (h : Issues s a t u) : u.run = s.run := (issues_frame h).1.part .run (by decide)

/-- The slot of the instruction once its line has been read: its fragment waits for nothing and holds the lane named. -/
theorem issues_slot (h : Issues s a t u) : ∃ r, slotRec u t.core t.slot = some r ∧ t.f ∈ r.frags ∧ t.f.wait = .none
    ∧ t.f.mask.testBit t.at_.lane = true := by
  obtain ⟨r, hr⟩ := thread?_eq_some.mp h.thread
  refine ⟨r, ?_, List.mem_of_find?_eq_some hr.frag, hr.wait, ?_⟩
  · rw [slotRec, issues_run h, Th.core, Th.slot, hr.at_eq]
    exact hr.slot
  · rw [hr.at_eq]
    exact List.find?_some (l := r.frags) (p := fun f : Frag => f.mask.testBit a.lane) hr.frag

/-- An instruction that no load holds back performs its meaning on what the fetch left. -/
theorem instr_of_issues (h : Issues s a t u) {x : Uses} (hf : Free s t x) (k : Th → State → State) : instr s a x k = .next (k t u) := by
  obtain ⟨bs, line⟩ := h.line
  obtain ⟨low, high⟩ := h.inCode
  have inside : (decide (t.f.pc < t.l.decl.codeOffset) || decide (t.l.decl.codeOffset + t.l.decl.codeSize ≤ t.f.pc)) = false := by
    simp only [Bool.or_eq_false_iff, decide_eq_false_iff_not]
    omega
  rw [instr, if_pos h.place, thread?_of_free h.thread hf]
  simp only [fetch, inside, line, Bool.false_eq_true, if_false]

theorem instrNext_of_issues (h : Issues s a t u) {x : Uses} (hf : Free s t x) (k : Th → State → State) :
    instrNext s a x k = .next (goTo (k t u) t a.next) := instr_of_issues h hf _

end

/-! Fragments that go on (R157, R159, R161). -/

/-- A lane's place in a list of fragments: one at `pc` that waits for nothing. -/
def LaneAt (fs : List Frag) (l pc : Nat) : Prop := ∃ g ∈ fs, g.mask.testBit l = true ∧ g.pc = pc ∧ g.wait = .none

section
variable {fs : List Frag} {l pc : Nat}

/-- A change of every fragment that moves none of those that wait for nothing keeps the lane's place. -/
theorem laneAt_map {k : Frag → Frag} (hk : ∀ g, (k g).mask = g.mask ∧ (k g).pc = g.pc ∧ (k g).wait = g.wait) (h : LaneAt fs l pc) :
    LaneAt (fs.map k) l pc := by
  obtain ⟨g, hg, at_g⟩ := h
  obtain ⟨hm, hp, hw⟩ := hk g
  exact ⟨k g, List.mem_map_of_mem hg, by rwa [hm, hp, hw]⟩

theorem laneAt_mergeFrags (h : LaneAt fs l pc) : LaneAt (mergeFrags fs) l pc := by
  induction fs with
  | nil => exact h
  | cons f fs ih =>
    obtain ⟨g, hg, hm, hp, hw⟩ := h
    unfold mergeFrags
    dsimp only
    split
    · rcases List.mem_cons.mp hg with rfl | hg
      · exact ⟨g, List.mem_cons_self .., hm, hp, hw⟩
      · obtain ⟨g', hg', at_g⟩ := ih ⟨g, hg, hm, hp, hw⟩
        exact ⟨g', List.mem_cons_of_mem _ hg', at_g⟩
    · rename_i m hfind
      have same := List.find?_some hfind
      simp only [Bool.and_eq_true, beq_iff_eq] at same
      obtain ⟨⟨pcs, _⟩, waits⟩ := same
      rcases List.mem_cons.mp hg with rfl | hg
      · exact ⟨_, List.mem_cons_self .., by simp [hm], hp, hw⟩
      · obtain ⟨g', hg', hm', hp', hw'⟩ := ih ⟨g, hg, hm, hp, hw⟩
        by_cases e : g' = m
        · subst e
          exact ⟨_, List.mem_cons_self .., by simp [hm'], pcs.symm.trans hp', waits⟩
        · exact ⟨g', List.mem_cons_of_mem _ (List.mem_filter.mpr ⟨hg', by simpa using e⟩), hm', hp', hw'⟩

theorem laneAt_promote (n now : Nat) (h : LaneAt fs l pc) : LaneAt (promote n now fs) l pc := by
  induction n generalizing fs with
  | zero => exact h
  | succ n ih =>
    unfold promote
    split
    · split
      · exact h
      · exact ih (laneAt_map (fun g => by split <;> exact ⟨rfl, rfl, rfl⟩) h)
    · exact h

theorem laneAt_settleFrags (now : Nat) (h : LaneAt fs l pc) : LaneAt (settleFrags now fs) l pc := by
  obtain ⟨g, hg, hm, at_g⟩ := h
  refine laneAt_promote _ _ (laneAt_mergeFrags ⟨g, List.mem_filter.mpr ⟨hg, ?_⟩, hm, at_g⟩)
  have : g.mask ≠ 0 := fun e => by simp [e] at hm
  simpa using this

end

section
variable {s u w : State} {a : At} {t : Th}

theorem slotRec_setSlot (s : State) (core slot : Nat) (r : SlotRec) : slotRec (setSlot s core slot r) core slot = some r := by
  rw [slotRec, setSlot, smapFind_insert, if_pos rfl]

theorem slotRec_congr (h : w.run = u.run) (core slot : Nat) : slotRec w core slot = slotRec u core slot := by
  rw [slotRec, slotRec, h]

/-- The fragment of an instruction goes on: each of its lanes is at the new place. -/
theorem goesOn_goTo (h : Issues s a t u) (hw : w.run = u.run) (pc : Nat) : GoesOn (goTo w t pc) t pc := by
  obtain ⟨r, hr, hf, hwait, hlane⟩ := issues_slot h
  have hr' : slotRec w t.core t.slot = some r := (slotRec_congr hw ..).trans hr
  refine ⟨_, by rw [goTo, updFrag, hr']; exact slotRec_setSlot .., fun l hl => ?_⟩
  exact laneAt_settleFrags w.ns ⟨_, List.mem_map_of_mem hf, by rw [if_pos hlane]; exact ⟨hl, rfl, hwait⟩⟩

theorem slotOnly_goTo (hw : w.run = u.run) (t : Th) (pc : Nat) : SlotOnly u (goTo w t pc) t.core t.slot := by
  rw [goTo, updFrag]
  split
  · exact ⟨⟨_, by rw [hw]⟩, fun k _ => by rw [hw]⟩
  · refine ⟨⟨_, by rw [setSlot, hw]⟩, fun k hk => ?_⟩
    rw [setSlot, smapFind_insert, if_neg hk, hw]

theorem goTo_core (s : State) (t : Th) (pc : Nat) : (goTo s t pc).core = s.core := (frame_goTo s t pc).core rfl

end

end Sys2Proof.Proofs
end

section
/-! Thread arithmetic (R46, R54, R59, R60, R64, R333, Table 5.6): the results of vector, function, conversion and mask instructions, and
the counts of a census. -/

namespace Sys2Proof.Proofs

open Sys2Proof.Machine Sys2Proof.Claims Sys2Proof.Laws

/-! A result written. -/

/-- What reading operands and writing a result may change: register files, register caches, and which free values have been drawn. -/
def OperandsOnly (u w : State) : Prop := ∃ rf rc n, w = { u with free := n, core := { u.core with rf := rf, rc := rc } }

theorem OperandsOnly.trans {u v w : State} (h : OperandsOnly u v) (g : OperandsOnly v w) : OperandsOnly u w := by
  obtain ⟨_, _, _, rfl⟩ := h
  obtain ⟨rf, rc, n, rfl⟩ := g
  exact ⟨rf, rc, n, rfl⟩

theorem only_of_operandsOnly {u w : State} (h : OperandsOnly u w) : Only [.core, .free] [] u w := by
  obtain ⟨_, _, _, rfl⟩ := h
  refine ⟨rfl, fun p hp => ?_, fun _ _ _ _ _ => rfl⟩
  cases p with
  | core => exact absurd (by decide) hp
  | free => exact absurd (by decide) hp
  | _ => rfl

theorem operandsOnly_rcPlace (s : State) (core slot : Nat) (row : RcRow) : OperandsOnly s (rcPlace s core slot row) := by
  obtain ⟨x, -, e⟩ := rcPlace_eq s core slot row
  exact ⟨_, _, _, e⟩

theorem operandsOnly_regTouch (s : State) (core slot : Nat) (src : Src) : OperandsOnly s (regTouch s core slot src) := by
  unfold regTouch
  split
  · exact operandsOnly_rcPlace ..
  · split
    · exact operandsOnly_rcPlace ..
    · exact ⟨_, _, _, rfl⟩

theorem operandsOnly_touchAll (s : State) (t : Th) (srcs : List Src) : OperandsOnly s (touchAll s t srcs) := by
  induction srcs generalizing s with
  | nil => exact ⟨_, _, _, rfl⟩
  | cons x srcs ih => exact (operandsOnly_regTouch s t.core t.slot x).trans (ih _)

theorem operandsOnly_regWrite (s : State) (core slot reg mask : Nat) (f : Nat → W32) : OperandsOnly s (regWrite s core slot reg mask f) :=
  operandsOnly_rcPlace ..

/-- An instruction's end: its sources read, its result written for the fragment's lanes, its fragment at the next instruction. `n` is the
count of free values drawn by then. -/
def withResult (u : State) (t : Th) (n : Nat) (srcs : List Src) (dst : Nat) (v : Nat → W32) : State :=
  goTo (regWrite (touchAll { u with free := n } t srcs) t.core t.slot dst t.f.mask v) t t.at_.next

section
variable {s u : State} {a : At} {t : Th} {n dst : Nat} {srcs : List Src} {v : Nat → W32}

theorem reg_withResult (hd : dst < 64) {l : Nat} (hl : l < 32) (hm : t.f.mask.testBit l = true) :
    t.reg (withResult u t n srcs dst v) dst l = (v l).toNat := by
  rw [Th.reg, withResult, regRead_eq_rowsRead, cacheRows, goTo_core]
  exact congrArg BitVec.toNat ((regRead_eq_rowsRead ..).symm.trans (regRead_regWrite_result hd hl hm))

/-- Such an instruction has written its result and gone on. -/
theorem wrote_withResult (h : Issues s a t u) (hd : dst < 64) {f : Nat → Nat}
    (hv : ∀ l, l < 32 → t.f.mask.testBit l = true → (v l).toNat = f l % 2 ^ 32) : Wrote u (withResult u t n srcs dst v) t dst f := by
  have operands : OperandsOnly u (regWrite (touchAll { u with free := n } t srcs) t.core t.slot dst t.f.mask v) :=
    (OperandsOnly.trans ⟨_, _, _, rfl⟩ (operandsOnly_touchAll { u with free := n } t srcs)).trans (operandsOnly_regWrite ..)
  have only := only_of_operandsOnly operands
  have run := only.part .run (by decide)
  refine ⟨fun l hl hm => (reg_withResult hd hl hm).trans (hv l hl hm), goesOn_goTo h run _, ?_, ?_, slotOnly_goTo run _ _⟩
  · exact (only.mono (by decide) (by decide)).trans ((frame_goTo ..).onlyOf rfl)
  · obtain ⟨rf, rc, m, written⟩ := operands
    exact ⟨rf, rc, by rw [withResult, goTo_core, written]⟩

/-- No other register reads differently, and the cache stays in order. -/
theorem regsKept_withResult (h : Issues s a t u) (hd : dst < 64) (ok : CacheOk u t.core t.slot) (hsrc : ∀ x ∈ srcs, LiveSrc x) :
    RegsKept u (withResult u t n srcs dst v) t dst ∧ CacheOk (withResult u t n srcs dst v) t.core t.slot := by
  have hs := issues_slot_lt h
  obtain ⟨same, ok'⟩ := touchAll_keeps (s := { u with free := n }) hs ok hsrc
  refine ⟨fun c sl r l hsl hr hl hne => ?_, ?_⟩
  · rw [withResult, regRead_eq_rowsRead, cacheRows, goTo_core]
    exact ((regRead_eq_rowsRead ..).symm.trans (regRead_regWrite_other hs hd ok' hsl hr hl hne)).trans (same c sl r l hsl hr hl)
  · rw [withResult, cacheOk_iff, cacheRows, goTo_core]
    exact cacheOk_iff.mp (cacheOk_regWrite hs hd ok')

end

/-! Integer results (Table 5.6). -/

/-- The arithmetic shift right of a negative number: its complement shifts. -/
theorem negative_ediv_two_pow {a : Nat} (ha : a < 2 ^ 32) (b : Nat) :
    ((a : Int) - (2 ^ 32 : Nat)) / (2 ^ b : Nat) = -((2 ^ 32 - 1 - a) / 2 ^ b : Nat) - 1 := by
  have neg : (a : Int) - (2 ^ 32 : Nat) = Int.negSucc (2 ^ 32 - 1 - a) := by
    rw [Int.negSucc_eq]
    omega
  rw [neg, Int.negSucc_ediv _ (by exact_mod_cast Nat.two_pow_pos b), neg_add]
  rfl

theorem testBit_sign {a : Nat} (ha : a < 2 ^ 32) : a.testBit 31 = decide (2 ^ 31 ≤ a) := by
  rw [Nat.testBit_eq_decide_div_mod_eq, decide_eq_decide]
  omega

theorem ofSigned_toSigned_ediv {a : Nat} (ha : a < 2 ^ 32) (b : Nat) :
    ofSigned 32 (toSigned 32 a / (2 ^ b : Nat)) = if a < 2 ^ 31 then a / 2 ^ b else 2 ^ 32 - 1 - (2 ^ 32 - 1 - a) / 2 ^ b := by
  unfold ofSigned toSigned
  rw [Nat.mod_eq_of_lt ha, show 32 - 1 = 31 from rfl, testBit_sign ha]
  by_cases h : a < 2 ^ 31
  · have hq := Nat.div_le_self a (2 ^ b)
    rw [if_pos h, if_neg (by simpa using h), ← Int.natCast_ediv]
    generalize a / 2 ^ b = q at hq ⊢
    omega
  · have hq := Nat.div_le_self (2 ^ 32 - 1 - a) (2 ^ b)
    rw [if_neg h, if_pos (by simpa using h), negative_ediv_two_pow ha]
    generalize (2 ^ 32 - 1 - a) / 2 ^ b = q at hq ⊢
    omega

/-- Where Table 5.6 gives an integer instruction a result, the lane computes it. -/
theorem vecLane_of_intResult {u : State} {t : Th} {op : VecOp} {l n : Nat}
    (h : intResult op.fn (t.reg u op.a.reg l) (t.reg u op.b.reg l) = some n) : vecLane u t op l % 2 ^ 32 = n := by
  have ha : t.reg u op.a.reg l < 2 ^ 32 := BitVec.isLt _
  have hb : t.reg u op.b.reg l < 2 ^ 32 := BitVec.isLt _
  unfold vecLane
  dsimp only
  generalize t.reg u op.a.reg l = a at *
  generalize t.reg u op.b.reg l = b at *
  cases hfn : op.fn <;> rw [hfn] at h <;> simp only [intResult, reduceCtorEq, Option.some.injEq, Option.ite_none_right_eq_some] at h ⊢
  case iadd => exact h
  case isub => rwa [Nat.add_comm a]
  case imul => exact h
  case iand => rw [Nat.mod_eq_of_lt (Nat.and_lt_two_pow _ hb)]; exact h
  case ior => rw [Nat.mod_eq_of_lt (Nat.or_lt_two_pow ha hb)]; exact h
  case ixor => rw [Nat.mod_eq_of_lt (Nat.xor_lt_two_pow ha hb)]; exact h
  case ishl =>
    rw [shift, if_pos h.1, Nat.shiftLeft_eq]
    exact h.2
  case ishr =>
    rw [shift, if_pos h.1, Nat.shiftRight_eq_div_pow, Nat.mod_eq_of_lt (Nat.lt_of_le_of_lt (Nat.div_le_self ..) ha)]
    exact h.2
  case isar =>
    rw [shift, if_pos h.1, ofSigned_toSigned_ediv ha, Nat.mod_eq_of_lt]
    · exact h.2
    · split
      · exact (Nat.div_le_self ..).trans_lt ha
      · exact (Nat.sub_le ..).trans_lt (by decide)

/-! The count of a census (R61, R63, R64). -/

/-- A check that a context owns a census slot reads its descriptor and nothing more. -/
theorem frame_censusCheck_owned {s u : State} {c h : Nat} (e : censusCheck s c h = (none, u)) :
    Frame 16386 41538374868278621029937699576872960 s u := by
  unfold censusCheck at e
  split at e
  · cases e
  · dsimp only at e
    split at e
    · cases e
    · rename_i clean
      split at e
      · cases e
        unfold physRead at clean ⊢
        split
        · rename_i limit
          rw [if_pos limit] at clean
          exact absurd rfl clean
        · exact frame_devRead ..
      · cases e

theorem get_put_unless (s : State) {f g : Fld} (c : Prop) [Decidable c] (v i : Nat) (hf : f.ok = true) (hg : g.ok = true)
    (h : g.hi < f.lo ∨ f.hi < g.lo) (j : Nat) : (if c then s else s.put f v i).get g j = s.get g j := by
  split
  · rfl
  · exact State.get_put_bits _ _ _ _ _ _ hf hg h

theorem get_put_when (s : State) {f g : Fld} (c : Prop) [Decidable c] (v i : Nat) (hf : f.ok = true) (hg : g.ok = true)
    (h : g.hi < f.lo ∨ f.hi < g.lo) (j : Nat) : (if c then s.put f v i else s).get g j = s.get g j := by
  split
  · exact State.get_put_bits _ _ _ _ _ _ hf hg h
  · rfl

section
variable (s : State) (h nans pinf ninf : Nat)

/-- COUNT rises by the elements counted, up to its largest value. -/
theorem censusNow_count : (censusNow s h nans pinf ninf).get F.coreCensus_COUNT h
    = min (s.get F.coreCensus_COUNT h + nans + pinf + ninf) 0xFFFFFF := by
  unfold censusNow
  split
  · have := State.get_lt s F.coreCensus_COUNT h 0 rfl
    simp only [F.coreCensus_COUNT] at this ⊢
    omega
  · dsimp only
    rw [get_put_unless _ _ _ _ rfl rfl (.inl (by decide)), get_put_unless _ _ _ _ rfl rfl (.inl (by decide)),
      get_put_unless _ _ _ _ rfl rfl (.inl (by decide)), get_put_when _ _ _ _ rfl rfl (.inl (by decide)),
      State.get_put_same _ _ _ _ rfl]
    exact Nat.mod_eq_of_lt ((Nat.min_le_right ..).trans_lt (by decide))

/-- NAN_SEEN is set by a NaN counted, and else stays. -/
theorem censusNow_nanSeen : (censusNow s h nans pinf ninf).isSet F.coreCensus_NAN_SEEN h = true
    ↔ s.isSet F.coreCensus_NAN_SEEN h = true ∨ nans ≠ 0 := by
  unfold censusNow
  split
  · have none : nans = 0 := by omega
    simp [none]
  · dsimp only
    rw [State.isSet, get_put_unless _ _ _ _ rfl rfl (.inl (by decide)), get_put_unless _ _ _ _ rfl rfl (.inl (by decide))]
    by_cases hn : nans = 0
    · rw [if_pos hn, get_put_when _ _ _ _ rfl rfl (.inl (by decide)), State.get_put_bits _ _ _ _ _ _ rfl rfl (.inr (by decide))]
      simp [hn, State.isSet]
    · rw [if_neg hn, State.get_put_same _ _ _ _ rfl]
      simp [hn]

end

/-- A census over a thread's lanes counts the lanes with a NaN and those with an infinity of either sign. -/
theorem censusOf_map (e : Elem) (lanes : List Nat) (x : Nat → Nat) :
    (e.censusOf (lanes.map x)).1 = (lanes.filter (fun l => e.isNan (x l))).length
      ∧ (e.censusOf (lanes.map x)).2.1 + (e.censusOf (lanes.map x)).2.2 = (lanes.filter (fun l => e.isInf (x l))).length := by
  unfold Elem.censusOf
  dsimp only
  constructor
  · rw [List.filter_map, List.length_map]
    rfl
  · rw [Nat.add_comm, ← List.length_eq_length_filter_add, List.filter_map, List.length_map]
    rfl

/-! The instructions. -/

section
variable {s u : State} {a : At} {t : Th}

theorem exec_vectorOp (h : Issues s a t u) {op : VecOp} (hf : Free s t (plainUses (vecSrcs op) [op.dst])) :
    exec (.vectorOp a op) s = .next (withResult u t (u.free + 1) (vecSrcs op) op.dst (fun l => BitVec.ofNat 32 (vecLane u t op l))) := by
  obtain rfl := issues_at h
  exact instrNext_of_issues h hf _

theorem exec_function (h : Issues s a t u) {f : XFn} {dst : Nat} {src : Src} (hf : Free s t (plainUses [src] [dst])) :
    exec (.convertOp a (.fn f dst src)) s
      = .next (withResult u t u.free [src] dst (fun l => BitVec.ofNat 32 (funcLane f (t.reg u src.reg l)))) := by
  obtain rfl := issues_at h
  exact instrNext_of_issues h hf _

/-- The sources of a conversion: its operand, and its random bits where it rounds by them. -/
def cvtSrcs (op : CvtOp) : List Src := if op.mode = .sr then [op.src, op.rnd] else [op.src]

/-- What a conversion gives a lane (R549). -/
def cvtLane (u : State) (t : Th) (op : CvtOp) (l : Nat) : Option Nat :=
  convertThread op.srcFmt op.dstFmt (cvtRound t u op l) (t.reg u op.src.reg l % 2 ^ op.srcFmt.width)

theorem exec_conversion (h : Issues s a t u) {op : CvtOp} (hf : Free s t (plainUses (cvtSrcs op) [op.dst]))
    (hc : ∀ l, l < 32 → t.f.mask.testBit l = true → (cvtLane u t op l).isSome = true) :
    exec (.convertOp a (.cvt op)) s
      = .next (withResult u t u.free (cvtSrcs op) op.dst (fun l => BitVec.ofNat 32 ((cvtLane u t op l).getD 0))) := by
  obtain rfl := issues_at h
  have all : t.lanes.all (fun l => (cvtLane u t op l).isSome) = true := by
    simp only [Th.lanes, List.all_eq_true, List.mem_filter, List.mem_range]
    exact fun l hl => hc l hl.1 hl.2
  obtain ⟨dst, src, rnd, srcFmt, dstFmt, mode⟩ := op
  cases mode <;> exact (instr_of_issues h hf _).trans (congrArg _ (if_pos all))

theorem exec_maskkey (h : Issues s a t u) {dst : Nat} {step layer : Src} (hf : Free s t (plainUses [step, layer] [dst])) :
    exec (.maskkey a dst step layer) s = .next (withResult u t u.free [step, layer] dst (fun l =>
      maskKey (ctxSeed u t.c) t.c (regRead u t.core t.slot step.reg l) (regRead u t.core t.slot layer.reg l))) := by
  obtain rfl := issues_at h
  exact instrNext_of_issues h hf _

theorem exec_maskword (h : Issues s a t u) {dst : Nat} {key lo hi : Src} (hf : Free s t (plainUses [key, lo, hi] [dst])) :
    exec (.maskword a dst key lo hi) s = .next (withResult u t u.free [key, lo, hi] dst (fun l =>
      maskWord (regRead u t.core t.slot key.reg l) (BitVec.ofNat 64 (t.reg u lo.reg l + t.reg u hi.reg l * 2 ^ 32)))) := by
  obtain rfl := issues_at h
  exact instrNext_of_issues h hf _

theorem reg_congr {w : State} (h : w.core = u.core) (t : Th) (r l : Nat) : t.reg w r l = t.reg u r l := by
  rw [Th.reg, Th.reg, regRead_eq_rowsRead, regRead_eq_rowsRead, cacheRows, cacheRows, h]

/-- The elements a census finds in the lanes of a fragment: NaNs, and infinities of either sign. -/
def laneCensus (u : State) (t : Th) (fmt : OpFmt) (src : Src) : Nat × Nat × Nat :=
  fmt.elem.censusOf (t.lanes.map (fun l => t.reg u src.reg l % 2 ^ fmt.elem.width))

/-- The state a census leaves: the elements counted into its slot, the fragment at the next instruction. -/
def withCensus (w : State) (t : Th) (n : Nat) (src : Src) (k : Nat × Nat × Nat) : State :=
  goTo (censusNow (regTouch w t.core t.slot src) n k.1 k.2.1 k.2.2) t t.at_.next

theorem exec_censusCount (h : Issues s a t u) {n : Nat} {fmt : OpFmt} {src : Src} {w : State} (hn : n < 65536)
    (hf : Free s t (plainUses [src] [])) (hc : censusCheck u t.c n = (none, w)) :
    exec (.censusCount a n fmt src) s = .next (withCensus w t n src (laneCensus u t fmt src)) := by
  obtain rfl := issues_at h
  have run : exec (.censusCount t.at_ n fmt src) s = execCensusCount t.at_ n fmt src s := rfl
  have regs := reg_congr ((frame_censusCheck_owned hc).core rfl) t src.reg
  rw [run, execCensusCount, if_pos hn, instr_of_issues h hf, hc, laneCensus]
  simp only [← regs]
  rfl

end

/-! What they leave. -/

section
variable {s u : State} {a : At} {t : Th}

theorem live_vecSrcs {op : VecOp} (ha : LiveSrc op.a) (hb : LiveSrc op.b) (hc : op.fn = .ffma ∨ op.fn = .select → LiveSrc op.c) :
    ∀ x ∈ vecSrcs op, LiveSrc x := by
  unfold vecSrcs
  split
  · rename_i e
    simp [ha, hb, hc (.inl e)]
  · rename_i e
    simp [ha, hb, hc (.inr e)]
  · simp [ha, hb]

theorem vecLane_exchange {op : VecOp} {l : Nat} (hx : op.fn = .exchange) (hm : t.f.mask.testBit (t.reg u op.b.reg l % 32) = true) :
    vecLane u t op l = t.reg u op.a.reg (t.reg u op.b.reg l % 32) := by
  simp only [vecLane, hx, if_pos hm]

theorem funcLane_of_isNan32 {f : XFn} {x : Nat} (h : isNan32 x = true) : funcLane f x = 0x7FC00000 := if_pos h

theorem live_cvtSrcs {op : CvtOp} (hs : LiveSrc op.src) (hr : op.mode = .sr → LiveSrc op.rnd) : ∀ x ∈ cvtSrcs op, LiveSrc x := by
  unfold cvtSrcs
  split
  · rename_i e
    simp [hs, hr e]
  · simp [hs]

theorem reg_mod (u : State) (t : Th) (r l : Nat) : t.reg u r l % 2 ^ 32 = t.reg u r l := Nat.mod_eq_of_lt (BitVec.isLt _)

section
variable {n : Nat} {src : Src} {k : Nat × Nat × Nat} {w : State}

/-- A census reads its slot's fields as they stood: neither the check nor the source read writes them. -/
theorem get_beforeCensus (hc : censusCheck u t.c n = (none, w)) {f : Fld} (hf : f.reg = .coreCensus) :
    (regTouch w t.core t.slot src).get f n = u.get f n := by
  rw [(frame_regTouch ..).get f (by rw [hf]; rfl) n, (frame_censusCheck_owned hc).get f (by rw [hf]; rfl) n]

theorem withCensus_count (hc : censusCheck u t.c n = (none, w)) : (withCensus w t n src k).get F.coreCensus_COUNT n
    = min (u.get F.coreCensus_COUNT n + k.1 + (k.2.1 + k.2.2)) 0xFFFFFF := by
  rw [withCensus, (frame_goTo ..).get _ rfl n, censusNow_count, get_beforeCensus hc rfl, Nat.add_assoc _ k.2.1]

theorem withCensus_nanSeen (hc : censusCheck u t.c n = (none, w)) : (withCensus w t n src k).isSet F.coreCensus_NAN_SEEN n = true
    ↔ u.isSet F.coreCensus_NAN_SEEN n = true ∨ k.1 ≠ 0 := by
  rw [withCensus, (frame_goTo ..).isSet _ rfl n, censusNow_nanSeen, State.isSet, get_beforeCensus hc rfl, State.isSet]

theorem withCensus_frame (h : Issues s a t u) (hc : censusCheck u t.c n = (none, w)) :
    GoesOn (withCensus w t n src k) t t.at_.next ∧ SlotOnly u (withCensus w t n src k) t.core t.slot
      ∧ Only [.mem, .core, .run, .free] (.coreCensus :: memRegs) u (withCensus w t n src k) := by
  have checked := frame_censusCheck_owned hc
  have touched := frame_regTouch w t.core t.slot src
  have counted := frame_censusNow (regTouch w t.core t.slot src) n k.1 k.2.1 k.2.2
  have run := (counted.run rfl).trans ((touched.run rfl).trans (checked.run rfl))
  refine ⟨goesOn_goTo h run _, slotOnly_goTo run _ _, ?_⟩
  exact (((checked.onlyOf rfl).trans (touched.onlyOf rfl)).trans (counted.onlyOf rfl)).trans ((frame_goTo ..).onlyOf rfl)

end

end

/-- Settles O52: each instruction is `withResult` or `withCensus` of what its fetch left; the registers' part is `regsKept_withResult`. -/
theorem threadArithmeticWritesItsResult : Obligations.ThreadArithmeticWritesItsResult := by
  unfold Obligations.ThreadArithmeticWritesItsResult
  intro a s u t h
  refine ⟨issues_frame h, fun op hd hf => ?vector, fun f dst src hd hf => ?function, fun op w hd hf hw => ?conversion,
    fun dst step layer hd hf => ?maskkey, fun dst key lo hi hd hf => ?maskword, fun n fmt src w hn hf hc => ?census⟩
  case vector =>
    have wrote := wrote_withResult (n := u.free + 1) (srcs := vecSrcs op) h hd (f := vecLane u t op) (fun _ _ _ => BitVec.toNat_ofNat ..)
    refine ⟨_, exec_vectorOp h hf, wrote, fun l m hl hm hi => ?_, fun l hx hl hm hb => ?_, fun ok ha hb hc => ?_⟩
    · exact (wrote.result l hl hm).trans (vecLane_of_intResult hi)
    · rw [wrote.result l hl hm, vecLane_exchange hx hb, reg_mod]
    · exact regsKept_withResult h hd ok (live_vecSrcs ha hb hc)
  case function =>
    have wrote := wrote_withResult (n := u.free) (srcs := [src]) h hd (f := fun l => funcLane f (t.reg u src.reg l))
      (fun _ _ _ => BitVec.toNat_ofNat ..)
    refine ⟨_, exec_function h hf, wrote, fun l hl hm hn => ?_, fun ok live => ?_⟩
    · exact (wrote.result l hl hm).trans (by simp [funcLane_of_isNan32 hn])
    · exact (regsKept_withResult h hd ok (by simpa using live)).1
  case conversion =>
    have done (l : Nat) (hl : l < 32) (hm : t.f.mask.testBit l = true) : cvtLane u t op l = some (w l) := hw l hl hm
    refine ⟨_, exec_conversion h hf (fun l hl hm => by rw [done l hl hm, Option.isSome_some]), ?_, fun ok live rnd => ?_⟩
    · exact wrote_withResult h hd (fun l hl hm => by rw [done l hl hm, BitVec.toNat_ofNat, Option.getD_some])
    · exact (regsKept_withResult h hd ok (live_cvtSrcs live rnd)).1
  case maskkey =>
    refine ⟨_, exec_maskkey h hf, wrote_withResult h hd (fun _ _ _ => (Nat.mod_eq_of_lt (BitVec.isLt _)).symm), fun ok hs hl => ?_⟩
    exact (regsKept_withResult h hd ok (by simp [hs, hl])).1
  case maskword =>
    refine ⟨_, exec_maskword h hf, wrote_withResult h hd (fun _ _ _ => (Nat.mod_eq_of_lt (BitVec.isLt _)).symm), fun ok hk hl hh => ?_⟩
    exact (regsKept_withResult h hd ok (by simp [hk, hl, hh])).1
  case census =>
    obtain ⟨nans, infs⟩ := censusOf_map fmt.elem t.lanes (fun l => t.reg u src.reg l % 2 ^ fmt.elem.width)
    refine ⟨_, exec_censusCount h hn hf hc, ?_, ?_, ?_⟩
    · rw [withCensus_count hc, laneCensus, nans, infs]
    · rw [withCensus_nanSeen hc, laneCensus, nans]
      simp
    · rw [← issues_at h]
      exact withCensus_frame h hc

end Sys2Proof.Proofs
end

section
/-! Two jobs of one name (R90, R194, R201): ARRAY_OP_COMPLETE takes its operation out of its unit by the job's name, `dropJob`. Where a
routine bears that name too, it goes as well, the next routine of its core starts, and its save record lands on the row just stored. -/

namespace Sys2Proof.Proofs

open Sys2Proof.Machine Sys2Proof.Claims

/-- One INT8 product added to the entry of bank 0, its row stored as INT32 from scratchpad address 0 on. -/
def storingOp : MatOp where
  a := ⟨64, 64, .plain .int8, 0, 0⟩
  b := ⟨128, 64, .plain .int8, 0, 0⟩
  m := 1
  n := 1
  k := 1
  mode := .accumulate
  bank := 0
  c := none
  store := some ⟨0, 64, .plain .int32, 0, 0⟩
  rowScale := 0
  rowMax := none
  tag := 0
  census := none

/-- A job of context 1 that a thread of core 0 issued. -/
def jobOnCore0 (id unit : Nat) (job : Job) (started : Bool) : EngJob where
  id := id
  unit := unit
  ctx := 1
  origin := .block 2 ⟨0, 0, 0, 0, 0, 0, 1⟩
  job := job
  acc := false
  token := 0
  bollard := none
  start := none
  started := started
  stopping := false
  cursor := 0
  census := []
  parked := none
  got := []
  since := 0

/-- The operation in hand on array 0 of core 0. -/
def storingJob : EngJob := jobOnCore0 7 (unitId 2 0) (.matrix storingOp) true

/-- The half that holds its B, the element 0. -/
def storingHalf : BHalf := ⟨7, [[0]], [[]]⟩

/-- A routine of core 0 whose save record stands at scratchpad address 0. -/
def savingJob (id : Nat) (started : Bool) : EngJob := jobOnCore0 id (unitId 1 0) (.routine ⟨0, 0, []⟩) started

/-- Core 0 runs for context 1, its accumulator entry is 5, and a routine bears the operation's name 7; routine 8 waits behind it. -/
def sharedName : State :=
  let s := ((State.reset.put F.idCoreMap_VALID 1 0).put F.pwrDomStatus_STATE 0 0).put F.ctxState_STATE 1 1
  { s with
    eng := { s.eng with jobs := [savingJob 7 true, storingJob, savingJob 8 false] }
    core := { s.core with acc := [(0, 5)], bst := [(0, [storingHalf])] } }

/-- The bytes of the operation's row as an outcome leaves them. -/
def rowLeft (o : Out) : List Byte :=
  match o with
  | .next v => sramRead v 0 0 4
  | _ => []

theorem core0_serves_array0 : coreRuns sharedName 0 = true ∧ coreDrains sharedName 0 = false
    ∧ (jobsOf sharedName (arrayUnit sharedName 0 0)).head? = some storingJob
    ∧ (bHalves sharedName 0 0).find? (fun x => x.key == storingJob.id) = some storingHalf := by
  decide +kernel

/-- The row holds 5 as the store path writes it (R90). -/
theorem row_stored : pack Elem.int32.width (narrowRow (.plain .int32) 0
      (rowResult (feedView sharedName 0 0 storingJob.id) 0 0 storingOp (halfVects storingOp storingHalf) storingJob.cursor)
      ((colDraws sharedName storingJob.ctx 0 0 storingOp.tag storingOp.m storingOp.n).map (fun l => nthD l storingJob.cursor 0))).2
    = [5, 0, 0, 0] := by
  decide +kernel

/-- Routine 8 has started once the operation is complete, and CURSOR 0 of its save record stands where the row was (R201). -/
theorem row_overwritten : rowLeft (exec (.arrayOpComplete 0 0 0 0) sharedName) = [0, 0, 0, 0] := by
  decide +kernel

/-- Refutes O56: its clause on ARRAY_OP_COMPLETE promises the stored row in the state the command leaves, of any state. In `sharedName` a
routine bears the operation's name; it leaves its unit with the operation, and the routine behind it starts and writes its save record over
the row. -/
theorem not_operationsIssueRunAndComplete : ¬ Obligations.OperationsIssueRunAndComplete := by
  unfold Obligations.OperationsIssueRunAndComplete
  rintro ⟨-, -, arrays, -⟩
  obtain ⟨runs, drains, head, half⟩ := core0_serves_array0
  obtain ⟨-, complete⟩ := arrays 0 0 sharedName (by decide) (by decide) runs drains
  obtain ⟨v, answer, -, -, lastRow, -⟩ :=
    complete 0 0 storingJob storingOp storingHalf head rfl rfl half (by decide) (by decide) (by decide) (.inl (by decide))
  have stored : sramRead v 0 0 4 = [5, 0, 0, 0] := ((lastRow rfl (by decide)).2 _ .int32 rfl rfl rfl).trans row_stored
  have left : sramRead v 0 0 4 = [0, 0, 0, 0] := by
    rw [← row_overwritten, answer, rowLeft]
  exact absurd (stored.symm.trans left) (by decide)

end Sys2Proof.Proofs
end

section
/-! The grant of cores to a context (R144): a write of HM_CTX_GRANT_n that runs past core 239, and one that does not. -/

namespace Sys2Proof.Proofs

open Sys2Proof.Machine Sys2Proof.Claims Sys2Proof.Laws

/-- A field of a register's first word reads as the value written where every bit of it takes its bit of the value. -/
theorem get_storeWord {f : Fld} (hf : f.hi < 64) (hlo : f.lo ≤ f.hi) (s : State) (i j v : Nat)
    (h : ∀ b x, f.lo ≤ b → b ≤ f.hi → bitStored f.reg 0 v x b = v.testBit b) :
    (storeWord s f.reg i j 0 v).get f i j = bitsOf v f.hi f.lo := by
  rw [State.get, Nat.div_eq_of_lt (show f.lo < 64 by omega), Nat.mod_eq_of_lt hf, Nat.mod_eq_of_lt (show f.lo < 64 by omega)]
  apply Nat.eq_of_testBit_eq
  intro k
  rw [testBit_bitsOf, testBit_bitsOf]
  by_cases hk : k < f.hi - f.lo + 1
  · rw [testBit_word_storeWord _ _ _ _ _ _ (show f.lo + k < 64 by omega), h _ _ (by omega) (by omega)]
  · simp [hk]

/-- The bits of HM_CTX_GRANT below 18 all belong to fields that take what is written. -/
theorem bitStored_grant (v b : Nat) (x : Bool) (hb : b ≤ 17) : bitStored .hmCtxGrant 0 v x b = v.testBit b := by
  interval_cases b <;> rfl

theorem get_storeGrant {f : Fld} (hf : f.hi ≤ 17) (hlo : f.lo ≤ f.hi) (hr : f.reg = .hmCtxGrant) (s : State) (n v : Nat) :
    (storeWord s .hmCtxGrant n 0 0 v).get f n 0 = bitsOf v f.hi f.lo := by
  rw [← hr]
  exact get_storeWord (by omega) hlo s n 0 v (fun b x _ hb => hr ▸ bitStored_grant v b x (by omega))

theorem regStore_grant (s : State) (n v : Nat) : regStore s ⟨.hmCtxGrant, n, 0, 0, false⟩ v = grantWrite s n v := rfl

/-- Settles O10: a write of the register is `grantWrite`, which stores nothing of a run that passes core 239, and its fields otherwise. -/
theorem grantOverflowKeepsRegister : Obligations.GrantOverflowKeepsRegister := by
  unfold Obligations.GrantOverflowKeepsRegister
  intro n o v s hd h
  have first : bitsOf (v % 2 ^ 32) 7 0 = bitsOf v 7 0 := bitsOf_mod (by decide) (by decide)
  have count : bitsOf (v % 2 ^ 32) 15 8 = bitsOf v 15 8 := bitsOf_mod (by decide) (by decide)
  have priority : bitsOf (v % 2 ^ 32) 17 16 = bitsOf v 17 16 := bitsOf_mod (by decide) (by decide)
  have written : exec (.regWrite o 4 v) s = .next (grantWrite s n (v % 2 ^ 32)) := by
    rw [exec_regWrite_dword hd h.aligned, write32_dword h, regStore_grant]
  rw [written, grantWrite, first, count]
  refine ⟨fun past => by rw [if_pos past], fun fits => ⟨_, by rw [written, grantWrite, first, count, if_neg (by omega)], ?_, ?_, ?_, ?_, ?_⟩⟩
  · exact (get_storeGrant (by decide) (by decide) rfl ..).trans first
  · exact (get_storeGrant (by decide) (by decide) rfl ..).trans count
  · exact (get_storeGrant (by decide) (by decide) rfl ..).trans priority
  · exact fun m hm => word_storeWord_ne s .hmCtxGrant _ (by simp [hm])
  · exact only_setWord ..

end Sys2Proof.Proofs
end

section
/-! A table of group slots out of order (R157, R162): `setSlot` inserts before the first higher key, so where a slot of a higher key stands
ahead of its own the old record stays behind the new one, and a barrier counts its fragments too. -/

namespace Sys2Proof.Proofs

open Sys2Proof.Machine Sys2Proof.Claims

/-- An entry of one block of 32 threads, its code at context address 0. -/
def lonelyEntry : EntryDecl where
  codeOffset := 0
  codeSize := 128
  threads := 32
  cacheWays := 0
  barriers := 0
  granules := 0
  dynamic := false
  cooperative := false
  replayable := false
  routines := false

/-- The launch of that entry on core 0, by context 1. -/
def lonelyLaunch : Launch where
  id := 1
  ctx := 1
  queue := 0
  qidx := 0
  code := 0
  codeOff := 0
  routineOff := 0
  routineSize := 0
  entry := 0
  decl := lonelyEntry
  arg := 0
  gx := 1
  gy := 1
  gz := 1
  wait := false
  prev := 0
  cores := [0]
  next := []
  again := []
  ended := 0
  cancelled := false

/-- Its block, on slot 0 of core 0. -/
def lonelyBlock : BlockRec where
  id := 2
  launch := 1
  ctx := 1
  idx := 0
  core := 0
  gran := 0
  granules := 0
  slots := [0]
  tokens := List.replicate 64 ⟨true, 0⟩

/-- The block's one fragment, at its first instruction. -/
def lonelyFrag : Frag := ⟨0, 1, true, .none, 0⟩

def lonelyPlace : At := ⟨0, 0, 0, 8⟩

def lonelyThread : Th := ⟨lonelyBlock, lonelyLaunch, lonelyFrag, lonelyPlace⟩

/-- Core 0 runs the block for context 1, the line of its code held; in the table of slots an empty slot 1 stands before slot 0. -/
def slotsOutOfOrder : State :=
  let s := ((State.reset.put F.idCoreMap_VALID 1 0).put F.pwrDomStatus_STATE 0 0).put F.ctxState_STATE 1 1
  let s := s.put F.dramSpace_LIMIT_GROUPS 1
  { s with
    mem := { s.mem with seg := [(16, ⟨0, 0, 65536, 0, true, 0, true, true, true, false, false, 0, 0, 0⟩)] }
    run := { s.run with launches := [lonelyLaunch], blocks := [lonelyBlock], slots := [(1, ⟨3, 0, [], []⟩), (0, ⟨2, 0, [lonelyFrag], []⟩)] }
    core := { s.core with ro := [⟨0, 0, false, 0, [], false⟩] } }

/-- The state once the instruction has issued. -/
def issuedOutOfOrder : State := slotsOutOfOrder.bump F.corePipeIssued_ISSUED 1 0

theorem issues_outOfOrder : Issues slotsOutOfOrder lonelyPlace lonelyThread issuedOutOfOrder where
  place := rfl
  thread := by decide +kernel
  inCode := by decide
  line := ⟨[], by decide +kernel⟩

theorem free_outOfOrder : Free slotsOutOfOrder lonelyThread ⟨[], 2⟩ := by
  intro r hr o ho
  have slot : slotRec slotsOutOfOrder 0 0 = some ⟨2, 0, [lonelyFrag], []⟩ := by decide +kernel
  cases slot.symm.trans hr
  exact absurd ho List.not_mem_nil

/-- The waits of slot 0's fragments as an outcome leaves them. -/
def waitsLeft (o : Out) : List FragWait :=
  match o with
  | .next v => ((slotRec v 0 0).map (fun r => r.frags.map (fun f => f.wait))).getD []
  | _ => []

/-- The block's only thread has arrived, and still waits: the record left behind shows it as not arrived. -/
theorem barrier_holds_outOfOrder : waitsLeft (exec (.blockBarrier lonelyPlace none) slotsOutOfOrder) = [.barrier none] := by
  decide +kernel

/-- Refutes O53: its clause on BLOCK_BARRIER asks that the slots' keys differ, and not that they rise. In `slotsOutOfOrder` the only thread
of a block arrives at the barrier and is not released. -/
theorem not_controlMovesTheFragments : ¬ Obligations.ControlMovesTheFragments := by
  unfold Obligations.ControlMovesTheFragments
  rintro ⟨threads, -⟩
  obtain ⟨-, -, barrier, -⟩ := threads lonelyPlace slotsOutOfOrder issuedOutOfOrder lonelyThread issues_outOfOrder
  obtain ⟨released, -⟩ := barrier none free_outOfOrder (by simp)
  obtain ⟨v, answer, ⟨r, slot, lanes⟩, -⟩ := released (by decide +kernel) (by decide +kernel)
  obtain ⟨g, hg, -, -, goes⟩ := lanes 0 rfl
  have left : r.frags.map (fun f => f.wait) = [.barrier none] := by
    rw [← barrier_holds_outOfOrder, answer, waitsLeft]
    exact (congrArg (fun x => (x.map (fun r : SlotRec => r.frags.map (fun f => f.wait))).getD []) slot).symm
  have waits : g.wait ∈ [FragWait.barrier none] := left ▸ List.mem_map_of_mem hg
  rw [goes] at waits
  exact absurd waits (by decide)

end Sys2Proof.Proofs
end

section
/-! A core's Grotto cache (R243 to R252): what writing lines back, taking a way and merging bytes leave in the list of lines. -/

namespace Sys2Proof.Proofs

open Sys2Proof.Machine Sys2Proof.Claims Sys2Proof.Laws

/-- A cores' storage with other Grotto lines. -/
def withLines (c : Cores) (gl : List GrottoLine) : Cores := { c with gl := gl }

@[simp] theorem withLines_gl (c : Cores) (gl : List GrottoLine) : (withLines c gl).gl = gl := rfl

@[simp] theorem withLines_self (c : Cores) : withLines c c.gl = c := rfl

@[simp] theorem withLines_withLines (c : Cores) (gl gl' : List GrottoLine) : withLines (withLines c gl) gl' = withLines c gl' := rfl

/-! Write-back. -/

/-- A line with nothing left to write back. -/
def cleanLine (l : GrottoLine) : GrottoLine := { l with dirty := [] }

/-- The lines once those of a list are written back. -/
def cleaned (ls gl : List GrottoLine) : List GrottoLine := gl.map (fun x => if x ∈ ls then cleanLine x else x)

theorem glWriteBack_core (s : State) (l : GrottoLine) :
    (glWriteBack s l).core = withLines s.core (s.core.gl.map (fun x => if x = l then cleanLine x else x)) := by
  unfold glWriteBack
  split
  · rename_i clean
    have same : ∀ x ∈ s.core.gl, (if x = l then cleanLine x else x) = id x := by
      intro x _
      split
      · rename_i e
        rw [e, cleanLine, ← List.isEmpty_iff.mp clean]
        rfl
      · rfl
    rw [List.map_congr_left same, List.map_id, withLines_self]
  · have sent : ((glSend s l).bump F.coreGrottoWb_WB_LINES 1 l.core).core = s.core := by
      rw [State.bump_core, (frame_glSend s l).core rfl]
    simp only [setGl, State.put_core, sent, updWhere, beq_iff_eq]
    rfl

theorem foldl_glWriteBack_core (ls : List GrottoLine) (s : State) :
    (ls.foldl glWriteBack s).core = withLines s.core (cleaned ls s.core.gl) := by
  induction ls generalizing s with
  | nil => simp [cleaned]
  | cons l ls ih =>
    rw [List.foldl_cons, ih, glWriteBack_core, withLines_withLines, withLines_gl, cleaned, cleaned, List.map_map]
    congr 1
    apply List.map_congr_left
    intro x _
    by_cases e : x = l
    · simp [e, cleanLine]
    · simp [e]

/-- The lines a test picks are clean once those of them that were dirty are written back; the others are as they were. -/
theorem cleaned_dirty (p : GrottoLine → Bool) (gl : List GrottoLine) :
    cleaned (gl.filter (fun l => p l && !l.dirty.isEmpty)) gl = gl.map (fun l => if p l = true then cleanLine l else l) := by
  apply List.map_congr_left
  intro x hx
  by_cases hp : p x = true
  · by_cases hd : x.dirty = []
    · simp [hp, hd, cleanLine]
      rw [← hd]
    · simp [hp, hd, hx]
  · simp [hp]

theorem glFlush_core (s : State) (core : Nat) : (glFlush s core).core = withLines s.core (writtenBack s core) := by
  rw [glFlush, foldl_glWriteBack_core, cleaned_dirty (fun l => l.core == core), writtenBack]
  simp only [beq_iff_eq]
  rfl

theorem glFlushRange_core (s : State) (core : Nat) (p : GrottoLine → Bool) : (glFlushRange s core p).core
    = withLines s.core (s.core.gl.map (fun l => if (l.core == core && p l) = true then cleanLine l else l)) := by
  rw [glFlushRange, foldl_glWriteBack_core, cleaned_dirty (fun l => l.core == core && p l)]

theorem setGl_core (s : State) (core : Nat) (gl : List GrottoLine) : (setGl s core gl).core = withLines s.core gl := by
  rw [setGl, State.put_core]
  rfl

/-- Writing a core's lines back changes none of another core. -/
theorem filter_writtenBack (s : State) (core : Nat) :
    (writtenBack s core).filter (fun l => l.core != core) = s.core.gl.filter (fun l => l.core != core) := by
  unfold writtenBack
  induction s.core.gl with
  | nil => rfl
  | cons l gl ih => by_cases h : l.core = core <;> simp [h, ih]

theorem glInvalidate_glFlush_core (s : State) (core : Nat) :
    (glInvalidate (glFlush s core) core).core = withLines s.core (s.core.gl.filter (fun l => l.core != core)) := by
  rw [glInvalidate, setGl_core, glFlush_core, withLines_gl, filter_writtenBack, withLines_withLines]

end Sys2Proof.Proofs
end

section
/-! Cores bound (R146 to R148): the bidder taken, the clearing of a bind, the flags of a core. -/

namespace Sys2Proof.Proofs

open Sys2Proof.Machine Sys2Proof.Claims Sys2Proof.Laws

/-! The flags of a core. -/

theorem coreFlags_setFlags_same (s : State) (core : Nat) (f : CoreFlags) : coreFlags (setFlags s core f) core = f := by
  rw [coreFlags, setFlags, smapGet_set, if_pos rfl]

theorem coreFlags_setFlags_ne (s : State) {core k : Nat} (f : CoreFlags) (h : k ≠ core) : coreFlags (setFlags s core f) k = coreFlags s k := by
  rw [coreFlags, setFlags, smapGet_set, if_neg h, coreFlags]

theorem coreFlags_congr {s t : State} (h : t.core = s.core) (core : Nat) : coreFlags t core = coreFlags s core := by
  rw [coreFlags, h, coreFlags]

theorem isSet_put_one (s : State) {f : Fld} (i : Nat) (hf : f.ok = true) : (s.put f 1 i).isSet f i = true := by
  rw [State.isSet, State.get_put_same s 1 i 0 hf, Nat.mod_eq_of_lt (Nat.one_lt_two_pow (by omega)), beq_self_eq_true]

theorem isSet_put_zero (s : State) {f : Fld} (i : Nat) (hf : f.ok = true) : (s.put f 0 i).isSet f i = false := by
  rw [State.isSet, State.get_put_same s 0 i 0 hf, Nat.zero_mod]
  rfl

/-! The bidder. -/

theorem le_foldl_max {l : List Nat} {x : Nat} (y : Nat) (h : x ∈ l ∨ x ≤ y) : x ≤ l.foldl max y := by
  induction l generalizing y with
  | nil => exact h.resolve_left List.not_mem_nil
  | cons a l ih =>
    refine ih _ ?_
    rcases h with h | h
    · rcases List.mem_cons.mp h with rfl | h
      · exact .inr (Nat.le_max_right ..)
      · exact .inl h
    · exact .inr (Nat.le_trans h (Nat.le_max_left ..))

/-- The context a free core binds to bids for it, and none that bids has a higher priority (R146). -/
theorem bidder_best {s : State} {core c : Nat} (h : bidder s core = some c) :
    c ∈ bidders s core ∧ ∀ x ∈ bidders s core, s.get F.hmCtxGrant_PRIORITY x ≤ s.get F.hmCtxGrant_PRIORITY c := by
  have best : c ∈ (bidders s core).filter (fun c => s.get F.hmCtxGrant_PRIORITY c
      == ((bidders s core).map (fun c => s.get F.hmCtxGrant_PRIORITY c)).foldl max 0) := by
    unfold bidder at h
    dsimp only at h
    split at h
    · rename_i found
      cases h
      exact List.mem_of_find?_eq_some found
    · exact List.mem_of_mem_head? h
  obtain ⟨bids, top⟩ := List.mem_filter.mp best
  refine ⟨bids, fun x hx => ?_⟩
  rw [eq_of_beq top]
  exact le_foldl_max 0 (.inl (List.mem_map_of_mem hx))

/-! The bind. -/

/-- A core's stores as a bind to another context leaves them (R147). -/
def clearedFor (s : State) (core : Nat) : State := clearCore (glInvalidate (glFlush s core) core) core

/-- The core bound to a context, from the state its stores are in. -/
def bindTo (s : State) (core c : Nat) (clearing : Bool) : State :=
  ((setFlags s core { coreFlags s core with clearing := clearing, closed := false, servedNone := false, lfsr := 0xACE1 }).put
    F.coreBinding_BOUND 1 core).put F.coreBinding_CONTEXT c core

/-- The context is the one the core served last: its bind clears nothing (R147). -/
def servesAgain (s : State) (core c : Nat) : Bool := !(coreFlags s core).servedNone && s.get F.coreBinding_CONTEXT core == c

theorem exec_coreBind {s : State} {core c : Nat} (hc : core < 240) (hb : bidder s core = some c) (idle : coreBusy s core = false)
    (runs : coreRuns s core = true) (drains : coreDrains s core = false) :
    exec (.coreBind core) s = .next (bindTo (if servesAgain s core c = true then s else clearedFor s core) core c
      ((coreFlags s core).clearing || !servesAgain s core c)) := by
  show execCoreBind core s = _
  simp only [execCoreBind, hc, if_true, hb, idle, runs, drains, Bool.not_false, Bool.and_self]
  rfl

theorem bindTo_core (s : State) (core c : Nat) (clearing : Bool) : ∃ flags, (bindTo s core c clearing).core = { s.core with flags := flags } := by
  rw [bindTo, State.put_core, State.put_core]
  exact ⟨_, rfl⟩

theorem bindTo_flags (s : State) (core c : Nat) (clearing : Bool) :
    (coreFlags (bindTo s core c clearing) core).clearing = clearing ∧ (coreFlags (bindTo s core c clearing) core).lfsr = 0xACE1 := by
  have flags : coreFlags (bindTo s core c clearing) core
      = { coreFlags s core with clearing := clearing, closed := false, servedNone := false, lfsr := 0xACE1 } :=
    (coreFlags_congr ((State.put_core ..).trans (State.put_core ..)) core).trans (coreFlags_setFlags_same ..)
  rw [flags]
  exact ⟨rfl, rfl⟩

theorem bindTo_bound (s : State) {core c : Nat} (clearing : Bool) (hc : c < 4096) :
    (bindTo s core c clearing).isSet F.coreBinding_BOUND core = true ∧ (bindTo s core c clearing).get F.coreBinding_CONTEXT core = c := by
  constructor
  · rw [bindTo, State.isSet, State.get_put_bits _ _ _ _ _ _ rfl rfl (by decide)]
    exact isSet_put_one _ _ rfl
  · rw [bindTo, State.get_put_same _ _ _ _ rfl]
    exact Nat.mod_eq_of_lt hc

/-- What a core holds once it has been cleared: its registers and its scratchpad read 0, its caches have no line (R147). -/
structure Cleared (c : Cores) (core : Nat) : Prop where
  rf : ∀ k, k / 262144 = core → smapGet c.rf 0 k = 0
  rc : ∀ k, k / 128 = core → smapGet c.rc [] k = []
  sram : ∀ k, k / 2097152 = core → sramAt c k = 0
  gl : ∀ l ∈ c.gl, l.core ≠ core
  ro : ∀ l ∈ c.ro, l.core ≠ core

theorem smapGet_drop_picked {α : Type} (m : SMap α) (d : α) {p : Nat → Bool} {k : Nat} (h : p k = true) : smapGet (smapDrop m p) d k = d := by
  rw [smapGet, smapFind_drop, if_pos h]
  rfl

theorem cleared_clearedFor (s : State) (core : Nat) : Cleared (clearedFor s core).core core where
  rf k hk := by
    show smapGet (smapDrop _ (fun k => k / 262144 == core)) 0 k = 0
    exact smapGet_drop_picked _ _ (by simpa using hk)
  rc k hk := by
    show smapGet (smapDrop _ (fun k => k / 128 == core)) [] k = []
    exact smapGet_drop_picked _ _ (by simpa using hk)
  sram k hk := by
    have unlisted : smapFind (clearedFor s core).core.sram k = none := by
      show smapFind (smapDrop _ (fun k => k / 2097152 == core)) k = none
      rw [smapFind_drop, if_pos (by simpa using hk)]
    have unmarked : scramOf (clearedFor s core).core k = 0 := by
      show smapGet (smapDrop _ (fun k => k / 16 == core)) 0 (k / 2097152 * 16 + (15 - k % 2097152 / 131072)) = 0
      exact smapGet_drop_picked _ _ (by simp; omega)
    rw [sramAt, unlisted, sramDefault, unmarked]
    rfl
  gl l hl := by
    have lines : (clearedFor s core).core.gl = s.core.gl.filter (fun l => l.core != core) :=
      congrArg Cores.gl (glInvalidate_glFlush_core s core)
    rw [lines] at hl
    simpa using (List.mem_filter.mp hl).2
  ro l hl := by simpa using (List.mem_filter.mp hl).2

theorem regRead_of_cleared {s : State} {core k r l : Nat} (h : Cleared s.core core) (hk : k < 128) (hr : r < 64) (hl : l < 32) :
    regRead s core k r l = 0 := by
  have empty : smapGet s.core.rc [] (slotKey core k) = [] := h.rc _ (by unfold slotKey; omega)
  rw [regRead, rcFind, empty]
  exact h.rf _ (by unfold rfKey slotKey; omega)

theorem sramByte_of_cleared {s : State} {core a : Nat} (h : Cleared s.core core) (ha : a < 2097152) : sramByte s core a = 0 :=
  h.sram _ (by unfold sramKey; omega)

/-! A core freed. -/

theorem exec_bindQuantumExpire {s : State} {core ctx : Nat} (hcore : core < 240) (hctx : ctx < 4096)
    (bound : s.isSet F.coreBinding_BOUND core = true) (other : s.get F.coreBinding_CONTEXT core ≠ ctx)
    (quantum : s.get F.hmBindQuantum_QUANTUM_US ≠ 0)
    (prio : s.get F.hmCtxGrant_PRIORITY (s.get F.coreBinding_CONTEXT core) ≤ s.get F.hmCtxGrant_PRIORITY ctx)
    (waits : waitsFor s core ctx = true) : exec (.bindQuantumExpire core ctx) s
      = .next (if keptFrom s core ctx = true then s else freeCore (setFlags s core { coreFlags s core with closed := true }) core) := by
  show execBindQuantumExpire core ctx s = _
  have another : (s.get F.coreBinding_CONTEXT core != ctx) = true := by simpa using other
  have timed : (s.get F.hmBindQuantum_QUANTUM_US != 0) = true := by simpa using quantum
  simp only [execBindQuantumExpire, hcore, hctx, and_self, if_true, bound, another, timed, decide_eq_true prio, waits, Bool.true_and]
  cases keptFrom s core ctx <;> rfl

theorem freeCore_of_busy {s : State} {core : Nat} (h : coreBusy s core = true) : freeCore s core = s := if_pos h

/-- A core no longer in use is bound to no context and open (R146). -/
theorem freeCore_of_idle {s : State} {core : Nat} (h : coreBusy s core = false) : (freeCore s core).isSet F.coreBinding_BOUND core = false
    ∧ coreFlags (freeCore s core) core = { coreFlags s core with closed := false } := by
  rw [freeCore, h]
  exact ⟨((frame_setFlags _ core _).isSet F.coreBinding_BOUND rfl core).trans (isSet_put_zero s core rfl), coreFlags_setFlags_same ..⟩

theorem coreBusy_setFlags (s : State) (core k : Nat) (f : CoreFlags) : coreBusy (setFlags s k f) core = coreBusy s core := rfl

end Sys2Proof.Proofs
end

section
/-! Blocks placed (R141, R142, R150, R190, R243): the slots, the scratchpad run and the registers a block starts with. -/

namespace Sys2Proof.Proofs

open Sys2Proof.Machine Sys2Proof.Claims Sys2Proof.Laws

/-! Room on a core (R150). -/

theorem mem_freeSlots {s : State} {core k : Nat} : k ∈ freeSlots s core ↔ k < 128 ∧ slotRec s core k = none := by
  simp [freeSlots]

theorem freeSlots_congr {s t : State} (h : t.run = s.run) (core : Nat) : freeSlots t core = freeSlots s core := by
  simp only [freeSlots, slotRec_congr h]

theorem freeRun_congr {s t : State} (h : t.run = s.run) (core ways n : Nat) : freeRun t core ways n = freeRun s core ways n := by
  simp only [freeRun, h]

/-- A free run of granules lies below the split and apart from every other block's (R150, R243). -/
theorem freeRun_apart {s : State} {core ways n g : Nat} (h : freeRun s core ways n = some g) (hn : n ≠ 0) :
    g + n ≤ granulesOf ways
      ∧ ∀ x ∈ s.run.blocks, x.core = core → x.granules ≠ 0 → g + n ≤ x.gran ∨ x.gran + x.granules ≤ g := by
  simp only [freeRun, if_neg hn] at h
  have below : g < granulesOf ways + 1 - n := List.mem_range.mp (List.mem_of_find?_eq_some h)
  refine ⟨by omega, fun x hx hcore hgran => ?_⟩
  have apart := List.find?_some h
  simp only [Bool.not_eq_true', List.any_eq_false] at apart
  have := apart x (List.mem_filter.mpr ⟨hx, by simp [hcore, hgran]⟩)
  simp only [Bool.and_eq_true, decide_eq_true_eq, not_and] at this
  omega

theorem room_of_wantsCore {s : State} {l : Launch} {core : Nat} (h : wantsCore s l core = true) :
    slotsPer l.decl ≤ (freeSlots s core).length ∧ (freeRun s core l.decl.cacheWays l.decl.granules).isSome = true := by
  simp only [wantsCore, wantsBind, placeable, hasRoom, Bool.and_eq_true, decide_eq_true_eq] at h
  obtain ⟨⟨_, ⟨⟨⟨⟨_, slots⟩, run⟩, _⟩, _⟩, _⟩, _⟩ := h
  exact ⟨slots, run⟩

/-! Registers at block start (Table 5.2). -/

/-- What register `r` of a lane of group `g` holds as a block starts. -/
def startWord (l : Launch) (idx g r lane : Nat) : Nat :=
  match r with
  | 0 => 32 * g + lane
  | 1 => idx
  | 2 => idx / 2 ^ 32 % 256
  | 3 => l.arg
  | _ => l.arg / 2 ^ 32

/-- The words of the main file that a group's start writes, by their places. -/
def startWords (l : Launch) (core slot idx g : Nat) : SMap W32 :=
  ((List.range 32).filter (fun k => (groupMask l.decl.threads g).testBit k)).flatMap (fun k =>
    (List.range 5).map (fun r => (rfKey core slot r k, BitVec.ofNat 32 (startWord l idx g r k))))

/-- The words written one after the other into a main file. -/
def withWords (m ws : SMap W32) : SMap W32 := ws.foldl (fun m kv => smapSet m 0 kv.1 kv.2) m

theorem startRegs_core (s : State) (l : Launch) (core slot idx g : Nat) : (startRegs s l core slot idx g).core
    = { s.core with rf := withWords s.core.rf (startWords l core slot idx g), rc := smapDrop s.core.rc (fun k => k == slotKey core slot) } := by
  rw [withWords, startWords, List.foldl_flatMap]
  simp only [List.foldl_map]
  rfl

/-- A word all of whose writes are of one value, and which holds that value or is written, holds it in the end. -/
theorem smapGet_withWords {a : Nat} {v : W32} (ws : SMap W32) (h : ∀ kv ∈ ws, kv.1 = a → kv.2 = v) (m : SMap W32)
    (hm : (∃ kv ∈ ws, kv.1 = a) ∨ smapGet m 0 a = v) : smapGet (withWords m ws) 0 a = v := by
  induction ws generalizing m with
  | nil => exact hm.resolve_left (by simp)
  | cons x ws ih =>
    refine ih (fun kv hkv => h kv (List.mem_cons_of_mem _ hkv)) _ ?_
    rw [smapGet_set]
    by_cases e : a = x.1
    · exact .inr (by rw [if_pos e, h x (List.mem_cons_self ..) e.symm])
    · rw [if_neg e]
      refine hm.imp_left ?_
      rintro ⟨kv, hkv, hk⟩
      rcases List.mem_cons.mp hkv with rfl | hkv
      · exact absurd hk.symm e
      · exact ⟨kv, hkv, hk⟩

theorem mem_startWords {l : Launch} {core slot idx g : Nat} {kv : Nat × W32} (h : kv ∈ startWords l core slot idx g) :
    ∃ r lane, r < 5 ∧ lane < 32 ∧ kv = (rfKey core slot r lane, BitVec.ofNat 32 (startWord l idx g r lane)) := by
  simp only [startWords, List.mem_flatMap, List.mem_filter, List.mem_range, List.mem_map] at h
  obtain ⟨lane, ⟨hl, -⟩, r, hr, e⟩ := h
  exact ⟨r, lane, hr, hl, e.symm⟩

section
variable {s : State} {l : Launch} {core slot idx g : Nat}

theorem regRead_startRegs (hs : slot < 128) {r lane : Nat} (hr : r < 5) (hl : lane < 32)
    (hm : (groupMask l.decl.threads g).testBit lane = true) :
    regRead (startRegs s l core slot idx g) core slot r lane = BitVec.ofNat 32 (startWord l idx g r lane) := by
  have empty : smapGet (smapDrop s.core.rc (fun k => k == slotKey core slot)) [] (slotKey core slot) = [] :=
    smapGet_drop_picked _ _ (beq_self_eq_true _)
  rw [regRead, rcFind, startRegs_core, empty]
  refine smapGet_withWords _ (fun kv hkv e => ?_) _ (.inl ⟨(rfKey core slot r lane, BitVec.ofNat 32 (startWord l idx g r lane)), ?_, rfl⟩)
  · obtain ⟨r', lane', hr', hl', rfl⟩ := mem_startWords hkv
    obtain ⟨-, rfl, rfl⟩ := rfKey_inj hs hs (by omega) (by omega) hl' hl e
    rfl
  · simp only [startWords, List.mem_flatMap, List.mem_filter, List.mem_range, List.mem_map]
    exact ⟨lane, ⟨hl, hm⟩, r, hr, rfl⟩

theorem regRead_startRegs_ne (hs : slot < 128) {k r lane : Nat} (hk : k < 128) (hne : k ≠ slot) (hr : r < 64) (hl : lane < 32) :
    regRead (startRegs s l core slot idx g) core k r lane = regRead s core k r lane := by
  have other : (slotKey core k == slotKey core slot) = false := by
    rw [beq_eq_false_iff_ne]
    exact fun e => hne (slotKey_inj hk hs e).2
  have rows : smapGet (smapDrop s.core.rc (fun k => k == slotKey core slot)) [] (slotKey core k) = smapGet s.core.rc [] (slotKey core k) := by
    rw [smapGet, smapFind_drop, other]
    rfl
  have file : smapGet (withWords s.core.rf (startWords l core slot idx g)) 0 (rfKey core k r lane) = smapGet s.core.rf 0 (rfKey core k r lane) := by
    refine smapGet_withWords _ (fun kv hkv e => ?_) _ (.inr rfl)
    obtain ⟨r', lane', hr', hl', rfl⟩ := mem_startWords hkv
    exact absurd (rfKey_inj hs hk (by omega) hr hl' hl e).1.2.symm hne
  rw [regRead_eq_rowsRead, regRead_eq_rowsRead, cacheRows, cacheRows, rowsRead, rowsRead, startRegs_core, rows, file]

end

/-! Groups started in their slots. -/

/-- A group's slot as its block starts (R141). -/
def startedSlot (s : State) (l : Launch) (b : BlockRec) (g : Nat) : SlotRec :=
  ⟨b.id, g, [⟨l.decl.codeOffset, groupMask l.decl.threads g, true, .none, s.ns⟩], []⟩

/-- The groups of a block started in these slots, from group `n` on. -/
def startSlots (s : State) (l : Launch) (b : BlockRec) (slots : List Nat) (n : Nat) : State :=
  (slots.zipIdx n).foldl (fun s kg => startSlot s l b kg.1 kg.2) s

theorem startSlots_cons (s : State) (l : Launch) (b : BlockRec) (k : Nat) (ks : List Nat) (n : Nat) :
    startSlots s l b (k :: ks) n = startSlots (startSlot s l b k n) l b ks (n + 1) := rfl

theorem frame_startSlots (s : State) (l : Launch) (b : BlockRec) (slots : List Nat) (n : Nat) : Frame 48 0 s (startSlots s l b slots n) :=
  (Frame.refl _ _ s).foldl (fun _ _ h => h.step (frame_startSlot ..) rfl rfl)

theorem startSlot_run (s : State) (l : Launch) (b : BlockRec) (k g : Nat) :
    (startSlot s l b k g).run = { s.run with slots := smapInsert s.run.slots (slotKey b.core k) (startedSlot s l b g) } := rfl

theorem startSlots_run (s : State) (l : Launch) (b : BlockRec) (slots : List Nat) (n : Nat) :
    ∃ sl, (startSlots s l b slots n).run = { s.run with slots := sl } := by
  induction slots generalizing s n with
  | nil => exact ⟨_, rfl⟩
  | cons k ks ih =>
    obtain ⟨sl, e⟩ := ih (startSlot s l b k n) (n + 1)
    exact ⟨sl, by rw [startSlots_cons, e, startSlot_run]⟩

section
variable {l : Launch} {b : BlockRec} {slots : List Nat}

/-- A slot that the block does not take keeps its record and its registers. -/
theorem startSlots_other (hs : ∀ x ∈ slots, x < 128) {k : Nat} (hk : k < 128) (hne : k ∉ slots) (s : State) (n : Nat) :
    slotRec (startSlots s l b slots n) b.core k = slotRec s b.core k
      ∧ ∀ r lane, r < 64 → lane < 32 → regRead (startSlots s l b slots n) b.core k r lane = regRead s b.core k r lane := by
  induction slots generalizing s n with
  | nil => exact ⟨rfl, fun _ _ _ _ => rfl⟩
  | cons x xs ih =>
    simp only [List.mem_cons, not_or] at hne
    simp only [List.forall_mem_cons] at hs
    obtain ⟨record, regs⟩ := ih hs.2 hne.2 (startSlot s l b x n) (n + 1)
    rw [startSlots_cons]
    refine ⟨record.trans ?_, fun r lane hr hl => (regs r lane hr hl).trans (regRead_startRegs_ne hs.1 hk hne.1 hr hl)⟩
    rw [slotRec, startSlot_run, smapFind_insert, if_neg (fun e => hne.1 (slotKey_inj hk hs.1 e).2), slotRec]

/-- The slot of each group holds its one fragment, its lanes' registers what Table 5.2 gives them. -/
theorem startSlots_group (hs : ∀ x ∈ slots, x < 128) (nodup : slots.Nodup) {g k : Nat} (h : slots[g]? = some k) (s : State) (n : Nat) :
    slotRec (startSlots s l b slots n) b.core k = some (startedSlot s l b (n + g))
      ∧ ∀ r lane, r < 5 → lane < 32 → (groupMask l.decl.threads (n + g)).testBit lane = true →
        regRead (startSlots s l b slots n) b.core k r lane = BitVec.ofNat 32 (startWord l b.idx (n + g) r lane) := by
  induction slots generalizing s n g with
  | nil => simp at h
  | cons x xs ih =>
    simp only [List.forall_mem_cons] at hs
    rw [List.nodup_cons] at nodup
    rw [startSlots_cons]
    cases g with
    | zero =>
      obtain rfl : x = k := by simpa using h
      obtain ⟨record, regs⟩ := startSlots_other (l := l) (b := b) hs.2 hs.1 nodup.1 (startSlot s l b x n) (n + 1)
      refine ⟨record.trans ?_, fun r lane hr hl hm => (regs r lane (by omega) hl).trans (regRead_startRegs hs.1 hr hl hm)⟩
      rw [slotRec, startSlot_run, smapFind_insert, if_pos rfl]
      rfl
    | succ g =>
      have later := ih hs.2 nodup.2 (by simpa using h) (startSlot s l b x n) (n + 1)
      rw [show n + 1 + g = n + (g + 1) by omega] at later
      exact later

end

/-! The core's split (R243). -/

theorem get_setSplit_ways (s : State) (core : Nat) {ways : Nat} (h : ways < 32) :
    (setSplit s core ways).get F.coreGrottoStatus_CACHE_WAYS core = ways := by
  have stored : ((glInvalidate (glFlush s core) core).put F.coreGrottoStatus_CACHE_WAYS ways core).get F.coreGrottoStatus_CACHE_WAYS core = ways := by
    rw [State.get_put_same _ _ _ _ rfl]
    exact Nat.mod_eq_of_lt h
  unfold setSplit
  dsimp only
  split
  · assumption
  · split
    · exact ((frame_scramble ..).get _ rfl core).trans stored
    · exact stored

/-- The state in which a block's room is taken: the core's split set where the core was empty. -/
def splitFor (s : State) (l : Launch) (core : Nat) : State :=
  if (s.run.blocks.filter (fun b => b.core == core)).isEmpty then setSplit (s.restart (domOfGallery (galleryOfCore core))) core l.decl.cacheWays
  else s.restart (domOfGallery (galleryOfCore core))

theorem frame_splitFor (s : State) (l : Launch) (core : Nat) : Frame 16418 41538374868278621029937709240549376 s (splitFor s l core) := by
  have clocks := (frame_State_restart s (domOfGallery (galleryOfCore core))).mono (ps := 16418) (rs := 41538374868278621029937709240549376) rfl rfl
  unfold splitFor
  split
  · exact clocks.step (frame_setSplit ..) rfl rfl
  · exact clocks

/-- The block that `putBlock` makes. -/
def placedBlock (s : State) (l : Launch) (idx core : Nat) : BlockRec where
  id := s.obj.nextId
  launch := l.id
  ctx := l.ctx
  idx := idx
  core := core
  gran := (freeRun s core l.decl.cacheWays l.decl.granules).getD 0
  granules := l.decl.granules
  slots := (freeSlots s core).take (slotsPer l.decl)
  tokens := List.replicate 64 ⟨true, 0⟩

/-- The block among the resident ones, its groups not yet in their slots. -/
def admitted (s : State) (l : Launch) (idx core : Nat) : State :=
  { splitFor s l core with
    obj := { (splitFor s l core).obj with nextId := (splitFor s l core).obj.nextId + 1 }
    run := { (splitFor s l core).run with blocks := (splitFor s l core).run.blocks ++ [placedBlock (splitFor s l core) l idx core] } }

theorem placedBlock_splitFor (s : State) (l : Launch) (idx core : Nat) : placedBlock (splitFor s l core) l idx core = placedBlock s l idx core := by
  have run : (splitFor s l core).run = s.run := (frame_splitFor s l core).run rfl
  have obj : (splitFor s l core).obj = s.obj := (frame_splitFor s l core).obj rfl
  simp only [placedBlock, obj, freeSlots_congr run, freeRun_congr run]

theorem admitted_run (s : State) (l : Launch) (idx core : Nat) :
    (admitted s l idx core).run = { s.run with blocks := s.run.blocks ++ [placedBlock s l idx core] } := by
  have run : (splitFor s l core).run = s.run := (frame_splitFor s l core).run rfl
  rw [admitted, placedBlock_splitFor, run]

/-- Placing the block's groups and noting it at its launch and its core. -/
theorem putBlock_eq (s : State) (l : Launch) (idx core : Nat) : ∃ f, putBlock s l idx core
    = showCore (updLaunch (startSlots (admitted s l idx core) l (placedBlock s l idx core) (placedBlock s l idx core).slots 0) l.id f) core := by
  rw [← placedBlock_splitFor]
  exact ⟨_, rfl⟩

end Sys2Proof.Proofs
end

section
/-! The obligation on binding cores and placing blocks (R141 to R152, R190, R243). -/

namespace Sys2Proof.Proofs

open Sys2Proof.Machine Sys2Proof.Claims Sys2Proof.Laws

section
variable {s : State} {core c : Nat}

/-- A bind to another context than the core last served clears it. -/
theorem bindTo_clearedFor (s : State) (core c : Nat) : (coreFlags (bindTo (clearedFor s core) core c true) core).clearing = true
    ∧ Cleared (bindTo (clearedFor s core) core c true).core core := by
  obtain ⟨flags, e⟩ := bindTo_core (clearedFor s core) core c true
  refine ⟨(bindTo_flags ..).1, ?_⟩
  rw [e]
  have h := cleared_clearedFor s core
  exact ⟨h.rf, h.rc, h.sram, h.gl, h.ro⟩

theorem servesAgain_iff : servesAgain s core c = true ↔ (coreFlags s core).servedNone = false ∧ s.get F.coreBinding_CONTEXT core = c := by
  simp [servesAgain]

end

section
variable {s : State} {l : Launch} {core idx : Nat}

theorem exec_blockPlace {launch : Nat} (hc : core < 240) (hl : launchRec s launch = some l) (wants : wantsCore s l core = true)
    (serves : coreServes s core l.ctx = true) (next : blockFor s l core = some idx) :
    exec (.blockPlace launch idx core) s = .next (putBlock s l idx core) := by
  show execBlockPlace launch idx core s = _
  simp only [execBlockPlace, hc, if_true, hl, wants, serves, next, beq_self_eq_true, Bool.and_self]

/-- What `putBlock` leaves of slots, blocks and cores is what starting the groups leaves. -/
theorem putBlock_run (s : State) (l : Launch) (idx core : Nat) :
    (putBlock s l idx core).run.blocks = s.run.blocks ++ [placedBlock s l idx core]
      ∧ (putBlock s l idx core).run.slots
        = (startSlots (admitted s l idx core) l (placedBlock s l idx core) (placedBlock s l idx core).slots 0).run.slots
      ∧ (putBlock s l idx core).core
        = (startSlots (admitted s l idx core) l (placedBlock s l idx core) (placedBlock s l idx core).slots 0).core := by
  obtain ⟨f, e⟩ := putBlock_eq s l idx core
  obtain ⟨sl, started⟩ := startSlots_run (admitted s l idx core) l (placedBlock s l idx core) (placedBlock s l idx core).slots 0
  have shown := frame_showCore (updLaunch (startSlots (admitted s l idx core) l (placedBlock s l idx core)
    (placedBlock s l idx core).slots 0) l.id f) core
  rw [e, shown.run rfl, shown.core rfl, updLaunch]
  refine ⟨?_, rfl, rfl⟩
  rw [started, admitted_run]

/-- The block stands as a block starts (Table 5.2). -/
theorem placed_putBlock (wants : wantsCore s l core = true) : Placed s (putBlock s l idx core) l idx core (placedBlock s l idx core) := by
  obtain ⟨blocks, slots, cores⟩ := putBlock_run s l idx core
  obtain ⟨enough, run⟩ := room_of_wantsCore wants
  obtain ⟨g, free⟩ := Option.isSome_iff_exists.mp run
  have taken : ∀ k ∈ (placedBlock s l idx core).slots, k < 128 ∧ slotRec s core k = none := fun k hk =>
    mem_freeSlots.mp (List.mem_of_mem_take hk)
  have nodup : (placedBlock s l idx core).slots.Nodup := (List.nodup_range.filter _).take
  have record : ∀ k, slotRec (putBlock s l idx core) core k
      = slotRec (startSlots (admitted s l idx core) l (placedBlock s l idx core) (placedBlock s l idx core).slots 0) core k := by
    intro k
    rw [slotRec, slotRec, slots]
  have reg : ∀ k r lane, regRead (putBlock s l idx core) core k r lane
      = regRead (startSlots (admitted s l idx core) l (placedBlock s l idx core) (placedBlock s l idx core).slots 0) core k r lane := by
    intro k r lane
    rw [regRead_eq_rowsRead, regRead_eq_rowsRead, cacheRows, cacheRows, cores]
  have ns : (admitted s l idx core).ns = s.ns := (frame_splitFor s l core).ns rfl
  have group : ∀ n k, (placedBlock s l idx core).slots[n]? = some k →
      slotRec (startSlots (admitted s l idx core) l (placedBlock s l idx core) (placedBlock s l idx core).slots 0) core k
        = some (startedSlot (admitted s l idx core) l (placedBlock s l idx core) n)
      ∧ ∀ r lane, r < 5 → lane < 32 → (groupMask l.decl.threads n).testBit lane = true →
        regRead (startSlots (admitted s l idx core) l (placedBlock s l idx core) (placedBlock s l idx core).slots 0) core k r lane
          = BitVec.ofNat 32 (startWord l idx n r lane) := by
    intro n k hk
    have started := startSlots_group (l := l) (b := placedBlock s l idx core) (fun x hx => (taken x hx).1) nodup hk (admitted s l idx core) 0
    rw [Nat.zero_add] at started
    exact started
  refine ⟨blocks, ⟨rfl, rfl, rfl, rfl, rfl, ?_⟩, rfl, taken, fun hn => ?_, fun n k hk => ?_, fun n k lane hk hl hm => ?_⟩
  · exact (List.length_take ..).trans (Nat.min_eq_left enough)
  · have gran : (placedBlock s l idx core).gran = g := by rw [placedBlock, free, Option.getD_some]
    rw [gran]
    exact freeRun_apart free hn
  · rw [record, (group n k hk).1, startedSlot, ns]
  · have start := (group n k hk).2
    simp only [reg]
    rw [start 0 lane (by omega) hl hm, start 1 lane (by omega) hl hm, start 2 lane (by omega) hl hm, start 3 lane (by omega) hl hm,
      start 4 lane (by omega) hl hm]
    simp only [BitVec.toNat_ofNat]
    exact ⟨rfl, rfl, Nat.mod_eq_of_lt (show idx / 2 ^ 32 % 256 < 2 ^ 32 by omega), rfl, rfl⟩

/-- The first block on an empty core sets its split (R243). -/
theorem get_putBlock_ways (empty : ∀ b ∈ s.run.blocks, b.core ≠ core) (hw : l.decl.cacheWays < 32) :
    (putBlock s l idx core).get F.coreGrottoStatus_CACHE_WAYS core = l.decl.cacheWays := by
  obtain ⟨f, e⟩ := putBlock_eq s l idx core
  have none : (s.run.blocks.filter (fun b => b.core == core)).isEmpty = true := by simpa using empty
  have split : (admitted s l idx core).get F.coreGrottoStatus_CACHE_WAYS core = l.decl.cacheWays := by
    show (splitFor s l core).get F.coreGrottoStatus_CACHE_WAYS core = l.decl.cacheWays
    rw [splitFor, if_pos none]
    exact get_setSplit_ways _ _ hw
  rw [e]
  exact ((frame_showCore _ core).get F.coreGrottoStatus_CACHE_WAYS rfl core).trans
    (((frame_updLaunch _ l.id f).get F.coreGrottoStatus_CACHE_WAYS rfl core).trans
      (((frame_startSlots _ l _ _ 0).get F.coreGrottoStatus_CACHE_WAYS rfl core).trans split))

end

/-- Settles O60: a bind, an end of clearing, a placement and a quantum taken apart, each with the frame of its command. -/
theorem coresBindAndBlocksArePlaced : Obligations.CoresBindAndBlocksArePlaced := by
  unfold Obligations.CoresBindAndBlocksArePlaced
  intro core s hcore
  refine ⟨fun c bids hc idle runs drains => ?_, ?_, fun launch idx l found wants serves next => ?_,
    fun ctx hctx bound other quantum prio waits => ?_⟩
  · have bind := exec_coreBind hcore bids idle runs drains
    obtain ⟨isBidder, highest⟩ := bidder_best bids
    refine ⟨_, bind, (bindTo_bound _ _ hc).1, (bindTo_bound _ _ hc).2, isBidder, highest, fun change => ?_, fun served again => ?_,
      (bindTo_flags ..).2, ((frame_execCoreBind core s).of_next _ bind).onlyOf rfl⟩
    · have fresh : servesAgain s core c = false := by
        rw [← Bool.not_eq_true, servesAgain_iff]
        rintro ⟨served, again⟩
        exact change.elim (fun h => Bool.false_ne_true (served.symm.trans h)) (fun h => h again)
      rw [fresh]
      simp only [Bool.false_eq_true, if_false, Bool.not_false, Bool.or_true]
      obtain ⟨clearing, cleared⟩ := bindTo_clearedFor s core c
      exact ⟨clearing, fun k r l hk hr hl => regRead_of_cleared cleared hk hr hl, fun a ha => sramByte_of_cleared cleared ha,
        cleared.gl, cleared.ro⟩
    · rw [servesAgain_iff.mpr ⟨served, again⟩]
      simp only [if_true, Bool.not_true, Bool.or_false]
      obtain ⟨flags, e⟩ := bindTo_core s core c (coreFlags s core).clearing
      refine ⟨(bindTo_flags ..).1, ?_⟩
      rw [e]
      exact ⟨rfl, rfl, rfl, rfl⟩
  · have ends : exec (.bindZeroDone core) s = .next (setFlags s core { coreFlags s core with clearing := false }) := if_pos hcore
    exact ⟨_, ends, coreFlags_setFlags_same .., fun k hk => coreFlags_setFlags_ne s _ hk, (frame_setFlags ..).onlyOf rfl⟩
  · have place := exec_blockPlace hcore found wants serves next
    exact ⟨_, place, ⟨placedBlock s l idx core, rfl, placed_putBlock wants⟩, get_putBlock_ways,
      ((frame_execBlockPlace launch idx core s).of_next _ place).onlyOf rfl⟩
  · have expire := exec_bindQuantumExpire hcore hctx bound other quantum prio waits
    refine ⟨fun kept => ⟨s, by rw [expire, if_pos kept], rfl⟩, fun open_ => ?_⟩
    rw [open_] at expire
    refine ⟨_, expire, fun busy => ?_, fun idle => ?_, ((frame_execBindQuantumExpire core ctx s).of_next _ expire).onlyOf rfl⟩
    · rw [if_neg Bool.false_ne_true, freeCore_of_busy ((coreBusy_setFlags ..).trans busy), coreFlags_setFlags_same]
      exact ⟨rfl, bound⟩
    · obtain ⟨unbound, flags⟩ := freeCore_of_idle ((coreBusy_setFlags s core core { coreFlags s core with closed := true }).trans idle)
      rw [if_neg Bool.false_ne_true, flags]
      exact ⟨unbound, rfl⟩

end Sys2Proof.Proofs
end

section
/-! Results lane by lane (R172, R173): a register just written stands in one of the first rows of its cache, dirty and unique, so that the
writes of its pair's other register and of other lanes do not displace it. No order of the cache before is asked. -/

namespace Sys2Proof.Proofs

open Sys2Proof.Machine Sys2Proof.Claims Sys2Proof.Laws

/-- A row among the first `n + 1` of its cache, the only one of its register, dirty and alive, which holds `w` for the lane. -/
def RecentRow (rows : List RcRow) (n reg lane : Nat) (w : W32) : Prop :=
  ∃ pre r post, rows = pre ++ r :: post ∧ pre.length ≤ n ∧ (∀ x ∈ pre ++ post, x.reg ≠ reg) ∧ r.reg = reg ∧ r.dirty = true ∧ r.dead = false
    ∧ smapFind r.lanes lane = some w

/-- Such a row in the cache of a slot. -/
def Recent (s : State) (core slot n reg lane : Nat) (w : W32) : Prop := RecentRow (cacheRows s core slot) n reg lane w

section
variable {rows : List RcRow} {n reg lane : Nat} {w : W32}

theorem RecentRow.find (h : RecentRow rows n reg lane w) :
    ∃ r, rows.find? (fun x => x.reg == reg) = some r ∧ r.reg = reg ∧ smapFind r.lanes lane = some w := by
  obtain ⟨pre, r, post, rfl, -, others, rfl, -, -, lanes⟩ := h
  refine ⟨r, ?_, rfl, lanes⟩
  rw [List.find?_append, List.find?_eq_none.mpr (fun x hx => by simpa using others x (List.mem_append_left _ hx)), Option.none_or,
    List.find?_cons_of_pos (by simp)]

/-- Rows taken out that are not of the register leave it among the first. -/
theorem RecentRow.filter (h : RecentRow rows n reg lane w) {p : RcRow → Bool} (hp : ∀ r, r.reg = reg → p r = true) :
    RecentRow (rows.filter p) n reg lane w := by
  obtain ⟨pre, r, post, rfl, len, others, hreg, rest⟩ := h
  refine ⟨pre.filter p, r, post.filter p, ?_, (List.length_filter_le ..).trans len, fun x hx => others x ?_, hreg, rest⟩
  · rw [List.filter_append, List.filter_cons_of_pos (hp r hreg)]
  · rw [← List.filter_append] at hx
    exact List.mem_of_mem_filter hx

theorem RecentRow.cons (h : RecentRow rows n reg lane w) {r : RcRow} (hr : r.reg ≠ reg) : RecentRow (r :: rows) (n + 1) reg lane w := by
  obtain ⟨pre, x, post, rfl, len, others, rest⟩ := h
  refine ⟨r :: pre, x, post, rfl, Nat.succ_le_succ len, fun y hy => ?_, rest⟩
  rcases List.mem_cons.mp hy with rfl | hy
  · exact hr
  · exact others y hy

theorem RecentRow.mono (h : RecentRow rows n reg lane w) {m : Nat} (hm : n ≤ m) : RecentRow rows m reg lane w := by
  obtain ⟨pre, x, post, e, len, rest⟩ := h
  exact ⟨pre, x, post, e, len.trans hm, rest⟩

/-- The entry replaced is not the register's: that one is neither dead nor clean, nor the last of 8. -/
theorem RecentRow.not_victim (h : RecentRow rows n reg lane w) (hn : n + 1 < rows.length) {v : RcRow} (hv : rcVictim rows = some v) :
    v.reg ≠ reg := by
  obtain ⟨pre, r, post, rfl, len, others, -, dirty, alive, -⟩ := h
  intro hreg
  have only : v = r := by
    rcases List.mem_append.mp (rcVictim_mem hv) with m | m
    · exact absurd hreg (others v (List.mem_append_left _ m))
    · rcases List.mem_cons.mp m with e | m
      · exact e
      · exact absurd hreg (others v (List.mem_append_right _ m))
  subst only
  unfold rcVictim at hv
  dsimp only at hv
  split at hv
  · rename_i found
    cases hv
    exact Bool.false_ne_true (alive.symm.trans (List.find?_some found))
  · split at hv
    · rename_i found
      cases hv
      have := List.find?_some found
      rw [dirty] at this
      exact Bool.false_ne_true this
    · have last : (pre ++ v :: post).getLast? = some v := by rwa [List.head?_reverse] at hv
      rw [List.getLast?_append_of_ne_nil _ (by simp)] at last
      have more : post ≠ [] := by
        rintro rfl
        simp at hn
        omega
      rw [List.getLast?_cons_of_ne_nil more] at last
      exact others v (List.mem_append_right _ (List.mem_of_getLast? last)) hreg

end

section
variable {s : State} {core slot : Nat}

/-- Placing a row puts it in front of rows of its cache that are not of its register, all of them or all but those of one victim. -/
theorem cacheRows_rcPlace (row : RcRow) : let rows := (cacheRows s core slot).filter (fun r => r.reg != row.reg)
    (rows.length < 8 ∧ cacheRows (rcPlace s core slot row) core slot = row :: rows)
      ∨ ∃ v, 8 ≤ rows.length ∧ rcVictim rows = some v ∧ cacheRows (rcPlace s core slot row) core slot = row :: rows.filter (fun r => r.reg != v.reg) := by
  intro rows
  by_cases few : rows.length < 8
  · refine .inl ⟨few, ?_⟩
    have placed : rcPlace s core slot row = setRc s core slot (row :: rows) := if_pos few
    rw [placed, cacheRows_setRc]
  · have some_rows : rows ≠ [] := fun e => few (by rw [e]; decide)
    obtain ⟨v, hv⟩ := Option.isSome_iff_exists.mp (rcVictim_isSome some_rows)
    refine .inr ⟨v, by omega, hv, ?_⟩
    have placed : rcPlace s core slot row
        = setRc (if v.dirty && !v.dead then writeBackRow s core slot v else s) core slot (row :: rows.filter (fun r => r.reg != v.reg)) := by
      refine (if_neg few).trans ?_
      show (match rcVictim rows with | none => _ | some v => _) = _
      rw [hv]
      rfl
    rw [placed, cacheRows_setRc]

variable {reg mask lane : Nat} {f : Nat → W32} {w : W32}

theorem regRead_of_recent {n : Nat} (h : Recent s core slot n reg lane w) : regRead s core slot reg lane = w := by
  obtain ⟨r, found, -, lanes⟩ := h.find
  rw [regRead_eq_rowsRead, rowsRead, found, Option.bind_some, lanes, Option.getD_some]

theorem recent_rcPlace {row : RcRow} (hd : row.dirty = true) (ha : row.dead = false) (hw : smapFind row.lanes lane = some w) :
    Recent (rcPlace s core slot row) core slot 0 row.reg lane w := by
  rcases cacheRows_rcPlace (s := s) (core := core) (slot := slot) row with ⟨-, e⟩ | ⟨v, -, -, e⟩
  · refine ⟨[], row, _, e, Nat.le_refl 0, fun x hx => ?_, rfl, hd, ha, hw⟩
    simpa using (List.mem_filter.mp hx).2
  · refine ⟨[], row, _, e, Nat.le_refl 0, fun x hx => ?_, rfl, hd, ha, hw⟩
    simpa using (List.mem_filter.mp (List.mem_filter.mp hx).1).2

/-- A lane written. -/
theorem recent_regWrite (hr : reg < 64) (hl : lane < 32) (hm : mask.testBit lane = true) :
    Recent (regWrite s core slot reg mask f) core slot 0 reg lane (f lane) := by
  have placed := recent_rcPlace (s := s) (core := core) (slot := slot) (row := resultRow s core slot reg mask f) (lane := lane) (w := f lane)
    rfl rfl (by rw [smapFind_resultRow hl, if_pos hm])
  rwa [resultRow_reg hr, ← regWrite_eq] at placed

/-- A lane written stays when others of the register are. -/
theorem recent_regWrite_lane {n : Nat} (hr : reg < 64) (hl : lane < 32) (hm : mask.testBit lane = false) (h : Recent s core slot n reg lane w) :
    Recent (regWrite s core slot reg mask f) core slot 0 reg lane w := by
  obtain ⟨r, found, -, lanes⟩ := h.find
  have row : rowOf s core slot reg = r := by
    rw [rowOf, rcFind]
    exact (congrArg (Option.getD · _) found).trans (Option.getD_some ..)
  have placed := recent_rcPlace (s := s) (core := core) (slot := slot) (row := resultRow s core slot reg mask f) (lane := lane) (w := w)
    rfl rfl (by rw [smapFind_resultRow hl, if_neg (by simp [hm]), row, lanes])
  rwa [resultRow_reg hr, ← regWrite_eq] at placed

/-- A lane written stays when another register is, a few times. -/
theorem recent_regWrite_other {n reg' : Nat} (hn : n ≤ 6) (hr : reg' < 64) (hne : reg' ≠ reg) (h : Recent s core slot n reg lane w) :
    Recent (regWrite s core slot reg' mask f) core slot (n + 1) reg lane w := by
  have row : (resultRow s core slot reg' mask f).reg = reg' := resultRow_reg hr
  have kept := RecentRow.filter h (p := fun r => r.reg != (resultRow s core slot reg' mask f).reg) (fun r e => by simpa [row, e] using Ne.symm hne)
  rw [Recent, regWrite_eq]
  rcases cacheRows_rcPlace (s := s) (core := core) (slot := slot) (resultRow s core slot reg' mask f) with ⟨-, e⟩ | ⟨v, many, victim, e⟩
  · rw [e]
    exact kept.cons (by rwa [row])
  · rw [e]
    have other := kept.not_victim (by omega) victim
    exact (kept.filter (fun r e => by simpa [e] using Ne.symm other)).cons (by rwa [row])

/-! A value of one lane, in one register or a pair. -/

/-- What a lane's value leaves in its register, and in the pair's other register where it has 64 bits. -/
def LaneSet (s : State) (core slot dst width lane v : Nat) : Prop :=
  Recent s core slot 1 dst lane (BitVec.ofNat 32 v) ∧ (width = 8 → Recent s core slot 1 (dst + 1) lane (BitVec.ofNat 32 (v / 2 ^ 32)))

theorem testBit_two_pow_ne {a b : Nat} (h : a ≠ b) : (2 ^ a).testBit b = false := by
  rw [Nat.testBit_two_pow]
  exact decide_eq_false h

variable {dst width v : Nat}

theorem laneSet_putVal (hd : dst < 63) (hl : lane < 32) : LaneSet (putVal s core slot dst width lane v) core slot dst width lane v := by
  unfold putVal
  split
  · rename_i wide
    rw [regWrite64]
    exact ⟨recent_regWrite_other (by decide) (by omega) (by omega) (recent_regWrite (by omega) hl (Nat.testBit_two_pow_self ..)),
      fun _ => (recent_regWrite (by omega) hl (Nat.testBit_two_pow_self ..)).mono (by decide)⟩
  · rename_i narrow
    exact ⟨(recent_regWrite (by omega) hl (Nat.testBit_two_pow_self ..)).mono (by decide), fun e => absurd e narrow⟩

theorem laneSet_putVal_ne {lane' v' : Nat} (hd : dst < 63) (hl : lane < 32) (hne : lane' ≠ lane) (h : LaneSet s core slot dst width lane v) :
    LaneSet (putVal s core slot dst width lane' v') core slot dst width lane v := by
  obtain ⟨low, high⟩ := h
  have off : (2 ^ lane').testBit lane = false := testBit_two_pow_ne hne
  unfold putVal
  split
  · rename_i wide
    rw [regWrite64]
    exact ⟨recent_regWrite_other (by decide) (by omega) (by omega) (recent_regWrite_lane (by omega) hl off low),
      fun _ => (recent_regWrite_lane (by omega) hl off (recent_regWrite_other (by decide) (by omega) (by omega) (high wide))).mono (by decide)⟩
  · rename_i narrow
    exact ⟨(recent_regWrite_lane (by omega) hl off low).mono (by decide), fun e => absurd e narrow⟩

/-- Values put lane after lane. -/
def putVals (s : State) (core slot dst width : Nat) (vals : List (Nat × Nat)) : State :=
  vals.foldl (fun s lv => putVal s core slot dst width lv.1 lv.2) s

theorem laneSet_putVals_ne (hd : dst < 63) (hl : lane < 32) {vals : List (Nat × Nat)} (hne : ∀ lv ∈ vals, lv.1 ≠ lane) (s : State)
    (h : LaneSet s core slot dst width lane v) : LaneSet (putVals s core slot dst width vals) core slot dst width lane v := by
  induction vals generalizing s with
  | nil => exact h
  | cons x vals ih =>
    obtain ⟨hx, hne⟩ := List.forall_mem_cons.mp hne
    exact ih hne _ (laneSet_putVal_ne hd hl hx h)

/-- Each lane holds its own value once all are put. -/
theorem laneSet_putVals (hd : dst < 63) {lanes : List Nat} (nodup : lanes.Nodup) (g : Nat → Nat) (hl : lane < 32) (hm : lane ∈ lanes) (s : State) :
    LaneSet (putVals s core slot dst width (lanes.map (fun l => (l, g l)))) core slot dst width lane (g lane) := by
  induction lanes generalizing s with
  | nil => cases hm
  | cons x lanes ih =>
    rw [List.nodup_cons] at nodup
    by_cases e : lane = x
    · subst e
      have others : ∀ lv ∈ lanes.map (fun l => (l, g l)), lv.1 ≠ lane := by
        simp only [List.forall_mem_map]
        exact fun l hl e => nodup.1 (e ▸ hl)
      exact laneSet_putVals_ne hd hl others (putVal s core slot dst width lane (g lane)) (laneSet_putVal hd hl)
    · exact ih nodup.2 ((List.mem_cons.mp hm).resolve_left e) _

theorem operandsOnly_putVal (s : State) (core slot dst width lane v : Nat) : OperandsOnly s (putVal s core slot dst width lane v) := by
  unfold putVal
  split
  · exact (operandsOnly_regWrite ..).trans (operandsOnly_regWrite ..)
  · exact operandsOnly_regWrite ..

theorem operandsOnly_putVals (s : State) (core slot dst width : Nat) (vals : List (Nat × Nat)) :
    OperandsOnly s (putVals s core slot dst width vals) := by
  induction vals generalizing s with
  | nil => exact ⟨_, _, _, rfl⟩
  | cons x vals ih => exact (operandsOnly_putVal ..).trans (ih _)

theorem frame_putVals (s : State) (core slot dst width : Nat) (vals : List (Nat × Nat)) : Frame 32 0 s (putVals s core slot dst width vals) :=
  (Frame.refl _ _ s).foldl (fun _ _ h => h.step (frame_putVal ..) rfl rfl)

/-- Narrow values put for some lanes change no other register, and keep the cache in order. -/
theorem putVals_keeps (hs : slot < 128) (hd : dst < 64) (narrow : width ≠ 8) (vals : List (Nat × Nat)) (s : State) (ok : CacheOk s core slot) :
    (∀ c sl r l, sl < 128 → r < 64 → l < 32 → ¬(c = core ∧ sl = slot ∧ r = dst ∧ l ∈ vals.map Prod.fst) →
      regRead (putVals s core slot dst width vals) c sl r l = regRead s c sl r l)
    ∧ CacheOk (putVals s core slot dst width vals) core slot := by
  induction vals generalizing s with
  | nil => exact ⟨fun _ _ _ _ _ _ _ _ => rfl, ok⟩
  | cons x vals ih =>
    have one : putVal s core slot dst width x.1 x.2 = regWrite s core slot dst (2 ^ x.1) (fun _ => BitVec.ofNat 32 x.2) := if_neg narrow
    obtain ⟨regs, ok'⟩ := ih (putVal s core slot dst width x.1 x.2) (one ▸ cacheOk_regWrite hs hd ok)
    refine ⟨fun c sl r l hsl hr hl hne => ?_, ok'⟩
    rw [List.map_cons, List.mem_cons] at hne
    refine (regs c sl r l hsl hr hl (fun k => hne ⟨k.1, k.2.1, k.2.2.1, .inr k.2.2.2⟩)).trans ?_
    rw [one]
    refine regRead_regWrite_other hs hd ok hsl hr hl (fun k => hne ⟨k.1, k.2.1, k.2.2.1, .inl ?_⟩)
    have bit := k.2.2.2
    rw [Nat.testBit_two_pow] at bit
    exact (of_decide_eq_true bit).symm

end

end Sys2Proof.Proofs
end

section
/-! Scratchpad bytes (R243): what reads give after writes, and little-endian numbers of `n` bytes. -/

namespace Sys2Proof.Proofs

open Sys2Proof.Machine Sys2Proof.Claims Sys2Proof.Laws

@[simp] theorem length_leBytes (n x : Nat) : (leBytes n x).length = n := by
  induction n generalizing x with
  | zero => rfl
  | succ n ih => simp [leBytes, ih]

theorem leNat_lt (bs : List Byte) : leNat bs < 256 ^ bs.length := by
  induction bs with
  | nil => decide
  | cons b bs ih =>
    have := b.isLt
    rw [leNat, List.length_cons, Nat.pow_succ]
    omega

@[simp] theorem length_tabulate {α : Type} (n : Nat) (f : Nat → α) : (tabulate n f).length = n := by simp [tabulate]

theorem getElem?_tabulate {α : Type} (n : Nat) (f : Nat → α) (i : Nat) : (tabulate n f)[i]? = if i < n then some (f i) else none := by
  by_cases h : i < n <;> simp [tabulate, h]

/-- A list is its own entries in order. -/
theorem tabulate_eq {α : Type} {n : Nat} {f : Nat → α} {l : List α} (hl : l.length = n) (h : ∀ i, i < n → l[i]? = some (f i)) : tabulate n f = l := by
  apply List.ext_getElem?
  intro i
  rw [getElem?_tabulate]
  by_cases hi : i < n
  · rw [if_pos hi, h i hi]
  · rw [if_neg hi, List.getElem?_eq_none (by omega)]

theorem length_sramRead (s : State) (core a n : Nat) : (sramRead s core a n).length = n := length_tabulate ..

section
variable (c : Cores) (k : Nat)

theorem smapFind_set_ne {m : SMap Byte} {a b : Nat} (v : Byte) (h : b ≠ a) : smapFind (smapSet m 0 a v) b = smapFind m b := by
  unfold smapSet
  split
  · rw [smapFind_erase, if_neg h]
  · rw [smapFind_insert, if_neg h]

theorem smapFind_sramSet_ne {a : Nat} (b : Byte) (h : a ≠ k) : smapFind (sramSet c k b).sram a = smapFind c.sram a := by
  unfold sramSet
  dsimp only
  split
  · exact smapFind_set_ne b h
  · rw [smapFind_insert, if_neg h]

theorem sramAt_sramSet (b : Byte) (a : Nat) : sramAt (sramSet c k b) a = if a = k then b else sramAt c a := by
  have marks : ∀ a, sramDefault (sramSet c k b) a = sramDefault c a := fun _ => rfl
  by_cases h : a = k
  · subst h
    rw [if_pos rfl, sramAt, marks]
    unfold sramSet
    dsimp only
    split
    · rename_i known
      have zero : sramDefault c a = 0 := by rw [sramDefault, if_pos known]
      rw [zero]
      exact (smapGet_set c.sram 0 a a b).trans (if_pos rfl)
    · rw [smapFind_insert, if_pos rfl, Option.getD_some]
  · rw [if_neg h, sramAt, smapFind_sramSet_ne c k b h, marks, sramAt]

/-- Bytes written from a key on: each key past the first reads its byte, every other as before. -/
theorem sramAt_sramPut (bs : List Byte) (a : Nat) :
    sramAt (sramPut c k bs) a = if k ≤ a ∧ a < k + bs.length then bs.getD (a - k) 0 else sramAt c a := by
  induction bs generalizing c k with
  | nil => rw [if_neg (by simp), sramPut]
  | cons b bs ih =>
    rw [sramPut, ih, sramAt_sramSet]
    by_cases first : a = k
    · subst first
      rw [if_neg (by omega), if_pos rfl, if_pos (by simp), Nat.sub_self]
      rfl
    · rw [if_neg first]
      by_cases inside : k + 1 ≤ a ∧ a < k + 1 + bs.length
      · rw [if_pos inside, if_pos (by simp only [List.length_cons]; omega), show a - k = (a - (k + 1)) + 1 by omega, List.getD_cons_succ]
      · rw [if_neg inside, if_neg (by simp only [List.length_cons]; omega)]

theorem smapGet_sramPut_ne {bs : List Byte} {a : Nat} (h : ∀ i, i < bs.length → a ≠ k + i) :
    smapGet (sramPut c k bs).sram 0 a = smapGet c.sram 0 a := by
  induction bs generalizing c k with
  | nil => rfl
  | cons b bs ih =>
    have first : a ≠ k := h 0 (by simp)
    rw [sramPut, ih _ _ (fun i hi e => h (i + 1) (by simpa using hi) (by omega)), smapGet, smapFind_sramSet_ne c k b first, smapGet]

theorem sramPut_eq (bs : List Byte) : ∃ m, sramPut c k bs = { c with sram := m } := by
  induction bs generalizing c k with
  | nil => exact ⟨_, rfl⟩
  | cons b bs ih =>
    obtain ⟨m, e⟩ := ih (sramSet c k b) (k + 1)
    exact ⟨m, by rw [sramPut, e, sramSet]⟩

end

section
variable {s : State} {core a : Nat} {bs : List Byte}

theorem sramByte_sramWrite (x : Nat) : sramByte (sramWrite s core a bs) core x = if a ≤ x ∧ x < a + bs.length then bs.getD (x - a) 0 else sramByte s core x := by
  show sramAt (sramPut s.core (sramKey core a) bs) (sramKey core x) = _
  rw [sramAt_sramPut, sramByte]
  unfold sramKey
  by_cases h : a ≤ x ∧ x < a + bs.length
  · rw [if_pos h, if_pos (by omega), show core * 2097152 + x - (core * 2097152 + a) = x - a by omega]
  · rw [if_neg h, if_neg (by omega)]

/-- Bytes written read as written. -/
theorem sramRead_sramWrite_same {n : Nat} (hn : bs.length = n) : sramRead (sramWrite s core a bs) core a n = bs := by
  refine tabulate_eq hn (fun i hi => ?_)
  rw [sramByte_sramWrite, if_pos (by omega), Nat.add_sub_cancel_left, List.getD_eq_getElem?_getD, List.getElem?_eq_getElem (by omega), Option.getD_some]

/-- Bytes apart from those written read as before. -/
theorem sramRead_sramWrite_apart {x n : Nat} (h : ∀ i j, i < n → j < bs.length → x + i ≠ a + j) :
    sramRead (sramWrite s core a bs) core x n = sramRead s core x n := by
  refine List.map_congr_left (fun i hi => ?_)
  have hi := List.mem_range.mp hi
  rw [sramByte_sramWrite, if_neg]
  rintro ⟨low, high⟩
  exact h i (x + i - a) hi (by omega) (by omega)

theorem sramRead_congr {t : State} (h : ∀ k, sramAt t.core k = sramAt s.core k) (core a n : Nat) : sramRead t core a n = sramRead s core a n :=
  List.map_congr_left (fun _ _ => h _)

end

end Sys2Proof.Proofs
end

section
/-! Halts (R209 to R211, R428): a context that runs or is suspended is HALTED, and the record keeps the first halt. -/

namespace Sys2Proof.Proofs

open Sys2Proof.Machine Sys2Proof.Claims Sys2Proof.Laws

/-- The end of a context that runs or is suspended (R428). -/
theorem ctxState_endContext {s : State} {c : Nat} (h : s.ctxState c = 1 ∨ s.ctxState c = 2) (own : Option (Nat × Nat × Nat × Nat)) (reason : Nat) :
    (endContext s c own reason).ctxState c = 3 := by
  have alive : (decide (s.ctxState c = 1) || decide (s.ctxState c = 2)) = true := by simpa using h
  have ended : ((s.put F.ctxState_STATE 3 c).put F.ctxState_SUSPENDING 0 c).get F.ctxState_STATE c = 3 :=
    (State.get_put_bits _ 0 c 0 c 0 rfl rfl (by decide)).trans (State.get_put_same s 3 c 0 rfl)
  rw [endContext, if_pos alive]
  exact ((frame_abortFerriesOf _ c reason).get F.ctxState_STATE rfl c).trans
    (((frame_endEntries _ c own false).get F.ctxState_STATE rfl c).trans
      (((frame_endJobs _ c).get F.ctxState_STATE rfl c).trans
        (((frame_endRunning _ c).get F.ctxState_STATE rfl c).trans (((frame_State_setCtxRec _ c _).get F.ctxState_STATE rfl c).trans ended))))

/-- The record's fields of a first halt (R210). -/
theorem get_haltRecord (s : State) (c reason info : Nat) (i : Option IssuedAt) :
    (haltRecord s c reason info i).get F.coreHaltA_REASON c = reason % 2 ^ 8 ∧ (haltRecord s c reason info i).get F.coreHaltD_INFO c = info % 2 ^ 64 := by
  unfold haltRecord
  dsimp only
  constructor
  · rw [State.get_put_reg _ _ _ _ _ _ (by decide), State.get_put_reg _ _ _ _ _ _ (by decide), State.get_put_reg _ _ _ _ _ _ (by decide),
      State.get_put_reg _ _ _ _ _ _ (by decide), State.get_put_reg _ _ _ _ _ _ (by decide), State.get_put_bits _ _ _ _ _ _ rfl rfl (by decide),
      State.get_put_bits _ _ _ _ _ _ rfl rfl (by decide), State.get_put_bits _ _ _ _ _ _ rfl rfl (by decide),
      State.get_put_bits _ _ _ _ _ _ rfl rfl (by decide), State.get_put_same _ _ _ _ rfl]
    rfl
  · rw [State.get_put_same _ _ _ _ rfl]
    rfl

/-- A halt: the context ends, the first halt fills the record, a later one marks it (R211). -/
theorem haltsWith_halt {s : State} {c reason : Nat} (h : s.ctxState c = 1 ∨ s.ctxState c = 2) (hr : reason < 256) (info : Nat)
    (i : Option IssuedAt) (qe : Option (Nat × Nat)) : HaltsWith s (halt s c reason info i qe) c reason info := by
  have kept (t : State) (f : Fld) (own : Option (Nat × Nat × Nat × Nat))
      (hf : Nat.testBit 127606560192934678845738875410987356160 f.reg.ctorIdx = false) : (endContext t c own).get f c = t.get f c :=
    (frame_endContext t c own 0x22).get f hf c
  unfold halt
  dsimp only
  by_cases first : s.get F.coreHaltA_REASON c = 0
  · rw [if_pos first]
    obtain ⟨reasonIs, infoIs⟩ := get_haltRecord s c reason info i
    refine ⟨ctxState_endContext ?_ _ _, fun _ => ⟨?_, ?_⟩, fun later => absurd first later⟩
    · rw [State.ctxState, (frame_post ..).get F.ctxState_STATE rfl c, (frame_haltRecord ..).get F.ctxState_STATE rfl c]
      exact h
    · exact (kept _ F.coreHaltA_REASON _ rfl).trans (((frame_post ..).get F.coreHaltA_REASON rfl c).trans (reasonIs.trans (Nat.mod_eq_of_lt hr)))
    · exact (kept _ F.coreHaltD_INFO _ rfl).trans (((frame_post ..).get F.coreHaltD_INFO rfl c).trans infoIs)
  · rw [if_neg first]
    refine ⟨ctxState_endContext ?_ _ _, fun e => absurd e first, fun _ => ⟨?_, ?_⟩⟩
    · rw [State.ctxState, State.get_put_reg _ _ _ _ _ _ (by decide)]
      exact h
    · exact (kept _ F.coreHaltA_REASON _ rfl).trans (State.get_put_bits _ _ _ _ _ _ rfl rfl (by decide))
    · rw [State.isSet, kept _ F.coreHaltA_MULTIPLE _ rfl]
      exact isSet_put_one s c rfl

section
variable {s u : State} {a : At} {t : Th}

/-- The context of a thread that issues runs. -/
theorem ctxState_of_issues (h : Issues s a t u) : u.ctxState t.c = 1 := by
  obtain ⟨r, hr⟩ := thread?_eq_some.mp h.thread
  have may := hr.may
  simp only [Bool.and_eq_true, State.ctxRuns, beq_iff_eq] at may
  have same : u.ctxState t.c = s.ctxState t.c := by
    rw [State.ctxState, State.get, (issues_frame h).1.word _ (by decide)]
    rfl
  exact same.trans may.1.1.2.1

theorem haltsWith_haltTh (h : Issues s a t u) {reason : Nat} (hr : reason < 256) (info : Nat) : HaltsWith u (haltTh u t reason info) t.c reason info :=
  haltsWith_halt (.inl (ctxState_of_issues h)) hr info _ _

end

end Sys2Proof.Proofs
end

section
/-! Lines of a core's Grotto cache under acquires, stores and fills (R220, R247, R248, R252). -/

namespace Sys2Proof.Proofs

open Sys2Proof.Machine Sys2Proof.Claims Sys2Proof.Laws

/-! What is not dirty dropped. -/

/-- A line with its dirty bytes alone. -/
def dirtyPart (l : GrottoLine) : GrottoLine := { l with bytes := l.bytes.filter (fun kv => l.dirty.contains kv.1) }

@[simp] theorem dirtyPart_core (l : GrottoLine) : (dirtyPart l).core = l.core := rfl

/-- Nothing of a clean line is dirty. -/
@[simp] theorem dirtyPart_cleanLine (l : GrottoLine) : (dirtyPart (cleanLine l)).bytes = [] := by simp [dirtyPart, cleanLine]

/-- The lines once those of a core that a test picks have lost what is not dirty in them. -/
def dropClean (core : Nat) (p : GrottoLine → Bool) (gl : List GrottoLine) : List GrottoLine :=
  (gl.map (fun l => if (decide (l.core = core) && p l) = true then dirtyPart l else l)).filter (fun l => l.core != core || !l.bytes.isEmpty)

theorem glInvClean_core (s : State) (core : Nat) (p : GrottoLine → Bool) :
    (glInvClean s core p).core = withLines s.core (dropClean core p s.core.gl) := setGl_core ..

theorem acquireWide_core (s : State) (core : Nat) :
    ∃ reqs, (acquireWide s core).core = { s.core with lreq := reqs, gl := dropClean core (fun _ => true) s.core.gl } := by
  refine ⟨(shutReqs s core 3).core.lreq, ?_⟩
  unfold acquireWide dropClean
  simp only [Bool.and_true, decide_eq_true_eq]
  rfl

theorem acquireWide_gl (s : State) (core : Nat) : (acquireWide s core).core.gl = dropClean core (fun _ => true) s.core.gl := by
  obtain ⟨reqs, e⟩ := acquireWide_core s core
  rw [e]

section
variable {core : Nat} {p : GrottoLine → Bool} {gl : List GrottoLine} {l : GrottoLine}

theorem mem_dropClean_of_kept (hl : l ∈ gl) (hb : l.bytes ≠ []) (hp : l.core ≠ core ∨ p l = false) : l ∈ dropClean core p gl := by
  refine List.mem_filter.mpr ⟨List.mem_map.mpr ⟨l, hl, if_neg ?_⟩, by simp [hb]⟩
  rcases hp with h | h <;> simp [h]

/-- A line of the core that the test picks keeps its dirty bytes, where it has any. -/
theorem mem_dropClean_of_dirty (hl : l ∈ gl) (hc : l.core = core) (hp : p l = true) (hb : (dirtyPart l).bytes ≠ []) :
    dirtyPart l ∈ dropClean core p gl := by
  refine List.mem_filter.mpr ⟨List.mem_map.mpr ⟨l, hl, if_pos (by simp [hc, hp])⟩, ?_⟩
  simp [hb]

/-- A line that is left and that the test picks: its bytes are dirty, and not none. -/
theorem dirty_of_mem_dropClean (hl : l ∈ dropClean core p gl) (hc : l.core = core) (hp : p l = true) :
    (∀ kv ∈ l.bytes, l.dirty.contains kv.1 = true) ∧ l.bytes ≠ [] ∧ ∃ x ∈ gl, x.dirty = l.dirty ∧ x.core = core ∧ p x = true := by
  obtain ⟨hm, hne⟩ := List.mem_filter.mp hl
  obtain ⟨x, hx, e⟩ := List.mem_map.mp hm
  have picked : (decide (x.core = core) && p x) = true := by
    split at e
    · assumption
    · subst e
      simp [hc, hp]
  rw [if_pos picked] at e
  subst e
  simp only [Bool.and_eq_true, decide_eq_true_eq] at picked
  exact ⟨fun kv hkv => (List.mem_filter.mp hkv).2, by simpa [picked.1] using hne, x, hx, rfl, picked.1, picked.2⟩

theorem filter_dropClean (core : Nat) (p : GrottoLine → Bool) (gl : List GrottoLine) :
    (dropClean core p gl).filter (fun l => l.core != core) = gl.filter (fun l => l.core != core) := by
  unfold dropClean
  rw [List.filter_filter]
  induction gl with
  | nil => rfl
  | cons l gl ih =>
    by_cases h : l.core = core
    · cases hp : p l <;> simpa [h, hp] using ih
    · simpa [h] using ih

/-- An acquire leaves just the dirty bytes of the core's lines (R220). -/
theorem acquiredAt_of_gl {u v : State} (h : v.core.gl = dropClean core (fun _ => true) u.core.gl) : AcquiredAt u v core := by
  unfold AcquiredAt
  rw [h]
  refine ⟨fun l hl hc => (dirty_of_mem_dropClean hl hc rfl).1, filter_dropClean .., fun l hl hc kv hkv dirty => ?_⟩
  have held : kv ∈ (dirtyPart l).bytes := List.mem_filter.mpr ⟨hkv, dirty⟩
  exact ⟨dirtyPart l, mem_dropClean_of_dirty hl hc rfl (List.ne_nil_of_mem held), hc, rfl, rfl, held⟩

/-- Written back and then acquired, a core's lines are gone (R219, R220). -/
theorem dropClean_writtenBack (u : State) (core : Nat) :
    dropClean core (fun _ => true) (writtenBack u core) = u.core.gl.filter (fun l => l.core != core) := by
  unfold dropClean writtenBack
  induction u.core.gl with
  | nil => rfl
  | cons l gl ih =>
    change List.filter _ (List.map _ (List.map (fun l => if l.core = core then cleanLine l else l) gl)) = _ at ih
    change List.filter _ (List.map _ (List.map (fun l => if l.core = core then cleanLine l else l) (l :: gl))) = _
    by_cases h : l.core = core
    · have clean : (cleanLine l).core = core := h
      simpa [h, clean] using ih
    · simpa [h] using ih

end

/-! Finding a line. -/

/-- Whether a line is the one of an address in a core's cache. -/
def lineAt (core a : Nat) (host : Bool) (l : GrottoLine) : Bool := l.core == core && l.addr == a / 128 * 128 && l.host == host

theorem glFind_eq (s : State) (core a : Nat) (host : Bool) : glFind s core a host = s.core.gl.find? (lineAt core a host) := rfl

theorem glFind_congr {s t : State} (h : t.core.gl = s.core.gl) (core a : Nat) (host : Bool) : glFind t core a host = glFind s core a host := by
  rw [glFind_eq, glFind_eq, h]

/-- A found line changed in place, its place in the cache kept, is found. -/
theorem find_updWhere {gl : List GrottoLine} {q : GrottoLine → Bool} {l : GrottoLine} {f : GrottoLine → GrottoLine} (h : gl.find? q = some l)
    (hf : q (f l) = true) : (updWhere gl (fun x => x == l) f).find? q = some (f l) := by
  induction gl with
  | nil => simp at h
  | cons x gl ih =>
    rw [List.find?_cons] at h
    simp only [updWhere, List.map_cons, beq_iff_eq] at ih ⊢
    split at h
    · cases h
      rw [if_pos rfl, List.find?_cons_of_pos hf]
    · rename_i hx
      have other : x ≠ l := by
        rintro rfl
        exact Bool.false_ne_true (hx.symm.trans (List.find?_some h))
      rw [if_neg other, List.find?_cons_of_neg (by simp [hx]), ih h]

/-! Bytes stored. -/

theorem mem_setInsert_self (m : List Nat) (a : Nat) : a ∈ setInsert m a := by
  induction m with
  | nil => simp [setInsert]
  | cons k m ih =>
    unfold setInsert
    split
    · simp [*]
    · split <;> simp [ih]

theorem mem_setInsert_of_mem {m : List Nat} {b : Nat} (a : Nat) (h : b ∈ m) : b ∈ setInsert m a := by
  induction m with
  | nil => cases h
  | cons k m ih =>
    unfold setInsert
    split
    · exact h
    · split
      · exact List.mem_cons_of_mem _ h
      · rcases List.mem_cons.mp h with rfl | h
        · exact List.mem_cons_self ..
        · exact List.mem_cons_of_mem _ (ih h)

/-- A line with bytes stored from offset `o + n` on: valid and dirty (R248). -/
def storedLine (o n : Nat) (bs : List Byte) (l : GrottoLine) : GrottoLine :=
  (bs.zipIdx n).foldl (fun l bi => { l with bytes := smapInsert l.bytes (o + bi.2) bi.1, dirty := setInsert l.dirty (o + bi.2) }) l

section
variable (o : Nat) (bs : List Byte) (n : Nat) (l : GrottoLine)

theorem lineAt_storedLine (core a : Nat) (host : Bool) : lineAt core a host (storedLine o n bs l) = lineAt core a host l := by
  induction bs generalizing n l with
  | nil => rfl
  | cons b bs ih => exact ih (n + 1) { l with bytes := smapInsert l.bytes (o + n) b, dirty := setInsert l.dirty (o + n) }

theorem storedLine_below {k : Nat} (hk : k < o + n) : smapFind (storedLine o n bs l).bytes k = smapFind l.bytes k
    ∧ (k ∈ l.dirty → k ∈ (storedLine o n bs l).dirty) := by
  induction bs generalizing n l with
  | nil => exact ⟨rfl, id⟩
  | cons b bs ih =>
    obtain ⟨bytes, dirty⟩ := ih (n + 1) { l with bytes := smapInsert l.bytes (o + n) b, dirty := setInsert l.dirty (o + n) } (by omega)
    refine ⟨bytes.trans ?_, fun h => dirty (mem_setInsert_of_mem _ h)⟩
    rw [smapFind_insert, if_neg (by omega)]

theorem storedLine_bytes {i : Nat} {b : Byte} (h : bs[i]? = some b) : smapFind (storedLine o n bs l).bytes (o + n + i) = some b
    ∧ o + n + i ∈ (storedLine o n bs l).dirty := by
  induction bs generalizing n l i with
  | nil => simp at h
  | cons x bs ih =>
    cases i with
    | zero =>
      obtain rfl : x = b := by simpa using h
      obtain ⟨bytes, dirty⟩ := storedLine_below o bs (n + 1) { l with bytes := smapInsert l.bytes (o + n) x, dirty := setInsert l.dirty (o + n) }
        (k := o + n + 0) (by omega)
      exact ⟨bytes.trans (by rw [smapFind_insert, if_pos (Nat.add_zero _)]), dirty (mem_setInsert_self ..)⟩
    | succ i =>
      have later := ih (n + 1) { l with bytes := smapInsert l.bytes (o + n) x, dirty := setInsert l.dirty (o + n) } (i := i) (by simpa using h)
      rwa [show o + (n + 1) + i = o + n + (i + 1) by omega] at later

end

/-! A way taken. -/

/-- Cores' storage that differs at most in Grotto lines and flags. -/
def LinesOnly (c d : Cores) : Prop := ∃ gl flags, d = { c with gl := gl, flags := flags }

theorem LinesOnly.trans {c d e : Cores} (h : LinesOnly c d) (g : LinesOnly d e) : LinesOnly c e := by
  obtain ⟨_, _, rfl⟩ := h
  obtain ⟨gl, flags, rfl⟩ := g
  exact ⟨gl, flags, rfl⟩

theorem linesOnly_withLines (c : Cores) (gl : List GrottoLine) : LinesOnly c (withLines c gl) := ⟨gl, c.flags, rfl⟩

theorem linesOnly_setGl (s : State) (core : Nat) (gl : List GrottoLine) : LinesOnly s.core (setGl s core gl).core := by
  rw [setGl_core]
  exact linesOnly_withLines ..

theorem glVictim_isSome (s : State) (core a mask : Nat) : (glVictim s core a mask).isSome
    = !(List.range (s.get F.coreGrottoStatus_CACHE_WAYS core)).all (fun w => !mask.testBit w) := by
  unfold glVictim
  dsimp only
  split
  · rename_i none
    rw [none]
    rfl
  · rename_i some
    rw [Bool.eq_false_of_not_eq_true some]
    rfl

theorem linesOnly_glVictim {s t : State} {core a mask w : Nat} (h : glVictim s core a mask = some (w, t)) : LinesOnly s.core t.core := by
  unfold glVictim at h
  dsimp only at h
  split at h
  · cases h
  · cases h
    refine LinesOnly.trans ?_ (linesOnly_setGl ..)
    rw [foldl_glWriteBack_core]
    exact LinesOnly.trans ⟨_, _, rfl⟩ (linesOnly_withLines ..)

/-- A store to a line that is held, or that finds a way: its bytes stand valid and dirty in the core's line (R248). -/
theorem glStore_holds {s : State} {core a mask : Nat} (rq : Rq) (bs : List Byte)
    (room : (glFind s core a false).isSome = true ∨ (glVictim s core a mask).isSome = true) :
    HoldsDirty (glStore s core a rq mask bs) core a bs ∧ LinesOnly s.core (glStore s core a rq mask bs).core := by
  have holds {t : State} {l : GrottoLine} (h : glFind t core a false = some (storedLine (a % 128) 0 bs l)) : HoldsDirty t core a bs := by
    refine ⟨_, h, fun i b hb => ?_⟩
    have stored := storedLine_bytes (a % 128) bs 0 l hb
    exact ⟨stored.1, by simpa using stored.2⟩
  unfold glStore
  dsimp only
  split
  · rename_i l found
    refine ⟨holds (l := { l with cls := rq.cls, reg := rq.reg, key := rq.key }) ?_, linesOnly_setGl ..⟩
    rw [glFind_eq, setGl_core, withLines_gl]
    have at_l : lineAt core a false l = true := List.find?_some found
    exact find_updWhere (f := fun x => storedLine (a % 128) 0 bs { x with cls := rq.cls, reg := rq.reg, key := rq.key }) found
      ((lineAt_storedLine ..).trans at_l)
  · rename_i absent
    rw [absent] at room
    obtain ⟨⟨w, t⟩, victim⟩ := Option.isSome_iff_exists.mp (room.resolve_left (by simp))
    rw [victim]
    refine ⟨holds (l := ⟨core, grottoSet a, w, a / 128 * 128, false, [], [], rq.cls, rq.reg, rq.key⟩) ?_,
      (linesOnly_glVictim victim).trans (linesOnly_setGl ..)⟩
    rw [glFind_eq, setGl_core, withLines_gl]
    refine List.find?_cons_of_pos ((lineAt_storedLine ..).trans ?_)
    simp [lineAt]

/-! A line filled. -/

/-- A fill of an absent line leaves the bytes fetched in it, or no line where no way may be taken (R247). -/
theorem glFill_absent {s : State} {core a mask : Nat} {host : Bool} (rq : Rq) (data : List Byte) (absent : glFind s core a host = none) :
    LinesOnly s.core (glFill s core a host rq mask data).core
      ∧ ∀ g, glFind (glFill s core a host rq mask data) core a host = some g → g.bytes = data.zipIdx.map (fun bi => (bi.2, bi.1)) := by
  have same : a / 128 * 128 / 128 * 128 = a / 128 * 128 := by omega
  have absent' : glFind s core (a / 128 * 128) host = none := by
    rw [glFind, same]
    exact absent
  unfold glFill
  dsimp only
  rw [absent']
  dsimp only
  cases victim : glVictim s core (a / 128 * 128) mask with
  | none => exact ⟨⟨_, _, rfl⟩, fun g hg => by rw [absent] at hg; cases hg⟩
  | some wt =>
    obtain ⟨w, t⟩ := wt
    refine ⟨(linesOnly_glVictim victim).trans (linesOnly_setGl ..), fun g hg => ?_⟩
    rw [glFind_eq, setGl_core, withLines_gl, List.find?_cons_of_pos (by simp [lineAt])] at hg
    cases hg
    rfl

end Sys2Proof.Proofs
end

section
/-! Loads, stores and atomics of the scratchpad (R157, R168, R223, R243). -/

namespace Sys2Proof.Proofs

open Sys2Proof.Machine Sys2Proof.Claims Sys2Proof.Laws

/-! What reading operands and going on leave. -/

section
variable {u w : State} {t : Th}

theorem mem_lanes {l : Nat} : l ∈ t.lanes ↔ l < 32 ∧ t.f.mask.testBit l = true := by
  simp [Th.lanes]

theorem lanes_pairwise (t : Th) : t.lanes.Pairwise (· < ·) := List.pairwise_lt_range.filter _

theorem lanes_nodup (t : Th) : t.lanes.Nodup := List.nodup_range.filter _

theorem sramAt_of_operandsOnly (h : OperandsOnly u w) (k : Nat) : sramAt w.core k = sramAt u.core k := by
  obtain ⟨_, _, _, rfl⟩ := h
  rfl

theorem sram_of_operandsOnly (h : OperandsOnly u w) : w.core.sram = u.core.sram := by
  obtain ⟨_, _, _, rfl⟩ := h
  rfl

theorem sramRead_of_operandsOnly (h : OperandsOnly u w) (core a n : Nat) : sramRead w core a n = sramRead u core a n :=
  sramRead_congr (sramAt_of_operandsOnly h) ..

theorem reg_goTo (w : State) (t : Th) (pc r l : Nat) : t.reg (goTo w t pc) r l = t.reg w r l := reg_congr (goTo_core ..) ..

theorem sramRead_goTo (w : State) (t : Th) (pc core a n : Nat) : sramRead (goTo w t pc) core a n = sramRead w core a n :=
  sramRead_congr (fun _ => by rw [goTo_core]) ..

/-- A lane's register as its value left it; the pair's other register holds the upper half. -/
theorem reg_of_laneSet {dst width l v : Nat} (h : LaneSet w t.core t.slot dst width l v) :
    t.reg w dst l = v % 2 ^ 32 ∧ (width = 8 → t.reg w (dst + 1) l = v / 2 ^ 32 % 2 ^ 32) := by
  obtain ⟨low, high⟩ := h
  constructor
  · rw [Th.reg, regRead_of_recent low, BitVec.toNat_ofNat]
  · intro wide
    rw [Th.reg, regRead_of_recent (high wide), BitVec.toNat_ofNat]

end

/-! Loads. -/

/-- What a load of the scratchpad gives a lane (R243). -/
def scratchVal (u : State) (t : Th) (acc : LoadAcc) (l : Nat) : Nat := leNat (sramRead u t.core (t.reg u acc.addr.reg l) acc.width)

/-- The state such a load leaves before its thread goes on. -/
def scratchLoaded (u : State) (t : Th) (acc : LoadAcc) : State :=
  putVals (touchAll u t [acc.addr]) t.core t.slot acc.dst acc.width (t.lanes.map (fun l => (l, scratchVal u t acc l)))

section
variable {s u : State} {a : At} {t : Th} {acc : LoadAcc}

theorem exec_load_scratch (h : Issues s a t u) (hw : widthOk acc.width = true) (hf : Free s t (loadUses acc)) (hs : acc.space = .scratch) :
    exec (.load a acc) s = .next (loadScratch u t acc a.next) := by
  have run : exec (.load a acc) s = execLoad a acc s := rfl
  rw [run, execLoad, if_pos hw, instr_of_issues h hf, hs]

theorem loadScratch_eq (hb : scratchBad u t acc.addr acc.width = none) (hq : acc.acq = false) (pc : Nat) :
    loadScratch u t acc pc = goTo (scratchLoaded u t acc) t pc := by
  unfold loadScratch
  rw [hb]
  dsimp only
  rw [hq]
  rfl

theorem operandsOnly_scratchLoaded (u : State) (t : Th) (acc : LoadAcc) : OperandsOnly u (scratchLoaded u t acc) :=
  (operandsOnly_touchAll ..).trans (operandsOnly_putVals ..)

theorem laneSet_scratchLoaded (hd : acc.dst < 63) {l : Nat} (hl : l < 32) (hm : t.f.mask.testBit l = true) :
    LaneSet (scratchLoaded u t acc) t.core t.slot acc.dst acc.width l (scratchVal u t acc l) :=
  laneSet_putVals hd (lanes_nodup t) (scratchVal u t acc) hl (mem_lanes.mpr ⟨hl, hm⟩) _

theorem regsKept_scratchLoaded (h : Issues s a t u) (hd : acc.dst < 63) (narrow : acc.width ≠ 8) (ok : CacheOk u t.core t.slot)
    (live : LiveSrc acc.addr) (pc : Nat) : RegsKept u (goTo (scratchLoaded u t acc) t pc) t acc.dst := by
  intro c sl r l hsl hr hl hne
  have slot := issues_slot_lt h
  obtain ⟨same, ok'⟩ := touchAll_keeps (srcs := [acc.addr]) slot ok (by simpa using live)
  obtain ⟨kept, -⟩ := putVals_keeps (dst := acc.dst) slot (by omega) narrow (t.lanes.map (fun l => (l, scratchVal u t acc l))) (touchAll u t [acc.addr]) ok'
  have other : ¬(c = t.core ∧ sl = t.slot ∧ r = acc.dst ∧ l ∈ (t.lanes.map (fun l => (l, scratchVal u t acc l))).map Prod.fst) := by
    rintro ⟨hc, hs, hr, hm⟩
    rw [List.map_map, show Prod.fst ∘ (fun l => (l, scratchVal u t acc l)) = id from rfl, List.map_id] at hm
    exact hne ⟨hc, hs, hr, (mem_lanes.mp hm).2⟩
  rw [regRead_eq_rowsRead, cacheRows, goTo_core]
  exact (regRead_eq_rowsRead ..).symm.trans ((kept c sl r l hsl hr hl other).trans (same c sl r l hsl hr hl))

/-- A load of the scratchpad gives each lane its bytes (R168, R243). -/
theorem gives_load_scratch (h : Issues s a t u) (hw : widthOk acc.width = true) (hd : acc.dst < 63) (hq : acc.acq = false)
    (hf : Free s t (loadUses acc)) (hs : acc.space = .scratch) (hb : scratchBad u t acc.addr acc.width = none) :
    Gives (.load a acc) s (fun v =>
      RegIs v t acc.dst (fun l => leNat (sramRead u t.core (t.reg u acc.addr.reg l) acc.width))
      ∧ (acc.width = 8 → RegIs v t (acc.dst + 1) (fun l => leNat (sramRead u t.core (t.reg u acc.addr.reg l) 8) / 2 ^ 32))
      ∧ (acc.width ≠ 8 → CacheOk u t.core t.slot → LiveSrc acc.addr → RegsKept u v t acc.dst)
      ∧ GoesOn v t a.next ∧ SlotOnly u v t.core t.slot ∧ (∃ rf rc, v.core = { u.core with rf := rf, rc := rc }) ∧ Only [.core, .run] [] u v) := by
  have operands := operandsOnly_scratchLoaded u t acc
  have run := (only_of_operandsOnly operands).part .run (by decide)
  have lane {l : Nat} (hl : l < 32) (hm : t.f.mask.testBit l = true) :=
    reg_of_laneSet (laneSet_scratchLoaded (u := u) hd hl hm)
  refine ⟨_, (exec_load_scratch h hw hf hs).trans (congrArg _ (loadScratch_eq hb hq _)), fun l hl hm => ?_, fun wide l hl hm => ?_,
    fun narrow ok live => regsKept_scratchLoaded h hd narrow ok live _, goesOn_goTo h run _, slotOnly_goTo run _ _, ?_, ?_⟩
  · rw [reg_goTo]
    exact (lane hl hm).1
  · rw [reg_goTo, (lane hl hm).2 wide, scratchVal, wide]
  · obtain ⟨rf, rc, n, e⟩ := operands
    exact ⟨rf, rc, by rw [goTo_core, e]⟩
  · exact ((frame_touchAll ..).onlyOf rfl).trans (((frame_putVals ..).onlyOf rfl).trans ((frame_goTo ..).onlyOf rfl))

/-- A load outside the block's scratchpad halts the context (reason 0x43). -/
theorem gives_load_scratchBad (h : Issues s a t u) (hw : widthOk acc.width = true) (hf : Free s t (loadUses acc)) (hs : acc.space = .scratch)
    {x : Nat} (hb : scratchBad u t acc.addr acc.width = some x) : Gives (.load a acc) s (fun v => HaltsWith u v t.c 0x43 x) := by
  refine ⟨_, exec_load_scratch h hw hf hs, ?_⟩
  unfold loadScratch
  rw [hb]
  exact haltsWith_haltTh h (by decide) x

end

/-! Stores. -/

/-- Bytes written to the scratchpad at address after address. -/
def sramWrites (s : State) (core : Nat) (vals : List (Nat × List Byte)) : State := vals.foldl (fun s v => sramWrite s core v.1 v.2) s

theorem sramWrites_eq (s : State) (core : Nat) (vals : List (Nat × List Byte)) :
    ∃ m, sramWrites s core vals = { s with core := { s.core with sram := m } } := by
  induction vals generalizing s with
  | nil => exact ⟨_, rfl⟩
  | cons x vals ih =>
    obtain ⟨m, e⟩ := sramPut_eq s.core (sramKey core x.1) x.2
    obtain ⟨m', e'⟩ := ih (sramWrite s core x.1 x.2)
    refine ⟨m', e'.trans ?_⟩
    rw [sramWrite, e]

theorem frame_sramWrites (s : State) (core : Nat) (vals : List (Nat × List Byte)) : Frame 32 0 s (sramWrites s core vals) :=
  (Frame.refl _ _ s).foldl (fun _ _ h => h.step (frame_sramWrite ..) rfl rfl)

theorem smapGet_sramWrites_ne {core k : Nat} {vals : List (Nat × List Byte)} (h : ∀ v ∈ vals, ∀ i, i < v.2.length → k ≠ sramKey core (v.1 + i)) (s : State) :
    smapGet (sramWrites s core vals).core.sram 0 k = smapGet s.core.sram 0 k := by
  induction vals generalizing s with
  | nil => rfl
  | cons x vals ih =>
    obtain ⟨first, rest⟩ := List.forall_mem_cons.mp h
    refine (ih rest _).trans (smapGet_sramPut_ne _ _ (fun i hi => ?_))
    rw [sramKey, Nat.add_assoc]
    exact first i hi

theorem sramRead_sramWrites_apart {core x n : Nat} {vals : List (Nat × List Byte)}
    (h : ∀ v ∈ vals, ∀ i j, i < n → j < v.2.length → x + i ≠ v.1 + j) (s : State) :
    sramRead (sramWrites s core vals) core x n = sramRead s core x n := by
  induction vals generalizing s with
  | nil => rfl
  | cons y vals ih =>
    obtain ⟨first, rest⟩ := List.forall_mem_cons.mp h
    exact (ih rest _).trans (sramRead_sramWrite_apart first)

/-- Of lanes that write in rising order, one whose bytes no later lane's overlap reads its own. -/
theorem sramRead_sramWrites {core n l : Nat} {lanes : List Nat} {addr : Nat → Nat} {bytes : Nat → List Byte} (hb : ∀ l, (bytes l).length = n)
    (sorted : lanes.Pairwise (· < ·)) (hl : l ∈ lanes)
    (apart : ∀ m ∈ lanes, l < m → ∀ i j, i < n → j < n → addr l + i ≠ addr m + j) (s : State) :
    sramRead (sramWrites s core (lanes.map (fun l => (addr l, bytes l)))) core (addr l) n = bytes l := by
  induction lanes generalizing s with
  | nil => cases hl
  | cons x lanes ih =>
    obtain ⟨above, sorted⟩ := List.pairwise_cons.mp sorted
    rcases List.mem_cons.mp hl with rfl | hl
    · refine (sramRead_sramWrites_apart ?_ (sramWrite s core (addr l) (bytes l))).trans (sramRead_sramWrite_same (hb l))
      simp only [List.forall_mem_map, hb]
      exact fun m hm => apart m (List.mem_cons_of_mem _ hm) (above m hm)
    · exact ih sorted hl (fun m hm => apart m (List.mem_cons_of_mem _ hm)) _

/-- The state a store to the scratchpad leaves before its thread goes on. -/
def scratchStored (u : State) (t : Th) (acc : StoreAcc) : State :=
  sramWrites (storeTouch u t acc) t.core
    (t.lanes.map (fun l => (t.reg u acc.addr.reg l, leBytes acc.width (laneVal u t acc.src acc.width l))))

section
variable {s u : State} {a : At} {t : Th} {acc : StoreAcc}

theorem exec_store_scratch (h : Issues s a t u) (hw : widthOk acc.width = true) (hf : Free s t (storeUses acc)) (hs : acc.space = .scratch) :
    exec (.store a acc) s = .next (storeScratch u t acc a.next) := by
  have run : exec (.store a acc) s = execStore a acc s := rfl
  rw [run, execStore, if_pos hw, instr_of_issues h hf, hs]

theorem storeScratch_eq (hb : scratchBad u t acc.addr acc.width = none) (hr : acc.rel = false) (pc : Nat) :
    storeScratch u t acc pc = goTo (scratchStored u t acc) t pc := by
  unfold storeScratch
  rw [hb]
  dsimp only
  rw [hr]
  rfl

/-- A store to the scratchpad writes each lane's bytes, those of a later lane over those of an earlier one, and no others (R243). -/
theorem gives_store_scratch (h : Issues s a t u) (hw : widthOk acc.width = true) (hr : acc.rel = false) (hf : Free s t (storeUses acc))
    (hs : acc.space = .scratch) (hb : scratchBad u t acc.addr acc.width = none) :
    Gives (.store a acc) s (fun v =>
      (∀ l ∈ t.lanes, (∀ m ∈ t.lanes, l < m → ∀ i j, i < acc.width → j < acc.width → t.reg u acc.addr.reg l + i ≠ t.reg u acc.addr.reg m + j) →
        sramRead v t.core (t.reg u acc.addr.reg l) acc.width = leBytes acc.width (laneVal u t acc.src acc.width l))
      ∧ (∀ k, (∀ l ∈ t.lanes, ∀ i, i < acc.width → k ≠ sramKey t.core (t.reg u acc.addr.reg l + i)) → smapGet v.core.sram 0 k = smapGet u.core.sram 0 k)
      ∧ GoesOn v t a.next ∧ SlotOnly u v t.core t.slot ∧ (∃ m rf rc, v.core = { u.core with sram := m, rf := rf, rc := rc }) ∧ Only [.core, .run] [] u v) := by
  have operands : OperandsOnly u (storeTouch u t acc) := operandsOnly_touchAll ..
  obtain ⟨m, written⟩ := sramWrites_eq (storeTouch u t acc) t.core
    (t.lanes.map (fun l => (t.reg u acc.addr.reg l, leBytes acc.width (laneVal u t acc.src acc.width l))))
  have frame : Frame 32 0 u (scratchStored u t acc) := (frame_storeTouch ..).step (frame_sramWrites ..) rfl rfl
  refine ⟨_, (exec_store_scratch h hw hf hs).trans (congrArg _ (storeScratch_eq hb hr _)), fun l hl apart => ?_, fun k hk => ?_,
    goesOn_goTo h (frame.run rfl) _, slotOnly_goTo (frame.run rfl) _ _, ?_, (frame.onlyOf rfl).trans ((frame_goTo ..).onlyOf rfl)⟩
  · rw [sramRead_goTo]
    exact sramRead_sramWrites (addr := t.reg u acc.addr.reg) (fun _ => length_leBytes ..) (lanes_pairwise t) hl apart _
  · rw [goTo_core]
    refine (smapGet_sramWrites_ne ?_ _).trans (by rw [sram_of_operandsOnly operands])
    simp only [List.forall_mem_map, length_leBytes]
    exact hk
  · obtain ⟨rf, rc, n, e⟩ := operands
    exact ⟨m, rf, rc, by rw [goTo_core, scratchStored, written, e]⟩

end

/-! Atomics. -/

section
variable {s u : State} {a : At} {t : Th} {acc : AtomAcc} {l : Nat}

theorem exec_atomic_scratch (h : Issues s a t u) (hw : widthOk acc.width = true) (hf : Free s t (atomUses acc)) (hs : acc.space = .scratch) :
    exec (.atomic a acc) s = .next (atomScratch u t acc a.next) := by
  have run : exec (.atomic a acc) s = execAtomic a acc s := rfl
  rw [run, execAtomic, if_pos hw, instr_of_issues h hf, hs]

/-- The bytes an atomic of one lane stores over the value `old` it found (R223). -/
def atomBytes (u : State) (t : Th) (acc : AtomAcc) (old l : Nat) : List Byte :=
  leBytes acc.width (atomNew acc.fn acc.width old (laneVal u t acc.src acc.width l) (laneVal u t acc.cmp acc.width l))

theorem atomBegin_eq (hr : acc.rel = false) : atomBegin u t acc = touchAll u t (atomSrcs acc) := by
  unfold atomBegin
  rw [hr]
  rfl

theorem atomWaits_eq (hr : acc.rel = false) : atomWaits acc u t = false := by
  unfold atomWaits
  rw [hr]
  rfl

theorem atomEnd_eq (hq : acc.acq = false) (w : State) (pc : Nat) : atomEnd w t acc pc = goTo w t pc := by
  unfold atomEnd
  rw [hq]
  rfl

/-- The state an atomic of one lane on the scratchpad leaves before its thread goes on. -/
def scratchAtom (u : State) (t : Th) (acc : AtomAcc) (l old : Nat) : State :=
  putVal (sramWrite (touchAll u t (atomSrcs acc)) t.core (t.reg u acc.addr.reg l) (atomBytes u t acc old l)) t.core t.slot acc.dst acc.width l old

theorem atomScratch_eq (hl : t.lanes = [l]) (hb : scratchBad u t acc.addr acc.width = none) (hr : acc.rel = false) (hq : acc.acq = false) (pc : Nat) :
    atomScratch u t acc pc = goTo (scratchAtom u t acc l (leNat (sramRead u t.core (t.reg u acc.addr.reg l) acc.width))) t pc := by
  have read := sramRead_of_operandsOnly (operandsOnly_touchAll u t (atomSrcs acc)) t.core (t.reg u acc.addr.reg l) acc.width
  unfold atomScratch
  rw [hb, atomWaits_eq hr, atomBegin_eq hr, hl]
  dsimp only
  rw [atomEnd_eq hq, ← read]
  rfl

/-- An atomic's value in its register, or the pair. -/
theorem reg_putVal_width {w : State} {dst width old : Nat} (hd : dst < 63) (hl : l < 32) (small : old < 256 ^ width) :
    t.reg (putVal w t.core t.slot dst width l old) dst l = old % 2 ^ 32
      ∧ (width = 8 → t.reg (putVal w t.core t.slot dst width l old) (dst + 1) l = old / 2 ^ 32) := by
  obtain ⟨low, high⟩ := reg_of_laneSet (t := t) (laneSet_putVal (s := w) (core := t.core) (slot := t.slot) (width := width) (v := old) hd hl)
  refine ⟨low, fun wide => (high wide).trans (Nat.mod_eq_of_lt ?_)⟩
  rw [wide] at small
  omega

/-- An atomic of one lane on the scratchpad returns the old value and stores the new one (R223). -/
theorem gives_atomic_scratch (h : Issues s a t u) (hw : widthOk acc.width = true) (hd : acc.dst < 63) (hf : Free s t (atomUses acc))
    (hr : acc.rel = false) (hq : acc.acq = false) (hl : l < 32) (hlanes : t.lanes = [l]) (hs : acc.space = .scratch)
    (hb : scratchBad u t acc.addr acc.width = none) {old : Nat} (hold : old = leNat (sramRead u t.core (t.reg u acc.addr.reg l) acc.width)) :
    Gives (.atomic a acc) s (fun v =>
      t.reg v acc.dst l = old % 2 ^ 32 ∧ (acc.width = 8 → t.reg v (acc.dst + 1) l = old / 2 ^ 32)
      ∧ sramRead v t.core (t.reg u acc.addr.reg l) acc.width = atomBytes u t acc old l
      ∧ (∀ k, (∀ i, i < acc.width → k ≠ sramKey t.core (t.reg u acc.addr.reg l + i)) → smapGet v.core.sram 0 k = smapGet u.core.sram 0 k)
      ∧ GoesOn v t a.next ∧ SlotOnly u v t.core t.slot ∧ Only [.core, .run] [] u v) := by
  have touched := operandsOnly_touchAll u t (atomSrcs acc)
  have put := operandsOnly_putVal (sramWrite (touchAll u t (atomSrcs acc)) t.core (t.reg u acc.addr.reg l) (atomBytes u t acc old l))
    t.core t.slot acc.dst acc.width l old
  have length : (atomBytes u t acc old l).length = acc.width := length_leBytes ..
  have small : old < 256 ^ acc.width := by
    have := leNat_lt (sramRead u t.core (t.reg u acc.addr.reg l) acc.width)
    rwa [length_sramRead, ← hold] at this
  obtain ⟨low, high⟩ := reg_putVal_width (t := t) (w := sramWrite (touchAll u t (atomSrcs acc)) t.core (t.reg u acc.addr.reg l) (atomBytes u t acc old l))
    hd hl small
  have frame : Frame 32 0 u (scratchAtom u t acc l old) :=
    ((frame_touchAll ..).step (frame_sramWrite ..) rfl rfl).step (frame_putVal ..) rfl rfl
  have done := exec_atomic_scratch h hw hf hs
  rw [atomScratch_eq hlanes hb hr hq, ← hold] at done
  refine ⟨_, done, ?_, fun wide => ?_, ?_, fun k hk => ?_, goesOn_goTo h (frame.run rfl) _, slotOnly_goTo (frame.run rfl) _ _,
    (frame.onlyOf rfl).trans ((frame_goTo ..).onlyOf rfl)⟩
  · rw [reg_goTo]
    exact low
  · rw [reg_goTo]
    exact high wide
  · rw [sramRead_goTo, scratchAtom, sramRead_of_operandsOnly put, sramRead_sramWrite_same length]
  · rw [goTo_core, scratchAtom, sram_of_operandsOnly put, ← sram_of_operandsOnly touched]
    refine smapGet_sramPut_ne _ _ (fun i hi => ?_)
    rw [sramKey, Nat.add_assoc]
    exact hk i (length ▸ hi)

end

end Sys2Proof.Proofs
end

section
/-! Loads of context addresses by one lane from one line of device memory (R165, R177, R247). -/

namespace Sys2Proof.Proofs

open Sys2Proof.Machine Sys2Proof.Claims Sys2Proof.Laws

/-! The line of an address. -/

/-- The key of the line of device memory that holds an address, read through the Grotto cache. -/
def deviceLine (a : Nat) : Nat := lineKey (a / 128 * 128) 0 3

@[simp] theorem keyAddr_deviceLine (a : Nat) : keyAddr (deviceLine a) = a / 128 * 128 := by
  unfold keyAddr deviceLine lineKey
  omega

@[simp] theorem keyTgt_deviceLine (a : Nat) : keyTgt (deviceLine a) = 0 := by
  unfold keyTgt deviceLine lineKey
  omega

@[simp] theorem keyKind_deviceLine (a : Nat) : keyKind (deviceLine a) = 3 := by
  unfold keyKind deviceLine lineKey
  omega

theorem glFind_line (s : State) (core a : Nat) (host : Bool) : glFind s core (a / 128 * 128) host = glFind s core a host := by
  have same : a / 128 * 128 / 128 * 128 = a / 128 * 128 := by omega
  rw [glFind, same]
  rfl

theorem widthOk_pos {w : Nat} (h : widthOk w = true) : 0 < w := by
  rcases Nat.eq_zero_or_pos w with rfl | pos
  · exact absurd h (by decide)
  · exact pos

section
variable {la : LaneAcc} {n : Nat}

/-- An access within a line touches that line alone. -/
theorem linesOf_deviceLine (ht : la.tgt = 0) (hn : 0 < n) (hin : la.addr % 128 + n ≤ 128) : linesOf 3 n la = [deviceLine la.addr] := by
  have same : (la.addr + n - 1) / 128 * 128 = la.addr / 128 * 128 := by omega
  unfold linesOf
  rw [ht]
  show (if lineKey (la.addr / 128 * 128) 0 3 = lineKey ((la.addr + n - 1) / 128 * 128) 0 3 then _ else _) = _
  rw [same, if_pos rfl]
  rfl

theorem readsIn_deviceLine (ht : la.tgt = 0) (hn : 0 < n) (hin : la.addr % 128 + n ≤ 128) : readsIn (deviceLine la.addr) n [la] = [(la.addr % 128, n)] := by
  have low : max la.addr (la.addr / 128 * 128) = la.addr := by omega
  have high : min (la.addr + n) (la.addr / 128 * 128 + 128) = la.addr + n := by omega
  have off : la.addr - la.addr / 128 * 128 = la.addr % 128 := by omega
  unfold readsIn
  rw [List.flatMap_cons, List.flatMap_nil, List.append_nil, keyTgt_deviceLine, keyAddr_deviceLine, ht, if_neg (by decide)]
  rw [show lineSize 0 = 128 from rfl]
  dsimp only
  rw [low, high, if_pos (by omega), off, Nat.add_sub_cancel_left]

theorem nthD_tabulate {α : Type} (n : Nat) (f : Nat → α) (d : α) {i : Nat} (h : i < n) : nthD (tabulate n f) i d = f i := by
  rw [nthD, getElem?_tabulate, if_pos h, Option.getD_some]

/-- What one lane reads where its line's bytes are at hand. -/
theorem laneBytes_deviceLine (ht : la.tgt = 0) (hin : la.addr % 128 + n ≤ 128) (bs : List Byte) (got : List (Nat × List Byte)) :
    laneBytes 3 n ((deviceLine la.addr, bs) :: got) la = tabulate n (fun i => nthD bs (la.addr % 128 + i) 0) := by
  refine List.map_congr_left (fun i hi => ?_)
  have hi := List.mem_range.mp hi
  have line : (la.addr + i) / 128 * 128 = la.addr / 128 * 128 := by omega
  have off : (la.addr + i) % 128 = la.addr % 128 + i := by omega
  rw [ht]
  show (match List.find? (fun g => g.1 == lineKey ((la.addr + i) / 128 * 128) 0 3) ((deviceLine la.addr, bs) :: got) with
    | some g => nthD g.2 ((la.addr + i) % 128) 0
    | none => 0) = _
  rw [line, List.find?_cons_of_pos (by simp [deviceLine]), off]

end

/-! The line held, or not. -/

section
variable {u : State} {core a n : Nat}

/-- Where every byte of an access is valid in the core's cache, the line's bytes are at hand. -/
theorem heldLine_of_glLoad {bs : List Byte} (h : glLoad u core a n false = some bs) :
    ∃ x : GrottoLine, heldLine u core (deviceLine a) [(a % 128, n)] = some (tabulate 128 (fun i => (smapFind x.bytes i).getD 0))
      ∧ bs = tabulate n (fun i => (smapFind x.bytes (a % 128 + i)).getD 0) := by
  unfold glLoad at h
  split at h
  · cases h
  · rename_i x found
    dsimp only at h
    split at h
    · rename_i valid
      cases h
      refine ⟨x, ?_, by simp [tabulate]⟩
      have hit : [(a % 128, n)].all (fun r => (List.range r.2).all (fun i => (smapFind x.bytes (r.1 + i)).isSome)) = true := by
        simpa [tabulate] using valid
      unfold heldLine
      rw [keyTgt_deviceLine, keyKind_deviceLine, keyAddr_deviceLine, if_neg (by decide), if_pos rfl, glFind_line]
      show (match glFind u core a false with | none => none | some l => _) = _
      rw [found]
      exact if_pos hit
    · cases h

theorem heldLine_of_absent (h : glFind u core a false = none) (reads : List (Nat × Nat)) : heldLine u core (deviceLine a) reads = none := by
  unfold heldLine
  rw [keyTgt_deviceLine, keyKind_deviceLine, keyAddr_deviceLine, if_neg (by decide), if_pos rfl, glFind_line]
  show (match glFind u core a false with | none => none | some l => _) = _
  rw [h]

end

theorem goesOn_congr {v w : State} {t : Th} {pc : Nat} (hv : v.run = w.run) (h : GoesOn w t pc) : GoesOn v t pc := by
  obtain ⟨r, hr, lanes⟩ := h
  exact ⟨r, (slotRec_congr hv ..).trans hr, lanes⟩

theorem slotOnly_congr {u v w : State} {core slot : Nat} (hv : v.run = w.run) (h : SlotOnly u w core slot) : SlotOnly u v core slot := by
  unfold SlotOnly
  rw [hv]
  exact h

section
variable {s u : State} {a : At} {t : Th} {acc : LoadAcc} {la : LaneAcc} {p : Place}

theorem exec_load_ctx (h : Issues s a t u) (hw : widthOk acc.width = true) (hf : Free s t (loadUses acc)) (hs : acc.space = .ctx) :
    exec (.load a acc) s = .next (loadCtx u t acc a.next) := by
  have run : exec (.load a acc) s = execLoad a acc s := rfl
  rw [run, execLoad, if_pos hw, instr_of_issues h hf, hs]

/-- The state in which a load of one lane finds its line in the cache: its sources read, the hit counted, the thread at the next place. -/
def hitCounted (u : State) (t : Th) (acc : LoadAcc) (pc : Nat) : State :=
  goTo ((touchAll u t (addrSrcs acc.space acc.addr)).bump F.coreGrottoHits_HITS 1 t.core) t pc

theorem loadCtx_hit (one : OneLane u t acc.space acc.addr acc.width .read [0, 1, 2] la p) (hw : widthOk acc.width = true) (hq : acc.acq = false)
    {bs : List Byte} (hit : glLoad u t.core la.addr acc.width false = some bs) (pc : Nat) :
    loadCtx u t acc pc = putVal (hitCounted u t acc pc) t.core t.slot acc.dst acc.width la.lane (leNat bs) := by
  obtain ⟨hs, resolved, tgt, -, inside⟩ := one
  have kind : spaceKind acc.space = 3 := by rw [hs]; rfl
  obtain ⟨x, held, rfl⟩ := heldLine_of_glLoad hit
  have bytes : laneBytes 3 acc.width [(deviceLine la.addr, tabulate 128 (fun i => (smapFind x.bytes i).getD 0))] la
      = tabulate acc.width (fun i => (smapFind x.bytes (la.addr % 128 + i)).getD 0) := by
    rw [laneBytes_deviceLine tgt inside]
    refine List.map_congr_left (fun i hi => nthD_tabulate _ _ _ ?_)
    have := List.mem_range.mp hi
    omega
  rw [← bytes, loadCtx]
  simp [kind, resolved, linesOf_deviceLine tgt (widthOk_pos hw) inside, readsIn_deviceLine tgt (widthOk_pos hw) inside, held, tgt, loadDone, hq, hitCounted]

/-- A load whose bytes the cache holds gives the lane its register and counts a hit (R247). -/
theorem gives_load_hit (h : Issues s a t u) (hw : widthOk acc.width = true) (hd : acc.dst < 63) (hq : acc.acq = false) (hf : Free s t (loadUses acc))
    (one : OneLane u t acc.space acc.addr acc.width .read [0, 1, 2] la p) {bs : List Byte} (hit : glLoad u t.core la.addr acc.width false = some bs) :
    Gives (.load a acc) s (fun v =>
      (t.reg v acc.dst la.lane) = leNat bs % 2 ^ 32 ∧ v.get F.coreGrottoHits_HITS t.core = (u.get F.coreGrottoHits_HITS t.core + 1) % 2 ^ 64
      ∧ GoesOn v t a.next ∧ SlotOnly u v t.core t.slot ∧ Only [.core, .run] [.coreGrottoHits] u v) := by
  have touched := frame_touchAll u t (addrSrcs acc.space acc.addr)
  have counted : ((touchAll u t (addrSrcs acc.space acc.addr)).bump F.coreGrottoHits_HITS 1 t.core).run = u.run := touched.run rfl
  have put := frame_putVal (hitCounted u t acc a.next) t.core t.slot acc.dst acc.width la.lane (leNat bs)
  have done := exec_load_ctx h hw hf one.1
  rw [loadCtx_hit one hw hq hit] at done
  obtain ⟨-, -, -, hl, -⟩ := one
  refine ⟨_, done, (reg_of_laneSet (laneSet_putVal hd hl)).1, ?_, goesOn_congr (put.run rfl) (goesOn_goTo h counted _),
    slotOnly_congr (put.run rfl) (slotOnly_goTo counted _ _), ?_⟩
  · rw [put.get F.coreGrottoHits_HITS rfl t.core, hitCounted, (frame_goTo ..).get F.coreGrottoHits_HITS rfl t.core,
      State.get_bump_same _ 1 t.core 0 rfl, touched.get F.coreGrottoHits_HITS rfl t.core]
    rfl
  · have bumped : Only [.core, .run] [.coreGrottoHits] (touchAll u t (addrSrcs acc.space acc.addr))
        ((touchAll u t (addrSrcs acc.space acc.addr)).bump F.coreGrottoHits_HITS 1 t.core) :=
      (only_setWord _ .coreGrottoHits t.core 0 0 _).mono (by decide) (by decide)
    exact (touched.onlyOf rfl).trans (bumped.trans (((frame_goTo ..).onlyOf rfl).trans (put.onlyOf rfl)))

end

end Sys2Proof.Proofs
end

section
/-! A load that misses: its line requested, the load outstanding, the thread going on (R165, R177, R247). -/

namespace Sys2Proof.Proofs

open Sys2Proof.Machine Sys2Proof.Claims Sys2Proof.Laws

section
variable {u w : State} {t : Th} {core slot : Nat}

theorem slotOnly_setSlot (s : State) (core slot : Nat) (r : SlotRec) : SlotOnly s (setSlot s core slot r) core slot :=
  ⟨⟨_, rfl⟩, fun _ hk => (smapFind_insert ..).trans (if_neg hk)⟩

theorem slotOnly_of_run (h : w.run = u.run) : SlotOnly u w core slot := ⟨⟨_, h⟩, fun _ _ => by rw [h]⟩

theorem slotOnly_trans {v : State} (h : SlotOnly u w core slot) (g : SlotOnly w v core slot) : SlotOnly u v core slot := by
  obtain ⟨⟨_, hrun⟩, hkeep⟩ := h
  obtain ⟨⟨sl, grun⟩, gkeep⟩ := g
  exact ⟨⟨sl, by rw [grun, hrun]⟩, fun k hk => (gkeep k hk).trans (hkeep k hk)⟩

/-- The slot of a thread that goes on keeps its loads; the fragment's lanes are at the new place. -/
theorem slotRec_goTo {r : SlotRec} (hr : slotRec w t.core t.slot = some r) (hf : t.f ∈ r.frags) (hwait : t.f.wait = .none)
    (hlane : t.f.mask.testBit t.at_.lane = true) (pc : Nat) :
    ∃ r', slotRec (goTo w t pc) t.core t.slot = some r' ∧ r'.loads = r.loads ∧ ∀ l, t.f.mask.testBit l = true → LaneAt r'.frags l pc := by
  have moved : goTo w t pc = setSlot w t.core t.slot
      { r with frags := settleFrags w.ns (updWhere r.frags (fun f => f.mask.testBit t.at_.lane) (fun f => { f with pc := pc })) } := by
    rw [goTo, updFrag, hr]
  refine ⟨_, (congrArg (slotRec · t.core t.slot) moved).trans (slotRec_setSlot ..), rfl, fun l hl => ?_⟩
  exact laneAt_settleFrags w.ns ⟨_, List.mem_map_of_mem hf, by rw [if_pos hlane]; exact ⟨hl, rfl, hwait⟩⟩

end

/-! The request. -/

section
variable (s : State) (c core slot : Nat)

/-- The request for a line. -/
def lineReqOf (id core slot : Nat) (w : WantLine) : LineReq := ⟨id, false, core, slot, w.key, w.cls, w.reg, w.gen, w.mask⟩

/-- The state with a request for a line added. -/
def withRequest (w : WantLine) : State :=
  { s with obj := { s.obj with nextId := s.obj.nextId + 1 }, core := { s.core with lreq := s.core.lreq ++ [lineReqOf s.obj.nextId core slot w] } }

/-- A line of device memory is requested of its slice, and a miss is counted. -/
theorem requestLine_deviceLine {w : WantLine} {a : Nat} (hw : w.key = deviceLine a) :
    requestLine s c core slot w = (withRequest s core slot w).bump F.coreGrottoMisses_MISSES 1 core := by
  unfold requestLine
  simp only [hw, keyKind_deviceLine, keyTgt_deviceLine]
  simp [withRequest, lineReqOf, hw]

theorem only_withRequest (w : WantLine) : Only [.core, .obj] [] s (withRequest s core slot w) := by
  refine ⟨rfl, fun p hp => ?_, fun _ _ _ _ _ => rfl⟩
  cases p with
  | core => exact absurd (by decide) hp
  | obj => exact absurd (by decide) hp
  | _ => rfl

end

section
variable {s u : State} {a : At} {t : Th} {acc : LoadAcc} {la : LaneAcc} {p : Place}

/-- The load of one lane that waits for its line. -/
def waitingLoad (u : State) (t : Th) (acc : LoadAcc) (la : LaneAcc) : OutLoad :=
  ⟨acc, [la], [(deviceLine la.addr, u.obj.nextId)], [], [], t.f.pc⟩

/-- The state with the line requested, the miss counted and the sources read. -/
def missCounted (u : State) (t : Th) (acc : LoadAcc) (la : LaneAcc) (p : Place) : State :=
  touchAll ((withRequest u t.core t.slot (wantOf u t acc [(la, p)] (deviceLine la.addr))).bump F.coreGrottoMisses_MISSES 1 t.core) t
    (addrSrcs acc.space acc.addr)

theorem loadCtx_miss (one : OneLane u t acc.space acc.addr acc.width .read [0, 1, 2] la p) (hw : widthOk acc.width = true)
    (absent : glFind u t.core la.addr false = none) (unasked : lineReq u t.core (deviceLine la.addr) = none)
    (room : canAsk u t.core t.slot (deviceLine la.addr) = true) (pc : Nat) :
    loadCtx u t acc pc = goTo (addLoad (missCounted u t acc la p) t.core t.slot (waitingLoad u t acc la)) t pc := by
  obtain ⟨hs, resolved, tgt, -, inside⟩ := one
  have kind : spaceKind acc.space = 3 := by rw [hs]; rfl
  have reach : hostBlocked u [deviceLine la.addr] = none := by simp [hostBlocked]
  have may : mayLoad u t.core t.slot [deviceLine la.addr] = true := by simp [mayLoad, unasked, room]
  have asked : askLines t.c t.core t.slot u [wantOf u t acc [(la, p)] (deviceLine la.addr)]
      = (([(deviceLine la.addr, u.obj.nextId)], []),
          (withRequest u t.core t.slot (wantOf u t acc [(la, p)] (deviceLine la.addr))).bump F.coreGrottoMisses_MISSES 1 t.core) := by
    have key : (wantOf u t acc [(la, p)] (deviceLine la.addr)).key = deviceLine la.addr := rfl
    rw [← requestLine_deviceLine u t.c t.core t.slot key]
    simp [askLines, askLine, key, unasked, room]
  unfold loadCtx
  simp [kind, resolved, linesOf_deviceLine tgt (widthOk_pos hw) inside, readsIn_deviceLine tgt (widthOk_pos hw) inside, heldLine_of_absent absent,
    reach, may, asked, missCounted, waitingLoad]

theorem missCounted_frame (u : State) (t : Th) (acc : LoadAcc) (la : LaneAcc) (p : Place) :
    Only [.core, .obj] [.coreGrottoMisses] u (missCounted u t acc la p) := by
  have requested := only_withRequest u t.core t.slot (wantOf u t acc [(la, p)] (deviceLine la.addr))
  have counted := only_setWord (withRequest u t.core t.slot (wantOf u t acc [(la, p)] (deviceLine la.addr))) .coreGrottoMisses t.core 0 0
  exact (requested.mono (by decide) (by decide)).trans (((counted _).mono (by decide) (by decide)).trans ((frame_touchAll ..).onlyOf rfl))

/-- A load whose line is not held requests it, is outstanding, and lets its thread go on (R165, R177, R247). -/
theorem gives_load_miss (h : Issues s a t u) (hw : widthOk acc.width = true) (hf : Free s t (loadUses acc))
    (one : OneLane u t acc.space acc.addr acc.width .read [0, 1, 2] la p)
    (absent : glFind u t.core la.addr false = none) (unasked : lineReq u t.core (deviceLine la.addr) = none)
    (room : canAsk u t.core t.slot (deviceLine la.addr) = true) :
    Gives (.load a acc) s (fun v =>
      (∃ x, v.core.lreq = u.core.lreq ++ [x] ∧ x.core = t.core ∧ x.slot = t.slot ∧ x.key = deviceLine la.addr)
      ∧ GoesOn v t a.next ∧ (∃ r, slotRec v t.core t.slot = some r ∧ ∃ o ∈ r.loads, o.acc = acc ∧ o.lanes = [la] ∧ o.want = []
        ∧ o.need.map Prod.fst = [deviceLine la.addr])
      ∧ v.get F.coreGrottoMisses_MISSES t.core = (u.get F.coreGrottoMisses_MISSES t.core + 1) % 2 ^ 64
      ∧ SlotOnly u v t.core t.slot ∧ Only [.core, .run, .obj] [.coreGrottoMisses] u v) := by
  obtain ⟨r, hr, hfrag, hwait, hlane⟩ := issues_slot h
  have only := missCounted_frame u t acc la p
  have run := only.part .run (by decide)
  have hr' : slotRec (missCounted u t acc la p) t.core t.slot = some r := (slotRec_congr run ..).trans hr
  have added : addLoad (missCounted u t acc la p) t.core t.slot (waitingLoad u t acc la)
      = setSlot (missCounted u t acc la p) t.core t.slot { r with loads := r.loads ++ [waitingLoad u t acc la] } := by
    rw [addLoad, hr']
  obtain ⟨r', hv, loads, lanes⟩ := slotRec_goTo (w := setSlot (missCounted u t acc la p) t.core t.slot { r with loads := r.loads ++ [waitingLoad u t acc la] })
    (slotRec_setSlot ..) hfrag hwait hlane a.next
  have done := exec_load_ctx h hw hf one.1
  rw [loadCtx_miss one hw absent unasked room, added] at done
  refine ⟨_, done, ⟨lineReqOf u.obj.nextId t.core t.slot (wantOf u t acc [(la, p)] (deviceLine la.addr)), ?_, rfl, rfl, rfl⟩, ⟨r', hv, lanes⟩,
    ⟨r', hv, waitingLoad u t acc la, by rw [loads]; simp, rfl, rfl, rfl, rfl⟩, ?_, ?_, ?_⟩
  · obtain ⟨rf, rc, n, touched⟩ := operandsOnly_touchAll
      ((withRequest u t.core t.slot (wantOf u t acc [(la, p)] (deviceLine la.addr))).bump F.coreGrottoMisses_MISSES 1 t.core) t
      (addrSrcs acc.space acc.addr)
    rw [goTo_core]
    show (missCounted u t acc la p).core.lreq = _
    rw [missCounted, touched]
    rfl
  · rw [(frame_goTo ..).get F.coreGrottoMisses_MISSES rfl t.core]
    show (missCounted u t acc la p).get F.coreGrottoMisses_MISSES t.core = _
    rw [missCounted, (frame_touchAll ..).get F.coreGrottoMisses_MISSES rfl t.core, State.get_bump_same _ 1 t.core 0 rfl]
    rfl
  · exact slotOnly_trans (slotOnly_of_run run) (slotOnly_trans (slotOnly_setSlot ..) (slotOnly_goTo rfl t _))
  · have slot : Only [.run] [] (missCounted u t acc la p)
        (setSlot (missCounted u t acc la p) t.core t.slot { r with loads := r.loads ++ [waitingLoad u t acc la] }) := (frame_setSlot ..).onlyOf rfl
    exact (only.mono (by decide) (by decide)).trans ((slot.mono (by decide) (by decide)).trans ((frame_goTo ..).onlyOf rfl))

end

end Sys2Proof.Proofs
end

section
/-! Stores and atomics of context addresses by one lane within one line of device memory (R218, R223, R248). -/

namespace Sys2Proof.Proofs

open Sys2Proof.Machine Sys2Proof.Claims Sys2Proof.Laws

/-! Requests of a core for lines of device memory stay open. -/

theorem updWhere_none {α : Type} {l : List α} {p : α → Bool} (f : α → α) (h : ∀ x ∈ l, p x = false) : updWhere l p f = l := by
  have same : ∀ x ∈ l, (if p x = true then f x else x) = id x := fun x hx => if_neg (by simp [h x hx])
  exact (List.map_congr_left same).trans (List.map_id l)

theorem shutStored_device {u : State} {core n : Nat} {la : LaneAcc} (ht : la.tgt = 0) : (shutStored u core n [la]).core = u.core := by
  simp only [shutStored, shutReqs]
  rw [updWhere_none]
  intro x _
  by_cases h : keyTgt x.key = 0
  · simp [h]
  · simp [ht, Ne.symm h]

/-! A store. -/

section
variable {s u : State} {a : At} {t : Th} {acc : StoreAcc} {la : LaneAcc} {p : Place}

theorem exec_store_ctx (h : Issues s a t u) (hw : widthOk acc.width = true) (hf : Free s t (storeUses acc)) (hs : acc.space = .ctx) :
    exec (.store a acc) s = .next (storeCtx u t acc a.next) := by
  have run : exec (.store a acc) s = execStore a acc s := rfl
  rw [run, execStore, if_pos hw, instr_of_issues h hf, hs]

/-- The state once a store's sources are read. -/
def storeRead (u : State) (t : Th) (acc : StoreAcc) (la : LaneAcc) : State := shutStored (storeTouch u t acc) t.core acc.width [la]

/-- The state a store of one lane leaves before its thread goes on. -/
def ctxStored (u : State) (t : Th) (acc : StoreAcc) (la : LaneAcc) (p : Place) : State :=
  glStore (storeRead u t acc la) t.core la.addr (p.rq (storeRead u t acc la)) (storeMask (storeRead u t acc la) t.c acc.stream)
    (leBytes acc.width (laneVal u t acc.src acc.width la.lane))

theorem storeCtx_eq (one : OneLane u t acc.space acc.addr acc.width .write [0, 1, 2] la p) (hr : acc.rel = false)
    (apart : ownLoads u t acc.width [la] = false) (pc : Nat) : storeCtx u t acc pc = goTo (ctxStored u t acc la p) t pc := by
  obtain ⟨hs, resolved, tgt, -, inside⟩ := one
  have fits : acc.width ≤ 128 - la.addr % 128 := by omega
  have short : (leBytes acc.width (laneVal u t acc.src acc.width la.lane)).take (128 - la.addr % 128) = leBytes acc.width (laneVal u t acc.src acc.width la.lane) :=
    List.take_of_length_le (by rw [length_leBytes]; exact fits)
  unfold storeCtx
  simp [resolved, tgt, hr, apart, unowned, storeLane, short, fits, ctxStored, storeRead]

theorem frame_storeRead (u : State) (t : Th) (acc : StoreAcc) (la : LaneAcc) : Frame 32 0 u (storeRead u t acc la) :=
  (frame_storeTouch ..).step (frame_shutStored ..) rfl rfl

theorem storeMask_storeRead (u : State) (t : Th) (acc : StoreAcc) (la : LaneAcc) (c : Nat) (stream : Bool) :
    storeMask (storeRead u t acc la) c stream = storeMask u c stream := by
  unfold storeMask
  rw [(frame_storeRead u t acc la).get F.ctxGrottoMask_STREAM rfl c, (frame_storeRead u t acc la).get F.ctxGrottoMask_STORE rfl c]

/-- A store of one lane puts its bytes valid and dirty in the core's line (R248). -/
theorem gives_store_ctx (h : Issues s a t u) (hw : widthOk acc.width = true) (hr : acc.rel = false) (hf : Free s t (storeUses acc))
    (one : OneLane u t acc.space acc.addr acc.width .write [0, 1, 2] la p) (apart : ownLoads u t acc.width [la] = false)
    (room : (glFind u t.core la.addr false).isSome = true ∨ (glVictim u t.core la.addr (storeMask u t.c acc.stream)).isSome = true) :
    Gives (.store a acc) s (fun v =>
      HoldsDirty v t.core la.addr (leBytes acc.width (laneVal u t acc.src acc.width la.lane)) ∧ GoesOn v t a.next ∧ SlotOnly u v t.core t.slot
      ∧ v.core.sram = u.core.sram ∧ v.core.acc = u.core.acc ∧ v.core.lreq = u.core.lreq
      ∧ Only [.mem, .core, .run, .free] (.coreGrottoStatus :: .coreGrottoWb :: memRegs) u v) := by
  have read := frame_storeRead u t acc la
  have core : (storeRead u t acc la).core = (storeTouch u t acc).core := shutStored_device one.2.2.1
  obtain ⟨rf, rc, n, touched⟩ : OperandsOnly u (storeTouch u t acc) := operandsOnly_touchAll ..
  have lines : (storeRead u t acc la).core.gl = u.core.gl := by rw [core, touched]
  have room' : (glFind (storeRead u t acc la) t.core la.addr false).isSome = true
      ∨ (glVictim (storeRead u t acc la) t.core la.addr (storeMask (storeRead u t acc la) t.c acc.stream)).isSome = true := by
    rwa [glFind_congr lines, storeMask_storeRead, glVictim_isSome, read.get F.coreGrottoStatus_CACHE_WAYS rfl t.core, ← glVictim_isSome]
  obtain ⟨⟨x, found, bytes⟩, ⟨gl, flags, stored⟩⟩ := glStore_holds (p.rq (storeRead u t acc la))
    (leBytes acc.width (laneVal u t acc.src acc.width la.lane)) room'
  have frame : Only [.mem, .core, .run, .free] (.coreGrottoStatus :: .coreGrottoWb :: memRegs) u (ctxStored u t acc la p) :=
    (read.onlyOf rfl).trans ((frame_glStore ..).onlyOf rfl)
  have run : (ctxStored u t acc la p).run = u.run := ((frame_glStore ..).run rfl).trans (read.run rfl)
  refine ⟨_, (exec_store_ctx h hw hf one.1).trans (congrArg _ (storeCtx_eq one hr apart _)), ⟨x, ?_, bytes⟩, goesOn_goTo h run _,
    slotOnly_goTo run _ _, ?_, ?_, ?_, frame.trans ((frame_goTo ..).onlyOf rfl)⟩
  · rw [glFind_congr (congrArg Cores.gl (goTo_core ..))]
    exact found
  all_goals
    rw [goTo_core, ctxStored, stored, core, touched]

end

/-! An atomic at the slice. -/

section
variable {s u w : State} {a : At} {t : Th} {acc : AtomAcc} {la : LaneAcc} {p : Place} {l : Nat}

theorem exec_atomic_ctx (h : Issues s a t u) (hw : widthOk acc.width = true) (hf : Free s t (atomUses acc)) (hs : acc.space = .ctx) :
    exec (.atomic a acc) s = .next (atomCtx u t acc a.next) := by
  have run : exec (.atomic a acc) s = execAtomic a acc s := rfl
  rw [run, execAtomic, if_pos hw, instr_of_issues h hf, hs]

theorem glExpel_absent {core x : Nat} {host : Bool} (h : glFind u core x host = none) : glExpel u core x host = u := by
  rw [glExpel, h]

/-- The state an atomic of one lane leaves before its thread goes on: `w` is that after its read, `old` the value read. -/
def ctxAtom (u w : State) (t : Th) (acc : AtomAcc) (la : LaneAcc) (p : Place) (old : Nat) : State :=
  putVal (devWrite 2 w (p.rq u) la.addr (atomBytes u t acc old la.lane)) t.core t.slot acc.dst acc.width la.lane old

theorem atomCtx_eq (one : OneLane u t acc.space acc.addr acc.width .both [0, 1] la p) (hr : acc.rel = false) (hq : acc.acq = false)
    (whole : t.l.decl.replayable = false) (apart : ownLoads u t acc.width [la] = false)
    (first : glFind u t.core la.addr false = none) (last : glFind u t.core (la.addr + acc.width - 1) false = none)
    (sound : firstPoisoned u (p.rq u).key la.addr acc.width = none) {bs : List Byte}
    (read : devRead 2 (atomBegin u t acc) (p.rq u) la.addr acc.width = ((false, bs), w)) (pc : Nat) :
    atomCtx u t acc pc = goTo (ctxAtom u w t acc la p (leNat bs)) t pc := by
  obtain ⟨hs, resolved, tgt, -, inside⟩ := one
  have same : ({ la with tgt := 0 } : LaneAcc) = la := by rw [← tgt]
  have lines : (atomBegin u t acc).core.gl = u.core.gl := by
    obtain ⟨_, _, _, touched⟩ := operandsOnly_touchAll u t (atomSrcs acc)
    rw [atomBegin_eq hr, touched]
  have expelled : glExpel (glExpel (atomBegin u t acc) t.core la.addr false) t.core (la.addr + acc.width - 1) false = atomBegin u t acc := by
    rw [glExpel_absent ((glFind_congr lines ..).trans first), glExpel_absent ((glFind_congr lines ..).trans last)]
  unfold atomCtx
  simp [whole, resolved, same, tgt, atomWaits_eq hr, apart, unowned, sound, atomOf, expelled, atomLanes, read, atomEnd_eq hq, ctxAtom, atomBytes]

/-- An atomic of one lane on device memory returns the old value and stores the new one at the slice (R223). -/
theorem gives_atomic_ctx (h : Issues s a t u) (hw : widthOk acc.width = true) (hd : acc.dst < 63) (hf : Free s t (atomUses acc))
    (hr : acc.rel = false) (hq : acc.acq = false)
    (one : OneLane u t acc.space acc.addr acc.width .both [0, 1] la p) (hl : la.lane = l) (whole : t.l.decl.replayable = false)
    (apart : ownLoads u t acc.width [la] = false)
    (first : glFind u t.core la.addr false = none) (last : glFind u t.core (la.addr + acc.width - 1) false = none)
    (sound : firstPoisoned u (p.rq u).key la.addr acc.width = none) {bs : List Byte}
    (read : devRead 2 (atomBegin u t acc) (p.rq u) la.addr acc.width = ((false, bs), w)) {old : Nat} (hold : old = leNat bs) :
    Gives (.atomic a acc) s (fun v =>
      t.reg v acc.dst l = old % 2 ^ 32 ∧ v.mem = (devWrite 2 w (p.rq u) la.addr (atomBytes u t acc old l)).mem
      ∧ v.core.gl = u.core.gl ∧ GoesOn v t a.next ∧ SlotOnly u v t.core t.slot ∧ Only [.mem, .core, .run, .free] memRegs u v) := by
  subst hl hold
  have taken := frame_devRead 2 (atomBegin u t acc) (p.rq u) la.addr acc.width
  rw [read, atomBegin_eq hr] at taken
  have touched := frame_touchAll u t (atomSrcs acc)
  have wrote := frame_devWrite 2 w (p.rq u) la.addr (atomBytes u t acc (leNat bs) la.lane)
  have put := frame_putVal (devWrite 2 w (p.rq u) la.addr (atomBytes u t acc (leNat bs) la.lane)) t.core t.slot acc.dst acc.width la.lane (leNat bs)
  have run : (ctxAtom u w t acc la p (leNat bs)).run = u.run :=
    (put.run rfl).trans ((wrote.run rfl).trans ((taken.run rfl).trans (touched.run rfl)))
  refine ⟨_, (exec_atomic_ctx h hw hf one.1).trans (congrArg _ (atomCtx_eq one hr hq whole apart first last sound read _)), ?_, ?_, ?_,
    goesOn_goTo h run _, slotOnly_goTo run _ _, ?_⟩
  · rw [reg_goTo]
    exact (reg_of_laneSet (laneSet_putVal hd one.2.2.2.1)).1
  · exact ((frame_goTo ..).mem rfl).trans (put.mem rfl)
  · obtain ⟨_, _, _, e⟩ := operandsOnly_putVal (devWrite 2 w (p.rq u) la.addr (atomBytes u t acc (leNat bs) la.lane)) t.core t.slot acc.dst acc.width
      la.lane (leNat bs)
    obtain ⟨_, _, _, e'⟩ := operandsOnly_touchAll u t (atomSrcs acc)
    rw [goTo_core, ctxAtom, e]
    show (devWrite 2 w (p.rq u) la.addr _).core.gl = _
    rw [wrote.core rfl, taken.core rfl, e']
  · exact (touched.onlyOf rfl).trans ((taken.onlyOf rfl).trans ((wrote.onlyOf rfl).trans ((put.onlyOf rfl).trans ((frame_goTo ..).onlyOf rfl))))

end

end Sys2Proof.Proofs
end

section
/-! Fences and cache maintenance of a thread (R219, R220, R222, R242, R252). -/

namespace Sys2Proof.Proofs

open Sys2Proof.Machine Sys2Proof.Claims Sys2Proof.Laws

/-! Fences. -/

/-- What a fence leaves before its thread goes on: where it is wide, the cache written back on its release side, what is not dirty dropped on
its acquire side. -/
def fenced (u : State) (core : Nat) (wide rel acq : Bool) : State :=
  if wide then
    if acq then acquireWide (if rel then releaseWide u core else u) core else if rel then releaseWide u core else u
  else u

theorem releaseWide_gl (u : State) (core : Nat) : (releaseWide u core).core.gl = writtenBack u core := by
  rw [releaseWide, glFlush_core, withLines_gl]

section
variable {s u : State} {a : At} {t : Th}

theorem fenced_only (u : State) (core : Nat) (wide rel acq : Bool) :
    Only [.mem, .core, .free] (.coreGrottoStatus :: .coreGrottoWb :: memRegs) u (fenced u core wide rel acq) := by
  have released : Only [.mem, .core, .free] (.coreGrottoStatus :: .coreGrottoWb :: memRegs) u (if rel then releaseWide u core else u) := by
    split
    · exact (frame_releaseWide ..).onlyOf rfl
    · exact .refl ..
  unfold fenced
  split
  · split
    · exact released.trans ((frame_acquireWide ..).onlyOf rfl)
    · exact released
  · exact .refl ..

/-- A fence does what its sides and its scope say (R222). -/
theorem fenceDone_fenced (h : Issues s a t u) (wide rel acq : Bool) :
    FenceDone u (goTo (fenced u t.core wide rel acq) t t.at_.next) t wide rel acq := by
  have only := fenced_only u t.core wide rel acq
  refine ⟨goesOn_goTo h (only.part .run (by decide)) _, ?_, ?_⟩
  · rintro rfl
    exact ⟨goTo_core .., (frame_goTo ..).onlyOf rfl⟩
  · rintro rfl
    rw [goTo_core]
    refine ⟨?_, ?_, ?_, (only.mono (by decide) (by decide)).trans ((frame_goTo ..).onlyOf rfl)⟩
    · rintro rfl rfl
      exact releaseWide_gl ..
    · rintro rfl rfl
      exact acquiredAt_of_gl ((congrArg Cores.gl (goTo_core ..)).trans (acquireWide_gl ..))
    · rintro rfl rfl
      refine (acquireWide_gl ..).trans ?_
      rw [if_pos rfl, releaseWide_gl, dropClean_writtenBack]

theorem gives_fenceAcquire (h : Issues s a t u) (hf : Free s t ⟨[], 2⟩) (sc : Scope) :
    Gives (.fenceAcquire a sc) s (fun v => FenceDone u v t sc.wide false true) := by
  have run : exec (.fenceAcquire a sc) s = execFenceAcquire a sc s := rfl
  obtain rfl := issues_at h
  refine ⟨_, ?_, fenceDone_fenced h sc.wide false true⟩
  rw [run, execFenceAcquire, instr_of_issues h hf]
  rfl

/-- The release side of a fence when no write to a peer is pending. -/
theorem fenceRel_eq (none : peerPending u t.b = false) (sc : Scope) (k : State → State) :
    fenceRel u t sc k = k (if sc.wide then releaseWide u t.core else u) := by
  unfold fenceRel
  rw [none]
  cases sc.wide <;> rfl

/-- Both sides of a fence, as FENCE_ACQ_REL and FENCE_SC perform them. -/
theorem fenceBoth_eq (none : peerPending u t.b = false) (sc : Scope) (pc : Nat) :
    fenceRel u t sc (fun w => goTo (fenceAcq w t sc) t pc) = goTo (fenced u t.core sc.wide true true) t pc := by
  rw [fenceRel_eq none, fenceAcq, fenced]
  cases sc.wide <;> rfl

section
variable (h : Issues s a t u) (hf : Free s t ⟨[], 2⟩) (none : peerPending u t.b = false) (sc : Scope)
include h hf none

theorem gives_fenceRelease : Gives (.fenceRelease a sc) s (fun v => FenceDone u v t sc.wide true false) := by
  have run : exec (.fenceRelease a sc) s = execFenceRelease a sc s := rfl
  obtain rfl := issues_at h
  refine ⟨_, ?_, fenceDone_fenced h sc.wide true false⟩
  rw [run, execFenceRelease, instr_of_issues h hf, fenceRel_eq none]
  rfl

theorem gives_fenceAcqRel : Gives (.fenceAcqRel a sc) s (fun v => FenceDone u v t sc.wide true true) := by
  have run : exec (.fenceAcqRel a sc) s = execFenceAcqRel a sc s := rfl
  obtain rfl := issues_at h
  refine ⟨_, ?_, fenceDone_fenced h sc.wide true true⟩
  rw [run, execFenceAcqRel, instr_of_issues h hf, fenceBoth_eq none]

theorem gives_fenceSc : Gives (.fenceSc a sc) s (fun v => FenceDone u v t sc.wide true true) := by
  have run : exec (.fenceSc a sc) s = execFenceSc a sc s := rfl
  obtain rfl := issues_at h
  refine ⟨_, ?_, fenceDone_fenced h sc.wide true true⟩
  rw [run, execFenceSc, instr_of_issues h hf, fenceBoth_eq none]

end

end

/-! Maintenance of a range. -/

/-- The lines once those a test picks of a core are clean. -/
def cleanedIn (core : Nat) (p : GrottoLine → Bool) (gl : List GrottoLine) : List GrottoLine :=
  gl.map (fun l => if (l.core == core && p l) = true then cleanLine l else l)

section
variable {core : Nat} {p : GrottoLine → Bool} {gl : List GrottoLine} {l : GrottoLine}

theorem mem_cleanedIn_of_kept (hl : l ∈ gl) (hp : l.core ≠ core ∨ p l = false) : l ∈ cleanedIn core p gl := by
  refine List.mem_map.mpr ⟨l, hl, if_neg ?_⟩
  rcases hp with h | h <;> simp [h]

/-- Those picked have nothing dirty. -/
theorem dirty_of_mem_cleanedIn (hl : l ∈ cleanedIn core p gl) (hc : l.core = core) (hp : p l = true) : l.dirty = [] := by
  obtain ⟨x, -, e⟩ := List.mem_map.mp hl
  split at e
  · rw [← e]
    rfl
  · rename_i kept
    rw [e] at kept
    exact absurd (by simp [hc, hp]) kept

/-- Written back, then rid of what is not dirty: no line picked is left (R252). -/
theorem not_picked_of_mem_dropClean_cleanedIn (hl : l ∈ dropClean core p (cleanedIn core p gl)) (hc : l.core = core) : p l = false := by
  cases hp : p l
  · rfl
  · obtain ⟨dirty, some_bytes, x, hx, same, xcore, xp⟩ := dirty_of_mem_dropClean hl hc hp
    obtain ⟨kv, hkv⟩ := List.exists_mem_of_ne_nil _ some_bytes
    have := dirty kv hkv
    rw [← same, dirty_of_mem_cleanedIn hx xcore xp] at this
    cases this

end

section
variable {s u : State} {a : At} {t : Th} {ca n : Nat}

theorem maintain_eq (h : Issues s a t u) (hf : Free s t ⟨[], 1⟩) (ha : ca % 128 = 0) (hn : n % 128 = 0) (k : Th → (GrottoLine → Bool) → State → State) :
    maintain s a ca n k = .next (goTo (k t (inLines (rangeLines u t ca n)) u) t a.next) := by
  rw [maintain, instr_of_issues h hf, rangeOk, ha, hn]
  rfl

theorem gives_grottoWb (h : Issues s a t u) (hf : Free s t ⟨[], 1⟩) (ha : ca % 128 = 0) (hn : n % 128 = 0) :
    Gives (.grottoWb a ca n) s (fun v => v.core.gl = u.core.gl.map (fun l => if l.core = t.core && inLines (rangeLines u t ca n) l then { l with dirty := [] } else l)
      ∧ GoesOn v t a.next) := by
  have run : exec (.grottoWb a ca n) s = execGrottoWb a ca n s := rfl
  refine ⟨_, run.trans (maintain_eq h hf ha hn _), ?_, goesOn_goTo h ((frame_glFlushRange ..).run rfl) _⟩
  rw [goTo_core, glFlushRange_core, withLines_gl]
  exact List.map_congr_left (fun l _ => by simp [cleanLine])

theorem gives_grottoWbinv (h : Issues s a t u) (hf : Free s t ⟨[], 1⟩) (ha : ca % 128 = 0) (hn : n % 128 = 0) :
    Gives (.grottoWbinv a ca n) s (fun v => (∀ l ∈ v.core.gl, l.core = t.core → inLines (rangeLines u t ca n) l = false)
      ∧ (∀ l ∈ u.core.gl, l.bytes ≠ [] → l.core ≠ t.core ∨ inLines (rangeLines u t ca n) l = false → l ∈ v.core.gl) ∧ GoesOn v t a.next) := by
  have run : exec (.grottoWbinv a ca n) s = execGrottoWbinv a ca n s := rfl
  have gl : (goTo (glInvClean (glFlushRange u t.core (inLines (rangeLines u t ca n))) t.core (inLines (rangeLines u t ca n))) t a.next).core.gl
      = dropClean t.core (inLines (rangeLines u t ca n)) (cleanedIn t.core (inLines (rangeLines u t ca n)) u.core.gl) := by
    rw [goTo_core, glInvClean_core, withLines_gl, glFlushRange_core, withLines_gl]
    rfl
  refine ⟨_, run.trans (maintain_eq h hf ha hn _), ?_, ?_, goesOn_goTo h (((frame_glInvClean ..).run rfl).trans ((frame_glFlushRange ..).run rfl)) _⟩
  · rw [gl]
    exact fun l hl hc => not_picked_of_mem_dropClean_cleanedIn hl hc
  · rw [gl]
    exact fun l hl hb hp => mem_dropClean_of_kept (mem_cleanedIn_of_kept hl hp) hb hp

theorem gives_grottoInvClean (h : Issues s a t u) (hf : Free s t ⟨[], 1⟩) (ha : ca % 128 = 0) (hn : n % 128 = 0) :
    Gives (.grottoInvClean a ca n) s (fun v =>
      (∀ l ∈ v.core.gl, l.core = t.core → inLines (rangeLines u t ca n) l = true → ∀ kv ∈ l.bytes, l.dirty.contains kv.1 = true)
      ∧ (∀ l ∈ u.core.gl, l.bytes ≠ [] → l.core ≠ t.core ∨ inLines (rangeLines u t ca n) l = false → l ∈ v.core.gl) ∧ GoesOn v t a.next) := by
  have run : exec (.grottoInvClean a ca n) s = execGrottoInvClean a ca n s := rfl
  have gl : (goTo (glInvClean u t.core (inLines (rangeLines u t ca n))) t a.next).core.gl = dropClean t.core (inLines (rangeLines u t ca n)) u.core.gl := by
    rw [goTo_core, glInvClean_core, withLines_gl]
  refine ⟨_, run.trans (maintain_eq h hf ha hn _), ?_, ?_, goesOn_goTo h ((frame_glInvClean ..).run rfl) _⟩
  · rw [gl]
    exact fun l hl hc hp => (dirty_of_mem_dropClean hl hc hp).1
  · rw [gl]
    exact fun l hl hb hp => mem_dropClean_of_kept hl hb hp

/-- A range that does not start at a line halts the context (R252). -/
theorem gives_grottoWb_misaligned (h : Issues s a t u) (hf : Free s t ⟨[], 1⟩) (ha : ca % 128 ≠ 0) :
    Gives (.grottoWb a ca n) s (fun v => HaltsWith u v t.c 0x41 ca) := by
  have run : exec (.grottoWb a ca n) s = execGrottoWb a ca n s := rfl
  have bad : rangeOk ca n = false := by simp [rangeOk, ha]
  refine ⟨haltTh u t 0x41 ca, ?_, haltsWith_haltTh h (by decide) ca⟩
  rw [run, execGrottoWb, maintain, instr_of_issues h hf, bad, if_neg ha]
  rfl

/-! Read-only caches emptied (R242). -/

theorem goTo_roFresh (h : Issues s a t u) (kind pc : Nat) :
    (goTo (roFresh u t.core kind) t pc).core.ro = u.core.ro.filter (fun l => !(l.core == t.core && l.kind == kind))
      ∧ GoesOn (goTo (roFresh u t.core kind) t pc) t pc ∧ Only [.core, .run] [] u (goTo (roFresh u t.core kind) t pc) := by
  refine ⟨by rw [goTo_core]; rfl, goesOn_goTo h ((frame_roFresh ..).run rfl) _, ((frame_roFresh ..).onlyOf rfl).trans ((frame_goTo ..).onlyOf rfl)⟩

theorem gives_constInvalidate (h : Issues s a t u) (hf : Free s t ⟨[], 1⟩) :
    Gives (.constInvalidate a) s (fun v =>
      v.core.ro = u.core.ro.filter (fun l => !(l.core == t.core && l.kind == 1)) ∧ GoesOn v t a.next ∧ Only [.core, .run] [] u v) := by
  have run : exec (.constInvalidate a) s = execConstInvalidate a s := rfl
  exact ⟨_, run.trans (instrNext_of_issues h hf _), goTo_roFresh h 1 _⟩

theorem gives_descInvalidate (h : Issues s a t u) (hf : Free s t ⟨[], 1⟩) :
    Gives (.descInvalidate a) s (fun v =>
      v.core.ro = u.core.ro.filter (fun l => !(l.core == t.core && l.kind == 2)) ∧ GoesOn v t a.next ∧ Only [.core, .run] [] u v) := by
  have run : exec (.descInvalidate a) s = execDescInvalidate a s := rfl
  exact ⟨_, run.trans (instrNext_of_issues h hf _), goTo_roFresh h 2 _⟩

end

end Sys2Proof.Proofs
end

section
/-! A line of device memory arrives (R177, R247): the request frees, the cache fills, and the load that waits for it ends. -/

namespace Sys2Proof.Proofs

open Sys2Proof.Machine Sys2Proof.Claims Sys2Proof.Laws

/-! The loads of a core. -/

section
variable {s v : State} {core slot : Nat} {o : OutLoad}

theorem coreLoads_congr (h : v.run = s.run) (core : Nat) : coreLoads v core = coreLoads s core := by
  rw [coreLoads, h]
  rfl

theorem mem_coreLoads {y : Nat × OutLoad} :
    y ∈ coreLoads s core ↔ ∃ kr ∈ s.run.slots, kr.1 / 128 = core ∧ kr.1 % 128 = y.1 ∧ y.2 ∈ kr.2.loads := by
  unfold coreLoads
  simp only [List.mem_flatMap, List.mem_filter, List.mem_map, beq_iff_eq]
  constructor
  · rintro ⟨kr, ⟨hkr, hc⟩, o, ho, rfl⟩
    exact ⟨kr, hkr, hc, rfl, ho⟩
  · rintro ⟨kr, hkr, hc, hs, ho⟩
    exact ⟨kr, ⟨hkr, hc⟩, y.2, ho, by rw [hs]⟩

/-- The loads of the slot that a record names are the core's. -/
theorem mem_coreLoads_of_slotRec (hs : slot < 128) {r : SlotRec} (hr : slotRec s core slot = some r) (ho : o ∈ r.loads) : (slot, o) ∈ coreLoads s core := by
  refine mem_coreLoads.mpr ⟨(slotKey core slot, r), smapFind_mem hr, ?_, ?_, ho⟩
  · show slotKey core slot / 128 = core
    unfold slotKey
    omega
  · show slotKey core slot % 128 = slot
    unfold slotKey
    omega

/-- Once a load has been replaced or taken out, each load is the new one or was there. -/
theorem mem_coreLoads_setLoad (hs : slot < 128) {n : Option OutLoad} {y : Nat × OutLoad} (hy : y ∈ coreLoads (setLoad s core slot o n) core) :
    n = some y.2 ∨ ∃ z ∈ coreLoads s core, z.2 = y.2 := by
  unfold setLoad at hy
  split at hy
  · exact .inr ⟨y, hy, rfl⟩
  · rename_i r hr
    obtain ⟨kr, hkr, hc, hm, ho⟩ := mem_coreLoads.mp hy
    rcases mem_smapInsert hkr with rfl | hkr
    · obtain ⟨x, hx, hyx⟩ := List.mem_flatMap.mp ho
      split at hyx
      · exact .inl (Option.mem_toList.mp hyx)
      · obtain rfl := List.mem_singleton.mp hyx
        exact .inr ⟨_, mem_coreLoads_of_slotRec hs hr hx, rfl⟩
    · exact .inr ⟨y, mem_coreLoads.mpr ⟨kr, hkr, hc, hm, ho⟩, rfl⟩

/-- A load taken out is outstanding no more. -/
theorem not_mem_loads_setLoad {r : SlotRec} (hr : slotRec (setLoad s core slot o none) core slot = some r) : o ∉ r.loads := by
  unfold setLoad at hr
  split at hr
  · rename_i none
    rw [none] at hr
    cases hr
  · rw [slotRec_setSlot] at hr
    cases hr
    intro ho
    obtain ⟨x, -, hx⟩ := List.mem_flatMap.mp ho
    split at hx
    · cases hx
    · rename_i other
      obtain rfl := List.mem_singleton.mp hx
      exact other (beq_self_eq_true o)

theorem setLoad_core (n : Option OutLoad) : (setLoad s core slot o n).core = s.core := (frame_setLoad ..).core rfl

/-- Where no load wants a line, none is asked for. -/
theorem pump_eq_self (h : ∀ y ∈ coreLoads s core, y.2.want = []) : pump s core = s := by
  have none : (coreLoads s core).filter (fun x => !x.2.want.isEmpty) = [] := by
    rw [List.filter_eq_nil_iff]
    intro y hy
    simp [h y hy]
  rw [pump, none]
  rfl

end

/-! Requests of a number. -/

/-- No request has a number. -/
def NoReq (c : Cores) (id : Nat) : Prop := ∀ x ∈ c.lreq, x.id ≠ id

section
variable {s : State} {core slot id : Nat}

theorem noReq_acquireWide (h : NoReq s.core id) : NoReq (acquireWide s core).core id := by
  intro x hx
  obtain ⟨y, hy, e⟩ := List.mem_map.mp (show x ∈ updWhere s.core.lreq _ _ from hx)
  rw [← e]
  split
  · exact h y hy
  · exact h y hy

theorem loadDone_eq (s : State) (core slot : Nat) (acc : LoadAcc) (lanes : List LaneAcc) (got : List (Nat × List Byte)) :
    loadDone s core slot acc lanes got = if (acc.acq && acc.scope.wide) = true
      then acquireWide (putVals s core slot acc.dst acc.width (lanes.map (fun a => (a.lane, leNat (laneBytes (spaceKind acc.space) acc.width got a))))) core
      else putVals s core slot acc.dst acc.width (lanes.map (fun a => (a.lane, leNat (laneBytes (spaceKind acc.space) acc.width got a)))) := by
  rw [putVals, List.foldl_map]
  rfl

theorem noReq_loadDone (h : NoReq s.core id) (acc : LoadAcc) (lanes : List LaneAcc) (got : List (Nat × List Byte)) :
    NoReq (loadDone s core slot acc lanes got).core id := by
  have put : NoReq (putVals s core slot acc.dst acc.width (lanes.map (fun a => (a.lane, leNat (laneBytes (spaceKind acc.space) acc.width got a))))).core id := by
    obtain ⟨_, _, _, e⟩ := operandsOnly_putVals s core slot acc.dst acc.width
      (lanes.map (fun a => (a.lane, leNat (laneBytes (spaceKind acc.space) acc.width got a))))
    rw [e]
    exact h
  rw [loadDone_eq]
  split
  · exact noReq_acquireWide put
  · exact put

end

/-! A load given its line. -/

/-- A load with a line in hand. -/
def withLine (o : OutLoad) (l : LineReq) (bs : List Byte) : OutLoad :=
  { o with need := o.need.filter (fun x => x != (l.key, l.id)), got := (l.key, bs) :: o.got }

section
variable {s : State} {core slot : Nat} {o : OutLoad} {l : LineReq} {bs : List Byte}

theorem giveLine_eq (s : State) (core slot : Nat) (o : OutLoad) (l : LineReq) (bs : List Byte) :
    giveLine s core slot o l bs = if ((withLine o l bs).need.isEmpty && (withLine o l bs).want.isEmpty) = true
      then loadDone (setLoad s core slot o none) core slot o.acc o.lanes (withLine o l bs).got
      else setLoad s core slot o (some (withLine o l bs)) := rfl

theorem noReq_giveLine {id : Nat} (h : NoReq s.core id) : NoReq (giveLine s core slot o l bs).core id := by
  have kept (n : Option OutLoad) : NoReq (setLoad s core slot o n).core id := by rwa [setLoad_core]
  rw [giveLine_eq]
  split
  · exact noReq_loadDone (kept none) _ _ _
  · exact kept _

/-- A line given makes no load want another. -/
theorem want_giveLine (hs : slot < 128) (ho : o.want = []) (h : ∀ y ∈ coreLoads s core, y.2.want = []) :
    ∀ y ∈ coreLoads (giveLine s core slot o l bs) core, y.2.want = [] := by
  intro y hy
  have from_setLoad {n : Option OutLoad} (hn : ∀ x, n = some x → x.want = []) (hy : y ∈ coreLoads (setLoad s core slot o n) core) : y.2.want = [] := by
    rcases mem_coreLoads_setLoad hs hy with e | ⟨z, hz, e⟩
    · exact hn _ e
    · exact e ▸ h z hz
  rw [giveLine_eq] at hy
  split at hy
  · rw [coreLoads_congr ((frame_loadDone ..).run rfl)] at hy
    exact from_setLoad (n := none) (by simp) hy
  · exact from_setLoad (n := some (withLine o l bs)) (by rintro _ ⟨⟩; exact ho) hy

/-- A load of one lane that waited for this line alone ends: its register holds what it read (R177). -/
theorem giveLine_ends {a : LaneAcc} (hlanes : o.lanes = [a]) (hneed : o.need = [(l.key, l.id)]) (hwant : o.want = []) (hl : a.lane < 32)
    (hd : o.acc.dst < 64) (hw : o.acc.width ≤ 4) (hq : o.acc.acq = false) :
    regRead (giveLine s core slot o l bs) core slot o.acc.dst a.lane
        = BitVec.ofNat 32 (leNat (laneBytes (spaceKind o.acc.space) o.acc.width ((l.key, bs) :: o.got) a))
      ∧ ∀ r, slotRec (giveLine s core slot o l bs) core slot = some r → o ∉ r.loads := by
  have last : ((withLine o l bs).need.isEmpty && (withLine o l bs).want.isEmpty) = true := by simp [withLine, hneed, hwant]
  have done : giveLine s core slot o l bs
      = putVal (setLoad s core slot o none) core slot o.acc.dst o.acc.width a.lane
          (leNat (laneBytes (spaceKind o.acc.space) o.acc.width ((l.key, bs) :: o.got) a)) := by
    rw [giveLine_eq, if_pos last, loadDone_eq, hq, hlanes]
    rfl
  have narrow : o.acc.width ≠ 8 := by omega
  rw [done]
  constructor
  · rw [putVal, if_neg narrow]
    exact regRead_regWrite_result hd hl (Nat.testBit_two_pow_self ..)
  · intro r hr
    rw [slotRec_congr ((frame_putVal ..).run rfl)] at hr
    exact not_mem_loads_setLoad hr

end

/-! The line filled. -/

theorem smapFind_zipIdx (bs : List Byte) (n i : Nat) : smapFind ((bs.zipIdx n).map (fun bi => (bi.2, bi.1))) i = if n ≤ i then bs[i - n]? else none := by
  induction bs generalizing n with
  | nil => simp [smapFind]
  | cons b bs ih =>
    rw [List.zipIdx_cons, List.map_cons, smapFind, ih]
    by_cases h : i = n
    · simp [h]
    · rw [if_neg h]
      by_cases h' : n ≤ i
      · rw [if_pos (by omega), if_pos h', show i - n = i - (n + 1) + 1 by omega, List.getElem?_cons_succ]
      · rw [if_neg (by omega), if_neg h']

/-- Lanes read the same of two copies of a line that agree on its 128 bytes. -/
theorem laneBytes_congr {bs bs' : List Byte} (h : ∀ j, j < 128 → nthD bs' j 0 = nthD bs j 0) (kind n key : Nat) (got : List (Nat × List Byte)) (a : LaneAcc) :
    laneBytes kind n ((key, bs') :: got) a = laneBytes kind n ((key, bs) :: got) a := by
  refine List.map_congr_left (fun i _ => ?_)
  have size : 0 < lineSize a.tgt ∧ lineSize a.tgt ≤ 128 := by
    unfold lineSize
    split <;> decide
  have off : (a.addr + i) % lineSize a.tgt < 128 := (Nat.mod_lt _ size.1).trans_le size.2
  dsimp only
  rw [List.find?_cons, List.find?_cons]
  cases key == lineKey ((a.addr + i) / lineSize a.tgt * lineSize a.tgt) a.tgt kind
  · rfl
  · exact h _ off

section
variable {s u : State} {l : LineReq} {bs : List Byte} {ctx : Nat}

/-- The cache filled with a line of device memory that it did not hold: nothing else of the cores but flags changes, and the loads that wait
read the bytes that arrived (R247). -/
theorem fillLine_absent (hk : keyKind l.key = 3) (ht : keyTgt l.key = 0) (absent : glFind s l.core (keyAddr l.key) false = none) :
    LinesOnly s.core (fillLine s l bs ctx).core ∧ ∀ j, j < 128 → nthD (lineBytes (fillLine s l bs ctx) l bs) j 0 = nthD bs j 0 := by
  have host : (keyTgt l.key != 0) = false := by simp [ht]
  obtain ⟨lines, filled⟩ := glFill_absent (mask := l.mask) ⟨l.cls, l.reg, l.gen⟩ bs absent
  have result : LinesOnly s.core (fillLine s l bs ctx).core
      ∧ ∀ g, glFind (fillLine s l bs ctx) l.core (keyAddr l.key) false = some g → g.bytes = bs.zipIdx.map (fun bi => (bi.2, bi.1)) := by
    have one : fillLine s l bs ctx = if (l.shut || !s.domOn (domOfGallery (galleryOfCore l.core))) = true then s
        else glFill s l.core (keyAddr l.key) false ⟨l.cls, l.reg, l.gen⟩ l.mask bs := by
      simp [fillLine, hk, ht]
    rw [one]
    split
    · exact ⟨⟨_, _, rfl⟩, fun g hg => by rw [absent] at hg; cases hg⟩
    · exact ⟨lines, filled⟩
  refine ⟨result.1, fun j hj => ?_⟩
  unfold lineBytes
  rw [host]
  split
  · split
    · rename_i g found
      rw [nthD_tabulate _ _ _ hj, result.2 g found, smapFind_zipIdx, if_pos (Nat.zero_le _), Nat.sub_zero, nthD]
      cases bs[j]? <;> rfl
    · rfl
  · rfl

/-- The state with a request freed. -/
def withoutReq (s : State) (id : Nat) : State := { s with core := { s.core with lreq := s.core.lreq.filter (fun x => x.id != id) } }

/-- The line of a request arrives for one load, none of the core wanting another line. -/
theorem lineArrived_one {slot : Nat} {o : OutLoad} (hk : keyKind l.key = 3) (ht : keyTgt l.key = 0)
    (absent : glFind u l.core (keyAddr l.key) false = none)
    (waits : (coreLoads u l.core).filter (fun x => x.2.need.contains (l.key, l.id)) = [(slot, o)])
    (wants : ∀ y ∈ coreLoads u l.core, y.2.want = []) :
    LoadEnds (lineArrived u l false bs ctx) l.core slot o l bs ∧ NoReq (lineArrived u l false bs ctx).core l.id := by
  have asked : (slot, o) ∈ coreLoads u l.core := by
    have one : (slot, o) ∈ (coreLoads u l.core).filter (fun x => x.2.need.contains (l.key, l.id)) := by
      rw [waits]
      exact List.mem_singleton_self _
    exact (List.mem_filter.mp one).1
  have hs : slot < 128 := by
    obtain ⟨kr, -, -, hm, -⟩ := mem_coreLoads.mp asked
    change kr.1 % 128 = slot at hm
    omega
  obtain ⟨lines, bytes⟩ := fillLine_absent (s := withoutReq u l.id) (bs := bs) (ctx := ctx) hk ht absent
  have wants' : ∀ y ∈ coreLoads (fillLine (withoutReq u l.id) l bs ctx) l.core, y.2.want = [] := by
    rw [coreLoads_congr ((frame_fillLine ..).run rfl)]
    exact wants
  have arrived : lineArrived u l false bs ctx = giveLine (fillLine (withoutReq u l.id) l bs ctx) l.core slot o l (lineBytes (fillLine (withoutReq u l.id) l bs ctx) l bs) := by
    unfold lineArrived
    rw [waits]
    exact pump_eq_self (want_giveLine hs (wants _ asked) wants')
  have none : NoReq (fillLine (withoutReq u l.id) l bs ctx).core l.id := by
    obtain ⟨_, _, e⟩ := lines
    rw [e]
    intro x hx
    simpa using (List.mem_filter.mp hx).2
  rw [arrived]
  refine ⟨fun a hlanes hneed hwant hl hd hw hq => ?_, noReq_giveLine none⟩
  rw [← laneBytes_congr bytes]
  exact giveLine_ends hlanes hneed hwant hl hd hw hq

/-- LOAD_FILL of a line of device memory brings it and ends the load (R177, R247). -/
theorem gives_loadFill {core line slot : Nat} {o : OutLoad} (hc : core < 240) (ht : keyTgt line = 0) (hk : keyKind line = 3)
    (found : s.core.lreq.find? (fun l => l.core == core && l.key == line) = some l)
    (read : devRead 4 s ⟨l.cls, l.reg, l.gen⟩ (keyAddr line) 128 = ((false, bs), u)) (absent : glFind s core (keyAddr line) false = none)
    (waits : (coreLoads s core).filter (fun y => y.2.need.contains (l.key, l.id)) = [(slot, o)]) (wants : ∀ y ∈ coreLoads s core, y.2.want = []) :
    Gives (.loadFill core line) s (fun v => LoadEnds v core slot o l bs ∧ ∀ x ∈ v.core.lreq, x.id ≠ l.id) := by
  have named := List.find?_some found
  simp only [Bool.and_eq_true, beq_iff_eq] at named
  obtain ⟨rfl, rfl⟩ := named
  have taken := frame_devRead 4 s ⟨l.cls, l.reg, l.gen⟩ (keyAddr l.key) 128
  rw [read] at taken
  have loads := coreLoads_congr (taken.run rfl) l.core
  have run : exec (.loadFill l.core l.key) s = execLoadFill l.core l.key s := rfl
  have done : exec (.loadFill l.core l.key) s = .next (lineArrived u l false bs (coreCtx s l.core)) := by
    rw [run, execLoadFill, if_pos hc, found]
    simp only [ht, read]
  refine ⟨_, done, lineArrived_one hk ht ((glFind_congr (congrArg Cores.gl (taken.core rfl)) ..).trans absent) (loads ▸ waits) (loads ▸ wants)⟩

end

end Sys2Proof.Proofs
end

section
/-! Memory accesses of threads: the obligation. -/

namespace Sys2Proof.Proofs

open Sys2Proof.Machine Sys2Proof.Claims Sys2Proof.Laws

/-- Settles O55: a clause each for the scratchpad, the Grotto cache's lines, the slice, the fences, the maintenance of caches, and the arrival
of a line. -/
theorem threadMemoryAccessesAreMade : Obligations.ThreadMemoryAccessesAreMade := by
  unfold Obligations.ThreadMemoryAccessesAreMade
  refine ⟨fun a s u t h => ⟨fun acc hw hd hq hf => ?load, fun acc hw hr hf => ?store, fun acc l old hw hd hf hr hq hl hlanes => ?atomic,
    fun sc hf => ?fence, fun ca n hf => ?maintenance, fun hf => ?readOnly⟩, fun core line slot o bs s u l hc ht hk found read absent waits wants => ?fill⟩
  case load =>
    refine ⟨gives_load_scratch h hw hd hq hf, fun x hs hb => gives_load_scratchBad h hw hf hs hb,
      fun la p one => ⟨fun bs hit => ?_, fun absent unasked room => ?_⟩⟩
    · exact gives_load_hit h hw hd hq hf one hit
    · exact gives_load_miss h hw hf one absent unasked room
  case store => exact ⟨gives_store_scratch h hw hr hf, fun la p one apart room => gives_store_ctx h hw hr hf one apart room⟩
  case atomic =>
    refine ⟨fun hs hb hold => gives_atomic_scratch h hw hd hf hr hq hl hlanes hs hb hold, ?_⟩
    exact fun la p bs w one lane whole apart first last sound read hold => gives_atomic_ctx h hw hd hf hr hq one lane whole apart first last sound read hold
  case fence =>
    refine ⟨gives_fenceAcquire h hf sc, fun none => ⟨?_, ?_, ?_⟩⟩
    · exact gives_fenceRelease h hf none sc
    · exact gives_fenceAcqRel h hf none sc
    · exact gives_fenceSc h hf none sc
  case maintenance =>
    refine ⟨fun ha hn => ⟨?_, ?_, ?_⟩, fun ha _ => gives_grottoWb_misaligned h hf ha⟩
    · exact gives_grottoWb h hf ha hn
    · exact gives_grottoWbinv h hf ha hn
    · exact gives_grottoInvClean h hf ha hn
  case readOnly => exact ⟨gives_constInvalidate h hf, gives_descInvalidate h hf⟩
  case fill => exact gives_loadFill hc ht hk found read absent waits wants

end Sys2Proof.Proofs
end

section
/-! A tender's row over a window of host memory (R305, R313, R449): its start lies in device memory and a later piece in the host, since a
lower-numbered segment covers the middle of the row. While upstream requests are not allowed the job cannot complete. -/

namespace Sys2Proof.Proofs

open Sys2Proof.Machine Sys2Proof.Claims

/-- An access ends well in a state that a test accepts. -/
def endsWith (p : State → Bool) (r : Res Unit) : Bool :=
  match r with
  | .ok _ u => p u
  | _ => false

theorem exists_ok_of_endsWith {p : State → Bool} {r : Res Unit} (h : endsWith p r = true) : ∃ u, r = .ok () u ∧ p u = true := by
  cases r with
  | ok _ u => exact ⟨u, rfl, h⟩
  | absent _ _ _ => cases h
  | halt _ _ _ => cases h

/-- ZERO of one row of 128 bytes from context address 4,032 on. -/
def zeroRow : TenderJob where
  kind := .zero
  src := .ctx 0
  dst := .ctx 4032
  rows := 1
  rowBytes := 128
  srcPitch := 0
  dstPitch := 0
  cols := 0
  elemBytes := 0
  srcFmt := .plain .fp32
  dstFmt := .plain .fp32
  srcScale := 0
  dstScale := 0
  index := 0
  elemFmt := .plain .fp32
  census := none
  tag := 0

/-- The job on tender 0, started, its checks not yet made. -/
def zeroRowJob : EngJob := jobOnCore0 7 (unitId 8 0) (.tender zeroRow) true

/-- A segment of context 1 staged and applied (R303, R304): `len` bytes from `base` on, with the attributes of `attr`. -/
def applySeg (s : State) (no base len attr : Nat) : State :=
  segApply ((s.put F.segVbase_VBASE base 1 no).put F.segLen_LENGTH len 1 no) 1 no attr

/-- Context 1 with addresses 4,096 to 8,191 in host memory by segment 0, and 0 to 65,535 in device memory by segment 1; both may be read and
written. -/
def hostInDevice (s : State) : State := applySeg (applySeg s 0 4096 4096 0x37) 1 0 65536 0x33

/-- The block that issued the job, whose token entry 0 the job holds. -/
def zeroingBlock : BlockRec := { lonelyBlock with tokens := ⟨false, 1⟩ :: List.replicate 63 ⟨true, 0⟩ }

/-- Context 1 runs with those segments and the job, and Bus Master Enable is 0. -/
def rowOverHost : State :=
  let s := (((State.reset.put F.idCoreMap_VALID 1 0).put F.pwrDomStatus_STATE 0 0).put F.pwrDomStatus_STATE 0 5).put F.ctxState_STATE 1 1
  let s := hostInDevice (s.put F.dramSpace_LIMIT_GROUPS 1)
  { s with
    run := { s.run with launches := [lonelyLaunch], blocks := [zeroingBlock], slots := [(0, ⟨2, 0, [lonelyFrag], []⟩)] }
    eng := { s.eng with jobs := [zeroRowJob] } }

/-- The job once its checks have passed, and the state then (R61). -/
def zeroRowChecked : EngJob := { zeroRowJob with cursor := 1 }
def rowChecked : State := updJob rowOverHost zeroRowJob.id (fun x => { x with cursor := 1 })

/-- The job runs on tender 0 and nothing holds it. -/
theorem zeroRow_runs : running rowOverHost (unitId 8 0) = some zeroRowJob ∧ jobRec rowOverHost zeroRowJob.id = some zeroRowJob
    ∧ tenderHeld rowOverHost zeroRowJob zeroRow = false := by
  decide +kernel

/-- The row lies whole in segment 1, where it starts, so its checks pass (R305, R313). -/
theorem zeroRow_checked : Checked rowOverHost zeroRowJob zeroRow zeroRowChecked rowChecked := by
  have passes : endsWith (fun w => decide (w = rowOverHost)) (tenderCheck zeroRowJob zeroRow rowOverHost) = true := by decide +kernel
  obtain ⟨w, ends, same⟩ := exists_ok_of_endsWith passes
  obtain rfl := of_decide_eq_true same
  exact .inr ⟨rfl, rfl, rowOverHost, ends, rfl⟩

/-- Where the row starts is no host memory; its second piece, at 4,096, is. -/
theorem row_starts_in_device : (tenderWrites zeroRow).any (inHost rowChecked zeroRowJob.ctx) = false
    ∧ (stepsLeft zeroRowChecked zeroRow).map (fun x => inHost rowChecked zeroRowJob.ctx (stepDst zeroRow x)) = [false, true] := by
  decide +kernel

theorem zeroRow_reads_no_host : tenderNeeds zeroRowChecked zeroRow [] (stepsLeft zeroRowChecked zeroRow) rowChecked = [] := by
  decide +kernel

/-- The note that a step of the job is done. -/
def stepDone (s : State) : State := updJob s zeroRowJob.id (fun x => { x with cursor := x.cursor + 1 })

/-- The steps end well by themselves: each piece lies in a segment that may be written. -/
theorem zeroRow_steps_end_well : ∃ u, tenderRun zeroRowChecked zeroRow [] stepDone (stepsLeft zeroRowChecked zeroRow) rowChecked = .ok () u := by
  have walks : endsWith (fun _ => true) (tenderRun zeroRowChecked zeroRow [] stepDone (stepsLeft zeroRowChecked zeroRow) rowChecked) = true := by
    decide +kernel
  obtain ⟨u, ends, -⟩ := exists_ok_of_endsWith walks
  exact ⟨u, ends⟩

/-- The names of the engines' jobs, and a context's state and loss of its host path, as an outcome leaves them. -/
def engineLeft (o : Out) (c : Nat) : List Nat × Nat × Bool :=
  match o with
  | .next v => (v.eng.jobs.map (fun j => j.id), v.ctxState c, v.isSet F.ctxState_HOST_PATH_LOST c)
  | _ => ([], 0, false)

/-- The job needs an upstream request, so its context ends (R449), and the job is still on its tender. -/
theorem zeroRow_loses_host_path : engineLeft (exec (.engineJobComplete (unitId 8 0)) rowOverHost) 1 = ([7], 3, true) := by
  decide +kernel

/-- Refutes O57: its clause on ENGINE_JOB_COMPLETE promises that a tender's job completes where upstream requests are not allowed and no row
of it starts in host memory. In `rowOverHost` the row starts in device memory and goes on in the host, where a lower-numbered segment covers
it; R449 ends the context, and the job has not completed. -/
theorem not_enginesAndRoutinesRun : ¬ Obligations.EnginesAndRoutinesRun := by
  unfold Obligations.EnginesAndRoutinesRun
  rintro ⟨-, -, engines, -⟩
  obtain ⟨runs, listed, goes⟩ := zeroRow_runs
  obtain ⟨u, steps⟩ := zeroRow_steps_end_well
  obtain ⟨-, tender⟩ := engines (unitId 8 0) rowOverHost zeroRowJob (.inl (by decide)) runs
  obtain ⟨v, answer, ⟨gone, -⟩, -⟩ := tender zeroRow [] zeroRowChecked rowChecked rowChecked u rfl rfl listed goes zeroRow_checked rfl
    zeroRow_reads_no_host (.inr row_starts_in_device.1) steps
  have left : v.eng.jobs.map (fun j => j.id) = [7] := by
    have lost := zeroRow_loses_host_path
    rw [answer] at lost
    exact congrArg Prod.fst lost
  obtain ⟨j, stays, named⟩ := List.mem_map.mp (left ▸ List.mem_singleton_self 7)
  exact gone j stays named

end Sys2Proof.Proofs
end

section
/-! Bollards (R228 to R234): the value that a change leaves, the start conditions it satisfies, the notification. -/

namespace Sys2Proof.Proofs

open Sys2Proof.Machine Sys2Proof.Claims Sys2Proof.Laws

/-! Values. -/

section
variable (s : State) (n inc k : Nat)

theorem bolValue_lt : bolValue s n < 2 ^ 64 := State.get_lt s F.bolValue_VALUE n 0 rfl

theorem bolValue_bolChanged : bolValue (bolChanged s n) k = bolValue s k := (frame_bolChanged s n).get F.bolValue_VALUE rfl k

/-- An advance adds to the value, modulo 2^64 (R229). -/
theorem bolValue_bolApply_same : bolValue (bolApply s n inc) n = (bolValue s n + inc) % 2 ^ 64 :=
  (bolValue_bolChanged ..).trans (State.get_bump_same s inc n 0 rfl)

theorem bolValue_bolApply_ne {k : Nat} (h : k ≠ n) : bolValue (bolApply s n inc) k = bolValue s k :=
  (bolValue_bolChanged ..).trans (State.get_put_i s _ 0 0 h)

theorem bolValue_bump : bolValue (s.bump F.bolValue_VALUE inc n) n = (bolValue s n + inc) % 2 ^ 64 := State.get_bump_same s inc n 0 rfl

end

/-! Start conditions (R226, R232). -/

/-- A queue's record once the start conditions of its entries that bollard `n` at value `v` satisfies are gone. -/
def latched (v n : Nat) (x : QRec) : QRec := { x with entries := x.entries.map (fun e => { e with start := startKept v n e.start }) }

theorem smapFind_mapValues {α β : Type} (f : α → β) (m : SMap α) (a : Nat) :
    smapFind (m.map (fun kv => (kv.1, f kv.2))) a = (smapFind m a).map f := by
  induction m with
  | nil => rfl
  | cons x m ih =>
    rw [List.map_cons, smapFind, smapFind, ih]
    split <;> rfl

theorem qRec_congr {s t : State} (h : t.obj = s.obj) (q : Nat) : qRec t q = qRec s q := by rw [qRec, h, qRec]

theorem qRec_setQ (s : State) (q : Nat) (x : QRec) : qRec (setQ s q x) q = x := by
  rw [qRec, setQ, State.put_obj, smapGet, smapFind_insert, if_pos rfl, Option.getD_some]

theorem qRec_bolLatch (s : State) (n q : Nat) : qRec (bolLatch s n) q = latched (bolValue s n) n (qRec s q) := by
  show (smapFind (s.obj.q.map (fun kq => (kq.1, latched (bolValue s n) n kq.2))) q).getD QRec.initial = _
  rw [smapFind_mapValues, qRec, smapGet]
  cases smapFind s.obj.q q <;> rfl

theorem qRec_bolChanged (s : State) (n q : Nat) : qRec (bolChanged s n) q = latched (bolValue s n) n (qRec s q) := by
  rw [bolChanged, qRec_congr ((frame_bolNotify ..).obj rfl), qRec_congr ((frame_berthReopen ..).obj rfl), qRec_congr ((frame_bolWake ..).obj rfl),
    qRec_bolLatch]

theorem qRec_bolApply (s : State) (n inc q : Nat) : qRec (bolApply s n inc) q = latched ((bolValue s n + inc) % 2 ^ 64) n (qRec s q) := by
  rw [bolApply, qRec_bolChanged, bolValue_bump, qRec_congr (State.bump_obj ..)]

/-! The notification (R234). -/

/-- A signalled event is pending (R440). -/
theorem isSet_signal_pending (s : State) (n : Nat) : (signal s n).isSet F.evt_PENDING n = true := by
  unfold signal
  dsimp only
  split
  · assumption
  · split
    · exact ((frame_msixSend ..).isSet F.evt_PENDING rfl n).trans (isSet_put_one _ n rfl)
    · exact isSet_put_one _ n rfl

section
variable {s : State} {n : Nat}

theorem bolNotify_of_short (h : bolValue s n < s.get F.bolNotify_THRESHOLD n) : bolNotify s n = s := by
  unfold bolNotify
  rw [decide_eq_false (by omega), Bool.and_false]
  rfl

theorem bolNotify_of_notified (h : s.isSet F.bolCtrl_NOTIFIED n = true) : bolNotify s n = s := by
  unfold bolNotify
  rw [h, Bool.not_true, Bool.and_false, Bool.false_and]
  rfl

section
variable (armed : s.isSet F.bolCtrl_NOTIFY_EN n = true) (reached : s.get F.bolNotify_THRESHOLD n ≤ bolValue s n)
include armed reached

theorem bolNotify_of_reached (unsent : s.isSet F.bolCtrl_NOTIFIED n = false) :
    bolNotify s n = signal (s.put F.bolCtrl_NOTIFIED 1 n) (s.get F.bolCtrl_EVENT n) := by
  unfold bolNotify
  rw [armed, unsent, decide_eq_true reached]
  rfl

theorem isSet_bolNotify_notified : (bolNotify s n).isSet F.bolCtrl_NOTIFIED n = true := by
  cases h : s.isSet F.bolCtrl_NOTIFIED n with
  | true => rw [bolNotify_of_notified h, h]
  | false =>
    rw [bolNotify_of_reached armed reached h]
    exact ((frame_signal ..).isSet F.bolCtrl_NOTIFIED rfl n).trans (isSet_put_one _ n rfl)

theorem isSet_bolNotify_pending (unsent : s.isSet F.bolCtrl_NOTIFIED n = false) :
    (bolNotify s n).isSet F.evt_PENDING (s.get F.bolCtrl_EVENT n) = true := by
  rw [bolNotify_of_reached armed reached unsent]
  exact isSet_signal_pending ..

end

/-- A notification sets NOTIFIED alone of BOL_CTRL. -/
theorem get_bolNotify {f : Fld} (hf : f.ok = true) (hr : f.reg = .bolCtrl) (apart : f.hi < 14 ∨ 14 < f.lo) (k : Nat) :
    (bolNotify s n).get f k = s.get f k := by
  unfold bolNotify
  split
  · exact ((frame_signal ..).get f (by rw [hr]; rfl) k).trans (State.get_put_bits s 1 n 0 k 0 rfl hf apart)
  · rfl

end

end Sys2Proof.Proofs
end

section
/-! Threads that wait for bollards (R230, R231): the fragments released, the registers written, the caches acquired. -/

namespace Sys2Proof.Proofs

open Sys2Proof.Machine Sys2Proof.Claims Sys2Proof.Laws

/-! A fragment released. -/

/-- The fragments of a slot once one of them waits for nothing, settled. -/
def wokenFrags (now : Nat) (fs : List Frag) (f : Frag) : List Frag :=
  settleFrags now (updWhere fs (fun g => g == f) (fun g => { g with wait := .none }))

section
variable {fs : List Frag} {f g : Frag} {now : Nat}

/-- A fragment that waits is not merged (R159). -/
theorem mem_mergeFrags (hf : f ∈ fs) (hw : f.wait ≠ .none) : f ∈ mergeFrags fs := by
  induction fs with
  | nil => exact hf
  | cons h fs ih =>
    unfold mergeFrags
    dsimp only
    split
    · rcases List.mem_cons.mp hf with rfl | hf
      · exact List.mem_cons_self ..
      · exact List.mem_cons_of_mem _ (ih hf)
    · rename_i m found
      have same := List.find?_some found
      simp only [Bool.and_eq_true, beq_iff_eq] at same
      obtain ⟨⟨-, mwaits⟩, hwaits⟩ := same
      rcases List.mem_cons.mp hf with rfl | hf
      · exact absurd hwaits hw
      · have other : f ≠ m := fun e => hw (e ▸ mwaits)
        exact List.mem_cons_of_mem _ (List.mem_filter.mpr ⟨ih hf, by simpa using other⟩)

/-- The parked fragment chosen may be made active (R161). -/
theorem mayTurn_of_longestParked (h : longestParked fs = some g) : g.wait.mayTurn = true := by
  have chosen (l : List Frag) (hl : ∀ x ∈ l, x.wait.mayTurn = true) (b : Option Frag) (hb : ∀ x ∈ b, x.wait.mayTurn = true) :
      ∀ x ∈ l.foldl (fun b f => match b with | none => some f | some g => if f.age < g.age then some f else some g) b, x.wait.mayTurn = true := by
    induction l generalizing b with
    | nil => exact hb
    | cons y l ih =>
      obtain ⟨hy, hl⟩ := List.forall_mem_cons.mp hl
      refine ih hl _ (fun x hx => ?_)
      cases b with
      | none => exact Option.some.inj hx ▸ hy
      | some z =>
        dsimp only at hx
        split at hx
        · exact Option.some.inj hx ▸ hy
        · exact hb x hx
  refine chosen _ (fun x hx => ?_) none (by simp) g h
  have := (List.mem_filter.mp hx).2
  simp only [Bool.and_eq_true] at this
  exact this.2

theorem mem_promote (n : Nat) (hf : f ∈ fs) (stuck : f.wait.mayTurn = false) : f ∈ promote n now fs := by
  induction n generalizing fs with
  | zero => exact hf
  | succ n ih =>
    unfold promote
    split
    · split
      · exact hf
      · rename_i g chosen
        have other : f ≠ g := fun e => by rw [e, mayTurn_of_longestParked chosen] at stuck; cases stuck
        exact ih (List.mem_map.mpr ⟨f, hf, if_neg (by simpa using other)⟩)
    · exact hf

/-- A fragment that waits for what no turn gives stays as it is when its slot is settled. -/
theorem mem_settleFrags (hf : f ∈ fs) (hm : f.mask ≠ 0) (stuck : f.wait.mayTurn = false) : f ∈ settleFrags now fs := by
  have waits : f.wait ≠ .none := fun e => by rw [e] at stuck; cases stuck
  exact mem_promote _ (mem_mergeFrags (List.mem_filter.mpr ⟨hf, by simpa using hm⟩) waits) stuck

theorem mem_wokenFrags (hf : f ∈ fs) (other : f ≠ g) (hm : f.mask ≠ 0) (stuck : f.wait.mayTurn = false) : f ∈ wokenFrags now fs g :=
  mem_settleFrags (List.mem_map.mpr ⟨f, hf, if_neg (by simpa using other)⟩) hm stuck

theorem laneAt_wokenFrags {l pc : Nat} (h : LaneAt fs l pc) : LaneAt (wokenFrags now fs g) l pc := by
  obtain ⟨x, hx, hm, hp, hw⟩ := h
  refine laneAt_settleFrags now ⟨_, List.mem_map_of_mem hx, ?_⟩
  split
  · exact ⟨hm, hp, rfl⟩
  · exact ⟨hm, hp, hw⟩

/-- The lanes of the fragment released are where it waited. -/
theorem laneAt_wokenFrags_of_mem {l : Nat} (hf : f ∈ fs) (hl : f.mask.testBit l = true) : LaneAt (wokenFrags now fs f) l f.pc :=
  laneAt_settleFrags now ⟨_, List.mem_map_of_mem hf, by rw [if_pos (beq_self_eq_true f)]; exact ⟨hl, rfl, rfl⟩⟩

end

/-! The end of a wait. -/

/-- The registers of a wait's end: the value in two, TIMED_OUT in the third (R230, log 3). -/
def waitRegs (s : State) (core slot d mask v : Nat) (timedOut : Bool) : State :=
  regWrite (regWrite64 s core slot d mask (fun _ => v)) core slot (d + 2) mask (fun _ => if timedOut then 1 else 0)

/-- A slot with one of its fragments released. -/
def wakeFrag (s : State) (core slot : Nat) (f : Frag) : State :=
  match slotRec s core slot with
  | none => s
  | some r => setSlot s core slot { r with frags := wokenFrags s.ns r.frags f }

theorem bolWaitEnd_eq (s : State) (core slot : Nat) (f : Frag) (v : Nat) (timedOut : Bool) : bolWaitEnd s core slot f v timedOut
    = if timedOut then wakeFrag (waitRegs s core slot (bolDst f.wait) f.mask v timedOut) core slot f
      else acquireWide (wakeFrag (waitRegs s core slot (bolDst f.wait) f.mask v timedOut) core slot f) core := by
  unfold bolWaitEnd wakeFrag waitRegs wokenFrags
  dsimp only <;> cases slotRec (regWrite (regWrite64 s core slot (bolDst f.wait) f.mask (fun _ => v)) core slot (bolDst f.wait + 2) f.mask
    (fun _ => if timedOut then 1 else 0)) core slot <;> rfl

section
variable {s : State} {core slot d mask v : Nat} {timedOut : Bool} {f g : Frag}

theorem operandsOnly_regWrite64 {h : Nat → Nat} : OperandsOnly s (regWrite64 s core slot d mask h) :=
  (operandsOnly_regWrite ..).trans (operandsOnly_regWrite ..)

/-- Both halves of a 64-bit result stand in their registers (R172, R173). -/
theorem regRead_regWrite64 {h : Nat → Nat} (hd : d < 63) {l : Nat} (hl : l < 32) (hm : mask.testBit l = true) :
    regRead (regWrite64 s core slot d mask h) core slot d l = BitVec.ofNat 32 (h l)
      ∧ regRead (regWrite64 s core slot d mask h) core slot (d + 1) l = BitVec.ofNat 32 (h l / 2 ^ 32) :=
  ⟨regRead_of_recent (recent_regWrite_other (by decide) (by omega) (by omega) (recent_regWrite (by omega) hl hm)),
    regRead_of_recent (recent_regWrite (by omega) hl hm)⟩

theorem operandsOnly_waitRegs : OperandsOnly s (waitRegs s core slot d mask v timedOut) :=
  operandsOnly_regWrite64.trans (operandsOnly_regWrite ..)

/-- Three registers written one after the other all hold their results: none displaces another from the cache (R172, R173). -/
theorem regRead_waitRegs (hd : d < 62) {l : Nat} (hl : l < 32) (hm : mask.testBit l = true) :
    regRead (waitRegs s core slot d mask v timedOut) core slot d l = BitVec.ofNat 32 v
      ∧ regRead (waitRegs s core slot d mask v timedOut) core slot (d + 1) l = BitVec.ofNat 32 (v / 2 ^ 32)
      ∧ regRead (waitRegs s core slot d mask v timedOut) core slot (d + 2) l = if timedOut then 1 else 0 := by
  have low := recent_regWrite (s := s) (core := core) (slot := slot) (f := fun _ => BitVec.ofNat 32 v) (show d < 64 by omega) hl hm
  have low := recent_regWrite_other (mask := mask) (f := fun _ => BitVec.ofNat 32 (v / 2 ^ 32)) (by decide) (show d + 1 < 64 by omega) (by omega) low
  have high := recent_regWrite (s := regWrite s core slot d mask (fun _ => BitVec.ofNat 32 v)) (core := core) (slot := slot)
    (f := fun _ => BitVec.ofNat 32 (v / 2 ^ 32)) (show d + 1 < 64 by omega) hl hm
  refine ⟨?_, ?_, ?_⟩
  · exact regRead_of_recent (recent_regWrite_other (by decide) (by omega) (by omega) low)
  · exact regRead_of_recent (recent_regWrite_other (by decide) (by omega) (by omega) high)
  · exact regRead_of_recent (recent_regWrite (by omega) hl hm)

theorem wakeFrag_core (s : State) (core slot : Nat) (f : Frag) : (wakeFrag s core slot f).core = s.core := by
  unfold wakeFrag
  split <;> rfl

theorem regRead_congr {t : State} (hrf : t.core.rf = s.core.rf) (hrc : t.core.rc = s.core.rc) (r l : Nat) :
    regRead t core slot r l = regRead s core slot r l := by
  rw [regRead_eq_rowsRead, regRead_eq_rowsRead, cacheRows, cacheRows, hrf, hrc]

theorem regRead_acquireWide (c r l : Nat) : regRead (acquireWide s c) core slot r l = regRead s core slot r l := by
  obtain ⟨_, acquired⟩ := acquireWide_core s c
  exact regRead_congr (by rw [acquired]) (by rw [acquired]) r l

/-- The registers a wait's end leaves. -/
theorem regRead_bolWaitEnd (r l : Nat) : regRead (bolWaitEnd s core slot f v timedOut) core slot r l
    = regRead (waitRegs s core slot (bolDst f.wait) f.mask v timedOut) core slot r l := by
  have woken := wakeFrag_core (waitRegs s core slot (bolDst f.wait) f.mask v timedOut) core slot f
  rw [bolWaitEnd_eq]
  split
  · exact regRead_congr (by rw [woken]) (by rw [woken]) r l
  · rw [regRead_acquireWide]
    exact regRead_congr (by rw [woken]) (by rw [woken]) r l

theorem gl_of_operandsOnly {t : State} (h : OperandsOnly s t) : t.core.gl = s.core.gl := by
  obtain ⟨_, _, _, rfl⟩ := h
  rfl

theorem wakeFrag_waitRegs_gl : (wakeFrag (waitRegs s core slot d mask v timedOut) core slot f).core.gl = s.core.gl := by
  rw [wakeFrag_core, gl_of_operandsOnly operandsOnly_waitRegs]

/-- The end of a wait that did not time out is an acquire (R230). -/
theorem bolWaitEnd_acquires : (bolWaitEnd s core slot f v false).core.gl = dropClean core (fun _ => true) s.core.gl := by
  rw [bolWaitEnd_eq, if_neg (by decide), acquireWide_gl, wakeFrag_waitRegs_gl]

theorem bolWaitEnd_timedOut_gl : (bolWaitEnd s core slot f v true).core.gl = s.core.gl := by
  rw [bolWaitEnd_eq, if_pos rfl, wakeFrag_waitRegs_gl]

/-- The end of a wait moves fragments of its slot, and no other record of the run. -/
theorem run_bolWaitEnd : (bolWaitEnd s core slot f v timedOut).run = match slotRec s core slot with
    | none => s.run
    | some r => { s.run with slots := smapInsert s.run.slots (slotKey core slot) { r with frags := wokenFrags s.ns r.frags f } } := by
  have only := only_of_operandsOnly (operandsOnly_waitRegs (s := s) (core := core) (slot := slot) (d := bolDst f.wait) (mask := f.mask) (v := v)
    (timedOut := timedOut))
  have woken : (wakeFrag (waitRegs s core slot (bolDst f.wait) f.mask v timedOut) core slot f).run = match slotRec s core slot with
      | none => s.run
      | some r => { s.run with slots := smapInsert s.run.slots (slotKey core slot) { r with frags := wokenFrags s.ns r.frags f } } := by
    have run : (waitRegs s core slot (bolDst f.wait) f.mask v timedOut).run = s.run := only.part .run (by decide)
    have ns : (waitRegs s core slot (bolDst f.wait) f.mask v timedOut).ns = s.ns := only.part .ns (by decide)
    rw [wakeFrag, slotRec_congr run]
    cases slotRec s core slot with
    | none => exact run
    | some r => simp only [setSlot, run, ns]
  rw [bolWaitEnd_eq]
  split
  · exact woken
  · exact ((frame_acquireWide ..).run rfl).trans woken

theorem slotRec_bolWaitEnd (c k : Nat) : slotRec (bolWaitEnd s core slot f v timedOut) c k
    = if slotKey c k = slotKey core slot then (slotRec s core slot).map (fun r => { r with frags := wokenFrags s.ns r.frags f })
      else slotRec s c k := by
  rw [slotRec, run_bolWaitEnd]
  by_cases h : slotKey c k = slotKey core slot
  · rw [if_pos h, h]
    cases found : slotRec s core slot with
    | none => exact found
    | some r => exact (smapFind_insert ..).trans (if_pos rfl)
  · rw [if_neg h]
    cases slotRec s core slot with
    | none => rfl
    | some r => exact (smapFind_insert ..).trans (if_neg h)

/-- Only fragments of the one slot move. -/
theorem slotOnly_bolWaitEnd : SlotOnly s (bolWaitEnd s core slot f v timedOut) core slot := by
  rw [SlotOnly, run_bolWaitEnd]
  cases slotRec s core slot with
  | none => exact ⟨⟨_, rfl⟩, fun _ _ => rfl⟩
  | some r => exact ⟨⟨_, rfl⟩, fun k hk => (smapFind_insert ..).trans (if_neg hk)⟩

/-! Waiting threads, one after the other. -/

/-- The fragment stands in its slot, or its lanes have gone on from where it waited. -/
def HeldOrWoken (s : State) (core slot : Nat) (f : Frag) : Prop :=
  ∃ r, slotRec s core slot = some r ∧ (f ∈ r.frags ∨ ∀ l, f.mask.testBit l = true → LaneAt r.frags l f.pc)

theorem woken_bolWaitEnd {pc : Nat} (c k : Nat) (h : Woken s core slot f pc) : Woken (bolWaitEnd s c k g v timedOut) core slot f pc := by
  obtain ⟨r, hr, lanes⟩ := h
  rw [Woken, slotRec_bolWaitEnd]
  split
  · rename_i same
    rw [slotRec, ← same]
    exact ⟨_, congrArg _ hr, fun l hl => laneAt_wokenFrags (lanes l hl)⟩
  · exact ⟨r, hr, lanes⟩

theorem woken_bolWaitEnd_of_held (h : HeldOrWoken s core slot f) : Woken (bolWaitEnd s core slot f v timedOut) core slot f f.pc := by
  obtain ⟨r, hr, held⟩ := h
  rw [Woken, slotRec_bolWaitEnd, if_pos rfl]
  refine ⟨_, congrArg _ hr, fun l hl => ?_⟩
  rcases held with hf | lanes
  · exact laneAt_wokenFrags_of_mem hf hl
  · exact laneAt_wokenFrags (lanes l hl)

theorem heldOrWoken_bolWaitEnd (c k : Nat) (stuck : f.wait.mayTurn = false) (h : HeldOrWoken s core slot f) :
    HeldOrWoken (bolWaitEnd s c k g v timedOut) core slot f := by
  obtain ⟨r, hr, held⟩ := h
  rw [HeldOrWoken, slotRec_bolWaitEnd]
  split
  · rename_i same
    rw [slotRec, ← same]
    refine ⟨_, congrArg _ hr, ?_⟩
    rcases held with hf | lanes
    · by_cases one : f = g
      · exact .inr (fun l hl => by rw [← one]; exact laneAt_wokenFrags_of_mem hf hl)
      · by_cases none : f.mask = 0
        · exact .inr (fun l hl => by simp [none] at hl)
        · exact .inl (mem_wokenFrags hf one none stuck)
    · exact .inr (fun l hl => laneAt_wokenFrags (lanes l hl))
  · exact ⟨r, hr, held⟩

/-- The waits of a list of threads ended, each with the value. -/
def endWaits (s : State) (v : Nat) (ws : List (Nat × Frag)) : State :=
  ws.foldl (fun s kf => bolWaitEnd s (kf.1 / 128) (kf.1 % 128) kf.2 v false) s

theorem endWaits_cons (s : State) (v : Nat) (w : Nat × Frag) (ws : List (Nat × Frag)) :
    endWaits s v (w :: ws) = endWaits (bolWaitEnd s (w.1 / 128) (w.1 % 128) w.2 v false) v ws := by
  rw [endWaits, List.foldl_cons, endWaits]

theorem woken_endWaits {pc : Nat} (ws : List (Nat × Frag)) (h : Woken s core slot f pc) : Woken (endWaits s v ws) core slot f pc := by
  induction ws generalizing s with
  | nil => exact h
  | cons w ws ih =>
    rw [endWaits_cons]
    exact ih (woken_bolWaitEnd _ _ h)

theorem bolWaitEnd_slotKey (hs : slot < 128) : bolWaitEnd s (slotKey core slot / 128) (slotKey core slot % 128) f v timedOut
    = bolWaitEnd s core slot f v timedOut := by
  rw [show slotKey core slot / 128 = core by unfold slotKey; omega, show slotKey core slot % 128 = slot by unfold slotKey; omega]

theorem woken_endWaits_of_mem (hs : slot < 128) (stuck : f.wait.mayTurn = false) {ws : List (Nat × Frag)} (hw : (slotKey core slot, f) ∈ ws)
    (h : HeldOrWoken s core slot f) : Woken (endWaits s v ws) core slot f f.pc := by
  induction ws generalizing s with
  | nil => cases hw
  | cons w ws ih =>
    rw [endWaits_cons]
    rcases List.mem_cons.mp hw with rfl | hw
    · rw [bolWaitEnd_slotKey hs]
      exact woken_endWaits ws (woken_bolWaitEnd_of_held h)
    · exact ih hw (heldOrWoken_bolWaitEnd _ _ stuck h)

/-! The threads a value releases. -/

theorem smapFind_of_mem {α : Type} {m : SMap α} {a : Nat} {x : α} (nodup : (m.map Prod.fst).Nodup) (h : (a, x) ∈ m) : smapFind m a = some x := by
  induction m with
  | nil => cases h
  | cons y m ih =>
    rw [List.map_cons, List.nodup_cons] at nodup
    rw [smapFind]
    rcases List.mem_cons.mp h with rfl | h
    · exact if_pos rfl
    · rw [if_neg, ih nodup.2 h]
      exact fun e => nodup.1 (e ▸ List.mem_map_of_mem h)

/-- A thread released stands in its slot and waits for the bollard. -/
theorem held_of_bolWaiters {n : Nat} (nodup : (s.run.slots.map Prod.fst).Nodup) (h : (slotKey core slot, f) ∈ bolWaiters s n v) :
    HeldOrWoken s core slot f ∧ f.wait.mayTurn = false := by
  obtain ⟨kr, hkr, hf⟩ := List.mem_flatMap.mp h
  obtain ⟨x, hx, e⟩ := List.mem_map.mp hf
  obtain ⟨key, rfl⟩ := Prod.mk.inj e
  obtain ⟨member, met⟩ := List.mem_filter.mp hx
  refine ⟨⟨kr.2, smapFind_of_mem nodup ?_, .inl member⟩, ?_⟩
  · rw [← key]
    exact hkr
  · cases hw : x.wait with
    | none => rw [hw] at met; cases met
    | line => rw [hw] at met; cases met
    | _ => rfl

/-- A change of a bollard's value ends the waits it satisfies, and moves no other fragment (R230). -/
theorem run_bolChanged (s : State) (n : Nat) : (bolChanged s n).run = (endWaits (bolLatch s n) (bolValue s n) (bolWaiters s n (bolValue s n))).run
    ∧ (bolChanged s n).core = (endWaits (bolLatch s n) (bolValue s n) (bolWaiters s n (bolValue s n))).core := by
  rw [bolChanged]
  exact ⟨((frame_bolNotify ..).run rfl).trans ((frame_berthReopen ..).run rfl),
    ((frame_bolNotify ..).core rfl).trans ((frame_berthReopen ..).core rfl)⟩

theorem woken_congr {t : State} {pc : Nat} (h : t.run = s.run) (w : Woken s core slot f pc) : Woken t core slot f pc := by
  rwa [Woken, slotRec_congr h]

/-- Every thread that waits for no more than the value goes on (R230). -/
theorem woken_bolChanged {n : Nat} (hs : slot < 128) (nodup : (s.run.slots.map Prod.fst).Nodup)
    (h : (slotKey core slot, f) ∈ bolWaiters s n (bolValue s n)) : Woken (bolChanged s n) core slot f f.pc := by
  obtain ⟨held, stuck⟩ := held_of_bolWaiters nodup h
  exact woken_congr (run_bolChanged s n).1 (woken_endWaits_of_mem hs stuck h held)

/-- A thread that has gone on is not moved by a later change. -/
theorem woken_bolChanged_of_woken {n pc : Nat} (h : Woken s core slot f pc) : Woken (bolChanged s n) core slot f pc :=
  woken_congr (run_bolChanged s n).1 (woken_endWaits (s := bolLatch s n) _ h)

end

end Sys2Proof.Proofs
end

section
/-! The bollard instructions of a thread and the end of a wait by its limit (R228 to R231). -/

namespace Sys2Proof.Proofs

open Sys2Proof.Machine Sys2Proof.Claims Sys2Proof.Laws

/-! A fragment that waits. -/

section
variable {s u w : State} {a : At} {t : Th}

theorem slotOnly_updFrag (hw : w.run = u.run) (core slot lane : Nat) (g : Frag → Frag) : SlotOnly u (updFrag w core slot lane g) core slot := by
  rw [updFrag]
  split
  · exact ⟨⟨_, by rw [hw]⟩, fun k _ => by rw [hw]⟩
  · refine ⟨⟨_, by rw [setSlot, hw]⟩, fun k hk => ?_⟩
    rw [setSlot, smapFind_insert, if_neg hk, hw]

/-- The fragment of an instruction waits, for what no turn gives: it is merged with no other. -/
theorem waits_waitAt (h : Issues s a t u) (hw : w.run = u.run) (pc : Nat) {x : FragWait} (stuck : x.mayTurn = false) (park : Bool) :
    Waits (waitAt w t pc x park) t pc x := by
  obtain ⟨r, hr, hf, -, hlane⟩ := issues_slot h
  have hr' : slotRec w t.core t.slot = some r := (slotRec_congr hw ..).trans hr
  refine ⟨_, by rw [waitAt, updFrag, hr']; exact slotRec_setSlot .., fun l hl => ?_⟩
  have some_lane : t.f.mask ≠ 0 := fun e => by simp [e] at hlane
  have moved : { t.f with pc := pc, wait := x, active := t.f.active && !park, age := w.ns }
      ∈ updWhere r.frags (fun f => f.mask.testBit t.at_.lane) (fun f => { f with pc := pc, wait := x, active := f.active && !park, age := w.ns }) :=
    List.mem_map.mpr ⟨t.f, hf, if_pos hlane⟩
  exact ⟨_, mem_settleFrags moved some_lane stuck, hl, rfl, rfl⟩

end

/-! Advances. -/

/-- An advance behind those that wait at the store (R233). -/
def queued (s : State) (x : Advance) : State := { s with run := { s.run with bolQ := s.run.bolQ ++ [x] } }

theorem goTo_queued (w : State) (x : Advance) (t : Th) (pc : Nat) : goTo (queued w x) t pc = queued (goTo w t pc) x := by
  have slot : slotRec (queued w x) t.core t.slot = slotRec w t.core t.slot := rfl
  rw [goTo, goTo, updFrag, updFrag, slot]
  cases slotRec w t.core t.slot <;> rfl

section
variable {s u : State} {a : At} {t : Th} {n : Nat}

/-- BOLLARD_ADVANCE writes the cache back, and its advance joins the store's queue (R228, R229). -/
theorem gives_bollardAdvance (h : Issues s a t u) (owned : bolOwned u n t.c = true) {sc : Scope} (wide : sc.wide = true)
    (once : t.l.decl.replayable = false) (hf : Free s t ⟨[], 2⟩) (none : peerPending u t.b = false) (inc : Nat) :
    Gives (.bollardAdvance a n inc sc) s (fun v => v.run.bolQ = u.run.bolQ ++ [⟨n, inc, .none⟩] ∧ GoesOn v t a.next
      ∧ v.core.gl = writtenBack u t.core ∧ bolValue v n = bolValue u n) := by
  have run : exec (.bollardAdvance a n inc sc) s = execBollardAdvance a n inc sc s := rfl
  obtain rfl := issues_at h
  have released : (releaseWide u t.core).run = u.run := (frame_releaseWide ..).run rfl
  have done : exec (.bollardAdvance t.at_ n inc sc) s = .next (queued (goTo (releaseWide u t.core) t t.at_.next) ⟨n, inc, .none⟩) := by
    rw [run, execBollardAdvance, if_pos wide, instr_of_issues h hf, ← goTo_queued]
    simp only [once, owned, none, Bool.not_true, Bool.false_eq_true, if_false]
    rfl
  refine ⟨_, done, ?_, goesOn_goTo h released _, ?_, ?_⟩
  · obtain ⟨⟨_, moved⟩, -⟩ := slotOnly_goTo released t t.at_.next
    rw [queued, moved]
  · exact (congrArg Cores.gl (goTo_core ..)).trans (releaseWide_gl ..)
  · exact ((frame_goTo ..).get F.bolValue_VALUE rfl n).trans ((frame_releaseWide ..).get F.bolValue_VALUE rfl n)

/-! Waits and reads. -/

theorem frame_waitRegs (s : State) (core slot d mask v : Nat) (timedOut : Bool) : Frame 32 0 s (waitRegs s core slot d mask v timedOut) :=
  (frame_regWrite64 ..).step (frame_regWrite ..) rfl rfl

/-- What a wait leaves whose target is reached, before its thread goes on. -/
def waitMet (u : State) (t : Th) (n dst : Nat) : State := acquireWide (waitRegs u t.core t.slot dst t.f.mask (bolValue u n) false) t.core

/-- What a read leaves before its thread goes on. -/
def readDone (u : State) (t : Th) (n dst : Nat) (acq : Bool) : State :=
  if acq then acquireWide (regWrite64 u t.core t.slot dst t.f.mask (fun _ => bolValue u n)) t.core
  else regWrite64 u t.core t.slot dst t.f.mask (fun _ => bolValue u n)

/-- A wait whose target is reached ends at once, as an acquire (R230). -/
theorem gives_bollardWait_reached (h : Issues s a t u) (owned : bolOwned u n t.c = true) {target dst : Nat} (timed : Bool) (hd : dst < 62)
    (hf : Free s t ⟨[dst, dst + 1, dst + 2], 1⟩) (reached : target ≤ bolValue u n) :
    Gives (.bollardWait a n target dst timed) s (fun v => RegIs v t dst (fun _ => bolValue u n) ∧ RegIs v t (dst + 1) (fun _ => bolValue u n / 2 ^ 32)
      ∧ RegIs v t (dst + 2) (fun _ => 0) ∧ GoesOn v t a.next ∧ AcquiredAt u v t.core ∧ SlotOnly u v t.core t.slot ∧ Only [.run, .core] [] u v) := by
  have run : exec (.bollardWait a n target dst timed) s = execBollardWait a n target dst timed s := rfl
  obtain rfl := issues_at h
  have done : exec (.bollardWait t.at_ n target dst timed) s = .next (goTo (waitMet u t n dst) t t.at_.next) := by
    rw [run, execBollardWait, instr_of_issues h hf]
    simp only [owned, reached, Bool.not_true, Bool.false_eq_true, if_false, if_true]
    rfl
  have frame : Frame 32 0 u (waitMet u t n dst) := (frame_waitRegs ..).step (frame_acquireWide ..) rfl rfl
  have regs {l : Nat} (hl : l < 32) (hm : t.f.mask.testBit l = true) :=
    regRead_waitRegs (s := u) (core := t.core) (slot := t.slot) (v := bolValue u n) (timedOut := false) hd hl hm
  have reg (r l : Nat) : t.reg (goTo (waitMet u t n dst) t t.at_.next) r l
      = (regRead (waitRegs u t.core t.slot dst t.f.mask (bolValue u n) false) t.core t.slot r l).toNat :=
    (reg_goTo ..).trans (congrArg BitVec.toNat (regRead_acquireWide ..))
  refine ⟨_, done, fun l hl hm => ?_, fun l hl hm => ?_, fun l hl hm => ?_, goesOn_goTo h (frame.run rfl) _, ?_, slotOnly_goTo (frame.run rfl) _ _, ?_⟩
  · rw [reg, (regs hl hm).1, BitVec.toNat_ofNat]
  · rw [reg, (regs hl hm).2.1, BitVec.toNat_ofNat]
  · rw [reg, (regs hl hm).2.2]
    rfl
  · refine acquiredAt_of_gl ((congrArg Cores.gl (goTo_core ..)).trans ((acquireWide_gl ..).trans ?_))
    rw [gl_of_operandsOnly operandsOnly_waitRegs]
  · exact (frame.onlyOf rfl).trans ((frame_goTo ..).onlyOf rfl)

/-- A wait short of its target waits (R230). -/
theorem gives_bollardWait_short (h : Issues s a t u) (owned : bolOwned u n t.c = true) {target dst : Nat} (timed : Bool)
    (hf : Free s t ⟨[dst, dst + 1, dst + 2], 1⟩) (short : bolValue u n < target) :
    Gives (.bollardWait a n target dst timed) s (fun v => Waits v t a.next (.bollard n target dst timed) ∧ SlotOnly u v t.core t.slot
      ∧ Only [.run] [] u v) := by
  have run : exec (.bollardWait a n target dst timed) s = execBollardWait a n target dst timed s := rfl
  obtain rfl := issues_at h
  have done : exec (.bollardWait t.at_ n target dst timed) s = .next (waitAt u t t.at_.next (.bollard n target dst timed) true) := by
    rw [run, execBollardWait, instr_of_issues h hf]
    simp only [owned, Bool.not_true, Bool.false_eq_true, if_false, if_neg (Nat.not_le.mpr short)]
  exact ⟨_, done, waits_waitAt h rfl _ rfl _, slotOnly_updFrag rfl .., (frame_waitAt ..).onlyOf rfl⟩

/-- BOLLARD_READ gives the value, and is an acquire where it says so (R230, R231). -/
theorem gives_bollardRead (h : Issues s a t u) (owned : bolOwned u n t.c = true) {dst : Nat} (acq : Bool) (hd : dst < 63)
    (hf : Free s t ⟨[dst, dst + 1], 1⟩) : Gives (.bollardRead a n dst acq) s (fun v => RegIs v t dst (fun _ => bolValue u n)
      ∧ RegIs v t (dst + 1) (fun _ => bolValue u n / 2 ^ 32) ∧ GoesOn v t a.next ∧ (acq = true → AcquiredAt u v t.core)
      ∧ (acq = false → v.core.gl = u.core.gl) ∧ SlotOnly u v t.core t.slot ∧ Only [.run, .core] [] u v) := by
  have run : exec (.bollardRead a n dst acq) s = execBollardRead a n dst acq s := rfl
  obtain rfl := issues_at h
  have done : exec (.bollardRead t.at_ n dst acq) s = .next (goTo (readDone u t n dst acq) t t.at_.next) := by
    rw [run, execBollardRead, instr_of_issues h hf]
    simp only [owned, Bool.not_true, Bool.false_eq_true, if_false]
    rfl
  have frame : Frame 32 0 u (readDone u t n dst acq) :=
    Frame.ite (fun _ => (frame_regWrite64 ..).step (frame_acquireWide ..) rfl rfl) (fun _ => frame_regWrite64 ..)
  have reg (r l : Nat) : t.reg (goTo (readDone u t n dst acq) t t.at_.next) r l
      = (regRead (regWrite64 u t.core t.slot dst t.f.mask (fun _ => bolValue u n)) t.core t.slot r l).toNat := by
    refine (reg_goTo ..).trans (congrArg BitVec.toNat ?_)
    cases acq with
    | true => exact regRead_acquireWide ..
    | false => rfl
  refine ⟨_, done, fun l hl hm => ?_, fun l hl hm => ?_, goesOn_goTo h (frame.run rfl) _, ?_, ?_, slotOnly_goTo (frame.run rfl) _ _, ?_⟩
  · rw [reg, (regRead_regWrite64 hd hl hm).1, BitVec.toNat_ofNat]
  · rw [reg, (regRead_regWrite64 hd hl hm).2, BitVec.toNat_ofNat]
  · rintro rfl
    refine acquiredAt_of_gl ((congrArg Cores.gl (goTo_core ..)).trans ((acquireWide_gl ..).trans ?_))
    rw [gl_of_operandsOnly operandsOnly_regWrite64]
  · rintro rfl
    exact (congrArg Cores.gl (goTo_core ..)).trans (gl_of_operandsOnly operandsOnly_regWrite64)
  · exact (frame.onlyOf rfl).trans ((frame_goTo ..).onlyOf rfl)

end

/-- BOLLARD_WAIT_TIMEOUT ends the wait with the value and TIMED_OUT, and is no acquire (R230). -/
theorem gives_bollardWaitTimeout {s : State} {core slot lane n target d : Nat} {r : SlotRec} {f : Frag} (hc : core < 240) (hs : slot < 128)
    (hlane : lane < 32) (hr : slotRec s core slot = some r) (hf : fragOf r lane = some f) (wait : f.wait = .bollard n target d true) (hd : d < 62) :
    Gives (.bollardWaitTimeout core slot lane) s (fun v => Woken v core slot f f.pc
      ∧ (∀ l, l < 32 → f.mask.testBit l = true → (regRead v core slot d l).toNat = bolValue s n % 2 ^ 32
        ∧ (regRead v core slot (d + 1) l).toNat = bolValue s n / 2 ^ 32 ∧ regRead v core slot (d + 2) l = 1)
      ∧ v.core.gl = s.core.gl ∧ SlotOnly s v core slot ∧ Only [.run, .core] [] s v) := by
  have run : exec (.bollardWaitTimeout core slot lane) s = execBollardWaitTimeout core slot lane s := rfl
  have done : exec (.bollardWaitTimeout core slot lane) s = .next (bolWaitEnd s core slot f (bolValue s n) true) := by
    rw [run, execBollardWaitTimeout, if_pos ⟨hc, hs, hlane⟩, hr, Option.bind_some, hf]
    simp only [wait]
  refine ⟨_, done, woken_bolWaitEnd_of_held ⟨r, hr, .inl (List.mem_of_find?_eq_some hf)⟩, fun l hl hm => ?_, bolWaitEnd_timedOut_gl,
    slotOnly_bolWaitEnd, (frame_bolWaitEnd ..).onlyOf rfl⟩
  have named : bolDst f.wait = d := by rw [wait, bolDst]
  obtain ⟨low, high, flag⟩ := regRead_waitRegs (s := s) (core := core) (slot := slot) (v := bolValue s n) (timedOut := true) hd hl hm
  rw [regRead_bolWaitEnd, regRead_bolWaitEnd, regRead_bolWaitEnd, named, low, high, flag, BitVec.toNat_ofNat, BitVec.toNat_ofNat]
  have := bolValue_lt s n
  exact ⟨rfl, Nat.mod_eq_of_lt (by omega), rfl⟩

end Sys2Proof.Proofs
end

section
/-! Host writes of bollards (R232, R234): BOL_VALUE releases what waits, BOL_CTRL and BOL_NOTIFY arm the notification. -/

namespace Sys2Proof.Proofs

open Sys2Proof.Machine Sys2Proof.Claims Sys2Proof.Laws

/-! What follows a value's change, but for the notification. -/

/-- The block as the notification of a change finds it: start conditions satisfied, threads released, berths reopened. -/
def changed (s : State) (n : Nat) : State := berthReopen (bolWake (bolLatch s n) n) n

theorem bolChanged_eq (s : State) (n : Nat) : bolChanged s n = bolNotify (changed s n) n := rfl

theorem frame_changed (s : State) (n : Nat) : Frame 120 604462909807314587353088 s (changed s n) :=
  (((frame_bolLatch s n).mono rfl rfl).step (frame_bolWake ..) rfl rfl).step (frame_berthReopen ..) rfl rfl

section
variable {s : State} {n core slot : Nat} {f : Frag}

/-- One thread released: its wait's end is what the change leaves of the cores. -/
theorem core_bolChanged_one (hs : slot < 128) (one : bolWaiters s n (bolValue s n) = [(slotKey core slot, f)]) :
    (bolChanged s n).core = (bolWaitEnd (bolLatch s n) core slot f (bolValue s n) false).core := by
  rw [(run_bolChanged s n).2, one, endWaits_cons, bolWaitEnd_slotKey hs, endWaits, List.foldl_nil]

/-- The thread goes on with the value and TIMED_OUT 0, its core's cache acquired (R230). -/
theorem released_one (hs : slot < 128) (nodup : (s.run.slots.map Prod.fst).Nodup) (hd : bolDst f.wait < 62)
    (one : bolWaiters s n (bolValue s n) = [(slotKey core slot, f)]) : Woken (bolChanged s n) core slot f f.pc ∧ AcquiredAt s (bolChanged s n) core
      ∧ ∀ l, l < 32 → f.mask.testBit l = true → (regRead (bolChanged s n) core slot (bolDst f.wait) l).toNat = bolValue s n % 2 ^ 32
        ∧ regRead (bolChanged s n) core slot (bolDst f.wait + 2) l = 0 := by
  have cores := core_bolChanged_one hs one
  refine ⟨woken_bolChanged hs nodup (by rw [one]; exact List.mem_singleton_self _), ?_, fun l hl hm => ?_⟩
  · refine acquiredAt_of_gl ?_
    rw [cores, bolWaitEnd_acquires]
    rfl
  · obtain ⟨low, -, flag⟩ := regRead_waitRegs (s := bolLatch s n) (core := core) (slot := slot) (v := bolValue s n) (timedOut := false) hd hl hm
    have same (r : Nat) : regRead (bolChanged s n) core slot r l = regRead (bolWaitEnd (bolLatch s n) core slot f (bolValue s n) false) core slot r l :=
      regRead_congr (by rw [cores]) (by rw [cores]) r l
    rw [same, same, regRead_bolWaitEnd, regRead_bolWaitEnd, low, flag, BitVec.toNat_ofNat]
    exact ⟨rfl, rfl⟩

/-- A change notifies where its value has reached the threshold, and not before (R234). -/
theorem notified_bolChanged (armed : s.isSet F.bolCtrl_NOTIFY_EN n = true) (unsent : s.isSet F.bolCtrl_NOTIFIED n = false) :
    (s.get F.bolNotify_THRESHOLD n ≤ bolValue s n → (bolChanged s n).isSet F.bolCtrl_NOTIFIED n = true
        ∧ (bolChanged s n).isSet F.evt_PENDING (s.get F.bolCtrl_EVENT n) = true)
      ∧ (bolValue s n < s.get F.bolNotify_THRESHOLD n → (bolChanged s n).isSet F.bolCtrl_NOTIFIED n = false) := by
  have frame := frame_changed s n
  have threshold := frame.get F.bolNotify_THRESHOLD rfl n
  have value : bolValue (changed s n) n = bolValue s n := frame.get F.bolValue_VALUE rfl n
  have armed' := (frame.isSet F.bolCtrl_NOTIFY_EN rfl n).trans armed
  have unsent' := (frame.isSet F.bolCtrl_NOTIFIED rfl n).trans unsent
  rw [bolChanged_eq, ← threshold, ← value, ← frame.get F.bolCtrl_EVENT rfl n]
  refine ⟨fun reached => ⟨isSet_bolNotify_notified armed' reached, isSet_bolNotify_pending armed' reached unsent'⟩, fun short => ?_⟩
  rw [bolNotify_of_short short, unsent']

end

/-! BOL_VALUE. -/

/-- The register as a host write of BOL_VALUE leaves it. -/
def valueWritten (s : State) (n val : Nat) : State := (wideWrite s .bolValue n).put F.bolValue_VALUE val n

section
variable (s : State) (n val : Nat)

theorem bolValue_valueWritten : bolValue (valueWritten s n val) n = val % 2 ^ 64 := State.get_put_same _ val n 0 rfl

theorem get_valueWritten {f : Fld} (hf : f.reg ≠ .bolValue) (k : Nat) : (valueWritten s n val).get f k = s.get f k :=
  State.get_put_reg _ val n 0 k 0 hf

theorem isSet_valueWritten {f : Fld} (hf : f.reg ≠ .bolValue) (k : Nat) : (valueWritten s n val).isSet f k = s.isSet f k := by
  rw [State.isSet, get_valueWritten s n val hf, State.isSet]

theorem valueWritten_run : (valueWritten s n val).run = s.run := State.put_run ..

theorem valueWritten_core : (valueWritten s n val).core = s.core := State.put_core ..

theorem bolWaiters_congr {t : State} (h : t.run = s.run) (v : Nat) : bolWaiters t n v = bolWaiters s n v := by rw [bolWaiters, h, bolWaiters]

end

/-- BOL_VALUE_WRITE sets the value and releases what waited for no more (R232, R230, R234). -/
theorem gives_bolValueWrite {s : State} {n : Nat} (val : Nat) (hn : n < 16384) (d0 : s.hl.d3 = false) :
    Gives (.bolValueWrite n val) s (fun v => bolValue v n = val % 2 ^ 64 ∧ (∀ k, k ≠ n → bolValue v k = bolValue s k)
      ∧ (∀ core slot f, slot < 128 → bolWaiters s n (val % 2 ^ 64) = [(slotKey core slot, f)] → (s.run.slots.map Prod.fst).Nodup → bolDst f.wait < 62 →
        Woken v core slot f f.pc ∧ AcquiredAt s v core ∧ ∀ l, l < 32 → f.mask.testBit l = true →
          (regRead v core slot (bolDst f.wait) l).toNat = val % 2 ^ 32 ∧ regRead v core slot (bolDst f.wait + 2) l = 0)
      ∧ (s.isSet F.bolCtrl_NOTIFY_EN n = true → s.isSet F.bolCtrl_NOTIFIED n = false →
        (s.get F.bolNotify_THRESHOLD n ≤ val % 2 ^ 64 → v.isSet F.bolCtrl_NOTIFIED n = true ∧ v.isSet F.evt_PENDING (s.get F.bolCtrl_EVENT n) = true)
        ∧ (val % 2 ^ 64 < s.get F.bolNotify_THRESHOLD n → v.isSet F.bolCtrl_NOTIFIED n = false))
      ∧ Only [.acc, .hl, .obj, .run, .core, .eng, .out] [.bolValue, .bolCtrl, .berthStatus, .evt] s v) := by
  have run : exec (.bolValueWrite n val) s = execBolValueWrite n val s := rfl
  have done : exec (.bolValueWrite n val) s = .next (bolChanged (valueWritten s n val) n) := by
    rw [run, execBolValueWrite, if_pos hn, bar0, d0]
    rfl
  have value := bolValue_valueWritten s n val
  refine ⟨_, done, (bolValue_bolChanged ..).trans value, fun k hk => ?_, fun core slot f hs one nodup hd => ?_, fun armed unsent => ?_, ?_⟩
  · exact (bolValue_bolChanged ..).trans (State.get_put_i _ val 0 0 hk)
  · obtain ⟨woken, acquired, regs⟩ := released_one (s := valueWritten s n val) hs (by rwa [valueWritten_run]) hd
      (by rwa [value, bolWaiters_congr _ _ (valueWritten_run s n val)])
    refine ⟨woken, ?_, fun l hl hm => ?_⟩
    · rwa [AcquiredAt, valueWritten_core] at acquired
    · obtain ⟨low, flag⟩ := regs l hl hm
      rw [value] at low
      exact ⟨low.trans (Nat.mod_mod_of_dvd _ (by decide)), flag⟩
  · rw [← get_valueWritten s n val (f := F.bolNotify_THRESHOLD) (by decide), ← get_valueWritten s n val (f := F.bolCtrl_EVENT) (by decide), ← value]
    exact notified_bolChanged ((isSet_valueWritten s n val (by decide) n).trans armed) ((isSet_valueWritten s n val (by decide) n).trans unsent)
  · exact ((frame_wideWrite ..).onlyOf rfl).trans (((only_setWord ..).mono (by decide) (by decide)).trans ((frame_bolChanged ..).onlyOf rfl))

/-! BOL_CTRL and BOL_NOTIFY. -/

/-- The bits of BOL_CTRL that take what is written. -/
theorem bitStored_bolCtrl (v b : Nat) (x : Bool) (hb : b < 14 ∨ 16 ≤ b ∧ b < 32) : bitStored .bolCtrl 0 v x b = v.testBit b := by
  rcases hb with hb | ⟨low, high⟩
  · interval_cases b <;> rfl
  · interval_cases b <;> rfl

/-- NOTIFIED is cleared by a 1 written (R13). -/
theorem bitStored_notified (v : Nat) (x : Bool) : bitStored .bolCtrl 0 v x 14 = (x && !v.testBit 14) := rfl

theorem bitStored_threshold (v b : Nat) (x : Bool) (hb : b < 64) : bitStored .bolNotify 0 v x b = v.testBit b := by
  interval_cases b <;> rfl

/-- A field of one bit is set where that bit of its word is. -/
theorem bitsOf_one (x k : Nat) : (bitsOf x k k == 1) = x.testBit k := by
  rw [bitsOf, Nat.sub_self, Nat.zero_add, pow_one, Nat.testBit_eq_decide_div_mod_eq, Nat.shiftRight_eq_div_pow, beq_eq_decide]

section
variable (s : State) (n val : Nat)

theorem get_storeCtrl {f : Fld} (hr : f.reg = .bolCtrl) (hlo : f.lo ≤ f.hi) (hb : f.hi < 14 ∨ 16 ≤ f.lo ∧ f.hi < 32) :
    (storeWord s .bolCtrl n 0 0 val).get f n = bitsOf val f.hi f.lo := by
  rw [← hr]
  exact get_storeWord (by omega) hlo s n 0 val (fun b x low high => hr ▸ bitStored_bolCtrl val b x (by omega))

theorem isSet_storeCtrl_notified : (storeWord s .bolCtrl n 0 0 val).isSet F.bolCtrl_NOTIFIED n = (s.isSet F.bolCtrl_NOTIFIED n && !val.testBit 14) := by
  have bit (t : State) : t.isSet F.bolCtrl_NOTIFIED n = (t.word .bolCtrl n 0 0).testBit 14 := bitsOf_one ..
  rw [bit, bit, testBit_word_storeWord _ _ _ _ _ _ (by decide), bitStored_notified]

theorem get_storeThreshold : (storeWord s .bolNotify n 0 0 val).get F.bolNotify_THRESHOLD n = val % 2 ^ 64 := by
  have stored := get_storeWord (f := F.bolNotify_THRESHOLD) (by decide) (by decide) s n 0 val
    (fun b x _ high => bitStored_threshold val b x (Nat.lt_succ_of_le high))
  exact stored.trans (by rw [bitsOf]; rfl)

end

section
variable {s : State} {n : Nat} (val : Nat) (hn : n < 16384) (d0 : s.hl.d3 = false)
include hn d0

/-- A write of BOL_CTRL stores its fields, and the condition of the notification is evaluated (R234). -/
theorem gives_bolNotifyWrite_ctrl : Gives (.bolNotifyWrite n true val) s (fun v => v.get F.bolCtrl_OWNER n = val % 2 ^ 12
    ∧ v.isSet F.bolCtrl_VALID n = val.testBit 12 ∧ v.isSet F.bolCtrl_NOTIFY_EN n = val.testBit 13 ∧ v.get F.bolCtrl_EVENT n = bitsOf val 31 16
    ∧ (val.testBit 13 = true → s.get F.bolNotify_THRESHOLD n ≤ bolValue s n → v.isSet F.bolCtrl_NOTIFIED n = true)
    ∧ (val.testBit 14 = true → bolValue s n < s.get F.bolNotify_THRESHOLD n → v.isSet F.bolCtrl_NOTIFIED n = false)
    ∧ Only [.acc, .hl, .out] [.bolCtrl, .evt] s v) := by
  have run : exec (.bolNotifyWrite n true val) s = execBolNotifyWrite n true val s := rfl
  obtain ⟨w, hw⟩ : ∃ w, w = storeWord (wideWrite s .bolCtrl n) .bolCtrl n 0 0 val := ⟨_, rfl⟩
  have done : exec (.bolNotifyWrite n true val) s = .next (bolNotify w n) := by
    rw [run, execBolNotifyWrite, if_pos hn, bar0, d0, hw]
    rfl
  have only : Only [.acc, .hl, .out] [.bolCtrl, .evt] s w := by
    rw [hw]
    exact ((frame_wideWrite ..).onlyOf rfl).trans ((only_setWord ..).mono (by decide) (by decide))
  have field {f : Fld} (hr : f.reg = .bolCtrl) (ok : f.ok = true) (hlo : f.lo ≤ f.hi) (hb : f.hi < 14 ∨ 16 ≤ f.lo ∧ f.hi < 32) :
      (bolNotify w n).get f n = bitsOf val f.hi f.lo := by
    rw [get_bolNotify ok hr (by omega), hw, get_storeCtrl _ _ _ hr hlo hb]
  have threshold : w.get F.bolNotify_THRESHOLD n = s.get F.bolNotify_THRESHOLD n := by rw [State.get, only.word _ (by decide), State.get]
  have value : bolValue w n = bolValue s n := by rw [bolValue, State.get, only.word _ (by decide), bolValue, State.get]
  refine ⟨_, done, ?_, ?_, ?_, field rfl rfl (by decide) (by decide), fun arms reached => ?_, fun clears short => ?_,
    only.trans ((frame_bolNotify ..).onlyOf rfl)⟩
  · rw [field rfl rfl (by decide) (by decide), bitsOf]
    rfl
  · rw [State.isSet, field rfl rfl (by decide) (by decide)]
    exact bitsOf_one val 12
  · rw [State.isSet, field rfl rfl (by decide) (by decide)]
    exact bitsOf_one val 13
  · refine isSet_bolNotify_notified ?_ (by rwa [threshold, value])
    rw [State.isSet, hw, get_storeCtrl _ _ _ rfl (by decide) (by decide)]
    exact (bitsOf_one val 13).trans arms
  · rw [bolNotify_of_short (by rwa [threshold, value]), hw, isSet_storeCtrl_notified, clears, Bool.not_true, Bool.and_false]

/-- A write of BOL_NOTIFY sets the threshold, and the condition is evaluated (R234). -/
theorem gives_bolNotifyWrite_threshold : Gives (.bolNotifyWrite n false val) s (fun v => v.get F.bolNotify_THRESHOLD n = val % 2 ^ 64
    ∧ (s.isSet F.bolCtrl_NOTIFY_EN n = true → s.isSet F.bolCtrl_NOTIFIED n = false → val % 2 ^ 64 ≤ bolValue s n →
      v.isSet F.bolCtrl_NOTIFIED n = true ∧ v.isSet F.evt_PENDING (s.get F.bolCtrl_EVENT n) = true)
    ∧ Only [.acc, .hl, .out] [.bolCtrl, .bolNotify, .evt] s v) := by
  have run : exec (.bolNotifyWrite n false val) s = execBolNotifyWrite n false val s := rfl
  obtain ⟨w, hw⟩ : ∃ w, w = storeWord (wideWrite s .bolNotify n) .bolNotify n 0 0 val := ⟨_, rfl⟩
  have done : exec (.bolNotifyWrite n false val) s = .next (bolNotify w n) := by
    rw [run, execBolNotifyWrite, if_pos hn, bar0, d0, bolNotifyStore, hw]
    simp only [Bool.false_eq_true, if_false]
  have only : Only [.acc] [.bolNotify] s w := by
    rw [hw]
    exact ((frame_wideWrite ..).onlyOf rfl).trans ((only_setWord ..).mono (by decide) (by decide))
  have same {f : Fld} (hf : f.reg ∉ [RegId.bolNotify]) : w.get f n = s.get f n := by rw [State.get, only.word _ hf, State.get]
  have threshold : w.get F.bolNotify_THRESHOLD n = val % 2 ^ 64 := by rw [hw, get_storeThreshold]
  have value : bolValue w n = bolValue s n := same (by decide)
  refine ⟨_, done, ((frame_bolNotify ..).get F.bolNotify_THRESHOLD rfl n).trans threshold, fun armed unsent reached => ?_,
    (only.mono (by decide) (by decide)).trans ((frame_bolNotify ..).onlyOf rfl)⟩
  have armed' : w.isSet F.bolCtrl_NOTIFY_EN n = true := by rwa [State.isSet, same (by decide)]
  have unsent' : w.isSet F.bolCtrl_NOTIFIED n = false := by rwa [State.isSet, same (by decide)]
  rw [← threshold, ← value] at reached
  rw [← same (f := F.bolCtrl_EVENT) (by decide)]
  exact ⟨isSet_bolNotify_notified armed' reached, isSet_bolNotify_pending armed' reached unsent'⟩

end

end Sys2Proof.Proofs
end

section
/-! The bollard store's cycle (R233): the advances it takes, and what follows each. -/

namespace Sys2Proof.Proofs

open Sys2Proof.Machine Sys2Proof.Claims Sys2Proof.Laws

/-! The advances taken. -/

section
variable {as now later : List Advance}

theorem bolTake_cons (a : Advance) (as now later : List Advance) : bolTake (a :: as) now later
    = if (decide (now.length < 8) && !now.any (fun x => x.n == a.n)) = true then bolTake as (now ++ [a]) later else bolTake as now (later ++ [a]) := rfl

theorem any_named {now : List Advance} {n : Nat} : now.any (fun x => x.n == n) = true ↔ n ∈ now.map Advance.n := by
  simp [List.any_eq_true]

/-- What was taken stays taken, in its place; each bollard is taken once. -/
theorem bolTake_fst (nodup : (now.map Advance.n).Nodup) :
    ∃ more, (bolTake as now later).1 = now ++ more ∧ (∀ x ∈ more, x ∈ as) ∧ ((now ++ more).map Advance.n).Nodup := by
  induction as generalizing now later with
  | nil => exact ⟨[], by rw [List.append_nil]; rfl, by simp, by rwa [List.append_nil]⟩
  | cons a as ih =>
    rw [bolTake_cons]
    split
    · rename_i fits
      have fresh : a.n ∉ now.map Advance.n := fun m => by simp [any_named.mpr m] at fits
      obtain ⟨more, taken, from_as, distinct⟩ := ih (now := now ++ [a]) (later := later)
        (by rw [List.map_append]; exact nodup.append (List.nodup_singleton _) (by simpa using fresh))
      refine ⟨a :: more, by rw [taken, List.append_assoc]; rfl, fun x hx => ?_, by rwa [List.append_assoc] at distinct⟩
      rcases List.mem_cons.mp hx with rfl | hx
      · exact List.mem_cons_self ..
      · exact List.mem_cons_of_mem _ (from_as x hx)
    · obtain ⟨more, taken, from_as, distinct⟩ := ih (later := later ++ [a]) nodup
      exact ⟨more, taken, fun x hx => List.mem_cons_of_mem _ (from_as x hx), distinct⟩

/-- Advances of one bollard: the first alone is taken. -/
theorem bolTake_same {x : Advance} (same : ∀ y ∈ as, y.n = x.n) : bolTake as [x] later = ([x], later ++ as) := by
  induction as generalizing later with
  | nil => rw [List.append_nil]; rfl
  | cons a as ih =>
    obtain ⟨ha, has⟩ := List.forall_mem_cons.mp same
    have named : [x].any (fun y => y.n == a.n) = true := by simp [ha]
    rw [bolTake_cons, named, Bool.not_true, Bool.and_false, if_neg Bool.false_ne_true, ih has, List.append_assoc]
    rfl

/-- Advances of different bollards: the first 8 are taken. -/
theorem bolTake_distinct (few : now.length ≤ 8) (nodup : ((now ++ as).map Advance.n).Nodup) :
    bolTake as now later = (now ++ as.take (8 - now.length), later ++ as.drop (8 - now.length)) := by
  induction as generalizing now later with
  | nil => rw [List.take_nil, List.drop_nil, List.append_nil, List.append_nil]; rfl
  | cons a as ih =>
    rw [bolTake_cons]
    by_cases room : now.length < 8
    · have fresh : now.any (fun x => x.n == a.n) = false := by
        rw [Bool.eq_false_iff]
        intro named
        rw [List.map_append, List.nodup_append] at nodup
        exact nodup.2.2 _ (any_named.mp named) _ (by simp) rfl
      have next : 8 - now.length = 8 - (now ++ [a]).length + 1 := by
        rw [List.length_append, List.length_singleton]
        omega
      rw [decide_eq_true room, fresh, if_pos (show (true && !false) = true from rfl), ih (by rw [List.length_append, List.length_singleton]; omega) (by rwa [List.append_assoc]), next,
        List.take_succ_cons, List.drop_succ_cons, List.append_assoc]
      rfl
    · have full : 8 - now.length = 0 := by omega
      have fits : ((now ++ as).map Advance.n).Nodup :=
        nodup.sublist ((List.Sublist.append_left (List.sublist_cons_self ..) _).map _)
      rw [decide_eq_false room, Bool.false_and, if_neg Bool.false_ne_true, ih few fits, full, List.take_zero, List.take_zero, List.drop_zero, List.drop_zero,
        List.append_assoc]
      rfl

end

/-! What an advance keeps of the run. -/

/-- Every block of this identity has the token's entry DONE (R190). -/
def DoneAt (s : State) (id e : Nat) : Prop := ∀ b, blockRec s id = some b → (token b e).done = true

/-- No advance joins or leaves the store's queue, and no token goes back from DONE. -/
structure StoreKept (s t : State) : Prop where
  queue : t.run.bolQ = s.run.bolQ
  done : ∀ id e, DoneAt s id e → DoneAt t id e

theorem StoreKept.refl (s : State) : StoreKept s s := ⟨rfl, fun _ _ h => h⟩

theorem StoreKept.trans {s t u : State} (h : StoreKept s t) (g : StoreKept t u) : StoreKept s u :=
  ⟨g.queue.trans h.queue, fun id e d => g.done id e (h.done id e d)⟩

theorem storeKept_of_run {s t : State} (h : t.run = s.run) : StoreKept s t :=
  ⟨by rw [h], fun id e d b hb => d b (by rwa [blockRec, h] at hb)⟩

/-- Blocks taken out bring no token back. -/
theorem storeKept_of_filter {s t : State} (hq : t.run.bolQ = s.run.bolQ) (gone : Nat)
    (hb : t.run.blocks = s.run.blocks.filter (fun x => x.id != gone)) : StoreKept s t := by
  refine ⟨hq, fun id e d b found => d b ?_⟩
  rw [blockRec, hb, List.find?_filter] at found
  by_cases h : id = gone
  · rw [List.find?_eq_none.mpr (fun x _ => by simp [h])] at found
    cases found
  · rw [blockRec, ← found]
    congr 1
    funext x
    by_cases hx : x.id = id <;> simp [hx, h]

theorem storeKept_of_blocks {s t : State} (hq : t.run.bolQ = s.run.bolQ) (hb : t.run.blocks = s.run.blocks) : StoreKept s t :=
  ⟨hq, fun id e d b found => d b (by rwa [blockRec, hb] at found)⟩

theorem run_endWaits (s : State) (v : Nat) (ws : List (Nat × Frag)) : ∃ sl, (endWaits s v ws).run = { s.run with slots := sl } := by
  induction ws generalizing s with
  | nil => exact ⟨_, rfl⟩
  | cons w ws ih =>
    rw [endWaits_cons]
    obtain ⟨sl, rest⟩ := ih (bolWaitEnd s (w.1 / 128) (w.1 % 128) w.2 v false)
    obtain ⟨⟨sl', first⟩, -⟩ := slotOnly_bolWaitEnd (s := s) (core := w.1 / 128) (slot := w.1 % 128) (f := w.2) (v := v) (timedOut := false)
    exact ⟨sl, by rw [rest, first]⟩

theorem storeKept_bolApply (s : State) (n inc : Nat) : StoreKept s (bolApply s n inc) := by
  obtain ⟨sl, waits⟩ := run_endWaits (bolLatch (s.bump F.bolValue_VALUE inc n) n) (bolValue (s.bump F.bolValue_VALUE inc n) n)
    (bolWaiters (s.bump F.bolValue_VALUE inc n) n (bolValue (s.bump F.bolValue_VALUE inc n) n))
  have run := (run_bolChanged (s.bump F.bolValue_VALUE inc n) n).1.trans waits
  have before : (s.bump F.bolValue_VALUE inc n).run = s.run := State.bump_run ..
  exact storeKept_of_blocks (by rw [bolApply, run, bolLatch, before]) (by rw [bolApply, run, bolLatch, before])

/-! Tokens. -/

/-- An entry set DONE reads DONE; so does one that the table does not have. -/
theorem token_setNth_done {b : BlockRec} {e k : Nat} (h : (token b k).done = true ∨ k = e) :
    (token { b with tokens := setNth b.tokens e { token b e with done := true } } k).done = true := by
  obtain ⟨x, hx⟩ : ∃ x, x = { token b e with done := true } := ⟨_, rfl⟩
  have hd : x.done = true := by rw [hx]
  rw [← hx]
  unfold token at h ⊢
  clear hx
  generalize b.tokens = ts at h ⊢
  induction ts generalizing e k with
  | nil => rfl
  | cons y ts ih =>
    cases e with
    | zero =>
      cases k with
      | zero => exact hd
      | succ k => exact h.resolve_right (by omega)
    | succ e =>
      cases k with
      | zero => exact h.resolve_right (by omega)
      | succ k => exact ih (h.imp id Nat.succ.inj)

theorem wakeBlock_run (s : State) (id : Nat) : ∃ sl, (wakeBlock s id).run = { s.run with slots := sl } := by
  unfold wakeBlock
  split
  · exact ⟨_, rfl⟩
  · dsimp only
    split
    · exact ⟨_, (frame_acquireWide ..).run rfl⟩
    · exact ⟨_, rfl⟩

theorem blockRec_updBlock (s : State) (id k : Nat) {f : BlockRec → BlockRec} (hf : ∀ b, (f b).id = b.id) :
    blockRec (updBlock s id f) k = (blockRec s k).map (fun b => if b.id == id then f b else b) := by
  unfold blockRec updBlock updWhere
  induction s.run.blocks with
  | nil => rfl
  | cons b bs ih =>
    have same : (if b.id == id then f b else b).id = b.id := by split <;> simp [hf]
    rw [List.map_cons, List.find?_cons, List.find?_cons, same]
    cases b.id == k
    · exact ih
    · rfl

/-- A token produced is DONE, and none goes back (R195). -/
theorem produceToken_done (s : State) (id e : Nat) : StoreKept s (produceToken s id e) ∧ DoneAt (produceToken s id e) id e := by
  obtain ⟨sl, run⟩ := wakeBlock_run (updBlock s id (fun b => { b with tokens := setNth b.tokens e { token b e with done := true } })) id
  have blocks (k : Nat) : blockRec (produceToken s id e) k
      = (blockRec s k).map (fun b => if b.id == id then { b with tokens := setNth b.tokens e { token b e with done := true } } else b) := by
    rw [produceToken, blockRec, run]
    exact blockRec_updBlock s id k (f := fun b => { b with tokens := setNth b.tokens e { token b e with done := true } }) (fun _ => rfl)
  refine ⟨⟨by rw [produceToken, run]; rfl, fun k x d b hb => ?_⟩, fun b hb => ?_⟩
  · rw [blocks] at hb
    obtain ⟨y, hy, rfl⟩ := Option.map_eq_some_iff.mp hb
    split
    · exact token_setNth_done (.inl (d y hy))
    · exact d y hy
  · rw [blocks] at hb
    obtain ⟨y, hy, rfl⟩ := Option.map_eq_some_iff.mp hb
    have named : (y.id == id) = true := List.find?_some (l := s.run.blocks) (p := fun b : BlockRec => b.id == id) hy
    rw [if_pos named]
    exact token_setNth_done (.inr rfl)

/-- The end of a launch takes neither a block nor an advance away. -/
theorem launchCheck_run (s : State) (lid : Nat) : ∃ ls, (launchCheck s lid).run = { s.run with launches := ls } := by
  unfold launchCheck
  split
  · exact ⟨_, rfl⟩
  · split
    · rename_i l _ _
      have flushed : (launchFlush s l).run = s.run := (frame_launchFlush ..).run rfl
      refine ⟨s.run.launches.filter (fun x => x.id != lid), ((frame_qFinish ..).run rfl).trans ?_⟩
      simp only [flushed]
    · exact ⟨_, rfl⟩

theorem dropBlock_run (s : State) (b : BlockRec) : (dropBlock s b).run.bolQ = s.run.bolQ
    ∧ (dropBlock s b).run.blocks = s.run.blocks.filter (fun x => x.id != b.id) := by
  unfold dropBlock
  dsimp only
  rw [(frame_freeCore ..).run rfl, (frame_showCore ..).run rfl, (frame_unpark ..).run rfl]
  exact ⟨rfl, rfl⟩

theorem storeKept_exitReady (s : State) (id : Nat) : StoreKept s (exitReady s id) := by
  unfold exitReady
  dsimp only
  split
  · exact .refl s
  · rename_i b _
    split
    · obtain ⟨ls, checked⟩ := launchCheck_run (updLaunch (dropBlock s b) b.launch (fun l => { l with ended := l.ended + 1 })) b.launch
      obtain ⟨queue, blocks⟩ := dropBlock_run s b
      refine storeKept_of_filter ?_ b.id ?_
      · rw [endBlock, checked]
        exact queue
      · rw [endBlock, checked]
        exact blocks
    · exact .refl s

theorem tokenDone_done (s : State) (id e : Nat) : StoreKept s (tokenDone s id e) ∧ DoneAt (tokenDone s id e) id e := by
  obtain ⟨kept, done⟩ := produceToken_done s id e
  have exits := storeKept_exitReady (produceToken s id e) id
  exact ⟨kept.trans exits, exits.done id e done⟩

/-! One advance, with what follows it. -/

theorem bolStep_eq (s : State) (a : Advance) : bolStep s a = match a.fin with
    | .none => bolApply s a.n a.inc
    | .token id e => tokenDone (bolApply s a.n a.inc) id e
    | .entry q idx => bolBehind (bolApply s a.n a.inc) q idx
    | .finish q idx => qFinish (bolApply s a.n a.inc) q idx 0 0 := rfl

theorem storeKept_bolStep (s : State) (a : Advance) : StoreKept s (bolStep s a) := by
  rw [bolStep_eq]
  refine (storeKept_bolApply s a.n a.inc).trans ?_
  cases a.fin with
  | none => exact .refl _
  | token id e => exact (tokenDone_done _ id e).1
  | entry q idx => exact storeKept_of_run ((frame_bolBehind ..).run rfl)
  | finish q idx => exact storeKept_of_run ((frame_qFinish ..).run rfl)

/-- What follows an advance changes no bollard. -/
theorem bolValue_bolStep (s : State) (a : Advance) (k : Nat) : bolValue (bolStep s a) k = bolValue (bolApply s a.n a.inc) k := by
  rw [bolStep_eq]
  cases a.fin with
  | none => rfl
  | token id e => exact (frame_tokenDone ..).get F.bolValue_VALUE rfl k
  | entry q idx => exact (frame_bolBehind ..).get F.bolValue_VALUE rfl k
  | finish q idx => exact (frame_qFinish ..).get F.bolValue_VALUE rfl k

/-- The token that waited for an advance is DONE (R225). -/
theorem doneAt_bolStep (s : State) {a : Advance} {id e : Nat} (h : a.fin = .token id e) : DoneAt (bolStep s a) id e := by
  rw [bolStep_eq, h]
  exact (tokenDone_done _ id e).2

/-- An entry of BOLLARD_ADVANCE whose advance is applied has ended OK (R233). -/
theorem qEntry_bolStep (s : State) {a : Advance} {q idx : Nat} (h : a.fin = .finish q idx) {e : QEntry} (he : qEntry s q idx = some e)
    (undecided : e.fin = none) : ∃ y, qEntry (bolStep s a) q idx = some y ∧ y.sqe = e.sqe ∧ y.fin = some (0, 0) := by
  have mapped {es : List QEntry} {g : QEntry → QEntry} (hg : ∀ x, (g x).idx = x.idx) (found : es.find? (fun x => x.idx == idx) = some e) :
      (es.map g).find? (fun x => x.idx == idx) = some (g e) := by
    rw [List.find?_map, show (fun x : QEntry => x.idx == idx) ∘ g = fun x => x.idx == idx from funext fun x => by rw [Function.comp, hg], found]
    rfl
  rw [bolStep_eq, h]
  dsimp only
  rw [qEntry, qFinish, updEntry, qRec_setQ, updWhere, qRec_bolApply, latched, List.map_map]
  have named := List.find?_some he
  refine ⟨_, mapped (fun x => ?_) he, ?_, ?_⟩
  · dsimp only [Function.comp]
    split
    · split <;> rfl
    · rfl
  · dsimp only [Function.comp]
    rw [if_pos named, undecided]
    rfl
  · dsimp only [Function.comp]
    rw [if_pos named, undecided]
    rfl

/-! Several, in their order. -/

section
variable {s : State}

theorem storeKept_bolSteps (s : State) (as : List Advance) : StoreKept s (as.foldl bolStep s) := by
  induction as generalizing s with
  | nil => exact .refl s
  | cons a as ih =>
    rw [List.foldl_cons]
    exact (storeKept_bolStep s a).trans (ih _)

theorem bolValue_bolSteps_other {as : List Advance} {k : Nat} (h : ∀ a ∈ as, a.n ≠ k) : bolValue (as.foldl bolStep s) k = bolValue s k := by
  induction as generalizing s with
  | nil => rfl
  | cons a as ih =>
    obtain ⟨ha, has⟩ := List.forall_mem_cons.mp h
    rw [List.foldl_cons, ih has, bolValue_bolStep, bolValue_bolApply_ne _ _ _ (Ne.symm ha)]

/-- Each bollard that is advanced once has its increment. -/
theorem bolValue_bolSteps {as : List Advance} (nodup : (as.map Advance.n).Nodup) {y : Advance} (hy : y ∈ as) :
    bolValue (as.foldl bolStep s) y.n = (bolValue s y.n + y.inc) % 2 ^ 64 := by
  induction as generalizing s with
  | nil => cases hy
  | cons a as ih =>
    rw [List.map_cons, List.nodup_cons] at nodup
    obtain ⟨fresh, nodup⟩ := nodup
    rw [List.foldl_cons]
    rcases List.mem_cons.mp hy with rfl | hy
    · rw [bolValue_bolSteps_other (fun b hb e => fresh (List.mem_map.mpr ⟨b, hb, e⟩)), bolValue_bolStep, bolValue_bolApply_same]
    · have other : y.n ≠ a.n := fun e => fresh (List.mem_map.mpr ⟨y, hy, e⟩)
      rw [ih nodup hy, bolValue_bolStep, bolValue_bolApply_ne _ _ _ other]

theorem bolStep_of_none {a : Advance} (h : a.fin = .none) (s : State) : bolStep s a = bolApply s a.n a.inc := by rw [bolStep_eq, h]

theorem only_bolSteps {as : List Advance} (plain : ∀ a ∈ as, a.fin = .none) (s : State) :
    Only [.hl, .obj, .run, .core, .eng, .out] [.bolValue, .bolCtrl, .berthStatus, .evt] s (as.foldl bolStep s) := by
  induction as generalizing s with
  | nil => exact .refl ..
  | cons a as ih =>
    obtain ⟨ha, has⟩ := List.forall_mem_cons.mp plain
    rw [List.foldl_cons, bolStep_of_none ha]
    exact ((frame_bolApply ..).onlyOf rfl).trans (ih has _)

variable {core slot : Nat} {f : Frag}

theorem woken_bolApply_of_woken {pc : Nat} (n inc : Nat) (h : Woken s core slot f pc) : Woken (bolApply s n inc) core slot f pc :=
  woken_bolChanged_of_woken (woken_congr (State.bump_run ..) h)

/-- An advance releases the threads that wait for no more than the new value (R230). -/
theorem woken_bolApply {n inc : Nat} (hs : slot < 128) (nodup : (s.run.slots.map Prod.fst).Nodup)
    (h : (slotKey core slot, f) ∈ bolWaiters s n ((bolValue s n + inc) % 2 ^ 64)) : Woken (bolApply s n inc) core slot f f.pc := by
  refine woken_bolChanged hs (by rwa [State.bump_run]) ?_
  rwa [bolValue_bump, bolWaiters_congr _ _ (State.bump_run ..)]

theorem woken_bolSteps_of_woken {as : List Advance} (plain : ∀ a ∈ as, a.fin = .none) {pc : Nat} (h : Woken s core slot f pc) :
    Woken (as.foldl bolStep s) core slot f pc := by
  induction as generalizing s with
  | nil => exact h
  | cons a as ih =>
    obtain ⟨ha, has⟩ := List.forall_mem_cons.mp plain
    rw [List.foldl_cons, bolStep_of_none ha]
    exact ih has (woken_bolApply_of_woken _ _ h)

end

/-! A cycle of the store. -/

/-- The block with these advances left in the store's queue. -/
def withQueue (s : State) (xs : List Advance) : State := { s with run := { s.run with bolQ := xs } }

theorem only_withQueue (s : State) (xs : List Advance) : Only [.run] [] s (withQueue s xs) where
  pending := rfl
  part p hp := by
    cases p with
    | run => exact absurd (List.mem_singleton_self _) hp
    | _ => rfl
  word _ _ _ _ _ := rfl

theorem exec_bollardAdvanceApply (s : State) : exec .bollardAdvanceApply s
    = .next ((bolTake s.run.bolQ [] []).1.foldl bolStep (withQueue s (bolTake s.run.bolQ [] []).2)) := rfl

/-- BOLLARD_ADVANCE_APPLY applies the first advance of each bollard, at most 8, in their order, and produces what waited for them (R233). -/
theorem gives_bollardAdvanceApply {s : State} {x : Advance} {xs : List Advance} (hq : s.run.bolQ = x :: xs) :
    Gives .bollardAdvanceApply s (fun v => bolValue v x.n = (bolValue s x.n + x.inc) % 2 ^ 64
      ∧ ((∀ y ∈ xs, y.n = x.n) → v.run.bolQ = xs ∧ ∀ k, k ≠ x.n → bolValue v k = bolValue s k)
      ∧ ((s.run.bolQ.map Advance.n).Nodup → v.run.bolQ = xs.drop 7 ∧ ∀ y ∈ xs.take 7, bolValue v y.n = (bolValue s y.n + y.inc) % 2 ^ 64)
      ∧ (∀ id e b, x.fin = .token id e → e < 64 → blockRec v id = some b → (token b e).done = true)
      ∧ (∀ q idx e, xs = [] → x.fin = .finish q idx → qEntry s q idx = some e → e.fin = none → ∃ y, qEntry v q idx = some y ∧ y.sqe = e.sqe ∧ y.fin = some (0, 0))
      ∧ ((∀ y ∈ s.run.bolQ, y.fin = .none) → (∀ core slot f, slot < 128 → (slotKey core slot, f) ∈ bolWaiters s x.n ((bolValue s x.n + x.inc) % 2 ^ 64) →
          (s.run.slots.map Prod.fst).Nodup → Woken v core slot f f.pc)
        ∧ Only [.hl, .obj, .run, .core, .eng, .out] [.bolValue, .bolCtrl, .berthStatus, .evt] s v)) := by
  have first : bolTake s.run.bolQ [] [] = bolTake xs [x] [] := by rw [hq, bolTake_cons]; rfl
  obtain ⟨more, taken, from_xs, distinct⟩ := bolTake_fst (as := xs) (now := [x]) (later := []) (by simp)
  have kept := storeKept_bolSteps (withQueue s (bolTake xs [x] []).2) (x :: more)
  refine ⟨_, by rw [exec_bollardAdvanceApply, first, taken], ?value, fun same => ?one, fun nodup => ?many, fun id e b token _ => ?token,
    fun q idx e last finish entry undecided => ?finish, fun plain => ?plain⟩
  case value => exact bolValue_bolSteps distinct (List.mem_cons_self ..)
  case one =>
    have alone := bolTake_same (later := []) same
    rw [alone] at taken kept ⊢
    obtain rfl : more = [] := by simpa using taken
    exact ⟨kept.queue, fun k hk => bolValue_bolSteps_other (s := withQueue s _) (by simpa using Ne.symm hk)⟩
  case many =>
    rw [hq] at nodup
    have eight : bolTake xs [x] [] = (x :: xs.take 7, xs.drop 7) := bolTake_distinct (now := [x]) (later := []) (by simp) nodup
    rw [eight] at taken kept ⊢
    obtain rfl : xs.take 7 = more := by simpa using taken
    exact ⟨kept.queue, fun y hy => bolValue_bolSteps (s := withQueue s _) distinct (List.mem_cons_of_mem _ hy)⟩
  case token =>
    exact (storeKept_bolSteps (bolStep (withQueue s _) x) more).done id e (doneAt_bolStep _ token) b
  case finish =>
    obtain rfl : more = [] := List.eq_nil_iff_forall_not_mem.mpr fun y hy => by simpa [last] using from_xs y hy
    exact qEntry_bolStep (withQueue s _) finish entry undecided
  case plain =>
    have plain' : ∀ a ∈ x :: more, a.fin = .none := fun a ha => plain a (by
      rw [hq]
      exact (List.mem_cons.mp ha).elim (fun e => e ▸ List.mem_cons_self ..) (fun h => List.mem_cons_of_mem _ (from_xs a h)))
    refine ⟨fun core slot f hs waits nodup => ?_, ?_⟩
    · refine woken_bolSteps_of_woken (fun a ha => plain' a (List.mem_cons_of_mem _ ha)) ?_
      rw [bolStep_of_none (plain' x (List.mem_cons_self ..))]
      exact woken_bolApply (s := withQueue s _) hs nodup waits
    · exact ((only_withQueue s _).mono (by decide) (by decide)).trans (only_bolSteps plain' _)

/-- An empty queue: nothing to apply. -/
theorem gives_bollardAdvanceApply_empty {s : State} (hq : s.run.bolQ = []) : Gives .bollardAdvanceApply s (fun v => v = s) := by
  refine ⟨_, exec_bollardAdvanceApply s, ?_⟩
  rw [hq]
  show withQueue s [] = s
  rw [withQueue, ← hq]

/-- Settles O54: the instructions of threads, a cycle of the store by its case, the end of a wait by its limit, and the three host writes. -/
theorem bollardsAdvanceAndRelease : Obligations.BollardsAdvanceAndRelease := by
  unfold Obligations.BollardsAdvanceAndRelease
  refine ⟨fun a s u t n h owned => ⟨fun inc sc wide once hf none => ?_, fun target dst timed hd hf => ⟨fun reached => ?_, fun short => ?_⟩,
      fun dst acq hd hf => ?_⟩, fun s => ⟨gives_bollardAdvanceApply_empty, fun x xs hq => gives_bollardAdvanceApply hq⟩,
    fun core slot lane s r f n target d hc hs hl hr hf wait hd => gives_bollardWaitTimeout hc hs hl hr hf wait hd, fun n val s hn d0 => ⟨?_, ?_, ?_⟩⟩
  · exact gives_bollardAdvance h owned wide once hf none inc
  · exact gives_bollardWait_reached h owned timed hd hf reached
  · exact gives_bollardWait_short h owned timed hf short
  · exact gives_bollardRead h owned acq hd hf
  · exact gives_bolValueWrite val hn d0
  · exact gives_bolNotifyWrite_ctrl val hn d0
  · exact gives_bolNotifyWrite_threshold val hn d0

end Sys2Proof.Proofs
end

section
/-! Hardware queues (R432 to R439): the records of queues and objects, a doorbell, the fetch of an entry. -/

namespace Sys2Proof.Proofs

open Sys2Proof.Machine Sys2Proof.Claims Sys2Proof.Laws

/-! Records. -/

section
variable (s : State) (q : Nat)

/-- Storing a queue's record shows IN_FLIGHT and sets no other field. -/
theorem get_setQ (x : QRec) {f : Fld} (hf : f.ok = true) (low : f.hi < 58) (k : Nat) : (setQ s q x).get f k = s.get f k :=
  State.get_put_bits _ _ q 0 k 0 rfl hf (.inl low)

theorem moRec_setQ (x : QRec) (i : Nat) : moRec (setQ s q x) i = moRec s i := by rw [moRec, setQ, State.put_obj, moRec]

theorem moRec_setMo (i k : Nat) (m : MoRec) : moRec (setMo s i m) k = if k = i then m else moRec s k := smapGet_set ..

theorem qRec_of_q {t : State} (h : t.obj.q = s.obj.q) : qRec t q = qRec s q := by rw [qRec, h, qRec]

/-- References taken or dropped leave the queues alone (R422, R423). -/
theorem takeHolds_q (holds : List Nat) : (takeHolds s holds).obj.q = s.obj.q := by
  unfold takeHolds
  induction holds generalizing s with
  | nil => rfl
  | cons i holds ih => exact ih (setMo s i { moRec s i with refs := (moRec s i).refs + 1 })

theorem moDrop_q (i : Nat) : (moDrop s i).obj.q = s.obj.q := by
  unfold moDrop
  dsimp only
  split <;> rfl

theorem dropHolds_q (holds : List Nat) : (dropHolds s holds).obj.q = s.obj.q := by
  unfold dropHolds
  induction holds generalizing s with
  | nil => rfl
  | cons i holds ih => exact (ih (moDrop s i)).trans (moDrop_q s i)

end

theorem moRec_takeHolds_other {s : State} {holds : List Nat} {i : Nat} (h : i ∉ holds) : moRec (takeHolds s holds) i = moRec s i := by
  unfold takeHolds
  induction holds generalizing s with
  | nil => rfl
  | cons k holds ih =>
    rw [List.mem_cons, not_or] at h
    rw [List.foldl_cons, ih h.2, moRec_setMo, if_neg h.1]

/-- Each object of a hold list that names it once has one reference more (R423). -/
theorem moRec_takeHolds {s : State} {holds : List Nat} (nodup : holds.Nodup) {i : Nat} (hi : i ∈ holds) :
    moRec (takeHolds s holds) i = { moRec s i with refs := (moRec s i).refs + 1 } := by
  induction holds generalizing s with
  | nil => cases hi
  | cons k holds ih =>
    rw [List.nodup_cons] at nodup
    have first : takeHolds s (k :: holds) = takeHolds (setMo s k { moRec s k with refs := (moRec s k).refs + 1 }) holds := by
      rw [takeHolds, List.foldl_cons, takeHolds]
    rw [first]
    rcases List.mem_cons.mp hi with rfl | hi
    · rw [moRec_takeHolds_other nodup.1, moRec_setMo, if_pos rfl]
    · have other : i ≠ k := fun e => nodup.1 (e ▸ hi)
      rw [ih nodup.2 hi, moRec_setMo, if_neg other]

/-! The rings' registers. -/

section
variable {s : State} {q v : Nat}

/-- In D3hot a host write changes nothing (R454). -/
theorem gives_ringWrite_d3 (hq : q < 16384) (d3 : s.hl.d3 = true) : ∀ i ∈ [Instr.qDoorbellWrite q v, .qCqHeadWrite q v], Gives i s (fun t => t = s) := by
  have door : exec (.qDoorbellWrite q v) s = execQDoorbellWrite q v s := rfl
  have head : exec (.qCqHeadWrite q v) s = execQCqHeadWrite q v s := rfl
  simp only [List.forall_mem_cons, List.not_mem_nil, false_implies, implies_true, and_true]
  refine ⟨⟨s, ?_, rfl⟩, ⟨s, ?_, rfl⟩⟩
  · rw [door, execQDoorbellWrite, if_pos hq, bar0, d3, if_pos rfl]
  · rw [head, execQCqHeadWrite, if_pos hq, bar0, d3, if_pos rfl]

theorem exec_qDoorbellWrite (hq : q < 16384) (d0 : s.hl.d3 = false) : exec (.qDoorbellWrite q v) s = .next (qDoorbell s q v) := by
  show execQDoorbellWrite q v s = _
  rw [execQDoorbellWrite, if_pos hq, bar0, d0, if_neg Bool.false_ne_true]

/-- A doorbell within the ring moves the tail (R433). -/
theorem gives_qDoorbellWrite (hq : q < 16384) (d0 : s.hl.d3 = false) (within : v % 65536 < sqSize s q) :
    Gives (.qDoorbellWrite q v) s (fun t => t.get F.qDoorbell_SQ_TAIL q = v % 65536 ∧ (qState s q ≠ 2 → (qRec t q).tail = v % 65536)
      ∧ (qRec t q).entries = (qRec s q).entries ∧ Only [.obj] [.qDoorbell, .qStatus] s t) := by
  have tail : (s.put F.qDoorbell_SQ_TAIL v q).get F.qDoorbell_SQ_TAIL q = v % 65536 := State.get_put_same s v q 0 rfl
  have record : qRec (s.put F.qDoorbell_SQ_TAIL v q) q = qRec s q := qRec_congr (State.put_obj ..) q
  have state : qState (s.put F.qDoorbell_SQ_TAIL v q) q = qState s q := State.get_put_reg s v q 0 q 0 (by decide)
  have moved : Only [.obj] [.qDoorbell, .qStatus] s (s.put F.qDoorbell_SQ_TAIL v q) := (only_setWord ..).mono (by decide) (by decide)
  refine ⟨_, exec_qDoorbellWrite hq d0, ?_⟩
  rw [qDoorbell, if_pos within]
  dsimp only
  rw [state]
  by_cases cancelling : qState s q = 2
  · rw [if_pos cancelling]
    exact ⟨tail, fun running => absurd cancelling running, by rw [record], moved⟩
  · rw [if_neg cancelling]
    exact ⟨(get_setQ _ _ _ rfl (by decide) q).trans tail, fun _ => by rw [qRec_setQ], by rw [qRec_setQ, record],
      moved.trans ((frame_setQ ..).onlyOf rfl)⟩

/-- A doorbell outside the ring changes nothing (R433). -/
theorem gives_qDoorbellWrite_outside (hq : q < 16384) (d0 : s.hl.d3 = false) (outside : sqSize s q ≤ v % 65536) :
    Gives (.qDoorbellWrite q v) s (fun t => t = s) := ⟨_, exec_qDoorbellWrite hq d0, if_neg (Nat.not_lt.mpr outside)⟩

theorem qDrain_of_empty (h : (qRec s q).entries = []) : qDrain s q = s := by rw [qDrain, h]; rfl

theorem qState_showStall (s : State) (q : Nat) : qFull (showStall s q) q = qFull s q
    ∧ (qState s q = 1 ∨ qState s q = 3 → qState (showStall s q) q = if qFull s q then 3 else 1) := by
  unfold showStall
  split
  · rename_i runs
    have same (x : Nat) {f : Fld} (hf : f.ok = true) (apart : f.hi < 32 ∨ 33 < f.lo) : (s.put F.qStatus_STATE x q).get f q = s.get f q :=
      State.get_put_bits _ _ q 0 q 0 rfl hf apart
    refine ⟨?_, fun _ => ?_⟩
    · rw [qFull, qFull, cqSize, cqSize, same _ rfl (by decide), same _ rfl (by decide), State.get_put_reg _ _ q 0 q 0 (by decide)]
    · rw [qState, State.get_put_same _ _ q 0 rfl]
      split <;> rfl
  · rename_i stopped
    exact ⟨rfl, fun runs => absurd runs stopped⟩

/-- The host consumes completion entries (R439). -/
theorem gives_qCqHeadWrite (hq : q < 16384) (d0 : s.hl.d3 = false) (within : v % 65536 < cqSize s q) (empty : (qRec s q).entries = []) :
    Gives (.qCqHeadWrite q v) s (fun t => t.get F.qCqHead_CQ_HEAD q = v % 65536
      ∧ (qState s q = 1 ∨ qState s q = 3 → qState t q = if qFull t q then 3 else 1) ∧ Only [] [.qCqHead, .qStatus] s t) := by
  have shown := frame_showStall (s.put F.qCqHead_CQ_HEAD v q) q
  have none : (qRec (showStall (s.put F.qCqHead_CQ_HEAD v q) q) q).entries = [] := by
    rw [qRec_congr (shown.obj rfl), qRec_congr (State.put_obj ..), empty]
  have state : qState (s.put F.qCqHead_CQ_HEAD v q) q = qState s q := State.get_put_reg s v q 0 q 0 (by decide)
  have done : exec (.qCqHeadWrite q v) s = .next (showStall (s.put F.qCqHead_CQ_HEAD v q) q) := by
    show execQCqHeadWrite q v s = _
    rw [execQCqHeadWrite, if_pos hq, bar0, d0, if_neg Bool.false_ne_true, qCqHead, if_pos within, qDrain_of_empty none]
  obtain ⟨full, stall⟩ := qState_showStall (s.put F.qCqHead_CQ_HEAD v q) q
  refine ⟨_, done, (shown.get F.qCqHead_CQ_HEAD rfl q).trans (State.get_put_same s v q 0 rfl), fun runs => ?_,
    ((only_setWord ..).mono (by decide) (by decide)).trans (shown.onlyOf rfl)⟩
  rw [full]
  exact stall (by rwa [state])

end

/-! The fetch. -/

/-- The record of a queue with an entry more. -/
def appended (s : State) (q : Nat) (e : QEntry) : State := setQ s q { qRec s q with entries := (qRec s q).entries ++ [e] }

/-- The entry read from the ring: its start condition kept, unless a value has reached it (R226, R232). -/
def fetchedEntry (s : State) (q : Nat) (bs : List Byte) : QEntry :=
  ⟨s.get F.qStatus_SQ_HEAD q, bs, [], false, none, false, none,
    if (leAt bs 1 1).testBit 2 && decide (bolValue s (leAt bs 0x2C 2 % 16384) < leAt bs 0x30 8) then some (leAt bs 0x2C 2 % 16384, leAt bs 0x30 8)
    else none⟩

section
variable {s : State} {q : Nat} {bs : List Byte} {holds : List Nat}

/-- A queue's next entry goes into its record as refused for its form, refused for its objects, or with its references (R423, R435). -/
theorem qFetch_eq (running : qState s q ≠ 2) : qFetch s q bs holds = match (fetchedEntry s q bs).refused with
    | some r => appended (s.put F.qStatus_SQ_HEAD ((s.get F.qStatus_SQ_HEAD q + 1) % sqSize s q) q) q { fetchedEntry s q bs with fin := some (3, r) }
    | none => if holds.all (moReady s) then
        appended (takeHolds (s.put F.qStatus_SQ_HEAD ((s.get F.qStatus_SQ_HEAD q + 1) % sqSize s q) q) holds) q { fetchedEntry s q bs with holds := holds }
      else appended (s.put F.qStatus_SQ_HEAD ((s.get F.qStatus_SQ_HEAD q + 1) % sqSize s q) q) q { fetchedEntry s q bs with fin := some (3, 3) } := by
  obtain ⟨w, hw⟩ : ∃ w, w = s.put F.qStatus_SQ_HEAD ((s.get F.qStatus_SQ_HEAD q + 1) % sqSize s q) q := ⟨_, rfl⟩
  have state : qState w q = qState s q := by rw [hw]; exact State.get_put_bits s _ q 0 q 0 rfl rfl (by decide)
  have ready (i : Nat) : moReady w i = moReady s i := by
    have enabled : w.isSet F.hostMoTable_ENABLE = s.isSet F.hostMoTable_ENABLE := by rw [hw, State.isSet, State.get_put_reg _ _ _ _ _ _ (by decide), State.isSet]
    have object : moRec w i = moRec s i := by rw [moRec, hw, State.put_obj, moRec]
    rw [moReady, enabled, object, moReady]
  have start : (if (leAt bs 1 1).testBit 2 then startNow s (some (leAt bs 0x2C 2 % 16384, leAt bs 0x30 8)) else none)
      = (fetchedEntry s q bs).start := by
    unfold startNow startKept fetchedEntry
    by_cases flagged : (leAt bs 1 1).testBit 2 = true
    · by_cases reached : leAt bs 0x30 8 ≤ bolValue s (leAt bs 0x2C 2 % 16384)
      · simp [flagged, reached]
      · simp [flagged, reached, Nat.lt_of_not_le reached]
    · simp [flagged]
  have entry : (⟨s.get F.qStatus_SQ_HEAD q, bs, [], false, none, false, none,
      if (leAt bs 1 1).testBit 2 then startNow s (some (leAt bs 0x2C 2 % 16384, leAt bs 0x30 8)) else none⟩ : QEntry) = fetchedEntry s q bs := by
    rw [start, fetchedEntry]
  have whole : holds.all (moReady w) = holds.all (moReady s) := by rw [funext ready]
  rw [← hw, ← whole, ← entry]
  unfold qFetch
  dsimp only
  rw [← hw, state, if_neg running]
  rfl

/-- The next entry of a queue fetched (R423, R433, R435). -/
theorem gives_sqEntryFetch {e : QEntry} (hq : q < 16384) (whole : bs.length = 64) (ok : holdsOk bs holds = true) (may : mayFetch s q = true)
    (running : qState s q ≠ 2) (he : e = fetchedEntry s q bs) (hsize : sqSize s q ≤ 65536) :
    Gives (.sqEntryFetch q bs holds) s (fun t => t.get F.qStatus_SQ_HEAD q = (s.get F.qStatus_SQ_HEAD q + 1) % sqSize s q
      ∧ (∀ r, e.refused = some r → (qRec t q).entries = (qRec s q).entries ++ [{ e with fin := some (3, r) }])
      ∧ (e.refused = none → holds.all (moReady s) = false → (qRec t q).entries = (qRec s q).entries ++ [{ e with fin := some (3, 3) }])
      ∧ (e.refused = none → holds.all (moReady s) = true → (qRec t q).entries = (qRec s q).entries ++ [{ e with holds := holds }]
        ∧ (holds.Nodup → ∀ i ∈ holds, moRec t i = { moRec s i with refs := (moRec s i).refs + 1 }))
      ∧ Only [.obj] [.qStatus] s t) := by
  have done : exec (.sqEntryFetch q bs holds) s = .next (qFetch s q bs holds) := by
    show execSqEntryFetch q bs holds s = _
    rw [execSqEntryFetch, if_pos ⟨hq, whole, ok⟩, if_pos may]
  obtain ⟨w, hw⟩ : ∃ w, w = s.put F.qStatus_SQ_HEAD ((s.get F.qStatus_SQ_HEAD q + 1) % sqSize s q) q := ⟨_, rfl⟩
  have small : (s.get F.qStatus_SQ_HEAD q + 1) % sqSize s q < 65536 := (Nat.mod_lt _ (Nat.two_pow_pos _)).trans_le hsize
  have head : w.get F.qStatus_SQ_HEAD q = (s.get F.qStatus_SQ_HEAD q + 1) % sqSize s q := by
    rw [hw, State.get_put_same _ _ q 0 rfl]
    exact Nat.mod_eq_of_lt small
  have moved : Only [.obj] [.qStatus] s w := by
    rw [hw]
    exact (only_setWord ..).mono (by decide) (by decide)
  have objects : w.obj = s.obj := by rw [hw, State.put_obj]
  have record : qRec w q = qRec s q := qRec_congr objects q
  have one (x : QEntry) : (appended w q x).get F.qStatus_SQ_HEAD q = (s.get F.qStatus_SQ_HEAD q + 1) % sqSize s q
      ∧ (qRec (appended w q x) q).entries = (qRec s q).entries ++ [x] ∧ Only [.obj] [.qStatus] s (appended w q x) :=
    ⟨(get_setQ _ _ _ rfl (by decide) q).trans head, by rw [appended, qRec_setQ, record], moved.trans ((frame_setQ ..).onlyOf rfl)⟩
  subst he
  refine ⟨_, done, ?_⟩
  rw [qFetch_eq running, ← hw]
  cases refused : (fetchedEntry s q bs).refused with
  | some r =>
    obtain ⟨headIs, entries, only⟩ := one { fetchedEntry s q bs with fin := some (3, r) }
    exact ⟨headIs, fun _ h => Option.some.inj h ▸ entries, nofun, nofun, only⟩
  | none =>
    dsimp only
    cases ready : holds.all (moReady s) with
    | false =>
      obtain ⟨headIs, entries, only⟩ := one { fetchedEntry s q bs with fin := some (3, 3) }
      exact ⟨headIs, nofun, fun _ _ => entries, nofun, only⟩
    | true =>
      have taken := frame_takeHolds w holds
      have queue : qRec (takeHolds w holds) q = qRec s q := (qRec_of_q _ _ (takeHolds_q w holds)).trans record
      have object (i : Nat) : moRec w i = moRec s i := by rw [moRec, objects, moRec]
      refine ⟨(get_setQ _ _ _ rfl (by decide) q).trans ((taken.get F.qStatus_SQ_HEAD rfl q).trans head), nofun, nofun, fun _ _ => ⟨?_, fun nodup i hi => ?_⟩,
        (moved.trans (taken.onlyOf rfl)).trans ((frame_setQ ..).onlyOf rfl)⟩
      · rw [if_pos rfl, appended, qRec_setQ, queue]
      · rw [if_pos rfl, appended, moRec_setQ, moRec_takeHolds nodup hi, object]

end

end Sys2Proof.Proofs
end

section
/-! Checks that end well (R123, R183): what holds of a result's value and state, and that the checks of a launch and of a segmented multiply leave the host's
objects alone. -/

namespace Sys2Proof.Proofs

open Sys2Proof.Machine Sys2Proof.Claims Sys2Proof.Laws

/-- Where the result is a value, it and the state meet a condition. -/
structure OkMeets {α : Type} (r : Res α) (P : α → State → Prop) : Prop where
  of_ok : ∀ v u, r = .ok v u → P v u

section
variable {α β : Type} {P : α → State → Prop} {Q : β → State → Prop}

theorem okMeets_ok {v : α} {u : State} (h : P v u) : OkMeets (.ok v u) P := ⟨by rintro _ _ ⟨⟩; exact h⟩

theorem okMeets_halt (x i : Nat) (u : State) : OkMeets (.halt x i u) P := ⟨fun _ _ h => by cases h⟩

theorem okMeets_absent (n a : Nat) (u : State) : OkMeets (.absent n a u) P := ⟨fun _ _ h => by cases h⟩

theorem okMeets_then {r : Res α} {k : α → State → Res β} (h : OkMeets r P) (hk : ∀ v u, P v u → OkMeets (k v u) Q) : OkMeets (r.then k) Q := by
  cases r with
  | ok v u => exact hk v u (h.of_ok v u rfl)
  | absent n a u => exact okMeets_absent ..
  | halt x i u => exact okMeets_halt ..

theorem okMeets_ite {c : Prop} [Decidable c] {r x : Res α} (hr : c → OkMeets r P) (hx : ¬c → OkMeets x P) : OkMeets (if c then r else x) P := by
  split
  · exact hr ‹_›
  · exact hx ‹_›

end

/-- The objects of the host stay as they are where the result is a value. -/
abbrev OkKeeps {α : Type} (s : State) (r : Res α) : Prop := OkMeets r (fun _ u => u.obj = s.obj)

section
variable {s : State}

theorem placeOf_ok {c ca n : Nat} {need : Need} {tgts : List Nat} {p : Place} {u : State} (h : placeOf c ca n need tgts s = .ok p u) : u = s := by
  unfold placeOf at h
  split at h
  · cases h
  · cases h
  · cases h
    rfl

theorem okKeeps_placeOf (c ca n : Nat) (need : Need) (tgts : List Nat) (s : State) : OkKeeps s (placeOf c ca n need tgts s) :=
  ⟨fun _ _ h => by rw [placeOf_ok h]⟩

/-- What keeps the objects of a state keeps those of an earlier one that has the same. -/
theorem okMeets_of_keeps {α : Type} {r : Res α} {u : State} (h : OkKeeps u r) (hu : u.obj = s.obj) : OkMeets r (fun _ w => w.obj = s.obj) :=
  ⟨fun v w e => (h.of_ok v w e).trans hu⟩

theorem okKeeps_bytesUnder (need : Need) (c ca n : Nat) (s : State) : OkKeeps s (bytesUnder need c ca n s) := by
  unfold bytesUnder
  refine okMeets_ite (fun _ => okMeets_ok rfl) (fun _ => okMeets_then (okKeeps_placeOf ..) (fun p u hu => ?_))
  exact okMeets_ite (fun _ => okMeets_halt ..) (fun _ => okMeets_ok (((frame_devRead ..).obj rfl).trans hu))

theorem okKeeps_devCheck (need : Need) (c ca n : Nat) (s : State) : OkKeeps s (devCheck need c ca n s) :=
  okMeets_ite (fun _ => okMeets_ok rfl) (fun _ => okMeets_then (okKeeps_placeOf ..) (fun _ _ hu => okMeets_ok hu))

/-! The checks of a launch (Table 6.4). -/

/-- The launch that the checks make has ended no block and is not cancelled. -/
theorem launchFit_ok (c q : Nat) (e : QEntry) (ss : List Section) (ent : List Byte) (total : Nat) (s : State) :
    OkMeets (launchFit c q e ss ent total s) (fun l u => l.ended = 0 ∧ l.cancelled = false ∧ u = s) := by
  unfold launchFit
  dsimp only
  split
  · exact okMeets_halt ..
  · split
    · exact okMeets_halt ..
    · split
      · exact okMeets_halt ..
      · exact okMeets_ite (fun _ => okMeets_halt ..) (fun _ => okMeets_ite (fun _ => okMeets_halt ..) (fun _ => okMeets_ok ⟨rfl, rfl, rfl⟩))

theorem launchChecks_ok (c q : Nat) (e : QEntry) (s : State) :
    OkMeets (launchChecks c q e s) (fun l u => l.ended = 0 ∧ l.cancelled = false ∧ u.obj = s.obj) := by
  have bytes (n : Nat) (u : State) (hu : u.obj = s.obj) : OkMeets (codeBytes c e.obj n u) (fun _ w => w.obj = s.obj) :=
    okMeets_of_keeps (okKeeps_bytesUnder ..) hu
  unfold launchChecks
  dsimp only
  refine okMeets_ite (fun _ => okMeets_halt ..) (fun _ => okMeets_then (bytes 64 s rfl) (fun h u hu => ?_))
  refine okMeets_then (P := fun _ w => w.obj = s.obj) ?_ (fun _ w hw => ?_)
  · exact okMeets_ite (fun _ => okMeets_ok hu) (fun _ => okMeets_of_keeps (okKeeps_devCheck ..) hu)
  · refine okMeets_ite (fun _ => okMeets_halt ..) (fun _ => okMeets_ite (fun _ => okMeets_halt ..) (fun _ => okMeets_then (bytes _ w hw) (fun t x hx => ?_)))
    refine okMeets_ite (fun _ => okMeets_halt ..) (fun _ => okMeets_ite (fun _ => okMeets_halt ..) (fun _ => ⟨fun l u' fit => ?_⟩))
    obtain ⟨ended, cancelled, rfl⟩ := (launchFit_ok ..).of_ok l u' fit
    exact ⟨ended, cancelled, hx⟩

/-! The checks of a segmented multiply (R123). -/

theorem okKeeps_segExtent (c idx : Nat) (need : Need) (addr pitch rows len : Nat) (s : State) : OkKeeps s (segExtent c idx need addr pitch rows len s) := by
  unfold segExtent
  refine okMeets_ite (fun _ => okMeets_halt ..) (fun _ => ?_)
  have check := okKeeps_devCheck need c addr (extent rows pitch len) s
  split
  · exact okMeets_halt ..
  · exact check

theorem okKeeps_segDescriptor (c : Nat) (j : SegJob) (idx h : Nat) (s : State) : OkKeeps s (segDescriptor c j idx h s) := by
  have read : (physRead s (adapterAddr s h) 64).2.obj = s.obj := (frame_physRead ..).obj rfl
  have extents {need : Need} {addr pitch rows len : Nat} {u : State} (hu : u.obj = s.obj) :
      OkMeets (segExtent c idx need addr pitch rows len u) (fun _ w => w.obj = s.obj) :=
    okMeets_of_keeps (okKeeps_segExtent ..) hu
  unfold segDescriptor
  refine okMeets_ite (fun _ => okMeets_halt ..) (fun _ => ?_)
  dsimp only
  refine okMeets_ite (fun _ => okMeets_halt ..) (fun _ => okMeets_ite (fun _ => okMeets_halt ..) (fun _ => okMeets_ite (fun _ => okMeets_halt ..)
    (fun _ => okMeets_ite (fun _ => okMeets_halt ..) (fun _ => okMeets_then (extents read) (fun _ _ hu => okMeets_then (extents hu) (fun _ _ hw => ?_))))))
  exact okMeets_ite (fun _ => okMeets_then (extents hw) (fun _ _ hx => okMeets_then (extents hx) (fun _ _ hy => okMeets_ok hy))) (fun _ => okMeets_ok hw)

theorem okKeeps_segManifest (c : Nat) (j : SegJob) (s : State) : OkKeeps s (segManifest c j s) := by
  have read (n : Nat) (u : State) (hu : u.obj = s.obj) : OkMeets (match devBytes c j.manifest n u with
      | .halt r i s => if r = 0x46 then .halt r i s else .halt 0xA0 allOnes s
      | x => x) (fun _ w => w.obj = s.obj) := by
    have bytes := okKeeps_bytesUnder .read c j.manifest n u
    split
    · exact okMeets_ite (fun _ => okMeets_halt ..) (fun _ => okMeets_halt ..)
    · exact okMeets_of_keeps bytes hu
  unfold segManifest
  dsimp only
  refine okMeets_ite (fun _ => okMeets_halt ..) (fun _ => okMeets_then (read 16 s rfl) (fun h u hu => okMeets_ite (fun _ => okMeets_halt ..)
    (fun _ => okMeets_then (read _ u hu) (fun bs w hw => ?_))))
  exact okMeets_ite (fun _ => okMeets_halt ..) (fun _ => okMeets_ok hw)

theorem okKeeps_segEntries (c : Nat) (j : SegJob) (es : List (Nat × Nat)) (idx row : Nat) (done : List SegRun) (s : State) :
    OkKeeps s (segEntries c j es idx row done s) := by
  induction es generalizing idx row done s with
  | nil => exact okMeets_ok rfl
  | cons x es ih =>
    unfold segEntries
    refine okMeets_then (okKeeps_segDescriptor ..) (fun d u hu => okMeets_ite (fun _ => okMeets_halt ..) (fun _ => okMeets_of_keeps (ih ..) hu))

theorem okKeeps_segWhole (c : Nat) (j : SegJob) (runs : List SegRun) (s : State) : OkKeeps s (segWhole c j runs s) := by
  unfold segWhole
  exact okMeets_ite (fun _ => okMeets_halt ..) (fun _ => okMeets_ite (fun _ => okMeets_halt ..) (fun _ => okMeets_ok rfl))

theorem okKeeps_segChecks (c : Nat) (p : SegJob) (s : State) : OkKeeps s (segChecks c p s) := by
  unfold segChecks
  refine okMeets_then (okKeeps_segManifest ..) (fun es u hu => okMeets_then (P := fun _ w => w.obj = s.obj) ?_ (fun rs w hw => ?_))
  · exact okMeets_of_keeps (okKeeps_segEntries ..) hu
  · exact okMeets_of_keeps (okKeeps_segWhole ..) hw

end

end Sys2Proof.Proofs
end

section
/-! Entries that start (R436, R226, R231): what each opcode leaves of its entry, and of the work it starts. -/

namespace Sys2Proof.Proofs

open Sys2Proof.Machine Sys2Proof.Claims Sys2Proof.Laws

/-! The entry in its queue. -/

section
variable {s t : State} {q op : Nat} {e : QEntry} {fin : Option (Nat × Nat)}

theorem entryRuns_congr (h : t.obj = s.obj) (r : EntryRuns s q e fin) : EntryRuns t q e fin := by rwa [EntryRuns, qRec_congr h]

theorem entryRuns_markStarted (he : e ∈ (qRec s q).entries) (undecided : e.fin = none) : EntryRuns (markStarted s q e.idx) q e none := by
  rw [EntryRuns, markStarted, updEntry, qRec_setQ]
  exact ⟨_, List.mem_map_of_mem he, by rw [if_pos (beq_self_eq_true e.idx)]; exact ⟨rfl, rfl, rfl, undecided⟩⟩

/-- The outcome of an entry that runs is decided (R441). -/
theorem entryRuns_qFinish (r : EntryRuns s q e none) (st rs : Nat) : EntryRuns (qFinish s q e.idx st rs) q e (some (st, rs)) := by
  obtain ⟨x, hx, idx, sqe, started, undecided⟩ := r
  rw [EntryRuns, qFinish, updEntry, qRec_setQ]
  exact ⟨_, List.mem_map_of_mem hx, by
    rw [if_pos (beq_iff_eq.mpr idx)]
    dsimp only
    rw [undecided]
    exact ⟨idx, sqe, started, rfl⟩⟩

/-- An advance decides no entry. -/
theorem entryRuns_bolApply (n inc : Nat) (r : EntryRuns s q e fin) : EntryRuns (bolApply s n inc) q e fin := by
  obtain ⟨x, hx, same⟩ := r
  rw [EntryRuns, qRec_bolApply]
  exact ⟨_, List.mem_map_of_mem hx, same⟩

theorem nextEntry_eq_some (h : nextEntry s q op = some e) : e ∈ (qRec s q).entries ∧ e.fin = none := by
  unfold nextEntry at h
  split at h
  · cases h
  · rename_i x found
    split at h
    · cases h
      have waits := List.find?_some found
      simp only [Bool.and_eq_true, Option.isNone_iff_eq_none] at waits
      exact ⟨List.mem_of_find?_eq_some found, waits.2⟩
    · cases h

/-- The next entry starts: its opcode's meaning is performed. -/
theorem startEntry_eq (h : StartsNow s q op e) (k : QEntry → State → State) : startEntry s q op k = .next (k e s) := by
  rw [startEntry, if_pos h.queue, h.next]
  dsimp only
  rw [h.owned, h.met]
  rfl

theorem entryRuns_started (h : StartsNow s q op e) : EntryRuns (markStarted s q e.idx) q e none :=
  have ⟨he, undecided⟩ := nextEntry_eq_some h.next
  entryRuns_markStarted he undecided

/-! Entries that complete by themselves. -/

theorem gives_sqeNop (h : StartsNow s q 0 e) : Gives (.sqeNop q) s (fun t => EntryRuns t q e (some (0, 0)) ∧ Only [.obj] [.qStatus] s t) := by
  have run : exec (.sqeNop q) s = execSqeNop q s := rfl
  refine ⟨_, run.trans (startEntry_eq h _), entryRuns_qFinish (entryRuns_started h) 0 0, ?_⟩
  exact ((frame_markStarted ..).onlyOf rfl).trans ((frame_qFinish ..).onlyOf rfl)

theorem gives_sqeSignal (h : StartsNow s q 6 e) :
    Gives (.sqeSignal q) s (fun t => EntryRuns t q e (some (0, 0)) ∧ Only [.obj, .hl, .out] [.qStatus, .evt] s t) := by
  have run : exec (.sqeSignal q) s = execSqeSignal q s := rfl
  refine ⟨_, run.trans (startEntry_eq h _), entryRuns_qFinish (entryRuns_congr ((frame_signal ..).obj rfl) (entryRuns_started h)) 0 0, ?_⟩
  exact (((frame_markStarted ..).onlyOf rfl).trans ((frame_signal ..).onlyOf rfl)).trans ((frame_qFinish ..).onlyOf rfl)

/-- A barrier completes once every earlier entry has. -/
theorem gives_sqeBarrier (h : StartsNow s q 5 e) (earlier : ((qRec s q).entries.takeWhile (fun x => x.idx != e.idx)).all (fun x => x.bolDone) = true) :
    Gives (.sqeBarrier q) s (fun t => EntryRuns t q e (some (0, 0)) ∧ Only [.obj] [.qStatus] s t) := by
  have run : exec (.sqeBarrier q) s = execSqeBarrier q s := rfl
  refine ⟨_, run.trans ((startEntry_eq h _).trans (congrArg _ (if_pos earlier))), entryRuns_qFinish (entryRuns_started h) 0 0, ?_⟩
  exact ((frame_markStarted ..).onlyOf rfl).trans ((frame_qFinish ..).onlyOf rfl)

theorem queued_obj (s : State) (x : Advance) : (queued s x).obj = s.obj := rfl

theorem bolSend_of_waiting (n inc : Nat) (f : AdvEnd) (waiting : s.run.bolQ ≠ []) : bolSend s n inc f = queued s ⟨n, inc, f⟩ := by
  have some_wait : s.run.bolQ.isEmpty = false := by simpa using waiting
  rw [bolSend, some_wait, if_neg Bool.false_ne_true, queued]

/-- BOLLARD_ADVANCE completes once its advance is applied: at once, or behind those that wait at the store (R233, R436). -/
theorem gives_sqeBollardAdvance (h : StartsNow s q 4 e) : Gives (.sqeBollardAdvance q) s (fun t =>
    (s.run.bolQ = [] → EntryRuns t q e (some (0, 0)) ∧ bolValue t e.done = (bolValue s e.done + e.inc) % 2 ^ 64)
    ∧ (s.run.bolQ ≠ [] → EntryRuns t q e none ∧ t.run.bolQ = s.run.bolQ ++ [⟨e.done, e.inc, .finish q e.idx⟩])) := by
  have run : exec (.sqeBollardAdvance q) s = execSqeBollardAdvance q s := rfl
  have marked := frame_markStarted s q e.idx
  have queue : (markStarted s q e.idx).run.bolQ = s.run.bolQ := congrArg Running.bolQ (marked.run rfl)
  have value : bolValue (markStarted s q e.idx) e.done = bolValue s e.done := marked.get F.bolValue_VALUE rfl _
  have runs := entryRuns_started h
  refine ⟨_, run.trans (startEntry_eq h _), fun alone => ?_, fun waiting => ?_⟩
  · dsimp only
    rw [queue, alone, List.isEmpty_nil, if_pos rfl]
    refine ⟨entryRuns_qFinish (entryRuns_bolApply _ _ runs) 0 0, ((frame_qFinish ..).get F.bolValue_VALUE rfl _).trans ?_⟩
    exact (bolValue_bolApply_same ..).trans (by rw [value])
  · have some_wait : (markStarted s q e.idx).run.bolQ.isEmpty = false := by rw [queue]; simpa using waiting
    dsimp only
    rw [some_wait, if_neg Bool.false_ne_true, bolSend_of_waiting _ _ _ (by rwa [queue])]
    exact ⟨entryRuns_congr (queued_obj ..) runs, by rw [queued, queue]⟩

/-! Launches. -/

/-- A launch with blocks to end goes into the list as it is (R140, R149). -/
theorem takeLaunch_eq {l : Launch} (fresh : ∀ x ∈ s.run.launches, x.id ≠ l.id) (total : l.total ≠ 0) (ended : l.ended = 0) (going : l.cancelled = false) :
    (takeLaunch s q e l).run.launches = s.run.launches ++ [l] ∧ qRec (takeLaunch s q e l) q = qRec (markStarted s q e.idx) q := by
  have launches : (markStarted s q e.idx).run.launches = s.run.launches := congrArg Running.launches ((frame_markStarted ..).run rfl)
  unfold takeLaunch
  dsimp only
  obtain ⟨w, hw⟩ : ∃ w : State, w = { markStarted s q e.idx with
      obj := { (markStarted s q e.idx).obj with nextId := (markStarted s q e.idx).obj.nextId + 1 },
      run := { (markStarted s q e.idx).run with launches := (markStarted s q e.idx).run.launches ++ [l] } } := ⟨_, rfl⟩
  rw [← hw]
  have listed : w.run.launches = s.run.launches ++ [l] := by rw [hw, launches]
  have found : launchRec w l.id = some l := by
    rw [launchRec, listed, List.find?_append, List.find?_eq_none.mpr (fun x hx => by simpa using fresh x hx), Option.none_or,
      List.find?_cons_of_pos (by simp)]
  have goes_on : launchOver w l = false := by
    have open_blocks : (l.ended == l.total) = false := by rw [ended]; simpa using Ne.symm total
    rw [launchOver, open_blocks, going, Bool.false_and, Bool.or_false, Bool.false_and]
  have checked : launchCheck w l.id = w := by
    unfold launchCheck
    rw [found]
    dsimp only
    rw [goes_on, if_neg Bool.false_ne_true]
  rw [checked]
  exact ⟨listed, by rw [hw]; exact qRec_of_q _ _ rfl⟩

theorem gives_sqeLaunch (h : StartsNow s q 1 e) {l : Launch} {u : State} (checks : launchChecks (qCtx s q) q e s = .ok l u)
    (fresh : ∀ x ∈ u.run.launches, x.id ≠ l.id) (total : l.total ≠ 0) :
    Gives (.sqeLaunch q) s (fun t => EntryRuns t q e none ∧ t.run.launches = u.run.launches ++ [l]) := by
  have run : exec (.sqeLaunch q) s = execSqeLaunch q s := rfl
  have done : exec (.sqeLaunch q) s = .next (takeLaunch u q e l) := by
    rw [run, execSqeLaunch, startEntry_eq h, checks]
    rfl
  obtain ⟨ended, going, objects⟩ := (launchChecks_ok ..).of_ok l u checks
  obtain ⟨launches, record⟩ := takeLaunch_eq (q := q) (e := e) fresh total ended going
  obtain ⟨he, undecided⟩ := nextEntry_eq_some h.next
  refine ⟨_, done, ?_, launches⟩
  rw [EntryRuns, record]
  exact entryRuns_markStarted (by rwa [qRec_congr objects]) undecided

/-! Jobs. -/

theorem descriptorAt_ok {p : Place} {u : State} (h : descriptorAt s q e = .ok p u) : u = s := placeOf_ok h

/-- The next number taken, the entry marked. -/
def numbered (s : State) (q : Nat) (e : QEntry) : State := markStarted { s with obj := { s.obj with nextId := s.obj.nextId + 1 } } q e.idx

theorem queueJob_eq (s : State) (q : Nat) (e : QEntry) (unit : Nat) (job : Job) :
    queueJob s q e unit job = jobArrive (numbered s q e) (entryJob s q e unit job) := rfl

theorem entryRuns_arrived (h : StartsNow s q op e) (j : EngJob) : EntryRuns (arrived (numbered s q e) j) q e none := by
  obtain ⟨he, undecided⟩ := nextEntry_eq_some h.next
  exact entryRuns_congr (((frame_ungate ..).obj rfl).trans ((frame_setJobs ..).obj rfl)) (entryRuns_markStarted (by rwa [qRec_of_q _ _ rfl]) undecided)

/-- The handles of a segmented multiply held (R426). -/
def holdHandles (s : State) (m : SegMul) : State := (segHandles m).foldl (fun s h => s.bump F.coreAdapterHolds_HOLDS 1 h) s

theorem frame_holdHandles (s : State) (m : SegMul) : Frame 0 (2 ^ RegId.coreAdapterHolds.ctorIdx) s (holdHandles s m) :=
  (Frame.refl _ _ s).foldl (fun _ _ h => h.bump (Nat.testBit_two_pow_self))

theorem segStart_eq {j : EngJob} {p : SegJob} {runs : List SegRun} (cores : grantCores s j.ctx ≠ []) : segStart s j p runs
    = holdHandles { dropJob s j.id with eng := { (dropJob s j.id).eng with
        seg := (dropJob s j.id).eng.seg ++ [⟨{ j with started := true }, p, grantCores s j.ctx, runs, [], false⟩] } }
      ⟨{ j with started := true }, p, grantCores s j.ctx, runs, [], false⟩ := by
  have some_core : (grantCores s j.ctx).isEmpty = false := by simpa using cores
  unfold segStart
  dsimp only
  rw [some_core, Bool.false_and, if_neg Bool.false_ne_true]
  rfl

/-- A segmented multiply whose checks pass runs with its runs on the granted cores, its entry undecided (R123, R128). -/
theorem segStart_runs {j : EngJob} {p : SegJob} {runs : List SegRun} (cores : grantCores s j.ctx ≠ []) (r : EntryRuns s q e none) :
    EntryRuns (segStart s j p runs) q e none ∧ SegRuns (segStart s j p runs) s j runs := by
  rw [segStart_eq cores]
  have held := frame_holdHandles { dropJob s j.id with eng := { (dropJob s j.id).eng with
    seg := (dropJob s j.id).eng.seg ++ [⟨{ j with started := true }, p, grantCores s j.ctx, runs, [], false⟩] } }
    ⟨{ j with started := true }, p, grantCores s j.ctx, runs, [], false⟩
  refine ⟨entryRuns_congr ((held.obj rfl).trans ((frame_dropJob s j.id).obj rfl)) r, ⟨{ j with started := true }, p, grantCores s j.ctx, runs, [], false⟩, ?_,
    rfl, rfl, rfl, rfl, rfl⟩
  rw [held.eng rfl]
  exact List.mem_append_right _ (List.mem_singleton_self _)

theorem gives_sqeSegmul (h : StartsNow s q 2 e) {p : SegJob} {pl : Place} {u v w : State} {j : EngJob} {runs : List SegRun}
    (descriptor : descriptorAt s q e = .ok pl u) (room : queueUsed u hmUnit < queueSize hmUnit) (hj : j = entryJob u q e hmUnit (.segmul p))
    (hv : v = arrived (numbered u q e) j) (accepted : segRefused p = none) (checks : segChecks j.ctx p v = .ok runs w) (cores : grantCores w j.ctx ≠ []) :
    Gives (.sqeSegmul q p) s (fun t => EntryRuns t q e none ∧ SegRuns t w j runs) := by
  have run : exec (.sqeSegmul q p) s = execSqeSegmul q p s := rfl
  have same := descriptorAt_ok descriptor
  have job : j.job = .segmul p := by rw [hj]; rfl
  have starts : segAccept v j = segStart w j p runs := by
    have passed := checks
    rw [segChecks] at passed
    unfold segAccept
    rw [job]
    dsimp only
    rw [accepted]
    dsimp only
    rw [passed]
  have arrives : queueJob u q e hmUnit (.segmul p) = segAccept v j := by
    rw [queueJob_eq, ← hj, hv, jobArrive, job]
    rfl
  have done : exec (.sqeSegmul q p) s = .next (segStart w j p runs) := by
    rw [run, execSqeSegmul, startEntry_eq h, descriptor, ← starts, ← arrives]
    exact congrArg _ (if_pos room)
  have kept : w.obj = v.obj := (okKeeps_segChecks ..).of_ok runs w checks
  refine ⟨_, done, segStart_runs cores (entryRuns_congr kept ?_)⟩
  rw [hv, same]
  exact entryRuns_arrived h j

/-- The next job of a unit started: no job of the list is another one for it. -/
theorem startHead_jobs (s : State) (unit : Nat) : ∃ g : EngJob → EngJob,
    (∀ x, (g x).unit = x.unit ∧ (g x).job = x.job ∧ (g x).origin = x.origin ∧ (g x).ctx = x.ctx) ∧ (startHead s unit).eng.jobs = s.eng.jobs.map g := by
  have unchanged : ∃ g : EngJob → EngJob, (∀ x, (g x).unit = x.unit ∧ (g x).job = x.job ∧ (g x).origin = x.origin ∧ (g x).ctx = x.ctx)
      ∧ s.eng.jobs = s.eng.jobs.map g := ⟨id, fun _ => ⟨rfl, rfl, rfl, rfl⟩, (List.map_id _).symm⟩
  have shown (u : Nat) : (engShow s u).eng = s.eng := (frame_engShow ..).eng rfl
  unfold startHead
  split
  · exact unchanged
  · dsimp only
    split
    · rwa [shown]
    · split
      · rwa [shown]
      · split
        · exact unchanged
        · refine ⟨_, fun x => ?_, congrArg Engines.jobs (((frame_engShow ..).eng rfl).trans ((frame_routineBegin ..).eng rfl))⟩
          split <;> exact ⟨rfl, rfl, rfl, rfl⟩

theorem jobArrive_of_engine {j : EngJob} (h : jobKind j.job ≠ none) (s : State) : jobArrive s j = startHead (arrived s j) j.unit := by
  unfold jobArrive
  dsimp only
  split
  · rename_i job
    rw [job] at h
    exact absurd rfl h
  · rfl

theorem mem_jobs_arrived (s : State) (j : EngJob) : j ∈ (arrived s j).eng.jobs := by
  rw [arrived, (frame_ungate ..).eng rfl]
  exact List.mem_append_right _ (List.mem_singleton_self j)

/-- An engine's job handed to its unit joins the unit's queue. -/
theorem queueJob_of_engine {job : Job} (h : jobKind job ≠ none) (s : State) (q : Nat) (e : QEntry) (unit : Nat) :
    queueJob s q e unit job = startHead (arrived (numbered s q e) (entryJob s q e unit job)) unit :=
  (queueJob_eq ..).trans (jobArrive_of_engine (j := entryJob s q e unit job) h _)

/-- SQE_ENGINE on a unit of its job's kind that takes work joins the unit's queue (R194, R435). -/
theorem gives_sqeEngine (h : StartsNow s q 3 e) {job : Job} {pl : Place} {u : State} (descriptor : descriptorAt s q e = .ok pl u)
    (fits : unitFits e.unit job = true) (up : unitUp u e.unit = true) (powered : engPowered u e.unit = true)
    (room : queueUsed u e.unit < queueSize e.unit) : Gives (.sqeEngine q job) s (fun t => EntryRuns t q e none
      ∧ ∃ x ∈ t.eng.jobs, x.unit = e.unit ∧ x.job = job ∧ x.origin = .queue q e.idx ∧ x.ctx = qCtx s q) := by
  have run : exec (.sqeEngine q job) s = execSqeEngine q job s := rfl
  obtain rfl := descriptorAt_ok descriptor
  have kind : jobKind job ≠ none := fun none => by rw [unitFits, none] at fits; cases fits
  have full : decide (queueSize e.unit ≤ queueUsed u e.unit) = false := decide_eq_false (Nat.not_le.mpr room)
  have done : exec (.sqeEngine q job) u = .next (startHead (arrived (numbered u q e) (entryJob u q e e.unit job)) e.unit) := by
    rw [run, execSqeEngine, startEntry_eq h, descriptor, ← queueJob_of_engine kind]
    simp only [entryRes, fits, up, powered, full, Bool.not_true, Bool.or_self, Bool.false_eq_true, if_false]
  obtain ⟨g, same, jobs⟩ := startHead_jobs (arrived (numbered u q e) (entryJob u q e e.unit job)) e.unit
  refine ⟨_, done, entryRuns_congr ((frame_startHead ..).obj rfl) (entryRuns_arrived h _), g (entryJob u q e e.unit job), ?_, same _⟩
  rw [jobs]
  exact List.mem_map_of_mem (mem_jobs_arrived ..)

end

end Sys2Proof.Proofs
end

section
/-! Entries that complete (R437 to R439), and the obligation on queues. -/

namespace Sys2Proof.Proofs

open Sys2Proof.Machine Sys2Proof.Claims Sys2Proof.Laws

/-! Upstream requests under a change of a bollard (R449, R454): messages change what is pending and nothing else of the link. -/

/-- What decides whether upstream requests may be issued is the same of the link. -/
def LinkSame (s t : State) : Prop := t.hl.d3 = s.hl.d3 ∧ t.hl.held = s.hl.held

theorem linkSame_of_hl {s t : State} (h : t.hl = s.hl) : LinkSame s t := by rw [LinkSame, h]; exact ⟨rfl, rfl⟩

theorem LinkSame.trans {s t u : State} (h : LinkSame s t) (g : LinkSame t u) : LinkSame s u := ⟨g.1.trans h.1, g.2.trans h.2⟩

theorem linkSame_msixSend (s : State) (v : Nat) : LinkSame s (msixSend s v) := by
  unfold msixSend
  split <;> exact ⟨rfl, rfl⟩

theorem linkSame_signal (s : State) (n : Nat) : LinkSame s (signal s n) := by
  have counted : LinkSame s (s.bump F.evt_COUNT 1 n) := linkSame_of_hl (State.bump_hl ..)
  unfold signal
  dsimp only
  split
  · exact counted
  · have pending := counted.trans (linkSame_of_hl (State.put_hl (s.bump F.evt_COUNT 1 n) F.evt_PENDING 1 n 0))
    split
    · exact pending.trans (linkSame_msixSend ..)
    · exact pending

theorem linkSame_bolApply (s : State) (n inc : Nat) : LinkSame s (bolApply s n inc) := by
  have before : LinkSame s (changed (s.bump F.bolValue_VALUE inc n) n) :=
    (linkSame_of_hl (State.bump_hl ..)).trans (linkSame_of_hl ((frame_changed ..).hl rfl))
  rw [bolApply, bolChanged_eq, bolNotify]
  split
  · exact before.trans ((linkSame_of_hl (State.put_hl ..)).trans (linkSame_signal ..))
  · exact before

theorem upstream_bolApply (s : State) (n inc : Nat) : (bolApply s n inc).upstream = s.upstream := by
  obtain ⟨d3, held⟩ := linkSame_bolApply s n inc
  rw [State.upstream, d3, held, (frame_bolApply ..).isSet F.hostStatus_BME rfl, State.upstream]

/-! An entry that leaves the ring. -/

section
variable {s : State} {q : Nat} {x : QEntry} {st rs : Nat}

/-- A completion entry moves CQ_TAIL by one round its ring (R438). -/
theorem get_writeCqe_tail (hlog : s.get F.qStatus_CQ_LOG2 q ≤ 16) :
    (writeCqe s q x st rs).get F.qStatus_CQ_TAIL q = (s.get F.qStatus_CQ_TAIL q + 1) % cqSize s q := by
  obtain ⟨w, hw⟩ : ∃ w, w = hostWrite s ((qRec s q).cqBase + 16 * s.get F.qStatus_CQ_TAIL q) (cqeBytes s q x st rs) := ⟨_, rfl⟩
  have sent (f : Fld) : w.get f q = s.get f q := by rw [hw]; exact (frame_hostWrite ..).get f (Nat.zero_testBit _) q
  have size : cqSize w q = cqSize s q := by rw [cqSize, sent, cqSize]
  have small : (s.get F.qStatus_CQ_TAIL q + 1) % cqSize s q < 65536 :=
    (Nat.mod_lt _ (Nat.two_pow_pos _)).trans_le (show 2 ^ s.get F.qStatus_CQ_LOG2 q ≤ 2 ^ 16 from Nat.pow_le_pow_right (by decide) hlog)
  have tail : ((w.put F.qStatus_CQ_TAIL ((s.get F.qStatus_CQ_TAIL q + 1) % cqSize s q) q)).get F.qStatus_CQ_TAIL q
      = (s.get F.qStatus_CQ_TAIL q + 1) % cqSize s q := by
    rw [State.get_put_same _ _ q 0 rfl]
    exact Nat.mod_eq_of_lt small
  have stall (u : State) : (showStall u q).get F.qStatus_CQ_TAIL q = u.get F.qStatus_CQ_TAIL q := by
    unfold showStall
    exact get_put_when u _ _ q rfl rfl (by decide) q
  rw [writeCqe]
  rw [← hw, size, stall]
  exact (get_put_when _ _ _ q rfl rfl (by decide) q).trans tail

/-- The one entry of a queue, decided and with its bollard behind it, leaves the ring: its completion entry is written unless it asks for none
(R437 to R439). -/
theorem qDrain_one (only : (qRec s q).entries = [x]) (decided : x.fin = some (st, rs)) (behind : x.bolDone = true)
    (hlog : s.get F.qStatus_CQ_LOG2 q ≤ 16) (room : qFull s q = false) (up : s.upstream = true) (ready : s.ready = true) :
    (qRec (qDrain s q) q).entries = []
      ∧ (qDrain s q).get F.qStatus_CQ_TAIL q = (if x.flag 1 && st == 0 then s.get F.qStatus_CQ_TAIL q else (s.get F.qStatus_CQ_TAIL q + 1) % cqSize s q) := by
  obtain ⟨w, hw⟩ : ∃ w, w = if x.flag 1 && st == 0 then setQ s q { qRec s q with entries := [] }
    else writeCqe (setQ s q { qRec s q with entries := [] }) q x st rs := ⟨_, rfl⟩
  have drained : ∃ en n, qDrain s q = dropHolds (signalIf w en n) x.holds := by
    rw [qDrain, only, List.length_singleton, qDrainN, only]
    dsimp only
    rw [decided]
    dsimp only
    rw [behind, room, up, ready, Bool.not_true, Bool.or_self, Bool.or_self, Bool.and_false, Bool.or_self, if_neg Bool.false_ne_true, qDrainN, ← hw]
    exact ⟨_, _, rfl⟩
  have same {f : Fld} (hf : f.ok = true) (low : f.hi < 58) : (setQ s q { qRec s q with entries := [] }).get f q = s.get f q := get_setQ _ _ _ hf low q
  have left : (qRec w q).entries = [] := by
    rw [hw]
    split
    · rw [qRec_setQ]
    · rw [qRec_congr ((frame_writeCqe ..).obj rfl), qRec_setQ]
  have tail : w.get F.qStatus_CQ_TAIL q
      = if x.flag 1 && st == 0 then s.get F.qStatus_CQ_TAIL q else (s.get F.qStatus_CQ_TAIL q + 1) % cqSize s q := by
    rw [hw]
    split
    · exact same rfl (by decide)
    · rw [get_writeCqe_tail (by rwa [same rfl (by decide)]), same rfl (by decide), cqSize, same rfl (by decide), cqSize]
  obtain ⟨en, n, drained⟩ := drained
  rw [drained, qRec_of_q _ _ (dropHolds_q ..), qRec_congr ((frame_signalIf ..).obj rfl), (frame_dropHolds ..).get F.qStatus_CQ_TAIL rfl q,
    (frame_signalIf ..).get F.qStatus_CQ_TAIL rfl q]
  exact ⟨left, tail⟩

/-- So does the one entry whose bollard has just been advanced. -/
theorem bolBehind_one (only : (qRec s q).entries = [x]) (decided : x.fin = some (st, rs)) (hlog : s.get F.qStatus_CQ_LOG2 q ≤ 16)
    (room : qFull s q = false) (up : s.upstream = true) (ready : s.ready = true) : (qRec (bolBehind s q x.idx) q).entries = []
      ∧ (bolBehind s q x.idx).get F.qStatus_CQ_TAIL q
        = (if x.flag 1 && st == 0 then s.get F.qStatus_CQ_TAIL q else (s.get F.qStatus_CQ_TAIL q + 1) % cqSize s q) := by
  obtain ⟨w, hw⟩ : ∃ w, w = updEntry s q x.idx (fun y => { y with bolDone := true }) := ⟨_, rfl⟩
  have entries : (qRec w q).entries = [{ x with bolDone := true }] := by
    rw [hw, updEntry, qRec_setQ, only, updWhere, List.map_singleton, if_pos (beq_self_eq_true _)]
  have same {f : Fld} (hf : f.ok = true) (low : f.hi < 58) : w.get f q = s.get f q := by rw [hw]; exact get_setQ _ _ _ hf low q
  have size : cqSize w q = cqSize s q := by rw [cqSize, same rfl (by decide), cqSize]
  have link : w.hl = s.hl := by rw [hw]; exact (frame_updEntry ..).hl rfl
  have status {f : Fld} (hf : f.reg = .hostStatus) : w.isSet f = s.isSet f := by
    rw [hw]
    exact (frame_updEntry ..).isSet f (by rw [hf]; rfl)
  have full : qFull w q = false := by rw [qFull, same rfl (by decide), size, same rfl (by decide), ← qFull, room]
  have up' : w.upstream = true := by rw [State.upstream, status rfl, link, ← State.upstream, up]
  have ready' : w.ready = true := by rw [State.ready, status rfl, ← State.ready, ready]
  obtain ⟨left, tail⟩ := qDrain_one entries (x := { x with bolDone := true }) decided rfl (by rwa [same rfl (by decide)]) full up' ready'
  rw [bolBehind, ← hw]
  rw [same rfl (by decide), size] at tail
  exact ⟨left, tail⟩

end

/-! The completion of an entry. -/

section
variable {s : State} {q : Nat} {e : QEntry} {st rs : Nat} (hq : q < 16384) (hidx : e.idx < 65536) (only : (qRec s q).entries = [e])
  (decided : e.fin = some (st, rs)) (before : e.bolDone = false) (unsent : ∀ a ∈ s.run.bolQ, a.fin ≠ .entry q e.idx)
include hq hidx only decided before unsent

theorem exec_sqEntryComplete : exec (.sqEntryComplete q e.idx) s = .next (if st = 0 && e.flag 3 then
    if s.run.bolQ.isEmpty then bolBehind (bolApply s e.done e.inc) q e.idx else bolSend s e.done e.inc (.entry q e.idx)
    else bolBehind s q e.idx) := by
  have run : exec (.sqEntryComplete q e.idx) s = execSqEntryComplete q e.idx s := rfl
  have found : qEntry s q e.idx = some e := by rw [qEntry, only]; exact List.find?_cons_of_pos (beq_self_eq_true e.idx)
  have none_sent : s.run.bolQ.any (fun a => a.fin == .entry q e.idx) = false := by simpa [List.any_eq_false] using unsent
  rw [run, execSqEntryComplete, if_pos ⟨hq, hidx⟩, found]
  dsimp only
  rw [qComplete, decided]
  dsimp only
  rw [before, none_sent, if_neg Bool.false_ne_true, if_neg Bool.false_ne_true]

/-- Where other advances wait, the entry's own joins them first (R233). -/
theorem gives_sqEntryComplete_queued (waiting : s.run.bolQ ≠ []) (hst : st = 0) (advances : e.flag 3 = true) :
    Gives (.sqEntryComplete q e.idx) s (fun t => (qRec t q).entries = [e] ∧ t.run.bolQ = s.run.bolQ ++ [⟨e.done, e.inc, .entry q e.idx⟩]
      ∧ Only [.run] [] s t) := by
  have some_wait : s.run.bolQ.isEmpty = false := by simpa using waiting
  have done : exec (.sqEntryComplete q e.idx) s = .next (queued s ⟨e.done, e.inc, .entry q e.idx⟩) := by
    rw [exec_sqEntryComplete hq hidx only decided before unsent, hst, advances, some_wait, if_pos (show (decide (0 = 0) && true) = true from rfl),
      if_neg Bool.false_ne_true, bolSend_of_waiting _ _ _ waiting]
  exact ⟨_, done, (congrArg QRec.entries (qRec_congr (queued_obj ..) q)).trans only, rfl, only_withQueue s _⟩

/-- A lone entry leaves the queue, its DONE_BOLLARD advanced first (R437). -/
theorem gives_sqEntryComplete_lone (alone : s.run.bolQ = [] ∨ st ≠ 0 ∨ e.flag 3 = false) (hlog : s.get F.qStatus_CQ_LOG2 q ≤ 16)
    (room : qFull s q = false) (up : s.upstream = true) (ready : s.ready = true) : Gives (.sqEntryComplete q e.idx) s (fun t => (qRec t q).entries = []
      ∧ (st = 0 → e.flag 3 = true → bolValue t e.done = (bolValue s e.done + e.inc) % 2 ^ 64)
      ∧ t.get F.qStatus_CQ_TAIL q = if e.flag 1 && st == 0 then s.get F.qStatus_CQ_TAIL q else (s.get F.qStatus_CQ_TAIL q + 1) % cqSize s q) := by
  refine ⟨_, exec_sqEntryComplete hq hidx only decided before unsent, ?_⟩
  by_cases advances : st = 0 ∧ e.flag 3 = true
  · obtain ⟨rfl, flagged⟩ := advances
    have empty : s.run.bolQ = [] := by
      rcases alone with h | h | h
      · exact h
      · exact absurd rfl h
      · rw [flagged] at h
        cases h
    rw [empty, flagged, if_pos (show (decide (0 = 0) && true) = true from rfl), List.isEmpty_nil, if_pos rfl]
    have frame := frame_bolApply s e.done e.inc
    have same (f : Fld) (hf : Nat.testBit 633825904577024508063140282368 f.reg.ctorIdx = false) : (bolApply s e.done e.inc).get f q = s.get f q :=
      frame.get f hf q
    have entries : (qRec (bolApply s e.done e.inc) q).entries = [{ e with start := startKept ((bolValue s e.done + e.inc) % 2 ^ 64) e.done e.start }] := by
      rw [qRec_bolApply, latched, only, List.map_singleton]
    have size : cqSize (bolApply s e.done e.inc) q = cqSize s q := by rw [cqSize, same _ rfl, cqSize]
    have full : qFull (bolApply s e.done e.inc) q = false := by rw [qFull, same _ rfl, size, same _ rfl, ← qFull, room]
    obtain ⟨left, tail⟩ := bolBehind_one entries (x := { e with start := startKept ((bolValue s e.done + e.inc) % 2 ^ 64) e.done e.start }) decided
      (by rwa [same _ rfl]) full (by rwa [upstream_bolApply]) (by rwa [State.ready, frame.isSet F.hostStatus_READY rfl])
    rw [same _ rfl, size] at tail
    exact ⟨left, fun _ _ => ((frame_bolBehind ..).get F.bolValue_VALUE rfl _).trans (bolValue_bolApply_same ..), tail⟩
  · have quiet : (decide (st = 0) && e.flag 3) = false := by
      by_cases h : st = 0
      · simpa [h] using advances
      · simp [h]
    rw [quiet, if_neg Bool.false_ne_true]
    obtain ⟨left, tail⟩ := bolBehind_one only decided hlog room up ready
    exact ⟨left, fun h flagged => absurd ⟨h, flagged⟩ advances, tail⟩

end

/-- Settles O49: a clause each for the rings' registers, the fetch, the opcodes' starts and the completion. -/
theorem queueEntriesRunAndComplete : Obligations.QueueEntriesRunAndComplete := by
  unfold Obligations.QueueEntriesRunAndComplete
  refine ⟨fun q v s hq d3 => gives_ringWrite_d3 hq d3, fun q v s hq d0 => ⟨gives_qDoorbellWrite hq d0, gives_qDoorbellWrite_outside hq d0,
      gives_qCqHeadWrite hq d0⟩, fun q bs holds s e hq whole ok may running he hsize => gives_sqEntryFetch hq whole ok may running he hsize,
    fun q op s e h => ?starts, fun q s e st rs hq hidx only decided before unsent => ⟨?queued, ?lone⟩⟩
  case starts =>
    refine ⟨?_, ?_, ?_, ?_, ?_, ?_, ?_⟩
    · rintro rfl
      exact gives_sqeNop h
    · rintro rfl
      exact gives_sqeSignal h
    · rintro rfl
      exact gives_sqeBollardAdvance h
    · rintro rfl earlier
      exact gives_sqeBarrier h earlier
    · rintro l u rfl checks fresh total
      exact gives_sqeLaunch h checks fresh total
    · rintro p pl u v j runs w rfl descriptor room hj hv accepted checks cores
      exact gives_sqeSegmul h descriptor room hj hv accepted checks cores
    · rintro job pl u rfl descriptor fits up powered room
      exact gives_sqeEngine h descriptor fits up powered room
  case queued => exact gives_sqEntryComplete_queued hq hidx only decided before unsent
  case lone => exact gives_sqEntryComplete_lone hq hidx only decided before unsent

end Sys2Proof.Proofs
end

section
/-! Records and ends of work (R443, R505, R428): a record posted stands in the ring, in the hold store, or has made it overflow, and neither later
records nor the ends of jobs and contexts take that back. -/

namespace Sys2Proof.Proofs

open Sys2Proof.Machine Sys2Proof.Claims Sys2Proof.Laws

/-- The mask of a list of registers. -/
def regBits (rs : List RegId) : Nat := rs.foldl (fun n r => n ||| 2 ^ r.ctorIdx) 0

/-! What is kept. -/

/-- Every record delivered by `s` is delivered still. -/
structure RecordsKept (s t : State) : Prop where
  posted : s.out.posted ⊆ t.out.posted
  overflow : s.isSet F.sumpHold_OVERFLOW = true → t.isSet F.sumpHold_OVERFLOW = true
  hold : t.isSet F.sumpHold_OVERFLOW = true ∨ s.flt.hold ⊆ t.flt.hold

/-- The state of faults, swaps and tests, without the hold store and the records' number. -/
def fltRest (f : FaultState) : FaultState := { f with hold := [], seq := 0 }

/-- What signals, records below device-fatal and the ends of jobs and contexts keep: the records delivered, the marks and swaps of units, the
retained bank's maps, UNIT_LOST and FATAL_CODE, the engines in service and their idle units, the contexts that have ended. -/
structure Aftermath (s t : State) : Prop extends RecordsKept s t where
  flt : fltRest t.flt = fltRest s.flt
  bank : bankRest t.bank = bankRest s.bank
  lost : s.isSet F.faultStatus_UNIT_LOST = true → t.isSet F.faultStatus_UNIT_LOST = true
  fatalCode : t.get F.faultStatus_FATAL_CODE = s.get F.faultStatus_FATAL_CODE
  down : t.eng.down = s.eng.down
  jobs : ∀ j ∈ t.eng.jobs, ∃ i ∈ s.eng.jobs, i.unit = j.unit
  ended : ∀ c, s.ctxState c = 3 → t.ctxState c = 3

section
variable {s t u : State}

theorem RecordsKept.refl (s : State) : RecordsKept s s := ⟨fun _ h => h, id, .inr fun _ h => h⟩

theorem RecordsKept.trans (h : RecordsKept s t) (g : RecordsKept t u) : RecordsKept s u where
  posted := fun _ x => g.posted (h.posted x)
  overflow := g.overflow ∘ h.overflow
  hold := h.hold.elim (fun o => .inl (g.overflow o)) (fun k => g.hold.imp id (fun l => fun _ x => l (k x)))

theorem Aftermath.refl (s : State) : Aftermath s s := ⟨.refl s, rfl, rfl, id, rfl, rfl, fun j h => ⟨j, h, rfl⟩, fun _ => id⟩

theorem Aftermath.trans (h : Aftermath s t) (g : Aftermath t u) : Aftermath s u where
  toRecordsKept := h.toRecordsKept.trans g.toRecordsKept
  flt := g.flt.trans h.flt
  bank := g.bank.trans h.bank
  lost := g.lost ∘ h.lost
  fatalCode := g.fatalCode.trans h.fatalCode
  down := g.down.trans h.down
  jobs j hj := by
    obtain ⟨i, hi, same⟩ := g.jobs j hj
    obtain ⟨k, hk, same'⟩ := h.jobs i hi
    exact ⟨k, hk, same'.trans same⟩
  ended c := g.ended c ∘ h.ended c

theorem Aftermath.foldl {α : Type} {f : State → α → State} (hf : ∀ t a, Aftermath t (f t a)) (l : List α) (s : State) : Aftermath s (l.foldl f s) := by
  induction l generalizing s with
  | nil => exact .refl s
  | cons a l ih => exact (hf s a).trans (ih _)

theorem Aftermath.ite {c : Prop} [Decidable c] (ht : c → Aftermath s t) (hu : ¬c → Aftermath s u) : Aftermath s (if c then t else u) := by
  split
  · exact ht ‹_›
  · exact hu ‹_›

/-- A frame with neither the hold store's register nor its part, whose posted writes are those before. -/
theorem RecordsKept.of_frame {ps rs : Nat} (h : Frame ps rs s t) (hr : rs.testBit RegId.sumpHold.ctorIdx = false) (hold : t.flt.hold = s.flt.hold)
    (posted : t.out.posted = s.out.posted) : RecordsKept s t where
  posted := by rw [posted]; exact fun _ x => x
  overflow := by rw [h.isSet F.sumpHold_OVERFLOW hr]; exact id
  hold := .inr (by rw [hold]; exact fun _ x => x)

/-- A frame that leaves the faults' part, the bank, and the registers of faults, the hold store and contexts alone. -/
def calm (ps rs : Nat) : Bool :=
  !ps.testBit 12 && !ps.testBit 13 && !rs.testBit RegId.sumpHold.ctorIdx && !rs.testBit RegId.faultStatus.ctorIdx && !rs.testBit RegId.ctxState.ctorIdx

/-- Such a frame, of a step that posts nothing, brings no engine back and moves no job to another unit. -/
theorem Aftermath.of_frame {ps rs : Nat} (h : Frame ps rs s t) (hm : calm ps rs = true) (posted : t.out.posted = s.out.posted)
    (down : t.eng.down = s.eng.down) (jobs : ∀ j ∈ t.eng.jobs, ∃ i ∈ s.eng.jobs, i.unit = j.unit) : Aftermath s t := by
  simp only [calm, Bool.and_eq_true, Bool.not_eq_true'] at hm
  obtain ⟨⟨⟨⟨bank, flt⟩, hold⟩, status⟩, ctx⟩ := hm
  exact ⟨.of_frame h hold (by rw [h.flt flt]) posted, by rw [h.flt flt], bankRest_of_frame h bank,
    by rw [h.isSet F.faultStatus_UNIT_LOST status]; exact id, h.get F.faultStatus_FATAL_CODE status, down, jobs,
    fun c e => (h.get F.ctxState_STATE ctx c).trans e⟩

theorem jobs_of_eng (e : t.eng = s.eng) : ∀ j ∈ t.eng.jobs, ∃ i ∈ s.eng.jobs, i.unit = j.unit := by
  rw [e]
  exact fun j h => ⟨j, h, rfl⟩

/-- A frame that leaves the outputs and the engines alone as well. -/
theorem Aftermath.of_calm {ps rs : Nat} (h : Frame ps rs s t) (hm : (calm ps rs && !ps.testBit 6 && !ps.testBit 16) = true) : Aftermath s t := by
  simp only [Bool.and_eq_true, Bool.not_eq_true'] at hm
  obtain ⟨⟨quiet, eng⟩, out⟩ := hm
  exact .of_frame h quiet (by rw [h.out out]) (by rw [h.eng eng]) (jobs_of_eng (h.eng eng))

/-- A frame that leaves the engines alone, of a step that posts nothing. -/
theorem Aftermath.of_sent {ps rs : Nat} (h : Frame ps rs s t) (hm : (calm ps rs && !ps.testBit 6) = true) (posted : t.out.posted = s.out.posted) :
    Aftermath s t := by
  simp only [Bool.and_eq_true, Bool.not_eq_true'] at hm
  obtain ⟨quiet, eng⟩ := hm
  exact .of_frame h quiet posted (by rw [h.eng eng]) (jobs_of_eng (h.eng eng))

/-- A frame that leaves the outputs alone, of a step that brings no engine back and moves no job to another unit. -/
theorem Aftermath.of_jobs {ps rs : Nat} (h : Frame ps rs s t) (hm : (calm ps rs && !ps.testBit 16) = true) (down : t.eng.down = s.eng.down)
    (jobs : ∀ j ∈ t.eng.jobs, ∃ i ∈ s.eng.jobs, i.unit = j.unit) : Aftermath s t := by
  simp only [Bool.and_eq_true, Bool.not_eq_true'] at hm
  obtain ⟨quiet, out⟩ := hm
  exact .of_frame h quiet (by rw [h.out out]) down jobs

/-- An update of other parts of the state. -/
theorem Aftermath.of_update (regs : t.regs = s.regs) (bank : t.bank = s.bank) (flt : t.flt = s.flt) (posted : t.out.posted = s.out.posted)
    (down : t.eng.down = s.eng.down) (jobs : ∀ j ∈ t.eng.jobs, ∃ i ∈ s.eng.jobs, i.unit = j.unit) : Aftermath s t := by
  have same (f : Fld) (i : Nat) : t.get f i = s.get f i := by simp only [State.get, State.word, regs, bank]
  exact ⟨⟨by rw [posted]; exact fun _ h => h, by rw [State.isSet, State.isSet, same]; exact id, .inr (by rw [flt]; exact fun _ h => h)⟩,
    by rw [flt], by rw [bank], by rw [State.isSet, State.isSet, same]; exact id, same _ 0, down, jobs, fun c e => (same _ c).trans e⟩

theorem Aftermath.unitMark (h : Aftermath s t) (u : Nat) : unitMark t u = unitMark s u := by
  have e := congrArg FaultState.unit h.flt
  exact congrArg (fun m => smapGet m 0 u) e

theorem Aftermath.swaps (h : Aftermath s t) : t.flt.swaps = s.flt.swaps := by
  have e := congrArg FaultState.swaps h.flt
  exact e
theorem Aftermath.untested (h : Aftermath s t) : t.flt.untested = s.flt.untested := by
  have e := congrArg FaultState.untested h.flt
  exact e
theorem Aftermath.waiting (h : Aftermath s t) : t.flt.waiting = s.flt.waiting := by
  have e := congrArg FaultState.waiting h.flt
  exact e
theorem Aftermath.coreMap (h : Aftermath s t) : t.bank.coreMap = s.bank.coreMap := by
  have e := congrArg Bank.coreMap h.bank
  exact e
theorem Aftermath.sliceMap (h : Aftermath s t) : t.bank.sliceMap = s.bank.sliceMap := by
  have e := congrArg Bank.sliceMap h.bank
  exact e

theorem Aftermath.unitUp (h : Aftermath s t) (u : Nat) : unitUp t u = unitUp s u := by rw [Machine.unitUp, h.down, Machine.unitUp]

theorem Aftermath.jobsOf (h : Aftermath s t) {u : Nat} (idle : jobsOf s u = []) : jobsOf t u = [] := by
  simp only [Machine.jobsOf, List.filter_eq_nil_iff, beq_iff_eq] at idle ⊢
  intro j hj
  obtain ⟨i, hi, same⟩ := h.jobs j hj
  rw [← same]
  exact idle i hi

end

/-! Signals. -/

theorem msixSend_posted (s : State) (v : Nat) : (msixSend s v).out.posted = s.out.posted := by
  unfold msixSend
  split <;> rfl

theorem signal_posted (s : State) (n : Nat) : (signal s n).out.posted = s.out.posted := by
  simp only [signal]
  split
  · rw [State.bump_out]
  · split
    · rw [msixSend_posted, State.put_out, State.bump_out]
    · rw [State.put_out, State.bump_out]

theorem signalIf_posted (s : State) (en : Bool) (n : Nat) : (signalIf s en n).out.posted = s.out.posted := by
  cases en
  · rfl
  · exact signal_posted s n

theorem aftermath_signalIf (s : State) (en : Bool) (n : Nat) : Aftermath s (signalIf s en n) :=
  .of_sent (frame_signalIf s en n) rfl (signalIf_posted s en n)

/-! Records. -/

theorem hostWrite_posted (s : State) (a : Nat) (bs : List Byte) (p : Bool) : s.out.posted ⊆ (hostWrite s a bs p).out.posted := by
  unfold hostWrite
  split
  · exact List.subset_append_left ..
  · exact fun _ h => h

theorem mem_hostWrite_posted {s : State} (h : s.upstream = true) (a : Nat) (bs : List Byte) : ⟨a, bs, false⟩ ∈ (hostWrite s a bs).out.posted := by
  rw [hostWrite, if_pos h]
  exact List.mem_append_right _ (List.mem_singleton.mpr rfl)

/-- What a record written to the ring leaves of the posted writes, its own among them. -/
theorem sumpWrite_posted (s : State) (r : SumpRec) :
    (hostWrite s (s.get F.sumpRing_BASE * 4096 + 32 * (s.get F.sumpTail_TAIL % sumpSize s)) r.bytes).out.posted ⊆ (sumpWrite s r).out.posted := by
  simp only [sumpWrite, signalIf_posted]
  split
  · exact fun _ h => hostWrite_posted _ _ _ _ (by rwa [State.bump_out])
  · rw [State.bump_out]
    exact fun _ h => h

theorem overflow_setHold (s : State) (h : List SumpRec) : (setHold s h).isSet F.sumpHold_OVERFLOW = s.isSet F.sumpHold_OVERFLOW := by
  rw [State.isSet, setHold, State.get_put_bits _ _ _ _ _ _ rfl rfl (by decide)]
  rfl

theorem overflow_full (s : State) : ((s.put F.sumpHold_OVERFLOW 1).bumpSat F.sumpHold_LOST).isSet F.sumpHold_OVERFLOW = true := by
  rw [State.isSet, State.bumpSat, State.get_put_bits _ _ _ _ _ _ rfl rfl (by decide)]
  exact isSet_put_one s 0 rfl

/-- A record that joins the hold store stands in it behind those held, or the store has overflowed. -/
theorem sumpHold_holds (s : State) (r : SumpRec) :
    (sumpHold s r).isSet F.sumpHold_OVERFLOW = true ∨ (sumpHold s r).isSet F.sumpHold_OVERFLOW = s.isSet F.sumpHold_OVERFLOW
      ∧ (sumpHold s r).flt.hold = s.flt.hold ++ [{ r with flags := r.flags ||| 2 }] := by
  unfold sumpHold
  dsimp only
  split
  · exact .inr ⟨overflow_setHold .., rfl⟩
  · split
    · exact .inl ((overflow_setHold ..).trans (overflow_full s))
    · exact .inl (overflow_full s)

theorem recordsKept_sumpHold (s : State) (r : SumpRec) : RecordsKept s (sumpHold s r) where
  posted := by rw [(frame_sumpHold s r).out rfl]; exact fun _ h => h
  overflow := (sumpHold_holds s r).elim (fun o _ => o) (fun k => by rw [k.1]; exact id)
  hold := (sumpHold_holds s r).imp id (fun k => by rw [k.2]; exact List.subset_append_left ..)

theorem recordsKept_sumpWrite (s : State) (r : SumpRec) : RecordsKept s (sumpWrite s r) where
  posted := fun _ h => sumpWrite_posted s r (hostWrite_posted _ _ _ _ h)
  overflow := by rw [(frame_sumpWrite s r).isSet F.sumpHold_OVERFLOW rfl]; exact id
  hold := .inr (by rw [(frame_sumpWrite s r).flt rfl]; exact fun _ h => h)

theorem recordsKept_sumpDeliver (s : State) (r : SumpRec) : RecordsKept s (sumpDeliver s r) := by
  unfold sumpDeliver
  split
  · exact recordsKept_sumpWrite s r
  · exact recordsKept_sumpHold s r

/-- A record is delivered as it is posted (R443). -/
theorem delivered_sumpDeliver (s : State) (r : SumpRec) : Delivered r (sumpDeliver s r) := by
  unfold sumpDeliver
  split
  · rename_i writable
    simp only [sumpWritable, Bool.and_eq_true] at writable
    exact .inl ⟨_, sumpWrite_posted s r (mem_hostWrite_posted writable.2.1.2 _ _), rfl⟩
  · rcases sumpHold_holds s r with o | ⟨_, held⟩
    · exact .inr (.inr o)
    · exact .inr (.inl (by rw [held]; exact List.mem_append_right _ (List.mem_singleton.mpr rfl)))

theorem delivered_later {s t : State} {r : SumpRec} (h : Delivered r s) (g : RecordsKept s t) : Delivered r t := by
  rcases h with ⟨p, hp, e⟩ | held | o
  · exact .inl ⟨p, g.posted hp, e⟩
  · exact .inr (g.hold.elim .inr (fun k => .inl (k held)))
  · exact .inr (.inr (g.overflow o))

theorem recordsKept_countRecord (s : State) (r : SumpRec) : RecordsKept s (countRecord s r) := by
  have held : (countRecord s r).flt.hold = s.flt.hold := by
    rw [countRecord_eq]
    have numbered : (counted s r).flt.hold = s.flt.hold := by
      unfold counted
      dsimp only
      split <;> simp
    split
    · rw [(frame_histAdd ..).flt rfl, numbered]
    · exact numbered
  exact .of_frame (frame_countRecord s r) rfl held (by rw [countRecord_out])

/-- The record's own step of a post, and what an overflow adds to it. -/
theorem post_after (s : State) (unit : Nat) (ctx : Option Nat) (cls code extra : Nat) :
    RecordsKept (sumpDeliver (countRecord s (newRecord s unit ctx cls code extra)) (newRecord s unit ctx cls code extra)) (post s unit ctx cls code extra) := by
  unfold post
  dsimp only
  split
  · exact (recordsKept_countRecord _ _).trans (recordsKept_sumpDeliver _ _)
  · exact .refl _

theorem recordsKept_post (s : State) (unit : Nat) (ctx : Option Nat) (cls code extra : Nat) : RecordsKept s (post s unit ctx cls code extra) :=
  ((recordsKept_countRecord s _).trans (recordsKept_sumpDeliver _ _)).trans (post_after ..)

/-- A post posts its record (R502 to R505). -/
theorem posts_post (s : State) (unit : Nat) (ctx : Option Nat) (cls code extra : Nat) :
    Posts s (post s unit ctx cls code extra) unit ctx cls code (extra % 2 ^ 64) :=
  ⟨newRecord s unit ctx cls code extra, rfl, rfl, rfl, rfl, rfl, rfl, delivered_later (delivered_sumpDeliver _ _) (post_after ..)⟩

theorem posts_post_small (s : State) (unit : Nat) (ctx : Option Nat) (cls code : Nat) {extra : Nat} (h : extra < 2 ^ 64) :
    Posts s (post s unit ctx cls code extra) unit ctx cls code extra := by
  have p := posts_post s unit ctx cls code extra
  rwa [Nat.mod_eq_of_lt h] at p

end Sys2Proof.Proofs

namespace Sys2Proof.Claims

open Sys2Proof.Machine

section
variable {s s' t u : State} {unit : Nat} {ctx : Option Nat} {cls code extra : Nat}

theorem Posts.later (h : Posts s t unit ctx cls code extra) (g : Proofs.RecordsKept t u) : Posts s u unit ctx cls code extra := by
  obtain ⟨r, hu, hc, hl, hd, hx, hq, delivered⟩ := h
  exact ⟨r, hu, hc, hl, hd, hx, hq, Proofs.delivered_later delivered g⟩

/-- Steps before that post nothing. -/
theorem Posts.from (h : Posts s' t unit ctx cls code extra) (e : s'.flt.seq = s.flt.seq) : Posts s t unit ctx cls code extra := by
  unfold Posts at h ⊢
  rwa [e] at h

end

end Sys2Proof.Claims

namespace Sys2Proof.Proofs

open Sys2Proof.Machine Sys2Proof.Claims Sys2Proof.Laws

theorem fltRest_sumpDeliver (s : State) (r : SumpRec) : fltRest (sumpDeliver s r).flt = fltRest s.flt := by
  unfold sumpDeliver
  split
  · rw [(frame_sumpWrite s r).flt rfl]
  · unfold sumpHold
    dsimp only
    split
    · simp only [setHold, State.put_flt]
      rfl
    · split
      · simp only [setHold, State.put_flt, State.bumpSat_flt]
        rfl
      · rw [State.bumpSat_flt, State.put_flt]

theorem fltRest_counted (s : State) (r : SumpRec) : fltRest (counted s r).flt = fltRest s.flt := by
  unfold counted
  dsimp only
  split
  · rw [State.put_flt, State.put_flt, State.bump_flt]
    rfl
  · rw [State.put_flt, State.bump_flt]
    rfl

theorem fltRest_countRecord (s : State) (r : SumpRec) : fltRest (countRecord s r).flt = fltRest s.flt := by
  rw [countRecord_eq]
  split
  · rw [(frame_histAdd ..).flt rfl, fltRest_counted]
  · exact fltRest_counted s r

/-- Counting a record sets a class's bit of FAULT_STATUS, and for a device-fatal one FATAL_CODE; other bits of the register stay. -/
theorem get_countRecord {f : Fld} (hf : f.ok = true) (hr : f.reg = .faultStatus) (h4 : 3 < f.lo) (s : State) {r : SumpRec}
    (hc : f.hi < 16 ∨ r.cls ≠ 3) : (countRecord s r).get f = s.get f := by
  have classOk : (classBit r.cls).ok = true ∧ (classBit r.cls).hi ≤ 3 := by
    unfold classBit
    split <;> decide
  have marked : ((({ s with flt := { s.flt with seq := r.seq } } : State).bump F.faultCount_COUNT 1 r.cls).put (classBit r.cls) 1).get f = s.get f := by
    rw [State.get_put_bits _ _ _ _ _ _ classOk.1 hf (by omega), State.bump, State.get_put_reg _ _ _ _ _ _ (by rw [hr]; decide)]
    rfl
  have once : (counted s r).get f = s.get f := by
    unfold counted
    dsimp only
    split
    · rename_i fatal
      simp only [Bool.and_eq_true, decide_eq_true_eq] at fatal
      rw [State.get_put_bits _ _ _ _ _ _ rfl hf (.inl (hc.resolve_right (fun n => n fatal.1)))]
      exact marked
    · exact marked
  rw [countRecord_eq]
  split
  · rw [(frame_histAdd ..).get f (by rw [hr]; rfl)]
    exact once
  · exact once

theorem get_post {f : Fld} (hf : f.ok = true) (hr : f.reg = .faultStatus) (h4 : 3 < f.lo) (s : State) (unit : Nat) (ctx : Option Nat)
    {cls : Nat} (code extra : Nat) (hc : f.hi < 16 ∨ cls ≠ 3) : (post s unit ctx cls code extra).get f = s.get f := by
  have step (t : State) (r : SumpRec) (hr' : f.hi < 16 ∨ r.cls ≠ 3) : (sumpDeliver (countRecord t r) r).get f = t.get f :=
    ((frame_sumpDeliver _ r).get f (by rw [hr]; rfl)).trans (get_countRecord hf hr h4 t hr')
  unfold post
  dsimp only
  split
  · exact (step _ _ (.inr (by decide : (0 : Nat) ≠ 3))).trans (step s _ hc)
  · exact step s _ hc

/-- A record of a class below device-fatal. -/
theorem aftermath_post (s : State) (unit : Nat) (ctx : Option Nat) {cls : Nat} (code extra : Nat) (hc : cls ≠ 3) :
    Aftermath s (post s unit ctx cls code extra) where
  toRecordsKept := recordsKept_post s unit ctx cls code extra
  flt := by
    unfold post
    dsimp only
    split
    · rw [postOverflow, fltRest_sumpDeliver, fltRest_countRecord, fltRest_sumpDeliver, fltRest_countRecord]
    · rw [fltRest_sumpDeliver, fltRest_countRecord]
  bank := (bankHeld_post s unit ctx cls code extra).rest
  lost := by
    rw [State.isSet, State.isSet, get_post rfl rfl (by decide) s unit ctx code extra (.inl (by decide))]
    exact id
  fatalCode := get_post rfl rfl (by decide) s unit ctx code extra (.inr hc)
  down := by rw [(frame_post ..).eng rfl]
  jobs := jobs_of_eng ((frame_post ..).eng rfl)
  ended c e := ((frame_post ..).get F.ctxState_STATE rfl c).trans e

end Sys2Proof.Proofs
end

section
/-! Ends of jobs, sailings and contexts (R209, R371, R372, R402, R428): each step that takes part keeps what `Aftermath` names. -/

namespace Sys2Proof.Proofs

open Sys2Proof.Machine Sys2Proof.Claims Sys2Proof.Laws

/-! Packets: the fabric's log is no part of the posted writes. -/

theorem linkSend_posted (s : State) (port : Nat) (m : LinkMsg) : (linkSend s port m).out.posted = s.out.posted := by
  simp only [linkSend]
  split <;> rfl

theorem emit_posted (port : Nat) (s : State) (tag : Nat) : (emit port s tag).out.posted = s.out.posted := by
  simp only [emit]
  split
  · exact linkSend_posted _ _ _
  · rfl

theorem leavePort_posted (s : State) (port : Nat) (k : SentPkt) : (leavePort s port k).out.posted = s.out.posted :=
  foldl_keeps (fun s => s.out.posted) (emit_posted port) _ _

theorem pumpQueue_posted (n : Nat) (s : State) (port : Nat) : (pumpQueue n s port).out.posted = s.out.posted := by
  induction n generalizing s with
  | zero => rfl
  | succ n ih =>
    simp only [pumpQueue]
    split
    · rfl
    · split
      · rw [ih, leavePort_posted]
        rfl
      · rfl

theorem sendOn_posted (s : State) (port : Nat) (p : Packet) (lines : List Line) (stream : Option Nat) :
    (sendOn s port p lines stream).out.posted = s.out.posted := pumpQueue_posted _ _ _

theorem fabSend_posted (s : State) (c : Nat) (p : Packet) (lines : List Line) : (fabSend s c p lines).out.posted = s.out.posted := by
  unfold fabSend
  split
  · split <;> rfl
  · split
    · rfl
    · exact sendOn_posted ..

theorem aftermath_fabSend (s : State) (c : Nat) (p : Packet) (lines : List Line) : Aftermath s (fabSend s c p lines) :=
  .of_sent (frame_fabSend s c p lines) rfl (fabSend_posted s c p lines)

/-! Bollards. -/

theorem aftermath_bolLatch (s : State) (n : Nat) : Aftermath s (bolLatch s n) :=
  .of_jobs (frame_bolLatch s n) rfl rfl (fun j hj => by
    obtain ⟨i, hi, rfl⟩ := List.mem_map.mp hj
    exact ⟨i, hi, rfl⟩)

theorem aftermath_bolNotify (s : State) (n : Nat) : Aftermath s (bolNotify s n) := by
  refine .of_sent (frame_bolNotify s n) rfl ?_
  unfold bolNotify
  split
  · rw [signal_posted, State.put_out]
  · rfl

theorem aftermath_bolChanged (s : State) (n : Nat) : Aftermath s (bolChanged s n) :=
  (((aftermath_bolLatch s n).trans (.of_calm (frame_bolWake ..) rfl)).trans (.of_calm (frame_berthReopen ..) rfl)).trans (aftermath_bolNotify ..)

theorem aftermath_bolSend (s : State) (n inc : Nat) (fin : AdvEnd) : Aftermath s (bolSend s n inc fin) := by
  unfold bolSend
  split
  · exact .trans (.of_calm ((Frame.refl 0 (regBits [.bolValue]) s).bump (by decide)) rfl) (aftermath_bolChanged ..)
  · exact .of_update rfl rfl rfl rfl rfl (jobs_of_eng rfl)

/-! Sailings. -/

theorem aftermath_settleBollard (s : State) (x : Sailing) : Aftermath s (settleBollard s x) := by
  unfold settleBollard
  split
  · exact .refl s
  · exact aftermath_bolSend ..

theorem aftermath_abortSailing (s : State) (x : Sailing) (reason : Nat) : Aftermath s (abortSailing s x reason) := by
  unfold abortSailing
  split
  · exact .refl s
  · refine .trans ?_ (.of_calm (frame_ferryShow ..) rfl)
    refine .trans ?_ (aftermath_post _ _ _ _ _ (by decide))
    refine .trans ?_ (.of_calm ((Frame.refl 0 (regBits [.ferryExc]) _).bumpSat (by decide)) rfl)
    refine .trans ?_ (aftermath_settleBollard ..)
    exact .trans (.of_calm (frame_updSailing ..) rfl) (aftermath_fabSend ..)

theorem aftermath_sail (s : State) (x : Sails) : Aftermath s { s with sail := x } := .of_update rfl rfl rfl rfl rfl (jobs_of_eng rfl)

theorem aftermath_abortWaiting (s : State) (f reason : Nat) : Aftermath s (abortWaiting s f reason) := by
  unfold abortWaiting
  split
  · exact .trans (aftermath_sail s _) (aftermath_abortSailing _ (nextSailing s f) reason)
  · exact .refl s

theorem aftermath_abortFerry (s : State) (f reason : Nat) : Aftermath s (abortFerry s f reason) := by
  refine .trans ?_ (.of_calm (frame_ferryShow ..) rfl)
  refine .trans ?_ (aftermath_sail ..)
  refine .trans ?_ (.of_calm ((Frame.refl 0 (regBits [.ferryCtrl]) _).put (by decide)) rfl)
  exact .trans (.foldl (fun t x => aftermath_abortSailing t x reason) _ s) (aftermath_abortWaiting ..)

theorem aftermath_abortFerriesOf (s : State) (c reason : Nat) : Aftermath s (abortFerriesOf s c reason) :=
  .foldl (fun t f => aftermath_abortFerry t f reason) _ s

/-! Jobs. -/

theorem units_updWhere {l : List EngJob} {p : EngJob → Bool} {f : EngJob → EngJob} (hf : ∀ j, (f j).unit = j.unit) :
    ∀ j ∈ updWhere l p f, ∃ i ∈ l, i.unit = j.unit := by
  intro j hj
  obtain ⟨i, hi, rfl⟩ := List.mem_map.mp hj
  refine ⟨i, hi, ?_⟩
  split
  · exact (hf i).symm
  · rfl

theorem aftermath_startHead (s : State) (u : Nat) : Aftermath s (startHead s u) := by
  have shown (t : State) : Aftermath t (engShow t u) := .of_calm (frame_engShow t u) rfl
  unfold startHead
  refine .ite (fun _ => .refl s) (fun _ => .ite (fun _ => shown s) (fun _ => ?_))
  split
  · exact shown s
  · rename_i j _
    refine .ite (fun _ => .refl s) (fun _ => ?_)
    have begun : Aftermath s (updJob s j.id (fun x => { x with started := true })) :=
      .of_jobs (frame_updJob s j.id _) rfl rfl (units_updWhere (fun _ => rfl))
    exact (begun.trans (.of_calm (frame_routineBegin ..) rfl)).trans (shown _)

theorem aftermath_setJobs {s : State} {js : List EngJob} (h : ∀ j ∈ js, ∃ i ∈ s.eng.jobs, i.unit = j.unit) : Aftermath s (setJobs s js) :=
  .of_jobs (frame_setJobs s js) rfl rfl h

theorem aftermath_filterJobs (s : State) (p : EngJob → Bool) : Aftermath s (setJobs s (s.eng.jobs.filter p)) :=
  aftermath_setJobs (fun j hj => ⟨j, (List.mem_filter.mp hj).1, rfl⟩)

theorem aftermath_dropJob (s : State) (id : Nat) : Aftermath s (dropJob s id) := by
  unfold dropJob
  split
  · exact .refl s
  · rename_i j _
    have gone := (aftermath_filterJobs s (fun x => x.id != id)).trans (.of_calm (frame_unpark _ j.ctx (fun p => p.who == .job id)) rfl)
    refine .trans (gone.trans (.ite (fun _ => .of_calm (frame_freeOf ..) rfl) (fun _ => .refl _))) (aftermath_startHead ..)

theorem aftermath_endJobs (s : State) (c : Nat) : Aftermath s (endJobs s c) := by
  have holds : Aftermath s ((s.eng.seg.filter (fun m => m.job.ctx == c)).foldl dropSegHolds s) :=
    .foldl (fun t m => .of_calm (frame_dropSegHolds t m) rfl) _ s
  unfold endJobs
  dsimp only
  refine .trans (.trans (holds.trans ?_) (.foldl aftermath_startHead _ _)) (.foldl (fun t k => .of_calm (frame_freeCore t k) rfl) _ _)
  refine .of_update rfl rfl rfl rfl rfl (fun j hj => ?_)
  obtain ⟨i, hi, rfl⟩ := List.mem_map.mp hj
  refine ⟨i, (List.mem_filter.mp hi).1, ?_⟩
  split <;> rfl

/-! Contexts. -/

theorem aftermath_endContext (s : State) (c : Nat) (own : Option (Nat × Nat × Nat × Nat)) (reason : Nat) : Aftermath s (endContext s c own reason) := by
  unfold endContext
  refine .ite (fun alive => ?_) (fun _ => .refl s)
  have shown := (Frame.refl 0 (regBits [.ctxState]) s).put (f := F.ctxState_STATE) (v := 3) (i := c) (j := 0) (by decide)
  have shown := shown.put (f := F.ctxState_SUSPENDING) (v := 0) (i := c) (j := 0) (by decide)
  have state : Aftermath s ((s.put F.ctxState_STATE 3 c).put F.ctxState_SUSPENDING 0 c) := by
    refine ⟨.of_frame shown rfl (by simp) (by simp), by simp, bankRest_of_frame shown rfl, by rw [shown.isSet F.faultStatus_UNIT_LOST rfl]; exact id,
      shown.get F.faultStatus_FATAL_CODE rfl, by simp, jobs_of_eng (by simp), fun k e => ?_⟩
    have other : k ≠ c := by
      rintro rfl
      simp [e] at alive
    exact (State.get_put_i _ _ _ _ other).trans ((State.get_put_i _ _ _ _ other).trans e)
  exact (((((state.trans (.of_calm (frame_State_setCtxRec ..) rfl)).trans (.of_calm (frame_endRunning _ c) rfl)).trans (aftermath_endJobs _ c)).trans
    (.of_calm (frame_endEntries _ c own false) rfl)).trans (aftermath_abortFerriesOf _ c reason))

theorem aftermath_contained (s : State) (c unit code extra : Nat) (own : Option (Nat × Nat × Nat × Nat)) : Aftermath s (contained s c unit code extra own) :=
  (aftermath_post s unit (some c) code extra (by decide)).trans (aftermath_endContext ..)

theorem aftermath_halt (s : State) (c reason info : Nat) (i : Option IssuedAt) (qe : Option (Nat × Nat)) : Aftermath s (halt s c reason info i qe) := by
  unfold halt
  refine .trans (.ite (fun _ => .trans (.of_calm (frame_haltRecord ..) rfl) (aftermath_post _ _ _ _ _ (by decide))) (fun _ => ?_)) (aftermath_endContext ..)
  exact .of_calm ((Frame.refl 0 (regBits [.coreHaltA]) s).put (by decide)) rfl

theorem aftermath_haltFrom (s : State) (c : Nat) (o : Origin) (reason info : Nat) : Aftermath s (haltFrom s c o reason info) := by
  cases o <;> exact aftermath_halt ..

/-- A contained error posts its record (R428) … -/
theorem posts_contained (s : State) (c unit code extra : Nat) (own : Option (Nat × Nat × Nat × Nat)) :
    Posts s (contained s c unit code extra own) unit (some c) 1 code (extra % 2 ^ 64) :=
  (posts_post s unit (some c) 1 code extra).later (aftermath_endContext ..).toRecordsKept

/-- … and ends its context. -/
theorem ctxState_contained {s : State} {c : Nat} (h : s.ctxState c = 1) (unit code extra : Nat) (own : Option (Nat × Nat × Nat × Nat)) :
    (contained s c unit code extra own).ctxState c = 3 :=
  ctxState_endContext (.inl (((frame_post ..).get F.ctxState_STATE rfl c).trans h)) own 0x22

/-! Device memory left undefined: writes of a context, where they resolve. -/

/-- A write of a context's memory posts nothing and ends nothing, whether it resolves or not. -/
theorem aftermath_devPut (c ca : Nat) (bs : List Byte) (s : State) : Aftermath s (resState (devPut c ca bs s)) := by
  have placed : resState (placeOf c ca bs.length .write [0] s) = s := by
    unfold placeOf
    split <;> rfl
  unfold devPut
  split
  · exact .refl s
  · cases h : placeOf c ca bs.length .write [0] s <;> rw [h] at placed <;> obtain rfl : _ = s := placed
    · exact .of_calm (frame_devWrite ..) rfl
    · exact .refl _
    · exact .refl _

end Sys2Proof.Proofs
end

section
/-! Units and their spares (R31, R512 to R514, R521): what the spare-assignment map, the marks of units and the free spares depend on, and a
core's place given to another core or to none. -/

namespace Sys2Proof.Proofs

open Sys2Proof.Machine Sys2Proof.Claims Sys2Proof.Laws

/-! The map and the marks. -/

section
variable {s t : State}

theorem corePos_congr (h : t.bank.coreMap = s.bank.coreMap) (c : Nat) : corePos t c = corePos s c := by rw [corePos, h, corePos]

theorem slicePos_congr (h : t.bank.sliceMap = s.bank.sliceMap) (n : Nat) : slicePos t n = slicePos s n := by rw [slicePos, h, slicePos]

theorem placedCore_congr (h : t.bank.coreMap = s.bank.coreMap) (p : Nat) : placedCore t p = placedCore s p := by
  simp only [placedCore, corePos_congr h]

theorem placedSlice_congr (h : t.bank.sliceMap = s.bank.sliceMap) (p : Nat) : placedSlice t p = placedSlice s p := by
  simp only [placedSlice, slicePos_congr h]

theorem unitMark_congr (h : t.flt.unit = s.flt.unit) (u : Nat) : unitMark t u = unitMark s u := by rw [unitMark, h, unitMark]

/-- The free spares of a gallery: by the map, the marks, the tests of the start and the swaps. -/
theorem freeCores_congr (map : t.bank.coreMap = s.bank.coreMap) (flt : fltRest t.flt = fltRest s.flt) (g : Nat) : freeCores t g = freeCores s g := by
  have marks : t.flt.unit = s.flt.unit := by
    have e := congrArg FaultState.unit flt
    exact e
  have tests : t.flt.untested = s.flt.untested := by
    have e := congrArg FaultState.untested flt
    exact e
  have swaps : t.flt.swaps = s.flt.swaps := by
    have e := congrArg FaultState.swaps flt
    exact e
  simp only [freeCores, coreReserved, placedCore_congr map, unitMark_congr marks, tests, swaps]

theorem freeSlices_congr (map : t.bank.sliceMap = s.bank.sliceMap) (flt : fltRest t.flt = fltRest s.flt) (g : Nat) :
    freeSlices t g = freeSlices s g := by
  have marks : t.flt.unit = s.flt.unit := by
    have e := congrArg FaultState.unit flt
    exact e
  have tests : t.flt.untested = s.flt.untested := by
    have e := congrArg FaultState.untested flt
    exact e
  simp only [freeSlices, placedSlice_congr map, unitMark_congr marks, tests]

theorem downAtStart_congr (boot : t.boot = s.boot) (stage : t.get F.lkBootStatus_STAGE = s.get F.lkBootStatus_STAGE)
    (d : Nat) (dom : t.domState d = s.domState d) : downAtStart t d = downAtStart s d := by rw [downAtStart, boot, stage, dom, downAtStart]

end

/-- A free spare is of its gallery. -/
theorem lt_of_head_freeCores {s : State} {g q : Nat} (h : (freeCores s g).head? = some q) : q < 16 * g + 16 := by
  have mem := (List.mem_filter.mp (List.mem_of_head? h)).1
  simp only [tabulate, List.mem_map, List.mem_range] at mem
  obtain ⟨k, hk, rfl⟩ := mem
  omega

theorem unitMark_setMark_same (s : State) (u m : Nat) : unitMark (setMark s u m) u = m := by
  rw [unitMark, setMark, smapGet_set, if_pos rfl]

theorem unitMark_setMark_ne (s : State) {u u' : Nat} (m : Nat) (h : u' ≠ u) : unitMark (setMark s u m) u' = unitMark s u' := by
  rw [unitMark, setMark, smapGet_set, if_neg h, unitMark]

theorem corePos_setCorePos (s : State) (c : Nat) (p : Option Nat) : corePos (setCorePos s c p) c = p := by
  rw [corePos, setCorePos, bankChange, State.bump_bank_coreMap, smapGet_set, if_pos rfl]

theorem slicePos_setSlicePos (s : State) (n : Nat) (p : Option Nat) : slicePos (setSlicePos s n p) n = p := by
  rw [slicePos, setSlicePos, bankChange, State.bump_bank_sliceMap, smapGet_set, if_pos rfl]

/-- Steps whose frames leave the records' and the faults' parts alone keep what was recorded. -/
theorem RecordsKept.of_quiet {ps rs : Nat} {s t : State} (h : Frame ps rs s t)
    (hm : (!ps.testBit 13 && !ps.testBit 16 && !rs.testBit RegId.sumpHold.ctorIdx) = true) : RecordsKept s t := by
  simp only [Bool.and_eq_true, Bool.not_eq_true'] at hm
  obtain ⟨⟨flt, out⟩, hold⟩ := hm
  exact .of_frame h hold (by rw [h.flt flt]) (by rw [h.out out])

theorem recordsKept_setMark (s : State) (u m : Nat) : RecordsKept s (setMark s u m) := .of_frame (frame_setMark s u m) rfl rfl rfl

/-! Pools and losses shown (Table 16.4, R514). -/

theorem aftermath_spareFlag (s : State) {f : Fld} (hf : f = F.faultStatus_SPARE_LOW ∨ f = F.faultStatus_UNIT_LOST) : Aftermath s (spareFlag s f) := by
  unfold spareFlag
  refine .ite (fun _ => .refl s) (fun _ => .trans ?_ (aftermath_signalIf ..))
  have ok : f.ok = true ∧ f.reg = .faultStatus ∧ f.hi < 16 := by rcases hf with rfl | rfl <;> decide
  have put : Frame 0 (regBits [.faultStatus]) s (s.put f 1) := (Frame.refl _ _ s).put (by rw [ok.2.1]; decide)
  refine ⟨.of_quiet put rfl, by simp, bankRest_of_frame put rfl, fun lost => ?_, State.get_put_bits _ _ _ _ _ _ ok.1 rfl (.inr ok.2.2), by simp,
    jobs_of_eng (by simp), fun c e => (put.get F.ctxState_STATE rfl c).trans e⟩
  rcases hf with rfl | rfl
  · rw [State.isSet, State.get_put_bits _ _ _ _ _ _ rfl rfl (.inr (by decide))]
    exact lost
  · exact isSet_put_one s 0 rfl

theorem aftermath_unitLost (s : State) : Aftermath s (unitLost s) := aftermath_spareFlag s (.inr rfl)

theorem isSet_unitLost (s : State) : (unitLost s).isSet F.faultStatus_UNIT_LOST = true := by
  unfold unitLost spareFlag
  split
  · assumption
  · exact (aftermath_signalIf ..).lost (isSet_put_one s 0 rfl)

theorem aftermath_spareEmpty (s : State) (unit : Nat) : Aftermath s (spareEmpty s unit) :=
  (aftermath_post s unit none _ _ (by decide)).trans (aftermath_spareFlag _ (.inl rfl))

theorem aftermath_coreTaken (s : State) (g : Nat) : Aftermath s (coreTaken s g) := by
  unfold coreTaken
  exact .ite (fun _ => .trans (.of_calm (frame_showCoreSpare ..) rfl) (aftermath_spareEmpty ..)) (fun _ => .of_calm (frame_showCoreSpare ..) rfl)

theorem aftermath_sliceTaken (s : State) (t : Nat) : Aftermath s (sliceTaken s t) := by
  unfold sliceTaken
  exact .ite (fun _ => .trans (.of_calm (frame_showSliceSpare ..) rfl) (aftermath_spareEmpty ..)) (fun _ => .of_calm (frame_showSliceSpare ..) rfl)

/-! A place given to a spare (R31, R512). -/

/-- A position shown, as its place in the map and the start give it (Table 1.8). -/
theorem showCorePos_of_placed {s : State} {c p : Nat} (h : corePos s c = some p) :
    (showCorePos s c).get F.idCoreMap_PHYS_CORE c = p % 256
      ∧ (showCorePos s c).isSet F.idCoreMap_VALID c = !downAtStart s (domOfGallery (galleryOfCore c)) := by
  unfold showCorePos
  rw [h]
  dsimp only
  constructor
  · rw [State.get_put_bits _ _ _ _ _ _ rfl rfl (.inl (by decide)), State.get_put_same _ _ _ _ rfl]
    rfl
  · split
    · rename_i down
      rw [isSet_put_zero _ c rfl, down]
      rfl
    · rename_i up
      rw [isSet_put_one _ c rfl, Bool.eq_false_iff.mpr up]
      rfl

/-- The map, its register and the wear as a place is given, before the record. -/
def mapped (s : State) (c p q : Nat) : State :=
  (showCounts (showCorePos (setCorePos s c (some q)) c)).bumpSat F.wearCore_SWAPS_OUT 1 p

theorem giveCore_eq (s : State) (c p q : Nat) :
    giveCore s c p q = coreTaken (post (mapped s c p q) (unitId 1 p) none 2 0x0103 (extra2 (unitId 1 q) c)) (p / 16) := rfl

/-- It changes the map, RB_STATUS, ID_DEVICE, ID_CORE_MAP_n and WEAR_CORE_p. -/
theorem frame_mapped (s : State) (c p q : Nat) :
    Frame 4096 (regBits [.rbStatus, .idCoreMap, .idDevice, .wearCore]) s (mapped s c p q) := by
  refine Frame.bumpSat ?_ (by decide)
  refine Frame.step ?_ (frame_showCounts ..) rfl rfl
  refine Frame.step ?_ (frame_showCorePos ..) rfl rfl
  exact (frame_setCorePos s c (some q)).mono rfl rfl

theorem aftermath_giveCore (s : State) (c p q : Nat) : Aftermath (mapped s c p q) (giveCore s c p q) := by
  rw [giveCore_eq]
  exact (aftermath_post _ _ _ _ _ (by decide)).trans (aftermath_coreTaken ..)

/-- What is true once logical core `c` has passed from physical core `p` to `q`. -/
structure CoreGiven (s v : State) (c p q : Nat) : Prop where
  place : corePos v c = some q
  phys : v.get F.idCoreMap_PHYS_CORE c = q % 256
  valid : v.isSet F.idCoreMap_VALID c = !downAtStart s (domOfGallery (galleryOfCore c))
  worn : v.get F.wearCore_SWAPS_OUT p = min (s.get F.wearCore_SWAPS_OUT p + 1) 255
  record : Posts s v (unitId 1 p) none 2 0x0103 (extra2 (unitId 1 q) c)
  kept : RecordsKept s v
  flt : fltRest v.flt = fltRest s.flt

theorem extra2_lt (a b : Nat) : extra2 a b < 2 ^ 64 := by unfold extra2; omega

theorem coreGiven_giveCore (s : State) (c p q : Nat) : CoreGiven s (giveCore s c p q) c p q := by
  have after := aftermath_giveCore s c p q
  have before := frame_mapped s c p q
  have placed := corePos_setCorePos s c (some q)
  have shown := showCorePos_of_placed placed
  have down : downAtStart (setCorePos s c (some q)) (domOfGallery (galleryOfCore c)) = downAtStart s (domOfGallery (galleryOfCore c)) :=
    downAtStart_congr ((frame_setCorePos ..).boot rfl) ((frame_setCorePos ..).get F.lkBootStatus_STAGE rfl) _ ((frame_setCorePos ..).get F.pwrDomStatus_STATE rfl _)
  have posted : Frame 77828 (regBits (.ftSpares :: recordRegs)) (mapped s c p q) (giveCore s c p q) :=
    ((frame_post (mapped s c p q) (unitId 1 p) none 2 0x0103 (extra2 (unitId 1 q) c)).mono rfl rfl).step (frame_coreTaken ..) rfl rfl
  have map {f : Fld} (hf : f.reg = .idCoreMap) : (giveCore s c p q).get f c = (showCorePos (setCorePos s c (some q)) c).get f c := by
    rw [posted.get f (by rw [hf]; rfl) c, mapped, State.bumpSat, State.get_put_reg _ _ _ _ _ _ (by rw [hf]; decide),
      (frame_showCounts ..).get f (by rw [hf]; rfl) c]
  refine ⟨?_, (map rfl).trans shown.1, ?_, ?_, ?_, (RecordsKept.of_quiet before rfl).trans after.toRecordsKept, ?_⟩
  · rw [corePos_congr after.coreMap, mapped, corePos_congr (State.bumpSat_bank_coreMap ..), corePos_congr ((frame_showCounts ..).bank_coreMap rfl),
      corePos_congr ((frame_showCorePos ..).bank_coreMap rfl), placed]
  · rw [State.isSet, map rfl, ← State.isSet, shown.2, down]
  · rw [posted.get F.wearCore_SWAPS_OUT rfl p, mapped, State.get_bumpSat_same _ _ _ _ rfl, (frame_showCounts ..).get F.wearCore_SWAPS_OUT rfl p,
      (frame_showCorePos ..).get F.wearCore_SWAPS_OUT rfl p, (frame_setCorePos ..).get F.wearCore_SWAPS_OUT rfl p]
    rfl
  · rw [giveCore_eq]
    exact ((posts_post_small _ _ _ _ _ (extra2_lt ..)).from (by rw [before.flt rfl])).later (aftermath_coreTaken ..).toRecordsKept
  · rw [after.flt, before.flt rfl]

/-! A place left vacant (R153). -/

theorem corePos_vacateCore (s : State) (c : Nat) : corePos (vacateCore s c) c = none := by
  unfold vacateCore
  rw [corePos_congr ((frame_showCounts ..).bank_coreMap rfl), corePos_congr ((frame_loseCore ..).bank_coreMap rfl),
    corePos_congr (State.put_bank_coreMap ..), corePos_setCorePos]

theorem isSet_valid_vacateCore (s : State) (c : Nat) : (vacateCore s c).isSet F.idCoreMap_VALID c = false := by
  unfold vacateCore
  rw [(frame_showCounts ..).isSet F.idCoreMap_VALID rfl c, (frame_loseCore ..).isSet F.idCoreMap_VALID rfl c, isSet_put_zero _ c rfl]

end Sys2Proof.Proofs
end

section
/-! The in-field test port FT_CMD (R418, R514, R519, R520): a command accepted for its number is answered in its step; what it answers, and the
core that leaves its place. -/

namespace Sys2Proof.Proofs

open Sys2Proof.Machine Sys2Proof.Claims Sys2Proof.Laws

theorem unitId_div {k p : Nat} (h : p < 4096) : unitId k p / 4096 = k := by unfold unitId; omega
theorem unitId_mod {k p : Nat} (h : p < 4096) : unitId k p % 4096 = p := by unfold unitId; omega

/-! What the checks read: FT_CMD itself is no part of it. -/

section
variable {s t : State}

/-- A step that leaves no trace but in FT_CMD and the split accesses. -/
abbrev OnlyPort (s t : State) : Prop := Frame 1 (regBits [.ftCmd]) s t

theorem OnlyPort.placedCore (h : OnlyPort s t) (p : Nat) : placedCore t p = Machine.placedCore s p := placedCore_congr (h.bank_coreMap rfl) p

theorem OnlyPort.placedSlice (h : OnlyPort s t) (p : Nat) : placedSlice t p = Machine.placedSlice s p := placedSlice_congr (h.bank_sliceMap rfl) p

theorem OnlyPort.freeCores (h : OnlyPort s t) (g : Nat) : freeCores t g = Machine.freeCores s g :=
  freeCores_congr (h.bank_coreMap rfl) (by rw [h.flt rfl]) g

theorem OnlyPort.freeSlices (h : OnlyPort s t) (g : Nat) : freeSlices t g = Machine.freeSlices s g :=
  freeSlices_congr (h.bank_sliceMap rfl) (by rw [h.flt rfl]) g

theorem OnlyPort.accRuns (h : OnlyPort s t) (p : Nat) : accRuns t p = Machine.accRuns s p := by rw [Machine.accRuns, h.eng rfl, Machine.accRuns]

theorem OnlyPort.coreFree (h : OnlyPort s t) (c : Nat) : coreFree t c = Machine.coreFree s c := by
  simp only [Machine.coreFree, coreBusy, h.run rfl, h.eng rfl]

theorem OnlyPort.sliceActive (h : OnlyPort s t) (n : Nat) : sliceActive t n = Machine.sliceActive s n := by
  rw [Machine.sliceActive, h.get F.cavSliceStatus_STATE rfl n, h.isSet F.idSliceMap_VALID rfl n, Machine.sliceActive]

theorem OnlyPort.groupBusy (h : OnlyPort s t) (g : Nat × Nat) : groupBusy t g = Machine.groupBusy s g := by
  simp only [Machine.groupBusy, portState, h.flt rfl, h.fab rfl, h.mem rfl]

theorem OnlyPort.unitState (h : OnlyPort s t) (u : Nat) : unitState t u = Machine.unitState s u := by
  have lane (l : Nat) : t.get (F.fabLaneMap_WL l) (u % 4096 / 16) = s.get (F.fabLaneMap_WL l) (u % 4096 / 16) := 
    h.get (F.fabLaneMap_WL l) (by rw [show (F.fabLaneMap_WL l).reg = RegId.fabLaneMap from rfl]; rfl) _
  have chan : chanState t (u % 4096) = chanState s (u % 4096) := h.get F.dramChanStatus_STATE rfl _
  have em : emState t (u % 4096) = emState s (u % 4096) := h.get F.optEmitter_STATE rfl _
  simp only [Machine.unitState, unitMark_congr (congrArg FaultState.unit (h.flt rfl)), laneOf, laneWl, chan, em, unitUp, h.placedCore,
    h.placedSlice, h.flt rfl, h.mem rfl, h.bank_out rfl, h.boot rfl, h.eng rfl, lane]
  rfl

theorem OnlyPort.ftState (h : OnlyPort s t) (u op : Nat) : ftState t u op = Machine.ftState s u op := by
  simp only [Machine.ftState, h.unitState]

end

/-! A command submitted, and its answer. -/

/-- FT_CMD as the write of a command leaves it. -/
def ftAsked (s : State) (u op : Nat) (force : Bool) (seq : Nat) : State :=
  ((((wideWrite s .ftCmd).put F.ftCmd_UNIT u).put F.ftCmd_OP op).put F.ftCmd_FORCE (if force then 1 else 0)).put F.ftCmd_REQ_SEQ seq

theorem onlyPort_ftAsked (s : State) (u op : Nat) (force : Bool) (seq : Nat) : OnlyPort s (ftAsked s u op force seq) :=
  (((((frame_wideWrite s .ftCmd 0 0 0).mono (ps := 1) (rs := regBits [.ftCmd]) rfl rfl).put rfl).put rfl).put rfl).put rfl

theorem onlyPort_ftAnswer (s : State) (result u detail seq : Nat) : OnlyPort s (ftAnswer s result u detail seq) :=
  (frame_ftAnswer s result u detail seq).mono rfl rfl

theorem aftermath_ftAnswer (s : State) (result u detail seq : Nat) : Aftermath s (ftAnswer s result u detail seq) := .of_calm (frame_ftAnswer ..) rfl

section
variable {s : State} {u seq op res : Nat} {i : Instr} {force : Bool}

theorem get_ftAsked_unit (hu : u < 65536) : (ftAsked s u op force seq).get F.ftCmd_UNIT = u := by
  unfold ftAsked
  rw [State.get_put_bits _ _ _ _ _ _ rfl rfl (.inl (by decide)), State.get_put_bits _ _ _ _ _ _ rfl rfl (.inl (by decide)),
    State.get_put_bits _ _ _ _ _ _ rfl rfl (.inl (by decide)), State.get_put_same _ _ _ _ rfl]
  exact Nat.mod_eq_of_lt hu

theorem get_ftAsked_seq (hq : seq < 256) : (ftAsked s u op force seq).get F.ftCmd_REQ_SEQ = seq :=
  (State.get_put_same _ _ _ _ rfl).trans (Nat.mod_eq_of_lt hq)

/-- The port takes a command of a new number when it owes none. -/
theorem ftWrite_eq (idle : s.get F.ftCmd_DONE_SEQ = s.get F.ftCmd_REQ_SEQ) (fresh : seq ≠ s.get F.ftCmd_REQ_SEQ)
    (ready : ((((s.put F.ftCmd_UNIT u).put F.ftCmd_OP op).put F.ftCmd_FORCE (if force then 1 else 0)).put F.ftCmd_REQ_SEQ seq).ready = true)
    (hu : u < 65536) (hq : seq < 256) :
    let asked := (((s.put F.ftCmd_UNIT u).put F.ftCmd_OP op).put F.ftCmd_FORCE (if force then 1 else 0)).put F.ftCmd_REQ_SEQ seq
    ftWrite s u op force seq = ftAnswer (ftRun asked u op force (some seq)).2 (ftRun asked u op force (some seq)).1 u 0 seq := by
  unfold ftWrite
  dsimp only
  rw [idle, beq_self_eq_true, ready, Nat.mod_eq_of_lt hq, Nat.mod_eq_of_lt hu, decide_eq_false fresh]
  exact (if_neg (by decide)).trans (if_neg (by decide))

/-- A command that the port takes: its checks and its start, then the answer. -/
theorem ftCommand_eq (h : FtSubmits s u seq) (op : Nat) (force : Bool) :
    ftCommand s u op force seq = .next (ftAnswer (ftRun (ftAsked s u op force seq) u op force (some seq)).2
      (ftRun (ftAsked s u op force seq) u op force (some seq)).1 u 0 seq) := by
  obtain ⟨link, ready, ⟨hq, hu⟩, fresh, idle⟩ := h
  have ready' : (ftAsked s u op force seq).ready = true := ((onlyPort_ftAsked ..).isSet F.hostStatus_READY rfl).trans ready
  rw [ftCommand, bar0, link, if_neg Bool.false_ne_true]
  exact congrArg Host.Outcome.next (ftWrite_eq (s := wideWrite s .ftCmd) idle fresh ready' hu hq)

theorem exec_of_ftCommand (hi : FtCommand u seq op i) (s : State) : ∃ force, (op ≠ 0 → force = false) ∧ exec i s = ftCommand s u op force seq := by
  rcases hi with ⟨rfl, force, rfl⟩ | ⟨rfl, rfl⟩ | ⟨rfl, rfl⟩ | ⟨rfl, rfl⟩ | ⟨rfl, rfl⟩
  · exact ⟨force, fun n => absurd rfl n, rfl⟩
  all_goals exact ⟨false, fun _ => rfl, rfl⟩

theorem ftAnswers_ftAnswer {r : State} (unit : r.get F.ftCmd_UNIT = u) (asked : r.get F.ftCmd_REQ_SEQ = seq) (hq : seq < 256) (hres : res < 16) :
    FtAnswers (ftAnswer r res u 0 seq) u res seq := by
  have state := (onlyPort_ftAnswer r res u 0 seq).unitState u
  have put : (r.put F.ftCmd_RESULT res).get F.ftCmd_RESULT = res := (State.get_put_same _ _ _ _ rfl).trans (Nat.mod_eq_of_lt hres)
  refine ⟨?_, ?_, ?_, ?_, (State.get_put_same _ _ _ _ rfl).trans (Nat.mod_eq_of_lt hq)⟩
  · unfold ftAnswer
    rw [State.get_put_bits _ _ _ _ _ _ rfl rfl (.inr (by decide)), State.get_put_bits _ _ _ _ _ _ rfl rfl (.inl (by decide)),
      State.get_put_bits _ _ _ _ _ _ rfl rfl (.inl (by decide)), put]
  · rw [state]
    unfold ftAnswer
    rw [State.get_put_bits _ _ _ _ _ _ rfl rfl (.inr (by decide)), State.get_put_bits _ _ _ _ _ _ rfl rfl (.inl (by decide)),
      State.get_put_same _ _ _ _ rfl]
    rfl
  · unfold ftAnswer
    rw [State.get_put_bits _ _ _ _ _ _ rfl rfl (.inl (by decide)), State.get_put_bits _ _ _ _ _ _ rfl rfl (.inl (by decide)),
      State.get_put_bits _ _ _ _ _ _ rfl rfl (.inl (by decide)), State.get_put_bits _ _ _ _ _ _ rfl rfl (.inl (by decide)), unit]
  · unfold ftAnswer
    rw [State.get_put_bits _ _ _ _ _ _ rfl rfl (.inl (by decide)), State.get_put_bits _ _ _ _ _ _ rfl rfl (.inl (by decide)),
      State.get_put_bits _ _ _ _ _ _ rfl rfl (.inl (by decide)), State.get_put_bits _ _ _ _ _ _ rfl rfl (.inl (by decide)), asked]

/-- A command's answer, and what holds of the state that its checks and its start leave. -/
theorem gives_ftCommand {P : State → Prop} (h : FtSubmits s u seq) (hi : FtCommand u seq op i) (hres : res < 16)
    (run : ∀ w force, OnlyPort s w → (op ≠ 0 → force = false) → ∃ r, ftRun w u op force (some seq) = (res, r)
      ∧ ∀ v, OnlyPort r v → Aftermath r v → P v) :
    Gives i s (fun v => FtAnswers v u res seq ∧ P v) := by
  obtain ⟨force, unforced, exec⟩ := exec_of_ftCommand hi s
  obtain ⟨r, left, holds⟩ := run (ftAsked s u op force seq) force (onlyPort_ftAsked ..) unforced
  have ran := frame_ftRun (ftAsked s u op force seq) u op force (some seq)
  rw [left] at ran
  refine ⟨ftAnswer r res u 0 seq, by rw [exec, ftCommand_eq h, left], ?_, holds _ (onlyPort_ftAnswer ..) (aftermath_ftAnswer ..)⟩
  exact ftAnswers_ftAnswer ((ran.get F.ftCmd_UNIT rfl).trans (get_ftAsked_unit h.small.2)) ((ran.get F.ftCmd_REQ_SEQ rfl).trans (get_ftAsked_seq h.small.1))
    h.small.1 hres

/-- A command refused, or that only asks: nothing changes but the answer. -/
theorem gives_ftCommand_refused (h : FtSubmits s u seq) (hi : FtCommand u seq op i) (hres : res < 16)
    (run : ∀ w force, OnlyPort s w → (op ≠ 0 → force = false) → ftRun w u op force (some seq) = (res, w)) :
    Gives i s (fun v => FtAnswers v u res seq ∧ Only [.acc] [.ftCmd] s v) :=
  gives_ftCommand h hi hres (fun w force only unforced =>
    ⟨w, run w force only unforced, fun _ port _ => (only.step port rfl rfl).onlyOf rfl⟩)

end

/-! The checks (Table 16.9). -/

section
variable {s w : State} {u op : Nat} {force : Bool} {seq : Option Nat}

theorem ftRun_of_kind (kind : ftKind u op = true) (hop : op ≠ 4) (only : OnlyPort s w) (idle : groupBusy s (groupOf u) = false)
    (state : ftState s u op = true) :
    ftRun w u op force seq = if op = 3 then returnUnit w u seq else takeUnit w u op (force || op == 2) seq := by
  unfold ftRun
  rw [kind, only.groupBusy, idle, only.ftState, state]
  simp [hop]

theorem ftKind_core {p : Nat} (hp : p < 256) (op : Nat) : ftKind (unitId 1 p) op = true := by
  have small : p < 4096 := by omega
  simp [ftKind, unitExists, unitId_div small, unitId_mod small, hp]

theorem ftKind_slice {p : Nat} (hp : p < 272) (op : Nat) : ftKind (unitId 3 p) op = true := by
  have small : p < 4096 := by omega
  simp [ftKind, unitExists, unitId_div small, unitId_mod small, hp]

theorem aftermath_accepted (s : State) (u op : Nat) (spare seq : Option Nat) :
    Aftermath (addSwap s ⟨u, op, spare, seq, 0⟩) (accepted s u op spare seq) := by
  unfold accepted
  exact .ite (fun _ => aftermath_post _ _ _ _ _ (by decide)) (fun _ => .refl _)

theorem recordsKept_accepted (s : State) (u op : Nat) (spare seq : Option Nat) : RecordsKept s (accepted s u op spare seq) :=
  (RecordsKept.of_frame (frame_addSwap s ⟨u, op, spare, seq, 0⟩) rfl rfl rfl).trans (aftermath_accepted ..).toRecordsKept

theorem swaps_accepted (s : State) (u op : Nat) (spare seq : Option Nat) :
    (accepted s u op spare seq).flt.swaps = s.flt.swaps ++ [⟨u, op, spare, seq, 0⟩] := (aftermath_accepted ..).swaps

theorem unitMark_accepted (s : State) (u op : Nat) (spare seq : Option Nat) (k : Nat) : unitMark (accepted s u op spare seq) k = unitMark s k :=
  (aftermath_accepted ..).unitMark k

theorem coreMap_accepted (s : State) (u op : Nat) (spare seq : Option Nat) : (accepted s u op spare seq).bank.coreMap = s.bank.coreMap :=
  (aftermath_accepted ..).coreMap

end

/-! RETURN (R520): the unit is tested where it is. -/

theorem gives_ftReturn {s : State} {u seq : Nat} (h : FtSubmits s u seq) (kind : ftKind u 3 = true) (idle : groupBusy s (groupOf u) = false)
    (state : ftState s u 3 = true) : Gives (.ftReturn u seq) s (fun v => FtAnswers v u 1 seq ∧ unitMark v u = 3
      ∧ v.flt.swaps = s.flt.swaps ++ [⟨u, 3, none, some seq, 0⟩] ∧ Posts s v u none 0 0x1001 3) := by
  refine gives_ftCommand h (op := 3) (.inr (.inr (.inr (.inl ⟨rfl, rfl⟩)))) (by decide) (fun w force only _ => ?_)
  refine ⟨accepted (setMark w u 3) u 3 none (some seq), by rw [ftRun_of_kind kind (by decide) only idle state]; rfl, fun v _ after => ⟨?_, ?_, ?_⟩⟩
  · rw [after.unitMark, unitMark_accepted, unitMark_setMark_same]
  · rw [after.swaps, swaps_accepted, setMark, only.flt rfl]
  · have posted : Posts (addSwap (setMark w u 3) ⟨u, 3, none, some seq, 0⟩) (accepted (setMark w u 3) u 3 none (some seq)) u none 0 0x1001 3 :=
      posts_post_small _ _ _ _ _ (by decide)
    have same : (addSwap (setMark w u 3) ⟨u, 3, none, some seq, 0⟩).flt.seq = s.flt.seq := by rw [addSwap, setMark, only.flt rfl]
    exact (posted.from same).later after.toRecordsKept

/-! A core that leaves its place (R514, R521, R522). -/

/-- The core's work moved to its spare, before the map is changed. -/
def coreMoved (s : State) (c p q : Nat) : State :=
  let s := roInvalidateAll (moveUnits s p q) c
  let inFlight (h : BHalf) : Bool := s.eng.jobs.any (fun j => j.id == h.key && j.started)
  let bst := s.core.bst.map (fun kb => if kb.1 / 4 = c then (kb.1, kb.2.filter inFlight) else kb)
  { s with core := { s.core with bst := bst, segCache := s.core.segCache.filter (fun x => x.1 != c) } }

theorem flt_coreMoved (s : State) (c p q : Nat) : (coreMoved s c p q).flt = s.flt :=
  ((frame_roInvalidateAll (moveUnits s p q) c).flt rfl).trans ((frame_moveUnits s p q).flt rfl)

theorem takeUnit_core {p : Nat} (hp : p < 256) (w : State) (op : Nat) (out : Bool) (seq : Option Nat) :
    takeUnit w (unitId 1 p) op out seq = takeCore w p op out seq := by
  unfold takeUnit
  rw [unitId_div (by omega), unitId_mod (by omega)]
  rfl

section
variable {s w : State} {p c op q : Nat} {out : Bool} {seq : Option Nat}

/-- A placed core with a free spare, while an ACCUMULATING routine runs on it: it drains. -/
theorem takeCore_drains (only : OnlyPort s w) (place : placedCore s p = some c) (hop : op < 2) (runs : accRuns s p = true)
    (spare : (freeCores s (p / 16)).head? = some q) :
    takeCore w p op out seq = (1, accepted (setMark w (unitId 1 p) 2) (unitId 1 p) op (some q) seq) := by
  have notBypass : op ≠ 2 := by omega
  simp only [takeCore, only.placedCore, place, only.freeCores, notBypass, if_false, spare, only.accRuns, runs, if_true]

/-- With none running, the spare takes the place. -/
theorem takeCore_moves (only : OnlyPort s w) (place : placedCore s p = some c) (hop : op < 2) (still : accRuns s p = false)
    (spare : (freeCores s (p / 16)).head? = some q) :
    takeCore w p op out seq = (1, accepted (coreMove (setMark w (unitId 1 p) (afterSwap op)) c p q) (unitId 1 p) op (some q) seq) := by
  have notBypass : op ≠ 2 := by omega
  simp only [takeCore, only.placedCore, place, only.freeCores, notBypass, if_false, spare, only.accRuns, still, Bool.false_eq_true]

theorem takeCore_without_spare (only : OnlyPort s w) (place : placedCore s p = some c) (noSpare : (freeCores s (p / 16)).head? = none) :
    takeCore w p 1 false seq = (4, w) := by
  simp [takeCore, only.placedCore, place, only.freeCores, noSpare]

theorem takeCore_bypass (only : OnlyPort s w) (place : placedCore s p = some c) :
    takeCore w p 2 true seq = if coreFree s c then
      (1, unitLost (accepted (vacateCore (setMark (glFlush w c) (unitId 1 p) 5) c) (unitId 1 p) 2 none seq)) else (3, w) := by
  simp only [takeCore, only.placedCore, place, only.coreFree, if_true, Bool.true_and]
  rfl

end

section
variable {s : State} {p c seq op q : Nat} {i : Instr} (h : FtSubmits s (unitId 1 p) seq) (hp : p < 256) (place : placedCore s p = some c)
  (idle : groupBusy s (groupOf (unitId 1 p)) = false)
include h hp place idle

omit h place in
/-- The port's checks passed, a core's command is `takeCore`. -/
theorem ftRun_core (hop : op < 3) (state : ftState s (unitId 1 p) op = true) {w : State} (force : Bool) (only : OnlyPort s w) :
    ftRun w (unitId 1 p) op force (some seq) = takeCore w p op (force || op == 2) (some seq) := by
  rw [ftRun_of_kind (ftKind_core hp op) (by omega) only idle state, if_neg (by omega), takeUnit_core hp]

theorem gives_ft_core_drains (hi : FtCommand (unitId 1 p) seq op i) (hop : op < 2) (state : ftState s (unitId 1 p) op = true)
    (runs : accRuns s p = true) (spare : (freeCores s (p / 16)).head? = some q) :
    Gives i s (fun v => FtAnswers v (unitId 1 p) 1 seq ∧ unitMark v (unitId 1 p) = 2 ∧ v.bank.coreMap = s.bank.coreMap
      ∧ v.flt.swaps = s.flt.swaps ++ [⟨unitId 1 p, op, some q, some seq, 0⟩]) := by
  refine gives_ftCommand h hi (by decide) (fun w force only _ => ⟨_, (ftRun_core hp idle (by omega) state force only).trans
    (takeCore_drains only place hop runs spare), fun v _ after => ⟨?_, ?_, ?_⟩⟩)
  · rw [after.unitMark, unitMark_accepted, unitMark_setMark_same]
  · rw [after.coreMap, coreMap_accepted]
    exact only.bank_coreMap rfl
  · rw [after.swaps, swaps_accepted, setMark, only.flt rfl]

theorem gives_ft_core_moves (hi : FtCommand (unitId 1 p) seq op i) (hop : op < 2) (state : ftState s (unitId 1 p) op = true)
    (still : accRuns s p = false) (spare : (freeCores s (p / 16)).head? = some q) :
    Gives i s (fun v => FtAnswers v (unitId 1 p) 1 seq ∧ corePos v c = some q ∧ v.get F.idCoreMap_PHYS_CORE c = q
      ∧ unitMark v (unitId 1 p) = afterSwap op ∧ v.flt.swaps = s.flt.swaps ++ [⟨unitId 1 p, op, some q, some seq, 0⟩]
      ∧ Posts s v (unitId 1 p) none 2 0x0103 (extra2 (unitId 1 q) c)) := by
  refine gives_ftCommand h hi (by decide) (fun w force only _ => ⟨_, (ftRun_core hp idle (by omega) state force only).trans
    (takeCore_moves only place hop still spare), fun v port after => ?_⟩)
  let b := coreMoved (setMark w (unitId 1 p) (afterSwap op)) c p q
  have given : CoreGiven b (coreMove (setMark w (unitId 1 p) (afterSwap op)) c p q) c p q := coreGiven_giveCore b c p q
  have joined := aftermath_accepted (coreMove (setMark w (unitId 1 p) (afterSwap op)) c p q) (unitId 1 p) op (some q) (some seq)
  have marked : fltRest (coreMove (setMark w (unitId 1 p) (afterSwap op)) c p q).flt = fltRest (setMark w (unitId 1 p) (afterSwap op)).flt := given.flt
  have small : q < 256 := by
    have := lt_of_head_freeCores spare
    omega
  refine ⟨?_, ?_, ?_, ?_, ?_⟩
  · rw [corePos_congr after.coreMap, corePos_congr joined.coreMap]
    exact given.place
  · rw [port.get F.idCoreMap_PHYS_CORE rfl c, (frame_accepted ..).get F.idCoreMap_PHYS_CORE rfl c, given.phys, Nat.mod_eq_of_lt small]
  · have units := congrArg FaultState.unit marked
    rw [after.unitMark, unitMark_accepted, unitMark_congr units, unitMark_setMark_same]
  · have swaps : (coreMove (setMark w (unitId 1 p) (afterSwap op)) c p q).flt.swaps = (setMark w (unitId 1 p) (afterSwap op)).flt.swaps := by
      have e := congrArg FaultState.swaps marked
      exact e
    rw [after.swaps, swaps_accepted, swaps, setMark, only.flt rfl]
  · have seq : b.flt.seq = s.flt.seq := by
      rw [flt_coreMoved, setMark, only.flt rfl]
    exact ((given.record.from seq).later (recordsKept_accepted ..)).later after.toRecordsKept

theorem gives_ftReplace_core_without_spare (state : ftState s (unitId 1 p) 1 = true) (noSpare : (freeCores s (p / 16)).head? = none) :
    Gives (.ftReplace (unitId 1 p) seq) s (fun v => FtAnswers v (unitId 1 p) 4 seq ∧ Only [.acc] [.ftCmd] s v) :=
  gives_ftCommand_refused h (.inr (.inl ⟨rfl, rfl⟩)) (by decide) (fun w force only unforced => by
    rw [ftRun_core hp idle (by decide) state force only, unforced (by decide)]
    exact takeCore_without_spare only place noSpare)

theorem gives_ftBypass_core (state : ftState s (unitId 1 p) 2 = true) (free : coreFree s c = true) :
    Gives (.ftBypass (unitId 1 p) seq) s (fun v => FtAnswers v (unitId 1 p) 1 seq ∧ corePos v c = none ∧ v.isSet F.idCoreMap_VALID c = false
      ∧ unitMark v (unitId 1 p) = 5 ∧ v.isSet F.faultStatus_UNIT_LOST = true) := by
  refine gives_ftCommand h (.inr (.inr (.inl ⟨rfl, rfl⟩))) (by decide) (fun w force only _ =>
    ⟨unitLost (accepted (vacateCore (setMark (glFlush w c) (unitId 1 p) 5) c) (unitId 1 p) 2 none (some seq)), ?_, fun v port after => ?_⟩)
  · rw [ftRun_core hp idle (by decide) state force only, show (force || (2 : Nat) == 2) = true from Bool.or_true force,
      takeCore_bypass only place, if_pos free]
  · have lost := aftermath_unitLost (accepted (vacateCore (setMark (glFlush w c) (unitId 1 p) 5) c) (unitId 1 p) 2 none (some seq))
    have kept := lost.trans after
    refine ⟨?_, ?_, ?_, after.lost (isSet_unitLost _)⟩
    · rw [corePos_congr kept.coreMap, corePos_congr (coreMap_accepted ..), corePos_vacateCore]
    · rw [port.isSet F.idCoreMap_VALID rfl c, (frame_unitLost ..).isSet F.idCoreMap_VALID rfl c, (frame_accepted ..).isSet F.idCoreMap_VALID rfl c,
        isSet_valid_vacateCore]
    · rw [kept.unitMark, unitMark_accepted, unitMark_congr (congrArg FaultState.unit ((frame_vacateCore ..).flt rfl)), unitMark_setMark_same]

theorem gives_ftBypass_core_busy (state : ftState s (unitId 1 p) 2 = true) (busy : coreFree s c = false) :
    Gives (.ftBypass (unitId 1 p) seq) s (fun v => FtAnswers v (unitId 1 p) 3 seq ∧ Only [.acc] [.ftCmd] s v) :=
  gives_ftCommand_refused h (.inr (.inr (.inl ⟨rfl, rfl⟩))) (by decide) (fun w force only _ => by
    rw [ftRun_core hp idle (by decide) state force only, show (force || (2 : Nat) == 2) = true from Bool.or_true force,
      takeCore_bypass only place, busy]
    rfl)

end

/-! A slice that leaves its place drains first (R281). -/

theorem gives_ftReplace_slice {s : State} {p n q seq : Nat} (h : FtSubmits s (unitId 3 p) seq) (hp : p < 272) (place : placedSlice s p = some n)
    (active : sliceActive s n = true) (idle : groupBusy s (groupOf (unitId 3 p)) = false) (state : ftState s (unitId 3 p) 1 = true)
    (spare : (freeSlices s (p / 68)).head? = some q) :
    Gives (.ftReplace (unitId 3 p) seq) s (fun v => FtAnswers v (unitId 3 p) 1 seq ∧ v.get F.cavSliceStatus_STATE n = 1 ∧ unitMark v (unitId 3 p) = 2
      ∧ v.flt.swaps = s.flt.swaps ++ [⟨unitId 3 p, 1, some q, some seq, 0⟩]) := by
  refine gives_ftCommand h (.inr (.inl ⟨rfl, rfl⟩)) (by decide) (fun w force only _ =>
    ⟨drainSliceOf (accepted (setMark w (unitId 3 p) 2) (unitId 3 p) 1 (some q) (some seq)) n, ?_, fun v port after => ?_⟩)
  · rw [ftRun_of_kind (ftKind_slice hp 1) (by decide) only idle state, if_neg (by decide)]
    unfold takeUnit
    rw [unitId_div (by omega), unitId_mod (by omega)]
    simp [takeSlice, only.placedSlice, place, only.sliceActive, active, only.freeSlices, spare]
  · have drained : (drainSliceOf (accepted (setMark w (unitId 3 p) 2) (unitId 3 p) 1 (some q) (some seq)) n).flt
        = (accepted (setMark w (unitId 3 p) 2) (unitId 3 p) 1 (some q) (some seq)).flt := (frame_drainSliceOf ..).flt rfl
    refine ⟨?_, ?_, ?_⟩
    · rw [port.get F.cavSliceStatus_STATE rfl n, drainSliceOf, (frame_hlDrain ..).get F.cavSliceStatus_STATE rfl n, State.get_put_same _ _ _ _ rfl]
      rfl
    · rw [after.unitMark, unitMark_congr (congrArg FaultState.unit drained), unitMark_accepted, unitMark_setMark_same]
    · rw [after.swaps, drained, swaps_accepted, setMark, only.flt rfl]

end Sys2Proof.Proofs
end

section
/-! Slices that drain and join (R278, R280, R281), tests that end (R523, R525), and the statement O59. -/

namespace Sys2Proof.Proofs

open Sys2Proof.Machine Sys2Proof.Claims Sys2Proof.Laws

/-! A slice emptied. -/

@[simp] theorem charge_cavern (s : State) (r pa : Nat) : (charge s r pa).mem.cavern = s.mem.cavern := by
  have timer (k : Nat) : (s.restart k).mem.cavern = s.mem.cavern := congrArg Memory.cavern ((frame_State_restart s k).mem rfl)
  simp only [charge]
  split_ifs <;> simp [timer]

theorem dramWrite_cavern (m : Memory) (a : Nat) (bs : List Byte) : (dramWrite m a bs).cavern = m.cavern := by
  induction bs generalizing m a with
  | nil => rfl
  | cons b bs ih => exact ih _ _

@[simp] theorem chanStore_cavern (s : State) (key pa : Nat) (poison : Bool) (data : List Byte) :
    (chanStore s key pa poison data).mem.cavern = s.mem.cavern := by
  unfold chanStore
  split
  · rfl
  · exact dramWrite_cavern ..

@[simp] theorem setCavern_cavern (s : State) (n : Nat) (ls : List CavLine) : (setCavern s n ls).mem.cavern = ls := by
  rw [setCavern, cavCount, State.put_mem]

theorem cavWriteBack_cavern (s : State) (l : CavLine) : (cavWriteBack s l).mem.cavern = s.mem.cavern := by
  unfold cavWriteBack
  generalize List.range 4 = is
  induction is generalizing s with
  | nil => rfl
  | cons i is ih =>
    rw [List.foldl_cons, ih]
    split
    · split
      · rw [charge_cavern, chanStore_cavern]
      · rfl
    · rfl

/-- Lines evicted are gone, and no others. -/
theorem mem_cavern_evicted {x : CavLine} {ls : List CavLine} {s : State} :
    x ∈ (ls.foldl cavEvict s).mem.cavern ↔ x ∈ s.mem.cavern ∧ ∀ l ∈ ls, x.line ≠ l.line := by
  induction ls generalizing s with
  | nil => exact ⟨fun h => ⟨h, fun _ e => absurd e List.not_mem_nil⟩, And.left⟩
  | cons l ls ih =>
    rw [List.foldl_cons, ih, cavEvict, setCavern_cavern, cavWriteBack_cavern, List.mem_filter, bne_iff_ne, List.forall_mem_cons, and_assoc]

theorem slice_ne_of_mem_drainSlice {s : State} {n : Nat} {x : CavLine} (h : x ∈ (drainSlice s n).mem.cavern) : x.slice ≠ n := by
  obtain ⟨mem, others⟩ := mem_cavern_evicted.mp h
  exact fun e => others x (List.mem_filter.mpr ⟨mem, beq_iff_eq.mpr e⟩) rfl

theorem slice_ne_of_mem_loseSlice {s : State} {n : Nat} {x : CavLine} (h : x ∈ (loseSlice s n).mem.cavern) : x.slice ≠ n := by
  rw [loseSlice, setCavern_cavern, List.mem_filter, bne_iff_ne] at h
  exact h.2

theorem swapOfSlice_congr {s t : State} (flt : t.flt = s.flt) (map : t.bank.sliceMap = s.bank.sliceMap) (n : Nat) : swapOfSlice t n = swapOfSlice s n := by
  simp only [swapOfSlice, flt, slicePos_congr map, unitMark_congr (congrArg FaultState.unit flt)]

/-! A slice that has drained (R278). -/

/-- The position out of service, before what its swap makes of it. -/
def drained (s : State) (n : Nat) : State := showCounts (((drainSlice s n).put F.cavSliceStatus_STATE 3 n).put F.idSliceMap_VALID 0 n)

/-- Steps that keep what a drained slice shows. -/
structure DrainKept (s v : State) (n : Nat) : Prop where
  vacant : v.isSet F.idSliceMap_VALID n = false
  empty : ∀ l ∈ v.mem.cavern, l.slice ≠ n

section
variable (s : State) (n : Nat)

theorem drained_state : (drained s n).get F.cavSliceStatus_STATE n = 3 := by
  rw [drained, (frame_showCounts ..).get F.cavSliceStatus_STATE rfl n, State.get_put_reg _ _ _ _ _ _ (by decide), State.get_put_same _ _ _ _ rfl]
  rfl

theorem drainKept_drained : DrainKept s (drained s n) n where
  vacant := by rw [drained, (frame_showCounts ..).isSet F.idSliceMap_VALID rfl n, isSet_put_zero _ n rfl]
  empty l hl := by
    rw [drained, (frame_showCounts ..).mem rfl, State.put_mem, State.put_mem] at hl
    exact slice_ne_of_mem_drainSlice hl

theorem drained_flt : (drained s n).flt = s.flt := by
  rw [drained, (frame_showCounts ..).flt rfl, State.put_flt, State.put_flt, (frame_drainSlice ..).flt rfl]

theorem drained_sliceMap : (drained s n).bank.sliceMap = s.bank.sliceMap := by
  rw [drained, (frame_showCounts ..).bank_sliceMap rfl, State.put_bank_sliceMap, State.put_bank_sliceMap, (frame_drainSlice ..).bank_sliceMap rfl]

/-- The end of a draining, by the slice's swap. -/
theorem drainDone_eq : drainDone s n = match swapOfSlice s n with
    | none => drained s n
    | some x => if x.spare.isSome then (drained s n).put F.cavSliceStatus_STATE 2 n
      else unitLost (post (showCounts (setMark (setSlicePos (drained s n) n none) x.unit (afterSwap x.op))) x.unit none 0 0x0321 n) := by
  rw [← swapOfSlice_congr (drained_flt s n) (drained_sliceMap s n) n]
  rfl

end

section
variable {s : State} {n : Nat} {x : Swap}

theorem sliceDrainDone_of_swap (h : swapOfSlice s n = some x) : DrainKept s (drainDone s n) n
    ∧ (x.spare.isSome = true → (drainDone s n).get F.cavSliceStatus_STATE n = 2)
    ∧ (x.spare = none → n < 256 → (drainDone s n).get F.cavSliceStatus_STATE n = 3 ∧ slicePos (drainDone s n) n = none
      ∧ unitMark (drainDone s n) x.unit = afterSwap x.op ∧ (drainDone s n).isSet F.faultStatus_UNIT_LOST = true
      ∧ Posts s (drainDone s n) x.unit none 0 0x0321 n) := by
  have kept := drainKept_drained s n
  rw [drainDone_eq, h]
  dsimp only
  by_cases spare : x.spare.isSome = true
  · rw [if_pos spare]
    refine ⟨⟨?_, by rw [State.put_mem]; exact kept.empty⟩, fun _ => ?_, fun without => absurd spare (by rw [without]; decide)⟩
    · rw [State.isSet, State.get_put_reg _ _ _ _ _ _ (by decide)]
      exact kept.vacant
    · rw [State.get_put_same _ _ _ _ rfl]
      rfl
  · rw [if_neg spare]
    let w := showCounts (setMark (setSlicePos (drained s n) n none) x.unit (afterSwap x.op))
    have before : Frame 12288 (regBits [.rbStatus, .idDevice]) (drained s n) w :=
      (((frame_setSlicePos (drained s n) n none).mono rfl rfl).step (frame_setMark ..) rfl rfl).step (frame_showCounts ..) rfl rfl
    have after : Frame 77828 (regBits recordRegs) w (unitLost (post w x.unit none 0 0x0321 n)) :=
      ((frame_post w x.unit none 0 0x0321 n).mono rfl rfl).step (frame_unitLost ..) rfl rfl
    have aftermath : Aftermath w (unitLost (post w x.unit none 0 0x0321 n)) := (aftermath_post _ _ _ _ _ (by decide)).trans (aftermath_unitLost _)
    have lost : (unitLost (post w x.unit none 0 0x0321 n)).isSet F.faultStatus_UNIT_LOST = true := isSet_unitLost _
    refine ⟨⟨?_, fun l hl => ?_⟩, fun some => absurd some spare, fun _ small => ⟨?_, ?_, ?_, lost, ?_⟩⟩
    · rw [after.isSet F.idSliceMap_VALID rfl n, before.isSet F.idSliceMap_VALID rfl n]
      exact kept.vacant
    · rw [after.mem rfl, before.mem rfl] at hl
      exact kept.empty l hl
    · rw [after.get F.cavSliceStatus_STATE rfl n, before.get F.cavSliceStatus_STATE rfl n, drained_state]
    · rw [slicePos_congr aftermath.sliceMap, slicePos_congr ((frame_showCounts ..).bank_sliceMap rfl), slicePos_congr ((frame_setMark ..).bank_sliceMap rfl),
        slicePos_setSlicePos]
    · rw [aftermath.unitMark, unitMark_congr (congrArg FaultState.unit ((frame_showCounts ..).flt rfl)), unitMark_setMark_same]
    · have seq : w.flt.seq = s.flt.seq := by
        rw [(frame_showCounts ..).flt rfl, setMark, (frame_setSlicePos ..).flt rfl, drained_flt]
      exact ((posts_post_small w x.unit none 0 0x0321 (by omega)).from seq).later (aftermath_unitLost _).toRecordsKept

/-- SLICE_DRAIN_DONE. -/
theorem gives_sliceDrainDone (small : n < 256) (state : s.get F.cavSliceStatus_STATE n = 1) (evict : ∀ e ∈ s.hl.evict, e.slice ≠ n)
    (lines : ∀ l ∈ s.hl.lines, (hostSet s l.ha).1 ≠ n) :
    Gives (.sliceDrainDone n) s (fun v =>
      v.isSet F.idSliceMap_VALID n = false ∧ (∀ l ∈ v.mem.cavern, l.slice ≠ n)
      ∧ (swapOfSlice s n = none → v.get F.cavSliceStatus_STATE n = 3)
      ∧ (∀ x, swapOfSlice s n = some x → (x.spare.isSome = true → v.get F.cavSliceStatus_STATE n = 2)
        ∧ (x.spare = none → v.get F.cavSliceStatus_STATE n = 3 ∧ slicePos v n = none ∧ unitMark v x.unit = afterSwap x.op ∧ v.isSet F.faultStatus_UNIT_LOST = true
          ∧ Posts s v x.unit none 0 0x0321 n))) := by
  have host : hostEmpty s n = true := by
    simp only [hostEmpty, Bool.and_eq_true, List.all_eq_true, bne_iff_ne]
    exact ⟨evict, lines⟩
  refine ⟨drainDone s n, (if_pos small).trans (if_pos ⟨state, host⟩), ?_⟩
  cases swap : swapOfSlice s n with
  | none =>
    have same : drainDone s n = drained s n := by rw [drainDone_eq, swap]
    rw [same]
    exact ⟨(drainKept_drained s n).vacant, (drainKept_drained s n).empty, fun _ => drained_state s n, nofun⟩
  | some x =>
    obtain ⟨kept, withSpare, without⟩ := sliceDrainDone_of_swap swap
    refine ⟨kept.vacant, kept.empty, nofun, fun y e => ?_⟩
    obtain rfl := Option.some.inj e
    exact ⟨withSpare, fun none => without none small⟩

end

/-! A slice that joins (R280, R31). -/

/-- The position in service, before its record. -/
def sliceUp (s : State) (n : Nat) : State := showCounts ((s.put F.cavSliceStatus_STATE 0 n).put F.idSliceMap_VALID 1 n)

section
variable (s : State) (n : Nat)

theorem frame_sliceUp : Frame 0 (regBits [.idDevice, .idSliceMap, .cavSliceStatus]) s (sliceUp s n) :=
  (((Frame.refl _ _ s).put rfl).put rfl).step (frame_showCounts ..) rfl rfl

theorem sliceUp_state : (sliceUp s n).get F.cavSliceStatus_STATE n = 0 := by
  rw [sliceUp, (frame_showCounts ..).get F.cavSliceStatus_STATE rfl n, State.get_put_reg _ _ _ _ _ _ (by decide), State.get_put_same _ _ _ _ rfl]
  rfl

theorem sliceUp_valid : (sliceUp s n).isSet F.idSliceMap_VALID n = true := by
  rw [sliceUp, (frame_showCounts ..).isSet F.idSliceMap_VALID rfl n, isSet_put_one _ n rfl]

theorem sliceUp_phys : (sliceUp s n).get F.idSliceMap_PHYS_SLICE n = s.get F.idSliceMap_PHYS_SLICE n := by
  rw [sliceUp, (frame_showCounts ..).get F.idSliceMap_PHYS_SLICE rfl n, State.get_put_bits _ _ _ _ _ _ rfl rfl (.inl (by decide)),
    State.get_put_reg _ _ _ _ _ _ (by decide)]

theorem swapOfSlice_loseSlice : swapOfSlice (loseSlice s n) n = swapOfSlice s n :=
  swapOfSlice_congr ((frame_loseSlice ..).flt rfl) ((frame_loseSlice ..).bank_sliceMap rfl) n

end

/-- A spare that takes the place, before its record. -/
def sliceGiven (s : State) (n q : Nat) (x : Swap) : State :=
  (sliceUp ((setMark (setSlicePos (loseSlice s n) n (some q)) x.unit (afterSwap x.op)).put F.idSliceMap_PHYS_SLICE q n) n).bumpSat
    F.wearSlice_SWAPS_OUT 1 (x.unit % 4096)

theorem sliceJoin_of_spare {s : State} {n q : Nat} {x : Swap} (swap : swapOfSlice s n = some x) (spare : x.spare = some q) :
    sliceJoin s n = sliceTaken (post (sliceGiven s n q x) x.unit none 2 0x0320 (extra2 (unitId 3 q) n)) (n / 64) := by
  simp only [sliceJoin, swapOfSlice_loseSlice, swap, spare]
  rfl

theorem sliceJoin_without {s : State} {n : Nat} (without : ∀ x q, swapOfSlice s n = some x → x.spare ≠ some q) :
    sliceJoin s n = sliceUp (loseSlice s n) n := by
  simp only [sliceJoin, swapOfSlice_loseSlice]
  cases swap : swapOfSlice s n with
  | none => rfl
  | some x =>
    cases spare : x.spare with
    | none => simp only [spare]; rfl
    | some q => exact absurd spare (without x q swap)

section
variable {s : State} {n q : Nat} {x : Swap}

theorem frame_sliceGiven_up (s : State) (n q : Nat) (x : Swap) :
    Frame 0 (regBits [.wearSlice]) (sliceUp ((setMark (setSlicePos (loseSlice s n) n (some q)) x.unit (afterSwap x.op)).put F.idSliceMap_PHYS_SLICE q n) n)
      (sliceGiven s n q x) := (Frame.refl _ _ _).bumpSat rfl

theorem sliceGiven_after (s : State) (n q : Nat) (x : Swap) :
    Frame 77828 (regBits (.ftSpares :: recordRegs)) (sliceGiven s n q x) (sliceTaken (post (sliceGiven s n q x) x.unit none 2 0x0320 (extra2 (unitId 3 q) n)) (n / 64)) :=
  ((frame_post ..).mono rfl rfl).step (frame_sliceTaken ..) rfl rfl

theorem aftermath_sliceGiven (s : State) (n q : Nat) (x : Swap) :
    Aftermath (sliceGiven s n q x) (sliceTaken (post (sliceGiven s n q x) x.unit none 2 0x0320 (extra2 (unitId 3 q) n)) (n / 64)) :=
  (aftermath_post _ _ _ _ _ (by decide)).trans (aftermath_sliceTaken ..)

theorem sliceGiven_flt (s : State) (n q : Nat) (x : Swap) : (sliceGiven s n q x).flt = (setMark s x.unit (afterSwap x.op)).flt := by
  rw [(frame_sliceGiven_up ..).flt rfl, (frame_sliceUp ..).flt rfl, State.put_flt, setMark, (frame_setSlicePos ..).flt rfl, (frame_loseSlice ..).flt rfl, setMark]

theorem sliceGiven_cavern (s : State) (n q : Nat) (x : Swap) : (sliceGiven s n q x).mem.cavern = (loseSlice s n).mem.cavern := by
  rw [(frame_sliceGiven_up ..).mem rfl, (frame_sliceUp ..).mem rfl, State.put_mem, (frame_setMark ..).mem rfl, (frame_setSlicePos ..).mem rfl]

theorem slicePos_sliceGiven (s : State) (n q : Nat) (x : Swap) : slicePos (sliceGiven s n q x) n = some q := by
  rw [slicePos_congr ((frame_sliceGiven_up ..).bank_sliceMap rfl), slicePos_congr ((frame_sliceUp ..).bank_sliceMap rfl),
    slicePos_congr (State.put_bank_sliceMap ..), slicePos_congr ((frame_setMark ..).bank_sliceMap rfl), slicePos_setSlicePos]

theorem sliceGiven_phys (hq : q < 512) : (sliceGiven s n q x).get F.idSliceMap_PHYS_SLICE n = q := by
  rw [(frame_sliceGiven_up ..).get F.idSliceMap_PHYS_SLICE rfl n, sliceUp_phys, State.get_put_same _ _ _ _ rfl]
  exact Nat.mod_eq_of_lt hq

/-- A spare takes the place of the slice that its swap drained. -/
theorem gives_sliceJoin_of_spare (swap : swapOfSlice s n = some x) (spare : x.spare = some q) :
    (sliceJoin s n).get F.cavSliceStatus_STATE n = 0 ∧ (sliceJoin s n).isSet F.idSliceMap_VALID n = true ∧ (∀ l ∈ (sliceJoin s n).mem.cavern, l.slice ≠ n)
      ∧ (q < 512 → slicePos (sliceJoin s n) n = some q ∧ (sliceJoin s n).get F.idSliceMap_PHYS_SLICE n = q ∧ unitMark (sliceJoin s n) x.unit = afterSwap x.op
        ∧ Posts s (sliceJoin s n) x.unit none 2 0x0320 (extra2 (unitId 3 q) n)) := by
  have after := sliceGiven_after s n q x
  have aftermath := aftermath_sliceGiven s n q x
  have up := frame_sliceGiven_up s n q x
  have flt := sliceGiven_flt s n q x
  rw [sliceJoin_of_spare swap spare]
  refine ⟨?_, ?_, fun l hl => ?_, fun hq => ⟨?_, ?_, ?_, ?_⟩⟩
  · rw [after.get F.cavSliceStatus_STATE rfl n, up.get F.cavSliceStatus_STATE rfl n, sliceUp_state]
  · rw [after.isSet F.idSliceMap_VALID rfl n, up.isSet F.idSliceMap_VALID rfl n, sliceUp_valid]
  · rw [after.mem rfl, sliceGiven_cavern] at hl
    exact slice_ne_of_mem_loseSlice hl
  · rw [slicePos_congr aftermath.sliceMap, slicePos_sliceGiven]
  · rw [after.get F.idSliceMap_PHYS_SLICE rfl n, sliceGiven_phys hq]
  · rw [aftermath.unitMark, unitMark_congr (congrArg FaultState.unit flt), unitMark_setMark_same]
  · have posted : Posts (sliceGiven s n q x) (post (sliceGiven s n q x) x.unit none 2 0x0320 (extra2 (unitId 3 q) n)) x.unit none 2 0x0320
        (extra2 (unitId 3 q) n) := posts_post_small _ _ _ _ _ (extra2_lt ..)
    exact (posted.from (by rw [flt, setMark])).later (aftermath_sliceTaken ..).toRecordsKept

/-- SLICE_JOIN. -/
theorem gives_sliceJoin (small : n < 256) (state : s.get F.cavSliceStatus_STATE n = 2) (on : s.domOn (domOfCavern (n / 64)) = true) :
    Gives (.sliceJoin n) s (fun v =>
      v.get F.cavSliceStatus_STATE n = 0 ∧ v.isSet F.idSliceMap_VALID n = true ∧ (∀ l ∈ v.mem.cavern, l.slice ≠ n)
      ∧ (∀ x q, swapOfSlice s n = some x → x.spare = some q → q < 512 → slicePos v n = some q ∧ v.get F.idSliceMap_PHYS_SLICE n = q ∧ unitMark v x.unit = afterSwap x.op
        ∧ Posts s v x.unit none 2 0x0320 (extra2 (unitId 3 q) n))) := by
  refine ⟨sliceJoin s n, (if_pos small).trans (if_pos ⟨state, on⟩), ?_⟩
  by_cases given : ∃ x q, swapOfSlice s n = some x ∧ x.spare = some q
  · obtain ⟨x, q, swap, spare⟩ := given
    obtain ⟨shown, valid, empty, taken⟩ := gives_sliceJoin_of_spare swap spare
    refine ⟨shown, valid, empty, fun y r swap' spare' hq => ?_⟩
    obtain rfl := Option.some.inj (swap.symm.trans swap')
    obtain rfl := Option.some.inj (spare.symm.trans spare')
    exact taken hq
  · have without : ∀ x q, swapOfSlice s n = some x → x.spare ≠ some q := fun x q swap spare => given ⟨x, q, swap, spare⟩
    rw [sliceJoin_without without]
    refine ⟨sliceUp_state .., sliceUp_valid .., fun l hl => ?_, fun x q swap spare => absurd spare (without x q swap)⟩
    rw [(frame_sliceUp ..).mem rfl] at hl
    exact slice_ne_of_mem_loseSlice hl

end

/-! A test that ends (R523). -/

section
variable {s : State} {g : Nat × Nat}

theorem nextSwap_of_none (h : s.flt.waiting = []) : nextSwap s g = s := by
  unfold nextSwap
  rw [h]
  exact ite_self _

end

/-- What the end of a command keeps, and what it answers. -/
structure FtFinished (w v : State) (x : Swap) (res det : Nat) : Prop where
  kept : RecordsKept w v
  unit : v.flt.unit = w.flt.unit
  waiting : v.flt.waiting = w.flt.waiting
  coreMap : v.bank.coreMap = w.bank.coreMap
  frame : Frame 73732 (regBits [.evt, .ftCmd]) w v
  swaps : ∀ y ∈ v.flt.swaps, y.unit ≠ x.unit
  result : x.seq.isSome = true → v.get F.ftCmd_RESULT = res
  state : x.seq.isSome = true → unitMark w x.unit ≠ 0 → v.get F.ftCmd_UNIT_STATE = unitMark w x.unit % 16
  detail : x.seq.isSome = true → v.get F.ftCmd_DETAIL = det

theorem unitState_of_marked {s : State} {u : Nat} (h : unitMark s u ≠ 0) : unitState s u = unitMark s u := if_pos h

/-- The command's entry dropped. -/
def swapDropped (s : State) (x : Swap) : State := { s with flt := { s.flt with swaps := s.flt.swaps.filter (fun y => y.unit != x.unit) } }

/-- Its result, the unit's state and the detail shown. -/
def ftTold (s : State) (x : Swap) (res det : Nat) : State :=
  ((s.put F.ftCmd_RESULT res).put F.ftCmd_UNIT_STATE (unitState s x.unit)).put F.ftCmd_DETAIL det

/-- An event, where enabled. -/
def ftSignalled (s : State) : State := signalIf s (s.isSet F.faultCtrl_FT_EVENT_EN) (s.get F.faultCtrl_EVENT)

theorem ftFinish_of_none {x : Swap} (h : x.seq = none) (s : State) (res det : Nat) : ftFinish s x res det = swapDropped s x := by
  rw [ftFinish, h, swapDropped]

theorem ftFinish_of_some {x : Swap} {q : Nat} (h : x.seq = some q) (s : State) (res det : Nat) :
    ftFinish s x res det = ftSignalled (ftTold (swapDropped s x) x res det) := by
  rw [ftFinish, h, swapDropped]
  rfl

theorem onlyPort_ftTold (s : State) (x : Swap) (res det : Nat) : OnlyPort s (ftTold s x res det) :=
  (((Frame.refl 1 (regBits [.ftCmd]) s).put rfl).put rfl).put rfl

section
variable (s : State) (x : Swap) {res det : Nat}

theorem ftTold_result (h : res < 16) : (ftTold s x res det).get F.ftCmd_RESULT = res := by
  unfold ftTold
  rw [State.get_put_bits _ _ _ _ _ _ rfl rfl (.inl (by decide)), State.get_put_bits _ _ _ _ _ _ rfl rfl (.inl (by decide)), State.get_put_same _ _ _ _ rfl]
  exact Nat.mod_eq_of_lt h

theorem ftTold_state (h : unitMark s x.unit ≠ 0) : (ftTold s x res det).get F.ftCmd_UNIT_STATE = unitMark s x.unit % 16 := by
  unfold ftTold
  rw [State.get_put_bits _ _ _ _ _ _ rfl rfl (.inl (by decide)), State.get_put_same _ _ _ _ rfl, unitState_of_marked h]
  rfl

theorem ftTold_detail (h : det < 65536) : (ftTold s x res det).get F.ftCmd_DETAIL = det :=
  (State.get_put_same _ _ _ _ rfl).trans (Nat.mod_eq_of_lt h)

end

theorem ne_of_mem_swapDropped {s : State} {x y : Swap} (h : y ∈ (swapDropped s x).flt.swaps) : y.unit ≠ x.unit := bne_iff_ne.mp (List.mem_filter.mp h).2

theorem recordsKept_swapDropped (s : State) (x : Swap) : RecordsKept s (swapDropped s x) := ⟨fun _ h => h, id, .inr fun _ h => h⟩

theorem ftFinished_ftFinish (w : State) (x : Swap) {res det : Nat} (hres : res < 16) (hdet : det < 65536) :
    FtFinished w (ftFinish w x res det) x res det := by
  have frame : Frame 73732 (regBits [.evt, .ftCmd]) w (ftFinish w x res det) := (frame_ftFinish ..).mono rfl rfl
  have dropped := recordsKept_swapDropped w x
  cases seq : x.seq with
  | none =>
    have silent : ¬x.seq.isSome = true := by rw [seq]; decide
    rw [ftFinish_of_none seq] at frame ⊢
    exact ⟨dropped, rfl, rfl, rfl, frame, fun _ => ne_of_mem_swapDropped, fun h => absurd h silent, fun h => absurd h silent, fun h => absurd h silent⟩
  | some q =>
    rw [ftFinish_of_some seq] at frame ⊢
    have told := onlyPort_ftTold (swapDropped w x) x res det
    have signalled : Frame 65540 (regBits [.evt]) (ftTold (swapDropped w x) x res det) (ftSignalled (ftTold (swapDropped w x) x res det)) :=
      (frame_signalIf ..).mono rfl rfl
    have after : Aftermath (ftTold (swapDropped w x) x res det) (ftSignalled (ftTold (swapDropped w x) x res det)) := aftermath_signalIf ..
    have flt := (signalled.flt rfl).trans (told.flt rfl)
    refine ⟨(dropped.trans (.of_quiet told rfl)).trans after.toRecordsKept, by rw [flt]; rfl, by rw [flt]; rfl,
      after.coreMap.trans (told.bank_coreMap rfl), frame, fun y hy => ?_, fun _ => (signalled.get F.ftCmd_RESULT rfl 0).trans (ftTold_result _ x hres),
      fun _ marked => (signalled.get F.ftCmd_UNIT_STATE rfl 0).trans (ftTold_state _ x marked),
      fun _ => (signalled.get F.ftCmd_DETAIL rfl 0).trans (ftTold_detail _ x hdet)⟩
    rw [flt] at hy
    exact ne_of_mem_swapDropped hy

/-! A core that rejoins. -/

theorem rejoinCore_flt (s : State) (p : Nat) : (rejoinCore s p).2.flt = (setMark s (unitId 1 p) 0).flt := by
  unfold rejoinCore
  dsimp only
  split
  · rw [(frame_showCoreSpare ..).flt rfl, (frame_showCounts ..).flt rfl, (frame_showCorePos ..).flt rfl, (frame_loseCore ..).flt rfl,
      (frame_setCorePos ..).flt rfl]
  · rw [(frame_showCoreSpare ..).flt rfl, (frame_bankChange ..).flt rfl]

/-- It takes the lowest vacant position … -/
theorem rejoinCore_of_vacant {s : State} {p c : Nat} (vacant : (coresOf (p / 16)).find? (fun k => (corePos s k).isNone) = some c) :
    (rejoinCore s p).1 = c ∧ corePos (rejoinCore s p).2 c = some p
      ∧ (rejoinCore s p).2.isSet F.idCoreMap_VALID c = !downAtStart s (domOfGallery (galleryOfCore c)) := by
  let m := setMark s (unitId 1 p) 0
  let b := loseCore (setCorePos m c (some p)) c
  have rejoined : rejoinCore s p = (c, showCoreSpare (showCounts (showCorePos b c)) (p / 16)) := by
    unfold rejoinCore
    dsimp only
    rw [show (fun c => (corePos (setMark s (unitId 1 p) 0) c).isNone) = fun k => (corePos s k).isNone from rfl, vacant]
  have place : corePos b c = some p := by
    dsimp only [b]
    rw [corePos_congr ((frame_loseCore ..).bank_coreMap rfl), corePos_setCorePos]
  have before : Frame 4128 (regBits [.rbStatus, .coreBinding, .coreGrottoStatus]) m b := ((frame_setCorePos ..).mono rfl rfl).step (frame_loseCore ..) rfl rfl
  have down : downAtStart b (domOfGallery (galleryOfCore c)) = downAtStart m (domOfGallery (galleryOfCore c)) :=
    downAtStart_congr (before.boot rfl) (before.get F.lkBootStatus_STAGE rfl) _ (before.get F.pwrDomStatus_STATE rfl _)
  rw [rejoined]
  refine ⟨rfl, ?_, ?_⟩
  · rw [corePos_congr ((frame_showCoreSpare ..).bank_coreMap rfl), corePos_congr ((frame_showCounts ..).bank_coreMap rfl),
      corePos_congr ((frame_showCorePos ..).bank_coreMap rfl), place]
  · rw [(frame_showCoreSpare ..).isSet F.idCoreMap_VALID rfl c, (frame_showCounts ..).isSet F.idCoreMap_VALID rfl c, (showCorePos_of_placed place).2, down]
    rfl

/-- … or joins the spares. -/
theorem rejoinCore_of_full {s : State} {p : Nat} (full : (coresOf (p / 16)).find? (fun k => (corePos s k).isNone) = none) :
    (rejoinCore s p).1 = 0xFFFF ∧ (rejoinCore s p).2.bank.coreMap = s.bank.coreMap := by
  have rejoined : rejoinCore s p = (0xFFFF, showCoreSpare (bankChange (setMark s (unitId 1 p) 0)) (p / 16)) := by
    unfold rejoinCore
    dsimp only
    rw [show (fun c => (corePos (setMark s (unitId 1 p) 0) c).isNone) = fun k => (corePos s k).isNone from rfl, full]
  rw [rejoined]
  exact ⟨rfl, by rw [(frame_showCoreSpare ..).bank_coreMap rfl, (frame_bankChange ..).bank_coreMap rfl, (frame_setMark ..).bank_coreMap rfl]⟩

section
variable {s : State} {p step : Nat} {x : Swap} (hp : p < 256)
include hp

/-- A core that rejoins, to the lowest vacant position or as a spare. -/
theorem rejoin_core (s : State) : rejoin s (unitId 1 p) = post (rejoinCore s p).2 (unitId 1 p) none 0 0x1002 (rejoinCore s p).1 := by
  unfold rejoin
  rw [unitId_div (by omega), unitId_mod (by omega)]
  rfl

theorem testFails_core (s : State) (step : Nat) :
    testFails s (unitId 1 p) step = post (bankChange ((setMark s (unitId 1 p) 4).bumpSat F.wearCore_BIST_FAILS 1 p)) (unitId 1 p) none 0 0x1003 step := by
  unfold testFails optOut showFail
  rw [unitId_div (by omega), unitId_mod (by omega)]
  rfl

/-- The command's end, where its unit is a core out of place. -/
theorem exec_ftCommandDone (swap : s.flt.swaps.find? (fun y => y.unit == unitId 1 p) = some x) (out : placedCore s p = none)
    (pass : Bool) (step : Nat) (w : State) {res det : Nat} (ends : ftDone s x pass step = ftFinish w x res det) (still : w.flt.waiting = [])
    (hres : res < 16) (hdet : det < 65536) : ∃ v, exec (.ftCommandDone (unitId 1 p) pass step) s = .next v ∧ FtFinished w v x res det := by
  have finished := ftFinished_ftFinish w x hres hdet
  have away : outOfPlace s (unitId 1 p) = true := by
    unfold outOfPlace
    rw [unitId_div (by omega), unitId_mod (by omega)]
    dsimp only
    rw [out]
    rfl
  refine ⟨ftFinish w x res det, ?_, finished⟩
  have run : exec (.ftCommandDone (unitId 1 p) pass step) s = ok (nextSwap (ftDone s x pass step) (groupOf (unitId 1 p))) := by
    change execFtCommandDone (unitId 1 p) pass step s = _
    rw [execFtCommandDone, swap]
    exact if_pos away
  rw [run, ends, nextSwap_of_none (finished.waiting.trans still)]

end

theorem unit_of_found {s : State} {u : Nat} {x : Swap} (h : s.flt.swaps.find? (fun y => y.unit == u) = some x) : x.unit = u := by
  have found := List.find?_some h
  simpa using found

section
variable {s : State} {p step : Nat} {x : Swap} (hp : p < 256) (waits : s.flt.waiting = [])
  (swap : s.flt.swaps.find? (fun y => y.unit == unitId 1 p) = some x) (out : placedCore s p = none)
include hp waits swap out

/-- REPLACE and BYPASS are done. -/
theorem gives_ftCommandDone_out (pass : Bool) (step : Nat) (hop : x.op = 1 ∨ x.op = 2) :
    Gives (.ftCommandDone (unitId 1 p) pass step) s (fun v => unitMark v (unitId 1 p) = afterSwap x.op
      ∧ (x.seq.isSome = true → v.get F.ftCmd_RESULT = 0 ∧ v.get F.ftCmd_UNIT_STATE = afterSwap x.op) ∧ ∀ y ∈ v.flt.swaps, y.unit ≠ unitId 1 p) := by
  have unit := unit_of_found swap
  have ends : ftDone s x pass step = ftFinish (setMark s (unitId 1 p) (afterSwap x.op)) x 0 0 := by
    unfold ftDone
    dsimp only
    rw [unit, unitId_div (by omega)]
    exact (if_neg (by decide)).trans (if_pos hop)
  obtain ⟨v, run, fin⟩ := exec_ftCommandDone hp swap out pass step _ ends waits (by decide) (by decide)
  have mark : unitMark (setMark s (unitId 1 p) (afterSwap x.op)) x.unit = afterSwap x.op := by rw [unit, unitMark_setMark_same]
  have small : afterSwap x.op ≠ 0 ∧ afterSwap x.op < 16 := by rcases hop with e | e <;> rw [e] <;> decide
  refine ⟨v, run, ?_, fun asked => ⟨fin.result asked, ?_⟩, unit ▸ fin.swaps⟩
  · rw [unitMark_congr fin.unit, unitMark_setMark_same]
  · rw [fin.state asked (by rw [mark]; exact small.1), mark, Nat.mod_eq_of_lt small.2]

/-- A test fails: the unit is FAILED, and the step is told. -/
theorem gives_ftCommandDone_fail (hop : x.op = 0 ∨ x.op = 3) (hstep : step < 65536) :
    Gives (.ftCommandDone (unitId 1 p) false step) s (fun v => unitMark v (unitId 1 p) = 4
      ∧ v.get F.wearCore_BIST_FAILS p = min (s.get F.wearCore_BIST_FAILS p + 1) 255 ∧ (x.seq.isSome = true → v.get F.ftCmd_RESULT = 6 ∧ v.get F.ftCmd_DETAIL = step)
      ∧ (∀ y ∈ v.flt.swaps, y.unit ≠ unitId 1 p) ∧ v.bank.coreMap = s.bank.coreMap ∧ Posts s v (unitId 1 p) none 0 0x1003 step) := by
  have unit := unit_of_found swap
  let b := bankChange ((setMark s (unitId 1 p) 4).bumpSat F.wearCore_BIST_FAILS 1 p)
  have ends : ftDone s x false step = ftFinish (post b (unitId 1 p) none 0 0x1003 step) x 6 step := by
    unfold ftDone
    dsimp only
    rw [unit, unitId_div (by omega), testFails_core hp]
    exact (if_neg (by decide)).trans (if_neg (by omega))
  have flt : b.flt = (setMark s (unitId 1 p) 4).flt := by
    dsimp only [b]
    rw [(frame_bankChange ..).flt rfl, State.bumpSat_flt]
  have posted := aftermath_post b (unitId 1 p) none 0x1003 step (cls := 0) (by decide)
  have quiet : (post b (unitId 1 p) none 0 0x1003 step).flt.waiting = [] := by
    rw [posted.waiting, flt]
    exact waits
  obtain ⟨v, run, fin⟩ := exec_ftCommandDone hp swap out false step _ ends quiet (by decide) hstep
  refine ⟨v, run, ?_, ?_, fun asked => ⟨fin.result asked, fin.detail asked⟩, unit ▸ fin.swaps, ?_, ?_⟩
  · rw [unitMark_congr fin.unit, posted.unitMark, unitMark_congr (congrArg FaultState.unit flt), unitMark_setMark_same]
  · rw [fin.frame.get F.wearCore_BIST_FAILS rfl p, (frame_post ..).get F.wearCore_BIST_FAILS rfl p, (frame_bankChange ..).get F.wearCore_BIST_FAILS rfl p,
      State.get_bumpSat_same _ _ _ _ rfl, (frame_setMark ..).get F.wearCore_BIST_FAILS rfl p]
    rfl
  · rw [fin.coreMap, posted.coreMap]
    dsimp only [b]
    rw [(frame_bankChange ..).bank_coreMap rfl, State.bumpSat_bank_coreMap, (frame_setMark ..).bank_coreMap rfl]
  · have record : Posts b (post b (unitId 1 p) none 0 0x1003 step) (unitId 1 p) none 0 0x1003 step := posts_post_small _ _ _ _ _ (by omega)
    exact (record.from (by rw [flt, setMark])).later fin.kept

/-- A test passes: the core rejoins. -/
theorem gives_ftCommandDone_pass (step : Nat) (hop : x.op = 0 ∨ x.op = 3) :
    Gives (.ftCommandDone (unitId 1 p) true step) s (fun v => unitMark v (unitId 1 p) = 0 ∧ (x.seq.isSome = true → v.get F.ftCmd_RESULT = 0)
      ∧ (∀ y ∈ v.flt.swaps, y.unit ≠ unitId 1 p)
      ∧ (∀ c, (coresOf (p / 16)).find? (fun k => (corePos s k).isNone) = some c → corePos v c = some p
        ∧ v.isSet F.idCoreMap_VALID c = !downAtStart s (domOfGallery (galleryOfCore c)) ∧ Posts s v (unitId 1 p) none 0 0x1002 c)
      ∧ ((coresOf (p / 16)).find? (fun k => (corePos s k).isNone) = none → v.bank.coreMap = s.bank.coreMap ∧ Posts s v (unitId 1 p) none 0 0x1002 0xFFFF)) := by
  have unit := unit_of_found swap
  let r := rejoinCore s p
  have ends : ftDone s x true step = ftFinish (post r.2 (unitId 1 p) none 0 0x1002 r.1) x 0 0 := by
    unfold ftDone
    dsimp only
    rw [unit, unitId_div (by omega), rejoin_core hp]
    exact (if_neg (by decide)).trans ((if_neg (by omega)).trans ((if_neg (by simp)).trans (if_pos rfl)))
  have flt : r.2.flt = (setMark s (unitId 1 p) 0).flt := rejoinCore_flt s p
  have posted := aftermath_post r.2 (unitId 1 p) none 0x1002 r.1 (cls := 0) (by decide)
  have quiet : (post r.2 (unitId 1 p) none 0 0x1002 r.1).flt.waiting = [] := by
    rw [posted.waiting, flt]
    exact waits
  obtain ⟨v, run, fin⟩ := exec_ftCommandDone hp swap out true step _ ends quiet (by decide) (by decide)
  have record {c : Nat} (hc : r.1 = c) (small : c < 2 ^ 64) : Posts s v (unitId 1 p) none 0 0x1002 c := by
    have own : Posts r.2 (post r.2 (unitId 1 p) none 0 0x1002 r.1) (unitId 1 p) none 0 0x1002 c := by
      rw [hc]
      exact posts_post_small _ _ _ _ _ small
    exact (own.from (by rw [flt, setMark])).later fin.kept
  have map : v.bank.coreMap = r.2.bank.coreMap := fin.coreMap.trans posted.coreMap
  refine ⟨v, run, ?_, fin.result, unit ▸ fin.swaps, fun c vacant => ?_, fun full => ?_⟩
  · rw [unitMark_congr fin.unit, posted.unitMark, unitMark_congr (congrArg FaultState.unit flt), unitMark_setMark_same]
  · obtain ⟨position, place, valid⟩ := rejoinCore_of_vacant vacant
    have small : c < 2 ^ 64 := by
      have mem := List.mem_of_find?_eq_some vacant
      simp only [coresOf, tabulate, List.mem_map, List.mem_range] at mem
      omega
    refine ⟨(corePos_congr map c).trans place, ?_, record position small⟩
    rw [fin.frame.isSet F.idCoreMap_VALID rfl c, (frame_post ..).isSet F.idCoreMap_VALID rfl c]
    exact valid
  · obtain ⟨position, same⟩ := rejoinCore_of_full full
    exact ⟨map.trans same, record position (by decide)⟩

end

/-! The refusals and QUERY, and the statement. -/

section
variable {s w : State} {u op : Nat} {force : Bool} {seq : Option Nat}

theorem ftRun_bad_unit (kind : ftKind u op = false) : ftRun w u op force seq = (2, w) := by
  rw [ftRun, kind]
  rfl

theorem ftRun_query (kind : ftKind u op = true) (hop : op = 4) : ftRun w u op force seq = (0, w) := by
  rw [ftRun, kind, if_neg (by decide), if_pos hop]

theorem ftRun_busy (kind : ftKind u op = true) (hop : op ≠ 4) (only : OnlyPort s w) (busy : groupBusy s (groupOf u) = true) :
    ftRun w u op force seq = (5, w) := by
  rw [ftRun, kind, if_neg (by decide), if_neg hop, only.groupBusy, if_pos busy]

theorem ftRun_bad_state (kind : ftKind u op = true) (hop : op ≠ 4) (only : OnlyPort s w) (idle : groupBusy s (groupOf u) = false)
    (state : ftState s u op = false) : ftRun w u op force seq = (3, w) := by
  rw [ftRun, kind, if_neg (by decide), if_neg hop, only.groupBusy, idle, if_neg (by decide), only.ftState, state]
  rfl

end

/-- Settles O59, by the port's checks in their order (R519), then what each operation leaves of its unit, its swap and its record: the answer is
written after them and shows in FT_CMD alone; a draining, a joining and a test's end are followed through the map, the marks and the records, which
the steps after them keep. -/
theorem fieldTestsMoveTheUnits : Obligations.FieldTestsMoveTheUnits := by
  unfold Obligations.FieldTestsMoveTheUnits
  refine ⟨fun u seq s h => ⟨fun op i hi => ⟨fun kind => ?_, fun kind hop => ?_, fun kind hop busy => ?_, fun kind hop idle state => ?_⟩, gives_ftReturn h, ?_⟩,
    fun p n q seq s => gives_ftReplace_slice, fun n s small => ⟨gives_sliceDrainDone small, gives_sliceJoin small⟩,
    fun p step s x hp waits swap out small => ⟨fun pass => gives_ftCommandDone_out hp waits swap out pass step,
      fun hop => ⟨gives_ftCommandDone_pass hp waits swap out step hop, gives_ftCommandDone_fail hp waits swap out hop small⟩⟩⟩
  · exact gives_ftCommand_refused h hi (by decide) (fun _ _ _ _ => ftRun_bad_unit kind)
  · exact gives_ftCommand_refused h hi (by decide) (fun _ _ _ _ => ftRun_query kind hop)
  · exact gives_ftCommand_refused h hi (by decide) (fun _ _ only _ => ftRun_busy kind hop only busy)
  · exact gives_ftCommand_refused h hi (by decide) (fun _ _ only _ => ftRun_bad_state kind hop only idle state)
  · rintro p c rfl hp place idle
    exact ⟨fun op i hi hop state runs q spare => gives_ft_core_drains h hp place idle hi hop state runs spare,
      fun op i hi hop state still q spare => gives_ft_core_moves h hp place idle hi hop state still spare,
      gives_ftReplace_core_without_spare h hp place idle, gives_ftBypass_core h hp place idle, gives_ftBypass_core_busy h hp place idle⟩

end Sys2Proof.Proofs
end

section
/-! Device-fatal errors (R469, R506): FATAL_CODE takes the code of the first, and the function is not ready. -/

namespace Sys2Proof.Proofs

open Sys2Proof.Machine Sys2Proof.Claims Sys2Proof.Laws

/-! What stops with a domain or a port. -/

section
variable (s : State)

theorem aftermath_resetSailings (reason : Nat) : Aftermath s (resetSailings s reason) :=
  (Aftermath.foldl (fun t n => aftermath_fabSend t 240 (mkPacket [(7, 0, tNodeReset), (31, 16, n), (47, 32, thisNode t)]) []) _ s).trans
    (.foldl (fun t f => aftermath_abortFerry t f reason) _ _)

theorem aftermath_cutSailing (x : Sailing) : Aftermath s (cutSailing s x) := by
  unfold cutSailing
  refine .ite (fun _ => .ite (fun _ => aftermath_abortSailing ..) (fun _ => ?_)) (fun _ => .refl s)
  exact .trans (.of_calm (frame_updSailing ..) rfl) (.of_calm (frame_ferryShow ..) rfl)

theorem aftermath_runLost (p : Packet) : Aftermath s (runLost s p) := by
  unfold runLost
  split
  · exact .ite (fun _ => aftermath_cutSailing ..) (fun _ => .refl s)
  · exact .refl s

theorem aftermath_fab (x : Fabric) : Aftermath s { s with fab := x } := .of_update rfl rfl rfl rfl rfl (jobs_of_eng rfl)

theorem aftermath_peerWriteLost (x : PeerReq) : Aftermath s (peerWriteLost s x) := (aftermath_fab s _).trans (aftermath_contained ..)

theorem aftermath_packetLost (p : Nat) (k : SentPkt) : Aftermath s (packetLost p s k) := by
  unfold packetLost
  refine .ite (fun _ => ?_) (fun _ => .ite (fun _ => aftermath_runLost ..) (fun _ => .refl s))
  split
  · exact .ite (fun _ => aftermath_peerWriteLost ..) (fun _ => .refl s)
  · exact .refl s

theorem aftermath_losePackets (p : Nat) : Aftermath s (losePackets s p) :=
  .trans (.of_calm (frame_setPort ..) rfl) (.foldl (fun t k => aftermath_packetLost t p k) _ _)

theorem aftermath_resumePkt (p : Nat) (k : SentPkt) : Aftermath s (resumePkt p s k) := by
  unfold resumePkt
  exact .ite (fun _ => aftermath_packetLost ..) (fun _ => aftermath_fabSend ..)

theorem aftermath_resumeHeld (p : Nat) : Aftermath s (resumeHeld s p) :=
  (aftermath_fab s _).trans (.foldl (fun t k => aftermath_resumePkt t p k) _ _)

theorem aftermath_portDown (p : Nat) : Aftermath s (portDown s p) := by
  unfold portDown
  refine .trans (.trans ?_ (aftermath_losePackets ..)) (aftermath_resumeHeld ..)
  exact .trans (.trans (.of_calm (frame_setPortState ..) rfl) (.of_calm (frame_setLanes ..) rfl)) (.of_calm (frame_restLink ..) rfl)

theorem aftermath_domainLost (d : Nat) : Aftermath s (domainLost s d) := by
  unfold domainLost
  refine .ite (fun _ => .ite (fun _ => ?_) (fun _ => .ite (fun _ => ?_) (fun _ => .refl s))) (fun _ => ?_)
  · exact .foldl (fun t c => .of_calm (frame_loseCore t c) rfl) _ s
  · exact .foldl (fun t n => .of_calm (frame_loseSlice t n) rfl) _ s
  · exact .trans (.ite (fun _ => .refl s) (fun _ => .of_calm (frame_dropRetunes ..) rfl)) (.foldl aftermath_portDown _ _)

theorem aftermath_powerOff (n : Nat) : Aftermath s (powerOff s n) :=
  .foldl (fun t d => .trans (.of_calm (frame_setDomain t d 3) rfl) (aftermath_domainLost ..)) _ s

/-- The stop's stage and code shown, and the attempts forgotten. -/
def stopShown (code : Nat) : State :=
  let w := ((powerOff s 39).put F.lkBootStatus_STAGE 7).put F.lkBootStatus_STOP_CODE code
  if code = 6 then w else clearAttempts w

theorem frame_stopShown (code : Nat) : Frame 0 (regBits [.lkBootStatus, .rbStatus, .rbBoot]) (powerOff s 39) (stopShown s code) := by
  have shown : Frame 0 (regBits [.lkBootStatus, .rbStatus, .rbBoot]) (powerOff s 39)
      (((powerOff s 39).put F.lkBootStatus_STAGE 7).put F.lkBootStatus_STOP_CODE code) := ((Frame.refl _ _ _).put rfl).put rfl
  exact .ite (fun _ => shown) (fun _ => shown.step (frame_clearAttempts ..) rfl rfl)

theorem get_startStop {f : Fld} (ready : f.reg ≠ .hostStatus) (node : f.reg ≠ .fabNode) (hist : f.reg ≠ .rbStatus) (code : Nat) :
    (startStop s code).get f = (stopShown s code).get f := by
  unfold startStop
  rw [(frame_histStop ..).get f ?_ 0, State.get_put_reg _ _ _ _ _ _ node, State.get_put_reg _ _ _ _ _ _ ready]
  · rfl
  · revert hist
    cases f.reg <;> decide

theorem fatalCode_startStop (code : Nat) : (startStop s code).get F.faultStatus_FATAL_CODE = s.get F.faultStatus_FATAL_CODE := by
  rw [get_startStop s (by decide) (by decide) (by decide), (frame_stopShown ..).get F.faultStatus_FATAL_CODE rfl 0]
  exact (aftermath_powerOff s 39).fatalCode

theorem ready_startStop (code : Nat) : (startStop s code).ready = false := by
  unfold startStop
  rw [State.ready, (frame_histStop ..).isSet F.hostStatus_READY rfl 0, State.isSet, State.get_put_reg _ _ _ _ _ _ (by decide), ← State.isSet,
    isSet_put_zero _ 0 rfl]

end

/-! The record. -/

theorem fatalCode_countRecord {s : State} (clear : s.get F.faultStatus_FATAL_CODE = 0) {r : SumpRec} (fatal : r.cls = 3) :
    (countRecord s r).get F.faultStatus_FATAL_CODE = r.code % 65536 := by
  have marked : ((({ s with flt := { s.flt with seq := r.seq } } : State).bump F.faultCount_COUNT 1 r.cls).put (classBit r.cls) 1).get
      F.faultStatus_FATAL_CODE = 0 := by
    rw [fatal, State.get_put_bits _ _ _ _ _ _ rfl rfl (.inr (by decide)), State.bump, State.get_put_reg _ _ _ _ _ _ (by decide)]
    exact clear
  have once : (counted s r).get F.faultStatus_FATAL_CODE = r.code % 65536 := by
    unfold counted
    dsimp only
    rw [marked, fatal, if_pos (by decide), State.get_put_same _ _ _ _ rfl]
    rfl
  rw [countRecord_eq]
  split
  · rw [(frame_histAdd ..).get F.faultStatus_FATAL_CODE rfl 0, once]
  · exact once

/-- The first device-fatal record gives FATAL_CODE (R506). -/
theorem fatalCode_post {s : State} (clear : s.get F.faultStatus_FATAL_CODE = 0) (unit : Nat) (ctx : Option Nat) {code : Nat} (extra : Nat)
    (small : code < 65536) : (post s unit ctx 3 code extra).get F.faultStatus_FATAL_CODE = code := by
  have own : (sumpDeliver (countRecord s (newRecord s unit ctx 3 code extra)) (newRecord s unit ctx 3 code extra)).get F.faultStatus_FATAL_CODE = code := by
    rw [(frame_sumpDeliver ..).get F.faultStatus_FATAL_CODE rfl 0, fatalCode_countRecord clear rfl]
    exact Nat.mod_eq_of_lt small
  unfold post
  dsimp only
  split
  · rw [postOverflow, (frame_sumpDeliver ..).get F.faultStatus_FATAL_CODE rfl 0, get_countRecord rfl rfl (by decide) _ (.inr (by decide : (0 : Nat) ≠ 3)), own]
  · exact own

/-- A device-fatal error while the part runs. -/
theorem deviceFatal_shows {s : State} (clear : s.get F.faultStatus_FATAL_CODE = 0) (unit : Nat) {code : Nat} (extra : Nat) (small : code < 65536) :
    (deviceFatal s unit code extra).get F.faultStatus_FATAL_CODE = code ∧ (deviceFatal s unit code extra).ready = false := by
  let a := (liveContexts (resetSailings s 0x28)).foldl (fun s c => endContext s c none 0x28) (resetSailings s 0x28)
  let b := (a.put F.hostStatus_READY 0).put F.fabNode_READY 0
  have ended : Aftermath s a := (aftermath_resetSailings s 0x28).trans (.foldl (fun t c => aftermath_endContext t c none 0x28) _ _)
  have still : b.get F.faultStatus_FATAL_CODE = 0 := by
    dsimp only [b]
    rw [State.get_put_reg _ _ _ _ _ _ (by decide), State.get_put_reg _ _ _ _ _ _ (by decide)]
    exact ended.fatalCode.trans clear
  have off : b.isSet F.hostStatus_READY = false := by
    dsimp only [b]
    rw [State.isSet, State.get_put_reg _ _ _ _ _ _ (by decide), ← State.isSet, isSet_put_zero _ 0 rfl]
  have signalled (t : State) (en : Bool) (n : Nat) : (signalIf t en n).get F.faultStatus_FATAL_CODE = t.get F.faultStatus_FATAL_CODE :=
    (frame_signalIf t en n).get F.faultStatus_FATAL_CODE rfl 0
  constructor
  · exact (signalled _ _ _).trans (fatalCode_post still unit none extra small)
  · exact ((frame_signalIf ..).isSet F.hostStatus_READY rfl 0).trans (((frame_post b unit none 3 code extra).isSet F.hostStatus_READY rfl 0).trans off)

/-- Any device-fatal error, by the stage of the start. -/
theorem fatal_shows {s : State} (clear : s.get F.faultStatus_FATAL_CODE = 0) (unit : Nat) {code : Nat} (extra : Nat) (small : code < 65536) :
    (fatal s unit code extra).get F.faultStatus_FATAL_CODE = code ∧ (fatal s unit code extra).ready = (s.ready && decide (6 < stage s)) := by
  have posted := fatalCode_post clear unit none extra small
  unfold fatal
  rcases Nat.lt_trichotomy (s.get F.lkBootStatus_STAGE) 6 with starting | running | stopped
  · rw [if_pos starting, show decide (6 < stage s) = false from decide_eq_false (by unfold stage; omega), Bool.and_false]
    exact ⟨(fatalCode_startStop ..).trans posted, ready_startStop ..⟩
  · rw [if_neg (by omega), if_pos running, show decide (6 < stage s) = false from decide_eq_false (by unfold stage; omega), Bool.and_false]
    exact deviceFatal_shows clear unit extra small
  · rw [if_neg (by omega), if_neg (by omega), show decide (6 < stage s) = true from decide_eq_true stopped, Bool.and_true]
    exact ⟨posted, (frame_post ..).isSet F.hostStatus_READY rfl 0⟩

end Sys2Proof.Proofs
end

section
/-! Errors of slices (R272 to R274, R528, R529). -/

namespace Sys2Proof.Proofs

open Sys2Proof.Machine Sys2Proof.Claims Sys2Proof.Laws

/-! Lists. -/

theorem find?_updWhere {α : Type} {p : α → Bool} {f : α → α} (hf : ∀ x, p x = true → p (f x) = true) (l : List α) :
    (updWhere l p f).find? p = (l.find? p).map f := by
  induction l with
  | nil => rfl
  | cons x l ih =>
    by_cases h : p x = true
    · simp [updWhere, h, hf x h]
    · have rest : (updWhere (x :: l) p f).find? p = (updWhere l p f).find? p := by simp [updWhere, h]
      rw [rest, ih, List.find?_cons_of_neg h]

theorem getElem?_setNth {α : Type} {l : List α} {i : Nat} (h : i < l.length) (v : α) : (setNth l i v)[i]? = some v := by
  induction l generalizing i with
  | nil => exact absurd h (Nat.not_lt_zero _)
  | cons x l ih =>
    cases i with
    | zero => rfl
    | succ i => exact ih (Nat.lt_of_succ_lt_succ h)

/-! The host link under a record: only the pending MSI-X bits change. -/

/-- The link without its pending bits. -/
def linkRest (h : HostLink) : HostLink := { h with pba := [] }

theorem linkRest_msixSend (s : State) (v : Nat) : linkRest (msixSend s v).hl = linkRest s.hl := by
  unfold msixSend
  split <;> rfl

theorem linkRest_signalIf (s : State) (en : Bool) (n : Nat) : linkRest (signalIf s en n).hl = linkRest s.hl := by
  cases en
  · rfl
  · show linkRest (signal s n).hl = _
    simp only [signal]
    split
    · rw [State.bump_hl]
    · split
      · rw [linkRest_msixSend, State.put_hl, State.bump_hl]
      · rw [State.put_hl, State.bump_hl]

theorem linkRest_sumpDeliver (s : State) (r : SumpRec) : linkRest (sumpDeliver s r).hl = linkRest s.hl := by
  have host (t : State) (a : Nat) (bs : List Byte) : (hostWrite t a bs).hl = t.hl := (frame_hostWrite ..).hl rfl
  unfold sumpDeliver
  split
  · simp only [sumpWrite, linkRest_signalIf]
    split
    · rw [host, State.bump_hl, host]
    · rw [State.bump_hl, host]
  · rw [(frame_sumpHold ..).hl rfl]

theorem linkRest_post (s : State) (unit : Nat) (ctx : Option Nat) (cls code extra : Nat) : linkRest (post s unit ctx cls code extra).hl = linkRest s.hl := by
  have step (t : State) (r : SumpRec) : linkRest (sumpDeliver (countRecord t r) r).hl = linkRest t.hl := by
    rw [linkRest_sumpDeliver, (frame_countRecord ..).hl rfl]
  unfold post
  dsimp only
  split
  · rw [postOverflow, step, step]
  · exact step _ _

theorem lines_post (s : State) (unit : Nat) (ctx : Option Nat) (cls code extra : Nat) : (post s unit ctx cls code extra).hl.lines = s.hl.lines := by
  have e := congrArg HostLink.lines (linkRest_post s unit ctx cls code extra)
  exact e

theorem creq_post (s : State) (unit : Nat) (ctx : Option Nat) (cls code extra : Nat) : (post s unit ctx cls code extra).hl.creq = s.hl.creq := by
  have e := congrArg HostLink.creq (linkRest_post s unit ctx cls code extra)
  exact e

/-! A slice taken out by a test or a replacement. -/

/-- What that keeps: the records, and the slices' counts of corrected errors. -/
structure SliceKept (s t : State) : Prop extends RecordsKept s t where
  corrected : ∀ n, t.get F.cavSliceStatus_CE_COUNT n = s.get F.cavSliceStatus_CE_COUNT n

theorem SliceKept.refl (s : State) : SliceKept s s := ⟨.refl s, fun _ => rfl⟩

theorem SliceKept.trans {s t u : State} (h : SliceKept s t) (g : SliceKept t u) : SliceKept s u :=
  ⟨h.toRecordsKept.trans g.toRecordsKept, fun n => (g.corrected n).trans (h.corrected n)⟩

theorem SliceKept.of_records {ps rs : Nat} {s t : State} (h : Frame ps rs s t) (hm : rs.testBit RegId.cavSliceStatus.ctorIdx = false)
    (kept : RecordsKept s t) : SliceKept s t := ⟨kept, fun n => h.get F.cavSliceStatus_CE_COUNT hm n⟩

section
variable (s : State)

theorem sliceKept_setMark (u m : Nat) : SliceKept s (setMark s u m) := .of_records (frame_setMark ..) rfl (recordsKept_setMark ..)

theorem sliceKept_accepted (u op : Nat) (spare seq : Option Nat) : SliceKept s (accepted s u op spare seq) :=
  .of_records (frame_accepted ..) rfl (recordsKept_accepted ..)

theorem sliceKept_post (unit : Nat) (ctx : Option Nat) (cls code extra : Nat) : SliceKept s (post s unit ctx cls code extra) :=
  .of_records (frame_post ..) rfl (recordsKept_post ..)

theorem hlEvict_posted (l : HostLine) : (hlEvict s l).out.posted = s.out.posted := by
  simp only [hlEvict]
  split <;> rfl

theorem sliceKept_drainSliceOf (n : Nat) : SliceKept s (drainSliceOf s n) := by
  have shown : SliceKept s (s.put F.cavSliceStatus_STATE 1 n) := by
    refine ⟨.of_quiet ((Frame.refl 0 (regBits [.cavSliceStatus]) s).put rfl) rfl, fun k => ?_⟩
    exact State.get_put_bits _ _ _ _ _ _ rfl rfl (.inr (by decide))
  have posted : (hlDrain (s.put F.cavSliceStatus_STATE 1 n) n).out.posted = (s.put F.cavSliceStatus_STATE 1 n).out.posted :=
    foldl_keeps (fun s => s.out.posted) hlEvict_posted _ _
  have drain := frame_hlDrain (s.put F.cavSliceStatus_STATE 1 n) n
  exact shown.trans (.of_records drain rfl (.of_frame drain rfl (by rw [drainSliceOf, drain.flt rfl]) posted))

theorem sliceKept_takeSlice (p op : Nat) (out : Bool) (seq : Option Nat) : SliceKept s (takeSlice s p op out seq).2 := by
  have draining (spare : Option Nat) (n : Nat) :
      SliceKept s (drainSliceOf (accepted (setMark s (unitId 3 p) 2) (unitId 3 p) op spare seq) n) :=
    ((sliceKept_setMark s _ _).trans (sliceKept_accepted ..)).trans (sliceKept_drainSliceOf ..)
  unfold takeSlice
  dsimp only
  split
  · split
    · exact .refl s
    · exact ((sliceKept_setMark s _ _).trans (sliceKept_accepted ..)).trans (.of_records (frame_showSliceSpare ..) rfl (.of_quiet (frame_showSliceSpare ..) rfl))
  · split
    · exact .refl s
    · split
      · exact draining ..
      · split
        · exact draining ..
        · exact .refl s

variable {u : Nat} (hu : u / 4096 = 3)
include hu

theorem sliceKept_takeUnit (op : Nat) (out : Bool) (seq : Option Nat) : SliceKept s (takeUnit s u op out seq).2 := by
  unfold takeUnit
  rw [hu]
  exact sliceKept_takeSlice ..

theorem sliceKept_autoTest (why : Nat) : SliceKept s (autoTest s u why) := by
  have noticed : SliceKept s (post s u none 0 0x1042 why) := sliceKept_post ..
  unfold autoTest
  split
  · dsimp only
    rw [hu, if_neg (show ¬(3 : Nat) = 1 by decide)]
    split
    · exact noticed.trans (sliceKept_takeUnit _ hu ..)
    · exact noticed
  · exact .refl s

theorem sliceKept_replaceSlice : SliceKept s (replaceSlice s u) := by
  unfold replaceSlice
  dsimp only
  split
  · exact .refl s
  · split
    · exact ⟨⟨fun _ h => h, id, .inr fun _ h => h⟩, fun _ => rfl⟩
    · exact sliceKept_takeUnit _ hu ..

end

theorem sliceUnit_div (s : State) (n : Nat) : sliceUnit s n / 4096 = 3 := by
  have small : s.get F.idSliceMap_PHYS_SLICE n < 512 := bitsOf_lt ..
  exact unitId_div (by omega)

/-! Corrected errors (R272). -/

theorem sliceCorrected_shows {s : State} {n pa : Nat} (h : atSlice s n pa = true) :
    (sliceCorrected s n pa).get F.cavSliceStatus_CE_COUNT n = min (s.get F.cavSliceStatus_CE_COUNT n + 1) (2 ^ 16 - 1)
      ∧ Posts s (sliceCorrected s n pa) (sliceUnit s n) none 0 0x0311 (pa / 64 * 64 % 2 ^ 64) := by
  let b := bankChange ((s.bumpSat F.cavSliceStatus_CE_COUNT 1 n).bumpSat F.wearSlice_CE_TOTAL 1 (sliceUnit s n % 4096))
  let w := post b (sliceUnit s n) none 0 0x0311 (pa / 64 * 64)
  have counted : w.get F.cavSliceStatus_CE_COUNT n = min (s.get F.cavSliceStatus_CE_COUNT n + 1) (2 ^ 16 - 1) := by
    rw [(frame_post ..).get F.cavSliceStatus_CE_COUNT rfl n, (frame_bankChange ..).get F.cavSliceStatus_CE_COUNT rfl n, State.bumpSat,
      State.get_put_reg _ _ _ _ _ _ (by decide), State.get_bumpSat_same _ _ _ _ rfl]
    rfl
  have seq : b.flt.seq = s.flt.seq := by rw [(frame_bankChange ..).flt rfl, State.bumpSat_flt, State.bumpSat_flt]
  have posted : Posts s w (sliceUnit s n) none 0 0x0311 (pa / 64 * 64 % 2 ^ 64) := (posts_post ..).from seq
  have hour (ce : SMap (List Nat)) : SliceKept w { w with flt := { w.flt with ce := ce } } := ⟨⟨fun _ h => h, id, .inr fun _ h => h⟩, fun _ => rfl⟩
  have rest : SliceKept w (sliceCorrected s n pa) := by
    unfold sliceCorrected
    rw [if_pos h]
    dsimp only
    split
    · exact (hour _).trans (sliceKept_autoTest _ (sliceUnit_div s n) 2)
    · exact hour _
  exact ⟨(rest.corrected n).trans counted, posted.later rest.toRecordsKept⟩

/-! Uncorrectable errors of sectors (R273). -/

theorem ueCount_sliceUncounted (s : State) (n u : Nat) :
    (sliceUncounted s n u).get F.cavSliceStatus_UE_COUNT n = min (s.get F.cavSliceStatus_UE_COUNT n + 1) 255 := by
  rw [sliceUncounted, (frame_bankChange ..).get F.cavSliceStatus_UE_COUNT rfl n, State.bumpSat, State.get_put_reg _ _ _ _ _ _ (by decide),
    State.get_bumpSat_same _ _ _ _ rfl]
  rfl

theorem ueCount_setCavern (s : State) (k : Nat) (ls : List CavLine) (n : Nat) :
    (setCavern s k ls).get F.cavSliceStatus_UE_COUNT n = s.get F.cavSliceStatus_UE_COUNT n := by
  rw [setCavern, cavCount, State.get_put_bits _ _ _ _ _ _ rfl rfl (.inr (by decide))]
  rfl

theorem ueCount_cavEvict (n : Nat) (s : State) (l : CavLine) : (cavEvict s l).get F.cavSliceStatus_UE_COUNT n = s.get F.cavSliceStatus_UE_COUNT n := by
  rw [cavEvict, ueCount_setCavern, (frame_cavWriteBack ..).get F.cavSliceStatus_UE_COUNT rfl n]

theorem ueCount_cavUpdate (s : State) (l : CavLine) (n : Nat) : (cavUpdate s l).get F.cavSliceStatus_UE_COUNT n = s.get F.cavSliceStatus_UE_COUNT n := by
  have evicted (ls : List CavLine) (t : State) : (ls.foldl cavEvict t).get F.cavSliceStatus_UE_COUNT n = t.get F.cavSliceStatus_UE_COUNT n :=
    foldl_keeps (fun s => s.get F.cavSliceStatus_UE_COUNT n) (ueCount_cavEvict n) _ _
  unfold cavUpdate
  rw [ueCount_setCavern]
  dsimp only
  split
  · rw [evicted]
    split
    · exact State.get_put_bits _ _ _ _ _ _ rfl rfl (.inl (by decide))
    · rfl
  · rfl

/-- A line of the slice changed is found as it was stored. -/
theorem secs_cavUpdate {s : State} {l : CavLine} {pa : Nat} (held : ∃ x ∈ s.mem.cavern, x.line = pa / 256) (line : l.line = pa / 256) :
    ∃ x, cavFind (cavUpdate s l) pa = some x ∧ x.secs = l.secs := by
  have evicted (t : State) (same : t.mem.cavern = s.mem.cavern) (q : CavLine → Bool) :
      ∃ x ∈ (((s.mem.cavern.filter q).filter (fun x => x.line != l.line)).foldl cavEvict t).mem.cavern, x.line = pa / 256 := by
    obtain ⟨x, mem, at'⟩ := held
    refine ⟨x, mem_cavern_evicted.mpr ⟨by rwa [same], fun y hy e => ?_⟩, at'⟩
    exact bne_iff_ne.mp (List.mem_filter.mp hy).2 (e.symm.trans (at'.trans line.symm))
  have found (ls : List CavLine) (comp : Bool) (used : Nat) (h : ∃ x ∈ ls, x.line = pa / 256) :
      (updWhere ls (fun x => x.line == l.line) (fun _ => { l with comp := comp, used := used })).find? (fun x => x.line == pa / 256)
        = some { l with comp := comp, used := used } := by
    rw [← line] at h ⊢
    rw [find?_updWhere (p := fun x : CavLine => x.line == l.line) (f := fun _ => { l with comp := comp, used := used }) (fun _ _ => beq_self_eq_true l.line)]
    obtain ⟨x, hx⟩ := Option.isSome_iff_exists.mp (List.find?_isSome.mpr (h.imp (fun x hx => ⟨hx.1, beq_iff_eq.mpr hx.2⟩)))
    rw [hx]
    rfl
  unfold cavUpdate cavFind
  simp only [setCavern_cavern]
  refine ⟨_, found _ _ _ ?_, rfl⟩
  split
  · exact evicted _ (by split <;> simp) _
  · exact held

theorem chanSector_of_frame {rs : Nat} {s t : State} (h : Frame 0 rs s t)
    (hm : (!rs.testBit RegId.dramChanStatus.ctorIdx && !rs.testBit RegId.cavHashKey.ctorIdx) = true) (key pa : Nat) :
    chanSector t key pa = chanSector s key pa := by
  simp only [Bool.and_eq_true, Bool.not_eq_true'] at hm
  have home (a : Nat) : homeOf t a = homeOf s a := by rw [homeOf, h.get F.cavHashKey_KEY hm.2 0, homeOf]
  have channel (a : Nat) : chanFailed t a = chanFailed s a := by
    have status (k : Nat) : t.get F.dramChanStatus_STATE k = s.get F.dramChanStatus_STATE k := h.get F.dramChanStatus_STATE hm.1 k
    rw [chanFailed, storeChannel, home, h.mem rfl, status, chanFailed, storeChannel]
  simp only [chanSector, channel, moveLost, home, keyGenOf, h.mem rfl]

/-- A sector of a line that the slice holds, as it is stored. -/
theorem sector_setSector {s : State} {l : CavLine} {pa i : Nat} {c d : CavSector} (found : cavFind s pa = some l) (sector : l.secs[i]? = some c)
    {t : State} (same : t.mem.cavern = s.mem.cavern) : (cavFind (setSector t l i d) pa).bind (fun x => x.secs[i]?) = some d := by
  have line : l.line = pa / 256 := beq_iff_eq.mp (List.find?_some (p := fun x : CavLine => x.line == pa / 256) found)
  have held : ∃ x ∈ t.mem.cavern, x.line = pa / 256 := ⟨l, by rw [same]; exact List.mem_of_find?_eq_some found, line⟩
  obtain ⟨x, at', secs⟩ := secs_cavUpdate (l := { l with secs := setNth l.secs i d }) held line
  rw [setSector, at', Option.bind_some, secs]
  exact getElem?_setNth (List.getElem?_eq_some_iff.mp sector).1 d

/-- SLICE_ECC_ERROR at the home of its address, by its kind. -/
theorem exec_sliceEccError {s : State} {n pa : Nat} (small : n < 256) (home : atSlice s n pa = true) (kind : Nat) :
    kind < 6 → exec (.sliceEccError n kind pa) s = match kind with
    | 0 => ok (sliceCorrected s n pa)
    | 1 => ok (sliceDataError s n pa)
    | 2 => ok (replaceSlice (post s (sliceUnit s n) none 0 0x0314 (pa / 64 * 64)) (sliceUnit s n))
    | 3 => ok (fatal s (sliceUnit s n) 0x0315 (pa / 64 * 64))
    | 4 => ok (if (hlFind s (pa / 64 * 64)).isSome then sliceCorrected s n pa else s)
    | _ => ok (hostDataError s n pa) := by
  intro known
  change execSliceEccError n kind pa s = _
  rw [execSliceEccError, if_pos ⟨small, known⟩, home]
  rfl

section
variable {s : State} {n pa : Nat} {l : CavLine} {c : CavSector} (found : cavFind s pa = some l) (sector : l.secs[pa / 64 % 4]? = some c)
include found sector

/-- A sector changed and its record posted, after the error is counted. -/
theorem sectorError_shows {t : State} (cls code : Nat) (d : CavSector) (kept : t.mem.cavern = s.mem.cavern) (seq : t.flt.seq = s.flt.seq)
    (count : t.get F.cavSliceStatus_UE_COUNT n = min (s.get F.cavSliceStatus_UE_COUNT n + 1) 255) (u : Nat) :
    (post (setSector t l (pa / 64 % 4) d) u none cls code (pa / 64 * 64)).get F.cavSliceStatus_UE_COUNT n = min (s.get F.cavSliceStatus_UE_COUNT n + 1) 255
      ∧ (cavFind (post (setSector t l (pa / 64 % 4) d) u none cls code (pa / 64 * 64)) pa).bind (fun x => x.secs[pa / 64 % 4]?) = some d
      ∧ Posts s (post (setSector t l (pa / 64 % 4) d) u none cls code (pa / 64 * 64)) u none cls code (pa / 64 * 64 % 2 ^ 64) := by
  refine ⟨?_, ?_, (posts_post ..).from (by rw [setSector, (frame_cavUpdate ..).flt rfl, seq])⟩
  · rw [(frame_post ..).get F.cavSliceStatus_UE_COUNT rfl n, setSector, ueCount_cavUpdate, count]
  · rw [cavFind, (frame_post ..).mem rfl]
    exact sector_setSector found sector kept

theorem sliceDataError_of_dirty (valid : c.valid = true) (dirty : c.dirty = true) : sliceDataError s n pa
    = post (setSector (sliceUncounted s n (sliceUnit s n)) l (pa / 64 % 4) { c with poison := true }) (sliceUnit s n) none 1 0x0313 (pa / 64 * 64) := by
  unfold sliceDataError
  rw [found]
  dsimp only
  rw [sector]
  dsimp only
  rw [valid, if_neg (by decide), if_pos dirty]

theorem sliceDataError_of_clean (valid : c.valid = true) (clean : c.dirty = false) : sliceDataError s n pa
    = post (setSector (charge (sliceUncounted s n (sliceUnit s n)) l.reg pa) l (pa / 64 % 4)
        ⟨true, false, (chanSector (sliceUncounted s n (sliceUnit s n)) l.key pa).1, (chanSector (sliceUncounted s n (sliceUnit s n)) l.key pa).2⟩)
      (sliceUnit s n) none 0 0x0312 (pa / 64 * 64) := by
  unfold sliceDataError
  rw [found]
  dsimp only
  rw [sector]
  dsimp only
  rw [valid, if_neg (by decide), clean, if_neg (by decide)]

theorem gives_sliceEccError_sector (small : n < 256) (home : atSlice s n pa = true) (valid : c.valid = true) : Gives (.sliceEccError n 1 pa) s (fun v =>
    v.get F.cavSliceStatus_UE_COUNT n = min (s.get F.cavSliceStatus_UE_COUNT n + 1) 255
    ∧ (c.dirty = true → (cavFind v pa).bind (fun x => x.secs[pa / 64 % 4]?) = some { c with poison := true } ∧ Posts s v (sliceUnit s n) none 1 0x0313 (pa / 64 * 64 % 2 ^ 64))
    ∧ (c.dirty = false → (cavFind v pa).bind (fun x => x.secs[pa / 64 % 4]?) = some ⟨true, false, (chanSector s l.key pa).1, (chanSector s l.key pa).2⟩
      ∧ Posts s v (sliceUnit s n) none 0 0x0312 (pa / 64 * 64 % 2 ^ 64))) := by
  have uncounted := frame_sliceUncounted s n (sliceUnit s n)
  have count := ueCount_sliceUncounted s n (sliceUnit s n)
  refine ⟨_, exec_sliceEccError small home 1 (by decide), ?_⟩
  by_cases dirty : c.dirty = true
  · rw [sliceDataError_of_dirty found sector valid dirty]
    have shown := sectorError_shows found sector (n := n) 1 0x0313 { c with poison := true } (by rw [uncounted.mem rfl]) (by rw [uncounted.flt rfl]) count
      (sliceUnit s n)
    exact ⟨shown.1, fun _ => shown.2, fun clean => absurd dirty (by rw [clean]; decide)⟩
  · have clean := Bool.eq_false_iff.mpr dirty
    rw [sliceDataError_of_clean found sector valid clean, chanSector_of_frame uncounted rfl]
    have shown := sectorError_shows found sector (n := n) (t := charge (sliceUncounted s n (sliceUnit s n)) l.reg pa) 0 0x0312
      ⟨true, false, (chanSector s l.key pa).1, (chanSector s l.key pa).2⟩ (by rw [charge_cavern, uncounted.mem rfl])
      (by rw [(frame_charge ..).flt rfl, uncounted.flt rfl]) (by rw [(frame_charge ..).get F.cavSliceStatus_UE_COUNT rfl n, count]) (sliceUnit s n)
    exact ⟨shown.1, fun d => absurd d dirty, fun _ => shown.2⟩

end

/-! Errors of host lines (R273, R274). -/

section
variable {s : State}

/-- A request may evict lines and brings none. -/
theorem mem_lines_hlRequest {x : HostLine} {ha : Nat} {own : Bool} (h : x ∈ (hlRequest s ha own).hl.lines) : x ∈ s.hl.lines := by
  have evict {t : State} {l : HostLine} (h : x ∈ (hlEvict t l).hl.lines) : x ∈ t.hl.lines := by
    simp only [hlEvict] at h
    split at h
    · exact (List.mem_filter.mp h).1
    · exact h
  have room (h : x ∈ (hlRoom s ha).hl.lines) : x ∈ s.hl.lines := by
    unfold hlRoom at h
    split at h
    · exact h
    · split at h
      · exact h
      · exact evict h
  have made (h : x ∈ (if (hlFind s ha).isSome = true then s else hlRoom s ha).hl.lines) : x ∈ s.hl.lines := by
    split at h
    · exact h
    · exact room h
  simp only [hlRequest] at h
  generalize (if (hlFind s ha).isSome = true then s else hlRoom s ha) = r at h made
  split at h
  · exact h
  · split at h <;> exact made h

theorem ha_of_hlFind {ha : Nat} {l : HostLine} (h : hlFind s ha = some l) : l.ha = ha :=
  beq_iff_eq.mp (List.find?_some (p := fun x : HostLine => x.ha == ha) h)

variable {n pa : Nat} {l : HostLine} (found : hlFind s (pa / 64 * 64) = some l)
include found

theorem hostDataError_of_m (m : l.st = .m) :
    hlFind (hostDataError s n pa) l.ha = some { l with poison := true } ∧ Posts s (hostDataError s n pa) (sliceUnit s n) none 1 0x0313 (l.ha % 2 ^ 64) := by
  have uncounted := frame_sliceUncounted s n (sliceUnit s n)
  unfold hostDataError
  rw [found]
  dsimp only
  rw [if_pos m]
  refine ⟨?_, (posts_post ..).from (by rw [(frame_setHostLines ..).flt rfl, uncounted.flt rfl])⟩
  have held : s.hl.lines.find? (fun x => x.ha == l.ha) = some l := by
    rw [ha_of_hlFind found]
    exact found
  rw [hlFind, lines_post, setHostLines, uncounted.hl rfl]
  have updated := find?_updWhere (p := fun x : HostLine => x.ha == l.ha) (f := fun x => { x with poison := true }) (fun _ h => h) s.hl.lines
  rw [held] at updated
  exact updated

theorem hostDataError_of_not_m (m : l.st ≠ .m) :
    hlFind (hostDataError s n pa) l.ha = none ∧ Posts s (hostDataError s n pa) (sliceUnit s n) none 0 0x0312 (l.ha % 2 ^ 64)
      ∧ (hostDataError s n pa).hl.creq
        = (hlRequest (setHostLines (sliceUncounted s n (sliceUnit s n)) (s.hl.lines.filter (fun x => x.ha != l.ha))) l.ha false).hl.creq := by
  have uncounted := frame_sliceUncounted s n (sliceUnit s n)
  unfold hostDataError
  rw [found]
  dsimp only
  rw [if_neg m]
  refine ⟨?_, (posts_post ..).from (by rw [(frame_hlRequest ..).flt rfl, (frame_setHostLines ..).flt rfl, uncounted.flt rfl]), ?_⟩
  · rw [hlFind, lines_post, List.find?_eq_none]
    intro x hx at'
    have mem := (List.mem_filter.mp (mem_lines_hlRequest hx)).2
    exact bne_iff_ne.mp mem (beq_iff_eq.mp at')
  · rw [creq_post, uncounted.hl rfl]

theorem ueCount_hostDataError :
    (hostDataError s n pa).get F.cavSliceStatus_UE_COUNT n = min (s.get F.cavSliceStatus_UE_COUNT n + 1) 255 := by
  have count := ueCount_sliceUncounted s n (sliceUnit s n)
  unfold hostDataError
  simp only [found]
  split
  · rw [(frame_post ..).get F.cavSliceStatus_UE_COUNT rfl n, (frame_setHostLines ..).get F.cavSliceStatus_UE_COUNT rfl n, count]
  · rw [(frame_post ..).get F.cavSliceStatus_UE_COUNT rfl n, (frame_hlRequest ..).get F.cavSliceStatus_UE_COUNT rfl n,
      (frame_setHostLines ..).get F.cavSliceStatus_UE_COUNT rfl n, count]

end

/-! The commands. -/

/-- A scrub that finds nothing to correct. -/
theorem gives_sliceScrub_clean {s : State} {n set : Nat} (small : n < 256) (hset : set < 15360) : Gives (.sliceScrub n set []) s (fun v => v = s) :=
  ⟨s, if_pos ⟨small, hset⟩, rfl⟩

section
variable {s : State} {n pa : Nat} (small : n < 256) (home : atSlice s n pa = true)
include small home

theorem gives_slice_corrected (set : Nat) : ∀ i ∈ [Instr.sliceEccError n 0 pa, .sliceScrub n (set % 15360) [pa]], Gives i s (fun v =>
    v.get F.cavSliceStatus_CE_COUNT n = min (s.get F.cavSliceStatus_CE_COUNT n + 1) (2 ^ 16 - 1) ∧ Posts s v (sliceUnit s n) none 0 0x0311 (pa / 64 * 64 % 2 ^ 64)) := by
  have corrected := sliceCorrected_shows home
  simp only [List.mem_cons, List.not_mem_nil, or_false]
  rintro i (rfl | rfl)
  · exact ⟨_, exec_sliceEccError small home 0 (by decide), corrected⟩
  · exact ⟨_, if_pos ⟨small, Nat.mod_lt _ (by decide)⟩, corrected⟩

theorem gives_sliceEccError_no_host_line (kind : Nat) (h : kind = 4 ∨ kind = 5) (away : hlFind s (pa / 64 * 64) = none) :
    Gives (.sliceEccError n kind pa) s (fun v => v = s) := by
  rcases h with rfl | rfl
  · refine ⟨s, ?_, rfl⟩
    rw [exec_sliceEccError small home _ (by decide), away]
    rfl
  · refine ⟨s, ?_, rfl⟩
    rw [exec_sliceEccError small home _ (by decide)]
    unfold hostDataError
    rw [away]
    rfl

theorem gives_sliceEccError_host_line (l : HostLine) (found : hlFind s (pa / 64 * 64) = some l) :
    Gives (.sliceEccError n 4 pa) s (fun v =>
      v.get F.cavSliceStatus_CE_COUNT n = min (s.get F.cavSliceStatus_CE_COUNT n + 1) (2 ^ 16 - 1) ∧ Posts s v (sliceUnit s n) none 0 0x0311 (pa / 64 * 64 % 2 ^ 64))
    ∧ Gives (.sliceEccError n 5 pa) s (fun v => v.get F.cavSliceStatus_UE_COUNT n = min (s.get F.cavSliceStatus_UE_COUNT n + 1) 255
      ∧ (l.st = .m → hlFind v l.ha = some { l with poison := true } ∧ Posts s v (sliceUnit s n) none 1 0x0313 (l.ha % 2 ^ 64))
      ∧ (l.st ≠ .m → hlFind v l.ha = none ∧ Posts s v (sliceUnit s n) none 0 0x0312 (l.ha % 2 ^ 64) ∧ v.hl.creq =
        (hlRequest (setHostLines (sliceUncounted s n (sliceUnit s n)) (s.hl.lines.filter (fun x => x.ha != l.ha))) l.ha false).hl.creq)) := by
  refine ⟨⟨sliceCorrected s n pa, ?_, sliceCorrected_shows home⟩, hostDataError s n pa, exec_sliceEccError small home _ (by decide),
    ueCount_hostDataError found, hostDataError_of_m found, hostDataError_of_not_m found⟩
  rw [exec_sliceEccError small home _ (by decide), found]
  rfl

theorem gives_sliceEccError_tag :
    Gives (.sliceEccError n 2 pa) s (fun v => Posts s v (sliceUnit s n) none 0 0x0314 (pa / 64 * 64 % 2 ^ 64)) :=
  ⟨_, exec_sliceEccError small home _ (by decide), (posts_post ..).later (sliceKept_replaceSlice _ (sliceUnit_div s n)).toRecordsKept⟩

theorem gives_sliceEccError_tags (clear : s.get F.faultStatus_FATAL_CODE = 0) :
    Gives (.sliceEccError n 3 pa) s (fun v => v.get F.faultStatus_FATAL_CODE = 0x0315 ∧ v.ready = (s.ready && decide (6 < stage s))) :=
  ⟨_, exec_sliceEccError small home _ (by decide), fatal_shows clear _ _ (by decide)⟩

end

end Sys2Proof.Proofs
end

section
/-! Errors of Grottoes and read-only caches (R253, R254), and the hot-spot window (R276). -/

namespace Sys2Proof.Proofs

open Sys2Proof.Machine Sys2Proof.Claims Sys2Proof.Laws

/-! Lines under the end of a context: they may go, or lose clean bytes to an acquire; none appears and none becomes dirty. -/

/-- Every line of `t` was one of `s`, with the dirty bytes it has. -/
structure LinesFrom (s t : State) : Prop where
  lines : ∀ x ∈ t.core.gl, ∃ y ∈ s.core.gl, y.core = x.core ∧ y.addr = x.addr ∧ y.host = x.host ∧ y.dirty = x.dirty

section
variable {s t u : State}

theorem LinesFrom.of_gl (h : t.core.gl = s.core.gl) : LinesFrom s t :=
  ⟨fun x hx => ⟨x, by rwa [← h], rfl, rfl, rfl, rfl⟩⟩

theorem LinesFrom.refl (s : State) : LinesFrom s s := .of_gl rfl

theorem LinesFrom.trans (h : LinesFrom s t) (g : LinesFrom t u) : LinesFrom s u := by
  refine ⟨fun x hx => ?_⟩
  obtain ⟨y, hy, core, addr, host, dirty⟩ := g.lines x hx
  obtain ⟨z, hz, core', addr', host', dirty'⟩ := h.lines y hy
  exact ⟨z, hz, core'.trans core, addr'.trans addr, host'.trans host, dirty'.trans dirty⟩

theorem LinesFrom.of_frame {ps rs : Nat} (h : Frame ps rs s t) (hm : ps.testBit 5 = false) : LinesFrom s t := .of_gl (by rw [h.core hm])

theorem LinesFrom.foldl {α : Type} {f : State → α → State} (hf : ∀ t a, LinesFrom t (f t a)) (l : List α) (s : State) : LinesFrom s (l.foldl f s) := by
  induction l generalizing s with
  | nil => exact .refl s
  | cons a l ih => exact (hf s a).trans (ih _)

theorem LinesFrom.ite {c : Prop} [Decidable c] (ht : c → LinesFrom s t) (hu : ¬c → LinesFrom s u) : LinesFrom s (if c then t else u) := by
  split
  · exact ht ‹_›
  · exact hu ‹_›

end

section
variable (s : State)

theorem linesFrom_put (f : Fld) (v i j : Nat) : LinesFrom s (s.put f v i j) := .of_gl (by rw [State.put_core])
theorem linesFrom_bumpSat (f : Fld) (n i j : Nat) : LinesFrom s (s.bumpSat f n i j) := .of_gl (by rw [State.bumpSat_core])
theorem linesFrom_sail (x : Sails) : LinesFrom s { s with sail := x } := .of_gl rfl
theorem linesFrom_eng (x : Engines) : LinesFrom s { s with eng := x } := .of_gl rfl

theorem linesFrom_bolWaitEnd (core slot : Nat) (f : Frag) (v : Nat) : LinesFrom s (bolWaitEnd s core slot f v false) := by
  refine ⟨fun x hx => ?_⟩
  rw [bolWaitEnd_acquires] at hx
  obtain ⟨y, hy, rfl⟩ := List.mem_map.mp (List.mem_filter.mp hx).1
  refine ⟨y, hy, ?_⟩
  split <;> exact ⟨rfl, rfl, rfl, rfl⟩

theorem linesFrom_bolWake (n : Nat) : LinesFrom s (bolWake s n) := by
  unfold bolWake
  refine LinesFrom.foldl (fun t kf => ?_) _ s
  apply linesFrom_bolWaitEnd

theorem linesFrom_bolChanged (n : Nat) : LinesFrom s (bolChanged s n) :=
  (((LinesFrom.of_frame (frame_bolLatch s n) rfl).trans (linesFrom_bolWake ..)).trans (.of_frame (frame_berthReopen ..) rfl)).trans
    (.of_frame (frame_bolNotify ..) rfl)

theorem linesFrom_settleBollard (x : Sailing) : LinesFrom s (settleBollard s x) := by
  unfold settleBollard
  split
  · exact .refl s
  · unfold bolSend
    exact .ite (fun _ => .trans (.of_gl (by rw [State.bump_core])) (linesFrom_bolChanged ..)) (fun _ => .of_gl rfl)

theorem linesFrom_abortSailing (x : Sailing) (reason : Nat) : LinesFrom s (abortSailing s x reason) := by
  unfold abortSailing
  refine .ite (fun _ => .refl s) (fun _ => ?_)
  refine .trans ?_ (.of_frame (frame_ferryShow ..) rfl)
  refine .trans ?_ (.of_frame (frame_post ..) rfl)
  refine .trans ?_ (linesFrom_bumpSat ..)
  refine .trans ?_ (linesFrom_settleBollard ..)
  exact .trans (.of_frame (frame_updSailing ..) rfl) (.of_frame (frame_fabSend ..) rfl)

theorem linesFrom_abortWaiting (f reason : Nat) : LinesFrom s (abortWaiting s f reason) := by
  unfold abortWaiting
  split
  · exact .trans (linesFrom_sail s _) (linesFrom_abortSailing _ (nextSailing s f) reason)
  · exact .refl s

theorem linesFrom_abortFerry (f reason : Nat) : LinesFrom s (abortFerry s f reason) := by
  refine .trans ?_ (.of_frame (frame_ferryShow ..) rfl)
  refine .trans ?_ (linesFrom_sail ..)
  refine .trans ?_ (linesFrom_put ..)
  exact .trans (.foldl (fun t x => linesFrom_abortSailing t x reason) _ s) (linesFrom_abortWaiting ..)

theorem linesFrom_freeCore (core : Nat) : LinesFrom s (freeCore s core) := by
  unfold freeCore
  refine .ite (fun _ => .refl s) (fun _ => .of_gl ?_)
  show (State.put _ _ _ _).core.gl = _
  rw [State.put_core]

theorem gl_sramPut (c : Cores) (k : Nat) (bs : List Byte) : (sramPut c k bs).gl = c.gl := by
  induction bs generalizing c k with
  | nil => rfl
  | cons b bs ih => exact ih _ _

theorem linesFrom_startHead (u : Nat) : LinesFrom s (startHead s u) := by
  have shown (t : State) : LinesFrom t (engShow t u) := .of_frame (frame_engShow ..) rfl
  have begun (t : State) (j : EngJob) : LinesFrom t (routineBegin t j) := by
    unfold routineBegin
    split
    · exact .of_gl (gl_sramPut ..)
    · exact .refl t
  unfold startHead
  refine .ite (fun _ => .refl s) (fun _ => .ite (fun _ => shown s) (fun _ => ?_))
  split
  · exact shown s
  · exact .ite (fun _ => .refl s) (fun _ => .trans (.trans (.of_frame (frame_updJob ..) rfl) (begun ..)) (shown _))

theorem linesFrom_endJobs (c : Nat) : LinesFrom s (endJobs s c) := by
  unfold endJobs
  dsimp only
  refine .trans (.trans (.trans ?_ (linesFrom_eng ..)) (.foldl linesFrom_startHead _ _)) (.foldl linesFrom_freeCore _ _)
  exact .foldl (fun t m => .of_frame (frame_dropSegHolds t m) rfl) _ s

theorem linesFrom_endRunning (c : Nat) : LinesFrom s (endRunning s c) := by
  unfold endRunning
  dsimp only
  refine .trans (.of_gl ?_) (.foldl (fun t k => .trans (.of_frame (frame_showCore t k) rfl) (linesFrom_freeCore ..)) _ _)
  rw [State.put_core]

theorem linesFrom_endContext (c : Nat) (own : Option (Nat × Nat × Nat × Nat)) (reason : Nat) : LinesFrom s (endContext s c own reason) := by
  unfold endContext
  refine .ite (fun _ => ?_) (fun _ => .refl s)
  refine .trans ?_ (.foldl (fun t f => linesFrom_abortFerry t f reason) _ _)
  refine .trans (.trans (.trans ?_ (linesFrom_endRunning ..)) (linesFrom_endJobs ..)) (.of_frame (frame_endEntries ..) rfl)
  refine .of_gl ?_
  show (State.put _ _ _ _).core.gl = _
  rw [State.put_core, State.put_core]

theorem linesFrom_contained (c unit code extra : Nat) (own : Option (Nat × Nat × Nat × Nat)) : LinesFrom s (contained s c unit code extra own) :=
  .trans (.of_frame (frame_post ..) rfl) (linesFrom_endContext ..)

end

/-! A parity record's wear (R528). -/

section
variable {s : State} {p : Nat}

/-- Without automatic tests the record is counted, and its hour kept. -/
theorem parityNoted_eq (off : s.isSet F.faultCtrl_AUTO_TEST_EN = false) (p : Nat) :
    ∃ h, parityNoted s p = setParity (bankChange (s.bumpSat F.wearCore_CHECKS 1 p)) h := by
  have still (h : SMap (List Nat)) : (setParity (bankChange (s.bumpSat F.wearCore_CHECKS 1 p)) h).isSet F.faultCtrl_AUTO_TEST_EN = false := by
    rw [(frame_setParity ..).isSet F.faultCtrl_AUTO_TEST_EN rfl 0, (frame_bankChange ..).isSet F.faultCtrl_AUTO_TEST_EN rfl 0, State.isSet,
      State.bumpSat, State.get_put_reg _ _ _ _ _ _ (by decide)]
    exact off
  unfold parityNoted
  dsimp only
  split
  · exact ⟨_, by rw [autoTest, still, if_neg (by decide)]⟩
  · exact ⟨_, rfl⟩

theorem recordsKept_setParity (s : State) (h : SMap (List Nat)) : RecordsKept s (setParity s h) := ⟨fun _ h => h, id, .inr fun _ h => h⟩

/-- What that keeps. -/
structure ParityKept (s t : State) : Prop extends RecordsKept s t where
  core : t.core = s.core
  ctx : ∀ c, t.ctxState c = s.ctxState c

theorem parityKept_parityNoted (off : s.isSet F.faultCtrl_AUTO_TEST_EN = false) (p : Nat) : ParityKept s (parityNoted s p) := by
  obtain ⟨h, e⟩ := parityNoted_eq off p
  have worn : Frame 0 (regBits [.wearCore, .rbStatus]) s (bankChange (s.bumpSat F.wearCore_CHECKS 1 p)) :=
    ((Frame.refl _ _ s).bumpSat rfl).step (frame_bankChange ..) rfl rfl
  rw [e]
  have noted := frame_setParity (bankChange (s.bumpSat F.wearCore_CHECKS 1 p)) h
  refine ⟨(RecordsKept.of_quiet worn rfl).trans (recordsKept_setParity ..), (noted.core rfl).trans (worn.core rfl), fun c => ?_⟩
  exact (noted.get F.ctxState_STATE rfl c).trans (worn.get F.ctxState_STATE rfl c)

variable {core c : Nat} (off : s.isSet F.faultCtrl_AUTO_TEST_EN = false) (bound : boundCtx s core = some c)
include off bound

theorem parityCorrected_shows (p code : Nat) :
    Posts s (parityCorrected s core p code) (unitId 1 p) (some c) 0 code (c % 2 ^ 64) ∧ (parityCorrected s core p code).core = s.core
      ∧ ∀ k, (parityCorrected s core p code).ctxState k = s.ctxState k := by
  unfold parityCorrected
  rw [bound, Option.getD_some]
  have kept : ParityKept (post s (unitId 1 p) (some c) 0 code c) (parityNoted (post s (unitId 1 p) (some c) 0 code c) p) :=
    parityKept_parityNoted (((frame_post ..).isSet F.faultCtrl_AUTO_TEST_EN rfl 0).trans off) p
  exact ⟨(posts_post ..).later kept.toRecordsKept, kept.core.trans ((frame_post ..).core rfl),
    fun k => (kept.ctx k).trans ((frame_post ..).get F.ctxState_STATE rfl k)⟩

theorem parityFatal_shows (runs : s.ctxState c = 1) (p code : Nat) :
    Posts s (parityFatal s core p code) (unitId 1 p) (some c) 1 code (c % 2 ^ 64) ∧ (parityFatal s core p code).ctxState c = 3
      ∧ LinesFrom s (parityFatal s core p code) := by
  unfold parityFatal
  rw [bound]
  have kept : ParityKept (contained s c (unitId 1 p) code c) (parityNoted (contained s c (unitId 1 p) code c) p) :=
    parityKept_parityNoted (((frame_contained ..).isSet F.faultCtrl_AUTO_TEST_EN rfl 0).trans off) p
  exact ⟨(posts_contained ..).later kept.toRecordsKept, (kept.ctx c).trans (ctxState_contained runs ..),
    (linesFrom_contained ..).trans (.of_gl (by rw [kept.core]))⟩

end

/-! The commands (R253). -/

theorem boundCtx_congr {s t : State} {core : Nat} (bound : t.isSet F.coreBinding_BOUND core = s.isSet F.coreBinding_BOUND core)
    (ctx : t.get F.coreBinding_CONTEXT core = s.get F.coreBinding_CONTEXT core) : boundCtx t core = boundCtx s core := by
  rw [boundCtx, bound, ctx, boundCtx]

section
variable {s : State} {core p a c : Nat} (small : core < 240) (phys : s.physCore core = some p) (bound : boundCtx s core = some c)
  (runs : s.ctxState c = 1) (off : s.isSet F.faultCtrl_AUTO_TEST_EN = false)

section
include small phys

theorem exec_grottoParityError_cache {h : Bool} {l : GrottoLine} (found : glFind s core a h = some l) (first : h = true → glFind s core a false = none) :
    exec (.grottoParityError core a true) s = ok (cacheParity s core p l a) := by
  change execGrottoParityError core a true s = _
  unfold execGrottoParityError
  rw [if_pos small, phys]
  dsimp only
  rw [if_pos rfl]
  cases h with
  | false => rw [found]
  | true => rw [first rfl, found]

theorem exec_grottoParityError_scratch (within : a < sramSize s core) :
    exec (.grottoParityError core a false) s = ok (parityFatal s core p 0x0303) := by
  change execGrottoParityError core a false s = _
  unfold execGrottoParityError
  rw [if_pos small, phys]
  dsimp only
  rw [if_neg (by decide), if_pos within]

end

/-- The lines of a core once one of them has changed. -/
def linesChanged (s : State) (core : Nat) (l : GrottoLine) (f : GrottoLine → GrottoLine) : State :=
  setGl s core ((updWhere s.core.gl (fun x => x == l) f).filter (fun x => x.core != core || !x.bytes.isEmpty))

theorem linesChanged_gl (s : State) (core : Nat) (l : GrottoLine) (f : GrottoLine → GrottoLine) :
    (linesChanged s core l f).core.gl = (updWhere s.core.gl (fun x => x == l) f).filter (fun x => x.core != core || !x.bytes.isEmpty) := by
  rw [linesChanged, setGl, State.put_core]

/-- A line of its address found after the change is the line changed, where it is the only one. -/
theorem eq_of_mem_linesChanged {l x : GrottoLine} {f : GrottoLine → GrottoLine}
    (only : ∀ y ∈ s.core.gl, y.core = core → y.addr = l.addr → y.host = l.host → y = l) (mem : x ∈ (linesChanged s core l f).core.gl)
    (hc : x.core = core) (ha : x.addr = l.addr) (hh : x.host = l.host) : x = f l := by
  rw [linesChanged_gl] at mem
  obtain ⟨y, hy, rfl⟩ := List.mem_map.mp (List.mem_filter.mp mem).1
  by_cases same : y = l
  · rw [same]
    exact if_pos (beq_self_eq_true l)
  · rw [if_neg (by simpa using same)] at hc ha hh
    exact absurd (only y hy hc ha hh) same

theorem of_glFind {a : Nat} {h : Bool} {l : GrottoLine} (found : glFind s core a h = some l) :
    l ∈ s.core.gl ∧ l.core = core ∧ l.addr = a / 128 * 128 ∧ l.host = h := by
  have props := List.find?_some found
  simp only [Bool.and_eq_true, beq_iff_eq] at props
  exact ⟨List.mem_of_find?_eq_some found, props.1.1, props.1.2, props.2⟩

include small phys bound runs off

/-- A parity error in a line: a clean group goes, a dirty one ends the context. -/
theorem gives_grottoParityError_line {h : Bool} {l : GrottoLine} (found : glFind s core a h = some l) (first : h = true → glFind s core a false = none)
    (only : ∀ x ∈ s.core.gl, x.core = core → x.addr = l.addr → x.host = h → x = l) :
    ((∀ k ∈ l.dirty, k / 4 ≠ a % 128 / 4) → Gives (.grottoParityError core a true) s (fun v => Posts s v (unitId 1 p) (some c) 0 0x0301 (c % 2 ^ 64) ∧ v.ctxState c = 1
      ∧ ∀ x, glFind v core a h = some x → ∀ k, k / 4 = a % 128 / 4 → smapFind x.bytes k = none))
    ∧ ((∃ k ∈ l.dirty, k / 4 = a % 128 / 4) → Gives (.grottoParityError core a true) s (fun v => Posts s v (unitId 1 p) (some c) 1 0x0302 (c % 2 ^ 64) ∧ v.ctxState c = 3
      ∧ ∀ x, glFind v core a h = some x → x.dirty = [])) := by
  obtain ⟨_, hcore, haddr, hhost⟩ := of_glFind found
  subst hhost
  have changed (f : GrottoLine → GrottoLine) : Frame 32 (regBits [.coreGrottoStatus]) s (linesChanged s core l f) := (frame_setGl ..).mono rfl rfl
  have off' (f : GrottoLine → GrottoLine) : (linesChanged s core l f).isSet F.faultCtrl_AUTO_TEST_EN = false :=
    ((changed f).isSet F.faultCtrl_AUTO_TEST_EN rfl 0).trans off
  have bound' (f : GrottoLine → GrottoLine) : boundCtx (linesChanged s core l f) core = some c :=
    (boundCtx_congr ((changed f).isSet F.coreBinding_BOUND rfl core) ((changed f).get F.coreBinding_CONTEXT rfl core)).trans bound
  have runs' (f : GrottoLine → GrottoLine) : (linesChanged s core l f).ctxState c = 1 := ((changed f).get F.ctxState_STATE rfl c).trans runs
  have seq (f : GrottoLine → GrottoLine) : (linesChanged s core l f).flt.seq = s.flt.seq := by rw [(changed f).flt rfl]
  refine ⟨fun clean => ⟨_, exec_grottoParityError_cache small phys found first, ?_⟩, fun dirty => ⟨_, exec_grottoParityError_cache small phys found first, ?_⟩⟩
  · have none : l.dirty.any (fun k => k / 4 == a % 128 / 4) = false := by simpa using clean
    let f (x : GrottoLine) : GrottoLine := { x with bytes := x.bytes.filter (fun kv => !(kv.1 / 4 == a % 128 / 4)) }
    have done : cacheParity s core p l a = parityCorrected (linesChanged s core l f) core p 0x0301 := by
      unfold cacheParity
      dsimp only
      rw [none, if_neg (by decide)]
      rfl
    obtain ⟨posted, core', ctx⟩ := parityCorrected_shows (off' f) (bound' f) p 0x0301
    rw [done]
    refine ⟨posted.from (seq f), (ctx c).trans (runs' f), fun x hx k hk => ?_⟩
    obtain ⟨mem, xcore, xaddr, xhost⟩ := of_glFind hx
    rw [core'] at mem
    rw [eq_of_mem_linesChanged only mem xcore (xaddr.trans haddr.symm) xhost]
    refine smapFind_eq_none (fun kv hkv e => ?_)
    have away := (List.mem_filter.mp hkv).2
    rw [e, hk] at away
    simp at away
  · have some' : l.dirty.any (fun k => k / 4 == a % 128 / 4) = true := by simpa using dirty
    let f (x : GrottoLine) : GrottoLine := { x with bytes := x.bytes.filter (fun kv => !x.dirty.contains kv.1), dirty := [] }
    have done : cacheParity s core p l a = parityFatal (linesChanged s core l f) core p 0x0302 := by
      unfold cacheParity
      dsimp only
      rw [some', if_pos rfl]
      rfl
    obtain ⟨posted, ended, lines⟩ := parityFatal_shows (off' f) (bound' f) (runs' f) p 0x0302
    rw [done]
    refine ⟨posted.from (seq f), ended, fun x hx => ?_⟩
    obtain ⟨mem, xcore, xaddr, xhost⟩ := of_glFind hx
    obtain ⟨y, hy, ycore, yaddr, yhost, ydirty⟩ := lines.lines x mem
    have same := eq_of_mem_linesChanged only hy (ycore.trans xcore) (yaddr.trans (xaddr.trans haddr.symm)) (yhost.trans xhost)
    rw [← ydirty, same]

/-- One in the scratchpad ends the context. -/
theorem gives_grottoParityError_scratch (within : a < sramSize s core) :
    Gives (.grottoParityError core a false) s (fun v => Posts s v (unitId 1 p) (some c) 1 0x0303 (c % 2 ^ 64) ∧ v.ctxState c = 3) := by
  obtain ⟨posted, ended, _⟩ := parityFatal_shows off bound runs p 0x0303
  exact ⟨_, exec_grottoParityError_scratch small phys within, posted, ended⟩

end

/-! Read-only lines (R254). -/

section
variable {s : State} {core kind p a c : Nat}

theorem of_roFind {h : Bool} {l : RoLine} (found : roFind s core kind h a = some l) : l.core = core ∧ l.kind = kind ∧ l.host = h ∧ l.addr = a / 128 * 128 := by
  have props := List.find?_some found
  simp only [Bool.and_eq_true, beq_iff_eq] at props
  exact ⟨props.1.1.1, props.1.1.2, props.1.2, props.2⟩

/-- The read-only lines without one of them. -/
def roWithout (s : State) (l : RoLine) : State := { s with core := { s.core with ro := s.core.ro.filter (fun x => x != l) } }

/-- A host line's request changes no read-only line. -/
theorem requestLine_ro (s : State) (c core slot addr : Nat) (hk : kind < 4) (cls reg gen mask : Nat) :
    (requestLine s c core slot ⟨lineKey addr 1 kind, cls, reg, gen, mask⟩).core.ro = s.core.ro := by
  have host : keyTgt (lineKey addr 1 kind) = 1 := by
    unfold keyTgt lineKey
    omega
  unfold requestLine
  simp only [host]
  split
  · rw [State.bump_core]
  · rfl

variable {h : Bool} {l : RoLine}

/-- What a refetch leaves of the read-only lines. -/
theorem roRefetch_ro (bound : boundCtx s core = some c) (hk : l.kind < 4) (without : l.host = true ∨ roSegment s c l = none) :
    (roRefetch s core l).core.ro = s.core.ro := by
  unfold roRefetch
  rw [bound]
  dsimp only
  cases segment : roSegment s c l with
  | none => rfl
  | some g =>
    have host : l.host = true := without.resolve_right (by rw [segment]; nofun)
    dsimp only
    rw [if_pos host]
    split
    · rfl
    · exact requestLine_ro _ _ _ _ _ hk _ _ _ _

theorem roRefetch_of_segment (bound : boundCtx s core = some c) (device : l.host = false) {g : Place} (segment : roSegment s c l = some g) :
    roRefetch s core l = roFill (devRead 4 s (g.rq s) l.addr 128).2 core l.kind false l.addr c (devRead 4 s (g.rq s) l.addr 128).1.2
      (devRead 4 s (g.rq s) l.addr 128).1.1 := by
  unfold roRefetch
  rw [bound]
  dsimp only
  rw [segment]
  dsimp only
  rw [device, if_neg (by decide)]

theorem roFind_roFill (s : State) (core kind a ctx : Nat) (data : List Byte) (poison : Bool) :
    roFind (roFill s core kind false a ctx data poison) core kind false a = some ⟨core, kind, false, a / 128 * 128, data, poison⟩ := by
  unfold roFind roFill
  simp only [State.bump_core]
  rw [List.find?_cons_of_pos (by simp)]

variable (small : core < 240) (phys : s.physCore core = some p) (bound : boundCtx s core = some c) (off : s.isSet F.faultCtrl_AUTO_TEST_EN = false)
  (hk : kind < 3) (found : roFind s core kind h a = some l) (first : h = true → roFind s core kind false a = none)
include small phys hk found first

theorem exec_rocacheParityError : exec (.rocacheParityError core kind a) s = ok (parityCorrected (roRefetch (roWithout s l) core l) core p 0x0304) := by
  have chosen : ((roFind s core kind false a).orElse (fun _ => roFind s core kind true a)) = some l := by
    cases h with
    | false => rw [found]; rfl
    | true => rw [first rfl, found]; rfl
  change execRocacheParityError core kind a s = _
  unfold execRocacheParityError
  rw [if_pos ⟨small, hk⟩, phys, chosen]
  rfl

include bound off

theorem gives_rocacheParityError : Gives (.rocacheParityError core kind a) s (fun v =>
    Posts s v (unitId 1 p) (some c) 0 0x0304 (c % 2 ^ 64) ∧ (h = true ∨ roSegment s c l = none → v.core.ro = s.core.ro.filter (fun x => x != l))
    ∧ ∀ g, h = false → roSegment s c l = some g → ∃ x, roFind v core kind false a = some x ∧ (x.poison, x.bytes)
      = (devRead 4 { s with core := { s.core with ro := s.core.ro.filter (fun x => x != l) } } (g.rq s) l.addr 128).1) := by
  obtain ⟨_, hkind, hhost, haddr⟩ := of_roFind found
  have bound' : boundCtx (roWithout s l) core = some c := bound
  have again := frame_roRefetch (roWithout s l) core l
  have off' : (roRefetch (roWithout s l) core l).isSet F.faultCtrl_AUTO_TEST_EN = false := (again.isSet F.faultCtrl_AUTO_TEST_EN rfl 0).trans off
  have still : boundCtx (roRefetch (roWithout s l) core l) core = some c :=
    (boundCtx_congr (again.isSet F.coreBinding_BOUND rfl core) (again.get F.coreBinding_CONTEXT rfl core)).trans bound'
  obtain ⟨posted, core', _⟩ := parityCorrected_shows off' still p 0x0304
  refine ⟨_, exec_rocacheParityError small phys hk found first, posted.from (by rw [again.flt rfl]; rfl), fun without => ?_, fun g device segment => ?_⟩
  · rw [core', roRefetch_ro bound' (by omega) (hhost ▸ without)]
    rfl
  · have filled := roRefetch_of_segment (s := roWithout s l) bound' (hhost.trans device) segment
    refine ⟨⟨core, kind, false, a / 128 * 128, (devRead 4 (roWithout s l) (g.rq (roWithout s l)) l.addr 128).1.2,
      (devRead 4 (roWithout s l) (g.rq (roWithout s l)) l.addr 128).1.1⟩, ?_, rfl⟩
    rw [roFind, core', filled, hkind, ← roFind]
    have at' : l.addr / 128 * 128 = a / 128 * 128 := by omega
    have line := roFind_roFill (devRead 4 (roWithout s l) (g.rq (roWithout s l)) l.addr 128).2 core kind l.addr c
      (devRead 4 (roWithout s l) (g.rq (roWithout s l)) l.addr 128).1.2 (devRead 4 (roWithout s l) (g.rq (roWithout s l)) l.addr 128).1.1
    rw [roFind, at'] at line
    exact line

end

/-! The hot-spot window (R276). -/

section
variable {s : State} {cycles : Nat} {counts : List (Nat × Nat)}

/-- The slice that a window notices: the lowest hot one. -/
def hotSlice (s : State) (cycles : Nat) (counts : List (Nat × Nat)) : Option Nat :=
  let act := (List.range 256).filter (sliceActive s)
  let count (n : Nat) : Nat := ((counts.find? (fun p => p.1 == n)).map (fun p => p.2)).getD 0
  let total := (act.map count).foldl (· + ·) 0
  act.find? (fun n => decide (3 * cycles ≤ 4 * count n) && decide (4 * total ≤ count n * act.length))

/-- Whether a slice is hot in a window. -/
def hotNow (s : State) (cycles : Nat) (counts : List (Nat × Nat)) (n : Nat) : Bool :=
  let act := (List.range 256).filter (sliceActive s)
  let count (k : Nat) : Nat := ((counts.find? (fun p => p.1 == k)).map (fun p => p.2)).getD 0
  sliceActive s n && (decide (3 * cycles ≤ 4 * count n) && decide (4 * (act.map count).sum ≤ count n * act.length))

/-- The window's notice, before its event. -/
def hotNoticed (s : State) (n : Nat) : State := ((s.put F.cavHotspot_NOTICE 1).put F.cavHotspot_SLICE n).bump F.cavHotspot_WINDOWS

theorem exec_hotspotWindow (s : State) (cycles : Nat) (counts : List (Nat × Nat)) : exec (.hotspotWindow cycles counts) s = match hotSlice s cycles counts with
    | none => ok s
    | some n => ok (signalIf (hotNoticed s n) ((hotNoticed s n).isSet F.cavHotspot_EVENT_EN && !s.isSet F.cavHotspot_NOTICE)
        ((hotNoticed s n).get F.cavHotspot_EVENT)) := rfl

theorem hotSlice_eq : hotSlice s cycles counts = (List.range 256).find? (hotNow s cycles counts) := by
  unfold hotSlice
  dsimp only
  rw [List.find?_filter, ← List.sum_eq_foldl]
  simp only [Bool.decide_and, Bool.decide_eq_true]
  rfl

theorem hotNow_iff (n : Nat) : hotNow s cycles counts n = true ↔ hotAt s cycles counts n := by
  simp only [hotNow, hotAt, Bool.and_eq_true, decide_eq_true_eq]

theorem gives_hotspotWindow_none (cold : ∀ n, n < 256 → ¬ hotAt s cycles counts n) : Gives (.hotspotWindow cycles counts) s (fun v => v = s) := by
  refine ⟨s, ?_, rfl⟩
  have unnoticed : hotSlice s cycles counts = none := by
    rw [hotSlice_eq, List.find?_eq_none]
    exact fun n hn hot => cold n (List.mem_range.mp hn) ((hotNow_iff n).mp hot)
  rw [exec_hotspotWindow, unnoticed]

theorem gives_hotspotWindow_hot {n : Nat} (small : n < 256) (hot : hotAt s cycles counts n) (lowest : ∀ m, m < n → ¬ hotAt s cycles counts m) :
    Gives (.hotspotWindow cycles counts) s (fun v =>
      v.isSet F.cavHotspot_NOTICE = true ∧ v.get F.cavHotspot_SLICE = n ∧ v.get F.cavHotspot_WINDOWS = (s.get F.cavHotspot_WINDOWS + 1) % 2 ^ 32
      ∧ Only [.hl, .out] [.cavHotspot, .evt] s v) := by
  have found : hotSlice s cycles counts = some n := by
    rw [hotSlice_eq, List.find?_range_eq_some]
    refine ⟨(hotNow_iff n).mpr hot, List.mem_range.mpr small, fun m hm => ?_⟩
    rw [Bool.eq_false_iff.mpr (fun h => lowest m hm ((hotNow_iff m).mp h))]
    rfl
  let en := (hotNoticed s n).isSet F.cavHotspot_EVENT_EN && !s.isSet F.cavHotspot_NOTICE
  have signalled := frame_signalIf (hotNoticed s n) en ((hotNoticed s n).get F.cavHotspot_EVENT)
  refine ⟨signalIf (hotNoticed s n) en ((hotNoticed s n).get F.cavHotspot_EVENT), by rw [exec_hotspotWindow, found], ?_, ?_, ?_, ?_⟩
  · rw [signalled.isSet F.cavHotspot_NOTICE rfl 0, State.isSet, hotNoticed, State.bump, State.get_put_bits _ _ _ _ _ _ rfl rfl (.inl (by decide)),
      State.get_put_bits _ _ _ _ _ _ rfl rfl (.inr (by decide)), ← State.isSet, isSet_put_one _ 0 rfl]
  · rw [signalled.get F.cavHotspot_SLICE rfl 0, hotNoticed, State.bump, State.get_put_bits _ _ _ _ _ _ rfl rfl (.inl (by decide)),
      State.get_put_same _ _ _ _ rfl]
    exact Nat.mod_eq_of_lt small
  · rw [signalled.get F.cavHotspot_WINDOWS rfl 0, hotNoticed, State.get_bump_same _ _ _ _ rfl, State.get_put_bits _ _ _ _ _ _ rfl rfl (.inr (by decide)),
      State.get_put_bits _ _ _ _ _ _ rfl rfl (.inr (by decide))]
    rfl
  · have noticed : Frame 65540 (regBits [.cavHotspot, .evt]) s (hotNoticed s n) := (((Frame.refl _ _ s).put rfl).put rfl).bump rfl
    exact (noticed.step signalled rfl rfl).onlyOf rfl

end

end Sys2Proof.Proofs
end

section
/-! Work that ends with its core, array or block (R104, R136, R206, R507, R510). -/

namespace Sys2Proof.Proofs

open Sys2Proof.Machine Sys2Proof.Claims Sys2Proof.Laws

/-! Domains under requests for memory: a request restarts clocks, and leaves each domain in its state. -/

/-- What decides whether a place is down at a start is the same. -/
structure PowerKept (s t : State) : Prop where
  boot : t.boot = s.boot
  stage : t.get F.lkBootStatus_STAGE = s.get F.lkBootStatus_STAGE
  dom : ∀ d, t.domState d = s.domState d

section
variable {s t u : State}

theorem PowerKept.refl (s : State) : PowerKept s s := ⟨rfl, rfl, fun _ => rfl⟩

theorem PowerKept.trans (h : PowerKept s t) (g : PowerKept t u) : PowerKept s u :=
  ⟨g.boot.trans h.boot, g.stage.trans h.stage, fun d => (g.dom d).trans (h.dom d)⟩

theorem PowerKept.downAtStart (h : PowerKept s t) (d : Nat) : downAtStart t d = downAtStart s d := downAtStart_congr h.boot h.stage d (h.dom d)

/-- A frame that leaves the start and the domains alone. -/
def powerless (ps rs : Nat) : Bool :=
  !ps.testBit 11 && !rs.testBit RegId.lkBootStatus.ctorIdx && !rs.testBit RegId.pwrDomStatus.ctorIdx

theorem PowerKept.of_frame {ps rs : Nat} (h : Frame ps rs s t) (hm : powerless ps rs = true) : PowerKept s t := by
  simp only [powerless, Bool.and_eq_true, Bool.not_eq_true'] at hm
  obtain ⟨⟨boot, stage⟩, dom⟩ := hm
  exact ⟨h.boot boot, h.get F.lkBootStatus_STAGE stage 0, fun d => h.get F.pwrDomStatus_STATE dom d⟩

theorem PowerKept.of_update (regs : t.regs = s.regs) (bank : t.bank = s.bank) (boot : t.boot = s.boot) : PowerKept s t := by
  have same (f : Fld) (i : Nat) : t.get f i = s.get f i := by simp only [State.get, State.word, regs, bank]
  exact ⟨boot, same _ 0, fun d => same _ d⟩

theorem PowerKept.foldl {α : Type} {f : State → α → State} (hf : ∀ t a, PowerKept t (f t a)) (l : List α) (s : State) : PowerKept s (l.foldl f s) := by
  induction l generalizing s with
  | nil => exact .refl s
  | cons a l ih => exact (hf s a).trans (ih _)

theorem PowerKept.ite {c : Prop} [Decidable c] (ht : c → PowerKept s t) (hu : ¬c → PowerKept s u) : PowerKept s (if c then t else u) := by
  split
  · exact ht ‹_›
  · exact hu ‹_›

end

section
variable (s : State)

theorem powerKept_restart (d : Nat) : PowerKept s (s.restart d) := by
  refine ⟨(frame_State_restart s d).boot rfl, (frame_State_restart s d).get F.lkBootStatus_STAGE rfl 0, fun k => ?_⟩
  unfold State.restart
  split
  · exact State.get_put_bits _ _ _ _ _ _ rfl rfl (.inl (by decide))
  · rfl

theorem powerKept_mem (m : Memory) : PowerKept s { s with mem := m } := .of_update rfl rfl rfl
theorem powerKept_free (n : Nat) : PowerKept s { s with free := n } := .of_update rfl rfl rfl

theorem powerKept_charge (r pa : Nat) : PowerKept s (charge s r pa) := by
  have counted : PowerKept s ((s.restart (24 + storeChannel s pa / 32)).bump F.dramRegBytes_BYTES 64 r) :=
    (powerKept_restart ..).trans (.of_frame ((Frame.refl 0 (regBits [.dramRegBytes]) _).bump rfl) rfl)
  unfold charge
  dsimp only
  refine counted.trans ?_
  refine .ite (fun _ => powerKept_mem ..) (fun _ => .ite (fun _ => powerKept_mem ..) (fun _ => .ite (fun _ => powerKept_mem ..) (fun _ => ?_)))
  exact .trans (.of_frame ((Frame.refl 0 (regBits [.dramRegThrottled]) _).bump rfl) rfl) (powerKept_mem ..)

theorem powerKept_cavEvict (l : CavLine) : PowerKept s (cavEvict s l) := by
  refine .trans ?_ (.of_frame (frame_setCavern ..) rfl)
  unfold cavWriteBack
  refine .foldl (fun t i => ?_) _ s
  split
  · exact .ite (fun _ => .trans (.of_frame (frame_chanStore ..) rfl) (powerKept_charge ..)) (fun _ => .refl t)
  · exact .refl t

theorem powerKept_cavUpdate (l : CavLine) : PowerKept s (cavUpdate s l) := by
  unfold cavUpdate
  dsimp only
  refine .trans ?_ (.of_frame (frame_setCavern ..) rfl)
  refine .ite (fun _ => .trans ?_ (.foldl powerKept_cavEvict _ _)) (fun _ => .refl s)
  exact .ite (fun _ => .of_frame ((Frame.refl 0 (regBits [.cavSliceStatus]) s).bumpSat rfl) rfl) (fun _ => .refl s)

theorem powerKept_cavPlaceWay {n set cls : Nat} {comp : Bool} {w : Nat} {t : State} (h : cavPlaceWay s n set cls comp = some (w, t)) : PowerKept s t := by
  simp only [cavPlaceWay] at h
  split at h
  · obtain ⟨_, rfl⟩ := Prod.mk.inj (Option.some.inj h)
    exact .refl s
  · split at h
    · exact absurd h (by simp)
    · obtain ⟨_, rfl⟩ := Prod.mk.inj (Option.some.inj h)
      exact (powerKept_free s _).trans (.foldl powerKept_cavEvict _ _)

theorem powerKept_cavAllocate {rq : Rq} {pa : Nat} {secs : List CavSector} {t : State} (h : cavAllocate s rq pa secs = some t) : PowerKept s t := by
  simp only [cavAllocate] at h
  split at h
  · exact absurd h (by simp)
  · obtain ⟨⟨w, u⟩, placed, rfl⟩ := Option.map_eq_some_iff.mp h
    exact (powerKept_cavPlaceWay s placed).trans (.of_frame (frame_setCavern ..) rfl)

theorem powerKept_sectorPut (rq : Rq) (pa : Nat) (m : SMap Byte) (poison : Bool) : PowerKept s (sectorPut s rq pa m poison).2 := by
  have request : PowerKept s (requestAt s pa) := powerKept_restart ..
  unfold sectorPut
  dsimp only
  split
  · split
    · refine request.trans (.trans ?_ (powerKept_cavUpdate ..))
      split
      · exact .refl _
      · split
        · exact .refl _
        · exact powerKept_charge ..
    · exact request
  · split
    · rename_i allocated
      refine request.trans ((powerKept_cavAllocate _ allocated).trans ?_)
      exact .ite (fun _ => .refl _) (fun _ => powerKept_charge ..)
    · exact request.trans (.trans (.of_frame (frame_chanStore ..) rfl) (powerKept_charge ..))

theorem powerKept_devWriteFrom (seen : List Seen) (fuel : Nat) (rq : Rq) (pa : Nat) (bs : List Byte) : PowerKept s (devWriteFrom seen fuel s rq pa bs) := by
  have counts (t : State) (l : List Seen) : PowerKept t (countSeen t rq.cls l) := .of_frame (frame_countSeen ..) rfl
  induction fuel generalizing s seen pa bs with
  | zero => exact counts ..
  | succ fuel ih =>
    unfold devWriteFrom
    refine .ite (fun _ => counts ..) (fun _ => ?_)
    dsimp only
    refine .trans ?_ (ih ..)
    exact .ite (fun _ => .trans (powerKept_sectorPut ..) (counts ..)) (fun _ => powerKept_sectorPut ..)

end

/-! What a failure of a core's work leaves: `Aftermath`, with the domains as they were. -/

structure WorkEnded (s t : State) : Prop extends Aftermath s t, PowerKept s t

section
variable {s t u : State}

theorem WorkEnded.refl (s : State) : WorkEnded s s := ⟨.refl s, .refl s⟩

theorem WorkEnded.trans (h : WorkEnded s t) (g : WorkEnded t u) : WorkEnded s u := ⟨h.toAftermath.trans g.toAftermath, h.toPowerKept.trans g.toPowerKept⟩

theorem WorkEnded.foldl {α : Type} {f : State → α → State} (hf : ∀ t a, WorkEnded t (f t a)) (l : List α) (s : State) : WorkEnded s (l.foldl f s) :=
  ⟨.foldl (fun t a => (hf t a).toAftermath) l s, .foldl (fun t a => (hf t a).toPowerKept) l s⟩

theorem WorkEnded.ite {c : Prop} [Decidable c] (ht : c → WorkEnded s t) (hu : ¬c → WorkEnded s u) : WorkEnded s (if c then t else u) := by
  split
  · exact ht ‹_›
  · exact hu ‹_›

/-- An end of work in a frame without the start and the domains. -/
theorem WorkEnded.of {ps rs : Nat} (h : Aftermath s t) (f : Frame ps rs s t) (hm : powerless ps rs = true) : WorkEnded s t := ⟨h, .of_frame f hm⟩

theorem WorkEnded.of_calm {ps rs : Nat} (f : Frame ps rs s t) (hm : (calm ps rs && !ps.testBit 6 && !ps.testBit 16) = true) (hp : powerless ps rs = true) :
    WorkEnded s t := ⟨.of_calm f hm, .of_frame f hp⟩

end

section
variable (s : State)

theorem workEnded_free (n : Nat) : WorkEnded s { s with free := n } := ⟨.of_update rfl rfl rfl rfl rfl (jobs_of_eng rfl), powerKept_free ..⟩

theorem workEnded_devPut (c ca : Nat) (bs : List Byte) : WorkEnded s (resState (devPut c ca bs s)) := by
  refine ⟨aftermath_devPut .., ?_⟩
  have placed : resState (placeOf c ca bs.length .write [0] s) = s := by
    unfold placeOf
    split <;> rfl
  unfold devPut
  split
  · exact .refl s
  · cases h : placeOf c ca bs.length .write [0] s <;> rw [h] at placed <;> obtain rfl : _ = s := placed
    · exact powerKept_devWriteFrom ..
    · exact .refl _
    · exact .refl _

theorem workEnded_spoilAt (c ca n : Nat) : WorkEnded s (spoilAt c s ca n) := by
  have put := workEnded_devPut s c ca (undefinedBytes s n)
  unfold spoilAt
  split
  · rename_i t done
    rw [done] at put
    exact put.trans (workEnded_free ..)
  · exact .refl s

theorem workEnded_spoilSram (core a n : Nat) : WorkEnded s (spoilSram s core a n) := .of_calm (frame_spoilSram ..) rfl rfl

end

section
variable (s : State)

theorem workEnded_spoil (c core : Nat) (r : RoutineJob) : WorkEnded s (spoil c core r s) := by
  refine .foldl (fun t x => ?_) _ s
  cases x with
  | attn a => exact .foldl (fun t o => .foldl (fun t i => workEnded_spoilAt ..) _ t) _ t
  | array n op => exact .foldl (fun t m => .foldl (fun t i => workEnded_spoilSram ..) _ t) _ t
  | tender n x =>
    refine .foldl (fun t i => ?_) _ t
    split
    · exact workEnded_spoilAt ..
    · exact workEnded_spoilSram ..
  | commit => exact .refl t

theorem workEnded_dropJob (id : Nat) : WorkEnded s (dropJob s id) := .of (aftermath_dropJob ..) (frame_dropJob ..) rfl

theorem workEnded_contained (c unit code extra : Nat) (own : Option (Nat × Nat × Nat × Nat)) : WorkEnded s (contained s c unit code extra own) :=
  .of (aftermath_contained ..) (frame_contained ..) rfl

theorem workEnded_post (unit : Nat) (ctx : Option Nat) {cls : Nat} (code extra : Nat) (hc : cls ≠ 3) : WorkEnded s (post s unit ctx cls code extra) :=
  .of (aftermath_post _ _ _ _ _ hc) (frame_post ..) rfl

theorem workEnded_unpark (c : Nat) (gone : Parked → Bool) : WorkEnded s (unpark s c gone) := .of_calm (frame_unpark ..) rfl rfl

theorem workEnded_startHead (u : Nat) : WorkEnded s (startHead s u) := .of (aftermath_startHead ..) (frame_startHead ..) rfl

theorem workEnded_run (x : Running) : WorkEnded s { s with run := x } :=
  ⟨.of_update rfl rfl rfl rfl rfl (jobs_of_eng rfl), .of_update rfl rfl rfl⟩

theorem workEnded_setJobs {s : State} {js : List EngJob} (h : ∀ j ∈ js, ∃ i ∈ s.eng.jobs, i.unit = j.unit) : WorkEnded s (setJobs s js) :=
  .of (aftermath_setJobs h) (frame_setJobs ..) rfl

theorem workEnded_filterJobs (p : EngJob → Bool) : WorkEnded s (setJobs s (s.eng.jobs.filter p)) := .of (aftermath_filterJobs ..) (frame_setJobs ..) rfl

/-! Routines. -/

theorem workEnded_faultRoutine (c p : Nat) (j : EngJob) : WorkEnded s (faultRoutine c p s j) := by
  unfold faultRoutine
  refine .trans (.trans ?_ (workEnded_dropJob ..)) (workEnded_contained ..)
  split
  · exact workEnded_spoil ..
  · exact .refl s

theorem workEnded_faultRoutines (c p : Nat) : WorkEnded s (faultRoutines s c p) := .foldl (fun t j => workEnded_faultRoutine t c p j) _ s

/-! Blocks. -/

theorem workEnded_abandonJobs (id : Nat) : WorkEnded s (abandonJobs s id) := by
  unfold abandonJobs
  dsimp only
  refine .trans ?_ (.foldl workEnded_startHead _ _)
  refine .trans (.foldl (fun t (j : EngJob) => workEnded_unpark t j.ctx (fun p => p.who == .job j.id)) _ s) (workEnded_setJobs (fun j hj => ?_))
  obtain ⟨i, hi, rfl⟩ := List.mem_map.mp hj
  refine ⟨i, (List.mem_filter.mp hi).1, ?_⟩
  split <;> rfl

theorem workEnded_replayBlock (b : BlockRec) : WorkEnded s (replayBlock s b) := by
  unfold replayBlock
  refine .trans ?_ (workEnded_run ..)
  refine .trans ?_ (.of_calm (frame_dropBlock ..) rfl rfl)
  exact .trans (workEnded_abandonJobs ..) (.of_calm (frame_updLaunch ..) rfl rfl)

theorem workEnded_faultBlock (unit : Nat) (noted : Bool) (b : BlockRec) : WorkEnded s (faultBlock s unit noted b) := by
  unfold faultBlock
  split
  · exact .refl s
  · refine .ite (fun _ => ?_) (fun _ => workEnded_contained ..)
    exact .ite (fun _ => .trans (workEnded_replayBlock ..) (workEnded_post _ _ _ _ _ (by decide))) (fun _ => workEnded_replayBlock ..)

/-! Tasks of a segmented multiply. -/

theorem workEnded_updSeg (id : Nat) (f : SegMul → SegMul) : WorkEnded s (updSeg s id f) :=
  .of (.of_jobs (frame_updSeg ..) rfl rfl (fun j hj => ⟨j, hj, rfl⟩)) (frame_updSeg ..) rfl

/-- Undefined bytes written in a context's memory, where they can be. -/
def undefinedPut (c ca n : Nat) (s : State) : State :=
  match devPut c ca (undefinedBytes s n) s with
  | .ok _ s => { s with free := s.free + 1 }
  | .absent _ _ s => s
  | .halt _ _ s => s

theorem workEnded_undefinedPut (c ca n : Nat) : WorkEnded s (undefinedPut c ca n s) := by
  have written := workEnded_devPut s c ca (undefinedBytes s n)
  unfold undefinedPut
  split <;> rename_i done <;> rw [done] at written
  · exact written.trans (workEnded_free ..)
  · exact written
  · exact written

/-- The gradient buffers of one handle. -/
def gradsUndefined (c : Nat) (r : SegRun) (s : State) : State :=
  let s := (List.range r.rank).foldl (fun s i => undefinedPut c (r.ga + i * r.gaPitch) (4 * r.inDim) s) s
  (List.range r.outDim).foldl (fun s i => undefinedPut c (r.gb + i * r.gbPitch) (4 * r.rank) s) s

theorem workEnded_gradsUndefined (c : Nat) (r : SegRun) : WorkEnded s (gradsUndefined c r s) :=
  .trans (.foldl (fun t i => workEnded_undefinedPut t c (r.ga + i * r.gaPitch) (4 * r.inDim)) _ s)
    (.foldl (fun t i => workEnded_undefinedPut t c (r.gb + i * r.gbPitch) (4 * r.rank)) _ _)

theorem workEnded_spoilGrads (m : SegMul) : WorkEnded s (spoilGrads s m) := by
  refine .foldl (fun t x => ?_) _ s
  split
  · exact workEnded_gradsUndefined t m.job.ctx _
  · exact workEnded_gradsUndefined t m.job.ctx _
  · exact .refl t

theorem workEnded_faultTask (unit : Nat) (noted : Bool) (x : SegMul × SegTask) : WorkEnded s (faultTask s unit noted x) := by
  unfold faultTask
  refine .ite (fun _ => .trans (workEnded_spoilGrads ..) (workEnded_contained ..)) (fun _ => ?_)
  have again : WorkEnded s (unpark (updSeg s x.1.job.id (fun y => { y with tasks := y.tasks.filter (fun z => z.no != x.2.no) })) x.1.job.ctx
      (fun p => p.who == .task x.1.job.id x.2.no)) := (workEnded_updSeg ..).trans (workEnded_unpark ..)
  exact .ite (fun _ => again.trans (workEnded_post _ _ _ _ _ (by decide))) (fun _ => again)

/-! All of a core's work. -/

/-- What a failed core leaves of its work, before its place is given or vacated. -/
def workFailed (s : State) (c p : Nat) : State :=
  let u := unitId 1 p
  let s := faultRoutines s c p
  let s := (s.run.blocks.filter (fun b => b.core == c)).foldl (fun s b => faultBlock s u false b) s
  let s := (tasksOn s c).foldl (fun s t => faultTask s u false t) s
  let here (j : EngJob) : Bool := j.unit == u || (j.unit / 4096 == 2 && j.unit % 4096 / 4 == p)
  let s := (s.eng.jobs.filter here).foldl (fun s j => unpark s j.ctx (fun x => x.who == .job j.id)) s
  setJobs s (s.eng.jobs.filter (fun j => !here j))

/-- It changes what the ends of routines, blocks and tasks change. -/
theorem frame_workFailed (c p : Nat) : Frame 95102 (regBits Claims.spoilRegs) s (workFailed s c p) := by
  unfold workFailed
  dsimp only
  refine Frame.step ?_ (frame_setJobs ..) rfl rfl
  refine Frame.foldl ?_ (fun t (j : EngJob) h => h.step (frame_unpark t j.ctx (fun x => x.who == .job j.id)) rfl rfl)
  refine Frame.foldl ?_ (fun t x h => h.step (frame_faultTask t (unitId 1 p) false x) rfl rfl)
  refine Frame.foldl ?_ (fun t b h => h.step (frame_faultBlock t (unitId 1 p) false b) rfl rfl)
  exact (frame_faultRoutines s c p).mono rfl rfl

theorem failPlaced_eq (c p : Nat) : failPlaced s c p = match (freeCores (workFailed s c p) (p / 16)).head? with
    | some q => giveCore (emptyCore (workFailed s c p) c true) c p q
    | none => spareFlag (post (vacateCore (emptyCore (workFailed s c p) c false) c) (unitId 1 p) none 0 0x0104 c) F.faultStatus_UNIT_LOST := rfl

theorem workEnded_workFailed (c p : Nat) : WorkEnded s (workFailed s c p) := by
  unfold workFailed
  dsimp only
  refine .trans ?_ (workEnded_filterJobs ..)
  refine .trans ?_ (.foldl (fun t (j : EngJob) => workEnded_unpark t j.ctx (fun x => x.who == .job j.id)) _ _)
  refine .trans ?_ (.foldl (fun t x => workEnded_faultTask t (unitId 1 p) false x) _ _)
  exact .trans (workEnded_faultRoutines ..) (.foldl (fun t b => workEnded_faultBlock t (unitId 1 p) false b) _ _)

end

end Sys2Proof.Proofs
end

section
/-! Checks and failures of arrays and cores (R104 to R106, R507 to R514). -/

namespace Sys2Proof.Proofs

open Sys2Proof.Machine Sys2Proof.Claims Sys2Proof.Laws

/-! A block that a check concerns (R104, R510). -/

section
variable {s t : State} {b : BlockRec} {l : Launch}

theorem replayBlock_run (s : State) (b : BlockRec) : blockRec (replayBlock s b) b.id = none
    ∧ (replayBlock s b).run.launches = updWhere s.run.launches (fun x => x.id == b.launch) (fun x => { x with again := setInsert x.again b.idx }) := by
  have abandoned : (abandonJobs s b.id).run = s.run := (frame_abandonJobs ..).run rfl
  have dropped (w : State) : (dropBlock w b).run.blocks = w.run.blocks.filter (fun x => x.id != b.id) ∧ (dropBlock w b).run.launches = w.run.launches := by
    unfold dropBlock
    dsimp only
    rw [(frame_freeCore ..).run rfl, (frame_showCore ..).run rfl, (frame_unpark ..).run rfl]
    exact ⟨rfl, rfl⟩
  constructor
  · show ((dropBlock _ b).run.blocks.find? _) = none
    rw [(dropped _).1, List.find?_eq_none]
    intro x hx same
    exact bne_iff_ne.mp (List.mem_filter.mp hx).2 (beq_iff_eq.mp same)
  · show (dropBlock _ b).run.launches = _
    rw [(dropped _).2, updLaunch, abandoned]

/-- Its launch knows a block that is to run again. -/
theorem launchRec_replayBlock (found : launchRec s b.launch = some l) :
    launchRec (replayBlock s b) b.launch = some { l with again := setInsert l.again b.idx } := by
  rw [launchRec, (replayBlock_run s b).2,
    find?_updWhere (p := fun x : Launch => x.id == b.launch) (f := fun x => { x with again := setInsert x.again b.idx }) (fun _ h => h)]
  exact congrArg (Option.map fun x : Launch => { x with again := setInsert x.again b.idx }) found

theorem blockFaulted_faultBlock (found : launchRec t b.launch = some l) (seq : t.flt.seq = s.flt.seq) (ctx : t.ctxState b.ctx = s.ctxState b.ctx) (unit : Nat) :
    BlockFaulted s (faultBlock t unit true b) b l unit := by
  constructor
  · intro replayable
    have again : faultBlock t unit true b = post (replayBlock t b) unit (some b.ctx) 0 0x0101 b.idx := by
      unfold faultBlock
      rw [found]
      dsimp only
      rw [if_pos replayable, if_pos rfl]
    have run : (post (replayBlock t b) unit (some b.ctx) 0 0x0101 b.idx).run = (replayBlock t b).run := (frame_post ..).run rfl
    rw [again]
    refine ⟨?_, ⟨{ l with again := setInsert l.again b.idx }, ?_, mem_setInsert_self ..⟩, (posts_post ..).from ?_⟩
    · rw [blockRec, run]
      exact (replayBlock_run t b).1
    · rw [launchRec, run]
      exact launchRec_replayBlock found
    · rw [← seq]
      exact congrArg FaultState.seq ((frame_replayBlock t b).flt rfl)
  · intro ends runs
    have done : faultBlock t unit true b = contained t b.ctx unit 0x0102 b.idx := by
      unfold faultBlock
      rw [found]
      dsimp only
      rw [ends, if_neg (by decide)]
    rw [done]
    exact ⟨ctxState_contained (ctx.trans runs) .., (posts_contained ..).from seq⟩

end

/-! Arrays (R103 to R106). -/

section
variable {s : State} {p array work : Nat} (hp : p < 256) (ha : array < 4)
include hp ha

theorem gives_arrayParityFail_idle (idle : ∀ c, placedCore s p = some c → (arrayWork s c p array)[work]? = none) :
    Gives (.arrayParityFail p ⟨array, work⟩) s (fun v => v = s) := by
  refine ⟨arrayFault s p array work, if_pos ⟨hp, ha⟩, ?_⟩
  unfold arrayFault
  cases place : placedCore s p with
  | none => rfl
  | some c =>
    dsimp only
    rw [idle c place]

theorem gives_arrayParityFail_block {c : Nat} {j : EngJob} {id : Nat} {i : IssuedAt} {b : BlockRec} {l : Launch} (place : placedCore s p = some c)
    (at' : (arrayWork s c p array)[work]? = some (.job j)) (acc : j.acc = false) (origin : j.origin = .block id i) (block : blockRec s id = some b)
    (launch : launchRec s b.launch = some l) :
    Gives (.arrayParityFail p ⟨array, work⟩) s (fun v => BlockFaulted s v b l (unitId 1 p)) := by
  refine ⟨arrayFault s p array work, if_pos ⟨hp, ha⟩, ?_⟩
  have fault : arrayFault s p array work = faultBlock s (unitId 1 p) true b := by
    unfold arrayFault
    rw [place]
    dsimp only
    rw [at']
    dsimp only
    rw [faultJob, acc, if_neg (by decide), origin]
    dsimp only
    rw [block]
  rw [fault]
  exact blockFaulted_faultBlock launch rfl rfl _

end

/-! Cores (R507 to R512). -/

theorem fltRest_vacated (s : State) (c : Nat) : (vacateCore (emptyCore s c false) c).flt = s.flt :=
  ((frame_vacateCore ..).flt rfl).trans ((frame_emptyCore s c false).flt rfl)

/-- What a failure of a core in its place leaves of the faults' state. -/
theorem fltRest_failPlaced (s : State) (c p : Nat) : fltRest (failPlaced s c p).flt = fltRest s.flt := by
  have work := (workEnded_workFailed s c p).flt
  rw [failPlaced_eq]
  split
  · rename_i q _
    have given := coreGiven_giveCore (emptyCore (workFailed s c p) c true) c p q
    rw [given.flt, (frame_emptyCore ..).flt rfl, work]
  · have lost : Aftermath (vacateCore (emptyCore (workFailed s c p) c false) c)
        (spareFlag (post (vacateCore (emptyCore (workFailed s c p) c false) c) (unitId 1 p) none 0 0x0104 c) F.faultStatus_UNIT_LOST) :=
      (aftermath_post _ _ _ _ _ (by decide)).trans (aftermath_unitLost _)
    rw [lost.flt, fltRest_vacated, work]

theorem unitMark_of_fltRest {s t : State} (h : fltRest t.flt = fltRest s.flt) (u : Nat) : unitMark t u = unitMark s u := by
  have e := congrArg FaultState.unit h
  exact unitMark_congr e u

/-- A core's mark and swaps as it fails, before the work it leaves. -/
def coreMarked (s : State) (p : Nat) : State :=
  let s := setMark s (unitId 1 p) 4
  { s with flt := { s.flt with swaps := s.flt.swaps.filter (fun x => x.unit != unitId 1 p) } }

theorem coreFail_eq {s : State} {p : Nat} (works : unitMark s (unitId 1 p) ≠ 4) : coreFail s p = match placedCore s p with
    | some c => failPlaced (abandonSwap (coreMarked s p) p) c p
    | none => showCoreSpare (abandonSwap (coreMarked s p) p) (p / 16) := if_neg works

theorem unitMark_coreMarked (s : State) (p : Nat) : unitMark (coreMarked s p) (unitId 1 p) = 4 := unitMark_setMark_same s (unitId 1 p) 4

/-- A swap that loses its spare is that of another core. -/
theorem unitMark_abandonSwap {s : State} {u : Nat} (h : unitMark s u = 4) (q : Nat) : unitMark (abandonSwap s q) u = 4 := by
  unfold abandonSwap
  split
  · exact h
  · rename_i x found
    have draining := List.find?_some found
    simp only [Bool.and_eq_true, beq_iff_eq] at draining
    have other : u ≠ x.unit := by
      rintro rfl
      exact absurd (h.symm.trans draining.2) (by decide)
    have marked : unitMark (setMark { s with flt := { s.flt with swaps := s.flt.swaps.filter (fun y => y.unit != x.unit) } } x.unit 0) u = 4 := by
      rw [unitMark_setMark_ne _ _ other]
      exact h
    dsimp only
    split
    · exact marked
    · rw [(aftermath_signalIf ..).unitMark, unitMark_congr (congrArg FaultState.unit (State.put_flt ..)), unitMark_congr (congrArg FaultState.unit (State.put_flt ..)),
        unitMark_congr (congrArg FaultState.unit (State.put_flt ..))]
      exact marked

/-- A failed core is marked so, whatever it did. -/
theorem unitMark_coreFail (s : State) (p : Nat) : unitMark (coreFail s p) (unitId 1 p) = 4 := by
  by_cases failed : unitMark s (unitId 1 p) = 4
  · rw [coreFail, if_pos failed, failed]
  · have marked := unitMark_abandonSwap (unitMark_coreMarked s p) p
    rw [coreFail_eq failed]
    split
    · rw [unitMark_of_fltRest (fltRest_failPlaced ..), marked]
    · rw [unitMark_congr (congrArg FaultState.unit ((frame_showCoreSpare ..).flt rfl)), marked]

/-! A failed core's place (R512). -/

/-- Its own mark and swaps apart, the spares are those of `sparesAt`: a core in its place is none. -/
theorem freeCores_coreMarked {s : State} {p c : Nat} (place : placedCore s p = some c) (g : Nat) :
    freeCores (coreMarked s p) g = freeCores { s with flt := { s.flt with swaps := s.flt.swaps.filter (fun x => x.unit != unitId 1 p) } } g := by
  unfold freeCores
  refine List.filter_congr (fun k _ => ?_)
  have reserved : coreReserved (coreMarked s p) k
      = coreReserved { s with flt := { s.flt with swaps := s.flt.swaps.filter (fun x => x.unit != unitId 1 p) } } k := by
    unfold coreReserved
    show (s.flt.swaps.filter _).any _ = (s.flt.swaps.filter _).any _
    rw [List.any_filter, List.any_filter]
    congr 1
    funext x
    by_cases own : x.unit = unitId 1 p
    · rw [own, bne_self_eq_false]
      rfl
    · have mark : unitMark (coreMarked s p) x.unit = unitMark s x.unit := unitMark_setMark_ne s 4 own
      rw [mark]
      rfl
  by_cases same : k = p
  · subst same
    have placed : (placedCore (coreMarked s k) k).isNone = false := by
      rw [show placedCore (coreMarked s k) k = placedCore s k from rfl, place]
      rfl
    have placed' : (placedCore { s with flt := { s.flt with swaps := s.flt.swaps.filter (fun x => x.unit != unitId 1 k) } } k).isNone = false := placed
    rw [placed, placed']
    simp
  · have mark : unitMark (coreMarked s p) (unitId 1 k) = unitMark s (unitId 1 k) := unitMark_setMark_ne s 4 (by unfold unitId; omega)
    rw [reserved, mark]
    rfl

theorem abandonSwap_of_none {s : State} {q : Nat} (away : ∀ x ∈ s.flt.swaps, x.spare ≠ some q) : abandonSwap s q = s := by
  have none : s.flt.swaps.find? (fun x => x.unit / 4096 == 1 && x.spare == some q && unitMark s x.unit == 2) = none := by
    rw [List.find?_eq_none]
    intro x hx found
    simp only [Bool.and_eq_true, beq_iff_eq] at found
    exact away x hx found.1.2
  unfold abandonSwap
  rw [none]

theorem coreFailed_coreFail {s : State} {p : Nat} (hp : p < 256) : CoreFailed s (coreFail s p) p := by
  refine ⟨unitMark_coreFail s p, fun works c place away => ?_⟩
  have still : abandonSwap (coreMarked s p) p = coreMarked s p := abandonSwap_of_none (fun x hx => away x (List.mem_filter.mp hx).1)
  have failed : coreFail s p = failPlaced (coreMarked s p) c p := by
    rw [coreFail_eq works, place]
    dsimp only
    rw [still]
  let w := workFailed (coreMarked s p) c p
  have work : WorkEnded (coreMarked s p) w := workEnded_workFailed ..
  have spares : freeCores w (p / 16) = sparesAt s p := by
    rw [freeCores_congr work.coreMap work.flt, freeCores_coreMarked place]
    rfl
  rw [failed, failPlaced_eq]
  constructor
  · intro q spare
    rw [spares, spare]
    have emptied := frame_emptyCore w c true
    have given := coreGiven_giveCore (emptyCore w c true) c p q
    have small : q < 256 := by
      have := lt_of_head_freeCores spare
      omega
    refine ⟨given.place, given.phys.trans (Nat.mod_eq_of_lt small), ?_, ?_⟩
    · have kept : PowerKept (coreMarked s p) (emptyCore w c true) := work.toPowerKept.trans (.of_frame emptied rfl)
      rw [given.valid, kept.downAtStart]
      rfl
    · rw [given.worn, emptied.get F.wearCore_SWAPS_OUT rfl p]
      rw [(frame_workFailed ..).get F.wearCore_SWAPS_OUT rfl p]
      rfl
  · intro vacant
    rw [spares, vacant]
    have lost := isSet_unitLost (post (vacateCore (emptyCore w c false) c) (unitId 1 p) none 0 0x0104 c)
    have after : Aftermath (vacateCore (emptyCore w c false) c)
        (spareFlag (post (vacateCore (emptyCore w c false) c) (unitId 1 p) none 0 0x0104 c) F.faultStatus_UNIT_LOST) :=
      (aftermath_post _ _ _ _ _ (by decide)).trans (aftermath_unitLost _)
    refine ⟨?_, ?_, lost⟩
    · dsimp only
      rw [corePos_congr after.coreMap, corePos_vacateCore]
    · dsimp only
      rw [(frame_spareFlag _ _ rfl).isSet F.idCoreMap_VALID rfl c, (frame_post ..).isSet F.idCoreMap_VALID rfl c, isSet_valid_vacateCore]

/-! The commands of cores (R507, R508). -/

section
variable {s : State} {p : Nat} (hp : p < 256)

theorem frame_checkNoted (s : State) (u : Nat) : Frame 8192 (regBits [.wearCore]) s (noteCheck s u) := (frame_noteCheck ..).mono rfl rfl

theorem recentCheck_noteCheck (s : State) (u : Nat) : recentCheck (noteCheck s u) u = true := by
  have noted : (noteCheck s u).flt.lastCheck = smapInsert s.flt.lastCheck u s.ns := by rw [noteCheck, State.bumpSat_flt]
  have now : (noteCheck s u).ns = s.ns := by rw [noteCheck, State.bumpSat_ns]
  rw [recentCheck, noted, smapFind_insert, if_pos rfl, now]
  exact decide_eq_true (by omega)

include hp

theorem exec_coreCheckFail_again (again : recentCheck s (unitId 1 p) = true) (k : Option Nat) :
    exec (.coreCheckFail p k) s = ok (coreFail (noteCheck s (unitId 1 p)) p) := by
  change execCoreCheckFail p k s = _
  unfold execCoreCheckFail
  rw [if_pos hp]
  dsimp only
  rw [again]
  rfl

/-- A first check is noted. -/
theorem gives_coreCheckFail_noted (first : recentCheck s (unitId 1 p) = false) :
    Gives (.coreCheckFail p none) s (fun v => v.get F.wearCore_CHECKS p = min (s.get F.wearCore_CHECKS p + 1) 255 ∧ recentCheck v (unitId 1 p) = true
      ∧ Only [.flt] [.wearCore] s v) := by
  refine ⟨noteCheck s (unitId 1 p), ?_, ?_, recentCheck_noteCheck .., (frame_checkNoted ..).onlyOf rfl⟩
  · change execCoreCheckFail p none s = _
    unfold execCoreCheckFail
    rw [if_pos hp]
    dsimp only
    rw [first, if_neg (by decide)]
    split
    · rename_i given
      exact nomatch given
    · rfl
  · rw [noteCheck, unitId_mod (by omega), State.get_bumpSat_same _ _ _ _ rfl]
    rfl

/-- The block it concerns ends, or runs again. -/
theorem gives_coreCheckFail_block (first : recentCheck s (unitId 1 p) = false) (c k : Nat) (b : BlockRec) (l : Launch) (place : placedCore s p = some c)
    (found : s.run.blocks.find? (fun b => b.core == c && b.idx == k) = some b) (_block : blockRec s b.id = some b) (launch : launchRec s b.launch = some l) :
    Gives (.coreCheckFail p (some k)) s (fun v => BlockFaulted s v b l (unitId 1 p)) := by
  have noted := frame_checkNoted s (unitId 1 p)
  have place' : placedCore (noteCheck s (unitId 1 p)) p = some c := (placedCore_congr (noted.bank_coreMap rfl) p).trans place
  refine ⟨faultBlock (noteCheck s (unitId 1 p)) (unitId 1 p) true b, ?_, blockFaulted_faultBlock ?_ ?_ (noted.get F.ctxState_STATE rfl b.ctx) _⟩
  · change execCoreCheckFail p (some k) s = _
    unfold execCoreCheckFail
    rw [if_pos hp]
    dsimp only
    rw [first, if_neg (by decide), place']
    dsimp only
    rw [noted.run rfl, found]
  · rw [launchRec, noted.run rfl]
    exact launch
  · rw [noteCheck, State.bumpSat_flt]

theorem gives_coreCheckFail_again (again : recentCheck s (unitId 1 p) = true) (k : Option Nat) :
    Gives (.coreCheckFail p k) s (fun v => unitMark v (unitId 1 p) = 4) := ⟨_, exec_coreCheckFail_again hp again k, unitMark_coreFail ..⟩

theorem gives_coreHeartbeatTimeout : Gives (.coreHeartbeatTimeout p) s (fun v => CoreFailed s v p) := ⟨coreFail s p, if_pos hp, coreFailed_coreFail hp⟩

end

/-! DPUs (R105, R106). -/

theorem setDpu_shows (s : State) (n v : Nat) : smapGet (setDpu s n v).bank.dpuMap 0 n = v
    ∧ (setDpu s n v).get F.coreArrayDpuMap_SPARE_FILLS n = (if v % 64 = 0 ∨ v % 64 = 33 then 0x3F else v % 64 - 1) % 64
    ∧ (setDpu s n v).get F.coreArrayDpuMap_FAILED_PHYS n = (if v % 64 = 0 then 0x3F else v % 64 - 1) % 64
    ∧ (setDpu s n v).get F.coreArrayDpuMap_EXHAUSTED n = v / 64 % 2 := by
  have map : (bankChange { s with bank := { s.bank with dpuMap := smapSet s.bank.dpuMap 0 n v } }).bank.dpuMap = smapSet s.bank.dpuMap 0 n v := by
    rw [bankChange, State.bump_bank_dpuMap]
  have held : smapGet (bankChange { s with bank := { s.bank with dpuMap := smapSet s.bank.dpuMap 0 n v } }).bank.dpuMap 0 n = v := by
    rw [map, smapGet_set, if_pos rfl]
  unfold setDpu
  refine ⟨?_, ?_, ?_, ?_⟩
  · rw [(frame_showDpu ..).bank_dpuMap rfl, held]
  all_goals
    unfold showDpu
    rw [held]
    dsimp only
  · rw [State.get_put_bits _ _ _ _ _ _ rfl rfl (.inl (by decide)), State.get_put_bits _ _ _ _ _ _ rfl rfl (.inl (by decide)), State.get_put_same _ _ _ _ rfl]
    rfl
  · rw [State.get_put_bits _ _ _ _ _ _ rfl rfl (.inl (by decide)), State.get_put_same _ _ _ _ rfl]
    rfl
  · rw [State.get_put_same _ _ _ _ rfl]
    rfl

section
variable {s : State} {p array dpu work : Nat} (residue : Bool) (hp : p < 256) (ha : array < 4) (hd : dpu < 33)
include hp ha hd

theorem exec_dpuCheckFail : exec (.dpuCheckFail p ⟨array, work⟩ dpu residue) s =
    if smapGet s.bank.dpuMap 0 (p * 4 + array) % 64 = dpu + 1 then ok s
    else if smapGet s.bank.dpuMap 0 (p * 4 + array) = 0 ∧ dpu = 32 then ok (post (setDpu s (p * 4 + array) 33) (unitId 2 (p * 4 + array)) none 0 0x0111 32)
    else if smapGet s.bank.dpuMap 0 (p * 4 + array) = 0 then
      ok (post (clearHalves (setDpu (arrayFault s p array work) (p * 4 + array) (dpu + 1)) p array) (unitId 2 (p * 4 + array)) none 2 0x0110 dpu)
    else ok (coreFail (setDpu s (p * 4 + array) (smapGet s.bank.dpuMap 0 (p * 4 + array) % 64 + 64)) p) := if_pos ⟨hp, ha, hd⟩

/-- A first failure: the spare takes the place of the DPU. -/
theorem gives_dpuCheckFail_first (fresh : smapGet s.bank.dpuMap 0 (p * 4 + array) = 0) (small : dpu < 32) :
    Gives (.dpuCheckFail p ⟨array, work⟩ dpu residue) s (fun v => smapGet v.bank.dpuMap 0 (p * 4 + array) = dpu + 1
      ∧ v.get F.coreArrayDpuMap_SPARE_FILLS (p * 4 + array) = dpu ∧ v.get F.coreArrayDpuMap_FAILED_PHYS (p * 4 + array) = dpu) := by
  let w := setDpu (arrayFault s p array work) (p * 4 + array) (dpu + 1)
  obtain ⟨map, fills, failed, _⟩ := setDpu_shows (arrayFault s p array work) (p * 4 + array) (dpu + 1)
  have cleared := frame_clearHalves w p array
  have posted := aftermath_post (clearHalves w p array) (unitId 2 (p * 4 + array)) none (cls := 2) 0x0110 dpu (by decide)
  have number : (dpu + 1) % 64 = dpu + 1 := Nat.mod_eq_of_lt (by omega)
  refine ⟨post (clearHalves w p array) (unitId 2 (p * 4 + array)) none 2 0x0110 dpu, ?_, ?_, ?_, ?_⟩
  · rw [exec_dpuCheckFail residue hp ha hd, fresh, if_neg (by omega), if_neg (by omega), if_pos rfl]
  · have same := congrArg Bank.dpuMap posted.bank
    have same' : (post (clearHalves w p array) (unitId 2 (p * 4 + array)) none 2 0x0110 dpu).bank.dpuMap = (clearHalves w p array).bank.dpuMap := same
    rw [same', cleared.bank_dpuMap rfl]
    exact map
  · rw [(frame_post ..).get F.coreArrayDpuMap_SPARE_FILLS rfl (p * 4 + array), cleared.get F.coreArrayDpuMap_SPARE_FILLS rfl (p * 4 + array), fills, number, if_neg (by omega)]
    omega
  · rw [(frame_post ..).get F.coreArrayDpuMap_FAILED_PHYS rfl (p * 4 + array), cleared.get F.coreArrayDpuMap_FAILED_PHYS rfl (p * 4 + array), failed, number, if_neg (by omega)]
    omega

/-- The spare itself fails. -/
theorem gives_dpuCheckFail_spare (fresh : smapGet s.bank.dpuMap 0 (p * 4 + array) = 0) (spare : dpu = 32) :
    Gives (.dpuCheckFail p ⟨array, work⟩ dpu residue) s (fun v => v.get F.coreArrayDpuMap_SPARE_FILLS (p * 4 + array) = 0x3F
      ∧ Posts s v (unitId 2 (p * 4 + array)) none 0 0x0111 32) := by
  obtain ⟨_, fills, _, _⟩ := setDpu_shows s (p * 4 + array) 33
  have record : Posts (setDpu s (p * 4 + array) 33) (post (setDpu s (p * 4 + array) 33) (unitId 2 (p * 4 + array)) none 0 0x0111 32) (unitId 2 (p * 4 + array))
      none 0 0x0111 32 := posts_post_small _ _ _ _ _ (by decide)
  refine ⟨post (setDpu s (p * 4 + array) 33) (unitId 2 (p * 4 + array)) none 0 0x0111 32, ?_, ?_, record.from (by rw [(frame_setDpu ..).flt rfl])⟩
  · rw [exec_dpuCheckFail residue hp ha hd, fresh, if_neg (by omega), if_pos ⟨rfl, spare⟩]
  · rw [(frame_post ..).get F.coreArrayDpuMap_SPARE_FILLS rfl (p * 4 + array), fills]
    rfl

/-- A second failure: the core's. -/
theorem gives_dpuCheckFail_second (worn : smapGet s.bank.dpuMap 0 (p * 4 + array) ≠ 0) (other : smapGet s.bank.dpuMap 0 (p * 4 + array) % 64 ≠ dpu + 1) :
    Gives (.dpuCheckFail p ⟨array, work⟩ dpu residue) s (fun v => v.isSet F.coreArrayDpuMap_EXHAUSTED (p * 4 + array) = true ∧ unitMark v (unitId 1 p) = 4) := by
  obtain ⟨_, _, _, exhausted⟩ := setDpu_shows s (p * 4 + array) (smapGet s.bank.dpuMap 0 (p * 4 + array) % 64 + 64)
  refine ⟨coreFail (setDpu s (p * 4 + array) (smapGet s.bank.dpuMap 0 (p * 4 + array) % 64 + 64)) p, ?_, ?_, unitMark_coreFail ..⟩
  · rw [exec_dpuCheckFail residue hp ha hd, if_neg other, if_neg (fun h => worn h.1), if_neg worn]
  · rw [(frame_coreFail ..).isSet F.coreArrayDpuMap_EXHAUSTED rfl (p * 4 + array), State.isSet, exhausted]
    exact beq_iff_eq.mpr (by omega)

theorem gives_dpuCheckFail_known (known : smapGet s.bank.dpuMap 0 (p * 4 + array) % 64 = dpu + 1) :
    Gives (.dpuCheckFail p ⟨array, work⟩ dpu residue) s (fun v => v = s) :=
  ⟨s, by rw [exec_dpuCheckFail residue hp ha hd, if_pos known], rfl⟩

end

end Sys2Proof.Proofs
end

section
/-! Engines that fail (R515): what is done for one leaves the others' service as it is shown. -/

namespace Sys2Proof.Proofs

open Sys2Proof.Machine Sys2Proof.Claims Sys2Proof.Laws

/-! ENG_STATUS IN_SERVICE, which only an engine's way out and back writes. -/

structure ServiceKept (s t : State) : Prop where
  shown : ∀ i, t.get F.engStatus_IN_SERVICE i = s.get F.engStatus_IN_SERVICE i

section
variable {s t u : State}

theorem ServiceKept.refl (s : State) : ServiceKept s s := ⟨fun _ => rfl⟩

theorem ServiceKept.trans (h : ServiceKept s t) (g : ServiceKept t u) : ServiceKept s u := ⟨fun i => (g.shown i).trans (h.shown i)⟩

theorem ServiceKept.of_frame {ps rs : Nat} (h : Frame ps rs s t) (hm : rs.testBit RegId.engStatus.ctorIdx = false) : ServiceKept s t :=
  ⟨fun i => h.get F.engStatus_IN_SERVICE hm i⟩

theorem ServiceKept.of_update (regs : t.regs = s.regs) (bank : t.bank = s.bank) : ServiceKept s t :=
  ⟨fun i => by simp only [State.get, State.word, regs, bank]⟩

theorem ServiceKept.foldl {α : Type} {f : State → α → State} (hf : ∀ t a, ServiceKept t (f t a)) (l : List α) (s : State) : ServiceKept s (l.foldl f s) := by
  induction l generalizing s with
  | nil => exact .refl s
  | cons a l ih => exact (hf s a).trans (ih _)

theorem ServiceKept.ite {c : Prop} [Decidable c] (ht : c → ServiceKept s t) (hu : ¬c → ServiceKept s u) : ServiceKept s (if c then t else u) := by
  split
  · exact ht ‹_›
  · exact hu ‹_›

end

section
variable (s : State)

/-- The other fields of an engine's register lie below IN_SERVICE. -/
theorem serviceKept_put {f : Fld} (v i : Nat) (ok : f.ok = true) (low : f.hi < 7 ∨ 7 < f.lo) : ServiceKept s (s.put f v i) :=
  ⟨fun _ => State.get_put_bits _ _ _ _ _ _ ok rfl low.symm⟩

theorem serviceKept_engShow (u : Nat) : ServiceKept s (engShow s u) := by
  unfold engShow
  refine .ite (fun _ => ?_) (fun _ => .refl s)
  have counted (b q : Nat) : ServiceKept s ((s.put F.engStatus_BUSY b (engIndex u)).put F.engStatus_QUEUED q (engIndex u)) :=
    (serviceKept_put s b _ rfl (by decide)).trans (serviceKept_put _ q _ rfl (by decide))
  dsimp only
  split
  · exact (counted _ _).trans (serviceKept_put _ _ _ rfl (by decide))
  · exact counted _ _

theorem serviceKept_startHead (u : Nat) : ServiceKept s (startHead s u) := by
  unfold startHead
  refine .ite (fun _ => .refl s) (fun _ => .ite (fun _ => serviceKept_engShow ..) (fun _ => ?_))
  split
  · exact serviceKept_engShow ..
  · refine .ite (fun _ => .refl s) (fun _ => .trans ?_ (serviceKept_engShow ..))
    exact .trans (.of_frame (frame_updJob ..) rfl) (.of_frame (frame_routineBegin ..) rfl)

theorem serviceKept_endJobs (c : Nat) : ServiceKept s (endJobs s c) := by
  unfold endJobs
  dsimp only
  refine .trans (.trans ?_ (.foldl serviceKept_startHead _ _)) (.foldl (fun t k => .of_frame (frame_freeCore t k) rfl) _ _)
  exact .trans (.foldl (fun t m => .of_frame (frame_dropSegHolds t m) rfl) _ s) (.of_update rfl rfl)

theorem serviceKept_endContext (c : Nat) (own : Option (Nat × Nat × Nat × Nat)) (reason : Nat) : ServiceKept s (endContext s c own reason) := by
  unfold endContext
  refine .ite (fun _ => ?_) (fun _ => .refl s)
  refine .trans (.trans (.trans ?_ (serviceKept_endJobs ..)) (.of_frame (frame_endEntries ..) rfl)) (.of_frame (frame_abortFerriesOf ..) rfl)
  refine .trans (.trans ?_ (.of_frame (frame_State_setCtxRec ..) rfl)) (.of_frame (frame_endRunning ..) rfl)
  exact .of_frame (((Frame.refl 0 (regBits [.ctxState]) s).put rfl).put rfl) rfl

theorem serviceKept_contained (c unit code extra : Nat) (own : Option (Nat × Nat × Nat × Nat)) : ServiceKept s (contained s c unit code extra own) :=
  .trans (.of_frame (frame_post ..) rfl) (serviceKept_endContext ..)

theorem serviceKept_halt (c reason info : Nat) (i : Option IssuedAt) (qe : Option (Nat × Nat)) : ServiceKept s (halt s c reason info i qe) := by
  unfold halt
  refine .trans (.ite (fun _ => ?_) (fun _ => ?_)) (serviceKept_endContext ..)
  · exact .trans (.of_frame (frame_haltRecord ..) rfl) (.of_frame (frame_post ..) rfl)
  · exact .of_frame ((Frame.refl 0 (regBits [.coreHaltA]) s).put rfl) rfl

end

/-! What is done for an engine's work once it is out: `Aftermath`, with the others' service as it was. -/

structure EngineEnded (s t : State) : Prop extends Aftermath s t, ServiceKept s t

section
variable {s t u : State}

theorem EngineEnded.refl (s : State) : EngineEnded s s := ⟨.refl s, .refl s⟩

theorem EngineEnded.trans (h : EngineEnded s t) (g : EngineEnded t u) : EngineEnded s u := ⟨h.toAftermath.trans g.toAftermath, h.toServiceKept.trans g.toServiceKept⟩

theorem EngineEnded.foldl {α : Type} {f : State → α → State} (hf : ∀ t a, EngineEnded t (f t a)) (l : List α) (s : State) : EngineEnded s (l.foldl f s) :=
  ⟨.foldl (fun t a => (hf t a).toAftermath) l s, .foldl (fun t a => (hf t a).toServiceKept) l s⟩

theorem EngineEnded.of_calm {ps rs : Nat} (f : Frame ps rs s t) (hm : (calm ps rs && !ps.testBit 6 && !ps.testBit 16) = true)
    (hs : rs.testBit RegId.engStatus.ctorIdx = false) : EngineEnded s t := ⟨.of_calm f hm, .of_frame f hs⟩

end

section
variable (s : State)

theorem engineEnded_settleJob (j : EngJob) : EngineEnded s (settleJob s j) := .of_calm (frame_settleJob ..) rfl rfl

theorem engineEnded_contained (c unit code extra : Nat) (own : Option (Nat × Nat × Nat × Nat)) : EngineEnded s (contained s c unit code extra own) :=
  ⟨aftermath_contained .., serviceKept_contained ..⟩

theorem engineEnded_post (unit : Nat) (ctx : Option Nat) {cls : Nat} (code extra : Nat) (hc : cls ≠ 3) : EngineEnded s (post s unit ctx cls code extra) :=
  ⟨aftermath_post _ _ _ _ _ hc, .of_frame (frame_post ..) rfl⟩

theorem engineEnded_haltFrom (c : Nat) (o : Origin) (reason info : Nat) : EngineEnded s (haltFrom s c o reason info) := by
  refine ⟨aftermath_haltFrom .., ?_⟩
  cases o <;> exact serviceKept_halt ..

theorem engineEnded_engShow (u : Nat) : EngineEnded s (engShow s u) := ⟨.of_calm (frame_engShow ..) rfl, serviceKept_engShow ..⟩

/-! A commit that is lost (R206): undefined bytes of device memory alone. -/

/-- The registers that a write of device memory counts in. -/
def storeRegs : Nat := regBits [.cavClassHits, .cavClassMisses, .cavClassNofill, .cavSliceStatus, .dramRegBytes, .dramRegThrottled, .pwrDomStatus]

theorem frame_devPut_memory (c ca : Nat) (bs : List Byte) : Frame 16386 storeRegs s (resState (devPut c ca bs s)) := by
  have placed : resState (placeOf c ca bs.length .write [0] s) = s := by
    unfold placeOf
    split <;> rfl
  unfold devPut
  split
  · exact .refl _ _ s
  · cases h : placeOf c ca bs.length .write [0] s <;> rw [h] at placed <;> obtain rfl : _ = s := placed
    · exact (frame_devWrite ..).mono rfl rfl
    · exact .refl _ _ _
    · exact .refl _ _ _

theorem frame_free (n : Nat) : Frame 16384 0 s { s with free := n } :=
  (Frame.refl _ _ s).upd rfl rfl rfl rfl rfl rfl rfl rfl rfl rfl rfl rfl (by simp [PartsSame, show Nat.testBit 16384 14 = true from rfl])

theorem frame_undefinedPut (c ca n : Nat) : Frame 16386 storeRegs s (undefinedPut c ca n s) := by
  have written := frame_devPut_memory s c ca (undefinedBytes s n)
  unfold undefinedPut
  split <;> rename_i done <;> rw [done] at written
  · exact written.step (frame_free ..) rfl rfl
  · exact written
  · exact written

theorem frame_commitLost_memory (j : EngJob) (p : UpdateJob) : Frame 16386 storeRegs s (commitLost s j p) := by
  refine Frame.foldl (.refl _ _ s) (fun t x h => ?_)
  refine Frame.foldl h (fun t x h => .ite (fun _ => h) (fun _ => ?_))
  exact Frame.foldl h (fun t l h => h.step (frame_undefinedPut t j.ctx _ _) rfl rfl)

theorem engineEnded_failRun (j : EngJob) : EngineEnded s (failRun s j) := by
  unfold failRun
  split
  · split
    · exact .trans (.of_calm (frame_commitLost_memory ..) rfl rfl) (engineEnded_contained ..)
    · exact .refl s
  · exact .refl s

end

/-- A job that is no update leaves nothing behind. -/
theorem failRun_of_not_update {j : EngJob} (h : ∀ p, j.job ≠ .update p) (s : State) : failRun s j = s := by
  unfold failRun
  split
  · rename_i p update
    exact absurd update (h p)
  · rfl

/-- A running job's context ends with its engine. -/
theorem ctxState_failRun {s : State} {j : EngJob} (active : s.ctxState j.ctx = 1) : (failRun s j).ctxState j.ctx = 1 ∨ (failRun s j).ctxState j.ctx = 3 := by
  unfold failRun
  split
  · split
    · exact .inr (ctxState_contained (((frame_commitLost_memory ..).get F.ctxState_STATE rfl j.ctx).trans active) ..)
    · exact .inl active
  · exact .inl active

/-! An engine out of service. -/

/-- Its state as it leaves: without jobs and out, the loss shown. -/
def engineLost (s : State) (u : Nat) : State := unitLost (engineOut (setJobs s (s.eng.jobs.filter (fun j => j.unit != u))) u)

/-- The work it ran. -/
def runEnded (s : State) (u : Nat) (r : Option EngJob) : State :=
  match r with
  | some j => settleJob (contained (failRun s j) j.ctx u 0x1031 j.ctx) j
  | none => post s u none 1 0x1031 0xFFF

/-- The work that waited for it. -/
def waitsEnded (s : State) (u : Nat) (js : List EngJob) : State :=
  engShow ((js.filter (fun j => !(j.started && j.parked.isNone))).foldl (fun s j => settleJob (haltFrom s j.ctx j.origin 0x64 u) j) s) u

section
variable {s : State} {u : Nat}

theorem engineFail_eq (up : unitUp s u = true) : engineFail s u = waitsEnded (runEnded (engineLost s u) u (running s u)) u (jobsOf s u) := by
  unfold engineFail
  rw [up]
  rfl

theorem down_engineOut (s : State) (u : Nat) : (engineOut s u).eng.down = setInsert s.eng.down u := by
  unfold engineOut showService
  split
  · rw [State.put_eng]
  · rfl

theorem unitUp_engineOut (s : State) (u : Nat) : unitUp (engineOut s u) u = false := by
  rw [unitUp, down_engineOut, List.contains_iff_mem.mpr (mem_setInsert_self ..)]
  rfl

theorem inService_engineOut (s : State) (engine : u / 4096 = 8 ∨ u / 4096 = 9 ∨ u / 4096 = 10) :
    (engineOut s u).isSet F.engStatus_IN_SERVICE (engIndex u) = false := by
  have out : unitUp { s with eng := { s.eng with down := setInsert s.eng.down u } } u = false := by
    rw [unitUp, List.contains_iff_mem.mpr (mem_setInsert_self ..)]
    rfl
  rw [engineOut, showService, if_pos engine, out]
  exact isSet_put_zero _ _ rfl

theorem jobs_engineOut (s : State) (u : Nat) : (engineOut s u).eng.jobs = s.eng.jobs := by
  unfold engineOut showService
  split
  · rw [State.put_eng]
  · rfl

theorem jobsOf_engineLost (s : State) (u : Nat) : jobsOf (engineLost s u) u = [] := by
  have kept : (engineLost s u).eng.jobs = s.eng.jobs.filter (fun j => j.unit != u) := by
    rw [engineLost, unitLost, (frame_spareFlag _ _ rfl).eng rfl, jobs_engineOut]
    rfl
  rw [jobsOf, kept, List.filter_filter, List.filter_eq_nil_iff]
  intro j _ both
  simp at both

theorem frame_engineLost (s : State) (u : Nat) : Frame 65604 (regBits [.engStatus, .evt, .faultStatus]) s (engineLost s u) :=
  (((frame_setJobs s _).mono rfl rfl).step (frame_engineOut ..) rfl rfl).step (frame_spareFlag _ F.faultStatus_UNIT_LOST rfl) rfl rfl

theorem engineEnded_runEnded (s : State) (u : Nat) (r : Option EngJob) : EngineEnded s (runEnded s u r) := by
  cases r with
  | none => exact engineEnded_post _ _ _ _ _ (by decide)
  | some j => exact .trans (.trans (engineEnded_failRun ..) (engineEnded_contained ..)) (engineEnded_settleJob ..)

theorem engineEnded_waitsEnded (s : State) (u : Nat) (js : List EngJob) : EngineEnded s (waitsEnded s u js) :=
  .trans (.foldl (fun _ _ => .trans (engineEnded_haltFrom ..) (engineEnded_settleJob ..)) _ s) (engineEnded_engShow ..)

/-- What the failure of an engine in service shows (R515). -/
structure EngineFailed (s v : State) (u : Nat) : Prop where
  out : unitUp v u = false
  idle : jobsOf v u = []
  lost : v.isSet F.faultStatus_UNIT_LOST = true
  shown : v.isSet F.engStatus_IN_SERVICE (engIndex u) = false
  noted : jobsOf s u = [] → Posts s v u none 1 0x1031 0xFFF
  ended : ∀ j, running s u = some j → s.ctxState j.ctx = 1 → v.ctxState j.ctx = 3
  record : ∀ j, running s u = some j → (∀ p, j.job ≠ .update p) → Posts s v u (some j.ctx) 1 0x1031 (j.ctx % 2 ^ 64)

theorem engineFailed_engineFail (up : unitUp s u = true) (engine : u / 4096 = 8 ∨ u / 4096 = 9 ∨ u / 4096 = 10) : EngineFailed s (engineFail s u) u := by
  rw [engineFail_eq up]
  have first := frame_engineLost s u
  have seq : (engineLost s u).flt.seq = s.flt.seq := by rw [first.flt rfl]
  have run := engineEnded_runEnded (engineLost s u) u (running s u)
  have wait := engineEnded_waitsEnded (runEnded (engineLost s u) u (running s u)) u (jobsOf s u)
  have both := run.trans wait
  have out : unitUp (engineLost s u) u = false := by rw [engineLost, (aftermath_unitLost _).unitUp, unitUp_engineOut]
  have shown : (engineLost s u).isSet F.engStatus_IN_SERVICE (engIndex u) = false := by
    rw [engineLost, unitLost, (frame_spareFlag _ _ rfl).isSet F.engStatus_IN_SERVICE rfl (engIndex u)]
    exact inService_engineOut _ engine
  refine ⟨by rw [both.unitUp, out], both.jobsOf (jobsOf_engineLost s u), both.lost (isSet_unitLost _), ?_, fun idle => ?_, fun j runs active => ?_,
    fun j runs other => ?_⟩
  · rw [State.isSet, both.shown]
    exact shown
  · have still : running s u = none := by rw [running, idle]; rfl
    rw [still] at wait ⊢
    exact ((posts_post_small _ u none 1 0x1031 (by decide)).from seq).later wait.toRecordsKept
  · rw [runs] at wait ⊢
    refine wait.ended _ ((engineEnded_settleJob ..).ended _ ?_)
    rcases ctxState_failRun ((first.get F.ctxState_STATE rfl j.ctx).trans active) with active | gone
    · exact ctxState_contained active ..
    · exact (aftermath_contained ..).ended _ gone
  · rw [runs] at wait ⊢
    have record := posts_contained (failRun (engineLost s u) j) j.ctx u 0x1031 j.ctx none
    rw [failRun_of_not_update other] at record
    refine ((record.from seq).later ?_).later wait.toRecordsKept
    show RecordsKept _ (settleJob (contained (failRun (engineLost s u) j) j.ctx u 0x1031 j.ctx) j)
    rw [failRun_of_not_update other]
    exact (engineEnded_settleJob ..).toRecordsKept

end

/-! The commands. -/

/-- Each names a unit of its kind. -/
theorem exec_engineFails {x : Nat × Nat × (Nat → Instr)} (hx : x ∈ engineFails) {n : Nat} (hn : n < x.2.1) (s : State) :
    (unitId x.1 n / 4096 = 8 ∨ unitId x.1 n / 4096 = 9 ∨ unitId x.1 n / 4096 = 10) ∧ exec (x.2.2 n) s = ok (engineFail s (unitId x.1 n)) := by
  simp only [engineFails, List.mem_cons, List.not_mem_nil, or_false] at hx
  rcases hx with rfl | rfl | rfl
  all_goals
    dsimp only at hn ⊢
    exact ⟨by unfold unitId; omega, if_pos hn⟩

theorem gives_engineFails {x : Nat × Nat × (Nat → Instr)} (hx : x ∈ engineFails) {n : Nat} (hn : n < x.2.1) {s : State} (up : unitUp s (unitId x.1 n) = true) :
    Gives (x.2.2 n) s (fun v => EngineFailed s v (unitId x.1 n)) := by
  obtain ⟨engine, run⟩ := exec_engineFails hx hn s
  exact ⟨_, run, engineFailed_engineFail up engine⟩

theorem gives_engineFails_out {x : Nat × Nat × (Nat → Instr)} (hx : x ∈ engineFails) {n : Nat} (hn : n < x.2.1) {s : State} (out : unitUp s (unitId x.1 n) = false) :
    Gives (x.2.2 n) s (fun v => v = s) := by
  refine ⟨_, (exec_engineFails hx hn s).2, ?_⟩
  rw [engineFail, out]
  rfl

end Sys2Proof.Proofs
end

section
/-! Ferries, package agents, die-to-die lanes and regulator phases that fail (R515 to R518). -/

namespace Sys2Proof.Proofs

open Sys2Proof.Machine Sys2Proof.Claims Sys2Proof.Laws

/-! Ferries (R515). -/

/-- A ferry as it leaves, its sailings settled and the loss shown. -/
def ferryLost (s : State) (f : Nat) : State :=
  unitLost (engineOut ((liveSailings s f).foldl (fun s x => abortSailing s x 0x30) s) (unitId 7 f))

/-- The record of its loss, against its owner where it has one. -/
def ferryNoted (s : State) (f : Nat) : State :=
  if s.isSet F.ferryCtrl_VALID f then contained s (s.get F.ferryCtrl_OWNER f) (unitId 7 f) 0x1030 (s.get F.ferryCtrl_OWNER f)
  else post s (unitId 7 f) none 1 0x1030 0xFFF

section
variable {s : State} {f : Nat}

theorem ferryFail_eq (up : unitUp s (unitId 7 f) = true) : ferryFail s f = ferryShow ((ferryNoted (ferryLost s f) f).put F.ferryCtrl_RUN 0 f) f := by
  unfold ferryFail
  dsimp only
  rw [up]
  rfl

theorem aftermath_ferryNoted (s : State) (f : Nat) : Aftermath s (ferryNoted s f) := by
  unfold ferryNoted
  exact .ite (fun _ => aftermath_contained ..) (fun _ => aftermath_post _ _ _ _ _ (by decide))

/-- Its settled sailings leave its owner and the owner's context. -/
theorem frame_ferryLost (s : State) (f : Nat) : Frame 78716 (regBits [.bolValue, .bolCtrl, .engStatus, .ferryStatus, .ferryExc, .berthStatus, .evt, .sumpTail,
    .sumpHold, .rbStatus, .faultStatus, .faultCount]) s (ferryLost s f) := by
  refine Frame.step ?_ (frame_spareFlag _ F.faultStatus_UNIT_LOST rfl) rfl rfl
  refine Frame.step ?_ (frame_engineOut ..) rfl rfl
  exact Frame.foldl (.refl _ _ s) (fun t x h => h.step (frame_abortSailing t x 0x30) rfl rfl)

theorem gives_ferryFail (hf : f < 32) (up : unitUp s (unitId 7 f) = true) :
    Gives (.ferryFail f) s (fun v => unitUp v (unitId 7 f) = false ∧ v.isSet F.faultStatus_UNIT_LOST = true ∧ v.isSet F.ferryCtrl_RUN f = false
      ∧ (s.isSet F.ferryCtrl_VALID f = true → s.ctxState (s.get F.ferryCtrl_OWNER f) = 1 → v.ctxState (s.get F.ferryCtrl_OWNER f) = 3)) := by
  have first := frame_ferryLost s f
  have stopped : Frame 0 (regBits [.ferryCtrl, .ferryStatus]) (ferryNoted (ferryLost s f) f) (ferryFail s f) := by
    rw [ferryFail_eq up]
    exact ((Frame.refl _ _ _).put rfl).step (frame_ferryShow ..) rfl rfl
  have after : Aftermath (ferryLost s f) (ferryFail s f) := (aftermath_ferryNoted ..).trans (.of_calm stopped rfl)
  refine ⟨ferryFail s f, if_pos hf, ?_, after.lost (isSet_unitLost _), ?_, fun owned active => ?_⟩
  · rw [after.unitUp, ferryLost, (aftermath_unitLost _).unitUp, unitUp_engineOut]
  · rw [ferryFail_eq up, (frame_ferryShow ..).isSet F.ferryCtrl_RUN rfl f, isSet_put_zero _ f rfl]
  · have owner : (ferryLost s f).get F.ferryCtrl_OWNER f = s.get F.ferryCtrl_OWNER f := first.get F.ferryCtrl_OWNER rfl f
    have valid : (ferryLost s f).isSet F.ferryCtrl_VALID f = true := (first.isSet F.ferryCtrl_VALID rfl f).trans owned
    have noted : ferryNoted (ferryLost s f) f
        = contained (ferryLost s f) (s.get F.ferryCtrl_OWNER f) (unitId 7 f) 0x1030 (s.get F.ferryCtrl_OWNER f) := by
      rw [ferryNoted, if_pos valid, owner]
    have ended := ctxState_contained ((first.get F.ctxState_STATE rfl _).trans active) (unitId 7 f) 0x1030 (s.get F.ferryCtrl_OWNER f) none
    rw [← noted] at ended
    exact (stopped.get F.ctxState_STATE rfl _).trans ended

end

/-! Package agents (R516): device-fatal, and the engines that are out stay out. -/

theorem down_startStop (s : State) (code : Nat) : (startStop s code).eng.down = s.eng.down := by
  have shown : (startStop s code).eng = (stopShown s code).eng := by
    unfold startStop
    rw [(frame_histStop ..).eng rfl, State.put_eng, State.put_eng]
    rfl
  rw [shown, (frame_stopShown ..).eng rfl, (aftermath_powerOff ..).down]

theorem down_deviceFatal (s : State) (unit code extra : Nat) : (deviceFatal s unit code extra).eng.down = s.eng.down := by
  have ended : Aftermath s ((liveContexts (resetSailings s 0x28)).foldl (fun s c => endContext s c none 0x28) (resetSailings s 0x28)) :=
    (aftermath_resetSailings s 0x28).trans (.foldl (fun t c => aftermath_endContext t c none 0x28) _ _)
  unfold deviceFatal
  rw [(frame_signalIf ..).eng rfl, (frame_post ..).eng rfl, State.put_eng, State.put_eng, ended.down]

theorem down_fatal (s : State) (unit code extra : Nat) : (fatal s unit code extra).eng.down = s.eng.down := by
  have posted : (post s unit none 3 code extra).eng = s.eng := (frame_post ..).eng rfl
  unfold fatal
  split
  · rw [down_startStop, posted]
  · split
    · exact down_deviceFatal ..
    · rw [posted]

theorem gives_packageAgentFail {s : State} {a : Nat} (ha : a < 4) (clear : s.get F.faultStatus_FATAL_CODE = 0) :
    Gives (.packageAgentFail a) s (fun v => v.get F.faultStatus_FATAL_CODE = 0x1040 ∧ v.ready = (s.ready && decide (6 < stage s))
      ∧ (a = 2 → unitUp v (unitId 0xD 2) = false)) := by
  refine ⟨fatal (if a = 2 then engineOut s (unitId 0xD 2) else s) (unitId 0xD a) 0x1040 0, if_pos ha, ?_⟩
  by_cases key : a = 2
  · rw [if_pos key]
    have out := frame_engineOut s (unitId 0xD 2)
    have shown := fatal_shows ((out.get F.faultStatus_FATAL_CODE rfl 0).trans clear) (unitId 0xD a) 0 (code := 0x1040) (by decide)
    refine ⟨shown.1, shown.2.trans ?_, fun _ => ?_⟩
    · rw [State.ready, out.isSet F.hostStatus_READY rfl 0, stage, out.get F.lkBootStatus_STAGE rfl 0]
      rfl
    · rw [unitUp, down_fatal]
      exact unitUp_engineOut s (unitId 0xD 2)
  · rw [if_neg key]
    have shown := fatal_shows clear (unitId 0xD a) 0 (code := 0x1040) (by decide)
    exact ⟨shown.1, shown.2, fun e => absurd e key⟩

/-! Die-to-die lanes (R517). -/

section
variable {s : State} {e m k : Nat} (lane : Nat) (he : e < 4) (hm : m < 40) (hk : k = e * 64 + m) (inService : s.flt.d2dOut.contains k = false)
include he hm hk inService

theorem exec_d2dLaneFail : exec (.d2dLaneFail e m lane) s =
    if smapGet s.flt.lanesUsed 0 k < Config.repairLanes then
      ok (post { s with flt := { s.flt with lanesUsed := smapSet s.flt.lanesUsed 0 k (smapGet s.flt.lanesUsed 0 k + 1) } } (unitId 0xB k) none 2 0x1010 lane)
    else
      let s := unitLost { s with flt := { s.flt with d2dOut := setInsert s.flt.d2dOut k } }
      ok (post s (unitId 0xB k) none 0 0x1011 (40 - (s.flt.d2dOut.filter (fun x => x / 64 == e)).length)) := by
  subst hk
  change execD2dLaneFail e m lane s = _
  unfold execD2dLaneFail
  rw [if_pos ⟨he, hm⟩]
  dsimp only
  rw [inService, if_neg (by decide)]

/-- A repair lane takes over. -/
theorem gives_d2dLaneFail_repair (spare : smapGet s.flt.lanesUsed 0 k < Config.repairLanes) :
    Gives (.d2dLaneFail e m lane) s (fun v => smapGet v.flt.lanesUsed 0 k = smapGet s.flt.lanesUsed 0 k + 1 ∧ v.flt.d2dOut = s.flt.d2dOut
      ∧ Posts s v (unitId 0xB k) none 2 0x1010 (lane % 2 ^ 64) ∧ Only recordParts recordRegs s v) := by
  let w : State := { s with flt := { s.flt with lanesUsed := smapSet s.flt.lanesUsed 0 k (smapGet s.flt.lanesUsed 0 k + 1) } }
  have posted := aftermath_post w (unitId 0xB k) none (cls := 2) 0x1010 lane (by decide)
  have used := congrArg FaultState.lanesUsed posted.flt
  have out := congrArg FaultState.d2dOut posted.flt
  have used' : (post w (unitId 0xB k) none 2 0x1010 lane).flt.lanesUsed = w.flt.lanesUsed := used
  have noted : Frame 8192 0 s w := (Frame.refl _ _ s).upd rfl rfl rfl rfl rfl rfl rfl rfl rfl rfl rfl rfl (by simp [PartsSame, w, show Nat.testBit 8192 13 = true from rfl])
  have all : Frame 77828 (regBits recordRegs) s (post w (unitId 0xB k) none 2 0x1010 lane) := (noted.mono rfl rfl).step (frame_post ..) rfl rfl
  refine ⟨post w (unitId 0xB k) none 2 0x1010 lane, ?_, ?_, out, (posts_post ..).from rfl, all.onlyOf rfl⟩
  · rw [exec_d2dLaneFail lane he hm hk inService, if_pos spare]
  · rw [used', smapGet_set, if_pos rfl]

/-- Without one its module leaves service. -/
theorem gives_d2dLaneFail_lost (without : Config.repairLanes ≤ smapGet s.flt.lanesUsed 0 k) :
    Gives (.d2dLaneFail e m lane) s (fun v => v.flt.d2dOut.contains k = true ∧ v.isSet F.faultStatus_UNIT_LOST = true
      ∧ ∃ x, Posts s v (unitId 0xB k) none 0 0x1011 x) := by
  let w : State := { s with flt := { s.flt with d2dOut := setInsert s.flt.d2dOut k } }
  let n := 40 - ((unitLost w).flt.d2dOut.filter (fun x => x / 64 == e)).length
  have posted := aftermath_post (unitLost w) (unitId 0xB k) none (cls := 0) 0x1011 n (by decide)
  have out := congrArg FaultState.d2dOut (posted.flt.trans (aftermath_unitLost w).flt)
  have out' : (post (unitLost w) (unitId 0xB k) none 0 0x1011 n).flt.d2dOut = setInsert s.flt.d2dOut k := out
  refine ⟨post (unitLost w) (unitId 0xB k) none 0 0x1011 n, ?_, ?_, posted.lost (isSet_unitLost w), _, (posts_post ..).from ?_⟩
  · rw [exec_d2dLaneFail lane he hm hk inService, if_neg (by omega)]
  · rw [out', List.contains_iff_mem]
    exact mem_setInsert_self ..
  · rw [unitLost, (frame_spareFlag _ _ rfl).flt rfl]

end

/-! Regulator phases (R518). -/

theorem phasesOf_le (dom : Nat) : phasesOf dom ≤ 14 := by unfold phasesOf; omega

section
variable {s : State} {dom phase : Nat} (hd : dom < 40) (hp : phase < phasesOf dom) (whole : smapGet s.pwr.lost 0 dom = 0)
include hd hp whole

theorem exec_regulatorPhaseFault (other : smapGet s.bank.phases 0 dom ≠ phase + 1) : exec (.regulatorPhaseFault dom phase) s =
    if smapGet s.bank.phases 0 dom = 0 then
      ok (post (bankChange { s with bank := { s.bank with phases := smapSet s.bank.phases 0 dom (phase + 1) } }) (unitId 0xC (dom * 16 + phase)) none 2 0x1020
        (unitId 0xC (dom * 16 + phasesOf dom)))
    else ok (unitLost (post { s with pwr := { s.pwr with lost := smapSet s.pwr.lost 0 dom (2 ^ phase) } } (unitId 0xC (dom * 16 + phase)) none 0 0x1021
      (phasesOf dom - 1))) := by
  have small := phasesOf_le dom
  have lostOne : ((List.range 15).filter (fun p => (2 ^ phase).testBit p)).length = 1 := by
    have only : (List.range 15).filter (fun p => (2 ^ phase).testBit p) = (List.range 15).filter (fun p => p == phase) := by
      refine List.filter_congr (fun p _ => ?_)
      rw [Nat.testBit_two_pow, Bool.eq_iff_iff, decide_eq_true_eq, beq_iff_eq]
      exact eq_comm
    rw [only, ← List.count_eq_length_filter, List.count_range, if_pos (by omega)]
  have left : phasesOf dom + 1 - 1 - 1 = phasesOf dom - 1 := rfl
  change execRegulatorPhaseFault dom phase s = _
  unfold execRegulatorPhaseFault
  rw [if_pos ⟨hd, by omega⟩]
  unfold phaseFault
  dsimp only
  rw [whole, beq_eq_false_iff_ne.mpr other, decide_eq_false (by omega : ¬ phasesOf dom < phase), Nat.zero_testBit, Nat.zero_or, lostOne]
  by_cases fresh : smapGet s.bank.phases 0 dom = 0
  · rw [if_pos fresh, if_neg (by decide), if_pos ⟨fresh, hp, by rw [Nat.zero_testBit]; rfl⟩, if_pos fresh]
  · rw [if_neg fresh, if_neg (by decide), if_neg (fun h => fresh h.1), if_neg fresh, left]

/-- The spare phase comes in. -/
theorem gives_regulatorPhaseFault_spare (fresh : smapGet s.bank.phases 0 dom = 0) :
    Gives (.regulatorPhaseFault dom phase) s (fun v => smapGet v.bank.phases 0 dom = phase + 1
      ∧ Posts s v (unitId 0xC (dom * 16 + phase)) none 2 0x1020 (unitId 0xC (dom * 16 + phasesOf dom)) ∧ Only recordParts recordRegs s v) := by
  let w : State := { s with bank := { s.bank with phases := smapSet s.bank.phases 0 dom (phase + 1) } }
  let v := post (bankChange w) (unitId 0xC (dom * 16 + phase)) none 2 0x1020 (unitId 0xC (dom * 16 + phasesOf dom))
  have changed : Frame 4096 0 s w := (Frame.refl _ _ s).upd rfl rfl rfl rfl rfl rfl rfl rfl rfl rfl rfl rfl (by simp [PartsSame, w, show Nat.testBit 4096 12 = true from rfl])
  have all : Frame 77828 (regBits recordRegs) s v := ((changed.mono rfl rfl).step (frame_bankChange ..) rfl rfl).step (frame_post ..) rfl rfl
  have held : v.bank.phases = w.bank.phases := by
    have kept := congrArg Bank.phases (aftermath_post (bankChange w) (unitId 0xC (dom * 16 + phase)) none (cls := 2) 0x1020
      (unitId 0xC (dom * 16 + phasesOf dom)) (by decide)).bank
    have kept' : v.bank.phases = (bankChange w).bank.phases := kept
    rw [kept', bankChange, State.bump_bank_phases]
  have small := phasesOf_le dom
  refine ⟨v, ?_, ?_, (posts_post_small _ _ _ _ _ ?_).from ?_, all.onlyOf rfl⟩
  · rw [exec_regulatorPhaseFault hd hp whole (by omega), if_pos fresh]
  · rw [held, smapGet_set, if_pos rfl]
  · unfold unitId
    omega
  · rw [(frame_bankChange ..).flt rfl]

/-- A further phase is lost. -/
theorem gives_regulatorPhaseFault_lost (used : smapGet s.bank.phases 0 dom ≠ 0) (other : smapGet s.bank.phases 0 dom ≠ phase + 1) :
    Gives (.regulatorPhaseFault dom phase) s (fun v => (smapGet v.pwr.lost 0 dom).testBit phase = true ∧ v.isSet F.faultStatus_UNIT_LOST = true
      ∧ Posts s v (unitId 0xC (dom * 16 + phase)) none 0 0x1021 (phasesOf dom - 1) ∧ Only (.pwr :: recordParts) recordRegs s v) := by
  let w : State := { s with pwr := { s.pwr with lost := smapSet s.pwr.lost 0 dom (2 ^ phase) } }
  let p := post w (unitId 0xC (dom * 16 + phase)) none 0 0x1021 (phasesOf dom - 1)
  have changed : Frame 1024 0 s w := (Frame.refl _ _ s).upd rfl rfl rfl rfl rfl rfl rfl rfl rfl rfl rfl rfl (by simp [PartsSame, w, show Nat.testBit 1024 10 = true from rfl])
  have noted : Frame 77828 (regBits recordRegs) w (unitLost p) := ((frame_post ..).mono rfl rfl).step (frame_spareFlag _ F.faultStatus_UNIT_LOST rfl) rfl rfl
  have all : Frame 78852 (regBits recordRegs) s (unitLost p) := (changed.mono rfl rfl).step noted rfl rfl
  have few : phasesOf dom - 1 < 2 ^ 64 := by
    have small := phasesOf_le dom
    omega
  have record : Posts w p (unitId 0xC (dom * 16 + phase)) none 0 0x1021 (phasesOf dom - 1) := posts_post_small w _ none 0 0x1021 few
  refine ⟨unitLost p, ?_, ?_, isSet_unitLost p, ?_, all.onlyOf rfl⟩
  · rw [exec_regulatorPhaseFault hd hp whole other, if_neg used]
  · rw [noted.pwr rfl, smapGet_set, if_pos rfl, Nat.testBit_two_pow_self]
  · exact (record.from rfl).later (aftermath_unitLost p).toRecordsKept

end

end Sys2Proof.Proofs
end

section
/-! Errors and failures of units, together (O58). -/

namespace Sys2Proof.Proofs

open Sys2Proof.Machine Sys2Proof.Claims Sys2Proof.Laws

/-- Settles O58, kind of unit by kind: each command is run to the state it leaves, of which `Aftermath` keeps what was recorded and contained. -/
theorem unitErrorsAreRecordedAndContained : Obligations.UnitErrorsAreRecordedAndContained := by
  unfold Obligations.UnitErrorsAreRecordedAndContained
  refine ⟨fun n set pa s hn home => ?slices, fun core p a s c hcore phys bound runs off => ?caches, fun cycles counts s => ?hotspots,
    fun p array dpu work residue s k hp ha hd hk => ?dpus, fun p s hp => ?cores, fun x hx n s hn => ?engines, fun f s hf up => gives_ferryFail hf up,
    fun a s ha clear => gives_packageAgentFail ha clear, fun e m lane k s he hm hk inService => ?lanes, fun dom phase s hd hp whole => ?phases⟩
  case slices =>
    exact ⟨gives_sliceScrub_clean hn, gives_slice_corrected hn home set,
      fun _ _ found sector valid => gives_sliceEccError_sector found sector hn home valid, gives_sliceEccError_no_host_line hn home,
      gives_sliceEccError_host_line hn home, gives_sliceEccError_tag hn home, gives_sliceEccError_tags hn home⟩
  case caches =>
    exact ⟨fun _ _ found first only => gives_grottoParityError_line hcore phys bound runs off found first only, gives_grottoParityError_scratch hcore phys bound runs off,
      fun _ _ _ kind found first => gives_rocacheParityError hcore phys bound off kind found first⟩
  case hotspots => exact ⟨gives_hotspotWindow_none, fun _ => gives_hotspotWindow_hot⟩
  case dpus =>
    subst hk
    exact ⟨gives_dpuCheckFail_known residue hp ha hd, gives_dpuCheckFail_first residue hp ha hd, gives_dpuCheckFail_spare residue hp ha hd,
      gives_dpuCheckFail_second residue hp ha hd⟩
  case cores =>
    exact ⟨fun _ _ ha => gives_arrayParityFail_idle hp ha, fun _ _ _ _ _ _ _ _ ha => gives_arrayParityFail_block hp ha,
      fun first => ⟨gives_coreCheckFail_noted hp first, gives_coreCheckFail_block hp first⟩, gives_coreCheckFail_again hp, gives_coreHeartbeatTimeout hp⟩
  case engines =>
    refine ⟨gives_engineFails_out hx hn, fun up => ?_⟩
    obtain ⟨v, run, failed⟩ := gives_engineFails hx hn up
    exact ⟨v, run, failed.out, failed.idle, failed.lost, failed.shown, failed.noted, fun j runs active => ⟨failed.ended j runs active, failed.record j runs⟩⟩
  case lanes => exact ⟨gives_d2dLaneFail_repair lane he hm hk inService, gives_d2dLaneFail_lost lane he hm hk inService⟩
  case phases => exact ⟨gives_regulatorPhaseFault_spare hd hp whole, gives_regulatorPhaseFault_lost hd hp whole⟩

end Sys2Proof.Proofs
end

section
/-! Segments (R303 to R306): an apply withdraws a segment, puts it in force or is rejected; the limit halts the context of the longest parked
task. -/

namespace Sys2Proof.Proofs

open Sys2Proof.Machine Sys2Proof.Claims Sys2Proof.Laws

/-- In D0 a host write to BAR0 takes effect (R454). -/
theorem bar0_of_d0 {s : State} (d0 : s.hl.d3 = false) (t : State) : bar0 s t = ok t := by
  rw [bar0, d0]
  rfl

theorem only_mem (s : State) (m : Memory) : Only [.mem] [] s { s with mem := m } where
  pending := rfl
  part p hp := by
    cases p with
    | mem => exact absurd (List.mem_singleton_self _) hp
    | _ => rfl
  word _ _ _ _ _ := rfl

/-! The word written to SEG_ATTR. -/

section
variable (s : State) (c sg attr : Nat)

/-- The word by its lowest fields, VALID and PRESENT, and the rest, which lies below bit 44. -/
theorem attrWord_eq : ∃ rest, attrWord s c sg attr = bitsOf attr 1 0 + 4 * rest ∧ rest < 2 ^ 42 := by
  have target : (if bitsOf attr 3 2 = 3 then s.get F.segAttr_TARGET c sg else bitsOf attr 3 2) < 4 := by
    split
    · exact State.get_lt s F.segAttr_TARGET c sg rfl
    · exact bitsOf_lt attr 3 2
  have perms := bitsOf_lt attr 8 4
  have classes := bitsOf_lt attr 20 12
  have key := bitsOf_lt attr 43 32
  unfold attrWord
  dsimp only
  refine ⟨(if bitsOf attr 3 2 = 3 then s.get F.segAttr_TARGET c sg else bitsOf attr 3 2) + bitsOf attr 8 4 * 2 ^ 2 + bitsOf attr 20 12 * 2 ^ 10
    + bitsOf attr 43 32 * 2 ^ 30, ?_, ?_⟩ <;> omega

theorem attrWord_lt : attrWord s c sg attr < 2 ^ 64 := by
  obtain ⟨rest, word, small⟩ := attrWord_eq s c sg attr
  have low := bitsOf_lt attr 1 0
  omega

/-- PRESENT is stored as written. -/
theorem testBit_attrWord_present : (attrWord s c sg attr).testBit 1 = attr.testBit 1 := by
  obtain ⟨rest, word, -⟩ := attrWord_eq s c sg attr
  have low : bitsOf attr 1 0 = attr % 4 := by rw [bitsOf, Nat.shiftRight_zero]; rfl
  rw [word, low, Nat.testBit_eq_decide_div_mod_eq, Nat.testBit_eq_decide_div_mod_eq]
  congr 2
  omega

end

/-! The apply. -/

/-- An apply stored and counted. -/
def segCounted (s : State) (c sg a : Nat) : State := (s.setWord .segAttr c sg 0 a).bump F.segApplyStatus_APPLIED

section
variable (s : State) (c sg a : Nat)

theorem frame_segCounted : Frame 0 (regBits [.segAttr, .segApplyStatus]) s (segCounted s c sg a) :=
  ((Frame.refl _ _ s).setWord (by decide)).bump (by decide)

theorem applied_segCounted : (segCounted s c sg a).get F.segApplyStatus_APPLIED = (s.get F.segApplyStatus_APPLIED + 1) % 2 ^ 32 := by
  rw [segCounted, State.get_bump_same _ _ _ _ rfl, State.get, State.word_setWord_ne _ _ (by rintro ⟨⟩)]
  rfl

theorem word_segCounted (small : a < 2 ^ 64) : (segCounted s c sg a).word .segAttr c sg 0 = a := by
  rw [segCounted, State.bump, State.put, State.word_setWord_ne _ _ (by simp [F.segApplyStatus_APPLIED]), State.word_setWord_same, Nat.mod_eq_of_lt small]

end

/-- The segment withdrawn, and put in force as staged with a word of SEG_ATTR. -/
def segWithdrawn (s : State) (c sg : Nat) : State := { s with mem := { s.mem with seg := smapErase s.mem.seg (c * 16 + sg) } }

def segInForce (s : State) (c sg a : Nat) : State :=
  { s with mem := { s.mem with seg := smapInsert s.mem.seg (c * 16 + sg) (stagedSeg s c sg a), segPosted := setErase s.mem.segPosted (c * 16 + sg) } }

/-- A rejected apply, named. -/
def segRejected (s : State) (c sg : Nat) : State :=
  ((s.put F.segApplyStatus_REJ_CONTEXT c).put F.segApplyStatus_REJ_SEGMENT sg).put F.segApplyStatus_REJECTED 1

section
variable {s : State} {c sg attr : Nat}

theorem segApply_withdraws (invalid : attr.testBit 0 = false) :
    segApply s c sg attr = segCounted (segWithdrawn s c sg) c sg (attrWord s c sg attr) := by
  unfold segApply
  dsimp only
  rw [invalid]
  rfl

theorem segApply_applies (valid : attr.testBit 0 = true) (good : segGood (stagedSeg s c sg (attrWord s c sg attr)) = true) (reserved : attrReserved attr = 0) :
    segApply s c sg attr = if attr.testBit 1 then segResume (segCounted (segInForce s c sg (attrWord s c sg attr)) c sg (attrWord s c sg attr)) c sg
      else segCounted (segInForce s c sg (attrWord s c sg attr)) c sg (attrWord s c sg attr) := by
  unfold segApply
  dsimp only
  have present : (stagedSeg s c sg (attrWord s c sg attr)).present = attr.testBit 1 := testBit_attrWord_present s c sg attr
  rw [valid, if_neg (by decide), if_pos (by rw [good, reserved]; rfl), present]
  rfl

theorem segApply_rejects (valid : attr.testBit 0 = true) (bad : segGood (stagedSeg s c sg (attrWord s c sg attr)) = false ∨ attrReserved attr ≠ 0) :
    segApply s c sg attr = segRejected s c sg := by
  have illegal : (segGood (stagedSeg s c sg (attrWord s c sg attr)) && attrReserved attr == 0) = false := by
    rcases bad with bad | bad
    · rw [bad, Bool.false_and]
    · rw [beq_eq_false_iff_ne.mpr bad, Bool.and_false]
  unfold segApply
  dsimp only
  rw [valid, if_neg (by decide), illegal, if_neg (by decide)]
  rfl

end

/-! What resumes (R306). -/

/-- No task of the segment is listed as parked. -/
def parkedDropped (s : State) (c sg : Nat) : State :=
  showParked { s with mem := { s.mem with parked := s.mem.parked.filter (fun p => p.key != c * 16 + sg) } } c

theorem wakeJobs_of_none {s : State} {c sg : Nat} (noJob : s.eng.jobs.any (fun j => j.ctx == c && j.parked == some sg) = false) : wakeJobs s c sg = s := by
  have empty : s.eng.jobs.filter (fun j => j.ctx == c && j.parked == some sg) = [] := by
    rw [List.filter_eq_nil_iff]
    intro j hj
    exact List.any_eq_false.mp noJob j hj
  rw [wakeJobs, empty]
  rfl

/-- Where no job is set aside, what resumes is of the runs, the tasks and the queues: threads, tasks and launches that try again. -/
theorem frame_segResume_of_no_job {s : State} {c sg : Nat} (noJob : s.eng.jobs.any (fun j => j.ctx == c && j.parked == some sg) = false) :
    Frame 88 79228162514264337593543950336 (parkedDropped s c sg) (segResume s c sg) := by
  have woken : (wakeThreads (parkedDropped s c sg) c sg).eng.jobs.any (fun j => j.ctx == c && j.parked == some sg) = false := by
    rw [(frame_wakeThreads ..).eng rfl, parkedDropped, (frame_showParked ..).eng rfl]
    exact noJob
  have jobs := wakeJobs_of_none woken
  have resumed : segResume s c sg = wakeLaunches (wakeTasks (wakeJobs (wakeThreads (parkedDropped s c sg) c sg) c sg) c sg) c sg := rfl
  rw [resumed, jobs]
  exact (((frame_wakeThreads ..).mono rfl rfl).step (frame_wakeTasks ..) rfl rfl).step (frame_wakeLaunches ..) rfl rfl

/-- A segment in force with no task parked on it (R306). -/
structure Resumed (s t : State) (c sg : Nat) : Prop where
  seg : t.mem.seg = s.mem.seg
  clear : ∀ p ∈ t.mem.parked, p.key ≠ c * 16 + sg
  word : t.word .segAttr c sg 0 = s.word .segAttr c sg 0
  applied : t.get F.segApplyStatus_APPLIED = s.get F.segApplyStatus_APPLIED

theorem resumed_segResume {s : State} {c sg : Nat} (noJob : s.eng.jobs.any (fun j => j.ctx == c && j.parked == some sg) = false) :
    Resumed s (segResume s c sg) c sg := by
  have woken := frame_segResume_of_no_job noJob
  have shown := frame_showParked { s with mem := { s.mem with parked := s.mem.parked.filter (fun p => p.key != c * 16 + sg) } } c
  have mem : (segResume s c sg).mem = { s.mem with parked := s.mem.parked.filter (fun p => p.key != c * 16 + sg) } :=
    (woken.mem rfl).trans (shown.mem rfl)
  refine ⟨by rw [mem], fun p hp => ?_, (woken.word .segAttr rfl c sg 0).trans (shown.word .segAttr rfl c sg 0),
    (woken.get F.segApplyStatus_APPLIED rfl 0).trans (shown.get F.segApplyStatus_APPLIED rfl 0)⟩
  rw [mem] at hp
  exact bne_iff_ne.mp (List.mem_filter.mp hp).2

/-! The limit (R306, R210). -/

/-- Whatever has waited too long, its context halts with reason 0x44. -/
theorem parkedHalt_eq_halt (s : State) (c sg : Nat) (p : Parked) : ∃ i qe, parkedHalt s c sg p = halt s c 0x44 p.addr i qe := by
  have job (o : Origin) : ∃ i qe, haltFrom s c o 0x44 p.addr = halt s c 0x44 p.addr i qe := by
    cases o <;> exact ⟨_, _, rfl⟩
  unfold parkedHalt
  cases p.who with
  | thread block =>
    dsimp only
    split <;> exact ⟨_, _, rfl⟩
  | job id =>
    dsimp only
    split
    · exact job _
    · exact ⟨_, _, rfl⟩
  | task id no =>
    dsimp only
    split
    · exact job _
    · exact ⟨_, _, rfl⟩
  | entry q idx => exact ⟨_, _, rfl⟩

/-- The first halt fills the record, whatever the context's state. -/
theorem reason_halt {s : State} {c reason : Nat} (first : s.get F.coreHaltA_REASON c = 0) (small : reason < 256) (info : Nat) (i : Option IssuedAt)
    (qe : Option (Nat × Nat)) : (halt s c reason info i qe).get F.coreHaltA_REASON c = reason := by
  unfold halt
  dsimp only
  rw [(frame_endContext ..).get F.coreHaltA_REASON rfl c, if_pos first, (frame_post ..).get F.coreHaltA_REASON rfl c, (get_haltRecord ..).1]
  exact Nat.mod_eq_of_lt small

/-! The commands. -/

section
variable {c sg : Nat} (hc : c < 4096) (hsg : sg < 16)
include hc hsg

theorem exec_segApply {s : State} (d0 : s.hl.d3 = false) (attr : Nat) :
    exec (.segApply c sg attr) s = ok (segApply (wideWrite s .segAttr c sg) c sg attr) := by
  change execSegApply c sg attr s = _
  rw [execSegApply, if_pos ⟨hc, hsg⟩, bar0_of_d0 d0]

section
variable {s : State} {attr : Nat} (d0 : s.hl.d3 = false)
include d0

theorem gives_segApply_withdraws (invalid : attr.testBit 0 = false) :
    Gives (.segApply c sg attr) s (fun t => smapFind t.mem.seg (c * 16 + sg) = none
      ∧ t.get F.segApplyStatus_APPLIED = (s.get F.segApplyStatus_APPLIED + 1) % 2 ^ 32 ∧ Only [.acc, .mem] [.segAttr, .segApplyStatus] s t) := by
  refine ⟨_, exec_segApply hc hsg d0 attr, ?_⟩
  rw [segApply_withdraws invalid]
  have counted := frame_segCounted (segWithdrawn (wideWrite s .segAttr c sg) c sg) c sg (attrWord (wideWrite s .segAttr c sg) c sg attr)
  refine ⟨?_, applied_segCounted .., ?_⟩
  · rw [counted.mem rfl, segWithdrawn, smapFind_erase, if_pos rfl]
  · exact ((frame_wideWrite ..).onlyOf rfl).trans (((only_mem ..).mono (by decide) (by decide)).trans (counted.onlyOf rfl))

theorem gives_segApply_applies (valid : attr.testBit 0 = true) (good : segGood (stagedSeg s c sg (attrWord s c sg attr)) = true)
    (reserved : attrReserved attr = 0) (noJob : s.eng.jobs.any (fun j => j.ctx == c && j.parked == some sg) = false) :
    Gives (.segApply c sg attr) s (fun t => smapFind t.mem.seg (c * 16 + sg) = some (stagedSeg s c sg (attrWord s c sg attr))
      ∧ (attr.testBit 1 = true → ∀ p ∈ t.mem.parked, p.key ≠ c * 16 + sg)
      ∧ t.word .segAttr c sg 0 = attrWord s c sg attr ∧ t.get F.segApplyStatus_APPLIED = (s.get F.segApplyStatus_APPLIED + 1) % 2 ^ 32) := by
  let w : State := wideWrite s .segAttr c sg
  let u : State := segCounted (segInForce w c sg (attrWord s c sg attr)) c sg (attrWord s c sg attr)
  have counted := frame_segCounted (segInForce w c sg (attrWord s c sg attr)) c sg (attrWord s c sg attr)
  have found : smapFind u.mem.seg (c * 16 + sg) = some (stagedSeg s c sg (attrWord s c sg attr)) := by
    rw [counted.mem rfl, segInForce, smapFind_insert, if_pos rfl]
    rfl
  have word : u.word .segAttr c sg 0 = attrWord s c sg attr := word_segCounted _ c sg _ (attrWord_lt s c sg attr)
  have applied : u.get F.segApplyStatus_APPLIED = (s.get F.segApplyStatus_APPLIED + 1) % 2 ^ 32 := applied_segCounted ..
  have run : exec (.segApply c sg attr) s = ok (if attr.testBit 1 then segResume u c sg else u) := by
    rw [exec_segApply hc hsg d0, segApply_applies (s := w) valid good reserved]
    rfl
  refine ⟨_, run, ?_⟩
  by_cases present : attr.testBit 1 = true
  · rw [if_pos present]
    have resumed : Resumed u (segResume u c sg) c sg := resumed_segResume (by rw [counted.eng rfl]; exact noJob)
    exact ⟨by rw [resumed.seg, found], fun _ => resumed.clear, resumed.word.trans word, resumed.applied.trans applied⟩
  · rw [if_neg present]
    exact ⟨found, fun p => absurd p present, word, applied⟩

theorem gives_segApply_rejects (valid : attr.testBit 0 = true)
    (bad : segGood (stagedSeg s c sg (attrWord s c sg attr)) = false ∨ attrReserved attr ≠ 0) :
    Gives (.segApply c sg attr) s (fun t => t.isSet F.segApplyStatus_REJECTED = true ∧ t.get F.segApplyStatus_REJ_CONTEXT = c
      ∧ t.get F.segApplyStatus_REJ_SEGMENT = sg ∧ Only [.acc] [.segApplyStatus] s t) := by
  let w : State := wideWrite s .segAttr c sg
  have run : exec (.segApply c sg attr) s = ok (segRejected w c sg) := by
    rw [exec_segApply hc hsg d0, segApply_rejects (s := w) valid bad]
  have named : Frame 0 (regBits [.segApplyStatus]) w (segRejected w c sg) := (((Frame.refl _ _ w).put (by decide)).put (by decide)).put (by decide)
  refine ⟨_, run, isSet_put_one _ 0 rfl, ?_, ?_, ((frame_wideWrite ..).onlyOf rfl).trans (named.onlyOf rfl)⟩
  · rw [segRejected, State.get_put_bits _ _ _ _ _ _ rfl rfl (by decide), State.get_put_bits _ _ _ _ _ _ rfl rfl (by decide), State.get_put_same _ _ _ _ rfl]
    exact Nat.mod_eq_of_lt hc
  · rw [segRejected, State.get_put_bits _ _ _ _ _ _ rfl rfl (by decide), State.get_put_same _ _ _ _ rfl]
    exact Nat.mod_eq_of_lt hsg

end

theorem gives_segFaultTimeout {s : State} {p : Parked} (limit : s.get F.segFaultLimit_LIMIT_MS ≠ 0)
    (parked : s.mem.parked.find? (fun p => p.key == c * 16 + sg) = some p) :
    Gives (.segFaultTimeout c sg) s (fun t => Ended s t c ∧ (s.get F.coreHaltA_REASON c = 0 → t.get F.coreHaltA_REASON c = 0x44)) := by
  obtain ⟨i, qe, halted⟩ := parkedHalt_eq_halt s c sg p
  have run : exec (.segFaultTimeout c sg) s = ok (halt s c 0x44 p.addr i qe) := by
    change execSegFaultTimeout c sg s = _
    rw [execSegFaultTimeout, if_pos ⟨hc, hsg⟩, if_neg limit, parked, ← halted]
  exact ⟨_, run, fun alive => (haltsWith_halt alive (by decide) p.addr i qe).1, fun first => reason_halt first (by decide) p.addr i qe⟩

end

end Sys2Proof.Proofs
end

section
/-! Key slots (R310): a write stores the fields and zeroises a slot that stops being VALID; the key engine draws the keys a slot asks for. -/

namespace Sys2Proof.Proofs

open Sys2Proof.Machine Sys2Proof.Claims Sys2Proof.Laws

/-- The slot's register with the fields of a write; a reserved REQ leaves the field (R14). -/
def keyStored (s : State) (k v : Nat) : State :=
  let s := (s.put F.keySlot_OWNER (bitsOf v 11 0) k).put F.keySlot_VALID (bitsOf v 12 12) k
  if bitsOf v 23 16 = 0 then s else s.put F.keySlot_REQ (bitsOf v 23 16) k

section
variable (s : State) (k v : Nat)

theorem owner_keyStored : (keyStored s k v).get F.keySlot_OWNER k = bitsOf v 11 0 := by
  rw [keyStored, get_put_unless _ _ _ _ rfl rfl (by decide), State.get_put_bits _ _ _ _ _ _ rfl rfl (by decide), State.get_put_same _ _ _ _ rfl]
  exact Nat.mod_eq_of_lt (bitsOf_lt v 11 0)

theorem valid_keyStored : (keyStored s k v).isSet F.keySlot_VALID k = v.testBit 12 := by
  rw [State.isSet, keyStored, get_put_unless _ _ _ _ rfl rfl (by decide), State.get_put_same _ _ _ _ rfl, ← bitsOf_one v 12]
  exact congrArg (· == 1) (Nat.mod_eq_of_lt (bitsOf_lt v 12 12))

theorem req_keyStored (asked : bitsOf v 23 16 ≠ 0) : (keyStored s k v).get F.keySlot_REQ k = bitsOf v 23 16 := by
  rw [keyStored, if_neg asked, State.get_put_same _ _ _ _ rfl]
  exact Nat.mod_eq_of_lt (bitsOf_lt v 23 16)

theorem mem_keyStored : (keyStored s k v).mem = s.mem := by
  unfold keyStored
  dsimp only
  split <;> simp

theorem keyWrite_eq : keyWrite s k v = if s.isSet F.keySlot_VALID k && !v.testBit 12 then keyZero (keyStored s k v) k else keyStored s k v := by
  rw [← valid_keyStored s k v]
  rfl

end

/-- A zeroised slot asks for nothing, has generated nothing and holds no keys; its owner and VALID stay. -/
structure Zeroised (s t : State) (k : Nat) : Prop where
  req : t.get F.keySlot_REQ k = 0
  done : t.get F.keySlot_GEN_DONE k = 0
  keys : smapGet t.mem.keyGen 1 k = 1
  owner : t.get F.keySlot_OWNER k = s.get F.keySlot_OWNER k
  valid : t.isSet F.keySlot_VALID k = s.isSet F.keySlot_VALID k

theorem zeroised_keyZero (s : State) (k : Nat) : Zeroised s (keyZero s k) k where
  req := by rw [keyZero, State.get_put_bits _ _ _ _ _ _ rfl rfl (by decide), State.get_put_same _ _ _ _ rfl]; rfl
  done := by rw [keyZero, State.get_put_same _ _ _ _ rfl]; rfl
  keys := by rw [keyZero, State.put_mem, State.put_mem, smapGet, smapFind_erase, if_pos rfl]; rfl
  owner := by
    rw [keyZero, State.get_put_bits _ _ _ _ _ _ rfl rfl (by decide), State.get_put_bits _ _ _ _ _ _ rfl rfl (by decide)]
    rfl
  valid := by
    rw [State.isSet, keyZero, State.get_put_bits _ _ _ _ _ _ rfl rfl (by decide), State.get_put_bits _ _ _ _ _ _ rfl rfl (by decide)]
    rfl

section
variable {s : State} {k : Nat} (hk : k < 4096)
include hk

theorem gives_keySlotWrite (v : Nat) (d0 : s.hl.d3 = false) :
    Gives (.keySlotWrite k v) s (fun t => t.get F.keySlot_OWNER k = bitsOf v 11 0 ∧ t.isSet F.keySlot_VALID k = v.testBit 12
      ∧ (s.isSet F.keySlot_VALID k = true → v.testBit 12 = false → t.get F.keySlot_REQ k = 0 ∧ t.get F.keySlot_GEN_DONE k = 0
        ∧ smapGet t.mem.keyGen 1 k = 1)
      ∧ (v.testBit 12 = true → bitsOf v 23 16 ≠ 0 → t.get F.keySlot_REQ k = bitsOf v 23 16 ∧ t.mem = s.mem)
      ∧ Only [.mem] [.keySlot] s t) := by
  have run : exec (.keySlotWrite k v) s = ok (keyWrite s k v) := by
    change execKeySlotWrite k v s = _
    rw [execKeySlotWrite, if_pos hk, bar0_of_d0 d0]
  have frame : Only [.mem] [.keySlot] s (keyWrite s k v) := (frame_keyWrite s k v).onlyOf rfl
  refine ⟨_, run, ?_⟩
  rw [keyWrite_eq] at frame ⊢
  by_cases cleared : (s.isSet F.keySlot_VALID k && !v.testBit 12) = true
  · rw [if_pos cleared] at frame ⊢
    simp only [Bool.and_eq_true, Bool.not_eq_true'] at cleared
    have zero := zeroised_keyZero (keyStored s k v) k
    exact ⟨zero.owner.trans (owner_keyStored ..), zero.valid.trans (valid_keyStored ..), fun _ _ => ⟨zero.req, zero.done, zero.keys⟩,
      fun set => absurd (cleared.2.symm.trans set) Bool.false_ne_true, frame⟩
  · rw [if_neg cleared] at frame ⊢
    refine ⟨owner_keyStored .., valid_keyStored .., fun was clear => absurd ?_ cleared, fun _ asked => ⟨req_keyStored s k v asked, mem_keyStored ..⟩, frame⟩
    rw [was, clear]
    rfl

theorem gives_keyGenDone (up : unitUp s (unitId 0xD 2) = true) (valid : s.isSet F.keySlot_VALID k = true)
    (asked : s.get F.keySlot_REQ k ≠ s.get F.keySlot_GEN_DONE k) :
    Gives (.keyGenDone k) s (fun t => t.get F.keySlot_GEN_DONE k = s.get F.keySlot_REQ k ∧ smapGet t.mem.keyGen 1 k = s.mem.keyNext
      ∧ t.mem.keyNext = s.mem.keyNext + 1 ∧ t.mem.dram = s.mem.dram ∧ Only [.mem] [.keySlot] s t) := by
  have run : exec (.keyGenDone k) s = ok ((newKeys s k).put F.keySlot_GEN_DONE (s.get F.keySlot_REQ k) k) := by
    change execKeyGenDone k s = _
    rw [execKeyGenDone, if_pos hk, up, if_neg (by decide), if_pos valid, if_neg asked]
  have drawn : Only [.mem] [.keySlot] s (newKeys s k) := (only_mem s _).mono (by decide) (by decide)
  refine ⟨_, run, ?_, ?_, by rw [State.put_mem]; rfl, by rw [State.put_mem]; rfl, drawn.trans ((only_setWord ..).mono (by decide) (by decide))⟩
  · rw [State.get_put_same _ _ _ _ rfl]
    exact Nat.mod_eq_of_lt (State.get_lt s F.keySlot_REQ k 0 rfl)
  · rw [State.put_mem, newKeys, smapGet_set, if_pos rfl]

end

end Sys2Proof.Proofs
end

section
/-! DRAM channels (R292 to R296, R30): a write of TARGET starts a move, or waits for the channel's domain; moves end; channels fail. -/

namespace Sys2Proof.Proofs

open Sys2Proof.Machine Sys2Proof.Claims Sys2Proof.Laws

/-! A move starts (R293). -/

/-- What becomes unreadable where channels have failed is of `lost` and `healed` alone. -/
theorem loseFailed_keeps {α : Type} (p : Memory → α) (keep : ∀ m lost healed, p { m with lost := lost, healed := healed } = p m) (s : State) :
    p (loseFailed s).mem = p s.mem := by
  unfold loseFailed
  exact foldl_keeps (f := loseLines) (fun s => p s.mem) (fun _ _ => keep ..) _ _

/-- The channels counted as mapped out once a map-out of `n` has begun. -/
def mappedOut (s : State) (n : Nat) : State :=
  let t := showSpace (setMapped (loseFailed s) (setInsert s.mem.out n))
  giveUp t (dramLimit t)

theorem startMove_eq (s : State) (n : Nat) (b : Bool) : startMove s n b = if b
    then (mappedOut ((setMove s (some (n, b))).put F.dramChanStatus_MOVED 0 n) n).put F.dramChanStatus_STATE 1 n
    else ((setMove s (some (n, b))).put F.dramChanStatus_MOVED 0 n).put F.dramChanStatus_STATE 3 n := rfl

section
variable (s : State) (n : Nat) (b : Bool)

theorem mappedOut_out : (mappedOut s n).mem.out = setInsert s.mem.out n := by
  have shown := (frame_showSpace (setMapped (loseFailed s) (setInsert s.mem.out n))).mem rfl
  exact congrArg Memory.out shown

theorem mappedOut_move : (mappedOut s n).mem.move = s.mem.move := by
  have shown := (frame_showSpace (setMapped (loseFailed s) (setInsert s.mem.out n))).mem rfl
  exact (congrArg Memory.move shown).trans (loseFailed_keeps Memory.move (fun _ _ _ => rfl) s)

theorem chanState_startMove : chanState (startMove s n b) n = if b then 1 else 3 := by
  rw [startMove_eq]
  cases b
  · rw [if_neg Bool.false_ne_true, chanState, State.get_put_same _ _ _ _ rfl]
    rfl
  · rw [if_pos rfl, chanState, State.get_put_same _ _ _ _ rfl]
    rfl

theorem startMove_move : (startMove s n b).mem.move = some (n, b) := by
  rw [startMove_eq]
  cases b
  · rw [if_neg Bool.false_ne_true, State.put_mem, State.put_mem]
    rfl
  · rw [if_pos rfl, State.put_mem, mappedOut_move, State.put_mem]
    rfl

theorem startMove_out : (startMove s n b).mem.out = if b then setInsert s.mem.out n else s.mem.out := by
  rw [startMove_eq]
  cases b
  · rw [if_neg Bool.false_ne_true, State.put_mem, State.put_mem]
    rfl
  · rw [if_pos rfl, State.put_mem, mappedOut_out, State.put_mem]
    rfl

end

/-! A write of TARGET (R292, R294, R297). -/

theorem nextMove_of_empty {s : State} (empty : s.mem.moveQ = []) : nextMove s = s := by
  unfold nextMove
  rw [empty]
  exact ite_self s

/-- The moves that wait. -/
def setMoveQ (s : State) (q : List (Nat × Bool)) : State := { s with mem := { s.mem with moveQ := q } }

theorem setMoveQ_of_empty {s : State} (empty : s.mem.moveQ = []) : setMoveQ s [] = s := by
  rw [← empty]
  rfl

/-- A move that waits alone is the next to start, where the channel may. -/
theorem nextMove_of_one {s : State} {n : Nat} {b : Bool} (idle : s.mem.move = none) (wants : wantsMove s n b = true) :
    nextMove (setMoveQ s [(n, b)]) = startMove (setMoveQ s []) n b := by
  have moving : (setMoveQ s [(n, b)]).mem.move = none := idle
  have first : (setMoveQ s [(n, b)]).mem.moveQ.find? (fun x => wantsMove (setMoveQ s [(n, b)]) x.1 x.2) = some (n, b) :=
    List.find?_cons_of_pos (p := fun x : Nat × Bool => wantsMove (setMoveQ s [(n, b)]) x.1 x.2) wants
  have rest : (setMoveQ s [(n, b)]).mem.moveQ.filter (fun y => y != (n, b)) = [] := List.filter_cons_of_neg (by simp)
  unfold nextMove
  rw [moving, if_neg (by decide), first]
  dsimp only
  rw [rest]
  rfl

/-- The moves that wait once a channel's TARGET has changed (R297). -/
def movesAsked (m : Memory) (n : Nat) (b : Bool) : List (Nat × Bool) :=
  let q := m.moveQ.filter (fun x => x.1 != n)
  if m.move.any (fun x => x.1 == n) then (if m.move.any (fun x => x.2 != b) then (n, b) :: q else q) else q ++ [(n, b)]

theorem movesAsked_of_idle {m : Memory} (idle : m.move = none) (empty : m.moveQ = []) (n : Nat) (b : Bool) : movesAsked m n b = [(n, b)] := by
  rw [movesAsked, idle, empty]
  rfl

theorem chanTarget_of_change {s : State} {n : Nat} {b : Bool} (changes : s.get F.dramChanCtrl_TARGET n ≠ if b then 1 else 0)
    (room : (b && s.mem.out.length == s.get F.dramSpace_MAX_MAPOUT) = false) :
    chanTarget s n b = nextMove (setMoveQ (s.put F.dramChanCtrl_TARGET (if b then 1 else 0) n)
      (movesAsked (s.put F.dramChanCtrl_TARGET (if b then 1 else 0) n).mem n b)) := by
  unfold chanTarget
  dsimp only
  rw [if_neg changes, room]
  rfl

/-- Whether a channel may start to move is read from its state, the channels mapped out and their limit. -/
theorem wantsMove_put_target (s : State) (v n : Nat) (b : Bool) : wantsMove (s.put F.dramChanCtrl_TARGET v n) n b = wantsMove s n b := by
  have state : chanState (s.put F.dramChanCtrl_TARGET v n) n = chanState s n := State.get_put_reg _ _ _ _ _ _ (by decide)
  have most : (s.put F.dramChanCtrl_TARGET v n).get F.dramSpace_MAX_MAPOUT = s.get F.dramSpace_MAX_MAPOUT := State.get_put_reg _ _ _ _ _ _ (by decide)
  rw [wantsMove, state, most, State.put_mem, wantsMove]

/-- With no other move in progress or waiting, a channel that may move starts to. -/
theorem chanTarget_starts {s : State} {n : Nat} {b : Bool} (target : s.get F.dramChanCtrl_TARGET n = if b then 0 else 1) (idle : s.mem.move = none)
    (empty : s.mem.moveQ = []) (wants : wantsMove s n b = true) :
    chanTarget s n b = startMove (s.put F.dramChanCtrl_TARGET (if b then 1 else 0) n) n b := by
  have changes : s.get F.dramChanCtrl_TARGET n ≠ if b then 1 else 0 := by
    rw [target]
    cases b <;> decide
  have room : (b && s.mem.out.length == s.get F.dramSpace_MAX_MAPOUT) = false := by
    cases b
    · rfl
    · simp only [wantsMove, if_pos, Bool.and_eq_true, decide_eq_true_eq] at wants
      exact beq_eq_false_iff_ne.mpr (Nat.ne_of_lt wants.2)
  have mem : (s.put F.dramChanCtrl_TARGET (if b then 1 else 0) n).mem = s.mem := State.put_mem ..
  rw [chanTarget_of_change changes room, movesAsked_of_idle (by rw [mem, idle]) (by rw [mem, empty]),
    nextMove_of_one (by rw [mem, idle]) ((wantsMove_put_target ..).trans wants), setMoveQ_of_empty (by rw [mem, empty])]

/-! The commands of a channel's TARGET. -/

section
variable {s : State} {n : Nat} (hn : n < 256)
include hn

/-- CHANNEL_MAP_OUT and CHANNEL_RESTORE are writes of TARGET 1 and 0. -/
theorem exec_channelTarget (d0 : s.hl.d3 = false) (b : Bool) :
    exec (if b then .channelMapOut n else .channelRestore n) s = ok (unitWrite s .dramChanCtrl n (if b then 1 else 0)) := by
  cases b
  · change execChannelRestore n s = _
    rw [execChannelRestore, if_pos hn, bar0_of_d0 d0]
    rfl
  · change execChannelMapOut n s = _
    rw [execChannelMapOut, if_pos hn, bar0_of_d0 d0]
    rfl

/-- While its domain is OFF the write is stored and waits (R30; log 59). -/
theorem gives_channelTarget_deferred (d0 : s.hl.d3 = false) (b : Bool) :
    Gives (if b then .channelMapOut n else .channelRestore n) s (fun t => s.unitOff .dramChanCtrl n = true →
      t.get F.dramChanCtrl_TARGET n = (if b then 1 else 0) ∧ t.mem = s.mem ∧ Only [.pwr] [.dramChanCtrl] s t) := by
  refine ⟨_, exec_channelTarget hn d0 b, fun off => ?_⟩
  have frame := frame_deferWrite s .dramChanCtrl n (if b then 1 else 0)
  rw [unitWrite, if_pos off]
  refine ⟨?_, frame.mem rfl, frame.onlyOf rfl⟩
  have stored (t : State) (v : Nat) : (storeWord t .dramChanCtrl n 0 0 v).get F.dramChanCtrl_TARGET n = bitsOf v 0 0 :=
    get_storeWord (f := F.dramChanCtrl_TARGET) (by decide) (by decide) t n 0 v (fun k x low high => by
      obtain rfl : k = 0 := Nat.le_zero.mp high
      rfl)
  exact (stored _ _).trans (by cases b <;> rfl)

theorem gives_channelTarget_starts (d0 : s.hl.d3 = false) (on : s.unitOff .dramChanCtrl n = false) (b : Bool)
    (target : s.get F.dramChanCtrl_TARGET n = if b then 0 else 1) (idle : s.mem.move = none) (empty : s.mem.moveQ = [])
    (may : if b then chanState s n = 0 ∧ s.mem.out.length < s.get F.dramSpace_MAX_MAPOUT else chanState s n = 2) :
    Gives (if b then .channelMapOut n else .channelRestore n) s (fun t => t.get F.dramChanCtrl_TARGET n = (if b then 1 else 0)
      ∧ chanState t n = (if b then 1 else 3) ∧ t.mem.move = some (n, b) ∧ t.mem.out = (if b then setInsert s.mem.out n else s.mem.out)
      ∧ Only [.mem] [.dramChanCtrl, .dramChanStatus, .dramSpace] s t) := by
  have wants : wantsMove s n b = true := by
    cases b
    · simpa [wantsMove] using may
    · obtain ⟨active, room⟩ := may
      simp [wantsMove, active, room]
  have now : unitWrite s .dramChanCtrl n (if b then 1 else 0) = chanTarget s n b := by
    rw [unitWrite, on]
    cases b <;> rfl
  have frame : Only [.mem] [.dramChanCtrl, .dramChanStatus, .dramSpace] s (chanTarget s n b) := (frame_chanTarget s n b).onlyOf rfl
  have run := exec_channelTarget hn d0 b
  rw [now] at run
  refine ⟨_, run, ?_⟩
  rw [chanTarget_starts target idle empty wants] at frame ⊢
  refine ⟨?_, chanState_startMove .., startMove_move .., ?_, frame⟩
  · rw [(frame_startMove ..).get F.dramChanCtrl_TARGET rfl n, State.get_put_same _ _ _ _ rfl]
    cases b <;> rfl
  · rw [startMove_out, State.put_mem]

end

/-! A move ends (R293). -/

/-- The channel's state as its move has ended, and the channels still mapped out. -/
def moveSettled (s : State) (n : Nat) (b : Bool) : State :=
  let s := (s.put F.dramChanStatus_MOVED (movedLines (setInsert s.mem.out n) n (s.get F.dramSpace_LIMIT_GROUPS)) n).put F.dramChanStatus_STATE
    (if b then 2 else if chanState s n = 4 then 4 else 0) n
  if b then s else showSpace (setMapped (loseFailed s) (setErase s.mem.out n))

/-- The same, kept in the bank and shown, and recorded. -/
def moveShown (s : State) (n : Nat) (b : Bool) : State :=
  let out := if b then setInsert s.bank.out (chanUnit n) else setErase s.bank.out (chanUnit n)
  showCounts (showActive (setMove (setBankOut s out) none))

def moveNoted (s : State) (n : Nat) (b : Bool) : State :=
  post s (chanUnit n) none (if b then 2 else 0) (if b then 0x0404 else 0x0405) (s.get F.dramSpace_LIMIT_GROUPS)

section
variable {s : State} {n : Nat} {b : Bool}

theorem moveDone_eq (s : State) (n : Nat) (b : Bool) : moveDone s n b = nextMove (moveNoted (moveShown (moveSettled s n b) n b) n b) := rfl

theorem chanState_moveSettled (fit : chanState s n ≠ 4) : chanState (moveSettled s n b) n = if b then 2 else 0 := by
  unfold moveSettled
  dsimp only
  rw [if_neg fit]
  cases b
  · rw [if_neg Bool.false_ne_true, chanState, (frame_showSpace _).get F.dramChanStatus_STATE rfl n, (frame_setMapped ..).get F.dramChanStatus_STATE rfl n,
      (frame_loseFailed _).get F.dramChanStatus_STATE rfl n]
    exact State.get_put_same _ _ _ _ rfl
  · exact State.get_put_same _ _ _ _ rfl

theorem moveSettled_out : (moveSettled s n b).mem.out = if b then s.mem.out else setErase s.mem.out n := by
  unfold moveSettled
  cases b
  · rw [if_neg Bool.false_ne_true, if_neg Bool.false_ne_true, (frame_showSpace ..).mem rfl, State.put_mem, State.put_mem]
    rfl
  · rw [if_pos rfl, if_pos rfl, State.put_mem, State.put_mem]
    rfl

theorem moveSettled_moveQ : (moveSettled s n b).mem.moveQ = s.mem.moveQ := by
  unfold moveSettled
  cases b
  · have mapped (t : State) (l : List Nat) : (setMapped (loseFailed t) l).mem.moveQ = t.mem.moveQ := loseFailed_keeps Memory.moveQ (fun _ _ _ => rfl) t
    rw [if_neg Bool.false_ne_true, (frame_showSpace ..).mem rfl, mapped, State.put_mem, State.put_mem]
  · rw [if_pos rfl, State.put_mem, State.put_mem]

/-- Showing and recording change of the memory's part the move alone. -/
theorem moveNoted_mem (s : State) (n : Nat) (b : Bool) : (moveNoted (moveShown s n b) n b).mem = { s.mem with move := none } := by
  rw [moveNoted, (frame_post ..).mem rfl, moveShown, (frame_showCounts _).mem rfl, (frame_showActive _).mem rfl, setMove, (frame_setBankOut ..).mem rfl]

theorem chanState_moveNoted (s : State) (n : Nat) (b : Bool) : chanState (moveNoted (moveShown s n b) n b) n = chanState s n := by
  rw [chanState, moveNoted, (frame_post ..).get F.dramChanStatus_STATE rfl n, moveShown, (frame_showCounts _).get F.dramChanStatus_STATE rfl n,
    (frame_showActive _).get F.dramChanStatus_STATE rfl n, (frame_setMove ..).get F.dramChanStatus_STATE rfl n,
    (frame_setBankOut ..).get F.dramChanStatus_STATE rfl n, chanState]

theorem gives_channelMoveDone (hn : n < 256) (moving : s.mem.move = some (n, b)) (empty : s.mem.moveQ = []) (fit : chanState s n ≠ 4) :
    Gives (.channelMoveDone n) s (fun t => chanState t n = (if b then 2 else 0) ∧ t.mem.move = none
      ∧ t.mem.out = (if b then s.mem.out else setErase s.mem.out n)
      ∧ Only (.mem :: recordParts) ([.dramChanStatus, .dramSpace, .idDevice] ++ recordRegs) s t) := by
  have run : exec (.channelMoveDone n) s = ok (moveDone s n b) := by
    change execChannelMoveDone n s = _
    rw [execChannelMoveDone, if_pos hn, moving]
    exact if_pos rfl
  have mem := moveNoted_mem (moveSettled s n b) n b
  have last : moveDone s n b = moveNoted (moveShown (moveSettled s n b) n b) n b := by
    rw [moveDone_eq, nextMove_of_empty (by rw [mem]; exact moveSettled_moveQ.trans empty)]
  have frame : Only (.mem :: recordParts) ([.dramChanStatus, .dramSpace, .idDevice] ++ recordRegs) s (moveDone s n b) := (frame_moveDone s n b).onlyOf rfl
  refine ⟨_, run, ?_, ?_, ?_, frame⟩
  · rw [last, chanState_moveNoted, chanState_moveSettled fit]
  · rw [last, mem]
  · rw [last, mem]
    exact moveSettled_out

end

/-! A channel fails (R296). -/

/-- A channel that fails while its map-out is under way loses its lines as they were placed before. -/
def chanDropped (s : State) (n : Nat) : State :=
  if chanState s n = 1 then { s with mem := { s.mem with lost := s.mem.lost ++ [(n, setErase s.mem.out n)] } } else s

section
variable {s : State} {n : Nat} (fit : chanState s n = 0 ∨ chanState s n = 1 ∨ chanState s n = 3)
include fit

theorem chanFail_eq (pa : Nat) : chanFail s n pa = post ((chanDropped s n).put F.dramChanStatus_STATE 4 n) (chanUnit n) none 1 0x0403 pa := by
  unfold chanFail
  dsimp only
  rw [if_pos fit]
  rfl

theorem gives_channelFail (hn : n < 256) : Gives (.channelFail n) s (fun t => chanState t n = 4
    ∧ Posts s t (chanUnit n) none 1 0x0403 0 ∧ Only (.mem :: recordParts) (.dramChanStatus :: recordRegs) s t) := by
  have frame : Only (.mem :: recordParts) (.dramChanStatus :: recordRegs) s (chanFail s n) := (frame_chanFail s n 0).onlyOf rfl
  refine ⟨chanFail s n, if_pos hn, ?_⟩
  rw [chanFail_eq fit] at frame ⊢
  refine ⟨?_, (posts_post_small _ _ _ _ _ (by decide)).from ?_, frame⟩
  · rw [chanState, (frame_post ..).get F.dramChanStatus_STATE rfl n, State.get_put_same _ _ _ _ rfl]
    rfl
  · rw [State.put_flt, chanDropped]
    split <;> rfl

end

end Sys2Proof.Proofs
end

section
/-! Errors in the stacks (R287, R288): a scrub that corrects is counted and recorded, an uncorrectable error poisons its sector. -/

namespace Sys2Proof.Proofs

open Sys2Proof.Machine Sys2Proof.Claims Sys2Proof.Laws

/-- A sector's address below the limit fits in a record's EXTRA. -/
theorem sector_lt {s : State} {pa : Nat} (within : pa < dramLimit s) : pa / 64 * 64 < 2 ^ 64 := by
  have limit := State.get_lt s F.dramSpace_LIMIT_GROUPS 0 0 rfl
  simp only [F.dramSpace_LIMIT_GROUPS] at limit
  simp only [dramLimit, F.dramSpace_LIMIT_GROUPS] at within
  omega

/-- A corrected symbol error noted, and an uncorrectable error. -/
def scrubNoted (s : State) (n pa : Nat) : State := post (s.bumpSat F.dramChanStatus_CE_COUNT 1 n) (chanUnit n) none 0 0x0401 (pa / 64 * 64)

def sectorSpoiled (s : State) (n pa : Nat) : State :=
  let s := { s with mem := { s.mem with poison := setInsert s.mem.poison (pa / 64) } }
  post (s.bumpSat F.dramChanStatus_UE_COUNT 1 n) (chanUnit n) none 1 0x0402 (pa / 64 * 64)

/-- The channel's errors of the last hour, this one among them. -/
def hourNoted (s : State) (n : Nat) : State := { s with flt := { s.flt with ue := hourAdd s s.flt.ue n } }

/-- A channel that fails leaves its counts of errors and the poisoned sectors (R296). -/
theorem chanFail_keeps (s : State) (n pa : Nat) :
    (chanFail s n pa).mem.poison = s.mem.poison ∧ ∀ k, (chanFail s n pa).get F.dramChanStatus_UE_COUNT k = s.get F.dramChanStatus_UE_COUNT k := by
  by_cases fit : chanState s n = 0 ∨ chanState s n = 1 ∨ chanState s n = 3
  · rw [chanFail_eq fit, (frame_post ..).mem rfl, State.put_mem]
    refine ⟨?_, fun k => ?_⟩
    · rw [chanDropped]
      split <;> rfl
    · rw [(frame_post ..).get F.dramChanStatus_UE_COUNT rfl k, State.get_put_bits _ _ _ _ _ _ rfl rfl (by decide), chanDropped]
      split <;> rfl
  · rw [chanFail, if_neg fit]
    exact ⟨rfl, fun _ => rfl⟩

section
variable {s : State} {pa : Nat} (within : pa < dramLimit s) (serves : chanFailed s pa = false)
include within serves

theorem gives_dramScrub : Gives (.dramScrub pa true) s (fun t => t.get F.dramChanStatus_CE_COUNT (storeChannel s pa)
      = min (s.get F.dramChanStatus_CE_COUNT (storeChannel s pa) + 1) (2 ^ 16 - 1)
    ∧ Posts s t (chanUnit (storeChannel s pa)) none 0 0x0401 (pa / 64 * 64) ∧ t.mem = s.mem ∧ Only recordParts (.dramChanStatus :: recordRegs) s t) := by
  have run : exec (.dramScrub pa true) s = ok (scrubNoted s (storeChannel s pa) pa) := by
    change execDramScrub pa true s = _
    rw [execDramScrub, if_pos within]
    dsimp only
    rw [serves]
    rfl
  have frame : Frame 77828 (regBits (.dramChanStatus :: recordRegs)) s (scrubNoted s (storeChannel s pa) pa) :=
    ((Frame.refl _ _ s).bumpSat (by decide)).step (frame_post ..) rfl rfl
  refine ⟨_, run, ?_, (posts_post_small _ _ _ _ _ (sector_lt within)).from ?_, frame.mem rfl, frame.onlyOf rfl⟩
  · rw [scrubNoted, (frame_post ..).get F.dramChanStatus_CE_COUNT rfl (storeChannel s pa), State.get_bumpSat_same _ _ _ _ rfl]
    rfl
  · rw [State.bumpSat_flt]

theorem gives_dramUncorrectable : Gives (.dramUncorrectable pa) s (fun t => t.mem.poison = setInsert s.mem.poison (pa / 64)
    ∧ t.get F.dramChanStatus_UE_COUNT (storeChannel s pa) = min (s.get F.dramChanStatus_UE_COUNT (storeChannel s pa) + 1) (2 ^ 8 - 1)
    ∧ Only (.mem :: recordParts) (.dramChanStatus :: recordRegs) s t) := by
  let u : State := hourNoted (sectorSpoiled s (storeChannel s pa) pa) (storeChannel s pa)
  have guard : (decide (pa < dramLimit s) && !chanFailed s pa) = true := by rw [decide_eq_true within, serves]; rfl
  have unfolded : execDramUncorrectable pa s
      = ok (if cfgVal u (·.ueLimit) < hourCount u.flt.ue (storeChannel s pa) then chanFail u (storeChannel s pa) (pa / 64 * 64) else u) := by
    unfold execDramUncorrectable
    rw [if_pos guard]
    rfl
  have poison : u.mem.poison = setInsert s.mem.poison (pa / 64) := by
    change (sectorSpoiled s (storeChannel s pa) pa).mem.poison = _
    rw [sectorSpoiled, (frame_post ..).mem rfl, State.bumpSat_mem]
  have count : u.get F.dramChanStatus_UE_COUNT (storeChannel s pa) = min (s.get F.dramChanStatus_UE_COUNT (storeChannel s pa) + 1) (2 ^ 8 - 1) := by
    change (sectorSpoiled s (storeChannel s pa) pa).get F.dramChanStatus_UE_COUNT (storeChannel s pa) = _
    rw [sectorSpoiled, (frame_post ..).get F.dramChanStatus_UE_COUNT rfl (storeChannel s pa), State.get_bumpSat_same _ _ _ _ rfl]
    rfl
  have frame : Only (.mem :: recordParts) (.dramChanStatus :: recordRegs) s
      (if cfgVal u (·.ueLimit) < hourCount u.flt.ue (storeChannel s pa) then chanFail u (storeChannel s pa) (pa / 64 * 64) else u) :=
    ((frame_execDramUncorrectable pa s).of_next _ unfolded).onlyOf rfl
  have kept := chanFail_keeps u (storeChannel s pa) (pa / 64 * 64)
  refine ⟨_, unfolded, ?_⟩
  by_cases beyond : cfgVal u (·.ueLimit) < hourCount u.flt.ue (storeChannel s pa)
  · rw [if_pos beyond] at frame ⊢
    exact ⟨kept.1.trans poison, (kept.2 _).trans count, frame⟩
  · rw [if_neg beyond] at frame ⊢
    exact ⟨poison, count, frame⟩

end

end Sys2Proof.Proofs
end

section
/-! The IEEE 1500 wrappers (R298, R299): a request is refused while disruptive, or shifted; its end answers and takes up the bits shifted out. -/

namespace Sys2Proof.Proofs

open Sys2Proof.Machine Sys2Proof.Claims Sys2Proof.Laws

/-! Requests. -/

/-- The instructions that disturb a channel in service, by the running image. -/
def disruptive (s : State) : List Nat := (s.boot.cfg.map (fun c => c.disruptive)).getD []

/-- The request as it is written, before it begins. -/
def wrapStored (s : State) (m v : Nat) : State :=
  let n := bitsOf v 24 16
  let s := (s.put F.dram1500Ctrl_INSTR (bitsOf v 7 0) m).put F.dram1500Ctrl_CHANNEL (bitsOf v 12 8) m
  let s := if 1 ≤ n ∧ n ≤ 256 then s.put F.dram1500Ctrl_LENGTH n m else s
  s.put F.dram1500Ctrl_REQ_SEQ (bitsOf v 39 32) m

/-- The register holds a request. -/
structure Requests (s : State) (m seq i ch len : Nat) : Prop where
  seq : s.get F.dram1500Ctrl_REQ_SEQ m = seq
  instr : s.get F.dram1500Ctrl_INSTR m = i
  channel : s.get F.dram1500Ctrl_CHANNEL m = ch
  length : s.get F.dram1500Ctrl_LENGTH m = len

section
variable (s : State) (m v : Nat)

theorem frame_wrapStored : Frame 0 (regBits [.dram1500Ctrl]) s (wrapStored s m v) := by
  have named := ((Frame.refl 0 (regBits [.dram1500Ctrl]) s).put (f := F.dram1500Ctrl_INSTR) (v := bitsOf v 7 0) (i := m) (j := 0) (by decide)).put
    (f := F.dram1500Ctrl_CHANNEL) (v := bitsOf v 12 8) (i := m) (j := 0) (by decide)
  exact (Frame.ite (fun _ => named.put (by decide)) (fun _ => named)).put (by decide)

theorem done_wrapStored : (wrapStored s m v).get F.dram1500Ctrl_DONE_SEQ m = s.get F.dram1500Ctrl_DONE_SEQ m := by
  rw [wrapStored, State.get_put_bits _ _ _ _ _ _ rfl rfl (by decide), get_put_when _ _ _ _ rfl rfl (by decide),
    State.get_put_bits _ _ _ _ _ _ rfl rfl (by decide), State.get_put_bits _ _ _ _ _ _ rfl rfl (by decide)]

theorem requests_wrapStored (len : 1 ≤ bitsOf v 24 16 ∧ bitsOf v 24 16 ≤ 256) :
    Requests (wrapStored s m v) m (bitsOf v 39 32) (bitsOf v 7 0) (bitsOf v 12 8) (bitsOf v 24 16) where
  seq := by
    rw [wrapStored, State.get_put_same _ _ _ _ rfl]
    exact Nat.mod_eq_of_lt (bitsOf_lt v 39 32)
  instr := by
    rw [wrapStored, State.get_put_bits _ _ _ _ _ _ rfl rfl (by decide), get_put_when _ _ _ _ rfl rfl (by decide),
      State.get_put_bits _ _ _ _ _ _ rfl rfl (by decide), State.get_put_same _ _ _ _ rfl]
    exact Nat.mod_eq_of_lt (bitsOf_lt v 7 0)
  channel := by
    rw [wrapStored, State.get_put_bits _ _ _ _ _ _ rfl rfl (by decide), get_put_when _ _ _ _ rfl rfl (by decide), State.get_put_same _ _ _ _ rfl]
    exact Nat.mod_eq_of_lt (bitsOf_lt v 12 8)
  length := by
    rw [wrapStored, State.get_put_bits _ _ _ _ _ _ rfl rfl (by decide), if_pos len, State.get_put_same _ _ _ _ rfl]
    exact Nat.mod_eq_of_lt (bitsOf_lt v 24 16)

theorem wrapWrite_eq : wrapWrite s m v = wrapBegin (wrapStored s m v) m := rfl

end

/-- A request refused at once. -/
def wrapRefused (s : State) (m seq : Nat) : State := (s.put F.dram1500Ctrl_RESULT 1 m).put F.dram1500Ctrl_DONE_SEQ seq m

/-- A request being served. -/
def wrapServed (s : State) (m : Nat) (r : WrapReq) : State := { s with mem := { s.mem with wrap := smapInsert s.mem.wrap m r } }

/-- A request that is new to an idle wrapper is refused where its instruction would disturb a channel in service, and else served. -/
theorem wrapBegin_of_new {s : State} {m seq i ch len : Nat} (asks : Requests s m seq i ch len) (new : seq ≠ s.get F.dram1500Ctrl_DONE_SEQ m)
    (idle : smapFind s.mem.wrap m = none) :
    wrapBegin s m = if (disruptive s).contains i && chanState s (32 * m + ch) != 5 then wrapRefused s m seq
      else wrapServed s m ⟨seq, i, 32 * m + ch, len⟩ := by
  have begins : ¬ (seq = s.get F.dram1500Ctrl_DONE_SEQ m ∨ (smapFind s.mem.wrap m).isSome = true) := by
    rw [idle]
    rintro (same | busy)
    · exact new same
    · exact Bool.false_ne_true busy
  unfold wrapBegin
  rw [asks.seq, asks.instr, asks.channel, asks.length]
  exact if_neg begins

/-- A request already answered does not begin. -/
theorem wrapBegin_of_done {s : State} {m : Nat} (done : s.get F.dram1500Ctrl_REQ_SEQ m = s.get F.dram1500Ctrl_DONE_SEQ m) : wrapBegin s m = s := by
  unfold wrapBegin
  exact if_pos (.inl done)

theorem gives_wrapperRequest {s : State} {m v ch : Nat} (hm : m < 8) (d0 : s.hl.d3 = false) (idle : smapFind s.mem.wrap m = none)
    (new : bitsOf v 39 32 ≠ s.get F.dram1500Ctrl_DONE_SEQ m) (least : 1 ≤ bitsOf v 24 16) (most : bitsOf v 24 16 ≤ 256)
    (channel : ch = 32 * m + bitsOf v 12 8) :
    Gives (.wrapperRequest m v) s (fun t =>
      (((s.boot.cfg.map (fun c => c.disruptive)).getD []).contains (bitsOf v 7 0) = true → chanState s ch ≠ 5 →
        t.get F.dram1500Ctrl_RESULT m = 1 ∧ t.get F.dram1500Ctrl_DONE_SEQ m = bitsOf v 39 32 ∧ t.mem = s.mem)
      ∧ (((s.boot.cfg.map (fun c => c.disruptive)).getD []).contains (bitsOf v 7 0) = false ∨ chanState s ch = 5 →
        smapFind t.mem.wrap m = some ⟨bitsOf v 39 32, bitsOf v 7 0, ch, bitsOf v 24 16⟩)
      ∧ Only [.acc, .mem] [.dram1500Ctrl] s t) := by
  subst channel
  let w : State := wideWrite s .dram1500Ctrl m
  have stored := frame_wrapStored w m v
  have asks := requests_wrapStored w m v ⟨least, most⟩
  have fresh : bitsOf v 39 32 ≠ (wrapStored w m v).get F.dram1500Ctrl_DONE_SEQ m := by
    rw [done_wrapStored]
    exact new
  have mem : (wrapStored w m v).mem = s.mem := stored.mem rfl
  have state : chanState (wrapStored w m v) (32 * m + bitsOf v 12 8) = chanState s (32 * m + bitsOf v 12 8) := stored.get F.dramChanStatus_STATE rfl _
  have image : disruptive (wrapStored w m v) = disruptive s := by
    rw [disruptive, stored.boot rfl]
    rfl
  have run : exec (.wrapperRequest m v) s = ok (wrapWrite w m v) := by
    change execWrapperRequest m v s = _
    rw [execWrapperRequest, if_pos hm, bar0_of_d0 d0]
  have frame : Only [.acc, .mem] [.dram1500Ctrl] s (wrapWrite w m v) := ((frame_wideWrite ..).onlyOf rfl).trans ((frame_wrapWrite ..).onlyOf rfl)
  refine ⟨_, run, ?_⟩
  rw [wrapWrite_eq, wrapBegin_of_new asks fresh (by rw [mem, idle]), state, image] at frame ⊢
  refine ⟨fun disturbs inService => ?_, fun free => ?_, frame⟩
  · have refused : ((disruptive s).contains (bitsOf v 7 0) && chanState s (32 * m + bitsOf v 12 8) != 5) = true := by
      rw [Bool.and_eq_true, bne_iff_ne]
      exact ⟨disturbs, inService⟩
    rw [if_pos refused, wrapRefused]
    refine ⟨?_, ?_, ?_⟩
    · rw [State.get_put_bits _ _ _ _ _ _ rfl rfl (by decide), State.get_put_same _ _ _ _ rfl]
      rfl
    · rw [State.get_put_same _ _ _ _ rfl]
      exact Nat.mod_eq_of_lt (bitsOf_lt v 39 32)
    · rw [State.put_mem, State.put_mem, mem]
  · have served : ¬ ((disruptive s).contains (bitsOf v 7 0) && chanState s (32 * m + bitsOf v 12 8) != 5) = true := by
      rw [Bool.and_eq_true, bne_iff_ne]
      rintro ⟨disturbs, inService⟩
      rcases free with harmless | down
      · exact Bool.false_ne_true (harmless.symm.trans disturbs)
      · exact inService down
    rw [if_neg served, wrapServed, smapFind_insert, if_pos rfl]

/-! Requests that end (R298). -/

/-- Word `j` of the module's data with the bits shifted out in the places of those shifted in. -/
def shiftedOut (s : State) (m : Nat) (r : WrapReq) (data : List Nat) (j : Nat) : Nat :=
  s.get F.dram1500Data_DATA m j / 2 ^ min 64 (r.len - 64 * j) * 2 ^ min 64 (r.len - 64 * j) + nthD data j 0 % 2 ^ min 64 (r.len - 64 * j)

def dataShifted (s : State) (m : Nat) (f : Nat → Nat) : State := (List.range 4).foldl (fun s j => s.put F.dram1500Data_DATA (f j) m j) s

theorem frame_dataShifted (s : State) (m : Nat) (f : Nat → Nat) : Frame 0 (regBits [.dram1500Data]) s (dataShifted s m f) :=
  Frame.foldl (.refl _ _ s) (fun _ _ h => h.put (by decide))

theorem get_dataShifted (s : State) (m : Nat) (f : Nat → Nat) {j : Nat} (hj : j < 4) : (dataShifted s m f).get F.dram1500Data_DATA m j = f j % 2 ^ 64 := by
  have words : dataShifted s m f = (((s.put F.dram1500Data_DATA (f 0) m 0).put F.dram1500Data_DATA (f 1) m 1).put F.dram1500Data_DATA (f 2) m 2).put
      F.dram1500Data_DATA (f 3) m 3 := rfl
  have other (t : State) (k : Nat) (v : Nat) (h : j ≠ k) : (t.put F.dram1500Data_DATA v m k).get F.dram1500Data_DATA m j = t.get F.dram1500Data_DATA m j :=
    State.get_put_j t v m m h
  have own (t : State) : (t.put F.dram1500Data_DATA (f j) m j).get F.dram1500Data_DATA m j = f j % 2 ^ 64 := State.get_put_same t _ m j rfl
  rw [words]
  interval_cases j
  · rw [other _ 3 _ (by decide), other _ 2 _ (by decide), other _ 1 _ (by decide), own]
  · rw [other _ 3 _ (by decide), other _ 2 _ (by decide), own]
  · rw [other _ 3 _ (by decide), own]
  · rw [own]

/-- All 64 bits of each word are shifted for a request of 256. -/
theorem shiftedOut_of_full {s : State} {m : Nat} {r : WrapReq} (full : r.len = 256) (data : List Nat) {j : Nat} (hj : j < 4) :
    shiftedOut s m r data j = nthD data j 0 % 2 ^ 64 := by
  have width : min 64 (r.len - 64 * j) = 64 := by omega
  have old : s.get F.dram1500Data_DATA m j < 2 ^ 64 := State.get_lt s F.dram1500Data_DATA m j rfl
  rw [shiftedOut, width, Nat.div_eq_of_lt old, Nat.zero_mul, Nat.zero_add]

/-- The answer of a request. -/
def wrapAnswered (s : State) (m : Nat) (resp : Bool) (seq : Nat) : State :=
  (s.put F.dram1500Ctrl_RESULT (if resp then 0 else 2) m).put F.dram1500Ctrl_DONE_SEQ seq m

def wrapFreed (s : State) (m : Nat) : State := { s with mem := { s.mem with wrap := smapErase s.mem.wrap m } }

theorem get_wrapFreed (s : State) (m : Nat) (f : Fld) (i j : Nat) : (wrapFreed s m).get f i j = s.get f i j := rfl

section
variable {s : State} {m : Nat} {r : WrapReq} (resp : Bool) (data : List Nat) (hm : m < 8) (serving : smapFind s.mem.wrap m = some r)
include hm serving

theorem exec_wrapperDone : exec (.wrapperDone m resp data) s
    = ok (wrapBegin (wrapFreed (wrapAnswered (if resp then dataShifted s m (shiftedOut s m r data) else s) m resp r.seq) m) m) := by
  change execWrapperDone m resp data s = _
  rw [execWrapperDone, if_pos hm, serving]
  rfl

theorem gives_wrapperDone (asked : s.get F.dram1500Ctrl_REQ_SEQ m = r.seq) (small : r.seq < 256) :
    Gives (.wrapperDone m resp data) s (fun t => t.get F.dram1500Ctrl_RESULT m = (if resp then 0 else 2) ∧ t.get F.dram1500Ctrl_DONE_SEQ m = r.seq
      ∧ smapFind t.mem.wrap m = none ∧ (resp = true → r.len = 256 → ∀ j, j < 4 → t.get F.dram1500Data_DATA m j = nthD data j 0 % 2 ^ 64)
      ∧ Only [.mem] [.dram1500Ctrl, .dram1500Data] s t) := by
  obtain ⟨u, hu⟩ : ∃ u, u = if resp then dataShifted s m (shiftedOut s m r data) else s := ⟨_, rfl⟩
  have shifted : Frame 0 (regBits [.dram1500Data]) s u := by
    rw [hu]
    exact .ite (fun _ => frame_dataShifted ..) (fun _ => .refl _ _ s)
  have answered : Frame 0 (regBits [.dram1500Ctrl]) u (wrapAnswered u m resp r.seq) := ((Frame.refl _ _ u).put (by decide)).put (by decide)
  have done : (wrapAnswered u m resp r.seq).get F.dram1500Ctrl_DONE_SEQ m = r.seq := by
    rw [wrapAnswered, State.get_put_same _ _ _ _ rfl]
    exact Nat.mod_eq_of_lt small
  have request : (wrapAnswered u m resp r.seq).get F.dram1500Ctrl_REQ_SEQ m = r.seq := by
    rw [wrapAnswered, State.get_put_bits _ _ _ _ _ _ rfl rfl (by decide), State.get_put_bits _ _ _ _ _ _ rfl rfl (by decide),
      shifted.get F.dram1500Ctrl_REQ_SEQ rfl m, asked]
  have last : wrapBegin (wrapFreed (wrapAnswered u m resp r.seq) m) m = wrapFreed (wrapAnswered u m resp r.seq) m :=
    wrapBegin_of_done (by rw [get_wrapFreed, get_wrapFreed, request, done])
  have run := exec_wrapperDone resp data hm serving
  rw [← hu, last] at run
  have frame : Only [.mem] [.dram1500Ctrl, .dram1500Data] s (wrapFreed (wrapAnswered u m resp r.seq) m) :=
    (shifted.onlyOf rfl).trans ((answered.onlyOf rfl).trans ((only_mem ..).mono (by decide) (by decide)))
  refine ⟨_, run, ?_, (get_wrapFreed ..).trans done, ?_, fun responded full j hj => ?_, frame⟩
  · rw [get_wrapFreed, wrapAnswered, State.get_put_bits _ _ _ _ _ _ rfl rfl (by decide), State.get_put_same _ _ _ _ rfl]
    cases resp <;> rfl
  · rw [wrapFreed, smapFind_erase, if_pos rfl]
  · rw [if_pos responded] at hu
    rw [get_wrapFreed, answered.get F.dram1500Data_DATA rfl m j, hu, get_dataShifted _ _ _ hj, shiftedOut_of_full full data hj, Nat.mod_mod]

end

end Sys2Proof.Proofs
end

section
/-! Segments, keys, channels and wrappers, together (O51). -/

namespace Sys2Proof.Proofs

open Sys2Proof.Machine Sys2Proof.Claims

/-- Settles O51, subject by subject: segments, key slots, a channel's moves and failure, errors of sectors, wrappers. -/
theorem segmentsKeysAndChannelsApply : Obligations.SegmentsKeysAndChannelsApply := by
  unfold Obligations.SegmentsKeysAndChannelsApply
  refine ⟨fun c sg attr s hc hsg d0 => ?segments, fun k v s hk => ?keys, fun n s hn => ?channels, fun pa s within serves => ?errors, fun m v s hm => ?wrappers⟩
  case segments =>
    exact ⟨gives_segApply_withdraws hc hsg d0, gives_segApply_applies hc hsg d0, gives_segApply_rejects hc hsg d0,
      fun _ => gives_segFaultTimeout hc hsg⟩
  case keys => exact ⟨gives_keySlotWrite hk v, gives_keyGenDone hk⟩
  case channels =>
    exact ⟨gives_channelTarget_deferred hn, gives_channelTarget_starts hn, fun _ => gives_channelMoveDone hn, fun fit => gives_channelFail fit hn⟩
  case errors => exact ⟨gives_dramScrub within serves, gives_dramUncorrectable within serves⟩
  case wrappers =>
    exact ⟨fun _ => gives_wrapperRequest hm, fun _ resp data serving => gives_wrapperDone resp data hm serving⟩

end Sys2Proof.Proofs
end

section
/-! The tide (R348 to R355, R553): its ticks, its changes of state, its beacons, its timers. -/

namespace Sys2Proof.Proofs

open Sys2Proof.Machine Sys2Proof.Claims Sys2Proof.Laws

/-! The count. -/

theorem get_setCount (s : State) (n : Nat) : (setCount s n).get F.tideCount_COUNT = n % 2 ^ 64 :=
  (State.get_put_same s _ 0 0 rfl).trans (Nat.mod_mod ..)

theorem setCount_tide (s : State) (n : Nat) : (setCount s n).tide = s.tide := State.put_tide ..

/-! A tick (R348, R353). -/

/-- No offset to correct: one tick, and none to correct after it. -/
theorem tideStep_still {t : Tide} (err : t.err = 0) (full : t.half = false) :
    (tideStep t).1 = 1 ∧ (tideStep t).2.err = 0 ∧ (tideStep t).2.half = false := by
  unfold tideStep
  by_cases due : (t.phase + 1) % 1024 = 0 <;> simp [err, full, due]

/-- At full rate a tick is added or left out once in 1,024, and the offset falls by as much. -/
theorem tideStep_full {t : Tide} (full : t.half = false) :
    (tideStep t).1 ≤ 2 ∧ (tideStep t).2.err = t.err + 1 - (tideStep t).1 ∧ ((tideStep t).1 ≠ 1 → (t.phase + 1) % 1024 = 0) := by
  unfold tideStep
  by_cases due : (t.phase + 1) % 1024 = 0
  · by_cases behind : 1 < t.err
    · simp [full, due, behind]
      omega
    · by_cases ahead : t.err < -1 <;> simp [full, due, behind, ahead]
  · simp [full, due]

/-- At half rate every other tick is left out. -/
theorem tideStep_half {t : Tide} (half : t.half = true) :
    (tideStep t).1 ≤ 1 ∧ ((tideStep t).1 = 0 ↔ (t.phase + 1) % 1024 % 2 = 1)
      ∧ ((tideStep t).2.half = true → (tideStep t).2.err = t.err + 1 - (tideStep t).1) := by
  unfold tideStep
  rcases Nat.mod_two_eq_zero_or_one ((t.phase + 1) % 1024) with even | odd
  · simp [half, even]
  · by_cases near : -4 ≤ t.err + 1 <;> simp [half, odd, near]

/-- Settles O35: the step of the correction decides by how much the count advances, and the timers advance beside it. -/
theorem tideTickAdvancesTheCount : Obligations.TideTickAdvancesTheCount := by
  unfold Obligations.TideTickAdvancesTheCount
  intro s
  obtain ⟨u, hu⟩ : ∃ u, u = setTideRec s (tideTimers (tideState s) (tideStep s.tide).2) := ⟨_, rfl⟩
  have run : exec .tideTick s = .next (setCount u (u.tideNow + (tideStep s.tide).1)) := by
    rw [hu]
    rfl
  have count : (setCount u (u.tideNow + (tideStep s.tide).1)).get F.tideCount_COUNT
      = (s.get F.tideCount_COUNT + (tideStep s.tide).1) % 2 ^ 64 := by
    rw [get_setCount, hu]
    rfl
  have tide : (setCount u (u.tideNow + (tideStep s.tide).1)).tide = tideTimers (tideState s) (tideStep s.tide).2 := by
    rw [setCount_tide, hu]
    rfl
  have timers : (tideStep s.tide).2.since = s.tide.since ∧ (tideStep s.tide).2.sinceA = s.tide.sinceA ∧ (tideStep s.tide).2.sinceB = s.tide.sinceB := by
    unfold tideStep
    dsimp only
    split_ifs <;> exact ⟨rfl, rfl, rfl⟩
  refine ⟨_, run, ?_, ?_, ?_, ?_, ?_, ?_, (frame_execTideTick s).of_next _ run |>.onlyOf rfl⟩
  · intro err full
    obtain ⟨one, none, still⟩ := tideStep_still err full
    rw [count, tide, one]
    exact ⟨rfl, none, still⟩
  · intro full
    obtain ⟨few, err, due⟩ := tideStep_full full
    rw [count, tide]
    exact ⟨_, few, rfl, err, due⟩
  · intro half
    obtain ⟨few, odd, err⟩ := tideStep_half half
    rw [count, tide]
    exact ⟨_, few, rfl, odd, err⟩
  · rw [tide, ← timers.1]
    rfl
  · rw [tide, ← timers.2.1]
    rfl
  · rw [tide, ← timers.2.2]
    rfl

theorem get_put_other (s : State) {f g : Fld} (v i k : Nat) (h : g.reg ≠ f.reg) : (s.put f v i).get g k = s.get g k := State.get_put_reg _ _ _ _ _ _ h

theorem isSet_put_other (s : State) {f g : Fld} (v i k : Nat) (h : g.reg ≠ f.reg) : (s.put f v i).isSet g k = s.isSet g k := by
  rw [State.isSet, get_put_other _ _ _ _ h, State.isSet]

/-! Changes of state (Table 11.1). -/

/-- The lock as a change of state writes it. -/
def tideSet (s : State) (st : Nat) (fromFree : Bool) : State :=
  ((setTideRec s { s.tide with fromFree := fromFree }).put F.tideLock_STATE st).put F.tideLock_VALID
    (if st = tFree ∨ (st = tAcquiring ∧ fromFree) then 0 else 1)

/-- With the ferries that LOST pauses, or paused, shown. -/
def tideShown (s : State) (st : Nat) (fromFree : Bool) : State :=
  if st ≠ tideState s ∧ (st = tLost ∨ tideState s = tLost) then (List.range 32).foldl ferryShow (tideSet s st fromFree) else tideSet s st fromFree

theorem regBits_single_apart {q r : RegId} (h : r ≠ q) : (regBits [q]).testBit r.ctorIdx = false := by
  have other : q.ctorIdx ≠ r.ctorIdx := fun same => h (by rw [← RegId.ofNat_ctorIdx r, ← same, RegId.ofNat_ctorIdx q])
  have one : regBits [q] = 2 ^ q.ctorIdx := Nat.zero_or _
  rw [one, Nat.testBit_two_pow_of_ne other]

theorem tideGo_eq (s : State) (st : Nat) (fromFree : Bool) : tideGo s st fromFree = if st = tideState s then tideShown s st fromFree
    else signalIf (tideShown s st fromFree) ((tideShown s st fromFree).isSet F.tideCtrl_EVENT_EN) ((tideShown s st fromFree).get F.tideCtrl_EVENT) := rfl

section
variable (s : State) (st : Nat) (fromFree : Bool)

theorem frame_tideSet : Frame 128 (regBits [.tideLock]) s (tideSet s st fromFree) :=
  (((frame_setTideRec s _).mono rfl rfl).put (by decide)).put (by decide)

theorem frame_tideShown : Frame 0 (regBits [.ferryStatus]) (tideSet s st fromFree) (tideShown s st fromFree) := by
  unfold tideShown
  exact .ite (fun _ => .foldl (.refl _ _ _) (fun _ f h => h.step (frame_ferryShow _ f) rfl rfl)) (fun _ => .refl _ _ _)

theorem frame_tideSignalled : Frame 65540 (regBits [.evt]) (tideShown s st fromFree) (tideGo s st fromFree) := by
  rw [tideGo_eq]
  exact .ite (fun _ => .refl _ _ _) (fun _ => (frame_signalIf ..).mono rfl rfl)

/-- Fields of other registers than the events' and the ferries' are as the lock's change leaves them. -/
theorem get_tideGo {f : Fld} (evt : f.reg ≠ .evt) (status : f.reg ≠ .ferryStatus) (i : Nat) :
    (tideGo s st fromFree).get f i = (tideSet s st fromFree).get f i :=
  ((frame_tideSignalled s st fromFree).get f (regBits_single_apart evt) i).trans
    ((frame_tideShown s st fromFree).get f (regBits_single_apart status) i)

theorem tideGo_tide : (tideGo s st fromFree).tide = { s.tide with fromFree := fromFree } := by
  rw [(frame_tideSignalled ..).tide rfl, (frame_tideShown ..).tide rfl, tideSet, State.put_tide, State.put_tide]
  rfl

theorem tideGo_flt : (tideGo s st fromFree).flt = s.flt := (frame_tideGo ..).flt rfl

/-- Fields of the lock beside STATE and VALID stay. -/
theorem get_tideGo_lock {f : Fld} (ok : f.ok = true) (reg : f.reg = .tideLock) (apart : 2 < f.lo ∧ f.hi < 6 ∨ 6 < f.lo) :
    (tideGo s st fromFree).get f = s.get f := by
  have lo : f.lo ≤ f.hi := by simp [Fld.ok] at ok; omega
  rw [get_tideGo _ _ _ (by rw [reg]; decide) (by rw [reg]; decide), tideSet,
    State.get_put_bits _ _ _ _ _ _ rfl ok (apart.elim (fun h => .inl h.2) .inr),
    State.get_put_bits _ _ _ _ _ _ rfl ok (.inr (apart.elim And.left (fun h => (by decide : 2 < 6).trans h)))]
  rfl

theorem activePath_tideGo : activePath (tideGo s st fromFree) = activePath s := get_tideGo_lock _ _ _ rfl rfl (.inl (by decide))

theorem get_tideGo_count : (tideGo s st fromFree).get F.tideCount_COUNT = s.get F.tideCount_COUNT := (frame_tideGo ..).get F.tideCount_COUNT rfl

variable {st}

theorem tideState_tideGo (small : st < 8) : tideState (tideGo s st fromFree) = st := by
  rw [tideState, get_tideGo _ _ _ (by decide) (by decide), tideSet, State.get_put_bits _ _ _ _ _ _ rfl rfl (by decide), State.get_put_same _ _ _ _ rfl]
  exact Nat.mod_eq_of_lt small

variable {fromFree}

theorem valid_tideGo (h : ¬(st = tFree ∨ (st = tAcquiring ∧ fromFree = true))) : (tideGo s st fromFree).isSet F.tideLock_VALID = true := by
  rw [State.isSet, get_tideGo _ _ _ (by decide) (by decide), tideSet, if_neg h]
  exact isSet_put_one _ 0 rfl

theorem not_valid_tideGo (h : st = tFree ∨ (st = tAcquiring ∧ fromFree = true)) : (tideGo s st fromFree).isSet F.tideLock_VALID = false := by
  rw [State.isSet, get_tideGo _ _ _ (by decide) (by decide), tideSet, if_pos h]
  exact isSet_put_zero _ 0 rfl

/-- A change that neither reaches LOST nor leaves it shows no ferry anew. -/
theorem only_tideGo (calm : st ≠ tLost ∧ tideState s ≠ tLost) : Only [.tide, .hl, .out] [.tideLock, .evt] s (tideGo s st fromFree) := by
  have shown : tideShown s st fromFree = tideSet s st fromFree := if_neg (fun h => h.2.elim calm.1 calm.2)
  have signalled := frame_tideSignalled s st fromFree
  rw [shown] at signalled
  exact ((frame_tideSet s st fromFree).onlyOf rfl).trans (signalled.onlyOf rfl)

end

/-! Records of the tide. -/

theorem get_tidePost (s : State) (code extra : Nat) {f : Fld} (reg : f.reg ∈ [RegId.tideLock, .tideCount, .ferryStatus, .ferryCtrl]) (i : Nat) :
    (tidePost s code extra).get f i = s.get f i :=
  (frame_tidePost s code extra).get f (by
    simp only [List.mem_cons, List.not_mem_nil, or_false] at reg
    rcases reg with h | h | h | h <;> rw [h] <;> rfl) i

theorem posts_tidePost {s u : State} (flt : u.flt = s.flt) (path : activePath u = activePath s) (code : Nat) {extra : Nat} (small : extra < 2 ^ 64) :
    Posts s (tidePost u code extra) (pathUnit (activePath s)) none 0 code extra := by
  rw [← path]
  exact (posts_post_small u _ none 0 code small).from (by rw [flt])

/-! Beacons (R351). -/

/-- The windows of the paths that a beacon is valid for begin again. -/
def pathsSeen (s : State) (port : Nat) (p : Packet) : State :=
  let u := if validFor s 0 port p then pathSeen s 0 else s
  if validFor s 1 port p then pathSeen u 1 else u

/-- So does the time without a beacon valid for the active path. -/
def heard (s : State) (port : Nat) (p : Packet) : State :=
  setTideRec (pathsSeen s port p) { (pathsSeen s port p).tide with since := 0 }

/-- What a beacon's windows leave of the tide: the lock apart from the paths' marks, and the counts towards a change of state. -/
structure LockKept (s u : State) : Prop where
  frame : Frame 128 (regBits [.tideLock]) s u
  lock : ∀ f : Fld, f.ok = true → f.reg = .tideLock → f.hi < 4 ∨ 5 < f.lo → u.get f = s.get f
  outliers : u.tide.outliers = s.tide.outliers
  good : u.tide.good = s.tide.good

theorem lockKept_pathSeen (s : State) (path : Nat) : LockKept s (pathSeen s path) := by
  refine ⟨(frame_pathSeen s path).mono rfl rfl, fun f ok reg apart => ?_, ?_, ?_⟩
  · unfold pathSeen
    split
    · exact State.get_put_bits _ _ _ _ _ _ rfl ok (apart.imp id (fun h => (by decide : 4 < 5).trans h))
    · exact State.get_put_bits _ _ _ _ _ _ rfl ok (apart.imp (fun h => h.trans (by decide)) id)
  all_goals
    unfold pathSeen
    split <;> rw [State.put_tide] <;> rfl

theorem LockKept.trans {s t u : State} (h : LockKept s t) (g : LockKept t u) : LockKept s u :=
  ⟨h.frame.step g.frame rfl rfl, fun f ok reg apart => (g.lock f ok reg apart).trans (h.lock f ok reg apart), g.outliers.trans h.outliers, g.good.trans h.good⟩

theorem LockKept.refl (s : State) : LockKept s s := ⟨.refl _ _ s, fun _ _ _ _ => rfl, rfl, rfl⟩

theorem lockKept_heard (s : State) (port : Nat) (p : Packet) : LockKept s (heard s port p) := by
  have first : LockKept s (if validFor s 0 port p then pathSeen s 0 else s) := by
    split
    · exact lockKept_pathSeen s 0
    · exact .refl s
  have seen : LockKept s (pathsSeen s port p) := by
    unfold pathsSeen
    dsimp only
    split
    · exact first.trans (lockKept_pathSeen ..)
    · exact first
  exact seen.trans ⟨(frame_setTideRec ..).mono rfl rfl, fun _ _ _ _ => rfl, rfl, rfl⟩

section
variable {s : State} {port : Nat} {p : Packet}

theorem beaconIn_active (h : ActiveBeacon s port p) : beaconIn s port p = beaconActive (pathsSeen s port p) port p := by
  obtain ⟨-, up, valid⟩ := h
  have act : (if activePath s = 0 then validFor s 0 port p else validFor s 1 port p) = true := by
    split_ifs at valid ⊢ <;> exact valid
  unfold beaconIn pathsSeen
  rw [if_pos up]
  dsimp only
  rw [if_pos act]

theorem exec_beaconReceive (h : ActiveBeacon s port p) : exec (.beaconReceive port p) s = .next (beaconActive (pathsSeen s port p) port p) := by
  rw [← beaconIn_active h]
  exact if_pos h.1

variable (s port p)

theorem since_heard : (heard s port p).tide.since = 0 := rfl
theorem tideState_heard : tideState (heard s port p) = tideState s := (lockKept_heard s port p).lock _ rfl rfl (.inl (by decide))
theorem tideNow_heard : (heard s port p).tideNow = s.get F.tideCount_COUNT := (lockKept_heard s port p).frame.get F.tideCount_COUNT rfl
theorem delay_heard : (heard s port p).get F.fabPortStatus_DELAY port = s.get F.fabPortStatus_DELAY port :=
  (lockKept_heard s port p).frame.get F.fabPortStatus_DELAY rfl port
theorem offset_heard : beaconOffset (heard s port p) port p = beaconOffset s port p := by
  rw [beaconOffset, delay_heard, tideNow_heard, beaconOffset, State.tideNow]

/-- The block once the beacon's offset is shown. -/
def offsetShown : State := showOffset (heard s port p) (beaconOffset s port p)

theorem lockKept_offsetShown {f : Fld} (ok : f.ok = true) (reg : f.reg = .tideLock) (apart : f.hi < 4 ∨ 5 < f.lo ∧ (f.hi < 16 ∨ 31 < f.lo)) :
    (offsetShown s port p).get f = s.get f := by
  refine (State.get_put_bits _ _ _ _ _ _ rfl ok ?_).trans ((lockKept_heard s port p).lock f ok reg (apart.imp id And.left))
  exact apart.elim (fun h => .inl (h.trans (by decide))) And.right

theorem frame_offsetShown : Frame 128 (regBits [.tideLock]) s (offsetShown s port p) :=
  (lockKept_heard s port p).frame.step (frame_showOffset ..) rfl rfl

theorem offsetShown_tide : (offsetShown s port p).tide = (heard s port p).tide := (frame_showOffset ..).tide rfl

theorem outliers_offsetShown : (offsetShown s port p).tide.outliers = s.tide.outliers := by
  rw [offsetShown_tide, (lockKept_heard s port p).outliers]

theorem good_offsetShown : (offsetShown s port p).tide.good = s.tide.good := by
  rw [offsetShown_tide, (lockKept_heard s port p).good]

/-- A beacon in the states that measure it: LOCKED, ACQUIRING. -/
theorem beaconActive_measured (h : tideState s = tLocked ∨ tideState s = tAcquiring) : beaconActive (pathsSeen s port p) port p =
    if tideState s = tLocked then
      if 256 < (beaconOffset s port p).natAbs then
        if 2 ≤ (offsetShown s port p).tide.outliers then
          tideGo (setTideRec (offsetShown s port p) { (offsetShown s port p).tide with outliers := 0, good := 0 }) tAcquiring false
        else setTideRec (offsetShown s port p) { (offsetShown s port p).tide with outliers := (offsetShown s port p).tide.outliers + 1 }
      else tideCorrect (setTideRec (offsetShown s port p) { (offsetShown s port p).tide with outliers := 0 }) (beaconOffset s port p)
    else acquire (offsetShown s port p) (beaconOffset s port p) := by
  have state : tideState (pathsSeen s port p) = tideState s := tideState_heard s port p
  have notLocal : tideState s ≠ tLocal := by rcases h with h | h <;> rw [h] <;> decide
  have notFree : tideState s ≠ tFree := by rcases h with h | h <;> rw [h] <;> decide
  unfold beaconActive
  simp only [state, if_neg notLocal, if_neg notFree]
  have d : beaconOffset (setTideRec (pathsSeen s port p) { (pathsSeen s port p).tide with since := 0 }) port p = beaconOffset s port p := offset_heard s port p
  rw [d]
  split
  · rfl
  · rw [if_pos (h.resolve_left ‹_›)]
    rfl

end

/-! A beacon by the state of the lock (Table 11.1, R353). -/

theorem get_setTideRec (s : State) (r : Tide) (f : Fld) (i : Nat) : (setTideRec s r).get f i = s.get f i := rfl

theorem setTideRec_tide (s : State) (r : Tide) : (setTideRec s r).tide = r := rfl

theorem get_showOffset (s : State) (d : Int) {f : Fld} (ok : f.ok = true) (apart : f.hi < 16 ∨ 31 < f.lo) : (showOffset s d).get f = s.get f :=
  State.get_put_bits _ _ _ _ _ _ rfl ok apart

/-- The count taken from a beacon in FREE; no offset remains. -/
def countTaken (s : State) (port : Nat) (p : Packet) : State :=
  let u := setCount s (pf p 111 48 + s.get F.fabPortStatus_DELAY port)
  showOffset (setTideRec u { u.tide with good := 0, outliers := 0, err := 0, half := false }) 0

theorem frame_countTaken (s : State) (port : Nat) (p : Packet) : Frame 128 (regBits [.tideCount, .tideLock]) s (countTaken s port p) :=
  ((((Frame.refl _ _ s).step (frame_setCount ..) rfl rfl).step (frame_setTideRec ..) rfl rfl).step (frame_showOffset ..) rfl rfl)

theorem get_countTaken (s : State) (port : Nat) (p : Packet) :
    (countTaken s port p).get F.tideCount_COUNT = (pf p 111 48 + s.get F.fabPortStatus_DELAY port) % 2 ^ 64 := by
  rw [countTaken, (frame_showOffset ..).get F.tideCount_COUNT rfl, get_setTideRec, get_setCount]

theorem tideState_countTaken (s : State) (port : Nat) (p : Packet) : tideState (countTaken s port p) = tideState s := by
  rw [tideState, countTaken, get_showOffset _ _ rfl (by decide), get_setTideRec, (frame_setCount ..).get F.tideLock_STATE rfl, tideState]

theorem since_countTaken (s : State) (port : Nat) (p : Packet) : (countTaken s port p).tide.since = s.tide.since := by
  rw [countTaken, (frame_showOffset ..).tide rfl, setTideRec_tide, setCount_tide]

theorem tideCorrect_near {d : Int} (h : d ≤ 64) (s : State) : tideCorrect s d = setTideRec s { s.tide with err := d, half := decide (d < -64) } :=
  if_neg (by omega)

/-- The count stepped forward (R353). -/
def stepped (s : State) (d : Int) : State :=
  let u := (setCount s (s.tideNow + d.toNat)).bumpSat F.tideLock_STEPS
  setTideRec u { u.tide with err := 0, half := false }

theorem tideCorrect_ahead {d : Int} (h : 64 < d) (s : State) : tideCorrect s d = tidePost (stepped s d) 0x0B05 d.toNat := if_pos h

section
variable {s : State} {port : Nat} {p : Packet}

theorem beaconActive_local (h : tideState s = tLocal) : beaconActive (pathsSeen s port p) port p = heard s port p :=
  if_pos ((tideState_heard s port p).trans h)

theorem beaconActive_of_free {u : State} (h : tideState u = tFree) (port : Nat) (p : Packet) :
    beaconActive u port p = tideGo (countTaken (setTideRec u { u.tide with since := 0 }) port p) tAcquiring true := by
  unfold beaconActive
  rw [if_neg (by rw [h]; decide), if_pos h]
  rfl

theorem beaconActive_free (h : tideState s = tFree) :
    beaconActive (pathsSeen s port p) port p = tideGo (countTaken (heard s port p) port p) tAcquiring true :=
  beaconActive_of_free ((tideState_heard s port p).trans h) port p

variable (active : ActiveBeacon s port p)
include active

theorem gives_beacon_free (free : tideState s = tFree) : Gives (.beaconReceive port p) s (fun t =>
    t.get F.tideCount_COUNT = (pf p 111 48 + s.get F.fabPortStatus_DELAY port) % 2 ^ 64 ∧ tideState t = tAcquiring
    ∧ t.isSet F.tideLock_VALID = false ∧ t.tide.fromFree = true ∧ t.tide.since = 0 ∧ Only (.tide :: recordParts) (tideRegs ++ recordRegs) s t) := by
  have run := exec_beaconReceive active
  rw [beaconActive_free free] at run
  have taken : Only (.tide :: recordParts) (tideRegs ++ recordRegs) s (countTaken (heard s port p) port p) :=
    ((lockKept_heard s port p).frame.onlyOf rfl).trans ((frame_countTaken ..).onlyOf rfl)
  have state : tideState (countTaken (heard s port p) port p) ≠ tLost := by
    rw [tideState_countTaken, tideState_heard, free]
    decide
  refine ⟨_, run, ?_, tideState_tideGo _ _ (by decide), not_valid_tideGo _ (by decide), by rw [tideGo_tide], ?_,
    taken.trans ((only_tideGo _ ⟨by decide, state⟩).mono (by decide) (by decide))⟩
  · rw [get_tideGo_count, get_countTaken, delay_heard]
  · rw [tideGo_tide]
    exact (since_countTaken (heard s port p) port p).trans (since_heard s port p)

theorem gives_beacon_local (at_ : tideState s = tLocal) : Gives (.beaconReceive port p) s (fun t =>
    tideState t = tLocal ∧ t.get F.tideCount_COUNT = s.get F.tideCount_COUNT ∧ Only [.tide] [.tideLock] s t) := by
  have run := exec_beaconReceive active
  rw [beaconActive_local at_] at run
  exact ⟨_, run, (tideState_heard s port p).trans at_, tideNow_heard s port p, (lockKept_heard s port p).frame.onlyOf rfl⟩

section
variable (locked : tideState s = tLocked)
include locked

theorem exec_beacon_inlier (near : (beaconOffset s port p).natAbs ≤ 256) : exec (.beaconReceive port p) s
    = .next (tideCorrect (setTideRec (offsetShown s port p) { (offsetShown s port p).tide with outliers := 0 }) (beaconOffset s port p)) := by
  rw [exec_beaconReceive active, beaconActive_measured _ _ _ (.inl locked), if_pos locked, if_neg (by omega)]

theorem gives_beacon_stepped (near : (beaconOffset s port p).natAbs ≤ 256) (ahead : 64 < beaconOffset s port p) :
    Gives (.beaconReceive port p) s (fun t =>
      t.get F.tideCount_COUNT = (s.get F.tideCount_COUNT + (beaconOffset s port p).toNat) % 2 ^ 64 ∧ tideState t = tLocked
      ∧ t.get F.tideLock_STEPS = min (s.get F.tideLock_STEPS + 1) (2 ^ 16 - 1) ∧ t.tide.err = 0
      ∧ Posts s t (pathUnit (activePath s)) none 0 0x0B05 (beaconOffset s port p).toNat) := by
  obtain ⟨u, hu⟩ : ∃ u, u = setTideRec (offsetShown s port p) { (offsetShown s port p).tide with outliers := 0 } := ⟨_, rfl⟩
  have run := exec_beacon_inlier active locked near
  rw [← hu, tideCorrect_ahead ahead] at run
  have now : u.tideNow = s.get F.tideCount_COUNT := by
    rw [hu, State.tideNow, get_setTideRec, (frame_offsetShown s port p).get F.tideCount_COUNT rfl]
  have lock {f : Fld} (ok : f.ok = true) (reg : f.reg = .tideLock) (apart : f.hi < 4 ∨ 5 < f.lo ∧ (f.hi < 16 ∨ 31 < f.lo)) : u.get f = s.get f := by
    rw [hu, get_setTideRec, lockKept_offsetShown s port p ok reg apart]
  have kept {f : Fld} (ok : f.ok = true) (reg : f.reg = .tideLock) (apart : f.hi < 4) : (stepped u (beaconOffset s port p)).get f = s.get f := by
    rw [stepped, get_setTideRec, State.bumpSat, State.get_put_bits _ _ _ _ _ _ rfl ok (.inl (apart.trans (by decide))),
      (frame_setCount ..).get f (by rw [reg]; rfl), lock ok reg (.inl apart)]
  refine ⟨_, run, ?_, ?_, ?_, ?_, posts_tidePost ?_ (kept rfl rfl (by decide)) _ (by omega)⟩
  · rw [get_tidePost _ _ _ (by decide), stepped, get_setTideRec, State.bumpSat, get_put_other _ _ _ _ (by decide), get_setCount, now]
  · rw [tideState, get_tidePost _ _ _ (by decide), kept rfl rfl (by decide), ← tideState, locked]
  · rw [get_tidePost _ _ _ (by decide), stepped, get_setTideRec, State.get_bumpSat_same _ 1 0 0 rfl, (frame_setCount ..).get F.tideLock_STEPS rfl,
      lock rfl rfl (by decide)]
    rfl
  · rw [(frame_tidePost ..).tide rfl, stepped, setTideRec_tide]
  · rw [stepped, (frame_setTideRec ..).flt rfl, State.bumpSat_flt, (frame_setCount ..).flt rfl, hu,
      (frame_setTideRec ..).flt rfl, (frame_offsetShown s port p).flt rfl]

theorem gives_beacon_slewed (near : (beaconOffset s port p).natAbs ≤ 256) (within : beaconOffset s port p ≤ 64) :
    Gives (.beaconReceive port p) s (fun t =>
      t.get F.tideCount_COUNT = s.get F.tideCount_COUNT ∧ tideState t = tLocked ∧ t.tide.err = beaconOffset s port p
      ∧ t.tide.half = decide (beaconOffset s port p < -64) ∧ t.tide.outliers = 0 ∧ Only [.tide] [.tideLock] s t) := by
  have run := exec_beacon_inlier active locked near
  rw [tideCorrect_near within] at run
  refine ⟨_, run, ?_, ?_, rfl, rfl, rfl, ((frame_offsetShown s port p).onlyOf rfl).trans (((frame_setTideRec ..).onlyOf rfl).trans ((frame_setTideRec ..).onlyOf rfl))⟩
  · rw [get_setTideRec, get_setTideRec, (frame_offsetShown s port p).get F.tideCount_COUNT rfl]
  · rw [tideState, get_setTideRec, get_setTideRec, lockKept_offsetShown s port p rfl rfl (by decide), ← tideState, locked]

theorem gives_beacon_outlier (far : 256 < (beaconOffset s port p).natAbs) (third : 2 ≤ s.tide.outliers) : Gives (.beaconReceive port p) s (fun t =>
    tideState t = tAcquiring ∧ t.isSet F.tideLock_VALID = true ∧ t.get F.tideCount_COUNT = s.get F.tideCount_COUNT) := by
  have run := exec_beaconReceive active
  rw [beaconActive_measured _ _ _ (.inl locked), if_pos locked, if_pos far, if_pos (by rwa [outliers_offsetShown])] at run
  refine ⟨_, run, tideState_tideGo _ _ (by decide), valid_tideGo _ (by decide), ?_⟩
  rw [get_tideGo_count, get_setTideRec, (frame_offsetShown s port p).get F.tideCount_COUNT rfl]

end

theorem gives_beacon_locks (acquiring : tideState s = tAcquiring) (near : (beaconOffset s port p).natAbs ≤ 4) (fourth : 3 ≤ s.tide.good) :
    Gives (.beaconReceive port p) s (fun t =>
      tideState t = tLocked ∧ t.isSet F.tideLock_VALID = true ∧ Posts s t (pathUnit (activePath s)) none 0 0x0B01 0) := by
  have run := exec_beaconReceive active
  rw [beaconActive_measured _ _ _ (.inr acquiring), if_neg (by rw [acquiring]; decide), acquire, tideCorrect_near (by omega), if_pos near,
    setTideRec_tide, if_pos (by rwa [good_offsetShown]), tideLockIn] at run
  refine ⟨_, run, ?_, ?_, posts_tidePost ?_ ?_ _ (by decide)⟩
  · rw [tideState, get_tidePost _ _ _ (by decide), ← tideState, tideState_tideGo _ _ (by decide)]
  · rw [State.isSet, get_tidePost _ _ _ (by decide)]
    exact valid_tideGo _ (by decide)
  · rw [tideGo_flt, (frame_setTideRec ..).flt rfl, (frame_setTideRec ..).flt rfl, (frame_offsetShown s port p).flt rfl]
  · rw [activePath_tideGo, activePath, get_setTideRec, get_setTideRec, lockKept_offsetShown s port p rfl rfl (by decide), activePath]

end

/-- Settles O36, state by state of the lock. -/
theorem beaconsMoveTheLock : Obligations.BeaconsMoveTheLock := by
  unfold Obligations.BeaconsMoveTheLock
  intro port p s active
  exact ⟨gives_beacon_free active, fun locked near => ⟨gives_beacon_stepped active locked near, gives_beacon_slewed active locked near⟩,
    gives_beacon_outlier active, gives_beacon_locks active, gives_beacon_local active⟩

/-! The ferry's status shown (Table 11.9). -/

/-- The live sailing of a ferry that waits to depart again. -/
def returned (s : State) (f : Nat) : Option Sailing := (liveSailings s f).find? (fun x => x.st == .waiting)

/-- ENTRY and CYCLE shown (R358). -/
def shownEntry (s : State) (f : Nat) : Nat := match returned s f with | some x => x.entry | none => smapGet s.sail.entry 0 f
def shownCycle (s : State) (f : Nat) : Nat := match returned s f with | some x => x.cycle | none => smapGet s.sail.cycle 0 f

/-- STATE shown of a ferry that is not REJECTED. -/
def shownState (s : State) (f : Nat) : Nat :=
  if ((returned s f).bind (fun x => x.segWait)).isSome
      || ((s.isSet F.ferryCtrl_RUN f || (returned s f).isSome) && s.sail.held.contains (f, shownEntry s f, shownCycle s f)) then 3
  else if s.isSet F.ferryCtrl_RUN f && s.get F.tideLock_STATE = 4 && s.isSet F.ferryCtrl_LOST_ACTION f then 4
  else if (liveSailings s f).any (fun x => x.st == .sailing || x.st == .cutting) then 2
  else if s.isSet F.ferryCtrl_RUN f || (returned s f).isSome then 1
  else 0

theorem shownState_lt (s : State) (f : Nat) : shownState s f < 5 := by
  unfold shownState
  split_ifs <;> decide

/-- The fields of FERRY_STATUS beside STATE, as shown. -/
def labelled (s : State) (f : Nat) : State :=
  ((s.put F.ferryStatus_UNSETTLED (liveSailings s f).length f).put F.ferryStatus_ENTRY (shownEntry s f) f).put F.ferryStatus_CYCLE (shownCycle s f) f

theorem frame_labelled (s : State) (f : Nat) : Frame 0 (regBits [.ferryStatus]) s (labelled s f) :=
  (((Frame.refl _ _ s).put (by decide)).put (by decide)).put (by decide)

theorem get_labelled_state (s : State) (f : Nat) : (labelled s f).get F.ferryStatus_STATE f = s.get F.ferryStatus_STATE f := by
  rw [labelled, State.get_put_bits _ _ _ _ _ _ rfl rfl (by decide), State.get_put_bits _ _ _ _ _ _ rfl rfl (by decide),
    State.get_put_bits _ _ _ _ _ _ rfl rfl (by decide)]

theorem ferryShow_eq (s : State) (f : Nat) : ferryShow s f
    = if s.get F.ferryStatus_STATE f = 5 then labelled s f else (labelled s f).put F.ferryStatus_STATE (shownState s f) f := by
  have frame := frame_labelled s f
  have run := frame.isSet F.ferryCtrl_RUN rfl f
  have lost := frame.isSet F.ferryCtrl_LOST_ACTION rfl f
  have lock := frame.get F.tideLock_STATE rfl
  have held : (labelled s f).sail.held = s.sail.held := by rw [frame.sail rfl]
  rw [← get_labelled_state, shownState, ← run, ← lost, ← lock, ← held]
  rfl

theorem get_ferryShow_state (s : State) (f : Nat) :
    (ferryShow s f).get F.ferryStatus_STATE f = if s.get F.ferryStatus_STATE f = 5 then 5 else shownState s f := by
  rw [ferryShow_eq]
  split
  · rw [get_labelled_state]
    assumption
  · rw [State.get_put_same _ _ _ _ rfl]
    exact Nat.mod_eq_of_lt ((shownState_lt s f).trans (by decide))

/-- Another ferry's fields stay. -/
theorem get_ferryShow_ne (s : State) {f g : Nat} (h : g ≠ f) (x : Fld) : (ferryShow s f).get x g = s.get x g := by
  have labels : (labelled s f).get x g = s.get x g := by
    rw [labelled, State.get_put_i _ _ _ _ h, State.get_put_i _ _ _ _ h, State.get_put_i _ _ _ _ h]
  rw [ferryShow_eq]
  split
  · exact labels
  · exact (State.get_put_i _ _ _ _ h).trans labels

/-- The shown state is read off the sailings, RUN, LOST_ACTION and the lock. -/
theorem shownState_congr {s t : State} (f : Nat) (sail : t.sail = s.sail) (run : t.isSet F.ferryCtrl_RUN f = s.isSet F.ferryCtrl_RUN f)
    (lost : t.isSet F.ferryCtrl_LOST_ACTION f = s.isSet F.ferryCtrl_LOST_ACTION f) (lock : t.get F.tideLock_STATE = s.get F.tideLock_STATE) :
    shownState t f = shownState s f := by
  unfold shownState shownEntry shownCycle returned liveSailings
  rw [sail, run, lost, lock]

theorem shownState_ferryShow (s : State) (f g : Nat) : shownState (ferryShow s g) f = shownState s f :=
  shownState_congr f ((frame_ferryShow s g).sail rfl) ((frame_ferryShow s g).isSet F.ferryCtrl_RUN rfl f)
    ((frame_ferryShow s g).isSet F.ferryCtrl_LOST_ACTION rfl f) ((frame_ferryShow s g).get F.tideLock_STATE rfl)

/-- Ferries shown one after the other: each by its own. -/
theorem get_ferryShows_state (l : List Nat) (s : State) {f : Nat} (h : f ∈ l) :
    (l.foldl ferryShow s).get F.ferryStatus_STATE f = if s.get F.ferryStatus_STATE f = 5 then 5 else shownState s f := by
  have again (l : List Nat) (t : State) (k : t.get F.ferryStatus_STATE f = if t.get F.ferryStatus_STATE f = 5 then 5 else shownState t f) :
      (l.foldl ferryShow t).get F.ferryStatus_STATE f = t.get F.ferryStatus_STATE f := by
    induction l generalizing t with
    | nil => rfl
    | cons g l ih =>
      have same : (ferryShow t g).get F.ferryStatus_STATE f = t.get F.ferryStatus_STATE f := by
        by_cases e : f = g
        · rw [← e, get_ferryShow_state, ← k]
        · exact get_ferryShow_ne t e _
      rw [List.foldl_cons, ih _ (by rw [same, shownState_ferryShow]; exact k), same]
  induction l generalizing s with
  | nil => exact absurd h (by simp)
  | cons g l ih =>
    rw [List.foldl_cons]
    by_cases e : f = g
    · rw [← e, again, get_ferryShow_state]
      rw [get_ferryShow_state, shownState_ferryShow]
      have small := shownState_lt s f
      split_ifs <;> omega
    · rw [ih _ ((List.mem_cons.mp h).resolve_left e), get_ferryShow_ne _ e, shownState_ferryShow]

/-! Time without beacons (Table 11.1, R355). -/

/-- The bank keeps path `n`. -/
def bankPath (s : State) (n : Nat) : State := { s with bank := { s.bank with path := n } }

/-- The other path taken, as the switch writes it. -/
def pathSwitched (s : State) : State :=
  let u := setTideRec s { s.tide with since := if activePath s = 0 then s.tide.sinceB else s.tide.sinceA }
  ((bankChange (bankPath u (1 - activePath s))).put F.tideLock_ACTIVE_PATH (1 - activePath s)).put F.tideLock_SWITCHED 1

theorem frame_bankPath (s : State) (n : Nat) : Frame 4096 0 s (bankPath s n) := by
  unfold bankPath
  exact .upd (.refl _ _ s) rfl rfl rfl rfl rfl rfl rfl rfl rfl rfl rfl rfl (by simp [PartsSame, show Nat.testBit 4096 12 = true from rfl])

theorem frame_pathSwitched (s : State) : Frame 4224 (regBits [.rbStatus, .tideLock]) s (pathSwitched s) := by
  unfold pathSwitched
  have timed := (frame_setTideRec s { s.tide with since := if activePath s = 0 then s.tide.sinceB else s.tide.sinceA }).mono
    (ps := 4224) (rs := regBits [.rbStatus, .tideLock]) rfl rfl
  exact (((timed.step (frame_bankPath ..) rfl rfl).step (frame_bankChange ..) rfl rfl).put (by decide)).put (by decide)

theorem tideState_pathSwitched (s : State) : tideState (pathSwitched s) = tideState s := by
  rw [tideState, pathSwitched, State.get_put_bits _ _ _ _ _ _ rfl rfl (by decide), State.get_put_bits _ _ _ _ _ _ rfl rfl (by decide),
    (frame_bankChange ..).get F.tideLock_STATE rfl, (frame_bankPath ..).get F.tideLock_STATE rfl, get_setTideRec, tideState]

theorem activePath_pathSwitched (s : State) : activePath (pathSwitched s) = 1 - activePath s := by
  rw [activePath, pathSwitched, State.get_put_bits _ _ _ _ _ _ rfl rfl (by decide), State.get_put_same _ _ _ _ rfl]
  exact Nat.mod_eq_of_lt (Nat.lt_of_le_of_lt (Nat.sub_le ..) (by decide))

theorem path_pathSwitched (s : State) : (pathSwitched s).bank.path = 1 - activePath s := by
  rw [pathSwitched, put_bank rfl, put_bank rfl, (frame_bankChange ..).bank_path rfl]
  rfl

theorem path_post (s : State) (unit : Nat) (ctx : Option Nat) (cls code extra : Nat) : (post s unit ctx cls code extra).bank.path = s.bank.path := by
  show (bankRest (post s unit ctx cls code extra).bank).path = (bankRest s.bank).path
  rw [(bankHeld_post ..).rest]

theorem post_switched (s : State) {f : Fld} (reg : f.reg = .tideLock) : (post (pathSwitched s) (pathUnit (activePath s)) none 2 0x0B02 0).get f
    = (pathSwitched s).get f := (frame_post ..).get f (by rw [reg]; rfl)

theorem gives_switch {s : State} (silent : 12288 ≤ s.tide.since) (timed : tideState s ≠ tLocal)
    (other : (s.isSet F.tideCtrl_PATH_B_EN && otherRecent s) = true) : Gives .beaconLossTimeout s (fun t =>
      activePath t = 1 - activePath s ∧ t.bank.path = 1 - activePath s ∧ t.isSet F.tideLock_SWITCHED = true ∧ tideState t = tideState s
      ∧ Posts s t (pathUnit (activePath s)) none 2 0x0B02 0 ∧ Only (.tide :: recordParts) (.tideLock :: recordRegs) s t) := by
  have run : exec .beaconLossTimeout s = .next (post (pathSwitched s) (pathUnit (activePath s)) none 2 0x0B02 0) := by
    show ok (beaconLoss s) = _
    unfold beaconLoss
    rw [if_neg (by omega), if_pos other]
    rfl
  refine ⟨_, run, ?_, ?_, ?_, ?_, (posts_post_small (pathSwitched s) _ none 2 0x0B02 (by decide)).from (by rw [(frame_pathSwitched s).flt rfl]),
    ((frame_pathSwitched s).onlyOf rfl).trans ((frame_post ..).onlyOf rfl)⟩
  · rw [activePath, post_switched s rfl, ← activePath, activePath_pathSwitched]
  · rw [path_post, path_pathSwitched]
  · rw [State.isSet, post_switched s rfl]
    exact isSet_put_one _ 0 rfl
  · rw [tideState, post_switched s rfl, ← tideState, tideState_pathSwitched]

theorem gives_holdover {s : State} (silent : 12288 ≤ s.tide.since) (locked : tideState s = tLocked)
    (other : (s.isSet F.tideCtrl_PATH_B_EN && otherRecent s) = false) : Gives .beaconLossTimeout s (fun t =>
      tideState t = tHoldover ∧ t.isSet F.tideLock_VALID = true ∧ t.tide.hold = 0 ∧ Posts s t (pathUnit (activePath s)) none 0 0x0B03 0
      ∧ Only (.tide :: recordParts) (.tideLock :: recordRegs) s t) := by
  obtain ⟨u, hu⟩ : ∃ u, u = setTideRec s { s.tide with err := 0, half := false, hold := 0 } := ⟨_, rfl⟩
  have run : exec .beaconLossTimeout s = .next (tidePost (tideGo u tHoldover false) 0x0B03 0) := by
    show ok (beaconLoss s) = _
    unfold beaconLoss
    rw [if_neg (by rw [locked]; exact fun h => h.elim (by omega) (by decide)), if_neg (by rw [other]; decide), if_pos locked, hu]
  have flt : u.flt = s.flt := by rw [hu, (frame_setTideRec ..).flt rfl]
  have path : activePath u = activePath s := by rw [hu, activePath, get_setTideRec, activePath]
  have state : tideState u ≠ tLost := by
    rw [hu, tideState, get_setTideRec, ← tideState, locked]
    decide
  have hold : u.tide.hold = 0 := by rw [hu, setTideRec_tide]
  have first : Only (.tide :: recordParts) (.tideLock :: recordRegs) s u := by
    rw [hu]
    exact (frame_setTideRec ..).onlyOf rfl
  refine ⟨_, run, ?_, ?_, ?_, posts_tidePost (by rw [tideGo_flt, flt]) (by rw [activePath_tideGo, path]) _ (by decide),
    first.trans (((only_tideGo u (fromFree := false) ⟨by decide, state⟩).mono (by decide) (by decide)).trans ((frame_tidePost ..).onlyOf rfl))⟩
  · rw [tideState, get_tidePost _ _ _ (by decide), ← tideState, tideState_tideGo _ _ (by decide)]
  · rw [State.isSet, get_tidePost _ _ _ (by decide)]
    exact valid_tideGo _ (by decide)
  · rw [(frame_tidePost ..).tide rfl, tideGo_tide]
    exact hold

/-- LOST as entered, LOST_SEEN set. -/
def lostSeen (s : State) : State := (tideGo s tLost false).put F.tideLock_LOST_SEEN 1

theorem get_lostSeen_lock (s : State) {f : Fld} (ok : f.ok = true) (apart : f.hi < 8) :
    (lostSeen s).get f = (tideGo s tLost false).get f := by
  rw [lostSeen, State.get_put_bits _ _ _ _ _ _ rfl ok (.inl apart)]

theorem get_tideGo_status (s : State) (st : Nat) (fromFree : Bool) (f : Fld) (reg : f.reg = .ferryStatus) (i : Nat) :
    (tideGo s st fromFree).get f i = (tideShown s st fromFree).get f i :=
  (frame_tideSignalled s st fromFree).get f (by rw [reg]; rfl) i

/-- A ferry with nothing held and no sailing that waits for its segment shows PAUSED while LOST is to pause it. -/
theorem shownState_paused {s : State} {f : Nat} (run : s.isSet F.ferryCtrl_RUN f = true) (pause : s.isSet F.ferryCtrl_LOST_ACTION f = true)
    (lost : s.get F.tideLock_STATE = 4) (held : s.sail.held = []) (live : ∀ x ∈ liveSailings s f, x.segWait = none) : shownState s f = 4 := by
  have waits : ((returned s f).bind (fun x => x.segWait)).isSome = false := by
    cases h : returned s f with
    | none => rfl
    | some x =>
      rw [Option.bind_some, live x (List.mem_of_find?_eq_some h)]
      rfl
  rw [shownState, if_neg (by simp [waits, held]), if_pos (by simp [run, pause, lost])]

theorem paused_tideGo {s : State} (other : tideState s ≠ tLost) {f : Nat} (h : f < 32) (run : s.isSet F.ferryCtrl_RUN f = true)
    (pause : s.isSet F.ferryCtrl_LOST_ACTION f = true) (shown : s.get F.ferryStatus_STATE f ≠ 5) (held : s.sail.held = [])
    (live : ∀ x ∈ liveSailings s f, x.segWait = none) : (tideGo s tLost false).get F.ferryStatus_STATE f = 4 := by
  have frame := frame_tideSet s tLost false
  have sail := frame.sail rfl
  rw [get_tideGo_status _ _ _ _ rfl, tideShown, if_pos ⟨Ne.symm other, .inl rfl⟩, get_ferryShows_state _ _ (List.mem_range.mpr h),
    if_neg (by rwa [frame.get F.ferryStatus_STATE rfl f]), shownState_paused]
  · rwa [frame.isSet F.ferryCtrl_RUN rfl f]
  · rwa [frame.isSet F.ferryCtrl_LOST_ACTION rfl f]
  · rw [tideSet, State.get_put_bits _ _ _ _ _ _ rfl rfl (by decide), State.get_put_same _ _ _ _ rfl]
    rfl
  · rwa [sail]
  · rwa [liveSailings, sail]

theorem gives_lost {s : State} (held : tideState s = tHoldover) (long : 10000000 ≤ s.tide.hold) : Gives .holdoverTimeout s (fun t =>
      tideState t = tLost ∧ t.isSet F.tideLock_VALID = true ∧ t.isSet F.tideLock_LOST_SEEN = true
      ∧ Posts s t (pathUnit (activePath s)) none 0 0x0B04 0
      ∧ (∀ f, f < 32 → s.isSet F.ferryCtrl_RUN f = true → s.isSet F.ferryCtrl_LOST_ACTION f = true → s.get F.ferryStatus_STATE f ≠ 5 →
        s.sail.held = [] → (∀ x ∈ liveSailings s f, x.segWait = none) → t.get F.ferryStatus_STATE f = 4)
      ∧ Only (.tide :: recordParts) (.tideLock :: .ferryStatus :: recordRegs) s t) := by
  have run : exec .holdoverTimeout s = .next (tidePost (lostSeen s) 0x0B04 0) := if_pos ⟨held, long⟩
  have other : tideState s ≠ tLost := by
    rw [held]
    decide
  have seen : Frame 65668 (regBits [.tideLock, .ferryStatus, .evt]) s (lostSeen s) := ((frame_tideGo ..).mono rfl rfl).put (by decide)
  refine ⟨_, run, ?_, ?_, ?_, posts_tidePost (seen.flt rfl) ?_ _ (by decide), fun f h running pause shown none_ live => ?_,
    (seen.onlyOf rfl).trans ((frame_tidePost ..).onlyOf rfl)⟩
  · rw [tideState, get_tidePost _ _ _ (by decide), get_lostSeen_lock _ rfl (by decide), ← tideState, tideState_tideGo _ _ (by decide)]
  · rw [State.isSet, get_tidePost _ _ _ (by decide), get_lostSeen_lock _ rfl (by decide)]
    exact valid_tideGo _ (by decide)
  · rw [State.isSet, get_tidePost _ _ _ (by decide)]
    exact isSet_put_one _ 0 rfl
  · rw [activePath, get_lostSeen_lock _ rfl (by decide), ← activePath, activePath_tideGo]
  · rw [get_tidePost _ _ _ (by decide), lostSeen, get_put_other _ _ _ _ (by decide), paused_tideGo other h running pause shown none_ live]

/-! A path's window, LOCAL, copies. -/

theorem gives_windowA {s : State} (silent : 8192 ≤ s.tide.sinceA) : Gives (.pathWindowExpire 0) s (fun t => t.isSet F.tideLock_PATH_A_OK = false
    ∧ t.isSet F.tideLock_PATH_B_OK = s.isSet F.tideLock_PATH_B_OK ∧ Only [] [.tideLock] s t) := by
  have run : exec (.pathWindowExpire 0) s = .next (s.put F.tideLock_PATH_A_OK 0) := if_pos silent
  refine ⟨_, run, isSet_put_zero _ 0 rfl, ?_, ((Frame.refl 0 (regBits [.tideLock]) s).put (by decide)).onlyOf rfl⟩
  rw [State.isSet, State.get_put_bits _ _ _ _ _ _ rfl rfl (by decide), State.isSet]

theorem gives_windowB {s : State} (silent : 8192 ≤ s.tide.sinceB) : Gives (.pathWindowExpire 1) s (fun t => t.isSet F.tideLock_PATH_B_OK = false
    ∧ t.isSet F.tideLock_PATH_A_OK = s.isSet F.tideLock_PATH_A_OK ∧ Only [] [.tideLock] s t) := by
  have run : exec (.pathWindowExpire 1) s = .next (s.put F.tideLock_PATH_B_OK 0) := if_pos silent
  refine ⟨_, run, isSet_put_zero _ 0 rfl, ?_, ((Frame.refl 0 (regBits [.tideLock]) s).put (by decide)).onlyOf rfl⟩
  rw [State.isSet, State.get_put_bits _ _ _ _ _ _ rfl rfl (by decide), State.isSet]

/-- What a change of state with the tide's record `r` leaves, from a state whose LOCAL is as it is to be. -/
theorem changed_local {s u : State} (keeps : Frame 0 (regBits [.tideCtrl]) s u) (r : Tide) {st : Nat} (small : st < 8)
    (valid : ¬(st = tFree ∨ (st = tAcquiring ∧ false = true))) :
    (tideGo (setTideRec u r) st false).isSet F.tideCtrl_LOCAL = u.isSet F.tideCtrl_LOCAL ∧ tideState (tideGo (setTideRec u r) st false) = st
      ∧ (tideGo (setTideRec u r) st false).isSet F.tideLock_VALID = true
      ∧ (tideGo (setTideRec u r) st false).get F.tideCount_COUNT = s.get F.tideCount_COUNT
      ∧ Only [.tide, .hl, .out] [.tideCtrl, .tideLock, .ferryStatus, .evt] s (tideGo (setTideRec u r) st false) := by
  refine ⟨?_, tideState_tideGo _ _ small, valid_tideGo _ valid, ?_,
    (keeps.onlyOf rfl).trans (((frame_setTideRec ..).onlyOf rfl).trans ((frame_tideGo ..).onlyOf rfl))⟩
  · rw [(frame_tideGo ..).isSet F.tideCtrl_LOCAL rfl, (frame_setTideRec ..).isSet F.tideCtrl_LOCAL rfl]
  · rw [get_tideGo_count, get_setTideRec, keeps.get F.tideCount_COUNT rfl]

theorem gives_local {s : State} (d0 : s.hl.d3 = false) (off : s.isSet F.tideCtrl_LOCAL = false) : Gives (.tideLocalWrite true) s (fun t =>
    t.isSet F.tideCtrl_LOCAL = true ∧ tideState t = tLocal ∧ t.isSet F.tideLock_VALID = true ∧ t.get F.tideCount_COUNT = s.get F.tideCount_COUNT
    ∧ Only [.tide, .hl, .out] [.tideCtrl, .tideLock, .ferryStatus, .evt] s t) := by
  have run : exec (.tideLocalWrite true) s = bar0 s (tideLocal s true) := rfl
  obtain ⟨u, hu⟩ : ∃ u, u = s.put F.tideCtrl_LOCAL 1 := ⟨_, rfl⟩
  rw [bar0_of_d0 d0, tideLocal, off, if_pos rfl, if_pos (show (true && !false) = true from rfl), ← hu] at run
  have changed := changed_local (s := s) (u := u) (by rw [hu]; exact (Frame.refl ..).put (by decide)) { u.tide with err := 0, half := false }
    (st := tLocal) (by decide) (by decide)
  have on : u.isSet F.tideCtrl_LOCAL = true := by
    rw [hu]
    exact isSet_put_one _ 0 rfl
  rw [on] at changed
  exact ⟨_, run, changed⟩

theorem gives_local_left {s : State} (d0 : s.hl.d3 = false) (on : s.isSet F.tideCtrl_LOCAL = true) : Gives (.tideLocalWrite false) s (fun t =>
    t.isSet F.tideCtrl_LOCAL = false ∧ tideState t = tAcquiring ∧ t.isSet F.tideLock_VALID = true ∧ t.get F.tideCount_COUNT = s.get F.tideCount_COUNT
    ∧ Only [.tide, .hl, .out] [.tideCtrl, .tideLock, .ferryStatus, .evt] s t) := by
  have run : exec (.tideLocalWrite false) s = bar0 s (tideLocal s false) := rfl
  obtain ⟨u, hu⟩ : ∃ u, u = s.put F.tideCtrl_LOCAL 0 := ⟨_, rfl⟩
  rw [bar0_of_d0 d0, tideLocal, on, if_neg Bool.false_ne_true, if_neg (show ¬(false && !true) = true from Bool.false_ne_true),
    if_pos (show (!false && true) = true from rfl), ← hu] at run
  have changed := changed_local (s := s) (u := u) (by rw [hu]; exact (Frame.refl ..).put (by decide)) { u.tide with good := 0, outliers := 0 }
    (st := tAcquiring) (by decide) (by decide)
  have off : u.isSet F.tideCtrl_LOCAL = false := by
    rw [hu]
    exact isSet_put_zero _ 0 rfl
  rw [off] at changed
  exact ⟨_, run, changed⟩

theorem gives_copyRenew (s : State) {unit : Nat} (small : unit < 65536) : Gives (.tideCopyRenew unit) s (fun t =>
    t.tide.stale = setErase s.tide.stale unit ∧ Only [.tide] [] s t) := by
  have run : exec (.tideCopyRenew unit) s = .next (setTideRec s { s.tide with stale := setErase s.tide.stale unit }) := if_pos (decide_eq_true small)
  exact ⟨_, run, rfl, (frame_setTideRec ..).onlyOf rfl⟩

/-- Settles O37, event by event. -/
theorem lostBeaconsSwitchOrHold : Obligations.LostBeaconsSwitchOrHold := by
  unfold Obligations.LostBeaconsSwitchOrHold
  intro s
  exact ⟨gives_switch, gives_holdover, gives_lost, gives_windowA, gives_windowB, gives_local, gives_local_left, fun _ => gives_copyRenew s⟩

end Sys2Proof.Proofs
end

section
/-! Sailings at their sender (R361, R367 to R374, R404): outcomes, what they leave of counts and of other sailings. -/

namespace Sys2Proof.Proofs

open Sys2Proof.Machine Sys2Proof.Claims Sys2Proof.Laws

/-! A settlement's bollard (R233, R371). -/

theorem advanced_bolSend (s : State) (n inc : Nat) : Advanced s (bolSend s n inc) n inc := by
  refine ⟨fun none_ => ?_, fun waiting => ?_⟩
  · rw [bolSend, if_pos (by rw [none_]; rfl), bolValue_bolApply_same]
  · rw [bolSend_of_waiting _ _ _ waiting, queued]
    exact ⟨rfl, rfl⟩

/-- Steps before and after that leave the bollard and the store's queue. -/
theorem advanced_between {s s' t' t : State} {n inc : Nat} (h : Advanced s' t' n inc) (queue : s'.run.bolQ = s.run.bolQ)
    (value : bolValue s' n = bolValue s n) (queue' : t.run.bolQ = t'.run.bolQ) (value' : bolValue t n = bolValue t' n) : Advanced s t n inc := by
  rw [Advanced, queue', value', ← queue, ← value]
  exact h

/-- What settles in a frame around the bollard's own step. -/
theorem advanced_framed {ps rs ps' rs' : Nat} {s s' t' t : State} {n inc : Nat} (h : Advanced s' t' n inc) (before : Frame ps rs s s')
    (after : Frame ps' rs' t' t)
    (quiet : (!ps.testBit 4 && !ps'.testBit 4 && !rs.testBit RegId.bolValue.ctorIdx && !rs'.testBit RegId.bolValue.ctorIdx) = true) : Advanced s t n inc := by
  simp only [Bool.and_eq_true, Bool.not_eq_true'] at quiet
  obtain ⟨⟨⟨run, run'⟩, value⟩, value'⟩ := quiet
  exact advanced_between h (by rw [before.run run]) (before.get F.bolValue_VALUE value n) (by rw [after.run run']) (after.get F.bolValue_VALUE value' n)

theorem advanced_settleBollard {x : Sailing} {n : Nat} (h : x.settle = some n) (s : State) : Advanced s (settleBollard s x) n 1 := by
  rw [settleBollard, h]
  exact advanced_bolSend s n 1

/-! A sailing that aborts (R372). -/

theorem sailExtra_lt (entry cycle reason : Nat) : sailExtra entry cycle reason < 2 ^ 64 := by
  unfold sailExtra
  omega

section
variable (s : State) (x : Sailing) (reason : Nat)

/-- The sailing marked, its settlement sent. -/
def abortSent : State :=
  ferrySend (updSailing s x (fun y => { y with st := .aborted, reason := reason })) x.f
    (mkPacket (sailFields (updSailing s x (fun y => { y with st := .aborted, reason := reason })) x tSettle ++ [(115, 108, reason), (116, 116, 1)]))

/-- Its bollard advanced, its abort counted. -/
def abortCounted : State := (settleBollard (abortSent s x reason) x).bumpSat F.ferryExc_ABORTED 1 x.f

/-- Its record. -/
def abortPosted : State := post (abortCounted s x reason) (ferryUnit x.f) (some x.ctx) 0 0x0B13 (sailExtra x.entry x.cycle reason)

theorem abortSailing_dead (h : x.live = false) : abortSailing s x reason = s := by
  rw [abortSailing, h]
  rfl

theorem abortSailing_live (h : x.live = true) : abortSailing s x reason = ferryShow (abortPosted s x reason) x.f := by
  rw [abortSailing, h]
  rfl

theorem frame_abortSent : Frame 66304 0 s (abortSent s x reason) := ((frame_updSailing ..).mono rfl rfl).step (frame_ferrySend ..) rfl rfl

theorem frame_abortCounted : Frame 66428 (regBits [.bolValue, .bolCtrl, .berthStatus, .evt, .ferryExc]) (abortSent s x reason) (abortCounted s x reason) :=
  ((frame_settleBollard ..).mono rfl rfl).bumpSat (by decide)

variable {x}

/-- The sailings once one has aborted, and whatever else of the ferries' part is as it was. -/
theorem sail_abortSailing (h : x.live = true) : (abortSailing s x reason).sail
    = { s.sail with sailings := updWhere s.sail.sailings (fun y => sailingIs x y) (fun y => { y with st := .aborted, reason := reason }) } := by
  rw [abortSailing_live _ _ _ h, (frame_ferryShow ..).sail rfl, abortPosted, (frame_post ..).sail rfl, abortCounted, State.bumpSat_sail,
    (frame_settleBollard ..).sail rfl, abortSent, (frame_ferrySend ..).sail rfl, updSailing]

theorem get_exc_abortSailing (h : x.live = true) {f : Fld} (reg : f.reg = .ferryExc) (i : Nat) :
    (abortSailing s x reason).get f i = (abortCounted s x reason).get f i := by
  rw [abortSailing_live _ _ _ h, (frame_ferryShow ..).get f (by rw [reg]; rfl) i, abortPosted, (frame_post ..).get f (by rw [reg]; rfl) i]

theorem aborted_abortSailing (h : x.live = true) : Aborted s (abortSailing s x reason) x reason where
  sailings := by rw [sail_abortSailing s reason h]
  count := by
    rw [get_exc_abortSailing s reason h rfl, abortCounted, State.get_bumpSat_same _ 1 x.f 0 rfl, (frame_settleBollard ..).get F.ferryExc_ABORTED rfl x.f,
      (frame_abortSent ..).get F.ferryExc_ABORTED rfl x.f]
    rfl
  settle n e := by
    have after : Frame 77828 (regBits [.ferryExc, .ferryStatus, .evt, .sumpTail, .sumpHold, .rbStatus, .faultStatus, .faultCount])
        (settleBollard (abortSent s x reason) x) (abortSailing s x reason) := by
      rw [abortSailing_live _ _ _ h]
      exact (((Frame.refl ..).bumpSat (by decide)).step (frame_post ..) rfl rfl).step (frame_ferryShow ..) rfl rfl
    exact advanced_framed (advanced_settleBollard e (abortSent s x reason)) (frame_abortSent s x reason) after rfl
  post := by
    rw [abortSailing_live _ _ _ h]
    refine ((posts_post_small (abortCounted s x reason) _ _ 0 _ ?_).from ?_).later (.of_quiet (frame_ferryShow ..) rfl)
    · exact sailExtra_lt ..
    · rw [(frame_abortCounted ..).flt rfl, (frame_abortSent ..).flt rfl]

theorem only_abortSailing : Only settleParts settleRegs s (abortSailing s x reason) := (frame_abortSailing ..).onlyOf rfl

end

/-! What the ends of sailings leave of the ferries' counts and of the live sailings. -/

/-- REPLAYED stays; ABORTED never falls. -/
structure ExcKept (s t : State) : Prop where
  replayed : ∀ f, t.get F.ferryExc_REPLAYED f = s.get F.ferryExc_REPLAYED f
  aborted : ∀ f, s.get F.ferryExc_ABORTED f ≤ t.get F.ferryExc_ABORTED f

section
variable {s t u : State}

theorem ExcKept.refl (s : State) : ExcKept s s := ⟨fun _ => rfl, fun _ => le_rfl⟩

theorem ExcKept.trans (h : ExcKept s t) (g : ExcKept t u) : ExcKept s u :=
  ⟨fun f => (g.replayed f).trans (h.replayed f), fun f => (h.aborted f).trans (g.aborted f)⟩

theorem ExcKept.of_frame {ps rs : Nat} (h : Frame ps rs s t) (quiet : rs.testBit RegId.ferryExc.ctorIdx = false) : ExcKept s t :=
  ⟨fun f => h.get F.ferryExc_REPLAYED quiet f, fun f => (h.get F.ferryExc_ABORTED quiet f).ge⟩

theorem ExcKept.foldl {α : Type} {g : State → α → State} (h : ∀ s a, ExcKept s (g s a)) (l : List α) (s : State) : ExcKept s (l.foldl g s) := by
  induction l generalizing s with
  | nil => exact .refl s
  | cons a l ih => exact (h s a).trans (ih _)

theorem ExcKept.ite {c : Prop} [Decidable c] (ht : c → ExcKept s t) (hu : ¬c → ExcKept s u) : ExcKept s (if c then t else u) := by
  split
  · exact ht ‹_›
  · exact hu ‹_›

/-- One more abort counted. -/
theorem excKept_count (s : State) (f : Nat) : ExcKept s (s.bumpSat F.ferryExc_ABORTED 1 f) := by
  refine ⟨fun g => ?_, fun g => ?_⟩
  · by_cases e : g = f
    · rw [e, State.bumpSat, State.get_put_bits _ _ _ _ _ _ rfl rfl (by decide)]
    · rw [State.bumpSat, State.get_put_i _ _ _ _ e]
  · by_cases e : g = f
    · have small := State.get_lt s F.ferryExc_ABORTED f 0 rfl
      rw [e, State.get_bumpSat_same _ 1 f 0 rfl]
      exact le_min (Nat.le_succ _) (Nat.le_sub_one_of_lt small)
    · rw [State.bumpSat, State.get_put_i _ _ _ _ e]

theorem excKept_abortSailing (s : State) (x : Sailing) (reason : Nat) : ExcKept s (abortSailing s x reason) := by
  by_cases h : x.live = true
  · have settled : ExcKept s (settleBollard (abortSent s x reason) x) :=
      .trans (.of_frame (frame_abortSent ..) rfl) (.of_frame (frame_settleBollard ..) rfl)
    rw [abortSailing_live _ _ _ h]
    exact (settled.trans (excKept_count ..)).trans (.trans (.of_frame (frame_post ..) rfl) (.of_frame (frame_ferryShow ..) rfl))
  · rw [abortSailing_dead _ _ _ (by simpa using h)]
    exact .refl s

/-- Sailings that are live were before. -/
def LiveFrom (s t : State) : Prop := ∀ y ∈ t.sail.sailings, y.live = true → y ∈ s.sail.sailings

theorem LiveFrom.refl (s : State) : LiveFrom s s := fun _ h _ => h

theorem LiveFrom.trans (h : LiveFrom s t) (g : LiveFrom t u) : LiveFrom s u := fun y hy live => h y (g y hy live) live

theorem LiveFrom.of_sail (h : t.sail.sailings = s.sail.sailings) : LiveFrom s t := fun _ hy _ => h ▸ hy

theorem LiveFrom.of_frame {ps rs : Nat} (h : Frame ps rs s t) (quiet : ps.testBit 8 = false) : LiveFrom s t := .of_sail (by rw [h.sail quiet])

theorem LiveFrom.foldl {α : Type} {g : State → α → State} (h : ∀ s a, LiveFrom s (g s a)) (l : List α) (s : State) : LiveFrom s (l.foldl g s) := by
  induction l generalizing s with
  | nil => exact .refl s
  | cons a l ih => exact (h s a).trans (ih _)

/-- A sailing of an update that ends those it names is one that it does not name. -/
theorem mem_of_ended {l : List Sailing} {x y : Sailing} {g : Sailing → Sailing} (dead : ∀ z, (g z).live = false)
    (h : y ∈ updWhere l (fun y => sailingIs x y) g) (live : y.live = true) : y ∈ l ∧ sailingIs x y = false := by
  obtain ⟨z, hz, rfl⟩ := List.mem_map.mp h
  by_cases named : sailingIs x z = true
  · rw [if_pos named, dead] at live
    exact absurd live Bool.false_ne_true
  · rw [if_neg named]
    exact ⟨hz, by simpa using named⟩

/-- A live sailing of an abort's outcome was there, and is not the one that aborted. -/
theorem live_abortSailing (s : State) {x y : Sailing} (reason : Nat) (hx : x.live = true) (hy : y ∈ (abortSailing s x reason).sail.sailings)
    (live : y.live = true) : y ∈ s.sail.sailings ∧ sailingIs x y = false := by
  rw [sail_abortSailing s reason hx] at hy
  exact mem_of_ended (g := fun y => { y with st := .aborted, reason := reason }) (fun _ => rfl) hy live

theorem liveFrom_abortSailing (s : State) (x : Sailing) (reason : Nat) : LiveFrom s (abortSailing s x reason) := by
  intro y hy live
  by_cases h : x.live = true
  · exact (live_abortSailing s reason h hy live).1
  · rwa [abortSailing_dead _ _ _ (by simpa using h)] at hy

/-- The sailing of the entry that waits, put into the list. -/
def withNext (s : State) (f : Nat) : State := setSails s { s.sail with sailings := s.sail.sailings ++ [nextSailing s f] }

theorem frame_withNext (s : State) (f : Nat) : Frame 256 0 s (withNext s f) := frame_setSails ..

theorem abortWaiting_run {f : Nat} (h : s.isSet F.ferryCtrl_RUN f = true) (reason : Nat) :
    abortWaiting s f reason = abortSailing (withNext s f) (nextSailing s f) reason := if_pos h

theorem sailingIs_self (x : Sailing) : sailingIs x x = true := by simp [sailingIs]

theorem liveFrom_abortWaiting (s : State) (f reason : Nat) : LiveFrom s (abortWaiting s f reason) := by
  intro y hy live
  by_cases run : s.isSet F.ferryCtrl_RUN f = true
  · rw [abortWaiting_run run] at hy
    obtain ⟨was, other⟩ := live_abortSailing (withNext s f) reason (x := nextSailing s f) rfl hy live
    refine (List.mem_append.mp was).resolve_right (fun h => ?_)
    rw [List.mem_singleton.mp h, sailingIs_self] at other
    exact absurd other.symm Bool.false_ne_true
  · rwa [abortWaiting, if_neg run] at hy

theorem excKept_abortWaiting (s : State) (f reason : Nat) : ExcKept s (abortWaiting s f reason) :=
  .ite (fun _ => .trans (.of_frame (frame_withNext s f) rfl) (excKept_abortSailing _ (nextSailing s f) reason)) (fun _ => .refl s)

/-- A ferry whose sailings have aborted, RUN cleared and nothing held. -/
def ferryQuiet (s : State) (f : Nat) : State := setSails (s.put F.ferryCtrl_RUN 0 f) { s.sail with held := s.sail.held.filter (fun h => h.1 != f) }

theorem abortFerry_eq (s : State) (f reason : Nat) :
    abortFerry s f reason = ferryShow (ferryQuiet (abortWaiting ((liveSailings s f).foldl (fun s x => abortSailing s x reason) s) f reason) f) f := rfl

theorem frame_ferryQuiet (s : State) (f : Nat) : Frame 256 (regBits [.ferryCtrl]) s (ferryQuiet s f) := by
  unfold ferryQuiet
  exact ((Frame.refl _ _ s).put (by decide)).step (frame_setSails ..) rfl rfl

theorem sailings_ferryQuiet (s : State) (f : Nat) : (ferryQuiet s f).sail.sailings = s.sail.sailings := rfl

theorem excKept_abortFerry (s : State) (f reason : Nat) : ExcKept s (abortFerry s f reason) := by
  rw [abortFerry_eq]
  exact (ExcKept.foldl (fun t x => excKept_abortSailing t x reason) _ s).trans ((excKept_abortWaiting ..).trans
    (.trans (.of_frame (frame_ferryQuiet ..) rfl) (.of_frame (frame_ferryShow ..) rfl)))

theorem liveFrom_abortFerry (s : State) (f reason : Nat) : LiveFrom s (abortFerry s f reason) := by
  rw [abortFerry_eq]
  exact (LiveFrom.foldl (fun t x => liveFrom_abortSailing t x reason) _ s).trans (.trans (liveFrom_abortWaiting _ f reason)
    (.trans (.of_sail (sailings_ferryQuiet ..)) (.of_frame (frame_ferryShow ..) rfl)))

/-- A context ended, before its ferries end. -/
def contextDown (s : State) (c : Nat) (own : Option (Nat × Nat × Nat × Nat)) : State :=
  let u := (s.put F.ctxState_STATE 3 c).put F.ctxState_SUSPENDING 0 c
  endEntries (endJobs (endRunning (u.setCtxRec c { u.ctxRec c with suspendArgs := [], halted := true }) c) c) c own false

theorem endContext_alive {c : Nat} (h : s.ctxState c = 1 ∨ s.ctxState c = 2) (own : Option (Nat × Nat × Nat × Nat)) (reason : Nat) :
    endContext s c own reason = abortFerriesOf (contextDown s c own) c reason := if_pos (by simpa using h)

theorem endContext_other {c : Nat} (h : ¬(s.ctxState c = 1 ∨ s.ctxState c = 2)) (own : Option (Nat × Nat × Nat × Nat)) (reason : Nat) :
    endContext s c own reason = s := if_neg (by simpa using h)

theorem frame_contextDown (s : State) (c : Nat) (own : Option (Nat × Nat × Nat × Nat)) :
    Frame 638 (regBits [.coreBinding, .segFault, .engStatus, .coreAdapterHolds, .ctxState, .qStatus]) s (contextDown s c own) := by
  unfold contextDown
  have shown := ((Frame.refl 638 (regBits [.coreBinding, .segFault, .engStatus, .coreAdapterHolds, .ctxState, .qStatus]) s).put
    (f := F.ctxState_STATE) (v := 3) (i := c) (j := 0) (by decide)).put (f := F.ctxState_SUSPENDING) (v := 0) (i := c) (j := 0) (by decide)
  exact (((shown.step (frame_State_setCtxRec ..) rfl rfl).step (frame_endRunning ..) rfl rfl).step (frame_endJobs ..) rfl rfl).step (frame_endEntries ..) rfl rfl

theorem excKept_endContext (s : State) (c : Nat) (own : Option (Nat × Nat × Nat × Nat)) (reason : Nat) : ExcKept s (endContext s c own reason) := by
  by_cases h : s.ctxState c = 1 ∨ s.ctxState c = 2
  · rw [endContext_alive h]
    exact (ExcKept.of_frame (frame_contextDown ..) rfl).trans (.foldl (fun t f => excKept_abortFerry t f reason) _ _)
  · rw [endContext_other h]
    exact .refl s

theorem liveFrom_endContext (s : State) (c : Nat) (own : Option (Nat × Nat × Nat × Nat)) (reason : Nat) : LiveFrom s (endContext s c own reason) := by
  by_cases h : s.ctxState c = 1 ∨ s.ctxState c = 2
  · rw [endContext_alive h]
    exact (LiveFrom.of_frame (frame_contextDown ..) rfl).trans (.foldl (fun t f => liveFrom_abortFerry t f reason) _ _)
  · rw [endContext_other h]
    exact .refl s

/-- What a halt records before its context ends. -/
def haltNoted (s : State) (c reason info : Nat) (i : Option IssuedAt) : State :=
  if s.get F.coreHaltA_REASON c = 0 then
    post (haltRecord s c reason info i) (match i with | some x => if x.pcore = 0xFF then noUnit else unitId 1 x.pcore | none => noUnit) (some c) 1 reason info
  else s.put F.coreHaltA_MULTIPLE 1 c

theorem halt_eq (s : State) (c reason info : Nat) (i : Option IssuedAt) (qe : Option (Nat × Nat)) :
    halt s c reason info i qe = endContext (haltNoted s c reason info i) c (qe.map (fun x => (x.1, x.2, 1, reason))) := rfl

theorem frame_haltNoted (s : State) (c reason info : Nat) (i : Option IssuedAt) :
    Frame 77828 (regBits [.coreHaltA, .coreHaltB, .coreHaltC, .coreHaltD, .evt, .sumpTail, .sumpHold, .rbStatus, .faultStatus, .faultCount])
      s (haltNoted s c reason info i) :=
  .ite (fun _ => ((frame_haltRecord ..).mono rfl rfl).step (frame_post ..) rfl rfl) (fun _ => (Frame.refl ..).put (by decide))

theorem excKept_halt (s : State) (c reason info : Nat) (i : Option IssuedAt) (qe : Option (Nat × Nat)) : ExcKept s (halt s c reason info i qe) := by
  rw [halt_eq]
  exact (ExcKept.of_frame (frame_haltNoted ..) rfl).trans (excKept_endContext ..)

theorem liveFrom_halt (s : State) (c reason info : Nat) (i : Option IssuedAt) (qe : Option (Nat × Nat)) : LiveFrom s (halt s c reason info i qe) := by
  rw [halt_eq]
  exact (LiveFrom.of_frame (frame_haltNoted ..) rfl).trans (liveFrom_endContext _ c _ _)

/-- A halt ends its context. -/
theorem ctxState_halt {c : Nat} (h : s.ctxState c = 1 ∨ s.ctxState c = 2) (reason info : Nat) (i : Option IssuedAt) (qe : Option (Nat × Nat)) :
    (halt s c reason info i qe).ctxState c = 3 := by
  rw [halt_eq]
  have same : (haltNoted s c reason info i).ctxState c = s.ctxState c := (frame_haltNoted ..).get F.ctxState_STATE rfl c
  exact ctxState_endContext (by rwa [same]) _ _

end

/-! Lines issued: what they leave of the ferries' counts. -/

theorem frame_readLine_memory {s t : State} {c ca : Nat} {l : Line} (h : readLine s c ca = .line l t) : Frame 16386 storeRegs s t := by
  unfold readLine at h
  split at h
  · exact LineGot.noConfusion h
  · exact LineGot.noConfusion h
  · obtain ⟨-, rfl⟩ := LineGot.line.inj h
    exact (frame_sectorRead ..).mono rfl rfl

theorem frame_readRun_memory (c src n i : Nat) (acc : List Line) (s : State) : Frame 16386 storeRegs s (readRun c src n i acc s).2.2 := by
  induction n generalizing i acc s with
  | zero => exact .refl _ _ s
  | succ n ih =>
    unfold readRun
    split
    · rename_i h
      exact (frame_readLine_memory h).step (ih _ _ _) rfl rfl
    · exact .refl _ _ s

section
variable (s : State) (x : Sailing)

theorem excKept_cutSailing : ExcKept s (cutSailing s x) :=
  .ite (fun _ => .ite (fun _ => excKept_abortSailing ..) (fun _ => .trans (.of_frame (frame_updSailing ..) rfl) (.of_frame (frame_ferryShow ..) rfl)))
    (fun _ => .refl s)

theorem excKept_runLost (p : Packet) : ExcKept s (runLost s p) := by
  unfold runLost
  split
  · exact .ite (fun _ => excKept_cutSailing ..) (fun _ => .refl s)
  · exact .refl s

theorem excKept_sendRun (first : Nat) (ls : List Line) : ExcKept s (sendRun s x first ls) := by
  unfold sendRun
  dsimp only
  split
  · exact .of_frame (frame_sendOn ..) rfl
  · exact excKept_runLost ..

theorem excKept_sailHalt (reason ca : Nat) : ExcKept s (sailHalt s x reason ca) := (excKept_abortSailing ..).trans (excKept_halt ..)

theorem excKept_issueRuns (n : Nat) : ExcKept s (issueRuns n s x) := by
  induction n generalizing s x with
  | zero => exact .refl s
  | succ n ih =>
    unfold issueRuns
    refine .ite (fun _ => .refl s) (fun _ => ?_)
    have read := ExcKept.of_frame (frame_readRun_memory x.ctx x.src (min 4095 (min x.lines x.limit - x.sent)) x.sent [] s) rfl
    dsimp only
    split
    · exact read.trans (excKept_sailHalt ..)
    · exact read.trans (.trans (.of_frame (frame_segNote ..) rfl) (.trans (.of_frame (frame_updSailing ..) rfl) (.of_frame (frame_ferryShow ..) rfl)))
    · have sent (g : Sailing → Sailing) (ls : List Line) := read.trans (.trans (.of_frame (frame_updSailing _ x g) rfl) (excKept_sendRun _ x x.sent ls))
      exact .ite (fun _ => (sent ..).trans (ih ..)) (fun _ => sent ..)

theorem excKept_issueLines : ExcKept s (issueLines s x) :=
  .ite (fun _ => .trans (.of_frame (frame_updSailing ..) rfl) (excKept_sendRun ..)) (fun _ => excKept_issueRuns ..)

theorem excKept_beginAttempt : ExcKept s (beginAttempt s x) :=
  .trans (.of_frame (frame_updSailing ..) rfl) ((excKept_issueLines ..).trans (.of_frame (frame_ferryShow ..) rfl))

end

/-! Sailings by name. -/

section
variable {s : State} {f e k : Nat} {p : Packet} {x : Sailing}

theorem sailingOf_named (h : sailingOf s f e k = some x) : x.live = true ∧ x.f = f ∧ x.entry = e ∧ x.cycle % 65536 = k := by
  have named := List.find?_some h
  simpa [and_assoc] using named

theorem sailingFor_live (h : sailingFor s p = some x) : x.live = true := by
  unfold sailingFor at h
  split at h
  · rename_i y found
    split at h
    · obtain rfl := Option.some.inj h
      exact (sailingOf_named found).1
    · exact absurd h (by simp)
  · exact absurd h (by simp)

/-! LAND_ACK (R371). -/

/-- The sailing COMPLETE, its settlement sent. -/
def completeSent (s : State) (x : Sailing) : State :=
  ferrySend (updSailing s x (fun y => { y with st := .complete })) x.f
    (mkPacket (sailFields (updSailing s x (fun y => { y with st := .complete })) x tSettle))

theorem frame_completeSent (s : State) (x : Sailing) : Frame 66304 0 s (completeSent s x) :=
  ((frame_updSailing ..).mono rfl rfl).step (frame_ferrySend ..) rfl rfl

theorem gives_landAck (found : sailingFor s p = some x) (ack : pkType p = tLandAck) : Gives (.landAckReceive p) s (fun t =>
    t.sail.sailings = updWhere s.sail.sailings (fun y => sailingIs x y) (fun y => { y with st := .complete })
    ∧ t.get F.ferryCount_SAILED x.f = (s.get F.ferryCount_SAILED x.f + 1) % 2 ^ 32
    ∧ (∀ n, x.settle = some n → Advanced s t n 1)
    ∧ Only [.hl, .obj, .run, .core, .eng, .sail, .fab, .out] [.bolValue, .bolCtrl, .ferryStatus, .ferryCount, .berthStatus, .evt] s t) := by
  have run : exec (.landAckReceive p) s = .next (landAckIn s p) := if_pos ack
  rw [landAckIn, found] at run
  have after : Frame 0 (regBits [.ferryCount, .ferryStatus]) (settleBollard (completeSent s x) x) (completeSailing s x) :=
    ((Frame.refl ..).bump (by decide)).step (frame_ferryShow ..) rfl rfl
  refine ⟨_, run, ?_, ?_, fun n e => advanced_framed (advanced_settleBollard e _) (frame_completeSent s x) after rfl, (frame_completeSailing ..).onlyOf rfl⟩
  · rw [after.sail rfl, (frame_settleBollard ..).sail rfl, completeSent, (frame_ferrySend ..).sail rfl, updSailing]
  · show (ferryShow ((settleBollard (completeSent s x) x).bump F.ferryCount_SAILED 1 x.f) x.f).get F.ferryCount_SAILED x.f = _
    rw [(frame_ferryShow ..).get F.ferryCount_SAILED rfl x.f, State.get_bump_same _ 1 x.f 0 rfl, (frame_settleBollard ..).get F.ferryCount_SAILED rfl x.f,
      (frame_completeSent ..).get F.ferryCount_SAILED rfl x.f]
    rfl

/-! TURN_BACK (R369). -/

theorem exec_turnBack (found : sailingFor s p = some x) (back : pkType p = tTurnBack) : exec (.turnBackReceive p) s = .next
    (if 1 ≤ pkReason p ∧ pkReason p ≤ 5 then abortSailing s x (pkReason p)
    else if 0x10 ≤ pkReason p ∧ pkReason p ≤ 0x13 then
      ferryShow ((updSailing s x (fun y => { y with st := .waiting, attempt := y.attempt + 1 })).bumpSat F.ferryExc_TURNED_BACK 1 x.f) x.f
    else s) := by
  have run : exec (.turnBackReceive p) s = .next (turnBackIn s p) := if_pos back
  rwa [turnBackIn, found] at run

theorem gives_turnBack (found : sailingFor s p = some x) (back : pkType p = tTurnBack) (low : 0x10 ≤ pkReason p) (high : pkReason p ≤ 0x13) :
    Gives (.turnBackReceive p) s (fun t =>
      t.sail.sailings = updWhere s.sail.sailings (fun y => sailingIs x y) (fun y => { y with st := .waiting, attempt := y.attempt + 1 })
      ∧ t.get F.ferryExc_TURNED_BACK x.f = min (s.get F.ferryExc_TURNED_BACK x.f + 1) (2 ^ 16 - 1)
      ∧ Only [.sail] [.ferryStatus, .ferryExc] s t) := by
  have run := exec_turnBack found back
  rw [if_neg (by omega), if_pos ⟨low, high⟩] at run
  have frame : Frame 256 (regBits [.ferryExc]) s ((updSailing s x (fun y => { y with st := .waiting, attempt := y.attempt + 1 })).bumpSat F.ferryExc_TURNED_BACK 1 x.f) :=
    ((frame_updSailing ..).mono rfl rfl).bumpSat (by decide)
  refine ⟨_, run, ?_, ?_, (frame.onlyOf rfl).trans ((frame_ferryShow ..).onlyOf rfl)⟩
  · rw [(frame_ferryShow ..).sail rfl, State.bumpSat_sail, updSailing]
  · rw [(frame_ferryShow ..).get F.ferryExc_TURNED_BACK rfl x.f, State.get_bumpSat_same _ 1 x.f 0 rfl, (frame_updSailing ..).get F.ferryExc_TURNED_BACK rfl x.f]
    rfl

theorem gives_turnBack_refused (found : sailingFor s p = some x) (back : pkType p = tTurnBack) (low : 1 ≤ pkReason p) (high : pkReason p ≤ 5) :
    Gives (.turnBackReceive p) s (fun t => Aborted s t x (pkReason p) ∧ Only settleParts settleRegs s t) := by
  have run := exec_turnBack found back
  rw [if_pos ⟨low, high⟩] at run
  exact ⟨_, run, aborted_abortSailing s _ (sailingFor_live found), only_abortSailing ..⟩

/-! WINDOW (R404). -/

theorem ferryUp_updSailing (s : State) (x : Sailing) (g : Sailing → Sailing) (f : Nat) : ferryUp (updSailing s x g) f = ferryUp s f := rfl

/-- A sailing that has sent what its limit lets it send issues nothing more. -/
theorem issueRuns_sent (n : Nat) (h : min x.lines x.limit ≤ x.sent) : issueRuns n s x = s := by
  cases n with
  | zero => rfl
  | succ n => exact if_pos h

theorem gives_window (window : pkType p = tWindow)
    (found : s.sail.sailings.find? (fun x => x.st == .sailing && x.node == pkSrc p && x.berth == pkBerth p && x.attempt % 4 == pkAttempt p) = some x)
    (idle : ferryUp s x.f = false ∨ x.lines = 0 ∨ min x.lines (max x.limit (pf p 95 64)) ≤ x.sent) : Gives (.windowReceive p) s (fun t =>
      t.sail.sailings = updWhere s.sail.sailings (fun y => sailingIs x y) (fun _ => { x with limit := max x.limit (pf p 95 64) })
      ∧ Only [.sail] [.ferryStatus] s t) := by
  have run : exec (.windowReceive p) s = .next (windowIn s p) := if_pos window
  obtain ⟨u, hu⟩ : ∃ u, u = updSailing s x (fun _ => { x with limit := max x.limit (pf p 95 64) }) := ⟨_, rfl⟩
  have frame : Frame 256 0 s u := hu ▸ frame_updSailing ..
  have sailings : u.sail.sailings = updWhere s.sail.sailings (fun y => sailingIs x y) (fun _ => { x with limit := max x.limit (pf p 95 64) }) := by
    rw [hu, updSailing]
  rw [windowIn, found] at run
  dsimp only at run
  rw [← hu] at run
  by_cases h : ferryUp u x.f = true ∧ x.lines ≠ 0
  · have up : ferryUp s x.f = ferryUp u x.f := by rw [hu, ferryUp_updSailing]
    have sent := (idle.resolve_left (by rw [up, h.1]; decide)).resolve_left h.2
    rw [if_pos h, issueLines, if_neg h.2, issueRuns_sent _ sent] at run
    refine ⟨_, run, ?_, (frame.onlyOf rfl).trans ((frame_ferryShow ..).onlyOf rfl)⟩
    rw [(frame_ferryShow ..).sail rfl, sailings]
  · rw [if_neg h] at run
    exact ⟨_, run, sailings, frame.onlyOf rfl⟩

/-! Events of a sailing by name. -/

theorem exec_withSailing (h : Named s f e k x) (g : Sailing → State) : withSailing s f e k g = .next (g x) := by
  rw [withSailing, if_pos h.1, h.2]

theorem gives_ackLimit (named : Named s f e k x) (sailing : x.st = .sailing) (sent : x.sent = x.lines) : Gives (.ackLimitExpire f e k) s (fun t =>
    Aborted s t x 0x24 ∧ Only settleParts settleRegs s t) := by
  have run : exec (.ackLimitExpire f e k) s = _ := exec_withSailing named (fun x => if x.st = .sailing ∧ x.sent = x.lines then abortSailing s x 0x24 else s)
  rw [if_pos ⟨sailing, sent⟩] at run
  exact ⟨_, run, aborted_abortSailing s _ (sailingOf_named named.2).1, only_abortSailing ..⟩

theorem gives_cut (named : Named s f e k x) (sailing : x.st = .sailing) (few : x.cuts < 2) : Gives (.sailingCut f e k) s (fun t =>
    t.sail.sailings = updWhere s.sail.sailings (fun y => sailingIs x y) (fun y => { y with st := .cutting, cuts := y.cuts + 1 })
    ∧ Only [.sail] [.ferryStatus] s t) := by
  have run : exec (.sailingCut f e k) s = _ := exec_withSailing named (cutSailing s)
  rw [cutSailing, if_pos sailing, if_neg (by omega)] at run
  refine ⟨_, run, ?_, ((frame_updSailing ..).onlyOf rfl).trans ((frame_ferryShow ..).onlyOf rfl)⟩
  rw [(frame_ferryShow ..).sail rfl, updSailing]

theorem gives_cut_third (named : Named s f e k x) (sailing : x.st = .sailing) (many : 2 ≤ x.cuts) : Gives (.sailingCut f e k) s (fun t =>
    Aborted s t x 0x25 ∧ Only settleParts settleRegs s t) := by
  have run : exec (.sailingCut f e k) s = _ := exec_withSailing named (cutSailing s)
  rw [cutSailing, if_pos sailing, if_pos many] at run
  exact ⟨_, run, aborted_abortSailing s _ (sailingOf_named named.2).1, only_abortSailing ..⟩

/-! A cut sailing restarts (R361, R373). -/

theorem exec_restart (named : Named s f e k x) (cutting : x.st = .cutting) :
    exec (.attemptRestart f e k) s = .next (if linesOut s x then s else endCut s x) := by
  have run : exec (.attemptRestart f e k) s = _ := exec_withSailing named (fun x =>
    if x.st = .cutting then (if linesOut s x then s else endCut s x)
    else if x.st = .waiting then
      match boundaryNear s with
      | some b => if mayDepart s x b then depart s x b else s
      | none => s
    else s)
  rwa [if_pos cutting] at run

/-- The cut told to the receiver. -/
def cutSent (s : State) (x : Sailing) : State := ferrySend s x.f (mkPacket (sailFields s x tCut))

theorem endCut_replays (s : State) (present : x.segWait = none) : endCut s x
    = beginAttempt (updSailing (post ((cutSent s x).bumpSat F.ferryExc_REPLAYED 1 x.f) (ferryUnit x.f) (some x.ctx) 0 0x0B15 (sailExtra x.entry x.cycle 0)) x
      (fun _ => { x with attempt := x.attempt + 1 })) { x with attempt := x.attempt + 1 } := by
  unfold endCut
  dsimp only
  rw [present]
  rfl

theorem endCut_waits (s : State) (lost : x.segWait.isSome = true) :
    endCut s x = ferryShow (updSailing (cutSent s x) x (fun _ => { x with attempt := x.attempt + 1, st := .waiting })) x.f := by
  obtain ⟨sg, gone⟩ := Option.isSome_iff_exists.mp lost
  unfold endCut
  dsimp only
  rw [gone]
  rfl

theorem excKept_endCut (s : State) (present : x.segWait = none) : ExcKept ((cutSent s x).bumpSat F.ferryExc_REPLAYED 1 x.f) (endCut s x) := by
  rw [endCut_replays s present]
  exact .trans (.of_frame (frame_post ..) rfl) (.trans (.of_frame (frame_updSailing ..) rfl) (excKept_beginAttempt ..))

theorem gives_restart (named : Named s f e k x) (cutting : x.st = .cutting) (clear : linesOut s x = false) (present : x.segWait = none) :
    Gives (.attemptRestart f e k) s (fun t => t.get F.ferryExc_REPLAYED f = min (s.get F.ferryExc_REPLAYED f + 1) (2 ^ 16 - 1)) := by
  have run := exec_restart named cutting
  rw [clear, if_neg Bool.false_ne_true] at run
  obtain ⟨-, ferry, -⟩ := sailingOf_named named.2
  refine ⟨_, run, ?_⟩
  dsimp only
  rw [← ferry, (excKept_endCut s present).replayed, State.get_bumpSat_same _ 1 x.f 0 rfl, cutSent, (frame_ferrySend ..).get F.ferryExc_REPLAYED rfl x.f]
  rfl

theorem gives_restart_waits (named : Named s f e k x) (cutting : x.st = .cutting) (clear : linesOut s x = false) (lost : x.segWait.isSome = true) :
    Gives (.attemptRestart f e k) s (fun t =>
      t.sail.sailings = updWhere s.sail.sailings (fun y => sailingIs x y) (fun _ => { x with attempt := x.attempt + 1, st := .waiting })
      ∧ Only [.sail, .fab, .out] [.ferryStatus] s t) := by
  have run := exec_restart named cutting
  rw [clear, if_neg Bool.false_ne_true, endCut_waits s lost] at run
  refine ⟨_, run, ?_, (((frame_ferrySend ..).onlyOf rfl).trans ((frame_updSailing ..).onlyOf rfl)).trans ((frame_ferryShow ..).onlyOf rfl)⟩
  rw [(frame_ferryShow ..).sail rfl, updSailing, cutSent, (frame_ferrySend ..).sail rfl]

/-! A source segment that stays away (R361). -/

theorem gives_sourceTimeout (named : Named s f e k x) (waits : x.segWait.isSome = true) (limited : s.get F.segFaultLimit_LIMIT_MS ≠ 0)
    (away : segBack s x = false) : Gives (.sourceSegmentTimeout f e k) s (fun t =>
      (∀ y ∈ t.sail.sailings, sailingIs x y = true → y.live = false) ∧ (s.ctxState x.ctx = 1 ∨ s.ctxState x.ctx = 2 → t.ctxState x.ctx = 3)
      ∧ t.get F.ferryExc_ABORTED f ≥ min (s.get F.ferryExc_ABORTED f + 1) (2 ^ 16 - 1)) := by
  obtain ⟨sg, gone⟩ := Option.isSome_iff_exists.mp waits
  have run : exec (.sourceSegmentTimeout f e k) s = _ := exec_withSailing named (fun x =>
    match x.segWait with
    | some sg => if s.get F.segFaultLimit_LIMIT_MS = 0 ∨ segBack s x then s else halt (abortSailing s x 0x27) x.ctx 0x44 sg.2 none none
    | none => s)
  rw [gone] at run
  dsimp only at run
  rw [if_neg (by simp [limited, away])] at run
  obtain ⟨live, ferry, -⟩ := sailingOf_named named.2
  have aborted := aborted_abortSailing s 0x27 live
  refine ⟨_, run, fun y hy same => ?_, fun alive => ctxState_halt ?_ .., ?_⟩
  · by_contra h
    obtain ⟨-, other⟩ := live_abortSailing s 0x27 live (liveFrom_halt _ x.ctx 0x44 sg.2 none none y hy (by simpa using h)) (by simpa using h)
    rw [same] at other
    exact absurd other (by decide)
  · have same : (abortSailing s x 0x27).ctxState x.ctx = s.ctxState x.ctx := (frame_abortSailing ..).get F.ctxState_STATE rfl x.ctx
    rwa [same]
  · have counted := (excKept_halt (abortSailing s x 0x27) x.ctx 0x44 sg.2 none none).aborted x.f
    rw [aborted.count, ferry] at counted
    exact counted

end

/-- Settles O40, event by event at the sender. -/
theorem sailingsSettleOnce : Obligations.SailingsSettleOnce := by
  unfold Obligations.SailingsSettleOnce
  refine ⟨fun p s x found => ⟨gives_landAck found, gives_turnBack found, gives_turnBack_refused found⟩, fun p s x => gives_window,
    fun f e k s x named => ⟨gives_ackLimit named, gives_cut named, gives_cut_third named, fun cutting out => ?_, gives_restart named,
      gives_restart_waits named, gives_sourceTimeout named⟩⟩
  rw [exec_restart named cutting, if_pos out]

end Sys2Proof.Proofs
end

section
/-! Ferries under the host (R356, R363, R372, R375; R30): RUN set, refused and cleared, sailings aborted and requests answered. -/

namespace Sys2Proof.Proofs

open Sys2Proof.Machine Sys2Proof.Claims Sys2Proof.Laws

/-! Words stored (R9). -/

/-- A field whose bits a write leaves. -/
theorem get_storeWord_kept {f : Fld} (hf : f.hi < 64) (hlo : f.lo ≤ f.hi) (s : State) (i j v : Nat)
    (h : ∀ b x, f.lo ≤ b → b ≤ f.hi → bitStored f.reg 0 v x b = x) : (storeWord s f.reg i j 0 v).get f i j = s.get f i j := by
  rw [State.get, State.get, Nat.div_eq_of_lt (show f.lo < 64 by omega), Nat.mod_eq_of_lt hf, Nat.mod_eq_of_lt (show f.lo < 64 by omega)]
  apply Nat.eq_of_testBit_eq
  intro k
  rw [testBit_bitsOf, testBit_bitsOf]
  by_cases hk : k < f.hi - f.lo + 1
  · rw [testBit_word_storeWord _ _ _ _ _ _ (show f.lo + k < 64 by omega), h _ _ (by omega) (by omega)]
  · simp [hk]

section
variable {s : State} {f : Nat}

theorem exec_ferryRun (hf : f < 32) (d0 : s.hl.d3 = false) : exec (.ferryRun f) s = .next (if s.unitOff .ferryCtrl f then
    deferWrite (wideWrite s .ferryCtrl f) .ferryCtrl f (withBits (s.word .ferryCtrl f 0 0) 13 13 1) else ferryStart (wideWrite s .ferryCtrl f) f) :=
  (if_pos hf : execFerryRun f s = _).trans (bar0_of_d0 d0 _)

theorem exec_ferryStop (hf : f < 32) (d0 : s.hl.d3 = false) : exec (.ferryStop f) s = .next (if s.unitOff .ferryCtrl f then
    deferWrite (wideWrite s .ferryCtrl f) .ferryCtrl f (withBits (s.word .ferryCtrl f 0 0) 13 13 0) else ferryHalt (wideWrite s .ferryCtrl f) f) :=
  (if_pos hf : execFerryStop f s = _).trans (bar0_of_d0 d0 _)

/-- The word of a single request. -/
def abortWord (e k seq : Nat) : Nat := e % 4096 + k % 65536 * 2 ^ 16 + seq % 256 * 2 ^ 32

/-- The word of a request for all. -/
def abortAllWord (s : State) (f seq : Nat) : Nat := withBits (withBits (s.word .ferryAbort f 0 0) 12 12 1) 39 32 seq

theorem exec_ferryAbortOne (hf : f < 32) (d0 : s.hl.d3 = false) (e k seq : Nat) :
    exec (.ferryAbortOne f e k seq) s = .next (unitWrite (wideWrite s .ferryAbort f) .ferryAbort f (abortWord e k seq)) :=
  (if_pos hf : execFerryAbortOne f e k seq s = _).trans (bar0_of_d0 d0 _)

theorem exec_ferryAbortAll (hf : f < 32) (d0 : s.hl.d3 = false) (seq : Nat) :
    exec (.ferryAbortAll f seq) s = .next (unitWrite (wideWrite s .ferryAbort f) .ferryAbort f (abortAllWord s f seq)) :=
  (if_pos hf : execFerryAbortAll f seq s = _).trans (bar0_of_d0 d0 _)

/-! RUN (R356, R363). -/

theorem get_wideWrite (s : State) (r : RegId) (a : Nat) (g : Fld) (i j : Nat) : (wideWrite s r a).get g i j = s.get g i j := rfl

theorem isSet_wideWrite (s : State) (r : RegId) (a : Nat) (g : Fld) (i j : Nat) : (wideWrite s r a).isSet g i j = s.isSet g i j := rfl

theorem runCheck_wideWrite (s : State) (r : RegId) (a f : Nat) : runCheck (wideWrite s r a) f = runCheck s f := by
  have last : lastEntry (wideWrite s r a) f = lastEntry s f := rfl
  have entries (l : Nat) : entriesOk (wideWrite s r a) f l = entriesOk s f l := rfl
  have route (n : Nat) : routeOk (wideWrite s r a) f n = routeOk s f n := rfl
  have cond (n : Nat) : condOk (wideWrite s r a) f n = condOk s f n := rfl
  unfold runCheck
  rw [isSet_wideWrite, get_wideWrite, get_wideWrite _ _ _ F.ferryPeriod_PERIOD, last]
  simp only [entries, route, cond, get_wideWrite]

/-- A ferry set running from entry 0 of cycle 0. -/
def ferryStarted (s : State) (f : Nat) : State :=
  let u := (s.put F.ferryCtrl_RUN 1 f).put F.ferryStatus_STATE 1 f
  setSails u { u.sail with entry := smapSet u.sail.entry 0 f 0, cycle := smapSet u.sail.cycle 0 f 0,
                           held := u.sail.held.filter (fun h => h.1 != f || (sailingOf u f h.2.1 (h.2.2 % 65536)).isSome),
                           sailings := u.sail.sailings.filter (fun x => x.f != f || x.live) }

/-- Its entry and cycle. -/
theorem entry_ferryStarted (s : State) (f : Nat) : smapGet (ferryStarted s f).sail.entry 0 f = 0 := (smapGet_set _ 0 f f 0).trans (if_pos rfl)

theorem cycle_ferryStarted (s : State) (f : Nat) : smapGet (ferryStarted s f).sail.cycle 0 f = 0 := (smapGet_set _ 0 f f 0).trans (if_pos rfl)

theorem ferryStart_passed (idle : s.isSet F.ferryCtrl_RUN f = false) (passed : runCheck s f = 0) : ferryStart s f = ferryShow (ferryStarted s f) f := by
  unfold ferryStart
  rw [if_neg (by rw [idle]; decide), if_pos passed]
  rfl

theorem ferryStart_rejected (idle : s.isSet F.ferryCtrl_RUN f = false) (failed : runCheck s f ≠ 0) :
    ferryStart s f = (s.put F.ferryStatus_STATE 5 f).put F.ferryStatus_REJECT_REASON (runCheck s f) f := by
  unfold ferryStart
  rw [if_neg (by rw [idle]; decide), if_neg failed]

theorem runCheck_lt (s : State) (f : Nat) : runCheck s f < 6 := by
  unfold runCheck
  split
  · decide
  · split
    · decide
    · split
      · decide
      · split_ifs <;> decide

theorem frame_ferryStarted (s : State) (f : Nat) : Frame 256 (regBits [.ferryCtrl, .ferryStatus]) s (ferryStarted s f) := by
  unfold ferryStarted
  exact (((Frame.refl _ _ s).put (by decide)).put (by decide)).step (frame_setSails ..) rfl rfl

theorem get_setSails (s : State) (x : Sails) (g : Fld) (i : Nat) : (setSails s x).get g i = s.get g i := rfl

theorem gives_ferryRun (hf : f < 32) (d0 : s.hl.d3 = false) (on : s.unitOff .ferryCtrl f = false) (idle : s.isSet F.ferryCtrl_RUN f = false)
    (passed : runCheck s f = 0) : Gives (.ferryRun f) s (fun t => t.isSet F.ferryCtrl_RUN f = true ∧ smapGet t.sail.entry 0 f = 0
      ∧ smapGet t.sail.cycle 0 f = 0 ∧ t.get F.ferryStatus_STATE f ≠ 5 ∧ Only [.acc, .sail] [.ferryCtrl, .ferryStatus] s t) := by
  have run := exec_ferryRun hf d0
  obtain ⟨u, hu⟩ : ∃ u, u = wideWrite s .ferryCtrl f := ⟨_, rfl⟩
  have wide : Frame 1 0 s u := hu ▸ frame_wideWrite ..
  rw [on, if_neg Bool.false_ne_true, ← hu, ferryStart_passed (by rwa [wide.isSet F.ferryCtrl_RUN rfl f]) (by rwa [hu, runCheck_wideWrite])] at run
  refine ⟨_, run, ?_, ?_, ?_, ?_, (wide.onlyOf rfl).trans (((frame_ferryStarted ..).onlyOf rfl).trans ((frame_ferryShow ..).onlyOf rfl))⟩
  · rw [(frame_ferryShow ..).isSet F.ferryCtrl_RUN rfl f, State.isSet, ferryStarted, get_setSails, get_put_other _ _ _ _ (by decide)]
    exact isSet_put_one _ f rfl
  · rw [(frame_ferryShow ..).sail rfl, entry_ferryStarted]
  · rw [(frame_ferryShow ..).sail rfl, cycle_ferryStarted]
  · rw [get_ferryShow_state, if_neg]
    · exact (shownState_lt ..).ne
    · rw [ferryStarted, get_setSails, State.get_put_same _ _ _ _ rfl]
      decide

theorem gives_ferryRun_rejected (hf : f < 32) (d0 : s.hl.d3 = false) (on : s.unitOff .ferryCtrl f = false) (idle : s.isSet F.ferryCtrl_RUN f = false)
    (failed : runCheck s f ≠ 0) : Gives (.ferryRun f) s (fun t => t.isSet F.ferryCtrl_RUN f = false ∧ t.get F.ferryStatus_STATE f = 5
      ∧ t.get F.ferryStatus_REJECT_REASON f = runCheck s f ∧ Only [.acc] [.ferryStatus] s t) := by
  have run := exec_ferryRun hf d0
  obtain ⟨u, hu⟩ : ∃ u, u = wideWrite s .ferryCtrl f := ⟨_, rfl⟩
  have wide : Frame 1 0 s u := hu ▸ frame_wideWrite ..
  have check : runCheck u f = runCheck s f := by rw [hu, runCheck_wideWrite]
  rw [on, if_neg Bool.false_ne_true, ← hu, ferryStart_rejected (by rwa [wide.isSet F.ferryCtrl_RUN rfl f]) (by rwa [check]), check] at run
  refine ⟨_, run, ?_, ?_, ?_, (((wide.mono (ps := 1) (rs := regBits [.ferryStatus]) rfl rfl).put (by decide)).put (by decide)).onlyOf rfl⟩
  · rw [isSet_put_other _ _ _ _ (by decide), isSet_put_other _ _ _ _ (by decide), wide.isSet F.ferryCtrl_RUN rfl f, idle]
  · rw [State.get_put_bits _ _ _ _ _ _ rfl rfl (by decide), State.get_put_same _ _ _ _ rfl]
    rfl
  · rw [State.get_put_same _ _ _ _ rfl]
    exact Nat.mod_eq_of_lt ((runCheck_lt s f).trans (by decide))

theorem gives_ferryStop (hf : f < 32) (d0 : s.hl.d3 = false) (on : s.unitOff .ferryCtrl f = false) :
    Gives (.ferryStop f) s (fun t => t.isSet F.ferryCtrl_RUN f = false ∧ Only [.acc] [.ferryCtrl, .ferryStatus] s t) := by
  have run := exec_ferryStop hf d0
  rw [on, if_neg Bool.false_ne_true, ferryHalt] at run
  refine ⟨_, run, ?_, ((((frame_wideWrite ..).mono (ps := 1) (rs := regBits [.ferryCtrl, .ferryStatus]) rfl rfl).put (by decide)).step (frame_ferryShow ..) rfl rfl).onlyOf rfl⟩
  rw [(frame_ferryShow ..).isSet F.ferryCtrl_RUN rfl f]
  exact isSet_put_zero _ f rfl

/-! Writes that wait for their domain (R30, log 59). -/

theorem bitStored_ferryRun (v : Nat) (x : Bool) : bitStored .ferryCtrl 0 v x 13 = v.testBit 13 := rfl

theorem run_deferWrite (s : State) (f v : Nat) : (deferWrite s .ferryCtrl f v).get F.ferryCtrl_RUN f = s.get F.ferryCtrl_RUN f := by
  have stored (t : State) (n : Nat) : (storeWord t .ferryCtrl f 0 0 n).get F.ferryCtrl_RUN f = bitsOf n 13 13 :=
    get_storeWord (f := F.ferryCtrl_RUN) (by decide) (by decide) t f 0 n (fun b x low high => by
      obtain rfl : b = 13 := le_antisymm high low
      exact bitStored_ferryRun n x)
  rw [deferWrite, if_pos rfl, stored, bitsOf_withBits_same (by decide)]
  exact Nat.mod_eq_of_lt (bitsOf_lt ..)

theorem gives_deferred (hf : f < 32) (d0 : s.hl.d3 = false) (off : s.unitOff .ferryCtrl f = true) (e k seq : Nat) :
    ∀ c ∈ [Instr.ferryRun f, .ferryStop f, .ferryAbortOne f e k seq, .ferryAbortAll f seq], Gives c s (fun t =>
      t.isSet F.ferryCtrl_RUN f = s.isSet F.ferryCtrl_RUN f ∧ Only [.acc, .pwr] [.ferryCtrl, .ferryAbort] s t) := by
  have ctrl (v : Nat) : (deferWrite (wideWrite s .ferryCtrl f) .ferryCtrl f v).isSet F.ferryCtrl_RUN f = s.isSet F.ferryCtrl_RUN f
      ∧ Only [.acc, .pwr] [.ferryCtrl, .ferryAbort] s (deferWrite (wideWrite s .ferryCtrl f) .ferryCtrl f v) := by
    refine ⟨?_, ((frame_wideWrite ..).onlyOf rfl).trans ((frame_deferWrite ..).onlyOf rfl)⟩
    rw [State.isSet, run_deferWrite, get_wideWrite, State.isSet]
  have abort (v : Nat) : (unitWrite (wideWrite s .ferryAbort f) .ferryAbort f v).isSet F.ferryCtrl_RUN f = s.isSet F.ferryCtrl_RUN f
      ∧ Only [.acc, .pwr] [.ferryCtrl, .ferryAbort] s (unitWrite (wideWrite s .ferryAbort f) .ferryAbort f v) := by
    have off' : (wideWrite s .ferryAbort f).unitOff .ferryAbort f = true := off
    rw [unitWrite, if_pos off']
    refine ⟨?_, ((frame_wideWrite ..).onlyOf rfl).trans ((frame_deferWrite ..).onlyOf rfl)⟩
    rw [(frame_deferWrite ..).isSet F.ferryCtrl_RUN rfl f, isSet_wideWrite]
  intro c hc
  simp only [List.mem_cons, List.not_mem_nil, or_false] at hc
  rcases hc with rfl | rfl | rfl | rfl
  · exact ⟨_, (exec_ferryRun hf d0).trans (by rw [if_pos off]), ctrl _⟩
  · exact ⟨_, (exec_ferryStop hf d0).trans (by rw [if_pos off]), ctrl _⟩
  · exact ⟨_, exec_ferryAbortOne hf d0 e k seq, abort _⟩
  · exact ⟨_, exec_ferryAbortAll hf d0 seq, abort _⟩

end

/-! The words of requests (R375). -/

section
variable {e k seq : Nat}

theorem abortWord_seq (h : seq < 256) : bitsOf (abortWord e k seq) 39 32 = seq := by
  rw [bitsOf, abortWord, Nat.shiftRight_eq_div_pow]
  omega

theorem abortWord_entry (h : e < 4096) : bitsOf (abortWord e k seq) 11 0 = e := by
  rw [bitsOf, abortWord, Nat.shiftRight_eq_div_pow]
  omega

theorem abortWord_cycle (h : k < 65536) : bitsOf (abortWord e k seq) 31 16 = k := by
  rw [bitsOf, abortWord, Nat.shiftRight_eq_div_pow]
  omega

theorem abortWord_all : (abortWord e k seq).testBit 12 = false := by
  have bit : bitsOf (abortWord e k seq) 12 12 = 0 := by
    rw [bitsOf, abortWord, Nat.shiftRight_eq_div_pow]
    omega
  rw [← bitsOf_one, bit]
  rfl

theorem abortAllWord_seq (s : State) (f : Nat) (h : seq < 256) : bitsOf (abortAllWord s f seq) 39 32 = seq := by
  rw [abortAllWord, bitsOf_withBits_same (by decide)]
  exact Nat.mod_eq_of_lt h

theorem abortAllWord_all (s : State) (f seq : Nat) : (abortAllWord s f seq).testBit 12 = true := by
  rw [← bitsOf_one, abortAllWord, bitsOf_withBits_apart (by decide) (by decide) (by decide), bitsOf_withBits_same (by decide)]
  rfl

end

/-! Requests (R372, R375). -/

/-- A request's word stored. -/
def requested (s : State) (f v : Nat) : State := storeWord (wideWrite s .ferryAbort f) .ferryAbort f 0 0 v

section
variable {s : State} {f : Nat}

theorem frame_requested (s : State) (f v : Nat) : Frame 1 (regBits [.ferryAbort]) s (requested s f v) :=
  ((frame_wideWrite ..).mono rfl rfl).step (frame_storeWord ..) rfl rfl

/-- A write to a unit whose domain is not OFF. -/
theorem abortWrite_now (on : s.unitOff .ferryCtrl f = false) (v : Nat) : unitWrite (wideWrite s .ferryAbort f) .ferryAbort f v
    = if bitsOf v 39 32 = s.get F.ferryAbort_REQ_SEQ f then requested s f v
      else if v.testBit 12 then abortAllOf (requested s f v) f (bitsOf v 39 32)
      else abortOne (requested s f v) f (bitsOf v 11 0) (bitsOf v 31 16) (bitsOf v 39 32) := by
  have on' : (wideWrite s .ferryAbort f).unitOff .ferryAbort f = false := on
  rw [unitWrite, on', if_neg Bool.false_ne_true]
  rfl

theorem bitStored_abortAnswer (v b : Nat) (x : Bool) (low : 40 ≤ b) (high : b ≤ 50) : bitStored .ferryAbort 0 v x b = x := by
  interval_cases b <;> rfl

/-- Software does not write RESULT or DONE_SEQ. -/
theorem get_requested {g : Fld} (reg : g.reg = .ferryAbort) (low : 40 ≤ g.lo) (high : g.hi ≤ 50) (le : g.lo ≤ g.hi) (v : Nat) :
    (requested s f v).get g f = s.get g f := by
  have kept := get_storeWord_kept (f := g) (by omega) le (wideWrite s .ferryAbort f) f 0 v
    (fun b x hl hh => by rw [reg]; exact bitStored_abortAnswer v b x (by omega) (by omega))
  rw [reg, get_wideWrite] at kept
  exact kept

theorem frame_abortAnswer (s : State) (f seq result : Nat) : Frame 0 (regBits [.ferryAbort]) s (abortAnswer s f seq result) :=
  ((Frame.refl _ _ s).put (by decide)).put (by decide)

theorem result_abortAnswer (s : State) (f seq : Nat) {result : Nat} (h : result < 8) :
    (abortAnswer s f seq result).get F.ferryAbort_RESULT f = result := by
  rw [abortAnswer, State.get_put_bits _ _ _ _ _ _ rfl rfl (by decide), State.get_put_same _ _ _ _ rfl]
  exact Nat.mod_eq_of_lt h

theorem seq_abortAnswer (s : State) (f result : Nat) {seq : Nat} (h : seq < 256) : (abortAnswer s f seq result).get F.ferryAbort_DONE_SEQ f = seq := by
  rw [abortAnswer, State.get_put_same _ _ _ _ rfl]
  exact Nat.mod_eq_of_lt h

/-- An abort between steps that touch none of what it speaks of. -/
theorem aborted_framed {ps rs ps' rs' : Nat} {s s' t' t : State} {x : Sailing} {reason : Nat} (h : Aborted s' t' x reason) (before : Frame ps rs s s')
    (after : Frame ps' rs' t' t) (quiet : (!ps.testBit 4 && !ps'.testBit 4 && !rs.testBit RegId.bolValue.ctorIdx && !rs'.testBit RegId.bolValue.ctorIdx) = true)
    (apart : (!ps.testBit 8 && !ps'.testBit 8 && !rs.testBit RegId.ferryExc.ctorIdx && !rs'.testBit RegId.ferryExc.ctorIdx && !ps.testBit 13) = true)
    (kept : (!ps'.testBit 13 && !ps'.testBit 16 && !rs'.testBit RegId.sumpHold.ctorIdx) = true) : Aborted s t x reason := by
  simp only [Bool.and_eq_true, Bool.not_eq_true'] at apart
  obtain ⟨⟨⟨⟨sail, sail'⟩, exc⟩, exc'⟩, flt⟩ := apart
  refine ⟨?_, ?_, fun n e => advanced_framed (h.settle n e) before after quiet, (h.post.from (by rw [before.flt flt])).later (.of_quiet after kept)⟩
  · rw [after.sail sail', h.sailings, before.sail sail]
  · rw [after.get F.ferryExc_ABORTED exc' x.f, h.count, before.get F.ferryExc_ABORTED exc x.f]

section
variable (hf : f < 32) (d0 : s.hl.d3 = false) (on : s.unitOff .ferryCtrl f = false)
include hf d0 on

section
variable {e k seq : Nat} (he : e < 4096) (hk : k < 65536) (hs : seq < 256) (new : seq ≠ s.get F.ferryAbort_REQ_SEQ f)
include he hk hs new

theorem exec_abortOne : exec (.ferryAbortOne f e k seq) s = .next (abortOne (requested s f (abortWord e k seq)) f e k seq) := by
  rw [exec_ferryAbortOne hf d0, abortWrite_now on, abortWord_seq hs, if_neg new, abortWord_all, if_neg Bool.false_ne_true,
    abortWord_entry he, abortWord_cycle hk]

theorem gives_abortOne_live {x : Sailing} (found : sailingOf s f e k = some x) : Gives (.ferryAbortOne f e k seq) s (fun t =>
    Aborted s t x 0x21 ∧ t.get F.ferryAbort_RESULT f = 0 ∧ t.get F.ferryAbort_DONE_SEQ f = seq
    ∧ Only (.acc :: settleParts) (.ferryAbort :: settleRegs) s t) := by
  have run := exec_abortOne hf d0 on he hk hs new
  have frame := frame_requested s f (abortWord e k seq)
  have found' : sailingOf (requested s f (abortWord e k seq)) f e k = some x := by rwa [sailingOf, frame.sail rfl]
  rw [abortOne, found'] at run
  exact ⟨_, run, aborted_framed (aborted_abortSailing _ 0x21 (sailingOf_named found).1) frame (frame_abortAnswer ..) rfl rfl rfl,
    result_abortAnswer _ _ _ (by decide), seq_abortAnswer _ _ _ hs,
    (frame.onlyOf rfl).trans (((frame_abortSailing ..).onlyOf rfl).trans ((frame_abortAnswer ..).onlyOf rfl))⟩

theorem gives_abortOne_waiting (none_ : sailingOf s f e k = none) (waits : entryWaits s f e k = true) : Gives (.ferryAbortOne f e k seq) s (fun t =>
    t.get F.ferryAbort_RESULT f = 0 ∧ t.get F.ferryAbort_DONE_SEQ f = seq
    ∧ t.get F.ferryExc_ABORTED f = min (s.get F.ferryExc_ABORTED f + 1) (2 ^ 16 - 1)
    ∧ Only (.acc :: settleParts) (.ferryAbort :: .ferryCtrl :: settleRegs) s t) := by
  have run := exec_abortOne hf d0 on he hk hs new
  have frame := frame_requested s f (abortWord e k seq)
  obtain ⟨u, hu⟩ : ∃ u, u = requested s f (abortWord e k seq) := ⟨_, rfl⟩
  rw [← hu] at run frame
  have none' : sailingOf u f e k = none := by rwa [sailingOf, frame.sail rfl]
  have waits' : entryWaits u f e k = true := by rwa [entryWaits, frame.isSet F.ferryCtrl_RUN rfl f, frame.sail rfl]
  have next : abortOne u f e k seq = abortAnswer (ferryShow (ferryAdvance (abortSailing (withNext u f) (nextSailing u f) 0x21) f) f) f seq 0 := by
    unfold abortOne
    rw [none']
    exact if_pos waits'
  rw [next] at run
  have count := (aborted_abortSailing (withNext u f) (x := nextSailing u f) 0x21 rfl).count
  refine ⟨_, run, result_abortAnswer _ _ _ (by decide), seq_abortAnswer _ _ _ hs, ?_,
    (frame.onlyOf rfl).trans (((frame_withNext ..).onlyOf rfl).trans (((frame_abortSailing ..).onlyOf rfl).trans (((frame_ferryAdvance ..).onlyOf rfl).trans
      (((frame_ferryShow ..).onlyOf rfl).trans ((frame_abortAnswer ..).onlyOf rfl)))))⟩
  rw [(frame_abortAnswer ..).get F.ferryExc_ABORTED rfl f, (frame_ferryShow ..).get F.ferryExc_ABORTED rfl f, (frame_ferryAdvance ..).get F.ferryExc_ABORTED rfl f]
  rw [show (nextSailing u f).f = f from rfl, (frame_withNext u f).get F.ferryExc_ABORTED rfl f, frame.get F.ferryExc_ABORTED rfl f] at count
  exact count

theorem gives_abortOne_other (none_ : sailingOf s f e k = none) (idle : entryWaits s f e k = false) : Gives (.ferryAbortOne f e k seq) s (fun t =>
    t.get F.ferryAbort_RESULT f = (match s.sail.sailings.find? (fun x => x.f == f && x.entry == e && x.cycle % 65536 == k) with
      | some x => if x.st = .complete then 1 else 2
      | none => 3)
    ∧ t.get F.ferryAbort_DONE_SEQ f = seq ∧ Only [.acc] [.ferryAbort] s t) := by
  have run := exec_abortOne hf d0 on he hk hs new
  have frame := frame_requested s f (abortWord e k seq)
  obtain ⟨u, hu⟩ : ∃ u, u = requested s f (abortWord e k seq) := ⟨_, rfl⟩
  rw [← hu] at run frame
  have none' : sailingOf u f e k = none := by rwa [sailingOf, frame.sail rfl]
  have idle' : entryWaits u f e k = false := by rwa [entryWaits, frame.isSet F.ferryCtrl_RUN rfl f, frame.sail rfl]
  unfold abortOne at run
  rw [none', idle', frame.sail rfl] at run
  dsimp only at run
  rw [if_neg Bool.false_ne_true] at run
  cases found : s.sail.sailings.find? (fun x => x.f == f && x.entry == e && x.cycle % 65536 == k) with
  | none =>
    rw [found] at run
    exact ⟨_, run, result_abortAnswer _ _ _ (by decide), seq_abortAnswer _ _ _ hs, (frame.onlyOf rfl).trans ((frame_abortAnswer ..).onlyOf rfl)⟩
  | some x =>
    rw [found] at run
    have small : (if x.st = .complete then 1 else 2) < 8 := by split <;> decide
    exact ⟨_, run, result_abortAnswer _ _ _ small, seq_abortAnswer _ _ _ hs, (frame.onlyOf rfl).trans ((frame_abortAnswer ..).onlyOf rfl)⟩

end

/-- A write that leaves REQ_SEQ as it was submits nothing. -/
theorem gives_abort_same {e k seq : Nat} (same : seq = s.get F.ferryAbort_REQ_SEQ f) :
    ∀ c ∈ [Instr.ferryAbortOne f e k seq, .ferryAbortAll f seq], Gives c s (fun t =>
      t.get F.ferryAbort_RESULT f = s.get F.ferryAbort_RESULT f ∧ t.get F.ferryAbort_DONE_SEQ f = s.get F.ferryAbort_DONE_SEQ f
      ∧ Only [.acc] [.ferryAbort] s t) := by
  have small : seq < 256 := same ▸ State.get_lt s F.ferryAbort_REQ_SEQ f 0 rfl
  have stored (v : Nat) : (requested s f v).get F.ferryAbort_RESULT f = s.get F.ferryAbort_RESULT f
      ∧ (requested s f v).get F.ferryAbort_DONE_SEQ f = s.get F.ferryAbort_DONE_SEQ f ∧ Only [.acc] [.ferryAbort] s (requested s f v) :=
    ⟨get_requested rfl (by decide) (by decide) (by decide) v, get_requested rfl (by decide) (by decide) (by decide) v, (frame_requested ..).onlyOf rfl⟩
  intro c hc
  simp only [List.mem_cons, List.not_mem_nil, or_false] at hc
  rcases hc with rfl | rfl
  · exact ⟨_, (exec_ferryAbortOne hf d0 e k seq).trans (by rw [abortWrite_now on, abortWord_seq small, if_pos same]), stored _⟩
  · exact ⟨_, (exec_ferryAbortAll hf d0 seq).trans (by rw [abortWrite_now on, abortAllWord_seq _ _ small, if_pos same]), stored _⟩

end

end

/-! A request for all (R372): the ferry's sailings end, the others' stay. -/

/-- The sailings of other ferries than `f`. -/
def othersOf (f : Nat) (l : List Sailing) : List Sailing := l.filter (fun x => x.f != f)

/-- A change of sailings of ferry `f` leaves the others. -/
theorem othersOf_updWhere {x : Sailing} {f : Nat} (hx : x.f = f) {g : Sailing → Sailing} (hg : ∀ y, (g y).f = y.f) (l : List Sailing) :
    othersOf f (updWhere l (fun y => sailingIs x y) g) = othersOf f l := by
  unfold othersOf updWhere
  rw [List.filter_map]
  have same : ((fun x : Sailing => x.f != f) ∘ fun y => if sailingIs x y = true then g y else y) = fun x => x.f != f := by
    funext y
    by_cases h : sailingIs x y = true
    · simp [h, hg]
    · simp [h]
  rw [same]
  refine (List.map_congr_left (fun y hy => ?_)).trans (List.map_id _)
  have other : y.f ≠ f := by simpa using (List.mem_filter.mp hy).2
  have apart : sailingIs x y = false := by simp [sailingIs, hx, Ne.symm other]
  simp [apart]

theorem others_abortSailing (s : State) {x : Sailing} {f : Nat} (hx : x.f = f) (reason : Nat) :
    othersOf f (abortSailing s x reason).sail.sailings = othersOf f s.sail.sailings := by
  by_cases h : x.live = true
  · rw [sail_abortSailing s reason h]
    exact othersOf_updWhere hx (g := fun y => { y with st := .aborted, reason := reason }) (fun _ => rfl) _
  · rw [abortSailing_dead _ _ _ (by simpa using h)]

theorem others_aborts {f : Nat} {l : List Sailing} (h : ∀ x ∈ l, x.f = f) (s : State) (reason : Nat) :
    othersOf f (l.foldl (fun s x => abortSailing s x reason) s).sail.sailings = othersOf f s.sail.sailings := by
  induction l generalizing s with
  | nil => rfl
  | cons x l ih => rw [List.foldl_cons, ih (fun y hy => h y (List.mem_cons_of_mem x hy)), others_abortSailing s (h x (List.mem_cons_self ..))]

/-- A live sailing after aborts is none of those aborted. -/
theorem live_aborts {l : List Sailing} (h : ∀ x ∈ l, x.live = true) (s : State) (reason : Nat) {y : Sailing}
    (hy : y ∈ (l.foldl (fun s x => abortSailing s x reason) s).sail.sailings) (live : y.live = true) : ∀ x ∈ l, sailingIs x y = false := by
  induction l generalizing s with
  | nil => exact fun x hx => absurd hx (by simp)
  | cons a l ih =>
    rw [List.foldl_cons] at hy
    have first := LiveFrom.foldl (fun t x => liveFrom_abortSailing t x reason) l (abortSailing s a reason) y hy live
    intro x hx
    rcases List.mem_cons.mp hx with rfl | hx
    · exact (live_abortSailing s reason (h x (List.mem_cons_self ..)) first live).2
    · exact ih (fun x hx => h x (List.mem_cons_of_mem a hx)) _ hy x hx

section
variable {s : State} {f : Nat}

theorem mem_liveSailings {x : Sailing} : x ∈ liveSailings s f ↔ x ∈ s.sail.sailings ∧ x.f = f ∧ x.live = true := by
  simp [liveSailings]

/-- The state as every sailing of a ferry has aborted, and the entry that waits. -/
def ferryAborts (s : State) (f reason : Nat) : State := abortWaiting ((liveSailings s f).foldl (fun s x => abortSailing s x reason) s) f reason

theorem others_ferryAborts (s : State) (f reason : Nat) : othersOf f (ferryAborts s f reason).sail.sailings = othersOf f s.sail.sailings := by
  obtain ⟨u, hu⟩ : ∃ u, u = (liveSailings s f).foldl (fun s x => abortSailing s x reason) s := ⟨_, rfl⟩
  have folded : othersOf f u.sail.sailings = othersOf f s.sail.sailings :=
    hu ▸ others_aborts (fun x hx => (mem_liveSailings.mp hx).2.1) s reason
  rw [ferryAborts, ← hu, ← folded]
  by_cases run : u.isSet F.ferryCtrl_RUN f = true
  · rw [abortWaiting_run run, others_abortSailing _ (show (nextSailing u f).f = f from rfl)]
    show othersOf f (u.sail.sailings ++ [nextSailing u f]) = _
    rw [othersOf, List.filter_append, othersOf]
    simp [show (nextSailing u f).f = f from rfl]
  · rw [abortWaiting, if_neg run]

theorem ended_ferryAborts (s : State) (reason : Nat) {y : Sailing} (hy : y ∈ (ferryAborts s f reason).sail.sailings) (hf : y.f = f) : y.live = false := by
  by_contra h
  have live : y.live = true := by simpa using h
  have folded := liveFrom_abortWaiting _ f reason y hy live
  have was := LiveFrom.foldl (fun t x => liveFrom_abortSailing t x reason) (liveSailings s f) s y folded live
  have gone := live_aborts (fun x hx => (mem_liveSailings.mp hx).2.2) s reason folded live y (mem_liveSailings.mpr ⟨was, hf, live⟩)
  rw [sailingIs_self] at gone
  exact absurd gone.symm Bool.false_ne_true

theorem sailings_abortFerry (s : State) (f reason : Nat) : (abortFerry s f reason).sail.sailings = (ferryAborts s f reason).sail.sailings := by
  rw [abortFerry_eq, (frame_ferryShow ..).sail rfl, sailings_ferryQuiet]
  rfl

theorem run_abortFerry (s : State) (f reason : Nat) : (abortFerry s f reason).isSet F.ferryCtrl_RUN f = false := by
  rw [abortFerry_eq, (frame_ferryShow ..).isSet F.ferryCtrl_RUN rfl f, ferryQuiet, State.isSet, get_setSails]
  exact isSet_put_zero _ f rfl

theorem gives_abortAll (hf : f < 32) (d0 : s.hl.d3 = false) (on : s.unitOff .ferryCtrl f = false) {seq : Nat} (hs : seq < 256)
    (new : seq ≠ s.get F.ferryAbort_REQ_SEQ f) : Gives (.ferryAbortAll f seq) s (fun t =>
      t.get F.ferryAbort_RESULT f = 4 ∧ t.get F.ferryAbort_DONE_SEQ f = seq
      ∧ t.isSet F.ferryCtrl_RUN f = false ∧ (∀ x ∈ t.sail.sailings, x.f = f → x.live = false)
      ∧ t.sail.sailings.filter (fun x => x.f != f) = s.sail.sailings.filter (fun x => x.f != f)
      ∧ Only (.acc :: settleParts) (.ferryAbort :: .ferryCtrl :: settleRegs) s t) := by
  have run := exec_ferryAbortAll hf d0 seq
  have frame := frame_requested s f (abortAllWord s f seq)
  rw [abortWrite_now on, abortAllWord_seq _ _ hs, if_neg new, abortAllWord_all, if_pos rfl, abortAllOf] at run
  obtain ⟨u, hu⟩ : ∃ u, u = requested s f (abortAllWord s f seq) := ⟨_, rfl⟩
  rw [← hu] at run frame
  have answered := frame_abortAnswer (abortFerry u f 0x21) f seq 4
  have sailings : (abortAnswer (abortFerry u f 0x21) f seq 4).sail.sailings = (ferryAborts u f 0x21).sail.sailings := by
    rw [answered.sail rfl, sailings_abortFerry]
  refine ⟨_, run, result_abortAnswer _ _ _ (by decide), seq_abortAnswer _ _ _ hs, ?_, fun x hx => ended_ferryAborts u 0x21 (sailings ▸ hx), ?_,
    (frame.onlyOf rfl).trans (((frame_abortFerry ..).onlyOf rfl).trans (answered.onlyOf rfl))⟩
  · rw [answered.isSet F.ferryCtrl_RUN rfl f, run_abortFerry]
  · rw [sailings, ← frame.sail rfl]
    exact others_ferryAborts u f 0x21

end

/-- Settles O38, command by command. -/
theorem ferriesRunStopAndAbort : Obligations.FerriesRunStopAndAbort := by
  unfold Obligations.FerriesRunStopAndAbort
  intro f s hf d0
  refine ⟨fun on => ⟨fun idle => ⟨gives_ferryRun hf d0 on idle, gives_ferryRun_rejected hf d0 on idle⟩, gives_ferryStop hf d0 on,
    fun e k seq he hk hs new => ⟨fun x => gives_abortOne_live hf d0 on he hk hs new, gives_abortOne_waiting hf d0 on he hk hs new,
      gives_abortOne_other hf d0 on he hk hs new⟩,
    fun e k seq => gives_abort_same hf d0 on, fun seq => gives_abortAll hf d0 on⟩, gives_deferred hf d0⟩

end Sys2Proof.Proofs
end

section
/-! What packets carry and what leaves a port at once (R386 to R390, R402), and the berths (R366 to R377, R407; Table 11.20). -/

namespace Sys2Proof.Proofs

open Sys2Proof.Machine Sys2Proof.Claims Sys2Proof.Laws

/-! Fields of packets. -/

/-- Whether fields lie apart from bits `hi` to `lo`. -/
def fieldsApart (hi lo : Nat) (l : List (Nat × Nat × Nat)) : Bool :=
  l.all (fun f => decide (f.2.1 ≤ f.1) && (decide (hi < f.2.1) || decide (f.1 < lo)))

/-- Fields written apart from a range leave it. -/
theorem bitsOf_fields_apart {hi lo : Nat} (le : lo ≤ hi) {l : List (Nat × Nat × Nat)} (h : fieldsApart hi lo l = true) (x : Nat) :
    bitsOf (l.foldl (fun x f => withBits x f.1 f.2.1 f.2.2) x) hi lo = bitsOf x hi lo := by
  induction l generalizing x with
  | nil => rfl
  | cons f l ih =>
    simp only [fieldsApart, List.all_cons, Bool.and_eq_true, Bool.or_eq_true, decide_eq_true_eq] at h
    obtain ⟨⟨ordered, apart⟩, rest⟩ := h
    rw [List.foldl_cons, ih (by simpa [fieldsApart] using rest), bitsOf_withBits_apart ordered apart le]

/-- A field of a packet: the one written, where those written after it lie apart. -/
theorem pf_mkPacket {hi lo : Nat} (le : lo ≤ hi) (fits : hi < 256) (before : List (Nat × Nat × Nat)) (v : Nat) {after : List (Nat × Nat × Nat)}
    (h : fieldsApart hi lo after = true) : pf (mkPacket (before ++ (hi, lo, v) :: after)) hi lo = v % 2 ^ (hi - lo + 1) := by
  rw [pf, mkPacket, BitVec.toNat_ofNat, bitsOf_mod fits le, List.foldl_append, List.foldl_cons, bitsOf_fields_apart le h, bitsOf_withBits_same le]

/-! What records leave of the packets sent. -/

theorem hostWrite_pkts (s : State) (a : Nat) (bs : List Byte) (p : Bool) : (hostWrite s a bs p).out.pkts = s.out.pkts := by
  unfold hostWrite
  split <;> rfl

theorem msixSend_pkts (s : State) (v : Nat) : (msixSend s v).out.pkts = s.out.pkts := by
  unfold msixSend
  split <;> rfl

theorem signal_pkts (s : State) (n : Nat) : (signal s n).out.pkts = s.out.pkts := by
  unfold signal
  dsimp only
  split
  · rw [State.bump_out]
  · split
    · rw [msixSend_pkts, State.put_out, State.bump_out]
    · rw [State.put_out, State.bump_out]

theorem signalIf_pkts (s : State) (en : Bool) (n : Nat) : (signalIf s en n).out.pkts = s.out.pkts := by
  cases en
  · rfl
  · exact signal_pkts s n

theorem sumpWrite_pkts (s : State) (r : SumpRec) : (sumpWrite s r).out.pkts = s.out.pkts := by
  simp only [sumpWrite]
  rw [signalIf_pkts]
  split <;> simp [hostWrite_pkts]

theorem sumpDeliver_pkts (s : State) (r : SumpRec) : (sumpDeliver s r).out.pkts = s.out.pkts := by
  unfold sumpDeliver
  split
  · exact sumpWrite_pkts s r
  · rw [(frame_sumpHold s r).out rfl]

theorem postOverflow_pkts (s : State) : (postOverflow s).out.pkts = s.out.pkts := by
  simp only [postOverflow, sumpDeliver_pkts, countRecord_out]

theorem post_pkts (s : State) (unit : Nat) (ctx : Option Nat) (cls code extra : Nat) : (post s unit ctx cls code extra).out.pkts = s.out.pkts := by
  simp only [post]
  split <;> simp only [postOverflow_pkts, sumpDeliver_pkts, countRecord_out]

/-! Slots on the wire (R386, R388). -/

/-- A port apart from the lane of its last slot and the slots since a LINK slot. -/
def portRest (x : PortState) : PortState := { x with lane := 0, quiet := 0 }

/-- What slots leave: every port but its place among the lanes, and the packets sent. -/
structure WireKept (s t : State) : Prop where
  port : ∀ q, portRest (portState t q) = portRest (portState s q)
  pkts : t.out.pkts = s.out.pkts

section
variable {s t u : State}

theorem WireKept.refl (s : State) : WireKept s s := ⟨fun _ => rfl, rfl⟩

theorem WireKept.trans (h : WireKept s t) (g : WireKept t u) : WireKept s u := ⟨fun q => (g.port q).trans (h.port q), g.pkts.trans h.pkts⟩

theorem WireKept.of_fab (fab : t.fab = s.fab) (pkts : t.out.pkts = s.out.pkts) : WireKept s t :=
  ⟨fun q => by rw [portState, fab, portState], pkts⟩

theorem WireKept.of_frame {ps rs : Nat} (h : Frame ps rs s t) (quiet : (!ps.testBit 9 && !ps.testBit 16) = true) : WireKept s t := by
  simp only [Bool.and_eq_true, Bool.not_eq_true'] at quiet
  exact .of_fab (h.fab quiet.1) (by rw [h.out quiet.2])

theorem WireKept.foldl {α : Type} {g : State → α → State} (h : ∀ s a, WireKept s (g s a)) (l : List α) (s : State) : WireKept s (l.foldl g s) := by
  induction l generalizing s with
  | nil => exact .refl s
  | cons a l ih => exact (h s a).trans (ih _)

theorem WireKept.queue (h : WireKept s t) (q : Nat) : (portState t q).queue = (portState s q).queue := congrArg (fun x => x.queue) (h.port q)

theorem WireKept.credits (h : WireKept s t) (q : Nat) : (portState t q).credits = (portState s q).credits := congrArg (fun x => x.credits) (h.port q)

theorem WireKept.kept (h : WireKept s t) (q : Nat) : (portState t q).kept = (portState s q).kept := by
  have replay : (portState t q).replay = (portState s q).replay := congrArg (fun x => x.replay) (h.port q)
  rw [PortState.kept, replay, PortState.kept]

theorem portState_setPort (s : State) (p q : Nat) (x : PortState) : portState (setPort s p x) q = if q = p then x else portState s q :=
  smapGet_set ..

theorem wireKept_emitSlot (port : Nat) (s : State) (tag : Nat) : WireKept s (emitSlot port s tag) := by
  refine ⟨fun q => ?_, rfl⟩
  have moved : portState (emitSlot port s tag) q = portState (setPort s port { portState s port with
      lane := nextLane (s.get F.fabPortStatus_LANE_SET port) (portState s port).lane,
      quiet := if tag = tagLink then 0 else (portState s port).quiet + 1 }) q := rfl
  rw [moved, portState_setPort]
  split
  · rename_i e
    rw [e]
    rfl
  · rfl

theorem wireKept_linkSend (s : State) (port : Nat) (m : LinkMsg) : WireKept s (linkSend s port m) := by
  have noted : WireKept s { s with out := { s.out with link := s.out.link ++ [(port, m)] } } := .of_fab rfl rfl
  unfold linkSend
  dsimp only
  split
  · exact noted.trans (wireKept_emitSlot ..)
  · exact noted

theorem wireKept_emit (port : Nat) (s : State) (tag : Nat) : WireKept s (emit port s tag) := by
  unfold emit
  dsimp only
  split
  · exact (wireKept_emitSlot ..).trans (wireKept_linkSend ..)
  · exact wireKept_emitSlot ..

theorem pkts_emitPkt (port : Nat) (s : State) (k : SentPkt) : (emitPkt port s k).out.pkts = s.out.pkts ++ [(port, k.p)] := by
  have slots := (WireKept.foldl (wireKept_emit port) (tagHeader :: k.lines.map tagData) s).pkts
  rw [emitPkt, slots]

theorem pkts_leavePort (s : State) (port : Nat) (k : SentPkt) : (leavePort s port k).out.pkts = s.out.pkts ++ [(port, k.p)] := by
  rw [leavePort, pkts_emitPkt]
  rfl

/-- A packet that waits alone leaves, where the port is ACTIVE and credits and replay buffer last (R388, R394). -/
theorem pkts_pumpPort {port : Nat} {k : SentPkt} (active : s.get F.fabPortStatus_STATE port = 2) (alone : (portState s port).queue = [k])
    (credits : k.slots ≤ (portState s port).credits) (room : (portState s port).kept + k.slots ≤ replaySlots) :
    (pumpPort s port).out.pkts = s.out.pkts ++ [(port, k.p)] := by
  rw [pumpPort, alone]
  show (pumpQueue 1 s port).out.pkts = _
  unfold pumpQueue
  dsimp only
  rw [alone]
  dsimp only
  rw [if_pos ⟨active, credits, room⟩, pumpQueue, pkts_leavePort]
  rfl

/-- A packet put behind those that wait in a port; a peer access notes the port (R409). -/
def givenTo (s : State) (port : Nat) (k : SentPkt) : State :=
  let u := setPort s port { portState s port with queue := (portState s port).queue ++ [k] }
  let own (q : PeerReq) : Bool := (pkType k.p == tRead || pkType k.p == tWrite || pkType k.p == tWriteMasked) && pkSrc k.p == thisNode s && q.tag == pkTag k.p
  { u with fab := { u.fab with reqs := updWhere u.fab.reqs own (fun q => { q with port := port }) } }

theorem sendOn_eq (s : State) (port : Nat) (p : Packet) (lines : List Line) (stream : Option Nat) :
    sendOn s port p lines stream = pumpPort (givenTo s port ⟨p, lines, stream⟩) port := rfl

theorem portState_givenTo (s : State) (port : Nat) (k : SentPkt) :
    portState (givenTo s port k) port = { portState s port with queue := (portState s port).queue ++ [k] } :=
  (portState_setPort ..).trans (if_pos rfl)

theorem pkts_sendOn {port : Nat} {p : Packet} {lines : List Line} {stream : Option Nat} (active : s.get F.fabPortStatus_STATE port = 2)
    (empty : (portState s port).queue = []) (credits : 1 + lines.length ≤ (portState s port).credits)
    (room : (portState s port).kept + (1 + lines.length) ≤ replaySlots) : (sendOn s port p lines stream).out.pkts = s.out.pkts ++ [(port, p)] := by
  have given := portState_givenTo s port ⟨p, lines, stream⟩
  rw [empty] at given
  have up : (givenTo s port ⟨p, lines, stream⟩).get F.fabPortStatus_STATE port = 2 := active
  rw [sendOn_eq, pkts_pumpPort (k := ⟨p, lines, stream⟩) up (by rw [given]; rfl) (by rw [given]; exact credits) (by rw [given]; exact room)]
  rfl

end

/-- A reply on the port it answers leaves there (R402). -/
theorem sentOn_fabReply {s u : State} {port : Nat} {p : Packet} {ok : Packet → Prop} (kept : WireKept s u)
    (active : u.get F.fabPortStatus_STATE port = s.get F.fabPortStatus_STATE port) (good : ok p) : SentOn s (fabReply u port p) port 1 ok := by
  intro up empty credits room
  refine ⟨p, ?_, good⟩
  rw [fabReply, if_pos (active.trans up), pkts_sendOn (active.trans up) ((kept.queue port).trans empty), kept.pkts]
  · rw [kept.credits port]
    exact credits
  · rw [kept.kept port]
    exact room

/-! Berths: their record and state. -/

section
variable (s : State) (b : Nat) (x : Berth)

theorem berthRec_setBerth (c : Nat) : berthRec (setBerth s b x) c = if c = b then x else berthRec s c := by
  rw [berthRec, setBerth, smapFind_insert, berthRec]
  split <;> rfl

theorem sail_showAttempt : (showAttempt s b).sail = s.sail := (frame_showAttempt s b).sail rfl

theorem sail_putBerth (st : Nat) : (putBerth s b x st).sail = (setBerth s b x).sail := by
  rw [putBerth, sail_showAttempt, State.put_sail]

theorem berthRec_setBerth_same : berthRec (setBerth s b x) b = x := (berthRec_setBerth ..).trans (if_pos rfl)

theorem berthRec_of_berth {s t : State} (h : t.sail.berth = s.sail.berth) (c : Nat) : berthRec t c = berthRec s c := by rw [berthRec, h, berthRec]

theorem berthRec_showAttempt (c : Nat) : berthRec (showAttempt s b) c = berthRec s c :=
  berthRec_of_berth (by rw [sail_showAttempt]) c

theorem berthRec_putBerth (st c : Nat) : berthRec (putBerth s b x st) c = if c = b then x else berthRec s c := by
  rw [berthRec_of_berth (s := setBerth s b x) (by rw [sail_putBerth]) c, berthRec_setBerth]

theorem berthRec_putBerth_same (st : Nat) : berthRec (putBerth s b x st) b = x := (berthRec_putBerth ..).trans (if_pos rfl)

/-- Fields beside ATTEMPT stay as ATTEMPT is shown. -/
theorem get_showAttempt {f : Fld} (ok : f.ok = true) (apart : f.hi < 40 ∨ 47 < f.lo) (c : Nat) : (showAttempt s b).get f c = s.get f c :=
  State.get_put_bits _ _ _ _ _ _ rfl ok apart

/-- Fields beside STATE and ATTEMPT stay as a berth is put. -/
theorem get_putBerth {f : Fld} (ok : f.ok = true) (apart : f.hi < 32 ∨ 47 < f.lo) (st c : Nat) : (putBerth s b x st).get f c = s.get f c := by
  rw [putBerth, get_showAttempt _ _ ok (apart.imp (fun h => h.trans (by decide)) id),
    State.get_put_bits _ _ _ _ _ _ rfl ok (apart.imp id (fun h => (by decide : 34 < 47).trans h))]
  rfl

theorem berthState_showAttempt (c : Nat) : berthState (showAttempt s b) c = berthState s c := get_showAttempt s b rfl (by decide) c

theorem berthState_setBerth (c : Nat) : berthState (setBerth s b x) c = berthState s c := rfl

theorem berthState_putBerth {st : Nat} (small : st < 8) : berthState (putBerth s b x st) b = st := by
  rw [putBerth, berthState_showAttempt, berthState, State.get_put_same _ _ _ _ rfl]
  exact Nat.mod_eq_of_lt small

theorem berthState_putBerth_ne {c : Nat} (h : c ≠ b) (st : Nat) : berthState (putBerth s b x st) c = berthState s c := by
  rw [putBerth, berthState_showAttempt, berthState, State.get_put_i _ _ _ _ h]
  rfl

end

/-- The attempt expected of a sailing just met. -/
theorem expected_meet (x : Berth) (k : SailKey) (n : Nat) : expected (meet x k n) k = n := by
  have fresh : (x.met.filter (fun m => m.1 != k && some m.1 != x.done)).find? (fun m => m.1 == k) = none := by
    refine List.find?_eq_none.mpr (fun m hm => ?_)
    have other := (List.mem_filter.mp hm).2
    simp only [Bool.and_eq_true, bne_iff_ne, ne_eq] at other
    simp [other.1]
  simp [expected, meet, List.find?_append, fresh]

theorem expected_of_met {x y : Berth} (h : y.met = x.met) (k : SailKey) : expected y k = expected x k := by rw [expected, h, expected]

/-! The reorder store (R404). -/

/-- Runs taken up or discarded, or moved between a port's buffer and the store: the sailings' part but the runs stays, and the wire; no
run is new. -/
structure RunsMoved (s t : State) : Prop where
  frame : Frame 66304 0 s t
  sail : t.sail = { s.sail with reorder := t.sail.reorder }
  wire : WireKept s t
  runs : ∀ r ∈ t.sail.reorder, ∃ q ∈ s.sail.reorder, q.p = r.p
  posted : t.out.posted = s.out.posted

section
variable {s t u : State}

theorem RunsMoved.refl (s : State) : RunsMoved s s := ⟨.refl _ _ s, rfl, .refl s, fun r h => ⟨r, h, rfl⟩, rfl⟩

theorem RunsMoved.trans (h : RunsMoved s t) (g : RunsMoved t u) : RunsMoved s u where
  frame := h.frame.step g.frame rfl rfl
  sail := by rw [g.sail, h.sail]
  wire := h.wire.trans g.wire
  runs r hr := by
    obtain ⟨q, hq, same⟩ := g.runs r hr
    obtain ⟨q', hq', same'⟩ := h.runs q hq
    exact ⟨q', hq', same'.trans same⟩
  posted := g.posted.trans h.posted

theorem RunsMoved.foldl {α : Type} {g : State → α → State} (h : ∀ s a, RunsMoved s (g s a)) (l : List α) (s : State) : RunsMoved s (l.foldl g s) := by
  induction l generalizing s with
  | nil => exact .refl s
  | cons a l ih => exact (h s a).trans (ih _)

theorem RunsMoved.berthRec (h : RunsMoved s t) (b : Nat) : berthRec t b = berthRec s b := berthRec_of_berth (by rw [h.sail]) b

theorem RunsMoved.berthState (h : RunsMoved s t) (b : Nat) : berthState t b = berthState s b := h.frame.get F.berthStatus_STATE rfl b

theorem RunsMoved.sailings (h : RunsMoved s t) : t.sail.sailings = s.sail.sailings := by rw [h.sail]

theorem RunsMoved.records (h : RunsMoved s t) : RecordsKept s t := .of_frame h.frame rfl (by rw [h.frame.flt rfl]) h.posted

/-- The runs that wait are others. -/
def withRuns (s : State) (l : List EarlyRun) : State := { s with sail := { s.sail with reorder := l } }

theorem runsMoved_withRuns (s : State) {l : List EarlyRun} (h : ∀ r ∈ l, ∃ q ∈ s.sail.reorder, q.p = r.p) : RunsMoved s (withRuns s l) :=
  ⟨(frame_setSails s { s.sail with reorder := l }).mono rfl rfl, rfl, .of_fab rfl rfl, h, rfl⟩

theorem runsMoved_linkSend (s : State) (port : Nat) (m : LinkMsg) : RunsMoved s (linkSend s port m) := by
  have sail := (frame_linkSend s port m).sail rfl
  exact ⟨(frame_linkSend ..).mono rfl rfl, by rw [sail], wireKept_linkSend .., fun r h => ⟨r, sail ▸ h, rfl⟩, linkSend_posted ..⟩

theorem storeRun_eq (s : State) (r : EarlyRun) : storeRun s r = if r.stored || !storeFits s (pkBerth r.p) r.lines.length then s
    else if r.owed = 0 then withRuns s (updWhere s.sail.reorder (fun y => y == r) (fun y => { y with stored := true, owed := 0 }))
    else linkSend (withRuns s (updWhere s.sail.reorder (fun y => y == r) (fun y => { y with stored := true, owed := 0 }))) r.port (.credit r.owed) := rfl

theorem runsMoved_storeRun (s : State) (r : EarlyRun) : RunsMoved s (storeRun s r) := by
  have entered : RunsMoved s (withRuns s (updWhere s.sail.reorder (fun y => y == r) (fun y => { y with stored := true, owed := 0 }))) := by
    refine runsMoved_withRuns s (fun y hy => ?_)
    obtain ⟨z, hz, rfl⟩ := List.mem_map.mp hy
    exact ⟨z, hz, by split <;> rfl⟩
  rw [storeRun_eq]
  split
  · exact .refl s
  · split
    · exact entered
    · exact entered.trans (runsMoved_linkSend ..)

/-- The runs that stay as others are taken out, the credits these owe returned. -/
def runsOut (s : State) (gone : EarlyRun → Bool) : State :=
  (s.sail.reorder.filter (fun r => gone r && r.owed != 0)).foldl (fun s r => linkSend s r.port (.credit r.owed))
    (withRuns s (s.sail.reorder.filter (fun r => !gone r)))

theorem takeRuns_eq (s : State) (gone : EarlyRun → Bool) : takeRuns s gone = (runsOut s gone).sail.reorder.foldl storeRun (runsOut s gone) := rfl

theorem runsMoved_owed (l : List EarlyRun) (s : State) : RunsMoved s (l.foldl (fun s r => linkSend s r.port (.credit r.owed)) s) :=
  .foldl (fun t r => runsMoved_linkSend t r.port (.credit r.owed)) l s

theorem runsMoved_runsOut (s : State) (gone : EarlyRun → Bool) : RunsMoved s (runsOut s gone) := by
  have left : RunsMoved s (withRuns s (s.sail.reorder.filter (fun r => !gone r))) :=
    runsMoved_withRuns s (fun r h => ⟨r, (List.mem_filter.mp h).1, rfl⟩)
  rw [runsOut]
  exact left.trans (runsMoved_owed ..)

theorem runsMoved_takeRuns (s : State) (gone : EarlyRun → Bool) : RunsMoved s (takeRuns s gone) := by
  rw [takeRuns_eq]
  exact (runsMoved_runsOut s gone).trans (.foldl runsMoved_storeRun _ _)

/-- A run that is left was none of those taken. -/
theorem left_runsOut {gone : EarlyRun → Bool} {r : EarlyRun} (h : r ∈ (runsOut s gone).sail.reorder) : ∃ q ∈ s.sail.reorder, gone q = false ∧ q.p = r.p := by
  rw [runsOut] at h
  obtain ⟨q, hq, same⟩ := (runsMoved_owed _ (withRuns s (s.sail.reorder.filter (fun r => !gone r)))).runs r h
  obtain ⟨was, stays⟩ := List.mem_filter.mp (show q ∈ s.sail.reorder.filter (fun r => !gone r) from hq)
  exact ⟨q, was, by simpa using stays, same⟩

theorem left_takeRuns {gone : EarlyRun → Bool} {r : EarlyRun} (h : r ∈ (takeRuns s gone).sail.reorder) : ∃ q ∈ s.sail.reorder, gone q = false ∧ q.p = r.p := by
  rw [takeRuns_eq] at h
  obtain ⟨q, hq, same⟩ := (RunsMoved.foldl runsMoved_storeRun (runsOut s gone).sail.reorder (runsOut s gone)).runs r h
  obtain ⟨q', hq', apart, same'⟩ := left_runsOut hq
  exact ⟨q', hq', apart, same'.trans same⟩

theorem runsMoved_dropEarly (s : State) (b : Nat) (k : SailKey) : RunsMoved s (dropEarly s b k) := runsMoved_takeRuns ..

/-- No run of the sailing waits. -/
theorem left_dropEarly {b : Nat} {k : SailKey} {r : EarlyRun} (h : r ∈ (dropEarly s b k).sail.reorder) : pkBerth r.p ≠ b ∨ keyOf r.p ≠ k := by
  obtain ⟨q, -, apart, same⟩ := left_takeRuns h
  rw [← same]
  by_contra both
  push Not at both
  simp [both.1, both.2] at apart

end

/-! CUT (Table 11.20, R374). -/

theorem cutIn_expected {s : State} {p : Packet} (met : Expected s p) : cutIn s p =
    if (berthRec s (pkBerth p)).cur = some (keyOf p) then
      putBerth (dropEarly s (pkBerth p) (keyOf p)) (pkBerth p)
        { meet (berthRec s (pkBerth p)) (keyOf p) (expected (berthRec s (pkBerth p)) (keyOf p) + 1) with landed := 0, limit := 0 } bReceiving
    else showAttempt (setBerth (dropEarly s (pkBerth p) (keyOf p)) (pkBerth p)
      (meet (berthRec s (pkBerth p)) (keyOf p) (expected (berthRec s (pkBerth p)) (keyOf p) + 1))) (pkBerth p) := by
  obtain ⟨ready, attempt⟩ := met
  unfold cutIn
  rw [ready]
  dsimp only
  rw [if_neg (by simpa using attempt)]

theorem gives_cutReceive {s : State} {p : Packet} (cut : pkType p = tCut) (met : Expected s p) : Gives (.cutReceive p) s (fun t =>
    expected (berthRec t (pkBerth p)) (keyOf p) = expected (berthRec s (pkBerth p)) (keyOf p) + 1
    ∧ (∀ r ∈ t.sail.reorder, pkBerth r.p ≠ pkBerth p ∨ keyOf r.p ≠ keyOf p)
    ∧ ((berthRec s (pkBerth p)).cur = some (keyOf p) → berthState t (pkBerth p) = bReceiving ∧ (berthRec t (pkBerth p)).landed = 0)
    ∧ Only [.sail, .fab, .out] [.berthStatus] s t) := by
  have run : exec (.cutReceive p) s = .next (cutIn s p) := if_pos cut
  have only : Only [.sail, .fab, .out] [.berthStatus] s (cutIn s p) := (frame_cutIn ..).onlyOf rfl
  refine ⟨_, run, ?_⟩
  rw [cutIn_expected met] at only ⊢
  split
  · refine ⟨?_, fun r hr => left_dropEarly (s := s) ?_, fun _ => ⟨berthState_putBerth _ _ _ (by decide), by rw [berthRec_putBerth_same]⟩, ?_⟩
    · rw [berthRec_putBerth_same]
      exact (expected_of_met rfl _).trans (expected_meet ..)
    · rwa [sail_putBerth] at hr
    · rwa [if_pos ‹_›] at only
  · refine ⟨?_, fun r hr => left_dropEarly (s := s) ?_, fun cur => absurd cur ‹_›, ?_⟩
    · rw [berthRec_showAttempt, berthRec_setBerth_same, expected_meet]
    · rwa [sail_showAttempt] at hr
    · rwa [if_neg ‹_›] at only

/-! SETTLE COMPLETE (R366, R367). -/

/-- A bollard's change moves no count of landings: it opens berths only. -/
theorem landed_berthReopen (s : State) (n c : Nat) : (berthReopen s n).get F.berthStatus_LANDED c = s.get F.berthStatus_LANDED c := by
  refine foldl_keeps (fun t => t.get F.berthStatus_LANDED c) (fun t kb => ?_) s.sail.berth s
  split
  · exact State.get_put_bits _ _ _ _ _ _ rfl rfl (by decide)
  · rfl

theorem landed_bolSend (s : State) (n inc c : Nat) : (bolSend s n inc).get F.berthStatus_LANDED c = s.get F.berthStatus_LANDED c := by
  unfold bolSend
  split
  · rw [bolApply, bolChanged, (frame_bolNotify ..).get F.berthStatus_LANDED rfl c, landed_berthReopen, (frame_bolWake ..).get F.berthStatus_LANDED rfl c,
      (frame_bolLatch ..).get F.berthStatus_LANDED rfl c]
    exact get_put_other _ _ _ _ (by decide)
  · rfl

section
variable {s : State} {p : Packet}

theorem berthNext_free {x : Berth} (h : x.later = none) (s : State) (b st : Nat) : berthNext s b x st = putBerth s b x st := by
  rw [berthNext, h]

theorem exec_settle (settle : pkType p = tSettle) (met : Expected s p) : exec (.settleReceive p) s = .next
    (if pf p 116 116 = 1 then landAborted s (pkBerth p) p
    else if (berthRec s (pkBerth p)).cur = some (keyOf p) ∧ berthState s (pkBerth p) = bPending then landComplete s (pkBerth p) (keyOf p)
    else s) := by
  have run : exec (.settleReceive p) s = .next (settleIn s p) := if_pos settle
  obtain ⟨ready, attempt⟩ := met
  rw [run, settleIn, ready, if_neg (by simpa using attempt)]

theorem later_settled (x : Berth) (k : SailKey) : (settled x k).later = x.later := rfl

/-- The landing counted, its bollard's advance sent. -/
def landingCounted (s : State) (b : Nat) : State := bolSend (s.bump F.berthStatus_LANDED 1 b) (berthRec s b).landBollard 1

theorem landComplete_free {b : Nat} {k : SailKey} (h : (berthRec s b).later = none) : landComplete s b k
    = putBerth (landingCounted s b) b (settled (berthRec s b) k) (if berthFree (landingCounted s b) b (berthRec s b) then bOpen else bFull) := by
  unfold landComplete
  dsimp only
  rw [berthNext_free ((later_settled ..).trans h)]
  rfl

theorem landed_landingCounted (s : State) (b : Nat) :
    (landingCounted s b).get F.berthStatus_LANDED b = (s.get F.berthStatus_LANDED b + 1) % 2 ^ 32 := by
  rw [landingCounted, landed_bolSend, State.get_bump_same _ 1 b 0 rfl]
  rfl

theorem gives_settle_complete (settle : pkType p = tSettle) (met : Expected s p) (free : (berthRec s (pkBerth p)).later = none) (complete : pf p 116 116 = 0)
    (cur : (berthRec s (pkBerth p)).cur = some (keyOf p)) (pending : berthState s (pkBerth p) = bPending) : Gives (.settleReceive p) s (fun t =>
      t.get F.berthStatus_LANDED (pkBerth p) = (s.get F.berthStatus_LANDED (pkBerth p) + 1) % 2 ^ 32
      ∧ Advanced s t (berthRec s (pkBerth p)).landBollard 1 ∧ (berthRec t (pkBerth p)).cur = none
      ∧ berthState t (pkBerth p) = (if !(berthRec s (pkBerth p)).freeEn
          || decide (bitsOf (berthRec s (pkBerth p)).word2 63 32 * t.get F.berthStatus_LANDED (pkBerth p) % 2 ^ 64 ≤ bolValue t (berthRec s (pkBerth p)).freeBollard)
          then bOpen else bFull)
      ∧ Only [.hl, .obj, .run, .core, .eng, .sail, .out] [.bolValue, .bolCtrl, .berthStatus, .evt] s t) := by
  have run := exec_settle settle met
  obtain ⟨b, hb⟩ : ∃ b, b = pkBerth p := ⟨_, rfl⟩
  rw [← hb] at free cur pending run ⊢
  rw [if_neg (by rw [complete]; decide), if_pos ⟨cur, pending⟩, landComplete_free free] at run
  have counted : Frame 0 (regBits [.berthStatus]) s (s.bump F.berthStatus_LANDED 1 b) := (Frame.refl ..).bump (by decide)
  have after := frame_putBerth (landingCounted s b) b (settled (berthRec s b) (keyOf p)) (if berthFree (landingCounted s b) b (berthRec s b) then bOpen else bFull)
  have landed := get_putBerth (landingCounted s b) b (settled (berthRec s b) (keyOf p)) (f := F.berthStatus_LANDED) rfl (by decide)
    (if berthFree (landingCounted s b) b (berthRec s b) then bOpen else bFull) b
  refine ⟨_, run, ?_, advanced_framed (advanced_bolSend _ (berthRec s b).landBollard 1) counted after rfl, by rw [berthRec_putBerth_same]; rfl, ?_,
    (counted.onlyOf rfl).trans (((frame_bolSend ..).onlyOf rfl).trans (after.onlyOf rfl))⟩
  · rw [landed, landed_landingCounted]
  · rw [berthState_putBerth _ _ _ (by split <;> decide), landed, bolValue, after.get F.bolValue_VALUE rfl (berthRec s b).freeBollard]
    rfl

/-! SETTLE ABORTED (R372, Table 11.20). -/

/-- Its record, its count, its early runs discarded. -/
def abortNoted (s : State) (b : Nat) (p : Packet) : State :=
  dropEarly ((landPost s b p 0x0B14 (pkReason p)).bumpSat F.berthStatus_ABORTS 1 b) b (keyOf p)

theorem landAborted_receiving {b : Nat} (cur : (berthRec s b).cur = some (keyOf p)) (free : (berthRec s b).later = none) :
    landAborted s b p = putBerth (spoilRegion (abortNoted s b p) (berthRec s b)) b (settled (berthRec s b) (keyOf p)) bOpen := by
  unfold landAborted
  dsimp only
  rw [if_pos cur, berthNext_free ((later_settled ..).trans free)]
  rfl

theorem landAborted_other {b : Nat} (cur : (berthRec s b).cur ≠ some (keyOf p)) : landAborted s b p = setBerth (abortNoted s b p) b
    { berthRec s b with done := if (berthRec s b).met.any (fun m => m.1 == keyOf p) then some (keyOf p) else (berthRec s b).done } := by
  unfold landAborted
  dsimp only
  rw [if_neg cur]
  rfl

theorem posts_landPost (s : State) (b : Nat) (p : Packet) (code reason : Nat) : Posts s (landPost s b p code reason) noUnit
    (if (berthRec s b).valid then some (berthRec s b).owner else none) 0 code (sailExtra (pkEntry p) (pkCycleLo p) reason) :=
  posts_post_small s noUnit _ 0 code (sailExtra_lt ..)

theorem gives_settle_aborted (settle : pkType p = tSettle) (met : Expected s p) (aborted : pf p 116 116 = 1)
    (cur : (berthRec s (pkBerth p)).cur ≠ some (keyOf p)) : Gives (.settleReceive p) s (fun t =>
      t.get F.berthStatus_ABORTS (pkBerth p) = min (s.get F.berthStatus_ABORTS (pkBerth p) + 1) (2 ^ 16 - 1)
      ∧ Posts s t noUnit (if (berthRec s (pkBerth p)).valid then some (berthRec s (pkBerth p)).owner else none) 0 0x0B14
        (sailExtra (pkEntry p) (pkCycleLo p) (pkReason p))
      ∧ berthState t (pkBerth p) = berthState s (pkBerth p) ∧ Only (.sail :: .fab :: recordParts) (.berthStatus :: recordRegs) s t) := by
  have run := exec_settle settle met
  obtain ⟨b, hb⟩ : ∃ b, b = pkBerth p := ⟨_, rfl⟩
  rw [← hb] at cur run ⊢
  rw [if_pos aborted, landAborted_other cur] at run
  have posted := posts_landPost s b p 0x0B14 (pkReason p)
  have noted := frame_landPost s b p 0x0B14 (pkReason p)
  obtain ⟨u, hu⟩ : ∃ u, u = landPost s b p 0x0B14 (pkReason p) := ⟨_, rfl⟩
  have counted : Frame 0 (regBits [.berthStatus]) u (u.bumpSat F.berthStatus_ABORTS 1 b) := (Frame.refl ..).bumpSat (by decide)
  have dropped := runsMoved_dropEarly (u.bumpSat F.berthStatus_ABORTS 1 b) b (keyOf p)
  rw [abortNoted, ← hu] at run
  rw [← hu] at posted noted
  refine ⟨_, run, ?_, ((posted.later (.of_quiet counted rfl)).later dropped.records).later (.of_quiet (frame_setBerth ..) rfl), ?_,
    (noted.onlyOf rfl).trans ((counted.onlyOf rfl).trans ((dropped.frame.onlyOf rfl).trans ((frame_setBerth ..).onlyOf rfl)))⟩
  · rw [(frame_setBerth ..).get F.berthStatus_ABORTS rfl b, dropped.frame.get F.berthStatus_ABORTS rfl b, State.get_bumpSat_same _ 1 b 0 rfl,
      noted.get F.berthStatus_ABORTS rfl b]
    rfl
  · rw [berthState_setBerth, dropped.berthState, berthState, State.bumpSat, State.get_put_bits _ _ _ _ _ _ rfl rfl (by decide),
      noted.get F.berthStatus_STATE rfl b, berthState]

theorem gives_settle_aborts (settle : pkType p = tSettle) (met : Expected s p) (free : (berthRec s (pkBerth p)).later = none) (aborted : pf p 116 116 = 1)
    (cur : (berthRec s (pkBerth p)).cur = some (keyOf p)) : Gives (.settleReceive p) s (fun t =>
      berthState t (pkBerth p) = bOpen ∧ (berthRec t (pkBerth p)).cur = none ∧ Only spoilParts spoilRegs s t) := by
  have run := exec_settle settle met
  have only : Only spoilParts spoilRegs s (landAborted s (pkBerth p) p) := (frame_landAborted ..).onlyOf rfl
  rw [if_pos aborted, landAborted_receiving cur free] at run
  rw [landAborted_receiving cur free] at only
  exact ⟨_, run, berthState_putBerth _ _ _ (by decide), by rw [berthRec_putBerth_same]; rfl, only⟩

/-! MISSED (R359). -/

theorem gives_missed (missed : pkType p = tMissed) : Gives (.missedReceive p) s (fun t =>
    Posts s t noUnit (if (berthRec s (pkBerth p)).valid then some (berthRec s (pkBerth p)).owner else none) 0 0x0B12
      (sailExtra (pkEntry p) (pkCycleLo p) 0) ∧ Only recordParts recordRegs s t) := by
  have run : exec (.missedReceive p) s = .next (missedIn s p) := if_pos missed
  exact ⟨_, run, posts_landPost .., (frame_landPost ..).onlyOf rfl⟩

end

/-! An aborted landing's region (R371, log 12): undefined bytes of device memory alone. -/


theorem frame_spoilAt_memory (c : Nat) (s : State) (ca n : Nat) : Frame 16386 storeRegs s (spoilAt c s ca n) := by
  have written := frame_devPut_memory s c ca (undefinedBytes s n)
  unfold spoilAt
  split
  · rename_i done
    rw [done] at written
    exact written.step (frame_free ..) rfl rfl
  · exact .refl _ _ s

theorem frame_spoilRegion_memory (s : State) (x : Berth) : Frame 16386 storeRegs s (spoilRegion s x) :=
  .foldl (.refl _ _ s) (fun t i h => h.step (frame_spoilAt_memory x.owner t (x.region + 64 * i) 64) rfl rfl)

/-! A step of one berth: the sailings and the other berths stay. -/

structure BerthStep (b : Nat) (s t : State) : Prop where
  sailings : t.sail.sailings = s.sail.sailings
  rec_ : ∀ c, c ≠ b → berthRec t c = berthRec s c
  state : ∀ c, c ≠ b → berthState t c = berthState s c

section
variable {s t u : State} {b : Nat}

theorem BerthStep.refl (b : Nat) (s : State) : BerthStep b s s := ⟨rfl, fun _ _ => rfl, fun _ _ => rfl⟩

theorem BerthStep.trans (h : BerthStep b s t) (g : BerthStep b t u) : BerthStep b s u :=
  ⟨g.sailings.trans h.sailings, fun c hc => (g.rec_ c hc).trans (h.rec_ c hc), fun c hc => (g.state c hc).trans (h.state c hc)⟩

theorem BerthStep.of_frame {ps rs : Nat} (h : Frame ps rs s t) (quiet : (!ps.testBit 8 && !rs.testBit RegId.berthStatus.ctorIdx) = true) : BerthStep b s t := by
  simp only [Bool.and_eq_true, Bool.not_eq_true'] at quiet
  have sail := h.sail quiet.1
  exact ⟨by rw [sail], fun c _ => berthRec_of_berth (by rw [sail]) c, fun c _ => h.get F.berthStatus_STATE quiet.2 c⟩

theorem RunsMoved.berthStep (h : RunsMoved s t) (b : Nat) : BerthStep b s t := ⟨h.sailings, fun c _ => h.berthRec c, fun c _ => h.berthState c⟩

theorem berthStep_putBerth (s : State) (b : Nat) (x : Berth) (st : Nat) : BerthStep b s (putBerth s b x st) :=
  ⟨by rw [sail_putBerth, setBerth], fun c hc => (berthRec_putBerth s b x st c).trans (if_neg hc), fun c hc => berthState_putBerth_ne s b x hc st⟩

theorem berthStep_put (s : State) (b : Nat) (f : Fld) (v : Nat) : BerthStep b s (s.put f v b) :=
  ⟨by rw [State.put_sail], fun c _ => berthRec_of_berth (by rw [State.put_sail]) c, fun c hc => State.get_put_i _ _ _ _ hc⟩

theorem berthStep_applyNow (s : State) (b w0 w1 w2 w3 : Nat) : BerthStep b s (berthApplyNow s b w0 w1 w2 w3) := by
  have taken := (runsMoved_takeRuns s (fun r => pkBerth r.p == b)).berthStep b
  unfold berthApplyNow
  dsimp only
  split
  · exact taken.trans ((berthStep_putBerth ..).trans (berthStep_put ..))
  · exact taken.trans (berthStep_putBerth ..)

theorem berthStep_next (s : State) (b : Nat) (x : Berth) (st : Nat) : BerthStep b s (berthNext s b x st) := by
  unfold berthNext
  split
  · exact (berthStep_putBerth ..).trans (berthStep_applyNow ..)
  · exact berthStep_putBerth ..

/-! NODE_RESET (R376, R407). -/

/-- The record of an attempt dropped, its early runs discarded. -/
def resetNoted (s : State) (b : Nat) (k : SailKey) : State :=
  dropEarly (post s noUnit (some (berthRec s b).owner) 0 0x0B14 (sailExtra k.entry k.cycleLo 0x20)) b k

theorem berthReset_other {k : SailKey} (h : (berthRec s b).cur ≠ some k) : berthReset s b k = resetNoted s b k := if_neg h

theorem berthReset_receiving {k : SailKey} (h : (berthRec s b).cur = some k) :
    berthReset s b k = berthNext (spoilRegion (resetNoted s b k) (berthRec s b)) b (settled (berthRec s b) k) bOpen := if_pos h

theorem berthRec_resetNoted (s : State) (b : Nat) (k : SailKey) (c : Nat) : berthRec (resetNoted s b k) c = berthRec s c :=
  ((runsMoved_dropEarly ..).berthRec c).trans (berthRec_of_berth (by rw [(frame_post ..).sail rfl]) c)

theorem berthState_resetNoted (s : State) (b : Nat) (k : SailKey) (c : Nat) : berthState (resetNoted s b k) c = berthState s c :=
  ((runsMoved_dropEarly ..).berthState c).trans ((frame_post ..).get F.berthStatus_STATE rfl c)

theorem berthStep_reset (s : State) (b : Nat) (k : SailKey) : BerthStep b s (berthReset s b k) := by
  have noted : BerthStep b s (resetNoted s b k) := .trans (.of_frame (frame_post ..) rfl) ((runsMoved_dropEarly ..).berthStep b)
  by_cases h : (berthRec s b).cur = some k
  · rw [berthReset_receiving h]
    exact noted.trans (.trans (.of_frame (frame_spoilRegion_memory ..) rfl) (berthStep_next ..))
  · rw [berthReset_other h]
    exact noted

/-- A berth open, without a sailing. -/
def BerthOpen (s : State) (b : Nat) : Prop := berthState s b = bOpen ∧ (berthRec s b).cur = none

/-- A reset of any attempt leaves an open berth open. -/
theorem berthOpen_reset (h : BerthOpen s b) (c : Nat) (j : SailKey) : BerthOpen (berthReset s c j) b := by
  by_cases e : b = c
  · rw [← e, berthReset_other (by rw [h.2]; exact nofun)]
    exact ⟨(berthState_resetNoted ..).trans h.1, by rw [berthRec_resetNoted, h.2]⟩
  · exact ⟨((berthStep_reset s c j).state b e).trans h.1, by rw [(berthStep_reset s c j).rec_ b e, h.2]⟩

/-- The reset of the attempt that a berth receives opens it. -/
theorem berthOpen_reset_own {k : SailKey} (cur : (berthRec s b).cur = some k) (free : (berthRec s b).later = none) : BerthOpen (berthReset s b k) b := by
  rw [berthReset_receiving cur, berthNext_free ((later_settled ..).trans free)]
  exact ⟨berthState_putBerth _ _ _ (by decide), by rw [berthRec_putBerth_same]; rfl⟩

theorem berthRec_reset_other {k j : SailKey} {c : Nat} (cur : (berthRec s b).cur = some k) (h : (c, j) ≠ (b, k)) :
    berthRec (berthReset s c j) b = berthRec s b := by
  by_cases e : b = c
  · have other : k ≠ j := fun f => h (by rw [e, f])
    rw [← e, berthReset_other (by rw [cur]; exact fun f => other (Option.some.inj f)), berthRec_resetNoted]
  · exact (berthStep_reset s c j).rec_ b e

/-- Attempts dropped one after the other, a berth's own among them: it is open at the end. -/
theorem berthOpen_resets {k : SailKey} {l : List (Nat × SailKey)} (h : (b, k) ∈ l) (cur : (berthRec s b).cur = some k) (free : (berthRec s b).later = none) :
    BerthOpen (l.foldl (fun s bk => berthReset s bk.1 bk.2) s) b := by
  have stays (l : List (Nat × SailKey)) (t : State) (o : BerthOpen t b) : BerthOpen (l.foldl (fun s bk => berthReset s bk.1 bk.2) t) b := by
    induction l generalizing t with
    | nil => exact o
    | cons bk l ih => exact ih _ (berthOpen_reset o bk.1 bk.2)
  induction l generalizing s with
  | nil => exact absurd h (by simp)
  | cons bk l ih =>
    rw [List.foldl_cons]
    by_cases e : bk = (b, k)
    · rw [e]
      exact stays l _ (berthOpen_reset_own cur free)
    · have same := berthRec_reset_other (c := bk.1) (j := bk.2) cur e
      exact ih ((List.mem_cons.mp h).resolve_left (Ne.symm e)) (by rw [same, cur]) (by rw [same, free])

theorem mem_of_smapFind {α : Type} {m : SMap α} {a : Nat} {x : α} (h : smapFind m a = some x) : (a, x) ∈ m := by
  induction m with
  | nil => exact absurd h (by simp [smapFind])
  | cons kv m ih =>
    rw [smapFind] at h
    split at h
    · rename_i e
      rw [e, ← Option.some.inj h]
      exact List.mem_cons_self ..
    · exact List.mem_cons_of_mem _ (ih h)

/-- A berth that receives from a node is among the attempts from it. -/
theorem mem_attemptsFrom {k : SailKey} (cur : (berthRec s b).cur = some k) : (b, k) ∈ attemptsFrom s k.node := by
  have grows (e l : List (Nat × SailKey)) (h : (b, k) ∈ l) : (b, k) ∈ e.foldl (fun l x => if l.contains x then l else l ++ [x]) l := by
    induction e generalizing l with
    | nil => exact h
    | cons x e ih =>
      refine ih _ ?_
      dsimp only
      split
      · exact h
      · exact List.mem_append_left _ h
  obtain ⟨x, found⟩ : ∃ x, smapFind s.sail.berth b = some x := by
    cases found : smapFind s.sail.berth b with
    | some x => exact ⟨x, rfl⟩
    | none =>
      rw [berthRec, found] at cur
      exact absurd cur nofun
  have own : x.cur = some k := by rwa [berthRec, found] at cur
  refine grows _ _ (List.mem_filterMap.mpr ⟨(b, x), mem_of_smapFind found, ?_⟩)
  simp [own]

end

section
variable {s : State} {p : Packet}

/-- This node's sailings into the node that resets, aborted. -/
def resetAborts (s : State) (n : Nat) : State := (s.sail.sailings.filter (fun x => x.live && x.node == n)).foldl (fun s x => abortSailing s x 0x20) s

/-- Attempts from it dropped. -/
def resetDrops (s : State) (n : Nat) : State := (attemptsFrom s n).foldl (fun s bk => berthReset s bk.1 bk.2) s

theorem nodeResetIn_eq (s : State) (p : Packet) : nodeResetIn s p = forgetNode (resetDrops (resetAborts s (pkSrc p)) (pkSrc p)) (pkSrc p) := rfl

theorem berth_resetAborts (s : State) (n : Nat) : (resetAborts s n).sail.berth = s.sail.berth := by
  refine foldl_keeps (fun t => t.sail.berth) (fun t x => ?_) _ s
  by_cases h : x.live = true
  · rw [sail_abortSailing t 0x20 h]
  · rw [abortSailing_dead _ _ _ (by simpa using h)]

theorem ended_resetAborts (s : State) (n : Nat) {x : Sailing} (hx : x ∈ (resetAborts s n).sail.sailings) (node : x.node = n) : x.live = false := by
  by_contra h
  have live : x.live = true := by simpa using h
  have was := LiveFrom.foldl (fun t x => liveFrom_abortSailing t x 0x20) (s.sail.sailings.filter (fun x => x.live && x.node == n)) s x hx live
  have gone := live_aborts (fun y hy => by simpa using (Bool.and_eq_true_iff.mp (List.mem_filter.mp hy).2).1) s 0x20 hx live x
    (List.mem_filter.mpr ⟨was, by simp [live, node]⟩)
  rw [sailingIs_self] at gone
  exact absurd gone.symm Bool.false_ne_true

theorem sailings_resetDrops (s : State) (n : Nat) : (resetDrops s n).sail.sailings = s.sail.sailings :=
  foldl_keeps (f := fun (s : State) (bk : Nat × SailKey) => berthReset s bk.1 bk.2) (fun t => t.sail.sailings) (fun t bk => (berthStep_reset t bk.1 bk.2).sailings) (attemptsFrom s n) s

theorem sailings_forgetNode (s : State) (n : Nat) : (forgetNode s n).sail.sailings = s.sail.sailings := rfl

/-- A berth's record without what is remembered of a node. -/
def forgotten (n : Nat) (x : Berth) : Berth :=
  { x with met := x.met.filter (fun m => m.1.node != n), done := x.done.filter (fun k => k.node != n) }

theorem berth_forgetNode (s : State) (n : Nat) : (forgetNode s n).sail.berth = s.sail.berth.map (fun kb => (kb.1, forgotten n kb.2)) := rfl

theorem cur_forgetNode (s : State) (n b : Nat) : (berthRec (forgetNode s n) b).cur = (berthRec s b).cur := by
  rw [berthRec, berth_forgetNode, smapFind_mapValues, berthRec]
  cases smapFind s.sail.berth b <;> rfl

theorem gives_nodeReset (reset : pkType p = tNodeReset) : Gives (.nodeResetReceive p) s (fun t =>
    (∀ x ∈ t.sail.sailings, x.node = pkSrc p → x.live = false)
    ∧ (∀ b k, (berthRec s b).cur = some k → k.node = pkSrc p → (berthRec s b).later = none → berthState t b = bOpen ∧ (berthRec t b).cur = none)
    ∧ Only spoilParts (.berth :: spoilRegs) s t) := by
  have run : exec (.nodeResetReceive p) s = .next (nodeResetIn s p) := if_pos reset
  have only : Only spoilParts (.berth :: spoilRegs) s (nodeResetIn s p) := (frame_nodeResetIn ..).onlyOf rfl
  refine ⟨_, run, fun x hx node => ?_, fun b k cur node free => ?_, only⟩
  · rw [nodeResetIn_eq, sailings_forgetNode, sailings_resetDrops] at hx
    exact ended_resetAborts s _ hx node
  · have same := berthRec_of_berth (berth_resetAborts s (pkSrc p)) b
    rw [← same] at cur free
    have opened := berthOpen_resets (node ▸ mem_attemptsFrom cur) cur free
    rw [nodeResetIn_eq, cur_forgetNode]
    exact opened

end

/-! BERTH_APPLY (R366). -/

theorem berthWord1_valid (v : Nat) : (berthWord1 v).testBit 12 = v.testBit 12 := by
  have bit : bitsOf (berthWord1 v) 12 12 = bitsOf v 12 12 := by
    unfold berthWord1
    generalize bitsOf v 47 32 = n
    simp only [bitsOf, Nat.shiftRight_eq_div_pow]
    omega
  rw [← bitsOf_one, bit, bitsOf_one]

theorem berthWord1_lt (v : Nat) : berthWord1 v < 2 ^ 64 := by
  have high := bitsOf_lt v 47 32
  unfold berthWord1
  omega

/-- Word 1 of a berth stored. -/
def berthStored (s : State) (b v : Nat) : State := (wideWrite s .berth b 0 1).setWord .berth b 0 1 (berthWord1 v)

section
variable {s : State} {b v : Nat}

theorem frame_berthStored (s : State) (b v : Nat) : Frame 1 (regBits [.berth]) s (berthStored s b v) :=
  ((frame_wideWrite ..).mono rfl rfl).setWord (by decide)

theorem word1_berthStored (s : State) (b v : Nat) : (berthStored s b v).word .berth b 0 1 = berthWord1 v := by
  rw [berthStored, State.word_setWord_same]
  exact Nat.mod_eq_of_lt (berthWord1_lt v)

theorem word_berthStored {w : Nat} (h : w ≠ 1) (s : State) (b v : Nat) : (berthStored s b v).word .berth b 0 w = s.word .berth b 0 w := by
  rw [berthStored, State.word_setWord_ne _ _ (by simp [h])]
  rfl

theorem berthWrite_eq (s : State) (b v : Nat) : berthWrite (wideWrite s .berth b 0 1) b v =
    if berthState (berthStored s b v) b = bPending ∧ (berthWord1 v).testBit 12 = true then
      setBerth (berthStored s b v) b { berthRec (berthStored s b v) b with later := some ((berthStored s b v).word .berth b 0 0, berthWord1 v,
        (berthStored s b v).word .berth b 0 2, (berthStored s b v).word .berth b 0 3) }
    else berthApplyNow (berthStored s b v) b ((berthStored s b v).word .berth b 0 0) (berthWord1 v) ((berthStored s b v).word .berth b 0 2)
      ((berthStored s b v).word .berth b 0 3) := rfl

theorem berthState_berthStored (s : State) (b v : Nat) : berthState (berthStored s b v) b = berthState s b :=
  (frame_berthStored ..).get F.berthStatus_STATE rfl b

theorem exec_berthApply (hb : b < 4096) (d0 : s.hl.d3 = false) : exec (.berthApply b v) s = .next
    (if berthState s b = bPending ∧ v.testBit 12 = true then
      setBerth (berthStored s b v) b { berthRec s b with later := some (s.word .berth b 0 0, berthWord1 v, s.word .berth b 0 2, s.word .berth b 0 3) }
    else berthApplyNow (berthStored s b v) b (s.word .berth b 0 0) (berthWord1 v) (s.word .berth b 0 2) (s.word .berth b 0 3)) := by
  have run : exec (.berthApply b v) s = _ := (if_pos hb : execBerthApply b v s = _).trans (bar0_of_d0 d0 _)
  have record : berthRec (berthStored s b v) b = berthRec s b := berthRec_of_berth (by rw [(frame_berthStored ..).sail rfl]) b
  rw [run, berthWrite_eq, berthState_berthStored, record, berthWord1_valid, word_berthStored (by decide), word_berthStored (by decide),
    word_berthStored (by decide)]

/-- A valid write while a sailing is PENDING waits. -/
theorem gives_berthApply_later (hb : b < 4096) (d0 : s.hl.d3 = false) (pending : berthState s b = bPending) (valid : v.testBit 12 = true) :
    Gives (.berthApply b v) s (fun t => t.word .berth b 0 1 = berthWord1 v ∧ berthState t b = bPending
      ∧ (berthRec t b).later = some (s.word .berth b 0 0, berthWord1 v, s.word .berth b 0 2, s.word .berth b 0 3) ∧ Only [.acc, .sail] [.berth] s t) := by
  have run := exec_berthApply (v := v) hb d0
  rw [if_pos ⟨pending, valid⟩] at run
  refine ⟨_, run, ?_, ?_, by rw [berthRec_setBerth_same], ((frame_berthStored ..).onlyOf rfl).trans ((frame_setBerth ..).onlyOf rfl)⟩
  · rw [(frame_setBerth ..).word .berth rfl b 0 1, word1_berthStored]
  · rw [berthState_setBerth, berthState_berthStored, pending]

/-- The record of a berth as its words take force. -/
def berthFresh (s : State) (b w0 w1 w2 w3 : Nat) : Berth :=
  { Berth.none_ with word0 := w0, word1 := w1, word2 := w2, word3 := w3, met := (berthRec s b).met, done := (berthRec s b).done }

theorem berthApplyNow_eq (s : State) (b w0 w1 w2 w3 : Nat) : berthApplyNow s b w0 w1 w2 w3 = if w1.testBit 12 = true then
      (putBerth (takeRuns s (fun r => pkBerth r.p == b)) b (berthFresh s b w0 w1 w2 w3) bOpen).put F.berthStatus_LANDED 0 b
    else putBerth (takeRuns s (fun r => pkBerth r.p == b)) b (berthFresh s b w0 w1 w2 w3) bClosed := rfl

theorem berthRec_applyNow (s : State) (b w0 w1 w2 w3 : Nat) : berthRec (berthApplyNow s b w0 w1 w2 w3) b = berthFresh s b w0 w1 w2 w3 := by
  rw [berthApplyNow_eq]
  split
  · rw [berthRec_of_berth (s := putBerth _ b (berthFresh s b w0 w1 w2 w3) bOpen) (by rw [State.put_sail]), berthRec_putBerth_same]
  · rw [berthRec_putBerth_same]

theorem berthState_applyNow (s : State) (b w0 w1 w2 w3 : Nat) :
    berthState (berthApplyNow s b w0 w1 w2 w3) b = if w1.testBit 12 = true then bOpen else bClosed := by
  rw [berthApplyNow_eq]
  split
  · rw [berthState, State.get_put_bits _ _ _ _ _ _ rfl rfl (by decide), ← berthState, berthState_putBerth _ _ _ (by decide)]
  · rw [berthState_putBerth _ _ _ (by decide)]

theorem landed_applyNow (s : State) (b w0 w2 w3 : Nat) {w1 : Nat} (valid : w1.testBit 12 = true) :
    (berthApplyNow s b w0 w1 w2 w3).get F.berthStatus_LANDED b = 0 := by
  rw [berthApplyNow_eq, if_pos valid, State.get_put_same _ _ _ _ rfl]
  rfl

theorem gives_berthApply_now (hb : b < 4096) (d0 : s.hl.d3 = false) (h : berthState s b ≠ bPending ∨ v.testBit 12 = false) :
    Gives (.berthApply b v) s (fun t =>
      t.word .berth b 0 1 = berthWord1 v ∧ berthState t b = (if v.testBit 12 then bOpen else bClosed)
      ∧ (v.testBit 12 = true → t.get F.berthStatus_LANDED b = 0) ∧ (berthRec t b).word0 = s.word .berth b 0 0 ∧ (berthRec t b).word1 = berthWord1 v
      ∧ (berthRec t b).word2 = s.word .berth b 0 2 ∧ (berthRec t b).word3 = s.word .berth b 0 3 ∧ (berthRec t b).cur = none
      ∧ Only [.acc, .sail, .fab, .out] [.berth, .berthStatus] s t) := by
  have run := exec_berthApply (v := v) hb d0
  rw [if_neg (fun both => h.elim (fun n => n both.1) (fun n => absurd both.2 (by rw [n]; decide)))] at run
  have record := berthRec_applyNow (berthStored s b v) b (s.word .berth b 0 0) (berthWord1 v) (s.word .berth b 0 2) (s.word .berth b 0 3)
  refine ⟨_, run, ?_, ?_, fun valid => landed_applyNow _ _ _ _ _ (by rwa [berthWord1_valid]), ?_, ?_, ?_, ?_, ?_,
    ((frame_berthStored ..).onlyOf rfl).trans ((frame_berthApplyNow ..).onlyOf rfl)⟩
  · rw [(frame_berthApplyNow ..).word .berth rfl b 0 1, word1_berthStored]
  · rw [berthState_applyNow, berthWord1_valid]
  all_goals
    rw [record]
    rfl

end

/-- Settles O42, event by event at the berth. -/
theorem berthsSettleAndReset : Obligations.BerthsSettleAndReset := by
  unfold Obligations.BerthsSettleAndReset
  refine ⟨fun p s => gives_cutReceive, fun p s b x settle hb hx met free => ?_, fun p s => gives_missed, fun p s => gives_nodeReset,
    fun b v s hb d0 => ⟨gives_berthApply_later hb d0, gives_berthApply_now hb d0⟩⟩
  subst hb hx
  exact ⟨gives_settle_complete settle met free, gives_settle_aborted settle met, gives_settle_aborts settle met free⟩

end Sys2Proof.Proofs
end

section
/-! Landings (R367 to R371, R374, R404; Table 11.21): a run turned back, dropped, held or landed. -/

namespace Sys2Proof.Proofs

open Sys2Proof.Machine Sys2Proof.Claims Sys2Proof.Laws

/-! Packets to a sailing's sender. -/

section
variable (s : State) (p : Packet)

theorem pkType_turnBack (r : Nat) : pkType (answer s p tTurnBack [(115, 108, r)]) = tTurnBack := pf_mkPacket (by decide) (by decide) [] tTurnBack rfl

theorem pkType_landAck (n : Nat) : pkType (answer s p tLandAck [(159, 128, n)]) = tLandAck := pf_mkPacket (by decide) (by decide) [] tLandAck rfl

/-- The fields of an answer before those of its type. -/
def answerFields (ty : Nat) : List (Nat × Nat × Nat) :=
  [(7, 0, ty), (31, 16, pkSrc p), (47, 32, thisNode s), (59, 48, pkBerth p), (61, 60, pkAttempt p), (68, 64, pkFerry p), (91, 80, pkEntry p),
    (107, 92, pkCycleLo p)]

theorem pkReason_turnBack {r : Nat} (h : r < 256) : pkReason (answer s p tTurnBack [(115, 108, r)]) = r :=
  (pf_mkPacket (by decide) (by decide) (answerFields s p tTurnBack) r (after := []) rfl).trans (Nat.mod_eq_of_lt h)

end

/-! A landing's lines (R370): device memory alone. -/

theorem frame_landLines_memory (s : State) (x : Berth) (first : Nat) (ls : List Line) : Frame 16386 storeRegs s (landLines s x first ls).2 := by
  unfold landLines
  refine Frame.foldl2 (.refl _ _ s) (fun acc li h => ?_)
  split
  · exact h
  · dsimp only
    split
    · exact h.step (frame_sectorWrite ..) rfl rfl
    · exact h
    · exact h

/-! A run taken up or turned back (R369, R374, R404). -/

section
variable {s : State} {port : Nat} {p : Packet} {ls : List Line}

theorem exec_sailRun (hp : port < 16) (run : pkType p = tSailRun) : exec (.sailRunReceive port p ls) s = .next (sailRunIn s port p ls) :=
  (if_pos hp : execSailRunReceive port p ls s = _).trans (if_pos run)

theorem sail_fabReply (s : State) (port : Nat) (q : Packet) : (fabReply s port q).sail = s.sail := (frame_fabReply ..).sail rfl

theorem berthRec_fabReply (s : State) (port : Nat) (q : Packet) (b : Nat) : berthRec (fabReply s port q) b = berthRec s b :=
  berthRec_of_berth (by rw [sail_fabReply]) b

theorem berthState_fabReply (s : State) (port : Nat) (q : Packet) (b : Nat) : berthState (fabReply s port q) b = berthState s b :=
  (frame_fabReply ..).get F.berthStatus_STATE rfl b

theorem wireKept_setBerth (s : State) (b : Nat) (x : Berth) : WireKept s (setBerth s b x) := .of_fab rfl rfl

/-- A node that resets turns the run back and expects the next attempt. -/
theorem gives_run_resetting (hp : port < 16) (run : pkType p = tSailRun) (down : s.isSet F.fabNode_READY = false) :
    Gives (.sailRunReceive port p ls) s (fun t => Only [.sail, .fab, .out] [] s t
      ∧ expected (berthRec t (pkBerth p)) (keyOf p) = pkAttempt p + 1 ∧ SentOn s t port 1 (fun q => pkType q = tTurnBack ∧ pkReason q = 0x12)) := by
  have did : sailRunIn s port p ls = fabReply (setBerth s (pkBerth p) (meet (berthRec s (pkBerth p)) (keyOf p) (pkAttempt p + 1))) port
      (answer s p tTurnBack [(115, 108, 0x12)]) := if_pos (by rw [down]; rfl)
  have done := exec_sailRun (ls := ls) hp run (s := s)
  rw [did] at done
  refine ⟨_, done, ((frame_setBerth ..).onlyOf rfl).trans ((frame_fabReply ..).onlyOf rfl), ?_,
    sentOn_fabReply (wireKept_setBerth ..) rfl ⟨pkType_turnBack .., pkReason_turnBack _ _ (by decide)⟩⟩
  rw [berthRec_fabReply, berthRec_setBerth_same, expected_meet]

section
variable (ready : s.isSet F.fabNode_READY = true)
include ready

/-- A run of another attempt is dropped. -/
theorem sailRunIn_other (h : expected (berthRec s (pkBerth p)) (keyOf p) % 4 ≠ pkAttempt p) : sailRunIn s port p ls = s := by
  unfold sailRunIn
  rw [ready]
  dsimp only
  rw [if_neg (by decide), if_pos h]

/-- A run of the attempt expected. -/
theorem sailRunIn_expected (h : expected (berthRec s (pkBerth p)) (keyOf p) % 4 = pkAttempt p)
    (fresh : ¬((berthRec s (pkBerth p)).cur = some (keyOf p) ∧ berthState s (pkBerth p) = bReceiving ∧ pf p 159 128 < (berthRec s (pkBerth p)).landed))
    (open_ : ¬((berthRec s (pkBerth p)).cur = some (keyOf p) ∧ berthState s (pkBerth p) = bPending)) : sailRunIn s port p ls =
    if pf p 159 128 ≠ (if (berthRec s (pkBerth p)).cur = some (keyOf p) then (berthRec s (pkBerth p)).landed else 0) then
      withRuns s (s.sail.reorder ++ [⟨p, ls, port, storeFits s (pkBerth p) ls.length, if storeFits s (pkBerth p) ls.length then 0 else 0⟩])
    else
      match landChecks s (pkBerth p) p with
      | (some r, sg) => refuseBy s port (pkBerth p) p r sg
      | (none, _) =>
        performEarly ((if (berthRec s (pkBerth p)).cur = some (keyOf p) then s
            else putBerth s (pkBerth p) { meet (berthRec s (pkBerth p)) (keyOf p) (expected (berthRec s (pkBerth p)) (keyOf p)) with
              cur := some (keyOf p), landed := 0, total := pf p 191 160, limit := 0 } bReceiving).sail.reorder.length + 1)
          (performRun (takenUp s port p) port (pkBerth p) p ls) port (pkBerth p) (keyOf p) := by
  unfold sailRunIn
  rw [ready]
  dsimp only
  rw [if_neg (by decide), if_neg (by rw [h]; exact fun n => n rfl), if_neg fresh, if_neg open_]
  rfl

end

theorem gives_run_early (hp : port < 16) (run : pkType p = tSailRun) (met : Expected s p)
    (ahead : (berthRec s (pkBerth p)).cur ≠ some (keyOf p) ∧ pf p 159 128 ≠ 0
      ∨ (berthRec s (pkBerth p)).cur = some (keyOf p) ∧ berthState s (pkBerth p) = bReceiving ∧ (berthRec s (pkBerth p)).landed < pf p 159 128) :
    Gives (.sailRunReceive port p ls) s (fun t =>
      t.sail.reorder = s.sail.reorder ++ [⟨p, ls, port, storeFits s (pkBerth p) ls.length, 0⟩] ∧ Only [.sail] [] s t) := by
  have done := exec_sailRun (ls := ls) hp run (s := s)
  have fresh : ¬((berthRec s (pkBerth p)).cur = some (keyOf p) ∧ berthState s (pkBerth p) = bReceiving ∧ pf p 159 128 < (berthRec s (pkBerth p)).landed) := by
    rintro ⟨cur, -, behind⟩
    rcases ahead with ⟨other, -⟩ | ⟨-, -, far⟩
    · exact other cur
    · omega
  have open_ : ¬((berthRec s (pkBerth p)).cur = some (keyOf p) ∧ berthState s (pkBerth p) = bPending) := by
    rintro ⟨cur, pending⟩
    rcases ahead with ⟨other, -⟩ | ⟨-, receiving, -⟩
    · exact other cur
    · rw [receiving] at pending
      exact absurd pending (by decide)
  have far : pf p 159 128 ≠ (if (berthRec s (pkBerth p)).cur = some (keyOf p) then (berthRec s (pkBerth p)).landed else 0) := by
    rcases ahead with ⟨other, start⟩ | ⟨cur, -, far⟩
    · rwa [if_neg other]
    · rw [if_pos cur]
      omega
  rw [sailRunIn_expected met.1 met.2 fresh open_, if_pos far, ite_self] at done
  exact ⟨_, done, rfl, (frame_setSails s { s.sail with reorder := _ }).onlyOf rfl⟩

/-! A refusal (R369, R374). -/

/-- The record of a berth that has refused an attempt. -/
def refusedBerth (x : Berth) (k : SailKey) (reason : Nat) : Berth :=
  let y := meet x k (if 0x10 ≤ reason then expected x k + 1 else expected x k)
  if y.cur = some k then { y with landed := 0, limit := 0 } else y

/-- The berth and the store once an attempt is refused, before the answer. -/
def attemptRefused (s : State) (b : Nat) (p : Packet) (reason : Nat) : State :=
  dropEarly (showAttempt (setBerth s b (refusedBerth (berthRec s b) (keyOf p) reason)) b) b (keyOf p)

theorem refuseRun_eq (s : State) (port b : Nat) (p : Packet) (reason : Nat) : refuseRun s port b p reason
    = fabReply (attemptRefused s b p reason) port (answer (attemptRefused s b p reason) p tTurnBack [(115, 108, reason)]) := rfl

theorem expected_refusedBerth (x : Berth) (k : SailKey) (reason : Nat) :
    expected (refusedBerth x k reason) k = expected x k + (if 0x10 ≤ reason then 1 else 0) := by
  have met : (refusedBerth x k reason).met = (meet x k (if 0x10 ≤ reason then expected x k + 1 else expected x k)).met := by
    unfold refusedBerth
    generalize (if 0x10 ≤ reason then expected x k + 1 else expected x k) = n
    dsimp only
    split <;> rfl
  rw [expected_of_met met, expected_meet]
  split <;> rfl

theorem expected_refuseRun (s : State) (port b : Nat) (p : Packet) (reason : Nat) :
    expected (berthRec (refuseRun s port b p reason) b) (keyOf p) = expected (berthRec s b) (keyOf p) + (if 0x10 ≤ reason then 1 else 0) := by
  rw [refuseRun_eq, berthRec_fabReply, attemptRefused, (runsMoved_dropEarly ..).berthRec, berthRec_showAttempt, berthRec_setBerth_same, expected_refusedBerth]

theorem wireKept_attemptRefused (s : State) (b : Nat) (p : Packet) (reason : Nat) : WireKept s (attemptRefused s b p reason) :=
  (wireKept_setBerth ..).trans (.trans (.of_frame (frame_showAttempt ..) rfl) (runsMoved_dropEarly ..).wire)

theorem frame_attemptRefused (s : State) (b : Nat) (p : Packet) (reason : Nat) : Frame 66304 (regBits [.berthStatus]) s (attemptRefused s b p reason) :=
  (((frame_setBerth ..).mono rfl rfl).step (frame_showAttempt ..) rfl rfl).step (runsMoved_dropEarly ..).frame rfl rfl

/-- What a refusal notes of an absent segment (R306). -/
def segNoted (s : State) (port b : Nat) (sg : Option (Nat × Nat)) : State :=
  match sg with
  | some (n, ca) => segNote s (berthRec s b).owner n ca (unitId 0xE port)
  | none => s

theorem refuseBy_eq (s : State) (port b : Nat) (p : Packet) (r : Nat) (sg : Option (Nat × Nat)) :
    refuseBy s port b p r sg = refuseRun (segNoted s port b sg) port b p r := rfl

theorem segNote_pkts (s : State) (c sg ca unit : Nat) : (segNote s c sg ca unit).out.pkts = s.out.pkts := by
  unfold segNote
  dsimp only
  split
  · simp only [State.put_out]
  · rw [post_pkts]
    simp only [State.put_out]

theorem frame_segNoted (s : State) (port b : Nat) (sg : Option (Nat × Nat)) :
    Frame 77830 (regBits [.segFault, .evt, .sumpTail, .sumpHold, .rbStatus, .faultStatus, .faultCount]) s (segNoted s port b sg) := by
  unfold segNoted
  split
  · exact (frame_segNote ..).mono rfl rfl
  · exact .refl _ _ s

theorem wireKept_segNoted (s : State) (port b : Nat) (sg : Option (Nat × Nat)) : WireKept s (segNoted s port b sg) := by
  refine .of_fab ((frame_segNoted s port b sg).fab rfl) ?_
  unfold segNoted
  split
  · exact segNote_pkts ..
  · rfl

/-- A first run refused: what its checks say. -/
theorem sailRunIn_first (met : Expected s p) (other : (berthRec s (pkBerth p)).cur ≠ some (keyOf p)) (start : pf p 159 128 = 0) :
    sailRunIn s port p ls = match landChecks s (pkBerth p) p with
      | (some r, sg) => refuseBy s port (pkBerth p) p r sg
      | (none, _) =>
        performEarly ((putBerth s (pkBerth p) { meet (berthRec s (pkBerth p)) (keyOf p) (expected (berthRec s (pkBerth p)) (keyOf p)) with
            cur := some (keyOf p), landed := 0, total := pf p 191 160, limit := 0 } bReceiving).sail.reorder.length + 1)
          (performRun (takenUp s port p) port (pkBerth p) p ls) port (pkBerth p) (keyOf p) := by
  rw [sailRunIn_expected met.1 met.2 (fun h => other h.1) (fun h => other h.1), if_neg (by rw [if_neg other, start]; exact fun n => n rfl), if_neg other]

theorem gives_run_refused {r : Nat} {sg : Option (Nat × Nat)} (hp : port < 16) (run : pkType p = tSailRun) (met : Expected s p)
    (other : (berthRec s (pkBerth p)).cur ≠ some (keyOf p)) (start : pf p 159 128 = 0) (failed : landChecks s (pkBerth p) p = (some r, sg)) :
    Gives (.sailRunReceive port p ls) s (fun t =>
      expected (berthRec t (pkBerth p)) (keyOf p) = expected (berthRec s (pkBerth p)) (keyOf p) + (if 0x10 ≤ r then 1 else 0)
      ∧ (r < 256 → SentOn s t port 1 (fun q => pkType q = tTurnBack ∧ pkReason q = r))
      ∧ (sg = none → Only [.sail, .fab, .out] [.berthStatus] s t)) := by
  have done := exec_sailRun (ls := ls) hp run (s := s)
  rw [sailRunIn_first met other start, failed] at done
  dsimp only at done
  rw [refuseBy_eq] at done
  have noted := frame_segNoted s port (pkBerth p) sg
  have refused := frame_attemptRefused (segNoted s port (pkBerth p) sg) (pkBerth p) p r
  refine ⟨_, done, ?_, fun small => ?_, fun none_ => ?_⟩
  · have same : berthRec (segNoted s port (pkBerth p) sg) (pkBerth p) = berthRec s (pkBerth p) := berthRec_of_berth (by rw [noted.sail rfl]) _
    rw [expected_refuseRun, same]
  · rw [refuseRun_eq]
    refine sentOn_fabReply ((wireKept_segNoted ..).trans (wireKept_attemptRefused ..)) ?_ ⟨pkType_turnBack .., pkReason_turnBack _ _ small⟩
    rw [refused.get F.fabPortStatus_STATE rfl port, noted.get F.fabPortStatus_STATE rfl port]
  · rw [none_]
    exact (frame_refuseRun ..).onlyOf rfl

end

/-! A first run that lands (R370, R371, R404). -/

section
variable {s : State} {port : Nat} {p : Packet} {ls : List Line}

/-- No run of the sailing waits: none is performed after. -/
theorem performEarly_none {b : Nat} {k : SailKey} (h : ∀ r ∈ s.sail.reorder, pkBerth r.p ≠ b ∨ keyOf r.p ≠ k) (n port : Nat) :
    performEarly n s port b k = s := by
  cases n with
  | zero => rfl
  | succ n =>
    have none_ : s.sail.reorder.find? (fun r => pkBerth r.p == b && keyOf r.p == k && pf r.p 159 128 == (berthRec s b).landed) = none := by
      refine List.find?_eq_none.mpr (fun r hr => ?_)
      rcases h r hr with other | other <;> simp [other]
    rw [performEarly, none_]

/-- The record of a berth that takes a sailing up. -/
def takenBerth (s : State) (p : Packet) : Berth :=
  { meet (berthRec s (pkBerth p)) (keyOf p) (expected (berthRec s (pkBerth p)) (keyOf p)) with
    cur := some (keyOf p), landed := 0, total := pf p 191 160, limit := 0 }

theorem takenUp_fresh (other : (berthRec s (pkBerth p)).cur ≠ some (keyOf p)) :
    takenUp s port p = ungate (putBerth s (pkBerth p) (takenBerth s p) bReceiving) (unitId 7 (8 * (port / 4))) := by
  unfold takenUp
  dsimp only
  rw [if_neg other]
  rfl

section
variable (other : (berthRec s (pkBerth p)).cur ≠ some (keyOf p))
include other

theorem sail_takenUp : (takenUp s port p).sail = (setBerth s (pkBerth p) (takenBerth s p)).sail := by
  rw [takenUp_fresh other, (frame_ungate ..).sail rfl, sail_putBerth]

theorem berthRec_takenUp : berthRec (takenUp s port p) (pkBerth p) = takenBerth s p := by
  rw [berthRec_of_berth (s := setBerth s (pkBerth p) (takenBerth s p)) (by rw [sail_takenUp other]) (pkBerth p), berthRec_setBerth_same]

theorem berthState_takenUp : berthState (takenUp s port p) (pkBerth p) = bReceiving := by
  rw [takenUp_fresh other, berthState, (frame_ungate ..).get F.berthStatus_STATE rfl (pkBerth p), ← berthState, berthState_putBerth _ _ _ (by decide)]

end

/-- The block once a run's lines are written: the in-order point moved. -/
def runLanded (u : State) (s : State) (p : Packet) (n : Nat) : State := setBerth u (pkBerth p) { takenBerth s p with landed := n }

theorem performRun_first {u : State} (other : (berthRec s (pkBerth p)).cur ≠ some (keyOf p))
    (lands : landLines (takenUp s port p) (berthRec (takenUp s port p) (pkBerth p)) 0 ls = (none, u)) :
    performRun (takenUp s port p) port (pkBerth p) p ls = afterRun (runLanded u s p ls.length) port (pkBerth p) p 0 := by
  have record := berthRec_takenUp (port := port) other
  rw [record] at lands
  unfold performRun
  dsimp only
  rw [record, show (takenBerth s p).landed = 0 from rfl, lands, Nat.zero_add]
  rfl

/-- A sailing all of whose lines have landed is PENDING and acknowledged. -/
theorem afterRun_last {b : Nat} (h : pf p 191 160 ≤ (berthRec s b).landed) (before : Nat) : afterRun s port b p before
    = fabReply (putBerth s b (berthRec s b) bPending) port (answer (putBerth s b (berthRec s b) bPending) p tLandAck [(159, 128, (berthRec s b).landed)]) :=
  if_pos h

/-- The window that a first run opens. -/
def windowSet (s : State) (b : Nat) : State :=
  setBerth s b { berthRec s b with limit := max (berthRec s b).limit ((berthRec s b).landed + max shareLines (min 262144 (shareFree s b))) }

theorem afterRun_more {b : Nat} (h : ¬pf p 191 160 ≤ (berthRec s b).landed) : ∃ q, afterRun s port b p 0 = fabReply (windowSet s b) port q := by
  unfold afterRun
  dsimp only
  rw [if_neg h, if_pos (.inl rfl)]
  exact ⟨_, rfl⟩

section
variable {b n : Nat} {k : SailKey}

/-- What follows a first run: the berth's record but its limit, its state, no run that waits. -/
theorem afterRun_berth (landed : (berthRec s b).landed = n) (cur : (berthRec s b).cur = some k) :
    (berthRec (afterRun s port b p 0) b).landed = n ∧ (berthRec (afterRun s port b p 0) b).cur = some k
      ∧ berthState (afterRun s port b p 0) b = (if pf p 191 160 ≤ n then bPending else berthState s b)
      ∧ (afterRun s port b p 0).sail.reorder = s.sail.reorder := by
  by_cases last : pf p 191 160 ≤ n
  · rw [afterRun_last (by rwa [landed]), if_pos last, berthRec_fabReply, berthRec_putBerth_same]
    refine ⟨landed, cur, ?_, ?_⟩
    · rw [berthState_fabReply, berthState_putBerth _ _ _ (by decide)]
    · rw [sail_fabReply, sail_putBerth]
      rfl
  · obtain ⟨q, opened⟩ := afterRun_more (s := s) (port := port) (p := p) (b := b) (by rwa [landed])
    rw [opened, if_neg last, berthRec_fabReply, windowSet, berthRec_setBerth_same]
    refine ⟨landed, cur, ?_, ?_⟩
    · rw [berthState_fabReply, berthState_setBerth]
    · rw [sail_fabReply]
      rfl

end

theorem gives_run_lands {u : State} (hp : port < 16) (run : pkType p = tSailRun) (met : Expected s p)
    (other : (berthRec s (pkBerth p)).cur ≠ some (keyOf p)) (start : pf p 159 128 = 0) (passed : landChecks s (pkBerth p) p = (none, none))
    (alone : ∀ r ∈ s.sail.reorder, pkBerth r.p ≠ pkBerth p ∨ keyOf r.p ≠ keyOf p)
    (lands : landLines (takenUp s port p) (berthRec (takenUp s port p) (pkBerth p)) 0 ls = (none, u)) : Gives (.sailRunReceive port p ls) s (fun t =>
      t.mem = u.mem ∧ (berthRec t (pkBerth p)).landed = ls.length ∧ (berthRec t (pkBerth p)).cur = some (keyOf p)
      ∧ berthState t (pkBerth p) = (if pf p 191 160 ≤ ls.length then bPending else bReceiving)
      ∧ (pf p 191 160 ≤ ls.length → SentOn u t port 1 (fun q => pkType q = tLandAck))) := by
  have done := exec_sailRun (ls := ls) hp run (s := s)
  rw [sailRunIn_first met other start, passed] at done
  dsimp only at done
  rw [performRun_first other lands] at done
  have written := frame_landLines_memory (takenUp s port p) (berthRec (takenUp s port p) (pkBerth p)) 0 ls
  rw [lands] at written
  obtain ⟨w, hw⟩ : ∃ w, w = runLanded u s p ls.length := ⟨_, rfl⟩
  have record : berthRec w (pkBerth p) = { takenBerth s p with landed := ls.length } := by rw [hw, runLanded, berthRec_setBerth_same]
  have receiving : berthState w (pkBerth p) = bReceiving := by
    rw [hw, runLanded, berthState_setBerth, berthState, written.get F.berthStatus_STATE rfl (pkBerth p), ← berthState, berthState_takenUp other]
  have waits : w.sail.reorder = s.sail.reorder := by
    have same : w.sail.reorder = u.sail.reorder := by rw [hw]; rfl
    rw [same, written.sail rfl, sail_takenUp other]
    rfl
  obtain ⟨landed, cur, state, reorder⟩ := afterRun_berth (port := port) (p := p) (n := ls.length) (k := keyOf p) (by rw [record]) (by rw [record]; rfl)
  rw [← hw, performEarly_none (by rw [reorder, waits]; exact alone)] at done
  refine ⟨_, done, ?_, landed, cur, by rw [state, receiving], fun last => ?_⟩
  · rw [(frame_afterRun ..).mem rfl, hw]
    rfl
  · rw [afterRun_last (by rw [record]; exact last)]
    have kept : WireKept u (putBerth w (pkBerth p) (berthRec w (pkBerth p)) bPending) := by
      rw [hw]
      exact (wireKept_setBerth ..).trans (.of_frame (frame_putBerth ..) rfl)
    refine sentOn_fabReply kept ?_ (pkType_landAck ..)
    rw [(frame_putBerth ..).get F.fabPortStatus_STATE rfl port, hw]
    rfl

end

/-- Settles O41, by the checks of the berth in their order. -/
theorem landingsFollowTheirBerth : Obligations.LandingsFollowTheirBerth := by
  unfold Obligations.LandingsFollowTheirBerth
  intro port p ls s hp run
  refine ⟨gives_run_resetting hp run, fun ready h => ?_, gives_run_early hp run, fun r sg met => gives_run_refused hp run met,
    fun u met => gives_run_lands hp run met⟩
  rw [exec_sailRun hp run, sailRunIn_other ready h]

end Sys2Proof.Proofs
end

section
/-! Departures (R357 to R360, R364, R403; logs 25 and 26): an entry that leaves at its slot, one held past its limit, one missed. -/

namespace Sys2Proof.Proofs

open Sys2Proof.Machine Sys2Proof.Claims Sys2Proof.Laws

/-! The sailing a ferry considers (R358). -/

section
variable {s : State} {f : Nat} {x : Sailing}

/-- It is one back in WAITING, or the next entry's. -/
theorem considered_cases (h : considered s f = some x) :
    returned s f = some x ∨ returned s f = none ∧ s.isSet F.ferryCtrl_RUN f = true ∧ x = nextSailing s f := by
  unfold considered at h
  cases back : returned s f with
  | some y =>
    rw [returned] at back
    rw [back] at h
    exact .inl h
  | none =>
    rw [returned] at back
    rw [back] at h
    dsimp only at h
    split at h
    · rename_i may
      exact .inr ⟨rfl, (Bool.and_eq_true_iff.mp may).1, (Option.some.inj h).symm⟩
    · exact absurd h nofun

theorem mem_of_returned (h : returned s f = some x) : x ∈ s.sail.sailings ∧ x.f = f ∧ x.live = true :=
  mem_liveSailings.mp (List.mem_of_find?_eq_some h)

theorem considered_ferry (h : considered s f = some x) : x.f = f := by
  rcases considered_cases h with back | ⟨-, -, rfl⟩
  · exact (mem_of_returned back).2.1
  · rfl

/-- One that has not departed is the next entry's. -/
theorem considered_next (h : considered s f = some x) (first : departed s x = false) : x = nextSailing s f := by
  rcases considered_cases h with back | ⟨-, -, next⟩
  · obtain ⟨there, -, live⟩ := mem_of_returned back
    rw [departed, List.any_eq_false] at first
    exact absurd (by rw [sailingIs_self, live]; rfl) (first x there)
  · exact next

/-- Its entry and cycle are those shown. -/
theorem considered_shown (h : considered s f = some x) :
    shownEntry s f = x.entry ∧ shownCycle s f = x.cycle ∧ (s.isSet F.ferryCtrl_RUN f || (returned s f).isSome) = true := by
  unfold shownEntry shownCycle
  rcases considered_cases h with back | ⟨back, run, rfl⟩ <;> rw [back]
  · exact ⟨rfl, rfl, by simp⟩
  · exact ⟨rfl, rfl, by simp [run]⟩

/-! An entry held past its limit (R359). -/

/-- The sailing noted as held. -/
def withHeld (s : State) (f : Nat) (x : Sailing) : State := setSails s { s.sail with held := s.sail.held ++ [(f, x.entry, x.cycle)] }

theorem considered_withHeld (y : Sailing) : considered (withHeld s f y) f = considered s f := rfl

theorem exec_lateHold {copy : Nat} (hf : f < 32) (h : considered s f = some x) (limit : limitAt s x copy = true) (waits : mayDepart s x copy = false)
    (hold : s.isSet F.tt_MISS_ACTION f x.entry = false) (new : s.sail.held.contains (f, x.entry, x.cycle) = false) :
    exec (.ferryLateHold f copy) s
      = .next (ferryShow (post (withHeld s f x) (ferryUnit f) (some x.ctx) 0 0x0B10 (sailExtra x.entry x.cycle 0)) f) := by
  have run : exec (.ferryLateHold f copy) s = execFerryLateHold f copy s := rfl
  rw [run, execFerryLateHold, if_pos hf, h]
  dsimp only
  rw [limit, hold, waits, new]
  rfl

theorem gives_lateHold {copy : Nat} (hf : f < 32) (h : considered s f = some x) (limit : limitAt s x copy = true) (waits : mayDepart s x copy = false)
    (hold : s.isSet F.tt_MISS_ACTION f x.entry = false) (new : s.sail.held.contains (f, x.entry, x.cycle) = false) :
    Gives (.ferryLateHold f copy) s (fun t =>
      t.sail.held = s.sail.held ++ [(f, x.entry, x.cycle)] ∧ t.sail.sailings = s.sail.sailings
      ∧ Posts s t (ferryUnit f) (some x.ctx) 0 0x0B10 (sailExtra x.entry x.cycle 0)
      ∧ (s.get F.ferryStatus_STATE f ≠ 5 → t.get F.ferryStatus_STATE f = 3) ∧ Only (.sail :: recordParts) (.ferryStatus :: recordRegs) s t) := by
  have run := exec_lateHold hf h limit waits hold new
  obtain ⟨u, hu⟩ : ∃ u, u = post (withHeld s f x) (ferryUnit f) (some x.ctx) 0 0x0B10 (sailExtra x.entry x.cycle 0) := ⟨_, rfl⟩
  have posted : Frame 77828 (regBits [.evt, .sumpTail, .sumpHold, .rbStatus, .faultStatus, .faultCount]) (withHeld s f x) u := hu ▸ frame_post ..
  have sail : u.sail = (withHeld s f x).sail := posted.sail rfl
  have records := (posts_post_small (withHeld s f x) (ferryUnit f) (some x.ctx) 0 0x0B10 (sailExtra_lt x.entry x.cycle 0)).from (s := s) rfl
  rw [← hu] at run records
  refine ⟨_, run, ?_, ?_, records.later (.of_quiet (frame_ferryShow ..) rfl), fun shown => ?_,
    ((frame_setSails ..).onlyOf rfl).trans ((posted.onlyOf rfl).trans ((frame_ferryShow ..).onlyOf rfl))⟩
  · rw [(frame_ferryShow ..).sail rfl, sail]
    rfl
  · rw [(frame_ferryShow ..).sail rfl, sail]
    rfl
  · have state : u.get F.ferryStatus_STATE f = s.get F.ferryStatus_STATE f := posted.get F.ferryStatus_STATE rfl f
    obtain ⟨entry, cycle, waiting⟩ := considered_shown ((considered_withHeld x).trans h)
    have same : shownState u f = shownState (withHeld s f x) f := shownState_congr f sail (posted.isSet F.ferryCtrl_RUN rfl f)
      (posted.isSet F.ferryCtrl_LOST_ACTION rfl f) (posted.get F.tideLock_STATE rfl)
    have held : (withHeld s f x).sail.held.contains (f, x.entry, x.cycle) = true := by simp [withHeld, setSails]
    rw [get_ferryShow_state, state, if_neg shown, same, shownState, entry, cycle, held, waiting, if_pos (by simp)]

end

/-! A missed entry (R359). -/

section
variable {s : State} {f : Nat} {x : Sailing}

theorem smapGet_set_same {α : Type} [DecidableEq α] (m : SMap α) (d : α) (a : Nat) (v : α) : smapGet (smapSet m d a v) d a = v :=
  (smapGet_set m d a a v).trans (if_pos rfl)

/-- A ferry goes on to its next entry, or to entry 0 after its last (R358). -/
theorem entry_ferryAdvance (s : State) (f : Nat) : smapGet (ferryAdvance s f).sail.entry 0 f
    = if s.isSet F.tt_LAST f (smapGet s.sail.entry 0 f) then 0 else smapGet s.sail.entry 0 f + 1 := by
  have last : (dropHeld s f (smapGet s.sail.entry 0 f) (smapGet s.sail.cycle 0 f)).isSet F.tt_LAST f (smapGet s.sail.entry 0 f)
      = s.isSet F.tt_LAST f (smapGet s.sail.entry 0 f) := rfl
  unfold ferryAdvance
  dsimp only
  rw [last]
  split
  · split
    · rw [State.put_sail]
      exact smapGet_set_same s.sail.entry 0 f 0
    · exact smapGet_set_same s.sail.entry 0 f 0
  · exact smapGet_set_same s.sail.entry 0 f (smapGet s.sail.entry 0 f + 1)

/-- The notice sent, its record posted, MISSED counted. -/
def missNoted (s : State) (x : Sailing) : State :=
  (post (ferrySend s x.f (mkPacket (sailFields s x tMissed))) (ferryUnit x.f) (some x.ctx) 0 0x0B11 (sailExtra x.entry x.cycle 0)).bumpSat
    F.ferryCount_MISSED 1 x.f

theorem frame_missNoted (s : State) (x : Sailing) :
    Frame 78340 (regBits [.ferryCount, .evt, .sumpTail, .sumpHold, .rbStatus, .faultStatus, .faultCount]) s (missNoted s x) :=
  (((frame_ferrySend ..).mono rfl rfl).step (frame_post ..) rfl rfl).bumpSat (by decide)

/-- The ferry after the miss: on to its next entry, or its returned sailing given up. -/
def missLeft (s : State) (x : Sailing) : State :=
  if departed s x then
    let u := dropHeld s x.f x.entry x.cycle
    ferryShow (setSails u { u.sail with sailings := u.sail.sailings.filter (fun y => !sailingIs x y) }) x.f
  else ferryShow (ferryAdvance s x.f) x.f

theorem missEntry_eq (s : State) (x : Sailing) : missEntry s x = missLeft (missNoted s x) x := rfl

theorem frame_missLeft (s : State) (x : Sailing) : Frame 256 (regBits [.ferryCtrl, .ferryStatus]) s (missLeft s x) :=
  .ite (fun _ => (((frame_dropHeld ..).mono rfl rfl).step (frame_setSails ..) rfl rfl).step (frame_ferryShow ..) rfl rfl)
    (fun _ => ((frame_ferryAdvance ..).mono rfl rfl).step (frame_ferryShow ..) rfl rfl)

theorem departed_of_sail {s t : State} (h : t.sail = s.sail) (x : Sailing) : departed t x = departed s x := by rw [departed, h, departed]

theorem exec_miss {copy : Nat} (hf : f < 32) (h : considered s f = some x) (limit : limitAt s x copy = true) (waits : mayDepart s x copy = false)
    (skip : s.isSet F.tt_MISS_ACTION f x.entry = true) : exec (.ferryMiss f copy) s = .next (missEntry s x) := by
  have run : exec (.ferryMiss f copy) s = execFerryMiss f copy s := rfl
  rw [run, execFerryMiss, if_pos hf, h]
  dsimp only
  rw [limit, skip, waits]
  rfl

theorem gives_miss {copy : Nat} (hf : f < 32) (h : considered s f = some x) (limit : limitAt s x copy = true) (waits : mayDepart s x copy = false)
    (skip : s.isSet F.tt_MISS_ACTION f x.entry = true) : Gives (.ferryMiss f copy) s (fun t =>
      t.get F.ferryCount_MISSED f = min (s.get F.ferryCount_MISSED f + 1) (2 ^ 16 - 1)
      ∧ Posts s t (ferryUnit f) (some x.ctx) 0 0x0B11 (sailExtra x.entry x.cycle 0)
      ∧ (departed s x = false → smapGet t.sail.entry 0 f = (if s.isSet F.tt_LAST f x.entry then 0 else x.entry + 1))
      ∧ Only (.sail :: .fab :: recordParts) ([.ferryCtrl, .ferryStatus, .ferryCount] ++ recordRegs) s t) := by
  have run := exec_miss hf h limit waits skip
  rw [missEntry_eq] at run
  have noted := frame_missNoted s x
  have left := frame_missLeft (missNoted s x) x
  have ferry := considered_ferry h
  refine ⟨_, run, ?_, ?_, fun first => ?_, (noted.onlyOf rfl).trans (left.onlyOf rfl)⟩
  · rw [left.get F.ferryCount_MISSED rfl f, ← ferry, missNoted, State.get_bumpSat_same _ 1 x.f 0 rfl, (frame_post ..).get F.ferryCount_MISSED rfl x.f,
      (frame_ferrySend ..).get F.ferryCount_MISSED rfl x.f]
    rfl
  · have posted := (posts_post_small (ferrySend s x.f (mkPacket (sailFields s x tMissed))) (ferryUnit x.f) (some x.ctx) 0 0x0B11
      (sailExtra_lt x.entry x.cycle 0)).from (s := s) (by rw [(frame_ferrySend ..).flt rfl])
    rw [← ferry]
    have counted : RecordsKept (post (ferrySend s x.f (mkPacket (sailFields s x tMissed))) (ferryUnit x.f) (some x.ctx) 0 0x0B11 (sailExtra x.entry x.cycle 0))
        (missNoted s x) := .of_quiet ((Frame.refl 0 (regBits [.ferryCount]) _).bumpSat (by decide)) rfl
    exact (posted.later counted).later (.of_quiet left rfl)
  · have next := considered_next h first
    have entry : x.entry = smapGet s.sail.entry 0 f := by rw [next]; rfl
    have sail := noted.sail rfl
    rw [missLeft, departed_of_sail sail, first, if_neg Bool.false_ne_true, (frame_ferryShow ..).sail rfl, ferry, entry_ferryAdvance, sail, ← entry,
      noted.isSet F.tt_LAST rfl f x.entry]

end

/-! A departure (R357 to R360, R403). -/

/-- LATE counted, the ferry's tile running. -/
def departReady (s : State) (x : Sailing) (copy : Nat) : State :=
  ungate (if dueCount s x.f x.entry x.cycle / 1024 < copy / 1024 then s.bumpSat F.ferryCount_LATE 1 x.f else s) (ferryUnit x.f)

/-- A token of the entry's gate taken. -/
def tokenTaken (s : State) (x : Sailing) : State :=
  if s.isSet F.tt_GATE_EN x.f x.entry then s.put (gateOf s x.f x.entry) (s.get (gateOf s x.f x.entry) x.f - 1) x.f else s

/-- A sailing added, the ferry gone on. -/
def addSailing (s : State) (x : Sailing) : State := ferryAdvance (setSails s { s.sail with sailings := s.sail.sailings ++ [x] }) x.f

/-- A sailing added that issues its lines. -/
def setSailing (s : State) (x : Sailing) (ferry : Nat) : State := ferryShow (issueLines (addSailing s x) x) ferry

/-- A first departure, once its token is taken. -/
def leaveFirst (s : State) (x : Sailing) : State :=
  if s.isSet F.tt_LEN_FROM_HEADER x.f x.entry then
    match readLine s x.ctx x.src with
    | .line l t => setSailing t { x with lines := leAt l.2 4 4, ports := attemptPorts s x.f x.entry } x.f
    | .halt r ca => sailHalt (addSailing s { x with ports := attemptPorts s x.f x.entry }) x r ca
    | .absent sg ca =>
      let t := segNote s x.ctx sg ca (ferryUnit x.f)
      ferryShow (addSailing t { x with ports := attemptPorts s x.f x.entry, st := .cutting, segWait := some (sg, ca), segStart := t.ns, last := t.tideNow }) x.f
  else setSailing s { x with ports := attemptPorts s x.f x.entry } x.f

theorem firstDepart_eq (s : State) (x : Sailing) : firstDepart s x = leaveFirst (tokenTaken s x) x := rfl

theorem depart_eq (s : State) (x : Sailing) (copy : Nat) : depart s x copy
    = if departed (departReady s x copy) x then redepart (departReady s x copy) x else firstDepart (departReady s x copy) x := rfl

theorem gateOf_reg (s : State) (f e : Nat) : (gateOf s f e).reg = .ferryGates := rfl

theorem gateOf_ok (s : State) (f e : Nat) : (gateOf s f e).ok = true := by
  unfold gateOf
  generalize s.get F.tt_GATE f e = k
  have word : (4 * k + 3) / 64 = 4 * k / 64 := by omega
  simp [Fld.ok, F.ferryGates_TOKENS, word]

/-- The registers that what a departing sailing issues may change. -/
def issueRegs : Nat :=
  regBits ([.coreBinding, .coreHaltA, .coreHaltB, .coreHaltC, .coreHaltD, .bolValue, .bolCtrl, .cavClassHits, .cavClassMisses, .cavClassNofill,
    .cavSliceStatus, .dramRegBytes, .dramRegThrottled, .segFault, .engStatus, .ferryCtrl, .ferryStatus, .ferryExc, .berthStatus,
    .coreAdapterHolds, .ctxState, .qStatus, .pwrDomStatus] ++ recordRegs)

section
variable (s : State) (x : Sailing) (copy : Nat)

theorem frame_departReady : Frame 0 (regBits [.ferryCount, .pwrDomStatus]) s (departReady s x copy) :=
  (Frame.ite (fun _ => (Frame.refl ..).bumpSat (by decide)) (fun _ => .refl ..)).step (frame_ungate ..) rfl rfl

theorem frame_tokenTaken : Frame 0 (regBits [.ferryGates]) s (tokenTaken s x) :=
  .ite (fun _ => (Frame.refl ..).put (by rw [gateOf_reg]; decide)) (fun _ => .refl ..)

theorem frame_addSailing : Frame 256 (regBits [.ferryCtrl]) s (addSailing s x) :=
  ((frame_setSails ..).mono rfl rfl).step (frame_ferryAdvance ..) rfl rfl

theorem frame_setSailing (ferry : Nat) : Frame 95102 issueRegs s (setSailing s x ferry) :=
  (((frame_addSailing s x).mono rfl rfl).step (frame_issueLines ..) rfl rfl).step (frame_ferryShow ..) rfl rfl

theorem frame_leaveFirst : Frame 95102 issueRegs s (leaveFirst s x) := by
  refine .ite (fun _ => ?_) (fun _ => frame_setSailing ..)
  split
  · rename_i read
    exact ((frame_readLine_memory read).mono rfl rfl).step (frame_setSailing ..) rfl rfl
  · exact ((frame_addSailing ..).mono rfl rfl).step (frame_sailHalt ..) rfl rfl
  · exact (((frame_segNote ..).mono rfl rfl).step (frame_addSailing ..) rfl rfl).step (frame_ferryShow ..) rfl rfl

/-! The counts and the gate. -/

theorem late_departReady : (departReady s x copy).get F.ferryCount_LATE x.f
    = if dueCount s x.f x.entry x.cycle / 1024 < copy / 1024 then min (s.get F.ferryCount_LATE x.f + 1) (2 ^ 16 - 1) else s.get F.ferryCount_LATE x.f := by
  rw [departReady, (frame_ungate ..).get F.ferryCount_LATE rfl x.f]
  split
  · rw [State.get_bumpSat_same _ 1 x.f 0 rfl]
    rfl
  · rfl

theorem sailed_departReady : (departReady s x copy).get F.ferryCount_SAILED x.f = s.get F.ferryCount_SAILED x.f := by
  rw [departReady, (frame_ungate ..).get F.ferryCount_SAILED rfl x.f]
  split
  · exact State.get_put_bits _ _ _ _ _ _ rfl rfl (by decide)
  · rfl

theorem count_depart {f : Fld} (reg : f.reg = .ferryCount) (i : Nat) : (depart s x copy).get f i = (departReady s x copy).get f i := by
  rw [depart_eq]
  split
  · exact (frame_redepart ..).get f (by rw [reg]; rfl) i
  · exact (frame_firstDepart ..).get f (by rw [reg]; rfl) i

theorem get_tokenTaken : (tokenTaken s x).get (gateOf s x.f x.entry) x.f
    = s.get (gateOf s x.f x.entry) x.f - (if s.isSet F.tt_GATE_EN x.f x.entry then 1 else 0) := by
  unfold tokenTaken
  split
  · rw [State.get_put_same _ _ _ _ (gateOf_ok ..)]
    exact Nat.mod_eq_of_lt (Nat.lt_of_le_of_lt (Nat.sub_le ..) (State.get_lt _ _ _ _ (gateOf_ok ..)))
  · rfl

theorem gateOf_departReady : gateOf (departReady s x copy) x.f x.entry = gateOf s x.f x.entry := by
  rw [gateOf, (frame_departReady ..).get F.tt_GATE rfl x.f x.entry, gateOf]

theorem gate_depart (first : departed s x = false) : (depart s x copy).get (gateOf s x.f x.entry) x.f
    = s.get (gateOf s x.f x.entry) x.f - (if s.isSet F.tt_GATE_EN x.f x.entry then 1 else 0) := by
  have ready := frame_departReady s x copy
  have token := get_tokenTaken (departReady s x copy) x
  rw [gateOf_departReady, ready.get (gateOf s x.f x.entry) (by rw [gateOf_reg]; rfl) x.f, ready.isSet F.tt_GATE_EN rfl x.f x.entry] at token
  rw [depart_eq, departed_of_sail (ready.sail rfl), first, if_neg Bool.false_ne_true, firstDepart_eq,
    (frame_leaveFirst ..).get (gateOf s x.f x.entry) (by rw [gateOf_reg]; rfl) x.f, token]

end

/-! One of no lines: one run, on the port of its set with the fewest slots queued (R368, R403, log 25). -/

theorem entry_abortSailing (s : State) (x : Sailing) (reason : Nat) : (abortSailing s x reason).sail.entry = s.sail.entry := by
  by_cases h : x.live = true
  · rw [sail_abortSailing s reason h]
  · rw [abortSailing_dead _ _ _ (by simpa using h)]

theorem entry_cutSailing (s : State) (x : Sailing) : (cutSailing s x).sail.entry = s.sail.entry := by
  unfold cutSailing
  split
  · split
    · exact entry_abortSailing ..
    · rw [(frame_ferryShow ..).sail rfl, updSailing]
  · rfl

theorem entry_runLost (s : State) (p : Packet) : (runLost s p).sail.entry = s.sail.entry := by
  unfold runLost
  split
  · split
    · exact entry_cutSailing ..
    · rfl
  · rfl

/-- Whatever becomes of a run, the ferry's next entry stays. -/
theorem entry_sendRun (s : State) (x : Sailing) (first : Nat) (ls : List Line) : (sendRun s x first ls).sail.entry = s.sail.entry := by
  unfold sendRun
  dsimp only
  split
  · rw [(frame_sendOn ..).sail rfl]
  · exact entry_runLost ..

theorem mem_of_leastQueued {s : State} {l : List Nat} {q : Nat} (h : leastQueued s l = some q) : q ∈ l := by
  induction l generalizing q with
  | nil => exact absurd h nofun
  | cons p l ih =>
    unfold leastQueued at h
    cases rest : leastQueued s l with
    | none =>
      rw [rest] at h
      rw [← Option.some.inj h]
      exact List.mem_cons_self ..
    | some r =>
      rw [rest] at h
      dsimp only at h
      split at h
      · rw [← Option.some.inj h]
        exact List.mem_cons_self ..
      · rw [← Option.some.inj h]
        exact List.mem_cons_of_mem p (ih rest)

theorem leastQueued_of_fab {s t : State} (h : t.fab = s.fab) (l : List Nat) : leastQueued t l = leastQueued s l := by
  have slots (p : Nat) : queuedSlots t p = queuedSlots s p := by rw [queuedSlots, portState, h, queuedSlots, portState]
  induction l with
  | nil => rfl
  | cons p l ih =>
    unfold leastQueued
    rw [ih]
    simp only [slots]

theorem active_attemptPorts {s : State} {f e q : Nat} (h : q ∈ attemptPorts s f e) : s.get F.fabPortStatus_STATE q = 2 := by
  have active := (List.mem_filter.mp (List.mem_filter.mp (List.mem_filter.mp h).1).1).2
  simpa using active

/-- A port set is read off the ports and the entry's route. -/
theorem attemptPorts_of_frame {ps rs : Nat} {s t : State} (h : Frame ps rs s t)
    (quiet : (!rs.testBit RegId.fabPortStatus.ctorIdx && !rs.testBit RegId.fabPortCtrl.ctorIdx && !rs.testBit RegId.ferryRoute.ctorIdx
      && !rs.testBit RegId.tt.ctorIdx) = true) (f e : Nat) : attemptPorts t f e = attemptPorts s f e := by
  simp only [Bool.and_eq_true, Bool.not_eq_true'] at quiet
  obtain ⟨⟨⟨status, ctrl⟩, route⟩, table⟩ := quiet
  have state (p : Nat) := h.get F.fabPortStatus_STATE status p
  have disabled (p : Nat) := h.isSet F.fabPortCtrl_DISABLE ctrl p
  simp only [attemptPorts, openPorts, activePorts, state, disabled, h.get F.tt_ROUTE table f e, h.get F.ferryRoute_PORT_MASK route f _]

/-- The fields of a sailing's packet after its TYPE. -/
def sailRest (s : State) (x : Sailing) : List (Nat × Nat × Nat) :=
  [(31, 16, x.node), (47, 32, thisNode s), (59, 48, x.berth), (61, 60, x.attempt % 4), (68, 64, x.f), (91, 80, x.entry), (107, 92, x.cycle)]

theorem sailFields_eq (s : State) (x : Sailing) (ty : Nat) : sailFields s x ty = (7, 0, ty) :: sailRest s x := rfl

/-- A run sent on a port of its set that is ACTIVE. -/
theorem sendRun_on {s : State} {x : Sailing} {q : Nat} (least : leastQueued s x.ports = some q) (active : s.get F.fabPortStatus_STATE q = 2) (first : Nat)
    (ls : List Line) : ∃ p, pkType p = tSailRun ∧ sendRun s x first ls = sendOn s q p ls := by
  have type : pkType (mkPacket (sailFields s x tSailRun ++ [(159, 128, first), (191, 160, x.lines), (203, 192, ls.length)])) = tSailRun := by
    rw [sailFields_eq, List.cons_append]
    exact pf_mkPacket (by decide) (by decide) [] tSailRun rfl
  refine ⟨mkPacket (sailFields s x tSailRun ++ [(159, 128, first), (191, 160, x.lines), (203, 192, ls.length)]), type, ?_⟩
  have chosen : (leastQueued s x.ports).filter (fun q => s.get F.fabPortStatus_STATE q == 2 || s.get F.fabPortStatus_STATE q == 3) = some q := by
    rw [least, Option.filter_some, if_pos (by rw [active]; rfl)]
  unfold sendRun
  dsimp only
  rw [chosen]

theorem sailings_ferryAdvance (s : State) (f : Nat) : (ferryAdvance s f).sail.sailings = s.sail.sailings := by
  unfold ferryAdvance
  dsimp only
  split
  · split
    · rw [State.put_sail]
      rfl
    · rfl
  · rfl

/-- A sailing of no lines as it sends its one run. -/
def runNoted (s : State) (x : Sailing) : State :=
  updSailing (addSailing s x) x (fun y => { y with last := (addSailing s x).tideNow })

theorem setSailing_noLines {x : Sailing} (none_ : x.lines = 0) (s : State) (ferry : Nat) :
    setSailing s x ferry = ferryShow (sendRun (runNoted s x) x 0 []) ferry := by
  rw [setSailing, issueLines, if_pos none_, runNoted]

theorem frame_runNoted (s : State) (x : Sailing) : Frame 256 (regBits [.ferryCtrl]) s (runNoted s x) :=
  (frame_addSailing s x).step (frame_updSailing ..) rfl rfl

theorem entry_runNoted (s : State) (x : Sailing) : smapGet (runNoted s x).sail.entry 0 x.f
    = if s.isSet F.tt_LAST x.f (smapGet s.sail.entry 0 x.f) then 0 else smapGet s.sail.entry 0 x.f + 1 :=
  entry_ferryAdvance (setSails s { s.sail with sailings := s.sail.sailings ++ [x] }) x.f

/-- The sailing is there, its last run at this tide count. -/
theorem mem_runNoted (s : State) (x : Sailing) : { x with last := s.tideNow } ∈ (runNoted s x).sail.sailings := by
  have there : x ∈ (addSailing s x).sail.sailings := by
    rw [addSailing, sailings_ferryAdvance]
    exact List.mem_append_right s.sail.sailings (List.mem_singleton_self x)
  have now : (addSailing s x).tideNow = s.tideNow := (frame_addSailing s x).get F.tideCount_COUNT rfl
  refine List.mem_map.mpr ⟨x, there, ?_⟩
  rw [if_pos (sailingIs_self x), now]

section
variable {s : State} {f copy : Nat} {x : Sailing} (hf : f < 32) (h : considered s f = some x) (may : mayDepart s x copy = true)
include hf h may

theorem exec_depart : exec (.ferryDepart f copy) s = .next (depart s x copy) := by
  have run : exec (.ferryDepart f copy) s = execFerryDepart f copy s := rfl
  rw [run, execFerryDepart, if_pos hf, h]
  dsimp only
  rw [if_pos may]

end

/-- A sailing with the port set of its attempt. -/
def withPorts (s : State) (x : Sailing) : Sailing := { x with ports := attemptPorts s x.f x.entry }

/-- The block before the sailing of a first departure is added. -/
def departToken (s : State) (x : Sailing) (copy : Nat) : State := tokenTaken (departReady s x copy) x

theorem frame_departToken (s : State) (x : Sailing) (copy : Nat) : Frame 0 (regBits [.ferryCount, .pwrDomStatus, .ferryGates]) s (departToken s x copy) :=
  ((frame_departReady ..).mono rfl rfl).step (frame_tokenTaken ..) rfl rfl

section
variable {s : State} {x : Sailing} (copy : Nat) (h : considered s x.f = some x) (first : departed s x = false)
  (plain : s.isSet F.tt_LEN_FROM_HEADER x.f x.entry = false) (none_ : x.lines = 0)
include first plain none_

/-- A first departure of no lines: its one run on its set. -/
theorem depart_noLines : depart s x copy = ferryShow (sendRun (runNoted (departToken s x copy) (withPorts s x)) (withPorts s x) 0 []) x.f := by
  have token := frame_departToken s x copy
  have off : (departToken s x copy).isSet F.tt_LEN_FROM_HEADER x.f x.entry = false := by rw [token.isSet F.tt_LEN_FROM_HEADER rfl x.f x.entry, plain]
  rw [depart_eq, departed_of_sail ((frame_departReady s x copy).sail rfl), first, if_neg Bool.false_ne_true, firstDepart_eq, ← departToken, leaveFirst, off,
    if_neg Bool.false_ne_true, attemptPorts_of_frame token rfl x.f x.entry]
  exact setSailing_noLines (x := withPorts s x) none_ ..

include h

theorem entry_depart : smapGet (depart s x copy).sail.entry 0 x.f = (if s.isSet F.tt_LAST x.f x.entry then 0 else x.entry + 1) := by
  have token := frame_departToken s x copy
  have sail := token.sail rfl
  have entry : smapGet (departToken s x copy).sail.entry 0 x.f = x.entry := by
    rw [sail, considered_next h first]
    rfl
  have noted : smapGet (runNoted (departToken s x copy) (withPorts s x)).sail.entry 0 x.f
      = if (departToken s x copy).isSet F.tt_LAST x.f (smapGet (departToken s x copy).sail.entry 0 x.f) then 0
        else smapGet (departToken s x copy).sail.entry 0 x.f + 1 := entry_runNoted (departToken s x copy) (withPorts s x)
  rw [entry, token.isSet F.tt_LAST rfl x.f x.entry] at noted
  rw [depart_noLines copy first plain none_, (frame_ferryShow ..).sail rfl, entry_sendRun, noted]

/-- The run leaves on the emptiest port of the set, where it has credits and room. -/
theorem sent_depart {q : Nat} (least : leastQueued s (attemptPorts s x.f x.entry) = some q) :
    (∃ y ∈ (depart s x copy).sail.sailings, sailingIs x y = true ∧ y.st = .sailing ∧ y.ports = attemptPorts s x.f x.entry ∧ y.last = s.tideNow)
    ∧ ((portState s q).queue = [] → 1 ≤ (portState s q).credits → (portState s q).kept < replaySlots →
      ∃ p, (depart s x copy).out.pkts = s.out.pkts ++ [(q, p)] ∧ pkType p = tSailRun) := by
  have token := frame_departToken s x copy
  have active := active_attemptPorts (mem_of_leastQueued least)
  have did := depart_noLines copy first plain none_
  have there := mem_runNoted (departToken s x copy) (withPorts s x)
  have now : (departToken s x copy).tideNow = s.tideNow := token.get F.tideCount_COUNT rfl
  obtain ⟨v, hv⟩ : ∃ v, v = runNoted (departToken s x copy) (withPorts s x) := ⟨_, rfl⟩
  have noted : Frame 256 (regBits [.ferryCount, .pwrDomStatus, .ferryGates, .ferryCtrl]) s v :=
    hv ▸ (token.mono rfl rfl).step (frame_runNoted ..) rfl rfl
  rw [← hv] at did there
  rw [now] at there
  have fab : v.fab = s.fab := noted.fab rfl
  have up : v.get F.fabPortStatus_STATE q = 2 := by rw [noted.get F.fabPortStatus_STATE rfl q, active]
  have chosen : leastQueued v (withPorts s x).ports = some q := (leastQueued_of_fab fab _).trans least
  obtain ⟨p, type, sent⟩ := sendRun_on chosen up 0 []
  rw [sent] at did
  have port : portState v q = portState s q := by rw [portState, fab, portState]
  have st : x.st = .sailing := by
    rw [considered_next h first]
    rfl
  rw [did]
  refine ⟨⟨{ withPorts s x with last := s.tideNow }, ?_, sailingIs_self x, st, rfl, rfl⟩, fun empty credits room => ⟨p, ?_, type⟩⟩
  · rw [(frame_ferryShow ..).sail rfl, (frame_sendOn ..).sail rfl]
    exact there
  · rw [(frame_ferryShow ..).out rfl, pkts_sendOn up (by rw [port, empty]) (by rw [port]; exact credits) (by rw [port]; exact room), noted.out rfl]

end

theorem gives_depart {s : State} {f copy : Nat} {x : Sailing} (hf : f < 32) (h : considered s f = some x) (may : mayDepart s x copy = true) :
    Gives (.ferryDepart f copy) s (fun t =>
      t.get F.ferryCount_LATE f = (if dueCount s f x.entry x.cycle / 1024 < copy / 1024 then min (s.get F.ferryCount_LATE f + 1) (2 ^ 16 - 1)
        else s.get F.ferryCount_LATE f)
      ∧ t.get F.ferryCount_SAILED f = s.get F.ferryCount_SAILED f
      ∧ (departed s x = false → t.get (gateOf s f x.entry) f = s.get (gateOf s f x.entry) f - (if s.isSet F.tt_GATE_EN f x.entry then 1 else 0))
      ∧ (departed s x = false → s.isSet F.tt_LEN_FROM_HEADER f x.entry = false → x.lines = 0 →
        smapGet t.sail.entry 0 f = (if s.isSet F.tt_LAST f x.entry then 0 else x.entry + 1)
        ∧ (∀ q, leastQueued s (attemptPorts s f x.entry) = some q →
          (∃ y ∈ t.sail.sailings, sailingIs x y = true ∧ y.st = .sailing ∧ y.ports = attemptPorts s f x.entry ∧ y.last = s.tideNow)
          ∧ ((portState s q).queue = [] → 1 ≤ (portState s q).credits → (portState s q).kept < replaySlots →
            ∃ p, t.out.pkts = s.out.pkts ++ [(q, p)] ∧ pkType p = tSailRun)))) := by
  obtain rfl := considered_ferry h
  have late := late_departReady s x copy
  have sailed := sailed_departReady s x copy
  rw [← count_depart s x copy rfl] at late sailed
  exact ⟨_, exec_depart hf h may, late, sailed, gate_depart s x copy,
    fun first plain none_ => ⟨entry_depart copy h first plain none_, fun q => sent_depart copy h first plain none_⟩⟩

/-- Settles O39, by what a slot boundary does to the sailing its ferry considers. -/
theorem sailingsDepartAtTheirSlots : Obligations.SailingsDepartAtTheirSlots := by
  unfold Obligations.SailingsDepartAtTheirSlots
  intro f copy s x hf h
  exact ⟨gives_depart hf h, fun limit waits => ⟨gives_lateHold hf h limit waits, gives_miss hf h limit waits⟩⟩

end Sys2Proof.Proofs
end
